-- ==== Sys2Proof/Word.lean ====
section
/-! DEFINITION. The word and byte types of the register space (00_scope.md R9: registers are 32-bit
little-endian words). -/

namespace Sys2Proof

/-- One 32-bit register word (R9). -/
abbrev Word := BitVec 32

/-- One byte. -/
abbrev Byte := BitVec 8

end Sys2Proof
end

