-- ==== Sys2Proof/Machine/Bits.lean ====
section
/-! DEFINITION. Bit fields of a register word, counters that hold or wrap, and the byte order of
multi-byte values (R9, R11). -/

namespace Sys2Proof.Machine

/-- A word from a number, modulo 2^32. -/
def w32 (n : Nat) : Word := BitVec.ofNat 32 n

/-- The field `[hi:lo]` of a word, as a number. -/
def fld (w : Word) (hi lo : Nat) : Nat := (w.toNat >>> lo) % 2 ^ (hi + 1 - lo)

/-- Bit `i` of a word. -/
def bit (w : Word) (i : Nat) : Bool := w.getLsbD i

/-- The word with ones exactly in bits `[hi:lo]`. -/
def ones (hi lo : Nat) : Word := w32 ((2 ^ (hi + 1 - lo) - 1) * 2 ^ lo)

/-- `w` with its field `[hi:lo]` replaced by `v` (modulo the field's width). -/
def setFld (w : Word) (hi lo v : Nat) : Word :=
  (w &&& ~~~ ones hi lo) ||| w32 (v % 2 ^ (hi + 1 - lo) * 2 ^ lo)

/-- `w` with bit `i` set to `b`. -/
def setBit (w : Word) (i : Nat) (b : Bool) : Word :=
  if b then w ||| w32 (2 ^ i) else w &&& ~~~ w32 (2 ^ i)

/-- 1 for true, 0 for false. -/
def b2n (b : Bool) : Nat := if b then 1 else 0

/-- The word with bit `i` alone set. -/
def bitW (i : Nat) : Word := w32 (2 ^ i)

/-- A count that stays at its limit once there. -/
def holdAt (limit n : Nat) : Nat := min limit n

/-- A 32-bit counter advanced by `k` that holds at 0xFFFF_FFFF. -/
def incHold (w : Word) (k : Nat := 1) : Word := w32 (holdAt 0xFFFFFFFF (w.toNat + k))

/-- A 32-bit counter advanced by `k` that wraps. -/
def incWrap (w : Word) (k : Nat := 1) : Word := w32 (w.toNat + k)

/-- `v` brought to the nearest limit of `[lo, hi]`. -/
def clampN (lo hi v : Nat) : Nat := max lo (min hi v)

/-- `v` brought to the nearest limit of `[lo, hi]`. -/
def clampI (lo hi v : Int) : Int := max lo (min hi v)

/-- A 32-bit two's-complement word as a number. -/
def sword (w : Word) : Int := w.toInt

/-- A number as a 32-bit two's-complement word, held at ±0x7FFF_FFFF. -/
def swordHold (v : Int) : Word := BitVec.ofInt 32 (clampI (-0x7FFFFFFF) 0x7FFFFFFF v)

/-- The low and high words of a 64-bit value. -/
def lo32 (n : Nat) : Word := w32 n
/-- Bits [63:32]. -/
def hi32 (n : Nat) : Word := w32 (n >>> 32)

/-- The number of two words, low word first. -/
def join64 (lo hi : Word) : Nat := lo.toNat + hi.toNat * 2 ^ 32

/-- `n` bytes of a value, least significant byte first. -/
def leBytes : Nat → Nat → List Byte
  | 0, _ => []
  | k + 1, v => BitVec.ofNat 8 v :: leBytes k (v / 256)

/-- `n` bytes of a value, most significant byte first. -/
def beBytes (n v : Nat) : List Byte := (leBytes n v).reverse

/-- The value of bytes, least significant byte first. -/
def leVal : List Byte → Nat
  | [] => 0
  | b :: bs => b.toNat + 256 * leVal bs

/-- The value of bytes, most significant byte first. -/
def beVal (bs : List Byte) : Nat := leVal bs.reverse

/-- The number of ones in the low `n` bits. -/
def popCount (w : Nat) (n : Nat := 32) : Nat :=
  (List.range n).foldl (fun a i => if w.testBit i then a + 1 else a) 0

/-- The indices of the ones in the low `n` bits, ascending. -/
def onesOf (w : Nat) (n : Nat := 32) : List Nat := (List.range n).filter (fun i => w.testBit i)

/-- Replace element `i` of a list. -/
def putAt {α : Type} (l : List α) (i : Nat) (v : α) : List α := l.set i v

/-- Element `i` of a list, or `d`. -/
def atD {α : Type} (l : List α) (i : Nat) (d : α) : α := l.getD i d

/-- Change element `i` of a list. -/
def modAt {α : Type} : List α → Nat → (α → α) → List α
  | [], _, _ => []
  | a :: l, 0, f => f a :: l
  | a :: l, i + 1, f => a :: modAt l i f

/-- Cut a list into pieces of `n` elements, the last one shorter (fuel: the list's length). -/
def chunksAux {α : Type} (n : Nat) : Nat → List α → List (List α)
  | 0, _ => []
  | _, [] => []
  | f + 1, l => l.take n :: chunksAux n f (l.drop n)

/-- Cut a list into pieces of `n` elements, the last one shorter. -/
def chunks {α : Type} (n : Nat) (l : List α) : List (List α) := chunksAux n l.length l

/-- One step of CRC-32C over one byte (reflected polynomial 0x82F63B78). -/
def crc32cByte (crc : Word) (b : Byte) : Word :=
  (List.range 8).foldl (fun c _ => if c.getLsbD 0 then (c >>> 1) ^^^ 0x82F63B78#32 else c >>> 1)
    (crc ^^^ b.setWidth 32)

/-- CRC-32C of bytes, with the usual initial value and final complement. -/
def crc32c (bs : List Byte) : Word := ~~~ (bs.foldl crc32cByte 0xFFFFFFFF#32)

/-- CRC-8 of bytes, polynomial x^8 + x^2 + x + 1, initial value 0 (the SMBus and PMBus PEC). -/
def crc8 (bs : List Byte) : Byte :=
  bs.foldl (fun c b => (List.range 8).foldl
    (fun c _ => if c.getLsbD 7 then (c <<< 1) ^^^ 0x07#8 else c <<< 1) (c ^^^ b)) 0#8

end Sys2Proof.Machine
end

