-- ==== Sys2Proof/Machine/Types.lean ====
section
/-! DEFINITION. The names of the hub that commands and state share: blocks (Table 1.1), roles (Table 0.1),
access paths (Table 3.9). -/

namespace Sys2Proof

/-- The seventeen blocks, in masthead order (Table 3.12). -/
inductive Block where
  | stw | pmc | lnx | kll | mir | tsc | tss | fcm | dse | vin | eth | pxb | usb | ppc | pmu | ksi | sit
  deriving DecidableEq, Repr

/-- The role the straps select (R2, Table 0.1). -/
inductive Role where
  | root | transit | leaf | reserved
  deriving DecidableEq, Repr

/-- The access paths of REQ_TICKET.SRC (Table 3.9). -/
inductive Path where
  | bar0 | bar2 | spi | smbus | steward
  deriving DecidableEq, Repr

/-- The seven strap balls and TESTMODE as sampled at POR release (Table 2.2, R38, R40). -/
structure Straps where
  role1 : Bool := false
  role0 : Bool := false
  side : Bool := false
  profile : Bool := false
  smbAddr : BitVec 2 := 0
  boot : Bool := false
  testmode : Bool := false
  deriving DecidableEq, Repr

/-- The six main-die rails that R44 watches, VDD_CORE among them. -/
inductive Rail where
  | core | mem | lane | laneH | phy12 | io18 | usb33
  deriving DecidableEq, Repr

/-- All seventeen blocks, in masthead order. -/
def Block.all : List Block :=
  [.stw, .pmc, .lnx, .kll, .mir, .tsc, .tss, .fcm, .dse, .vin, .eth, .pxb, .usb, .ppc, .pmu, .ksi, .sit]

/-- Masthead bit position (Table 3.12). -/
def Block.idx : Block → Nat
  | .stw => 0 | .pmc => 1 | .lnx => 2 | .kll => 3 | .mir => 4 | .tsc => 5 | .tss => 6 | .fcm => 7
  | .dse => 8 | .vin => 9 | .eth => 10 | .pxb => 11 | .usb => 12 | .ppc => 13 | .pmu => 14
  | .ksi => 15 | .sit => 16

/-- Complex number (Table 1.1). -/
def Block.complex : Block → Nat
  | .stw | .pmc => 0
  | .lnx | .kll | .mir => 1
  | .tsc | .tss | .fcm => 2
  | .dse | .vin | .eth | .pxb | .usb => 3
  | .ppc | .pmu | .ksi | .sit => 4

/-- Block index within its complex (Table 1.1). -/
def Block.sub : Block → Nat
  | .stw | .lnx | .tsc | .dse | .ppc => 0
  | .pmc | .kll | .tss | .vin | .pmu => 1
  | .mir | .fcm | .eth | .ksi => 2
  | .pxb | .sit => 3
  | .usb => 4

/-- Base address: complex × 0x0080_0000 + block × 0x0010_0000 (00_scope.md, Registers). -/
def Block.base (b : Block) : Nat := b.complex * 0x00800000 + b.sub * 0x00100000

/-- The block's logic is on the custody die (Table 3.3, CUSTODY). -/
def Block.custody : Block → Bool
  | .ppc | .pmu | .ksi | .sit => true
  | _ => false

/-- The block whose 1 MiB region holds a byte address, if one does. -/
def Block.at (a : Nat) : Option Block := Block.all.find? (fun b => b.base ≤ a && a < b.base + 0x100000)

/-- REQ_TICKET.SRC code of a path (Table 3.9). -/
def Path.code : Path → Nat
  | .bar0 => 0 | .bar2 => 1 | .spi => 2 | .smbus => 3 | .steward => 4

/-- The role of a strap combination (Table 0.1; ROLE1 the high bit). -/
def Straps.role (s : Straps) : Role :=
  match s.role1, s.role0 with
  | false, false => .root
  | false, true => .transit
  | true, false => .leaf
  | true, true => .reserved

/-- The role's two-bit code (Table 0.1). -/
def Role.code : Role → Nat
  | .root => 0 | .transit => 1 | .leaf => 2 | .reserved => 3

/-- STW_ROLE.STRAP_ERR (Table 2.3): the reserved role, or TESTMODE high at POR release. -/
def Straps.err (s : Straps) : Bool := decide (s.role = .reserved) || s.testmode

/-- STW_ROLE (Table 2.3). SIDE reads 0 in LEAF. -/
def Straps.roleWord (s : Straps) : Word :=
  Machine.w32 (s.role.code
    + 4 * Machine.b2n (s.side && !decide (s.role = .leaf))
    + 8 * Machine.b2n s.profile + 16 * s.smbAddr.toNat + 64 * Machine.b2n s.boot
    + 128 * Machine.b2n s.err)

/-- BLK_CAP.PRESENT: whether the block operates in the hub's role (R3, R5, Table 0.2, R12). DSE and PXB are
absent in TRANSIT, VIN and PPC outside LEAF, USB in TRANSIT, MIR in LEAF; with a strap error no link port
and no edge port is enabled (Table 0.1, R38), so only the blocks that do not carry ports stay present. -/
def Straps.present (s : Straps) : Block → Bool
  | .dse | .pxb | .usb => !s.err && decide (s.role = .root ∨ s.role = .leaf)
  | .vin | .ppc => !s.err && decide (s.role = .leaf)
  | .mir => !s.err && decide (s.role = .root ∨ s.role = .transit)
  | .lnx | .kll | .eth => !s.err
  | _ => true

/-- A lane number. -/
abbrev LaneNo := Fin 40
/-- A context slot number. -/
abbrev SlotNo := Fin 8192
/-- A port code of Table 6.4. -/
abbrev PortNo := Fin 22
/-- An egress port code, 0x00 to 0x11. -/
abbrev EgressNo := Fin 18
/-- A link port code, 0x00 to 0x08. -/
abbrev LinkNo := Fin 9
/-- A power channel. -/
abbrev ChanNo := Fin 6

/-- The registers of a gate bank: its entries, BASE, CYCLE and LEN (Tables 8.1 and 8.4). -/
inductive GateReg where
  | entry (e : Fin 256)
  | baseLo | baseHi | cycle | len
  deriving DecidableEq, Repr

/-- A mirror record (Table 9.4). The operation of a CTX_OP is 0 create, 1 policy, 2 pin, 3 unpin, 4 delete. -/
inductive MirRec where
  | ctxOp (op flow : Nat) (words : List Word)
  | seq (flow inseq expect lastRx : Nat)
  | credit (port hub : Nat) (adv out : List Nat)
  | gate (port off : Nat) (v : Word) (time : Nat)
  | shape (flow : Nat) (bucket : Int)
  | reserved (type : Nat)
  deriving DecidableEq, Repr

/-- A request that reaches the bridge on its own PCIe link: at a ROOT the BAR it hits, with the offset in it; at a LEAF a bus
address. -/
structure PcieReq where
  bar : Nat
  write : Bool
  addr : Nat
  len : Nat
  fbe : Nat
  lbe : Nat
  tag : Nat
  data : List Byte
  deriving DecidableEq, Repr

/-- A request on AUX at a ROOT input (R318): a DPCD read, an EDID read, or the writes of a link training that has ended with
the main link trained at a rate code and lane count. -/
inductive AuxReq where
  | dpcd (addr len : Nat)
  | edid (offset len : Nat)
  | trained (rate lanes : Nat)
  deriving DecidableEq, Repr

/-- A received active line at a ROOT input (R304): whether it is the first or the last of its picture, whether a lane showed an
invalid symbol, the MSA (active and total pixels and lines, pixel clock in kHz), the format of Table 11.3 that the MSA gives
(none: outside Table 11.1), the other secondary packets received, and the pixels packed in that format. -/
structure DpRxLine where
  first : Bool
  last : Bool
  symErr : Bool
  hact : Nat
  htotal : Nat
  vact : Nat
  vtotal : Nat
  pclk : Nat
  format : Option (Fin 5)
  sdps : Nat
  pixels : List Byte
  deriving DecidableEq, Repr

/-- What a CSI-2 packet's reception showed (Table 12.3): good, header corrected, header uncorrectable, payload CRC failed,
a sync error at the start of transmission, or a burst that ended inside the packet. -/
inductive CsiCheck where
  | good | fixed | badHeader | badCrc | badSync | cut
  deriving DecidableEq, Repr

/-- A host's packets at U0 (R385): a SETUP with its 8 bytes, an OUT with its data and toggle, PING, an IN token, the host's ACK of
an IN, and a token of an isochronous transfer. -/
inductive UsbTok where
  | setup (data : List Byte)
  | out (toggle : Bool) (data : List Byte)
  | ping
  | inTok
  | ack
  | iso
  deriving DecidableEq, Repr

/-- A device's answer at a LEAF port (R385, R387): ACK, NAK, STALL, data, or an error after three tries. -/
inductive UsbAns where
  | ack | nak | stall | error
  | data (d : List Byte)
  deriving DecidableEq, Repr

/-- What a power channel samples in one tick (R405): VIN and VOUT in mV, the current in 10 mA, the TEMP voltage in mV, SRC in
mV, and whether the gate stands below SRC + 8 V. -/
structure PpcSample where
  vin : Nat
  vout : Nat
  cur : Nat
  temp : Nat
  src : Nat
  under : Bool
  deriving DecidableEq, Repr

/-- A firmware image as STW finds it in a slot (R499, R500): its magic is right, its version and length, and whether its
certificate chains to the ROM key and its signature verifies. -/
structure FwImage where
  magic : Bool
  version : BitVec 32
  len : Nat
  chain : Bool
  signed : Bool
  deriving DecidableEq, Repr

/-- Where an uncorrectable memory error lies, where the spec gives it an effect beyond its fault source: a context slot (R220), the
ledger's memory (R185), an entry of a gate list (R241), a counter or a histogram bin (R495), the live bank of a logical one
(R182), the descriptor of a cell (R179); `corrected` is a corrected error, which is no event of a source: the block counts it (R18), and
TSC by its live bank (R182). -/
inductive EccAt where
  | slot (s : SlotNo)
  | ledger
  | gate (t : EgressNo) (bank : Bool) (e : Fin 256)
  | counter (n : Fin 256)
  | bin (frozen : Bool) (n : Fin 32) (b : Fin 64)
  | bank (lb : Fin 32)
  | desc (i : BitVec 16)
  | corrected (lb : Fin 32)
  deriving DecidableEq, Repr

/-- A completion's PCIe status: Successful Completion, Unsupported Request, Completer Abort, or successful and poisoned. -/
inductive CplStatus where
  | ok | ur | ca | poisoned
  deriving DecidableEq, Repr

/-- One value per block. -/
structure PerBlock (α : Type) where
  stw : α
  pmc : α
  lnx : α
  kll : α
  mir : α
  tsc : α
  tss : α
  fcm : α
  dse : α
  vin : α
  eth : α
  pxb : α
  usb : α
  ppc : α
  pmu : α
  ksi : α
  sit : α
  deriving DecidableEq, Repr

/-- The value of one block. -/
def PerBlock.get {α : Type} (p : PerBlock α) : Block → α
  | .stw => p.stw | .pmc => p.pmc | .lnx => p.lnx | .kll => p.kll | .mir => p.mir | .tsc => p.tsc
  | .tss => p.tss | .fcm => p.fcm | .dse => p.dse | .vin => p.vin | .eth => p.eth | .pxb => p.pxb
  | .usb => p.usb | .ppc => p.ppc | .pmu => p.pmu | .ksi => p.ksi | .sit => p.sit

/-- Replace the value of one block. -/
def PerBlock.set {α : Type} (p : PerBlock α) (b : Block) (v : α) : PerBlock α :=
  match b with
  | .stw => { p with stw := v } | .pmc => { p with pmc := v } | .lnx => { p with lnx := v }
  | .kll => { p with kll := v } | .mir => { p with mir := v } | .tsc => { p with tsc := v }
  | .tss => { p with tss := v } | .fcm => { p with fcm := v } | .dse => { p with dse := v }
  | .vin => { p with vin := v } | .eth => { p with eth := v } | .pxb => { p with pxb := v }
  | .usb => { p with usb := v } | .ppc => { p with ppc := v } | .pmu => { p with pmu := v }
  | .ksi => { p with ksi := v } | .sit => { p with sit := v }

/-- One value for every block, from a function. -/
def PerBlock.of {α : Type} (f : Block → α) : PerBlock α where
  stw := f .stw
  pmc := f .pmc
  lnx := f .lnx
  kll := f .kll
  mir := f .mir
  tsc := f .tsc
  tss := f .tss
  fcm := f .fcm
  dse := f .dse
  vin := f .vin
  eth := f .eth
  pxb := f .pxb
  usb := f .usb
  ppc := f .ppc
  pmu := f .pmu
  ksi := f .ksi
  sit := f .sit

end Sys2Proof
end

