-- ==== Sys2Proof/Syntax.lean ====
section
/-! DEFINITION. The commands of the block: one constructor per row of spec/opcode_table.json, in the table's
order, with the row's operands. A row that names an event of the outside (a pin, a received block, a time
that has passed) carries what that event brings. -/

namespace Sys2Proof

/-- The commands. -/
inductive Instr where
  /-- R45. VDD_CUST stays below its falling POR threshold for more than 1 µs, and POR is asserted for the whole hub. -/
  | porAssert (vbatLost : Bool)
  /-- R45. After VDD_CUST has been above its rising threshold for 10 ms, POR is released, the straps are sampled, FAULT_N is driven low and the SMBus target starts answering. -/
  | porRelease (straps : Straps)
  /-- R45. Once the crystal is stable, the keep domain moves from the internal oscillator to the crystal without losing or adding a tick. -/
  | xtalSwitchover
  /-- R59. A crystal that has not started within 2 s raises a PMU fault, and the keep domain stays on the internal oscillator. -/
  | xtalStartTimeout
  /-- R45. After the main-die rails have been in window for 2 kt, CORE_EN is driven high. -/
  | coreEnAssert
  /-- R45. VDD_CORE has been in window for 2 kt, PMB_PG is high and READ_VOUT confirms 0.80 V, so the core is confirmed. -/
  | coreConfirm (modeOk : Bool)
  /-- R45. With RESET_N high and REFCLK_A present for 100 µs, the main die leaves reset and STW starts from its boot source. -/
  | mainDieRelease
  /-- R46. VDD_CORE rises before CORE_EN, and a sequencing fault is recorded in PMU. -/
  | vddCoreEarly
  /-- R44. A main-die rail outside its window for more than 2 µs clamps the outputs, drops CORE_EN, holds the main die in reset and asserts FAULT_N. -/
  | supplyFault (r : Rail)
  /-- R44. When every rail is back in window, start-up is repeated from CORE_EN as a WARM reset, and the pools are rebuilt. -/
  | supplyRestart
  /-- R55. A RESET_N low pulse that is acted on starts a WARM reset on its falling edge. -/
  | resetNPulse
  /-- R63. A sensed Tj of 118 °C or more records a PMU fault and marks the hub as outside its operating conditions. -/
  | tempHigh (tj : BitVec 16)
  /-- R63. At 130 °C or more, the custody die acts as on a supply fault and holds the main die in reset. -/
  | thermalTrip (tj : BitVec 16)
  /-- R63. The sensed Tj falls below 110 °C, and the main die is released from its thermal-trip reset. -/
  | thermalTripRelease (tj : BitVec 16)
  /-- R49. A PMBus transaction that is not acknowledged or fails its PEC is retried 100 µs later, and after the third retry a PMU fault is recorded. -/
  | pmbusRetry
  /-- R293. An accepted rising edge on PPS_IN is stamped in cell time and counted, and it is used as θ when SRC is PPS. -/
  | ppsInEdge
  /-- R294. Cell time reaches a whole second, and PPS_OUT rises. -/
  | ppsOutRise
  /-- R294. WIDTH µs after its rise, PPS_OUT falls. -/
  | ppsOutFall
  /-- R94. A reference becomes present and reads as pending until its first co-source window ends. -/
  | refclkDetect (r : Fin 4)
  /-- R96. The loss of a reference puts the affected ports through a PORT reset, or is treated as a supply fault for REFCLK_A. -/
  | refclkLoss (r : Fin 4)
  /-- R94. At the end of each 10 ms phase window, each reference is judged co-sourced with REFCLK_A or not. -/
  | cosourceWindowEnd (good : BitVec 4)
  /-- R20. A fast block with work raises a clock request to PMU. -/
  | clockRequest (b : Block)
  /-- R20. PMU grants the block's branch clock within 4 fc of its request. -/
  | clockGrant (b : Block)
  /-- R20. A block without work releases its clock at the end of its idle hold, unless keep-awake holds the clock. -/
  | idleHoldExpire (b : Block)
  /-- R27. A write of 1 to BLK_CTRL.SRST returns the block's pooled resources and then resets the block. -/
  | blockReset (b : Block)
  /-- R73. A write to a register without a row of its own updates the shadow or the value in force, according to its access code. -/
  | registerWrite (p : Path) (a : BitVec 26) (v : Word)
  /-- R280. A write of BLK_CTRL.ARB_MODE switches how the arbiter bases take effect, and a change to IMMEDIATE puts the base shadows in force. -/
  | arbModeWrite (b : Block) (mode : BitVec 2)
  /-- R71. A W1C write clears ATTN_RAW bits, except a bit set by an event in the same cycle. -/
  | attnRawClear (b : Block) (v setNow : Word)
  /-- R71. A W1C write clears FLT_STICKY bits, except a bit set by an event in the same cycle. -/
  | fltStickyClear (b : Block) (v : Word) (event : Option Nat)
  /-- R74. A write of BLK_COMMIT.ARM arms one commit. -/
  | commitArm (b : Block)
  /-- R74. A write of BLK_COMMIT.DISCARD disarms the commit and copies every value in force back into its shadow. -/
  | commitDiscard (b : Block)
  /-- R75. At a commit window that opens at least the setup time after ARM, every shadow of the block is put in force in one cycle. -/
  | commitApply (b : Block) (inst ago : Nat)
  /-- R80. A REQ write is accepted with the next ticket and latched arguments, or refused while BUSY is 1. -/
  | mailboxReq (b : Block) (p : Path) (opcode : BitVec 16)
  /-- R81. A request completes: its result words, READY, ERR and MBX_DONE are set and BUSY clears. -/
  | mailboxComplete (b : Block)
  /-- R81. A RES_ACK write whose ticket matches clears READY and ERR. -/
  | resAck (b : Block) (ticket : BitVec 8)
  /-- R82. The NOP operation completes within 1 µs with BLK_ID in RES_DATA0. -/
  | nop (b : Block)
  /-- R66. An SPI 0x0B frame reads words from consecutive addresses. -/
  | spiReadFrame (a : BitVec 32) (n : Nat)
  /-- R66. An SPI 0x02 frame writes words to consecutive addresses. -/
  | spiWriteFrame (a : BitVec 32) (ws : List Word) (cut : Bool)
  /-- R66. An SMBus Block Write with command 0x10 writes one word, checking the PEC if one is sent. -/
  | smbusBlockWrite (a v : Word) (pec : Option Byte)
  /-- R66. An SMBus Block Write–Block Read Process Call with command 0x11 reads one word. -/
  | smbusProcessCall (a : Word) (pec : Option Byte)
  /-- R66. An SPI or SMBus frame with any other command code is ignored. -/
  | mgmtCommandIgnored (p : Path) (code : Byte)
  /-- R87. A BAR2 read takes a remote tag and travels to the selected hub as an authenticated TC6 message. -/
  | bar2Read (tag : BitVec 8) (a : BitVec 26)
  /-- R88. A posted BAR2 write travels to the selected hub, and a failure of it is counted and its address recorded. -/
  | bar2Write (a : BitVec 26) (v : Word)
  /-- R87. A far hub serves a remote register access that it receives, or refuses it. -/
  | remoteAccessRx (src : BitVec 14) (tag : Fin 32) (a : Word) (value : Option Word) (user ack : Bool)
  /-- R88. The answer to a remote read arrives and completes the BAR2 read or the block word. -/
  | remoteAnswerRx (src : BitVec 14) (tag : Fin 32) (posted : Option (BitVec 26)) (status : BitVec 2) (v : Word)
  /-- R88. No answer arrives within STW_REMOTE_TMO, and the read fails with data 0xFFFF_FFFF. -/
  | remoteReadTimeout (tag : Fin 32)
  /-- R89. The STW operation reads up to 256 remote words into page 8, with a status for each word. -/
  | remoteReadBlock
  /-- R89. The STW operation writes up to 256 words from page 8 to a remote hub, with a status for each word. -/
  | remoteWriteBlock
  /-- R100. The LNX operation gives a down port its full set of lanes in one step. -/
  | laneAssign
  /-- R100. The LNX operation frees the lanes of a down port. -/
  | laneRelease
  /-- R112. The LNX operation starts a two-ended repair that moves a logical lane of an up port to a wired spare. -/
  | laneRepair
  /-- R113. The LNX operation tests a mapped-out lane with PRBS31 for 1 s and returns it if the test passes. -/
  | laneUnmap (lock : Bool) (errs bits : Word)
  /-- R114. With AUTO set, the steward starts LANE_REPAIR itself when a lane's errored blocks reach THRESH within 10 ms. -/
  | autoRepairStart (l : LaneNo) (grew : Word)
  /-- R116. A received REPAIR_REQ is joined, refused, or settled as a crossed request. -/
  | repairReqRx (p : LinkNo) (logical : Byte)
  /-- R112. The far hub's REPAIR_READY reports its spare ready, or refuses the repair. -/
  | repairReadyRx (p : LinkNo) (status : Byte)
  /-- R112. REPAIR_SWITCH names the lane marker on which both ends move the logical lane. -/
  | repairSwitchRx (p : LinkNo) (logical : Byte) (marker : BitVec 16)
  /-- R112. At the named marker row, the logical lane moves to the spare and the failed lane is mapped out. -/
  | laneMove
  /-- R112. A repair not confirmed, or not aligned, within 5 ms completes with ERR_CODE 0x83 or 0x84. -/
  | repairTimeout
  /-- R92. A lane whose rate changed relocks within 20 µs and carries data again. -/
  | laneRelock (l : Fin 40)
  /-- R101. A write of LN_SLIP shifts the receive bit position by COUNT bits and clears FRESH, or is ignored on a lane of a port that is not down. -/
  | lnSlip (l : Fin 40) (count : BitVec 8)
  /-- R102. A write of LN_SH_WIN sets the sync-header window length and clears FRESH. -/
  | lnShWinWrite (l : Fin 40) (v : BitVec 16)
  /-- R102. A window of LN_SH_WIN blocks completes, and ERRORS and FRESH are updated. -/
  | shWindowEnd (l : Fin 40) (errors : Nat)
  /-- R101. After 64 consecutive valid sync headers, BLOCK_LOCK becomes 1. -/
  | blockLockGain (l : Fin 40)
  /-- R101. After 16 invalid headers within 64 blocks, BLOCK_LOCK becomes 0, and on an up port LOCK_LOST is raised. -/
  | blockLockLoss (l : LaneNo)
  /-- R103. The lanes are aligned on marker rows, or DESKEW_FAIL is set on the late lanes. -/
  | deskewComplete (p : LinkNo) (late : BitVec 4)
  /-- R97. A lane's rate offset stays beyond ±300 ppm for 1 ms, and PPM_ALARM is set. -/
  | ppmAlarm (l : Fin 40) (ppm : BitVec 16)
  /-- R106. A lane's signal-detect comparator asserts and wakes the lane, and in NAP it is a wake source. -/
  | signalDetect (l : LaneNo)
  /-- R107. Within the wake time after signal detect, the lane returns to valid data and re-qualifies BLOCK_LOCK. -/
  | laneWake (l : LaneNo) (ok : Bool)
  /-- R110. A write of GEN_EN or CHK_EN starts or stops the generator or checker, takes the lane back from SIT, or is refused on a lane of an up port. -/
  | patCfgWrite (l : Fin 40) (v : Word)
  /-- R109. A write of LN_LOOP.MODE selects a loop mode, unless the lane's port is up. -/
  | lnLoopWrite (l : Fin 40) (v : Word)
  /-- R108. A write of 1 to INJECT_ONE inverts one transmitted bit. -/
  | injectOne (l : Fin 40)
  /-- R108. A write of 1 to ERR_CLR clears LN_PAT_ERR and LN_PAT_BITS. -/
  | patErrClr (l : Fin 40)
  /-- R108. The checker locks to the selected pattern within 64 bits, and CHK_LOCK reads 1. -/
  | checkerLock (l : Fin 40) (errs bits : Nat)
  /-- R135. A write of KL_CTRL.ALIGNED moves an aligned and deskewed port from ALIGN to HELLO. -/
  | klAligned (p : LinkNo)
  /-- R135. A write of KL_CTRL.RETRAIN puts the port through a PORT reset and back into ALIGN. -/
  | klRetrain (p : LinkNo)
  /-- R135. A write of KL_CTRL.DOWN sends BYE and takes the port to DOWN. -/
  | klDown (p : LinkNo)
  /-- R135. A port in DOWN with EN in force and locked lanes orders the lane rates and enters ALIGN. -/
  | linkEnterAlign (p : LinkNo)
  /-- R136. A received HELLO is checked for consistency, and the depth is applied under R138 to enter AUTH, HOLD or UP. -/
  | helloRx (p : LinkNo) (body : List Byte)
  /-- R135. HELLO is sent again every 100 µs until the peer's HELLO arrives. -/
  | helloResend (p : LinkNo)
  /-- R136. A write of STW_HUB_ID sets the hub's ID and resends HELLO on down-facing and partner-facing ports. -/
  | hubIdWrite (v : Word)
  /-- R137. The peer's nonce and certificate chain arrive and are checked against the Derdom root key. -/
  | authCertRx (p : LinkNo) (body : List Byte)
  /-- R137. The peer's ephemeral key and signature arrive and are verified, and the session keys are derived. -/
  | authKexRx (p : LinkNo) (body : List Byte)
  /-- R137. The peer's AUTH_FIN is verified, and the port moves to CREDIT. -/
  | authFinRx (p : LinkNo) (codeGood : Bool) (digest : List Byte)
  /-- R135. Authentication not complete within 20 ms fails the port with LAST_FAIL 0x5. -/
  | authTimeout (p : LinkNo)
  /-- R139. A received CREDIT_ADV sets ADV per class, and the port enters UP or HOLD. -/
  | creditAdvRx (p : LinkNo) (adv : List (BitVec 16))
  /-- R143. A received cell is accepted in sequence, discarded as a duplicate, or discarded with a NAK. -/
  | cellRx (p : LinkNo) (header data : List Byte) (cut : Bool)
  /-- R133. The MAC block after a TC6 frame is checked, and the frame is accepted, rejected once for replay, or discarded. -/
  | macBlockRx (p : LinkNo) (code : List Byte)
  /-- R141. A CREDIT_LO or CREDIT_HI block updates RET_CUM and ACK_SEQ, releases replay references and acts on NAK. -/
  | creditBlockRx (p : LinkNo) (hi nak : Bool) (ack : BitVec 12) (ret : List (BitVec 16)) (crcGood : Bool)
  /-- R140. The receiver sends its cumulative returns at least every 256 ns while they change, and every 10 µs otherwise. -/
  | creditBlockSend (p : LinkNo)
  /-- R144. ACK_SEQ has not advanced for TMO, and the sender replays from the oldest unacknowledged cell. -/
  | replayTimeout (p : LinkNo)
  /-- R135. The lanes regain lock, deskew completes and a credit block arrives, so the port returns to UP. -/
  | recoverComplete (p : LinkNo)
  /-- R135. A recovery not achieved within 200 µs takes the port to DOWN. -/
  | recoverTimeout (p : LinkNo)
  /-- R135. A received BYE takes the port to DOWN with LAST_FAIL 0x9. -/
  | byeRx (p : LinkNo) (reason : Byte)
  /-- R147. After the idle conditions have held for KLL_IDLE_HOLD, the port sends IDLE_REQ. -/
  | idleRequest (p : LinkNo)
  /-- R147. A received IDLE_REQ is answered with IDLE_ACK or IDLE_NAK. -/
  | idleReqRx (p : LinkNo)
  /-- R148. After IDLE_ACK, 16 FILLER rows are sent, electrical idle is ordered and the port enters IDLE. -/
  | idleAckRx (p : LinkNo)
  /-- R147. A received IDLE_NAK leaves the port in UP. -/
  | idleNakRx (p : LinkNo)
  /-- R148. A cell queued for an idle port starts the wake: FILLER rows for 2 µs, then traffic. -/
  | linkWake (p : LinkNo)
  /-- R149. Every 1 ms the child sends a TIME REQ and records t1. -/
  | timeExchangeStart
  /-- R149. The parent records t2 and answers with a MARK within 10 µs. -/
  | timeReqRx (p : LinkNo) (seq : BitVec 16) (delay : Nat)
  /-- R149. The child records t4 on the MARK's arrival. -/
  | timeMarkRx (p : LinkNo) (seq : BitVec 16)
  /-- R150. TIME_RESP completes an exchange, and θ and d are computed and passed to STW. -/
  | timeRespRx (p : LinkNo) (seq : BitVec 16) (t2 : BitVec 64) (f2 : BitVec 4) (t3 : BitVec 64) (f3 : BitVec 4)
  /-- R149. No TIME_RESP 500 µs after the REQ counts the exchange as missed. -/
  | timeExchangeMiss
  /-- R155. The KLL operation returns 20 bytes of the peer's certificate chain. -/
  | peerCertRead
  /-- R155. The KLL operation runs a time exchange at once and returns θ and d. -/
  | ttExchangeNow
  /-- R167. A waiting frame from PXB, USB or the steward is decided again when a count in its check changes. -/
  | admitRetry (idx : PortNo)
  /-- R175. No cell of an open frame arrives for TSC_REASM_TMO, and the frame is abandoned. -/
  | reasmTimeout (p : PortNo) (flow : BitVec 24)
  /-- R177. The oldest held frame reaches TSC_RESEQ_TMO, so NEXT skips forward, GAP is counted and held frames are released. -/
  | reseqTimeout (sl : SlotNo)
  /-- R180. The copy to the spare completes, and the logical bank moves to the spare in one fabric cycle. -/
  | bankCopyDone
  /-- R181. The freed bank's test ends, and the bank becomes the spare or is mapped out. -/
  | bankTestDone (pass : Bool)
  /-- R182. The TSC operation condemns a logical bank, which is copied to the spare or drained. -/
  | bankCondemn
  /-- R182. All 2,048 cells of a drained bank are CONDEMNED, and the bank is mapped out with USABLE reduced. -/
  | bankDrainComplete
  /-- R179. The sweep after a descriptor ECC error returns the cells of the broken list. -/
  | descSweepDone (idx : BitVec 16) (slotGood : Bool)
  /-- R188. The TSC operation runs an extra ledger check on a snapshot at the next 1 µs boundary. -/
  | ledgerCheckNow
  /-- R188. The TSC operation returns a slot's drop, GAP, DUP and LATE counts. -/
  | flowCounts
  /-- R188. The TSC operation clears a context's per-flow counts. -/
  | flowCountsClear
  /-- R188. The TSC operation returns a flow's resequencer state. -/
  | reseqState
  /-- R188. The TSC operation returns a flow's exit discards and foyer drops. -/
  | flowCountsExit
  /-- R187. A write of TSC_KITTY_MIN.CLR sets MIN to KITTY. -/
  | kittyMinClr
  /-- R187. A write of TP_PEND_MAX.CLR restarts the port's pending maximum. -/
  | pendMaxClr (p : PortNo)
  /-- R196. The FCM operation installs a context from the template, pinning it if its TC is 7. -/
  | flowCreate
  /-- R197. The FCM operation replaces a flow's policy at the next deal epoch boundary. -/
  | flowPolicy
  /-- R199. The FCM operation pins a flow, paging it in first if needed. -/
  | flowPin
  /-- R199. The FCM operation unpins a flow that is not TC 7. -/
  | flowUnpin
  /-- R198. The FCM operation frees an idle, unpinned flow's slot and can zero its backing-store entry. -/
  | flowDelete
  /-- R224. The FCM operation returns a context's slot, state and key fields. -/
  | flowRead
  /-- R224. The FCM operation writes a candidate context back and frees its slot. -/
  | flowEvict
  /-- R212. A page-in that has waited for the tag limit starts, with a slot or a victim and a PAGE_READ. -/
  | pageInStart
  /-- R214. A slot that becomes FREE or a candidate is given to the waiting page-in whose oldest frame arrived first. -/
  | slotGrant
  /-- R211. The ROOT performs a PAGE_READ through its paging queue if the range lies inside its aperture, and otherwise answers with STATUS 0x01. -/
  | pageReadRx (src : BitVec 14) (req : BitVec 16) (flow : BitVec 24) (addr : BitVec 64)
  /-- R211. The ROOT issues a posted write for a PAGE_WRITE and answers with PAGE_WRITE_ACK. -/
  | pageWriteRx (src : BitVec 14) (req : BitVec 16) (flow : BitVec 24) (addr : BitVec 64) (image : List Byte)
  /-- R209. A received image is checked, and the context is installed or the page-in fails. -/
  | pageDataRx (req : BitVec 16) (status : Byte) (image : List Byte)
  /-- R212. A write-back is acknowledged, or lost when its STATUS is not 0x00. -/
  | pageWriteAckRx (req : BitVec 16) (status : Byte)
  /-- R212. No PAGE_DATA within 1 ms fails the page-in with PAGE_FAIL. -/
  | pageInTimeout (req : BitVec 16)
  /-- R212. No PAGE_WRITE_ACK within 1 ms loses the write-back. -/
  | writebackTimeout (req : BitVec 16)
  /-- R204. A frame that has waited FCM_FOYER_WAIT in a foyer is dropped and logged. -/
  | foyerTimeout (p : PortNo)
  /-- R218. 10 ms after the last STATUS 0x04 answer, the paging path comes back up. -/
  | pagePathHoldEnd
  /-- R223. A write of FY_MAX.CLR restarts the foyer's cell maximum. -/
  | fyMaxClr (p : PortNo)
  /-- R223. A write of FY_WAIT_MAX.CLR restarts the foyer's wait maximum. -/
  | fyWaitMaxClr (p : PortNo)
  /-- R223. A write of FCM_PAGE_LAT_MAX.CLR restarts the page-in latency maximum. -/
  | pageLatMaxClr
  /-- R229. When a port can accept a unit, TSS chooses it by gates, trump order and DRR, or makes an idle slot. -/
  | egressDecision (t : EgressNo) (ecc : Option Nat)
  /-- R233. Every TSS_REFILL µs, each bucket gains its rate's share, up to its depth. -/
  | shaperRefill
  /-- R242. At each epoch boundary, the snapshot is taken, the TSC, TSS and FCM commits apply, and the deal starts. -/
  | dealEpochBoundary
  /-- R247. A port's deal result completes, and its new quanta apply at the next fresh turns. -/
  | dealPortDone (t : EgressNo)
  /-- R238. A gate entry's interval ends, and the next entry or the next cycle begins. -/
  | gateEntryEnd (t : EgressNo)
  /-- R239. A write of TS_GCTL.ARM arms a switch to the named bank at time T, or is refused. -/
  | gateArm (t : EgressNo) (bank : Bool)
  /-- R239. A write of TS_GCTL.CANCEL clears a pending switch. -/
  | gateCancel (t : EgressNo)
  /-- R241. A write of GATE_EN as 0 replaces any pending switch with the end of the list. -/
  | gateEnWrite (t : EgressNo) (on : Bool)
  /-- R239. The old list's entry in use ends, and the new list takes over at the matching entry of its cycle. -/
  | gateSwitch (t : EgressNo)
  /-- R240. A write to a bank's entry, BASE, CYCLE or LEN is accepted, determines T again, or is ignored for the active bank. -/
  | gateBankWrite (t : EgressNo) (bank : Bool) (r : GateReg) (v : Word)
  /-- R251. The TSS operation returns a flow-target's quantum, deficit, allotment, demand and buckets. -/
  | flowSchedRead
  /-- R251. The TSS operation reports a class's longest window and its open time in a bank. -/
  | gateCheck
  /-- R255. A received PAIR_SYNC is compared with the member's own, and the pair enters PAIRED or MISMATCH. -/
  | pairSyncRx (words : List Word) (autoTake : Bool) (hub : BitVec 14)
  /-- R262. Every 1 µs a member sends HEARTBEAT on M, which is also its commit window. -/
  | heartbeatTx
  /-- R262. A heartbeat whose MAC passes and whose HB_SEQ is higher is accepted. -/
  | heartbeatRx (seq : BitVec 32) (ack : BitVec 32) (ports : BitVec 8)
  /-- R262. Each 1 µs interval with no accepted heartbeat advances MIR_HB_MISS. -/
  | heartbeatMiss
  /-- R263. No heartbeat for 8 µs: the partner is declared lost, and the member enters ALONE. -/
  | partnerLoss
  /-- R265. A neighbour downs its port to the lost hub, hands over its group, checks its ledger and answers with RECONCILE_DATA. -/
  | lostNoticeRx (src lost : BitVec 14) (port : Fin 8) (out : List (BitVec 16))
  /-- R266. The survivor takes sequence records, counts lost frames and completes the takeover. -/
  | reconcileDataRx (port : Fin 8) (recs : List (BitVec 24 × BitVec 16 × BitVec 16 × Byte)) (last : Option Bool)
  /-- R266. Counting ends when every answer is in, or 1 ms after the declaration, and LOST_COUNTED is set. -/
  | lostCountEnd
  /-- R260. Every 0.5 µs in which a record has changed, the hoist sends a MIRROR_BATCH. -/
  | mirrorBatchTx
  /-- R260. The fly applies the mirror records of Table 9.4. -/
  | mirrorBatchRx (seq : BitVec 32) (since : BitVec 64) (recs : List MirRec)
  /-- R267. The new hoist takes the group and holds its TC0–TC5 units until DRAINED. -/
  | handoverGiveRx (groups : BitVec 8) (ask : Bool)
  /-- R267. The old hoist's twin ports of the group hold no TC0–TC5 cell, and it sends DRAINED. -/
  | handoverDrained (g : Fin 8)
  /-- R267. The new hoist releases its held units. -/
  | handoverDrainedRx (g : Fin 8)
  /-- R267. No DRAINED within HO_TMO: the held units are released, and MIR_HO_LATE advances. -/
  | handoverTimeout (g : Fin 8)
  /-- R272. The MIR operation returns a flow's record entry. -/
  | pairFlowRead
  /-- R272. The MIR operation sends CTX_OP and GATE records for the hoist's groups. -/
  | resync
  /-- R272. The MIR operation gives groups to the partner, or asks the partner to give them. -/
  | handover
  /-- R271. A write of MIR_LAG.CLR restarts the lag maximum. -/
  | mirLagClr
  /-- R275. An arbiter grants the highest effective priority with round-robin ties and ages the losers. -/
  | arbiterDecision (b : Block) (k : Nat) (reqs : List Nat) (withdraw : Option Nat)
  /-- R282. A write of ARB_WAIT_MAX.CLR restarts the wait maximum. -/
  | arbWaitMaxClr (b : Block) (k : Nat)
  /-- R284. The event-order arbiter grants one record per steward cycle, and it is written with a stamp and SEQ. -/
  | orderLogGrant
  /-- R287. A write of STW_OLOG_MARK hands STW a MARK record. -/
  | ologMark (p : Path) (v : BitVec 16)
  /-- R296. A write of STW_OLOG_CFG as EN 0 stops recording and empties the block FIFOs without counting. -/
  | ologCfgWrite (v : Word)
  /-- R289. The accumulated phase correction reaches −θ, and P returns to 0. -/
  | slewEnd
  /-- R289. A write of STW_SOFT_ADJ delivers θ when SRC is SOFT. -/
  | softAdjWrite (v : Word)
  /-- R289. 3 s without an accepted PPS edge, or 10 s without a SOFT write, clears LOCKED. -/
  | timeLockTimeout
  /-- R297. The STW operation sets cell time to a value at the next 1 µs boundary. -/
  | timeSet
  /-- R297. The STW operation adds a signed step to cell time. -/
  | timeStep
  /-- R304. A ROOT input cuts a received active line into a line frame, or counts it as an error. -/
  | dpLineRx (idx : Fin 2) (l : DpRxLine)
  /-- R305. A LEAF output checks a cell's pennant and writes it into the line FIFO or the overlay. -/
  | dpCellWrite (o : Fin 2) (ecc : Bool)
  /-- R307. In blanking, a frame starts at a line boundary when a picture is ready. -/
  | rasterLineBoundary (o : Fin 2)
  /-- R309. At each active line, the input line is scanned or FILL is shown. -/
  | activeLineStart (o : Fin 2) (ecc ovlEcc : Bool)
  /-- R316. The synthesiser reaches its new frequency, and the retime frame sends blanking under the new timing. -/
  | retimeSynthDone (o : Fin 2)
  /-- R317. HPD low for 2 ms or more takes the LEAF link down. -/
  | hpdUnplug (o : Fin 2)
  /-- R317. An HPD IRQ sets HPD and may start an automatic retrain. -/
  | hpdIrqRx (o : Fin 2) (lockLost retrained : Bool)
  /-- R318. A ROOT input serves DPCD and EDID reads over AUX. -/
  | auxRequestRx (idx : Fin 2) (r : AuxReq)
  /-- R322. The DSE operation runs an AUX transaction with retries. -/
  | auxXfer (replies : List (Option (Nat × List Byte)))
  /-- R322. The DSE operation trains a LEAF output's sink. -/
  | linkTrain (cr ce : Bool) (swing : BitVec 16) (sinkAsync : Bool)
  /-- R322. The DSE operation sends a 0.75 ms HPD pulse at a ROOT input. -/
  | hpdIrq
  /-- R328. A frame-start packet opens a picture, advances VFRAME and is stamped. -/
  | csiFrameStart (n : Fin 4) (vc : BitVec 2) (back : Nat) (eccFix : Bool)
  /-- R328. A frame-end packet closes the picture. -/
  | csiFrameEnd (n : Fin 4) (vc : BitVec 2) (eccFix : Bool)
  /-- R325. A long packet is checked and becomes a capture frame and a view frame, or is dropped. -/
  | csiLineRx (n : Fin 4) (vc : BitVec 2) (dt : Byte) (payload : List Byte) (check : CsiCheck)
  /-- R328. No packet within GAP_TMO while a picture is open truncates it. -/
  | csiGapTimeout (n : Fin 4)
  /-- R331. Cell time reaches T_k, and the trigger pulse starts, or is skipped. -/
  | triggerPulse (n : Fin 4)
  /-- R331. WIDTH after its start, the trigger returns inactive. -/
  | triggerPulseEnd (n : Fin 4)
  /-- R332. A write of VN_TRIG_CTL.ARM starts a schedule. -/
  | triggerArm (n : Fin 4)
  /-- R332. A write of VN_TRIG_CTL.STOP ends the schedule. -/
  | triggerStop (n : Fin 4)
  /-- R336. A write of VIN_TRIG_ARM arms every receiver in the mask in one cycle. -/
  | trigArmMask (mask : BitVec 4)
  /-- R341. A received frame is checked, classified, stamped and cut into cells, or dropped. -/
  | ethFrameRx (p : Fin 4) (frame : List Byte) (fcsGood codeErr : Bool) (back : Nat) (frac : BitVec 4) (ecc : Option (Fin 4096))
  /-- R351. LINK drops, the frame in progress is cut off, and the port is flushed or holds its queue. -/
  | ethLinkDown (p : Fin 4) (cut : Bool)
  /-- R351. The link returns, and ETH asks TSS for units again. -/
  | ethLinkUp (p : Fin 4) (speedBad : Bool)
  /-- R344. A classifier word is written in one cycle through ETH arbiter 0. -/
  | clsEntryWrite (idx : Fin 4096) (w : Fin 4) (v : Word)
  /-- R354. The ETH operation runs a Clause 22 or Clause 45 MDIO frame. -/
  | mdioXfer (answer : BitVec 16)
  /-- R354. The ETH operation runs a test lookup of the classifier. -/
  | clsLookup (ecc : Option (Fin 4096))
  /-- R357. A request from the bridge's link is matched to a window and sent as a bridged frame, or answered as a miss. -/
  | pcieRequestRx (r : PcieReq)
  /-- R365. A non-posted request that waited for completion room reserves its cells and is sent. -/
  | npReserveGrant
  /-- R362. A request waiting for a bridge tag takes one and is issued on the link. -/
  | tagGrant
  /-- R364. The far bridge receives a bridged frame and issues it, holds it for its mark, or records a late error. -/
  | bridgeFrameRx
  /-- R364. The posted frames up to P_MARK are done, and the held frame is delivered. -/
  | bridgeMarkMet
  /-- R364. A mark not met within 1 ms is passed over, and BAR_LATE is set. -/
  | bridgeMarkTimeout
  /-- R362. A completion on the bridge's own link releases its tag and is forwarded or consumed. -/
  | pcieCompletionRx (tag : BitVec 8) (status : CplStatus) (data : List Byte)
  /-- R368. A CPL frame completes its pending record toward the local requester. -/
  | bridgeCplRx
  /-- R363. PX_CTO expires, the tag is released and the far requester gets STATUS 0x03. -/
  | completionTimeout (tag : BitVec 8)
  /-- R363. A pending record with no final completion within PX_TUN_TMO is completed with Completer Abort. -/
  | tunnelTimeout (r : Fin 128)
  /-- R371. A LATE frame is copied into the ring and may fence its window. -/
  | lateFrameRx
  /-- R366. A device write to the MSI range, or an INTx, error or link message, becomes a bridge message. -/
  | msiCapture (kind : Fin 5) (data : Word)
  /-- R366. A selected GPIO edge becomes a bridge message. -/
  | gpioEdge (n : Fin 8) (level : Bool)
  /-- R366. The target bridge queues or merges a message once its flow's earlier data has been issued. -/
  | msgFrameRx
  /-- R367. A write of PX_MQ_POP frees entries and lets a stalled flow resume. -/
  | mqPop (n : BitVec 9)
  /-- R371. A write of PW_STAT.FENCE_CLR lifts a window's fence. -/
  | fenceClr (w : Fin 8)
  /-- R373. A write of PX_PF_CTL.CLR clears PX_PF_DISCARD and PX_PF_FIRST. -/
  | pfClr
  /-- R373. Prefetched bytes older than PF_AGE are discarded. -/
  | prefetchAgeExpire (w : Fin 8)
  /-- R375. The bridge's link goes down, pending records complete with 0x04 and tags are released. -/
  | pcieLinkDown
  /-- R377. The PXB operation runs a configuration request at the LEAF root port. -/
  | cfgXfer
  /-- R382. A LEAF port detects a device pull-up and reports connection after 100 ms of debounce. -/
  | usbAttach (port : Fin 4) (speed : Fin 3)
  /-- R382. OC_N low for 1 ms turns the port's power off and sets the over-current bits. -/
  | usbOvercurrent (port : Fin 4)
  /-- R382. A 10 ms port reset ends, and PORT_STAT is sent. -/
  | usbPortResetDone (port : Fin 4) (speed : Fin 3)
  /-- R383. With EN in force and VBUS for 10 ms, the ROOT hub function attaches to the host. -/
  | u0Attach
  /-- R383. When EN or VBUS ends, the hub function detaches, which acts as a bus reset. -/
  | u0Detach (vbus : Bool)
  /-- R385. The ROOT answers a host token to a high-speed endpoint from its endpoint memory. -/
  | usbHostTransaction (addr : BitVec 7) (ep : BitVec 4) (tok : UsbTok) (crcGood : Bool)
  /-- R387. The ROOT answers the host's start-splits and complete-splits for a port's TT. -/
  | usbSplitTransaction (v : Fin 16) (dev : BitVec 7) (ep : BitVec 4) (isIn : Bool) (type : Fin 4) (start setup last : Bool) (data : List Byte)
  /-- R385. The LEAF delivers packets to a device and polls its IN endpoints, retrying locally on NAK. -/
  | leafDeviceTransaction (dev : BitVec 7) (ep : BitVec 4) (isIn : Bool) (ans : UsbAns)
  /-- R389. A received burst is accepted, discarded as a duplicate, or discarded with a NAK. -/
  | tunnelBurstRx (t : Fin 8)
  /-- R388. A SETUP record is delivered to the device at the LEAF. -/
  | setupRecordRx (t : Fin 8)
  /-- R388. An OUT record is delivered to the device at the LEAF. -/
  | outRecordRx (t : Fin 8)
  /-- R385. IN data fills the endpoint buffer at the ROOT. -/
  | inRecordRx (t : Fin 8)
  /-- R388. A RESULT record gives a transaction's or a TT's result. -/
  | resultRecordRx (t : Fin 8)
  /-- R387. The LEAF runs the full- or low-speed transaction of a start-split. -/
  | splitRecordRx (t : Fin 8) (ans : UsbAns)
  /-- R388. The LEAF applies a hub-class port feature set or clear to its port. -/
  | portCmdRx (t : Fin 8)
  /-- R397. The ROOT updates a virtual port's status and queues a message. -/
  | portStatRx (t : Fin 8)
  /-- R391. The LEAF stops SOFs for a global suspend, or restarts them for a resume. -/
  | suspendRecordRx (t : Fin 8)
  /-- R393. The ROOT handles a remote wake, or merges it with a host resume. -/
  | wakeRecordRx (t : Fin 8)
  /-- R389. ACK has not advanced for TN_TMO, and the bursts from ACK + 1 are sent again. -/
  | tunnelResendTimeout (t : Fin 8)
  /-- R389. Within 20 µs with no other burst to carry it, an ACK_ONLY burst is sent. -/
  | tunnelAckOnly (t : Fin 8)
  /-- R390. The ROOT sends at least one burst every 1 ms on each UP tunnel. -/
  | tunnelKeepalive (t : Fin 8)
  /-- R390. At each 125 µs boundary, the LEAF sends SOFs on its enabled ports. -/
  | leafSof
  /-- R390. No burst accepted for TN_DEAD takes the tunnel DOWN, and its ports disconnect. -/
  | tunnelDead (t : Fin 8)
  /-- R391. After 3 ms of bus idle, the hub function suspends and sends SUSPEND down the tunnels. -/
  | usbSuspend
  /-- R392. A host resume is carried to the LEAF ports, which drive K. -/
  | usbHostResume
  /-- R392. A device's K on a suspended port is driven for 20 ms, and WAKE is sent. -/
  | usbRemoteWake (port : Fin 4)
  /-- R392. K ends after 20 ms, SOFs restart and PORT_STAT is sent. -/
  | usbResumeEnd (port : Option (Fin 4))
  /-- R394. SE0 on U0 resets the hub function and starts a new epoch on every tunnel. -/
  | usbBusReset (hs : Bool)
  /-- R398. The USB operation restarts one tunnel with a new epoch. -/
  | tunRestart
  /-- R396. A write of USB_MQ_POP removes the oldest message entries. -/
  | usbMqPop (n : BitVec 6)
  /-- R405. Each 1 µs tick samples each channel, runs its model and timer, and applies its trip, state and power-good rules. -/
  | ppcTick (samples : List PpcSample)
  /-- R408. A sense voltage above the fast-trip threshold pulls the gate low in analogue within 500 ns. -/
  | fastTrip (n : Fin 6)
  /-- R407. The fault timer reaches FT_RUN or FT_RAMP, and the channel trips. -/
  | timerTrip (n : Fin 6)
  /-- R409. A gate below SRC + 8 V for 10 µs in ON is a trip. -/
  | gateFault (n : Fin 6)
  /-- R412. A TEMP input out of range for 10 ticks is an open or shorted sensor, and it trips the channel. -/
  | tempSensorFault (n : Fin 6)
  /-- R404. RETRY_DELAY has passed and the FET is cool enough, so the channel ramps again. -/
  | retryDelayExpire (n : Fin 6)
  /-- R414. Power-good held for RESTORE restores the retry budget. -/
  | budgetRestore (n : Fin 6)
  /-- R415. The power-good count reaches PG_DELAY, and PG is asserted. -/
  | pgAssert (n : Fin 6)
  /-- R417. VIN out of its window for 5 ticks turns the gate off, and the channel enters INPUT_WAIT. -/
  | inputWindowFault (n : Fin 6)
  /-- R404. VIN back in its window for 10 ms moves the channel from INPUT_WAIT to RAMP. -/
  | inputWindowReturn (n : Fin 6)
  /-- R418. SRC held across its threshold for DET_TIME confirms presence or absence. -/
  | presenceChange (n : Fin 6)
  /-- R404. A write of PC_CTRL.ON starts a ramp from DETECT, or enters INPUT_WAIT. -/
  | pcOn (n : Fin 6)
  /-- R404. A write of PC_CTRL.OFF turns the channel off to DETECT and restores the budget. -/
  | pcOff (n : Fin 6)
  /-- R404. A write of PC_CTRL.CLEAR moves a latched channel to DETECT and restores the budget. -/
  | pcClear (n : Fin 6)
  /-- R422. A write of PC_TFET_MAX.CLR restarts the FET temperature maximum. -/
  | tfetMaxClr (n : Fin 6)
  /-- R425. The PMU operation checks the entry conditions and moves the hub to DOZE, NAP, DORMANT, OFF or RUN. -/
  | stateReq (board board2 : BitVec 12) (wake : Option (Fin 6))
  /-- R427. After DOZE_IDLE µs of full idle, the hub enters DOZE on its own. -/
  | autoDozeEntry
  /-- R426. Any fabric clock request ends DOZE. -/
  | dozeExit
  /-- R438. An enabled wake source asserts, which starts an exit or sets WAKE in RUN. -/
  | wakeEvent (src : Fin 6)
  /-- R432. The core is powered, the PLLs lock, isolation is released and firmware resumes at F0. -/
  | napExit (kt : Nat) (voutOk pg : Bool)
  /-- R433. Start-up is repeated from step 2 with a firmware load, acting as WARM on the main die. -/
  | dormantExit (kt : Nat) (a b : FwImage) (spi : Option FwImage)
  /-- R429. A port held DOWN by BYE 0x4E is released by signal detect or by RETRAIN. -/
  | napHoldEnd (p : LinkNo)
  /-- R437. The always-on output falls below its threshold for 2 µs, and the hub resets as at POR. -/
  | aoBrownout (straps : Straps)
  /-- R439. PMU_WAKE_TIMER reaches 0. -/
  | wakeTimerExpire
  /-- R439. WAKE_CMP crosses its threshold in the selected direction for DEBOUNCE kt. -/
  | wakeCmpCross (level : Bool)
  /-- R440. A write of PMU_DVFS.TARGET starts a voltage and frequency step, or holds it pending. -/
  | dvfsTargetWrite (t : BitVec 2)
  /-- R440. A raise is confirmed by READ_VOUT before the frequency rises, or a lowering completes its bus traffic. -/
  | dvfsStepComplete
  /-- R50. A raise not confirmed within 500 µs is abandoned, and the old voltage is commanded again. -/
  | dvfsRaiseTimeout
  /-- R24. The last keep-awake mark clears, and the held DVFS change begins. -/
  | dvfsHeldRelease
  /-- R444. The PMU operation reports the always-on load that NAP or DORMANT would draw. -/
  | aoMeasure (board : BitVec 12)
  /-- R443. A write of PMU_TEMP.CLR restarts the temperature maximum. -/
  | pmuTempClr
  /-- R449. The KSI operation advances the counter and returns an HMAC response keyed by a slot. -/
  | challenge
  /-- R451. The KSI operation checks a sealed update and commits it to its slot. -/
  | keyUpdate
  /-- R451. A check not ended 2 s after receipt abandons the update with 0x07. -/
  | keyUpdateTimeout
  /-- R454. The KSI operation places the first owner key in slot 0. -/
  | ownerClaim
  /-- R463. The KSI operation returns 20 bytes of a stored certificate. -/
  | certRead
  /-- R456. The KSI operation zeroes the secrets as a tamper trip does, with cause SOFTWARE. -/
  | zeroize
  /-- R458. The KSI operation draws a new root secret and exports its public key and serial. -/
  | provisionBegin
  /-- R458. The KSI operation checks and stores new certificates and clears IDENTITY_LOST. -/
  | provisionCert
  /-- R453. A KEY_SEALED message runs KEY_UPDATE, or is answered 0x8A while an update runs. -/
  | keySealedRx (src : BitVec 14) (body : List Byte)
  /-- R453. A CHALLENGE message is served and answered with CHALLENGE_RESP. -/
  | challengeMsgRx (src : BitVec 14) (slot : Byte) (chal : List Byte)
  /-- R456. A tamper detector trips, every secret is zeroed, and IDENTITY_LOST is set. The operand is the detector's bit of
  KSI_TAMP_REC (Table 18.6). -/
  | tamperTrip (cause : Fin 6)
  /-- R455. A W1S write of KSI_TAMP_CFG enables a tamper loop. -/
  | tampLoopEnable (mask : BitVec 2)
  /-- R460. Once a second, VBAT is compared with 2.3 V, and VBAT_LOW is set below it. -/
  | vbatCheck (low : Bool)
  /-- R465. An event of a fault source sets its sticky bit, advances its count and classifies it. -/
  | faultEvent (b : Block) (idx : Nat) (live : Option Bool) (ecc : Option EccAt)
  /-- R473. The pulse ends, and the pin follows LEVEL. -/
  | faultnPulseEnd
  /-- R468. A compact window ends below N and closes with count 0. -/
  | compactWindowEnd (b : Block) (idx : Nat)
  /-- R472. FLT_QUIET passes with no event, and the block leaves its fault state. -/
  | faultQuietEnd (b : Block)
  /-- R472. A write of FLT_CTRL.EXIT makes the block leave its fault state at once, unless an in-force source is live. -/
  | faultExit (b : Block)
  /-- R466. A write of FLT_CTRL.CNT_CLR sets every FS_COUNT of the block to 0. -/
  | faultCountClear (b : Block)
  /-- R474. A write of SIT_FAULTN.LEVEL sets the pin outside pulses, and during a pulse at its end. -/
  | faultnLevelWrite (level : Bool)
  /-- R477. Every SIT_BANK_PERIOD, a bank rotation step of the coverage cycle falls due. -/
  | bankStepDue
  /-- R476. At an opportunity, SIT tests one instance of an enabled target and acts on a failure. -/
  | sitTestRun (t : Fin 6) (idx : Nat) (lock : Bool) (errs : Nat)
  /-- R478. A cycle running longer than SIT_COVER_LIMIT raises COVERAGE_LATE. -/
  | coverageLate
  /-- R484. The SIT operation tests one instance at once. -/
  | testNow (result : Option (Bool × Nat))
  /-- R484. The SIT operation abandons the running coverage cycle. -/
  | coverRestart
  /-- R486. A queued sample is added to its bin through PMC arbiter 0. -/
  | histBinUpdate (n : Fin 32)
  /-- R489. A write of H_CTL.SNAP copies the bins and counts to the frozen bank. -/
  | hSnap (n : Fin 32)
  /-- R489. A write of H_CTL.CLR clears the live bins and counts. -/
  | hClr (n : Fin 32)
  /-- R491. A read of PCn_LO latches PCn_HI and the words of the chain above it. -/
  | counterLoRead (n : Fin 256)
  /-- R491. A write of PCn_HI goes to a holding word. -/
  | counterHiWrite (n : Fin 256) (v : Word)
  /-- R491. A write of PCn_LO loads both words of the counter together. -/
  | counterLoWrite (n : Fin 256) (v : Word)
  /-- R492. 1 to 3 decisions after a SAMPLE counter wraps, the port's scheduler state is captured into the ring. -/
  | sampleCapture
  /-- R493. At each BW_WIN boundary, BW_LAST and BW_PEAK take the window's count. -/
  | bwWindowEnd (t : EgressNo)
  /-- R493. A read of BW_PEAK returns it and clears it. -/
  | bwPeakRead (t : EgressNo)
  /-- R493. A read of BW_TOTAL returns it and clears it. -/
  | bwTotalRead (t : EgressNo)
  /-- R494. An unprivileged read through the BAR4 alias is served locally or remotely, or returns 0. -/
  | userAliasRead (tag : BitVec 8) (off : BitVec 12)
  /-- R83. A read of MH_TIME_LO latches MH_TIME_HI. -/
  | mhTimeLoRead
  /-- R296. A read of STW_TIME_LO latches STW_TIME_HI. -/
  | stwTimeLoRead
  /-- R296. A read of STW_TIME_STEP_LO latches its HI word. -/
  | stwTimeStepLoRead
  /-- R296. A read of STW_PPS_IN_LO latches its HI word. -/
  | stwPpsInLoRead
  /-- R187. A read of TSC_LEDGER_TIME_LO latches its HI word. -/
  | ledgerTimeLoRead
  /-- R250. A read of TSS_LENT_BUF_LO latches its HI word. -/
  | lentBufLoRead
  /-- R271. A read of MIR_LOSS_TIME_LO latches its HI word. -/
  | lossTimeLoRead
  /-- R321. A read of DO_START_LO latches its HI word. -/
  | doStartLoRead (o : Fin 2)
  /-- R336. A read of VN_FS_TIME_LO latches its HI word. -/
  | fsTimeLoRead (n : Fin 4)
  /-- R376. A read of PX_PF_FIRST_LO latches its HI word. -/
  | pfFirstLoRead
  /-- R462. A read of KSI_TAMP_TIME_LO latches its HI word. -/
  | tampTimeLoRead
  /-- R462. A read of KSI_UPD_CTR_LO latches its HI word. -/
  | updCtrLoRead
  /-- R497. A read of H_SNAP_TIME_LO latches its HI word. -/
  | snapTimeLoRead (n : Fin 32)
  /-- R500. STW loads and verifies the newest valid firmware image, or waits for one through SPI. -/
  | firmwareLoad (a b : FwImage) (spi : Option FwImage)
  /-- R47. VDD_CUST rises above its POR threshold, the battery-backed memory and tamper detectors switch back from VBAT, the power-port tick starts and the 10 ms count to POR release begins. -/
  | vddCustRise
  /-- R49. PMB_PG falls, and PMU reads STATUS_WORD from the core regulator. -/
  | pmbPgLow
  /-- R125. A lane's elastic buffer passes 12 or falls below 4 blocks, a FILLER row is deleted or repeated on every lane, or an overflow or underflow is counted in KL_CNT_ELASTIC. -/
  | elasticBufferSlip (l : LaneNo) (fill : Nat)
  /-- R119. A lane loses receive clock recovery, CDR_LOCK clears, and on an up port LOCK_LOST is set. -/
  | cdrLockLoss (l : LaneNo)
  /-- R317. HPD rises at a LEAF output when a sink is plugged in, and DO_STAT.HPD and the HPD attention bit are set. -/
  | hpdPlug (o : Fin 2)
  /-- R319. A trained ROOT DisplayPort input loses its main link, DI_STAT.TRAINED clears, LINK is set and LINK_LOST goes live. -/
  | dpInputLinkLoss (idx : Fin 2)
  /-- R378. Port P's PCIe link finishes training, PX_STAT.LINK_UP sets, the LINK attention bit is set and at a LEAF a LINK message is queued. -/
  | pcieLinkUp (speed width : BitVec 3) (mps : Nat) (busMaster memSpace : Bool)
  /-- R384. A device leaves a LEAF port, the port reports disconnection and the device's endpoint blocks are returned. -/
  | usbDeviceDetach (port : Fin 4)
  /-- R264. 20 µs after the declaration of loss, each neighbour that has not answered is marked unanswered in MIR_TAKE_STAT and RECON_FAIL is raised. -/
  | takeoverTimeout
  deriving DecidableEq, Repr

end Sys2Proof
end

