-- ==== Sys2Proof/Config.lean ====
section
/-! DEFINITION. What the spec leaves to the implementation or leaves open: free values, as opaque constants
that no proof can look into (log entries 6, 7 and 8). The cryptographic functions that the spec names and does not define (SHA-384,
HMAC-SHA-256, ECDSA and ECDH over P-384, AES-256 key wrap, X.509) are opaque functions of their operands. -/

namespace Sys2Proof.Config

/-- The n-th 32-bit value that the spec leaves open (a random number, an unstated result). -/
opaque freeWord : Nat → BitVec 32

/-- SHA-384 of a message. -/
opaque sha384 : List (BitVec 8) → List (BitVec 8)

/-- HMAC-SHA-256 under a key, of a message. -/
opaque hmac256 : List (BitVec 8) → List (BitVec 8) → List (BitVec 8)

/-- The device public key, 97 bytes, of a root secret (R446). -/
opaque devicePub : List (BitVec 8) → List (BitVec 8)

/-- The device private value of a root secret (R446). -/
opaque devicePriv : List (BitVec 8) → List (BitVec 8)

/-- An ECDSA P-384 signature over a message with the device key of a root secret. -/
opaque sign : List (BitVec 8) → List (BitVec 8) → List (BitVec 8)

/-- An ECDSA P-384 signature verifies: public key, message, signature. -/
opaque verify : List (BitVec 8) → List (BitVec 8) → List (BitVec 8) → Bool

/-- The x-coordinate of the ECDH result of a private and a public value. -/
opaque ecdh : List (BitVec 8) → List (BitVec 8) → List (BitVec 8)

/-- The P-384 public key, uncompressed, of a private value. -/
opaque p384Pub : List (BitVec 8) → List (BitVec 8)

/-- A public key lies on P-384. -/
opaque onCurve : List (BitVec 8) → Bool

/-- AES-256 key unwrap of wrapped content under a key; none: its integrity check fails. -/
opaque unwrap : List (BitVec 8) → List (BitVec 8) → Option (List (BitVec 8))

/-- A device certificate and a product CA certificate form a chain to the Derdom root key in ROM (R137, R458). -/
opaque chainGood : List (BitVec 8) → List (BitVec 8) → Bool

/-- The public key that a certificate carries. -/
opaque certPub : List (BitVec 8) → List (BitVec 8)

/-- The serial number that a device certificate carries (R447). -/
opaque certSerial : List (BitVec 8) → Nat

/-- SHA-384 of the Derdom root public key in ROM (R447). -/
opaque rootDigest : List (BitVec 8)

/-- ITU-R BT.709 limited-range conversion of Y, Cb, Cr to 10-bit R, G, B; the flag says that the components have 10 bits, not
8 (R305; the rounding is left open). -/
opaque bt709 : Bool → Nat → Nat → Nat → Nat × Nat × Nat

/-- The three component CRCs of the DisplayPort 1.4 sink test after one more line (Table 11.1). -/
opaque dpCrc : List (BitVec 16) → List (Nat × Nat × Nat) → List (BitVec 16)

/-- A descriptor of the USB hub function by type and index, where USB 2.0 and the vendor fix it and the spec does not. -/
opaque usbDescriptor : Nat → Nat → List (BitVec 8)

/-- TS_LEAD of an Ethernet port, by mode, FEC and DVFS point, at a point other than F0: Table 13.1 gives F0 only (log entry 57). -/
opaque ethLead : Nat → Nat → Nat → BitVec 16

/-- The payload rate in Mb/s that the USB hub (0x10) and the steward (0x11) report to TSS, which the spec leaves unstated (R227,
log entry 57). -/
opaque innerRate : Nat → BitVec 21

/-- BLK_CAP.INSTANCES of USB in a hub that is neither ROOT nor LEAF, which R396 leaves unstated. -/
opaque usbInstances : BitVec 8

end Sys2Proof.Config
end

