-- ==== Sys2Proof/Machine/RegMap.lean ====
section
/-! DEFINITION. The register map: one row for every register (or run of like registers) that the chapters
place outside page 0 and the fault and arbiter pages, from the register tables of spec/ (the tables of each
chapter, in the chapters' order), and the address of each under its name in the spec. -/

namespace Sys2Proof.Machine

/-- One register, or a run of like ones: pages `pg, pg + pst, …` (`npg` of them), offsets `off, off + st, …`
(`n` of them). `sp` is 0 when every one resets to `reset`; else it picks the reset value that depends on the
role, a strap or the number of the register. The masks say which bits are RW S, RW I, W1C and RO (Table 0.5);
bits in no mask are reserved, write-only or W1S bits that read 0 (R10, R11). -/
structure RegRow where
  pg : Nat
  npg : Nat
  pst : Nat
  off : Nat
  n : Nat
  st : Nat
  reset : Nat
  sp : Nat
  s : Nat
  i : Nat
  c : Nat
  r : Nat

/-! Registers of STW. -/

abbrev Reg.MH_TIME_HI : Nat := 0x00001024
abbrev Reg.STW_ROLE : Nat := 0x00002000
abbrev Reg.STW_HUB_ID : Nat := 0x00002004
abbrev Reg.STW_REMOTE_SEL : Nat := 0x00002008
abbrev Reg.STW_REMOTE_TMO : Nat := 0x0000200C
abbrev Reg.STW_REMOTE_STAT : Nat := 0x00002010
abbrev Reg.STW_REMOTE_WFAIL : Nat := 0x00002014
abbrev Reg.STW_REMOTE_WADDR : Nat := 0x00002018
abbrev Reg.STW_RESET_CAUSE : Nat := 0x0000201C
abbrev Reg.STW_TIME_HI : Nat := 0x00003004
abbrev Reg.STW_TIME_CFG : Nat := 0x00003008
abbrev Reg.STW_TIME_STAT : Nat := 0x0000300C
abbrev Reg.STW_TIME_RATE : Nat := 0x00003010
abbrev Reg.STW_TIME_OFS : Nat := 0x00003014
abbrev Reg.STW_TIME_STEP_LO : Nat := 0x00003018
abbrev Reg.STW_TIME_STEP_HI : Nat := 0x0000301C
abbrev Reg.STW_TAI_OFS_LO : Nat := 0x00003020
abbrev Reg.STW_TAI_OFS_HI : Nat := 0x00003024
abbrev Reg.STW_PPS_CFG : Nat := 0x00003030
abbrev Reg.STW_PPS_IN_LO : Nat := 0x00003034
abbrev Reg.STW_PPS_IN_HI : Nat := 0x00003038
abbrev Reg.STW_PPS_IN_CNT : Nat := 0x0000303C
abbrev Reg.STW_PPS_IN_ERR : Nat := 0x00003040
abbrev Reg.STW_OLOG_CFG : Nat := 0x00004000
abbrev Reg.STW_OLOG_ATTN : Nat := 0x00004004
abbrev Reg.STW_OLOG_ACK : Nat := 0x00004010
abbrev Reg.STW_OLOG_LOST : Nat := 0x00004018
abbrev Reg.STW_BLK_DATA (j : Nat) : Nat := 0x00008000 + j * 0x4
abbrev Reg.STW_BLK_STATUS (j : Nat) : Nat := 0x00009000 + j * 0x4
/-! Registers of SIT. -/

abbrev Reg.SIT_PROFILE : Nat := 0x02301000
abbrev Reg.SIT_FAULTN : Nat := 0x02301004
abbrev Reg.SIT_FAULTN_CNT : Nat := 0x02301008
abbrev Reg.SIT_TARGET_EN : Nat := 0x0230100C
abbrev Reg.SIT_BANK_PERIOD : Nat := 0x02301010
abbrev Reg.SIT_LANE_CFG : Nat := 0x02301014
abbrev Reg.SIT_COVER_LIMIT : Nat := 0x02301018
abbrev Reg.SIT_COVER_STAT : Nat := 0x0230101C
abbrev Reg.SIT_COVER_LAST : Nat := 0x02301020
abbrev Reg.SIT_SKIPPED : Nat := 0x02301024
abbrev Reg.SIT_LANE_NOPEER : Nat := 0x02301028
abbrev Reg.SIT_RUN (j : Nat) : Nat := 0x02301030 + j * 0x4
abbrev Reg.SIT_FAIL (j : Nat) : Nat := 0x02301048 + j * 0x4
/-! Registers of STW. -/

abbrev Reg.MH_SEQ : Nat := 0x00001000
abbrev Reg.MH_ATTN : Nat := 0x00001004
abbrev Reg.MH_FAULT : Nat := 0x00001008
abbrev Reg.MH_LIVE : Nat := 0x0000100C
abbrev Reg.MH_SEVERE : Nat := 0x00001010
abbrev Reg.MH_MSGQ : Nat := 0x00001014
abbrev Reg.MH_HUB : Nat := 0x00001018
abbrev Reg.MH_TIME_LO : Nat := 0x00001020
abbrev Reg.STW_TIME_LO : Nat := 0x00003000
abbrev Reg.STW_SOFT_ADJ : Nat := 0x00003028
abbrev Reg.STW_OLOG_WR : Nat := 0x00004008
abbrev Reg.STW_OLOG_SEQ : Nat := 0x0000400C
abbrev Reg.STW_OLOG_UNREAD : Nat := 0x00004014
abbrev Reg.STW_OLOG_MARK : Nat := 0x0000401C
/-! Registers of SIT. -/

abbrev Reg.SIT_REPAIR_STAT : Nat := 0x02301060
/-! Registers of PMU. -/

abbrev Reg.PMU_STATE : Nat := 0x02101000
abbrev Reg.PMU_KEEPAWAKE : Nat := 0x02101004
abbrev Reg.PMU_DVFS : Nat := 0x02101008
abbrev Reg.PMU_VPT01 : Nat := 0x0210100C
abbrev Reg.PMU_VPT23 : Nat := 0x02101010
abbrev Reg.PMU_PMB : Nat := 0x02101014
abbrev Reg.PMU_RETAIN_LO : Nat := 0x02101018
abbrev Reg.PMU_RETAIN_HI : Nat := 0x0210101C
abbrev Reg.PMU_FW_BANKS : Nat := 0x02101020
abbrev Reg.PMU_WAKE_EN : Nat := 0x02101024
abbrev Reg.PMU_WAKE_CMP : Nat := 0x02101028
abbrev Reg.PMU_WAKE_TIMER : Nat := 0x0210102C
abbrev Reg.PMU_AO : Nat := 0x02101030
abbrev Reg.PMU_TEMP : Nat := 0x02101034
abbrev Reg.PMU_AUTO : Nat := 0x02101038
abbrev Reg.PMU_DOZES : Nat := 0x0210103C
abbrev Reg.PMU_NAPS : Nat := 0x02101040
abbrev Reg.PMU_HOLD (j : Nat) : Nat := 0x02101044 + j * 0x4
abbrev Reg.PMU_BROWNOUTS : Nat := 0x02101074
/-! Registers of LNX. -/

abbrev Reg.LNX_REF_STAT : Nat := 0x00801000
abbrev Reg.LNX_REPAIR_MAP_LO : Nat := 0x00801004
abbrev Reg.LNX_REPAIR_MAP_HI : Nat := 0x00801008
abbrev Reg.LNX_REPAIR_CTRL : Nat := 0x0080100C
abbrev Reg.LNX_SPARE_LO : Nat := 0x00801010
abbrev Reg.LNX_SPARE_HI : Nat := 0x00801014
abbrev Reg.LNX_PORT_MAP (j : Nat) : Nat := 0x00801020 + j * 0x4
abbrev Reg.LN_CFG (i : Nat) : Nat := 0x00810000 + i * 0x1000
abbrev Reg.LN_TXEQ (i : Nat) : Nat := 0x00810004 + i * 0x1000
abbrev Reg.LN_STAT (i : Nat) : Nat := 0x00810008 + i * 0x1000
abbrev Reg.LN_SLIP (i : Nat) : Nat := 0x0081000C + i * 0x1000
abbrev Reg.LN_SH_WIN (i : Nat) : Nat := 0x00810010 + i * 0x1000
abbrev Reg.LN_SH_ERR (i : Nat) : Nat := 0x00810014 + i * 0x1000
abbrev Reg.LN_PPM (i : Nat) : Nat := 0x00810018 + i * 0x1000
abbrev Reg.LN_ERRBLK (i : Nat) : Nat := 0x0081001C + i * 0x1000
abbrev Reg.LN_PAT_CFG (i : Nat) : Nat := 0x00810020 + i * 0x1000
abbrev Reg.LN_PAT_USER (i : Nat) : Nat := 0x00810024 + i * 0x1000
abbrev Reg.LN_PAT_ERR (i : Nat) : Nat := 0x00810028 + i * 0x1000
abbrev Reg.LN_PAT_BITS_LO (i : Nat) : Nat := 0x0081002C + i * 0x1000
abbrev Reg.LN_PAT_BITS_HI (i : Nat) : Nat := 0x00810030 + i * 0x1000
abbrev Reg.LN_LOOP (i : Nat) : Nat := 0x00810034 + i * 0x1000
/-! Registers of KLL. -/

abbrev Reg.KLL_DEPTH : Nat := 0x00901000
abbrev Reg.KLL_TT_CFG : Nat := 0x00901004
abbrev Reg.KLL_TT_STAT : Nat := 0x00901008
abbrev Reg.KLL_TT_OFS : Nat := 0x0090100C
abbrev Reg.KLL_IDLE_HOLD : Nat := 0x00901010
abbrev Reg.KLL_PORT_UP : Nat := 0x00901014
abbrev Reg.KLL_ROUTE_MISS : Nat := 0x00901018
abbrev Reg.KLL_MSG_BAD : Nat := 0x0090101C
abbrev Reg.KL_CFG (i : Nat) : Nat := 0x00910000 + i * 0x1000
abbrev Reg.KL_CTRL (i : Nat) : Nat := 0x00910004 + i * 0x1000
abbrev Reg.KL_STATE (i : Nat) : Nat := 0x00910008 + i * 0x1000
abbrev Reg.KL_PEER (i : Nat) : Nat := 0x0091000C + i * 0x1000
abbrev Reg.KL_ROUTE (i : Nat) : Nat := 0x00910010 + i * 0x1000
abbrev Reg.KL_REPLAY_CFG (i : Nat) : Nat := 0x00910014 + i * 0x1000
abbrev Reg.KL_REPLAY_STAT (i : Nat) : Nat := 0x00910018 + i * 0x1000
abbrev Reg.KL_TT_ASYM (i : Nat) : Nat := 0x0091001C + i * 0x1000
abbrev Reg.KL_CNT_REPLAY (i : Nat) : Nat := 0x00910020 + i * 0x1000
abbrev Reg.KL_CNT_NAK (i : Nat) : Nat := 0x00910024 + i * 0x1000
abbrev Reg.KL_CNT_HDR (i : Nat) : Nat := 0x00910028 + i * 0x1000
abbrev Reg.KL_CNT_PENNANT (i : Nat) : Nat := 0x0091002C + i * 0x1000
abbrev Reg.KL_CNT_MAC (i : Nat) : Nat := 0x00910030 + i * 0x1000
abbrev Reg.KL_CNT_ELASTIC (i : Nat) : Nat := 0x00910034 + i * 0x1000
abbrev Reg.KL_CNT_VOID (i : Nat) : Nat := 0x00910038 + i * 0x1000
abbrev Reg.KL_CNT_RETRAIN (i : Nat) : Nat := 0x0091003C + i * 0x1000
abbrev Reg.KL_CRED (i : Nat) (j : Nat) : Nat := 0x00910040 + i * 0x1000 + j * 0x4
abbrev Reg.KL_PEER_DIGEST (i : Nat) (j : Nat) : Nat := 0x00910060 + i * 0x1000 + j * 0x4
/-! Registers of ETH. -/

abbrev Reg.EP_CFG (i : Nat) : Nat := 0x01A10000 + i * 0x1000
/-! Registers of PXB. -/

abbrev Reg.PX_STAT : Nat := 0x01B01004
/-! Registers of DSE. -/

abbrev Reg.DO_CFG (i : Nat) : Nat := 0x01810000 + i * 0x1000
abbrev Reg.DI_CFG (i : Nat) : Nat := 0x01820000 + i * 0x1000
/-! Registers of TSC. -/

abbrev Reg.TSC_CAP : Nat := 0x01001000
abbrev Reg.TSC_KITTY : Nat := 0x01001004
abbrev Reg.TSC_KITTY_MIN : Nat := 0x01001008
abbrev Reg.TSC_RESERVE : Nat := 0x0100100C
abbrev Reg.TSC_REASM_TMO : Nat := 0x01001010
abbrev Reg.TSC_RESEQ_TMO : Nat := 0x01001014
abbrev Reg.TSC_BANK_CFG : Nat := 0x01001018
abbrev Reg.TSC_DROP_LOST : Nat := 0x0100101C
abbrev Reg.TSC_LEDGER_STAT : Nat := 0x01001020
abbrev Reg.TSC_LEDGER_REC : Nat := 0x01001024
abbrev Reg.TSC_LEDGER_DIFF : Nat := 0x01001028
abbrev Reg.TSC_LEDGER_TIME_LO : Nat := 0x0100102C
abbrev Reg.TSC_LEDGER_TIME_HI : Nat := 0x01001030
abbrev Reg.TSC_SNAP (j : Nat) : Nat := 0x01001040 + j * 0x4
abbrev Reg.TSC_BANK_MAP (j : Nat) : Nat := 0x01001070 + j * 0x4
abbrev Reg.TSC_BANK_SPARE : Nat := 0x0100108C
abbrev Reg.TSC_BANK_OUT_LO : Nat := 0x01001090
abbrev Reg.TSC_BANK_OUT_HI : Nat := 0x01001094
abbrev Reg.TP_EG_PORT_LIMIT (i : Nat) : Nat := 0x01010000 + i * 0x1000
abbrev Reg.TP_ING_LIMIT (i : Nat) : Nat := 0x01010004 + i * 0x1000
abbrev Reg.TP_EG_LIMIT (i : Nat) (j : Nat) : Nat := 0x01010010 + i * 0x1000 + j * 0x4
abbrev Reg.TP_RX_LIMIT (i : Nat) (j : Nat) : Nat := 0x01010030 + i * 0x1000 + j * 0x4
abbrev Reg.TP_PEND (i : Nat) (j : Nat) : Nat := 0x01010050 + i * 0x1000 + j * 0x4
abbrev Reg.TP_PEND_TOTAL (i : Nat) : Nat := 0x01010070 + i * 0x1000
abbrev Reg.TP_ING_HELD (i : Nat) : Nat := 0x01010074 + i * 0x1000
abbrev Reg.TP_PEND_MAX (i : Nat) : Nat := 0x01010078 + i * 0x1000
abbrev Reg.TP_DROP_ADMIT (i : Nat) : Nat := 0x01010080 + i * 0x1000
abbrev Reg.TP_DROP_PENNANT (i : Nat) : Nat := 0x01010084 + i * 0x1000
abbrev Reg.TP_DROP_RESET (i : Nat) : Nat := 0x01010088 + i * 0x1000
abbrev Reg.TP_DROP_ABANDON (i : Nat) : Nat := 0x0101008C + i * 0x1000
abbrev Reg.TP_WAIT_ADMIT (i : Nat) : Nat := 0x01010090 + i * 0x1000
abbrev Reg.TSC_GROUP (i : Nat) (j : Nat) : Nat := 0x01040000 + i * 0x1000 + j * 0x4
/-! Registers of FCM. -/

abbrev Reg.FCM_SLOT_FREE : Nat := 0x01201000
abbrev Reg.FCM_SLOT_RESIDENT : Nat := 0x01201004
abbrev Reg.FCM_SLOT_DUMMY : Nat := 0x01201008
abbrev Reg.FCM_SLOT_WB : Nat := 0x0120100C
abbrev Reg.FCM_PINNED : Nat := 0x01201010
abbrev Reg.FCM_BS_CFG : Nat := 0x01201014
abbrev Reg.FCM_BS_BASE_LO : Nat := 0x01201018
abbrev Reg.FCM_BS_BASE_HI : Nat := 0x0120101C
abbrev Reg.FCM_FOYER_WAIT : Nat := 0x01201020
abbrev Reg.FCM_PAGE_TAGS : Nat := 0x01201024
abbrev Reg.FCM_APER_BASE_LO : Nat := 0x01201028
abbrev Reg.FCM_APER_BASE_HI : Nat := 0x0120102C
abbrev Reg.FCM_APER_LIMIT_LO : Nat := 0x01201030
abbrev Reg.FCM_APER_LIMIT_HI : Nat := 0x01201034
abbrev Reg.FCM_PAGE_IN : Nat := 0x01201040
abbrev Reg.FCM_PAGE_OUT : Nat := 0x01201044
abbrev Reg.FCM_PAGE_FAIL : Nat := 0x01201048
abbrev Reg.FCM_PAGE_LATE : Nat := 0x0120104C
abbrev Reg.FCM_PAGE_LAT_MAX : Nat := 0x01201050
abbrev Reg.FCM_FOYER_DROP : Nat := 0x01201054
abbrev Reg.FCM_REFUSED : Nat := 0x01201058
abbrev Reg.FCM_WB_LOST : Nat := 0x0120105C
abbrev Reg.FCM_BS_COLLIDE : Nat := 0x01201060
abbrev Reg.FCM_RLOG_HEAD : Nat := 0x01201064
abbrev Reg.FCM_PAGE_SERVED : Nat := 0x01201068
abbrev Reg.FCM_TEMPLATE (j : Nat) : Nat := 0x01202000 + j * 0x4
abbrev Reg.FCM_RLOG (j : Nat) : Nat := 0x01203000 + j * 0x4
abbrev Reg.FY_FRAMES (i : Nat) : Nat := 0x01210000 + i * 0x1000
abbrev Reg.FY_CELLS (i : Nat) : Nat := 0x01210004 + i * 0x1000
abbrev Reg.FY_MAX (i : Nat) : Nat := 0x01210008 + i * 0x1000
abbrev Reg.FY_DROP (i : Nat) : Nat := 0x0121000C + i * 0x1000
abbrev Reg.FY_WAIT_MAX (i : Nat) : Nat := 0x01210010 + i * 0x1000
/-! Registers of TSS. -/

abbrev Reg.TSS_EPOCH : Nat := 0x01101000
abbrev Reg.TSS_TRICK : Nat := 0x01101004
abbrev Reg.TSS_REFILL : Nat := 0x01101008
abbrev Reg.TSS_DEAL_CFG : Nat := 0x0110100C
abbrev Reg.TSS_DEAL_STAT : Nat := 0x01101010
abbrev Reg.TSS_DEAL_TIME : Nat := 0x01101014
abbrev Reg.TSS_DEAL_LATE : Nat := 0x01101018
abbrev Reg.TSS_LEND_CFG : Nat := 0x0110101C
abbrev Reg.TSS_LENT_BUF_LO : Nat := 0x01101020
abbrev Reg.TSS_LENT_BUF_HI : Nat := 0x01101024
abbrev Reg.TSS_LENT_GAP : Nat := 0x01101028
abbrev Reg.TS_CFG (i : Nat) : Nat := 0x01110000 + i * 0x1000
abbrev Reg.TS_BYTE_TIME (i : Nat) : Nat := 0x01110004 + i * 0x1000
abbrev Reg.TS_CAP (i : Nat) : Nat := 0x01110008 + i * 0x1000
abbrev Reg.TS_LEAD (i : Nat) : Nat := 0x0111000C + i * 0x1000
abbrev Reg.TS_CW (i : Nat) (j : Nat) : Nat := 0x01110010 + i * 0x1000 + j * 0x4
abbrev Reg.TS_NEWQ (i : Nat) (j : Nat) : Nat := 0x01110030 + i * 0x1000 + j * 0x4
abbrev Reg.TS_CSH (i : Nat) (j : Nat) : Nat := 0x01110050 + i * 0x1000 + j * 0x4
abbrev Reg.TS_CQ (i : Nat) (j : Nat) : Nat := 0x01110070 + i * 0x1000 + j * 0x4
abbrev Reg.TS_TRUMP_RATE (i : Nat) : Nat := 0x01110090 + i * 0x1000
abbrev Reg.TS_GCTL (i : Nat) : Nat := 0x01110094 + i * 0x1000
abbrev Reg.TS_GSW_LO (i : Nat) : Nat := 0x01110098 + i * 0x1000
abbrev Reg.TS_GSW_HI (i : Nat) : Nat := 0x0111009C + i * 0x1000
abbrev Reg.TS_GSTAT (i : Nat) : Nat := 0x011100A0 + i * 0x1000
abbrev Reg.TS_GCYCLES (i : Nat) : Nat := 0x011100A4 + i * 0x1000
abbrev Reg.TS_GBASE_LO (i : Nat) (j : Nat) : Nat := 0x011100B0 + i * 0x1000 + j * 0x10
abbrev Reg.TS_GBASE_HI (i : Nat) (j : Nat) : Nat := 0x011100B4 + i * 0x1000 + j * 0x10
abbrev Reg.TS_GCYCLE (i : Nat) (j : Nat) : Nat := 0x011100B8 + i * 0x1000 + j * 0x10
abbrev Reg.TS_GLEN (i : Nat) (j : Nat) : Nat := 0x011100BC + i * 0x1000 + j * 0x10
abbrev Reg.TS_GATE_WAIT (i : Nat) : Nat := 0x011100D0 + i * 0x1000
abbrev Reg.TS_OVERRUN (i : Nat) : Nat := 0x011100D4 + i * 0x1000
abbrev Reg.TS_DEAL_LATE (i : Nat) : Nat := 0x011100D8 + i * 0x1000
abbrev Reg.TS_GATE_A (i : Nat) (j : Nat) : Nat := 0x01140000 + i * 0x1000 + j * 0x4
abbrev Reg.TS_GATE_B (i : Nat) (j : Nat) : Nat := 0x01140400 + i * 0x1000 + j * 0x4
/-! Registers of KSI. -/

abbrev Reg.KSI_STAT : Nat := 0x02201000
abbrev Reg.KSI_TAMP_CFG : Nat := 0x02201004
abbrev Reg.KSI_TAMP_REC : Nat := 0x02201008
abbrev Reg.KSI_TAMP_COUNT : Nat := 0x0220100C
abbrev Reg.KSI_TAMP_TIME_LO : Nat := 0x02201010
abbrev Reg.KSI_TAMP_TIME_HI : Nat := 0x02201014
abbrev Reg.KSI_UPD_CTR_LO : Nat := 0x02201018
abbrev Reg.KSI_UPD_CTR_HI : Nat := 0x0220101C
abbrev Reg.KSI_CR_CTR : Nat := 0x02201020
abbrev Reg.KSI_UPD_REJ : Nat := 0x02201024
abbrev Reg.KSI_SERIAL_LO : Nat := 0x02201028
abbrev Reg.KSI_SERIAL_HI : Nat := 0x0220102C
abbrev Reg.KSI_DEV_DIGEST (j : Nat) : Nat := 0x02201030 + j * 0x4
abbrev Reg.KSI_ROOT_DIGEST (j : Nat) : Nat := 0x02201060 + j * 0x4
abbrev Reg.KSI_CHAL (j : Nat) : Nat := 0x02202000 + j * 0x4
abbrev Reg.KSI_RESP (j : Nat) : Nat := 0x02202020 + j * 0x4
abbrev Reg.KSI_BUF (j : Nat) : Nat := 0x02203000 + j * 0x4
abbrev Reg.KSI_SLOT (j : Nat) : Nat := 0x02205000 + j * 0x4
/-! Registers of MIR. -/

abbrev Reg.MIR_CFG : Nat := 0x00A01000
abbrev Reg.MIR_STAT : Nat := 0x00A01004
abbrev Reg.MIR_ROLE : Nat := 0x00A01008
abbrev Reg.MIR_GROUP (j : Nat) : Nat := 0x00A01010 + j * 0x4
abbrev Reg.MIR_HB_SEQ_TX : Nat := 0x00A01030
abbrev Reg.MIR_HB_SEQ_RX : Nat := 0x00A01034
abbrev Reg.MIR_HB_MISS : Nat := 0x00A01038
abbrev Reg.MIR_LAG : Nat := 0x00A0103C
abbrev Reg.MIR_TAKEOVERS : Nat := 0x00A01040
abbrev Reg.MIR_TAKE_TIME : Nat := 0x00A01044
abbrev Reg.MIR_TAKE_STAT : Nat := 0x00A01048
abbrev Reg.MIR_LOST_FRAMES : Nat := 0x00A0104C
abbrev Reg.MIR_LOST_EST : Nat := 0x00A01050
abbrev Reg.MIR_REC_USED : Nat := 0x00A01054
abbrev Reg.MIR_REC_FULL : Nat := 0x00A01058
abbrev Reg.MIR_CTX_DIVERGE : Nat := 0x00A0105C
abbrev Reg.MIR_CROSS_LATE : Nat := 0x00A01060
abbrev Reg.MIR_HO_LATE : Nat := 0x00A01064
abbrev Reg.MIR_LOSS_TIME_LO : Nat := 0x00A01068
abbrev Reg.MIR_LOSS_TIME_HI : Nat := 0x00A0106C
abbrev Reg.MIR_RECON_HUB : Nat := 0x00A01070
abbrev Reg.MIR_RECON_OUT : Nat := 0x00A01074
abbrev Reg.MIR_RECON_RET : Nat := 0x00A01078
/-! Registers of DSE. -/

abbrev Reg.DS_CTRL : Nat := 0x01801000
abbrev Reg.DS_OVL_CTL : Nat := 0x01801004
abbrev Reg.DS_OVL_POS : Nat := 0x01801008
abbrev Reg.DS_OVL_SIZE : Nat := 0x0180100C
abbrev Reg.DS_FILL : Nat := 0x01801010
abbrev Reg.DS_FMT_ERR : Nat := 0x01801014
abbrev Reg.DO_PCLK (i : Nat) : Nat := 0x01810004 + i * 0x1000
abbrev Reg.DO_H (i : Nat) : Nat := 0x01810008 + i * 0x1000
abbrev Reg.DO_V (i : Nat) : Nat := 0x0181000C + i * 0x1000
abbrev Reg.DO_VBMAX (i : Nat) : Nat := 0x01810010 + i * 0x1000
abbrev Reg.DO_HSYNC (i : Nat) : Nat := 0x01810014 + i * 0x1000
abbrev Reg.DO_VSYNC (i : Nat) : Nat := 0x01810018 + i * 0x1000
abbrev Reg.DO_SCAN (i : Nat) : Nat := 0x0181001C + i * 0x1000
abbrev Reg.DO_WIN (i : Nat) : Nat := 0x01810020 + i * 0x1000
abbrev Reg.DO_STAT (i : Nat) : Nat := 0x01810024 + i * 0x1000
abbrev Reg.DO_VFRAME (i : Nat) : Nat := 0x01810028 + i * 0x1000
abbrev Reg.DO_START_LO (i : Nat) : Nat := 0x0181002C + i * 0x1000
abbrev Reg.DO_START_HI (i : Nat) : Nat := 0x01810030 + i * 0x1000
abbrev Reg.DO_FIFO (i : Nat) : Nat := 0x01810034 + i * 0x1000
abbrev Reg.DO_FRAMES (i : Nat) : Nat := 0x01810040 + i * 0x1000
abbrev Reg.DO_FILL_FRAMES (i : Nat) : Nat := 0x01810044 + i * 0x1000
abbrev Reg.DO_SKIPPED (i : Nat) : Nat := 0x01810048 + i * 0x1000
abbrev Reg.DO_UNDERRUN (i : Nat) : Nat := 0x0181004C + i * 0x1000
abbrev Reg.DO_LINE_MISSING (i : Nat) : Nat := 0x01810050 + i * 0x1000
abbrev Reg.DO_LINE_BAD (i : Nat) : Nat := 0x01810054 + i * 0x1000
abbrev Reg.DO_DISCARD (i : Nat) : Nat := 0x01810058 + i * 0x1000
abbrev Reg.DO_CRC_RG (i : Nat) : Nat := 0x0181005C + i * 0x1000
abbrev Reg.DO_CRC_B (i : Nat) : Nat := 0x01810060 + i * 0x1000
abbrev Reg.DI_FLOW (i : Nat) : Nat := 0x01820004 + i * 0x1000
abbrev Reg.DI_STAT (i : Nat) : Nat := 0x01820008 + i * 0x1000
abbrev Reg.DI_H (i : Nat) : Nat := 0x0182000C + i * 0x1000
abbrev Reg.DI_V (i : Nat) : Nat := 0x01820010 + i * 0x1000
abbrev Reg.DI_FMT (i : Nat) : Nat := 0x01820014 + i * 0x1000
abbrev Reg.DI_PCLK (i : Nat) : Nat := 0x01820018 + i * 0x1000
abbrev Reg.DI_LINES (i : Nat) : Nat := 0x0182001C + i * 0x1000
abbrev Reg.DI_LINE_ERR (i : Nat) : Nat := 0x01820020 + i * 0x1000
abbrev Reg.DI_SDP_DROP (i : Nat) : Nat := 0x01820024 + i * 0x1000
abbrev Reg.DSE_EDID (i : Nat) (j : Nat) : Nat := 0x01830000 + i * 0x1000 + j * 0x4
/-! Registers of VIN. -/

abbrev Reg.VN_CFG (i : Nat) : Nat := 0x01910000 + i * 0x1000
abbrev Reg.VN_CAP_FLOW (i : Nat) : Nat := 0x01910004 + i * 0x1000
abbrev Reg.VN_VIEW_FLOW (i : Nat) : Nat := 0x01910008 + i * 0x1000
abbrev Reg.VN_VIEW_WIN (i : Nat) : Nat := 0x0191000C + i * 0x1000
abbrev Reg.VN_FRAME_LINES (i : Nat) : Nat := 0x01910010 + i * 0x1000
abbrev Reg.VN_STAT (i : Nat) : Nat := 0x01910014 + i * 0x1000
abbrev Reg.VN_VFRAME (i : Nat) : Nat := 0x01910018 + i * 0x1000
abbrev Reg.VN_FS_TIME_LO (i : Nat) : Nat := 0x0191001C + i * 0x1000
abbrev Reg.VN_FS_TIME_HI (i : Nat) : Nat := 0x01910020 + i * 0x1000
abbrev Reg.VN_FS_LAT (i : Nat) : Nat := 0x01910024 + i * 0x1000
abbrev Reg.VN_TRIG_CTL (i : Nat) : Nat := 0x01910030 + i * 0x1000
abbrev Reg.VN_TRIG_START_LO (i : Nat) : Nat := 0x01910034 + i * 0x1000
abbrev Reg.VN_TRIG_START_HI (i : Nat) : Nat := 0x01910038 + i * 0x1000
abbrev Reg.VN_TRIG_PERIOD (i : Nat) : Nat := 0x0191003C + i * 0x1000
abbrev Reg.VN_TRIG_WIDTH (i : Nat) : Nat := 0x01910040 + i * 0x1000
abbrev Reg.VN_TRIG_COUNT (i : Nat) : Nat := 0x01910044 + i * 0x1000
abbrev Reg.VN_TRIG_MADE (i : Nat) : Nat := 0x01910048 + i * 0x1000
abbrev Reg.VN_FRAMES (i : Nat) : Nat := 0x01910050 + i * 0x1000
abbrev Reg.VN_LINES_OK (i : Nat) : Nat := 0x01910054 + i * 0x1000
abbrev Reg.VN_CRC_ERR (i : Nat) : Nat := 0x01910058 + i * 0x1000
abbrev Reg.VN_ECC_FIX (i : Nat) : Nat := 0x0191005C + i * 0x1000
abbrev Reg.VN_ECC_ERR (i : Nat) : Nat := 0x01910060 + i * 0x1000
abbrev Reg.VN_PHY_ERR (i : Nat) : Nat := 0x01910064 + i * 0x1000
abbrev Reg.VN_OTHER_DROP (i : Nat) : Nat := 0x01910068 + i * 0x1000
abbrev Reg.VN_LONG_DROP (i : Nat) : Nat := 0x0191006C + i * 0x1000
abbrev Reg.VN_ORPHAN (i : Nat) : Nat := 0x01910070 + i * 0x1000
abbrev Reg.VN_TRUNC (i : Nat) : Nat := 0x01910074 + i * 0x1000
abbrev Reg.VN_TRIG_SKIP (i : Nat) : Nat := 0x01910078 + i * 0x1000
/-! Registers of ETH. -/

abbrev Reg.ETH_CLS_STAT : Nat := 0x01A01000
abbrev Reg.EP_STAT (i : Nat) : Nat := 0x01A10004 + i * 0x1000
abbrev Reg.EP_MAXLEN (i : Nat) : Nat := 0x01A10008 + i * 0x1000
abbrev Reg.EP_PVID (i : Nat) : Nat := 0x01A1000C + i * 0x1000
abbrev Reg.EP_DEF_FLOW (i : Nat) : Nat := 0x01A10010 + i * 0x1000
abbrev Reg.EP_TS_CORR (i : Nat) : Nat := 0x01A10014 + i * 0x1000
abbrev Reg.EP_TS_RX_NEXT (i : Nat) : Nat := 0x01A10018 + i * 0x1000
abbrev Reg.EP_TS_TX_NEXT (i : Nat) : Nat := 0x01A1001C + i * 0x1000
abbrev Reg.EP_RX_FRAMES (i : Nat) : Nat := 0x01A10040 + i * 0x1000
abbrev Reg.EP_RX_FCS (i : Nat) : Nat := 0x01A10044 + i * 0x1000
abbrev Reg.EP_RX_LEN (i : Nat) : Nat := 0x01A10048 + i * 0x1000
abbrev Reg.EP_RX_CODE (i : Nat) : Nat := 0x01A1004C + i * 0x1000
abbrev Reg.EP_RX_CTRL (i : Nat) : Nat := 0x01A10050 + i * 0x1000
abbrev Reg.EP_RX_MISS (i : Nat) : Nat := 0x01A10054 + i * 0x1000
abbrev Reg.EP_TX_FRAMES (i : Nat) : Nat := 0x01A10058 + i * 0x1000
abbrev Reg.EP_TX_ABORT (i : Nat) : Nat := 0x01A1005C + i * 0x1000
abbrev Reg.EP_TX_BADFMT (i : Nat) : Nat := 0x01A10060 + i * 0x1000
abbrev Reg.EP_TS_RX (i : Nat) : Nat := 0x01A10064 + i * 0x1000
abbrev Reg.EP_STAMP0 (i : Nat) (j : Nat) : Nat := 0x01A20000 + i * 0x1000 + j * 0x10
abbrev Reg.EP_STAMP1 (i : Nat) (j : Nat) : Nat := 0x01A20004 + i * 0x1000 + j * 0x10
abbrev Reg.EP_STAMP2 (i : Nat) (j : Nat) : Nat := 0x01A20008 + i * 0x1000 + j * 0x10
abbrev Reg.EP_STAMP3 (i : Nat) (j : Nat) : Nat := 0x01A2000C + i * 0x1000 + j * 0x10
abbrev Reg.CLS_W0 (i : Nat) (j : Nat) : Nat := 0x01A40000 + i * 0x1000 + j * 0x10
abbrev Reg.CLS_W1 (i : Nat) (j : Nat) : Nat := 0x01A40004 + i * 0x1000 + j * 0x10
abbrev Reg.CLS_W2 (i : Nat) (j : Nat) : Nat := 0x01A40008 + i * 0x1000 + j * 0x10
abbrev Reg.CLS_W3 (i : Nat) (j : Nat) : Nat := 0x01A4000C + i * 0x1000 + j * 0x10
/-! Registers of PXB. -/

abbrev Reg.PX_CFG : Nat := 0x01B01000
abbrev Reg.PX_CTO : Nat := 0x01B01008
abbrev Reg.PX_TUN_TMO : Nat := 0x01B0100C
abbrev Reg.PX_ACC_BASE_LO : Nat := 0x01B01010
abbrev Reg.PX_ACC_BASE_HI : Nat := 0x01B01014
abbrev Reg.PX_ACC_LIMIT_LO : Nat := 0x01B01018
abbrev Reg.PX_ACC_LIMIT_HI : Nat := 0x01B0101C
abbrev Reg.PX_TAGS : Nat := 0x01B01020
abbrev Reg.PX_PEND : Nat := 0x01B01024
abbrev Reg.PX_LATE_HEAD : Nat := 0x01B01028
abbrev Reg.PX_MQ_STAT : Nat := 0x01B0102C
abbrev Reg.PX_MQ_POP : Nat := 0x01B01030
abbrev Reg.PX_MSI_BASE_LO : Nat := 0x01B01034
abbrev Reg.PX_MSI_BASE_HI : Nat := 0x01B01038
abbrev Reg.PX_GPIO_CFG : Nat := 0x01B0103C
abbrev Reg.PX_PF_CTL : Nat := 0x01B01040
abbrev Reg.PX_PF_DISCARD : Nat := 0x01B01044
abbrev Reg.PX_PF_FIRST_LO : Nat := 0x01B01048
abbrev Reg.PX_PF_FIRST_HI : Nat := 0x01B0104C
abbrev Reg.PX_UR_IN : Nat := 0x01B01050
abbrev Reg.PX_CTO_CNT : Nat := 0x01B01054
abbrev Reg.PX_TUN_TMO_CNT : Nat := 0x01B01058
abbrev Reg.PX_CPL_STRAY : Nat := 0x01B0105C
abbrev Reg.PX_BAD_FRAME : Nat := 0x01B01060
abbrev Reg.PX_BAR_LATE : Nat := 0x01B01064
abbrev Reg.PX_MQ_STALL : Nat := 0x01B01068
abbrev Reg.PW_CFG (i : Nat) : Nat := 0x01B10000 + i * 0x1000
abbrev Reg.PW_BASE_LO (i : Nat) : Nat := 0x01B10004 + i * 0x1000
abbrev Reg.PW_BASE_HI (i : Nat) : Nat := 0x01B10008 + i * 0x1000
abbrev Reg.PW_XLAT_LO (i : Nat) : Nat := 0x01B1000C + i * 0x1000
abbrev Reg.PW_XLAT_HI (i : Nat) : Nat := 0x01B10010 + i * 0x1000
abbrev Reg.PW_FLOW_P (i : Nat) : Nat := 0x01B10014 + i * 0x1000
abbrev Reg.PW_FLOW_N (i : Nat) : Nat := 0x01B10018 + i * 0x1000
abbrev Reg.PW_RET_N (i : Nat) : Nat := 0x01B1001C + i * 0x1000
abbrev Reg.PW_RET_P (i : Nat) : Nat := 0x01B10020 + i * 0x1000
abbrev Reg.PW_PF (i : Nat) : Nat := 0x01B10024 + i * 0x1000
abbrev Reg.PW_STAT (i : Nat) : Nat := 0x01B10028 + i * 0x1000
abbrev Reg.PW_FENCE_DROP (i : Nat) : Nat := 0x01B1002C + i * 0x1000
abbrev Reg.PW_NPW_PARTS (i : Nat) : Nat := 0x01B10030 + i * 0x1000
abbrev Reg.PW_NPW_FAILMASK (i : Nat) : Nat := 0x01B10034 + i * 0x1000
abbrev Reg.PW_REQS (i : Nat) : Nat := 0x01B10038 + i * 0x1000
abbrev Reg.PW_LATE (i : Nat) : Nat := 0x01B1003C + i * 0x1000
abbrev Reg.PX_LATE_RING (j : Nat) : Nat := 0x01B20000 + j * 0x4
abbrev Reg.PX_MQ (j : Nat) : Nat := 0x01B30000 + j * 0x4
/-! Registers of USB. -/

abbrev Reg.USB_CFG : Nat := 0x01C01000
abbrev Reg.USB_STAT : Nat := 0x01C01004
abbrev Reg.USB_EPMEM : Nat := 0x01C01008
abbrev Reg.USB_DEVS : Nat := 0x01C0100C
abbrev Reg.USB_MQ_STAT : Nat := 0x01C01010
abbrev Reg.USB_MQ_POP : Nat := 0x01C01014
abbrev Reg.USB_RX_CRC : Nat := 0x01C01020
abbrev Reg.USB_HS_ISO_REJ : Nat := 0x01C01024
abbrev Reg.USB_SPLIT_LATE : Nat := 0x01C01028
abbrev Reg.USB_EPOCH_DROP : Nat := 0x01C0102C
abbrev Reg.USB_WAKE_MERGED : Nat := 0x01C01030
abbrev Reg.USB_RESETS : Nat := 0x01C01034
abbrev Reg.USB_DEV_REFUSED : Nat := 0x01C01038
abbrev Reg.TN_CFG (i : Nat) : Nat := 0x01C10000 + i * 0x1000
abbrev Reg.TN_FLOW_DN (i : Nat) : Nat := 0x01C10004 + i * 0x1000
abbrev Reg.TN_FLOW_UP (i : Nat) : Nat := 0x01C10008 + i * 0x1000
abbrev Reg.TN_TMO (i : Nat) : Nat := 0x01C1000C + i * 0x1000
abbrev Reg.TN_STAT (i : Nat) : Nat := 0x01C10010 + i * 0x1000
abbrev Reg.TN_SEQ (i : Nat) : Nat := 0x01C10014 + i * 0x1000
abbrev Reg.TN_INFL (i : Nat) : Nat := 0x01C10018 + i * 0x1000
abbrev Reg.TN_BURSTS (i : Nat) : Nat := 0x01C10020 + i * 0x1000
abbrev Reg.TN_RESEND (i : Nat) : Nat := 0x01C10024 + i * 0x1000
abbrev Reg.TN_DUP (i : Nat) : Nat := 0x01C10028 + i * 0x1000
abbrev Reg.TN_GAP (i : Nat) : Nat := 0x01C1002C + i * 0x1000
abbrev Reg.UP_CFG (i : Nat) : Nat := 0x01C20000 + i * 0x1000
abbrev Reg.UP_STAT (i : Nat) : Nat := 0x01C20004 + i * 0x1000
abbrev Reg.UP_OC (i : Nat) : Nat := 0x01C20008 + i * 0x1000
abbrev Reg.UP_RESETS (i : Nat) : Nat := 0x01C2000C + i * 0x1000
abbrev Reg.UP_NAKPROXY (i : Nat) : Nat := 0x01C20010 + i * 0x1000
abbrev Reg.USB_MQ (j : Nat) : Nat := 0x01C30000 + j * 0x4
abbrev Reg.USB_DEV (j : Nat) : Nat := 0x01C40000 + j * 0x4
/-! Registers of PPC. -/

abbrev Reg.PPC_SUMMARY : Nat := 0x02001000
abbrev Reg.PC_CFG (i : Nat) : Nat := 0x02010000 + i * 0x1000
abbrev Reg.PC_CTRL (i : Nat) : Nat := 0x02010004 + i * 0x1000
abbrev Reg.PC_STAT (i : Nat) : Nat := 0x02010008 + i * 0x1000
abbrev Reg.PC_SENSE (i : Nat) : Nat := 0x0201000C + i * 0x1000
abbrev Reg.PC_ILIM (i : Nat) : Nat := 0x02010010 + i * 0x1000
abbrev Reg.PC_FT_RAMP (i : Nat) : Nat := 0x02010014 + i * 0x1000
abbrev Reg.PC_FT_RUN (i : Nat) : Nat := 0x02010018 + i * 0x1000
abbrev Reg.PC_VIN_WIN (i : Nat) : Nat := 0x0201001C + i * 0x1000
abbrev Reg.PC_PG_WIN (i : Nat) : Nat := 0x02010020 + i * 0x1000
abbrev Reg.PC_PG_DELAY (i : Nat) : Nat := 0x02010024 + i * 0x1000
abbrev Reg.PC_RETRY (i : Nat) : Nat := 0x02010028 + i * 0x1000
abbrev Reg.PC_DET (i : Nat) : Nat := 0x0201002C + i * 0x1000
abbrev Reg.PC_TH_R12 (i : Nat) : Nat := 0x02010030 + i * 0x1000
abbrev Reg.PC_TH_R3 (i : Nat) : Nat := 0x02010034 + i * 0x1000
abbrev Reg.PC_TH_TAU1 (i : Nat) : Nat := 0x02010038 + i * 0x1000
abbrev Reg.PC_TH_TAU2 (i : Nat) : Nat := 0x0201003C + i * 0x1000
abbrev Reg.PC_TH_TAU3 (i : Nat) : Nat := 0x02010040 + i * 0x1000
abbrev Reg.PC_TH_LIM (i : Nat) : Nat := 0x02010044 + i * 0x1000
abbrev Reg.PC_TEMP_CAL (i : Nat) : Nat := 0x02010048 + i * 0x1000
abbrev Reg.PC_MEAS_V (i : Nat) : Nat := 0x02010050 + i * 0x1000
abbrev Reg.PC_MEAS_I (i : Nat) : Nat := 0x02010054 + i * 0x1000
abbrev Reg.PC_TFET_MAX (i : Nat) : Nat := 0x02010058 + i * 0x1000
abbrev Reg.PC_RAMPS (i : Nat) : Nat := 0x02010060 + i * 0x1000
abbrev Reg.PC_TRIP_FAST (i : Nat) : Nat := 0x02010064 + i * 0x1000
abbrev Reg.PC_TRIP_TIMER (i : Nat) : Nat := 0x02010068 + i * 0x1000
abbrev Reg.PC_TRIP_THERM (i : Nat) : Nat := 0x0201006C + i * 0x1000
abbrev Reg.PC_TRIP_GATE (i : Nat) : Nat := 0x02010070 + i * 0x1000
abbrev Reg.PC_LATCHES (i : Nat) : Nat := 0x02010074 + i * 0x1000
abbrev Reg.PC_PG_RACE (i : Nat) : Nat := 0x02010078 + i * 0x1000
abbrev Reg.PC_INPUT_FLT (i : Nat) : Nat := 0x0201007C + i * 0x1000
abbrev Reg.PC_INSERT (i : Nat) : Nat := 0x02010080 + i * 0x1000
/-! Registers of PMC. -/

abbrev Reg.PMC_CTL : Nat := 0x00101000
abbrev Reg.PMC_CAP_STAT : Nat := 0x00101004
abbrev Reg.PMC_CAP_ACK : Nat := 0x00101008
abbrev Reg.PMC_CAP_LOST : Nat := 0x0010100C
abbrev Reg.PMC_OVF (j : Nat) : Nat := 0x00101020 + j * 0x4
abbrev Reg.H_CFG (j : Nat) : Nat := 0x00102000 + j * 0x40
abbrev Reg.H_FLOW (j : Nat) : Nat := 0x00102004 + j * 0x40
abbrev Reg.H_THRESH (j : Nat) : Nat := 0x00102008 + j * 0x40
abbrev Reg.H_CTL (j : Nat) : Nat := 0x0010200C + j * 0x40
abbrev Reg.H_COUNT (j : Nat) : Nat := 0x00102010 + j * 0x40
abbrev Reg.H_OVER (j : Nat) : Nat := 0x00102014 + j * 0x40
abbrev Reg.H_REPLAY (j : Nat) : Nat := 0x00102018 + j * 0x40
abbrev Reg.H_LOST (j : Nat) : Nat := 0x0010201C + j * 0x40
abbrev Reg.H_MAX (j : Nat) : Nat := 0x00102020 + j * 0x40
abbrev Reg.H_SNAP_TIME_LO (j : Nat) : Nat := 0x00102024 + j * 0x40
abbrev Reg.H_SNAP_TIME_HI (j : Nat) : Nat := 0x00102028 + j * 0x40
abbrev Reg.H_FCOUNT (j : Nat) : Nat := 0x0010202C + j * 0x40
abbrev Reg.H_FOVER (j : Nat) : Nat := 0x00102030 + j * 0x40
abbrev Reg.H_FREPLAY (j : Nat) : Nat := 0x00102034 + j * 0x40
abbrev Reg.H_FLOST (j : Nat) : Nat := 0x00102038 + j * 0x40
abbrev Reg.H_FMAX (j : Nat) : Nat := 0x0010203C + j * 0x40
abbrev Reg.PC_SEL (j : Nat) : Nat := 0x00104000 + j * 0x4
abbrev Reg.BW_WIN (j : Nat) : Nat := 0x00120000 + j * 0x10
abbrev Reg.BW_LAST (j : Nat) : Nat := 0x00120004 + j * 0x10
abbrev Reg.BW_PEAK (j : Nat) : Nat := 0x00120008 + j * 0x10
abbrev Reg.BW_TOTAL (j : Nat) : Nat := 0x0012000C + j * 0x10

/-- Rows of STW, part 0. -/
def rowsStw0 : List RegRow := [
  ⟨0x1, 1, 1, 0x24, 1, 0x4, 0x0, 0, 0x0, 0x0, 0x0, 0xFFFFFFFF⟩,
  ⟨0x2, 1, 1, 0x0, 1, 0x4, 0x0, 1, 0x0, 0x0, 0x0, 0xFF⟩,
  ⟨0x2, 1, 1, 0x4, 1, 0x4, 0x0, 0, 0x0, 0x3FFF, 0x0, 0x0⟩,
  ⟨0x2, 1, 1, 0x8, 1, 0x4, 0x0, 0, 0x0, 0x3FFF, 0x0, 0x0⟩,
  ⟨0x2, 1, 1, 0xC, 1, 0x4, 0x3E8, 0, 0x0, 0x1FFFF, 0x0, 0x0⟩,
  ⟨0x2, 1, 1, 0x10, 1, 0x4, 0x0, 0, 0x0, 0x0, 0x0, 0xFFFFFF03⟩,
  ⟨0x2, 1, 1, 0x14, 1, 0x4, 0x0, 0, 0x0, 0x0, 0x0, 0xFFFFFFFF⟩,
  ⟨0x2, 1, 1, 0x18, 1, 0x4, 0x0, 0, 0x0, 0x0, 0x0, 0x3FFFFFF⟩,
  ⟨0x2, 1, 1, 0x1C, 1, 0x4, 0x1, 0, 0x0, 0x0, 0x0, 0xF⟩,
  ⟨0x3, 1, 1, 0x4, 1, 0x4, 0x0, 0, 0x0, 0x0, 0x0, 0xFFFFFFFF⟩,
  ⟨0x3, 1, 1, 0x8, 1, 0x4, 0x0, 2, 0xFFFFFF07, 0x0, 0x0, 0x0⟩,
  ⟨0x3, 1, 1, 0xC, 1, 0x4, 0x0, 0, 0x0, 0x0, 0x0, 0xFFFFFF0F⟩,
  ⟨0x3, 1, 1, 0x10, 1, 0x4, 0x0, 0, 0x0, 0x0, 0x0, 0xFFFFFFFF⟩,
  ⟨0x3, 1, 1, 0x14, 1, 0x4, 0x0, 0, 0x0, 0x0, 0x0, 0xFFFFFFFF⟩,
  ⟨0x3, 1, 1, 0x18, 1, 0x4, 0x0, 0, 0x0, 0x0, 0x0, 0xFFFFFFFF⟩,
  ⟨0x3, 1, 1, 0x1C, 1, 0x4, 0x0, 0, 0x0, 0x0, 0x0, 0xFFFFFFFF⟩,
  ⟨0x3, 1, 1, 0x20, 1, 0x4, 0x0, 0, 0xFFFFFFFF, 0x0, 0x0, 0x0⟩,
  ⟨0x3, 1, 1, 0x24, 1, 0x4, 0x0, 0, 0xFFFFFFFF, 0x0, 0x0, 0x0⟩,
  ⟨0x3, 1, 1, 0x30, 1, 0x4, 0x186A000, 0, 0x7FFFF07, 0x0, 0x0, 0x0⟩,
  ⟨0x3, 1, 1, 0x34, 1, 0x4, 0x0, 0, 0x0, 0x0, 0x0, 0xFFFFFFFF⟩,
  ⟨0x3, 1, 1, 0x38, 1, 0x4, 0x0, 0, 0x0, 0x0, 0x0, 0xFFFFFFFF⟩,
  ⟨0x3, 1, 1, 0x3C, 1, 0x4, 0x0, 0, 0x0, 0x0, 0x0, 0xFFFFFFFF⟩,
  ⟨0x3, 1, 1, 0x40, 1, 0x4, 0x0, 0, 0x0, 0x0, 0x0, 0xFFFFFFFF⟩,
  ⟨0x4, 1, 1, 0x0, 1, 0x4, 0x1, 0, 0x0, 0x3, 0x0, 0x0⟩]

/-- Rows of STW, part 1. -/
def rowsStw1 : List RegRow := [
  ⟨0x4, 1, 1, 0x4, 1, 0x4, 0x0, 0, 0x0, 0x1FFFF, 0x0, 0x0⟩,
  ⟨0x4, 1, 1, 0x10, 1, 0x4, 0x0, 0, 0x0, 0xFFFFFFFF, 0x0, 0x0⟩,
  ⟨0x4, 1, 1, 0x18, 1, 0x4, 0x0, 0, 0x0, 0x0, 0x0, 0xFFFFFFFF⟩,
  ⟨0x8, 1, 1, 0x0, 256, 0x4, 0x0, 0, 0x0, 0xFFFFFFFF, 0x0, 0x0⟩,
  ⟨0x9, 1, 1, 0x0, 16, 0x4, 0x0, 0, 0x0, 0x0, 0x0, 0xFFFFFFFF⟩,
  ⟨0x1, 1, 1, 0x0, 1, 0x4, 0x0, 0, 0x0, 0x0, 0x0, 0xFFFFFFFF⟩,
  ⟨0x1, 1, 1, 0x4, 1, 0x4, 0x1FFFF, 0, 0x0, 0x0, 0x0, 0x1FFFF⟩,
  ⟨0x1, 1, 1, 0x8, 1, 0x4, 0x0, 0, 0x0, 0x0, 0x0, 0x1FFFF⟩,
  ⟨0x1, 1, 1, 0xC, 1, 0x4, 0x0, 0, 0x0, 0x0, 0x0, 0x1FFFF⟩,
  ⟨0x1, 1, 1, 0x10, 1, 0x4, 0x0, 0, 0x0, 0x0, 0x0, 0x1FFFF⟩,
  ⟨0x1, 1, 1, 0x14, 1, 0x4, 0x0, 0, 0x0, 0x0, 0x0, 0x1FFFF⟩,
  ⟨0x1, 1, 1, 0x18, 1, 0x4, 0x0, 0, 0x0, 0x0, 0x0, 0xFFFF⟩,
  ⟨0x1, 1, 1, 0x20, 1, 0x4, 0x0, 0, 0x0, 0x0, 0x0, 0xFFFFFFFF⟩,
  ⟨0x3, 1, 1, 0x0, 1, 0x4, 0x0, 0, 0x0, 0x0, 0x0, 0xFFFFFFFF⟩,
  ⟨0x3, 1, 1, 0x28, 1, 0x4, 0x0, 0, 0x0, 0x0, 0x0, 0x0⟩,
  ⟨0x4, 1, 1, 0x8, 1, 0x4, 0x0, 0, 0x0, 0x0, 0x0, 0x3FF⟩,
  ⟨0x4, 1, 1, 0xC, 1, 0x4, 0x0, 0, 0x0, 0x0, 0x0, 0xFFFFFFFF⟩,
  ⟨0x4, 1, 1, 0x14, 1, 0x4, 0x0, 0, 0x0, 0x0, 0x0, 0x7FF⟩,
  ⟨0x4, 1, 1, 0x1C, 1, 0x4, 0x0, 0, 0x0, 0x0, 0x0, 0x0⟩]

/-- Every row of STW. -/
def rowsStw : List RegRow := rowsStw0 ++ rowsStw1

/-- Rows of PMC, part 0. -/
def rowsPmc0 : List RegRow := [
  ⟨0x1, 1, 1, 0x0, 1, 0x4, 0x0, 0, 0x7, 0x0, 0x0, 0x0⟩,
  ⟨0x1, 1, 1, 0x4, 1, 0x4, 0x0, 0, 0x0, 0x0, 0x0, 0xFFF⟩,
  ⟨0x1, 1, 1, 0x8, 1, 0x4, 0x0, 0, 0x0, 0xFFF, 0x0, 0x0⟩,
  ⟨0x1, 1, 1, 0xC, 1, 0x4, 0x0, 0, 0x0, 0x0, 0x0, 0xFFFFFFFF⟩,
  ⟨0x1, 1, 1, 0x20, 8, 0x4, 0x0, 0, 0x0, 0x0, 0xFFFFFFFF, 0x0⟩,
  ⟨0x2, 1, 1, 0x0, 32, 0x40, 0x0, 0, 0x1FFF7F, 0x0, 0x0, 0x0⟩,
  ⟨0x2, 1, 1, 0x4, 32, 0x40, 0x1000000, 0, 0x1FFFFFF, 0x0, 0x0, 0x0⟩,
  ⟨0x2, 1, 1, 0x8, 32, 0x40, 0xFFFFFFFF, 0, 0xFFFFFFFF, 0x0, 0x0, 0x0⟩,
  ⟨0x2, 1, 1, 0xC, 32, 0x40, 0x0, 0, 0x0, 0x0, 0x0, 0x0⟩,
  ⟨0x2, 1, 1, 0x10, 32, 0x40, 0x0, 0, 0x0, 0x0, 0x0, 0xFFFFFFFF⟩,
  ⟨0x2, 1, 1, 0x14, 32, 0x40, 0x0, 0, 0x0, 0x0, 0x0, 0xFFFFFFFF⟩,
  ⟨0x2, 1, 1, 0x18, 32, 0x40, 0x0, 0, 0x0, 0x0, 0x0, 0xFFFFFFFF⟩,
  ⟨0x2, 1, 1, 0x1C, 32, 0x40, 0x0, 0, 0x0, 0x0, 0x0, 0xFFFFFFFF⟩,
  ⟨0x2, 1, 1, 0x20, 32, 0x40, 0x0, 0, 0x0, 0x0, 0x0, 0xFFFFFFFF⟩,
  ⟨0x2, 1, 1, 0x24, 32, 0x40, 0x0, 0, 0x0, 0x0, 0x0, 0xFFFFFFFF⟩,
  ⟨0x2, 1, 1, 0x28, 32, 0x40, 0x0, 0, 0x0, 0x0, 0x0, 0xFFFFFFFF⟩,
  ⟨0x2, 1, 1, 0x2C, 32, 0x40, 0x0, 0, 0x0, 0x0, 0x0, 0xFFFFFFFF⟩,
  ⟨0x2, 1, 1, 0x30, 32, 0x40, 0x0, 0, 0x0, 0x0, 0x0, 0xFFFFFFFF⟩,
  ⟨0x2, 1, 1, 0x34, 32, 0x40, 0x0, 0, 0x0, 0x0, 0x0, 0xFFFFFFFF⟩,
  ⟨0x2, 1, 1, 0x38, 32, 0x40, 0x0, 0, 0x0, 0x0, 0x0, 0xFFFFFFFF⟩,
  ⟨0x2, 1, 1, 0x3C, 32, 0x40, 0x0, 0, 0x0, 0x0, 0x0, 0xFFFFFFFF⟩,
  ⟨0x4, 1, 1, 0x0, 256, 0x4, 0x1FFF00, 0, 0x7FFFFF, 0x0, 0x0, 0x0⟩,
  ⟨0x20, 1, 1, 0x0, 18, 0x10, 0x3E8, 0, 0xFFFFFFFF, 0x0, 0x0, 0x0⟩,
  ⟨0x20, 1, 1, 0x4, 18, 0x10, 0x0, 0, 0x0, 0x0, 0x0, 0xFFFFFFFF⟩]

/-- Rows of PMC, part 1. -/
def rowsPmc1 : List RegRow := [
  ⟨0x20, 1, 1, 0x8, 18, 0x10, 0x0, 0, 0x0, 0x0, 0x0, 0xFFFFFFFF⟩,
  ⟨0x20, 1, 1, 0xC, 18, 0x10, 0x0, 0, 0x0, 0x0, 0x0, 0xFFFFFFFF⟩]

/-- Every row of PMC. -/
def rowsPmc : List RegRow := rowsPmc0 ++ rowsPmc1

/-- Rows of LNX, part 0. -/
def rowsLnx0 : List RegRow := [
  ⟨0x1, 1, 1, 0x0, 1, 0x4, 0x0, 0, 0x0, 0x0, 0x0, 0xFFF⟩,
  ⟨0x1, 1, 1, 0x4, 1, 0x4, 0x0, 0, 0x0, 0x0, 0x0, 0xFFFFFFFF⟩,
  ⟨0x1, 1, 1, 0x8, 1, 0x4, 0x0, 0, 0x0, 0x0, 0x0, 0xFF⟩,
  ⟨0x1, 1, 1, 0xC, 1, 0x4, 0x1001, 0, 0x0, 0xFF01, 0x0, 0x0⟩,
  ⟨0x1, 1, 1, 0x10, 1, 0x4, 0x0, 0, 0x0, 0x0, 0x0, 0xFFFFFFFF⟩,
  ⟨0x1, 1, 1, 0x14, 1, 0x4, 0xC0, 0, 0x0, 0x0, 0x0, 0xFF⟩,
  ⟨0x1, 1, 1, 0x20, 17, 0x4, 0x0, 5, 0x0, 0x0, 0x0, 0xFFFFFFF⟩,
  ⟨0x10, 40, 1, 0x0, 1, 0x4, 0x0, 4, 0x3FF, 0x0, 0x0, 0x0⟩,
  ⟨0x10, 40, 1, 0x4, 1, 0x4, 0x204, 0, 0x3FF, 0x0, 0x0, 0x0⟩,
  ⟨0x10, 40, 1, 0x8, 1, 0x4, 0x0, 6, 0x0, 0x0, 0x0, 0xFFFFF⟩,
  ⟨0x10, 40, 1, 0xC, 1, 0x4, 0x0, 0, 0x0, 0x0, 0x0, 0x0⟩,
  ⟨0x10, 40, 1, 0x10, 1, 0x4, 0x400, 0, 0x0, 0xFFFF, 0x0, 0x0⟩,
  ⟨0x10, 40, 1, 0x14, 1, 0x4, 0x0, 0, 0x0, 0x0, 0x0, 0x1FFFF⟩,
  ⟨0x10, 40, 1, 0x18, 1, 0x4, 0x0, 0, 0x0, 0x0, 0x0, 0xFFFF⟩,
  ⟨0x10, 40, 1, 0x1C, 1, 0x4, 0x0, 0, 0x0, 0x0, 0x0, 0xFFFFFFFF⟩,
  ⟨0x10, 40, 1, 0x20, 1, 0x4, 0x0, 0, 0x0, 0x7DF, 0x0, 0x800⟩,
  ⟨0x10, 40, 1, 0x24, 1, 0x4, 0x0, 0, 0x0, 0xFFFFFFFF, 0x0, 0x0⟩,
  ⟨0x10, 40, 1, 0x28, 1, 0x4, 0x0, 0, 0x0, 0x0, 0x0, 0xFFFFFFFF⟩,
  ⟨0x10, 40, 1, 0x2C, 1, 0x4, 0x0, 0, 0x0, 0x0, 0x0, 0xFFFFFFFF⟩,
  ⟨0x10, 40, 1, 0x30, 1, 0x4, 0x0, 0, 0x0, 0x0, 0x0, 0xFFFFFFFF⟩,
  ⟨0x10, 40, 1, 0x34, 1, 0x4, 0x0, 0, 0x0, 0x7, 0x0, 0x0⟩]

/-- Every row of LNX. -/
def rowsLnx : List RegRow := rowsLnx0

/-- Rows of KLL, part 0. -/
def rowsKll0 : List RegRow := [
  ⟨0x1, 1, 1, 0x0, 1, 0x4, 0x0, 9, 0x0, 0x0, 0x0, 0x7F⟩,
  ⟨0x1, 1, 1, 0x4, 1, 0x4, 0x0, 10, 0x1F, 0x0, 0x0, 0x0⟩,
  ⟨0x1, 1, 1, 0x8, 1, 0x4, 0x0, 0, 0x0, 0x0, 0x0, 0xFFFF01⟩,
  ⟨0x1, 1, 1, 0xC, 1, 0x4, 0x0, 0, 0x0, 0x0, 0x0, 0xFFFFFFFF⟩,
  ⟨0x1, 1, 1, 0x10, 1, 0x4, 0xA, 0, 0xFFFF, 0x0, 0x0, 0x0⟩,
  ⟨0x1, 1, 1, 0x14, 1, 0x4, 0x0, 0, 0x0, 0x0, 0x0, 0x1FF⟩,
  ⟨0x1, 1, 1, 0x18, 1, 0x4, 0x0, 0, 0x0, 0x0, 0x0, 0xFFFFFFFF⟩,
  ⟨0x1, 1, 1, 0x1C, 1, 0x4, 0x0, 0, 0x0, 0x0, 0x0, 0xFFFFFFFF⟩,
  ⟨0x10, 9, 1, 0x0, 1, 0x4, 0x0, 11, 0x7F, 0x0, 0x0, 0x0⟩,
  ⟨0x10, 9, 1, 0x4, 1, 0x4, 0x0, 0, 0x0, 0x0, 0x0, 0x0⟩,
  ⟨0x10, 9, 1, 0x8, 1, 0x4, 0x0, 0, 0x0, 0x0, 0x0, 0x3FF⟩,
  ⟨0x10, 9, 1, 0xC, 1, 0x4, 0x0, 0, 0x0, 0x0, 0x0, 0x1FFFFFFF⟩,
  ⟨0x10, 9, 1, 0x10, 1, 0x4, 0x1, 0, 0x3FFF3FFF, 0x0, 0x0, 0x0⟩,
  ⟨0x10, 9, 1, 0x14, 1, 0x4, 0xA4200, 0, 0x3FFF7FF, 0x0, 0x0, 0x0⟩,
  ⟨0x10, 9, 1, 0x18, 1, 0x4, 0xFFF000, 0, 0x0, 0x0, 0x0, 0xFFFFFF⟩,
  ⟨0x10, 9, 1, 0x1C, 1, 0x4, 0x0, 0, 0xFFFF, 0x0, 0x0, 0x0⟩,
  ⟨0x10, 9, 1, 0x20, 1, 0x4, 0x0, 0, 0x0, 0x0, 0x0, 0xFFFFFFFF⟩,
  ⟨0x10, 9, 1, 0x24, 1, 0x4, 0x0, 0, 0x0, 0x0, 0x0, 0xFFFFFFFF⟩,
  ⟨0x10, 9, 1, 0x28, 1, 0x4, 0x0, 0, 0x0, 0x0, 0x0, 0xFFFFFFFF⟩,
  ⟨0x10, 9, 1, 0x2C, 1, 0x4, 0x0, 0, 0x0, 0x0, 0x0, 0xFFFFFFFF⟩,
  ⟨0x10, 9, 1, 0x30, 1, 0x4, 0x0, 0, 0x0, 0x0, 0x0, 0xFFFFFFFF⟩,
  ⟨0x10, 9, 1, 0x34, 1, 0x4, 0x0, 0, 0x0, 0x0, 0x0, 0xFFFFFFFF⟩,
  ⟨0x10, 9, 1, 0x38, 1, 0x4, 0x0, 0, 0x0, 0x0, 0x0, 0xFFFFFFFF⟩,
  ⟨0x10, 9, 1, 0x3C, 1, 0x4, 0x0, 0, 0x0, 0x0, 0x0, 0xFFFFFFFF⟩]

/-- Rows of KLL, part 1. -/
def rowsKll1 : List RegRow := [
  ⟨0x10, 9, 1, 0x40, 8, 0x4, 0x0, 0, 0x0, 0x0, 0x0, 0xFFF0FFF⟩,
  ⟨0x10, 9, 1, 0x60, 12, 0x4, 0x0, 0, 0x0, 0x0, 0x0, 0xFFFFFFFF⟩]

/-- Every row of KLL. -/
def rowsKll : List RegRow := rowsKll0 ++ rowsKll1

/-- Rows of MIR, part 0. -/
def rowsMir0 : List RegRow := [
  ⟨0x1, 1, 1, 0x0, 1, 0x4, 0x3E80002, 0, 0xFFFF0003, 0x0, 0x0, 0x0⟩,
  ⟨0x1, 1, 1, 0x4, 1, 0x4, 0x0, 0, 0x0, 0x0, 0x0, 0x3FFF0F07⟩,
  ⟨0x1, 1, 1, 0x8, 1, 0x4, 0xFF, 0, 0x0, 0x0, 0x0, 0xFFFFFF⟩,
  ⟨0x1, 1, 1, 0x10, 8, 0x4, 0x0, 0, 0x1FF, 0x0, 0x0, 0x0⟩,
  ⟨0x1, 1, 1, 0x30, 1, 0x4, 0x0, 0, 0x0, 0x0, 0x0, 0xFFFFFFFF⟩,
  ⟨0x1, 1, 1, 0x34, 1, 0x4, 0x0, 0, 0x0, 0x0, 0x0, 0xFFFFFFFF⟩,
  ⟨0x1, 1, 1, 0x38, 1, 0x4, 0x0, 0, 0x0, 0x0, 0x0, 0xFFFFFFFF⟩,
  ⟨0x1, 1, 1, 0x3C, 1, 0x4, 0x0, 0, 0x0, 0x0, 0x0, 0x7FFFFFFF⟩,
  ⟨0x1, 1, 1, 0x40, 1, 0x4, 0x0, 0, 0x0, 0x0, 0x0, 0xFFFFFFFF⟩,
  ⟨0x1, 1, 1, 0x44, 1, 0x4, 0x0, 0, 0x0, 0x0, 0x0, 0xFFFF⟩,
  ⟨0x1, 1, 1, 0x48, 1, 0x4, 0x0, 0, 0x0, 0x0, 0x0, 0x3FFFF⟩,
  ⟨0x1, 1, 1, 0x4C, 1, 0x4, 0x0, 0, 0x0, 0x0, 0x0, 0xFFFFFFFF⟩,
  ⟨0x1, 1, 1, 0x50, 1, 0x4, 0x0, 0, 0x0, 0x0, 0x0, 0xFFFFFFFF⟩,
  ⟨0x1, 1, 1, 0x54, 1, 0x4, 0x0, 0, 0x0, 0x0, 0x0, 0x7FFF⟩,
  ⟨0x1, 1, 1, 0x58, 1, 0x4, 0x0, 0, 0x0, 0x0, 0x0, 0xFFFFFFFF⟩,
  ⟨0x1, 1, 1, 0x5C, 1, 0x4, 0x0, 0, 0x0, 0x0, 0x0, 0xFFFFFFFF⟩,
  ⟨0x1, 1, 1, 0x60, 1, 0x4, 0x0, 0, 0x0, 0x0, 0x0, 0xFFFFFFFF⟩,
  ⟨0x1, 1, 1, 0x64, 1, 0x4, 0x0, 0, 0x0, 0x0, 0x0, 0xFFFFFFFF⟩,
  ⟨0x1, 1, 1, 0x68, 1, 0x4, 0x0, 0, 0x0, 0x0, 0x0, 0xFFFFFFFF⟩,
  ⟨0x1, 1, 1, 0x6C, 1, 0x4, 0x0, 0, 0x0, 0x0, 0x0, 0xFFFFFFFF⟩,
  ⟨0x1, 1, 1, 0x70, 1, 0x4, 0x0, 0, 0x0, 0x0, 0x0, 0x7FFFF⟩,
  ⟨0x1, 1, 1, 0x74, 1, 0x4, 0x0, 0, 0x0, 0x0, 0x0, 0xFFFFFFFF⟩,
  ⟨0x1, 1, 1, 0x78, 1, 0x4, 0x0, 0, 0x0, 0x0, 0x0, 0xFFFFFFFF⟩]

/-- Every row of MIR. -/
def rowsMir : List RegRow := rowsMir0

/-- Rows of TSC, part 0. -/
def rowsTsc0 : List RegRow := [
  ⟨0x1, 1, 1, 0x0, 1, 0x4, 0x810000, 0, 0x0, 0x0, 0x0, 0xFFFFFF⟩,
  ⟨0x1, 1, 1, 0x4, 1, 0x4, 0x10000, 0, 0x0, 0x0, 0x0, 0x1FFFF⟩,
  ⟨0x1, 1, 1, 0x8, 1, 0x4, 0x10000, 0, 0x0, 0x0, 0x0, 0x1FFFF⟩,
  ⟨0x1, 1, 1, 0xC, 1, 0x4, 0x0, 0, 0x0, 0x0, 0x0, 0x1FFFF⟩,
  ⟨0x1, 1, 1, 0x10, 1, 0x4, 0x64, 0, 0x3FF, 0x0, 0x0, 0x0⟩,
  ⟨0x1, 1, 1, 0x14, 1, 0x4, 0x32, 0, 0x3FF, 0x0, 0x0, 0x0⟩,
  ⟨0x1, 1, 1, 0x18, 1, 0x4, 0x1, 0, 0x0, 0x1, 0x0, 0x0⟩,
  ⟨0x1, 1, 1, 0x1C, 1, 0x4, 0x0, 0, 0x0, 0x0, 0x0, 0xFFFFFFFF⟩,
  ⟨0x1, 1, 1, 0x20, 1, 0x4, 0x0, 0, 0x0, 0x0, 0x0, 0xFFFF0007⟩,
  ⟨0x1, 1, 1, 0x24, 1, 0x4, 0x0, 0, 0x0, 0x0, 0x0, 0xFF0F⟩,
  ⟨0x1, 1, 1, 0x28, 1, 0x4, 0x0, 0, 0x0, 0x0, 0x0, 0xFFFFFFFF⟩,
  ⟨0x1, 1, 1, 0x2C, 1, 0x4, 0x0, 0, 0x0, 0x0, 0x0, 0xFFFFFFFF⟩,
  ⟨0x1, 1, 1, 0x30, 1, 0x4, 0x0, 0, 0x0, 0x0, 0x0, 0xFFFFFFFF⟩,
  ⟨0x1, 1, 1, 0x40, 11, 0x4, 0x0, 0, 0x0, 0x0, 0x0, 0xFFFFFFFF⟩,
  ⟨0x1, 1, 1, 0x70, 7, 0x4, 0x0, 12, 0x0, 0x0, 0x0, 0x3FFFFFFF⟩,
  ⟨0x1, 1, 1, 0x8C, 1, 0x4, 0x20, 0, 0x0, 0x0, 0x0, 0x1F011F7F⟩,
  ⟨0x1, 1, 1, 0x90, 1, 0x4, 0x0, 0, 0x0, 0x0, 0x0, 0xFFFFFFFF⟩,
  ⟨0x1, 1, 1, 0x94, 1, 0x4, 0x0, 0, 0x0, 0x0, 0x0, 0x1⟩,
  ⟨0x10, 22, 1, 0x0, 1, 0x4, 0x4000, 0, 0x1FFFF, 0x0, 0x0, 0x0⟩,
  ⟨0x10, 22, 1, 0x4, 1, 0x4, 0x1000, 0, 0x1FFFF, 0x0, 0x0, 0x0⟩,
  ⟨0x10, 22, 1, 0x10, 8, 0x4, 0x1000, 0, 0x1FFFF, 0x0, 0x0, 0x0⟩,
  ⟨0x10, 22, 1, 0x30, 8, 0x4, 0x0, 13, 0xFFF, 0x0, 0x0, 0x0⟩,
  ⟨0x10, 22, 1, 0x50, 8, 0x4, 0x0, 0, 0x0, 0x0, 0x0, 0x1FFFF⟩,
  ⟨0x10, 22, 1, 0x70, 1, 0x4, 0x0, 0, 0x0, 0x0, 0x0, 0x1FFFF⟩]

/-- Rows of TSC, part 1. -/
def rowsTsc1 : List RegRow := [
  ⟨0x10, 22, 1, 0x74, 1, 0x4, 0x0, 0, 0x0, 0x0, 0x0, 0x1FFFF⟩,
  ⟨0x10, 22, 1, 0x78, 1, 0x4, 0x0, 0, 0x0, 0x0, 0x0, 0x1FFFF⟩,
  ⟨0x10, 22, 1, 0x80, 1, 0x4, 0x0, 0, 0x0, 0x0, 0x0, 0xFFFFFFFF⟩,
  ⟨0x10, 22, 1, 0x84, 1, 0x4, 0x0, 0, 0x0, 0x0, 0x0, 0xFFFFFFFF⟩,
  ⟨0x10, 22, 1, 0x88, 1, 0x4, 0x0, 0, 0x0, 0x0, 0x0, 0xFFFFFFFF⟩,
  ⟨0x10, 22, 1, 0x8C, 1, 0x4, 0x0, 0, 0x0, 0x0, 0x0, 0xFFFFFFFF⟩,
  ⟨0x10, 22, 1, 0x90, 1, 0x4, 0x0, 0, 0x0, 0x0, 0x0, 0xFFFFFFFF⟩,
  ⟨0x40, 4, 1, 0x0, 1024, 0x4, 0x0, 0, 0x3FFFF, 0x0, 0x0, 0x0⟩]

/-- Every row of TSC. -/
def rowsTsc : List RegRow := rowsTsc0 ++ rowsTsc1

/-- Rows of TSS, part 0. -/
def rowsTss0 : List RegRow := [
  ⟨0x1, 1, 1, 0x0, 1, 0x4, 0x8, 0, 0x1FF, 0x0, 0x0, 0x0⟩,
  ⟨0x1, 1, 1, 0x4, 1, 0x4, 0x2710, 0, 0xFFFF, 0x0, 0x0, 0x0⟩,
  ⟨0x1, 1, 1, 0x8, 1, 0x4, 0x8, 0, 0x7FF, 0x0, 0x0, 0x0⟩,
  ⟨0x1, 1, 1, 0xC, 1, 0x4, 0x1, 0, 0x1, 0x0, 0x0, 0x0⟩,
  ⟨0x1, 1, 1, 0x10, 1, 0x4, 0x0, 0, 0x0, 0x0, 0x0, 0xFFFF1F1F⟩,
  ⟨0x1, 1, 1, 0x14, 1, 0x4, 0x0, 0, 0x0, 0x0, 0x0, 0xFFFF⟩,
  ⟨0x1, 1, 1, 0x18, 1, 0x4, 0x0, 0, 0x0, 0x0, 0x0, 0xFFFFFFFF⟩,
  ⟨0x1, 1, 1, 0x1C, 1, 0x4, 0x7D0001, 0, 0x0, 0xFFFF0001, 0x0, 0x0⟩,
  ⟨0x1, 1, 1, 0x20, 1, 0x4, 0x0, 0, 0x0, 0x0, 0x0, 0xFFFFFFFF⟩,
  ⟨0x1, 1, 1, 0x24, 1, 0x4, 0x0, 0, 0x0, 0x0, 0x0, 0xFFFFFFFF⟩,
  ⟨0x1, 1, 1, 0x28, 1, 0x4, 0x0, 0, 0x0, 0x0, 0x0, 0xFFFFFFFF⟩,
  ⟨0x10, 18, 1, 0x0, 1, 0x4, 0x0, 14, 0x7F, 0x0, 0x0, 0x0⟩,
  ⟨0x10, 18, 1, 0x4, 1, 0x4, 0x0, 0, 0x0, 0x0, 0x0, 0xFFFF⟩,
  ⟨0x10, 18, 1, 0x8, 1, 0x4, 0x0, 0, 0x0, 0x0, 0x0, 0x1FFFFF⟩,
  ⟨0x10, 18, 1, 0xC, 1, 0x4, 0x0, 15, 0x0, 0x0, 0x0, 0xFFFF⟩,
  ⟨0x10, 18, 1, 0x10, 7, 0x4, 0x100, 0, 0xFFFF, 0x0, 0x0, 0x0⟩,
  ⟨0x10, 18, 1, 0x30, 7, 0x4, 0x20, 0, 0xFFFF, 0x0, 0x0, 0x0⟩,
  ⟨0x10, 18, 1, 0x50, 8, 0x4, 0x0, 0, 0xFFFFFFFF, 0x0, 0x0, 0x0⟩,
  ⟨0x10, 18, 1, 0x70, 7, 0x4, 0x0, 0, 0x0, 0x0, 0x0, 0xFFFF⟩,
  ⟨0x10, 18, 1, 0x90, 1, 0x4, 0x0, 0, 0x0, 0x0, 0x0, 0x1FFFFF⟩,
  ⟨0x10, 18, 1, 0x94, 1, 0x4, 0x0, 0, 0x0, 0x9, 0x0, 0x70⟩,
  ⟨0x10, 18, 1, 0x98, 1, 0x4, 0x0, 0, 0x0, 0xFFFFFFFF, 0x0, 0x0⟩,
  ⟨0x10, 18, 1, 0x9C, 1, 0x4, 0x0, 0, 0x0, 0xFFFFFFFF, 0x0, 0x0⟩,
  ⟨0x10, 18, 1, 0xA0, 1, 0x4, 0xFF00, 0, 0x0, 0x0, 0x0, 0xFFFF⟩]

/-- Rows of TSS, part 1. -/
def rowsTss1 : List RegRow := [
  ⟨0x10, 18, 1, 0xA4, 1, 0x4, 0x0, 0, 0x0, 0x0, 0x0, 0xFFFFFFFF⟩,
  ⟨0x10, 18, 1, 0xB0, 2, 0x10, 0x0, 0, 0x0, 0xFFFFFFF8, 0x0, 0x0⟩,
  ⟨0x10, 18, 1, 0xB4, 2, 0x10, 0x0, 0, 0x0, 0xFFFFFFFF, 0x0, 0x0⟩,
  ⟨0x10, 18, 1, 0xB8, 2, 0x10, 0x7D, 0, 0x0, 0x7FFFFFF, 0x0, 0x0⟩,
  ⟨0x10, 18, 1, 0xBC, 2, 0x10, 0x1, 0, 0x0, 0x1FF, 0x0, 0x0⟩,
  ⟨0x10, 18, 1, 0xD0, 1, 0x4, 0x0, 0, 0x0, 0x0, 0x0, 0xFFFFFFFF⟩,
  ⟨0x10, 18, 1, 0xD4, 1, 0x4, 0x0, 0, 0x0, 0x0, 0x0, 0xFFFFFFFF⟩,
  ⟨0x10, 18, 1, 0xD8, 1, 0x4, 0x0, 0, 0x0, 0x0, 0x0, 0xFFFFFFFF⟩,
  ⟨0x40, 18, 1, 0x0, 256, 0x4, 0x1FF, 0, 0x0, 0xFFFFFFFF, 0x0, 0x0⟩,
  ⟨0x40, 18, 1, 0x400, 256, 0x4, 0x1FF, 0, 0x0, 0xFFFFFFFF, 0x0, 0x0⟩]

/-- Every row of TSS. -/
def rowsTss : List RegRow := rowsTss0 ++ rowsTss1

/-- Rows of FCM, part 0. -/
def rowsFcm0 : List RegRow := [
  ⟨0x1, 1, 1, 0x0, 1, 0x4, 0x1FF7, 0, 0x0, 0x0, 0x0, 0x3FFF⟩,
  ⟨0x1, 1, 1, 0x4, 1, 0x4, 0x9, 0, 0x0, 0x0, 0x0, 0x3FFF⟩,
  ⟨0x1, 1, 1, 0x8, 1, 0x4, 0x0, 0, 0x0, 0x0, 0x0, 0x3FFF⟩,
  ⟨0x1, 1, 1, 0xC, 1, 0x4, 0x0, 0, 0x0, 0x0, 0x0, 0x3FFF⟩,
  ⟨0x1, 1, 1, 0x10, 1, 0x4, 0x9, 0, 0x0, 0x0, 0x0, 0x1FFF⟩,
  ⟨0x1, 1, 1, 0x14, 1, 0x4, 0x1200, 0, 0x3FFF1F01, 0x0, 0x0, 0x0⟩,
  ⟨0x1, 1, 1, 0x18, 1, 0x4, 0x0, 0, 0xFFFFF000, 0x0, 0x0, 0x0⟩,
  ⟨0x1, 1, 1, 0x1C, 1, 0x4, 0x0, 0, 0xFFFFFFFF, 0x0, 0x0, 0x0⟩,
  ⟨0x1, 1, 1, 0x20, 1, 0x4, 0x64, 0, 0x3FFF, 0x0, 0x0, 0x0⟩,
  ⟨0x1, 1, 1, 0x24, 1, 0x4, 0x20, 0, 0xFF, 0x0, 0x0, 0x0⟩,
  ⟨0x1, 1, 1, 0x28, 1, 0x4, 0x0, 0, 0xFFFFF000, 0x0, 0x0, 0x0⟩,
  ⟨0x1, 1, 1, 0x2C, 1, 0x4, 0x0, 0, 0xFFFFFFFF, 0x0, 0x0, 0x0⟩,
  ⟨0x1, 1, 1, 0x30, 1, 0x4, 0xFFF, 0, 0xFFFFF000, 0x0, 0x0, 0xFFF⟩,
  ⟨0x1, 1, 1, 0x34, 1, 0x4, 0x0, 0, 0xFFFFFFFF, 0x0, 0x0, 0x0⟩,
  ⟨0x1, 1, 1, 0x40, 1, 0x4, 0x0, 0, 0x0, 0x0, 0x0, 0xFFFFFFFF⟩,
  ⟨0x1, 1, 1, 0x44, 1, 0x4, 0x0, 0, 0x0, 0x0, 0x0, 0xFFFFFFFF⟩,
  ⟨0x1, 1, 1, 0x48, 1, 0x4, 0x0, 0, 0x0, 0x0, 0x0, 0xFFFFFFFF⟩,
  ⟨0x1, 1, 1, 0x4C, 1, 0x4, 0x0, 0, 0x0, 0x0, 0x0, 0xFFFFFFFF⟩,
  ⟨0x1, 1, 1, 0x50, 1, 0x4, 0x0, 0, 0x0, 0x0, 0x0, 0xFFFFF⟩,
  ⟨0x1, 1, 1, 0x54, 1, 0x4, 0x0, 0, 0x0, 0x0, 0x0, 0xFFFFFFFF⟩,
  ⟨0x1, 1, 1, 0x58, 1, 0x4, 0x0, 0, 0x0, 0x0, 0x0, 0xFFFFFFFF⟩,
  ⟨0x1, 1, 1, 0x5C, 1, 0x4, 0x0, 0, 0x0, 0x0, 0x0, 0xFFFFFFFF⟩,
  ⟨0x1, 1, 1, 0x60, 1, 0x4, 0x0, 0, 0x0, 0x0, 0x0, 0xFFFFFFFF⟩,
  ⟨0x1, 1, 1, 0x64, 1, 0x4, 0x0, 0, 0x0, 0x0, 0x0, 0xFFFF000F⟩]

/-- Rows of FCM, part 1. -/
def rowsFcm1 : List RegRow := [
  ⟨0x1, 1, 1, 0x68, 1, 0x4, 0x0, 0, 0x0, 0x0, 0x0, 0xFFFFFFFF⟩,
  ⟨0x2, 1, 1, 0x0, 1, 0x4, 0x0, 0, 0x0, 0x3FFFFFFF, 0x0, 0x0⟩,
  ⟨0x2, 1, 1, 0x4, 1, 0x4, 0x0, 0, 0x0, 0x0FFF001F, 0x0, 0x0⟩,
  ⟨0x2, 1, 1, 0x8, 1, 0x4, 0x0, 0, 0x0, 0x003FFFFF, 0x0, 0x0⟩,
  ⟨0x2, 1, 1, 0xC, 1, 0x4, 0x0, 0, 0x0, 0x0000FFFF, 0x0, 0x0⟩,
  ⟨0x2, 1, 1, 0x10, 2, 0x4, 0x0, 0, 0x0, 0x000FFFFF, 0x0, 0x0⟩,
  ⟨0x2, 1, 1, 0x18, 1, 0x4, 0x0, 0, 0x0, 0xFFFFFFFF, 0x0, 0x0⟩,
  ⟨0x3, 1, 1, 0x0, 64, 0x4, 0x0, 0, 0x0, 0x0, 0x0, 0xFFFFFFFF⟩,
  ⟨0x10, 22, 1, 0x0, 1, 0x4, 0x0, 0, 0x0, 0x0, 0x0, 0x7F⟩,
  ⟨0x10, 22, 1, 0x4, 1, 0x4, 0x0, 0, 0x0, 0x0, 0x0, 0xFFF⟩,
  ⟨0x10, 22, 1, 0x8, 1, 0x4, 0x0, 0, 0x0, 0x0, 0x0, 0xFFF⟩,
  ⟨0x10, 22, 1, 0xC, 1, 0x4, 0x0, 0, 0x0, 0x0, 0x0, 0xFFFFFFFF⟩,
  ⟨0x10, 22, 1, 0x10, 1, 0x4, 0x0, 0, 0x0, 0x0, 0x0, 0x3FFF⟩]

/-- Every row of FCM. -/
def rowsFcm : List RegRow := rowsFcm0 ++ rowsFcm1

/-- Rows of DSE, part 0. -/
def rowsDse0 : List RegRow := [
  ⟨0x10, 2, 1, 0x0, 1, 0x4, 0x20, 0, 0x3F, 0x0, 0x0, 0x0⟩,
  ⟨0x20, 2, 1, 0x0, 1, 0x4, 0x4A2, 0, 0x7F3, 0x0, 0x0, 0x0⟩,
  ⟨0x1, 1, 1, 0x0, 1, 0x4, 0x0, 0, 0x1, 0x0, 0x0, 0x0⟩,
  ⟨0x1, 1, 1, 0x4, 1, 0x4, 0x0, 0, 0x7, 0x0, 0x0, 0x0⟩,
  ⟨0x1, 1, 1, 0x8, 1, 0x4, 0x0, 0, 0x1FFF1FFF, 0x0, 0x0, 0x0⟩,
  ⟨0x1, 1, 1, 0xC, 1, 0x4, 0x10001, 0, 0x7FF07FF, 0x0, 0x0, 0x0⟩,
  ⟨0x1, 1, 1, 0x10, 1, 0x4, 0x0, 0, 0x3FFFFFFF, 0x0, 0x0, 0x0⟩,
  ⟨0x1, 1, 1, 0x14, 1, 0x4, 0x0, 0, 0x0, 0x0, 0x0, 0xFFFFFFFF⟩,
  ⟨0x10, 2, 1, 0x4, 1, 0x4, 0x24414, 0, 0xFFFFF, 0x0, 0x0, 0x0⟩,
  ⟨0x10, 2, 1, 0x8, 1, 0x4, 0x8980780, 0, 0x1FFF1FFF, 0x0, 0x0, 0x0⟩,
  ⟨0x10, 2, 1, 0xC, 1, 0x4, 0x2D0438, 0, 0x1FFF1FFF, 0x0, 0x0, 0x0⟩,
  ⟨0x10, 2, 1, 0x10, 1, 0x4, 0x2D, 0, 0x1FFF, 0x0, 0x0, 0x0⟩,
  ⟨0x10, 2, 1, 0x14, 1, 0x4, 0x2C00C0, 0, 0x8FFF1FFF, 0x0, 0x0, 0x0⟩,
  ⟨0x10, 2, 1, 0x18, 1, 0x4, 0x50029, 0, 0x8FFF1FFF, 0x0, 0x0, 0x0⟩,
  ⟨0x10, 2, 1, 0x1C, 1, 0x4, 0x4108, 0, 0x1FFFFFFF, 0x0, 0x0, 0x0⟩,
  ⟨0x10, 2, 1, 0x20, 1, 0x4, 0x0, 0, 0x1FFF1FFF, 0x0, 0x0, 0x0⟩,
  ⟨0x10, 2, 1, 0x24, 1, 0x4, 0x0, 0, 0x0, 0x0, 0x0, 0x3FFFFFF⟩,
  ⟨0x10, 2, 1, 0x28, 1, 0x4, 0x0, 0, 0x0, 0x0, 0x0, 0xFFFF⟩,
  ⟨0x10, 2, 1, 0x2C, 1, 0x4, 0x0, 0, 0x0, 0x0, 0x0, 0xFFFFFFFF⟩,
  ⟨0x10, 2, 1, 0x30, 1, 0x4, 0x0, 0, 0x0, 0x0, 0x0, 0xFFFFFFFF⟩,
  ⟨0x10, 2, 1, 0x34, 1, 0x4, 0x0, 0, 0x0, 0x0, 0x0, 0xFFFFF⟩,
  ⟨0x10, 2, 1, 0x40, 1, 0x4, 0x0, 0, 0x0, 0x0, 0x0, 0xFFFFFFFF⟩,
  ⟨0x10, 2, 1, 0x44, 1, 0x4, 0x0, 0, 0x0, 0x0, 0x0, 0xFFFFFFFF⟩,
  ⟨0x10, 2, 1, 0x48, 1, 0x4, 0x0, 0, 0x0, 0x0, 0x0, 0xFFFFFFFF⟩]

/-- Rows of DSE, part 1. -/
def rowsDse1 : List RegRow := [
  ⟨0x10, 2, 1, 0x4C, 1, 0x4, 0x0, 0, 0x0, 0x0, 0x0, 0xFFFFFFFF⟩,
  ⟨0x10, 2, 1, 0x50, 1, 0x4, 0x0, 0, 0x0, 0x0, 0x0, 0xFFFFFFFF⟩,
  ⟨0x10, 2, 1, 0x54, 1, 0x4, 0x0, 0, 0x0, 0x0, 0x0, 0xFFFFFFFF⟩,
  ⟨0x10, 2, 1, 0x58, 1, 0x4, 0x0, 0, 0x0, 0x0, 0x0, 0xFFFFFFFF⟩,
  ⟨0x10, 2, 1, 0x5C, 1, 0x4, 0x0, 0, 0x0, 0x0, 0x0, 0xFFFFFFFF⟩,
  ⟨0x10, 2, 1, 0x60, 1, 0x4, 0x0, 0, 0x0, 0x0, 0x0, 0xFFFF⟩,
  ⟨0x20, 2, 1, 0x4, 1, 0x4, 0x0, 0, 0xFFFFFF, 0x0, 0x0, 0x0⟩,
  ⟨0x20, 2, 1, 0x8, 1, 0x4, 0x0, 0, 0x0, 0x0, 0x0, 0x3FF⟩,
  ⟨0x20, 2, 1, 0xC, 1, 0x4, 0x0, 0, 0x0, 0x0, 0x0, 0x1FFF1FFF⟩,
  ⟨0x20, 2, 1, 0x10, 1, 0x4, 0x0, 0, 0x0, 0x0, 0x0, 0x1FFF1FFF⟩,
  ⟨0x20, 2, 1, 0x14, 1, 0x4, 0xFF, 0, 0x0, 0x0, 0x0, 0xFF⟩,
  ⟨0x20, 2, 1, 0x18, 1, 0x4, 0x0, 0, 0x0, 0x0, 0x0, 0xFFFFF⟩,
  ⟨0x20, 2, 1, 0x1C, 1, 0x4, 0x0, 0, 0x0, 0x0, 0x0, 0xFFFFFFFF⟩,
  ⟨0x20, 2, 1, 0x20, 1, 0x4, 0x0, 0, 0x0, 0x0, 0x0, 0xFFFFFFFF⟩,
  ⟨0x20, 2, 1, 0x24, 1, 0x4, 0x0, 0, 0x0, 0x0, 0x0, 0xFFFFFFFF⟩,
  ⟨0x30, 2, 1, 0x0, 128, 0x4, 0x0, 0, 0x0, 0xFF, 0x0, 0x0⟩]

/-- Every row of DSE. -/
def rowsDse : List RegRow := rowsDse0 ++ rowsDse1

/-- Rows of VIN, part 0. -/
def rowsVin0 : List RegRow := [
  ⟨0x10, 4, 1, 0x0, 1, 0x4, 0xA3C0C, 0, 0xFFFFFF, 0x0, 0x0, 0x0⟩,
  ⟨0x10, 4, 1, 0x4, 1, 0x4, 0x0, 0, 0xFFFFFF, 0x0, 0x0, 0x0⟩,
  ⟨0x10, 4, 1, 0x8, 1, 0x4, 0x0, 0, 0xFFFFFF, 0x0, 0x0, 0x0⟩,
  ⟨0x10, 4, 1, 0xC, 1, 0x4, 0x10000000, 0, 0x1FFF1FFF, 0x0, 0x0, 0x0⟩,
  ⟨0x10, 4, 1, 0x10, 1, 0x4, 0x0, 0, 0xFFFF, 0x0, 0x0, 0x0⟩,
  ⟨0x10, 4, 1, 0x14, 1, 0x4, 0x2, 0, 0x0, 0x0, 0x0, 0xFF0F⟩,
  ⟨0x10, 4, 1, 0x18, 1, 0x4, 0x0, 0, 0x0, 0x0, 0x0, 0xFFFFFFFF⟩,
  ⟨0x10, 4, 1, 0x1C, 1, 0x4, 0x0, 0, 0x0, 0x0, 0x0, 0xFFFFFFFF⟩,
  ⟨0x10, 4, 1, 0x20, 1, 0x4, 0x0, 0, 0x0, 0x0, 0x0, 0xFFFFFFFF⟩,
  ⟨0x10, 4, 1, 0x24, 1, 0x4, 0x80000000, 0, 0x0, 0x0, 0x0, 0xFFFFFFFF⟩,
  ⟨0x10, 4, 1, 0x30, 1, 0x4, 0x0, 0, 0x0, 0x4, 0x0, 0x8⟩,
  ⟨0x10, 4, 1, 0x34, 1, 0x4, 0x0, 0, 0x0, 0xFFFFFFFF, 0x0, 0x0⟩,
  ⟨0x10, 4, 1, 0x38, 1, 0x4, 0x0, 0, 0x0, 0xFFFFFFFF, 0x0, 0x0⟩,
  ⟨0x10, 4, 1, 0x3C, 1, 0x4, 0x0, 0, 0x0, 0x3FFFFFFF, 0x0, 0x0⟩,
  ⟨0x10, 4, 1, 0x40, 1, 0x4, 0x3E8, 0, 0x0, 0x3FFFFFFF, 0x0, 0x0⟩,
  ⟨0x10, 4, 1, 0x44, 1, 0x4, 0x0, 0, 0x0, 0xFFFFFFFF, 0x0, 0x0⟩,
  ⟨0x10, 4, 1, 0x48, 1, 0x4, 0x0, 0, 0x0, 0x0, 0x0, 0xFFFFFFFF⟩,
  ⟨0x10, 4, 1, 0x50, 1, 0x4, 0x0, 0, 0x0, 0x0, 0x0, 0xFFFFFFFF⟩,
  ⟨0x10, 4, 1, 0x54, 1, 0x4, 0x0, 0, 0x0, 0x0, 0x0, 0xFFFFFFFF⟩,
  ⟨0x10, 4, 1, 0x58, 1, 0x4, 0x0, 0, 0x0, 0x0, 0x0, 0xFFFFFFFF⟩,
  ⟨0x10, 4, 1, 0x5C, 1, 0x4, 0x0, 0, 0x0, 0x0, 0x0, 0xFFFFFFFF⟩,
  ⟨0x10, 4, 1, 0x60, 1, 0x4, 0x0, 0, 0x0, 0x0, 0x0, 0xFFFFFFFF⟩,
  ⟨0x10, 4, 1, 0x64, 1, 0x4, 0x0, 0, 0x0, 0x0, 0x0, 0xFFFFFFFF⟩,
  ⟨0x10, 4, 1, 0x68, 1, 0x4, 0x0, 0, 0x0, 0x0, 0x0, 0xFFFFFFFF⟩]

/-- Rows of VIN, part 1. -/
def rowsVin1 : List RegRow := [
  ⟨0x10, 4, 1, 0x6C, 1, 0x4, 0x0, 0, 0x0, 0x0, 0x0, 0xFFFFFFFF⟩,
  ⟨0x10, 4, 1, 0x70, 1, 0x4, 0x0, 0, 0x0, 0x0, 0x0, 0xFFFFFFFF⟩,
  ⟨0x10, 4, 1, 0x74, 1, 0x4, 0x0, 0, 0x0, 0x0, 0x0, 0xFFFFFFFF⟩,
  ⟨0x10, 4, 1, 0x78, 1, 0x4, 0x0, 0, 0x0, 0x0, 0x0, 0xFFFFFFFF⟩]

/-- Every row of VIN. -/
def rowsVin : List RegRow := rowsVin0 ++ rowsVin1

/-- Rows of ETH, part 0. -/
def rowsEth0 : List RegRow := [
  ⟨0x10, 4, 1, 0x0, 1, 0x4, 0x0, 0, 0x3FF, 0x0, 0x0, 0x0⟩,
  ⟨0x1, 1, 1, 0x0, 1, 0x4, 0x0, 0, 0x0, 0x0, 0x0, 0x1FFF⟩,
  ⟨0x10, 4, 1, 0x4, 1, 0x4, 0x0, 0, 0x0, 0x0, 0x0, 0x1FF⟩,
  ⟨0x10, 4, 1, 0x8, 1, 0x4, 0x5F2, 0, 0x3FFF, 0x0, 0x0, 0x0⟩,
  ⟨0x10, 4, 1, 0xC, 1, 0x4, 0x1, 0, 0x7FFF, 0x0, 0x0, 0x0⟩,
  ⟨0x10, 4, 1, 0x10, 1, 0x4, 0x0, 0, 0xFFFFFF, 0x0, 0x0, 0x0⟩,
  ⟨0x10, 4, 1, 0x14, 1, 0x4, 0x0, 0, 0xFFFFFFFF, 0x0, 0x0, 0x0⟩,
  ⟨0x10, 4, 1, 0x18, 1, 0x4, 0x0, 0, 0x0, 0x0, 0x0, 0xFFFF⟩,
  ⟨0x10, 4, 1, 0x1C, 1, 0x4, 0x0, 0, 0x0, 0x0, 0x0, 0x1F⟩,
  ⟨0x10, 4, 1, 0x40, 1, 0x4, 0x0, 0, 0x0, 0x0, 0x0, 0xFFFFFFFF⟩,
  ⟨0x10, 4, 1, 0x44, 1, 0x4, 0x0, 0, 0x0, 0x0, 0x0, 0xFFFFFFFF⟩,
  ⟨0x10, 4, 1, 0x48, 1, 0x4, 0x0, 0, 0x0, 0x0, 0x0, 0xFFFFFFFF⟩,
  ⟨0x10, 4, 1, 0x4C, 1, 0x4, 0x0, 0, 0x0, 0x0, 0x0, 0xFFFFFFFF⟩,
  ⟨0x10, 4, 1, 0x50, 1, 0x4, 0x0, 0, 0x0, 0x0, 0x0, 0xFFFFFFFF⟩,
  ⟨0x10, 4, 1, 0x54, 1, 0x4, 0x0, 0, 0x0, 0x0, 0x0, 0xFFFFFFFF⟩,
  ⟨0x10, 4, 1, 0x58, 1, 0x4, 0x0, 0, 0x0, 0x0, 0x0, 0xFFFFFFFF⟩,
  ⟨0x10, 4, 1, 0x5C, 1, 0x4, 0x0, 0, 0x0, 0x0, 0x0, 0xFFFFFFFF⟩,
  ⟨0x10, 4, 1, 0x60, 1, 0x4, 0x0, 0, 0x0, 0x0, 0x0, 0xFFFFFFFF⟩,
  ⟨0x10, 4, 1, 0x64, 1, 0x4, 0x0, 0, 0x0, 0x0, 0x0, 0xFFFFFFFF⟩,
  ⟨0x20, 4, 1, 0x0, 64, 0x10, 0x0, 0, 0x0, 0x0, 0x0, 0xFFFFFFFF⟩,
  ⟨0x20, 4, 1, 0x4, 64, 0x10, 0x0, 0, 0x0, 0x0, 0x0, 0xFFFFFFFF⟩,
  ⟨0x20, 4, 1, 0x8, 64, 0x10, 0x0, 0, 0x0, 0x0, 0x0, 0xFFFFFFFF⟩,
  ⟨0x20, 4, 1, 0xC, 64, 0x10, 0x0, 0, 0x0, 0x0, 0x0, 0x1FFFF⟩,
  ⟨0x40, 16, 1, 0x0, 256, 0x10, 0x0, 0, 0x0, 0xFFFFFFFF, 0x0, 0x0⟩]

/-- Rows of ETH, part 1. -/
def rowsEth1 : List RegRow := [
  ⟨0x40, 16, 1, 0x4, 256, 0x10, 0x0, 0, 0x0, 0xFFFFFFF, 0x0, 0x0⟩,
  ⟨0x40, 16, 1, 0x8, 256, 0x10, 0x0, 0, 0x0, 0xFFFFFF, 0x0, 0x0⟩,
  ⟨0x40, 16, 1, 0xC, 256, 0x10, 0x7FF8, 0, 0x0, 0x7FFF, 0x0, 0x0⟩]

/-- Every row of ETH. -/
def rowsEth : List RegRow := rowsEth0 ++ rowsEth1

/-- Rows of PXB, part 0. -/
def rowsPxb0 : List RegRow := [
  ⟨0x1, 1, 1, 0x4, 1, 0x4, 0x0, 0, 0x0, 0x0, 0x0, 0x1FF⟩,
  ⟨0x1, 1, 1, 0x0, 1, 0x4, 0x180054, 0, 0x3F07FF, 0x0, 0x0, 0x0⟩,
  ⟨0x1, 1, 1, 0x8, 1, 0x4, 0x2710, 0, 0xFFFF, 0x0, 0x0, 0x0⟩,
  ⟨0x1, 1, 1, 0xC, 1, 0x4, 0x3E80, 0, 0xFFFF, 0x0, 0x0, 0x0⟩,
  ⟨0x1, 1, 1, 0x10, 1, 0x4, 0x0, 0, 0xFFFFF000, 0x0, 0x0, 0x0⟩,
  ⟨0x1, 1, 1, 0x14, 1, 0x4, 0x0, 0, 0xFFFFFFFF, 0x0, 0x0, 0x0⟩,
  ⟨0x1, 1, 1, 0x18, 1, 0x4, 0xFFF, 0, 0xFFFFF000, 0x0, 0x0, 0xFFF⟩,
  ⟨0x1, 1, 1, 0x1C, 1, 0x4, 0x0, 0, 0xFFFFFFFF, 0x0, 0x0, 0x0⟩,
  ⟨0x1, 1, 1, 0x20, 1, 0x4, 0x100, 0, 0x0, 0x0, 0x0, 0x1FF01FF⟩,
  ⟨0x1, 1, 1, 0x24, 1, 0x4, 0x0, 0, 0x0, 0x0, 0x0, 0xFF⟩,
  ⟨0x1, 1, 1, 0x28, 1, 0x4, 0x0, 0, 0x0, 0x0, 0x0, 0xFFFF000F⟩,
  ⟨0x1, 1, 1, 0x2C, 1, 0x4, 0x0, 0, 0x0, 0x0, 0x0, 0x1FF00FF⟩,
  ⟨0x1, 1, 1, 0x30, 1, 0x4, 0x0, 0, 0x0, 0x0, 0x0, 0x0⟩,
  ⟨0x1, 1, 1, 0x34, 1, 0x4, 0x0, 0, 0xFFFFF000, 0x0, 0x0, 0x0⟩,
  ⟨0x1, 1, 1, 0x38, 1, 0x4, 0x0, 0, 0xFFFFFFFF, 0x0, 0x0, 0x0⟩,
  ⟨0x1, 1, 1, 0x3C, 1, 0x4, 0x0, 0, 0xFFFF, 0x0, 0x0, 0x0⟩,
  ⟨0x1, 1, 1, 0x40, 1, 0x4, 0x0, 0, 0x0, 0x0, 0x0, 0x0⟩,
  ⟨0x1, 1, 1, 0x44, 1, 0x4, 0x0, 0, 0x0, 0x0, 0x0, 0xFFFFFFFF⟩,
  ⟨0x1, 1, 1, 0x48, 1, 0x4, 0x0, 0, 0x0, 0x0, 0x0, 0xFFFFFFFF⟩,
  ⟨0x1, 1, 1, 0x4C, 1, 0x4, 0x0, 0, 0x0, 0x0, 0x0, 0xFFFFFFFF⟩,
  ⟨0x1, 1, 1, 0x50, 1, 0x4, 0x0, 0, 0x0, 0x0, 0x0, 0xFFFFFFFF⟩,
  ⟨0x1, 1, 1, 0x54, 1, 0x4, 0x0, 0, 0x0, 0x0, 0x0, 0xFFFFFFFF⟩,
  ⟨0x1, 1, 1, 0x58, 1, 0x4, 0x0, 0, 0x0, 0x0, 0x0, 0xFFFFFFFF⟩,
  ⟨0x1, 1, 1, 0x5C, 1, 0x4, 0x0, 0, 0x0, 0x0, 0x0, 0xFFFFFFFF⟩]

/-- Rows of PXB, part 1. -/
def rowsPxb1 : List RegRow := [
  ⟨0x1, 1, 1, 0x60, 1, 0x4, 0x0, 0, 0x0, 0x0, 0x0, 0xFFFFFFFF⟩,
  ⟨0x1, 1, 1, 0x64, 1, 0x4, 0x0, 0, 0x0, 0x0, 0x0, 0xFFFFFFFF⟩,
  ⟨0x1, 1, 1, 0x68, 1, 0x4, 0x0, 0, 0x0, 0x0, 0x0, 0xFFFFFFFF⟩,
  ⟨0x10, 8, 1, 0x0, 1, 0x4, 0xC00, 0, 0x3FFF3F1F, 0x0, 0x0, 0x0⟩,
  ⟨0x10, 8, 1, 0x4, 1, 0x4, 0x0, 0, 0xFFFFF000, 0x0, 0x0, 0x0⟩,
  ⟨0x10, 8, 1, 0x8, 1, 0x4, 0x0, 0, 0xFFFFFFFF, 0x0, 0x0, 0x0⟩,
  ⟨0x10, 8, 1, 0xC, 1, 0x4, 0x0, 0, 0xFFFFF000, 0x0, 0x0, 0x0⟩,
  ⟨0x10, 8, 1, 0x10, 1, 0x4, 0x0, 0, 0xFFFFFFFF, 0x0, 0x0, 0x0⟩,
  ⟨0x10, 8, 1, 0x14, 1, 0x4, 0x0, 0, 0xFFFFFF, 0x0, 0x0, 0x0⟩,
  ⟨0x10, 8, 1, 0x18, 1, 0x4, 0x0, 0, 0xFFFFFF, 0x0, 0x0, 0x0⟩,
  ⟨0x10, 8, 1, 0x1C, 1, 0x4, 0x0, 0, 0xFFFFFF, 0x0, 0x0, 0x0⟩,
  ⟨0x10, 8, 1, 0x20, 1, 0x4, 0x0, 0, 0xFFFFFF, 0x0, 0x0, 0x0⟩,
  ⟨0x10, 8, 1, 0x24, 1, 0x4, 0x140002, 0, 0x3FF0007, 0x0, 0x0, 0x0⟩,
  ⟨0x10, 8, 1, 0x28, 1, 0x4, 0x0, 0, 0x0, 0x0, 0x0, 0x5⟩,
  ⟨0x10, 8, 1, 0x2C, 1, 0x4, 0x0, 0, 0x0, 0x0, 0x0, 0xFFFFFFFF⟩,
  ⟨0x10, 8, 1, 0x30, 1, 0x4, 0x0, 0, 0x0, 0x0, 0x0, 0x13F⟩,
  ⟨0x10, 8, 1, 0x34, 1, 0x4, 0x0, 0, 0x0, 0x0, 0x0, 0xFFFFFFFF⟩,
  ⟨0x10, 8, 1, 0x38, 1, 0x4, 0x0, 0, 0x0, 0x0, 0x0, 0xFFFFFFFF⟩,
  ⟨0x10, 8, 1, 0x3C, 1, 0x4, 0x0, 0, 0x0, 0x0, 0x0, 0xFFFFFFFF⟩,
  ⟨0x20, 1, 1, 0x0, 128, 0x4, 0x0, 0, 0x0, 0x0, 0x0, 0xFFFFFFFF⟩,
  ⟨0x30, 1, 1, 0x0, 1024, 0x4, 0x0, 0, 0x0, 0x0, 0x0, 0xFFFFFFFF⟩]

/-- Every row of PXB. -/
def rowsPxb : List RegRow := rowsPxb0 ++ rowsPxb1

/-- Rows of USB, part 0. -/
def rowsUsb0 : List RegRow := [
  ⟨0x1, 1, 1, 0x0, 1, 0x4, 0x40208, 0, 0xFF0F3F, 0x0, 0x0, 0x0⟩,
  ⟨0x1, 1, 1, 0x4, 1, 0x4, 0x0, 0, 0x0, 0x0, 0x0, 0x7FFF⟩,
  ⟨0x1, 1, 1, 0x8, 1, 0x4, 0x400, 0, 0x0, 0x0, 0x0, 0x7FF⟩,
  ⟨0x1, 1, 1, 0xC, 1, 0x4, 0x0, 0, 0x0, 0x0, 0x0, 0x7F⟩,
  ⟨0x1, 1, 1, 0x10, 1, 0x4, 0x0, 0, 0x0, 0x0, 0x0, 0x3F001F⟩,
  ⟨0x1, 1, 1, 0x14, 1, 0x4, 0x0, 0, 0x0, 0x0, 0x0, 0x0⟩,
  ⟨0x1, 1, 1, 0x20, 1, 0x4, 0x0, 0, 0x0, 0x0, 0x0, 0xFFFFFFFF⟩,
  ⟨0x1, 1, 1, 0x24, 1, 0x4, 0x0, 0, 0x0, 0x0, 0x0, 0xFFFFFFFF⟩,
  ⟨0x1, 1, 1, 0x28, 1, 0x4, 0x0, 0, 0x0, 0x0, 0x0, 0xFFFFFFFF⟩,
  ⟨0x1, 1, 1, 0x2C, 1, 0x4, 0x0, 0, 0x0, 0x0, 0x0, 0xFFFFFFFF⟩,
  ⟨0x1, 1, 1, 0x30, 1, 0x4, 0x0, 0, 0x0, 0x0, 0x0, 0xFFFFFFFF⟩,
  ⟨0x1, 1, 1, 0x34, 1, 0x4, 0x0, 0, 0x0, 0x0, 0x0, 0xFFFFFFFF⟩,
  ⟨0x1, 1, 1, 0x38, 1, 0x4, 0x0, 0, 0x0, 0x0, 0x0, 0xFFFFFFFF⟩,
  ⟨0x10, 8, 1, 0x0, 1, 0x4, 0x200000, 0, 0x1FFFFFD, 0x0, 0x0, 0x0⟩,
  ⟨0x10, 8, 1, 0x4, 1, 0x4, 0x0, 0, 0xFFFFFF, 0x0, 0x0, 0x0⟩,
  ⟨0x10, 8, 1, 0x8, 1, 0x4, 0x0, 0, 0xFFFFFF, 0x0, 0x0, 0x0⟩,
  ⟨0x10, 8, 1, 0xC, 1, 0x4, 0xA0064, 0, 0x3FF03FF, 0x0, 0x0, 0x0⟩,
  ⟨0x10, 8, 1, 0x10, 1, 0x4, 0x0, 0, 0x0, 0x0, 0x0, 0xFFFFF03⟩,
  ⟨0x10, 8, 1, 0x14, 1, 0x4, 0x20, 0, 0x0, 0x0, 0x0, 0x1FF01FF⟩,
  ⟨0x10, 8, 1, 0x18, 1, 0x4, 0x0, 0, 0x0, 0x0, 0x0, 0x1FF⟩,
  ⟨0x10, 8, 1, 0x20, 1, 0x4, 0x0, 0, 0x0, 0x0, 0x0, 0xFFFFFFFF⟩,
  ⟨0x10, 8, 1, 0x24, 1, 0x4, 0x0, 0, 0x0, 0x0, 0x0, 0xFFFFFFFF⟩,
  ⟨0x10, 8, 1, 0x28, 1, 0x4, 0x0, 0, 0x0, 0x0, 0x0, 0xFFFFFFFF⟩,
  ⟨0x10, 8, 1, 0x2C, 1, 0x4, 0x0, 0, 0x0, 0x0, 0x0, 0xFFFFFFFF⟩]

/-- Rows of USB, part 1. -/
def rowsUsb1 : List RegRow := [
  ⟨0x20, 16, 1, 0x0, 1, 0x4, 0x0, 0, 0x37, 0x0, 0x0, 0x0⟩,
  ⟨0x20, 16, 1, 0x4, 1, 0x4, 0x0, 0, 0x0, 0x0, 0x0, 0xFFFFFFFF⟩,
  ⟨0x20, 16, 1, 0x8, 1, 0x4, 0x0, 0, 0x0, 0x0, 0x0, 0xFFFFFFFF⟩,
  ⟨0x20, 16, 1, 0xC, 1, 0x4, 0x0, 0, 0x0, 0x0, 0x0, 0xFFFFFFFF⟩,
  ⟨0x20, 16, 1, 0x10, 1, 0x4, 0x0, 0, 0x0, 0x0, 0x0, 0xFFFFFFFF⟩,
  ⟨0x30, 1, 1, 0x0, 128, 0x4, 0x0, 0, 0x0, 0x0, 0x0, 0xFFFFFFFF⟩,
  ⟨0x40, 1, 1, 0x0, 256, 0x4, 0x0, 0, 0x0, 0x0, 0x0, 0xFFFFFFFF⟩]

/-- Every row of USB. -/
def rowsUsb : List RegRow := rowsUsb0 ++ rowsUsb1

/-- Rows of PPC, part 0. -/
def rowsPpc0 : List RegRow := [
  ⟨0x1, 1, 1, 0x0, 1, 0x4, 0x0, 0, 0x0, 0x0, 0x0, 0x3FFFFFFF⟩,
  ⟨0x10, 6, 1, 0x0, 1, 0x4, 0xC4, 0, 0x3FF, 0x0, 0x0, 0x0⟩,
  ⟨0x10, 6, 1, 0x4, 1, 0x4, 0x0, 0, 0x0, 0x0, 0x0, 0x0⟩,
  ⟨0x10, 6, 1, 0x8, 1, 0x4, 0x300, 0, 0x0, 0x0, 0x0, 0xFFFFF⟩,
  ⟨0x10, 6, 1, 0xC, 1, 0x4, 0x64, 0, 0x3FF, 0x0, 0x0, 0x0⟩,
  ⟨0x10, 6, 1, 0x10, 1, 0x4, 0x6400C8, 0, 0x1FFF1FFF, 0x0, 0x0, 0x0⟩,
  ⟨0x10, 6, 1, 0x14, 1, 0x4, 0xC350, 0, 0xFFFFF, 0x0, 0x0, 0x0⟩,
  ⟨0x10, 6, 1, 0x18, 1, 0x4, 0x3E8, 0, 0xFFFFF, 0x0, 0x0, 0x0⟩,
  ⟨0x10, 6, 1, 0x1C, 1, 0x4, 0x2100064, 0, 0x3FF03FF, 0x0, 0x0, 0x0⟩,
  ⟨0x10, 6, 1, 0x20, 1, 0x4, 0x0, 0, 0x3FF03FF, 0x0, 0x0, 0x0⟩,
  ⟨0x10, 6, 1, 0x24, 1, 0x4, 0x2710, 0, 0xFFFFF, 0x0, 0x0, 0x0⟩,
  ⟨0x10, 6, 1, 0x28, 1, 0x4, 0x640064, 0, 0xFFFFFFFF, 0x0, 0x0, 0x0⟩,
  ⟨0x10, 6, 1, 0x2C, 1, 0x4, 0x64, 0, 0xFFFF, 0x0, 0x0, 0x0⟩,
  ⟨0x10, 6, 1, 0x30, 1, 0x4, 0x78001E, 0, 0xFFFFFFFF, 0x0, 0x0, 0x0⟩,
  ⟨0x10, 6, 1, 0x34, 1, 0x4, 0xBB8, 0, 0xFFFF, 0x0, 0x0, 0x0⟩,
  ⟨0x10, 6, 1, 0x38, 1, 0x4, 0x64, 0, 0xFFFFF, 0x0, 0x0, 0x0⟩,
  ⟨0x10, 6, 1, 0x3C, 1, 0x4, 0xBB8, 0, 0xFFFFF, 0x0, 0x0, 0x0⟩,
  ⟨0x10, 6, 1, 0x40, 1, 0x4, 0xF4240, 0, 0xFFFFF, 0x0, 0x0, 0x0⟩,
  ⟨0x10, 6, 1, 0x44, 1, 0x4, 0x556496, 0, 0xFFFFFF, 0x0, 0x0, 0x0⟩,
  ⟨0x10, 6, 1, 0x48, 1, 0x4, 0x0, 0, 0xFFFFFFFF, 0x0, 0x0, 0x0⟩,
  ⟨0x10, 6, 1, 0x50, 1, 0x4, 0x0, 0, 0x0, 0x0, 0x0, 0xFFFFFFFF⟩,
  ⟨0x10, 6, 1, 0x54, 1, 0x4, 0x0, 0, 0x0, 0x0, 0x0, 0xFFFFFFFF⟩,
  ⟨0x10, 6, 1, 0x58, 1, 0x4, 0x0, 0, 0x0, 0x0, 0x0, 0xFFFF⟩,
  ⟨0x10, 6, 1, 0x60, 1, 0x4, 0x0, 0, 0x0, 0x0, 0x0, 0xFFFFFFFF⟩]

/-- Rows of PPC, part 1. -/
def rowsPpc1 : List RegRow := [
  ⟨0x10, 6, 1, 0x64, 1, 0x4, 0x0, 0, 0x0, 0x0, 0x0, 0xFFFFFFFF⟩,
  ⟨0x10, 6, 1, 0x68, 1, 0x4, 0x0, 0, 0x0, 0x0, 0x0, 0xFFFFFFFF⟩,
  ⟨0x10, 6, 1, 0x6C, 1, 0x4, 0x0, 0, 0x0, 0x0, 0x0, 0xFFFFFFFF⟩,
  ⟨0x10, 6, 1, 0x70, 1, 0x4, 0x0, 0, 0x0, 0x0, 0x0, 0xFFFFFFFF⟩,
  ⟨0x10, 6, 1, 0x74, 1, 0x4, 0x0, 0, 0x0, 0x0, 0x0, 0xFFFFFFFF⟩,
  ⟨0x10, 6, 1, 0x78, 1, 0x4, 0x0, 0, 0x0, 0x0, 0x0, 0xFFFFFFFF⟩,
  ⟨0x10, 6, 1, 0x7C, 1, 0x4, 0x0, 0, 0x0, 0x0, 0x0, 0xFFFFFFFF⟩,
  ⟨0x10, 6, 1, 0x80, 1, 0x4, 0x0, 0, 0x0, 0x0, 0x0, 0xFFFFFFFF⟩]

/-- Every row of PPC. -/
def rowsPpc : List RegRow := rowsPpc0 ++ rowsPpc1

/-- Rows of PMU, part 0. -/
def rowsPmu0 : List RegRow := [
  ⟨0x1, 1, 1, 0x0, 1, 0x4, 0x0, 0, 0x0, 0x0, 0x0, 0xFF87⟩,
  ⟨0x1, 1, 1, 0x4, 1, 0x4, 0x0, 0, 0x0, 0x0, 0x0, 0xC03FFFFF⟩,
  ⟨0x1, 1, 1, 0x8, 1, 0x4, 0x0, 0, 0x0, 0x3, 0x0, 0x7C⟩,
  ⟨0x1, 1, 1, 0xC, 1, 0x4, 0x2E40320, 0, 0x3FF03FF, 0x0, 0x0, 0x0⟩,
  ⟨0x1, 1, 1, 0x10, 1, 0x4, 0x2580294, 0, 0x3FF03FF, 0x0, 0x0, 0x0⟩,
  ⟨0x1, 1, 1, 0x14, 1, 0x4, 0x40, 0, 0x7F, 0x0, 0x0, 0x0⟩,
  ⟨0x1, 1, 1, 0x18, 1, 0x4, 0xFFFFFFFF, 0, 0xFFFFFFFF, 0x0, 0x0, 0x0⟩,
  ⟨0x1, 1, 1, 0x1C, 1, 0x4, 0xFFFF, 0, 0xFFFE, 0x0, 0x0, 0x1⟩,
  ⟨0x1, 1, 1, 0x20, 1, 0x4, 0x1, 0, 0x0, 0x0, 0x0, 0xFFFF⟩,
  ⟨0x1, 1, 1, 0x24, 1, 0x4, 0x8, 0, 0x0, 0x37, 0x0, 0x8⟩,
  ⟨0x1, 1, 1, 0x28, 1, 0x4, 0x120, 0, 0x0, 0xFF7F, 0x0, 0x80⟩,
  ⟨0x1, 1, 1, 0x2C, 1, 0x4, 0x0, 0, 0x0, 0xFFFFFFFF, 0x0, 0x0⟩,
  ⟨0x1, 1, 1, 0x30, 1, 0x4, 0x0, 0, 0x0, 0x0, 0x0, 0xFFF0001⟩,
  ⟨0x1, 1, 1, 0x34, 1, 0x4, 0x0, 0, 0x0, 0x0, 0x0, 0x7FFFFFFF⟩,
  ⟨0x1, 1, 1, 0x38, 1, 0x4, 0x640000, 0, 0xFFFF0001, 0x0, 0x0, 0x0⟩,
  ⟨0x1, 1, 1, 0x3C, 1, 0x4, 0x0, 0, 0x0, 0x0, 0x0, 0xFFFFFFFF⟩,
  ⟨0x1, 1, 1, 0x40, 1, 0x4, 0x0, 0, 0x0, 0x0, 0x0, 0xFFFFFFFF⟩,
  ⟨0x1, 1, 1, 0x44, 12, 0x4, 0x100, 0, 0x0, 0xFFFF, 0x0, 0x0⟩,
  ⟨0x1, 1, 1, 0x74, 1, 0x4, 0x0, 0, 0x0, 0x0, 0x0, 0xFFFFFFFF⟩]

/-- Every row of PMU. -/
def rowsPmu : List RegRow := rowsPmu0

/-- Rows of KSI, part 0. -/
def rowsKsi0 : List RegRow := [
  ⟨0x1, 1, 1, 0x0, 1, 0x4, 0x0, 0, 0x0, 0x0, 0x0, 0x7F1F⟩,
  ⟨0x1, 1, 1, 0x4, 1, 0x4, 0x0, 0, 0x0, 0x0, 0x0, 0x3⟩,
  ⟨0x1, 1, 1, 0x8, 1, 0x4, 0x0, 0, 0x0, 0x0, 0x0, 0x7F⟩,
  ⟨0x1, 1, 1, 0xC, 1, 0x4, 0x0, 0, 0x0, 0x0, 0x0, 0xFFFFFFFF⟩,
  ⟨0x1, 1, 1, 0x10, 1, 0x4, 0x0, 0, 0x0, 0x0, 0x0, 0xFFFFFFFF⟩,
  ⟨0x1, 1, 1, 0x14, 1, 0x4, 0x0, 0, 0x0, 0x0, 0x0, 0xFFFFFFFF⟩,
  ⟨0x1, 1, 1, 0x18, 1, 0x4, 0x0, 0, 0x0, 0x0, 0x0, 0xFFFFFFFF⟩,
  ⟨0x1, 1, 1, 0x1C, 1, 0x4, 0x0, 0, 0x0, 0x0, 0x0, 0xFFFFFFFF⟩,
  ⟨0x1, 1, 1, 0x20, 1, 0x4, 0x0, 0, 0x0, 0x0, 0x0, 0xFFFFFFFF⟩,
  ⟨0x1, 1, 1, 0x24, 1, 0x4, 0x0, 0, 0x0, 0x0, 0x0, 0xFFFFFFFF⟩,
  ⟨0x1, 1, 1, 0x28, 1, 0x4, 0x0, 0, 0x0, 0x0, 0x0, 0xFFFFFFFF⟩,
  ⟨0x1, 1, 1, 0x2C, 1, 0x4, 0x0, 0, 0x0, 0x0, 0x0, 0xFFFFFFFF⟩,
  ⟨0x1, 1, 1, 0x30, 12, 0x4, 0x0, 0, 0x0, 0x0, 0x0, 0xFFFFFFFF⟩,
  ⟨0x1, 1, 1, 0x60, 12, 0x4, 0x0, 0, 0x0, 0x0, 0x0, 0xFFFFFFFF⟩,
  ⟨0x2, 1, 1, 0x0, 8, 0x4, 0x0, 0, 0x0, 0xFFFFFFFF, 0x0, 0x0⟩,
  ⟨0x2, 1, 1, 0x20, 8, 0x4, 0x0, 0, 0x0, 0x0, 0x0, 0xFFFFFFFF⟩,
  ⟨0x3, 1, 1, 0x0, 512, 0x4, 0x0, 0, 0x0, 0xFFFFFFFF, 0x0, 0x0⟩,
  ⟨0x5, 1, 1, 0x0, 64, 0x4, 0x0, 0, 0x0, 0x0, 0x0, 0xFFFF7F3F⟩]

/-- Every row of KSI. -/
def rowsKsi : List RegRow := rowsKsi0

/-- Rows of SIT, part 0. -/
def rowsSit0 : List RegRow := [
  ⟨0x1, 1, 1, 0x0, 1, 0x4, 0x0, 3, 0x1, 0x0, 0x0, 0x0⟩,
  ⟨0x1, 1, 1, 0x4, 1, 0x4, 0xA0001, 0, 0x3FFF0000, 0x1, 0x0, 0x6⟩,
  ⟨0x1, 1, 1, 0x8, 1, 0x4, 0x0, 0, 0x0, 0x0, 0x0, 0xFFFFFFFF⟩,
  ⟨0x1, 1, 1, 0xC, 1, 0x4, 0x3F, 0, 0x3F, 0x0, 0x0, 0x0⟩,
  ⟨0x1, 1, 1, 0x10, 1, 0x4, 0x3C, 0, 0xFFF, 0x0, 0x0, 0x0⟩,
  ⟨0x1, 1, 1, 0x14, 1, 0x4, 0x3000A, 0, 0xFFFF00FF, 0x0, 0x0, 0x0⟩,
  ⟨0x1, 1, 1, 0x18, 1, 0x4, 0x18, 0, 0x1F, 0x0, 0x0, 0x0⟩,
  ⟨0x1, 1, 1, 0x1C, 1, 0x4, 0x0, 0, 0x0, 0x0, 0x0, 0xFFFF3F3F⟩,
  ⟨0x1, 1, 1, 0x20, 1, 0x4, 0x0, 0, 0x0, 0x0, 0x0, 0xFFFFFFFF⟩,
  ⟨0x1, 1, 1, 0x24, 1, 0x4, 0x0, 0, 0x0, 0x0, 0x0, 0xFFFF⟩,
  ⟨0x1, 1, 1, 0x28, 1, 0x4, 0x0, 0, 0x0, 0x0, 0x0, 0xFFFFFFFF⟩,
  ⟨0x1, 1, 1, 0x30, 6, 0x4, 0x0, 0, 0x0, 0x0, 0x0, 0xFFFFFFFF⟩,
  ⟨0x1, 1, 1, 0x48, 6, 0x4, 0x0, 0, 0x0, 0x0, 0x0, 0xFFFFFFFF⟩,
  ⟨0x1, 1, 1, 0x60, 1, 0x4, 0x0, 0, 0x0, 0x0, 0x0, 0x101FF⟩]

/-- Every row of SIT. -/
def rowsSit : List RegRow := rowsSit0

/-- The rows of a block. -/
def rowsOf : Block → List RegRow
  | .stw => rowsStw
  | .pmc => rowsPmc
  | .lnx => rowsLnx
  | .kll => rowsKll
  | .mir => rowsMir
  | .tsc => rowsTsc
  | .tss => rowsTss
  | .fcm => rowsFcm
  | .dse => rowsDse
  | .vin => rowsVin
  | .eth => rowsEth
  | .pxb => rowsPxb
  | .usb => rowsUsb
  | .ppc => rowsPpc
  | .pmu => rowsPmu
  | .ksi => rowsKsi
  | .sit => rowsSit

/-- Whether a row holds offset `off` of page `pg`. -/
def RegRow.hit (r : RegRow) (pg off : Nat) : Bool :=
  Nat.ble r.pg pg && Nat.ble r.off off
    && Nat.blt (pg - r.pg) (r.npg * r.pst) && Nat.beq ((pg - r.pg) % r.pst) 0
    && Nat.blt (off - r.off) (r.n * r.st) && Nat.beq ((off - r.off) % r.st) 0

/-- The row of an address of a block, if the chapters list one (R64). -/
def rowAt (b : Block) (pg off : Nat) : Option RegRow := (rowsOf b).find? (fun r => r.hit pg off)

end Sys2Proof.Machine
end

