-- ==== Sys2Proof/Machine/State.lean ====
section
/-! DEFINITION. The state of the hub as plain data: everything the spec names, one structure per block or
mechanism, and the queue of waiting commands (INVENTORY.md lists each piece with its rule). -/

namespace Sys2Proof.Machine

/-- Reasons a step can stop with a fault. No command of this model raises one: every meaning answers a next state on every term.
`illFormed` would name a term that Instr.wellFormed refuses (safe: the hub is never sent one). -/
inductive Fault where
  | illFormed
  deriving DecidableEq, Repr

/-- Reasons a step can be refused. `notModelled` names a command of the table that has no meaning yet; it
stands in Dispatch only (safe: nothing is claimed of such a command). -/
inductive Refusal where
  | notModelled (mnemonic : String)
  deriving DecidableEq, Repr

/-- How far start-up has come (R45, Table 2.5): POR asserted; POR released and the rails awaited; CORE_EN
high and the core awaited; core confirmed and RESET_N and REFCLK_A awaited; main die released. -/
inductive Phase where
  | por | rails | core | confirmed | running
  deriving DecidableEq, Repr

/-- The power states (Table 17.1). -/
inductive PState where
  | run | doze | nap | dormant | off
  deriving DecidableEq, Repr

/-- A DVFS step that runs: its point, whether it raises the voltage, the voltage commanded before it, in mV, and when VOUT_COMMAND was
written (R440). -/
structure DvfsStep where
  point : Nat
  raise : Bool
  old : Nat
  since : Nat
  deriving DecidableEq, Repr

/-- A PMBus transaction (Table 2.6): its command, the bytes that a write carries, and whether it is a read. -/
structure PmbXact where
  cmd : Nat
  data : List Byte := []
  read : Bool := false
  deriving DecidableEq, Repr

/-- Supplies, start-up, power state and regulation (02 and 17): what PMU and the custody die hold besides
their registers. `custRisen`: VDD_CUST is above its threshold and POR release is awaited; `xtal` that the crystal drives the keep
domain; `supplyBad` the rail of a supply fault; `thermHold` a thermal trip that holds the main die in reset; `outOfCond` that
the hub has left its operating conditions; `linear` that VOUT_MODE was
accepted; `vcmd` the commanded core voltage in mV; `aoBoard` the board's draw on AO_CAP in 10 µA; `wakeLatch` the wake source
that ends NAP or DORMANT; `since` when the power state was entered; `timer` the wake timer's remaining keep-clock ticks and
`keep` the time since the last keep-clock edge, in 1/64 ns (R439); `held` that a supply fault or a thermal trip holds the main die in
reset until its release (R56); `idleFrom` when a fabric branch was last released or the hub came back to RUN (R427); `pmb` the PMBus transactions of the running procedure, `pmbAt` the one that failed last and `pmbFails`
its failed tries (R49); `rootLost` that the root secret was lost without supply; `fwRunning` that steward firmware runs; and the
pool counts that WARM captured (R33). -/
structure Power where
  phase : Phase := .running
  state : PState := .run
  custRisen : Bool := true
  xtal : Bool := false
  coreEn : Bool := true
  clamped : Bool := false
  supplyBad : Option Rail := none
  thermHold : Bool := false
  held : Bool := false
  idleFrom : Nat := 0
  outOfCond : Bool := false
  pmb : List PmbXact := []
  pmbAt : Nat := 0
  pmbFails : Nat := 0
  linear : Bool := true
  step : Option DvfsStep := none
  vcmd : Nat := 800
  aoBoard : Nat := 0
  wakeLatch : Option Nat := none
  since : Nat := 0
  timer : Nat := 0
  keep : Nat := 0
  rootLost : Bool := false
  fwRunning : Bool := false
  heldCounts : List Nat := []
  deriving DecidableEq, Repr

/-- The pins that the blocks drive and that no register mirrors (02, 10, 12, 15). -/
structure Pins where
  faultPulse : Option Nat := none
  ppsOut : Bool := false
  trig : List Bool := [false, false, false, false]
  gpio : Nat := 0
  deriving DecidableEq, Repr

/-- A request's outcome, as the block stores it before it publishes it (R81, Table 3.10). -/
structure MbxResult where
  err : Nat := 0
  data : List Word := []
  flag : Bool := false
  deriving DecidableEq, Repr

/-- The request/result mailbox of one block (R79–R82). `tickets` holds the REQ_TICKET word of each access
path, in the order of Path.code; `postedAt` is when the running request was accepted. -/
structure Mailbox where
  args : List Word := [0, 0, 0, 0, 0, 0]
  tickets : List Word := [0, 0, 0, 0, 0]
  ticket : Nat := 0
  busy : Bool := false
  op : Nat := 0
  src : Nat := 0
  latched : List Word := []
  result : Option MbxResult := none
  ready : Bool := false
  err : Bool := false
  errCode : Nat := 0
  dataTicket : Nat := 0
  data : List Word := [0, 0, 0, 0, 0, 0]
  postedAt : Nat := 0
  deriving DecidableEq, Repr

/-- One fault source of a block: its FS_COUNT, the WIN_COUNT of its compact window (0: no window is open)
when it was opened, and its classification in force, 0 note to 3 severe (R465, R468–R471). -/
structure FltSrc where
  count : Word := 0
  win : Nat := 0
  winFrom : Nat := 0
  cls : Nat := 0
  deriving DecidableEq, Repr

/-- The page-0 header of one block, less what is computed on reading (R68–R82), with the state behind its
fault pages. `waiting` lists the commit instances that an armed commit has still to reach (R75); `armedAt` is when it was armed,
`overdue` the ones among them that have missed a window (R76); `corrected` the ECC errors corrected in the block's memories (R18). -/
structure Hdr where
  attnRaw : Word := 0x80000000
  attnEn : Word := 0xF0000000
  sticky : Word := 0
  live : Word := 0
  recovery : Word := 0
  enable : Bool := true
  rdlive : Bool := false
  arbMode : Nat := 1
  clkReq : Bool := false
  clkGranted : Bool := false
  waiting : List Nat := []
  armedAt : Nat := 0
  overdue : List Nat := []
  late : Bool := false
  applied : Nat := 0
  missed : Nat := 0
  pollSeq : Word := 0
  mbx : Mailbox := {}
  flt : List FltSrc := []
  inFault : Bool := false
  quietFrom : Nat := 0
  corrected : Nat := 0
  deriving DecidableEq, Repr

/-- The masthead's own state: the sequence number and the cell time of its last change (R83, R84). -/
structure Masthead where
  seq : Word := 0
  time : Nat := 0
  deriving DecidableEq, Repr

/-- An event record on its way to the order log (R283, Tables 10.3 and 10.4). -/
structure EvRec where
  kind : Nat
  bit : Nat
  info : Nat
  deriving DecidableEq, Repr

/-- The 16-record FIFO in which one block hands its records to STW, with its lost count (R283). -/
structure EvFifo where
  recs : List EvRec := []
  lost : Nat := 0
  deriving DecidableEq, Repr

/-- One record of the order log (Table 10.3). -/
structure LogRec where
  stamp : Nat := 0
  seq : Word := 0
  block : Nat := 0
  kind : Nat := 0
  bit : Nat := 0
  info : Nat := 0
  deriving DecidableEq, Repr

/-- The order log (R284, R286): block FIFOs, the ring of 1,024 records, and the count of records lost since
the last LOST record of STW. -/
structure Olog where
  fifos : PerBlock EvFifo := .of fun _ => {}
  ring : Tab LogRec := []
  next : Nat := 0
  seq : Word := 0
  written : Nat := 0
  lostRun : Nat := 0
  deriving DecidableEq, Repr

/-- One arbiter (R275–R278). `steps` and `losses` hold one number per requester: STEPS and the decisions
lost in a row. -/
structure Arb where
  owner : Nat
  parked : Bool := false
  held : Bool := false
  steps : List Nat
  losses : List Nat
  deriving DecidableEq, Repr

/-- Cell time (R288–R291): whole nanoseconds, the 32-bit fraction, the frequency term F and the phase term P
in 0.001 ppm, the offset that P removes and since when, the runs of good and bad offsets of Table 10.5, and when the last SOFT write, the
last PPS_OUT rise, the last PPS_IN edge and the last accepted one were. `up` counts the nanoseconds
gone by since POR, which no step of cell time moves: every interval is measured by it. (Log entry 46, DESIGN CHOICE.) -/
structure TimeBase where
  up : Nat := 0
  ns : Nat := 0
  frac : Nat := 0
  f : Int := 0
  p : Int := 0
  slew : Int := 0
  slewFrom : Nat := 0
  good : Nat := 0
  bad : Nat := 0
  lastSoft : Option Nat := none
  lastPpsRise : Option Nat := none
  lastPpsIn : Option Nat := none
  ppsOkAt : Option Nat := none
  deriving DecidableEq, Repr

/-- A record of the repair map (Table 19.8): KIND 1 bank out, 2 lane out, 3 lane substitution. -/
structure RepairRec where
  kind : Nat
  res : Nat
  port : Nat := 0
  logical : Nat := 0
  cleared : Bool := false
  time : Nat := 0
  deriving DecidableEq, Repr

/-- One lane's state behind its registers: the receive bit position (R101) and the transmitted bits that
INJECT_ONE has inverted (R108), the blocks in its elastic buffer (R125), and when SIT took it (R110). -/
structure LaneSt where
  pos : Nat := 0
  flips : Nat := 0
  fill : Nat := 8
  testFrom : Nat := 0
  deriving DecidableEq, Repr

/-- A lane repair in progress (R112, R116). -/
structure LaneRepair where
  port : Nat
  logical : Nat
  spare : Nat
  starter : Bool
  answered : Bool := false
  ready : Bool := false
  peerReady : Bool := false
  marker : Option Nat := none
  since : Nat := 0
  deriving DecidableEq, Repr

/-- The lanes that the steward repairs of itself when LNX's mailbox is free (R114), as port and logical lane, and the ports whose last
such repair found no wired spare free, as a mask. -/
structure AutoRepair where
  waits : List (Nat × Nat) := []
  spareless : Nat := 0
  deriving DecidableEq, Repr

/-- Where a stored cell stands besides the states that its references decide (Table 6.2): in a foyer, held by
the resequencer, on its flow's list, or held for the hub's own steward
until its TC6 frame is complete. -/
inductive CellPlace where
  | foyer | reseq | listed | steward
  deriving DecidableEq, Repr

/-- A cell in the shared buffer: the descriptor of Table 6.1 with its payload. `pend` and `repl` are masks over
egress port codes: the targets that have not read it, and those that hold a replay reference; REFCNT is the
number of ones in both. `credit` says that its release returns a link credit of the session in which
it arrived. `flow` is the handle that the cell's own header carries; `arr` and `adm` are cell time when it was stored and when
its frame was admitted. -/
structure CellSt where
  slot : Nat := 0
  flow : Nat
  fseq : Nat
  tc : Nat
  first : Bool
  last : Bool
  inp : Nat
  tmask : Nat := 0
  pend : Nat := 0
  repl : Nat := 0
  poison : Bool := false
  heldT : Nat := 0
  pennant : Word
  payload : List Byte
  place : CellPlace
  credit : Bool := false
  arr : Nat := 0
  adm : Nat := 0
  deriving DecidableEq, Repr

/-- The counts that TSC keeps of the cells in each holder state (R159) and of the references (Table 6.6a). -/
structure Holders where
  kitty : Int := 65536
  foyer : Int := 0
  reseq : Int := 0
  queued : Int := 0
  replay : Int := 0
  spent : Int := 0
  condemned : Int := 0
  pend : Int := 0
  repl : Int := 0
  refs : Int := 0
  deriving DecidableEq, Repr

/-- What becomes of the later cells of a frame that is open at an ingress port (R166, R175): they join the
admitted frame, the resequencer, the foyer, or the cells held for the steward. -/
inductive OpenFate where
  | admitted (slot tmask : Nat)
  | reseq (slot tmask : Nat)
  | foyer
  | steward
  deriving DecidableEq, Repr

/-- A frame open at an ingress port (R175, CTX_RA0 and CTX_RA1). `cells` lists those stored so far. -/
structure OpenFrame where
  port : Nat
  flow : Nat
  fseq : Nat
  tc : Nat
  count : Nat
  cells : List Nat
  time : Nat
  fate : OpenFate
  deriving DecidableEq, Repr

/-- A frame in a port's foyer (R202): its cells, whether its LAST cell is there, when it entered, and the FSEQ
it carries. `waiting`: its context is resident, and a holding ingress waits for its admission; `counted`: it has advanced
TP_WAIT_ADMIT; `told`: its refusal as a trump frame has been reported (R169). -/
structure FoyFrame where
  flow : Nat
  fseq : Nat
  cells : List Nat
  complete : Bool
  since : Nat
  waiting : Bool := false
  counted : Bool := false
  told : Bool := false
  deriving DecidableEq, Repr

/-- A frame that waits at a holding ingress: PXB, USB or the steward (Table 6.3); `told`: its refusal as a trump frame has been reported
(R169). -/
structure WaitFrame where
  port : Nat
  flow : Nat
  slot : Option Nat := none
  payload : List Byte
  told : Bool := false
  deriving DecidableEq, Repr

/-- Slot states (Table 7.1). -/
inductive SlotState where
  | free | resident | dummy | writeback
  deriving DecidableEq, Repr

/-- A frame that the resequencer holds (R176). -/
structure HeldFrame where
  fseq : Nat
  cells : List Nat
  since : Nat
  tmask : Nat
  deriving DecidableEq, Repr

/-- A flow context (Table 7.2). `list` is the flow's list of cells in arrival order, from which HEAD, TAIL, CELLS
and the cursors follow; `held` the resequencer's held frames in FSEQ order. -/
structure Ctx where
  state : SlotState := .free
  handle : Nat := 0
  tc : Nat := 0
  mcast : Bool := false
  reseq : Bool := false
  pin : Bool := false
  port : Nat := 0
  group : Nat := 0
  inmask : Nat := 0
  weight : Nat := 0
  floor : Nat := 0
  ceil : Nat := 0
  rate : Nat := 0
  burst : Nat := 0
  tokens : Int := 0
  frac : Nat := 0
  shapeOn : Bool := false
  inseq : Nat := 0
  expect : Nat := 0
  list : List Nat := []
  rsqNext : Nat := 0
  rsqSet : Bool := false
  held : List HeldFrame := []
  hist : Nat := 0
  cntPennant : Nat := 0
  cntAdmit : Nat := 0
  cntReset : Nat := 0
  cntGap : Nat := 0
  cntDup : Nat := 0
  cntLate : Nat := 0
  cntFoyer : Nat := 0
  cntExit : Nat := 0
  lrs : Nat := 0
  gen : Nat := 0
  deriving DecidableEq, Repr

/-- An outstanding page-in (R212): its REQ_ID, the dummy's slot, when the flow's first frame came and when the read was
issued. -/
structure PageIn where
  req : Nat
  flow : Nat
  slot : Nat
  since : Nat
  issued : Nat
  deriving DecidableEq, Repr

/-- Why a write-back was issued: a victim, FLOW_EVICT, FLOW_DELETE with clear, or NAP entry. -/
inductive WbCause where
  | victim | evict | clear | nap
  deriving DecidableEq, Repr

/-- A write-back that awaits its acknowledgement (R212). -/
structure WriteBack where
  req : Nat
  flow : Nat
  gen : Nat
  cause : WbCause
  issued : Nat
  deriving DecidableEq, Repr

/-- A policy that waits for its deal epoch boundary (R197): slot, time of the request, template words, and whether the
FLOW_POLICY operation waits for it. -/
structure PolicyReq where
  slot : Nat
  since : Nat
  words : List Word
  viaOp : Bool
  deriving DecidableEq, Repr

/-- FCM's paging engine: outstanding page-ins and write-backs, page-ins that wait to start (flow, and when its
first frame came), the next REQ_ID, whether and since when STATUS 0x04 holds the path down (R218), and the policies that
wait for their deal epoch boundary (R197). `op` is the mailbox operation that waits, since `opAt`, for a page-in of `opFlow` or an acknowledgement, `lost` the flows whose context a memory error took
(R220), and `owed` the per-flow counts of flows that have no slot (Table 7.7). -/
structure Paging where
  ins : List PageIn := []
  wbs : List WriteBack := []
  waits : List (Nat × Nat) := []
  nextReq : Nat := 0
  hold : Bool := false
  holdFrom : Nat := 0
  policy : List PolicyReq := []
  op : Option Nat := none
  opFlow : Nat := 0
  opAt : Nat := 0
  lost : List Nat := []
  owed : Tab Ctx := []
  deriving DecidableEq, Repr

/-- A bank that SIT or a condemnation moves (R180–R182): the logical bank being copied, the physical bank freed
and under test, whether the copy condemns the old bank, the logical bank being drained, the condemned ones that wait, and the corrected errors of the
last second (logical bank, time). -/
structure Banks where
  copying : Option Nat := none
  testing : Option Nat := none
  condemn : Bool := false
  draining : Option Nat := none
  waiting : List Nat := []
  errs : List (Nat × Nat) := []
  deriving DecidableEq, Repr

/-- A cell as a link port accepts it (Table 5.3), its pennant good. -/
structure CellIn where
  flow : Nat
  fseq : Nat
  tc : Nat
  first : Bool
  last : Bool
  payload : List Byte
  pennant : Word
  deriving DecidableEq, Repr

/-- When an unacknowledged cell was first and last sent, whether it was sent more than once (R487, R488), and whether as VOID
(R145): its TC, FLOW and FSEQ. -/
structure TxTime where
  rseq : Nat
  first : Nat
  last : Nat
  again : Bool
  void : Option (Nat × Nat × Nat) := none
  deriving DecidableEq, Repr

/-- The state of one link port behind its registers (R135–R151). Sent and returned counts are 16-bit wrapping
counts per class; `hand` is the counter of R141; `unacked` lists RSEQ and cell index of the cells sent and not yet
acknowledged, oldest first; `replay` is the RSEQ from which a running replay goes on; `run` counts the replays in a
row that started at `runSeq`. `limEff` is the old limit that LIMIT_EFF of POOL 0x2 still keeps, `held` RXHELD as KLL counts it.
`macCell` is the last cell of a TC6 frame whose MAC block is awaited, `earlyCert` an AUTH_CERT that came in HELLO, `helloAt` when HELLO was
last sent, `since` when the state was entered, `creditRx` that a credit block has come since, `ackAt` when ACK_SEQ last advanced, a cell became
the oldest unacknowledged one or the timeout last ran out, `replayAt` when the last replay started, `eph` the private value of the
ephemeral key, `macTx` the bytes of the TC6 frame being sent, `codes` the codes of the unacknowledged ones by RSEQ, `times` when each unacknowledged cell was sent,
`returned` the cells that the last PORT reset returned (R265). -/
structure LinkSt where
  helloTx : Bool := false
  helloRx : Bool := false
  facing : Nat := 0
  version : Nat := 1
  peerWidth : Nat := 0
  peerRate : Nat := 0
  peerDepth : Nat := 0x3F
  deskewed : Bool := false
  nOwn : List Byte := []
  nPeer : List Byte := []
  chain : List Byte := []
  gotChain : Bool := false
  certOwn : List Byte := []
  certPeer : List Byte := []
  kexOwn : List Byte := []
  eph : List Byte := []
  kexPeer : List Byte := []
  finTx : Bool := false
  finRx : Bool := false
  keyTx : List Byte := []
  keyRx : List Byte := []
  ctrTx : Nat := 0
  ctrRx : Nat := 0
  authFrom : Nat := 0
  advTx : Bool := false
  advRx : Bool := false
  adv : List Nat := [0, 0, 0, 0, 0, 0, 0, 0]
  limEff : List Nat := [0, 0, 0, 0, 0, 0, 0, 0]
  hand : List Int := [0, 0, 0, 0, 0, 0, 0, 0]
  sentCum : List Nat := [0, 0, 0, 0, 0, 0, 0, 0]
  retRx : List Nat := [0, 0, 0, 0, 0, 0, 0, 0]
  retCum : List Nat := [0, 0, 0, 0, 0, 0, 0, 0]
  retSent : List Nat := [0, 0, 0, 0, 0, 0, 0, 0]
  held : List Nat := [0, 0, 0, 0, 0, 0, 0, 0]
  rxNext : Nat := 0
  nakSent : Bool := false
  ackDue : Bool := false
  unacked : List (Nat × Nat) := []
  replay : Option Nat := none
  runSeq : Nat := 0
  run : Nat := 0
  recoverLoss : Bool := false
  macCell : Option CellIn := none
  macTried : Bool := false
  earlyCert : List Byte := []
  helloAt : Nat := 0
  since : Nat := 0
  creditRx : Bool := false
  ackAt : Nat := 0
  replayAt : Option Nat := none
  macTx : List Byte := []
  codes : List (Nat × List Byte) := []
  times : List TxTime := []
  idleReq : Bool := false
  napHeld : Bool := false
  returned : Nat := 0
  deriving DecidableEq, Repr

/-- The time transfer of KLL (R149–R151): the child's running exchange and when its REQ went out, when the last periodic one began, the parent's stamps per port and the runs
of good and bad exchanges. Times are in 1/16 ns. -/
structure TimeXfer where
  seq : Nat := 0
  busy : Bool := false
  t1 : Nat := 0
  t4 : Option Nat := none
  reqAt : Nat := 0
  lastTick : Option Nat := none
  good : Nat := 0
  bad : Nat := 0
  viaOp : Bool := false
  deriving DecidableEq, Repr

/-- The state of one flow at one egress target, held by TSS while cells are pending there (R231, R243, R246).
`quant` is the quantum of the last deal, or TS_NEWQ where `isNew`; `since` when it gained its state, or the epoch began; `elig` the
eligibility time of the head unit of a trump flow; `headAt` when the head unit reached the head; `waited` says that it has advanced
TS_GATE_WAIT. -/
structure FlowTgt where
  deficit : Int := 0
  fresh : Bool := false
  quant : Nat := 0
  isNew : Bool := true
  admitted : Nat := 0
  since : Nat := 0
  allot : Nat := 0
  demand : Nat := 0
  elig : Nat := 0
  headAt : Nat := 0
  waited : Bool := false
  deriving DecidableEq, Repr

/-- A pending switch of a port's gate list (R239, R241): to a bank from its T, or to no list at an entry's end. -/
inductive GateSwitch where
  | toBank (bank : Bool) (t : Nat)
  | toNone (t : Nat)
  deriving DecidableEq, Repr

/-- The scheduler's state at one egress port: pointers, class deficits and buckets (R231, R232), the classes whose shaper has been on
since their last refill (R234), TC7 bytes of the epoch and when it began, the pending switch, when the list took over, entries whose ECC
failed, a deal result not yet applied (slot, quantum, allotment), the bytes and the time in ns of flows that have lost their state here in
this epoch (slot; R243), and the frames that failed a pennant check here (slot, FSEQ; R178). -/
structure TssPort where
  cls : Nat := 0
  cfresh : Bool := false
  cdef : List Int := [0, 0, 0, 0, 0, 0, 0]
  ptr : List Nat := [0, 0, 0, 0, 0, 0, 0]
  tokens : List Int := [0, 0, 0, 0, 0, 0, 0, 0]
  frac : List Nat := [0, 0, 0, 0, 0, 0, 0, 0]
  shOn : List Bool := [false, false, false, false, false, false, false, false]
  trump : Nat := 0
  epochFrom : Nat := 0
  switch : Option GateSwitch := none
  listFrom : Nat := 0
  badEntry : List (Bool × Nat) := []
  dealing : Option (List (Nat × Nat × Nat)) := none
  dealFrom : Nat := 0
  past : List (Nat × Nat × Nat) := []
  failed : List (Nat × Nat) := []
  deriving DecidableEq, Repr

/-- A request in the ROOT's paging queue in PXB (R211, R374): for the hub itself (`hub` none) or another one. -/
structure PageReq where
  hub : Option Nat
  req : Nat
  flow : Nat
  addr : Nat
  image : Option (List Byte)
  deriving DecidableEq, Repr

/-- What holds a bridge tag (R362): a page-in read, a part of a far request (its number and the part), a
CFG_XFER, or a part whose request has already ended (R368). -/
inductive TagUse where
  | page (r : PageReq)
  | bridge (k part : Nat)
  | cfg
  | stale
  deriving DecidableEq, Repr

/-- A key slot (R448): its policy header and its key. -/
structure KeySlot where
  type : Nat := 0
  challenge : Bool := false
  remote : Bool := false
  len : Nat := 0
  ctr : Nat := 0
  key : List Byte := []
  deriving DecidableEq, Repr

/-- What KSI holds besides its registers (R446–R458): in battery-backed memory the root secret and the slots; in
the store the two certificates. `lost` is IDENTITY_LOST, `kat` the failing
known-answer tests, one bit each. -/
structure Ksi where
  lost : Bool := false
  root : List Byte := List.replicate 32 0
  slots : Tab KeySlot := []
  devCert : List Byte := []
  caCert : List Byte := []
  vbatLow : Bool := false
  kat : Nat := 0
  deriving DecidableEq, Repr

/-- An entry of the record table of a pair member (R261): the twin ports of the flow (0x1F none) with the last FSEQ
accepted and acknowledged there, the mirrored INSEQ, EXPECT and last FSEQ received, the mirrored bucket, what the
neighbours of a lost member reported, and the frames counted at the last takeover. -/
structure PairRec where
  inPort : Nat := 0x1F
  lastIn : Nat := 0
  outPort : Nat := 0x1F
  lastAck : Nat := 0
  seqs : Option (Nat × Nat × Nat) := none
  bucket : Option Int := none
  upAck : Option Nat := none
  downIn : Option Nat := none
  est : Bool := false
  lost : Nat := 0
  deriving DecidableEq, Repr

/-- A mirrored CREDIT record (Table 9.4). -/
structure PairCredit where
  hub : Nat
  adv : List Nat
  out : List Nat
  deriving DecidableEq, Repr

/-- A handover in which this member gives: the group, when it began, and whether the HANDOVER operation waits for
it. -/
structure Giving where
  group : Nat
  since : Nat
  viaOp : Bool
  deriving DecidableEq, Repr

/-- What MIR holds besides its registers (R255–R268): the record table; the mirrored CREDIT records; whether
PAIR_SYNC has been sent over the present session of M, and the MIR_GROUP words of the partner's; when a heartbeat was last accepted and whether one was
since the last interval; the CTX_OP and GATE records that wait for a batch, the values last mirrored, the batch
number, the last one applied here and the one acknowledged, and the changes not yet sent (their oldest time);
the handovers given and taken (group and start), the groups that a running HANDOVER operation names; the
groups that a takeover is due for, whether it runs, its start, the neighbours whose last frame is in, whether every answer matched,
the partner's port state as its heartbeat brings it; the flows left without an entry; and the mirrored FCM operations that wait
(operation, handle, template words), with the template of the one that runs with SRC 4. -/
structure Mir where
  recs : Tab PairRec := []
  credits : Tab PairCredit := []
  syncTx : Bool := false
  partner : Option (List Word) := none
  noRec : List Nat := []
  ops : List (Nat × Nat × List Word) := []
  tmpl : List Word := []
  hbLast : Nat := 0
  hbSeen : Bool := false
  queue : List (MirRec × Nat) := []
  sent : List MirRec := []
  batch : Nat := 0
  applied : Nat := 0
  acked : Nat := 0
  shapeDue : Bool := false
  giving : List Giving := []
  taking : List (Nat × Nat) := []
  opGroups : Nat := 0
  opMoved : Nat := 0
  opFrom : Nat := 0
  lossAt : Nat := 0
  toTake : Nat := 0
  running : Bool := false
  counting : Bool := false
  noticed : Nat := 0
  finished : Nat := 0
  matched : Bool := true
  partnerUp : Nat := 0
  lostHub : Nat := 0
  deriving DecidableEq, Repr

/-- A line in a DisplayPort output's line FIFO (R302, R305): the flow that brought it, its header fields, and its pixels
as FORMAT packs them. A line that failed its check stays as a complete line without a picture (R307). -/
structure DpLine where
  flow : Nat
  vframe : Nat
  line : Nat
  width : Nat
  format : Nat
  sof : Bool
  eof : Bool
  bad : Bool
  stamp : Nat
  bytes : Nat
  pixels : List Byte
  deriving DecidableEq, Repr

/-- The unit that a DisplayPort output is reading from its queue cell by cell (R305): slot, flow, FSEQ, the cells still
to read, the bytes read, and whether a cell has failed. -/
structure DpUnit where
  slot : Nat
  flow : Nat
  fseq : Nat
  tmask : Nat
  cells : List Nat
  bytes : List Byte
  failed : Bool
  deriving DecidableEq, Repr

/-- The timing of the raster that runs (R306, R313, R316): it follows the registers in force at the next frame start; `cellClk` says that
the pixel clock, in kHz, follows cell time. -/
structure Timing where
  pclk : Nat := 0
  cellClk : Bool := false
  htot : Nat := 0
  hact : Nat := 0
  vact : Nat := 0
  vbmin : Nat := 0
  vbmax : Nat := 0
  deriving DecidableEq, Repr

/-- What the raster sends in its active area: blanking (between frames, and the rest of an aborted frame), a picture, the
fill colour, or nothing while the synthesiser moves or the retime lines go by (R306–R310, R316). -/
inductive DpPhase where
  | off | blank | picture (vframe : Nat) | fill | synth | retime
  deriving DecidableEq, Repr

/-- A LEAF output (R305–R317). `next` is the raster line that starts next; `ur` the lines counted in a row toward an
underrun; `slotLine` the input line whose slot comes next; `ends` the picture's EOF line once seen; `aborted` says
that an underrun cut the frame off; `dead` the picture whose later lines are discarded; `lost` that a trained link is
down; `pixFrom` when the pixel clock took its frequency, and `pix` the pixel periods of the lines begun since (R313). -/
structure DpOut where
  phase : DpPhase := .off
  tim : Timing := {}
  next : Nat := 0
  ur : Nat := 0
  slotLine : Nat := 0
  ends : Option Nat := none
  aborted : Bool := false
  dead : Option Nat := none
  fifo : List DpLine := []
  reading : Option DpUnit := none
  crc : List (BitVec 16) := [0, 0, 0]
  trained : Bool := false
  lost : Bool := false
  pixFrom : Nat := 0
  pix : Nat := 0
  deriving DecidableEq, Repr

/-- A ROOT input (R304): the number of the present picture, the next line of it, and its start. -/
structure DpIn where
  vframe : Option Nat := none
  line : Nat := 0
  stamp : Nat := 0
  lost : Bool := false
  deriving DecidableEq, Repr

/-- The display engine; `overlay` holds the rows of the two overlay banks, bank × 1,024 + row (R312). -/
structure Dse where
  outs : Tab DpOut := []
  ins : Tab DpIn := []
  overlay : Tab (List Byte) := []
  deriving DecidableEq, Repr

/-- A trigger schedule as its ARM took it (R331, R332), with the number of the next pulse. -/
structure TrigSched where
  start : Nat
  period : Nat
  width : Nat
  count : Nat
  k : Nat
  deriving DecidableEq, Repr

/-- A vision receiver (R328, R330, R331, R334): whether a picture is open, when the last one closed, when the last packet of its channel arrived, its next line and start time, the rise of the latest
pulse since the last ARM, the running schedule, the end of the latest pulse, whether it is active still, and the polarity that the last ARM took. -/
structure VinRx where
  isOpen : Bool := false
  closed : Nat := 0
  seen : Nat := 0
  line : Nat := 0
  stamp : Nat := 0
  rise : Option Nat := none
  sched : Option TrigSched := none
  pulseEnd : Option Nat := none
  active : Bool := false
  pol : Bool := false
  deriving DecidableEq, Repr

/-- An Ethernet port behind its registers: the slot of the frame sent last (R351). -/
structure EthPort where
  lastTx : Option Nat := none
  deriving DecidableEq, Repr

/-- A request that the bridge sends on its own PCIe link, or a completion toward a requester there: a memory write; a
memory read; a configuration read or write (Type 0 or 1); a completion with PCIe status (0 successful, 1 Unsupported
Request, 4 Completer Abort), data and the poisoned bit. -/
inductive Tlp where
  | memWr (addr : Nat) (fbe lbe : Nat) (data : List Byte)
  | memRd (tag addr len : Nat) (fbe lbe : Nat)
  | cfgRd (tag type addr : Nat) (be : Nat)
  | cfgWr (tag type addr : Nat) (be : Nat) (data : List Byte)
  | cpl (reqTag status : Nat) (poisoned : Bool) (data : List Byte)
  deriving DecidableEq, Repr

/-- A frame that has left the fabric at port P or at the USB port and waits for the block there: flow, FSEQ, bytes. -/
structure ExitFrame where
  flow : Nat
  fseq : Nat
  bytes : List Byte
  deriving DecidableEq, Repr

/-- A non-posted request of the bridge's own requester (R361): its window, the requester's tag, the frame kind it travels
as, its far address and length, the bytes still due, the bytes asked for beyond them, the cells still reserved
(R365), and when its record was taken. -/
structure PxPend where
  win : Nat
  reqTag : Nat
  kind : Nat
  addr : Nat
  len : Nat
  got : Nat
  ask : Nat
  extra : List Byte := []
  resv : Nat
  since : Nat
  deriving DecidableEq, Repr

/-- A request that a far bridge carries out for an initiator (R364, R368): the frame's fields, its parts (address and
length), how many have been issued and how many answered in order, and the results that wait for their turn. -/
structure PxFar where
  kind : Nat
  win : Nat
  tag : Nat
  src : Nat
  retN : Nat
  retP : Nat
  fbe : Nat
  lbe : Nat
  addr : Nat
  parts : List (Nat × Nat)
  data : List Byte
  issued : Nat := 0
  answered : Nat := 0
  results : List (Nat × Nat × List Byte) := []
  failed : Nat := 0
  deriving DecidableEq, Repr

/-- The prefetch buffer of a window (R373): the address of its first byte, the bytes, which of them were never served,
and when they were fetched. -/
structure PfBuf where
  addr : Nat
  data : List Byte
  unread : List Bool
  since : Nat
  deriving DecidableEq, Repr

/-- The PCIe bridge behind its registers: frames that have left the fabric at P; frames held for their mark, with their
arrival; frames stalled behind a full message queue; pending records; requests that wait for a record or for
completion room; requests that a non-posted write through their window holds back; the far requests and the next
number; prefetch buffers; whether PX_PF_FIRST holds an address; the messages that have entered the queue; Max Payload
Size; whether a running CFG_XFER waits for a tag; when each held tag was issued (R363); and BAR4_LOG2 as the last link training took it
(R376). -/
structure Pxb where
  inbox : List ExitFrame := []
  held : List (ExitFrame × Nat) := []
  stalled : List ExitFrame := []
  pend : Tab PxPend := []
  npWait : List (Nat × PcieReq) := []
  npwHeld : List (Nat × PcieReq) := []
  npwBy : Tab Nat := []
  far : Tab PxFar := []
  nextFar : Nat := 0
  pf : Tab PfBuf := []
  pfSet : Bool := false
  mqIn : Nat := 0
  mps : Nat := 128
  cfgWait : Bool := false
  tagAt : Tab Nat := []
  bar4 : Nat := 24
  deriving DecidableEq, Repr

/-- A record of a burst (Table 15.3). -/
structure UsbRec where
  type : Nat
  dev : Nat
  epdir : Nat
  status : Nat
  data : List Byte
  deriving DecidableEq, Repr

/-- A burst that awaits acknowledgement, or waits at admission (R389): its TSEQ and its bytes. -/
structure UsbBurst where
  tseq : Nat
  bytes : List Byte
  deriving DecidableEq, Repr

/-- A tunnel behind its registers (R388–R394): the sequence numbers of both directions, whether a NAK has been sent and an
acknowledgement is due, the unacknowledged bursts oldest first, whether the next burst is the first of its epoch, the records that wait for a burst, and
the records received and not yet carried out; `ackAt` when its ACK last advanced or its oldest burst was sent, `heardAt` when a burst
was last accepted or the suspension ended (monotonic time). -/
structure UsbTun where
  up : Bool := false
  suspended : Bool := false
  epoch : Nat := 0
  nextTx : Nat := 0
  nextRx : Nat := 0
  nakSent : Bool := false
  ackDue : Bool := false
  restart : Bool := false
  unacked : List UsbBurst := []
  waiting : List UsbRec := []
  arrived : List UsbRec := []
  ackAt : Nat := 0
  heardAt : Nat := 0
  deriving DecidableEq, Repr

/-- An endpoint's buffer and toggle (R384, R385): its transfer kind (0 control, 1 isochronous, 2 bulk, 3 interrupt), packet
size, blocks held, the packet in the buffer, whether it is a SETUP, a STALL in force, and the toggle on this side of the bus. -/
structure UsbEp where
  kind : Nat
  max : Nat
  blocks : Nat
  buf : Option (List Byte) := none
  setup : Bool := false
  stall : Bool := false
  toggle : Bool := false
  deriving DecidableEq, Repr

/-- A tracked device (R381): virtual port (at a LEAF, port), speed, its last SETUP and the data of its data stage, the
configuration descriptor last read, and whether the present request is refused in its status stage. -/
structure UsbDev where
  vport : Nat
  speed : Nat
  setup : List Byte := []
  stage : List Byte := []
  config : List Byte := []
  refused : Bool := false
  deriving DecidableEq, Repr

/-- A transaction of a port's translator (R387): device, endpoint, direction, transfer type, and the result (STATUS and
data) once it has arrived; `late`: it was answered without it. -/
structure UsbSplit where
  dev : Nat
  ep : Nat
  isIn : Bool
  type : Nat
  result : Option (Nat × List Byte) := none
  late : Bool := false
  deriving DecidableEq, Repr

/-- A port (R382, R391–R393): a LEAF socket drives resume K; at the ROOT, a host resume of the
virtual port runs, and the transactions of its translator; `kAt` when its K began, `resetAt` when its reset did. -/
structure UsbPort where
  driving : Bool := false
  resuming : Bool := false
  splits : List UsbSplit := []
  kAt : Nat := 0
  resetAt : Nat := 0
  deriving DecidableEq, Repr

/-- A message that waits for data of its tunnel to be delivered to the host (R397): KIND, WHICH, its data word, the tunnel, whether the
port had no change bit before, and what is undelivered of that which came before it. -/
structure UsbDue where
  kind : Nat
  which : Nat
  data : Word
  tunnel : Nat
  fresh : Bool
  waits : List Nat
  deriving DecidableEq, Repr

/-- The USB hub behind its registers. Devices by address; endpoints by device × 32 + endpoint × 2 + IN; `hubSetup` the hub
function's last SETUP, `hostK` that the ROOT drives remote-wake K on U0, `inbox` the bursts that have left the fabric,
`mq` the queued entries' keys, oldest first (R397), `mqIn` how many have entered, `mqDue` the messages that wait to enter, `frame` a
LEAF's frame number, `kAt` when the ROOT's own K on U0 began, `attachFrom` the instant before which U0 stays detached. -/
structure Usb where
  inbox : List ExitFrame := []
  tuns : Tab UsbTun := []
  devs : Tab UsbDev := []
  eps : Tab UsbEp := []
  ports : Tab UsbPort := []
  hubSetup : List Byte := []
  hostK : Bool := false
  mq : List Nat := []
  mqIn : Nat := 0
  mqDue : List UsbDue := []
  frame : Nat := 0
  kAt : Nat := 0
  attachFrom : Nat := 0
  deriving DecidableEq, Repr


/-- A power channel behind its registers (R404–R418). `theta` holds the three poles in 2^-40 of 1/256 °C (R411), `tfet` the FET
temperature in force in 1/256 °C; `timer` the fault timer's count; `fast` that a fast trip awaits its tick; then the counts in
ticks: gate under-drive, TEMP out of range, VIN out of its window, VIN back in it, since the trip, power-good, power-good
held, and presence; `inWin` is the window with its hysteresis, `sensorBad` an open or shorted sensor, `ctl` the bits of PC_CTRL that
wait for the next tick (R405). -/
structure PpcChan where
  theta : List Int := [0, 0, 0]
  tfet : Int := 0
  timer : Nat := 0
  fast : Bool := false
  underTicks : Nat := 0
  tempTicks : Nat := 0
  outTicks : Nat := 0
  inTicks : Nat := 0
  waitTicks : Nat := 0
  pgCount : Nat := 0
  pgHeld : Nat := 0
  detTicks : Nat := 0
  inWin : Bool := false
  sensorBad : Bool := false
  ctl : Nat := 0
  deriving DecidableEq, Repr

/-- The scheduler's state at a decision of a port, as Table 20.3 records it (R492). -/
structure PmcDec where
  time : Nat
  tc : Nat
  idle : Bool
  slot : Nat
  cdef : Int
  fdef : Int
  gates : Nat
  pending : Nat
  kitty : Nat
  pend : Nat
  deriving DecidableEq, Repr

/-- PMC behind its registers: counters (48 bits) and the holding words of PCn_HI; the words that a read latched; live and
frozen bins, 64 × h + b; each histogram's queue; a sampling counter's wrap that awaits its capture (counter, port,
decisions since) and the decision kept for each; the bytes of the running bandwidth window per port; the capture ring,
the addresses of bins and counters whose ECC failed (R495), and fabric cycles in units of 1/500. -/
structure Pmc where
  cnt : Tab Nat := []
  hold : Tab Word := []
  latch : Tab Word := []
  bins : Tab Nat := []
  frozen : Tab Nat := []
  queue : Tab (List Nat) := []
  capture : List (Nat × Nat × Nat) := []
  lastDec : Tab PmcDec := []
  bw : Tab Nat := []
  ring : Tab (List Word) := []
  bad : List Nat := []
  fc : Nat := 0
  deriving DecidableEq, Repr

/-- What SIT holds besides its registers (R476–R478): when the running cycle began, the logical bank that the next step copies,
a step that waits, a step that runs, the instances tested in the running cycle (target, instance), whether TEST_NOW waits
for the running bank step, when the last bank step fell due, and whether the cycle has been reported late. -/
structure Sit where
  start : Nat := 0
  next : Nat := 0
  due : Bool := false
  running : Bool := false
  tested : List (Nat × Nat) := []
  waits : Bool := false
  dueAt : Nat := 0
  late : Bool := false
  deriving DecidableEq, Repr

/-- SIT as a reset leaves it: the cycle begins then. -/
def Sit.fresh (now : Nat) : Sit := { start := now, dueAt := now }

/-- A remote access of STW that awaits its answer (R87–R89): the hub and address, whether it is a write, when it was sent, and
what waits for it: a PCIe read (its tag; unprivileged), a posted write, or word k of the running block operation. -/
inductive RemoteFor where
  | read (tag : Nat) (user : Bool)
  | write
  | block (k : Nat)
  deriving DecidableEq, Repr

/-- A remote access (R87–R90). -/
structure RemoteReq where
  hub : Nat
  addr : Nat
  write : Bool
  value : Word
  since : Nat
  use : RemoteFor
  deriving DecidableEq, Repr

/-- The remote window of STW (R86–R90): accesses in flight by tag, those that wait in order, and the running
block operation's count of words OK, first failure and words still to go. -/
structure Remote where
  tags : Tab RemoteReq := []
  waiting : List RemoteReq := []
  okWords : Nat := 0
  firstBad : Option Nat := none
  left : Nat := 0
  deriving DecidableEq, Repr

/-- What the hub sends out of itself: a cell on a link, as its header and data blocks; another block of a link (MAC, credit, IDLE, TIME); a BYE;
the FILLER rows of a wake; the copy of a logical lane that a spare sends (R112); a test pattern in place of a lane's data, as PATTERN,
user pattern and INJECT_RATE, or its end; an inverted bit of a lane (R108); a frame or a
packet at an edge port, words on a bus, the SMBus target's answer at the byte that decides a request (acknowledged or not), a PMBus
transaction to the core regulator at its address, with the PEC byte that a write carries, a TLP on the PCIe link, an active line of pixels (R, G, B) or a blanking line at a DisplayPort output, its MSA once a frame (HTOTAL, VTOTAL, HACTIVE, VACTIVE,
DO_HSYNC, DO_VSYNC; whether the Adaptive-Sync SDP goes with it), and the level of HPD at a DisplayPort input. -/
inductive Emit where
  | cell (port : Nat) (header data : List Byte)
  | block (port : Nat) (bytes : List Byte)
  | bye (port reason : Nat)
  | wake (port : Nat)
  | copy (spare port logical : Nat)
  | pattern (lane : Nat) (sent : Option (Nat × Word × Nat))
  | flip (lane : Nat)
  | frame (port : Nat) (bytes : List Byte)
  | steward (flow : Nat) (bytes : List Byte)
  | packet (port kind : Nat) (bytes : List Byte)
  | words (ws : List Word)
  | smbAck (ok : Bool)
  | pmbus (addr command : Nat) (data : List Byte) (pec : Option Byte)
  | tlp (t : Tlp)
  | line (port : Nat) (pixels : List (Nat × Nat × Nat))
  | blank (port : Nat)
  | msa (port : Nat) (fields : List Nat) (sdp : Bool)
  | hpd (port : Nat) (level : Bool)
  deriving DecidableEq, Repr

/-- The hub. `regs` holds each register's value in force, `pend` the shadow writes that no commit has
applied yet (R73), `wide` the live 64-bit values behind latched LO/HI pairs, `free` the count of values
that the spec leaves open drawn so far (the model's own field), `out` what the last command sent out of the hub, in
order. -/
structure Hub where
  straps : Straps
  regs : Tab Word := []
  pend : Tab Word := []
  wide : Tab Nat := []
  hdrs : PerBlock Hdr
  mh : Masthead := {}
  olog : Olog := {}
  arbs : Tab Arb := []
  time : TimeBase := {}
  power : Power := {}
  pins : Pins := {}
  lanes : Tab LaneSt := []
  repair : Option LaneRepair := none
  auto : AutoRepair := {}
  repairMap : List RepairRec := []
  cells : Tab CellSt := []
  counts : Holders := {}
  opens : List OpenFrame := []
  foyers : Tab (List FoyFrame) := []
  waits : List WaitFrame := []
  ctxs : Tab Ctx := []
  paging : Paging := {}
  banks : Banks := {}
  links : Tab LinkSt := []
  xfer : TimeXfer := {}
  fts : Tab FlowTgt := []
  tports : Tab TssPort := []
  pageq : List PageReq := []
  tags : Tab TagUse := []
  ksi : Ksi := {}
  mir : Mir := {}
  dse : Dse := {}
  vin : Tab VinRx := []
  eth : Tab EthPort := []
  pxb : Pxb := {}
  usb : Usb := {}
  ppc : Tab PpcChan := []
  pmc : Pmc := {}
  sit : Sit := {}
  remote : Remote := {}
  free : Nat := 0
  out : List Emit := []
  deriving DecidableEq, Repr

/-- The machine: the queue of waiting commands, first in first out, and the hub. -/
structure State where
  pending : List Instr := []
  hub : Hub
  deriving DecidableEq, Repr

/-- The number of fault sources of a block (Table 19.4). -/
def sourceCount : Block → Nat
  | .stw | .vin | .eth | .usb | .ksi => 4
  | .pmc => 2
  | .kll => 6
  | .tsc | .ppc | .pmu | .sit => 7
  | .lnx | .mir | .fcm | .dse | .pxb => 5
  | .tss => 4

/-- The header of a block after reset: ENABLE reads 0 where the role leaves the block out (R12). (Log entry 14, DEDUCED.) -/
def Hdr.reset (st : Straps) (b : Block) : Hdr :=
  { enable := st.present b, flt := List.replicate (sourceCount b) {} }

/-- The hub when its main die has just left reset after POR (R45, Table 2.5): every register at its reset
value, no cell in use, nothing pending. -/
def Hub.reset (st : Straps) : Hub := { straps := st, hdrs := PerBlock.of (Hdr.reset st) }

/-- The machine right after reset: no command waits, and the strap balls are left open, which their pull
resistors sample as 0 (DESIGN CHOICE): ROOT, side A, compact profile, QSPI boot. (Log entry 5, DESIGN CHOICE.) -/
def State.reset : State := { hub := Hub.reset {} }

end Sys2Proof.Machine
end

