-- ==== Sys2Proof/Machine/Ports.lean ====
section
/-! DEFINITION. Port codes (Tables 0.2, 4.4 and 6.4), the default lane map (R98, Table 4.3), references
(Table 4.1) and when a port is down (R100). -/

namespace Sys2Proof.Machine

/-- The port of a code is present in the role (Table 0.2): 0x00–0x08 T, D, M; 0x09–0x0C E; 0x0D P; 0x0E, 0x0F
DP; 0x10 USB; 0x11 the steward; 0x12–0x15 cameras. With a strap error no port operates. (Log entry 42, DESIGN CHOICE.) -/
def portPresent (st : Straps) (c : Nat) : Bool :=
  if c = 0x11 then true
  else if st.err then false
  else if c ≤ 7 then true
  else if c = 8 then decide (st.role ≠ .leaf)
  else if c ≤ 0x0C then true
  else if c ≤ 0x10 then decide (st.role ≠ .transit)
  else if c ≤ 0x15 then decide (st.role = .leaf)
  else false

/-- The reference of a lane: 0 A, 1 B, 2 C, 3 D (Table 4.1). -/
def laneRef (l : Nat) : Nat := if l < 8 then 0 else if l < 20 then 1 else if l < 28 then 2 else 3

/-- The first lane and the width that Table 4.3 gives a port. -/
def defaultLanes (c : Nat) : Nat × Nat :=
  if c ≤ 1 then (4 * c, 4)
  else if c ≤ 8 then (8 + 2 * (c - 2), 2)
  else if c ≤ 0x0C then (22 + (c - 9), 1)
  else if c ≤ 0x0F then (26 + 4 * (c - 0x0D), 4)
  else (0, 0)

/-- The lanes of a port in the default map; none where the port is absent (R98). -/
def defaultMap (st : Straps) (c : Nat) : List Nat :=
  if portPresent st c then (List.range (defaultLanes c).2).map fun i => (defaultLanes c).1 + i else []

/-- The LNX_PORT_MAP word of a list of lanes (Table 4.10). -/
def portMapWord (ls : List Nat) : Nat :=
  ls.getD 0 0x3F + 0x40 * ls.getD 1 0x3F + 0x1000 * ls.getD 2 0x3F + 0x40000 * ls.getD 3 0x3F
    + 0x1000000 * ls.length
    + 0x8000000 * b2n (ls.any fun l => ls.any fun k => l < 40 ∧ k < 40 ∧ laneRef l ≠ laneRef k)

/-- The port code and logical lane that the default map gives a lane. -/
def defaultHome (st : Straps) (l : Nat) : Nat × Nat :=
  match (List.range 16).find? fun c => (defaultMap st c).contains l with
  | some c => (c, l - (defaultLanes c).1)
  | none => (0x1F, 0)

end Sys2Proof.Machine
end

