-- ==== Sys2Proof/Machine/Ops.lean ====
section
/-! DEFINITION. The named operations that every command uses: registers (R9–R12, R73), attention and fault
events (R71, R72, R465–R473), and `settle`, which closes each command as one steward cycle: POLL_SEQ, the
order-log FIFOs, the masthead (R71, R83, R84, R283). -/

namespace Sys2Proof.Machine

/-- What a command answers. -/
abbrev Answer := Host.Outcome State Fault Refusal

/-! ### Reset values (the register tables; R1, R42, R467) -/

/-- Reset values that depend on the straps, or on the number `k` of the register in its run (the `sp` column
of the register map). -/
def specialReset (st : Straps) (sp k : Nat) : Nat :=
  match sp with
  | 1 => st.roleWord.toNat
  | 2 => if st.role = .root then 0x00010A04 else 0x00010A05
  | 3 => b2n st.profile
  | 4 => if k = 38 then 0x01C else if k = 39 then 0x03C else 0x3EC
  | 5 => portMapWord (defaultMap st k)
  | 6 => (defaultHome st k).1 + 32 * (defaultHome st k).2
  | 9 => if st.role = .root then 0 else 0x3F
  | 10 => if st.role = .root then 0x1F else 0
  | 11 => if st.role = .leaf then 0x6E else 0x2E
  | 12 => (List.range 5).foldl (fun a i => if 5 * k + i < 32 then a + (5 * k + i) * 64 ^ i else a) 0
  | 13 => if k % 8 = 6 then 0x40 else 0x200
  | 14 => if k ≤ 8 then 0x10 else if 9 ≤ k ∧ k ≤ 0x0C then 0x14 else 0
  | 15 => if k ≤ 8 then 96 else 0
  | _ => 0

/-- The arbiters of a block (Table 10.1): requester counts and reset bases, by k. -/
def arbList : Block → List (List Nat)
  | .stw => [[12, 8, 8, 4, 4], List.replicate 17 8]
  | .pmc => [[12, 8, 4]]
  | .kll => List.replicate 9 [8, 12, 10, 6, 6]
  | .fcm => [[10, 10, 6, 8]]
  | .dse => [[8, 14, 14, 10, 2]]
  | .eth => [[10, 10, 10, 10, 2]]
  | .pxb => [[8, 8, 10, 4]]
  | .usb => [[12, 8, 4]]
  | .pmu => [[14, 8, 4]]
  | .ksi => [[10, 8, 8, 0]]
  | _ => []

/-- The reset bases of arbiter k of a block; none where Table 10.1 lists no such arbiter. -/
def arbBases (b : Block) (k : Nat) : Option (List Nat) := (arbList b)[k]?

/-- Word `w` of a list of four-bit values, eight to a word (R282). -/
def nibbleWord (l : List Nat) (w : Nat) : Nat :=
  (List.range 8).foldl (fun a i => a + (l.getD (8 * w + i) 0 % 16) * 16 ^ i) 0

/-- The fault sources of a block: reset SEV, fixed (R470), and live condition (Table 19.4). -/
def fltCatalogue : Block → List (Nat × Bool × Bool)
  | .stw => [(2, false, true), (3, true, false), (2, false, false), (1, false, false)]
  | .pmc => [(0, false, false), (0, false, false)]
  | .lnx => [(2, false, true), (2, false, true), (1, false, false), (0, false, true), (1, false, false)]
  | .kll => [(0, false, false), (1, false, false), (2, false, false), (2, false, false), (1, false, false),
      (2, false, false)]
  | .mir => [(3, false, true), (2, false, true), (1, false, false), (2, false, false), (2, false, false)]
  | .tsc => [(3, true, false), (3, true, true), (1, false, false), (1, false, false), (2, false, false),
      (1, false, true), (2, false, false)]
  | .tss => [(2, false, false), (0, false, false), (2, false, false), (2, false, false)]
  | .fcm => [(1, false, false), (2, false, true), (1, false, false), (1, false, false), (2, false, false)]
  | .dse => [(1, false, false), (1, false, true), (1, false, false), (1, false, false), (0, false, false)]
  | .vin => [(0, false, false), (0, false, false), (0, false, false), (1, false, false)]
  | .eth => [(1, false, true), (0, false, false), (1, false, false), (2, false, false)]
  | .pxb => [(1, false, false), (1, false, false), (2, false, true), (1, false, false), (2, false, false)]
  | .usb => [(1, false, true), (1, false, true), (1, false, false), (1, false, false)]
  | .ppc => [(2, false, false), (2, false, false), (2, false, false), (2, false, false), (3, false, true),
      (1, false, true), (2, false, false)]
  | .pmu => [(3, true, false), (3, true, false), (3, false, true), (2, false, false), (1, false, false),
      (2, false, false), (2, false, false)]
  | .ksi => [(3, true, true), (1, false, false), (2, false, true), (1, false, true)]
  | .sit => [(1, false, false), (1, false, false), (2, false, false), (2, false, false), (0, false, false),
      (2, false, false), (1, false, true)]

/-- The number of fault sources of a block. -/
def nSources (b : Block) : Nat := (fltCatalogue b).length

/-- The source is fixed at severe (R470). -/
def fltFixed (b : Block) (i : Nat) : Bool := ((fltCatalogue b).getD i (0, false, false)).2.1

/-- The reset SEV of a source (Table 19.4). -/
def fltSev (b : Block) (i : Nat) : Nat := ((fltCatalogue b).getD i (0, false, false)).1

/-- The row of an address, fault pages and arbiter pages included (R64, R282, R466). -/
def rowOf (b : Block) (pg off : Nat) : Option RegRow :=
  if pg = 0xFE then
    if off % 16 = 0 ∧ off / 16 < nSources b then
      some ⟨0xFE, 1, 1, off, 1, 4, 0x000FA040 + fltSev b (off / 16), 0,
        if fltFixed b (off / 16) then 0xFFFFFFFC else 0xFFFFFFFF, 0, 0,
        if fltFixed b (off / 16) then 3 else 0⟩
    else none
  else if pg = 0xFF then
    if off = 0 then some ⟨0xFF, 1, 1, 0, 1, 4, 0x3E8, 0, 0x3FFFFF, 0, 0, 0⟩ else none
  else if pg = 0xFD then
    match arbBases b (off / 0x100) with
    | none => none
    | some bs =>
      let o := off % 0x100
      if o = 0x08 ∨ o = 0x0C ∨ o = 0x34 then some ⟨0xFD, 1, 1, off, 1, 4, 0, 0, 0, 0, 0, 0xFFFFFFFF⟩
      else if o = 0x30 then some ⟨0xFD, 1, 1, off, 1, 4, 0, 0, 0, 0, 0, 0x00001FFF⟩
      else if 0x10 ≤ o ∧ o ≤ 0x1C ∧ o % 4 = 0 then
        let w := (o - 0x10) / 4
        some ⟨0xFD, 1, 1, off, 1, 4, nibbleWord bs w, 0,
          nibbleWord (List.replicate bs.length 15) w, 0, 0, 0⟩
      else none
  else rowAt b pg off

/-- The register row of an absolute address. -/
def rowAddr (a : Nat) : Option (Block × RegRow) :=
  match Block.at a with
  | none => none
  | some b => (rowOf b (a % 0x100000 / 0x1000) (a % 0x1000)).map (fun r => (b, r))

/-- The number of a register within its row's run: page first, then offset. -/
def RegRow.nth (r : RegRow) (pg off : Nat) : Nat := ((pg - r.pg) / r.pst) * r.n + (off - r.off) / r.st

/-- The reset value of the register at an address (0 where no register is listed). -/
def regReset (st : Straps) (a : Nat) : Word :=
  match rowAddr a with
  | none => 0
  | some (_, r) =>
    if r.sp = 0 then w32 r.reset
    else w32 (specialReset st r.sp (r.nth (a % 0x100000 / 0x1000) (a % 0x1000)))

/-! ### Registers -/

/-- The value in force of the register at an address. -/
def Hub.rd (h : Hub) (a : Nat) : Word := Tab.get (regReset h.straps) h.regs a

/-- Put a value in force. -/
def Hub.wr (h : Hub) (a : Nat) (v : Word) : Hub := { h with regs := Tab.set (regReset h.straps) h.regs a v }

/-- A field of the register at an address, in force. -/
def Hub.rdF (h : Hub) (a hi lo : Nat) : Nat := fld (h.rd a) hi lo

/-- A bit of the register at an address, in force. -/
def Hub.rdB (h : Hub) (a i : Nat) : Bool := bit (h.rd a) i

/-- Put a field of a register in force. -/
def Hub.wrF (h : Hub) (a hi lo v : Nat) : Hub := h.wr a (setFld (h.rd a) hi lo v)

/-- Put a bit of a register in force. -/
def Hub.wrB (h : Hub) (a i : Nat) (v : Bool) : Hub := h.wr a (setBit (h.rd a) i v)

/-- Advance a 32-bit counter register that holds at its maximum. -/
def Hub.inc (h : Hub) (a : Nat) (k : Nat := 1) : Hub := h.wr a (incHold (h.rd a) k)

/-- Advance a 32-bit counter register that wraps. -/
def Hub.incW (h : Hub) (a : Nat) (k : Nat := 1) : Hub := h.wr a (incWrap (h.rd a) k)

/-- Advance a counter field that holds at its maximum. -/
def Hub.incF (h : Hub) (a hi lo : Nat) (k : Nat := 1) : Hub :=
  h.wrF a hi lo (holdAt (2 ^ (hi + 1 - lo) - 1) (h.rdF a hi lo + k))

/-- Advance a counter field that wraps. -/
def Hub.incFW (h : Hub) (a hi lo : Nat) (k : Nat := 1) : Hub := h.wrF a hi lo (h.rdF a hi lo + k)

/-- Raise a register to at least `v`. -/
def Hub.maxR (h : Hub) (a : Nat) (v : Nat) : Hub := h.wr a (w32 (max (h.rd a).toNat v))

/-- Raise a field to at least `v`. -/
def Hub.maxF (h : Hub) (a hi lo v : Nat) : Hub := h.wrF a hi lo (max (h.rdF a hi lo) v)

/-- The shadow of the register at an address: the pending write, or the value in force (R73). -/
def Hub.shadow (h : Hub) (a : Nat) : Word := (Tab.find h.pend a).getD (h.rd a)

/-- Write a shadow. -/
def Hub.wrShadow (h : Hub) (a : Nat) (v : Word) : Hub := { h with pend := Tab.put h.pend a v }

/-- A live 64-bit value behind a latched LO/HI pair, keyed by its LO address. -/
def Hub.rdWide (h : Hub) (a : Nat) : Nat := Tab.get (fun _ => 0) h.wide a

/-- Set a live 64-bit value behind a latched LO/HI pair. -/
def Hub.wrWide (h : Hub) (a v : Nat) : Hub :=
  { h with wide := Tab.set (fun _ => 0) h.wide a (v % 2 ^ 64) }

/-- A fold over a list of updates, in order. -/
def Hub.forEach {α : Type} (l : List α) (f : Hub → α → Hub) (h : Hub) : Hub := l.foldl f h

/-- The next value that the spec leaves open, and the hub with the model's counter advanced. (Log entry 6, DESIGN CHOICE.) -/
def Hub.draw (h : Hub) : Word × Hub := (Config.freeWord h.free, { h with free := h.free + 1 })

/-! ### Presence and liveness -/

/-- The role of the hub. -/
def Hub.role (h : Hub) : Role := h.straps.role

/-- The block operates in the hub's role (R3, R12). -/
def Hub.present (h : Hub) (b : Block) : Bool := h.straps.present b

/-- The main die runs: released from reset and powered (R45, Table 17.1). -/
def Hub.mainUp (h : Hub) : Bool :=
  decide (h.power.phase = .running) && decide (h.power.state = .run ∨ h.power.state = .doze)

/-- The custody die runs: POR released (R45). -/
def Hub.custodyUp (h : Hub) : Bool := decide (h.power.phase ≠ .por) && decide (h.power.state ≠ .off)

/-- The logic of a block runs and the block operates in the role. -/
def Hub.up (h : Hub) (b : Block) : Bool :=
  h.present b && (if b.custody then h.custodyUp else h.mainUp)

/-- Page 0 of the block answers: its die runs (R45; absent blocks answer too, R12). -/
def Hub.answers (h : Hub) (b : Block) : Bool := if b.custody then h.custodyUp else h.mainUp

/-! ### Contexts and keep-awake (R23, R26) -/

/-- A slot right after the release of the main die: the nine link-port contexts of R191, the others FREE. -/
def ctxReset (s : Nat) : Ctx :=
  if s < 9 then { state := .resident, tc := 6, pin := true, port := s, ceil := 0xFFFFF } else {}

/-- The context in a slot. -/
def Hub.ctx (h : Hub) (s : Nat) : Ctx := Tab.get ctxReset h.ctxs s

/-- The `n` lowest ones of a mask (R171). -/
def lowestOnes (m n : Nat) : Nat := ((onesOf m 18).take n).foldl (fun a i => a + 2 ^ i) 0

/-- The TARGETS mask in force of a group (Table 6.9). -/
def Hub.groupMask (h : Hub) (g : Nat) : Nat := h.rdF (Reg.TSC_GROUP (g / 1024) (g % 1024)) 17 0

/-- The targets of the flow in a slot: its port, or the 16 lowest targets of its group (R171). -/
def Hub.targets (h : Hub) (s : Nat) : Nat :=
  let c := h.ctx s
  if c.mcast then lowestOnes (h.groupMask c.group) 16 else if c.port < 18 then 2 ^ c.port else 0

/-- MIR_CFG.EN in force in a hub that can pair (R5, R255). -/
def Hub.mirEn (h : Hub) : Bool := h.present .mir && h.rdB Reg.MIR_CFG 0

/-- The keep-awake marks by port code (R23): a gate list is in force on the port, a pinned TC7 flow enters or leaves by it, or
it is M with MIR enabled. -/
def Hub.keepMask (h : Hub) : Nat :=
  let lists := (List.range 18).foldl (fun m t => if h.rdB (Reg.TS_GCTL t) 5 then m ||| 2 ^ t else m) 0
  let flows := h.ctxs.foldl (fun m e =>
    if e.2.state = .resident ∧ e.2.pin ∧ e.2.tc = 7 then m ||| e.2.inmask ||| h.targets e.1 else m) 0
  (lists ||| flows ||| (if h.mirEn then 256 else 0)) % 2 ^ 22

/-- The port is keep-awake. -/
def Hub.keepAwake (h : Hub) (p : Nat) : Bool := h.keepMask.testBit p

/-- Any port is keep-awake. -/
def Hub.anyAwake (h : Hub) : Bool := decide (h.keepMask ≠ 0)

/-- PMU_KEEPAWAKE (Table 1.6). -/
def Hub.keepWord (h : Hub) : Word :=
  w32 (h.keepMask + 2 ^ 30 * b2n (h.rdB Reg.PMU_DVFS 5) + 2 ^ 31 * b2n h.anyAwake)

/-! ### Headers: attention and fault events -/

/-- The header of a block. -/
def Hub.hdr (h : Hub) (b : Block) : Hdr := h.hdrs.get b

/-- Replace the header of a block. -/
def Hub.setHdr (h : Hub) (b : Block) (x : Hdr) : Hub := { h with hdrs := h.hdrs.set b x }

/-- Change the header of a block. -/
def Hub.updHdr (h : Hub) (b : Block) (f : Hdr → Hdr) : Hub := h.setHdr b (f (h.hdr b))

/-- Set bit `i` of ATTN_RAW (R71). -/
def Hub.attn (h : Hub) (b : Block) (i : Nat) : Hub :=
  h.updHdr b fun x => { x with attnRaw := x.attnRaw ||| bitW i }

/-- An armed commit has missed a window in instance `i` (R76). -/
def Hdr.miss (x : Hdr) (i : Nat) : Hdr := { x with overdue := i :: x.overdue.erase i }

/-- RATE = F + P, in 0.001 ppm (R288). -/
def TimeBase.rate (t : TimeBase) : Int := t.f + t.p

/-- A steward cycle in cell time, 2 ns × (1 + RATE), in 2^-32 ns (R288). -/
def TimeBase.cycle (t : TimeBase) : Nat := (2 * 2 ^ 32 + (2 * 2 ^ 32 * t.rate) / 1000000000 : Int).toNat

/-- The last steward cycle took cell time to a multiple of n ns or past it. -/
def TimeBase.reached (t : TimeBase) (n : Nat) : Bool :=
  decide (t.ns % n < (t.cycle + (2 ^ 32 * 4 + t.frac - t.cycle) % 2 ^ 32) / 2 ^ 32)

/-- Cell time, in whole nanoseconds. -/
def Hub.now (h : Hub) : Nat := h.time.ns

/-- Cell time in 1/16 ns. -/
def Hub.stamp16 (h : Hub) : Nat := h.time.ns * 16 + h.time.frac / 2 ^ 28

/-- Nanoseconds gone by since POR: what intervals are measured by, so that a step of cell time (R290) changes none. -/
def Hub.mono (h : Hub) : Nat := h.time.up

/-- The profile in force: false compact, true backbone (R467). -/
def Hub.profile (h : Hub) : Bool := h.rdB Reg.SIT_PROFILE 0

/-- The address of FS_CFG of source i of a block (Table 19.1). -/
def fsCfg (b : Block) (i : Nat) : Nat := b.base + 0xFE000 + 16 * i

/-- The address of FLT_QUIET of a block (Table 19.3). -/
def fltQuiet (b : Block) : Nat := b.base + 0xFF000

/-- The compact threshold N of a source: 0 acts as 1, and a fixed source acts as 1 (Table 19.2). -/
def Hub.fltN (h : Hub) (b : Block) (i : Nat) : Nat :=
  if fltFixed b i then 1 else max 1 (h.rdF (fsCfg b i) 9 2)

/-- The compact window W of a source in ms (Table 19.2). -/
def Hub.fltW (h : Hub) (b : Block) (i : Nat) : Nat := clampN 1 3600000 (h.rdF (fsCfg b i) 31 10)

/-- The highest classification in force among a block's sources (R471). -/
def fltLevel (l : List FltSrc) : Nat := l.foldl (fun a x => max a x.cls) 0

/-- FLT_CLASS.LEVEL. -/
def Hdr.level (x : Hdr) : Nat := fltLevel x.flt

/-- FLT_CLASS.SOURCE: the lowest source at LEVEL (R72). -/
def Hdr.source (x : Hdr) : Nat :=
  if x.level = 0 then 0 else x.flt.findIdx (fun y => y.cls = x.level)

/-- A pulse on FAULT_N starts or is extended (R473): its end is the later of the end already due and now plus
WIDTH, SIT_FAULTN_CNT advances and FAULTN_PULSE is set. -/
def Hub.faultPulse (h : Hub) : Hub :=
  let fin := h.mono + 1000 * clampN 10 10000 (h.rdF Reg.SIT_FAULTN 29 16)
  let h := { h with pins := { h.pins with faultPulse := some (max fin (h.pins.faultPulse.getD 0)) } }
  (h.inc Reg.SIT_FAULTN_CNT).attn .sit 5

/-- The compact window of a source ends at an instant, in steps of 1 ms: W ms after it was opened (R468). -/
def FltSrc.winOver (x : FltSrc) (w now : Nat) : Bool := decide (x.winFrom / 1000000 + w ≤ now / 1000000)

/-- How one event classifies its source (R468–R470): in the compact profile by count against N in a window of W ms, in the backbone
profile at SEV unless a higher class is in force. A window that ends in the event's step closes first. -/
def FltSrc.event (x : FltSrc) (backbone fixed : Bool) (n w now sev : Nat) : FltSrc :=
  let k := if x.winOver w now then 0 else x.win
  if backbone then { x with count := incHold x.count, cls := max x.cls (if fixed then 3 else sev) }
  else if n ≤ k + 1 then { x with count := incHold x.count, cls := 3, win := 0 }
  else { x with count := incHold x.count, win := k + 1, winFrom := if k = 0 then now else x.winFrom }

/-- An event of fault source `i` of block `b` (R465): sticky bit with FLT_NEW, count, classification, fault
state, quiet period restarted (R472), and a FAULT_N pulse when the source becomes severe (R473). -/
def Hub.fault (h : Hub) (b : Block) (i : Nat) : Hub :=
  let x := h.hdr b
  let old := atD x.flt i {}
  let new := old.event h.profile (fltFixed b i) (h.fltN b i) (h.fltW b i) h.mono (h.rdF (fsCfg b i) 1 0)
  let flt := putAt x.flt i new
  let x' := { x with
    sticky := x.sticky ||| bitW i
    attnRaw := if bit x.sticky i then x.attnRaw else x.attnRaw ||| bitW 28
    flt := flt
    inFault := x.inFault || decide (fltLevel flt ≠ 0)
    quietFrom := h.mono }
  let h' := h.setHdr b x'
  if old.cls < 3 ∧ new.cls = 3 then h'.faultPulse else h'

/-- Set or clear the live bit of a fault source (R465). -/
def Hub.setLive (h : Hub) (b : Block) (i : Nat) (v : Bool) : Hub :=
  h.updHdr b fun x => { x with live := setBit x.live i v, quietFrom := if bit x.live i && !v then h.mono else x.quietFrom }

/-- A live bit of a source whose classification is in force (R472). -/
def Hdr.heldLive (x : Hdr) : Bool :=
  (List.range x.flt.length).any (fun i => bit x.live i && decide ((atD x.flt i {}).cls ≠ 0))

/-- The block leaves its fault state (R472): classifications and WIN_COUNTs to 0, FLT_RECOVERY advances. -/
def Hdr.leaveFault (x : Hdr) : Hdr :=
  { x with
    flt := x.flt.map fun y => { y with cls := 0, win := 0 }
    inFault := false
    recovery := incHold x.recovery }

/-! ### The end of a command: one steward cycle -/

/-- FLT_CLASS.LEVEL with IN_FAULT, as the CLASS record carries them (Table 10.4). -/
def Hdr.classInfo (x : Hdr) : Nat := x.level + 4 * b2n x.inFault

/-- The records that a change of a block's header hands STW, in the order FAULT, CLASS, RECOVERED, ATTN, each
in ascending bit order (R283). `logAttn` is the block's bit of STW_OLOG_ATTN. -/
def hdrRecords (logAttn : Bool) (o n : Hdr) : List EvRec :=
  ((onesOf (n.sticky &&& ~~~o.sticky).toNat).map fun i => ⟨1, i, 0⟩)
  ++ (if n.classInfo ≠ o.classInfo then [⟨2, n.source, n.classInfo⟩] else [])
  ++ (if n.recovery ≠ o.recovery ∨ (o.inFault && !n.inFault && n.recovery == 0xFFFFFFFF) then [⟨3, 0, n.recovery.toNat % 0x10000⟩] else [])
  ++ (if logAttn then (onesOf (n.attnRaw &&& ~~~o.attnRaw &&& n.attnEn).toNat).map fun i => ⟨0, i, 0⟩ else [])

/-- Enter records into a block's FIFO of 16 (R283): first, if records were lost and a place is free, a LOST
record; then each record, counted as lost when the FIFO is full. -/
def EvFifo.enter (q : EvFifo) (rs : List EvRec) : EvFifo :=
  let q := if q.lost ≠ 0 ∧ q.recs.length < 16 then
      { recs := q.recs ++ [⟨6, 0, holdAt 0xFFFF q.lost⟩], lost := 0 } else q
  rs.foldl (fun q r => if q.recs.length < 16 then { q with recs := q.recs ++ [r] }
    else { q with lost := q.lost + 1 }) q

/-- The bits of a block that move POLL_SEQ (R71). -/
def Hdr.pollKey (x : Hdr) : Word × Word × Word := (x.attnRaw, x.sticky, x.live)

/-- What a block's header shows in the masthead (Table 3.11): attention, fault, live, severe. -/
def Hdr.summary (x : Hdr) : Bool × Bool × Bool × Bool :=
  (decide (x.attnRaw &&& x.attnEn ≠ 0), decide (x.sticky ≠ 0), decide (x.live ≠ 0),
    x.inFault && decide (x.level = 3))

/-- Messages held in a block's in-band queue (R85): PXB's (R366) and USB's (R397). -/
def Hub.msgLen (h : Hub) (b : Block) : Nat :=
  match b with
  | .pxb => h.rdF Reg.PX_MQ_STAT 24 16
  | .usb => h.usb.mq.length
  | _ => 0

/-- Messages that have entered a block's in-band queue. -/
def Hub.msgIn (h : Hub) (b : Block) : Nat :=
  match b with
  | .pxb => h.pxb.mqIn
  | .usb => h.usb.mqIn
  | _ => 0

/-- A block's header after a command (R71, Table 3.3): POLL_SEQ advances by 1 if a bit of ATTN_RAW, FLT_STICKY
or FLT_LIVE changed, a message entered the block's queue or the queue became empty; ENABLE is 0 in an absent
block. -/
def settleHdr (o n : Hub) (b : Block) : Hdr :=
  let x := n.hdr b
  { x with
    pollSeq :=
      if (o.hdr b).pollKey ≠ x.pollKey ∨ o.msgIn b ≠ n.msgIn b ∨ (o.msgLen b ≠ 0 ∧ n.msgLen b = 0) then
        incWrap x.pollSeq
      else x.pollSeq
    enable := x.enable && n.present b }

/-- The masthead's summary of one block. -/
def Hub.summary (h : Hub) (b : Block) : (Bool × Bool × Bool × Bool) × Bool :=
  ((h.hdr b).summary, decide (h.msgLen b ≠ 0))

/-- One block moved the masthead: a summary bit or its POLL_SEQ changed (R84). -/
def mhMoved (o n : Hub) (x : PerBlock Hdr) (b : Block) : Bool :=
  decide (o.summary b ≠ n.summary b) || decide ((x.get b).pollSeq ≠ (o.hdr b).pollSeq)

/-- The block FIFOs of the order log after a command; emptied while STW_OLOG_CFG.EN is 0 (Table 10.8). -/
def settleFifo (o n : Hub) (b : Block) : EvFifo :=
  if n.rdB Reg.STW_OLOG_CFG 0 then
    (n.olog.fifos.get b).enter (hdrRecords (n.rdB Reg.STW_OLOG_ATTN b.idx) (o.hdr b) (n.hdr b))
  else {}

/-- The headers after a command. -/
def settleHdrs (o n : Hub) : PerBlock Hdr := PerBlock.of (settleHdr o n)

/-- The order log after a command; kept as it is while the main die does not run. -/
def settleOlog (o n : Hub) : Olog :=
  if n.mainUp then { n.olog with fifos := PerBlock.of (settleFifo o n) } else n.olog

/-- The masthead after a command: MH_SEQ advances by exactly 1 if any block moved it (R84). -/
def settleMh (o n : Hub) : Masthead :=
  if n.mainUp && Block.all.any (mhMoved o n (settleHdrs o n)) then
    { seq := incWrap n.mh.seq, time := n.now }
  else n.mh

/-- PMU's KEEPAWAKE attention: PMU_KEEPAWAKE changed (Table 17.12). -/
def keepNote (o n : Hub) : Hub := if o.keepWord = n.keepWord then n else n.attn .pmu 4

/-- The end of a command, as one steward cycle: headers, order-log FIFOs and masthead. While the main die
does not run, STW keeps neither log nor masthead. (Log entry 2, DESIGN CHOICE.) -/
def settle (o n : Hub) : Hub :=
  let n := keepNote o n
  { n with hdrs := settleHdrs o n, olog := settleOlog o n, mh := settleMh o n }

/-- The hub at the start of a command: nothing sent out yet. -/
def Hub.fresh (h : Hub) : Hub := { h with out := [] }

/-- Answer a command: its effect `f` where `c` holds of the hub, closed by `settle`, with `out` begun anew; where `c` does not hold
the event the command names is not due and nothing changes. (Log entry 4, DESIGN CHOICE.) -/
def act (s : State) (c : Bool) (f : Hub → Hub) : Answer :=
  .next { s with hub := if c then settle s.hub (f s.hub.fresh) else s.hub }

/-- The port code that holds a lane, 0x1F for none (LN_STAT.PORT). -/
def Hub.lanePort (h : Hub) (l : Nat) : Nat := h.rdF (Reg.LN_STAT l) 4 0

/-- A word of LNX_PORT_MAP as its logical lanes, 0x3F for one that has no physical lane. -/
def mapLanes (w : Word) : List Nat := (List.range (fld w 26 24)).map fun i => fld w (6 * i + 5) (6 * i)

/-- The logical lanes of a port. -/
def Hub.portMap (h : Hub) (c : Nat) : List Nat := mapLanes (h.rd (Reg.LNX_PORT_MAP c))

/-- The lanes of a port, lowest logical lane first. -/
def Hub.portLanes (h : Hub) (c : Nat) : List Nat := (h.portMap c).filter fun l => l < 40

/-- What a lane sends is not its port's data (R108, R109): a test pattern, a far-end or near-end parallel loop, or a near-end serial loop
whose transmitter stays idle. -/
def Hub.laneMute (h : Hub) (l : Nat) : Bool :=
  let m := h.rdF (Reg.LN_LOOP l) 1 0
  h.rdB (Reg.LN_PAT_CFG l) 0 || decide (2 ≤ m) || (decide (m = 1) && !h.rdB (Reg.LN_LOOP l) 2)

/-- Nothing that a link port sends reaches the far end: one of its lanes sends something else. -/
def Hub.muted (h : Hub) (p : Nat) : Bool := (h.portLanes p).any h.laneMute

/-- The link port that something is sent on. -/
def Emit.linkPort : Emit → Option Nat
  | .cell p _ _ | .block p _ | .bye p _ | .wake p => some p
  | _ => none

/-- What of a link port's output reaches the far end. -/
def Hub.sends (h : Hub) (p : Nat) (l : List Emit) : List Emit := if h.muted p then [] else l

/-- Send something out of the hub. (Log entry 12, DESIGN CHOICE.) -/
def Hub.emit (h : Hub) (e : Emit) : Hub :=
  { h with out := h.out ++ (match e.linkPort with
    | some p => h.sends p [e]
    | none => [e]) }

/-- Answer a command that leaves no cycle to close: a reset that sets the hub up anew. -/
def actReset (s : State) (c : Bool) (f : Hub → Hub) : Answer :=
  .next { s with hub := if c then f s.hub else s.hub }

end Sys2Proof.Machine
end

