-- ==== Sys2Proof/Machine/Arbiter.lean ====
section
/-! DEFINITION. The common arbiter (R274–R282). -/

namespace Sys2Proof.Machine

/-- The key of arbiter k of a block in `arbs`. -/
def arbKey (b : Block) (k : Nat) : Nat := 16 * b.idx + k

/-- The arbiter after reset: the last owner is the highest index, every STEPS 0 (R275). -/
def arbReset (key : Nat) : Arb :=
  let n := ((Block.all[key / 16]?).bind fun b => arbBases b (key % 16)).getD []
  { owner := n.length - 1, steps := List.replicate n.length 0, losses := List.replicate n.length 0 }

/-- Arbiter k of a block. -/
def Hub.arb (h : Hub) (b : Block) (k : Nat) : Arb := Tab.get arbReset h.arbs (arbKey b k)

/-- Replace arbiter k of a block. -/
def Hub.setArb (h : Hub) (b : Block) (k : Nat) (a : Arb) : Hub :=
  { h with arbs := Tab.set arbReset h.arbs (arbKey b k) a }

/-- The address of a register of arbiter k of a block (Table 10.2). -/
def arbReg (b : Block) (k off : Nat) : Nat := b.base + 0xFD000 + 0x100 * k + off

/-- BASE of requester r in force (R282). -/
def Hub.arbBase (h : Hub) (b : Block) (k r : Nat) : Nat :=
  h.rdF (arbReg b k (0x10 + 4 * (r / 8))) (4 * (r % 8) + 3) (4 * (r % 8))

/-- The effective priority of requester r: min(15, BASE + STEPS) (R275). -/
def Hub.arbEff (h : Hub) (b : Block) (k r : Nat) : Nat := min 15 (h.arbBase b k r + (h.arb b k).steps.getD r 0)

/-- The requesters in the order a tie is broken: ascending from the index after the last owner, with wrap. -/
def rrOrder (n owner : Nat) : List Nat := (List.range n).map fun i => (owner + 1 + i) % n

/-- The first element at which `f` is greatest. -/
def argMax (f : Nat → Nat) : List Nat → Option Nat
  | [] => none
  | x :: l =>
    match argMax f l with
    | none => some x
    | some y => if f x < f y then some y else some x

/-- The requester that a decision chooses among those requesting (R275). -/
def Hub.arbChoose (h : Hub) (b : Block) (k : Nat) (reqs : List Nat) : Option Nat :=
  let a := h.arb b k
  argMax (h.arbEff b k) ((rrOrder a.steps.length a.owner).filter fun r => reqs.contains r)

/-- Every considered requester but the chosen one gains one step, up to 15 (R278), and has lost one more
decision in a row. -/
def Arb.age (a : Arb) (reqs : List Nat) (w : Nat) : Arb :=
  { a with
    steps := a.steps.mapIdx fun r x => if r ≠ w ∧ reqs.contains r then min 15 (x + 1) else x
    losses := a.losses.mapIdx fun r x => if r ≠ w ∧ reqs.contains r then x + 1 else x }

/-- ARB_WAIT_MAX.MAX and WHO follow the longest run of lost decisions (Table 10.2). -/
def Hub.arbWaitMax (h : Hub) (b : Block) (k : Nat) : Hub :=
  let a := h.arb b k
  (List.range a.losses.length).foldl (fun h r =>
    let l := holdAt 255 (a.losses.getD r 0)
    if l > h.rdF (arbReg b k 0x30) 7 0 then
      (h.wrF (arbReg b k 0x30) 7 0 l).wrF (arbReg b k 0x30) 12 8 r
    else h) h

/-- A decision that chooses `w` among `reqs`, which it grants, or which lapses because `w` withdraws in the
decision cycle (R276–R278). -/
def Hub.arbGrant (h : Hub) (b : Block) (k : Nat) (reqs : List Nat) (w : Nat) (lapses : Bool) : Hub :=
  let a := (h.arb b k).age reqs w
  if lapses then
    ((h.setArb b k { a with parked := false, held := false }).incW (arbReg b k 0x34)).arbWaitMax b k
  else
    ((h.setArb b k { a with
        owner := w
        parked := false
        held := true
        steps := putAt a.steps w 0
        losses := putAt a.losses w 0 }).incW (arbReg b k 0x08)).arbWaitMax b k

/-- One arbiter cycle with the given requests, the previous transfer having ended: an owner on which the grant is
parked, because no other requester requests, is granted again without a
decision (R276); with no request a transfer in progress has ended and the grant parks on its owner;
else a decision. `withdraw` names a requester that withdraws in the decision cycle. -/
def Hub.arbCycle (h : Hub) (b : Block) (k : Nat) (reqs : List Nat) (withdraw : Option Nat) : Hub :=
  let a := h.arb b k
  if (a.parked || a.held) ∧ reqs = [a.owner] then
    ((h.setArb b k { a with held := true, parked := false }).incW (arbReg b k 0x08)).incW (arbReg b k 0x0C)
  else
    match h.arbChoose b k reqs with
    | none => if a.held || a.parked then h.setArb b k { a with held := false, parked := true } else h
    | some w => h.arbGrant b k reqs w (withdraw = some w)

/-- ARB_EFF0–3 word w of arbiter k (Table 10.2). -/
def Hub.arbEffWord (h : Hub) (b : Block) (k w : Nat) : Word :=
  let n := (h.arb b k).steps.length
  w32 (nibbleWord ((List.range n).map (h.arbEff b k)) w)

/-- ARB_STAT of arbiter k (Table 10.2). -/
def Hub.arbStat (h : Hub) (b : Block) (k : Nat) : Word :=
  let a := h.arb b k
  w32 (a.owner + 32 * b2n a.parked + 64 * b2n a.held)

/-- ARB_ID of arbiter k (Table 10.2). -/
def arbId (b : Block) (k : Nat) : Word := w32 (((arbBases b k).getD []).length + 0x100 * k)

/-- Every arbiter of a block returns to its reset state (R299). -/
def Hub.arbsReset (h : Hub) (b : Block) : Hub :=
  { h with arbs := h.arbs.filter fun e => e.1 / 16 ≠ b.idx }

/-- Arbiter k of a block runs: the block is up and Table 10.1 lists the arbiter, and KLL's of an absent port does not (R3). -/
def Hub.arbUp (h : Hub) (b : Block) (k : Nat) : Bool :=
  h.up b && (arbBases b k).isSome && (decide (b ≠ .kll) || portPresent h.straps k)

/-- ARBITER_DECISION (R275): one cycle of arbiter k of a block, with the requesters that request in it. -/
def execArbiterDecision (b : Block) (k : Nat) (reqs : List Nat) (withdraw : Option Nat) (s : State) : Answer :=
  act s (s.hub.arbUp b k) fun h => h.arbCycle b k reqs withdraw

/-- ARB_WAIT_MAX starts again: the maximum is 0, and so is every run of lost decisions (Table 10.2). -/
def Hub.arbWaitClr (h : Hub) (b : Block) (k : Nat) : Hub :=
  let a := h.arb b k
  (h.setArb b k { a with losses := a.losses.map fun _ => 0 }).wr (arbReg b k 0x30) 0

/-- ARB_WAIT_MAX_CLR (R282): a write of ARB_WAIT_MAX.CLR restarts the wait maximum. -/
def execArbWaitMaxClr (b : Block) (k : Nat) (s : State) : Answer :=
  act s (s.hub.arbUp b k) fun h => h.arbWaitClr b k

/-- Put every pending ARB_BASE shadow of a block in force (R280). -/
def Hub.arbBasesInForce (h : Hub) (b : Block) : Hub :=
  let lo := b.base + 0xFD000
  let mine := h.pend.filter fun e => lo ≤ e.1 ∧ e.1 < lo + 0x1000
  let h := { h with pend := h.pend.filter fun e => ¬(lo ≤ e.1 ∧ e.1 < lo + 0x1000) }
  mine.foldl (fun h e => h.wr e.1 e.2) h

/-- Write BLK_CTRL.ARB_MODE (R280): a change from SHADOWED (every code but 0b01) to IMMEDIATE puts the
ARB_BASE shadows in force. -/
def Hub.writeArbMode (h : Hub) (b : Block) (m : Nat) : Hub :=
  let old := (h.hdr b).arbMode
  let h := h.updHdr b fun x => { x with arbMode := m }
  if old ≠ 1 ∧ m = 1 then h.arbBasesInForce b else h

/-- ARB_MODE_WRITE (R280). -/
def execArbModeWrite (b : Block) (mode : BitVec 2) (s : State) : Answer :=
  act s (s.hub.answers b) fun h => h.writeArbMode b mode.toNat

end Sys2Proof.Machine
end

