-- ==== Sys2Proof/Machine/Mailbox.lean ====
section
/-! DEFINITION. The request/result mailbox of page 0 (R79–R82) and the operation runner that every mailbox
operation of the block chapters goes through. -/

namespace Sys2Proof.Machine

/-- BLK_ID (Table 3.3): PART 0x4840, REV 0x01, COMPLEX, BLOCK. -/
def blkId (b : Block) : Word := w32 (0x48400100 + 16 * b.complex + b.sub)

/-- The number of operations that a block defines from opcode 0x0010 on (the mailbox table of each chapter). -/
def opCount : Block → Nat
  | .stw => 4 | .lnx => 4 | .kll => 2 | .mir => 3 | .tsc => 6 | .tss => 2 | .fcm => 7 | .dse => 3
  | .eth => 2 | .pxb => 1 | .usb => 1 | .pmu => 2 | .ksi => 7 | .sit => 2
  | .pmc | .vin | .ppc => 0

/-- The opcode is defined for the block (NOP in every block). -/
def opDefined (b : Block) (op : Nat) : Bool :=
  decide (op = 0) || (decide (0x10 ≤ op) && decide (op < 0x10 + opCount b))

/-- The ticket after `t`: 1 to 255 and then from 1 again (R80). -/
def nextTicket (t : Nat) : Nat := if t ≥ 255 then 1 else t + 1

/-- A REQ write on a path (R80): accepted while BUSY is 0, with the next ticket and the arguments latched, at an instant;
else refused. REQ_TICKET of the path records either outcome. -/
def Mailbox.request (m : Mailbox) (p : Path) (op now : Nat) : Mailbox :=
  if m.busy then
    { m with tickets := putAt m.tickets p.code (w32 (m.ticket + 0x100 + 0x200 * p.code)) }
  else
    let t := nextTicket m.ticket
    { m with
      ticket := t
      busy := true
      op := op
      src := p.code
      latched := m.args
      postedAt := now
      result := none
      ready := false
      err := false
      tickets := putAt m.tickets p.code (w32 (t + 0x200 * p.code)) }

/-- The six result words of an operation; words it does not define read 0 (R81). -/
def MbxResult.words (r : MbxResult) : List Word := (List.range 6).map fun i => r.data.getD i 0

/-- Completion (R81): result words, DATA_TICKET, READY, ERR and ERR_CODE; BUSY and STALE clear. -/
def Mailbox.complete (m : Mailbox) (r : MbxResult) : Mailbox :=
  { m with
    busy := false
    result := none
    ready := true
    err := decide (r.err ≠ 0) || r.flag
    errCode := r.err
    dataTicket := m.ticket
    data := r.words }

/-- A RES_ACK write (R81). (Log entry 20, DEDUCED.) -/
def Mailbox.ack (m : Mailbox) (ticket : Nat) : Mailbox :=
  if m.ready ∧ ticket = m.ticket then { m with ready := false, err := false } else m

/-- RES_STAT (Table 3.9). -/
def Mailbox.resStat (m : Mailbox) : Word :=
  w32 (m.ticket + 0x100 * b2n m.ready + 0x200 * b2n m.err + 0x400 * b2n m.busy + 0x800 * b2n m.busy
    + 0x10000 * m.dataTicket + 0x1000000 * m.errCode)

/-- A request running when its block is reset, or a custody request that a WARM reset cuts off, is reported
with ERR_CODE 0x08 and result words of 0; the ticket counter survives (R82). -/
def Mailbox.abort (m : Mailbox) : Mailbox := if m.busy then m.complete { err := 0x08 } else m

/-- The mailbox of a block. -/
def Hub.mbx (h : Hub) (b : Block) : Mailbox := (h.hdr b).mbx

/-- Change the mailbox of a block. -/
def Hub.updMbx (h : Hub) (b : Block) (f : Mailbox → Mailbox) : Hub := h.updHdr b fun x => { x with mbx := f x.mbx }

/-- Argument i of the running request. -/
def Hub.arg (h : Hub) (b : Block) (i : Nat) : Word := (h.mbx b).latched.getD i 0

/-- The request with opcode `op` runs in block `b` and has no result yet. -/
def Hub.opRunning (h : Hub) (b : Block) (op : Nat) : Bool :=
  h.answers b && (h.mbx b).busy && decide ((h.mbx b).op = op) && (h.mbx b).result.isNone

/-- Store the result of the running request `op`; MAILBOX_COMPLETE publishes it. -/
def Hub.opResult (h : Hub) (b : Block) (op : Nat) (r : MbxResult) : Hub :=
  if h.opRunning b op then h.updMbx b fun m => { m with result := some r } else h

/-- An error result. -/
def mbxErr (e : Nat) : MbxResult := { err := e }

/-- A good result. -/
def mbxOk (d : List Word) : MbxResult := { data := d }

/-- Run operation `op` of block `b`: `f` gives its effect and, unless it goes on, its result. In a block that
the role leaves out the operation is not available (Table 3.10, 0x04). -/
def Hub.runOp (h : Hub) (b : Block) (op : Nat) (f : Hub → Hub × Option MbxResult) : Hub :=
  if h.present b then
    match f h with
    | (h', some r) => h'.opResult b op r
    | (h', none) => h'
  else h.opResult b op (mbxErr 0x04)

/-- Answer a mailbox operation's command: it acts on the block's running request. -/
def mbxAct (s : State) (b : Block) (op : Nat) (f : Hub → Hub × Option MbxResult) : Answer :=
  act s (s.hub.opRunning b op) (fun h => h.runOp b op f)

/-- A result without further effect. -/
def done (h : Hub) (r : MbxResult) : Hub × Option MbxResult := (h, some r)

/-- The result that the running request of a block is ready to publish: the stored one, or ERR_CODE 0x01 for
an opcode that the block does not define (Table 3.10). -/
def Hub.readyResult (h : Hub) (b : Block) : Option MbxResult :=
  let m := h.mbx b
  if m.busy then
    if opDefined b m.op then m.result else some (mbxErr 0x01)
  else none

/-- Publish a result: the mailbox completes and MBX_DONE is set (R81). -/
def Hub.publish (h : Hub) (b : Block) (r : MbxResult) : Hub := (h.updMbx b fun m => m.complete r).attn b 29

/-- RES_ACK (R81): a RES_ACK write. -/
def execResAck (b : Block) (ticket : BitVec 8) (s : State) : Answer :=
  act s (s.hub.answers b) fun h => h.updMbx b fun m => m.ack ticket.toNat

end Sys2Proof.Machine
end

