-- ==== Sys2Proof/Machine/Lane.lean ====
section
/-! DEFINITION. The lane array (R92–R110, R113, R117–R119): the lane map, alignment, patterns and loops, the
repair map. Lane repair and what a lane event does to its link stand in LaneRepair and Link. -/

namespace Sys2Proof.Machine

/-- The lane is mapped out. -/
def Hub.laneOut (h : Hub) (l : Nat) : Bool := h.rdB (Reg.LN_STAT l) 7

/-- The lane is free: not mapped out and held by no port (R100). -/
def Hub.laneFree (h : Hub) (l : Nat) : Bool := !h.laneOut l && decide (h.lanePort l = 0x1F)

/-- The lane is a free wired spare for a port (R111). -/
def Hub.wiredSpare (h : Hub) (l c : Nat) : Bool :=
  h.laneFree l && h.rdB (Reg.LN_CFG l) 4 && decide (h.rdF (Reg.LN_CFG l) 9 5 = c)

/-- A port of the Karmund Link: T, D or M. -/
def isLinkPort (c : Nat) : Bool := decide (c ≤ 8)

/-- EP_CFG.MODE in force; the reserved codes act as off (Table 13.1). -/
def Hub.epMode (h : Hub) (p : Nat) : Nat :=
  let m := h.rdF (Reg.EP_CFG p) 2 0
  if 5 < m then 0 else m

/-- A port is down while its owning block holds it disabled or in PORT reset (R100): a link port in DOWN, ALIGN
or FAILED, an Ethernet port whose MODE acts as off, P while PXB is disabled or without a trained link, a DisplayPort not
enabled. P has no enable of its own, so that its link is what can be down. (Log entry 26, DEDUCED.) -/
def Hub.portDown (h : Hub) (c : Nat) : Bool :=
  if isLinkPort c then
    let st := h.rdF (Reg.KL_STATE c) 3 0
    decide (st = 0 ∨ st = 1 ∨ st = 9)
  else if c ≤ 0x0C then decide (h.epMode (c - 9) = 0)
  else if c = 0x0D then !h.rdB Reg.PX_STAT 0
  else if c ≤ 0x0F then
    !h.rdB (if h.role = .root then Reg.DI_CFG (c - 0x0E) else Reg.DO_CFG (c - 0x0E)) 0
  else true

/-- Lane l is the spare that a running repair aligns. -/
def Hub.repairSpare (h : Hub) (l : Nat) : Bool :=
  match h.repair with
  | some r => decide (r.spare = l)
  | none => false

/-- LNX_SPARE_LO and LNX_SPARE_HI: every free lane with WIRED 1 (Table 4.8). -/
def Hub.showSpares (h : Hub) : Hub :=
  let m := (List.range 40).foldl (fun a l =>
    if h.laneFree l && h.rdB (Reg.LN_CFG l) 4 then a + 2 ^ l else a) 0
  (h.wr Reg.LNX_SPARE_LO (lo32 m)).wr Reg.LNX_SPARE_HI (hi32 m)

/-- A lane without a port is powered down (R105): rate code 0x0, no lock, not in the idle of a port. -/
def Hub.parkLane (h : Hub) (l : Nat) : Hub :=
  let w := h.rd (Reg.LN_STAT l)
  h.wr (Reg.LN_STAT l) (setFld (setFld w 13 8 0) 17 15 0)

/-- What a lane's generator sends (R108, Table 4.11): PATTERN, the user pattern, and one inverted bit in every 2^n, n = 0 for none; none
while GEN_EN is 0. -/
def Hub.patternOf (h : Hub) (l : Nat) : Option (Nat × Word × Nat) :=
  let w := h.rd (Reg.LN_PAT_CFG l)
  let n := fld w 10 6
  if bit w 0 then some (if 5 < fld w 4 2 then 4 else fld w 4 2, h.rd (Reg.LN_PAT_USER l), if n = 0 then 0 else max 10 n) else none

/-- What SIT sends on a lane that it holds (R476): PRBS31 on a wired spare; in the near-end loop of another lane nothing goes out (R110). -/
def Hub.sitPattern (h : Hub) (l : Nat) : Option (Nat × Word × Nat) :=
  if h.rdB (Reg.LN_CFG l) 4 && h.laneFree l then some (4, h.rd (Reg.LN_PAT_USER l), 0) else none

/-- SIT takes a lane for a test (R476). -/
def Hub.sitTakeLane (h : Hub) (l : Nat) : Hub :=
  let h := { h with lanes := Tab.upd (fun _ => {}) h.lanes l fun x => { x with testFrom := h.mono } }
  let h := if (h.sitPattern l).isSome then h.emit (.pattern l (h.sitPattern l)) else h
  h.wrB (Reg.LN_STAT l) 18 true

/-- SIT gives a lane back (R110): its partial result is discarded, and its pattern ends. -/
def Hub.sitReleaseLane (h : Hub) (l : Nat) : Hub :=
  if h.rdB (Reg.LN_STAT l) 18 then
    let h := if (h.sitPattern l).isSome then h.emit (.pattern l (h.patternOf l)) else h
    h.wrB (Reg.LN_STAT l) 18 false
  else h

/-- Take a lane from its port. -/
def Hub.freeLane (h : Hub) (l : Nat) : Hub := (h.parkLane l).wrF (Reg.LN_STAT l) 6 0 0x1F

/-- The block that owns an edge port orders electrical idle on its lanes, or ends it (R105): where IDLE_EN allows it, and never on a
keep-awake port. -/
def Hub.edgeIdle (h : Hub) (c : Nat) (off : Bool) : Hub :=
  (h.portLanes c).foldl (fun h l =>
    h.wrB (Reg.LN_STAT l) 15 (off && h.rdB (Reg.LN_CFG l) 2 && !h.keepAwake c)) h

/-- A port's LNX_PORT_MAP and its lanes' PORT and LOGICAL show its lanes; 0x3F is a logical lane that has none. -/
def Hub.placeLanes (h : Hub) (c : Nat) (ls : List Nat) : Hub :=
  let h := (ls.zipIdx).foldl (fun h e => if e.1 < 40 then h.wrF (Reg.LN_STAT e.1) 6 0 (c + 32 * e.2) else h) h
  (h.wr (Reg.LNX_PORT_MAP c) (w32 (portMapWord ls))).showSpares

/-- The rate that the block owning a port orders for a lane that joins it (R93): that of the lanes the port had, or RATE of an enabled link
port. -/
def Hub.joinRate (h : Hub) (c : Nat) : Nat :=
  match (h.portLanes c).head? with
  | some l => h.rdF (Reg.LN_STAT l) 11 8
  | none => if isLinkPort c && h.rdB (Reg.KL_CFG c) 4 then h.rdF (Reg.KL_CFG c) 3 0 else 0

/-- Give a port its full set of lanes in one step; the lanes it held before are released (R100). A lane that joins leaves SIT, runs at the
port's rate and has to relock (R92, R93). -/
def Hub.setPortLanes (h : Hub) (c : Nat) (ls : List Nat) : Hub :=
  let old := h.portLanes c
  let rate := h.joinRate c
  let h := (old.filter fun l => !ls.contains l).foldl Hub.freeLane h
  let h := (ls.filter fun l => l < 40 && !old.contains l).foldl (fun h l =>
    ((h.sitReleaseLane l).parkLane l).wrF (Reg.LN_STAT l) 11 8 rate) h
  h.placeLanes c ls

/-- A lane leaves its port, whose logical lane has none from then on (R113). (Log entry 26, DEDUCED.) -/
def Hub.dropLane (h : Hub) (l : Nat) : Hub :=
  let c := h.lanePort l
  let h := h.freeLane l
  if c < 16 then h.placeLanes c ((h.portMap c).map fun k => if k = l then 0x3F else k) else h

/-- The references that lanes use are present, and co-sourced when the lanes span several (R95, R100). -/
def Hub.refsOk (h : Hub) (ls : List Nat) : Bool :=
  let st := h.rd Reg.LNX_REF_STAT
  ls.all (fun l => bit st (laneRef l))
    && (ls.all (fun l => laneRef l = laneRef (ls.headD 0)) || ls.all (fun l => bit st (4 + laneRef l)))

/-- The references of a port's lanes let it train (R58, R95, R96): each is present and does not await its first window, and several are
co-sourced. -/
def Hub.refsReady (h : Hub) (c : Nat) : Bool :=
  let ls := h.portLanes c
  h.refsOk ls && ls.all fun l => !h.rdB Reg.LNX_REF_STAT (8 + laneRef l)

/-- Write a record into the repair map (R480): REPAIR_WRITTEN, or REPAIR_STORE and STORE_FAIL when none of the
256 records is free. -/
def Hub.repairWrite (h : Hub) (r : RepairRec) : Hub :=
  if h.repairMap.length < 256 then
    ({ h with repairMap := h.repairMap ++ [{ r with time := h.now / 2 ^ 30 % 2 ^ 32 }] }).attn .sit 3
  else (h.fault .sit 5).wrB Reg.SIT_REPAIR_STAT 16 true

/-- A mapped-out lane is out of every port and of the spares: LN_STAT, LNX_PORT_MAP and LNX_REPAIR_MAP (R113). -/
def Hub.laneGone (h : Hub) (l : Nat) : Hub :=
  let h := (h.dropLane l).wrB (Reg.LN_STAT l) 7 true
  if l < 32 then h.wrB Reg.LNX_REPAIR_MAP_LO l true else h.wrB Reg.LNX_REPAIR_MAP_HI (l - 32) true

/-- Map a lane out (R113): it leaves its port, and a record is written. -/
def Hub.laneMapOut (h : Hub) (l : Nat) : Hub :=
  let h := (h.sitReleaseLane l).laneGone l
  (h.repairWrite { kind := 2, res := l }).showSpares

/-- The lanes that the repair map keeps mapped out: a record without CLEARED (R113, R480). -/
def lanesOut (m : List RepairRec) : List Nat :=
  (m.filter fun (r : RepairRec) => r.kind = 2 ∧ r.cleared = false).map fun r => r.res

/-- At the release of the main die LNX applies the default map, which is the reset value of its registers, and
then the records of the repair map (R98, R113): substitutions, then the lanes mapped out. -/
def Hub.lnxInit (h : Hub) : Hub :=
  if h.repairMap = [] then h
  else
    let out := lanesOut h.repairMap
    let h := h.repairMap.foldl (fun h r =>
      if r.kind = 3 ∧ ¬ out.contains r.res ∧ portPresent h.straps r.port ∧ r.logical < (h.portMap r.port).length
      then h.setPortLanes r.port (putAt (h.portMap r.port) r.logical r.res) else h) h
    (out.foldl Hub.laneGone h).showSpares

/-- The widths that Table 4.4 allows a port. -/
def widthOk (c w : Nat) : Bool :=
  if c ≤ 1 ∨ (0x0D ≤ c ∧ c ≤ 0x0F) then decide (w = 1 ∨ w = 2 ∨ w = 4)
  else if c ≤ 8 then decide (w = 1 ∨ w = 2)
  else if c ≤ 0x0C then decide (w = 1)
  else false

/-- LANE_ASSIGN's effect and result (R100, Table 4.13); of several errors the first in the order 0x02, 0x04, 0x81, 0x82, 0x80 is
reported. (Log entry 58, DESIGN CHOICE.) -/
def Hub.laneAssign (h : Hub) : Hub × Option MbxResult :=
  let c := (h.arg .lnx 0).toNat
  let w := (h.arg .lnx 1).toNat
  let ls := (List.range w).map fun i => fld (h.arg .lnx 2) (8 * i + 5) (8 * i)
  if !widthOk c w || ls.any (fun l => 40 ≤ l) || !decide ls.Nodup then done h (mbxErr 0x02)
  else if !portPresent h.straps c then done h (mbxErr 0x04)
  else if !h.portDown c then done h (mbxErr 0x81)
  else if ls.any (fun l => !h.laneFree l) then done h (mbxErr 0x82)
  else if !h.refsOk ls then done h (mbxErr 0x80)
  else done (h.setPortLanes c ls) (mbxOk [w32 (portMapWord ls)])

/-- LANE_ASSIGN (R100). -/
def execLaneAssign (s : State) : Answer := mbxAct s .lnx 0x10 Hub.laneAssign

/-- The running LANE_RELEASE (R100). -/
def Hub.laneReleaseOp (h : Hub) : Hub × Option MbxResult :=
  let c := (h.arg .lnx 0).toNat
  if 0x0F < c then done h (mbxErr 0x02)
  else if !portPresent h.straps c then done h (mbxErr 0x04)
  else if !h.portDown c then done h (mbxErr 0x81)
  else done (h.setPortLanes c []) (mbxOk [h.rd (Reg.LNX_PORT_MAP c)])

/-- LANE_RELEASE (R100): frees the lanes of a down port; DATA0 is the released LNX_PORT_MAP word. -/
def execLaneRelease (s : State) : Answer :=
  mbxAct s .lnx 0x11 Hub.laneReleaseOp

/-- The running LANE_UNMAP, with what the checker of the lane found (R113). -/
def Hub.laneUnmapOp (h : Hub) (lock : Bool) (errs bits : Word) : Hub × Option MbxResult :=
  let l := (h.arg .lnx 0).toNat
  if 40 ≤ l then done h (mbxErr 0x02)
  else if !h.laneOut l then done h (mbxErr 0x82)
  else if lock && decide (errs.toNat ≤ h.rdF Reg.SIT_LANE_CFG 31 16) then
    let h := h.wrB (Reg.LN_STAT l) 7 false
    let h := if l < 32 then h.wrB Reg.LNX_REPAIR_MAP_LO l false else h.wrB Reg.LNX_REPAIR_MAP_HI (l - 32) false
    let h := { h with repairMap := h.repairMap.map fun (r : RepairRec) =>
      if r.kind = 2 ∧ r.res = l then { r with cleared := true } else r }
    done ((h.attn .sit 3).showSpares) (mbxOk [errs, bits])
  else done h { err := 0x85, data := [errs, bits] }

/-- LANE_UNMAP (R113): the PRBS31 test of a mapped-out lane has run for 1 s with or without checker lock, with
these bit errors over these bits; a lane that passes, by the limit of the in-service lane test, returns and its
record is marked CLEARED. -/
def execLaneUnmap (lock : Bool) (errs bits : Word) (s : State) : Answer :=
  mbxAct s .lnx 0x13 fun h => h.laneUnmapOp lock errs bits

/-- The lane carries a Karmund Link stream, or no port holds it: LN_SLIP, LN_SH_WIN and LN_SH_ERR act only
there (R104). -/
def Hub.laneAligns (h : Hub) (l : Nat) : Bool :=
  decide (h.lanePort l = 0x1F) || isLinkPort (h.lanePort l)

/-- LN_SLIP is ignored on a lane whose port is not down, unless a repair aligns it (R101). -/
def Hub.slipAllowed (h : Hub) (l : Nat) : Bool := h.repairSpare l || h.portDown (h.lanePort l)

/-- A write of LN_SLIP (R101, R102): COUNT mod 130 bits later; FRESH clears when COUNT is not 0. -/
def Hub.writeSlip (h : Hub) (l count : Nat) : Hub :=
  if !h.laneAligns l || count = 0 then h
  else if !h.slipAllowed l then h.attn .lnx 3
  else
    let h := { h with lanes := Tab.upd (fun _ => {}) h.lanes l fun x => { x with pos := (x.pos + count) % 130 } }
    h.wrB (Reg.LN_SH_ERR l) 16 false

/-- LN_SLIP (R101). -/
def execLnSlip (l : LaneNo) (count : BitVec 8) (s : State) : Answer :=
  act s (s.hub.up .lnx) fun h => h.writeSlip l count.toNat

/-- A write of LN_SH_WIN sets the window length and clears FRESH (R102); no effect on P, E and DP lanes. -/
def Hub.writeShWin (h : Hub) (l v : Nat) : Hub :=
  if h.laneAligns l then (h.wr (Reg.LN_SH_WIN l) (w32 (v % 0x10000))).wrB (Reg.LN_SH_ERR l) 16 false else h

/-- LN_SH_WIN_WRITE (R102). -/
def execLnShWinWrite (l : LaneNo) (v : BitVec 16) (s : State) : Answer :=
  act s (s.hub.up .lnx) fun h => h.writeShWin l v.toNat

/-- The window length in force: below 16 acts as 16 (Table 4.11). -/
def Hub.shWin (h : Hub) (l : Nat) : Nat := max 16 (h.rdF (Reg.LN_SH_WIN l) 15 0)

/-- SH_WINDOW_END (R102): a window of LN_SH_WIN blocks completes with this many invalid headers. -/
def execShWindowEnd (l : LaneNo) (errors : Nat) (s : State) : Answer :=
  act s (s.hub.up .lnx && s.hub.laneAligns l) fun h =>
    h.wr (Reg.LN_SH_ERR l) (w32 (min errors (h.shWin l) + 0x10000))

/-- BLOCK_LOCK_GAIN (R101): 64 consecutive valid sync headers on a lane of a T, D or M port, or on a spare. -/
def execBlockLockGain (l : LaneNo) (s : State) : Answer :=
  act s (s.hub.up .lnx && s.hub.laneAligns l) fun h => h.wrB (Reg.LN_STAT l) 16 true

/-- LANE_RELOCK (R92): a lane whose rate changed has relocked. -/
def execLaneRelock (l : LaneNo) (s : State) : Answer :=
  act s (s.hub.up .lnx && decide (s.hub.rdF (Reg.LN_STAT l) 11 8 ≠ 0)) fun h =>
    (h.wrB (Reg.LN_STAT l) 12 true).wrB (Reg.LN_STAT l) 13 true

/-- A lane's rate offset is measured (R97). -/
def Hub.ppmIn (h : Hub) (l : Nat) (ppm : BitVec 16) : Hub :=
  let h := h.wr (Reg.LN_PPM l) (w32 (BitVec.ofInt 16 (clampI (-32767) 32767 ppm.toInt)).toNat)
  if 30000 < ppm.toInt.natAbs then
    (((h.wrB (Reg.LN_STAT l) 19 true).fault .lnx 3).setLive .lnx 3 true).attn .lnx 2
  else
    let h := h.wrB (Reg.LN_STAT l) 19 false
    h.setLive .lnx 3 ((List.range 40).any fun k => h.rdB (Reg.LN_STAT k) 19)

/-- PPM_ALARM (R97): the rate offset of a lane has stayed at `ppm` (0.01 ppm units) for 1 ms. LN_PPM reports it; beyond ±300 ppm it sets
the alarm, and within them the lane has none. (Log entry 26, DEDUCED.) -/
def execPpmAlarm (l : LaneNo) (ppm : BitVec 16) (s : State) : Answer :=
  act s (s.hub.up .lnx) fun h => h.ppmIn l ppm

/-- INJECT_ONE (R108): one transmitted bit is inverted. -/
def Hub.injectOne (h : Hub) (l : Nat) : Hub :=
  { h with lanes := Tab.upd (fun _ => {}) h.lanes l fun x => { x with flips := x.flips + 1 } }.emit (.flip l)

/-- The generator's output changes after a write: what it sends from then on goes out in place of the lane's data, or that ends. -/
def Hub.patternShow (old h : Hub) (l : Nat) : Hub :=
  if old.patternOf l = h.patternOf l then h else h.emit (.pattern l (h.patternOf l))

/-- ERR_CLR clears LN_PAT_ERR and LN_PAT_BITS (Table 4.11). -/
def Hub.patErrClr (h : Hub) (l : Nat) : Hub :=
  ((h.wr (Reg.LN_PAT_ERR l) 0).wr (Reg.LN_PAT_BITS_LO l) 0).wr (Reg.LN_PAT_BITS_HI l) 0

/-- A write of LN_PAT_CFG (R108, R110): on a lane whose port is not down GEN_EN and CHK_EN are ignored, which sets PAT_REFUSED; on
another SIT releases the lane. CHK_LOCK clears while the checker is off. INJECT_ONE and ERR_CLR act as written. -/
def Hub.writePatCfg (h : Hub) (l : Nat) (v : Word) : Hub :=
  let a := Reg.LN_PAT_CFG l
  let old := h.rd a
  let refused := !h.portDown (h.lanePort l)
  let keep : Word := if refused then (v &&& 0x7DC#32) ||| (old &&& 3#32) else v &&& 0x7DF#32
  let keep := if bit keep 1 then keep ||| (old &&& 0x800#32) else keep
  let h := h.patternShow (h.wr a keep) l
  let h := if refused then h.attn .lnx 4 else h.sitReleaseLane l
  let h := if bit v 5 then h.injectOne l else h
  if bit v 12 then h.patErrClr l else h

/-- A write of LN_PAT_USER. -/
def Hub.writePatUser (h : Hub) (l : Nat) (v : Word) : Hub := h.patternShow (h.wr (Reg.LN_PAT_USER l) v) l

/-- PAT_CFG_WRITE (R110). -/
def execPatCfgWrite (l : LaneNo) (v : Word) (s : State) : Answer :=
  act s (s.hub.up .lnx) fun h => h.writePatCfg l v

/-- A write of LN_LOOP (R109, R110): on a lane whose port is not down MODE is ignored, which sets PAT_REFUSED; on another SIT releases the
lane. What the loops keep from the lane's transmitter, laneMute says. -/
def Hub.writeLoop (h : Hub) (l : Nat) (v : Word) : Hub :=
  let a := Reg.LN_LOOP l
  if h.portDown (h.lanePort l) then (h.wr a (v &&& 7#32)).sitReleaseLane l
  else (h.wrB a 2 (bit v 2)).attn .lnx 4

/-- LN_LOOP_WRITE (R109). -/
def execLnLoopWrite (l : LaneNo) (v : Word) (s : State) : Answer :=
  act s (s.hub.up .lnx) fun h => h.writeLoop l v

/-- INJECT_ONE (R108). -/
def execInjectOne (l : LaneNo) (s : State) : Answer := act s (s.hub.up .lnx) fun h => h.injectOne l

/-- PAT_ERR_CLR (R108). -/
def execPatErrClr (l : LaneNo) (s : State) : Answer := act s (s.hub.up .lnx) fun h => h.patErrClr l

/-- CHECKER_LOCK (R108): the checker of a lane locks, and has since compared `bits` bits and found `errs` of them
wrong. -/
def execCheckerLock (l : LaneNo) (errs bits : Nat) (s : State) : Answer :=
  act s (s.hub.up .lnx && s.hub.rdB (Reg.LN_PAT_CFG l) 1) fun h =>
    let n := join64 (h.rd (Reg.LN_PAT_BITS_LO l)) (h.rd (Reg.LN_PAT_BITS_HI l)) + bits
    let h := (h.wrB (Reg.LN_PAT_CFG l) 11 true).inc (Reg.LN_PAT_ERR l) errs
    (h.wr (Reg.LN_PAT_BITS_LO l) (lo32 n)).wr (Reg.LN_PAT_BITS_HI l) (hi32 n)

end Sys2Proof.Machine
end

