-- ==== Sys2Proof/Machine/Pmc.lean ====
section
/-! DEFINITION. Performance counters (R486–R498): histograms and their queues, the general counters with chains and holding
words, sample capture, bandwidth windows. The blocks report to them through `histSample`, `pmcEvent` and `bwAdd`. -/

namespace Sys2Proof.Machine

/-- TS_LEAD of a port: ns from a decision to the first bit at the balls (R237). -/
def Hub.txLead (h : Hub) (t : Nat) : Nat := h.rdF (Reg.TS_LEAD t) 15 0

/-- PMU_DVFS.POINT. -/
def Hub.dvfsPoint (h : Hub) : Nat := h.rdF Reg.PMU_DVFS 3 2

/-- A port reports its payload rate in Mb/s to TSS, 0 for none (R227). -/
def Hub.rateReport (h : Hub) (t rate : Nat) : Hub :=
  if rate = 0 then (h.wrF (Reg.TS_BYTE_TIME t) 15 0 0).wrF (Reg.TS_CAP t) 20 0 0
  else (h.wrF (Reg.TS_BYTE_TIME t) 15 0 ((8192000 + rate - 1) / rate)).wrF (Reg.TS_CAP t) 20 0 rate

/-- Change PMC. -/
def Hub.updPmc (h : Hub) (f : Pmc → Pmc) : Hub := { h with pmc := f h.pmc }

/-! ### General counters (R490, R491) -/

/-- The live value of counter n. -/
def Hub.counter (h : Hub) (n : Nat) : Nat := Tab.get (fun _ => 0) h.pmc.cnt n

/-- Counter n is chained to the one below it; CHAIN is ignored on PC0 (R491). -/
def Hub.chained (h : Hub) (n : Nat) : Bool := decide (0 < n) && decide (n < 256) && h.rdB (Reg.PC_SEL n) 21

/-- A counter wraps without a counter chained above it: its bit of PMC_OVF and OVF (R491); with SAMPLE and CAP_EN a
capture of the port becomes due (R492). -/
def Hub.cntOvf (h : Hub) (n : Nat) : Hub := (h.wrB (Reg.PMC_OVF (n / 32)) (n % 32) true).attn .pmc 0

/-- A capture becomes due at a wrap (R492): for the port of the filter, or the event's own under 0x1F. -/
def Hub.capDue (h : Hub) (n port : Nat) : Hub :=
  if h.rdB (Reg.PC_SEL n) 22 ∧ h.rdB Reg.PMC_CTL 1 then
    let p := h.rdF (Reg.PC_SEL n) 12 8
    h.updPmc fun x => { x with capture := x.capture ++ [(n, if p = 0x1F then port else p, 0)] }
  else h

/-- Advance counter n by k (fuel: the counters above it). -/
def Hub.cntAdd (h : Hub) (port : Nat) : Nat → Nat → Nat → Hub
  | 0, _, _ => h
  | fuel + 1, n, k =>
    let v := h.counter n + k
    let h := h.updPmc fun x => { x with cnt := Tab.set (fun _ => 0) x.cnt n (v % 2 ^ 48) }
    if v < 2 ^ 48 then h
    else
      let h := h.capDue n port
      if h.chained (n + 1) then Hub.cntAdd h port fuel (n + 1) 1 else h.cntOvf n

/-- The PORT filter of an event of Table 20.2 is ignored. -/
def portIgnored (ev : Nat) : Bool := decide (9 ≤ ev ∧ ev ≤ 0x0C)

/-- The selector lets an event count: its EVENT, PORT and, for events 0x01 to 0x08, TCMASK; a chained counter counts
nothing but its chain. -/
def selTakes (sel : Word) (ev port tc : Nat) : Bool :=
  decide (fld sel 7 0 = ev) && (portIgnored ev || decide (fld sel 12 8 = 0x1F) || decide (fld sel 12 8 = port))
    && (decide (8 < ev) || bit sel (13 + tc))

/-- An event of Table 20.2 happens k times at a port in a class (R490). -/
def Hub.pmcEvent (h : Hub) (ev port tc : Nat) (k : Nat := 1) : Hub :=
  (h.regs.filter fun e => Reg.PC_SEL 0 ≤ e.1 ∧ e.1 < Reg.PC_SEL 256).foldl (fun h e =>
    let n := (e.1 - Reg.PC_SEL 0) / 4
    if selTakes e.2 ev port tc && !h.chained n then h.cntAdd port 256 n k else h) h

/-- Fabric cycles in which no target reads the shared buffer are lent to SIT (R248). -/
def Hub.lendCycles (h : Hub) (n : Nat) : Hub :=
  if h.rdB Reg.TSS_LEND_CFG 0 then h.wrWide Reg.TSS_LENT_BUF_LO (h.rdWide Reg.TSS_LENT_BUF_LO + n) else h

/-- One steward cycle in RUN: events 0x0B and, while the TSC branch is granted, 0x0A; fc lasts 0.8, 1.0, 1.6 or 3.2 ns
at F0 to F3. -/
def Hub.pmcTick (h : Hub) : Hub :=
  if h.power.state = .run then
    let h := h.pmcEvent 0x0B 0 0
    if (h.hdr .tsc).clkGranted then
      let p := h.rdF Reg.PMU_DVFS 3 2
      let acc := h.pmc.fc + (if p = 0 then 20 else if p = 1 then 16 else if p = 2 then 10 else 5)
      let h := (h.pmcEvent 0x0A 0 0 (acc / 8)).updPmc fun x => { x with fc := acc % 8 }
      h.lendCycles (acc / 8)
    else h
  else h

/-- The counters chained above n, from n + 1. -/
def Hub.chainAbove (h : Hub) : Nat → Nat → List Nat
  | 0, _ => []
  | fuel + 1, n => if h.chained (n + 1) then (n + 1) :: Hub.chainAbove h fuel (n + 1) else []

/-- A read of PCn_LO latches PCn_HI and the words of the chain above it (R491). -/
def Hub.cntLatch (h : Hub) (n : Nat) : Hub :=
  if h.chained n then h
  else
    h.updPmc fun x => { x with
      latch := (h.chainAbove 256 n).foldl (fun t m =>
        Tab.put (Tab.put t (2 * m) (lo32 (h.counter m))) (2 * m + 1) (hi32 (h.counter m)))
        (Tab.put x.latch (2 * n + 1) (hi32 (h.counter n))) }

/-- The word that a read of a counter returns: LO live, or latched in a chain; HI as latched. -/
def Hub.cntWord (h : Hub) (n : Nat) (hi : Bool) : Word :=
  if hi then (Tab.find h.pmc.latch (2 * n + 1)).getD 0
  else if h.chained n then (Tab.find h.pmc.latch (2 * n)).getD 0 else lo32 (h.counter n)

/-- A write of PCn_HI goes to a holding word (R491). -/
def Hub.cntHold (h : Hub) (n : Nat) (v : Word) : Hub :=
  h.updPmc fun x => { x with hold := Tab.put x.hold n (v &&& 0xFFFF#32) }

/-- A write of PCn_LO loads both words (R491). -/
def Hub.cntLoad (h : Hub) (n : Nat) (v : Word) : Hub :=
  let hi := (Tab.find h.pmc.hold n).getD 0
  h.updPmc fun x => { x with
    cnt := Tab.set (fun _ => 0) x.cnt n (join64 v hi)
    bad := x.bad.filter fun k => k / 8 ≠ 0x20600 + n }

/-- COUNTER_LO_READ (R491). -/
def execCounterLoRead (n : Fin 256) (s : State) : Answer := act s s.hub.mainUp fun h => h.cntLatch n

/-- COUNTER_HI_WRITE (R491). -/
def execCounterHiWrite (n : Fin 256) (v : Word) (s : State) : Answer := act s s.hub.mainUp fun h => h.cntHold n v

/-- COUNTER_LO_WRITE (R491). -/
def execCounterLoWrite (n : Fin 256) (v : Word) (s : State) : Answer := act s s.hub.mainUp fun h => h.cntLoad n v

/-! ### Histograms (R486–R489) -/

/-- The lower edge of bin b, 1 to 63, in ns (R486). -/
def binEdge (scale b : Nat) : Nat := (8 * 2 ^ scale) * 2 ^ ((b - 1) / 4) * (4 + (b - 1) % 4) / 4

/-- The bin of a latency (R486). -/
def binOf (scale t : Nat) : Nat := ((List.range 64).drop 1).foldl (fun a b => if binEdge scale b ≤ t then b else a) 0

/-- The filters of H_CFG and H_FLOW that apply to a source pass a sample (R487). -/
def histTakes (cfg flw : Word) (src : Nat) (port tc flow : Option Nat) : Bool :=
  decide (fld cfg 3 0 = src)
    && port.elim true (fun p => decide (fld cfg 12 8 = 0x1F) || decide (fld cfg 12 8 = p))
    && tc.elim true (fun c => bit cfg (13 + c))
    && flow.elim true (fun f => bit flw 24 || decide (fld flw 23 0 = f))

/-- A sample reaches histogram n (R488): with counts and maximum into its queue; lost when 8 wait; a replayed cell only
advances H_REPLAY. -/
def Hub.histTake (h : Hub) (n t : Nat) (replayed : Bool) : Hub :=
  let q := Tab.get (fun _ => []) h.pmc.queue n
  if replayed then h.inc (Reg.H_REPLAY n)
  else if 8 ≤ q.length then
    let h := if h.rd (Reg.H_LOST n) = 0 then h.attn .pmc 3 else h
    h.inc (Reg.H_LOST n)
  else
    let h := (h.inc (Reg.H_COUNT n)).maxR (Reg.H_MAX n) (min t 0xFFFFFFFF)
    let h := if (h.rd (Reg.H_THRESH n)).toNat < t then h.inc (Reg.H_OVER n) else h
    h.updPmc fun x => { x with queue := Tab.set (fun _ => []) x.queue n (q ++ [t]) }

/-- A latency of a source of Table 20.1, in ns; a negative one counts as 0 (R496). -/
def Hub.histSample (h : Hub) (src : Nat) (port tc flow : Option Nat) (t : Int) (replayed : Bool := false) : Hub :=
  (h.regs.filter fun e => Reg.H_CFG 0 ≤ e.1 ∧ e.1 < Reg.H_CFG 32 ∧ e.1 % 0x40 = 0).foldl (fun h e =>
    let n := (e.1 - Reg.H_CFG 0) / 0x40
    if histTakes e.2 (h.rd (Reg.H_FLOW n)) src port tc flow then h.histTake n t.toNat replayed else h) h

/-- HIST_BIN_UPDATE (R486, R488): the oldest queued sample of a histogram enters its bin; H_SAT when the bin holds. -/
def execHistBinUpdate (n : Fin 32) (s : State) : Answer :=
  act s (s.hub.mainUp && decide (Tab.get (fun _ => []) s.hub.pmc.queue n ≠ [])) fun h =>
    match Tab.get (fun _ => []) h.pmc.queue n with
    | [] => h
    | t :: q =>
      let k := 64 * n + binOf (h.rdF (Reg.H_CFG n) 6 4) t
      let v := holdAt 0xFFFFFFFF (Tab.get (fun _ => 0) h.pmc.bins k + 1)
      let h := h.updPmc fun x => { x with
        bins := Tab.set (fun _ => 0) x.bins k v
        queue := Tab.set (fun _ => []) x.queue n q }
      if v = 0xFFFFFFFF then h.attn .pmc 2 else h

/-- The entries of histogram n in a table of bins. -/
def binsOf (t : Tab Nat) (n : Nat) : Tab Nat := t.filter fun e => e.1 / 64 = n

/-- H_CTL.SNAP (R489): bins and counts go to the frozen bank, with cell time. Samples that wait in the queue are in neither bank's bins
yet. (Log entry 39, DEDUCED.) -/
def Hub.histSnap (h : Hub) (n : Nat) : Hub :=
  let h := h.updPmc fun x => { x with
    frozen := (binsOf x.bins n).foldr (fun e t => Tab.set (fun _ => 0) t e.1 e.2) (x.frozen.filter fun e => e.1 / 64 ≠ n) }
  let h := (((h.wr (Reg.H_FCOUNT n) (h.rd (Reg.H_COUNT n))).wr (Reg.H_FOVER n) (h.rd (Reg.H_OVER n))).wr
    (Reg.H_FREPLAY n) (h.rd (Reg.H_REPLAY n))).wr (Reg.H_FLOST n) (h.rd (Reg.H_LOST n))
  (h.wr (Reg.H_FMAX n) (h.rd (Reg.H_MAX n))).wrWide (Reg.H_SNAP_TIME_LO n) h.now

/-- H_CTL.CLR (R489): the live bins and counts become 0. -/
def Hub.histClr (h : Hub) (n : Nat) : Hub :=
  let h := h.updPmc fun x => { x with bins := x.bins.filter fun e => e.1 / 64 ≠ n }
  ((((h.wr (Reg.H_COUNT n) 0).wr (Reg.H_OVER n) 0).wr (Reg.H_REPLAY n) 0).wr (Reg.H_LOST n) 0).wr (Reg.H_MAX n) 0

/-- H_SNAP (R489). -/
def execHSnap (n : Fin 32) (s : State) : Answer := act s s.hub.mainUp fun h => h.histSnap n

/-- H_CLR (R489). -/
def execHClr (n : Fin 32) (s : State) : Answer := act s s.hub.mainUp fun h => h.histClr n

/-- SNAP_TIME_LO_READ (R497). -/
def execSnapTimeLoRead (n : Fin 32) (s : State) : Answer :=
  act s s.hub.mainUp fun h => h.wr (Reg.H_SNAP_TIME_HI n) (hi32 (h.rdWide (Reg.H_SNAP_TIME_LO n)))

/-! ### Sample capture (R492) -/

/-- The two's-complement field of a signed value. -/
def sField (n : Nat) (v : Int) : Nat := (v % (2 ^ n : Int)).toNat

/-- The record of Table 20.3. -/
def PmcDec.words (d : PmcDec) (port counter : Nat) : List Word :=
  [lo32 d.time, hi32 d.time,
    w32 (port + 0x20 * d.tc + 0x100 * b2n d.idle + 0x10000 * counter),
    w32 d.slot, w32 (sField 24 d.cdef), w32 (sField 24 d.fdef),
    w32 (d.gates + 0x100 * d.pending), w32 d.kitty, w32 d.pend]

/-- The unread records of the capture ring, measured against PMC_CAP_ACK. (Log entry 39, DEDUCED.) -/
def Hub.capUnread (h : Hub) : Nat := (h.rdF Reg.PMC_CAP_STAT 11 0 + 3808 - h.rdF Reg.PMC_CAP_ACK 11 0 % 3808) % 3808

/-- Write a capture record. The ring holds 3,808 records; when one more would meet PMC_CAP_ACK it is full. -/
def Hub.capPut (h : Hub) (ws : List Word) : Hub :=
  let i := h.rdF Reg.PMC_CAP_STAT 11 0
  if h.capUnread = 3807 ∧ h.rdB Reg.PMC_CTL 2 = false then (h.inc Reg.PMC_CAP_LOST).attn .pmc 1
  else (h.updPmc fun x => { x with ring := Tab.put x.ring i ws }).wrF Reg.PMC_CAP_STAT 11 0 ((i + 1) % 3808)

/-- A decision of a port is kept for the captures that are due there (R492), and counts toward them; from the third decision
after the wrap on, the one kept stays. -/
def Hub.pmcDecision (h : Hub) (port : Nat) (d : PmcDec) : Hub :=
  let open_ := fun (e : Nat × Nat × Nat) => decide (e.2.1 = port) && decide (e.2.2 < 3)
  h.updPmc fun x => { x with
    lastDec := (x.capture.filter open_).foldl (fun t e => Tab.put t e.1 d) x.lastDec
    capture := x.capture.map fun e => if open_ e then (e.1, e.2.1, e.2.2 + 1) else e }

/-- The first capture that is due: its port has decided since the wrap. -/
def Hub.capReady (h : Hub) : Option (Nat × Nat × Nat) := h.pmc.capture.find? fun e => 1 ≤ e.2.2

/-- SAMPLE_CAPTURE (R492): the port's decision is recorded for the first sampling counter whose capture is due. -/
def execSampleCapture (s : State) : Answer :=
  act s (s.hub.mainUp && s.hub.capReady.isSome) fun h =>
    match h.capReady with
    | none => h
    | some e =>
      let h := h.updPmc fun x => { x with capture := x.capture.erase e }
      match Tab.find h.pmc.lastDec e.1 with
      | none => h
      | some d => h.capPut (d.words e.2.1 e.1)

/-! ### Bandwidth windows (R493) -/

/-- Payload bytes leave a port. -/
def Hub.bwAdd (h : Hub) (t bytes : Nat) : Hub :=
  (h.inc (Reg.BW_TOTAL t) bytes).updPmc fun x => { x with bw := Tab.upd (fun _ => 0) x.bw t fun n => n + bytes }

/-- BW_WIN of a port in ns: 1 to 1,000,000 µs (R493). -/
def Hub.bwWin (h : Hub) (t : Nat) : Nat := 1000 * clampN 1 1000000 (h.rd (Reg.BW_WIN t)).toNat

/-- BW_WINDOW_END (R493), at a multiple of BW_WIN in cell time: BW_LAST takes the window's count, BW_PEAK too if it is higher. -/
def execBwWindowEnd (t : EgressNo) (s : State) : Answer :=
  act s (s.hub.mainUp && s.hub.time.reached (s.hub.bwWin t)) fun h =>
    let n := Tab.get (fun _ => 0) h.pmc.bw t
    ((h.wr (Reg.BW_LAST t) (w32 (min n 0xFFFFFFFF))).maxR (Reg.BW_PEAK t) (min n 0xFFFFFFFF)).updPmc
      fun x => { x with bw := Tab.del x.bw t }

/-- BW_PEAK_READ (R493): a read returns BW_PEAK and clears it. -/
def execBwPeakRead (t : EgressNo) (s : State) : Answer :=
  act s s.hub.mainUp fun h => (h.emit (.words [h.rd (Reg.BW_PEAK t)])).wr (Reg.BW_PEAK t) 0

/-- BW_TOTAL_READ (R493): a read returns BW_TOTAL and clears it. -/
def execBwTotalRead (t : EgressNo) (s : State) : Answer :=
  act s s.hub.mainUp fun h => (h.emit (.words [h.rd (Reg.BW_TOTAL t)])).wr (Reg.BW_TOTAL t) 0

end Sys2Proof.Machine
end

