-- ==== Sys2Proof/Machine/Cells.lean ====
section
/-! DEFINITION. The shared buffer: cells and their holder states (R157–R160), flow lists (R163), contexts by
slot (R190, R191), the scheduler's flow-target state (R231, R246), abandoned frames (R175) and the resequencer
(R176, R177). -/

namespace Sys2Proof.Machine

/-! ### Cells and holders -/

/-- The holder states (Table 6.2). -/
inductive Holder where
  | kitty | foyer | reseq | queued | replay | spent | condemned
  deriving DecidableEq, Repr

/-- The cell at an index; none: it is free. -/
def Hub.cell (h : Hub) (i : Nat) : Option CellSt := Tab.find h.cells i

/-- The holder state of a stored cell (Table 6.2). -/
def CellSt.holder (c : CellSt) : Holder :=
  match c.place with
  | .foyer => .foyer
  | .reseq => .reseq
  | .listed | .steward => if c.pend ≠ 0 then .queued else if c.repl ≠ 0 then .replay else .spent

/-- The holder state of a cell index: a free cell of a draining bank is CONDEMNED (R182). -/
def holderOf (draining : Option Nat) (i : Nat) : Option CellSt → Holder
  | none => if draining = some (i / 2048) then .condemned else .kitty
  | some c => c.holder

/-- Move a count by `d`. -/
def Holders.move (x : Holders) (k : Holder) (d : Int) : Holders :=
  match k with
  | .kitty => { x with kitty := x.kitty + d }
  | .foyer => { x with foyer := x.foyer + d }
  | .reseq => { x with reseq := x.reseq + d }
  | .queued => { x with queued := x.queued + d }
  | .replay => { x with replay := x.replay + d }
  | .spent => { x with spent := x.spent + d }
  | .condemned => { x with condemned := x.condemned + d }

/-- The left side of POOL 0x0 (Table 6.6a). -/
def Holders.sum (x : Holders) : Int :=
  x.kitty + x.foyer + x.reseq + x.queued + x.replay + x.spent + x.condemned

/-- Targets that have not read a cell; 0 for a free one. -/
def pendN (c : Option CellSt) : Int := c.elim 0 fun c => (popCount c.pend : Int)

/-- Replay references to a cell; 0 for a free one. -/
def replN (c : Option CellSt) : Int := c.elim 0 fun c => (popCount c.repl : Int)

/-- Change one cell: the counts of R159 and of Table 6.6a move with it. Every change of a cell goes through
here. -/
def Hub.setCell (h : Hub) (i : Nat) (c : Option CellSt) : Hub :=
  let o := h.cell i
  let x := (h.counts.move (holderOf h.banks.draining i o) (-1)).move (holderOf h.banks.draining i c) 1
  let p := pendN c - pendN o
  let r := replN c - replN o
  { h with
    cells := match c with | some v => Tab.put h.cells i v | none => Tab.del h.cells i
    counts := { x with pend := x.pend + p, repl := x.repl + r, refs := x.refs + p + r } }

/-- Change a stored cell. -/
def Hub.updCell (h : Hub) (i : Nat) (f : CellSt → CellSt) : Hub :=
  match h.cell i with
  | some c => h.setCell i (some (f c))
  | none => h

/-- The physical bank of a logical bank, 0x3F when it is mapped out (TSC_BANK_MAP). -/
def Hub.bankOf (h : Hub) (lb : Nat) : Nat := h.rdF (Reg.TSC_BANK_MAP (lb / 5)) (6 * (lb % 5) + 5) (6 * (lb % 5))

/-- Cells may be taken from a logical bank: it is neither draining nor mapped out. -/
def Hub.bankUsable (h : Hub) (lb : Nat) : Bool :=
  decide (h.banks.draining ≠ some lb) && decide (h.bankOf lb ≠ 0x3F)

/-- The first `n` numbers from `next` up to `lim` that a rising list does not name. -/
def gaps (lim : Nat) : List Nat → Nat → Nat → List Nat
  | [], next, n => (List.range (min n (lim - next))).map fun j => next + j
  | k :: ks, next, n =>
    let m := min n (k - next)
    ((List.range m).map fun j => next + j) ++ gaps lim ks (k + 1) (n - m)

/-- The lowest `n` free cell indices, fewer when fewer are free. (Log entry 63, DESIGN CHOICE.) -/
def Hub.freeIdx (h : Hub) (n : Nat) : List Nat :=
  let keys := Tab.keys h.cells
  (List.range 32).foldl (fun acc lb =>
    if acc.length < n ∧ h.bankUsable lb then
      acc ++ gaps (2048 * lb + 2048) (keys.filter fun k => k / 2048 = lb) (2048 * lb) (n - acc.length)
    else acc) []

/-- Store a cell at a free index, with the time of its arrival; event 0x01 of Table 20.2. -/
def Hub.storeCell (h : Hub) (i : Nat) (c : CellSt) : Hub :=
  (h.setCell i (some { c with arr := h.mono })).pmcEvent 0x01 c.inp c.tc

/-- Store cells at free indices. -/
def Hub.newCells (h : Hub) (cs : List CellSt) : Hub × List Nat :=
  let ix := h.freeIdx cs.length
  ((ix.zip cs).foldl (fun h e => h.storeCell e.1 e.2) h, ix)

/-- A frame is dropped for a reason of R35: event 0x04 of Table 20.2. -/
def Hub.dropEvent (h : Hub) (port tc : Nat) : Hub := h.pmcEvent 0x04 port tc

/-! ### Link ports' credit state, as the release of cells moves it -/

/-- The state of a link port. -/
def Hub.link (h : Hub) (p : Nat) : LinkSt := Tab.get (fun _ => {}) h.links p

/-- Change the state of a link port. -/
def Hub.updLink (h : Hub) (p : Nat) (f : LinkSt → LinkSt) : Hub :=
  { h with links := Tab.upd (fun _ => {}) h.links p f }

/-- The state code of a link port (KL_STATE.STATE). -/
def Hub.klState (h : Hub) (p : Nat) : Nat := h.rdF (Reg.KL_STATE p) 3 0

/-- A credit of class `c` is returned on a port (R140). -/
def Hub.creditBack (h : Hub) (p c : Nat) : Hub :=
  h.updLink p fun l => { l with retCum := modAt l.retCum c fun n => (n + 1) % 65536 }

/-- Release a cell: it is free again, and a cell that holds a link credit returns it (R16, R140). -/
def Hub.freeCell (h : Hub) (i : Nat) : Hub :=
  match h.cell i with
  | none => h
  | some c =>
    let h := if c.credit then
        (h.updLink c.inp fun l => { l with held := modAt l.held c.tc fun n => n - 1 }).creditBack c.inp c.tc
      else h
    h.setCell i none

/-- Release several cells. -/
def Hub.freeCells (h : Hub) (l : List Nat) : Hub := l.foldl Hub.freeCell h

/-- The receive limit in force of a port and class; an RX_LIMIT_C6 below 16 acts as 16 (R161). -/
def Hub.rxLimit (h : Hub) (p c : Nat) : Nat :=
  let v := h.rdF (Reg.TP_RX_LIMIT p c) 11 0
  if c = 6 then max 16 v else v

/-- TSC_RESERVE (R160). -/
def Hub.reserve (h : Hub) : Nat :=
  (List.range 9).foldl (fun a p =>
    let st := h.klState p
    if 4 ≤ st ∧ st ≤ 8 then
      (List.range 8).foldl (fun a c => a + (h.rxLimit p c - (h.link p).held.getD c 0)) a
    else if st = 2 ∨ st = 3 then a + 16
    else a) 0

/-- TP_PEND_C of target t and class c (R164). -/
def Hub.pendC (h : Hub) (t c : Nat) : Nat :=
  h.cells.foldl (fun n e => if e.2.pend.testBit t ∧ e.2.tc = c then n + 1 else n) 0

/-- TP_PEND_TOTAL of target t. -/
def Hub.pendTotal (h : Hub) (t : Nat) : Nat :=
  h.cells.foldl (fun n e => if e.2.pend.testBit t then n + 1 else n) 0

/-- TP_ING_HELD of port i. -/
def Hub.ingHeld (h : Hub) (i : Nat) : Nat := h.cells.foldl (fun n e => if e.2.inp = i then n + 1 else n) 0

/-- The kitty above the reserve holds at least n cells (R160). -/
def Hub.roomFor (h : Hub) (n : Nat) : Bool := decide ((n : Int) ≤ h.counts.kitty - h.reserve)

/-- What TSC watches across a command: the lowest KITTY, the fall of KITTY to the reserve and the highest pending
count of each port (R187, Table 6.11). -/
def Hub.tscWatch (o n : Hub) : Hub :=
  let k := n.counts.kitty.toNat
  let n := if k < n.rdF Reg.TSC_KITTY_MIN 16 0 then n.wrF Reg.TSC_KITTY_MIN 16 0 k else n
  let n := if n.counts.kitty ≤ n.reserve ∧ (o.reserve : Int) < o.counts.kitty then n.attn .tsc 8 else n
  if o.cells = n.cells then n
  else (List.range 18).foldl (fun n t => n.maxF (Reg.TP_PEND_MAX t) 16 0 (n.pendTotal t)) n

/-- Answer a command that moves cells. -/
def actT (s : State) (c : Bool) (f : Hub → Hub) : Answer := act s c fun h => h.tscWatch (f h)

/-! ### Contexts by slot -/

/-- Put a context into a slot. -/
def Hub.setCtx (h : Hub) (s : Nat) (c : Ctx) : Hub := { h with ctxs := Tab.set ctxReset h.ctxs s c }

/-- Change the context in a slot. -/
def Hub.updCtx (h : Hub) (s : Nat) (f : Ctx → Ctx) : Hub := h.setCtx s (f (h.ctx s))

/-- What a lookup of a handle finds (R192, R201). -/
inductive Lookup where
  | resident (slot : Nat)
  | dummy (slot : Nat)
  | miss
  deriving DecidableEq, Repr

/-- The shaper rate of a context, in Mb/s; 0: none (R232). -/
def Ctx.shapeRate (c : Ctx) : Nat :=
  if c.rate = 0 then (if c.ceil = 0xFFFFF then 0 else c.ceil)
  else min c.rate (if c.ceil = 0xFFFFF then c.rate else c.ceil)

/-- The flow's policy has a shaper: a rate or a ceiling is set. -/
def Ctx.shaped (c : Ctx) : Bool := decide (c.rate ≠ 0) || decide (c.ceil ≠ 0xFFFFF)

/-- CTX_ID of a context. -/
def Ctx.idWord (c : Ctx) : Word :=
  w32 (c.handle + c.tc * 2 ^ 24 + b2n c.mcast * 2 ^ 27 + b2n c.reseq * 2 ^ 28 + b2n c.pin * 2 ^ 29)

/-- CTX_DEST of a context. -/
def Ctx.destWord (c : Ctx) : Word := w32 (c.port + c.group * 2 ^ 16)

/-- Words 0x00 to 0x18 of a context, as a template has them. -/
def Ctx.policyWords (c : Ctx) : List Word :=
  [c.idWord, c.destWord, w32 c.inmask, w32 c.weight, w32 c.floor, w32 c.ceil, w32 (c.rate + c.burst * 2 ^ 20)]

/-- Look a flow handle up among the RESIDENT and DUMMY slots; slots 0 to 8 have no handle (R191). -/
def Hub.lookup (h : Hub) (flow : Nat) : Lookup :=
  match h.ctxs.find? fun e => 9 ≤ e.1 ∧ e.2.handle = flow ∧ (e.2.state = .resident ∨ e.2.state = .dummy) with
  | some (s, c) => if c.state = .resident then .resident s else .dummy s
  | none => .miss

/-- The per-flow counts of d added to those of c. -/
def Ctx.addCounts (c d : Ctx) : Ctx :=
  let m := holdAt 0xFFFFFFFF
  { c with
    cntPennant := m (c.cntPennant + d.cntPennant)
    cntAdmit := m (c.cntAdmit + d.cntAdmit)
    cntReset := m (c.cntReset + d.cntReset)
    cntGap := m (c.cntGap + d.cntGap)
    cntDup := m (c.cntDup + d.cntDup)
    cntLate := m (c.cntLate + d.cntLate)
    cntFoyer := m (c.cntFoyer + d.cntFoyer)
    cntExit := m (c.cntExit + d.cntExit) }

/-- One more frame dropped, by the reason that a count stands for (R35). -/
inductive DropCnt where
  | pennant | admission | reset | foyer | exit
  deriving DecidableEq, Repr

/-- Count n frames of a context. -/
def Ctx.drop (c : Ctx) (k : DropCnt) (n : Nat) : Ctx :=
  match k with
  | .pennant => { c with cntPennant := holdAt 0xFFFFFFFF (c.cntPennant + n) }
  | .admission => { c with cntAdmit := holdAt 0xFFFFFFFF (c.cntAdmit + n) }
  | .reset => { c with cntReset := holdAt 0xFFFFFFFF (c.cntReset + n) }
  | .foyer => { c with cntFoyer := holdAt 0xFFFFFFFF (c.cntFoyer + n) }
  | .exit => { c with cntExit := holdAt 0xFFFFFFFF (c.cntExit + n) }

/-- Count n dropped frames of a flow at port p (R35, R188): in its context; in its dummy; and where it has no slot, for the context that a
page-in installs later (R204, Table 7.7). A control message counts in the context of its link port. (Log entry 51, DEDUCED.) -/
def Hub.countFlow (h : Hub) (p flow : Nat) (k : DropCnt) (n : Nat := 1) : Hub :=
  if 0xFFC000 ≤ flow then (if p < 9 then h.updCtx p fun c => c.drop k n else h)
  else
    match h.lookup flow with
    | .resident s | .dummy s => h.updCtx s fun c => c.drop k n
    | .miss => { h with paging := { h.paging with owed := Tab.upd (fun _ => {}) h.paging.owed flow fun c => c.drop k n } }

/-- The context installed in a slot takes the counts that its flow was owed. -/
def Hub.payOwed (h : Hub) (s : Nat) : Hub :=
  let flow := (h.ctx s).handle
  match Tab.find h.paging.owed flow with
  | some d => { (h.updCtx s fun c => c.addCounts d) with paging := { h.paging with owed := Tab.del h.paging.owed flow } }
  | none => h

/-! ### The scheduler's state per flow and target -/

/-- The key of a flow-target. -/
def ftKey (s t : Nat) : Nat := 32 * s + t

/-- The state of a flow at a target, if TSS holds any. -/
def Hub.ft (h : Hub) (s t : Nat) : Option FlowTgt := Tab.find h.fts (ftKey s t)

/-- Put the state of a flow at a target. -/
def Hub.setFt (h : Hub) (s t : Nat) (f : FlowTgt) : Hub := { h with fts := Tab.put h.fts (ftKey s t) f }

/-- The scheduler's state of a port. -/
def Hub.tport (h : Hub) (t : Nat) : TssPort := Tab.get (fun _ => {}) h.tports t

/-- Change the scheduler's state of a port. -/
def Hub.updTport (h : Hub) (t : Nat) (f : TssPort → TssPort) : Hub :=
  { h with tports := Tab.upd (fun _ => {}) h.tports t f }

/-- OVH of a port in force (R227). -/
def Hub.ovh (h : Hub) (t : Nat) : Nat := h.rdF (Reg.TS_CFG t) 6 0

/-- The charged bytes that one cell carries at a target (R227, R228). -/
def Hub.cellCharge (h : Hub) (t : Nat) (c : CellSt) : Nat :=
  if isLinkPort t then 16 * (1 + (c.payload.length + 15) / 16) + h.ovh t
  else c.payload.length + (if c.last then h.ovh t else 0)

/-- The cells of a slot that a target has not read, in list order. -/
def Hub.pendingOf (h : Hub) (s t : Nat) : List Nat :=
  (h.ctx s).list.filter fun i => (h.cell i).elim false fun c => c.pend.testBit t

/-- A flow-target gains a pending cell: its state starts with TS_NEWQ if it had none, and the bytes admitted
count as demand (R164, R246). -/
def Hub.ftGain (h : Hub) (s t : Nat) (c : CellSt) : Hub :=
  let x := (h.ft s t).getD
    { quant := max 1 (h.rdF (Reg.TS_NEWQ t (min 6 c.tc)) 15 0), since := h.mono, elig := h.mono, headAt := h.mono }
  h.setFt s t { x with admitted := x.admitted + h.cellCharge t c }

/-- What names a flow to the deal's measurement: its handle, or the slot of a link port's context. -/
def Hub.demandKey (h : Hub) (s : Nat) : Nat := if s < 9 then 2 ^ 24 + s else (h.ctx s).handle

/-- The bytes and the ns that a flow had at a port, with state, before it lost it in this epoch. -/
def TssPort.before (p : TssPort) (k : Nat) : Nat × Nat := ((p.past.find? fun x => x.1 = k).map (·.2)).getD (0, 0)

/-- A flow-target that loses its state leaves its measurement of the epoch (R243). -/
def Hub.ftPast (h : Hub) (s t : Nat) (f : FlowTgt) : Hub :=
  let k := h.demandKey s
  h.updTport t fun p =>
    let b := p.before k
    { p with past := (k, b.1 + f.admitted, b.2 + (h.mono - f.since)) :: p.past.filter fun x => x.1 ≠ k }

/-- TSS drops a flow's state at a target that has no pending cell left, and the class's deficit when it was the
last flow of its class there (R231). -/
def Hub.ftSweep (h : Hub) (s t : Nat) : Hub :=
  if h.pendingOf s t ≠ [] then h
  else
    let tc := (h.ctx s).tc
    let h := match h.ft s t with
      | some f => h.ftPast s t f
      | none => h
    let h := { h with fts := Tab.del h.fts (ftKey s t) }
    if tc < 7 ∧ ¬ h.fts.any fun e => e.1 % 32 = t ∧ (h.ctx (e.1 / 32)).tc = tc then
      h.updTport t fun p => { p with cdef := putAt p.cdef tc 0 }
    else h

/-- The head unit of a flow at a target has changed: its eligibility time starts anew, and it has not waited. -/
def Hub.newHead (h : Hub) (s t : Nat) : Hub :=
  match h.ft s t with
  | some f => h.setFt s t { f with elig := h.mono, headAt := h.mono, waited := false }
  | none => h

/-- The targets of a mask at which a flow's head cell has changed have a new head unit (R229, R235). -/
def Hub.reheads (old h : Hub) (s mask : Nat) : Hub :=
  (onesOf mask 18).foldl (fun h t => if (old.pendingOf s t).head? = (h.pendingOf s t).head? then h else h.newHead s t) h

/-- A frame has failed at a target. -/
def Hub.markFailed (h : Hub) (s t fseq : Nat) : Hub :=
  h.updTport t fun p => { p with failed := if p.failed.contains (s, fseq) then p.failed else p.failed ++ [(s, fseq)] }

/-! ### Flow lists -/

/-- Cells join their flow's list in order, pending at their targets (R163). -/
def Hub.enlist (h : Hub) (s : Nat) (ix : List Nat) : Hub :=
  ix.foldl (fun h i =>
    match h.cell i with
    | none => h
    | some c =>
      let c := { c with slot := s, pend := c.tmask, place := .listed }
      let h := h.setCell i (some c)
      let h := h.updCtx s fun x => { x with list := x.list ++ [i] }
      (onesOf c.tmask 18).foldl (fun h t => h.ftGain s t c) h) h

/-- A cell without references. -/
def Hub.refless (h : Hub) (i : Nat) : Bool := (h.cell i).elim true fun c => decide (c.pend = 0 ∧ c.repl = 0)

/-- The head cells of a list that hold no reference return to the kitty (R159, R172). -/
def Hub.purge (h : Hub) (s : Nat) : Hub :=
  let l := (h.ctx s).list
  let go := l.takeWhile h.refless
  (h.freeCells go).updCtx s fun x => { x with list := x.list.drop go.length }

/-- Take cells off their list and release them. -/
def Hub.unlink (h : Hub) (s : Nat) (ix : List Nat) : Hub :=
  (h.updCtx s fun x => { x with list := x.list.filter fun i => ¬ ix.contains i }).freeCells ix

/-- Targets drop their references to cells they have not read, and cells left without references are unlinked from their list
and released (R175, R179). -/
def Hub.dropUnread (h : Hub) (s : Nat) (ix : List Nat) (mask : Nat) : Hub :=
  let old := h
  let h := ix.foldl (fun h i => h.updCell i fun c => { c with pend := c.pend - (c.pend &&& mask) }) h
  let h := (h.unlink s (ix.filter h.refless)).purge s
  old.reheads ((onesOf mask 18).foldl (fun h t => h.ftSweep s t) h) s mask

/-- Targets release their references to cells they will not send; a cell left without references returns to the kitty once every
older cell of its list has gone, and is SPENT until then (R159, R172, R178, R186). -/
def Hub.dropRefs (h : Hub) (s : Nat) (ix : List Nat) (mask : Nat) : Hub :=
  let old := h
  let h := (ix.foldl (fun h i => h.updCell i fun c => { c with pend := c.pend - (c.pend &&& mask) }) h).purge s
  let h := h.freeCells (ix.filter fun i => h.refless i && !(h.ctx s).list.contains i)
  old.reheads ((onesOf mask 18).foldl (fun h t => h.ftSweep s t) h) s mask

/-- A link target releases its replay reference to a cell (R144, R172). -/
def Hub.dropReplay (h : Hub) (t i : Nat) : Hub :=
  match h.cell i with
  | none => h
  | some c =>
    let h := (h.setCell i (some { c with repl := c.repl - (c.repl &&& 2 ^ t) })).purge c.slot
    if h.refless i && !(h.ctx c.slot).list.contains i then h.freeCells [i] else h

/-! ### Counting -/

/-- Count a frame of a slot's flow as dropped by pennant failure (R35, R188). -/
def Hub.countPennant (h : Hub) (s : Nat) : Hub := h.updCtx s fun c => c.drop .pennant 1

/-- Count frames of a slot's flow as dropped by block reset. -/
def Hub.countReset (h : Hub) (s n : Nat) : Hub := h.updCtx s fun c => c.drop .reset n

/-- Count a frame of a slot's flow as discarded at exit. -/
def Hub.countExit (h : Hub) (s : Nat) : Hub := h.updCtx s fun c => c.drop .exit 1

/-! ### Abandoned frames (R175) -/

/-- Cell i is still a cell of an open frame. -/
def Hub.ofFrame (h : Hub) (o : OpenFrame) (i : Nat) : Bool :=
  (h.cell i).elim false fun c => decide (c.inp = o.port ∧ c.flow = o.flow ∧ c.fseq = o.fseq)

/-- The frames in a port's foyer, oldest first. -/
def Hub.foyer (h : Hub) (p : Nat) : List FoyFrame := Tab.get (fun _ => []) h.foyers p

/-- Replace a port's foyer. -/
def Hub.setFoyer (h : Hub) (p : Nat) (l : List FoyFrame) : Hub :=
  { h with foyers := Tab.set (fun _ => []) h.foyers p l }

/-- Remove the frame of a foyer that an open frame stands for. -/
def Hub.foyRemove (h : Hub) (p flow fseq : Nat) : Hub :=
  { h with foyers := Tab.upd (fun _ => []) h.foyers p fun l =>
      l.filter fun (f : FoyFrame) => ¬ (f.flow = flow ∧ f.fseq = fseq ∧ f.complete = false) }

/-- TSC abandons an open frame: each target's references to the cells it has not read are dropped, and the frame
is counted per flow and at the ingress port. -/
def Hub.abandon (h : Hub) (o : OpenFrame) : Hub :=
  let ix := o.cells.filter (h.ofFrame o)
  let h := { h with opens := h.opens.filter fun x => ¬ (x.port = o.port ∧ x.flow = o.flow) }
  let h := match o.fate with
    | .admitted s m => (h.dropUnread s ix m).countPennant s
    | .reseq s _ => (h.freeCells ix).countPennant s
    | .foyer => ((h.foyRemove o.port o.flow o.fseq).freeCells ix).countFlow o.port o.flow .pennant
    | .steward => (h.freeCells ix).countFlow o.port o.flow .pennant
  (h.inc (Reg.TP_DROP_ABANDON o.port)).dropEvent o.port o.tc

/-- The open frame of a port and flow. -/
def Hub.openOf (h : Hub) (p flow : Nat) : Option OpenFrame := h.opens.find? fun o => o.port = p ∧ o.flow = flow

/-! ### The resequencer (R176, R177) -/

/-- NEXT advances by one; the history takes the FSEQ passed as delivered or missing. -/
def Ctx.rsqStep (c : Ctx) (got : Bool) : Ctx :=
  { c with rsqNext := (c.rsqNext + 1) % 65536, hist := c.hist / 2 + (if got then 2 ^ 63 else 0) }

/-- FSEQs passed over as missing: GAP and history bits of 0, in one jump. -/
def Ctx.rsqMiss (c : Ctx) (k : Nat) : Ctx :=
  { c with
    rsqNext := (c.rsqNext + k) % 65536
    hist := if 64 ≤ k then 0 else c.hist / 2 ^ k
    cntGap := holdAt 0xFFFFFFFF (c.cntGap + k) }

/-- How far FSEQ f lies ahead of NEXT, modulo 65,536. -/
def Ctx.rsqDist (c : Ctx) (f : Nat) : Nat := (f + 65536 - c.rsqNext) % 65536

/-- Release one held frame. -/
def Hub.rsqRelease (h : Hub) (s : Nat) (f : HeldFrame) : Hub :=
  (h.updCtx s fun c => { c with held := c.held.filter fun (x : HeldFrame) => x.fseq ≠ f.fseq }).enlist s f.cells

/-- Release held frames while one is held at NEXT. -/
def Hub.rsqDrain (h : Hub) (s : Nat) : Nat → Hub
  | 0 => h
  | n + 1 =>
    match (h.ctx s).held.find? fun (f : HeldFrame) => f.fseq = (h.ctx s).rsqNext with
    | none => h
    | some f => Hub.rsqDrain ((h.rsqRelease s f).updCtx s fun c => c.rsqStep true) s n

/-- NEXT advances over k FSEQs: held ones are released in order, the others count GAP. -/
def Hub.rsqSkip (h : Hub) (s : Nat) : Nat → Hub
  | 0 => h
  | k + 1 =>
    match (h.ctx s).held with
    | [] => (h.updCtx s fun c => c.rsqMiss (k + 1)).attn .tsc 7
    | _ :: _ =>
      match (h.ctx s).held.find? fun (f : HeldFrame) => f.fseq = (h.ctx s).rsqNext with
      | some f => Hub.rsqSkip ((h.rsqRelease s f).updCtx s fun c => c.rsqStep true) s k
      | none => Hub.rsqSkip ((h.updCtx s fun c => c.rsqMiss 1).attn .tsc 7) s k

/-- Held frames in the order of their distance from NEXT. -/
def Ctx.insHeld (c : Ctx) (f : HeldFrame) : Ctx :=
  let d := c.rsqDist f.fseq
  { c with held := (c.held.takeWhile fun x => c.rsqDist x.fseq < d) ++ f ::
      (c.held.dropWhile fun x => c.rsqDist x.fseq < d) }

/-- Hold a frame; its first cell takes HELD_T (Table 6.1). -/
def Hub.rsqHold (h : Hub) (s : Nat) (f : HeldFrame) : Hub :=
  let h := match f.cells with
    | i :: _ => h.updCell i fun c => { c with heldT := h.now % 2 ^ 32 }
    | [] => h
  h.updCtx s fun c => c.insHeld f

/-- Release an arriving frame at NEXT, and the held frames that follow it. -/
def Hub.rsqTake (h : Hub) (s : Nat) (f : HeldFrame) : Hub :=
  ((h.enlist s f.cells).updCtx s fun c => c.rsqStep true).rsqDrain s 64

/-- A whole frame reaches the resequencer at its LAST cell (Table 6.5). -/
def Hub.rsqFrame (h : Hub) (s : Nat) (f : HeldFrame) : Hub :=
  let h := if (h.ctx s).rsqSet then h
    else h.updCtx s fun c => { c with rsqSet := true, rsqNext := f.fseq }
  let c := h.ctx s
  let d := c.rsqDist f.fseq
  if d = 0 then h.rsqTake s f
  else if d < 64 then
    if c.held.any fun x => x.fseq = f.fseq then
      (h.freeCells f.cells).updCtx s fun c => { c with cntDup := holdAt 0xFFFFFFFF (c.cntDup + 1) }
    else h.rsqHold s f
  else if d < 32768 then
    let h := (h.rsqSkip s (d - 63)).rsqDrain s 64
    if (h.ctx s).rsqDist f.fseq = 0 then h.rsqTake s f else h.rsqHold s f
  else if d < 65472 then
    (h.freeCells f.cells).updCtx s fun c => { c with cntDup := holdAt 0xFFFFFFFF (c.cntDup + 1) }
  else if c.hist.testBit (d - 65472) then
    (h.freeCells f.cells).updCtx s fun c => { c with cntDup := holdAt 0xFFFFFFFF (c.cntDup + 1) }
  else
    (h.freeCells f.cells).updCtx s fun c => { c with cntLate := holdAt 0xFFFFFFFF (c.cntLate + 1) }

/-- TSC_RESEQ_TMO in force, in ns: 1 to 1,000 µs. -/
def Hub.reseqTmo (h : Hub) : Nat := 1000 * clampN 1 1000 (h.rdF Reg.TSC_RESEQ_TMO 9 0)

/-- The head of the chain of held frames times out: NEXT advances to it; the next head times out at once when
its own time has passed already (R177). -/
def Hub.rsqTimeout (h : Hub) (s : Nat) : Nat → Hub
  | 0 => h
  | n + 1 =>
    match (h.ctx s).held with
    | [] => h
    | f :: _ =>
      let h := (h.rsqSkip s ((h.ctx s).rsqDist f.fseq)).rsqDrain s 64
      match (h.ctx s).held with
      | [] => h
      | g :: _ => if g.since + h.reseqTmo ≤ h.mono then Hub.rsqTimeout h s n else h

end Sys2Proof.Machine
end

