-- ==== Sys2Proof/Machine/Bank.lean ====
section
/-! DEFINITION. The banks of the shared buffer (R157, R180–R182): the map, the spare, and how a live bank is condemned. -/

namespace Sys2Proof.Machine

/-- Put a physical bank into the map of a logical one. -/
def Hub.setBank (h : Hub) (lb pb : Nat) : Hub := h.wrF (Reg.TSC_BANK_MAP (lb / 5)) (6 * (lb % 5) + 5) (6 * (lb % 5)) pb

/-- The spare physical bank, 0x3F none (TSC_BANK_SPARE). -/
def Hub.spareBank (h : Hub) : Nat := h.rdF Reg.TSC_BANK_SPARE 5 0

/-- TSC_CAP.SPARE_PRESENT. -/
def Hub.sparePresent (h : Hub) : Bool := h.rdB Reg.TSC_CAP 23

/-- TSC_BANK_SPARE shows what is being copied and drained. -/
def Hub.showBanks (h : Hub) : Hub :=
  h.wr Reg.TSC_BANK_SPARE (w32 (h.spareBank
    + (h.banks.copying.elim 0 fun l => 0x40 + 0x100 * l) + (h.banks.draining.elim 0 fun l => 0x10000 + 0x1000000 * l)))

/-- The free cells of a logical bank. -/
def Hub.freeInBank (h : Hub) (lb : Nat) : Nat := 2048 - (h.cells.filter fun e => e.1 / 2048 = lb).length

/-- A drain starts: the bank's free cells move from KITTY to CONDEMNED (R182). -/
def Hub.startDrain (h : Hub) (lb : Nat) : Hub :=
  let n : Int := h.freeInBank lb
  let h := { h with
    counts := (h.counts.move .kitty (-n)).move .condemned n
    banks := { h.banks with draining := some lb } }
  h.showBanks

/-- A condemned bank is copied to the spare at once; without a spare it is drained; while the freed bank of a
rotation step is under test it waits (R182). A rotation step that is still copying gives way, and starts again afterwards
(R182, Table 19.6). -/
def Hub.condemnBank (h : Hub) (lb : Nat) : Hub :=
  let h := h.attn .tsc 3
  if h.banks.testing.isSome ∨ h.banks.condemn ∨ h.banks.draining.isSome then
    { h with banks := { h.banks with waiting := h.banks.waiting ++ [lb] } }
  else if h.sparePresent then
    let h := match h.banks.copying with
      | some k => { h with sit := { h.sit with running := false, due := true, next := k } }
      | none => h
    ({ h with banks := { h.banks with copying := some lb, condemn := true } }).showBanks
  else h.startDrain lb

/-- With TSC_BANK_CFG.AUTO 1 a live bank is condemned by an uncorrectable error in it, or by more than 16 corrected errors in it
within 1 s (R182), unless its condemnation is under way. -/
def Hub.autoCondemn (h : Hub) (lb : Nat) : Hub :=
  if h.rdB Reg.TSC_BANK_CFG 0 = false ∨ h.bankOf lb = 0x3F ∨ (h.banks.condemn ∧ h.banks.copying = some lb)
      ∨ h.banks.draining = some lb ∨ h.banks.waiting.contains lb then h
  else h.condemnBank lb

/-- An uncorrectable error in the payload of cell i (R179, R182). -/
def Hub.bufEcc (h : Hub) (i : Nat) : Hub := (h.fault .tsc 3).autoCondemn (i / 2048)

end Sys2Proof.Machine
end

