-- ==== Sys2Proof/Machine/Pair.lean ====
section
/-! DEFINITION. The mirrored pair as the data path sees it (R256–R261, R267): groups and roles, the targets of Table
9.3, held units, the record table, the records that wait for a batch. -/

namespace Sys2Proof.Machine

/-- MIR_STAT.STATE (Table 9.1). -/
def Hub.pairState (h : Hub) : Nat := h.rdF Reg.MIR_STAT 2 0

/-- The pair is PAIRED. -/
def Hub.paired (h : Hub) : Bool := decide (h.pairState = 2)

/-- PORTS of a group in force. -/
def Hub.groupPorts (h : Hub) (g : Nat) : Nat := h.rdF (Reg.MIR_GROUP g) 7 0

/-- The group of a twin port; none: a local port (R253, R256). -/
def Hub.groupOf (h : Hub) (t : Nat) : Option Nat :=
  if t ≤ 7 then (List.range 8).find? fun g => (h.groupPorts g).testBit t else none

/-- This member is hoist of group g: of every group while the pair is not PAIRED (Table 9.1). -/
def Hub.hoistOf (h : Hub) (g : Nat) : Bool := !h.paired || h.rdB Reg.MIR_ROLE g

/-- Table 9.3: the targets of a frame of class c from ingress i, each replaced or extended. A member in ALONE sends no frame to M (Table
9.5). (Log entry 30, DEDUCED.) -/
def Hub.pairTargets (h : Hub) (i c all : Nat) : Nat :=
  if c = 6 then all
  else (onesOf all 18).foldl (fun m t => m ||| (match h.groupOf t with
    | none => 2 ^ t
    | some g =>
      if i = 8 then 2 ^ t
      else if c = 7 then (if (h.groupOf i).isSome || decide (h.pairState = 3) then 2 ^ t else 2 ^ t ||| 2 ^ 8)
      else if h.hoistOf g then 2 ^ t else 2 ^ 8)) 0

/-- MIR_CROSS_LATE (Table 9.3): a frame of TC0–TC5 from M admitted to a twin port of a group of which this member is
fly. -/
def Hub.crossLate (h : Hub) (i c ok : Nat) : Hub :=
  if i = 8 ∧ c ≤ 5 ∧ (onesOf ok 8).any fun t => (h.groupOf t).elim false fun g => !h.hoistOf g then
    h.inc Reg.MIR_CROSS_LATE
  else h

/-- The units of TC0–TC5 on the twin ports of a group are held after a GIVE (R267). -/
def Hub.pairHeld (h : Hub) (t c : Nat) : Bool :=
  decide (c ≤ 5) && (h.groupOf t).elim false fun g => h.rdB Reg.MIR_ROLE (16 + g)

/-! ### The record table (R261) -/

/-- MIR_REC_USED follows the table. -/
def Hub.setRecs (h : Hub) (r : Tab PairRec) : Hub :=
  ({ h with mir := { h.mir with recs := r } }).wr Reg.MIR_REC_USED (w32 r.length)

/-- Pinned contexts of software's own. -/
def Hub.pinsHeld (h : Hub) : Nat := (h.ctxs.filter fun e => 9 ≤ e.1 ∧ e.2.pin).length

/-- This hub keeps a record table: MIR is present and the role can be paired. -/
def Hub.keepsRecs (h : Hub) : Bool := h.up .mir && decide (h.role ≠ .leaf)

/-- A flow has an entry in the record table, made now if there is room; room for 6,144 pinned flows is kept. A flow without one counts
once in MIR_REC_FULL. -/
def Hub.recEnsure (h : Hub) (flow : Nat) (pin : Bool) : Hub :=
  if (Tab.find h.mir.recs flow).isSome then h
  else if pin || decide (h.mir.recs.length + (6144 - h.pinsHeld) < 16384) then
    let h := { h with mir := { h.mir with noRec := h.mir.noRec.filter fun x => x ≠ flow } }
    h.setRecs (Tab.put h.mir.recs flow {})
  else if h.mir.noRec.contains flow then h
  else (({ h with mir := { h.mir with noRec := h.mir.noRec ++ [flow] } }).inc Reg.MIR_REC_FULL).attn .mir 6

/-- Change the entry of a flow, if it has one. -/
def Hub.updRec (h : Hub) (flow : Nat) (f : PairRec → PairRec) : Hub :=
  match Tab.find h.mir.recs flow with
  | some r => { h with mir := { h.mir with recs := Tab.put h.mir.recs flow (f r) } }
  | none => h

/-- The context of a flow leaves the hub: its entry is freed. -/
def Hub.recDrop (h : Hub) (flow : Nat) : Hub :=
  let h := if h.mir.noRec.contains flow then { h with mir := { h.mir with noRec := h.mir.noRec.filter fun x => x ≠ flow } } else h
  if (Tab.find h.mir.recs flow).isSome then h.setRecs (Tab.del h.mir.recs flow) else h

/-- A frame's LAST cell was accepted on a port: IN_PORT and LAST_IN of a twin port. -/
def Hub.recIn (h : Hub) (p flow fseq : Nat) : Hub :=
  if h.keepsRecs && (h.groupOf p).isSome && decide (flow < 0xFFC000) then
    (h.recEnsure flow false).updRec flow fun r => { r with inPort := p, lastIn := fseq }
  else h

/-- The peer on a twin port acknowledged a frame's LAST cell: LAST_ACK_OUT, on the flow's lowest twin target. -/
def Hub.recAck (h : Hub) (t : Nat) (c : CellSt) : Hub :=
  if h.keepsRecs && c.last && decide (c.flow < 0xFFC000)
      && decide ((onesOf c.tmask 8).find? (fun x => (h.groupOf x).isSome) = some t) then
    (h.recEnsure c.flow false).updRec c.flow fun r => { r with outPort := t, lastAck := c.fseq }
  else h

/-! ### Records on their way to the fly (R260) -/

/-- The groups that the flow in a slot belongs to. -/
def Hub.flowGroups (h : Hub) (s : Nat) : List Nat :=
  (List.range 8).filter fun g => h.targets s &&& h.groupPorts g ≠ 0

/-- Two records are values of one record: only the later one is sent. -/
def sameRec : MirRec → MirRec → Bool
  | .ctxOp a f _, .ctxOp b g _ => decide (a = b ∧ f = g)
  | .seq f .., .seq g .. => decide (f = g)
  | .credit p .., .credit q .. => decide (p = q)
  | .gate p o .., .gate q r .. => decide (p = q ∧ o = r)
  | .shape f _, .shape g _ => decide (f = g)
  | _, _ => false

/-- A record waits for the next batch. -/
def Hub.mirQueue (h : Hub) (r : MirRec) : Hub :=
  { h with mir := { h.mir with queue := h.mir.queue.filter (fun x => !sameRec x.1 r) ++ [(r, h.mono)] } }

/-- FCM's running request is a mirrored operation, with SRC 4 (Table 9.4). -/
def Hub.mirrored (h : Hub) : Bool := (h.mbx .fcm).busy && decide ((h.mbx .fcm).src = 4)

/-- The template of FCM's running request: the one on page 0x02 (R223), or that of the mirror record. -/
def Hub.template (h : Hub) : List Word :=
  if h.mirrored then h.mir.tmpl else (List.range 7).map fun k => h.rd (Reg.FCM_TEMPLATE k)

/-- An operation on the context in a slot is mirrored by the hoist of one of its flow's groups, with the context's template words as they
stand; what a mirror record has asked for is not mirrored back. -/
def Hub.ctxNote (h : Hub) (op s : Nat) : Hub :=
  if h.paired && !h.mirrored && (h.flowGroups s).any h.hoistOf then
    h.mirQueue (.ctxOp op (h.ctx s).handle (h.ctx s).policyWords)
  else h

/-- A write to a gate register of a port: the hoist of its group mirrors it; at the fly it sets GATE_LOCAL
(Table 9.4). -/
def Hub.gateNote (h : Hub) (t off : Nat) (v : Word) : Hub :=
  match h.groupOf t with
  | none => h
  | some g =>
    if !h.paired then h
    else if h.hoistOf g then h.mirQueue (.gate t off v h.now)
    else h.attn .mir 10

/-- A mirrored operation fails at this member (Table 9.4). -/
def Hub.ctxDiverge (h : Hub) : Hub := ((h.inc Reg.MIR_CTX_DIVERGE).attn .mir 5).fault .mir 4

end Sys2Proof.Machine
end

