-- ==== Sys2Proof/Machine/Admit.lean ====
section
/-! DEFINITION. Admission (R165–R170) of frames whose context is resident, the frames that wait at a holding
ingress (Table 6.3), and the steward's own TC6 messages (R129–R132). -/

namespace Sys2Proof.Machine

/-- PXB, USB and the steward hold a frame that cannot be admitted (R166). -/
def holdsAt (i : Nat) : Bool := decide (i = 0x0D ∨ i = 0x10 ∨ i = 0x11)

/-- The decision of R166: admitted for some targets and refused by others; or refused for want of a target, by an
ingress limit or the reserve, or by every target. -/
inductive Verdict where
  | accept (ok refused : Nat)
  | noTarget
  | ingress
  | full (want : Nat)
  deriving DecidableEq, Repr

/-- Cells that PXB has reserved at port P for completions (R365). -/
def Hub.pxReserved (h : Hub) : Nat := h.pxb.pend.foldl (fun n e => n + e.2.resv) 0

/-- A flow brings completions to the bridge: it is PW_RET_N of a window here (R359). -/
def Hub.isRetN (h : Hub) (flow : Nat) : Bool := (List.range 8).any fun w => 
  decide (h.rdF (Reg.PW_RET_N w) 23 0 = flow) && (h.rdB (Reg.PW_CFG w) 0 || h.pxb.pend.any fun e => decide (e.2.win = w))

/-- Target t has room in class c for a flow (R166). At port P a completion is admitted against its reservation, and other TC2
frames against what the reservations leave (R365). -/
def Hub.targetRoom (h : Hub) (t c : Nat) (flow : Nat) : Bool :=
  if t = 0x0D ∧ c = 2 then
    h.isRetN flow || (decide (h.pendC t c + h.pxReserved < h.rdF (Reg.TP_EG_LIMIT t c) 16 0)
      && decide (h.pendTotal t < h.rdF (Reg.TP_EG_PORT_LIMIT t) 16 0))
  else
    decide (h.pendC t c < h.rdF (Reg.TP_EG_LIMIT t c) 16 0)
      && decide (h.pendTotal t < h.rdF (Reg.TP_EG_PORT_LIMIT t) 16 0)

/-- The targets of a mask that have room in class c for a flow. -/
def Hub.roomMask (h : Hub) (want c flow : Nat) : Nat :=
  ((onesOf want 18).filter fun t => h.targetRoom t c flow).foldl (fun a t => a + 2 ^ t) 0

/-- The admission decision at the FIRST cell of a frame of the flow in slot s, from ingress i, with n cells still to
be allocated (R166). -/
def Hub.verdict (h : Hub) (s i c n : Nat) : Verdict :=
  let all := h.targets s
  let all := h.pairTargets i c (all - (all &&& 2 ^ i))
  let want := all - (all &&& 2 ^ i)
  if want = 0 then .noTarget
  else if !isLinkPort i
      && (decide (h.rdF (Reg.TP_ING_LIMIT i) 16 0 < h.ingHeld i + n) || !h.roomFor n) then .ingress
  else
    let ok := h.roomMask want c (h.ctx s).handle
    if ok = 0 then .full want else .accept ok (want - ok)

/-- The verdict lets the frame in at ingress i: a holding ingress waits for all targets. -/
def Verdict.passes (v : Verdict) (i : Nat) : Bool :=
  match v with
  | .accept _ r => decide (r = 0) || !holdsAt i
  | _ => false

/-- MCG_WIDE: a group mask with more than 16 targets is used for a frame's admission decision (R171). (Log entry 53, DESIGN CHOICE.) -/
def Hub.wideCheck (h : Hub) (s : Nat) : Hub :=
  if (h.ctx s).mcast ∧ 16 < popCount (h.groupMask (h.ctx s).group) then h.attn .tsc 5 else h

/-- A TC7 frame that a target refuses (R169). -/
def Hub.trumpRefused (h : Hub) (c mask : Nat) : Hub :=
  if c = 7 ∧ mask ≠ 0 then (h.fault .tsc 6).attn .tsc 6 else h

/-- Count a refused frame at each target that refused it (R167). -/
def Hub.dropAt (h : Hub) (mask : Nat) : Hub :=
  (onesOf mask 18).foldl (fun h t => h.inc (Reg.TP_DROP_ADMIT t)) h

/-- Count a frame that no target admitted (R167, R168). -/
def Hub.countRefused (h : Hub) (s i c : Nat) (v : Verdict) : Hub :=
  let h := (h.updCtx s fun x => x.drop .admission 1).dropEvent i c
  match v with
  | .full want => (h.dropAt want).trumpRefused c want
  | _ => h.inc (Reg.TP_DROP_ADMIT i)

/-- The pennant of a cell: CRC-32C over payload, FLOW and FSEQ (R128). -/
def pennantOf (payload : List Byte) (flow fseq : Nat) : Word :=
  crc32c (payload ++ beBytes 3 flow ++ beBytes 2 fseq)

/-- The cells of a whole frame (R13), each with its pennant (R14). -/
def frameCells (flow fseq tc inp : Nat) (place : CellPlace) (tmask : Nat) (payload : List Byte) : List CellSt :=
  let cs := chunks 256 payload
  (cs.zipIdx).map fun e =>
    { flow := flow, fseq := fseq, tc := tc, first := decide (e.2 = 0), last := decide (e.2 + 1 = cs.length),
      inp := inp, tmask := tmask, pennant := pennantOf e.1 flow fseq, payload := e.1, place := place }

/-- The number of cells of a frame (R13). -/
def cellCount (payload : List Byte) : Nat := (payload.length + 255) / 256

/-- A whole frame's cells join the flow's list, or go to the resequencer of a RESEQ flow (R176). -/
def Hub.frameIn (h : Hub) (s : Nat) (ix : List Nat) (fseq tmask : Nat) : Hub :=
  if (h.ctx s).reseq then h.rsqFrame s { fseq := fseq, cells := ix, since := h.mono, tmask := tmask }
  else h.enlist s ix

/-- Admit a whole frame at a non-link ingress: it takes the flow's next FSEQ (R13), and is counted at the targets
that refuse it (R168). `flow` is the handle its cells carry. -/
def Hub.admitWhole (h : Hub) (s i flow : Nat) (payload : List Byte) (ok refused : Nat) : Hub :=
  let c := h.ctx s
  let fseq := c.inseq
  let h := h.updCtx s fun x => { x with inseq := (fseq + 1) % 65536 }
  let (h, ix) := h.newCells ((frameCells flow fseq c.tc i .reseq ok payload).map fun x => { x with slot := s, adm := h.mono })
  ((h.frameIn s ix fseq ok).dropAt refused).trumpRefused c.tc refused

/-- How a whole frame fared at its ingress; a frame that waits may be a trump frame that a target has refused (R169). -/
inductive Fared where
  | admitted | foyer | dropped | waits (refused : Bool)
  deriving DecidableEq, Repr

/-- Frames of a flow already wait at a holding ingress. -/
def Hub.flowWaits (h : Hub) (i flow : Nat) : Bool :=
  h.waits.any (fun w => w.port = i ∧ w.flow = flow)
    || (Tab.get (fun _ => []) h.foyers i).any (fun (f : FoyFrame) => f.flow = flow ∧ f.waiting = true)

/-- A frame starts to wait at a holding ingress (Table 6.3). -/
def Hub.startWait (h : Hub) (w : WaitFrame) : Hub :=
  ({ h with waits := h.waits ++ [w] }).inc (Reg.TP_WAIT_ADMIT w.port)

/-- The targets that refuse a frame. -/
def Verdict.refusing : Verdict → Nat
  | .accept _ r => r
  | .full want => want
  | _ => 0

/-- A whole frame whose context is in slot s is offered to admission from a non-link ingress; `told` says that a trump frame's refusal
by a target has been reported before (R169). -/
def Hub.offer (h : Hub) (s i flow : Nat) (payload : List Byte) (told : Bool := false) : Hub × Fared :=
  let tc := (h.ctx s).tc
  let h := h.wideCheck s
  let v := h.verdict s i tc (cellCount payload)
  match v with
  | .accept ok r =>
    if v.passes i then (h.admitWhole s i flow payload ok r, .admitted)
    else (if told then h else h.trumpRefused tc r, .waits true)
  | .full want =>
    if holdsAt i then (if told then h else h.trumpRefused tc want, .waits true)
    else (h.countRefused s i tc v, .dropped)
  | _ => if holdsAt i then (h, .waits told) else (h.countRefused s i tc v, .dropped)

/-! ### The steward's messages -/

/-- The port faces up in the role (Table 5.1). -/
def facesUp (r : Role) (p : Nat) : Bool := decide (p = 0) && !decide (r = .root)

/-- FACING of a port: 0 up, 1 down, 2 partner (Tables 5.1 and 5.6). -/
def facing (r : Role) (p : Nat) : Nat := if facesUp r p then 0 else if p = 8 then 2 else 1

/-- The port is UP or IDLE. -/
def Hub.upOrIdle (h : Hub) (p : Nat) : Bool := decide (h.klState p = 5 ∨ h.klState p = 6)

/-- STW_HUB_ID.HUB. -/
def Hub.hubId (h : Hub) : Nat := h.rdF Reg.STW_HUB_ID 13 0

/-- The management handle of hub n (R129). -/
def mgmtHandle (n : Nat) : Nat := 0xFFC000 + n

/-- The port by which a TC6 frame for hub n leaves (R130); M of a pair member stands in for T0
(R259). -/
def Hub.route (h : Hub) (n : Nat) : Option Nat :=
  let ok := (List.range 9).find? fun p =>
    portPresent h.straps p && !facesUp h.role p && h.upOrIdle p
      && decide (h.rdF (Reg.KL_ROUTE p) 13 0 ≤ n) && decide (n ≤ h.rdF (Reg.KL_ROUTE p) 29 16)
  match ok with
  | some p => some p
  | none =>
    if h.role ≠ .root ∧ h.upOrIdle 0 then some 0
    else if h.mirEn ∧ h.klState 8 = 5 ∧ ¬ h.upOrIdle 0 then some 8
    else none

/-- A message of the steward: MSG_TYPE, SRC_HUB, BODY_LEN, body (R132). -/
def Hub.msgBytes (h : Hub) (typ : Nat) (body : List Byte) : List Byte :=
  beBytes 2 typ ++ beBytes 2 h.hubId ++ beBytes 2 body.length ++ body

/-- The steward queues a TC6 frame to a link port through the port's context (R131); it waits if it cannot be
admitted. -/
def Hub.postFrame (h : Hub) (p handle : Nat) (payload : List Byte) : Hub :=
  let w : WaitFrame := { port := 0x11, flow := handle, slot := some p, payload := payload }
  if h.waits.any fun x => x.slot = some p then h.startWait w
  else
    match h.offer p 0x11 handle payload with
    | (h, .waits told) => h.startWait { w with told := told }
    | (h, _) => h

/-- Send a message to the far end of a link (handle 0xFF_C000). -/
def Hub.postNear (h : Hub) (p typ : Nat) (body : List Byte) : Hub :=
  h.postFrame p 0xFFC000 (h.msgBytes typ body)

/-- A TC6 frame from ingress i has no route (R130): dropped as an admission refusal, counted, ROUTE_MISS. -/
def Hub.routeMiss (h : Hub) (i : Nat) : Hub :=
  (((h.inc Reg.KLL_ROUTE_MISS).attn .kll 6).inc (Reg.TP_DROP_ADMIT i)).dropEvent i 6

/-- Send a message to hub n (R130). -/
def Hub.postHub (h : Hub) (n typ : Nat) (body : List Byte) : Hub :=
  match h.route n with
  | some p => h.postFrame p (mgmtHandle n) (h.msgBytes typ body)
  | none => h.routeMiss 0x11

/-- A message is discarded (R132, R210): KLL_MSG_BAD and MSG_BAD. -/
def Hub.msgBad (h : Hub) : Hub := (h.inc Reg.KLL_MSG_BAD).attn .kll 7

/-- Decide the frames that wait at a holding ingress again, in order; a frame behind another of its flow that
still waits goes on waiting (R167). `dec` offers one frame. -/
def Hub.retryWaits (h : Hub) (i : Nat) (dec : Hub → WaitFrame → Hub × Fared) : Hub :=
  let (h, kept, _) := h.waits.foldl (fun (a : Hub × List WaitFrame × List Nat) w =>
    let (h, kept, stuck) := a
    if w.port ≠ i ∨ stuck.contains w.flow then (h, kept ++ [w], stuck)
    else
      match dec h w with
      | (h, .waits told) => (h, kept ++ [{ w with told := told }], stuck ++ [w.flow])
      | (h, _) => (h, kept, stuck)) (h, [], [])
  { h with waits := kept }

end Sys2Proof.Machine
end

