-- ==== Sys2Proof/Machine/Paging.lean ====
section
/-! DEFINITION. Flow contexts and paging (R193–R222): the context image, slots and victims, the refused-flow log,
foyers, page-ins and write-backs. -/

namespace Sys2Proof.Machine

/-! ### The context image (Table 7.2) -/

/-- A signed count as a 32-bit word. -/
def iword (v : Int) : Word := BitVec.ofInt 32 v

/-- The first 63 words of an image with an empty list, no held and no open frame; CTX_GEN is `gen`. -/
def Ctx.words (c : Ctx) (gen : Nat) : List Word :=
  c.policyWords ++ [iword c.tokens, w32 (c.inseq + c.expect * 2 ^ 16)]
  ++ List.replicate 14 0
  ++ [w32 (c.rsqNext + b2n c.rsqSet * 2 ^ 23), 0, lo32 c.hist, hi32 c.hist]
  ++ List.replicate 5 0
  ++ [w32 c.cntPennant, w32 c.cntAdmit, w32 c.cntReset, w32 c.cntGap, w32 c.cntDup, w32 c.cntLate,
    w32 c.cntFoyer, lo32 c.lrs, hi32 c.lrs, w32 c.cntExit]
  ++ List.replicate 20 0 ++ [w32 gen]

/-- Words as bytes, little-endian. -/
def wordBytes (l : List Word) : List Byte := l.flatMap fun w => leBytes 4 w.toNat

/-- The 256-byte image, CTX_CHECK last. -/
def Ctx.image (c : Ctx) (gen : Nat) : List Byte :=
  let b := wordBytes (c.words gen)
  b ++ leBytes 4 (crc32c b).toNat

/-- Word k of an image. -/
def imgWord (b : List Byte) (k : Nat) : Word := w32 (leVal ((b.drop (4 * k)).take 4))

/-- The policy fields of seven words laid out as context words 0x00 to 0x18. -/
def Ctx.withPolicy (c : Ctx) (w : List Word) : Ctx :=
  let g := fun k => w.getD k 0
  { c with
    tc := fld (g 0) 26 24
    mcast := bit (g 0) 27
    reseq := bit (g 0) 28
    port := fld (g 1) 4 0
    group := fld (g 1) 27 16
    inmask := fld (g 2) 21 0
    weight := fld (g 3) 15 0
    floor := fld (g 4) 19 0
    ceil := fld (g 5) 19 0
    rate := fld (g 6) 19 0
    burst := fld (g 6) 31 20 }

/-- The context that a page-in takes from an image (R195). -/
def ctxOfImage (b : List Byte) : Ctx :=
  let g := imgWord b
  { ({ handle := fld (g 0) 23 0 } : Ctx).withPolicy ((List.range 7).map g) with
    tokens := (g 7).toInt
    inseq := fld (g 8) 15 0
    expect := fld (g 8) 31 16
    rsqNext := fld (g 23) 15 0
    rsqSet := bit (g 23) 23
    hist := join64 (g 25) (g 26)
    cntPennant := (g 32).toNat
    cntAdmit := (g 33).toNat
    cntReset := (g 34).toNat
    cntGap := (g 35).toNat
    cntDup := (g 36).toNat
    cntLate := (g 37).toNat
    cntFoyer := (g 38).toNat
    lrs := join64 (g 39) (g 40)
    cntExit := (g 41).toNat
    gen := (g 62).toNat }

/-- The image's CHECK is correct (R209). -/
def imageGood (b : List Byte) : Bool :=
  decide (b.length = 256) && decide (imgWord b 63 = crc32c (b.take 252))

/-! ### Slots, pins and candidates -/

/-- The number of slots in a state; slots 0 to 8 are RESIDENT (R190, R191). -/
def Hub.slotCount (h : Hub) (st : SlotState) : Nat :=
  let n := (h.ctxs.filter fun e => 9 ≤ e.1 ∧ e.2.state = st).length
  match st with
  | .resident => 9 + n
  | .free => 8183 - (h.ctxs.filter fun e => 9 ≤ e.1 ∧ e.2.state ≠ .free).length
  | _ => n

/-- The pinned contexts, the nine of R191 included (R199). -/
def Hub.pinned (h : Hub) : Nat := 9 + (h.ctxs.filter fun e => 9 ≤ e.1 ∧ e.2.pin).length

/-- The lowest FREE slot. -/
def Hub.freeSlot (h : Hub) : Option Nat :=
  (gaps 8192 ((h.ctxs.filter fun e => 9 ≤ e.1 ∧ e.2.state ≠ .free).map (·.1)) 9 1).head?

/-- A frame is open on a slot (R175), or waits at a holding ingress for its admission. (Log entry 28, DEDUCED.) -/
def Hub.frameOpenOn (h : Hub) (s : Nat) : Bool :=
  h.opens.any (fun o => match o.fate with | .admitted t _ => decide (t = s) | .reseq t _ => decide (t = s) | _ => false)
    || h.waits.any (fun w => decide (w.flow = (h.ctx s).handle) && w.slot.isNone)
    || h.foyers.any (fun e => e.2.any fun (f : FoyFrame) => decide (f.flow = (h.ctx s).handle))

/-- No cell, held frame or open frame names the slot (R198, R205). -/
def Hub.slotIdle (h : Hub) (s : Nat) : Bool :=
  let c := h.ctx s
  c.list.isEmpty && c.held.isEmpty && !h.frameOpenOn s

/-- The running FCM request names the flow in a slot, by handle or by slot (R224). -/
def Hub.fcmOpOn (h : Hub) (s : Nat) : Bool :=
  let m := h.mbx .fcm
  let a := (h.arg .fcm 0).toNat
  m.busy && decide (0x11 ≤ m.op)
    && (if bit (h.arg .fcm 1) 31 then decide (a % 8192 = s) else decide (a = (h.ctx s).handle))

/-- A slot is a candidate victim (R205). -/
def Hub.candidate (h : Hub) (s : Nat) : Bool :=
  let c := h.ctx s
  decide (9 ≤ s) && decide (c.state = .resident) && !c.pin && h.slotIdle s

/-- The victim: the candidate with the smallest LRS, the lowest slot on a tie; no flow on which a mailbox
operation acts (R205). -/
def Hub.victim (h : Hub) : Option Nat :=
  (h.ctxs.foldl (fun (b : Option (Nat × Nat)) e =>
    if h.candidate e.1 && !h.fcmOpOn e.1 then
      match b with
      | none => some (e.2.lrs, e.1)
      | some (l, _) => if e.2.lrs < l then some (e.2.lrs, e.1) else b
    else b) none).map (·.2)

/-- Free a slot; the flow's entry in the record table of a pair goes with it (R261). -/
def Hub.freeSlotAt (h : Hub) (s : Nat) : Hub := (h.recDrop (h.ctx s).handle).setCtx s (ctxReset s)

/-! ### The refused-flow log (R217) -/

/-- Log a refusal or a foyer drop. -/
def Hub.rlog (h : Hub) (flow reason port : Nat) : Hub :=
  let hd := h.rd Reg.FCM_RLOG_HEAD
  let next := fld hd 3 0
  let last := (next + 15) % 16
  let h :=
    if fld hd 31 16 ≠ 0 ∧ h.rd (Reg.FCM_RLOG (4 * last)) = w32 (flow + reason * 2 ^ 24)
        ∧ h.rdF (Reg.FCM_RLOG (4 * last + 1)) 4 0 = port then
      let h := h.wrF (Reg.FCM_RLOG (4 * last + 1)) 15 8 (holdAt 255 (h.rdF (Reg.FCM_RLOG (4 * last + 1)) 15 8 + 1))
      (h.wr (Reg.FCM_RLOG (4 * last + 2)) (lo32 h.now)).wr (Reg.FCM_RLOG (4 * last + 3)) (hi32 h.now)
    else
      let h := (h.wr (Reg.FCM_RLOG (4 * next)) (w32 (flow + reason * 2 ^ 24))).wr (Reg.FCM_RLOG (4 * next + 1)) (w32 port)
      let h := (h.wr (Reg.FCM_RLOG (4 * next + 2)) (lo32 h.now)).wr (Reg.FCM_RLOG (4 * next + 3)) (hi32 h.now)
      h.wr Reg.FCM_RLOG_HEAD (w32 ((next + 1) % 16 + holdAt 0xFFFF (fld hd 31 16 + 1) * 2 ^ 16))
  h.attn .fcm 6

/-- A frame of a flow without a context is refused (Table 7.7). -/
def Hub.refuseFlow (h : Hub) (flow reason port : Nat) (tc : Nat := 0) : Hub :=
  (((h.rlog flow reason port).inc Reg.FCM_REFUSED).inc (Reg.FY_DROP port)).dropEvent port tc

/-! ### Foyers (R202–R204) -/

/-- FY_CELLS of a port. -/
def Hub.foyCells (h : Hub) (p : Nat) : Nat := (h.foyer p).foldl (fun n f => n + f.cells.length) 0

/-- The class that the cells of a foyer frame carry. -/
def Hub.foyTc (h : Hub) (f : FoyFrame) : Nat := (f.cells.head?.bind h.cell).elim 0 fun (c : CellSt) => c.tc

/-- A frame enters a foyer; FY_MAX follows. -/
def Hub.foyEnter (h : Hub) (p : Nat) (f : FoyFrame) : Hub :=
  let h := (h.setFoyer p (h.foyer p ++ [f])).pmcEvent 0x08 p (h.foyTc f)
  h.maxF (Reg.FY_MAX p) 11 0 (h.foyCells p)

/-- A frame leaves a foyer: its wait counts in FY_WAIT_MAX, and no cell of it is open any more. -/
def Hub.foyLeave (h : Hub) (p : Nat) (f : FoyFrame) : Hub :=
  let h := h.setFoyer p ((h.foyer p).erase f)
  let tc := if isLinkPort p then (f.cells.head?.bind h.cell).map fun (c : CellSt) => c.tc else none
  let h := h.histSample 3 (some p) tc (some f.flow) (h.mono - f.since : Nat)
  h.maxF (Reg.FY_WAIT_MAX p) 13 0 (holdAt 0x3FFF ((h.mono - f.since) / 1000))

/-- The open record of a frame in a foyer ends. -/
def Hub.foyClose (h : Hub) (p flow : Nat) : Hub :=
  { h with opens := h.opens.filter fun o => ¬ (o.port = p ∧ o.flow = flow ∧ o.fate = .foyer) }

/-- A frame in a foyer is refused: its cells return, and it is logged (R209). -/
def Hub.foyRefuse (h : Hub) (p : Nat) (f : FoyFrame) (reason : Nat) : Hub :=
  let tc := h.foyTc f
  let h := (h.foyLeave p f).freeCells f.cells
  (if f.complete then h else h.foyClose p f.flow).refuseFlow f.flow reason p tc

/-- Every foyer frame of a flow is refused. -/
def Hub.refuseFoyers (h : Hub) (flow reason : Nat) : Hub :=
  (List.range 22).foldl (fun h p =>
    ((h.foyer p).filter fun (f : FoyFrame) => f.flow = flow).foldl (fun h f => h.foyRefuse p f reason) h) h

/-- An edge frame of a foyer is offered to admission: it takes the flow's next FSEQ when it is admitted. -/
def Hub.foyOffer (h : Hub) (s p : Nat) (f : FoyFrame) : Hub × Fared :=
  let c := h.ctx s
  let h := h.wideCheck s
  let v := h.verdict s p c.tc 0
  if v.passes p then
    match v with
    | .accept ok r =>
      let h := (h.foyLeave p f).updCtx s fun x => { x with inseq := (c.inseq + 1) % 65536 }
      let h := f.cells.foldl (fun h i => h.updCell i fun x =>
        { x with
          slot := s
          fseq := c.inseq
          tc := c.tc
          tmask := ok
          adm := h.mono
          pennant := pennantOf x.payload x.flow c.inseq
          place := .reseq }) h
      (((h.frameIn s f.cells c.inseq ok).dropAt r).trumpRefused c.tc r, .admitted)
    | _ => (h, .waits f.told)
  else if holdsAt p then
    let told := f.told || decide (v.refusing ≠ 0)
    let l := (h.foyer p).map fun (g : FoyFrame) =>
      if g = f then { g with waiting := true, counted := true, told := told } else g
    let h := if f.told then h else h.trumpRefused c.tc v.refusing
    (if f.counted then h.setFoyer p l else (h.setFoyer p l).inc (Reg.TP_WAIT_ADMIT p), .waits told)
  else (((h.foyLeave p f).freeCells f.cells).countRefused s p c.tc v, .dropped)

/-- A link port's frame leaves a foyer for admission; a frame still open goes on in the fate it gets (R203). -/
def Hub.foyOfferLink (h : Hub) (s p : Nat) (f : FoyFrame) : Hub :=
  let c := h.ctx s
  let h := h.wideCheck s
  match h.verdict s p c.tc 0 with
  | .accept ok r =>
    let h := h.foyLeave p f
    let h := f.cells.foldl (fun h i => h.updCell i fun x => { x with slot := s, tmask := ok, adm := h.mono, place := .reseq }) h
    let h := ((h.dropAt r).trumpRefused c.tc r).crossLate p c.tc ok
    if f.complete then h.frameIn s f.cells f.fseq ok
    else
      let fate : OpenFate := if c.reseq then .reseq s ok else .admitted s ok
      let h := { h with opens := h.opens.map fun o =>
        if o.port = p ∧ o.flow = f.flow then { o with fate := fate } else o }
      if c.reseq then h else h.enlist s f.cells
  | v =>
    let h := (h.foyLeave p f).freeCells f.cells
    (if f.complete then h else h.foyClose p f.flow).countRefused s p c.tc v

/-- The foyer frames of a flow at one port go to admission in arrival order; behind one that waits, the others
wait (R203). -/
def Hub.foyOfferAll (h : Hub) (s p : Nat) : List FoyFrame → Hub
  | [] => h
  | f :: l =>
    if isLinkPort p then (h.foyOfferLink s p f).foyOfferAll s p l
    else
      match h.foyOffer s p f with
      | (h, .waits _) => h
      | (h, _) => h.foyOfferAll s p l

/-- The foyer frames of a flow, whose context is now in slot s, go to admission (R203). -/
def Hub.leaveFoyers (h : Hub) (s : Nat) : Hub :=
  (List.range 22).foldl (fun h p =>
    h.foyOfferAll s p ((h.foyer p).filter fun (f : FoyFrame) => f.flow = (h.ctx s).handle)) h

/-! ### The paging path -/

/-- FCM_BS_CFG.EN in force. -/
def Hub.storeOn (h : Hub) : Bool := h.rdB Reg.FCM_BS_CFG 0

/-- The ROOT's PCIe link is up with bus mastering enabled. -/
def Hub.hostUp (h : Hub) : Bool := h.rdB Reg.PX_STAT 0 && h.rdB Reg.PX_STAT 7

/-- The paging path is down (R218). -/
def Hub.pathDown (h : Hub) : Bool :=
  h.paging.hold || (if h.role = .root then !h.hostUp else !h.upOrIdle 0)

/-- Change the paging engine. -/
def Hub.updPaging (h : Hub) (f : Paging → Paging) : Hub := { h with paging := f h.paging }

/-- The address of a handle's entry (R208). -/
def Hub.entryAddr (h : Hub) (flow : Nat) : Nat :=
  let k := clampN 10 20 (h.rdF Reg.FCM_BS_CFG 12 8)
  (join64 (h.rd Reg.FCM_BS_BASE_LO) (h.rd Reg.FCM_BS_BASE_HI) + flow % 2 ^ k * 256) % 2 ^ 64

/-- A 256-byte range lies inside the ROOT's aperture (R211). -/
def Hub.inAperture (h : Hub) (a : Nat) : Bool :=
  decide (join64 (h.rd Reg.FCM_APER_BASE_LO) (h.rd Reg.FCM_APER_BASE_HI) ≤ a)
    && decide (a + 255 ≤ join64 (h.rd Reg.FCM_APER_LIMIT_LO) (h.rd Reg.FCM_APER_LIMIT_HI))

/-- FCM_PAGE_TAGS in force. -/
def Hub.pageTags (h : Hub) : Nat := clampN 1 128 (h.rdF Reg.FCM_PAGE_TAGS 7 0)

/-- The hub that serves a non-ROOT hub's paging. -/
def Hub.rootHub (h : Hub) : Nat := h.rdF Reg.FCM_BS_CFG 29 16

/-- The next REQ_ID. -/
def Hub.takeReq (h : Hub) : Hub × Nat :=
  (h.updPaging fun p => { p with nextReq := (p.nextReq + 1) % 65536 }, h.paging.nextReq)

/-- The FCM operation that waits for a page-in of a flow gets its result. -/
def Hub.fcmOpDone (h : Hub) (flow : Nat) (f : Hub → Hub × Option MbxResult) : Hub :=
  match h.paging.op with
  | none => h
  | some op =>
    if h.paging.opFlow = flow then
      match f (h.updPaging fun p => { p with op := none }) with
      | (h, some r) => h.opResult .fcm op r
      | (h, none) => h
    else h

/-- A page-in fails (R209, R212): its dummy is freed, the flow's foyer frames are refused, and an operation that
waits for it fails with 0x80. -/
def Hub.pageFail (h : Hub) (pi : PageIn) (reason : Nat) : Hub :=
  let d := h.ctx pi.slot
  let h := h.updPaging fun p => { p with
    ins := p.ins.filter fun (x : PageIn) => x.req ≠ pi.req
    owed := Tab.upd (fun _ => {}) p.owed pi.flow fun c => c.addCounts d }
  let h := (h.freeSlotAt pi.slot).refuseFoyers pi.flow reason
  let h := ((h.inc Reg.FCM_PAGE_FAIL).attn .fcm 1).fault .fcm 2
  h.fcmOpDone pi.flow fun h => (h, some { err := 0x80, data := [w32 reason] })

/-- The paging path went down or came up (R218): while it is down, outstanding page-ins fail with PATH_DOWN, flows
that wait for a page-in are refused, and PAGE_PATH is live if the store is enabled. -/
def Hub.pathCheck (h : Hub) : Hub :=
  let down := h.pathDown
  let h := if down then
      let h := h.paging.ins.foldl (fun h pi => h.pageFail pi 6) h
      let ws := h.paging.waits
      let h := ws.foldl (fun h w => (h.refuseFoyers w.1 6).fcmOpDone w.1 fun h =>
        (h, some { err := 0x80, data := [6] })) h
      h.updPaging fun p => { p with waits := [] }
    else h
  let live := down && h.storeOn
  let was := bit (h.hdr .fcm).live 1
  if live && !was then (h.fault .fcm 1).setLive .fcm 1 true
  else if !live && was then h.setLive .fcm 1 false
  else h

/-- An answer with STATUS 0x04 takes the path down (R218). -/
def Hub.pathHold (h : Hub) : Hub := (h.updPaging fun p => { p with hold := true, holdFrom := h.mono }).pathCheck

/-- PAGE_LAT_MAX and PAGE_LATE at the end of a page-in (R213). -/
def Hub.pageLatency (h : Hub) (flow since : Nat) : Hub :=
  let t := h.mono - since
  let h := (h.pmcEvent 0x09 0 0).histSample 4 none none (some flow) (t : Nat)
  let h := h.maxF Reg.FCM_PAGE_LAT_MAX 19 0 (holdAt 0xFFFFF (t / 100))
  if 40000 + 1500 * h.rdF Reg.KLL_DEPTH 5 0 < t then (h.inc Reg.FCM_PAGE_LATE).attn .fcm 2 else h

/-- Pin a resident context (R199); TC 7 keep-awake marks follow by R200. -/
def Hub.pinSlot (h : Hub) (s : Nat) : Hub :=
  let h := h.updCtx s fun c => { c with pin := true }
  let h := if h.keepsRecs then h.recEnsure (h.ctx s).handle true else h
  if h.pinned = 6144 then h.attn .fcm 5 else h

/-- A page-in's context is installed (R195, R203, R213); an operation that waits for it goes on. -/
def Hub.pageInstall (h : Hub) (pi : PageIn) (c : Ctx) : Hub :=
  let d := h.ctx pi.slot
  let h := h.updPaging fun p => { p with ins := p.ins.filter fun (x : PageIn) => x.req ≠ pi.req }
  let h := (h.setCtx pi.slot { c.addCounts d with state := .resident, lrs := h.mono, shapeOn := c.shaped }).payOwed pi.slot
  let h := ((h.inc Reg.FCM_PAGE_IN).pageLatency pi.flow pi.since).leaveFoyers pi.slot
  h.fcmOpDone pi.flow fun h =>
    match (h.mbx .fcm).op with
    | 0x11 =>
      let w := h.template
      if fld (w.getD 0 0) 26 24 = 7 then (h, some (mbxErr 0x82))
      else (h.updPaging fun p => { p with policy := p.policy ++ [⟨pi.slot, p.opAt, w, true⟩] }, none)
    | 0x12 =>
      if 6144 ≤ h.pinned then (h, some (mbxErr 0x03))
      else
        let h := (h.pinSlot pi.slot).ctxNote 2 pi.slot
        (h, some (mbxOk [w32 pi.slot, w32 h.pinned]))
    | _ => (h, none)

/-- A PAGE_DATA, or the ROOT's own read, ends the page-in with this REQ_ID (R208, R209, R212); with STATUS 0x04
the page-in fails as the path goes down. -/
def Hub.pageData (h : Hub) (req status : Nat) (image : List Byte) : Hub :=
  match h.paging.ins.find? fun (x : PageIn) => x.req = req with
  | none => h.msgBad
  | some pi =>
    if status = 4 then h.pathHold
    else if status ≠ 0 then h.pageFail pi 5
    else if image = List.replicate 256 0 then h.pageFail pi 2
    else if !imageGood image then h.pageFail pi 3
    else
      let c := ctxOfImage image
      if c.handle ≠ pi.flow then
        let h := if c.handle ≠ 0 then (h.inc Reg.FCM_BS_COLLIDE).attn .fcm 4 else h
        h.pageFail pi 2
      else if c.tc = 7 then h.pageFail pi 4
      else h.pageInstall pi c

/-- A write-back is lost (R212). -/
def Hub.wbLost (h : Hub) : Hub := ((h.inc Reg.FCM_WB_LOST).attn .fcm 3).fault .fcm 3

/-- A write-back ends, acknowledged or lost (R198, R212): an evicted slot becomes FREE, and the operation that
waits for it completes, without error also where FLOW_EVICT's write-back is lost. (Log entry 60, DESIGN CHOICE.) -/
def Hub.wbEnd (h : Hub) (w : WriteBack) (good : Bool) : Hub :=
  let h := h.updPaging fun p => { p with wbs := p.wbs.filter fun (x : WriteBack) => x.req ≠ w.req }
  let h := if good then h.inc Reg.FCM_PAGE_OUT else h.wbLost
  let h := match h.ctxs.find? fun e => e.2.state = .writeback ∧ e.2.handle = w.flow with
    | some (s, _) => h.freeSlotAt s
    | none => h
  match w.cause with
  | .evict => h.fcmOpDone w.flow fun h => (h, some (mbxOk [w32 w.gen]))
  | .clear => h.fcmOpDone w.flow fun h => (h, some (mbxOk []))
  | _ => h

/-- A PAGE_WRITE_ACK, or the issue of the ROOT's own write, ends a write-back (R212). -/
def Hub.wbAck (h : Hub) (req status : Nat) : Hub :=
  match h.paging.wbs.find? fun (x : WriteBack) => x.req = req with
  | none => h.msgBad
  | some w =>
    let h := h.wbEnd w (decide (status = 0))
    if status = 4 then h.pathHold else h

/-- Answer a paging request performed in the ROOT: its own, or another hub's (R210, R211). -/
def Hub.pageAnswer (h : Hub) (r : PageReq) (status : Nat) (image : List Byte) : Hub :=
  match r.hub with
  | none => if r.image.isSome then h.wbAck r.req status else h.pageData r.req status image
  | some n =>
    if r.image.isSome then h.postHub n 0x0203 (beBytes 2 r.req ++ beBytes 1 status)
    else h.postHub n 0x0201 (beBytes 2 r.req ++ beBytes 1 status ++
      (if image.length = 256 then image else List.replicate 256 0))

/-- The page-in reads that hold bridge tags. -/
def Hub.pageTagsUsed (h : Hub) : Nat :=
  (h.tags.filter fun e => match e.2 with | .page _ => true | _ => false).length

/-- The lowest free bridge tag. -/
def Hub.freeTag (h : Hub) : Option Nat := (gaps 256 (Tab.keys h.tags) 0 1).head?

/-- A request is issued under a tag (R362). -/
def Hub.holdTag (h : Hub) (t : Nat) (u : TagUse) : Hub :=
  { h with
    tags := Tab.put h.tags t u
    pxb := { h.pxb with tagAt := Tab.put h.pxb.tagAt t h.mono } }

/-- A write-back on the host's link (R374): one posted write of 256 bytes, or two of 128 where Max Payload Size is 128. -/
def Hub.pageWrite (h : Hub) (a : Nat) (b : List Byte) : Hub :=
  if 256 ≤ h.pxb.mps then h.emit (.tlp (.memWr a 15 15 b))
  else (h.emit (.tlp (.memWr a 15 15 (b.take 128)))).emit (.tlp (.memWr (a + 128) 15 15 (b.drop 128)))

/-- PXB serves its paging queue in order (R211, R374): writes are posted and answered as they are issued; a read
takes a tag, or waits for one. -/
def Hub.pageServe (h : Hub) : Nat → Hub
  | 0 => h
  | n + 1 =>
    match h.pageq with
    | [] => h
    | r :: l =>
      if !h.hostUp then Hub.pageServe (({ h with pageq := l }).pageAnswer r 4 []) n
      else if r.image.isSome then
        Hub.pageServe ((({ h with pageq := l }).pageWrite r.addr (r.image.getD [])).pageAnswer r 0 []) n
      else
        match h.freeTag with
        | some t =>
          if h.pageTagsUsed < h.pageTags then
            Hub.pageServe ((({ h with pageq := l }).holdTag t (.page r)).emit (.tlp (.memRd t r.addr 256 15 15))) n
          else h
        | none => h

/-- The ROOT takes a paging request: outside its aperture it answers STATUS 0x01 at once (R211). -/
def Hub.pageSubmit (h : Hub) (r : PageReq) : Hub :=
  if h.inAperture r.addr then
    ({ h with pageq := h.pageq ++ [r] }).pageServe (h.pageq.length + 1)
  else h.pageAnswer r 1 []

/-- Issue a write-back (R206, R211): through PXB in the ROOT, else as PAGE_WRITE to the ROOT. -/
def Hub.writeBack (h : Hub) (flow gen : Nat) (cause : WbCause) (image : List Byte) : Hub :=
  let (h, req) := h.takeReq
  let h := h.updPaging fun p => { p with wbs := p.wbs ++ [⟨req, flow, gen, cause, h.mono⟩] }
  let a := h.entryAddr flow
  if h.role = .root then h.pageSubmit { hub := none, req := req, flow := flow, addr := a, image := some image }
  else h.postHub h.rootHub 0x0202 (beBytes 2 req ++ beBytes 3 flow ++ beBytes 8 a ++ image)

/-- A slot for a page-in: a FREE one, else a victim (R206), which is chosen only with a backing store enabled (R215). -/
def Hub.slotFor (h : Hub) : Option Nat := h.freeSlot.orElse fun _ => if h.storeOn then h.victim else none

/-- A page-in can start now: a tag and a slot are to be had (R206, R212). -/
def Hub.canPage (h : Hub) : Bool := decide (h.paging.ins.length < h.pageTags) && h.slotFor.isSome

/-- A page-in starts (R206, R207): a victim's write-back goes first, its slot becomes the dummy, and the read is
issued. -/
def Hub.pageStart (h : Hub) (flow since : Nat) : Hub :=
  match h.slotFor with
  | none => h
  | some s =>
    let v := h.ctx s
    let h := (if v.state = .resident then h.recDrop v.handle else h).setCtx s { state := .dummy, handle := flow }
    let h := if v.state = .resident then
        h.writeBack v.handle ((v.gen + 1) % 2 ^ 32) .victim (v.image ((v.gen + 1) % 2 ^ 32)) else h
    let (h, req) := h.takeReq
    let h := h.updPaging fun p => { p with ins := p.ins ++ [⟨req, flow, s, since, h.mono⟩] }
    let a := h.entryAddr flow
    if h.role = .root then h.pageSubmit { hub := none, req := req, flow := flow, addr := a, image := none }
    else h.postHub h.rootHub 0x0200 (beBytes 2 req ++ beBytes 3 flow ++ beBytes 8 a)

/-- A page-in of a flow is outstanding or waits to start. -/
def Hub.pageWanted (h : Hub) (flow : Nat) : Bool :=
  h.paging.ins.any (fun (x : PageIn) => x.flow = flow) || h.paging.waits.any fun w => w.1 = flow

/-- Why a flow without a context cannot be paged in (R201, R215, R218, R220). -/
def Hub.noPage (h : Hub) (flow : Nat) : Option Nat :=
  if h.paging.lost.contains flow then some 8
  else if !h.storeOn then some (if h.freeSlot.isSome then 2 else 1)
  else if h.pathDown then some 6
  else none

/-- Ask for a page-in of a flow: it starts at once, or waits for a tag or a slot (R206, R212, R214). -/
def Hub.wantPage (h : Hub) (flow : Nat) : Hub :=
  if h.pageWanted flow then h
  else if h.paging.waits.isEmpty && h.canPage then h.pageStart flow h.mono
  else h.updPaging fun p => { p with waits := p.waits ++ [(flow, h.mono)] }

/-- Since when a waiting page-in counts: the entry of its oldest foyer frame, or its own beginning where an operation alone waits for it
(R214). -/
def Hub.waitSince (h : Hub) (w : Nat × Nat) : Nat :=
  let l := h.foyers.flatMap fun e => (e.2.filter fun (f : FoyFrame) => f.flow = w.1).map fun (f : FoyFrame) => f.since
  l.foldl min (l.headD w.2)

/-- The waiting page-in whose oldest foyer frame arrived first starts (R212, R214). -/
def Hub.startWaiting (h : Hub) : Hub :=
  match h.paging.waits with
  | [] => h
  | w :: l =>
    let w := l.foldl (fun (b : Nat × Nat) x => if h.waitSince x < h.waitSince b then x else b) w
    (h.updPaging fun p => { p with waits := p.waits.erase w }).pageStart w.1 w.2

end Sys2Proof.Machine
end

