-- ==== Sys2Proof/Machine/Ingress.lean ====
section
/-! DEFINITION. Frames and cells as they enter TSC: whole frames from edge blocks (R201, R202, R166), cells of link
ports one by one (R175, R194), and TC6 frames on their way to the steward or to the next hop (R129–R131). -/

namespace Sys2Proof.Machine

/-! ### Whole frames at edge ports -/

/-- An edge frame enters a foyer, if neither a foyer limit nor the ingress limit or reserve stops it (R202). -/
def Hub.edgeFoyer (h : Hub) (i flow : Nat) (payload : List Byte) (again told : Bool) : Hub × Fared :=
  let n := cellCount payload
  let ok := decide ((h.foyer i).length < 64) && decide (h.foyCells i + n ≤ 2048)
    && decide (h.ingHeld i + n ≤ h.rdF (Reg.TP_ING_LIMIT i) 16 0) && h.roomFor n
  if ok then
    let (h, ix) := h.newCells (frameCells flow 0 0 i .foyer 0 payload)
    let h := h.foyEnter i { flow := flow, fseq := 0, cells := ix, complete := true, since := h.mono, counted := again, told := told }
    (h.wantPage flow, .foyer)
  else if holdsAt i ∨ again then (h, .waits told)
  else (h.refuseFlow flow 7 i, .dropped)

/-- Offer a whole edge frame to the hub (R201), for the first time or `again`: to admission if its context is resident, else to the
foyer. A flow that cannot be paged in is refused. -/
def Hub.edgeOffer (h : Hub) (i flow : Nat) (payload : List Byte) (again told : Bool) : Hub × Fared :=
  match h.lookup flow with
  | .resident s => h.offer s i flow payload told
  | .dummy _ => h.edgeFoyer i flow payload again told
  | .miss =>
    match h.noPage flow with
    | some r => (h.refuseFlow flow r i, .dropped)
    | none => h.edgeFoyer i flow payload again told

/-- An edge block hands TSC a whole frame that has passed its own check (R13–R15). At PXB, USB and the steward a
frame that cannot enter waits, and later frames of its flow behind it (Table 6.3). -/
def Hub.edgeFrame (h : Hub) (i flow : Nat) (payload : List Byte) : Hub × Fared :=
  if payload = [] then (h, .dropped)
  else if h.flowWaits i flow then (h.startWait { port := i, flow := flow, payload := payload }, .waits false)
  else
    match h.edgeOffer i flow payload false false with
    | (h, .waits told) => (h.startWait { port := i, flow := flow, payload := payload, told := told }, .waits told)
    | r => r

/-- The waiting frames of a holding ingress are decided again (R167): those of its foyer first, then those that have
not entered the hub. -/
def Hub.admitRetry (h : Hub) (i : Nat) : Hub :=
  let flows := ((h.foyer i).filter fun (f : FoyFrame) => f.waiting = true).map fun (f : FoyFrame) => f.flow
  let h := flows.dedup.foldl (fun h fl =>
    match h.lookup fl with
    | .resident s => h.foyOfferAll s i ((h.foyer i).filter fun (f : FoyFrame) => f.flow = fl)
    | _ => h) h
  h.retryWaits i fun h w =>
    match w.slot with
    | some s => h.offer s i w.flow w.payload w.told
    | none =>
      if (h.foyer i).any fun (f : FoyFrame) => f.flow = w.flow ∧ f.waiting = true then (h, .waits w.told)
      else h.edgeOffer i w.flow w.payload true w.told

/-! ### Cells at link ports -/

/-- A received cell to be stored. It holds a link credit until it is released (R140). -/
def CellIn.toCell (c : CellIn) (p slot : Nat) (place : CellPlace) (tmask : Nat) : CellSt :=
  { slot := slot, flow := c.flow, fseq := c.fseq, tc := c.tc, first := c.first, last := c.last, inp := p,
    tmask := tmask, pennant := c.pennant, payload := c.payload, place := place, credit := true }

/-- Store a received cell, if any cell is free (R160, R162): RXHELD counts it. -/
def Hub.storeLink (h : Hub) (c : CellSt) : Option (Hub × Nat) :=
  match h.freeIdx 1 with
  | [] => none
  | i :: _ =>
    some ((h.storeCell i c).updLink c.inp fun l => { l with held := modAt l.held c.tc fun n => n + 1 }, i)

/-- A cell that no frame takes is discarded, and its credit returns (Table 6.3, R175). -/
def Hub.discardLink (h : Hub) (p c : Nat) : Option Hub := some (h.creditBack p c)

/-- Open a frame at a port. -/
def Hub.openNew (h : Hub) (p : Nat) (c : CellIn) (i : Nat) (fate : OpenFate) : Hub :=
  { h with opens := h.opens ++
      [{ port := p, flow := c.flow, fseq := c.fseq, tc := c.tc, count := 1, cells := [i], time := h.mono, fate := fate }] }

/-- The open frame of a port and flow ends. -/
def Hub.openEnd (h : Hub) (p flow : Nat) : Hub :=
  { h with opens := h.opens.filter fun o => ¬ (o.port = p ∧ o.flow = flow) }

/-- A stored cell takes its place: on the list, with the resequencer's frame, or still. -/
def Hub.placeCell (h : Hub) (i : Nat) (fate : OpenFate) : Hub :=
  match fate with
  | .admitted s _ => h.enlist s [i]
  | _ => h

/-- The LAST cell of a frame has been stored: a resequenced frame is decided, a foyer frame is complete. -/
def Hub.closeFrame (h : Hub) (o : OpenFrame) (ix : List Nat) : Hub :=
  match o.fate with
  | .reseq s m => h.rsqFrame s { fseq := o.fseq, cells := ix, since := h.mono, tmask := m }
  | .foyer => h.setFoyer o.port ((h.foyer o.port).map fun (f : FoyFrame) =>
      if f.flow = o.flow ∧ f.fseq = o.fseq ∧ f.complete = false then { f with complete := true } else f)
  | _ => h

/-- A third ingress port opens a frame of a flow: the open frame whose last cell is older is abandoned (R194). -/
def Hub.thirdPort (h : Hub) (flow : Nat) : Hub :=
  match h.opens.filter fun o => o.flow = flow with
  | a :: b :: _ => h.abandon (if b.time < a.time then b else a)
  | _ => h

/-- The first cell of a frame whose context is in slot s. -/
def Hub.firstResident (h : Hub) (p s : Nat) (c : CellIn) : Option Hub :=
  let h := (h.thirdPort c.flow).wideCheck s
  match h.verdict s p c.tc 1 with
  | .accept ok r =>
    let rs := (h.ctx s).reseq
    match h.storeLink { c.toCell p s (if rs then .reseq else .listed) ok with adm := h.mono } with
    | none => none
    | some (h, i) =>
      let h := ((h.dropAt r).trumpRefused c.tc r).crossLate p c.tc ok
      let fate : OpenFate := if rs then .reseq s ok else .admitted s ok
      let h := h.placeCell i fate
      if c.last then
        some (if rs then h.rsqFrame s { fseq := c.fseq, cells := [i], since := h.mono, tmask := ok } else h)
      else some (h.openNew p c i fate)
  | v => (h.countRefused s p c.tc v).discardLink p c.tc

/-- The first cell of a frame whose context is not resident goes to the port's foyer (R201, R202). -/
def Hub.firstFoyer (h : Hub) (p : Nat) (c : CellIn) : Option Hub :=
  if 64 ≤ (h.foyer p).length ∨ 2048 ≤ h.foyCells p then (h.refuseFlow c.flow 7 p c.tc).discardLink p c.tc
  else
    match h.storeLink (c.toCell p 0 .foyer 0) with
    | none => none
    | some (h, i) =>
      let h := h.foyEnter p { flow := c.flow, fseq := c.fseq, cells := [i], complete := c.last, since := h.mono }
      let h := if c.last then h else h.openNew p c i .foyer
      some (h.wantPage c.flow)

/-- The first cell of a data frame. -/
def Hub.firstCell (h : Hub) (p : Nat) (c : CellIn) : Option Hub :=
  match h.lookup c.flow with
  | .resident s => h.firstResident p s c
  | .dummy _ => h.firstFoyer p c
  | .miss =>
    match h.noPage c.flow with
    | some r => (h.refuseFlow c.flow r p c.tc).discardLink p c.tc
    | none => h.firstFoyer p c

/-- The hub's own steward is addressed by a management handle (R130). -/
def Hub.forSelf (h : Hub) (flow : Nat) : Bool := decide (flow = 0xFFC000) || decide (flow = mgmtHandle h.hubId)

/-- The hub takes a TC6 frame that arrives at port p as its own: it is addressed to it (R130); a member in ALONE
takes paging messages for its partner (R259); and while STW_HUB_ID is 0, a TRANSIT or LEAF hub takes what comes
on T0 and has no port to go on by (R502). -/
def Hub.ownFrame (h : Hub) (p : Nat) (c : CellIn) : Bool :=
  h.forSelf c.flow
    || (decide (h.pairState = 3) && decide (c.flow = mgmtHandle (h.rdF Reg.MIR_STAT 29 16))
        && decide (beVal (c.payload.take 2) / 256 = 0x02))
    || (decide (p = 0) && decide (h.role = .transit ∨ h.role = .leaf) && decide (h.hubId = 0)
        && decide (h.route (c.flow - 0xFFC000) = some 0 ∨ h.route (c.flow - 0xFFC000) = none))

/-- The first cell of a TC6 frame: for the hub's own steward, or routed to a port's context (R130, R131). -/
def Hub.firstTc6 (h : Hub) (p : Nat) (c : CellIn) : Option Hub :=
  if h.ownFrame p c then
    if h.targetRoom 0x11 6 c.flow then
      match h.storeLink { c.toCell p p .steward (2 ^ 17) with pend := 2 ^ 17 } with
      | none => none
      | some (h, i) => some (h.openNew p c i .steward)
    else (((h.countFlow p c.flow .admission).dropEvent p 6).dropAt (2 ^ 17)).discardLink p c.tc
  else
    match h.route (c.flow - 0xFFC000) with
    | none => (h.routeMiss p).discardLink p c.tc
    | some q =>
      match h.verdict q p c.tc 1 with
      | .accept ok _ =>
        match h.storeLink { c.toCell p q .listed ok with adm := h.mono } with
        | none => none
        | some (h, i) => some ((h.placeCell i (.admitted q ok)).openNew p c i (.admitted q ok))
      | v => (h.countRefused q p c.tc v).discardLink p c.tc

/-- The most cells a frame may have: 16 in TC6, else 64 (R129, R165). -/
def maxCells (tc : Nat) : Nat := if tc = 6 then 16 else 64

/-- A later cell of an open frame. -/
def Hub.nextCell (h : Hub) (p : Nat) (c : CellIn) (o : OpenFrame) : Option Hub :=
  if o.fseq ≠ c.fseq ∨ maxCells c.tc ≤ o.count then (h.abandon o).discardLink p c.tc
  else if o.fate = .foyer ∧ 2048 ≤ h.foyCells p then
    match (h.foyer p).find? fun (f : FoyFrame) => f.flow = o.flow ∧ f.fseq = o.fseq ∧ f.complete = false with
    | some f => (h.foyRefuse p f 7).discardLink p c.tc
    | none => (h.openEnd p c.flow).discardLink p c.tc
  else
    let adm := (o.cells.head?.bind h.cell).elim 0 fun (x : CellSt) => x.adm
    let cell : CellSt := match o.fate with
      | .admitted s m => { c.toCell p s .listed m with adm := adm }
      | .reseq s m => { c.toCell p s .reseq m with adm := adm }
      | .foyer => c.toCell p 0 .foyer 0
      | .steward => { c.toCell p p .steward (2 ^ 17) with pend := 2 ^ 17 }
    match h.storeLink cell with
    | none => none
    | some (h, i) =>
      let h := h.placeCell i o.fate
      let ix := o.cells ++ [i]
      let h := if o.fate = .foyer then
          let l := (h.foyer p).map fun (f : FoyFrame) =>
            if f.flow = o.flow ∧ f.fseq = o.fseq ∧ f.complete = false then { f with cells := f.cells ++ [i] } else f
          let h := h.setFoyer p l
          h.maxF (Reg.FY_MAX p) 11 0 (h.foyCells p)
        else h
      if c.last && decide (c.tc ≠ 6) then some ((h.closeFrame o ix).openEnd p c.flow)
      else
        some { h with opens := h.opens.map fun x =>
          if x.port = p ∧ x.flow = c.flow then { x with count := x.count + 1, cells := ix, time := h.mono } else x }

/-- TSC takes a good cell from a link port; none where no cell is free, which is a receive error (R162). The last
cell of a TC6 frame leaves its frame open until its code has been checked (R133). -/
def Hub.linkCell (h : Hub) (p : Nat) (c : CellIn) : Option Hub :=
  if c.first then
    let h := match h.openOf p c.flow with
      | some o => h.abandon o
      | none => h
    if c.tc = 6 then h.firstTc6 p c else h.firstCell p c
  else
    match h.openOf p c.flow with
    | none => h.discardLink p c.tc
    | some o => h.nextCell p c o

/-- A VOID cell in sequence (R145): its credit returns, and the open frame it matches is abandoned. -/
def Hub.linkVoid (h : Hub) (p flow fseq tc : Nat) : Hub :=
  let h := h.creditBack p tc
  match h.openOf p flow with
  | some o => if o.fseq = fseq then h.abandon o else h
  | none => h

/-- The bytes of a TC6 frame held at a port. -/
def Hub.frameBytes (h : Hub) (o : OpenFrame) : List Byte :=
  o.cells.flatMap fun i => (h.cell i).elim [] fun c => c.payload

/-- A message type of Table 5.4 and of the chapters it names, which reserve some of their ranges. -/
def msgKnown (t : Nat) : Bool :=
  [0x0001, 0x0002, 0x0003, 0x0004, 0x0010, 0x0020, 0x0030, 0x0031, 0x0032, 0x00FF].contains t
    || decide (0x0100 ≤ t ∧ t ≤ 0x01FF) || decide (0x0200 ≤ t ∧ t ≤ 0x0203) || decide (0x0300 ≤ t ∧ t ≤ 0x04FF)
    || decide (0x0500 ≤ t ∧ t ≤ 0x0503)

/-- The message of a complete TC6 frame is of a known type and not longer than its frame (R132). -/
def msgGood (b : List Byte) : Bool :=
  decide (6 ≤ b.length) && msgKnown (beVal (b.take 2)) && decide (6 + beVal ((b.drop 4).take 2) ≤ b.length)

/-- A TC6 frame is complete and its code good: one for the steward is consumed, its cells are released and a bad
message is counted; one on its way goes on (R130, R132, R133). (Log entry 18, DESIGN CHOICE.) -/
def Hub.tc6Complete (h : Hub) (o : OpenFrame) : Hub :=
  let h' := h.openEnd o.port o.flow
  if o.fate = .steward then
    let h' := h'.freeCells (o.cells.filter (h.ofFrame o))
    if msgGood (h.frameBytes o) then h' else h'.msgBad
  else h'

/-- A TC6 frame is discarded after its code failed twice (R133); per flow it counts as one whose check failed. (Log entry 51, DEDUCED.) -/
def Hub.tc6Discard (h : Hub) (o : OpenFrame) : Hub :=
  let ix := o.cells.filter (h.ofFrame o)
  let h := (h.openEnd o.port o.flow).dropEvent o.port 6
  match o.fate with
  | .admitted s m => (h.dropUnread s ix m).countPennant s
  | _ => (h.freeCells ix).countFlow o.port o.flow .pennant

end Sys2Proof.Machine
end

