-- ==== Sys2Proof/Machine/Gates.lean ====
section
/-! DEFINITION. Time gates (R235–R241): lists and their banks, the remaining open time, switches. -/

namespace Sys2Proof.Machine

/-- Bit k of TS_GCTL of a port. -/
def Hub.gctl (h : Hub) (t k : Nat) : Bool := h.rdB (Reg.TS_GCTL t) k

/-- A list is in force on a port. -/
def Hub.listOn (h : Hub) (t : Nat) : Bool := h.gctl t 5

/-- The number of a bank: 0 A, 1 B. -/
def bankNo (b : Bool) : Nat := b2n b

/-- BASE of a bank, in ns. -/
def Hub.gBase (h : Hub) (t : Nat) (b : Bool) : Nat :=
  join64 (h.rd (Reg.TS_GBASE_LO t (bankNo b))) (h.rd (Reg.TS_GBASE_HI t (bankNo b)))

/-- CYCLE of a bank, in ns (R238). -/
def Hub.gCycle (h : Hub) (t : Nat) (b : Bool) : Nat :=
  8 * clampN 125 125000000 (h.rdF (Reg.TS_GCYCLE t (bankNo b)) 26 0)

/-- LEN of a bank. -/
def Hub.gLen (h : Hub) (t : Nat) (b : Bool) : Nat := clampN 1 256 (h.rdF (Reg.TS_GLEN t (bankNo b)) 8 0)

/-- Entry e of a bank (Table 8.1). -/
def Hub.gEntry (h : Hub) (t : Nat) (b : Bool) (e : Nat) : Word :=
  h.rd (if b then Reg.TS_GATE_B t e else Reg.TS_GATE_A t e)

/-- INTERVAL of an entry, in ns: 0 acts as 1. -/
def entryNs (w : Word) : Nat := 8 * max 1 (fld w 31 8)

/-- A segment of a cycle: entry number, start and end in ns from the cycle start, gates. -/
structure GateSeg where
  entry : Nat
  start : Nat
  stop : Nat
  gates : Nat
  deriving DecidableEq, Repr

/-- The segments of a cycle: entries in order, cut by the cycle's end; the last one runs on to it (R238). -/
def gateSegs (cyc : Nat) : Nat → Nat → List (Nat × Nat) → List GateSeg
  | _, _, [] => []
  | e, at0, [(_, g)] => if at0 < cyc then [⟨e, at0, cyc, g⟩] else []
  | e, at0, (d, g) :: l =>
    if cyc ≤ at0 then []
    else ⟨e, at0, min cyc (at0 + d), g⟩ :: gateSegs cyc (e + 1) (at0 + d) l

/-- The segments of a bank's cycle; an entry with an uncorrectable error runs with all gates closed (R241). -/
def Hub.gSegs (h : Hub) (t : Nat) (b : Bool) : List GateSeg :=
  gateSegs (h.gCycle t b) 0 0 ((List.range (h.gLen t b)).map fun e =>
    let w := h.gEntry t b e
    (entryNs w, if (h.tport t).badEntry.contains (b, e) then 0 else fld w 7 0))

/-- The time since the last cycle start of a bank. -/
def Hub.gPhase (h : Hub) (t : Nat) (b : Bool) (now : Nat) : Nat :=
  (((now : Int) - h.gBase t b) % (h.gCycle t b : Int)).toNat

/-- The segment that holds an instant. -/
def Hub.gSegAt (h : Hub) (t : Nat) (b : Bool) (now : Nat) : GateSeg :=
  let p := h.gPhase t b now
  ((h.gSegs t b).find? fun s => s.start ≤ p ∧ p < s.stop).getD ⟨0, 0, h.gCycle t b, 0xFF⟩

/-- When the entry that holds an instant ends. -/
def Hub.gEntryEnd (h : Hub) (t : Nat) (b : Bool) (now : Nat) : Nat :=
  now + ((h.gSegAt t b now).stop - h.gPhase t b now)

/-- The bank in force. -/
def Hub.gActive (h : Hub) (t : Nat) : Bool := h.gctl t 4

/-- The gates of a port at the decision time: all open without a list (R235). -/
def Hub.gatesNow (h : Hub) (t : Nat) : Nat :=
  if h.listOn t then (h.gSegAt t (h.gActive t) h.now).gates else 0xFF

/-- An entry of a bank begins at an instant. -/
def Hub.gBoundary (h : Hub) (t : Nat) (b : Bool) (at0 : Nat) : Bool := decide ((h.gSegAt t b at0).start = h.gPhase t b at0)

/-- The instant at which a pending switch takes effect (R239, R241): on an entry boundary of the old list the handover is exact, as
the chapter's worked example says. -/
def Hub.switchPoint (h : Hub) (t : Nat) : Option Nat :=
  match (h.tport t).switch with
  | none => none
  | some (.toNone e) => some e
  | some (.toBank _ e) =>
    some (if h.listOn t && !h.gBoundary t (h.gActive t) e then h.gEntryEnd t (h.gActive t) e else e)

/-- How long class c stays open over consecutive segments. -/
def openRun (c : Nat) : List GateSeg → Nat
  | [] => 0
  | s :: l => if s.gates.testBit c then (s.stop - s.start) + openRun c l else 0

/-- The remaining open time of class c at the decision time; none: unlimited (R235). -/
def Hub.openLeft (h : Hub) (t c : Nat) : Option Nat :=
  let cut := (h.switchPoint t).map fun e => e - h.now
  let own :=
    if h.listOn t then
      let segs := h.gSegs t (h.gActive t)
      if segs.all fun s => s.gates.testBit c then none
      else
        let p := h.gPhase t (h.gActive t) h.now
        let rest := segs.dropWhile fun s => s.stop ≤ p
        some (openRun c (rest ++ segs) - (p - (rest.headD ⟨0, 0, 0, 0⟩).start))
    else none
  match own, cut with
  | none, c => c
  | o, none => o
  | some a, some b => some (min a b)

/-- How long class c has been open at the decision time, since its window began in the list in force (R235). -/
def Hub.openFor (h : Hub) (t c : Nat) : Nat :=
  let segs := h.gSegs t (h.gActive t)
  let p := h.gPhase t (h.gActive t) h.now
  let past := segs.takeWhile fun s => s.stop ≤ p
  let rest := segs.dropWhile fun s => s.stop ≤ p
  min ((p - (rest.headD ⟨0, 0, 0, 0⟩).start) + openRun c (past.reverse ++ rest.reverse)) (h.mono - (h.tport t).listFrom)

/-- The longest window of class c of a list; none: it never ends (R236, Table 8.6). -/
def longestWindow (c : Nat) (segs : List GateSeg) : Option Nat :=
  if segs.all fun s => s.gates.testBit c then none
  else
    some ((List.range segs.length).foldl (fun m k => max m (openRun c (segs.drop k ++ segs.take k))) 0)

/-- TS_GSTAT shows the entry and the gates in force. -/
def Hub.showGate (h : Hub) (t : Nat) : Hub :=
  if h.listOn t then
    let s := h.gSegAt t (h.gActive t) h.now
    h.wr (Reg.TS_GSTAT t) (w32 (s.entry % 256 + 256 * s.gates))
  else h.wr (Reg.TS_GSTAT t) 0xFF00

/-- How long every class stays closed over consecutive segments. -/
def closedRun : List GateSeg → Nat
  | [] => 0
  | s :: l => if s.gates = 0 then (s.stop - s.start) + closedRun l else 0

/-- The gap that holds this instant, with every class closed: how long it has lasted, and how long it will, before an open entry or the
point of a pending switch; none: a class is open, or no list is in force. -/
def Hub.gapNow (h : Hub) (t : Nat) : Option (Nat × Nat) :=
  if h.listOn t && decide (h.gatesNow t = 0) then
    let segs := h.gSegs t (h.gActive t)
    let p := h.gPhase t (h.gActive t) h.now
    let past := segs.takeWhile fun s => s.stop ≤ p
    let rest := segs.dropWhile fun s => s.stop ≤ p
    let gone := p - (rest.headD ⟨0, 0, 0, 0⟩).start
    let left := closedRun (rest ++ segs) - gone
    some (min (gone + closedRun (past.reverse ++ rest.reverse)) (h.mono - (h.tport t).listFrom),
      (h.switchPoint t).elim left fun e => min left (e - h.now))
  else none

/-- TSS lends SIT buffer cycles and gate gaps (R248). -/
def Hub.lends (h : Hub) : Bool := h.rdB Reg.TSS_LEND_CFG 0

/-- GAP_MIN in ns. -/
def Hub.gapMin (h : Hub) : Nat := 8 * max 1 (h.rdF Reg.TSS_LEND_CFG 31 16)

/-- SIT has a port's path: a gap of at least GAP_MIN is lent, and TS_LEAD or more of it is left (R248). -/
def Hub.pathLent (h : Hub) (t : Nat) : Bool :=
  h.lends && (h.gapNow t).elim false fun g => decide (h.gapMin ≤ g.1 + g.2 ∧ h.txLead t < g.2)

/-- A gap that starts now, with every class closed for at least GAP_MIN, is lent to SIT (R248). -/
def Hub.lendGap (h : Hub) (t : Nat) : Hub :=
  if h.lends && (h.gapNow t).elim false fun g => decide (h.gapMin ≤ g.1 + g.2) then h.inc Reg.TSS_LENT_GAP else h

/-- GATE_ENTRY_END (R238): an entry's interval ends; the next entry, or the next cycle, begins. -/
def execGateEntryEnd (t : EgressNo) (s : State) : Answer :=
  act s (s.hub.mainUp && s.hub.listOn t) fun h =>
    let was := h.rdF (Reg.TS_GSTAT t) 15 8
    let h := h.showGate t
    let h := if was = 0 then h else h.lendGap t
    if (h.gSegAt t (h.gActive t) h.now).start = 0 then h.inc (Reg.TS_GCYCLES t) else h

/-- T of a bank: its first cycle start at or after the switch time that has not passed (R239). -/
def Hub.switchT (h : Hub) (t : Nat) (b : Bool) : Nat :=
  let m := max h.now (join64 (h.rd (Reg.TS_GSW_LO t)) (h.rd (Reg.TS_GSW_HI t)))
  m + (((h.gBase t b : Int) - m) % (h.gCycle t b : Int)).toNat

/-- The switch time has passed: SWITCH_LATE. -/
def Hub.switchLate (h : Hub) (t : Nat) : Hub :=
  if join64 (h.rd (Reg.TS_GSW_LO t)) (h.rd (Reg.TS_GSW_HI t)) < h.now then h.attn .tss 2 else h

/-- Put a pending switch, or clear it; PENDING shows it. -/
def Hub.setSwitch (h : Hub) (t : Nat) (w : Option GateSwitch) : Hub :=
  (h.updTport t fun p => { p with switch := w }).wrB (Reg.TS_GCTL t) 6 w.isSome

/-- A write of TS_GCTL: GATE_EN acts first, CANCEL over ARM, then ARM (R239, R241). -/
def Hub.writeGctl (h : Hub) (t : Nat) (v : Word) : Hub :=
  let a := Reg.TS_GCTL t
  let h := (h.wrB a 0 (bit v 0)).wrB a 3 (bit v 3)
  let h := if bit v 0 then h
    else if h.listOn t then h.setSwitch t (some (.toNone (h.gEntryEnd t (h.gActive t) h.now)))
    else h.setSwitch t none
  if bit v 2 then (if bit v 0 then h.setSwitch t none else h)
  else if bit v 1 then
    let b := bit v 3
    if !bit v 0 || (h.listOn t && h.gActive t == b) then h.attn .tss 3
    else (h.switchLate t).setSwitch t (some (.toBank b (h.switchT t b)))
  else h

/-- A write of TS_GCTL by software of this member; in a pair it may be mirrored (Table 9.4). -/
def Hub.storeGctl (h : Hub) (t : Nat) (v : Word) : Hub := (h.writeGctl t v).gateNote t (Reg.TS_GCTL t % 0x100000) v

/-- TS_GCTL as it stands, with ARM and CANCEL 0. -/
def Hub.gctlHeld (h : Hub) (t : Nat) : Word := h.rd (Reg.TS_GCTL t) &&& 9#32

/-- GATE_ARM (R239): a write of TS_GCTL with ARM and NEXT_BANK, GATE_EN as it stands. -/
def execGateArm (t : EgressNo) (bank : Bool) (s : State) : Answer :=
  act s (s.hub.mainUp && portPresent s.hub.straps t) fun h => h.storeGctl t (setBit (h.gctlHeld t ||| 2#32) 3 bank)

/-- GATE_CANCEL (R239): a write of TS_GCTL with CANCEL, the rest as it stands. -/
def execGateCancel (t : EgressNo) (s : State) : Answer :=
  act s (s.hub.mainUp && portPresent s.hub.straps t) fun h => h.storeGctl t (h.gctlHeld t ||| 4#32)

/-- GATE_EN_WRITE (R241): a write of TS_GCTL.GATE_EN, NEXT_BANK as it stands. -/
def execGateEnWrite (t : EgressNo) (on : Bool) (s : State) : Answer :=
  act s (s.hub.mainUp && portPresent s.hub.straps t) fun h => h.storeGctl t (setBit (h.gctlHeld t) 0 on)

/-- GATE_SWITCH (R239, R241): a pending switch takes effect. -/
def execGateSwitch (t : EgressNo) (s : State) : Answer :=
  act s (s.hub.mainUp && (s.hub.tport t).switch.isSome) fun h =>
    match (h.tport t).switch with
    | none => h
    | some (.toNone _) => ((h.setSwitch t none).wrB (Reg.TS_GCTL t) 5 false).showGate t
    | some (.toBank b _) =>
      let h := ((h.setSwitch t none).wrB (Reg.TS_GCTL t) 5 true).wrB (Reg.TS_GCTL t) 4 b
      let h := h.updTport t fun p => { p with listFrom := h.mono }
      (((h.wr (Reg.TS_GCYCLES t) 0).attn .tss 0).showGate t).lendGap t

/-- The address of entry `e.2` of bank `e.1`. -/
def gateEntryAddr (t : Nat) (e : Bool × Nat) : Nat := if e.1 then Reg.TS_GATE_B t e.2 else Reg.TS_GATE_A t e.2

/-- A write to an entry, BASE, CYCLE or LEN of a bank (R240): ignored for the bank in force; a write of BASE or CYCLE
of the pending bank determines T again (R239). -/
def Hub.writeGate (h : Hub) (t : Nat) (b : Bool) (a : Nat) (v : Word) (timing : Bool) : Hub :=
  if h.listOn t && h.gActive t == b then h.attn .tss 1
  else
    let h := (h.wr a v).updTport t fun p => { p with badEntry := p.badEntry.filter fun e => gateEntryAddr t e ≠ a }
    match (h.tport t).switch with
    | some (.toBank p _) =>
      if p = b ∧ timing then (h.switchLate t).setSwitch t (some (.toBank b (h.switchT t b))) else h
    | _ => h

/-- A write to a gate bank by software of this member; in a pair it may be mirrored (Table 9.4). -/
def Hub.storeGate (h : Hub) (t : Nat) (b : Bool) (a : Nat) (v : Word) (timing : Bool) : Hub :=
  (h.writeGate t b a v timing).gateNote t (a % 0x100000) v

/-- The address of a register of a gate bank. -/
def gateRegAddr (t : Nat) (b : Bool) : GateReg → Nat
  | .entry e => if b then Reg.TS_GATE_B t e else Reg.TS_GATE_A t e
  | .baseLo => Reg.TS_GBASE_LO t (bankNo b)
  | .baseHi => Reg.TS_GBASE_HI t (bankNo b)
  | .cycle => Reg.TS_GCYCLE t (bankNo b)
  | .len => Reg.TS_GLEN t (bankNo b)

/-- The implemented bits of a register of a gate bank. -/
def gateRegMask : GateReg → Word
  | .entry _ | .baseHi => 0xFFFFFFFF
  | .baseLo => 0xFFFFFFF8
  | .cycle => 0x07FFFFFF
  | .len => 0x1FF

/-- BASE and CYCLE set the cycle starts. -/
def gateRegTiming : GateReg → Bool
  | .baseLo | .baseHi | .cycle => true
  | _ => false

end Sys2Proof.Machine
end

