-- ==== Sys2Proof/Machine/Tss.lean ====
section
/-! DEFINITION. The scheduler (R226–R234, R242–R247): eligibility, the decision, shapers, the deal. What a chosen
unit then does at its port stands in Egress. -/

namespace Sys2Proof.Machine

/-! ### Units -/

/-- The cells of a list up to the first that ends its frame. -/
def Hub.uptoLast (h : Hub) : List Nat → List Nat
  | [] => []
  | i :: l => if (h.cell i).elim false fun (c : CellSt) => c.last then [i] else i :: Hub.uptoLast h l

/-- The unit at the head of a flow's list for a target: one cell on a link port, a whole frame elsewhere (R226); a frame that another one
of the flow has interleaved at another ingress is gathered in its own order. -/
def Hub.headUnit (h : Hub) (s t : Nat) : List Nat :=
  match h.pendingOf s t with
  | [] => []
  | i :: l =>
    if isLinkPort t then [i]
    else
      let f := (h.cell i).map fun (c : CellSt) => (c.fseq, c.inp)
      h.uptoLast (i :: l.filter fun j => (h.cell j).map (fun (c : CellSt) => (c.fseq, c.inp)) = f)

/-- The unit may leave: on an edge port its LAST cell is there; a TC6 cell on a link only when its frame's code has
been checked (R133, R226). -/
def Hub.unitWhole (h : Hub) (t : Nat) (u : List Nat) : Bool :=
  if isLinkPort t then !h.opens.any fun o => o.tc = 6 ∧ u.any fun i => o.cells.contains i ∧ h.ofFrame o i
  else u.any fun i => (h.cell i).elim false fun c => c.last

/-- The charged length of a unit (R227). -/
def Hub.unitCharge (h : Hub) (t : Nat) (u : List Nat) : Nat :=
  u.foldl (fun n i => n + (h.cell i).elim 0 fun c => h.cellCharge t c) 0

/-! ### Shapers (R232, R233) -/

/-- The bucket depth of a context, in bytes. -/
def Ctx.depth (c : Ctx) : Nat := 256 * max 1 c.burst

/-- The target whose reads charge a flow's bucket (R232). -/
def Hub.shapeTarget (h : Hub) (s t : Nat) : Bool :=
  !(h.ctx s).mcast || decide ((onesOf (h.targets s) 18).head? = some t)

/-- The flow's shaper lets a unit start at a target. A shaper that a commit has switched on or off acts so from its next refill (R234). -/
def Hub.flowTokens (h : Hub) (s t : Nat) : Bool :=
  !(h.ctx s).shapeOn || !h.shapeTarget s t || decide (0 < (h.ctx s).tokens)

/-- RATE of the class shaper of a port. -/
def Hub.classRate (h : Hub) (t c : Nat) : Nat := h.rdF (Reg.TS_CSH t c) 19 0

/-- The class shaper lets a unit start (R234). -/
def Hub.classTokens (h : Hub) (t c : Nat) : Bool :=
  !(h.tport t).shOn.getD c false || decide (0 < (h.tport t).tokens.getD c 0)

/-- A bucket's gain at a refill: RATE × period / 8 bytes with the carried fraction in eighths; the depth cuts. -/
def refill (rate us depth : Nat) (tokens : Int) (frac : Nat) : Int × Nat :=
  let g := rate * us + frac
  (min (depth : Int) (tokens + (g / 8 : Nat)), g % 8)

/-- TSS_REFILL in force, in µs. -/
def Hub.refillUs (h : Hub) : Nat := clampN 1 1024 (h.rdF Reg.TSS_REFILL 10 0)

/-- SHAPER_REFILL (R233, R234), at a multiple of TSS_REFILL in cell time: every bucket gains its rate's share, up to its depth, by the fields in force now. -/
def execShaperRefill (s : State) : Answer :=
  act s (s.hub.mainUp && s.hub.time.reached (1000 * s.hub.refillUs)) fun h =>
    let us := h.refillUs
    let h := (Tab.keys h.ctxs).foldl (fun h sl => h.updCtx sl fun c =>
      if c.state = .resident ∧ c.shaped then
        let r := refill c.shapeRate us c.depth c.tokens c.frac
        { c with tokens := r.1, frac := r.2, shapeOn := true }
      else { c with shapeOn := false }) h
    (List.range 18).foldl (fun h t => (List.range 8).foldl (fun h c =>
      if h.classRate t c = 0 then
        (if (h.tport t).shOn.getD c false then h.updTport t fun p => { p with shOn := putAt p.shOn c false } else h)
      else h.updTport t fun p =>
        let r := refill (h.classRate t c) us (256 * max 1 (h.rdF (Reg.TS_CSH t c) 31 20)) (p.tokens.getD c 0)
          (p.frac.getD c 0)
        { p with tokens := putAt p.tokens c r.1, frac := putAt p.frac c r.2, shOn := putAt p.shOn c true }) h) h

/-! ### Eligibility (R230, R235, R236) -/

/-- Transmit time of L charged bytes, in 1/1,024 ns (R227). -/
def Hub.txTime (h : Hub) (t l : Nat) : Nat := l * h.rdF (Reg.TS_BYTE_TIME t) 15 0

/-- A unit fits the remaining open time of its class. -/
def Hub.fits (h : Hub) (t c l : Nat) : Bool :=
  match h.openLeft t c with
  | none => true
  | some r => decide (h.txTime t l ≤ 1024 * r)

/-- A unit is longer than the longest window of its class in the list in force (R236). -/
def Hub.neverFits (h : Hub) (t c l : Nat) : Bool :=
  h.listOn t &&
    match longestWindow c (h.gSegs t (h.gActive t)) with
    | none => false
    | some w => decide (0 < w) && decide (1024 * w < h.txTime t l)

/-- A unit that never fits stood at the head of its list as the present window of its class began: it may start in it and run past its
end (R236). (Log entry 54, DEDUCED.) -/
def Hub.sawWindow (h : Hub) (s t c : Nat) : Bool :=
  (h.ft s t).elim false fun (f : FlowTgt) => decide (f.headAt + h.openFor t c ≤ h.mono)

/-- A unit fits the open time, or is one that never can and may start now (R235, R236). -/
def Hub.mayStart (h : Hub) (s t c l : Nat) : Bool := h.fits t c l || (h.neverFits t c l && h.sawWindow s t c)

/-- The class is open at the decision time. -/
def Hub.gateOpen (h : Hub) (t c : Nat) : Bool := (h.gatesNow t).testBit c

/-- The cells of a port's sender not yet acknowledged stay below KL_REPLAY_CFG.DEPTH (R142). -/
def Hub.depthRoom (h : Hub) (p : Nat) : Bool :=
  decide ((h.link p).unacked.length < clampN 16 1024 (h.rdF (Reg.KL_REPLAY_CFG p) 10 0))

/-- The state of a link port lets it start a new cell of a frame with this handle (R137–R141, R146–R148): TC6 alone
before UP, only frames to the far end in HOLD, none in DOWN, ALIGN, IDLE, RECOVER and FAILED. -/
def Hub.linkSends (h : Hub) (p c flow : Nat) : Bool :=
  match h.klState p with
  | 2 | 3 | 4 => decide (c = 6)
  | 5 => true
  | 8 => decide (c = 6 ∧ flow = 0xFFC000)
  | _ => false

/-- The bytes in an output's line FIFO (DO_FIFO). -/
def DpOut.bytes (o : DpOut) : Nat := o.fifo.foldl (fun n l => n + l.bytes) 0

/-- An edge block asks for a unit at its port (R226): an Ethernet port while its link is up (R351), an output while it reads no
line and its line FIFO has 16,384 bytes free (R305). -/
def Hub.edgeAsks (h : Hub) (t : Nat) : Bool :=
  if 9 ≤ t ∧ t ≤ 0x0C then h.up .eth && h.rdB (Reg.EP_STAT (t - 9)) 0
  else if t = 0x0D then h.up .pxb
  else if t = 0x0E ∨ t = 0x0F then
    let o : DpOut := Tab.get (fun _ => {}) h.dse.outs (t - 0x0E)
    h.up .dse && decide (h.role = .leaf) && o.reading.isNone && decide (o.bytes + 16384 ≤ 524288)
  else if t = 0x10 then h.up .usb
  else true

/-- The port can take a new unit of class c (R230): on a link port a credit, a replay place and the state; elsewhere its block
asks. -/
def Hub.portTakes (h : Hub) (t c flow : Nat) : Bool :=
  if !isLinkPort t then h.edgeAsks t
  else
    (h.linkSends t c flow && decide (1 ≤ (h.link t).hand.getD c 0) && h.depthRoom t)

/-- The unit of a flow at a target is eligible (R230). -/
def Hub.eligible (h : Hub) (s t c : Nat) : Bool :=
  let u := h.headUnit s t
  let l := h.unitCharge t u
  let flow := (u.head?.bind h.cell).elim 0 fun (x : CellSt) => x.flow
  !u.isEmpty && h.unitWhole t u && h.flowTokens s t && h.classTokens t c && h.gateOpen t c
    && h.mayStart s t c l && h.portTakes t c flow && !h.pairHeld t c

/-! ### The decision (R229, R231) -/

/-- The slots with state at a port in class c, ascending. -/
def Hub.flowsAt (h : Hub) (t c : Nat) : List Nat :=
  (h.fts.filter fun e => e.1 % 32 = t ∧ (h.ctx (e.1 / 32)).tc = c).map fun e => e.1 / 32

/-- The classes 0 to 6 with state at a port. -/
def Hub.classesAt (h : Hub) (t : Nat) : List Nat := (List.range 7).filter fun c => h.flowsAt t c ≠ []

/-- The member of a rising list at or after a pointer, with wrap. -/
def atOrAfter (l : List Nat) (p : Nat) : Option Nat := (l.find? fun x => p ≤ x).orElse fun _ => l.head?

/-- Units whose class is open but which do not fit advance TS_GATE_WAIT once (R235). -/
def Hub.gateWaits (h : Hub) (t : Nat) : Hub :=
  (h.fts.filter fun e => e.1 % 32 = t).foldl (fun h e =>
    let s := e.1 / 32
    let c := (h.ctx s).tc
    let u := h.headUnit s t
    let l := h.unitCharge t u
    match h.ft s t with
    | none => h
    | some f =>
      if !f.waited && !u.isEmpty && h.unitWhole t u && h.gateOpen t c && !h.mayStart s t c l then
        ((h.setFt s t { f with waited := true }).inc (Reg.TS_GATE_WAIT t)).pmcEvent 0x06 t c
      else h) h

/-- Head units of TC7 that are not eligible at a decision take it as their eligibility time (R229). -/
def Hub.trumpStamp (h : Hub) (t : Nat) : Hub :=
  (h.flowsAt t 7).foldl (fun h s =>
    if h.eligible s t 7 then h
    else
      match h.ft s t with
      | some f => h.setFt s t { f with elig := h.mono }
      | none => h) h

/-- The eligible TC7 flow whose head unit became eligible first; the lower slot on a tie. -/
def Hub.trumpPick (h : Hub) (t : Nat) : Option Nat :=
  ((h.flowsAt t 7).foldl (fun (b : Option (Nat × Nat)) s =>
    if h.eligible s t 7 then
      let e := ((h.ft s t).map fun (f : FlowTgt) => f.elig).getD 0
      match b with
      | none => some (e, s)
      | some (x, _) => if e < x then some (e, s) else b
    else b) none).map (·.2)

/-- The flow quantum in force. -/
def FlowTgt.q (f : FlowTgt) : Nat := max 1 f.quant

/-- TS_CQ of a class at a port: the sum of its flows' quanta (R245, R246). -/
def Hub.classQ (h : Hub) (t c : Nat) : Nat :=
  min 65535 ((h.flowsAt t c).foldl (fun a s => a + ((h.ft s t).elim 0 fun f => f.q)) 0)

/-- The flow's turn in class c: the current flow takes its quantum once, and is taken if it may; else the pointer
moves on. -/
def Hub.drrFlow (h : Hub) (t c : Nat) : Nat → Hub × Option Nat
  | 0 => (h, none)
  | n + 1 =>
    let l := h.flowsAt t c
    match atOrAfter l ((h.tport t).ptr.getD c 0) with
    | none => (h, none)
    | some s =>
      let f := (h.ft s t).getD {}
      let f := if f.fresh ∧ (h.tport t).ptr.getD c 0 = s then f else { f with deficit := min f.deficit 0 + 64 * f.q, fresh := true }
      let h := (h.setFt s t f).updTport t fun p => { p with ptr := putAt p.ptr c s }
      if 0 < f.deficit && h.eligible s t c then (h, some s)
      else
        let nx := (atOrAfter l (s + 1)).getD s
        let h := h.updTport t fun p => { p with ptr := putAt p.ptr c nx }
        let h := match h.ft nx t with
          | some g => h.setFt nx t { g with fresh := false }
          | none => h
        Hub.drrFlow h t c n

/-- The class's turn (R231). -/
def Hub.drrClass (h : Hub) (t : Nat) : Nat → Hub × Option Nat
  | 0 => (h, none)
  | n + 1 =>
    let l := h.classesAt t
    match atOrAfter l (h.tport t).cls with
    | none => (h, none)
    | some c =>
      let p := h.tport t
      let fresh := p.cfresh && decide (p.cls = c)
      let p := if fresh then p
        else { p with
          cls := c
          cfresh := true
          cdef := putAt p.cdef c (min (p.cdef.getD c 0) 0 + 64 * h.classQ t c) }
      let h := h.updTport t fun _ => p
      let r := if 0 < p.cdef.getD c 0 ∧ h.gateOpen t c ∧ h.classTokens t c then
          h.drrFlow t c (h.flowsAt t c).length
        else (h, none)
      match r with
      | (h, some s) => (h, some s)
      | (h, none) =>
        let h := h.updTport t fun p => { p with cls := (atOrAfter l (c + 1)).getD c, cfresh := false }
        Hub.drrClass h t n

/-- The decision of a port: the slot whose unit leaves, or none for an idle slot (R229). TSS takes no new work while
its ENABLE is 0 (R69). (Log entry 44, DESIGN CHOICE.) -/
def Hub.decision (h : Hub) (t : Nat) : Hub × Option Nat :=
  let h := (h.gateWaits t).trumpStamp t
  if !(h.hdr .tss).enable then (h, none)
  else
    match h.trumpPick t with
    | some s => (h, some s)
    | none => h.drrClass t (h.classesAt t).length

/-- Charge a unit that starts: deficits, shapers, the TC7 bytes of the epoch, and an overrun (R231, R233, R236). -/
def Hub.charge (h : Hub) (s t c : Nat) (l : Nat) : Hub :=
  let overran := !h.fits t c l
  let h := h.pmcEvent 0x03 t c l
  let h := match h.ft s t with
    | some f => h.setFt s t { f with deficit := f.deficit - l }
    | none => h
  let h := if (h.ctx s).shapeOn ∧ h.shapeTarget s t then h.updCtx s fun x => { x with tokens := x.tokens - l } else h
  let h := h.updTport t fun p => { p with
    cdef := if c < 7 then putAt p.cdef c (p.cdef.getD c 0 - l) else p.cdef
    tokens := if p.shOn.getD c false = false then p.tokens else putAt p.tokens c (p.tokens.getD c 0 - l)
    trump := if c = 7 then p.trump + l else p.trump }
  if overran then ((h.inc (Reg.TS_OVERRUN t)).attn .tss 4).fault .tss 0 else h

/-! ### The deal (R242–R247) -/

/-- The epoch length in ns. -/
def Hub.epochNs (h : Hub) : Nat := 31250 * clampN 1 320 (h.rdF Reg.TSS_EPOCH 8 0)

/-- The pending bytes of a flow at a target (R228). -/
def Hub.pendingBytes (h : Hub) (s t : Nat) : Nat := h.unitCharge t (h.pendingOf s t)

/-- What the deal knows of one flow-target, in 1/16 Mb/s: slot, class, weight, want, ceiling, allotment so far. -/
structure Dealt where
  slot : Nat
  tc : Nat
  weight : Nat
  want : Nat
  ceil : Nat
  a : Nat
  deriving DecidableEq, Repr

/-- Demand of a flow-target in 1/16 Mb/s over the epoch that ends (R243): the bytes admitted while it had state and those pending, over
the time for which it had state. -/
def Hub.demandOf (h : Hub) (s t : Nat) (f : FlowTgt) : Nat :=
  let b := (h.tport t).before (h.demandKey s)
  128000 * (b.1 + f.admitted + h.pendingBytes s t) / max 1000 (b.2 + (h.mono - f.since))

/-- Spread a share over the flows of one class that are below their limit, by weight, never above the limit
(fuel: the number of flows). -/
def spread (limit : Dealt → Nat) (c : Nat) : Nat → Nat → List Dealt → List Dealt
  | 0, _, l => l
  | n + 1, share, l =>
    let opened := l.filter fun d => d.tc = c ∧ d.a < limit d
    let w := opened.foldl (fun x d => x + d.weight) 0
    if share = 0 ∨ w = 0 then l
    else
      let l' := l.map fun d =>
        if d.tc = c ∧ d.a < limit d then { d with a := min (limit d) (d.a + share * d.weight / w) } else d
      let used := (l'.foldl (fun x d => x + d.a) 0) - (l.foldl (fun x d => x + d.a) 0)
      if used = 0 then l else spread limit c n (share - used) l'

/-- One pass of `fill` over the classes that have a flow below its limit (R244). -/
def fillPass (cw : Nat → Nat) (limit : Dealt → Nat) (r : Nat) (l : List Dealt) : List Dealt :=
  let cs := (List.range 7).filter fun c => l.any fun d => d.tc = c ∧ d.a < limit d
  let w := cs.foldl (fun x c => x + cw c) 0
  cs.foldl (fun l c => spread limit c (l.length + 1) (r * cw c / max 1 w) l) l

/-- `fill` (R244), in at most `n` passes; a pass that no division can advance ends it. -/
def fill (cap : Nat) (cw : Nat → Nat) (limit : Dealt → Nat) : Nat → List Dealt → List Dealt
  | 0, l => l
  | n + 1, l =>
    let sum := l.foldl (fun x d => x + d.a) 0
    let l' := fillPass cw limit (cap - sum) l
    if l'.foldl (fun x d => x + d.a) 0 = sum then l else fill cap cw limit n l'

/-- The deal of one port (R244): allotments, and whether the floors were over C. -/
def Hub.dealPort (h : Hub) (t : Nat) : List Dealt × Bool :=
  let cap := 16 * (h.rdF (Reg.TS_CAP t) 20 0 - h.rdF (Reg.TS_TRUMP_RATE t) 20 0)
  let l := (h.fts.filter fun e => e.1 % 32 = t ∧ (h.ctx (e.1 / 32)).tc < 7).map fun e =>
    let s := e.1 / 32
    let c := h.ctx s
    let ceil := if c.ceil = 0xFFFFF then 2 ^ 40 else 16 * c.ceil
    let want := min e.2.demand ceil
    { slot := s, tc := c.tc, weight := max 1 c.weight, want := want, ceil := ceil, a := min (16 * c.floor) want }
  let sum := l.foldl (fun x d => x + d.a) 0
  let tooMuch := decide (cap < sum)
  let l := if tooMuch then l.map fun d => { d with a := d.a * cap / sum } else l
  let cw := fun c => max 1 (h.rdF (Reg.TS_CW t c) 15 0)
  let l := fill cap cw (fun d => d.want) 64 l
  (fill cap cw (fun d => d.ceil) 64 l, tooMuch)

/-- Divide and round up. -/
def ceilDiv (a b : Nat) : Nat := (a + b - 1) / b

/-- The quanta of a port's allotments, scaled when a class sum passes 65,535 (R245): slot, quantum, allotment. -/
def Hub.dealQuanta (h : Hub) (l : List Dealt) : List (Nat × Nat × Nat) :=
  let trick := clampN 1000 65535 (h.rdF Reg.TSS_TRICK 15 0)
  let q := l.map fun d => (d, clampN 1 65535 (ceilDiv (d.a * trick) (16 * 8000 * 64)))
  let big := (List.range 7).foldl (fun m c => max m (q.foldl (fun x e => if e.1.tc = c then x + e.2 else x) 0)) 0
  q.map fun e => (e.1.slot, if 65535 < big then max 1 (ceilDiv (e.2 * 65535) big) else e.2, e.1.a)

/-- A port's measurements of the ending epoch, which lasts `ep` ns unless it began later: the charged TC7 rate, and each flow-target's
demand (R243). -/
def Hub.measure (ep : Nat) (h : Hub) (t : Nat) : Hub :=
  let last := max 1 (min ep (h.mono - (h.tport t).epochFrom))
  let h := h.wrF (Reg.TS_TRUMP_RATE t) 20 0 (holdAt 0x1FFFFF (8000 * (h.tport t).trump / last))
  let h := (h.fts.filter fun e => e.1 % 32 = t).foldl (fun h e =>
    h.setFt (e.1 / 32) t { e.2 with demand := h.demandOf (e.1 / 32) t e.2, admitted := 0, since := h.mono }) h
  h.updTport t fun p => { p with trump := 0, epochFrom := h.mono, past := [] }

/-- A port whose deal is not complete at the boundary is late: its computation is abandoned (R247). -/
def Hub.dealLate (h : Hub) (t : Nat) : Hub :=
  if (h.tport t).dealing.isSome then
    (((((h.updTport t fun p => { p with dealing := none }).inc (Reg.TS_DEAL_LATE t)).inc Reg.TSS_DEAL_LATE).attn .tss 5).fault .tss 1).pmcEvent 0x0D t 0
  else h

/-- A flow-target takes part in a deal. -/
def Hub.ftDealt (h : Hub) (s t : Nat) : Hub :=
  match h.ft s t with
  | some f => h.setFt s t { f with isNew := false }
  | none => h

/-- The deal starts at the boundary that ends an epoch of `ep` ns, after the commits of that cycle (R243, R247). -/
def Hub.dealStart (h : Hub) (ep : Nat) : Hub :=
  let late := (List.range 18).filter fun t => (h.tport t).dealing.isSome
  let h := (List.range 18).foldl Hub.dealLate h
  let h := ((List.range 18).foldl (Hub.measure ep) h).wrF Reg.TSS_DEAL_STAT 12 8 late.length
  if h.rdB Reg.TSS_DEAL_CFG 0 then
    let st := h.rd Reg.TSS_DEAL_STAT
    let h := h.wr Reg.TSS_DEAL_STAT
      (w32 (late.headD 0 + 0x100 * late.length + 0x10000 * ((fld st 31 16 + 1) % 65536)))
    (List.range 18).foldl (fun h t =>
      let r := h.dealPort t
      let h := if r.2 then h.attn .tss 6 else h
      let h := r.1.foldl (fun h d => h.ftDealt d.slot t) h
      h.updTport t fun p => { p with dealing := some (h.dealQuanta r.1), dealFrom := h.mono }) h
  else h

/-- The port that the deal engine works on: the first one not complete from START on, ascending with wrap (R247). -/
def Hub.dealNext (h : Hub) : Option Nat :=
  let st := h.rdF Reg.TSS_DEAL_STAT 4 0
  ((List.range 18).map fun k => (st + k) % 18).find? fun t => (h.tport t).dealing.isSome

/-- DEAL_PORT_DONE (R247): the deal of the port that the engine works on is complete; its quanta apply at the next fresh turns. A
flow-target that has gained state since the deal began keeps TS_NEWQ (R249). -/
def execDealPortDone (t : EgressNo) (s : State) : Answer :=
  act s (s.hub.mainUp && decide (s.hub.dealNext = some t.val)) fun h =>
    match (h.tport t).dealing with
    | none => h
    | some l =>
      let h := l.foldl (fun h r =>
        match h.ft r.1 t with
        | some f => if f.isNew then h else h.setFt r.1 t { f with quant := r.2.1, allot := r.2.2 }
        | none => h) (h.updTport t fun p => { p with dealing := none })
      if (List.range 18).all fun t => (h.tport t).dealing.isNone then
        h.wr Reg.TSS_DEAL_TIME (w32 (holdAt 0xFFFF ((h.mono - (h.tport t).dealFrom) / 100)))
      else h

/-- FLOW_SCHED_READ (R251). -/
def execFlowSchedRead (s : State) : Answer :=
  mbxAct s .tss 0x10 fun h =>
    let sl := (h.arg .tss 0).toNat
    let t := (h.arg .tss 1).toNat
    if 0x11 < t ∨ 8192 ≤ sl then done h (mbxErr 0x02)
    else if (h.ctx sl).state ≠ .resident then done h (mbxErr 0x80)
    else
      let c := h.ctx sl
      let cb := iword ((h.tport t).tokens.getD c.tc 0)
      match h.ft sl t with
      | none => done h (mbxOk [0, 0, 0, 0, iword c.tokens, cb])
      | some f =>
        done h (mbxOk [w32 (f.q + 2 ^ 16), iword f.deficit, w32 f.allot, w32 f.demand, iword c.tokens, cb])

/-- GATE_CHECK (R251). -/
def execGateCheck (s : State) : Answer :=
  mbxAct s .tss 0x11 fun h =>
    let t := (h.arg .tss 0).toNat
    let b := bit (h.arg .tss 1) 0
    let c := fld (h.arg .tss 2) 2 0
    if 0x11 < t then done h (mbxErr 0x02)
    else
      let segs := h.gSegs t b
      let total := segs.foldl (fun n x => if x.gates.testBit c then n + (x.stop - x.start) else n) 0
      let sum := (List.range (h.gLen t b)).foldl (fun n e => n + entryNs (h.gEntry t b e)) 0
      done h (mbxOk [((longestWindow c segs).elim 0xFFFFFFFF w32), w32 total, w32 sum, w32 (h.gCycle t b)])

/-- GATE_BANK_WRITE (R240). -/
def execGateBankWrite (t : EgressNo) (bank : Bool) (r : GateReg) (v : Word) (s : State) : Answer :=
  act s (s.hub.mainUp && portPresent s.hub.straps t) fun h => h.storeGate t bank (gateRegAddr t bank r) (v &&& gateRegMask r) (gateRegTiming r)

/-- LENT_BUF_LO_READ (R250). -/
def execLentBufLoRead (s : State) : Answer :=
  act s s.hub.mainUp fun h => h.wr Reg.TSS_LENT_BUF_HI (hi32 (h.rdWide Reg.TSS_LENT_BUF_LO))

end Sys2Proof.Machine
end

