-- ==== Sys2Proof/Machine/Egress.lean ====
section
/-! DEFINITION. What a unit does as it leaves: a cell read for a link port (R128, R141, R142, R145), a frame at an
edge port or the steward (R16, R174, R178), a cell sent again (R144, R145). -/

namespace Sys2Proof.Machine

/-- A cell's pennant passes: it is not poisoned, no uncorrectable error hits the read, and the CRC agrees (R128,
R178, R179). -/
def Hub.cellGood (h : Hub) (i : Nat) (ecc : Bool) : Bool :=
  (h.cell i).elim false fun c =>
    !c.poison && !ecc && decide (c.pennant = pennantOf c.payload c.flow c.fseq)

/-- A target has read a cell: the flow was served (R205); a link target keeps a replay reference, any other has
sent its last byte and releases it (R16, R172). -/
def Hub.readCell (h : Hub) (t i : Nat) : Hub :=
  match h.cell i with
  | none => h
  | some c =>
    let m := c.pend &&& 2 ^ t
    let h := (h.pmcEvent 0x02 t c.tc).bwAdd t c.payload.length
    let h := h.histSample 2 (some t) (some c.tc) (some c.flow) (h.mono - c.adm : Nat)
    let h := if isLinkPort t then h
      else h.histSample 1 (some t) (some c.tc) (some c.flow) ((h.mono : Int) + h.txLead t + 96 - c.arr)
    let h := h.setCell i (some { c with
      pend := c.pend - m
      repl := if isLinkPort t then c.repl ||| m else c.repl })
    let h := h.updCtx c.slot fun x => { x with lrs := h.mono }
    (h.purge c.slot).ftSweep c.slot t

/-- A pennant failure at a read (R178): the cell is poisoned for every later read, the target releases it, and the
frame is counted once for this target. -/
def Hub.pennantFail (h : Hub) (s t i : Nat) (ecc : Bool) : Hub :=
  let fseq := (h.cell i).elim 0 fun c => c.fseq
  let h := h.updCell i fun c => { c with poison := true }
  let h := if ecc then h.bufEcc i else h
  let h := ((h.countPennant s).inc (Reg.TP_DROP_PENNANT t)).fault .tsc 2
  let h := match h.cell i with
    | some c => h.dropEvent c.inp c.tc
    | none => h
  (h.dropRefs s [i] (2 ^ t)).markFailed s t fseq

/-- The head cells of a flow at a target that belong to one frame. -/
def Hub.headsOf (h : Hub) (s t fseq : Nat) : List Nat :=
  (h.pendingOf s t).takeWhile fun i => (h.cell i).elim false fun c => decide (c.fseq = fseq)

/-- Nothing of a frame is left at a target: no cell to read, none to come, none that a replay may send again. -/
def Hub.frameGone (h : Hub) (s t fseq : Nat) : Bool :=
  let mine := fun (i : Nat) => (h.cell i).elim false fun c => decide (c.slot = s ∧ c.fseq = fseq)
  !(h.pendingOf s t).any mine && !(h.opens.any fun o => o.cells.any mine) && !((h.link t).unacked.any fun e => mine e.2)

/-- The remaining cells of a frame that failed at a target are released as the target reaches them (R178); the mark stays while
anything of the frame is left there. -/
def Hub.skipFailed (h : Hub) (t : Nat) : Hub :=
  (h.tport t).failed.foldl (fun h e =>
    let h := h.dropRefs e.1 (h.headsOf e.1 t e.2) (2 ^ t)
    if h.frameGone e.1 t e.2 then h.updTport t fun p => { p with failed := p.failed.filter fun x => x ≠ e } else h) h

/-! ### Link ports -/

/-- KL_REPLAY_STAT.NEXT_RSEQ. -/
def Hub.nextRseq (h : Hub) (p : Nat) : Nat := h.rdF (Reg.KL_REPLAY_STAT p) 11 0

/-- The code of a TC6 frame under a session key (R133). -/
def tc6Code (key : List Byte) (ctr flow fseq : Nat) (payload : List Byte) : List Byte :=
  (Config.hmac256 key (beBytes 8 ctr ++ beBytes 3 flow ++ beBytes 2 fseq ++ beBytes 2 payload.length ++ payload)).take 15

/-- A cell header (Table 5.3), HCHK over its first eleven bytes (R127). -/
def cellHeader (rseq tc flow fseq : Nat) (first last void : Bool) (len : Nat) (pennant : Word) : List Byte :=
  let b := [0xC5#8, BitVec.ofNat 8 (tc + 8 * b2n first + 16 * b2n last + 32 * b2n void)] ++ beBytes 2 rseq ++ beBytes 3 flow ++ beBytes 2 fseq
    ++ [BitVec.ofNat 8 len, 0#8]
  b ++ [crc8 b] ++ beBytes 4 pennant.toNat

/-- The data blocks of a payload: 16 bytes each, the last one filled with zeros (R126). -/
def dataBlocks (payload : List Byte) : List Byte :=
  payload ++ List.replicate ((16 - payload.length % 16) % 16) 0#8

/-- The header of a stored cell as it is sent. -/
def CellSt.header (c : CellSt) (rseq : Nat) : List Byte :=
  cellHeader rseq c.tc c.flow c.fseq c.first c.last false (c.payload.length - 1) c.pennant

/-- A control block with its CRC-32C over bytes 0 to 11 (R122). -/
def checkBlock (b : List Byte) : List Byte :=
  let b := (b ++ List.replicate 12 0#8).take 12
  b ++ beBytes 4 (crc32c b).toNat

/-- A MAC block (Table 5.2). -/
def macBlock (code : List Byte) : List Byte := 0x5A#8 :: code

/-- A cell goes out on a link; the last one of a TC6 frame under a session is followed by its MAC block (R133). -/
def Hub.putCell (h : Hub) (p r : Nat) (c : CellSt) : Hub :=
  let h := h.emit (.cell p (c.header r) (dataBlocks c.payload))
  match (h.link p).codes.find? fun e => e.1 = r with
  | some (_, code) => h.emit (.block p (macBlock code))
  | none => h

/-- Send a cell for the first time (R141, R142): it takes the next RSEQ, a credit and a place in the replay list; a
TC6 frame's last cell under a session advances CTR (R133); in AUTH only AUTH_FIN carries a code (R137). -/
def Hub.sendCell (h : Hub) (p i : Nat) : Hub :=
  match h.cell i with
  | none => h
  | some c =>
    let r := h.nextRseq p
    let h := h.wrF (Reg.KL_REPLAY_STAT p) 11 0 ((r + 1) % 4096)
    let session := h.rdB (Reg.KL_STATE p) 8 && (decide (h.klState p ≠ 3) || decide (c.payload.take 2 = [0#8, 4#8]))
    let last := decide (c.tc = 6) && c.last && session
    let h := h.updLink p fun l => { l with
      sentCum := modAt l.sentCum c.tc fun n => (n + 1) % 65536
      hand := modAt l.hand c.tc fun n => n - 1
      unacked := l.unacked ++ [(r, i)]
      ackAt := if l.unacked.isEmpty then h.mono else l.ackAt
      times := l.times ++ [{ rseq := r, first := h.mono, last := h.mono, again := false }]
      ctrTx := if last then l.ctrTx + 1 else l.ctrTx
      macTx := if c.tc ≠ 6 then l.macTx else if c.last then [] else (if c.first then [] else l.macTx) ++ c.payload
      codes := if last then
          l.codes ++ [(r, tc6Code l.keyTx l.ctrTx c.flow c.fseq ((if c.first then [] else l.macTx) ++ c.payload))]
        else l.codes }
    (h.putCell p r c).readCell p i

/-- A VOID cell (R145). -/
def voidCell (r : Nat) (v : Nat × Nat × Nat) : List Byte := cellHeader r v.1 v.2.1 v.2.2 false false true 0 0

/-- A cell read for replay fails its pennant (R145, R178): it is poisoned for every later read, the target releases it and sends VOID in
its place from now on, and the frame, counted once for this target, is not sent further. -/
def Hub.replayFail (h : Hub) (p r i : Nat) (ecc : Bool) : Hub :=
  match h.cell i with
  | none => h
  | some c =>
    let h := h.updCell i fun c => { c with poison := true }
    let h := if ecc then h.bufEcc i else h
    let h := if (h.tport p).failed.contains (c.slot, c.fseq) then h
      else (((h.countPennant c.slot).inc (Reg.TP_DROP_PENNANT p)).fault .tsc 2).dropEvent c.inp c.tc
    let h := (h.markFailed c.slot p c.fseq).dropReplay p i
    h.updLink p fun l => { l with
      unacked := l.unacked.map fun e => if e.1 = r then (r, 65536) else e
      times := l.times.map fun x => if x.rseq = r then { x with void := some (c.tc, c.flow, c.fseq) } else x }

/-- The running replay sends its next cell again (R144): a cell whose pennant fails goes as VOID (R145, R178). The replay ends after
the last unacknowledged cell. -/
def Hub.resend (h : Hub) (p : Nat) (ecc : Bool) : Hub :=
  match (h.link p).replay with
  | none => h
  | some r =>
    match (h.link p).unacked.dropWhile fun e => e.1 ≠ r with
    | [] => h.updLink p fun l => { l with replay := none }
    | (_, i) :: rest =>
      let h := if (h.cell i).isSome && !h.cellGood i ecc then h.replayFail p r i ecc else h
      let h := h.updLink p fun l => { l with
        times := l.times.map fun x => if x.rseq = r then { x with last := h.mono, again := true } else x
        replay := (rest.head?).map (·.1) }
      let h := h.inc (Reg.KL_CNT_REPLAY p)
      match (h.link p).times.findSome? fun x => if x.rseq = r then x.void else none with
      | some v => ((h.pmcEvent 0x07 p v.1).inc (Reg.KL_CNT_VOID p)).emit (.cell p (voidCell r v) [])
      | none =>
        match h.cell i with
        | some c => (h.pmcEvent 0x07 p c.tc).putCell p r c
        | none => h

/-! ### Exits -/

/-- The exit ports of a mask: every port but the links. -/
def exits (m : Nat) : List Nat := (onesOf m 18).filter fun t => !isLinkPort t

/-- A frame is delivered at an exit (R174): a flow without RESEQ compares its FSEQ with EXPECT; of a multicast frame
with several exits here, the lowest one counts. -/
def Hub.deliver (h : Hub) (s t fseq tmask : Nat) : Hub :=
  let c := h.ctx s
  if c.reseq ∨ (exits tmask).head? ≠ some t ∨ s < 9 then h
  else
    let d := (fseq + 65536 - c.expect) % 65536
    if d = 0 then h.updCtx s fun x => { x with expect := (fseq + 1) % 65536 }
    else if d < 32768 then
      h.updCtx s fun x => { x with cntGap := holdAt 0xFFFFFFFF (x.cntGap + d), expect := (fseq + 1) % 65536 }
    else h.updCtx s fun x => { x with cntLate := holdAt 0xFFFFFFFF (x.cntLate + 1) }

/-- A whole frame leaves by an exit port: its cells are checked in order; the first failure aborts the frame
(R15, R178), else it is delivered. -/
def Hub.exitFrame (h : Hub) (s t : Nat) (u : List Nat) (ecc : Option Nat) : Hub :=
  let bad := u.zipIdx.find? fun e => !h.cellGood e.1 (decide (ecc = some e.2))
  let fseq := (u.head?.bind h.cell).elim 0 fun c => c.fseq
  let tmask := (u.head?.bind h.cell).elim 0 fun c => c.tmask
  match bad with
  | none => (u.foldl (fun h i => h.readCell t i) h).deliver s t fseq tmask
  | some (i, k) =>
    let h := (u.take k).foldl (fun h i => h.readCell t i) h
    let h := h.pennantFail s t i (decide (ecc = some k))
    h.skipFailed t

/-- A frame of a flow leaves at the steward (R174): its cells are checked as at any exit, and it is delivered to the steward firmware. A
frame that the firmware has no use for is discarded at exit; which ones those are, the spec leaves open. (Log entry 55, DESIGN CHOICE.) -/
def Hub.stewardExit (h : Hub) (s : Nat) (u : List Nat) (ecc : Option Nat) : Hub :=
  let b := u.flatMap fun i => (h.cell i).elim [] fun (c : CellSt) => c.payload
  let flow := (u.head?.bind h.cell).elim 0 fun (c : CellSt) => c.flow
  let good := u.zipIdx.all fun e => h.cellGood e.1 (decide (ecc = some e.2))
  let tc := (h.ctx s).tc
  let h := h.exitFrame s 0x11 u ecc
  if good then
    let (w, h) := h.draw
    let h := h.emit (.steward flow b)
    if h.power.fwRunning && w.getLsbD 0 then h else (h.countExit s).dropEvent 0x11 tc
  else h

end Sys2Proof.Machine
end

