-- ==== Sys2Proof/Machine/Trigger.lean ====
section
/-! DEFINITION. The trigger outputs of VIN (R331–R333). Cell time moves their schedules, so they stand before it. -/

namespace Sys2Proof.Machine

/-- A vision receiver. -/
def Hub.vinRx (h : Hub) (n : Nat) : VinRx := Tab.get (fun _ => {}) h.vin n

/-- Change a receiver; VN_STAT.IN_FRAME and VN_TRIG_CTL.RUNNING follow. -/
def Hub.updVin (h : Hub) (n : Nat) (f : VinRx → VinRx) : Hub :=
  let x := f (h.vinRx n)
  ({ h with vin := Tab.set (fun _ => {}) h.vin n x }.wrB (Reg.VN_STAT n) 0 x.isOpen).wrB (Reg.VN_TRIG_CTL n) 3 x.sched.isSome

/-- Drive a trigger ball. -/
def Hub.trigPin (h : Hub) (n : Nat) (v : Bool) : Hub := { h with pins := { h.pins with trig := putAt h.pins.trig n v } }

/-- T_k of a schedule (R331). -/
def TrigSched.time (t : TrigSched) (k : Nat) : Nat := t.start + k * t.period

/-- The schedule has no pulse k. -/
def TrigSched.over (t : TrigSched) : Bool := if t.period = 0 then decide (1 ≤ t.k) else decide (t.count ≠ 0 ∧ t.count ≤ t.k)

/-- The number of pulses of a schedule whose T_k lies before time `x`. -/
def TrigSched.before (t : TrigSched) (x : Nat) : Nat :=
  let n := if x ≤ t.start then 0 else if t.period = 0 then 1 else (x - t.start + t.period - 1) / t.period
  if t.period ≠ 0 ∧ t.count ≠ 0 then min n t.count else n

/-- The schedule goes on with pulse k, or ends with TRIG_END after its last one (R331). -/
def Hub.trigTo (h : Hub) (n : Nat) (t : TrigSched) : Hub :=
  if t.over then (h.updVin n fun x => { x with sched := none }).attn .vin (6 * n + 5)
  else h.updVin n fun x => { x with sched := some t }

/-- VN_TRIG_PERIOD in force (Table 12.5). -/
def Hub.trigPeriod (h : Hub) (n : Nat) : Nat :=
  let p := h.rdF (Reg.VN_TRIG_PERIOD n) 29 0
  if p = 0 then 0 else clampN 1000 1000000000 p

/-- VN_TRIG_WIDTH in force (Table 12.5). -/
def Hub.trigWidth (h : Hub) (n : Nat) : Nat :=
  let p := h.trigPeriod n
  clampN 8 (if p = 0 then 1000000000 else p - 100) (h.rdF (Reg.VN_TRIG_WIDTH n) 29 0)

/-- ARM (R332): the schedule as its registers stand; pulses earlier than 1 µs from now are not made. VN_FS_LAT shows no pulse (R330).
(Log entry 34, DEDUCED.) -/
def Hub.trigArm (h : Hub) (n : Nat) : Hub :=
  let pol := h.rdB (Reg.VN_TRIG_CTL n) 2
  let t : TrigSched := {
    start := join64 (h.rd (Reg.VN_TRIG_START_LO n)) (h.rd (Reg.VN_TRIG_START_HI n))
    period := h.trigPeriod n
    width := h.trigWidth n
    count := (h.rd (Reg.VN_TRIG_COUNT n)).toNat
    k := 0 }
  let late := t.before (h.now + 1000)
  let h := ((h.wr (Reg.VN_TRIG_MADE n) 0).wr (Reg.VN_FS_LAT n) 0x80000000).updVin n fun x => { x with rise := none, pol := pol }
  let h := if (h.vinRx n).active then h else h.trigPin n pol
  let h := if late ≠ 0 then h.attn .vin (6 * n + 4) else h
  h.trigTo n { t with k := late }

/-- STOP (R332): the schedule ends; an active pulse completes. -/
def Hub.trigStop (h : Hub) (n : Nat) : Hub := h.updVin n fun x => { x with sched := none }

/-- TRIGGER_ARM (R332). -/
def execTriggerArm (n : Fin 4) (s : State) : Answer := act s (s.hub.up .vin) fun h => h.trigArm n

/-- TRIGGER_STOP (R332). -/
def execTriggerStop (n : Fin 4) (s : State) : Answer := act s (s.hub.up .vin) fun h => h.trigStop n

/-- TRIG_ARM_MASK (R332, R336): every receiver in the mask is armed in one cycle. -/
def execTrigArmMask (mask : BitVec 4) (s : State) : Answer :=
  act s (s.hub.up .vin) fun h => (onesOf mask.toNat 4).foldl Hub.trigArm h

/-- A schedule's next pulse is due: cell time has reached T_k. -/
def Hub.trigDue (h : Hub) (n : Nat) : Bool := (h.vinRx n).sched.elim false fun t => decide (t.time t.k ≤ h.now)

/-- A pulse of the schedule is made, or skipped where it would start within 100 ns of the last one's end, and the schedule moves on (R332). -/
def Hub.trigPulse (h : Hub) (n : Fin 4) : Hub :=
  match (h.vinRx n).sched with
  | none => h
  | some t =>
    let clash := (h.vinRx n).pulseEnd.elim false fun e => decide (t.time t.k < e + 100)
    let h := if clash then h.inc (Reg.VN_TRIG_SKIP n)
      else
        ((h.inc (Reg.VN_TRIG_MADE n)).updVin n fun x =>
          { x with rise := some h.now, pulseEnd := some (h.now + t.width), active := true }).trigPin n (!(h.vinRx n).pol)
    h.trigTo n { t with k := t.k + 1 }

/-- TRIGGER_PULSE (R331): the pulse starts, or is skipped while the one before is active or has ended less than 100 ns ago. -/
def execTriggerPulse (n : Fin 4) (s : State) : Answer :=
  act s (s.hub.up .vin && s.hub.trigDue n) fun h => h.trigPulse n

/-- A pulse ends: its ball takes its idle level (R332). -/
def Hub.trigEnd (h : Hub) (n : Fin 4) : Hub :=
  (h.updVin n fun x => { x with active := false }).trigPin n (h.vinRx n).pol

/-- TRIGGER_PULSE_END (R331): WIDTH after its start the trigger returns inactive. -/
def execTriggerPulseEnd (n : Fin 4) (s : State) : Answer :=
  act s (s.hub.up .vin && (s.hub.vinRx n).active && (s.hub.vinRx n).pulseEnd.elim false fun e => decide (e ≤ s.hub.now))
    fun h => h.trigEnd n

/-- Cell time steps from `old` by `d` ns (R333): pulses passed over are not made, and an active pulse keeps its length. -/
def Hub.trigStep (h : Hub) (old : Nat) (d : Int) : Hub :=
  (List.range 4).foldl (fun h n =>
    let h := if (h.vinRx n).pulseEnd.isSome then
        h.updVin n fun x => { x with pulseEnd := x.pulseEnd.map fun e => ((e : Int) + d).toNat }
      else h
    match (h.vinRx n).sched with
    | none => h
    | some t =>
      let upto := t.before (((old : Int) + d).toNat)
      if t.k < upto then (h.inc (Reg.VN_TRIG_SKIP n) (upto - t.k)).trigTo n { t with k := upto } else h) h

end Sys2Proof.Machine
end

