-- ==== Sys2Proof/Machine/Time.lean ====
section
/-! DEFINITION. The order log (R284–R287) and the cell-time base (R288–R294, R297). -/

namespace Sys2Proof.Machine

/-! ### The order log -/

/-- STW_OLOG_UNREAD: (last SEQ written − STW_OLOG_ACK) mod 2^32 (R286). -/
def Hub.ologUnread (h : Hub) : Nat := (h.olog.seq - h.rd Reg.STW_OLOG_ACK).toNat

/-- The ring takes no record: STOP_FULL is 1 and UNREAD is 1,024 (R286). -/
def Hub.ologFull (h : Hub) : Bool := h.rdB Reg.STW_OLOG_CFG 1 && decide (h.ologUnread = 1024)

/-- Write one record into the ring with the present cell time and the next SEQ (R284); OLOG_HALF is set when
UNREAD reaches 512 (R286). -/
def Hub.ologPut (h : Hub) (block : Nat) (r : EvRec) : Hub :=
  let seq := incWrap h.olog.seq
  let rec' : LogRec := { stamp := h.now, seq := seq, block := block, kind := r.kind, bit := r.bit, info := r.info }
  let before := h.ologUnread
  let h := { h with olog := { h.olog with
    ring := Tab.set (fun _ => {}) h.olog.ring h.olog.next rec'
    next := (h.olog.next + 1) % 1024
    seq := seq } }
  let h := h.pmcEvent 0x0C 0 0
  if before = 511 then h.attn .stw 4 else h

/-- A record that finds the ring full with STOP_FULL = 1 is counted, not written (R286). -/
def Hub.ologDrop (h : Hub) : Hub :=
  let h := { h with olog := { h.olog with lostRun := holdAt 0xFFFF (h.olog.lostRun + 1) } }
  (h.inc Reg.STW_OLOG_LOST).attn .stw 5

/-- After records were lost to a full ring, a LOST record of STW is the next one written (R286). -/
def Hub.ologLost (h : Hub) : Hub :=
  if h.olog.lostRun = 0 then h
  else ({ h with olog := { h.olog with lostRun := 0 } }).ologPut 0 ⟨6, 0, h.olog.lostRun⟩

/-- Write a record, or count it as lost when the ring is full; a LOST record that is due goes before it. -/
def Hub.ologWrite (h : Hub) (block : Nat) (r : EvRec) : Hub :=
  if h.ologFull then h.ologDrop
  else
    let h := h.ologLost
    if h.ologFull then h.ologDrop else h.ologPut block r

/-- The blocks whose FIFO holds a record, by masthead bit position. -/
def Hub.ologReqs (h : Hub) : List Nat :=
  (Block.all.filter fun b => (h.olog.fifos.get b).recs ≠ []).map Block.idx

/-- Take the oldest record of a block's FIFO. -/
def Hub.ologPop (h : Hub) (b : Block) : Hub :=
  { h with olog := { h.olog with
      fifos := h.olog.fifos.set b { h.olog.fifos.get b with recs := (h.olog.fifos.get b).recs.tail } } }

/-! ### Cell time -/

/-- One steward cycle of cell time: 2 ns × (1 + RATE), with a 32-bit fraction of a nanosecond (R288). -/
def TimeBase.tick (t : TimeBase) : TimeBase :=
  let sum := t.frac + t.cycle
  { t with up := t.up + sum / 2 ^ 32, ns := (t.ns + sum / 2 ^ 32) % 2 ^ 64, frac := sum % 2 ^ 32 }

/-- The timer has counted `kt` edges of the keep clock: it stands at 1 until WAKE_TIMER_EXPIRE, which is the edge that takes it to 0
(R439). (Log entry 47, DESIGN CHOICE.) -/
def Power.count (x : Power) (kt : Nat) : Power := { x with timer := if x.timer = 0 then 0 else max 1 (x.timer - kt) }

/-- A keep-clock period, 30,517.578125 ns (R431), in 1/64 ns. -/
def keepPeriod : Nat := 1953125

/-- One steward cycle of 2 ns goes by on the keep clock; at an edge the wake timer counts (R439). -/
def Power.keepTick (x : Power) : Power :=
  if x.keep + 128 < keepPeriod then { x with keep := x.keep + 128 }
  else { x with keep := x.keep + 128 - keepPeriod }.count 1

/-- One steward cycle: cell time, the keep clock, and what PMC counts of it (R288, R439, R490). -/
def Hub.tick (h : Hub) : Hub := { h with time := h.time.tick, power := h.power.keepTick }.pmcTick

/-- The hub idles for one steward cycle: cell time runs while the main die runs (R288); while it is held or sleeps, the custody die's
intervals and the keep clock go on (R431). (Log entry 1, DESIGN CHOICE.) -/
def Hub.idle (h : Hub) : Hub :=
  if h.mainUp then h.tick
  else if h.custodyUp then { h with time := { h.time with up := h.time.up + 2 }, power := h.power.keepTick }
  else h

/-- STW_TIME_CFG.SRC in force (Table 10.5). -/
def Hub.timeSrc (h : Hub) : Nat := h.rdF Reg.STW_TIME_CFG 1 0

/-- STW_TIME_STAT.VALID. -/
def Hub.timeValid (h : Hub) : Bool := h.rdB Reg.STW_TIME_STAT 0
/-- STW_TIME_STAT.LOCKED. -/
def Hub.timeLocked (h : Hub) : Bool := h.rdB Reg.STW_TIME_STAT 1

/-- Show RATE and SLEWING (Tables 10.6 and 10.7). -/
def Hub.timeShow (h : Hub) : Hub :=
  (h.wr Reg.STW_TIME_RATE (swordHold h.time.rate)).wrB Reg.STW_TIME_STAT 3 (decide (h.time.p ≠ 0))

/-- Set LOCKED (R291): each change sets TIME_LOCK; when LOCKED clears with VALID 1, holdover begins: P is 0 and
F keeps its value. -/
def Hub.setLocked (h : Hub) (v : Bool) : Hub :=
  if h.timeLocked = v then h
  else
    let h := (h.wrB Reg.STW_TIME_STAT 1 v).attn .stw 3
    if v then h.wrB Reg.STW_TIME_STAT 2 false
    else if h.timeValid then
      ({ h with time := { h.time with p := 0, slew := 0 } }.wrB Reg.STW_TIME_STAT 2 true).timeShow
    else h

/-- With SRC FREE, LOCKED reads 1 while VALID (Table 10.5). -/
def Hub.freeLock (h : Hub) : Hub := if h.timeSrc = 0 then h.setLocked h.timeValid else h

/-- Cell time after a step by `d` ns. -/
def stepped (d : Int) (t : Nat) : Nat := (((t : Int) + d) % (2 ^ 64 : Int)).toNat

/-- The end of a gate list that is pending on a port, after a step to `now`: its entry in use ends at the step (R241). -/
def TssPort.gateStep (now : Nat) (p : TssPort) : TssPort :=
  match p.switch with
  | some (.toNone _) => { p with switch := some (.toNone now) }
  | _ => p

/-- What a step of cell time by `d` ns does to the count: P has nothing left to remove. -/
def TimeBase.shift (t : TimeBase) (d : Int) : TimeBase := { t with ns := stepped d t.ns, p := 0, slew := 0 }

/-- A step of cell time by `d` ns (R290): VALID set, STEPS advanced, the amount recorded, a STEP record written
and TIME_STEP set; F is not changed. -/
def Hub.stepTime (h : Hub) (d : Int) : Hub :=
  let h := h.trigStep h.now d
  let h := { h with time := h.time.shift d, tports := h.tports.map fun (e : Nat × TssPort) => (e.1, e.2.gateStep (stepped d h.time.ns)) }
  let h := (h.wrB Reg.STW_TIME_STAT 0 true).incF Reg.STW_TIME_STAT 31 8
  let h := h.wrWide Reg.STW_TIME_STEP_LO ((d % (2 ^ 64 : Int)).toNat)
  let h := if h.rdB Reg.STW_OLOG_CFG 0 then h.ologWrite 0 ⟨5, if d < 0 then 1 else 0, 0⟩ else h
  ((h.attn .stw 2).timeShow).freeLock

/-- A step by −θ, θ in 1/16 ns: the part below a nanosecond goes into the fraction, and the whole nanoseconds, rounded down, are the
step that is recorded (DESIGN CHOICE, log entry 15). -/
def Hub.stepTheta (h : Hub) (th16 : Int) : Hub :=
  let sum := h.time.frac + (-th16 % 16).toNat * 2 ^ 28
  { h with time := { h.time with ns := (h.time.ns + sum / 2 ^ 32) % 2 ^ 64, frac := sum % 2 ^ 32 } }.stepTime (-th16 / 16)

/-- An offset θ (in 1/16 ns) measured over `tint` ns reaches STW (R289–R291): a step while VALID is 0, or when
it is above STEP_THRESH with STEP_EN; else the phase and frequency terms. A new θ ends holdover. -/
def Hub.theta (h : Hub) (th16 : Int) (tint : Nat) : Hub :=
  let h := (h.wr Reg.STW_TIME_OFS (swordHold th16)).wrB Reg.STW_TIME_STAT 2 false
  let cfg := h.rd Reg.STW_TIME_CFG
  let thr : Int := 16 * 1000 * (clampN 1 65535 (fld cfg 31 16) : Nat)
  if !h.timeValid || (bit cfg 2 && decide (thr < th16.natAbs)) then h.stepTheta th16
  else
    let lim : Int := (10000 * clampN 1 50 (fld cfg 15 8) : Nat)
    let p := clampI (-lim) lim (-(th16 * 1000000000 / (16 * tint)))
    let f := clampI (-250000) 250000 (h.time.f - th16 * 1000000000 / (16 * 8 * tint))
    ({ h with time := { h.time with p := p, f := f, slew := -th16, slewFrom := h.mono } }).timeShow

/-- The runs of good and bad offsets of PPS and SOFT (Table 10.5): LOCKED after 4 in a row with |θ| ≤ 20 ns,
cleared after 2 in a row with |θ| > 200 ns. -/
def Hub.lockRuns (h : Hub) (th16 : Int) : Hub :=
  let t := h.time
  let good := if th16.natAbs ≤ 320 then t.good + 1 else 0
  let bad := if th16.natAbs > 3200 then t.bad + 1 else 0
  let h := { h with time := { t with good := good, bad := bad } }
  if good ≥ 4 then h.setLocked true else if bad ≥ 2 then h.setLocked false else h

/-- Whole nanoseconds from the nearest whole second: local time minus that second (Table 10.5, R293). -/
def secOffset (ns : Nat) : Int :=
  let r := ns % 1000000000
  if r < 500000000 then (r : Int) else (r : Int) - 1000000000

/-- The phase term has removed the offset: P in 0.001 ppm over the time since, against 1/16 ns. -/
def TimeBase.slewDone (t : TimeBase) : Bool :=
  decide (t.slew.natAbs * 1000000000 ≤ 16 * (t.p.natAbs * (t.up - t.slewFrom)))

/-- SLEW_END (R289): the accumulated phase correction reaches −θ, and P returns to 0. -/
def execSlewEnd (s : State) : Answer :=
  act s (s.hub.mainUp && decide (s.hub.time.p ≠ 0) && s.hub.time.slewDone) fun h =>
    ({ h with time := { h.time with p := 0, slew := 0 } }).timeShow

/-- SOFT_ADJ_WRITE (R289): a write of STW_SOFT_ADJ; it delivers θ when SRC is SOFT, with Tint the time since
the previous write, at least 1 ms and at most 10 s. The interval of the first write is left open. -/
def Hub.softAdj (h : Hub) (v : Word) : Hub :=
  let last := h.time.lastSoft
  let h := { h with time := { h.time with lastSoft := some h.mono } }
  if h.timeSrc = 3 then
    let (w, h) := match last with
      | some t => (h.mono - t, h)
      | none => let (w, h) := h.draw; (w.toNat, h)
    (h.theta (sword v) (clampN 1000000 10000000000 w)).lockRuns (sword v)
  else h

/-- SOFT_ADJ_WRITE (R289). -/
def execSoftAdjWrite (v : Word) (s : State) : Answer := act s s.hub.mainUp fun h => h.softAdj v

/-- The source in force has been silent for so long that LOCKED clears: PPS 3 s, SOFT 10 s. -/
def Hub.timeSilent (h : Hub) : Bool :=
  (decide (h.timeSrc = 2) && decide (h.time.ppsOkAt.getD 0 + 3000000000 ≤ h.mono))
    || (decide (h.timeSrc = 3) && decide (h.time.lastSoft.getD 0 + 10000000000 ≤ h.mono))

/-- TIME_LOCK_TIMEOUT (R289): 3 s without an accepted PPS edge, or 10 s without a SOFT write, clears LOCKED. -/
def execTimeLockTimeout (s : State) : Answer :=
  act s (s.hub.mainUp && s.hub.timeSilent) fun h =>
    ({ h with time := { h.time with good := 0, bad := 0 } }).setLocked false

/-- PPS_IN_EDGE (R293, R57): with IN_EN 1, an edge at least 1 µs after the previous one is stamped and
counted; it is θ when SRC is PPS. -/
def execPpsInEdge (s : State) : Answer :=
  act s s.hub.mainUp fun h =>
    let fresh := match h.time.lastPpsIn with
      | some t => decide (1000 ≤ h.mono - t)
      | none => true
    let h := { h with time := { h.time with lastPpsIn := some h.mono } }
    if h.rdB Reg.STW_PPS_CFG 2 && fresh then
      let e := secOffset h.now
      let h := { h with time := { h.time with ppsOkAt := some h.mono } }
      let h := ((h.wrWide Reg.STW_PPS_IN_LO h.now).incW Reg.STW_PPS_IN_CNT).wr Reg.STW_PPS_IN_ERR (swordHold e)
      let h := h.attn .stw 6
      if h.timeSrc = 2 then (h.theta (16 * e) 1000000000).lockRuns (16 * e) else h
    else h

/-- WIDTH of a PPS_OUT pulse in ns. -/
def Hub.ppsWidth (h : Hub) : Nat := 1000 * clampN 1 500000 (h.rdF Reg.STW_PPS_CFG 26 8)

/-- PPS_OUT_RISE (R294): cell time reaches a whole second, in this steward cycle; PPS_OUT rises if OUT_EN, if locked where
OUT_LOCKED_ONLY asks it, and not less than WIDTH + 1 µs after the previous rise. -/
def execPpsOutRise (s : State) : Answer :=
  act s (s.hub.mainUp && s.hub.time.reached 1000000000) fun h =>
    let cfg := h.rd Reg.STW_PPS_CFG
    let spaced := match h.time.lastPpsRise with
      | some t => decide (h.ppsWidth + 1000 ≤ h.mono - t)
      | none => true
    if bit cfg 0 && (!bit cfg 1 || (h.timeValid && h.timeLocked)) && spaced then
      { h with pins := { h.pins with ppsOut := true }, time := { h.time with lastPpsRise := some h.mono } }
    else h

/-- PPS_OUT_FALL (R294): WIDTH µs after its rise, PPS_OUT falls. -/
def execPpsOutFall (s : State) : Answer :=
  act s (s.hub.mainUp && s.hub.pins.ppsOut && s.hub.time.lastPpsRise.all fun t => t + s.hub.ppsWidth ≤ s.hub.mono) fun h => { h with pins := { h.pins with ppsOut := false } }

/-- The time operations are refused while SRC is LINK and LOCKED is 1 (Table 10.9, 0x80). -/
def Hub.timeOwned (h : Hub) : Bool := decide (h.timeSrc = 1) && h.timeLocked

/-- A step that no θ asks for (R290, R291): a hub whose time becomes VALID by it, not LOCKED, is in holdover. -/
def Hub.setTime (h : Hub) (d : Int) : Hub :=
  let n := h.stepTime d
  if h.timeValid || n.timeLocked then n else n.wrB Reg.STW_TIME_STAT 2 true

/-- TIME_SET (R297): at the next 1 µs boundary cell time becomes the written value plus the time elapsed since
the REQ write; DATA0 and DATA1 give the cell time replaced. The command runs until that boundary. -/
def execTimeSet (s : State) : Answer :=
  mbxAct s .stw 0x12 fun h =>
    if h.timeOwned then done h (mbxErr 0x80)
    else
      let t0 := h.now
      let tb := (t0 / 1000 + 1) * 1000
      let new := join64 (h.arg .stw 0) (h.arg .stw 1) + (tb - t0)
      let h := { h with time := { h.time with up := h.time.up + (tb - t0), ns := tb % 2 ^ 64, frac := 0 } }
      done (h.setTime ((new : Int) - tb)) (mbxOk [lo32 tb, hi32 tb])

/-- TIME_STEP (R297): adds a signed step to cell time; DATA0 and DATA1 give the cell time before it. -/
def execTimeStep (s : State) : Answer :=
  mbxAct s .stw 0x13 fun h =>
    if h.timeOwned then done h (mbxErr 0x80)
    else
      let t0 := h.now
      let d := (BitVec.ofNat 64 (join64 (h.arg .stw 0) (h.arg .stw 1))).toInt
      done (h.setTime d) (mbxOk [lo32 t0, hi32 t0])

/-- ORDER_LOG_GRANT (R284): the event-order arbiter's steward cycle. After records were lost to a full ring, a
LOST record of STW is the next one written (R286); else one block is granted and its oldest record written,
or counted as lost; with no record left the grant parks on its owner (R276). The cycle ends: cell time advances by one steward
cycle. -/
def execOrderLogGrant (s : State) : Answer :=
  act s (s.hub.mainUp && s.hub.rdB Reg.STW_OLOG_CFG 0 && decide (s.hub.ologReqs ≠ [])) fun h =>
    if h.olog.lostRun ≠ 0 && !h.ologFull then h.ologLost.tick
    else
      let h := h.arbCycle .stw 1 h.ologReqs none
      match Block.all[(h.arb .stw 1).owner]? with
      | none => h.tick
      | some b =>
        match (h.olog.fifos.get b).recs with
        | [] => h.tick
        | r :: _ =>
          let h := (h.ologPop b).ologWrite b.idx r
          (if h.ologReqs = [] then h.arbCycle .stw 1 [] none else h).tick

/-- Hand STW a MARK record from a path (R287); nothing while recording is off. -/
def Hub.ologMark (h : Hub) (p : Path) (v : Nat) : Hub :=
  if h.rdB Reg.STW_OLOG_CFG 0 then
    { h with olog := { h.olog with
        fifos := h.olog.fifos.set .stw ((h.olog.fifos.get .stw).enter [⟨4, p.code, v % 0x10000⟩]) } }
  else h

/-- OLOG_MARK (R287). -/
def execOlogMark (p : Path) (v : BitVec 16) (s : State) : Answer :=
  act s s.hub.mainUp fun h => h.ologMark p v.toNat

/-- OLOG_CFG_WRITE (R296): EN 0 stops all recording and empties the block FIFOs without counting. -/
def execOlogCfgWrite (v : Word) (s : State) : Answer :=
  act s s.hub.mainUp fun h => h.wr Reg.STW_OLOG_CFG (v &&& 3)

/-- STW_TIME_LO_READ (R296): a read of STW_TIME_LO latches STW_TIME_HI. -/
def execStwTimeLoRead (s : State) : Answer :=
  act s s.hub.mainUp fun h => h.wr Reg.STW_TIME_HI (hi32 h.now)

/-- A read of the LO word of a live 64-bit value latches its HI word. -/
def Hub.latchHi (h : Hub) (lo hi : Nat) : Hub := h.wr hi (hi32 (h.rdWide lo))

/-- STW_TIME_STEP_LO_READ (R296). -/
def execStwTimeStepLoRead (s : State) : Answer :=
  act s s.hub.mainUp fun h => h.latchHi Reg.STW_TIME_STEP_LO Reg.STW_TIME_STEP_HI

/-- STW_PPS_IN_LO_READ (R296). -/
def execStwPpsInLoRead (s : State) : Answer :=
  act s s.hub.mainUp fun h => h.latchHi Reg.STW_PPS_IN_LO Reg.STW_PPS_IN_HI

/-- MH_TIME_LO_READ (R83): a read of MH_TIME_LO latches MH_TIME_HI. -/
def execMhTimeLoRead (s : State) : Answer :=
  act s s.hub.mainUp fun h => h.wr Reg.MH_TIME_HI (hi32 h.mh.time)

end Sys2Proof.Machine
end

