-- ==== Sys2Proof/Machine/Link.lean ====
section
/-! DEFINITION. The states of a link port (R135, Tables 5.5 and 5.5a): what entering and leaving one brings about, the
PORT reset of a link port (R91, R186), depth (R138), HELLO (R136), authentication (R137), and the giving of a port
group when a hoist's port leaves UP (R267). -/

namespace Sys2Proof.Machine

/-! ### Lanes of a port -/

/-- RATE of a port in force (Table 5.12). -/
def Hub.klRate (h : Hub) (p : Nat) : Nat := h.rdF (Reg.KL_CFG p) 3 0

/-- The rate in Mb/s per lane of a rate code of Table 5.12; 0 for any other code. -/
def rateMbps (r : Nat) : Nat :=
  if r = 0x6 then 4000 else if r = 0x9 then 8000 else if r = 0xC then 16000 else if r = 0xE then 32000 else 0

/-- Change LN_STAT of every lane of a port. -/
def Hub.updLanes (h : Hub) (p : Nat) (f : Word → Word) : Hub :=
  (h.portLanes p).foldl (fun h l => h.wr (Reg.LN_STAT l) (f (h.rd (Reg.LN_STAT l)))) h

/-- Every lane of a port has a bit of LN_STAT, and there is one. -/
def Hub.allLanes (h : Hub) (p i : Nat) : Bool :=
  !(h.portLanes p).isEmpty && (h.portLanes p).all fun l => h.rdB (Reg.LN_STAT l) i

/-- KLL orders the lanes of a port to RATE; a lane whose rate changes has to relock (R92, R93). -/
def Hub.orderRates (h : Hub) (p : Nat) : Hub :=
  if rateMbps (h.klRate p) = 0 then h
  else h.updLanes p fun w =>
    if fld w 11 8 = h.klRate p then w
    else setBit (setBit (setBit (setFld w 11 8 (h.klRate p)) 12 false) 13 false) 16 false

/-- TS_BYTE_TIME and TS_CAP of a link port (R227, R249): 8.125 line bits for each charged byte at the rate its lanes are ordered to; 0
for a port that is DOWN or has no rate. -/
def Hub.showLinkRate (h : Hub) (p : Nat) : Hub :=
  let m := rateMbps (h.klRate p) * (h.portLanes p).length
  if m = 0 ∨ h.klState p = 0 then (h.wrF (Reg.TS_BYTE_TIME p) 15 0 0).wrF (Reg.TS_CAP p) 20 0 0
  else (h.wrF (Reg.TS_BYTE_TIME p) 15 0 ((8320000 + m - 1) / m)).wrF (Reg.TS_CAP p) 20 0 (m * 64 / 65)

/-! ### Depth and HELLO -/

/-- The depth of the hub (R138): 0x3F when unknown, or when it would pass 32. -/
def Hub.depthNow (h : Hub) : Nat :=
  if h.role = .root then 0
  else if (h.klState 0 = 5 ∨ h.klState 0 = 8) ∧ (h.link 0).peerDepth ≤ 31 then (h.link 0).peerDepth + 1
  else 0x3F

/-- The HELLO of a port (Table 5.6). -/
def Hub.helloBody (h : Hub) (p : Nat) : List Byte :=
  let b1 := h.role.code + 4 * b2n (h.straps.side && !decide (h.role = .leaf)) + 8 * b2n h.profile
    + 16 * facing h.role p
  [1#8, BitVec.ofNat 8 b1] ++ beBytes 2 h.hubId
    ++ [BitVec.ofNat 8 (h.rdF Reg.KLL_DEPTH 5 0), BitVec.ofNat 8 p, BitVec.ofNat 8 (h.portLanes p).length,
      BitVec.ofNat 8 (h.klRate p)]

/-- Send HELLO on a port. -/
def Hub.sendHello (h : Hub) (p : Nat) : Hub :=
  (h.updLink p fun l => { l with helloTx := true, helloAt := h.mono }).postNear p 0x0001 (h.helloBody p)

/-- HELLO again on every down-facing and partner-facing port in UP or HOLD (R136). -/
def Hub.helloAgain (h : Hub) : Hub :=
  (List.range 9).foldl (fun h p =>
    if portPresent h.straps p ∧ facesUp h.role p = false ∧ (h.klState p = 5 ∨ h.klState p = 8) then h.sendHello p
    else h) h

/-- KLL_DEPTH follows: a change of DEPTH sends HELLO again (R136, R138); EXCESS is a port in HOLD with LAST_FAIL 0xA. -/
def Hub.showDepth (h : Hub) : Hub :=
  let old := h.rdF Reg.KLL_DEPTH 5 0
  let ex := (List.range 9).any fun p => h.klState p = 8 ∧ h.rdF (Reg.KL_STATE p) 7 4 = 0xA
  let h := h.wr Reg.KLL_DEPTH (w32 (h.depthNow + 64 * b2n ex))
  if h.depthNow = old then h else h.helloAgain

/-! ### Giving a group (R267) -/

/-- The hoist gives a group to its partner: a HANDOVER of kind GIVE; it is fly from its next admission. -/
def Hub.giveGroup (h : Hub) (g : Nat) (viaOp : Bool) : Hub :=
  let h := h.wrB Reg.MIR_ROLE g false
  let h := { h with mir := { h.mir with giving := h.mir.giving ++ [(⟨g, h.mono, viaOp⟩ : Giving)] } }
  h.postNear 8 0x0403 [0#8, BitVec.ofNat 8 (2 ^ g)]

/-- A port of a group leaves UP at the hoist while the partner's is UP: the group is handed over. -/
def Hub.autoHandover (h : Hub) (p : Nat) : Hub :=
  match h.groupOf p with
  | some g => if h.paired ∧ h.hoistOf g ∧ h.mir.partnerUp.testBit p then h.giveGroup g false else h
  | none => h

/-- PAIR_SYNC (R255): the eight MIR_GROUP words in force, AUTO_TAKE, the hub ID. -/
def Hub.sendPairSync (h : Hub) : Hub :=
  let ws := (List.range 8).flatMap fun g => beBytes 4 (h.rd (Reg.MIR_GROUP g)).toNat
  ({ h with mir := { h.mir with syncTx := true } }).postNear 8 0x0400
    (ws ++ beBytes 1 (b2n (h.rdB Reg.MIR_CFG 1)) ++ beBytes 2 h.hubId)

/-- Outside PAIRED the member is hoist of every group: nothing is held, and no handover is pending (Tables 9.1 and 9.6); a running
HANDOVER operation ends. -/
def Hub.pairAlone (h : Hub) : Hub :=
  let h := (h.wrF Reg.MIR_ROLE 7 0 0xFF).wrF Reg.MIR_ROLE 23 16 0
  ({ h with mir := { h.mir with giving := [], taking := [], opGroups := 0 } }).opResult .mir 0x12 (mbxErr 0x81)

/-- MIR_STAT.STATE changes; MISMATCH is live while it lasts, PARTNER_LOST while the member is ALONE. -/
def Hub.setPair (h : Hub) (st why : Nat) : Hub :=
  let old := h.pairState
  let h := (h.wrF Reg.MIR_STAT 2 0 st).wrF Reg.MIR_STAT 11 8 why
  let h := if st = 2 then h else h.pairAlone
  let h := if st = 4 ∧ old ≠ 4 then ((h.fault .mir 1).setLive .mir 1 true).attn .mir 4
    else if old = 4 ∧ st ≠ 4 then h.setLive .mir 1 false else h
  if old = 3 ∧ st ≠ 3 then h.setLive .mir 0 false else h

/-- The pair does not match (R254, R255). -/
def Hub.pairMismatch (h : Hub) (why : Nat) : Hub := h.setPair 4 why

/-- A HELLO over M that matches ends a mismatch that an earlier HELLO found (R254). -/
def Hub.pairCleared (h : Hub) (p : Nat) : Hub :=
  if p = 8 ∧ h.pairState = 4 ∧ h.rdF Reg.MIR_STAT 11 8 ≤ 3 then h.setPair (b2n h.mirEn) 0 else h

/-- Change what MIR holds. -/
def Hub.updMir (h : Hub) (f : Mir → Mir) : Hub := { h with mir := f h.mir }

/-- M is UP. -/
def Hub.mUp (h : Hub) : Bool := decide (h.klState 8 = 5)

/-- MIR_ROLE.ACTIVE of a group. -/
def Hub.groupActive (h : Hub) (g : Nat) : Bool := decide (h.groupPorts g ≠ 0)

/-- HOIST_SIDE names this member for a group (R256). -/
def Hub.sideOwn (h : Hub) (g : Nat) : Bool := h.rdB (Reg.MIR_GROUP g) 8 == h.straps.side

/-- The active groups that satisfy a condition. -/
def Hub.activeGroups (h : Hub) (f : Nat → Bool) : List Nat := (List.range 8).filter fun g => h.groupActive g && f g

/-- A mask over groups or ports. -/
def maskOf (l : List Nat) : Nat := l.foldl (fun m g => m ||| 2 ^ g) 0

/-- The pair enters PAIRED. After FORMING or MISMATCH the roles are those of HOIST_SIDE; a member that was ALONE is hoist of every
group still, and gives back those that HOIST_SIDE does not name it for. -/
def Hub.pairUp (h : Hub) : Hub :=
  let roles := if h.pairState = 3 then 0xFF else maskOf ((List.range 8).filter h.sideOwn)
  let h := ((h.setPair 2 0).wrF Reg.MIR_ROLE 7 0 roles).attn .mir 0
  let h := h.updMir fun m => { m with
    hbLast := h.mono
    hbSeen := false
    sent := []
    queue := []
    running := false
    counting := false
    toTake := 0 }
  (h.activeGroups fun g => h.hoistOf g && !h.sideOwn g).foldl (fun h g => h.giveGroup g false) h

/-- Both PAIR_SYNC bodies are there: the pair is PAIRED when they agree on every MIR_GROUP word, else mismatched (R255). -/
def Hub.syncJudge (h : Hub) : Hub :=
  match h.mir.partner with
  | some ws =>
    if !h.mirEn || !h.mir.syncTx || !h.mUp then h
    else if (List.range 8).all fun g => ws.getD g 0 = h.rd (Reg.MIR_GROUP g) then
      if h.pairState = 2 then h else h.pairUp
    else h.setPair 4 4
  | none => h

/-- M enters UP: PAIR_SYNC goes out (R255, R268), and the heartbeats of the session are numbered anew. (Log entry 30, DEDUCED.) -/
def Hub.mirrorUp (h : Hub) : Hub := if h.mirEn then ((h.wr Reg.MIR_HB_SEQ_RX 0).sendPairSync).syncJudge else h

/-- M leaves UP: a mismatched pair is FORMING again; what was exchanged over M is to be exchanged again. -/
def Hub.mirrorDown (h : Hub) : Hub :=
  let h := { h with mir := { h.mir with syncTx := false, partner := none } }
  if h.mirEn ∧ h.pairState = 4 then h.setPair 1 0 else h

/-- The next mirrored operation goes to FCM's mailbox, once that is free, as a request with SRC 4: 0 create, 1 policy, 2 pin, 3 unpin,
4 delete (Table 9.4). -/
def Hub.mirStart (h : Hub) : Hub :=
  if (h.mbx .fcm).busy then h
  else
    match h.mir.ops with
    | [] => h
    | (op, flow, ws) :: rest =>
      (h.updMir fun m => { m with ops := rest, tmpl := ws }).updMbx .fcm fun m =>
        let n := m.request .steward (0x10 + op) h.mono
        { n with latched := [w32 flow, 0, 0, 0, 0, 0] }

/-- The fly performs a mirrored operation with SRC 4 (Table 9.4), after those before it. -/
def Hub.mirOp (h : Hub) (op flow : Nat) (ws : List Word) : Hub :=
  if 4 < op then h.msgBad else (h.updMir fun m => { m with ops := m.ops ++ [(op, flow, ws)] }).mirStart

/-! ### Time source (R151) -/

/-- The port of the time source, if one is named (Table 5.10). -/
def Hub.ttSource (h : Hub) : Option Nat :=
  let c := h.rdF Reg.KLL_TT_CFG 4 0
  if c ≤ 8 then some c else none

/-- KL_STATE.TT_SRC of every port: the time source, while LOCKED is 1. -/
def Hub.showTtSrc (h : Hub) : Hub :=
  (List.range 9).foldl (fun h p =>
    h.wrB (Reg.KL_STATE p) 9 (decide (h.ttSource = some p) && h.rdB Reg.KLL_TT_STAT 0)) h

/-- KLL_TT_STAT.LOCKED takes a value; each change sets TT_LOCK, and STW's LOCKED follows it when its source is LINK. -/
def Hub.setTtLocked (h : Hub) (v : Bool) : Hub :=
  if h.rdB Reg.KLL_TT_STAT 0 = v then h
  else
    let h := ((h.wrB Reg.KLL_TT_STAT 0 v).attn .kll 5).showTtSrc
    if h.timeSrc = 1 then h.setLocked v else h

/-! ### PORT reset -/

/-- A lane repair of a port ends without a move: its request, or the joined one, completes with an error
(R112, R115); the spare returns to SIT. -/
def Hub.repairAbort (h : Hub) (p err : Nat) : Hub :=
  match h.repair with
  | some r =>
    if r.port = p then (({ h with repair := none }).parkLane r.spare).showSpares.opResult .lnx 0x12 (mbxErr err) else h
  | none => h

/-- A cell awaits its read by a target or, if replay references count, holds one for it. -/
def CellSt.at (c : CellSt) (t : Nat) (repl : Bool) : Bool := c.pend.testBit t || (repl && c.repl.testBit t)

/-- A target's references are released, with the replay references if `repl`; its frames (slot and FSEQ, each once) are
counted per flow and at the port as dropped by block reset (R186). -/
def Hub.dropTarget (h : Hub) (t : Nat) (repl : Bool) : Hub :=
  let hit := h.cells.filter fun e => e.2.at t repl
  let fs := (hit.map fun e => (e.2.slot, e.2.fseq)).dedup
  let h := fs.foldl (fun h f => h.countReset f.1 1) (h.inc (Reg.TP_DROP_RESET t) fs.length)
  let h := fs.foldl (fun h f =>
    match hit.find? fun e => e.2.slot = f.1 ∧ e.2.fseq = f.2 with
    | some e => h.dropEvent e.2.inp e.2.tc
    | none => h) h
  let ix := hit.map (·.1)
  let slots := (hit.map fun e => e.2.slot).dedup
  let h := if repl then
      ix.foldl (fun h i => h.updCell i fun c => { c with repl := c.repl - (c.repl &&& 2 ^ t) }) h
    else h
  let h := slots.foldl (fun h s =>
    h.dropRefs s (ix.filter fun i => (h.cell i).elim false fun c => decide (c.slot = s)) (2 ^ t)) h
  h.updTport t fun p => { p with failed := [] }

/-- The frames open from a port are released (R186), counted as dropped by block reset unless the survivor of a pair
counts them (R265). -/
def Hub.dropOpen (h : Hub) (p : Nat) (count : Bool) : Hub :=
  (h.opens.filter fun o => o.port = p).foldl (fun h o =>
    let ix := o.cells.filter (h.ofFrame o)
    let h := { h with opens := h.opens.filter fun x => ¬ (x.port = o.port ∧ x.flow = o.flow) }
    let h := if count then (h.inc (Reg.TP_DROP_RESET p)).dropEvent p o.tc else h
    match o.fate with
    | .admitted s m =>
      let h := h.dropUnread s ix m
      if count then h.countReset s 1 else h
    | .reseq s _ =>
      let h := h.freeCells ix
      if count then h.countReset s 1 else h
    | .foyer =>
      let h := (h.foyRemove o.port o.flow o.fseq).freeCells ix
      if count then h.countFlow p o.flow .reset else h
    | .steward =>
      let h := h.freeCells ix
      if count then h.countFlow p o.flow .reset else h) h

/-- Frames that wait at a holding ingress are given up, each counted as dropped by block reset (R35, R186). -/
def Hub.dropWaits (h : Hub) (sel : WaitFrame → Bool) : Hub :=
  (h.waits.filter sel).foldl (fun h w =>
    let h := (h.inc (Reg.TP_DROP_RESET w.port)).dropEvent w.port (if w.slot.isSome then 6 else 0)
    match w.slot with
    | some s => h.countReset s 1
    | none => h.countFlow w.port w.flow .reset) { h with waits := h.waits.filter fun w => !sel w }

/-- Every frame of a foyer is returned, counted per flow as dropped by block reset. -/
def Hub.foyerReset (h : Hub) (p : Nat) : Hub :=
  let h := (h.foyer p).foldl (fun h f =>
    let tc := (f.cells.head?.bind h.cell).elim 0 fun (c : CellSt) => c.tc
    (((h.inc (Reg.TP_DROP_RESET p)).dropEvent p tc).freeCells f.cells).countFlow p f.flow .reset) h
  h.setFoyer p []

/-- What an edge port's block holds of the buffer goes back (R27): its output queue, its open frames, its foyer and its waiting
frames. -/
def Hub.edgeReturn (h : Hub) (p : Nat) : Hub :=
  let h := if p < 18 then h.dropTarget p false else h
  ((h.dropOpen p true).foyerReset p).dropWaits fun w => decide (w.port = p)

/-- A single-cell TC6 frame that is held for its MAC check is released, counted as dropped by block reset (R153, R186). -/
def Hub.dropHeldTc6 (h : Hub) (p : Nat) : Hub :=
  match (h.link p).macCell with
  | some c => if c.first then ((h.inc (Reg.TP_DROP_RESET p)).dropEvent p 6).countFlow p c.flow .reset else h
  | none => h

/-- The PORT reset of a link port (R91, R135, R186). Cells received before it stay on their way, without the link
credit of the session that ends. What belongs to the peer's last certificates stays until ALIGN. -/
def Hub.portReset (h : Hub) (p : Nat) (count : Bool := true) : Hub :=
  let h := ((h.repairAbort p 0x81).dropHeldTc6 p).dropWaits fun w => decide (w.slot = some p)
  let n := (h.cells.filter fun e => e.2.at p true).length
  let h := (h.dropTarget p true).dropOpen p count
  let h := (h.cells.filter fun e => e.2.inp = p ∧ e.2.credit).foldl (fun h e =>
    h.updCell e.1 fun c => { c with credit := false }) h
  let h := h.updLink p fun l => { chain := l.chain, gotChain := l.gotChain, napHeld := l.napHeld, returned := n }
  h.wr (Reg.KL_REPLAY_STAT p) 0x00FFF000

/-! ### Entering a state -/

/-- LAST_FAIL of a port. -/
def Hub.lastFail (h : Hub) (p k : Nat) : Hub := h.wrF (Reg.KL_STATE p) 7 4 k

/-- The session keys are discarded (R135). -/
def Hub.dropKeys (h : Hub) (p : Nat) : Hub :=
  (h.updLink p fun l => { l with keyTx := [], keyRx := [], finTx := false, finRx := false }).wrB (Reg.KL_STATE p) 8 false

/-- The attention bits of Table 5.14 for a change of state. -/
def Hub.klAttn (h : Hub) (old new : Nat) : Hub :=
  let h := if new = 5 ∧ (old = 4 ∨ old = 8 ∨ old = 7) then h.attn .kll 0 else h
  let h := if new = 5 ∧ old = 7 then h.attn .kll 4 else h
  if new = 0 then h.attn .kll 1
  else if new = 9 then h.attn .kll 2
  else if new = 8 then h.attn .kll 3
  else h

/-- A port changes its state (R135), with all that follows from the change: attention, KLL_PORT_UP, the time lock
(R151), a handover (R267), MIR (R255), depth (R138) and the paging path (R218). -/
def Hub.setKl (h : Hub) (p new : Nat) : Hub :=
  let old := h.klState p
  if old = new then h
  else
    let h := (h.wrF (Reg.KL_STATE p) 3 0 new).updLink p fun l => { l with since := h.mono, creditRx := false }
    let h := if new = 0 ∨ new = 1 ∨ new = 9 then h.dropKeys p else h
    let h := (h.klAttn old new).wrB Reg.KLL_PORT_UP p (decide (new = 5 ∨ new = 6))
    let h := if old = 5 ∧ h.ttSource = some p then h.setTtLocked false else h
    let h := if old = 5 ∧ (new = 7 ∨ new = 0) then h.autoHandover p else h
    let h := if p = 8 ∧ new = 5 ∧ old ≠ 6 ∧ old ≠ 7 then h.mirrorUp
      else if p = 8 ∧ old = 5 ∧ new ≠ 6 ∧ new ≠ 7 then h.mirrorDown else h
    let h := h.showDepth
    if p = 0 then h.pathCheck else h

/-- A port goes to DOWN, through a PORT reset; `fail` is the LAST_FAIL it leaves. -/
def Hub.klDown (h : Hub) (p : Nat) (fail : Option Nat) (count : Bool := true) : Hub :=
  if h.klState p = 0 then h
  else
    let h := match fail with
      | some k => h.lastFail p k
      | none => h
    (((h.portReset p count).setKl p 0).showLinkRate p)

/-- A port fails (Table 5.5a); AUTH_FAIL for 0x3 to 0x6 (Table 19.4). It is down then, which ends a repair of its lanes (R115). -/
def Hub.klFail (h : Hub) (p k : Nat) : Hub :=
  let h := ((h.repairAbort p 0x81).lastFail p k).setKl p 9
  if 3 ≤ k ∧ k ≤ 6 then h.fault .kll 5 else h

/-- A port enters ALIGN: the peer's chain is forgotten (Table 5.13); with no lane mapped to it, or to one of its logical lanes, it fails at
once. -/
def Hub.enterAlign (h : Hub) (p : Nat) : Hub :=
  let h := h.updLink p fun l => { l with chain := [], gotChain := false, deskewed := false, napHeld := false }
  let h := (h.setKl p 1).showLinkRate p
  if (h.portLanes p).isEmpty || (h.portMap p).any (fun l => 40 ≤ l) then h.klFail p 1 else h

/-- A port enters HELLO: 16 TC6 cells each way until CREDIT (R139), and HELLO is sent (R135). -/
def Hub.enterHello (h : Hub) (p : Nat) : Hub :=
  let h := h.updLink p fun l => { l with adv := [0, 0, 0, 0, 0, 0, 16, 0], hand := [0, 0, 0, 0, 0, 0, 16, 0] }
  (((h.portLanes p).foldl Hub.sitReleaseLane h).setKl p 2).sendHello p

/-! ### Authentication (R137) -/

/-- n bytes that the spec leaves open, from the free values. -/
def Hub.drawBytes (h : Hub) : Nat → Hub × List Byte
  | 0 => (h, [])
  | n + 1 =>
    let (w, h) := h.draw
    let (h, l) := Hub.drawBytes h n
    (h, leBytes 4 w.toNat ++ l)

/-- A certificate with its length in two bytes before it. -/
def certField (c : List Byte) : List Byte := beBytes 2 c.length ++ c

/-- AUTH_CERT is sent: a fresh nonce and the hub's own chain. While a known-answer test fails, nothing is answered
(R459). -/
def Hub.sendCert (h : Hub) (p : Nat) : Hub :=
  if h.ksi.kat ≠ 0 then h
  else
    let (h, n) := h.drawBytes 8
    let body := n ++ certField h.ksi.devCert ++ certField h.ksi.caCert
    (h.updLink p fun l => { l with nOwn := n, certOwn := body }).postNear p 0x0002 body

/-- The two certificates of an AUTH_CERT body, device first, after its 32-byte nonce. -/
def chainOf (body : List Byte) : List Byte × List Byte :=
  let b := body.drop 32
  let n := beVal (b.take 2)
  let c := (b.drop 2).drop n
  ((b.drop 2).take n, (c.drop 2).take (beVal (c.take 2)))

/-- What AUTH_KEX is signed over (R137 step 3). -/
def kexDigest (nOwn nPeer e : List Byte) (port hub : Nat) : List Byte :=
  Config.sha384 ([0x4B#8, 0x4C#8, 0x31#8] ++ nOwn ++ nPeer ++ e ++ beBytes 1 port ++ beBytes 2 hub)

/-- The end whose nonce is the smaller is lo. -/
def isLo (own peer : List Byte) : Bool := decide (beVal own < beVal peer)

/-- "KL1 lo-hi" and "KL1 hi-lo". -/
def keyLabel (loHi : Bool) : List Byte :=
  if loHi then [0x4B#8, 0x4C#8, 0x31#8, 0x20#8, 0x6C#8, 0x6F#8, 0x2D#8, 0x68#8, 0x69#8]
  else [0x4B#8, 0x4C#8, 0x31#8, 0x20#8, 0x68#8, 0x69#8, 0x2D#8, 0x6C#8, 0x6F#8]

/-- The key for one direction (R137 step 4). -/
def linkKey (z own peer : List Byte) (fromOwn : Bool) : List Byte :=
  let lo := isLo own peer
  let (nLo, nHi) := if lo then (own, peer) else (peer, own)
  Config.hmac256 z (keyLabel (lo == fromOwn) ++ nLo ++ nHi)

/-- The digest that AUTH_FIN carries (R137 step 5): lo AUTH_CERT, hi AUTH_CERT, lo AUTH_KEX, hi AUTH_KEX. -/
def finDigest (l : LinkSt) : List Byte :=
  if isLo l.nOwn l.nPeer then Config.sha384 (l.certOwn ++ l.certPeer ++ l.kexOwn ++ l.kexPeer)
  else Config.sha384 (l.certPeer ++ l.certOwn ++ l.kexPeer ++ l.kexOwn)

/-- The peer's AUTH_CERT is in: its chain is checked, and AUTH_KEX is sent (R137 steps 2 and 3). Equal nonces start AUTH
again. -/
def Hub.gotCert (h : Hub) (p : Nat) (body : List Byte) : Hub :=
  let (dev, ca) := chainOf body
  let nPeer := body.take 32
  let h := h.updLink p fun l => { l with
    nPeer := nPeer
    certPeer := body
    chain := body.drop 32
    gotChain := true }
  if !Config.chainGood dev ca then h.klFail p 3
  else if nPeer = (h.link p).nOwn then
    (h.updLink p fun l => { l with certPeer := [], kexOwn := [], kexPeer := [] }).sendCert p
  else
    let dig := Config.sha384 (Config.certPub dev)
    let h := (List.range 12).foldl (fun h i => h.wr (Reg.KL_PEER_DIGEST p i) (w32 (leVal ((dig.drop (4 * i)).take 4)))) h
    let (h, eph) := h.drawBytes 12
    let e := Config.p384Pub eph
    let sig := Config.sign h.ksi.root (kexDigest (h.link p).nOwn nPeer e p h.hubId)
    (h.updLink p fun l => { l with eph := eph, kexOwn := e ++ sig }).postNear p 0x0003 (e ++ sig)

/-- A port enters AUTH: it fails with 0x6 under IDENTITY_LOST, else AUTH_CERT is sent, and one that has come in HELLO is acted on
(R137). -/
def Hub.enterAuth (h : Hub) (p : Nat) : Hub :=
  let h := (h.updLink p fun l => { l with authFrom := h.mono }).setKl p 3
  if h.ksi.lost then h.klFail p 6
  else
    let h := h.sendCert p
    let b := (h.link p).earlyCert
    if b.isEmpty || decide (h.ksi.kat ≠ 0) then h else (h.updLink p fun l => { l with earlyCert := [] }).gotCert p b

/-- The peer's AUTH_KEX is in: its signature is verified, the session keys are derived and AUTH_FIN is sent under them
(R137 steps 3 to 5). HUB and PORT are those of the peer's HELLO. -/
def Hub.gotKex (h : Hub) (p : Nat) (body : List Byte) : Hub :=
  let l := h.link p
  let e := body.take 97
  let pub := Config.certPub (chainOf l.certPeer).1
  let peer := h.rd (Reg.KL_PEER p)
  if !Config.verify pub (kexDigest l.nPeer l.nOwn e (fld peer 28 24) (fld peer 13 0)) (body.drop 97) then h.klFail p 4
  else
    let z := Config.ecdh l.eph e
    let h := h.updLink p fun l => { l with
      kexPeer := body
      keyTx := linkKey z l.nOwn l.nPeer true
      keyRx := linkKey z l.nOwn l.nPeer false
      ctrTx := 0
      ctrRx := 0
      finTx := true }
    (h.wrB (Reg.KL_STATE p) 8 true).postNear p 0x0004 (finDigest (h.link p))

/-! ### CREDIT and UP -/

/-- CREDIT_ADV: the receive limits that TSC holds for the port (R139). -/
def Hub.sendAdv (h : Hub) (p : Nat) : Hub :=
  (h.updLink p fun l => { l with advTx := true }).postNear p 0x0010
    ((List.range 8).flatMap fun c => beBytes 2 (h.rxLimit p c))

/-- R138 admits T0 of a non-ROOT hub to UP with a peer DEPTH of 0 to 31; the LAST_FAIL otherwise. -/
def Hub.holdCause (h : Hub) (p : Nat) : Option Nat :=
  if facesUp h.role p then
    if (h.link p).peerDepth ≤ 31 then none else if (h.link p).peerDepth = 32 then some 0xA else some 0xB
  else none

/-- CREDIT_ADV has been sent and received: UP, or HOLD (Table 5.5). -/
def Hub.creditDone (h : Hub) (p : Nat) : Hub :=
  if h.klState p = 4 ∧ (h.link p).advTx ∧ (h.link p).advRx then
    match h.holdCause p with
    | none => h.setKl p 5
    | some k => (h.lastFail p k).setKl p 8
  else h

/-- A port enters CREDIT and sends CREDIT_ADV. -/
def Hub.enterCredit (h : Hub) (p : Nat) : Hub := ((h.setKl p 4).sendAdv p).creditDone p

/-- A port in UP goes to HOLD (Table 5.5): its queued and unacknowledged cells and its open frames are returned and counted as a PORT
reset returns them. The session and the link's counts go on, which HOLD's own frames need. (Log entry 27, DEDUCED.) -/
def Hub.upToHold (h : Hub) (p k : Nat) : Hub :=
  let h := ((h.dropWaits fun w => decide (w.slot = some p)).dropTarget p true).dropOpen p true
  let h := h.updLink p fun l => { l with unacked := [], times := [], codes := [], replay := none, run := 0 }
  (h.lastFail p k).setKl p 8

/-- A port comes back to UP from IDLE or RECOVER; with a peer depth that R138 does not take it goes on to HOLD. -/
def Hub.backUp (h : Hub) (p : Nat) : Hub :=
  match h.holdCause p with
  | none => h.setKl p 5
  | some k => (h.setKl p 5).upToHold p k

end Sys2Proof.Machine
end

