-- ==== Sys2Proof/Machine/Dse.lean ====
section
/-! DEFINITION. The display engine (R300–R322): lines cut at ROOT inputs, the line FIFO, raster, overlay and clone of LEAF
outputs, links, HPD and AUX. -/

namespace Sys2Proof.Machine

/-- A DisplayPort output. -/
def Hub.dpOut (h : Hub) (o : Nat) : DpOut := Tab.get (fun _ => {}) h.dse.outs o

/-- Change an output; DO_FIFO follows. -/
def Hub.updDpOut (h : Hub) (o : Nat) (f : DpOut → DpOut) : Hub :=
  let x := f (h.dpOut o)
  { h with dse := { h.dse with outs := Tab.set (fun _ => {}) h.dse.outs o x } }.wrF (Reg.DO_FIFO o) 19 0 x.bytes

/-- A DisplayPort input. -/
def Hub.dpIn (h : Hub) (i : Nat) : DpIn := Tab.get (fun _ => {}) h.dse.ins i

/-- Change an input. -/
def Hub.updDpIn (h : Hub) (i : Nat) (f : DpIn → DpIn) : Hub :=
  { h with dse := { h.dse with ins := Tab.upd (fun _ => {}) h.dse.ins i f } }

/-- A block takes new work: it runs and its ENABLE is 1 (R69). -/
def Hub.works (h : Hub) (b : Block) : Bool := h.up b && (h.hdr b).enable

/-- DS_CTRL.CLONE in force. -/
def Hub.dpClone (h : Hub) : Bool := h.rdB Reg.DS_CTRL 0

/-- DO_CFG.EN in force. -/
def Hub.dpEn (h : Hub) (o : Nat) : Bool := h.rdB (Reg.DO_CFG o) 0

/-- A frame of a flow is discarded at an exit (R35). -/
def Hub.countExitFlow (h : Hub) (flow : Nat) : Hub := h.countFlow 0x11 flow .exit

/-- The block that owns an edge port orders its lanes' rate (R93); lanes whose rate changes relock (R92). -/
def Hub.edgeRate (h : Hub) (c rate : Nat) : Hub :=
  ((h.portLanes c).foldl Hub.sitReleaseLane h).updLanes c fun w =>
    if fld w 11 8 = rate then w else setBit (setBit (setBit (setFld w 11 8 rate) 12 false) 13 false) 16 false

/-- An edge port's lanes have to lock again (R92). -/
def Hub.edgeUnlock (h : Hub) (c : Nat) : Hub :=
  h.updLanes c fun w => setBit (setBit (setBit w 12 false) 13 false) 16 false

/-- An edge port's link is up: the training has locked its lanes (R92), and none of them is idle (R105). -/
def Hub.edgeLocked (h : Hub) (c : Nat) : Hub :=
  h.updLanes c fun w => setBit (setBit (setBit w 12 true) 13 true) 15 false

/-! ### Links, HPD and AUX -/

/-- Mb/s of a DisplayPort rate code (Table 4.2); none for any other code. -/
def dpRate (code : Nat) : Option Nat :=
  if code = 2 then some 1620 else if code = 4 then some 2700 else if code = 8 then some 5400
  else if code = 0xA then some 8100 else none

/-- A lane count of R300. -/
def dpLanesOk (n : Nat) : Bool := decide (n = 1 ∨ n = 2 ∨ n = 4)

/-- The payload rate of a link in Mb/s: lanes × rate × 0.8 (R315). -/
def dpPayload (lanes code : Nat) : Nat := lanes * (dpRate code).getD 0 * 8 / 10

/-- An output reports its rate to TSS (R227, R305). -/
def Hub.dpReport (h : Hub) (o rate : Nat) : Hub :=
  h.rateReport (0x0E + o) rate

/-- LINK_LOST is live while a trained link, of an output or an input, is down. -/
def Hub.dpLive (h : Hub) : Hub :=
  h.setLive .dse 1 ((List.range 2).any fun o => (h.dpOut o).lost || (h.dpIn o).lost)

/-- DSE orders electrical idle on the lanes of an output, or of a ROOT input, while its main link is off
(R105). -/
def Hub.dpIdle (h : Hub) (o : Nat) : Hub :=
  let off := if h.role = .root then !h.rdB (Reg.DI_STAT o) 7 else !h.rdB (Reg.DO_STAT o) 16
  h.edgeIdle (0x0E + o) off

/-- An output's link is trained (R317). -/
def Hub.dpLinkUp (h : Hub) (o lanes rate : Nat) (async : Bool) : Hub :=
  let h := ((h.wrB (Reg.DO_STAT o) 16 true).wrB (Reg.DO_STAT o) 18 async).wrF (Reg.DO_STAT o) 21 19 lanes
  let h := (h.wrF (Reg.DO_STAT o) 25 22 rate).updDpOut o fun x => { x with trained := true, lost := false }
  (((((h.dpReport o (dpPayload lanes rate)).edgeRate (0x0E + o) rate).dpIdle o).edgeLocked (0x0E + o)).attn .dse (8 * o + 7)).dpLive

/-- An output's trained link is lost (R317): LINK, the LINK_LOST source, and its lanes go idle. -/
def Hub.dpLinkDown (h : Hub) (o : Nat) : Hub :=
  if h.rdB (Reg.DO_STAT o) 16 then
    let h := (h.wrB (Reg.DO_STAT o) 16 false).updDpOut o fun x => { x with trained := false, lost := true }
    ((((h.dpReport o 0).dpIdle o).attn .dse (8 * o + 7)).fault .dse 1).dpLive
  else h

/-- HPD_PLUG (R317): HPD rises at a LEAF output. -/
def execHpdPlug (o : Fin 2) (s : State) : Answer :=
  act s (s.hub.up .dse && decide (s.hub.role = .leaf) && !s.hub.rdB (Reg.DO_STAT o) 17) fun h =>
    (h.wrB (Reg.DO_STAT o) 17 true).attn .dse (8 * o + 6)

/-- HPD_UNPLUG (R317): HPD low for 2 ms takes the link down; the raster keeps running. -/
def execHpdUnplug (o : Fin 2) (s : State) : Answer :=
  act s (s.hub.up .dse && decide (s.hub.role = .leaf) && s.hub.rdB (Reg.DO_STAT o) 17) fun h =>
    ((h.wrB (Reg.DO_STAT o) 17 false).attn .dse (8 * o + 6)).dpLinkDown o

/-- An HPD pulse, with what the sink's link status then reports and whether a retraining at the same rate and lanes succeeds (R317). -/
def Hub.hpdIrqIn (h : Hub) (o : Fin 2) (lockLost retrained : Bool) : Hub :=
  let h := h.attn .dse (8 * o + 6)
  if lockLost && h.rdB (Reg.DO_STAT o) 16 then
    if h.rdB (Reg.DO_CFG o) 5 && retrained then h.attn .dse (8 * o + 7) else h.dpLinkDown o
  else h

/-- HPD_IRQ_RX (R317): HPD; when the sink's link status then reports lost lock, AUTO_RETRAIN retrains at the same rate and
lanes, and otherwise, or where that fails, the link is lost. -/
def execHpdIrqRx (o : Fin 2) (lockLost retrained : Bool) (s : State) : Answer :=
  act s (s.hub.up .dse && decide (s.hub.role = .leaf) && s.hub.rdB (Reg.DO_STAT o) 17) fun h => h.hpdIrqIn o lockLost retrained

/-- The running LINK_TRAIN (R317, R322). -/
def Hub.trainOp (h : Hub) (cr ce : Bool) (swing : BitVec 16) (sinkAsync : Bool) : Hub × Option MbxResult :=
  let o := (h.arg .dse 0).toNat
  let rate := (h.arg .dse 1).toNat
  let lanes := (h.arg .dse 2).toNat
  if h.role ≠ .leaf then done h (mbxErr 0x04)
  else if 1 < o ∨ dpRate rate = none ∨ dpLanesOk lanes = false then done h (mbxErr 0x02)
  else if h.dpEn o then done h (mbxErr 0x84)
  else if h.rdB (Reg.DO_STAT o) 17 = false then done h (mbxErr 0x80)
  else if !cr || !h.refsReady (0x0E + o) then done (h.dpLinkDown o) (mbxErr 0x82)
  else if !ce then done (h.dpLinkDown o) (mbxErr 0x83)
  else done (h.dpLinkUp o lanes rate sinkAsync) (mbxOk [w32 lanes, w32 rate, swing.setWidth 32])

/-- LINK_TRAIN (R317, R322): without its references (R58, R95, R96) a lane recovers no clock. Whether clock recovery and channel equalisation
succeed, the levels reached, and whether the sink
reports MSA_TIMING_PAR_IGNORED, are the sink's. -/
def execLinkTrain (cr ce : Bool) (swing : BitVec 16) (sinkAsync : Bool) (s : State) : Answer :=
  mbxAct s .dse 0x11 fun h => h.trainOp cr ce swing sinkAsync

/-- What an AUX transaction comes to: its reply code and bytes, a failure, or that it still goes on (R317: a DEFER is
retried up to 7 times, a missing reply 3 times). -/
def auxRun : Nat → Nat → List (Option (Nat × List Byte)) → Option (Option (Nat × List Byte))
  | _, _, [] => none
  | d, m, none :: l => if 3 ≤ m then some none else auxRun d (m + 1) l
  | d, m, some (c, b) :: l =>
    if c = 2 ∨ c = 8 then (if 7 ≤ d then some none else auxRun (d + 1) m l)
    else if c = 0 then some (some (c, b)) else some none

/-- How often the transaction has been sent when it has had these replies. -/
def auxSends : Nat → Nat → List (Option (Nat × List Byte)) → Nat
  | _, _, [] => 1
  | d, m, none :: l => if 3 ≤ m then 1 else 1 + auxSends d (m + 1) l
  | d, m, some (c, _) :: l => if (c = 2 ∨ c = 8) ∧ d < 7 then 1 + auxSends (d + 1) m l else 1

/-- The running AUX_XFER with the sink's replies so far, in order (R317, R322). -/
def Hub.auxOp (h : Hub) (replies : List (Option (Nat × List Byte))) : Hub × Option MbxResult :=
  let o := b2n (bit (h.arg .dse 0) 0)
  let len := fld (h.arg .dse 1) 4 0
  let out := ((wordBytes ((List.range 4).map fun k => h.arg .dse (2 + k))).take len)
  if h.role ≠ .leaf then done h (mbxErr 0x04)
  else if len = 0 ∨ 16 < len then done h (mbxErr 0x02)
  else if h.rdB (Reg.DO_STAT o) 17 = false then done h (mbxErr 0x80)
  else
    let req : Emit := .packet (0x0E + o) (fld (h.arg .dse 0) 7 4) (leBytes 3 (fld (h.arg .dse 0) 27 8) ++ leBytes 1 len ++ out)
    let h := (List.replicate (auxSends 0 0 replies) req).foldl Hub.emit h
    match auxRun 0 0 replies with
    | none => (h, none)
    | some none => done h (mbxErr 0x81)
    | some (some (c, b)) =>
      let b := b.take 16
      done h (mbxOk (w32 (c + 0x100 * b.length) :: (List.range 4).map fun k => w32 (leVal ((b.drop (4 * k)).take 4))))

/-- AUX_XFER (R322): `replies` are the sink's replies in order, a missing one as none. -/
def execAuxXfer (replies : List (Option (Nat × List Byte))) (s : State) : Answer :=
  mbxAct s .dse 0x10 fun h => h.auxOp replies

/-- The running HPD_IRQ (R318, R322). -/
def Hub.hpdIrqOp (h : Hub) : Hub × Option MbxResult :=
  let i := (h.arg .dse 0).toNat
  if h.role ≠ .root then done h (mbxErr 0x04)
  else if 1 < i then done h (mbxErr 0x02)
  else if h.rdB (Reg.DI_CFG i) 0 = false then done h (mbxErr 0x85)
  else done (h.emit (.packet (0x0E + i) 0x10 [])) (mbxOk [])

/-- HPD_IRQ (R318, R322): a 0.75 ms HPD pulse at a ROOT input. -/
def execHpdIrq (s : State) : Answer :=
  mbxAct s .dse 0x12 Hub.hpdIrqOp

/-- MAX_LANES of an input in force: 1, 2 or 4 (Table 11.8; other codes act as the nearest limit). -/
def Hub.diLanes (h : Hub) (i : Nat) : Nat :=
  let n := h.rdF (Reg.DI_CFG i) 10 8
  if n ≤ 1 then 1 else if n ≤ 3 then 2 else 4

/-- The DPCD byte of an input (R318; the DPCD layout is DisplayPort's). (Log entry 33, PRESUMED.) -/
def Hub.dpcd (h : Hub) (i a : Nat) : Nat :=
  if a = 0 then 0x14
  else if a = 1 then (dpRate (h.rdF (Reg.DI_CFG i) 7 4)).getD 1620 / 270
  else if a = 2 then h.diLanes i + 0x40 + 0x80
  else if a = 3 then 0x80
  else if a = 7 then 0x40 * b2n (h.rdB (Reg.DI_CFG i) 1)
  else 0

/-- Byte b of an input's EDID buffer: byte 4i stands in bits [7:0] of word i (R321). -/
def Hub.edid (h : Hub) (i b : Nat) : Nat := h.rdF (Reg.DSE_EDID i (b / 4)) (8 * (b % 4) + 7) (8 * (b % 4))

/-- What an input does with a source's AUX request, or with a training that has ended (R318). -/
def Hub.auxAnswer (h : Hub) (i : Fin 2) (r : AuxReq) : Hub :=
  match r with
  | .dpcd a n => h.emit (.packet (0x0E + i) 0x11 ((List.range n).map fun k => BitVec.ofNat 8 (h.dpcd i (a + k))))
  | .edid a n =>
    h.emit (.packet (0x0E + i) 0x12 ((List.range n).map fun k =>
      BitVec.ofNat 8 (h.edid i ((a + k) % 512))))
  | .trained rate lanes =>
    if (dpRate rate).isSome ∧ dpLanesOk lanes = true ∧ h.refsReady (0x0E + i) = true then
      let h := ((h.wrF (Reg.DI_STAT i) 3 0 rate).wrF (Reg.DI_STAT i) 6 4 lanes).wrB (Reg.DI_STAT i) 7 true
      let h := ((h.updDpIn i fun x => { x with lost := false }).edgeRate (0x0E + i) rate).dpIdle i
      ((h.edgeLocked (0x0E + i)).attn .dse (8 * i + 7)).dpLive
    else h

/-- AUX_REQUEST_RX (R318): a DPCD or EDID read at a ROOT input is answered; a training that has ended leaves the main link at its
rate and lanes. -/
def execAuxRequestRx (i : Fin 2) (r : AuxReq) (s : State) : Answer :=
  act s (s.hub.up .dse && decide (s.hub.role = .root) && s.hub.rdB (Reg.DI_CFG i) 0) fun h => h.auxAnswer i r

/-- A trained input's main link is lost (R319). -/
def Hub.dpInDown (h : Hub) (i : Nat) : Hub :=
  let h := ((h.wrB (Reg.DI_STAT i) 7 false).wrB (Reg.DI_STAT i) 8 false).wrF (Reg.DI_FMT i) 7 0 0xFF
  ((((h.updDpIn i fun x => { x with lost := true }).dpIdle i).attn .dse (8 * i + 7)).fault .dse 1).dpLive

/-- DP_INPUT_LINK_LOSS (R319): a trained input loses its main link. -/
def execDpInputLinkLoss (i : Fin 2) (s : State) : Answer :=
  act s (s.hub.up .dse && decide (s.hub.role = .root) && s.hub.rdB (Reg.DI_STAT i) 7) fun h => h.dpInDown i

/-- DO_START_LO_READ (R321). -/
def execDoStartLoRead (o : Fin 2) (s : State) : Answer :=
  act s (s.hub.up .dse) fun h => h.latchHi (Reg.DO_START_LO o) (Reg.DO_START_HI o)

/-! ### Lines of a ROOT input -/

/-- The line header of Table 11.2. -/
def lineHeader (vframe line width fmt flags stamp : Nat) : List Byte :=
  leBytes 2 vframe ++ leBytes 2 line ++ leBytes 2 width ++ leBytes 1 fmt ++ leBytes 1 flags ++ leBytes 4 stamp
    ++ List.replicate 4 0

/-- A received active line of a picture is measured, numbered and, if it has a format and no symbol error, admitted as a frame (R302–R304). -/
def Hub.dpLineIn (h : Hub) (i : Fin 2) (l : DpRxLine) : Hub :=
  let h := (h.inc (Reg.DI_SDP_DROP i) l.sdps).wrB (Reg.DI_STAT i) 8 true
  let h := (h.wr (Reg.DI_H i) (w32 (l.hact % 8192 + l.htotal % 8192 * 65536))).wr (Reg.DI_V i)
    (w32 (l.vact % 8192 + l.vtotal % 8192 * 65536))
  let h := h.wrF (Reg.DI_PCLK i) 19 0 l.pclk
  let h := if l.first then h.updDpIn i fun x =>
      { x with vframe := some (x.vframe.elim 0 fun v => (v + 1) % 65536), line := 0, stamp := h.now % 2 ^ 32 }
    else if (h.dpIn i).vframe.isNone then h.updDpIn i fun x => { x with vframe := some 0, line := 0, stamp := h.now % 2 ^ 32 }
    else h
  let x := h.dpIn i
  let h := h.updDpIn i fun x => { x with line := x.line + 1 }
  let h := match l.format with
    | none => ((h.wrB (Reg.DI_STAT i) 9 true).wrF (Reg.DI_FMT i) 7 0 0xFF).attn .dse 19
    | some f =>
      let h := (h.wrB (Reg.DI_STAT i) 9 false).wrF (Reg.DI_FMT i) 7 0 f
      if l.symErr then
        (((h.inc (Reg.DI_LINE_ERR i)).attn .dse 18).fault .dse 4).dropEvent (0x0E + i) 0
      else
        let hd := lineHeader (x.vframe.getD 0) x.line l.hact f (b2n l.first + 2 * b2n l.last) x.stamp
        ((h.inc (Reg.DI_LINES i)).edgeFrame (0x0E + i) (h.rdF (Reg.DI_FLOW i) 23 0) (hd ++ l.pixels)).1
  let h := if l.last then h.attn .dse (8 * i) else h
  if l.last && l.format.isSome && !l.symErr then h.attn .dse (8 * i + 2) else h

/-- DP_LINE_RX (R302–R304): a received active line of a picture. -/
def execDpLineRx (i : Fin 2) (l : DpRxLine) (s : State) : Answer :=
  actT s (s.hub.works .dse && decide (s.hub.role = .root) && s.hub.rdB (Reg.DI_CFG i) 0 && s.hub.rdB (Reg.DI_STAT i) 7)
    fun h => h.dpLineIn i l

/-! ### Line frames at a LEAF output -/

/-- The pixel bytes of WIDTH pixels in a format (Table 11.3); none where the format is reserved. -/
def fmtBytes (fmt width : Nat) (ovl : Bool) : Option Nat :=
  if ovl then (if fmt = 6 then some (4 * width) else none)
  else if fmt = 0 ∨ fmt = 2 then some (3 * width)
  else if fmt = 1 ∨ fmt = 3 then some ((30 * width + 7) / 8)
  else if fmt = 4 then (if width % 2 = 0 then some (2 * width) else none)
  else if fmt = 5 then some width
  else none

/-- OW and OH in force (Table 11.6). -/
def Hub.ovlSize (h : Hub) : Nat × Nat :=
  (clampN 1 1024 (h.rdF Reg.DS_OVL_SIZE 10 0), clampN 1 1024 (h.rdF Reg.DS_OVL_SIZE 26 16))

/-- The overlay belongs to an output (R312). -/
def Hub.ovlAt (h : Hub) (o : Nat) : Bool := h.dpClone || decide (b2n (h.rdB Reg.DS_OVL_CTL 1) = o)

/-- An overlay line is written into the bank not in force; what lies beyond OH and OW is discarded (R312). A row for an output
that the overlay is not attached to is written all the same: the banks are one. -/
def Hub.ovlWrite (h : Hub) (o row width : Nat) (px : List Byte) : Hub :=
  let (ow, oh) := h.ovlSize
  if oh ≤ row then h.inc (Reg.DO_DISCARD o)
  else
    let bank := 1 - b2n (h.rdB Reg.DS_OVL_CTL 2)
    let h := h.inc (Reg.DO_DISCARD o) (width - ow)
    if 131072 / ow ≤ row then h
    else
      let was := Tab.get (fun _ => []) h.dse.overlay (bank * 1024 + row)
      let now := px.take (4 * ow)
      { h with dse := { h.dse with overlay := Tab.set (fun _ => []) h.dse.overlay (bank * 1024 + row) (now ++ was.drop now.length) } }

/-- A line of a picture that will not be shown is discarded during a fill or retime frame; each picture counts once in
DO_SKIPPED (R308, R316). -/
def Hub.dpSkipLine (h : Hub) (o : Nat) (l : DpLine) : Hub :=
  let h := if (h.dpOut o).dead = some l.vframe then h else h.inc (Reg.DO_SKIPPED o)
  (h.updDpOut o fun x => { x with dead := some l.vframe }).countExitFlow l.flow

/-- A line that arrives after its slot has passed (R309), or that belongs to an aborted picture (R310). -/
def Hub.dpLateLine (h : Hub) (o : Nat) (l : DpLine) : Hub := (h.inc (Reg.DO_DISCARD o)).countExitFlow l.flow

/-- The output discards the lines that arrive: its raster moves its clock, or sends a retime or fill frame. -/
def DpOut.skips (x : DpOut) : Bool :=
  match x.phase with
  | .synth | .retime | .fill => true
  | _ => false

/-- A complete line of a picture arrives. -/
def Hub.dpTake (h : Hub) (o : Nat) (l : DpLine) : Hub :=
  let x := h.dpOut o
  if x.skips then h.dpSkipLine o l
  else if x.dead = some l.vframe then h.dpLateLine o l
  else if x.phase = .picture l.vframe ∧ l.line < x.slotLine then h.dpLateLine o l
  else h.updDpOut o fun x => { x with fifo := x.fifo ++ [l] }

/-- A whole unit has come out of an output's queue (R302, R303, R305, R311): in clone DP1's are drained; else a picture line, an overlay line or a format error. A line
that failed its check stays as a bad line. -/
def Hub.dpUnitEnd (h : Hub) (o slot flow : Nat) (bytes : List Byte) (bad : Bool) : Hub :=
  let b := fun k n => leVal ((bytes.drop k).take n)
  let flags := b 7 1
  let width := b 4 2
  let ovl := flags.testBit 2
  let px := bytes.drop 16
  let good := decide (1 ≤ width) && decide (width ≤ 4096) && decide (16 ≤ bytes.length)
    && decide (fmtBytes (b 6 1) width ovl = some px.length)
  let l : DpLine := {
    flow := flow
    vframe := b 0 2
    line := b 2 2
    width := width
    format := b 6 1
    sof := flags.testBit 0
    eof := flags.testBit 1
    bad := bad
    stamp := b 8 4
    bytes := if bad then 0 else bytes.length
    pixels := if bad then [] else px }
  if h.dpClone ∧ o = 1 then (h.inc (Reg.DO_DISCARD o)).countExit slot
  else if bad then (if ovl then h else h.dpTake o l)
  else if !good then (h.inc Reg.DS_FMT_ERR).countExit slot
  else if ovl then h.ovlWrite o (b 2 2) width px
  else h.dpTake o l

/-- A unit starts to be read at an output (R305). -/
def Hub.dpStart (h : Hub) (s t : Nat) (u : List Nat) : Hub :=
  match u.head?.bind h.cell with
  | none => h
  | some c =>
    let d : DpUnit := { slot := s, flow := c.flow, fseq := c.fseq, tmask := c.tmask, cells := u, bytes := [], failed := false }
    h.updDpOut (t - 0x0E) fun x => { x with reading := some d }

/-- The next cell of the unit being read is checked and written (R178, R305). -/
def Hub.dpCell (h : Hub) (o : Nat) (ecc : Bool) : Hub :=
  match (h.dpOut o).reading with
  | none => h
  | some u =>
    let t := 0x0E + o
    let stop := h.updDpOut o fun x => { x with reading := none }
    match u.cells with
    | [] => stop
    | i :: rest =>
      let p := (h.cell i).elim [] fun (c : CellSt) => c.payload
      if !((h.cell i).elim false fun (c : CellSt) => c.pend.testBit t) then stop
      else if h.cellGood i ecc then
        if rest = [] then
          (((stop.readCell t i).deliver u.slot t u.fseq u.tmask).newHead u.slot t).dpUnitEnd o u.slot u.flow (u.bytes ++ p) false
        else (h.readCell t i).updDpOut o fun x => { x with reading := some { u with cells := rest, bytes := u.bytes ++ p } }
      else
        let h := ((stop.pennantFail u.slot t i ecc).skipFailed t).newHead u.slot t
        let h := ((h.fault .dse 2).attn .dse 17).inc (Reg.DO_LINE_BAD o)
        h.dpUnitEnd o u.slot u.flow (u.bytes ++ p) true

/-- DP_CELL_WRITE (R305). -/
def execDpCellWrite (o : Fin 2) (ecc : Bool) (s : State) : Answer :=
  actT s (s.hub.up .dse && (s.hub.dpOut o).reading.isSome) fun h => h.dpCell o ecc

/-! ### The raster -/

/-- The timing that the registers of an output give (Table 11.7). With ASYNC 0, VB_MAX acts as VB_MIN (R306). -/
def Hub.timing (h : Hub) (o : Nat) : Timing :=
  let vbmin := clampN 3 4095 (h.rdF (Reg.DO_V o) 28 16)
  { pclk := h.rdF (Reg.DO_PCLK o) 19 0
    cellClk := h.rdB (Reg.DO_CFG o) 4
    htot := h.rdF (Reg.DO_H o) 28 16
    hact := h.rdF (Reg.DO_H o) 12 0
    vact := clampN 1 4096 (h.rdF (Reg.DO_V o) 12 0)
    vbmin := vbmin
    vbmax := if h.rdB (Reg.DO_CFG o) 1 then clampN vbmin 8191 (h.rdF (Reg.DO_VBMAX o) 12 0) else vbmin }

/-- The outputs that send a raster: DP0's reaches DP1 in clone once DP1 has passed its retime frame (R311). -/
def Hub.dpFollow (h : Hub) (o : Nat) : List Nat :=
  let joined := match (h.dpOut 1).phase with
    | .blank | .picture _ | .fill => true
    | _ => false
  if h.dpClone ∧ o = 0 ∧ h.dpEn 1 = true ∧ joined = true then [0, 1] else [o]

/-- Do something for every output that a raster reaches. -/
def Hub.dpEach (h : Hub) (o : Nat) (f : Hub → Nat → Hub) : Hub := (h.dpFollow o).foldl f h

/-- DO_STAT shows the raster. -/
def Hub.dpShow (h : Hub) (o line : Nat) (active : Bool) : Hub :=
  h.dpEach o fun h k =>
    let ph := (h.dpOut k).phase
    let h := (h.wrF (Reg.DO_STAT k) 12 0 line).wrB (Reg.DO_STAT k) 13 active
    (h.wrB (Reg.DO_STAT k) 14 (decide (ph = .fill))).wrB (Reg.DO_STAT k) 15 (decide (ph = .retime ∨ ph = .synth))

/-- A line of pixels, or a blanking line, goes out on a trained link; pixels sent while it is down are lost (R317). -/
def Hub.dpSend (h : Hub) (o : Nat) (px : Option (List (Nat × Nat × Nat))) : Hub :=
  h.dpEach o fun h k =>
    if h.rdB (Reg.DO_STAT k) 16 then
      match px with
      | some l => h.emit (.line (0x0E + k) l)
      | none => h.emit (.blank (0x0E + k))
    else h

/-- The MSA goes out on each trained link that the raster reaches, with the Adaptive-Sync SDP where DO_CFG.ASYNC asks for it (R306,
Table 11.1): VTOTAL is VACTIVE + VB_MIN. -/
def Hub.dpMsa (h : Hub) (o : Nat) : Hub :=
  let t := h.timing o
  let f := [t.htot, t.vact + t.vbmin, t.hact, t.vact, (h.rd (Reg.DO_HSYNC o)).toNat, (h.rd (Reg.DO_VSYNC o)).toNat]
  h.dpEach o fun h k =>
    if h.rdB (Reg.DO_STAT k) 16 then h.emit (.msa (0x0E + k) f (h.rdB (Reg.DO_CFG o) 1)) else h

/-- The raster reaches VB_START (R306, R319): the frame has ended. Lines of its picture still in the FIFO lay outside the active
area, and their pixels are clipped (R309). -/
def Hub.dpVbStart (h : Hub) (o : Nat) : Hub :=
  let x := h.dpOut o
  let h := (h.dpMsa o).dpEach o fun h k => h.attn .dse (8 * k)
  let finish := fun (h : Hub) =>
    h.dpEach o fun h k =>
      let h := if x.aborted then h else h.attn .dse (8 * k + 2)
      ((h.wr (Reg.DO_CRC_RG k) (w32 ((x.crc.getD 0 0).toNat + (x.crc.getD 1 0).toNat * 65536))).wr (Reg.DO_CRC_B k)
        (w32 (x.crc.getD 2 0).toNat)).updDpOut k fun y => { y with phase := .blank }
  match x.phase with
  | .picture v =>
    let left := x.fifo.filter fun (l : DpLine) => l.vframe = v
    let h := h.inc (Reg.DO_DISCARD o) (left.foldl (fun n (l : DpLine) => n + l.width) 0)
    let h := h.updDpOut o fun y => { y with fifo := y.fifo.filter fun (l : DpLine) => l.vframe ≠ v, dead := some v, slotLine := 0 }
    finish h
  | .fill => finish h
  | _ => h

/-- The SOF line of picture v and the next READY_LINES − 1 lines of it are in the FIFO, or all of a shorter picture (R307). -/
def dpReady (fifo : List DpLine) (n v : Nat) : Bool :=
  (List.range n).all fun j => fifo.any fun l =>
    l.vframe = v && (decide (l.line = j) || (l.eof && decide (l.line < j)))

/-- The newest ready picture: the position of its SOF line in the FIFO, and its number (R307). -/
def dpPick (fifo : List DpLine) (n : Nat) : Option (Nat × Nat) :=
  ((fifo.zipIdx.filter fun (e : DpLine × Nat) => e.1.sof && dpReady fifo n e.1.vframe).getLast?).map fun e => (e.2, e.1.vframe)

/-- A frame starts (R307, R308): the registers' timing is in force for it, and cell time is latched. -/
def Hub.dpFrame (h : Hub) (o : Nat) (ph : DpPhase) : Hub :=
  let h := h.dpEach o fun h k =>
    (h.wrWide (Reg.DO_START_LO k) h.now).updDpOut k fun x => { x with phase := ph }
  h.updDpOut o fun x => { x with
    tim := h.timing o
    next := 0
    ur := 0
    slotLine := 0
    ends := none
    aborted := false
    crc := [0, 0, 0] }

/-- A picture starts: the lines of older pictures are discarded, and each such picture counts in DO_SKIPPED (R307). -/
def Hub.dpContent (h : Hub) (o pos v : Nat) : Hub :=
  let x := h.dpOut o
  let gone := ((x.fifo.take pos).map fun (l : DpLine) => l.vframe).filter fun w => w ≠ v
  let old := x.fifo.filter fun (l : DpLine) => gone.contains l.vframe
  let h := h.inc (Reg.DO_SKIPPED o) gone.dedup.length
  let h := old.foldl (fun h (l : DpLine) => h.countExitFlow l.flow) h
  let h := h.updDpOut o fun y => { y with fifo := y.fifo.filter fun (l : DpLine) => !gone.contains l.vframe }
  let h := h.dpFrame o (.picture v)
  h.dpEach o fun h k => (h.inc (Reg.DO_FRAMES k)).wrF (Reg.DO_VFRAME k) 15 0 v

/-- A fill frame starts (R308). -/
def Hub.dpFill (h : Hub) (o : Nat) : Hub :=
  (h.dpFrame o .fill).dpEach o fun h k => (h.inc (Reg.DO_FILL_FRAMES k)).attn .dse (8 * k + 4)

/-- One blanking line (R306). -/
def Hub.dpBlank (h : Hub) (o : Nat) : Hub :=
  let n := (h.dpOut o).next
  ((h.dpSend o none).updDpOut o fun x => { x with next := n + 1 }).dpShow o n false

/-- A boundary in blanking from VB_START + VB_MIN on: a picture or a fill frame starts, or one more blanking line (R307, R308). In
clone DP1 waits for DP0's next frame. -/
def Hub.dpBoundary (h : Hub) (o : Nat) : Hub :=
  let x := h.dpOut o
  if h.dpClone ∧ o = 1 then h
  else
    match dpPick x.fifo (clampN 1 16 (h.rdF (Reg.DO_SCAN o) 12 8)) with
    | some (pos, v) => h.dpContent o pos v
    | none => if x.tim.vact + x.tim.vbmax ≤ x.next then h.dpFill o else h.dpBlank o

/-- The retime frame is at its end (R316). -/
def Hub.dpRetimed (h : Hub) (o : Nat) : Hub :=
  (h.attn .dse (8 * o + 5)).updDpOut o fun x => { x with phase := .blank }

/-- The output's raster runs and its next line is not an active line of a frame. -/
def DpOut.inBlanking (x : DpOut) : Bool :=
  match x.phase with
  | .off | .synth => false
  | .retime => true
  | _ => decide (x.tim.vact ≤ x.next)

/-- COMMIT_LEAD of an output as it acts (R314). -/
def Hub.commitLead (h : Hub) (o : Nat) : Nat := clampN 1 ((h.timing o).vbmin - 1) (h.rdF (Reg.DO_SCAN o) 7 0)

/-- The raster that an output's windows follow: in clone DP1 has one of its own only while it is retimed (R311). -/
def Hub.rasterOf (h : Hub) (o : Nat) : Nat := if h.dpClone && !decide ((h.dpOut 1).phase = .retime) then 0 else o

/-- The next line boundary of an output's raster is one of the application instants of R314. -/
def Hub.dpInstant (h : Hub) (o : Nat) : Bool :=
  let x := h.dpOut (h.rasterOf o)
  x.inBlanking && decide (x.next < x.tim.vact + h.commitLead o)

/-- The raster passes the last application instant of a window: a commit that was armed too late for it has missed it (R76, R314). -/
def Hub.dpMiss (h : Hub) (o : Nat) : Hub :=
  let y := h.dpOut (h.rasterOf o)
  if h.dpEn o && y.inBlanking && decide (y.next + 1 = y.tim.vact + h.commitLead o) && (h.hdr .dse).waiting.contains o
      && decide (h.mono - (h.hdr .dse).armedAt < 1000) then
    h.updHdr .dse fun x => x.miss o
  else h

/-- A line boundary of raster `o` goes by for the windows that follow it. -/
def Hub.windowPass (h : Hub) (o : Nat) : Hub :=
  [0, 1].foldl (fun h k => if h.rasterOf k = o then h.dpMiss k else h) h

/-- The time of an output's next line has come: with PCLK_SRC 1 a line lasts HTOTAL / PCLK in cell time, and steps of cell time do not
move it (R313). Under REFCLK_D the boundary is the command's. -/
def DpOut.lineDue (x : DpOut) (now : Nat) : Bool :=
  !x.tim.cellClk || decide ((x.pix + x.tim.htot) * 1000000 ≤ (now - x.pixFrom) * x.tim.pclk)

/-- A line of an output begins. -/
def Hub.dpLineBegin (h : Hub) (o : Nat) : Hub := h.updDpOut o fun x => { x with pix := x.pix + x.tim.htot }

/-- A line boundary outside the active lines of a frame (R306–R308, R316). -/
def Hub.dpLineBoundary (h : Hub) (o : Nat) : Hub :=
  let x := h.dpOut o
  let h := if x.next = x.tim.vact then h.dpVbStart o else h
  if x.tim.vact + x.tim.vbmin ≤ x.next then
    (if x.phase = .retime then h.dpRetimed o else h).dpBoundary o
  else h.dpBlank o

/-- RASTER_LINE_BOUNDARY (R306–R308, R316): the next line boundary of an output whose next line is a blanking line. In clone DP1
has a raster of its own only in a retime frame. -/
def execRasterLineBoundary (o : Fin 2) (s : State) : Answer :=
  act s (s.hub.up .dse && decide (s.hub.role = .leaf) && s.hub.dpEn o && (s.hub.dpOut o).inBlanking
      && (s.hub.dpOut o).lineDue s.hub.mono && (!s.hub.dpClone || decide (o = 0) || decide ((s.hub.dpOut o).phase = .retime)))
    fun h => ((h.windowPass o).dpLineBegin o).dpLineBoundary o

/-- An output's new frequency is reached: the retime lines go by under the new timing (R316). -/
def Hub.synthDone (h : Hub) (o : Fin 2) : Hub :=
  let src := if h.dpClone then 0 else o.val
  h.updDpOut o fun x => { x with phase := .retime, tim := h.timing src, next := 0, pixFrom := h.mono, pix := 0 }

/-- RETIME_SYNTH_DONE (R316): the new frequency is reached; blanking under the new timing begins. Pictures that arrived before
are discarded. -/
def execRetimeSynthDone (o : Fin 2) (s : State) : Answer :=
  act s (s.hub.up .dse && decide ((s.hub.dpOut o).phase = .synth)) fun h => h.synthDone o

/-! ### Pixels -/

/-- 8 bits to 10 by replicating the top two (R305). -/
def rep8 (v : Nat) : Nat := 4 * v + v / 64

/-- The n-th 30-bit group of packed pixels: three 10-bit components, the first highest (R303). -/
def packed30 (px : List Byte) (n : Nat) : Nat × Nat × Nat :=
  let v := leVal ((px.drop (30 * n / 8)).take 5) / 2 ^ (30 * n % 8) % 2 ^ 30
  (v / 2 ^ 20, v / 2 ^ 10 % 1024, v % 1024)

/-- Byte k of a line's pixels. -/
def pxByte (px : List Byte) (k : Nat) : Nat := (px.getD k 0).toNat

/-- Pixel n of a line as 10-bit R, G, B (R303, R305). -/
def dpPixel (fmt : Nat) (px : List Byte) (n : Nat) : Nat × Nat × Nat :=
  match fmt with
  | 0 => (rep8 (pxByte px (3 * n)), rep8 (pxByte px (3 * n + 1)), rep8 (pxByte px (3 * n + 2)))
  | 1 => packed30 px n
  | 2 => Config.bt709 false (pxByte px (3 * n)) (pxByte px (3 * n + 1)) (pxByte px (3 * n + 2))
  | 3 =>
    let c := packed30 px n
    Config.bt709 true c.1 c.2.1 c.2.2
  | 4 =>
    let k := 4 * (n / 2)
    Config.bt709 false (pxByte px (k + 1 + 2 * (n % 2))) (pxByte px k) (pxByte px (k + 2))
  | _ => (rep8 (pxByte px n), rep8 (pxByte px n), rep8 (pxByte px n))

/-- One component of the blend (R312), rounded down. (Log entry 32, DEDUCED.) -/
def blend1 (a ov un : Nat) : Nat := (a * rep8 ov + (255 - a) * un) / 255

/-- The overlay over one pixel at (x, y) of the active area (R312). -/
def Hub.ovlPixel (h : Hub) (row : List Byte) (x : Nat) (un : Nat × Nat × Nat) : Nat × Nat × Nat :=
  let ox := h.rdF Reg.DS_OVL_POS 12 0
  if ox ≤ x ∧ x < ox + (h.ovlSize).1 then
    let k := 4 * (x - ox)
    let a := pxByte row (k + 3)
    (blend1 a (pxByte row (k + 2)) un.1, blend1 a (pxByte row (k + 1)) un.2.1, blend1 a (pxByte row k) un.2.2)
  else un

/-- The overlay row that an output draws on active line y; none where it draws none (R312). -/
def Hub.ovlRow (h : Hub) (o y : Nat) : Option (List Byte) :=
  let oy := h.rdF Reg.DS_OVL_POS 28 16
  let (ow, oh) := h.ovlSize
  if h.rdB Reg.DS_OVL_CTL 0 && h.ovlAt o && decide (oy ≤ y) && decide (y < oy + oh) && decide (y - oy < 131072 / ow) then
    some (Tab.get (fun _ => []) h.dse.overlay (1024 * b2n (h.rdB Reg.DS_OVL_CTL 2) + (y - oy)))
  else none

/-- DS_FILL as R, G, B. -/
def Hub.fillColour (h : Hub) : Nat × Nat × Nat :=
  (h.rdF Reg.DS_FILL 29 20, h.rdF Reg.DS_FILL 19 10, h.rdF Reg.DS_FILL 9 0)

/-- A 10-bit component as it is sent: rounded to 8 bits unless OUT_FMT is 10 bits (R305). -/
def sendComp (ten : Bool) (v : Nat) : Nat := if ten then v else min 255 ((v + 2) / 4)

/-- The pixels of active line y: the input line at XOFS over the fill colour, the overlay over both, in the depth sent (R305,
R309, R312). -/
def Hub.dpRow (h : Hub) (o y : Nat) (l : Option DpLine) (ovlEcc : Bool) : List (Nat × Nat × Nat) :=
  let xofs := h.rdF (Reg.DO_WIN o) 12 0
  let ten := decide (h.rdF (Reg.DO_CFG o) 3 2 = 1)
  let row := if ovlEcc then none else h.ovlRow o y
  (List.range (h.dpOut o).tim.hact).map fun x =>
    let un := match l with
      | some l => if xofs ≤ x ∧ x < xofs + l.width then dpPixel l.format l.pixels (x - xofs) else h.fillColour
      | none => h.fillColour
    let p := row.elim un fun r => h.ovlPixel r x un
    (sendComp ten p.1, sendComp ten p.2.1, sendComp ten p.2.2)

/-- An active line of pixels goes out, into the frame's test CRC. -/
def Hub.dpPixels (h : Hub) (o y : Nat) (l : Option DpLine) (ovlEcc : Bool) : Hub :=
  let px := h.dpRow o y l ovlEcc
  let h := if ovlEcc && (h.ovlRow o y).isSome then h.fault .dse 3 else h
  (h.dpSend o (some px)).updDpOut o fun x => { x with crc := Config.dpCrc x.crc px }

/-- Input line j of the picture is scanned: pixels beyond the active area are clipped and counted (R309). -/
def Hub.dpScan (h : Hub) (o y : Nat) (l : DpLine) (ovlEcc : Bool) : Hub :=
  let clip := l.width - ((h.dpOut o).tim.hact - h.rdF (Reg.DO_WIN o) 12 0)
  let h := h.inc (Reg.DO_DISCARD o) clip
  let h := h.dpEach o fun h k =>
    h.histSample 7 (some (0x0E + k)) none (some l.flow) (((h.now % 2 ^ 32 + 2 ^ 32 - l.stamp) % 2 ^ 32 : Nat) : Int)
  (h.updDpOut o fun x => { x with ur := 0 }).dpPixels o y (some l) ovlEcc

/-- UR_LINES in force. -/
def Hub.urLines (h : Hub) (o : Nat) : Nat := max 1 (h.rdF (Reg.DO_SCAN o) 15 13)

/-- An underrun aborts the frame (R310). -/
def Hub.dpUnderrun (h : Hub) (o v : Nat) : Hub :=
  let h := h.updDpOut o fun x => { x with aborted := true, dead := some v }
  let h := (h.dpOut o).fifo.foldl (fun h (l : DpLine) => if l.vframe = v then h.countExitFlow l.flow else h) h
  let h := h.updDpOut o fun x => { x with fifo := x.fifo.filter fun (l : DpLine) => l.vframe ≠ v }
  (h.dpEach o fun h k => (h.inc (Reg.DO_UNDERRUN k)).attn .dse (8 * k + 3)).fault .dse 0

/-- Input line j of picture v is not there to be scanned (R309, R310). -/
def Hub.dpMissing (h : Hub) (o y v j : Nat) (ovlEcc : Bool) : Hub :=
  let later := (h.dpOut o).fifo.any fun (l : DpLine) => decide (l.vframe = v ∧ j < l.line)
  let h := h.dpEach o fun h k => h.inc (Reg.DO_LINE_MISSING k)
  let ur := if later then 0 else (h.dpOut o).ur + 1
  let h := h.updDpOut o fun x => { x with ur := ur }
  if h.urLines o ≤ ur then (h.dpUnderrun o v).dpSend o none else h.dpPixels o y none ovlEcc

/-- Active line y of picture v (R309): `ecc` is an uncorrectable error in the stored line. -/
def Hub.dpPicture (h : Hub) (o y v : Nat) (ecc ovlEcc : Bool) : Hub :=
  let yofs := h.rdF (Reg.DO_WIN o) 28 16
  let x := h.dpOut o
  let ends := (x.fifo.find? fun (l : DpLine) => l.vframe = v && l.eof).elim x.ends fun l => some l.line
  let h := h.updDpOut o fun x => { x with ends := ends }
  if y < yofs ∨ ends.elim false (fun e => e < y - yofs) = true then h.dpPixels o y none ovlEcc
  else
    let j := y - yofs
    let h := h.updDpOut o fun x => { x with
      slotLine := j + 1
      fifo := x.fifo.filter fun (l : DpLine) => ¬ (l.vframe = v ∧ l.line = j) }
    match x.fifo.find? fun (l : DpLine) => l.vframe = v && decide (l.line = j) with
    | none => h.dpMissing o y v j ovlEcc
    | some l =>
      if l.bad then h.dpMissing o y v j ovlEcc
      else if ecc then (((h.fault .dse 3).attn .dse 17).inc (Reg.DO_LINE_BAD o)).dpMissing o y v j ovlEcc
      else h.dpScan o y l ovlEcc

/-- The next line is an active line of a frame. -/
def DpOut.inActive (x : DpOut) : Bool :=
  match x.phase with
  | .picture _ | .fill => decide (x.next < x.tim.vact)
  | _ => false

/-- The start of the next active line (R309, R310, R312, R319). -/
def Hub.dpActive (h : Hub) (o : Nat) (ecc ovlEcc : Bool) : Hub :=
  let x := h.dpOut o
  let y := x.next
  let h := h.dpEach o fun h k => if h.rdF (Reg.DO_SCAN k) 28 16 = y then h.attn .dse (8 * k + 1) else h
  let h := if x.aborted then h.dpSend o none
    else match x.phase with
      | .picture v => h.dpPicture o y v ecc ovlEcc
      | _ => h.dpPixels o y none ovlEcc
  (h.updDpOut o fun x => { x with next := y + 1 }).dpShow o y (!(h.dpOut o).aborted)

/-- ACTIVE_LINE_START (R309, R310). -/
def execActiveLineStart (o : Fin 2) (ecc ovlEcc : Bool) (s : State) : Answer :=
  act s (s.hub.up .dse && s.hub.dpEn o && (s.hub.dpOut o).inActive && (s.hub.dpOut o).lineDue s.hub.mono
      && (!s.hub.dpClone || decide (o = 0))) fun h => (h.dpLineBegin o).dpActive o ecc ovlEcc

/-! ### Commits (R314–R316) -/

/-- The limits of R315 hold of an output's registers. -/
def Hub.dpTimingOk (h : Hub) (o : Nat) : Bool :=
  let t := h.timing o
  let pclk := h.rdF (Reg.DO_PCLK o) 19 0
  let ht := h.rdF (Reg.DO_H o) 28 16
  let bpp := if h.rdF (Reg.DO_CFG o) 3 2 = 1 then 30 else 24
  decide (25000 ≤ pclk) && decide (pclk ≤ 600000) && decide (64 ≤ t.hact) && decide (t.hact ≤ 4096)
    && decide (t.hact + 32 ≤ ht) && decide (ht ≤ 8192) && decide (t.vact + t.vbmax ≤ 8192)
    && (!h.rdB (Reg.DO_STAT o) 16
      || decide (pclk * bpp ≤ 1000 * dpPayload (h.rdF (Reg.DO_STAT o) 21 19) (h.rdF (Reg.DO_STAT o) 25 22)))

/-- The fields that a refused commit leaves as they were (R315). -/
def dpTimingRegs (o : Nat) : List Nat :=
  [Reg.DO_CFG o, Reg.DO_PCLK o, Reg.DO_H o, Reg.DO_V o, Reg.DO_VBMAX o, Reg.DO_HSYNC o, Reg.DO_VSYNC o, Reg.DO_WIN o]

/-- A retime frame starts (R316): pictures still in the FIFO will not be shown. -/
def Hub.dpRetime (h : Hub) (o : Nat) : Hub :=
  let x := h.dpOut o
  let h := h.inc (Reg.DO_SKIPPED o) ((x.fifo.map fun (l : DpLine) => l.vframe).dedup).length
  let h := x.fifo.foldl (fun h (l : DpLine) => h.countExitFlow l.flow) h
  (h.updDpOut o fun y => { y with
    phase := .synth
    next := 0
    fifo := []
    aborted := false }).dpShow o 0 false

/-- What the commit of an output's fields does besides putting them in force (R311, R315, R316); `old` is the hub before. -/
def Hub.dpCommitOut (h old : Hub) (o : Nat) : Hub :=
  let h := if h.dpTimingOk o then h
    else ((dpTimingRegs o).foldl (fun h a => h.wr a (old.rd a)) h).attn .dse 16
  let moved := decide (old.rd (Reg.DO_PCLK o) ≠ h.rd (Reg.DO_PCLK o)) || decide (old.rdB (Reg.DO_CFG o) 4 ≠ h.rdB (Reg.DO_CFG o) 4)
  if !h.dpEn o then
    if old.dpEn o then (h.updDpOut o fun x => { x with phase := .off }).dpShow o 0 false else h
  else if !old.dpEn o then h.dpRetime o
  else if moved then
    if h.dpClone then (if o = 0 then (if h.dpEn 1 then (h.dpRetime 0).dpRetime 1 else h.dpRetime 0) else h) else h.dpRetime o
  else h

/-- What the commit of page 0x01 does: an overlay bank switch, and DP1's retime frame as it moves into or out of clone. -/
def Hub.dpCommitPage (h old : Hub) : Hub :=
  let h := if old.rdB Reg.DS_OVL_CTL 2 ≠ h.rdB Reg.DS_OVL_CTL 2 then h.attn .dse 20 else h
  if old.dpClone ≠ h.dpClone ∧ h.dpEn 1 = true ∧ old.dpEn 1 = true then h.dpRetime 1 else h

/-- What the commit of an input's fields does: HPD follows EN (R318), and a newly enabled input numbers its pictures anew. -/
def Hub.dpCommitIn (h old : Hub) (i : Nat) : Hub :=
  let on := h.rdB (Reg.DI_CFG i) 0
  if on = old.rdB (Reg.DI_CFG i) 0 then h
  else
    let h := h.emit (.hpd (0x0E + i) on)
    if on then h.updDpIn i fun x => { x with vframe := none } else h

/-- A block reset of DSE at an output or an input (Table 11.5): the link goes down, the lines in the store are counted as dropped by block
reset (R35), and a ROOT input's HPD goes low. -/
def Hub.dpPortReset (h : Hub) (o : Nat) : Hub :=
  let h := h.edgeReturn (0x0E + o)
  if h.role = .leaf then
    let x := h.dpOut o
    let h := x.fifo.foldl (fun h (l : DpLine) => if l.bad then h else h.countFlow (0x0E + o) l.flow .reset) h
    h.dpLinkDown o
  else if h.rdB (Reg.DI_CFG o) 0 then h.emit (.hpd (0x0E + o) false)
  else h

end Sys2Proof.Machine
end

