-- ==== Sys2Proof/Machine/Eth.lean ====
section
/-! DEFINITION. The Ethernet ports (R338–R355): entry checks, classifier, timestamps, exit, link loss. Port n is E n, port code
0x09 + n. -/

namespace Sys2Proof.Machine

/-- The FEC that acts (R339): 0 none, 1 Clause 74, 2 RS-FEC. -/
def Hub.epFec (h : Hub) (p : Nat) : Nat :=
  let f := h.rdF (Reg.EP_CFG p) 4 3
  let m := h.epMode p
  if f = 1 ∧ (m = 4 ∨ m = 5) then 1 else if f = 2 ∧ m = 5 then 2 else 0

/-- Rate code, TS_BYTE_TIME, TS_CAP and TS_LEAD of a mode and FEC (Table 13.1). -/
def epFigures (mode fec : Nat) : Nat × Nat × Nat × Nat :=
  match mode with
  | 1 | 2 => (0x1, 8192, 1000, 336)
  | 3 => (0x5, 3277, 2500, 200)
  | 4 => (0xB, 820, 10000, if fec = 1 then 192 else 160)
  | 5 => (0xD, 328, 25000, if fec = 2 then 256 else if fec = 1 then 160 else 128)
  | _ => (0, 0, 0, 0)

/-- TS_LEAD of an Ethernet port at the DVFS point in force (R237): Table 13.1 gives it at F0. (Log entry 57, DESIGN CHOICE: a free
value at any other point.) -/
def Hub.epLead (h : Hub) (p : Nat) : Nat :=
  let lead := (epFigures (h.epMode p) (h.epFec p)).2.2.2
  if lead = 0 ∨ h.dvfsPoint = 0 then lead else (Config.ethLead (h.epMode p) (h.epFec p) h.dvfsPoint).toNat

/-- TSS shows a port's figures (R227, R338). -/
def Hub.epShow (h : Hub) (p : Nat) : Hub :=
  let (_, bt, cap, _) := epFigures (h.epMode p) (h.epFec p)
  let t := 9 + p
  ((h.wrF (Reg.TS_BYTE_TIME t) 15 0 bt).wrF (Reg.TS_CAP t) 20 0 cap).wrF (Reg.TS_LEAD t) 15 0 (h.epLead p)

/-- ETH reports a port's figures to TSS and orders its lane's rate (R338). -/
def Hub.epReport (h : Hub) (p : Nat) : Hub :=
  let rate := (epFigures (h.epMode p) (h.epFec p)).1
  ((h.epShow p).edgeRate (9 + p) rate).wrF (Reg.EP_STAT p) 8 6 (h.epMode p)

/-- TS_LEAD of a link port at a DVFS point (R237, Table 1.3): buffer read and framing take 40 fabric cycles, transmit 64 ns.
(Log entry 56, DEDUCED.) -/
def linkLead (point : Nat) : Nat :=
  match point with
  | 0 => 96
  | 1 => 104
  | 2 => 128
  | _ => 192

/-- TS_LEAD of the link and Ethernet ports follows the DVFS point in force (R237). -/
def Hub.showLeads (h : Hub) : Hub :=
  let h := (List.range 9).foldl (fun h p => h.wrF (Reg.TS_LEAD p) 15 0 (linkLead h.dvfsPoint)) h
  (List.range 4).foldl (fun h p => h.wrF (Reg.TS_LEAD (9 + p)) 15 0 (h.epLead p)) h

/-- A DVFS point comes in force (R440). -/
def Hub.setPoint (h : Hub) (point : Nat) : Hub := (h.wrF Reg.PMU_DVFS 3 2 point).showLeads

/-- LINK_LOST is live while an enabled port has no link (Table 19.4). -/
def Hub.epLive (h : Hub) : Hub :=
  h.setLive .eth 0 ((List.range 4).any fun p => decide (h.epMode p ≠ 0) && !h.rdB (Reg.EP_STAT p) 0)

/-- The slot of the frame that a port sent last. -/
def Hub.epLast (h : Hub) (p : Nat) : Option Nat := (Tab.get (fun _ => {}) h.eth p).lastTx

/-- Remember the slot of the frame that a port sends. -/
def Hub.epSent (h : Hub) (p : Nat) (s : Option Nat) : Hub :=
  { h with eth := Tab.set (fun _ => {}) h.eth p { lastTx := s } }

/-- LINK drops (R351): `cut` says that a frame was being sent, which is counted as dropped by block reset. -/
def Hub.epDown (h : Hub) (p : Nat) (cut : Bool) : Hub :=
  let h := (((h.wrF (Reg.EP_STAT p) 2 0 0).attn .eth (4 * p)).fault .eth 0).epLive
  let h := match cut, h.epLast p with
    | true, some s => (h.countReset s 1).epSent p none
    | _, _ => h
  if h.rdB (Reg.EP_CFG p) 9 then h.edgeReturn (9 + p) else h

/-- ETH_LINK_DOWN (R351). -/
def execEthLinkDown (p : Fin 4) (cut : Bool) (s : State) : Answer :=
  actT s (s.hub.up .eth && s.hub.rdB (Reg.EP_STAT p) 0) fun h => h.epDown p cut

/-- A port's link is up, with the modes its auto-negotiation gives; a 2.5G SGMII link at another speed only shows SPEED_BAD (Table 13.7). -/
def Hub.epUp (h : Hub) (p : Fin 4) (speedBad : Bool) : Hub :=
  if speedBad ∧ h.epMode p = 2 then h.wrB (Reg.EP_STAT p) 5 true
  else
    let an := (decide (h.epMode p = 1) && h.rdB (Reg.EP_CFG p) 5) || decide (h.epMode p = 2)
    let h := ((h.wrF (Reg.EP_STAT p) 2 0 (3 + 4 * b2n an)).wrB (Reg.EP_STAT p) 5 false).edgeLocked (9 + p)
    (h.attn .eth (4 * p)).epLive

/-- ETH_LINK_UP (R339, R351), with the lane's reference (R96): in SGMII a PHY at another speed keeps the link down. -/
def execEthLinkUp (p : Fin 4) (speedBad : Bool) (s : State) : Answer :=
  act s (s.hub.up .eth && decide (s.hub.epMode p ≠ 0) && !s.hub.rdB (Reg.EP_STAT p) 0 && s.hub.refsReady (9 + p))
    fun h => h.epUp p speedBad

/-- What the commit of a port's fields does (R338): a MODE change puts the port through a PORT reset. -/
def Hub.epCommit (h old : Hub) (p : Nat) : Hub :=
  if old.epMode p ≠ h.epMode p then
    let was := h.rdB (Reg.EP_STAT p) 0
    let h := ((h.wrF (Reg.EP_STAT p) 5 0 0).edgeReturn (9 + p)).edgeUnlock (9 + p)
    let h := if was then h.attn .eth (4 * p) else h
    ((if was && decide (h.epMode p ≠ 0) then h.fault .eth 0 else h).epReport p).epLive
  else if old.epFec p ≠ h.epFec p then h.epReport p else h

/-! ### The classifier -/

/-- The address of word w of entry i. -/
def clsAddr (i w : Nat) : Nat := Reg.CLS_W0 0 0 + 16 * i + 4 * w

/-- The indices of the valid entries, ascending. -/
def Hub.clsValid (h : Hub) : List Nat :=
  (h.regs.filter fun e => clsAddr 0 3 ≤ e.1 ∧ e.1 ≤ clsAddr 4095 3 ∧ e.1 % 16 = 12 ∧ bit e.2 0 = true).map
    fun e => (e.1 - clsAddr 0 3) / 16

/-- Entry i matches the keys (R343); `ecc` names an entry whose ECC fails. (Log entry 35, DEDUCED.) -/
def Hub.clsMatch (h : Hub) (port da vid pcp : Nat) (ecc : Option Nat) (i : Nat) : Bool :=
  let w := fun k => h.rd (clsAddr i k)
  decide (ecc ≠ some i) && bit (w 3) (11 + port)
    && (bit (w 3) 1 || decide ((w 0).toNat + fld (w 1) 15 0 * 2 ^ 32 = da))
    && (bit (w 3) 2 || decide (fld (w 1) 27 16 = vid)) && bit (w 3) (3 + pcp)

/-- A lookup: the first entry that matches (R343). -/
def Hub.clsFind (h : Hub) (port da vid pcp : Nat) (ecc : Option Nat) : Option Nat :=
  h.clsValid.find? (h.clsMatch port da vid pcp ecc)

/-- An entry's ECC error was met in a lookup (R344). -/
def Hub.clsEcc (h : Hub) (ecc : Option Nat) : Hub := if ecc.isSome then (h.attn .eth 16).fault .eth 3 else h

/-- Write a word of an entry; ETH_CLS_STAT counts the valid ones. -/
def Hub.clsWrite (h : Hub) (i w : Nat) (v : Word) : Hub :=
  let mask : Word := match w with
    | 0 => 0xFFFFFFFF
    | 1 => 0x0FFFFFFF
    | 2 => 0x00FFFFFF
    | _ => 0x00007FFF
  let h := h.wr (clsAddr i w) (v &&& mask)
  h.wr Reg.ETH_CLS_STAT (w32 h.clsValid.length)

/-- CLS_ENTRY_WRITE (R344). -/
def execClsEntryWrite (i : Fin 4096) (w : Fin 4) (v : Word) (s : State) : Answer :=
  act s (s.hub.up .eth) fun h => h.clsWrite i w v

/-- The running CLS_LOOKUP: the first entry that matches and its handle, or 0x1FFF and a handle that is a free value (R354). (Log entry 63, DESIGN
CHOICE.) -/
def Hub.clsLookupOp (h : Hub) (ecc : Option (Fin 4096)) : Hub × Option MbxResult :=
  let a := h.arg .eth 0
  let e := ecc.map fun (x : Fin 4096) => x.val
  let r := h.clsFind (fld a 1 0) ((h.arg .eth 1).toNat + fld (h.arg .eth 2) 15 0 * 2 ^ 32) (fld a 27 16) (fld a 14 12) e
  let h := h.clsEcc e
  match r with
  | some i => done h (mbxOk [w32 i, w32 (fld (h.rd (clsAddr i 2)) 23 0)])
  | none =>
    let (w, h) := h.draw
    done h (mbxOk [0x1FFF, w &&& 0x00FFFFFF])

/-- CLS_LOOKUP (R354). The handle that a miss reports is left open. (Log entry 63, DESIGN CHOICE: a free value.) -/
def execClsLookup (ecc : Option (Fin 4096)) (s : State) : Answer :=
  mbxAct s .eth 0x11 fun h => h.clsLookupOp ecc

/-- The running MDIO_XFER: the frame goes out and a read brings the PHY's answer (R354). -/
def Hub.mdioOp (h : Hub) (answer : BitVec 16) : Hub × Option MbxResult :=
  let a := h.arg .eth 0
  let op := fld a 2 1
  if !bit a 0 ∧ (op = 0 ∨ op = 3) then done h (mbxErr 0x02)
  else
    let h := h.emit (.packet 9 0x30 (leBytes 4 a.toNat ++ leBytes 2 (fld (h.arg .eth 1) 15 0)))
    done h (mbxOk (if 2 ≤ op then [answer.setWidth 32] else []))

/-- MDIO_XFER (R354): `answer` is what the addressed PHY returns. Clause 22 has no address and no post-increment frame. -/
def execMdioXfer (answer : BitVec 16) (s : State) : Answer :=
  mbxAct s .eth 0x10 fun h => h.mdioOp answer

/-! ### Timestamps -/

/-- The offset of the EtherType after at most one 0x8100 tag. -/
def etAfterTag (f : List Byte) : Nat := if beVal ((f.drop 12).take 2) = 0x8100 then 16 else 12

/-- The offset of a frame's PTP message; none: it carries none (R349). -/
def ptpAt (f : List Byte) : Option Nat :=
  let o := etAfterTag f
  if beVal ((f.drop o).take 2) = 0x88F7 ∧ o + 2 < f.length then some (o + 2) else none

/-- MSG_TYPE, DOMAIN and SEQ_ID of a record's word 2 (Table 13.5). -/
def ptpWord (f : List Byte) : Nat :=
  match ptpAt f with
  | none => 0
  | some o =>
    let b := fun k => (f.getD (o + k) 0).toNat
    16 * (b 0 % 16) + 256 * b 4 + 65536 * (256 * b 30 + b 31)

/-- The frame is a PTP event message. -/
def ptpEvent (f : List Byte) : Bool := (ptpAt f).elim false fun o => decide ((f.getD o 0).toNat % 16 ≤ 3)

/-- A signed 16-bit field as a number. -/
def s16 (v : Nat) : Int := (BitVec.ofNat 16 v).toInt

/-- Write a timestamp record; the stamp is in 1/16 ns (Table 13.5). -/
def Hub.tsRecord (h : Hub) (p idx : Nat) (t16 : Int) (f : List Byte) (id : Nat) : Hub :=
  let t := (t16 % (2 ^ 68 : Int)).toNat
  let h := (h.wr (Reg.EP_STAMP0 p idx) (lo32 (t / 16))).wr (Reg.EP_STAMP1 p idx) (hi32 (t / 16))
  (h.wr (Reg.EP_STAMP2 p idx) (w32 (t % 16 + ptpWord f))).wr (Reg.EP_STAMP3 p idx) (w32 (id % 65536 + 65536))

/-! ### Entry (R341–R343, R349) -/

/-- A frame is dropped at entry. -/
def Hub.ethDrop (h : Hub) (p cnt : Nat) (err : Bool) : Hub :=
  let h := (h.inc cnt).dropEvent (9 + p) 0
  if err then h.attn .eth (4 * p + 1) else h

/-- VID and PCP of a frame (R342). -/
def Hub.ethTag (h : Hub) (p : Nat) (f : List Byte) : Nat × Nat :=
  let pv := h.rd (Reg.EP_PVID p)
  if beVal ((f.drop 12).take 2) = 0x8100 then
    let tci := beVal ((f.drop 14).take 2)
    (if tci % 4096 = 0 then fld pv 11 0 else tci % 4096, tci / 8192)
  else (fld pv 11 0, fld pv 14 12)

/-- The tunnel header (Table 13.2). -/
def tunHeader (flags port id : Nat) : List Byte := leBytes 1 flags ++ leBytes 1 port ++ leBytes 2 id

/-- A received PTP event message is stamped (R349): the header that the frame then carries. -/
def Hub.ethStamp (h : Hub) (p : Nat) (f : List Byte) (t16 : Int) : Hub × List Byte :=
  if h.rdB (Reg.EP_CFG p) 8 && ptpEvent f then
    let id := h.rdF (Reg.EP_TS_RX_NEXT p) 15 0
    let h := h.tsRecord p (id % 32) (t16 - s16 (h.rdF (Reg.EP_TS_CORR p) 15 0)) f id
    ((h.incFW (Reg.EP_TS_RX_NEXT p) 15 0).inc (Reg.EP_TS_RX p), tunHeader 1 (9 + p) id)
  else (h, tunHeader 0 (9 + p) 0)

/-- A received frame, from its destination address to the end of its data (R341, R343, R349). A frame with several faults counts under the
first in the order of R341's table. (Log entry 63, DESIGN CHOICE.) -/
def Hub.ethRx (h : Hub) (p : Nat) (f : List Byte) (fcs code : Bool) (t16 : Int) (ecc : Option Nat) : Hub :=
  if !fcs then (h.ethDrop p (Reg.EP_RX_FCS p) true).fault .eth 1
  else
    let (h, hd) := h.ethStamp p f t16
    if f.length + 4 < 64 ∨ clampN 64 9600 (h.rdF (Reg.EP_MAXLEN p) 13 0) < f.length + 4 then
      h.ethDrop p (Reg.EP_RX_LEN p) true
    else if code then h.ethDrop p (Reg.EP_RX_CODE p) true
    else if beVal ((f.drop 12).take 2) = 0x8808 then h.ethDrop p (Reg.EP_RX_CTRL p) false
    else
      let (vid, pcp) := h.ethTag p f
      let r := h.clsFind p (beVal (f.take 6)) vid pcp ecc
      let h := h.clsEcc ecc
      match r, h.rdB (Reg.EP_CFG p) 6 with
      | none, true => h.ethDrop p (Reg.EP_RX_MISS p) true
      | _, _ =>
        let flow := match r with
          | some i => fld (h.rd (clsAddr i 2)) 23 0
          | none => h.rdF (Reg.EP_DEF_FLOW p) 23 0
        ((h.inc (Reg.EP_RX_FRAMES p)).edgeFrame (9 + p) flow (hd ++ f)).1

/-- ETH_FRAME_RX (R341): `back` ns and `frac` sixteenths ago its first bit after the SFD was at the balls; `ecc` names a
classifier entry in which the lookup meets an uncorrectable error. -/
def execEthFrameRx (p : Fin 4) (frame : List Byte) (fcsGood codeErr : Bool) (back : Nat) (frac : BitVec 4)
    (ecc : Option (Fin 4096)) (s : State) : Answer :=
  actT s (s.hub.works .eth && s.hub.rdB (Reg.EP_STAT p) 0) fun h =>
    h.ethRx p frame fcsGood codeErr ((h.stamp16 : Int) - 16 * back - frac.toNat) (ecc.map fun (x : Fin 4096) => x.val)

/-! ### Exit (R345, R350) -/

/-- CRC-32 of IEEE 802.3. -/
def crc32 (bs : List Byte) : Word :=
  ~~~ (bs.foldl (fun crc b => (List.range 8).foldl
    (fun c _ => if c.getLsbD 0 then (c >>> 1) ^^^ 0xEDB88320#32 else c >>> 1) (crc ^^^ b.setWidth 32)) 0xFFFFFFFF#32)

/-- The frame that leaves (R345): without the tunnel header, its first tag removed with STRIP, padded to 60 bytes. -/
def Hub.ethWire (h : Hub) (p : Nat) (b : List Byte) : List Byte :=
  let f := b.drop 4
  let f := if h.rdB (Reg.EP_CFG p) 7 && decide (beVal ((f.drop 12).take 2) = 0x8100) then f.take 12 ++ f.drop 16 else f
  f ++ List.replicate (60 - f.length) 0

/-- The frame's transmit timestamp (R350): the first bit after its SFD. -/
def Hub.ethTxStamp (h : Hub) (p : Nat) (b : List Byte) : Hub :=
  if (b.getD 0 0).getLsbD 1 then
    let i := h.rdF (Reg.EP_TS_TX_NEXT p) 4 0
    let t := 9 + p
    let t16 : Int := (h.stamp16 + 16 * h.txLead t : Nat) + (h.rdF (Reg.TS_BYTE_TIME t) 15 0 / 8 : Nat)
      + s16 (h.rdF (Reg.EP_TS_CORR p) 31 16)
    ((h.tsRecord p (32 + i) t16 (b.drop 4) (leVal ((b.drop 2).take 2))).wrF (Reg.EP_TS_TX_NEXT p) 4 0 ((i + 1) % 32)).attn .eth
      (4 * p + 3)
  else h

/-- The payload of a unit's cells. -/
def Hub.unitBytes (h : Hub) (u : List Nat) : List Byte := u.flatMap fun i => (h.cell i).elim [] fun (c : CellSt) => c.payload

/-- A unit's cells pass their checks. -/
def Hub.unitGood (h : Hub) (u : List Nat) (ecc : Option Nat) : Bool :=
  u.zipIdx.all fun e => h.cellGood e.1 (decide (ecc = some e.2))

/-- The cells of a unit up to the first that fails its check, that one among them. -/
def Hub.uptoBad (h : Hub) (u : List Nat) (ecc : Option Nat) : List Nat :=
  u.take ((u.zipIdx.takeWhile fun e => h.cellGood e.1 (decide (ecc = some e.2))).length + 1)

/-- A frame leaves by an Ethernet port (R345): sent, not sent for its format, or cut off with an inverted FCS and an error code: kind
0x20, the bytes of the cells read and that FCS. (Log entry 35, DEDUCED.) -/
def Hub.ethExit (h : Hub) (s p : Nat) (u : List Nat) (ecc : Option Nat) : Hub :=
  let t := 9 + p
  let b := h.unitBytes u
  let good := h.unitGood u ecc
  let f := h.ethWire p b
  let cut := h.ethWire p (h.unitBytes (h.uptoBad u ecc))
  let inp := (u.head?.bind h.cell).elim 0 fun (c : CellSt) => c.inp
  let tc := (h.ctx s).tc
  let h := h.exitFrame s t u ecc
  if !good then
    ((((h.emit (.packet t 0x20 (cut ++ leBytes 4 (~~~ crc32 cut).toNat))).inc (Reg.EP_TX_ABORT p)).attn .eth (4 * p + 2)).fault .eth 2).epSent p (some s)
  else if b.length < 18 ∨ clampN 64 9600 (h.rdF (Reg.EP_MAXLEN p) 13 0) < f.length + 4 then
    ((h.inc (Reg.EP_TX_BADFMT p)).countExit s).dropEvent inp tc
  else
    let h := (h.emit (.frame t (f ++ leBytes 4 (crc32 f).toNat))).inc (Reg.EP_TX_FRAMES p)
    (h.ethTxStamp p b).epSent p (some s)

end Sys2Proof.Machine
end

