-- ==== Sys2Proof/Machine/LinkRx.lean ====
section
/-! DEFINITION. The commands of the Karmund Link (R120–R156): control writes, HELLO and authentication, cells, credit and
replay, recovery, idle and time transfer. -/

namespace Sys2Proof.Machine

/-- A link port exists in the role and the main die runs. -/
def Hub.linkUp (h : Hub) (p : Nat) : Bool := h.up .kll && portPresent h.straps p

/-- What arrives at the balls of a link port is received: none of its lanes is in a near-end loop, which ignores them (R109). -/
def Hub.hears (h : Hub) (p : Nat) : Bool :=
  h.linkUp p && (h.portLanes p).all fun l => let m := h.rdF (Reg.LN_LOOP l) 1 0; decide (m = 0 ∨ m = 3)

/-! ### Control (R135, Table 5.11) -/

/-- KL_CTRL.DOWN: BYE is sent, then the port goes to DOWN. -/
def Hub.klCtrlDown (h : Hub) (p : Nat) : Hub :=
  if h.klState p = 0 then h else (h.emit (.bye p 0)).klDown p none

/-- KL_CTRL.RETRAIN: a PORT reset and ALIGN; in DOWN it ends the hold of a NAP BYE (R429). -/
def Hub.klCtrlRetrain (h : Hub) (p : Nat) : Hub :=
  if h.klState p = 0 then h.updLink p fun l => { l with napHeld := false }
  else (h.portReset p).enterAlign p

/-- KL_CTRL.ALIGNED: HELLO, when every lane has BLOCK_LOCK and deskew is complete. -/
def Hub.klCtrlAligned (h : Hub) (p : Nat) : Hub :=
  if h.klState p = 1 ∧ h.allLanes p 16 ∧ (h.link p).deskewed then h.enterHello p else h

/-- A write of KL_CTRL: DOWN before RETRAIN before ALIGNED. -/
def Hub.writeKlCtrl (h : Hub) (p : Nat) (v : Word) : Hub :=
  let h := if bit v 2 then h.klCtrlDown p else if bit v 1 then h.klCtrlRetrain p else h
  if bit v 0 then h.klCtrlAligned p else h

/-- KL_ALIGNED (R135). -/
def execKlAligned (p : LinkNo) (s : State) : Answer := actT s (s.hub.linkUp p) fun h => h.klCtrlAligned p

/-- KL_RETRAIN (R135). -/
def execKlRetrain (p : LinkNo) (s : State) : Answer := actT s (s.hub.linkUp p) fun h => h.klCtrlRetrain p

/-- KL_DOWN (R135). -/
def execKlDown (p : LinkNo) (s : State) : Answer := actT s (s.hub.linkUp p) fun h => h.klCtrlDown p

/-- The conditions of Table 5.5 for leaving DOWN, less the locks. -/
def Hub.mayAlign (h : Hub) (p : Nat) : Bool :=
  decide (h.klState p = 0) && h.rdB (Reg.KL_CFG p) 4 && decide (rateMbps (h.klRate p) ≠ 0)
    && !(h.portLanes p).isEmpty && !(h.link p).napHeld && h.refsReady p

/-- The lanes of a port are ordered to RATE; locked at it, the port enters ALIGN (Table 5.5). -/
def Hub.toAlign (h : Hub) (p : Nat) : Hub :=
  let h := h.orderRates p
  if h.allLanes p 12 && h.allLanes p 14 then h.enterAlign p else h

/-- LINK_ENTER_ALIGN (R135): the lanes are ordered to RATE, and with every lane locked at it and a signal the port
enters ALIGN. -/
def execLinkEnterAlign (p : LinkNo) (s : State) : Answer :=
  actT s (s.hub.linkUp p && s.hub.mayAlign p) fun h => h.toAlign p

/-! ### HELLO (R136, R138, R254) -/

/-- The HELLO received is consistent with this end's (R136). -/
def Hub.helloGood (h : Hub) (p : Nat) (b : List Byte) : Bool :=
  let b1 := (b.getD 1 0).toNat
  let f := b1 / 16 % 4
  let own := facing h.role p
  decide ((b.getD 0 0) = 1#8) && decide ((b.getD 6 0).toNat = (h.portLanes p).length)
    && decide ((b.getD 7 0).toNat = h.klRate p) && decide ((own = 0 ∧ f = 1) ∨ (own = 1 ∧ f = 0) ∨ (own = 2 ∧ f = 2))

/-- The reason of Table 9.2 that a HELLO on M gives; 0: none (R254). -/
def Hub.helloPair (h : Hub) (b : List Byte) : Nat :=
  let b1 := (b.getD 1 0).toNat
  if b1 % 4 ≠ h.role.code ∨ (h.role ≠ .root ∧ h.role ≠ .transit) then 1
  else if (b1.testBit 2) = h.straps.side then 2
  else if (b1.testBit 3) ≠ h.profile then 3
  else 0

/-- A HELLO arrives (R136, R138): KL_PEER shows it; in HELLO it is checked, on T0 in UP or HOLD its depth is applied. -/
def Hub.helloIn (h : Hub) (p : Nat) (b : List Byte) : Hub :=
  let b1 := (b.getD 1 0).toNat
  let depth := (b.getD 4 0).toNat % 64
  let h := h.wr (Reg.KL_PEER p) (w32 (beVal ((b.drop 2).take 2) % 2 ^ 14 + b1 % 4 * 2 ^ 14 + b1 / 4 % 2 * 2 ^ 16
    + b1 / 8 % 2 * 2 ^ 17 + depth * 2 ^ 18 + (b.getD 5 0).toNat % 32 * 2 ^ 24))
  let h := h.updLink p fun l => { l with peerDepth := depth, helloRx := true }
  let h :=
    if h.klState p = 2 then
      if !h.helloGood p b then h.klFail p 2
      else if p = 8 ∧ h.helloPair b ≠ 0 then (h.pairMismatch (h.helloPair b)).klFail p 2
      else (h.pairCleared p).enterAuth p
    else if facesUp h.role p then
      match h.klState p, h.holdCause p with
      | 5, some k => h.upToHold p k
      | 8, some k => h.lastFail p k
      | 8, none => h.setKl p 5
      | _, _ => h
    else h
  h.showDepth

/-- HELLO_RX (R136). -/
def execHelloRx (p : LinkNo) (body : List Byte) (s : State) : Answer :=
  actT s (s.hub.hears p && decide (2 ≤ s.hub.klState p ∧ s.hub.klState p ≤ 8)) fun h => h.helloIn p body

/-- HELLO_RESEND (R135): 100 µs after the last HELLO, while the peer's has not come. -/
def execHelloResend (p : LinkNo) (s : State) : Answer :=
  actT s (s.hub.linkUp p && decide (s.hub.klState p = 2) && !(s.hub.link p).helloRx
      && decide ((s.hub.link p).helloAt + 100000 ≤ s.hub.mono)) fun h => h.sendHello p

/-- A write of STW_HUB_ID: HELLO goes out again (R136). -/
def Hub.writeHubId (h : Hub) (v : Word) : Hub := (h.wr Reg.STW_HUB_ID (v &&& 0x3FFF)).helloAgain

/-- HUB_ID_WRITE (R136). -/
def execHubIdWrite (v : Word) (s : State) : Answer := actT s s.hub.mainUp fun h => h.writeHubId v

/-! ### Authentication (R137) -/

/-- AUTH_CERT arrives in HELLO or AUTH (R137). -/
def Hub.certIn (h : Hub) (p : Nat) (body : List Byte) : Hub :=
  if h.klState p = 2 then h.updLink p fun l => { l with earlyCert := body }
  else if h.ksi.kat = 0 then h.gotCert p body
  else h

/-- AUTH_CERT_RX (R137): accepted in HELLO and AUTH; one that comes in HELLO is acted on at the entry to AUTH. (Log entry 27, DEDUCED.) -/
def execAuthCertRx (p : LinkNo) (body : List Byte) (s : State) : Answer :=
  actT s (s.hub.hears p && decide (s.hub.klState p = 2 ∨ s.hub.klState p = 3)) fun h => h.certIn p body

/-- AUTH_KEX_RX (R137): acted on once AUTH_KEX has been sent. -/
def execAuthKexRx (p : LinkNo) (body : List Byte) (s : State) : Answer :=
  actT s (s.hub.hears p && decide (s.hub.klState p = 3) && decide (s.hub.ksi.kat = 0)
      && !(s.hub.link p).kexOwn.isEmpty && (s.hub.link p).kexPeer.isEmpty) fun h => h.gotKex p body

/-- AUTH_FIN arrives (R137). -/
def Hub.finIn (h : Hub) (p : Nat) (codeGood : Bool) (digest : List Byte) : Hub :=
  if codeGood && decide (digest = finDigest (h.link p)) then
    (h.updLink p fun l => { l with finRx := true }).enterCredit p
  else h.klFail p 4

/-- AUTH_FIN_RX (R137): with a good code and digest both ends are verified, and the port moves to CREDIT. -/
def execAuthFinRx (p : LinkNo) (codeGood : Bool) (digest : List Byte) (s : State) : Answer :=
  actT s (s.hub.hears p && decide (s.hub.klState p = 3) && (s.hub.link p).finTx) fun h => h.finIn p codeGood digest

/-- AUTH_TIMEOUT (R135): 20 ms after the entry to AUTH. -/
def execAuthTimeout (p : LinkNo) (s : State) : Answer :=
  actT s (s.hub.linkUp p && decide (s.hub.klState p = 3)
      && decide ((s.hub.link p).authFrom + 20000000 ≤ s.hub.mono)) fun h => h.klFail p 5

/-! ### Credit advertisements (R139) -/

/-- New values of ADV, taking effect on receipt: HAND moves by the difference (R139, R141). -/
def Hub.setAdv (h : Hub) (p : Nat) (v : List Nat) : Hub :=
  h.updLink p fun l => { l with
    advRx := true
    adv := v
    hand := (List.range 8).map fun c => l.hand.getD c 0 + ((v.getD c 0 : Nat) : Int) - ((l.adv.getD c 0 : Nat) : Int) }

/-- CREDIT_ADV_RX (R139): values above 4,095 act as 4,095. -/
def execCreditAdvRx (p : LinkNo) (adv : List (BitVec 16)) (s : State) : Answer :=
  actT s (s.hub.hears p && decide (4 ≤ s.hub.klState p ∧ s.hub.klState p ≤ 8)) fun h =>
    (h.setAdv p ((List.range 8).map fun c => min 4095 (adv.getD c 0).toNat)).creditDone p

/-! ### Receiving cells (R143, R145) -/

/-- A malformed cell or a failed control block: KL_CNT_HDR and HDR_ERR (R122, R127). -/
def Hub.hdrErr (h : Hub) (p : Nat) : Hub := (h.inc (Reg.KL_CNT_HDR p)).fault .kll 0

/-- A credit block of the receiver (Table 5.8). -/
def Hub.creditBytes (h : Hub) (p : Nat) (hi nak : Bool) : List Byte :=
  let l := h.link p
  checkBlock ([if hi then 0x4C#8 else 0x4B#8, BitVec.ofNat 8 (b2n nak)] ++ beBytes 2 ((l.rxNext + 4095) % 4096)
    ++ ((l.retCum.drop (if hi then 4 else 0)).take 4).flatMap (beBytes 2))

/-- Send a credit block. -/
def Hub.creditBlock (h : Hub) (p : Nat) (hi nak : Bool) : Hub := h.emit (.block p (h.creditBytes p hi nak))

/-- An IDLE block (Table 5.2): kind 0 IDLE_REQ, 1 IDLE_ACK, 2 IDLE_NAK. -/
def idleBlock (kind : Nat) : List Byte := checkBlock [0x66#8, BitVec.ofNat 8 kind]

/-- A TIME block (Table 5.2): kind 0 REQ, 1 MARK. -/
def timeBlock (kind seq : Nat) : List Byte := checkBlock ([0x7E#8, BitVec.ofNat 8 kind] ++ beBytes 2 seq)

/-- A receive error: a NAK with ACK_SEQ = E − 1, unless one has gone out since a cell with RSEQ E last arrived. -/
def Hub.rxError (h : Hub) (p : Nat) : Hub :=
  if (h.link p).nakSent then h
  else (h.updLink p fun l => { l with nakSent := true }).creditBlock p false true

/-- A cell is accepted in sequence: E advances. -/
def Hub.rxAccept (h : Hub) (p : Nat) : Hub :=
  h.updLink p fun l => { l with rxNext := (l.rxNext + 1) % 4096, ackDue := true }

/-- A header and its data blocks as received (Table 5.3). -/
structure RawCell where
  tc : Nat
  first : Bool
  last : Bool
  void : Bool
  rseq : Nat
  flow : Nat
  fseq : Nat
  len : Nat
  check : Bool
  pennant : Word
  deriving DecidableEq, Repr

/-- Read a cell header (Table 5.3, R127). -/
def rawCell (b : List Byte) : RawCell :=
  let b1 := (b.getD 1 0).toNat
  { tc := b1 % 8, first := b1.testBit 3, last := b1.testBit 4, void := b1.testBit 5
    rseq := beVal ((b.drop 2).take 2) % 4096, flow := beVal ((b.drop 4).take 3), fseq := beVal ((b.drop 7).take 2)
    len := (b.getD 9 0).toNat, check := decide (b.getD 11 0 = crc8 (b.take 11))
    pennant := w32 (beVal ((b.drop 12).take 4)) }

/-- A cell is malformed (R127): HCHK fails, a short cell that is not the last, a VOID cell with FIRST, LAST or LEN, or
data blocks that a control block cut off. -/
def RawCell.malformed (r : RawCell) (data : List Byte) (cut : Bool) : Bool :=
  !r.check || (!r.void && !r.last && decide (r.len ≠ 255))
    || (r.void && (r.first || r.last || decide (r.len ≠ 0)))
    || (!r.void && (cut || decide (data.length < r.len + 1)))

/-- The cell with its payload. -/
def RawCell.cellIn (r : RawCell) (data : List Byte) : CellIn :=
  { flow := r.flow, fseq := r.fseq, tc := r.tc, first := r.first, last := r.last, payload := data.take (r.len + 1),
    pennant := r.pennant }

/-- A cell that the state of the port does not let across is dropped, and its credit returned: before UP only TC6; in HELLO and AUTH,
where only the link's own messages are accepted, and in HOLD only frames to 0xFF_C000 (R137–R139). -/
def Hub.shutOut (h : Hub) (p : Nat) (c : CellIn) : Bool :=
  let st := h.klState p
  decide (st ≠ 5 ∧ st ≠ 7) && (decide (c.tc ≠ 6) || (decide (st ≠ 4) && decide (c.flow ≠ 0xFFC000)))

/-- Drop a cell whose frame is refused; a frame counts at its FIRST cell. -/
def Hub.refuseLink (h : Hub) (p : Nat) (c : CellIn) : Hub :=
  let h := h.creditBack p c.tc
  if c.first then
    ((h.countFlow p c.flow .admission).dropEvent p c.tc).inc (Reg.TP_DROP_ADMIT p)
  else h

/-- Hand a good cell in sequence to TSC; none where no cell is free (R162). TC6 and the management handles belong
together (R129): a cell with one and not the other has no route. -/
def Hub.takeCell (h : Hub) (p : Nat) (c : CellIn) : Option Hub :=
  if h.shutOut p c then some (h.refuseLink p c)
  else if (decide (c.tc = 6)) != (decide (0xFFC000 ≤ c.flow)) then
    some ((if c.first then h.routeMiss p else h).creditBack p c.tc)
  else
    (h.linkCell p c).map fun h => if c.last && decide (c.tc ≠ 6) then h.recIn p c.flow c.fseq else h

/-- A TC6 frame's last cell has been accepted: the frame is complete (R130, R132). -/
def Hub.tc6End (h : Hub) (p flow : Nat) : Hub :=
  match h.openOf p flow with
  | some o => h.tc6Complete o
  | none => h

/-- A well-formed cell with RSEQ E and a good pennant: accepted; the last cell of a TC6 frame under a session waits for
its MAC block (R133). -/
def Hub.inSequence (h : Hub) (p : Nat) (c : CellIn) : Hub :=
  if c.tc = 6 ∧ c.last ∧ h.rdB (Reg.KL_STATE p) 8 then h.updLink p fun l => { l with macCell := some c }
  else
    match h.takeCell p c with
    | none => h.rxError p
    | some h =>
      let h := h.rxAccept p
      if c.tc = 6 ∧ c.last then h.tc6End p c.flow else h

/-- A pennant failure at receipt (R128). -/
def Hub.pennantRx (h : Hub) (p : Nat) (c : CellIn) : Hub :=
  let h := (h.inc (Reg.KL_CNT_PENNANT p)).fault .kll 1
  ((h.countFlow p c.flow .pennant).dropEvent p c.tc).rxError p

/-- The last cell of a TC6 frame was not followed by its MAC block: it is malformed (R127). -/
def Hub.macMissing (h : Hub) (p : Nat) : Hub :=
  if (h.link p).macCell.isSome then ((h.updLink p fun l => { l with macCell := none }).hdrErr p).rxError p else h

/-- The data blocks that a cell's header announces (R126, R145). -/
def RawCell.blocks (r : RawCell) : Nat := if r.void then 0 else r.len / 16 + 1

/-- Data blocks outside any cell are discarded and counted (R127). -/
def Hub.strayData (h : Hub) (p n : Nat) : Hub := (List.range n).foldl (fun h _ => h.hdrErr p) h

/-- A cell crosses the IDLE_REQ that this end has sent: IDLE_NAK, and the port stays in UP (Table 5.9). (Log entry 27, DEDUCED.) -/
def Hub.idleCrossed (h : Hub) (p : Nat) : Hub :=
  if (h.link p).idleReq then (h.updLink p fun l => { l with idleReq := false }).emit (.block p (idleBlock 2)) else h

/-- A cell arrives (R143, R145). -/
def Hub.cellRx (h : Hub) (p : Nat) (header data : List Byte) (cut : Bool) : Hub :=
  let h := (h.macMissing p).idleCrossed p
  let r := rawCell header
  let h := h.strayData p ((data.length + 15) / 16 - r.blocks)
  let e := (h.link p).rxNext
  let h := if r.check ∧ r.rseq = e then h.updLink p fun l => { l with nakSent := false } else h
  if r.malformed data cut then (h.hdrErr p).rxError p
  else if r.rseq = e then
    if r.void then
      (((h.linkVoid p r.flow r.fseq r.tc).inc (Reg.KL_CNT_VOID p)).rxAccept p).updLink p fun l => { l with macTried := false }
    else
      let c := r.cellIn data
      if c.pennant = pennantOf c.payload c.flow c.fseq then h.inSequence p c else h.pennantRx p c
  else if (e + 4096 - r.rseq) % 4096 ≤ 2048 then h.updLink p fun l => { l with ackDue := true }
  else h.rxError p

/-- A port in IDLE returns to UP: its lanes carry data again; one that lost lock meanwhile takes it to RECOVER
(R148, R153). -/
def Hub.wakeLink (h : Hub) (p : Nat) : Hub :=
  let h := h.updLanes p fun w => setBit (setBit w 15 false) 14 true
  if h.allLanes p 16 then h.backUp p
  else (h.updLink p fun l => { l with recoverLoss := true, deskewed := false }).setKl p 7

/-- The payload of the frame that a last cell ends. -/
def Hub.tc6Bytes (h : Hub) (p : Nat) (c : CellIn) : List Byte :=
  if c.first then c.payload
  else
    match h.openOf p c.flow with
    | some o => h.frameBytes o ++ c.payload
    | none => c.payload

/-- The MAC block after a TC6 frame's last cell (R133): a good code accepts the cell and ends the frame; a bad one
rejects the cell once, and then discards the frame and lets the link move on. A last cell whose frame has been abandoned
before is accepted and dropped. -/
def Hub.macRx (h : Hub) (p : Nat) (c : CellIn) (code : List Byte) : Hub :=
  let l := h.link p
  let h := h.updLink p fun l => { l with macCell := none }
  let orphan := !c.first && (h.openOf p c.flow).isNone
  let good := orphan || decide (code = tc6Code l.keyRx l.ctrRx c.flow c.fseq (h.tc6Bytes p c))
  if good then
    match h.takeCell p c with
    | none => h.rxError p
    | some h =>
      ((h.rxAccept p).updLink p fun l => { l with ctrRx := l.ctrRx + 1, macTried := false }).tc6End p c.flow
  else if !l.macTried then (h.updLink p fun l => { l with macTried := true }).rxError p
  else
    let h := if c.first then (h.dropEvent p 6).countFlow p c.flow .pennant
      else
        match h.openOf p c.flow with
        | some o => h.tc6Discard o
        | none => h
    let h := (((h.creditBack p 6).inc (Reg.KL_CNT_MAC p)).fault .kll 2).rxAccept p
    h.updLink p fun l => { l with ctrRx := l.ctrRx + 1, macTried := false }

/-- The check of a control block of the types that carry one passes (R122). -/
def blockGood (b : List Byte) : Bool := decide (b = checkBlock (b.take 12))

/-- A block that is no cell arrives (R122, R127). FILLER is ignored between cells. A MAC block is the code of the TC6 frame that has just
ended. Of the types with a check and of the reserved ones it is discarded and counted if the check fails or the type is reserved; what a
good one does, its own command says. Data blocks after any of them stand outside a cell. (Log entry 27, DEDUCED.) -/
def Hub.blockRx (h : Hub) (p : Nat) (b data : List Byte) : Hub :=
  let typ := (b.getD 0 0).toNat
  let h :=
    match (h.link p).macCell with
    | some c => if typ = 0x5A then h.macRx p c (b.drop 1) else h.macMissing p
    | none => h
  let h :=
    if typ = 0x1E ∨ typ = 0x5A then h
    else if [0x2D, 0x4B, 0x4C, 0x66, 0x7E].contains typ && blockGood b then h
    else h.hdrErr p
  h.strayData p ((data.length + 15) / 16)

/-- A cell or another block arrives; a cell wakes a port in IDLE first (R148). -/
def Hub.cellOrBlock (h : Hub) (p : Nat) (header data : List Byte) (cut : Bool) : Hub :=
  if header.getD 0 0 = 0xC5#8 then (if h.klState p = 6 then h.wakeLink p else h).cellRx p header data cut
  else h.blockRx p header data

/-- CELL_RX (R143): in a state in which blocks are received, RECOVER included, since R146 stops only what this end sends; in IDLE
the cell wakes the port first (R148). -/
def execCellRx (p : LinkNo) (header data : List Byte) (cut : Bool) (s : State) : Answer :=
  actT s (s.hub.hears p && decide (2 ≤ s.hub.klState p ∧ s.hub.klState p ≤ 8)) fun h => h.cellOrBlock p header data cut

/-- MAC_BLOCK_RX (R133). -/
def execMacBlockRx (p : LinkNo) (code : List Byte) (s : State) : Answer :=
  actT s (s.hub.hears p && (s.hub.link p).macCell.isSome) fun h =>
    match (h.link p).macCell with
    | some c => h.macRx p c code
    | none => h

/-! ### Credit and replay (R140–R146) -/

/-- REPLAY_MAX in force: 0 acts as 1. -/
def Hub.replayMax (h : Hub) (p : Nat) : Nat := max 1 (h.rdF (Reg.KL_REPLAY_CFG p) 15 12)

/-- TMO in force, in ns (Table 5.11). -/
def Hub.replayTmo (h : Hub) (p : Nat) : Nat := 1000 * clampN 1 1000 (h.rdF (Reg.KL_REPLAY_CFG p) 25 16)

/-- A replay starts at RSEQ r, and TMO runs anew; the REPLAY_MAX-th in a row at one RSEQ puts a port in UP into RECOVER instead
(R144, R146). -/
def Hub.startReplay (h : Hub) (p r : Nat) : Hub :=
  let l := h.link p
  let run := if l.run ≠ 0 ∧ l.runSeq = r then l.run + 1 else 1
  let h := h.updLink p fun l => { l with run := run, runSeq := r, ackAt := h.mono }
  if h.replayMax p ≤ run ∧ h.klState p = 5 then
    ((h.updLink p fun l => { l with recoverLoss := false, replay := none }).fault .kll 4).setKl p 7
  else h.updLink p fun l => { l with replay := some r }

/-- An acknowledged cell is sampled (Table 20.1): ACK from its first transmission; HOP to its last one, with the lane
latencies of Table 1.3. -/
def Hub.ackSample (h : Hub) (p r : Nat) (c : CellSt) : Hub :=
  match (h.link p).times.find? fun x => x.rseq = r with
  | none => h
  | some x =>
    let h := h.histSample 5 (some p) (some c.tc) (some c.flow) (h.mono - x.first : Nat)
    h.histSample 1 (some p) (some c.tc) (some c.flow) ((x.last : Int) + h.txLead p + 96 - c.arr) x.again

/-- An acknowledgement releases the replay references up to and including ACK_SEQ (R144). -/
def Hub.ackTo (h : Hub) (p ack : Nat) : Hub :=
  let h := h.wrF (Reg.KL_REPLAY_STAT p) 23 12 ack
  let l := (h.link p).unacked
  if l.any fun e => e.1 = ack then
    let gone := (l.takeWhile fun e => e.1 ≠ ack) ++ (l.filter fun e => e.1 = ack)
    let h := gone.foldl (fun h e =>
      let h := match h.cell e.2 with
        | some c => (h.recAck p c).ackSample p e.1 c
        | none => h
      h.dropReplay p e.2) h
    h.updLink p fun x => { x with
      unacked := x.unacked.drop gone.length
      times := x.times.filter fun c => ¬ gone.any fun e => e.1 = c.rseq
      codes := x.codes.filter fun c => ¬ gone.any fun e => e.1 = c.1
      run := 0
      ackAt := h.mono
      replay := match x.replay with
        | some r => if gone.any fun e => e.1 = r then ((x.unacked.drop gone.length).head?).map (·.1) else some r
        | none => none }
  else h

/-- A NAK: the cell after ACK_SEQ is sent again, unless it is not among the unacknowledged ones, a running replay
has still to reach it, or a timeout of the same cycle has started one (R144, R153). -/
def Hub.nakRx (h : Hub) (p ack : Nat) : Hub :=
  let h := h.inc (Reg.KL_CNT_NAK p)
  let r := (ack + 1) % 4096
  let l := h.link p
  if (l.unacked.any fun e => e.1 = r) && decide (l.replayAt ≠ some h.mono) then
    match l.replay with
    | some n =>
      let pos := fun x => l.unacked.findIdx fun e => e.1 = x
      if pos r < pos n then h.startReplay p r else h
    | none => h.startReplay p r
  else h

/-- OUT of a class after a count of returns (R141). -/
def outAfter (sent ret : Nat) : Nat := (sent + 65536 - ret % 65536) % 65536

/-- A good credit block (R141): a count that would make OUT exceed 32,767 is a credit error and the block is ignored;
else HAND rises by the advance, the acknowledgement and the NAK act. -/
def Hub.creditRx (h : Hub) (p : Nat) (hi nak : Bool) (ack : Nat) (ret : List Nat) : Hub :=
  let base := if hi then 4 else 0
  let l := h.link p
  if (List.range 4).any fun k => 32767 < outAfter (l.sentCum.getD (base + k) 0) (ret.getD k 0) then h.fault .kll 3
  else
    let h := (List.range 4).foldl (fun h k => h.updLink p fun l =>
      let old := l.retRx.getD (base + k) 0
      let new := ret.getD k 0 % 65536
      { l with
        retRx := putAt l.retRx (base + k) new
        hand := modAt l.hand (base + k) fun n => n + (((new + 65536 - old) % 65536 : Nat) : Int) }) h
    let h := (h.updLink p fun l => { l with creditRx := true }).ackTo p ack
    if nak then h.nakRx p ack else h

/-- A credit block arrives (R122, R141). -/
def Hub.creditIn (h : Hub) (p : Nat) (hi nak : Bool) (ack : BitVec 12) (ret : List (BitVec 16)) (crcGood : Bool) : Hub :=
  let h := h.macMissing p
  if crcGood then h.creditRx p hi nak ack.toNat (ret.map fun (x : BitVec 16) => x.toNat) else h.hdrErr p

/-- CREDIT_BLOCK_RX (R141): a CREDIT_LO or CREDIT_HI block; one whose check fails is discarded and counted (R122). -/
def execCreditBlockRx (p : LinkNo) (hi nak : Bool) (ack : BitVec 12) (ret : List (BitVec 16)) (crcGood : Bool)
    (s : State) : Answer :=
  actT s (s.hub.hears p && decide (2 ≤ s.hub.klState p ∧ s.hub.klState p ≤ 8)) fun h => h.creditIn p hi nak ack ret crcGood

/-- CREDIT_BLOCK_SEND (R140): CREDIT_LO and CREDIT_HI go out, and every return has been sent. -/
def execCreditBlockSend (p : LinkNo) (s : State) : Answer :=
  act s (s.hub.linkUp p && decide (2 ≤ s.hub.klState p ∧ s.hub.klState p ≤ 8 ∧ s.hub.klState p ≠ 6)) fun h =>
    ((h.creditBlock p false false).creditBlock p true false).updLink p fun l =>
      { l with
        retSent := l.retCum
        ackDue := false
        limEff := l.limEff.zipIdx.map fun e => if l.held.getD e.2 0 ≤ h.rxLimit p e.2 then 0 else e.1 }

/-- TMO has passed without an advance of ACK_SEQ (R144). -/
def Hub.replayLate (h : Hub) (p : Nat) : Hub :=
  match (h.link p).unacked with
  | [] => h
  | (r, _) :: _ => (h.updLink p fun l => { l with replayAt := some h.mono }).startReplay p r

/-- REPLAY_TIMEOUT (R144): ACK_SEQ has not advanced, and no replay has started, for TMO; a replay from the oldest unacknowledged cell.
(Log entry 27, DEDUCED.) -/
def execReplayTimeout (p : LinkNo) (s : State) : Answer :=
  actT s (s.hub.linkUp p && decide (2 ≤ s.hub.klState p ∧ s.hub.klState p ≤ 8 ∧ s.hub.klState p ≠ 7)
      && decide ((s.hub.link p).ackAt + s.hub.replayTmo p ≤ s.hub.mono)) fun h => h.replayLate p

/-- RECOVER ends well (R146): the sender replays from the oldest cell not acknowledged. -/
def Hub.recovered (h : Hub) (p : Nat) : Hub :=
  let h := h.updLink p fun l => { l with run := 0, replay := (l.unacked.head?).map (·.1) }
  (h.inc (Reg.KL_CNT_RETRAIN p)).backUp p

/-- RECOVER_COMPLETE (R135, R146): with the lanes locked and deskewed and a credit block from the peer the port returns to UP, and
the sender replays from the peer's ACK_SEQ + 1. -/
def execRecoverComplete (p : LinkNo) (s : State) : Answer :=
  actT s (s.hub.linkUp p && decide (s.hub.klState p = 7) && s.hub.allLanes p 16
      && (s.hub.link p).deskewed && (s.hub.link p).creditRx) fun h => h.recovered p

/-- RECOVER_TIMEOUT (R135): after 200 µs DOWN, with LAST_FAIL 0x7 after a replay limit, 0x8 after a lock loss. -/
def execRecoverTimeout (p : LinkNo) (s : State) : Answer :=
  actT s (s.hub.linkUp p && decide (s.hub.klState p = 7) && decide ((s.hub.link p).since + 200000 ≤ s.hub.mono)) fun h =>
    h.klDown p (some (if (h.link p).recoverLoss then 8 else 7))

/-- Electrical idle is ordered on the lanes of a port, where IDLE_EN allows it (R105); the far end does the same, so that the lane's input
falls silent (R106). (Log entry 26, DEDUCED.) -/
def Hub.idleLanes (h : Hub) (p : Nat) : Hub :=
  (h.portLanes p).foldl (fun h l =>
    if h.rdB (Reg.LN_CFG l) 2 then (h.wrB (Reg.LN_STAT l) 15 true).wrB (Reg.LN_STAT l) 14 false else h) h

/-- BYE arrives (R135, R429). -/
def Hub.byeIn (h : Hub) (p : Nat) (reason : Byte) : Hub :=
  let h := h.klDown p (some 9)
  if reason = 0x4E#8 then (h.updLink p fun l => { l with napHeld := true }).idleLanes p else h

/-- BYE_RX (R135, R429): DOWN with LAST_FAIL 0x9; a BYE with reason 0x4E holds the port in DOWN, its lanes in electrical
idle. In HELLO and AUTH the message is discarded (R137). -/
def execByeRx (p : LinkNo) (reason : Byte) (s : State) : Answer :=
  actT s (s.hub.hears p && decide (4 ≤ s.hub.klState p ∧ s.hub.klState p ≤ 8)) fun h => h.byeIn p reason

/-! ### Idle (R147, R148) -/

/-- The idle conditions of R147. -/
def Hub.idleReady (h : Hub) (p : Nat) : Bool :=
  let l := h.link p
  decide (h.klState p = 5) && h.rdB (Reg.KL_CFG p) 5 && !h.keepAwake p && decide (h.ttSource ≠ some p)
    && decide (h.pendTotal p = 0) && l.unacked.isEmpty && decide (l.retCum = l.retSent) && !l.ackDue

/-- The port is in IDLE, its lanes in electrical idle; a port that has become keep-awake meanwhile stays in UP and wakes its peer
(R24). -/
def Hub.enterIdle (h : Hub) (p : Nat) : Hub :=
  let h := h.updLink p fun l => { l with idleReq := false }
  if h.keepAwake p then h.emit (.wake p) else (h.idleLanes p).setKl p 6

/-- IDLE_REQUEST (R147): the conditions have held for KLL_IDLE_HOLD, 0 of which means never. -/
def execIdleRequest (p : LinkNo) (s : State) : Answer :=
  act s (s.hub.linkUp p && s.hub.idleReady p && decide (s.hub.rdF Reg.KLL_IDLE_HOLD 15 0 ≠ 0)) fun h =>
    (h.emit (.block p (idleBlock 0))).updLink p fun l => { l with idleReq := true }

/-- IDLE_REQ arrives in UP (R147). -/
def Hub.idleAsked (h : Hub) (p : Nat) : Hub :=
  let h := h.macMissing p
  if (h.link p).idleReq then h.enterIdle p
  else if h.idleReady p then (h.emit (.block p (idleBlock 1))).enterIdle p
  else h.emit (.block p (idleBlock 2))

/-- IDLE_REQ_RX (R147): an IDLE_REQ that crosses this end's own is an IDLE_ACK; else it is acknowledged if the
conditions hold here, and refused otherwise. -/
def execIdleReqRx (p : LinkNo) (s : State) : Answer :=
  actT s (s.hub.hears p && decide (s.hub.klState p = 5)) fun h => h.idleAsked p

/-- IDLE_ACK_RX (R148). -/
def execIdleAckRx (p : LinkNo) (s : State) : Answer :=
  actT s (s.hub.hears p && decide (s.hub.klState p = 5) && (s.hub.link p).idleReq) fun h => (h.macMissing p).enterIdle p

/-- IDLE_NAK_RX (R147): the port stays in UP. -/
def execIdleNakRx (p : LinkNo) (s : State) : Answer :=
  act s (s.hub.hears p && (s.hub.link p).idleReq) fun h => (h.macMissing p).updLink p fun l => { l with idleReq := false }

/-- LINK_WAKE (R148): a cell is queued for an idle port, or the port has become keep-awake (R24); FILLER rows, then traffic. -/
def execLinkWake (p : LinkNo) (s : State) : Answer :=
  actT s (s.hub.linkUp p && decide (s.hub.klState p = 6) && (decide (s.hub.pendTotal p ≠ 0) || s.hub.keepAwake p)) fun h =>
    (h.emit (.wake p)).wakeLink p

/-! ### Time transfer (R149–R151) -/

/-- The child starts an exchange on its source port: REQ with the next TT_SEQ, t1 recorded (R149). -/
def Hub.startExchange (h : Hub) (p : Nat) (viaOp : Bool) : Hub :=
  let x := h.xfer
  let seq := (x.seq + 1) % 65536
  ({ h with xfer := { x with seq := seq, busy := true, t1 := h.stamp16, t4 := none, reqAt := h.mono, viaOp := viaOp || x.viaOp } }).emit
    (.block p (timeBlock 0 seq))

/-- The source port, when it is in UP. -/
def Hub.ttUp (h : Hub) : Option Nat := h.ttSource.bind fun p => if h.klState p = 5 then some p else none

/-- TIME_EXCHANGE_START (R149): every 1 ms of the child's cell time. -/
def execTimeExchangeStart (s : State) : Answer :=
  act s (s.hub.up .kll && s.hub.ttUp.isSome && !s.hub.xfer.busy
      && s.hub.xfer.lastTick.all fun t => t + 1000000 ≤ s.hub.mono) fun h =>
    match h.ttUp with
    | some p => { h with xfer := { h.xfer with lastTick := some h.mono } }.startExchange p false
    | none => h

/-- A TIME REQ arrives at the parent (R149). -/
def Hub.timeAsked (h : Hub) (p : Nat) (seq : BitVec 16) (delay : Nat) : Hub :=
  let h := h.macMissing p
  let t2 := h.stamp16
  let t3 := t2 + delay
  (h.emit (.block p (timeBlock 1 seq.toNat))).postNear p 0x0020
    (beBytes 2 seq.toNat ++ beBytes 8 (t2 / 16) ++ beBytes 1 (t2 % 16) ++ beBytes 8 (t3 / 16) ++ beBytes 1 (t3 % 16))

/-- TIME_REQ_RX (R149): the parent records t2, sends MARK `after` sixteenths of a ns later and records t3, and answers
with TIME_RESP. -/
def execTimeReqRx (p : LinkNo) (seq : BitVec 16) (delay : Nat) (s : State) : Answer :=
  actT s (s.hub.hears p && decide (s.hub.klState p = 5) && decide (delay ≤ 160000)) fun h => h.timeAsked p seq delay

/-- TIME_MARK_RX (R149): the child records t4 on the MARK of its running exchange. -/
def execTimeMarkRx (p : LinkNo) (seq : BitVec 16) (s : State) : Answer :=
  act s (s.hub.hears p && decide (s.hub.ttSource = some p.val) && s.hub.xfer.busy
      && decide (seq.toNat = s.hub.xfer.seq)) fun h =>
    let h := h.macMissing p
    { h with xfer := { h.xfer with t4 := some h.stamp16 } }

/-- The runs of Table 5.10's LOCKED (R151): set after 8 exchanges in a row with |θ| ≤ 2 ns, cleared after 2 in a row with
|θ| > 20 ns. The runs outlive a loss of UP of the source port. (Log entry 59, DESIGN CHOICE.) -/
def Hub.ttRuns (h : Hub) (th : Int) : Hub :=
  let x := h.xfer
  let good := if th.natAbs ≤ 32 then x.good + 1 else 0
  let bad := if 320 < th.natAbs then x.bad + 1 else 0
  let h := { h with xfer := { x with good := good, bad := bad } }
  if 8 ≤ good then h.setTtLocked true else if 2 ≤ bad then h.setTtLocked false else h

/-- An exchange completes (R150): θ and d in 1/16 ns. -/
def Hub.ttDone (h : Hub) (p : Nat) (t2 t3 t4 : Int) : Hub :=
  let x := h.xfer
  let asym := (BitVec.ofNat 16 (h.rdF (Reg.KL_TT_ASYM p) 15 0)).toInt
  let th := ((t4 - t3) - (t2 - (x.t1 : Int)) + asym) / 2
  let d := ((t2 - (x.t1 : Int)) + (t4 - t3)) / 2
  let h := { h with xfer := { x with busy := false, viaOp := false } }
  let h := (h.incFW Reg.KLL_TT_STAT 15 8).wrF Reg.KLL_TT_STAT 23 16 0
  let h := (h.wr Reg.KLL_TT_OFS (swordHold th)).ttRuns th
  let h := if h.timeSrc = 1 then (h.theta th 1000000).setLocked (h.rdB Reg.KLL_TT_STAT 0) else h
  if x.viaOp then h.opResult .kll 0x11 (mbxOk [swordHold th, swordHold d]) else h

/-- TIME_RESP_RX (R150): t2 and t3 of the parent, in ns and sixteenths. -/
def execTimeRespRx (p : LinkNo) (seq : BitVec 16) (t2 : BitVec 64) (f2 : BitVec 4) (t3 : BitVec 64) (f3 : BitVec 4)
    (s : State) : Answer :=
  act s (s.hub.hears p && decide (s.hub.ttSource = some p.val) && s.hub.xfer.busy
      && decide (seq.toNat = s.hub.xfer.seq) && s.hub.xfer.t4.isSome) fun h =>
    match h.xfer.t4 with
    | some t4 => h.ttDone p (t2.toNat * 16 + f2.toNat : Nat) (t3.toNat * 16 + f3.toNat : Nat) (t4 : Nat)
    | none => h

/-- The running exchange is missed (R149, R151). -/
def Hub.exchangeMissed (h : Hub) : Hub :=
  let op := h.xfer.viaOp
  let h := { h with xfer := { h.xfer with busy := false, viaOp := false, good := 0 } }
  let h := h.incF Reg.KLL_TT_STAT 23 16
  let h := if 4 ≤ h.rdF Reg.KLL_TT_STAT 23 16 then h.setTtLocked false else h
  if op then
    match h.ttUp with
    | some p => h.startExchange p true
    | none => h.opResult .kll 0x11 (mbxErr 0x81)
  else h

/-- TIME_EXCHANGE_MISS (R149, R151): 500 µs after its REQ the exchange counts as missed, and 4 in a row clear LOCKED. An exchange that
TT_EXCHANGE_NOW waits for is made again at once. A miss ends the run of good exchanges and leaves that of bad ones.
(Log entry 59, DESIGN CHOICE.) -/
def execTimeExchangeMiss (s : State) : Answer :=
  act s (s.hub.up .kll && s.hub.xfer.busy && decide (s.hub.xfer.reqAt + 500000 ≤ s.hub.mono)) Hub.exchangeMissed

/-! ### Mailbox (R155) -/

/-- The running PEER_CERT_READ (R155). -/
def Hub.peerCertOp (h : Hub) : Hub × Option MbxResult :=
  let p := (h.arg .kll 0).toNat
  let o := (h.arg .kll 1).toNat
  if 8 < p ∨ o % 4 ≠ 0 then done h (mbxErr 0x02)
  else if !portPresent h.straps p then done h (mbxErr 0x04)
  else if !(h.link p).gotChain then done h (mbxErr 0x80)
  else if (h.link p).chain.length ≤ o then done h (mbxErr 0x02)
  else
    let c := (h.link p).chain
    done h (mbxOk (w32 c.length :: (List.range 5).map fun k => w32 (leVal ((c.drop (o + 4 * k)).take 4))))

/-- PEER_CERT_READ (R155): 20 bytes of the peer's chain as received. -/
def execPeerCertRead (s : State) : Answer :=
  mbxAct s .kll 0x10 Hub.peerCertOp

/-- The running TT_EXCHANGE_NOW (R155). -/
def Hub.exchangeNowOp (h : Hub) : Hub × Option MbxResult :=
  match h.ttUp with
  | none => done h (mbxErr 0x81)
  | some p => if h.xfer.viaOp then (h, none) else (h.startExchange p true, none)

/-- TT_EXCHANGE_NOW (R155): an exchange at once; it completes when its TIME_RESP has come. An exchange that runs is given
up uncounted. (Log entry 59, DESIGN CHOICE.) -/
def execTtExchangeNow (s : State) : Answer :=
  mbxAct s .kll 0x11 Hub.exchangeNowOp

end Sys2Proof.Machine
end

