-- ==== Sys2Proof/Machine/Ppc.lean ====
section
/-! DEFINITION. The power ports (R400–R423): the tick, trips, retries, power-good, input window, presence. -/

namespace Sys2Proof.Machine

/-- A power channel. -/
def Hub.chan (h : Hub) (n : Nat) : PpcChan := Tab.get (fun _ => {}) h.ppc n

/-- Change a power channel. -/
def Hub.updChan (h : Hub) (n : Nat) (f : PpcChan → PpcChan) : Hub :=
  { h with ppc := Tab.upd (fun _ => {}) h.ppc n f }

/-- PC_STAT.STATE (Table 16.2): 0 OFF, 1 DETECT, 2 RAMP, 3 ON, 4 RETRY_WAIT, 5 LATCHED, 6 INPUT_WAIT. -/
def Hub.pcState (h : Hub) (n : Nat) : Nat := h.rdF (Reg.PC_STAT n) 3 0

/-- The gate is driven by the state: RAMP or ON. -/
def Hub.pcDriven (h : Hub) (n : Nat) : Bool := decide (h.pcState n = 2 ∨ h.pcState n = 3)

/-- RETRY_MAX in force. -/
def Hub.pcRetryMax (h : Hub) (n : Nat) : Nat := h.rdF (Reg.PC_CFG n) 9 6

/-- RSENSE, 1 to 500 tenths of a mΩ. -/
def Hub.pcSense (h : Hub) (n : Nat) : Nat := clampN 1 500 (h.rdF (Reg.PC_SENSE n) 9 0)

/-- The sense voltage of ILIM in µV, 5 to 60 mV (R403). -/
def Hub.pcLimit (h : Hub) (n : Nat) : Nat := clampN 5000 60000 (h.rdF (Reg.PC_ILIM n) 12 0 * h.pcSense n)

/-- The sense voltage of ILIM_INRUSH in µV; above ILIM it acts as ILIM (R406). -/
def Hub.pcInrush (h : Hub) (n : Nat) : Nat :=
  min (h.pcLimit n) (clampN 5000 60000 (h.rdF (Reg.PC_ILIM n) 28 16 * h.pcSense n))

/-- The fault timer's limit in ticks: FT_RAMP in RAMP, FT_RUN in ON (R407). -/
def Hub.pcFault (h : Hub) (n : Nat) : Nat :=
  if h.pcState n = 2 then clampN 100 1000000 (h.rdF (Reg.PC_FT_RAMP n) 19 0) else clampN 1 100000 (h.rdF (Reg.PC_FT_RUN n) 19 0)

/-- RETRY_DELAY in ticks. -/
def Hub.pcDelay (h : Hub) (n : Nat) : Nat := 1000 * clampN 1 10000 (h.rdF (Reg.PC_RETRY n) 15 0)

/-- RESTORE in ticks. -/
def Hub.pcHold (h : Hub) (n : Nat) : Nat := 10000 * clampN 1 6000 (h.rdF (Reg.PC_RETRY n) 31 16)

/-- DET_TIME in ticks. -/
def Hub.pcDetTime (h : Hub) (n : Nat) : Nat := 100 * clampN 1 1000 (h.rdF (Reg.PC_DET n) 15 0)

/-- TJ_TRIP in °C. -/
def Hub.pcTrip (h : Hub) (n : Nat) : Int := (clampN 25 200 (h.rdF (Reg.PC_TH_LIM n) 7 0) : Nat)

/-- TJ_RESTART in °C. -/
def Hub.pcRestart (h : Hub) (n : Nat) : Int := min (h.pcTrip n) (h.rdF (Reg.PC_TH_LIM n) 15 8 : Nat)

/-- A field as a two's-complement number of `w` bits. -/
def signedF (w v : Nat) : Int := if v < 2 ^ (w - 1) then (v : Int) else (v : Int) - 2 ^ w

/-- The FET is at or below TJ_RESTART, and with a sensor its input is in range (R404, R412). -/
def Hub.pcCool (h : Hub) (n : Nat) : Bool :=
  decide ((h.chan n).tfet ≤ h.pcRestart n * 256)
    && !(decide (h.rdF (Reg.PC_CFG n) 5 4 ≠ 0) && (h.chan n).sensorBad)

/-- The live bits of LATCHED and INPUT_FAULT (R413, R417). -/
def Hub.ppcLive (h : Hub) : Hub :=
  let h' := h.setLive .ppc 4 ((List.range 6).any fun n => h.pcState n = 5)
  h'.setLive .ppc 5 ((List.range 6).any fun n => decide (h.pcState n = 6) && !(h.chan n).inWin)

/-- PG of a channel takes a value; a change sets the attention bit PG (R416). -/
def Hub.setPg (h : Hub) (n : Nat) (v : Bool) : Hub :=
  let h := h.updChan n fun x => { x with pgCount := if v then x.pgCount else 0, pgHeld := 0 }
  if h.rdB (Reg.PC_STAT n) 4 = v then h else (h.wrB (Reg.PC_STAT n) 4 v).attn .ppc (4 * n)

/-- The channel enters a state in which the gate is off: power-good drops, and the timer is idle. -/
def Hub.pcEnter (h : Hub) (n st : Nat) : Hub :=
  let h := (h.wrF (Reg.PC_STAT n) 3 0 st).wrB (Reg.PC_STAT n) 5 false
  let h := h.updChan n fun x => { x with
    timer := 0
    fast := false
    underTicks := 0
    outTicks := 0
    inTicks := 0
    waitTicks := 0
    detTicks := 0 }
  (h.setPg n false).ppcLive

/-- The channel enters RAMP (R406). -/
def Hub.pcRamp (h : Hub) (n : Nat) : Hub := (h.pcEnter n 2).inc (Reg.PC_RAMPS n)

/-- A ramp is asked for in DETECT (Table 16.2). -/
def Hub.pcAsk (h : Hub) (n : Nat) : Hub := if (h.chan n).inWin then h.pcRamp n else h.pcEnter n 6

/-- The budget is restored (R414). -/
def Hub.pcRestore (h : Hub) (n : Nat) : Hub :=
  (h.wrF (Reg.PC_STAT n) 11 8 (h.pcRetryMax n)).wrF (Reg.PC_STAT n) 15 12 0

/-- The counter and the fault source of a trip cause (Tables 16.3 and 19.4). -/
def tripCount (cause n : Nat) : Nat × Nat :=
  match cause with
  | 1 => (Reg.PC_TRIP_FAST n, 0)
  | 2 => (Reg.PC_TRIP_TIMER n, 1)
  | 3 => (Reg.PC_TRIP_TIMER n, 1)
  | 6 => (Reg.PC_TRIP_GATE n, 3)
  | _ => (Reg.PC_TRIP_THERM n, 2)

/-- A trip (R413). -/
def Hub.pcTripped (h : Hub) (n cause : Nat) : Hub :=
  let e := tripCount cause n
  let h := (((h.wrF (Reg.PC_STAT n) 19 16 cause).inc e.1).attn .ppc (4 * n + 1)).fault .ppc e.2
  let r := h.rdF (Reg.PC_STAT n) 11 8
  if r = 0 then
    let h := (h.inc (Reg.PC_LATCHES n)).pcEnter n 5
    (h.attn .ppc (4 * n + 2)).fault .ppc 4
  else
    let h := (h.wrF (Reg.PC_STAT n) 11 8 (r - 1)).wrF (Reg.PC_STAT n) 15 12 (h.rdF (Reg.PC_STAT n) 15 12 + 1)
    h.pcEnter n 4

/-- VIN has been out of its window for 5 ticks (R417). -/
def Hub.pcInputFault (h : Hub) (n : Nat) : Hub :=
  ((((h.inc (Reg.PC_INPUT_FLT n)).attn .ppc (4 * n + 2)).fault .ppc 5).pcEnter n 6)

/-- Presence changes (R418): an insertion is counted, and starts a ramp with AUTO_ON. -/
def Hub.pcPresence (h : Hub) (n : Nat) : Hub :=
  let now := !h.rdB (Reg.PC_STAT n) 6
  let h := (h.wrB (Reg.PC_STAT n) 6 now).updChan n fun x => { x with detTicks := 0 }
  if now then
    let h := (h.inc (Reg.PC_INSERT n)).attn .ppc (4 * n + 3)
    if h.rdB (Reg.PC_CFG n) 1 then h.pcAsk n else h
  else h

/-- EN in force decides whether the channel is in OFF (Table 16.2). -/
def Hub.pcFollow (h : Hub) (n : Nat) : Hub :=
  if h.rdB (Reg.PC_CFG n) 0 then (if h.pcState n = 0 then h.pcEnter n 1 else h)
  else if h.pcState n = 0 then h
  else (h.pcEnter n 0).pcRestore n

/-! ### PC_CTRL (Table 16.2) -/

/-- PC_CTRL.ON. -/
def Hub.pcOn (h : Hub) (n : Nat) : Hub := if h.pcState n = 1 then h.pcAsk n else h

/-- PC_CTRL.OFF: it restores the budget in any state (R414). -/
def Hub.pcOff (h : Hub) (n : Nat) : Hub :=
  (if [2, 3, 4, 6].contains (h.pcState n) then h.pcEnter n 1 else h).pcRestore n

/-- PC_CTRL.CLEAR: LATCHED ends, LAST_TRIP starts again and the budget is restored. -/
def Hub.pcClear (h : Hub) (n : Nat) : Hub :=
  let h := (if h.pcState n = 5 then h.pcEnter n 1 else h).pcRestore n
  h.wrF (Reg.PC_STAT n) 19 16 0

/-- Bits of PC_CTRL are written: they act at the start of the next tick (R405). -/
def Hub.pcWrite (h : Hub) (n bits : Nat) : Hub := h.updChan n fun x => { x with ctl := x.ctl ||| bits }

/-- What was written to PC_CTRL acts, at the start of a tick: CLEAR first, and OFF over ON. (Log entry 63, DESIGN CHOICE.) -/
def Hub.pcControl (h : Hub) (n : Nat) : Hub :=
  let c := (h.chan n).ctl
  let h := h.updChan n fun x => { x with ctl := 0 }
  let h := if c.testBit 2 then h.pcClear n else h
  if c.testBit 1 then h.pcOff n else if c.testBit 0 then h.pcOn n else h

/-! ### The tick (R405) -/

/-- One pole of the model (R411): `p` in 10^-5 W, `r` in 0.01 °C/W, `tau` in 10 µs. (Log entry 38, DEDUCED.) -/
def thetaStep (p : Int) (r tau : Nat) (th : Int) : Int :=
  th + (p * r * 2 ^ 48 / 10000000 - th) / (10 * max 1 (min 1000000 tau) : Nat)

/-- Steps 1 and 2: the measurements, and the FET temperature. -/
def Hub.pcMeasure (h : Hub) (n : Nat) (m : PpcSample) : Hub :=
  let x := h.chan n
  let p : Int := if h.pcDriven n && !x.fast then ((m.vin : Int) - m.vout) * m.cur else 0
  let r := fun k => if k = 0 then h.rdF (Reg.PC_TH_R12 n) 15 0 else if k = 1 then h.rdF (Reg.PC_TH_R12 n) 31 16
    else h.rdF (Reg.PC_TH_R3 n) 15 0
  let tau := fun k => h.rdF (Reg.PC_TH_TAU1 n + 4 * k) 19 0
  let th := (List.range 3).map fun k => thetaStep p (r k) (tau k) (x.theta.getD k 0)
  let tamb := clampI (-40) 125 (signedF 8 (h.rdF (Reg.PC_TH_LIM n) 23 16))
  let model := tamb * 256 + (th.foldl (· + ·) 0) / 2 ^ 40
  let sensor := (signedF 16 (h.rdF (Reg.PC_TEMP_CAL n) 31 16) * 100 + signedF 16 (h.rdF (Reg.PC_TEMP_CAL n) 15 0) * m.temp)
    * 256 / 1000
  let mode := h.rdF (Reg.PC_CFG n) 5 4
  let t := if mode = 0 then model else if mode = 1 then sensor else max model sensor
  let off := decide (m.temp < 50 ∨ 2450 < m.temp)
  let k := if off then x.tempTicks + 1 else 0
  let uv := clampN 80 500 (h.rdF (Reg.PC_VIN_WIN n) 9 0)
  let ov := clampN 120 580 (h.rdF (Reg.PC_VIN_WIN n) 25 16)
  let inWin := if x.inWin then decide (uv * 100 ≤ m.vin ∧ m.vin ≤ ov * 100)
    else decide (uv * 101 ≤ m.vin ∧ m.vin ≤ ov * 99)
  let tenth := t * 10 / 256
  let h := h.updChan n fun x => { x with
    theta := th
    tfet := t
    tempTicks := min 10 k
    sensorBad := decide (10 ≤ k)
    inWin := inWin }
  let h := (h.wr (Reg.PC_MEAS_V n) (w32 (min 65535 m.vin + 65536 * min 65535 m.vout))).wrB (Reg.PC_STAT n) 7 inWin
  let h := (h.wrF (Reg.PC_MEAS_I n) 15 0 (min 65535 m.cur)).wrF (Reg.PC_MEAS_I n) 31 16 (BitVec.ofInt 16 tenth).toNat
  if signedF 16 (h.rdF (Reg.PC_TFET_MAX n) 15 0) < tenth then h.wrF (Reg.PC_TFET_MAX n) 15 0 (BitVec.ofInt 16 tenth).toNat
  else h

/-- Step 3: LIMIT and the fault timer (R407). -/
def Hub.pcTimer (h : Hub) (n : Nat) (m : PpcSample) : Hub :=
  let st := h.pcState n
  let lim := decide (st = 2 ∧ h.pcInrush n ≤ m.cur * h.pcSense n) || decide (st = 3 ∧ h.pcLimit n ≤ m.cur * h.pcSense n)
  (h.wrB (Reg.PC_STAT n) 5 lim).updChan n fun x => { x with
    timer := if st = 2 ∨ (st = 3 ∧ lim = true) then x.timer + 1 else 0
    underTicks := if st = 3 ∧ m.under = true then x.underTicks + 1 else 0
    outTicks := if (st = 2 ∨ st = 3) ∧ x.inWin = false then x.outTicks + 1 else 0
    inTicks := if st = 6 ∧ x.inWin = true then x.inTicks + 1 else 0
    waitTicks := if st = 4 then x.waitTicks + 1 else 0 }

/-- The lowest trip cause of this tick (Table 16.3). -/
def Hub.pcCause (h : Hub) (n : Nat) (m : PpcSample) : Option Nat :=
  let x := h.chan n
  let st := h.pcState n
  let mode := h.rdF (Reg.PC_CFG n) 5 4
  let hot := decide (h.pcTrip n * 256 ≤ x.tfet)
  let sensor := decide (h.pcTrip n * 1000 ≤ signedF 16 (h.rdF (Reg.PC_TEMP_CAL n) 31 16) * 100
    + signedF 16 (h.rdF (Reg.PC_TEMP_CAL n) 15 0) * m.temp)
  let model := decide (h.pcTrip n * 256 ≤ clampI (-40) 125 (signedF 8 (h.rdF (Reg.PC_TH_LIM n) 23 16)) * 256
    + (x.theta.foldl (· + ·) 0) / 2 ^ 40)
  if h.pcDriven n then
    if x.fast then some 1
    else if h.pcFault n ≤ x.timer then some st
    else if hot && decide (mode ≠ 1) && model then some 4
    else if decide (mode ≠ 0) && ((hot && sensor) || x.sensorBad) then some 5
    else if 10 ≤ x.underTicks then some 6
    else none
  else none

/-- The state transitions of step 4 that are no trips (Table 16.2). -/
def Hub.pcMove (h : Hub) (n : Nat) (m : PpcSample) : Hub :=
  let x := h.chan n
  match h.pcState n with
  | 1 =>
    if h.rdB (Reg.PC_CFG n) 2 then
      let present := h.rdB (Reg.PC_STAT n) 6
      let k := if (if present then decide (3500 < m.src) else decide (m.src < 2500)) then x.detTicks + 1 else 0
      if h.pcDetTime n ≤ k then h.pcPresence n
      else h.updChan n fun x => { x with detTicks := k }
    else h.updChan n fun x => { x with detTicks := 0 }
  | 2 =>
    if 5 ≤ x.outTicks then h.pcInputFault n
    else if m.vin ≤ m.vout + 250 ∧ m.cur * h.pcSense n < h.pcInrush n then
      ((h.wrF (Reg.PC_STAT n) 3 0 3).wrB (Reg.PC_STAT n) 5 false).updChan n fun x => { x with timer := 0 }
    else h
  | 3 => if 5 ≤ x.outTicks then h.pcInputFault n else h
  | 4 => if h.pcDelay n ≤ x.waitTicks ∧ h.pcCool n = true then h.pcRamp n else h
  | 6 => if 10000 ≤ x.inTicks ∧ h.pcCool n = true then h.pcRamp n else h
  | _ => h

/-- VOUT lies in the power-good window. -/
def Hub.pcVoutOk (h : Hub) (n vout : Nat) : Bool :=
  decide (h.rdF (Reg.PC_PG_WIN n) 9 0 * 100 ≤ vout ∧ vout ≤ h.rdF (Reg.PC_PG_WIN n) 25 16 * 100)

/-- PG_DELAY in ticks. -/
def Hub.pcPgDelay (h : Hub) (n : Nat) : Nat := clampN 1 1000000 (h.rdF (Reg.PC_PG_DELAY n) 19 0)

/-- The power-good rule of step 4 (R415, R416); `timer` is the fault timer after step 3. -/
def Hub.pcGood (h : Hub) (n : Nat) (m : PpcSample) (timer : Nat) : Hub :=
  let on := decide (h.pcState n = 3)
  let v := h.pcVoutOk n m.vout
  let x := h.chan n
  if h.rdB (Reg.PC_STAT n) 4 then
    if !on || !v || (decide (timer = 1) && h.rdB (Reg.PC_CFG n) 3) then h.setPg n false
    else
      let k := x.pgHeld + 1
      let h := h.updChan n fun x => { x with pgHeld := k }
      if h.pcHold n ≤ k then h.pcRestore n else h
  else if on && v && decide (timer = 0) then
    if h.pcPgDelay n ≤ x.pgCount + 1 then h.setPg n true
    else h.updChan n fun x => { x with pgCount := x.pgCount + 1 }
  else
    let h := if on && v && decide (timer = 1) && decide (h.pcPgDelay n ≤ x.pgCount + 1) then h.inc (Reg.PC_PG_RACE n) else h
    h.updChan n fun x => { x with pgCount := 0 }

/-- One channel's tick (R405). -/
def Hub.pcTick (h : Hub) (n : Nat) (m : PpcSample) : Hub :=
  let h := (((h.pcFollow n).pcControl n).pcMeasure n m).pcTimer n m
  let timer := (h.chan n).timer
  let h := match h.pcCause n m with
    | some c => h.pcTripped n c
    | none => h.pcMove n m
  (h.pcGood n m timer).ppcLive

/-- PC_TFET_MAX.CLR: the maximum starts again from the present temperature (Table 16.5). -/
def Hub.tfetClr (h : Hub) (n : Nat) : Hub :=
  h.wrF (Reg.PC_TFET_MAX n) 15 0 (BitVec.ofInt 16 ((h.chan n).tfet * 10 / 256)).toNat

/-! ### Commit and summary -/

/-- What the commit of PPC's fields does (R404, R414). -/
def Hub.ppcCommit (h old : Hub) : Hub :=
  (List.range 6).foldl (fun h n =>
    let m := h.pcRetryMax n
    let h := if m = old.pcRetryMax n then h
      else
        let c := min m (h.rdF (Reg.PC_STAT n) 15 12)
        (h.wrF (Reg.PC_STAT n) 15 12 c).wrF (Reg.PC_STAT n) 11 8 (m - c)
    h.pcFollow n) h

/-- PPC_SUMMARY (R422). -/
def Hub.ppcSummary (h : Hub) : Word :=
  w32 ((List.range 6).foldl (fun a n => a + h.pcState n * 16 ^ n + b2n (h.rdB (Reg.PC_STAT n) 4) * 2 ^ (24 + n)) 0)

end Sys2Proof.Machine
end

