-- ==== Sys2Proof/Machine/Power.lean ====
section
/-! DEFINITION. PMU: clock grants, voltage and frequency, PMBus, temperature, always-on load, wake sources (R20–R26, R49, R59,
R63, R436–R441). -/

namespace Sys2Proof.Machine

/-- Change the power state record. -/
def Hub.updPower (h : Hub) (f : Power → Power) : Hub := { h with power := f h.power }

/-- The steward reports its rate to TSS while its firmware runs (R227). (Log entry 57, DESIGN CHOICE: a free value.) -/
def Hub.showSteward (h : Hub) : Hub :=
  h.rateReport 0x11 (if h.power.fwRunning then (Config.innerRate 0x11).toNat else 0)

/-! ### Clock requests and grants (R20, R24) -/

/-- The blocks of PMU_HOLD1–12: masthead positions 1 to 12 (Table 17.10). -/
def fastBlock (b : Block) : Bool := decide (1 ≤ b.idx ∧ b.idx ≤ 12)

/-- The block whose clocks a keep-awake port holds (R24, R26). -/
def portBlocks (p : Nat) : List Block :=
  if p ≤ 8 then [.kll, .lnx] else if p ≤ 0x0C then [.eth] else if p = 0x0D then [.pxb] else if p ≤ 0x0F then [.dse]
  else if p = 0x10 then [.usb] else if p = 0x11 then [.stw] else [.vin]

/-- A keep-awake mark holds the clocks of the block (R24), and so does an armed commit (R74). -/
def Hub.clockHeld (h : Hub) (b : Block) : Bool :=
  !(h.hdr b).waiting.isEmpty || h.anyAwake && (decide (b = .tsc ∨ b = .tss ∨ b = .fcm)
    || (List.range 22).any fun p => h.keepAwake p && (portBlocks p).contains b)

/-- PMU_STATE.STATE shows a state (Table 17.10). -/
def Hub.showState (h : Hub) (code : Nat) : Hub := h.wrF Reg.PMU_STATE 2 0 code

/-- A STATE_REQ runs that named the state with a code, or RUN. -/
def Hub.reqFor (h : Hub) (code : Nat) : Bool :=
  decide ((h.arg .pmu 0).toNat = code) || decide ((h.arg .pmu 0).toNat = 0)

/-- SIT's cycle after a stay outside RUN: DOZE is not counted in it (R477), and after NAP and DORMANT it begins anew. -/
def Hub.sitBack (h : Hub) (left : Nat) : Hub :=
  let away := h.mono - h.power.since
  { h with sit :=
    if left = 1 then { h.sit with start := h.sit.start + away, dueAt := h.sit.dueAt + away } else Sit.fresh h.mono }

/-- The hub is back in RUN (R425): the state left and the wake sources are recorded, and the STATE_REQ that asked for the state left,
or for RUN, completes. -/
def Hub.backToRun (h : Hub) (left wake us : Nat) : Hub :=
  let h := ((h.showState 0).wrF Reg.PMU_STATE 9 7 left).wrF Reg.PMU_STATE 15 10 wake
  let h := ((h.sitBack left).updPower fun x => { x with state := .run, wakeLatch := none, idleFrom := h.mono }).attn .pmu 0
  if h.reqFor left then h.opResult .pmu 0x10 (mbxOk [w32 wake, w32 us]) else h

/-- DOZE ends (R426), with the wake sources that asserted. -/
def Hub.dozeExit (h : Hub) (wake : Nat) : Hub :=
  if h.power.state = .doze then h.backToRun 1 wake ((h.mono - h.power.since) / 1000) else h

/-- PXB orders electrical idle on port P's lanes in L0s and L1 (R105): once its clocks are released while the link is trained, until it
asks for them again. (Log entry 52, DESIGN CHOICE.) -/
def Hub.pxIdle (h : Hub) (b : Block) (off : Bool) : Hub :=
  if b = .pxb ∧ h.rdB Reg.PX_STAT 0 then h.edgeIdle 0x0D off else h

/-- CLOCK_REQUEST (R20, R426): it ends DOZE. -/
def execClockRequest (b : Block) (s : State) : Answer :=
  act s (s.hub.up b && fastBlock b) fun h => ((h.updHdr b fun x => { x with clkReq := true }).pxIdle b false).dozeExit 0

/-- CLOCK_GRANT (R20). -/
def execClockGrant (b : Block) (s : State) : Answer :=
  act s (s.hub.up b && decide (s.hub.power.state = .run) && (s.hub.hdr b).clkReq) fun h =>
    h.updHdr b fun x => { x with clkGranted := true }

/-- IDLE_HOLD_EXPIRE (R20, R24). -/
def execIdleHoldExpire (b : Block) (s : State) : Answer :=
  act s (s.hub.up b && (s.hub.hdr b).clkGranted && !s.hub.clockHeld b) fun h =>
    ((h.updHdr b fun x => { x with clkReq := false, clkGranted := false }).updPower fun x =>
      { x with idleFrom := h.mono }).pxIdle b true

/-- DOZE_EXIT (R426). -/
def execDozeExit (s : State) : Answer :=
  act s (s.hub.up .pmu && decide (s.hub.power.state = .doze)) fun h => h.dozeExit 0

/-! ### Wake sources (R438, R439) -/

/-- A STATE_REQ for NAP or DORMANT that waits for its write-backs ends with an error; the hub is in RUN (R428). -/
def Hub.enterEnd (h : Hub) (err : Nat) : Hub :=
  if h.rdF Reg.PMU_STATE 2 0 = 4 then (h.showState 0).opResult .pmu 0x10 (mbxErr err) else h

/-- A wake source asserts (R438); one before the point of no return ends an entry (R428). -/
def Hub.wakeEvent (h : Hub) (src : Nat) : Hub :=
  let on := decide (src = 3) || h.rdB Reg.PMU_WAKE_EN src
  match h.power.state with
  | .run => if on then (h.attn .pmu 1).enterEnd 0x81 else h
  | .doze => h.dozeExit (2 ^ src)
  | .off => h
  | _ =>
    if on && h.power.wakeLatch.isNone then
      (h.updPower fun x => { x with wakeLatch := some src }).showState 5
    else h

/-- WAKE_EVENT (R438): a source of Table 17.7 asserts. -/
def execWakeEvent (src : Fin 6) (s : State) : Answer := act s (s.hub.up .pmu) fun h => h.wakeEvent src

/-- PMU_WAKE_TIMER as it reads: remaining keep-clock ticks. -/
def Hub.wakeTimer (h : Hub) : Word := w32 h.power.timer

/-- A write of PMU_WAKE_TIMER: it counts down from there; 0 is off (R439). -/
def Hub.wakeTimerWrite (h : Hub) (v : Word) : Hub :=
  h.updPower fun x => { x with timer := v.toNat }

/-- WAKE_TIMER_EXPIRE (R439): the keep-clock edge at which the count goes from 1 to 0; while the main die sleeps the ticks before it
have gone by. -/
def execWakeTimerExpire (s : State) : Answer :=
  act s (s.hub.up .pmu && (decide (s.hub.power.timer = 1) || decide (s.hub.power.timer ≠ 0) && !s.hub.mainUp)) fun h =>
    (((h.updPower fun x => { x with timer := 0 }).attn .pmu 5).wakeEvent 4)

/-- WAKE_CMP_CROSS (R439): WAKE_CMP has crossed its threshold to a level for DEBOUNCE kt; in the selected direction it is a wake
source. -/
def execWakeCmpCross (level : Bool) (s : State) : Answer :=
  act s (s.hub.up .pmu && decide (s.hub.rdB Reg.PMU_WAKE_CMP 7 ≠ level)) fun h =>
    let h := h.wrB Reg.PMU_WAKE_CMP 7 level
    if h.rdB Reg.PMU_WAKE_CMP 6 = !level then h.wakeEvent 2 else h

/-! ### Voltage and frequency (R440, R441) -/

/-- The voltage of a point in mV (PMU_VPT01, PMU_VPT23). -/
def Hub.vPoint (h : Hub) (p : Nat) : Nat :=
  match p with
  | 0 => clampN 760 840 (h.rdF Reg.PMU_VPT01 9 0)
  | 1 => clampN 700 780 (h.rdF Reg.PMU_VPT01 25 16)
  | 2 => clampN 620 700 (h.rdF Reg.PMU_VPT23 9 0)
  | _ => clampN 560 640 (h.rdF Reg.PMU_VPT23 25 16)

/-- PMU_DVFS.TARGET. -/
def Hub.dvfsTarget (h : Hub) : Nat := h.rdF Reg.PMU_DVFS 1 0

/-- A transaction on the wires: the slave address of PMU_PMB, the command, and for a write the data with a PEC over all (Table 2.6). -/
def Hub.pmbWire (h : Hub) (x : PmbXact) : Emit :=
  let addr := h.rdF Reg.PMU_PMB 6 0
  .pmbus addr x.cmd x.data
    (if x.read then none else some (crc8 (BitVec.ofNat 8 (2 * addr) :: BitVec.ofNat 8 x.cmd :: x.data)))

/-- A transaction goes out to the regulator at PMU_PMB's address, with a PEC over the bytes of a write; a read's PEC is the
regulator's (R49). -/
def Hub.pmbSend (h : Hub) (x : PmbXact) : Hub := h.emit (h.pmbWire x)

/-- A procedure's transactions go out in order, and none of them has failed yet. -/
def Hub.pmbStart (h : Hub) (l : List PmbXact) : Hub :=
  (l.foldl Hub.pmbSend h).updPower fun x => { x with pmb := l, pmbAt := 0, pmbFails := 0 }

/-- OPERATION on or off; which data bytes say so the spec leaves to PMBus. (Log entry 48, PRESUMED.) -/
def pmbOperation (on : Bool) : PmbXact := { cmd := 0x01, data := [if on then 0x80 else 0x00] }
/-- A read of STATUS_WORD. -/
def pmbStatus : PmbXact := { cmd := 0x79, read := true }
/-- A read of READ_VOUT. -/
def pmbReadVout : PmbXact := { cmd := 0x8B, read := true }
/-- A read of VOUT_MODE. -/
def pmbVoutMode : PmbXact := { cmd := 0x20, read := true }
/-- VOUT_COMMAND in linear mode with exponent −9, rounded down (Table 2.6 asks for −9 or finer). (Log entry 64, DESIGN CHOICE.) -/
def pmbVout (mv : Nat) : PmbXact := { cmd := 0x21, data := leBytes 2 (mv * 512 / 1000) }

/-- Command a voltage: VOUT_COMMAND, then STATUS_WORD, and READ_VOUT where it is a raise (R440, Table 2.6). Log entries 48 and 64 name
what the spec leaves open of the bytes. -/
def Hub.vout (h : Hub) (mv : Nat) (raise : Bool) : Hub :=
  (h.pmbStart ([pmbVout mv, pmbStatus] ++ if raise then [pmbReadVout] else [])).updPower fun x => { x with vcmd := mv }

/-- Start the step to TARGET, or hold it under R24; a regulator whose VOUT_MODE is unusable leaves the fabric at F0. -/
def Hub.dvfsStart (h : Hub) : Hub :=
  let t := h.dvfsTarget
  let p := h.dvfsPoint
  if h.power.step.isSome then h
  else if t = p ∨ h.power.linear = false then h.wrB Reg.PMU_DVFS 5 false
  else if h.anyAwake then h.wrB Reg.PMU_DVFS 5 true
  else
    let h := ((h.wrB Reg.PMU_DVFS 5 false).wrB Reg.PMU_DVFS 6 false).wrB Reg.PMU_DVFS 4 true
    let h := h.updPower fun x => { x with step := some ⟨t, decide (t < p), x.vcmd, h.mono⟩ }
    (if t < p then h else h.setPoint t).vout (h.vPoint t) (decide (t < p))

/-- The running step is over. -/
def Hub.dvfsEnd (h : Hub) : Hub := (h.updPower fun x => { x with step := none, pmbFails := 0 }).wrB Reg.PMU_DVFS 4 false

/-- A write of PMU_DVFS.TARGET. -/
def Hub.dvfsWrite (h : Hub) (t : Nat) : Hub := (h.wrF Reg.PMU_DVFS 1 0 t).dvfsStart

/-- DVFS_TARGET_WRITE (R440). -/
def execDvfsTargetWrite (t : BitVec 2) (s : State) : Answer :=
  act s (s.hub.up .pmu && s.hub.mainUp) fun h => h.dvfsWrite t.toNat

/-- DVFS_STEP_COMPLETE (R440, R441): a raise is confirmed and the frequency rises, or a lowering's bus traffic ends; a TARGET
written meanwhile is the next step. -/
def execDvfsStepComplete (s : State) : Answer :=
  act s (s.hub.up .pmu && s.hub.power.step.isSome) fun h =>
    let p := h.power.step.elim 0 fun x => x.point
    (((h.setPoint p).dvfsEnd).attn .pmu 2).dvfsStart

/-- DVFS_RAISE_TIMEOUT (R50, R440): 500 µs after VOUT_COMMAND the voltage is not confirmed; the old voltage is commanded again and the hub stays at the old point. -/
def execDvfsRaiseTimeout (s : State) : Answer :=
  act s (s.hub.up .pmu && s.hub.power.step.elim false fun x => x.raise && decide (x.since + 500000 ≤ s.hub.mono)) fun h =>
    let p := h.power.step.elim 0 fun x => x.point
    let h := (h.dvfsEnd.vout (h.power.step.elim 0 fun x => x.old) false).wrB Reg.PMU_DVFS 6 true
    let h := (h.attn .pmu 3).fault .pmu 5
    if h.dvfsTarget = p then h else h.dvfsStart

/-- DVFS_HELD_RELEASE (R24). -/
def execDvfsHeldRelease (s : State) : Answer :=
  act s (s.hub.up .pmu && s.hub.rdB Reg.PMU_DVFS 5 && !s.hub.anyAwake) fun h => h.dvfsStart

/-- The failed tries of transaction k of the running procedure. -/
def Power.tries (x : Power) (k : Nat) : Nat := if k = x.pmbAt then x.pmbFails else 0

/-- A transaction of the running procedure fails; the row does not name it, so that it is a free value. It is sent again, and when its
third retry has failed a fault is recorded, and the point and the commanded voltage stay (R49). (Log entry 65, DESIGN CHOICE.) -/
def Hub.pmbFailed (h : Hub) : Hub :=
  let (w, h) := h.draw
  let k := w.toNat % h.power.pmb.length
  if h.power.tries k < 3 then
    (h.pmbSend (h.power.pmb.getD k pmbStatus)).updPower fun x => { x with pmbAt := k, pmbFails := x.tries k + 1 }
  else
    let old := h.power.step.elim h.power.vcmd fun x => x.old
    (h.dvfsEnd.updPower fun x => { x with vcmd := old, pmb := [] }).fault .pmu 5

/-- PMBUS_RETRY (R49): a transaction of the running procedure is not acknowledged or fails its PEC; it is retried 100 µs later. -/
def execPmbusRetry (s : State) : Answer :=
  act s (s.hub.up .pmu && !s.hub.power.pmb.isEmpty) Hub.pmbFailed

/-- PMB_PG_LOW (R49, Table 2.6): STATUS_WORD is read. -/
def execPmbPgLow (s : State) : Answer :=
  act s (s.hub.up .pmu) fun h => (h.pmbSend pmbStatus).updPower fun x => { x with pmb := x.pmb ++ [pmbStatus] }

/-! ### Temperature, crystal, always-on load -/

/-- The sensed junction temperature, 0.1 °C (R63). -/
def Hub.senseTj (h : Hub) (tj : BitVec 16) : Hub :=
  let h := h.wrF Reg.PMU_TEMP 15 0 tj.toNat
  let max' := BitVec.ofNat 15 (h.rdF Reg.PMU_TEMP 30 16)
  if max'.toInt < tj.toInt then h.wrF Reg.PMU_TEMP 30 16 (BitVec.ofInt 15 (clampI (-16384) 16383 tj.toInt)).toNat else h

/-- TEMP_HIGH (R63): a sensed Tj; at 118 °C or more a fault is recorded and the hub has left its operating conditions. -/
def execTempHigh (tj : BitVec 16) (s : State) : Answer :=
  act s (s.hub.up .pmu) fun h =>
    let h := h.senseTj tj
    if 1180 ≤ tj.toInt then
      (((h.fault .pmu 2).setLive .pmu 2 true).fault .pmu 3).updPower fun x => { x with outOfCond := true }
    else h.setLive .pmu 2 false

/-- PMU_TEMP.CLR: the maximum starts again from the present temperature (Table 17.10). -/
def Hub.tempClr (h : Hub) : Hub :=
  h.wrF Reg.PMU_TEMP 30 16 (BitVec.ofInt 15 (clampI (-16384) 16383 (BitVec.ofNat 16 (h.rdF Reg.PMU_TEMP 15 0)).toInt)).toNat

/-- PMU_TEMP_CLR (R443). -/
def execPmuTempClr (s : State) : Answer := act s (s.hub.up .pmu) fun h => h.tempClr

/-- XTAL_SWITCHOVER (R45). -/
def execXtalSwitchover (s : State) : Answer :=
  act s (s.hub.up .pmu && !s.hub.power.xtal) fun h => h.updPower fun x => { x with xtal := true }

/-- XTAL_START_TIMEOUT (R59). -/
def execXtalStartTimeout (s : State) : Answer := act s (s.hub.up .pmu && !s.hub.power.xtal) fun h => h.fault .pmu 6

/-- The always-on load in low-power mode, in 10 µA (Table 17.6), in NAP or in DORMANT. -/
def Hub.aoLoad (h : Hub) (nap : Bool) : Nat :=
  56 + 10 * (b2n (h.rdB Reg.KSI_TAMP_CFG 0) + b2n (h.rdB Reg.KSI_TAMP_CFG 1)) + (if nap then 14 else 0)
    + 35 * (if h.role = .leaf then (List.range 6).countP fun n => decide (h.pcState n ≠ 0) else 0) + h.power.aoBoard

/-- The board's draw on AO_CAP is measured, in 10 µA; in RUN PMU_AO.LOAD follows, and AO_HIGH is set above 4.5 mA. -/
def Hub.aoSense (h : Hub) (board : Nat) : Hub :=
  let h := h.updPower fun x => { x with aoBoard := board }
  let n := h.aoLoad false
  let h := h.wrF Reg.PMU_AO 27 16 (min 4095 n)
  if 450 < n ∧ h.power.state = .run then h.attn .pmu 6 else h

/-- AO_MEASURE (R444). -/
def execAoMeasure (board : BitVec 12) (s : State) : Answer :=
  mbxAct s .pmu 0x11 fun h =>
    let a := (h.arg .pmu 0).toNat
    if a ≠ 2 ∧ a ≠ 3 then done h (mbxErr 0x02)
    else
      let h := h.aoSense board.toNat
      done h (mbxOk [w32 (h.aoLoad (decide (a = 2)))])

end Sys2Proof.Machine
end

