-- ==== Sys2Proof/Machine/Faults.lean ====
section
/-! DEFINITION. Fault sources, classification, leaving the fault state and the fault pin (R465–R474), and the
W1C writes of ATTN_RAW and FLT_STICKY (R71). -/

namespace Sys2Proof.Machine

/-- FAULT_N is driven low (R56, R473, R474): from POR release, while the main die is held in reset by a supply
fault or a thermal trip until its release, during a pulse, and otherwise while SIT_FAULTN.LEVEL is 1. -/
def Hub.faultPinLow (h : Hub) : Bool :=
  h.custodyUp && (h.power.held || h.pins.faultPulse.isSome || h.rdB Reg.SIT_FAULTN 0)

/-- FLT_CLASS (Table 3.5). -/
def Hub.fltClass (h : Hub) (b : Block) : Word :=
  let x := h.hdr b
  w32 (x.level + 4 * b2n x.inFault + 8 * b2n h.profile + 0x100 * x.source)

/-- FS_STAT of source i (Table 19.1). -/
def Hub.fsStat (h : Hub) (b : Block) (i : Nat) : Word :=
  let y := atD (h.hdr b).flt i {}
  w32 (y.win + 0x100 * y.cls + 0x400 * b2n (decide (y.cls ≠ 0)) + 0x800 * b2n (fltFixed b i))

/-- FLT_QUIET in force, in ms (Table 19.3). -/
def Hub.quiet (h : Hub) (b : Block) : Nat := clampN 1 3600000 (h.rdF (fltQuiet b) 21 0)

/-- FLT_QUIET_LEFT: ms left of a running quiet period; full while a live bit of an in-force source holds it,
0 when none runs (R472). -/
def Hub.quietLeft (h : Hub) (b : Block) : Word :=
  let x := h.hdr b
  if x.inFault then
    if x.heldLive then w32 (h.quiet b) else w32 (h.quiet b - (h.mono - x.quietFrom) / 1000000)
  else 0

/-- COMPACT_WINDOW_END (R468): the open window of a source ends below N and closes with count 0. -/
def execCompactWindowEnd (b : Block) (i : Nat) (s : State) : Answer :=
  act s (s.hub.answers b && decide ((atD (s.hub.hdr b).flt i {}).win ≠ 0)
    && (atD (s.hub.hdr b).flt i {}).winOver (s.hub.fltW b i) s.hub.mono) fun h =>
    h.updHdr b fun x => { x with flt := modAt x.flt i fun y => { y with win := 0 } }

/-- FAULT_QUIET_END (R472): FLT_QUIET has passed with no event and no live bit of an in-force source. -/
def execFaultQuietEnd (b : Block) (s : State) : Answer :=
  act s (s.hub.answers b && (s.hub.hdr b).inFault && !(s.hub.hdr b).heldLive && decide (s.hub.quietLeft b = 0)) fun h =>
    h.updHdr b Hdr.leaveFault

/-- FLT_CTRL.EXIT leaves the fault state at once, unless an in-force source is live (R472). -/
def Hub.fltExit (h : Hub) (b : Block) : Hub :=
  if (h.hdr b).inFault && !(h.hdr b).heldLive then h.updHdr b Hdr.leaveFault else h

/-- FLT_CTRL.CNT_CLR sets every FS_COUNT of the block to 0 (Table 19.3). -/
def Hub.fltCntClr (h : Hub) (b : Block) : Hub :=
  h.updHdr b fun x => { x with flt := x.flt.map fun y => { y with count := 0 } }

/-- FAULT_EXIT (R472). -/
def execFaultExit (b : Block) (s : State) : Answer :=
  act s (s.hub.answers b) fun h => h.fltExit b

/-- FAULT_COUNT_CLEAR (R466). -/
def execFaultCountClear (b : Block) (s : State) : Answer :=
  act s (s.hub.answers b) fun h => h.fltCntClr b

/-- FAULTN_PULSE_END (R473): the pulse comes to its end, and the pin follows LEVEL. -/
def execFaultnPulseEnd (s : State) : Answer :=
  act s (s.hub.custodyUp && s.hub.pins.faultPulse.elim false fun fin => decide (fin ≤ s.hub.mono)) fun h =>
    { h with pins := { h.pins with faultPulse := none } }

/-- FAULTN_LEVEL_WRITE (R474): a write of SIT_FAULTN.LEVEL; during a pulse the pin follows it at the end. -/
def execFaultnLevelWrite (level : Bool) (s : State) : Answer :=
  act s s.hub.custodyUp fun h => h.wrB Reg.SIT_FAULTN 0 level

/-- The number of block-specific attention bits that a block's chapter defines (R70). -/
def attnBits : Block → Nat
  | .stw => 7 | .pmc => 4 | .lnx => 7 | .kll => 8 | .mir => 11 | .tsc => 9 | .tss => 7 | .fcm => 7 | .dse => 21
  | .vin => 24 | .eth => 17 | .pxb => 11 | .usb => 13 | .ppc => 24 | .pmu => 7 | .ksi => 6 | .sit => 6

/-- The attention bits of a block that are not reserved (R70, Table 3.4). -/
def attnMask (b : Block) : Word := 0xF0000000 ||| w32 (2 ^ attnBits b - 1)

/-- ATTN_RAW_CLEAR (R71): a W1C write clears bits, except a bit that an event sets in the same cycle. -/
def execAttnRawClear (b : Block) (v setNow : Word) (s : State) : Answer :=
  act s (s.hub.answers b) fun h =>
    h.updHdr b fun x => { x with attnRaw := (x.attnRaw &&& ~~~v) ||| (setNow &&& attnMask b) }

/-- A W1C write of FLT_STICKY; clearing REGULATOR of PMU is the software request on which CLEAR_FAULTS goes to the regulator
(Table 2.6). (Log entry 64, DESIGN CHOICE.) -/
def Hub.stickyClear (h : Hub) (b : Block) (v : Word) : Hub :=
  let asks := decide (b = .pmu) && bit ((h.hdr b).sticky &&& v) 5
  let h := h.updHdr b fun x => { x with sticky := x.sticky &&& ~~~v }
  if asks then h.pmbSend { cmd := 0x03 } else h

/-- FLT_STICKY_CLEAR (R71): a W1C write clears bits; an event of source `event` in the same cycle leaves its
bit set. -/
def execFltStickyClear (b : Block) (v : Word) (event : Option Nat) (s : State) : Answer :=
  act s (s.hub.answers b && decide ((event.getD 0) < nSources b)) fun h =>
    match event with
    | some i => ((h.fault b i).stickyClear b v).updHdr b fun x => { x with sticky := x.sticky ||| bitW i }
    | none => h.stickyClear b v

end Sys2Proof.Machine
end

