-- ==== Sys2Proof/Machine/LaneRepair.lean ====
section
/-! DEFINITION. What lane events do to a link port (R101, R103, R107, R119, R125), and lane repair (R111–R116). -/

namespace Sys2Proof.Machine

/-! ### Lane events -/

/-- A lane of a port that is not down lost lock: LOCK_LOST (R101, R119); a link port in UP enters RECOVER (Table 5.5). -/
def Hub.lockLost (h : Hub) (l : Nat) (source : Bool) : Hub :=
  let p := h.lanePort l
  if h.portDown p then h
  else
    let h := h.attn .lnx 1
    let h := if source then h.fault .lnx 2 else h
    if isLinkPort p ∧ h.klState p = 5 then (h.updLink p fun x => { x with recoverLoss := true, deskewed := false }).setKl p 7
    else h

/-- A lane of a down link port lost lock: its port has to deskew again. -/
def Hub.undeskew (h : Hub) (l : Nat) : Hub :=
  if isLinkPort (h.lanePort l) then h.updLink (h.lanePort l) fun x => { x with deskewed := false } else h

/-- A lane loses BLOCK_LOCK (R101). -/
def Hub.blockLost (h : Hub) (l : Nat) : Hub :=
  let h := h.wrB (Reg.LN_STAT l) 16 false
  if h.portDown (h.lanePort l) then h.undeskew l else h.lockLost l true

/-- BLOCK_LOCK_LOSS (R101): 16 invalid headers within 64 blocks. -/
def execBlockLockLoss (l : LaneNo) (s : State) : Answer :=
  actT s (s.hub.up .lnx && s.hub.laneAligns l && s.hub.rdB (Reg.LN_STAT l) 16) fun h => h.blockLost l

/-- CDR_LOCK_LOSS (R119): a lane loses receive clock recovery. -/
def execCdrLockLoss (l : LaneNo) (s : State) : Answer :=
  actT s (s.hub.up .lnx && s.hub.rdB (Reg.LN_STAT l) 13) fun h =>
    let h := h.wrB (Reg.LN_STAT l) 13 false
    h.lockLost l false

/-- A lane's elastic buffer reaches a fill (R125). -/
def Hub.elasticTo (h : Hub) (l : Nat) (fill : Nat) : Hub :=
  let p := h.lanePort l
  let h := { h with lanes := Tab.upd (fun _ => {}) h.lanes l fun x => { x with fill := min 16 fill } }
  if 16 < fill ∨ fill = 0 then h.inc (Reg.KL_CNT_ELASTIC p)
  else if 12 < fill then
    (h.portLanes p).foldl (fun h k =>
      { h with lanes := Tab.upd (fun _ => {}) h.lanes k fun x => { x with fill := x.fill - 1 } }) h
  else if fill < 4 then
    (h.portLanes p).foldl (fun h k =>
      { h with lanes := Tab.upd (fun _ => {}) h.lanes k fun x => { x with fill := min 16 (x.fill + 1) } }) h
  else h

/-- ELASTIC_BUFFER_SLIP (R125): a lane's elastic buffer reaches a fill. Above 12 a FILLER row is deleted on every lane of
the port, below 4 one is repeated; a fill above 16 or of 0 is an overflow or underflow, which is counted. -/
def execElasticBufferSlip (l : LaneNo) (fill : Nat) (s : State) : Answer :=
  act s (s.hub.up .lnx && isLinkPort (s.hub.lanePort l)) fun h => h.elasticTo l fill

/-- A lane leaves electrical idle, with or without lock (R107, R148). -/
def Hub.laneWoken (h : Hub) (l : Nat) (ok : Bool) : Hub :=
  let p := h.lanePort l
  let h := (h.wrB (Reg.LN_STAT l) 15 false).wrB (Reg.LN_STAT l) 14 true
  let h := if h.laneAligns l then h.wrB (Reg.LN_STAT l) 16 ok else h
  let h := if ok ∨ ¬ isLinkPort p ∨ h.portDown p then h else (h.attn .lnx 1).fault .lnx 2
  if isLinkPort p ∧ h.klState p = 6 then
    if !ok then (h.updLink p fun x => { x with recoverLoss := true, deskewed := false }).setKl p 7
    else if (h.portLanes p).all fun k => !h.rdB (Reg.LN_STAT k) 15 then h.backUp p
    else h
  else h

/-- LANE_WAKE (R107): a lane in electrical idle carries valid data again, and re-qualifies BLOCK_LOCK at its kept position
or does not. A link port in IDLE returns to UP with its last lane, or enters RECOVER (R148). -/
def execLaneWake (l : LaneNo) (ok : Bool) (s : State) : Answer :=
  actT s (s.hub.up .lnx && s.hub.rdB (Reg.LN_STAT l) 15) fun h => h.laneWoken l ok

/-! ### Lane repair -/

/-- The reference of a spare serves a port: it is the port's own or co-sourced with it (R111). -/
def Hub.spareRef (h : Hub) (p l : Nat) : Bool :=
  let st := h.rd Reg.LNX_REF_STAT
  (h.portLanes p).all fun k => laneRef k = laneRef l || (bit st (4 + laneRef k) && bit st (4 + laneRef l))

/-- The lowest free wired spare of a port with a fitting reference (R111, Table 4.13). (Log entry 58, DESIGN CHOICE.) -/
def Hub.pickSpare (h : Hub) (p : Nat) : Option Nat := (List.range 40).find? fun l => h.wiredSpare l p && h.spareRef p l

/-- Why a LANE_REPAIR cannot start, or the spare it takes (R111, Table 4.13); when wired spares are free and none has a fitting reference,
there is none to take. (Log entry 58, DESIGN CHOICE.) -/
def Hub.repairCheck (h : Hub) (p logical want : Nat) : Nat ⊕ Nat :=
  if 8 < p ∨ (40 ≤ want ∧ want ≠ 0x3F) ∨ (h.portMap p).length ≤ logical then .inl 0x02
  else if !portPresent h.straps p then .inl 0x04
  else if h.portDown p then .inl 0x81
  else if want = 0x3F then
    match h.pickSpare p with
    | some l => .inr l
    | none => .inl 0x03
  else if !h.wiredSpare want p then .inl 0x82
  else if !h.spareRef p want then .inl 0x80
  else .inr want

/-- SIT releases the spare, which is ordered to the port's rate, sends a copy of the logical lane's blocks and searches for the far end's
(R92, R112). -/
def Hub.takeSpare (h : Hub) (p logical l : Nat) : Hub :=
  let h := h.sitReleaseLane l
  let h := if h.rdF (Reg.LN_STAT l) 11 8 = h.klRate p then h.wrB (Reg.LN_STAT l) 16 false
    else (h.parkLane l).wrF (Reg.LN_STAT l) 11 8 (h.klRate p)
  h.emit (.copy l p logical)

/-- Start a repair as the starter (R112): SIT releases the spare, and REPAIR_REQ goes to the far hub, with this end's own port code.
(Log entry 58, DESIGN CHOICE.) -/
def Hub.repairStart (h : Hub) (p logical want : Nat) : Hub × Option MbxResult :=
  match h.repairCheck p logical want with
  | .inl e => (if e = 0x03 then (h.attn .lnx 6).fault .lnx 4 else h, some (mbxErr e))
  | .inr l =>
    let h := h.takeSpare p logical l
    let h := { h with repair := some { port := p, logical := logical, spare := l, starter := true, since := h.mono } }
    (h.postNear p 0x0030 [BitVec.ofNat 8 p, BitVec.ofNat 8 logical], none)

/-- LANE_REPAIR (R112); a repair that runs already is not started again. -/
def execLaneRepair (s : State) : Answer :=
  act s (s.hub.opRunning .lnx 0x12 && s.hub.repair.isNone) fun h =>
    h.tscWatch (h.runOp .lnx 0x12 fun h => h.repairStart (h.arg .lnx 0).toNat (h.arg .lnx 1).toNat (h.arg .lnx 2).toNat)

/-- The steward takes LNX's mailbox for a LANE_REPAIR of its own, with SRC 4 (R114, R115). -/
def Hub.stewardRepair (h : Hub) (p logical : Nat) : Hub :=
  h.updMbx .lnx fun m =>
    let n := m.request .steward 0x12 h.mono
    { n with latched := [w32 p, w32 logical, 0x3F, 0, 0, 0] }

/-- The steward starts the repairs that wait, one at a time, as LNX's mailbox is free (R114). A port whose last one found no wired spare
waits until one is wired and free. -/
def Hub.autoNext (h : Hub) : Hub :=
  let ws := h.auto.waits.filter fun e => !h.portDown e.1
  if (h.mbx .lnx).busy || !h.rdB Reg.LNX_REPAIR_CTRL 0 then h
  else
    match ws.find? fun e => !h.auto.spareless.testBit e.1 || (h.pickSpare e.1).isSome with
    | none => h
    | some (p, k) =>
      let none' := h.auto.spareless - (h.auto.spareless &&& 2 ^ p)
      match ({ h with auto := { waits := ws.erase (p, k), spareless := none' } }.stewardRepair p k).repairStart p k 0x3F with
      | (h, some r) =>
        (if r.err = 3 then { h with auto := { h.auto with spareless := h.auto.spareless ||| 2 ^ p } } else h).opResult .lnx 0x12 r
      | (h, none) => h

/-- A block's request completes. In LNX a repair that waited for the mailbox may start (R114); in FCM a mirrored operation that failed is
counted, and the next one starts (Table 9.4). -/
def Hub.publishNext (h : Hub) (b : Block) (r : MbxResult) : Hub :=
  let n := h.publish b r
  if b = .lnx ∧ h.auto.waits ≠ [] then h.tscWatch n.autoNext
  else if b = .fcm then (if h.mirrored ∧ r.err ≠ 0 then n.ctxDiverge else n).mirStart
  else n

/-- MAILBOX_COMPLETE (R81): the running request of a block completes with the result it has stored. -/
def execMailboxComplete (b : Block) (s : State) : Answer :=
  act s (s.hub.answers b && (s.hub.readyResult b).isSome) fun h => h.publishNext b ((h.readyResult b).getD {})

/-- NOP (R82): the running NOP completes with RES_DATA0 equal to BLK_ID. -/
def execNop (b : Block) (s : State) : Answer :=
  act s (s.hub.opRunning b 0) fun h => h.publishNext b (mbxOk [blkId b])

/-- A lane's errored blocks have grown within 10 ms (R114). -/
def Hub.errGrew (h : Hub) (l : Nat) (grew : Word) : Hub :=
  let h := h.incW (Reg.LN_ERRBLK l) grew.toNat
  let e := (h.lanePort l, h.rdF (Reg.LN_STAT l) 6 5)
  if h.rdB Reg.LNX_REPAIR_CTRL 0 ∧ max 1 (h.rdF Reg.LNX_REPAIR_CTRL 15 8) ≤ grew.toNat then
    { h with auto := { h.auto with waits := (h.auto.waits.erase e) ++ [e] } }.autoNext
  else h

/-- AUTO_REPAIR_START (R114): a lane's errored blocks have grown by `grew` within 10 ms; at THRESH the steward starts a repair with AUTO,
at once, or as soon as the mailbox is free and, after a repair of the port that found none, a spare too. -/
def execAutoRepairStart (l : LaneNo) (grew : Word) (s : State) : Answer :=
  actT s (s.hub.up .lnx && isLinkPort (s.hub.lanePort l) && !s.hub.portDown (s.hub.lanePort l)) fun h => h.errGrew l grew

/-- REPAIR_READY to the far hub, with this end's own port code. (Log entry 58, DESIGN CHOICE.) -/
def Hub.sendReady (h : Hub) (p logical status : Nat) : Hub :=
  h.postNear p 0x0031 [BitVec.ofNat 8 p, BitVec.ofNat 8 logical, BitVec.ofNat 8 status]

/-- The far end's messages of a repair are accepted: the port is past AUTH (R137). -/
def Hub.repairHears (h : Hub) (p : Nat) : Bool := decide (4 ≤ h.klState p ∧ h.klState p ≤ 8)

/-- Join the far end's repair as a request of SRC 4, or refuse it when no spare is to be had (R115, R116). -/
def Hub.repairJoin (h : Hub) (p logical : Nat) : Hub :=
  match h.repairCheck p logical 0x3F with
  | .inl _ => h.sendReady p logical 1
  | .inr l =>
    let h := (h.stewardRepair p logical).takeSpare p logical l
    let r : LaneRepair :=
      { port := p, logical := logical, spare := l, starter := false, answered := true, since := h.mono }
    { h with repair := some r }

/-- This end of a link carries on when two requests cross: the down-facing end, or the side-A member on M (R116). -/
def Hub.carriesOn (h : Hub) (p : Nat) : Bool := if p = 8 then !h.straps.side else !facesUp h.role p

/-- REPAIR_REQ for a logical lane of a port (R115, R116). -/
def Hub.repairReq (h : Hub) (p : LinkNo) (logical : Byte) : Hub :=
  let k := logical.toNat
  match h.repair with
  | some r =>
    if r.port = p.val ∧ r.starter ∧ r.answered = false then
      if h.carriesOn p then h
      else (((({ h with repair := none }).parkLane r.spare).publish .lnx (mbxErr 0x86)).repairJoin p k)
    else h.sendReady p k 1
  | none => if (h.mbx .lnx).busy ∨ h.portDown p then h.sendReady p k 1 else h.repairJoin p k

/-- REPAIR_REQ_RX (R116). A repair of the same port that has had an answer, or that this hub has joined, is no crossed request: it is
refused like any other, with STATUS 0x01. The port code is the sender's own. (Log entry 58, DESIGN CHOICE.) -/
def execRepairReqRx (p : LinkNo) (logical : Byte) (s : State) : Answer :=
  actT s (s.hub.hears p && s.hub.repairHears p) fun h => h.repairReq p logical

/-- Both spares are ready: the starter names a lane marker at least 4 µs ahead, in REPAIR_SWITCH. Which one, the spec
leaves open. -/
def Hub.repairSwitch (h : Hub) (p : Nat) : Hub :=
  match h.repair with
  | some r =>
    if r.port = p ∧ r.starter ∧ r.ready ∧ r.peerReady ∧ r.marker.isNone then
      let (w, h) := h.draw
      let m := w.toNat % 65536
      ({ h with repair := some { r with marker := some m } }).postNear p 0x0032
        ([BitVec.ofNat 8 p, BitVec.ofNat 8 r.logical] ++ beBytes 2 m)
    else h
  | none => h

/-- This hub's spare is aligned and deskewed: it reports ready (R112). -/
def Hub.repairReady (h : Hub) (p : Nat) : Hub :=
  match h.repair with
  | some r =>
    if r.port = p ∧ r.ready = false ∧ h.rdB (Reg.LN_STAT r.spare) 16 then
      (({ h with repair := some { r with ready := true } }).sendReady p r.logical 0).repairSwitch p
    else h
  | none => h

/-- The physical lanes of a port that are deskewed: the lane that a running repair replaces gives its place to the spare, once that has
BLOCK_LOCK (R112). -/
def Hub.deskewLanes (h : Hub) (p : Nat) : List Nat :=
  match h.repair with
  | some r => if r.port = p ∧ h.rdB (Reg.LN_STAT r.spare) 16 then putAt (h.portMap p) r.logical r.spare else h.portMap p
  | none => h.portMap p

/-- The lanes `ls` of a port, all with BLOCK_LOCK, are aligned on marker rows, but for the `late` ones (R103, R112). -/
def Hub.deskewOn (h : Hub) (p : Nat) (ls : List Nat) (late : Nat) : Hub :=
  let n := ls.length
  let h := (ls.zipIdx).foldl (fun h e => h.wrB (Reg.LN_STAT e.1) 17 (late.testBit e.2)) h
  if late % 2 ^ n = 0 then (h.updLink p fun l => { l with deskewed := h.allLanes p 16 }).repairReady p
  else
    let h := h.updLink p fun l => { l with deskewed := false }
    if h.klState p = 1 then h.klFail p 1 else h

/-- DESKEW_COMPLETE (R103): the lanes of a port, all with BLOCK_LOCK, are aligned on marker rows; `late` names the
logical lanes whose marker row came more than 4 blocks late, never all of them. In ALIGN a late lane fails the port; a
repair's spare that is deskewed with the port's other lanes is ready (R112). -/
def execDeskewComplete (p : LinkNo) (late : BitVec 4) (s : State) : Answer :=
  let ls := s.hub.deskewLanes p
  let n := ls.length
  actT s (s.hub.linkUp p && !ls.isEmpty && (ls.all fun l => s.hub.rdB (Reg.LN_STAT l) 16)
      && decide (late.toNat % 2 ^ n ≠ 2 ^ n - 1)) fun h =>
    h.deskewOn p ls late.toNat

/-- REPAIR_READY for the repair of a port (R112, R116). -/
def Hub.repairAnswer (h : Hub) (p : LinkNo) (status : Byte) : Hub :=
  match h.repair with
  | some r =>
    if status = 0#8 then
      ({ h with repair := some { r with answered := true, peerReady := true } }).repairSwitch p
    else h.repairAbort p 0x83
  | none => h

/-- REPAIR_READY_RX (R112, R116): any STATUS but 0x00 refuses the repair. -/
def execRepairReadyRx (p : LinkNo) (status : Byte) (s : State) : Answer :=
  actT s (s.hub.hears p && s.hub.repairHears p && (s.hub.repair.elim false fun r => decide (r.port = p.val)))
    fun h => h.repairAnswer p status

/-- REPAIR_SWITCH_RX (R112). -/
def execRepairSwitchRx (p : LinkNo) (logical : Byte) (marker : BitVec 16) (s : State) : Answer :=
  act s (s.hub.hears p && s.hub.repairHears p
      && (s.hub.repair.elim false fun r => decide (r.port = p.val ∧ r.logical = logical.toNat))) fun h =>
    match h.repair with
    | some r => { h with repair := some { r with marker := some marker.toNat } }
    | none => h

/-- The logical lane of the running repair moves to its spare (R112, R113). -/
def Hub.laneMoved (h : Hub) : Hub :=
  match h.repair with
  | none => h
  | some r =>
    let m := h.portMap r.port
    let old := m.getD r.logical 0x3F
    let h := (if old < 40 then h.freeLane old else h).placeLanes r.port (putAt m r.logical r.spare)
    let h := if old < 40 then h.laneMapOut old else h
    let h := h.repairWrite { kind := 3, res := r.spare, port := r.port, logical := r.logical }
    let h := ({ h with repair := none }).attn .lnx 5
    h.opResult .lnx 0x12 (mbxOk [w32 r.spare, w32 ((h.mono - r.since) / 1000)])

/-- LANE_MOVE (R112, R113): at the named marker row the logical lane moves to the spare; the failed lane is mapped out;
both are written into the repair map; the request completes. -/
def execLaneMove (s : State) : Answer :=
  actT s (s.hub.up .lnx && (s.hub.repair.elim false fun r => r.marker.isSome)) Hub.laneMoved

/-- REPAIR_TIMEOUT (R112): 5 ms have passed since the repair began; 0x84 while this hub's spare is not aligned, else 0x83. The map stays as it
was. -/
def execRepairTimeout (s : State) : Answer :=
  act s (s.hub.up .lnx && (s.hub.repair.elim false fun r => decide (r.since + 5000000 ≤ s.hub.mono))) fun h =>
    match h.repair with
    | some r => h.repairAbort r.port (if r.ready then 0x83 else 0x84)
    | none => h

end Sys2Proof.Machine
end

