-- ==== Sys2Proof/Machine/Tsc.lean ====
section
/-! DEFINITION. The switch core's commands (R157–R189) but for the ledger: frames that wait or time out, banks, the
sweep after a descriptor error, per-flow counts. -/

namespace Sys2Proof.Machine

/-- ADMIT_RETRY (R167): a count in the check of a waiting frame changed at PXB, USB or the steward, which decides
its waiting frames again. -/
def execAdmitRetry (i : PortNo) (s : State) : Answer :=
  actT s (s.hub.mainUp && holdsAt i) fun h => h.admitRetry i

/-- TSC_REASM_TMO in force, in ns: 1 to 1,000 µs. -/
def Hub.reasmTmo (h : Hub) : Nat := 1000 * clampN 1 1000 (h.rdF Reg.TSC_REASM_TMO 9 0)

/-- REASM_TIMEOUT (R175): no cell of the frame open on a port for a flow has come for TSC_REASM_TMO. -/
def execReasmTimeout (p : PortNo) (flow : BitVec 24) (s : State) : Answer :=
  actT s (s.hub.mainUp && (s.hub.openOf p flow.toNat).elim false fun o => decide (o.time + s.hub.reasmTmo ≤ s.hub.mono)) fun h =>
    match h.openOf p flow.toNat with
    | some o => h.abandon o
    | none => h

/-- RESEQ_TIMEOUT (R177): the oldest held frame of the flow in a slot has been held for TSC_RESEQ_TMO. -/
def execReseqTimeout (sl : SlotNo) (s : State) : Answer :=
  actT s (s.hub.mainUp && (s.hub.ctx sl).held.head?.elim false fun (f : HeldFrame) =>
      decide (f.since + s.hub.reseqTmo ≤ s.hub.mono)) fun h => h.rsqTimeout sl 64

/-! ### Banks (R180–R182) -/

/-- A physical bank is mapped out (R181): the record is written before BANK_OUT is set. -/
def Hub.mapOutBank (h : Hub) (pb : Nat) : Hub :=
  let h := h.repairWrite { kind := 1, res := pb }
  let h := if pb < 32 then h.wrB Reg.TSC_BANK_OUT_LO pb true else h.wrB Reg.TSC_BANK_OUT_HI 0 true
  (h.incF Reg.TSC_CAP 22 17).attn .tsc 4

/-- The spare is gone: SPARE_PRESENT reads 0 and SIT's SPARE_GONE is live. -/
def Hub.spareGone (h : Hub) : Hub :=
  let h := (h.wrB Reg.TSC_CAP 23 false).wrF Reg.TSC_BANK_SPARE 5 0 0x3F
  (h.fault .sit 6).setLive .sit 6 true

/-- The sum of the RX_LIMITs in force of the link ports present exceeds USABLE − 4,096 (R162). -/
def Hub.limitOver (h : Hub) : Bool :=
  let sum := ((List.range 9).filter (portPresent h.straps)).foldl (fun a p =>
    (List.range 8).foldl (fun a c => a + h.rxLimit p c) a) 0
  decide (h.rdF Reg.TSC_CAP 16 0 < sum + 4096)

/-- LIMIT_OVER becomes live or ends (R162). -/
def Hub.limitWatch (h : Hub) : Hub :=
  let was := bit (h.hdr .tsc).live 5
  if h.limitOver && !was then (h.fault .tsc 5).setLive .tsc 5 true
  else if !h.limitOver && was then h.setLive .tsc 5 false
  else h

/-- A condemnation that waited starts when the one before it has completed. -/
def Hub.nextCondemn (h : Hub) : Hub :=
  match h.banks.waiting with
  | [] => h
  | lb :: rest =>
    let h := { h with banks := { h.banks with waiting := rest } }
    if h.sparePresent then ({ h with banks := { h.banks with copying := some lb, condemn := true } }).showBanks
    else h.startDrain lb

/-- BANK_CONDEMN (R182, Table 6.10). -/
def execBankCondemn (s : State) : Answer :=
  act s (s.hub.opRunning .tsc 0x14) fun h => h.tscWatch (h.runOp .tsc 0x14 fun h =>
    let lb := (h.arg .tsc 0).toNat
    if 32 ≤ lb then done h (mbxErr 0x02)
    else if h.bankOf lb = 0x3F then done h (mbxErr 0x81)
    else if h.banks.condemn || h.banks.draining.isSome || !h.banks.waiting.isEmpty then done h (mbxErr 0x82)
    else done (h.condemnBank lb) (mbxOk [w32 (h.bankOf lb)]))

/-! ### The sweep after a descriptor error (R179) -/

/-- The cells of a list from cell i on. -/
def listFrom (l : List Nat) (i : Nat) : List Nat := l.dropWhile fun j => j ≠ i

/-- The sweep counts what it returns: frames against a flow as dropped by block reset, or cells in TSC_DROP_LOST when the SLOT cannot
be read. -/
def Hub.sweepCount (h : Hub) (p flow frames cells : Nat) (slotGood : Bool) : Hub :=
  if slotGood then h.countFlow p flow .reset frames else h.inc Reg.TSC_DROP_LOST cells

/-- The broken list is a flow's list: its cells from cell i on return, but for those that a replay still holds. What is left of a frame
that has lost its end is not sent further. -/
def Hub.sweepList (h : Hub) (i : Nat) (c : CellSt) (slotGood : Bool) : Hub :=
  let ix := listFrom (h.ctx c.slot).list i
  let ix := if ix = [] then [i] else ix
  let frames := (ix.filterMap fun j => (h.cell j).map fun (x : CellSt) => x.fseq).dedup.length
  let h := { h with opens := h.opens.filter fun o => !(o.cells.any fun j => ix.contains j) }
  let n := (ix.filter fun j => (h.cell j).elim false fun (x : CellSt) => decide (x.repl = 0)).length
  let h := (h.updCell i fun x => { x with poison := true }).dropUnread c.slot ix (2 ^ 18 - 1)
  let h := (onesOf c.tmask 18).foldl (fun h t => h.markFailed c.slot t c.fseq) h
  h.sweepCount c.inp c.flow frames n slotGood

/-- The broken list is the resequencer's chain of a flow, a frame that is open for it or for the steward: the chain's frames from the
broken one on return. -/
def Hub.sweepHeld (h : Hub) (i : Nat) (c : CellSt) (slotGood : Bool) : Hub :=
  let fr := (h.ctx c.slot).held.dropWhile fun (f : HeldFrame) => !f.cells.contains i
  let op := h.opens.filter fun o => o.cells.contains i
  let ix := ((fr.flatMap fun (f : HeldFrame) => f.cells) ++ op.flatMap fun o => o.cells.filter (h.ofFrame o)).dedup
  let h := h.updCtx c.slot fun x => { x with held := x.held.filter fun f => !fr.contains f }
  let h := { h with opens := h.opens.filter fun o => !o.cells.contains i }
  (h.freeCells ix).sweepCount c.inp c.flow (fr.length + op.length) ix.length slotGood

/-- The broken list is a frame in a foyer. -/
def Hub.sweepFoyer (h : Hub) (i : Nat) (c : CellSt) (slotGood : Bool) : Hub :=
  match (h.foyer c.inp).find? fun (f : FoyFrame) => f.cells.contains i with
  | none => h
  | some f =>
    let h := (h.foyLeave c.inp f).freeCells f.cells
    let h := if f.complete then h else h.foyClose c.inp f.flow
    h.sweepCount c.inp f.flow 1 f.cells.length slotGood

/-- The broken list of cell i is returned. (Log entry 28, DEDUCED.) -/
def Hub.sweepFrom (h : Hub) (i : Nat) (slotGood : Bool) : Hub :=
  match h.cell i with
  | none => h
  | some c =>
    match c.place with
    | .listed => h.sweepList i c slotGood
    | .reseq | .steward => h.sweepHeld i c slotGood
    | .foyer => h.sweepFoyer i c slotGood

/-- DESC_SWEEP_DONE (R179): the sweep after an uncorrectable error in the descriptor of cell i ends; `slotGood` says
that its SLOT could be read. -/
def execDescSweepDone (i : BitVec 16) (slotGood : Bool) (s : State) : Answer :=
  actT s (s.hub.mainUp && (s.hub.cell i.toNat).isSome) fun h => h.sweepFrom i.toNat slotGood

/-! ### Per-flow counts (Table 6.10) -/

/-- Run an operation on the slot that ARG0 names: 0x02 for a number above 8,191, 0x80 where no context is
resident. -/
def onSlot (h : Hub) (f : Nat → Hub × Option MbxResult) : Hub × Option MbxResult :=
  let sl := (h.arg .tsc 0).toNat
  if 8192 ≤ sl then done h (mbxErr 0x02)
  else if (h.ctx sl).state ≠ .resident then done h (mbxErr 0x80)
  else f sl

/-- FLOW_COUNTS (R188). -/
def execFlowCounts (s : State) : Answer :=
  mbxAct s .tsc 0x10 fun h => onSlot h fun sl =>
    let c := h.ctx sl
    done h (mbxOk [w32 c.cntPennant, w32 c.cntAdmit, w32 c.cntReset, w32 c.cntGap, w32 c.cntDup, w32 c.cntLate])

/-- FLOW_COUNTS_CLEAR (R188). -/
def execFlowCountsClear (s : State) : Answer :=
  mbxAct s .tsc 0x11 fun h => onSlot h fun sl =>
    done (h.updCtx sl fun c => { c with
      cntPennant := 0
      cntAdmit := 0
      cntReset := 0
      cntGap := 0
      cntDup := 0
      cntLate := 0
      cntFoyer := 0
      cntExit := 0 }) (mbxOk [])

/-- RESEQ_STATE (R188). -/
def execReseqState (s : State) : Answer :=
  mbxAct s .tsc 0x12 fun h => onSlot h fun sl =>
    let c := h.ctx sl
    done h (mbxOk [w32 (c.rsqNext + b2n c.rsqSet * 2 ^ 16 + c.held.length * 2 ^ 17),
      w32 ((c.held.head?.map fun (f : HeldFrame) => f.fseq).getD 0),
      w32 (c.held.foldl (fun n (f : HeldFrame) => n + f.cells.length) 0)])

/-- FLOW_COUNTS_EXIT (R188). -/
def execFlowCountsExit (s : State) : Answer :=
  mbxAct s .tsc 0x15 fun h => onSlot h fun sl =>
    let c := h.ctx sl
    done h (mbxOk [w32 c.cntExit, w32 c.cntFoyer])

/-- TSC_KITTY_MIN.CLR sets MIN to KITTY. -/
def Hub.kittyMinClr (h : Hub) : Hub := h.wrF Reg.TSC_KITTY_MIN 16 0 h.counts.kitty.toNat

/-- KITTY_MIN_CLR (R187). -/
def execKittyMinClr (s : State) : Answer := act s s.hub.mainUp Hub.kittyMinClr

/-- TP_PEND_MAX.CLR restarts the maximum from the present total. -/
def Hub.pendMaxClr (h : Hub) (p : Nat) : Hub := h.wrF (Reg.TP_PEND_MAX p) 16 0 (h.pendTotal p)

/-- PEND_MAX_CLR (R187). -/
def execPendMaxClr (p : PortNo) (s : State) : Answer := act s s.hub.mainUp fun h => h.pendMaxClr p

/-- LEDGER_TIME_LO_READ (R187). -/
def execLedgerTimeLoRead (s : State) : Answer :=
  act s s.hub.mainUp fun h => h.latchHi Reg.TSC_LEDGER_TIME_LO Reg.TSC_LEDGER_TIME_HI

end Sys2Proof.Machine
end

