-- ==== Sys2Proof/Machine/Fcm.lean ====
section
/-! DEFINITION. The flow-context commands (R190–R225): mailbox operations, paging events, timeouts, maxima. -/

namespace Sys2Proof.Machine

/-- The flow that a request names: by handle, or by slot where ARG1 bit 31 is 1 (R224). Slots 0 to 8 serve
FLOW_READ only (R191). -/
inductive Named where
  | slot (s : Nat)
  | absent (flow : Nat)
  | bad
  deriving DecidableEq, Repr

/-- Resolve the name of a request of FCM. -/
def Hub.named (h : Hub) (lowSlots : Bool) : Named :=
  let a := (h.arg .fcm 0).toNat
  if bit (h.arg .fcm 1) 31 then
    let s := a % 8192
    if s < 9 ∧ lowSlots = false then .bad else .slot s
  else if 0xFFC000 ≤ a then .bad
  else
    match h.lookup a with
    | .resident s => .slot s
    | .dummy s => .slot s
    | .miss => .absent a

/-- FLOW_CREATE's effect and result (R196), of a handle and template words. -/
def Hub.flowCreateOn (h : Hub) (flow : Nat) (w : List Word) : Hub × Option MbxResult :=
  let c := ({ handle := flow } : Ctx).withPolicy w
  let pin := bit (w.getD 0 0) 29 || decide (c.tc = 7)
  if 0xFFC000 ≤ flow then done h (mbxErr 0x02)
  else if h.lookup flow ≠ .miss then done h (mbxErr 0x83)
  else if pin ∧ 6144 ≤ h.pinned then done h (mbxErr 0x03)
  else
    match if h.storeOn && !h.pathDown then h.slotFor else h.freeSlot with
    | none => done h (mbxErr 0x03)
    | some s =>
      let v := h.ctx s
      let h := (if v.state = .resident then h.recDrop v.handle else h).setCtx s { c with state := .resident, lrs := h.mono, shapeOn := c.shaped }
      let h := if v.state = .resident then
          h.writeBack v.handle ((v.gen + 1) % 2 ^ 32) .victim (v.image ((v.gen + 1) % 2 ^ 32)) else h
      let h := if pin then h.pinSlot s else h
      let h := h.payOwed s
      let h := h.updPaging fun p => { p with
        lost := p.lost.filter fun x => x ≠ flow
        waits := p.waits.filter fun x => x.1 ≠ flow }
      done ((h.leaveFoyers s).ctxNote 0 s) (mbxOk [w32 s])

/-- FLOW_CREATE's effect and result (R196). A request that names a slot names the flow in it, which has its context already; a slot of
R191 and one without a flow give 0x02 (R191, R224). (Log entry 63, DESIGN CHOICE.) -/
def Hub.flowCreate (h : Hub) : Hub × Option MbxResult :=
  let a := (h.arg .fcm 0).toNat
  if bit (h.arg .fcm 1) 31 then
    let s := a % 8192
    let st := (h.ctx s).state
    if 9 ≤ s ∧ (st = .resident ∨ st = .dummy) then done h (mbxErr 0x83) else done h (mbxErr 0x02)
  else h.flowCreateOn a h.template

/-- FLOW_CREATE (R196). -/
def execFlowCreate (s : State) : Answer :=
  act s (s.hub.opRunning .fcm 0x10) fun h => h.tscWatch (h.runOp .fcm 0x10 Hub.flowCreate)

/-- An operation waits for the page-in of its flow. -/
def Hub.opWaits (h : Hub) (op flow : Nat) : Hub :=
  if h.paging.op = some op then h else h.updPaging fun p => { p with op := some op, opFlow := flow, opAt := h.mono }

/-- An operation needs a page-in of a flow without a context: it waits for the page-in, or fails with the log
reason (Table 7.13, 0x80). -/
def Hub.opPages (h : Hub) (op flow : Nat) : Hub × Option MbxResult :=
  if h.paging.op = some op then (h, none)
  else
    match h.noPage flow with
    | some r => (h, some { err := 0x80, data := [w32 r] })
    | none => ((h.opWaits op flow).wantPage flow, none)

/-- FLOW_POLICY's effect (R197): the policy is checked and waits for the FCM commit cycle of the first deal epoch
boundary at least 1 µs after the request. -/
def Hub.flowPolicy (h : Hub) : Hub × Option MbxResult :=
  let w := h.template
  match h.named false with
  | .bad => done h (mbxErr 0x02)
  | .absent f => h.opPages 0x11 f
  | .slot s =>
    let c := h.ctx s
    match c.state with
    | .dummy => (h.opWaits 0x11 c.handle, none)
    | .resident =>
      if (fld (w.getD 0 0) 26 24 = 7) ≠ (c.tc = 7) then done h (mbxErr 0x82)
      else if h.paging.policy.any fun x => x.viaOp then (h, none)
      else (h.updPaging fun p => { p with policy := p.policy ++ [⟨s, h.mono, w, true⟩] }, none)
    | _ => done h (mbxErr 0x81)

/-- FLOW_POLICY (R197). -/
def execFlowPolicy (s : State) : Answer := mbxAct s .fcm 0x11 Hub.flowPolicy

/-- FLOW_PIN's effect and result (R199). -/
def Hub.flowPin (h : Hub) : Hub × Option MbxResult :=
  match h.named false with
  | .bad => done h (mbxErr 0x02)
  | .absent f => if 6144 ≤ h.pinned then done h (mbxErr 0x03) else h.opPages 0x12 f
  | .slot s =>
    let c := h.ctx s
    match c.state with
    | .dummy => (h.opWaits 0x12 c.handle, none)
    | .resident =>
      if c.pin then done h (mbxOk [w32 s, w32 h.pinned])
      else if 6144 ≤ h.pinned then done h (mbxErr 0x03)
      else
        let h := (h.pinSlot s).ctxNote 2 s
        done h (mbxOk [w32 s, w32 h.pinned])
    | _ => done h (mbxErr 0x81)

/-- FLOW_PIN (R199). -/
def execFlowPin (s : State) : Answer := mbxAct s .fcm 0x12 Hub.flowPin

/-- FLOW_UNPIN (R199): a flow that is not pinned, resident or not, is left as it is. -/
def execFlowUnpin (s : State) : Answer :=
  mbxAct s .fcm 0x13 fun h =>
    match h.named false with
    | .bad => done h (mbxErr 0x02)
    | .absent _ => done h (mbxOk [w32 h.pinned])
    | .slot s =>
      let c := h.ctx s
      if c.state = .resident ∧ c.tc = 7 then done h (mbxErr 0x82)
      else
        let h := if c.state = .resident then (h.updCtx s fun c => { c with pin := false }).ctxNote 3 s else h
        done h (mbxOk [w32 h.pinned])

/-- FLOW_DELETE's effect and result (R198). (Log entry 29, DEDUCED.) -/
def Hub.flowDelete (h : Hub) : Hub × Option MbxResult :=
  let clear := bit (h.arg .fcm 1) 0
  match h.named false with
  | .bad => done h (mbxErr 0x02)
  | .absent _ => done h { err := 0x80, data := [0x2] }
  | .slot s =>
    let c := h.ctx s
    if c.state ≠ .resident ∨ c.pin ∨ h.slotIdle s = false then
      done h (mbxErr 0x81)
    else if clear ∧ ¬ h.storeOn then done h (mbxErr 0x84)
    else
      let h := (h.ctxNote 4 s).freeSlotAt s
      if clear then
        let h := h.updPaging fun p => { p with op := some 0x14, opFlow := c.handle }
        (h.writeBack c.handle 0 .clear (List.replicate 256 0), none)
      else done h (mbxOk [])

/-- FLOW_DELETE (R198). -/
def execFlowDelete (s : State) : Answer :=
  act s (s.hub.opRunning .fcm 0x14 && s.hub.paging.op.isNone) fun h => h.tscWatch (h.runOp .fcm 0x14 Hub.flowDelete)

/-- The state code of Table 7.1. -/
def SlotState.code : SlotState → Nat
  | .free => 0 | .resident => 1 | .dummy => 2 | .writeback => 3

/-- FLOW_READ (R224). -/
def execFlowRead (s : State) : Answer :=
  mbxAct s .fcm 0x15 fun h =>
    match h.named true with
    | .bad => done h (mbxErr 0x02)
    | .absent _ => done h { err := 0x80, data := [0x2] }
    | .slot s =>
      let c := h.ctx s
      done h (mbxOk [w32 (s + c.state.code * 2 ^ 13 + b2n c.pin * 2 ^ 15), c.idWord, c.destWord, w32 c.list.length,
        w32 c.cntFoyer, w32 (c.lrs / 2 ^ 10)])

/-- FLOW_EVICT's effect (R224): a candidate is written back, and its slot is FREE when that ends. -/
def Hub.flowEvict (h : Hub) : Hub × Option MbxResult :=
  match h.named false with
  | .bad => done h (mbxErr 0x02)
  | .absent _ => done h { err := 0x80, data := [0x2] }
  | .slot s =>
    let c := h.ctx s
    if ¬ h.storeOn then done h (mbxErr 0x84)
    else if h.candidate s = false then done h (mbxErr 0x81)
    else
      let gen := (c.gen + 1) % 2 ^ 32
      let h := h.setCtx s { c with state := .writeback }
      let h := h.updPaging fun p => { p with op := some 0x16, opFlow := c.handle }
      (h.writeBack c.handle gen .evict (c.image gen), none)

/-- FLOW_EVICT (R224). -/
def execFlowEvict (s : State) : Answer :=
  act s (s.hub.opRunning .fcm 0x16 && s.hub.paging.op.isNone) fun h => h.tscWatch (h.runOp .fcm 0x16 Hub.flowEvict)

/-! ### Paging events -/

/-- PAGE_IN_START (R212): a page-in that waited for the tag limit starts. -/
def execPageInStart (s : State) : Answer :=
  actT s (s.hub.mainUp && !s.hub.paging.waits.isEmpty && s.hub.canPage && s.hub.storeOn && !s.hub.pathDown)
    Hub.startWaiting

/-- SLOT_GRANT (R214): a slot that became FREE or a candidate goes to the page-in whose oldest frame came first. -/
def execSlotGrant (s : State) : Answer :=
  actT s (s.hub.mainUp && !s.hub.paging.waits.isEmpty && s.hub.canPage && s.hub.storeOn && !s.hub.pathDown)
    Hub.startWaiting

/-- PAGE_READ_RX (R210, R211): a PAGE_READ from hub `src` reaches the steward. The ROOT serves it through its
paging queue; any other hub answers STATUS 0x01. A request that the aperture refuses counts as served.
(Log entry 60, DESIGN CHOICE.) -/
def execPageReadRx (src : BitVec 14) (req : BitVec 16) (flow : BitVec 24) (addr : BitVec 64) (s : State) : Answer :=
  actT s (s.hub.mainUp) fun h =>
    let r : PageReq :=
      { hub := some src.toNat, req := req.toNat, flow := flow.toNat, addr := addr.toNat, image := none }
    if h.role = .root then (h.inc Reg.FCM_PAGE_SERVED).pageSubmit r else h.pageAnswer r 1 []

/-- PAGE_WRITE_RX (R210, R211): a PAGE_WRITE reaches the steward. -/
def execPageWriteRx (src : BitVec 14) (req : BitVec 16) (flow : BitVec 24) (addr : BitVec 64) (image : List Byte)
    (s : State) : Answer :=
  actT s (s.hub.mainUp) fun h =>
    let r : PageReq :=
      { hub := some src.toNat, req := req.toNat, flow := flow.toNat, addr := addr.toNat, image := some image }
    if h.role = .root then (h.inc Reg.FCM_PAGE_SERVED).pageSubmit r else h.pageAnswer r 1 []

/-- A received STATUS: reserved codes act as 0x02 (Table 7.4). -/
def pageStatus (st : Nat) : Nat := if st ≤ 4 then st else 2

/-- PAGE_DATA_RX (R209): a PAGE_DATA reaches the steward. -/
def execPageDataRx (req : BitVec 16) (status : Byte) (image : List Byte) (s : State) : Answer :=
  actT s s.hub.mainUp fun h => h.pageData req.toNat (pageStatus status.toNat) image

/-- PAGE_WRITE_ACK_RX (R212). -/
def execPageWriteAckRx (req : BitVec 16) (status : Byte) (s : State) : Answer :=
  actT s s.hub.mainUp fun h => h.wbAck req.toNat (pageStatus status.toNat)

/-- PAGE_IN_TIMEOUT (R212): 1 ms without PAGE_DATA. -/
def execPageInTimeout (req : BitVec 16) (s : State) : Answer :=
  actT s s.hub.mainUp fun h =>
    match h.paging.ins.find? fun (x : PageIn) => x.req = req.toNat ∧ x.issued + 1000000 ≤ h.mono with
    | some pi => h.pageFail pi 5
    | none => h

/-- WRITEBACK_TIMEOUT (R212): 1 ms without PAGE_WRITE_ACK. -/
def execWritebackTimeout (req : BitVec 16) (s : State) : Answer :=
  actT s s.hub.mainUp fun h =>
    match h.paging.wbs.find? fun (x : WriteBack) => x.req = req.toNat ∧ x.issued + 1000000 ≤ h.mono with
    | some w => h.wbEnd w false
    | none => h

/-- FCM_FOYER_WAIT in force, in ns. -/
def Hub.foyerWait (h : Hub) : Nat := 1000 * clampN 1 10000 (h.rdF Reg.FCM_FOYER_WAIT 13 0)

/-- The oldest frame of a foyer that is not waiting for its admission, once it has been there for FCM_FOYER_WAIT (R204). -/
def Hub.foyerDue (h : Hub) (p : Nat) : Option FoyFrame :=
  (h.foyer p).find? fun (f : FoyFrame) => f.waiting = false ∧ f.since + h.foyerWait ≤ h.mono

/-- A frame has timed out in a foyer (R204). -/
def Hub.foyerDrop (h : Hub) (p : Nat) : Hub :=
  match h.foyerDue p with
  | none => h
  | some f =>
    let d := h.lookup f.flow
    let h := (h.dropEvent p (h.foyTc f)).countFlow p f.flow .foyer
    let h := (h.foyLeave p f).freeCells f.cells
    let h := if f.complete then h else h.foyClose p f.flow
    let h := (h.rlog f.flow (if d = .miss then 0 else 9) p).inc (Reg.FY_DROP p)
    let h := ((h.inc Reg.FCM_FOYER_DROP).attn .fcm 0).fault .fcm 0
    if (List.range 22).any (fun q => (h.foyer q).any fun (g : FoyFrame) => g.flow = f.flow)
        || (h.paging.op.isSome && decide (h.paging.opFlow = f.flow)) then h
    else h.updPaging fun x => { x with waits := x.waits.filter fun w => w.1 ≠ f.flow }

/-- FOYER_TIMEOUT (R204): the oldest frame of a port's foyer has waited FCM_FOYER_WAIT. -/
def execFoyerTimeout (p : PortNo) (s : State) : Answer :=
  actT s (s.hub.mainUp && (s.hub.foyerDue p).isSome) fun h => h.foyerDrop p

/-- PAGE_PATH_HOLD_END (R218): 10 ms after the last STATUS 0x04. -/
def execPagePathHoldEnd (s : State) : Answer :=
  actT s (s.hub.mainUp && s.hub.paging.hold && decide (s.hub.paging.holdFrom + 10000000 ≤ s.hub.mono)) fun h => (h.updPaging fun p => { p with hold := false }).pathCheck

/-- FY_MAX.CLR. -/
def Hub.fyMaxClr (h : Hub) (p : Nat) : Hub := h.wrF (Reg.FY_MAX p) 11 0 (h.foyCells p)
/-- FY_MAX_CLR (R223). -/
def execFyMaxClr (p : PortNo) (s : State) : Answer := act s s.hub.mainUp fun h => h.fyMaxClr p

/-- FY_WAIT_MAX.CLR. -/
def Hub.fyWaitMaxClr (h : Hub) (p : Nat) : Hub := h.wr (Reg.FY_WAIT_MAX p) 0
/-- FY_WAIT_MAX_CLR (R223). -/
def execFyWaitMaxClr (p : PortNo) (s : State) : Answer := act s s.hub.mainUp fun h => h.fyWaitMaxClr p

/-- FCM_PAGE_LAT_MAX.CLR. -/
def Hub.pageLatMaxClr (h : Hub) : Hub := h.wr Reg.FCM_PAGE_LAT_MAX 0
/-- PAGE_LAT_MAX_CLR (R223). -/
def execPageLatMaxClr (s : State) : Answer := act s s.hub.mainUp Hub.pageLatMaxClr

end Sys2Proof.Machine
end

