-- ==== Sys2Proof/Machine/Pxb.lean ====
section
/-! DEFINITION. The PCIe bridge (R356–R378): windows, bridged frames, pending records and tags, marks, splits, late errors,
messages, prefetch. -/

namespace Sys2Proof.Machine

/-- Change the bridge. -/
def Hub.updPxb (h : Hub) (f : Pxb → Pxb) : Hub := { h with pxb := f h.pxb }

/-- PX_STAT.LINK_UP. -/
def Hub.pxLink (h : Hub) : Bool := h.rdB Reg.PX_STAT 0

/-- The bridge may issue requests on its link: it is up, and at a ROOT endpoint Bus Master Enable is set (Table 14.5). -/
def Hub.pxMaster (h : Hub) : Bool := h.pxLink && (decide (h.role = .leaf) || h.rdB Reg.PX_STAT 7)

/-- Answer a requester on the bridge's own link. -/
def Hub.pxCpl (h : Hub) (tag status : Nat) (poisoned : Bool) (data : List Byte) : Hub :=
  if h.pxLink then h.emit (.tlp (.cpl tag status poisoned data)) else h

/-! ### Bridged frames (R360) -/

/-- A little-endian field of a frame. -/
def brF (b : List Byte) (o n : Nat) : Nat := leVal ((b.drop o).take n)

/-- The data of a bridged frame. -/
def brData (b : List Byte) : List Byte := b.drop 32

/-- LEN of a bridged frame. -/
def brLen (b : List Byte) : Nat := brF b 4 2 % 8192

/-- The header of Table 14.2. -/
def brHeader (kind win tag len be status addr mark src retN retP part pflow : Nat) : List Byte :=
  leBytes 1 kind ++ leBytes 1 win ++ leBytes 2 tag ++ leBytes 2 len ++ leBytes 1 be ++ leBytes 1 status ++ leBytes 8 addr
    ++ leBytes 2 mark ++ leBytes 2 src ++ leBytes 3 retN ++ leBytes 3 retP ++ leBytes 2 part ++ leBytes 3 pflow ++ leBytes 1 0

/-- The frame's KIND is known and its length agrees with LEN: reads carry no data, the others LEN bytes (R360). -/
def brGood (b : List Byte) : Bool :=
  let k := brF b 0 1
  decide (1 ≤ k) && decide (k ≤ 8) && decide (brLen b ≤ 4096)
    && decide (b.length = 32 + (if k = 3 ∨ k = 4 then 0 else brLen b))

/-- Frames of a flow that wait at port P for their admission. -/
def Hub.pxWaiting (h : Hub) (flow : Nat) : Nat :=
  (h.waits.filter fun (w : WaitFrame) => w.port = 0x0D ∧ w.flow = flow).length
    + ((h.foyer 0x0D).filter fun (f : FoyFrame) => f.flow = flow).length

/-- P_MARK (Table 14.2): the FSEQ of the last frame sent on a posted flow; open while the flow's context is not here. -/
def Hub.pMark (h : Hub) (flow : Nat) : Hub × Nat :=
  match h.lookup flow with
  | .resident s => (h, ((h.ctx s).inseq + h.pxWaiting flow + 65535) % 65536)
  | _ =>
    let (w, h) := h.draw
    (h, w.toNat % 65536)

/-- Send a frame from port P. -/
def Hub.pxSend (h : Hub) (flow : Nat) (b : List Byte) : Hub := (h.edgeFrame 0x0D flow b).1

/-! ### Late errors (R370, R371) -/

/-- Words 0 to 5 of a late-error record (Table 14.7). -/
def lateWords (win : Nat) (remote : Bool) (code peer addr bytes fseq time : Nat) : List Word :=
  [w32 (win % 8 + 8 * b2n remote + 256 * code + 65536 * (peer % 16384)), lo32 addr, hi32 addr,
    w32 (bytes % 8192 + 65536 * (fseq % 65536)), lo32 time, hi32 time]

/-- Enter a record into the ring of 16 and advance NEXT. -/
def Hub.latePut (h : Hub) (ws : List Word) : Hub :=
  let i := h.rdF Reg.PX_LATE_HEAD 3 0
  let h := (ws.zipIdx).foldl (fun h e => h.wr (Reg.PX_LATE_RING (8 * i + e.2)) e.1) h
  (h.wrF Reg.PX_LATE_HEAD 3 0 ((i + 1) % 16)).incF Reg.PX_LATE_HEAD 31 16

/-- Record a late error here (R370). -/
def Hub.lateLocal (h : Hub) (ws : List Word) : Hub := ((h.latePut ws).attn .pxb 0).fault .pxb 0

/-- An MWR frame cannot be completed here: it is recorded, and a LATE frame tells the initiator (R370). -/
def Hub.lateError (h : Hub) (f : ExitFrame) (code : Nat) : Hub :=
  let b := f.bytes
  let ws := lateWords (brF b 1 1 % 8) false code (brF b 18 2) (brF b 8 8) (brLen b) f.fseq h.now
  let h := h.lateLocal ws
  let hd := brHeader 8 (brF b 1 1 % 8) 0 24 0 0 (brF b 8 8) 0 h.hubId 0 0 0 0
  h.pxSend (brF b 23 3) (hd ++ wordBytes ws)

/-- A LATE frame reaches the initiator (R370, R371): the record is copied with REMOTE, and may fence its window. -/
def Hub.lateRx (h : Hub) (f : ExitFrame) : Hub :=
  let w := fun k => imgWord (brData f.bytes) k
  let win := fld (w 0) 2 0
  let w0 := setFld (setBit (w 0) 3 true) 29 16 (brF f.bytes 18 2)
  let h := ((h.latePut [w0, w 1, w 2, w 3, w 4, w 5]).attn .pxb 1).fault .pxb 0
  let h := h.inc (Reg.PW_LATE win)
  if h.rdB (Reg.PW_CFG win) 4 then (h.wrB (Reg.PW_STAT win) 0 true).attn .pxb 2 else h

/-- FENCE_CLR (R371). -/
def execFenceClr (w : Fin 8) (s : State) : Answer :=
  act s (s.hub.up .pxb) fun h => h.wrB (Reg.PW_STAT w) 0 false

/-! ### Prefetch (R373) -/

/-- The held bytes of a window are discarded; those never served are counted. -/
def Hub.pfDiscard (h : Hub) (w : Nat) : Hub :=
  match Tab.find h.pxb.pf w with
  | none => h
  | some p =>
    let h := h.updPxb fun x => { x with pf := Tab.del x.pf w }
    let n := (p.unread.filter id).length
    if n = 0 then h
    else
      let h := (h.inc Reg.PX_PF_DISCARD n).attn .pxb 7
      if h.pxb.pfSet then h
      else (h.wrWide Reg.PX_PF_FIRST_LO (p.addr + p.unread.idxOf true)).updPxb fun x => { x with pfSet := true }

/-- PF_AGE of a window in ns. -/
def Hub.pfAge (h : Hub) (w : Nat) : Nat := 1000 * clampN 1 1000 (h.rdF (Reg.PW_PF w) 25 16)

/-- The held bytes wholly contain a read, in time (PF_AGE). -/
def Hub.pfHit (h : Hub) (w addr len : Nat) : Option (List Byte) :=
  match Tab.find h.pxb.pf w with
  | none => none
  | some p =>
    if p.addr ≤ addr ∧ addr + len ≤ p.addr + p.data.length ∧ h.mono ≤ p.since + h.pfAge w then
      some ((p.data.drop (addr - p.addr)).take len)
    else none

/-- Mark held bytes as served. -/
def Hub.pfServe (h : Hub) (w addr len : Nat) : Hub :=
  match Tab.find h.pxb.pf w with
  | none => h
  | some p =>
    let k := addr - p.addr
    let p' := { p with unread := p.unread.take k ++ List.replicate len false ++ p.unread.drop (k + len) }
    h.updPxb fun x => { x with pf := Tab.put x.pf w p' }

/-- PREFETCH_AGE_EXPIRE (R373): PF_AGE has passed since the fetch. -/
def execPrefetchAgeExpire (w : Fin 8) (s : State) : Answer :=
  act s (s.hub.up .pxb && (Tab.find s.hub.pxb.pf w).elim false fun p => decide (p.since + s.hub.pfAge w ≤ s.hub.mono)) fun h =>
    h.pfDiscard w

/-- PX_PF_CTL.CLR: PX_PF_DISCARD and PX_PF_FIRST restart (Table 14.9). -/
def Hub.pfClr (h : Hub) : Hub :=
  ((h.wr Reg.PX_PF_DISCARD 0).wrWide Reg.PX_PF_FIRST_LO 0).updPxb fun x => { x with pfSet := false }

/-- PF_CLR (R373). -/
def execPfClr (s : State) : Answer := act s (s.hub.up .pxb) fun h => h.pfClr

/-- PF_FIRST_LO_READ (R376). -/
def execPfFirstLoRead (s : State) : Answer :=
  act s (s.hub.up .pxb) fun h => h.latchHi Reg.PX_PF_FIRST_LO Reg.PX_PF_FIRST_HI

/-! ### Messages (R366, R367) -/

/-- A far event becomes a bridge message in the posted flow of MSG_WIN (R366), when MSG_EN is 1. -/
def Hub.pxMessage (h : Hub) (kind : Nat) (data : Word) : Hub :=
  let cfg := h.rd Reg.PX_CFG
  if bit cfg 7 then
    let w := fld cfg 10 8
    let e := [w32 (kind + 256 + 65536 * h.hubId), data, lo32 h.now, hi32 h.now]
    let hd := brHeader 7 w 0 16 0 0 0 0 h.hubId (h.rdF (Reg.PW_RET_N w) 23 0) (h.rdF (Reg.PW_RET_P w) 23 0) 0
      (h.rdF (Reg.PW_FLOW_P w) 23 0)
    h.pxSend (h.rdF (Reg.PW_FLOW_P w) 23 0) (hd ++ wordBytes e)
  else h

/-- MSI_CAPTURE (R366): a device write to the MSI range, or an INTx, error or link-state message, at a LEAF root port. -/
def execMsiCapture (kind : Fin 5) (data : Word) (s : State) : Answer :=
  actT s (s.hub.works .pxb && decide (s.hub.role = .leaf) && s.hub.pxLink) fun h => h.pxMessage kind data

/-- A GPIO ball takes a level; an edge that PX_GPIO_CFG selects becomes a message (R375). -/
def Hub.gpioTo (h : Hub) (n : Fin 8) (level : Bool) : Hub :=
  let g := if level then h.pins.gpio ||| 2 ^ n.val else h.pins.gpio - (h.pins.gpio &&& 2 ^ n.val)
  let h := { h with pins := { h.pins with gpio := g } }
  let sel := h.rdB Reg.PX_GPIO_CFG (if level then n else 8 + n)
  if sel && h.works .pxb then
    h.pxMessage 3 (w32 ((if level then 2 ^ n.val else 2 ^ (8 + n.val)) + 65536 * g))
  else h

/-- GPIO_EDGE (R366): a GPIO ball changes to a level; a selected edge becomes a message. -/
def execGpioEdge (n : Fin 8) (level : Bool) (s : State) : Answer :=
  actT s (s.hub.mainUp && decide (s.hub.pins.gpio.testBit n ≠ level)) fun h => h.gpioTo n level

/-- A message reaches the queue (R366): merged into the newest entry, entered, or none while the queue is full. -/
def Hub.mqPut (h : Hub) (e : List Word) : Option Hub :=
  let rd := h.rdF Reg.PX_MQ_STAT 7 0
  let n := h.rdF Reg.PX_MQ_STAT 24 16
  let last := (rd + n + 255) % 256
  let old := fun k => h.rd (Reg.PX_MQ (4 * last + k))
  let w := fun k => e.getD k 0
  if n ≠ 0 ∧ fld (old 0) 3 0 = fld (w 0) 3 0 ∧ fld (old 0) 29 16 = fld (w 0) 29 16 ∧ old 1 = w 1 then
    let h := h.wr (Reg.PX_MQ (4 * last)) (setFld (old 0) 15 8 (holdAt 255 (fld (old 0) 15 8 + 1)))
    some ((h.wr (Reg.PX_MQ (4 * last + 2)) (w 2)).wr (Reg.PX_MQ (4 * last + 3)) (w 3))
  else if n = 256 then none
  else
    let i := (rd + n) % 256
    let h := (List.range 4).foldl (fun h k => h.wr (Reg.PX_MQ (4 * i + k)) (w k)) h
    some ((h.wrF Reg.PX_MQ_STAT 24 16 (n + 1)).updPxb fun x => { x with mqIn := x.mqIn + 1 })

/-- The words of a message frame's data. -/
def mqWords (b : List Byte) : List Word := (List.range 4).map (imgWord (brData b))

/-- A flow is stalled behind a full queue (R367). -/
def Hub.pxStalled (h : Hub) (flow : Nat) : Bool := h.pxb.stalled.any fun (f : ExitFrame) => f.flow = flow

/-- A frame joins a stalled flow. -/
def Hub.pxStall (h : Hub) (f : ExitFrame) : Hub := h.updPxb fun x => { x with stalled := x.stalled ++ [f] }

/-- A message frame in order (R366, R367): it enters the queue, or its flow stalls. -/
def Hub.msgRx (h : Hub) (f : ExitFrame) : Hub :=
  match h.mqPut (mqWords f.bytes) with
  | some h => h
  | none => ((h.pxStall f).inc Reg.PX_MQ_STALL).attn .pxb 8

/-! ### Tags and the far side (R362, R364, R368) -/

/-- Cut a range into parts of at most `m` bytes that cross no 4 KiB boundary (R368; fuel: the length). -/
def splitParts (m : Nat) : Nat → Nat → Nat → List (Nat × Nat)
  | 0, _, _ => []
  | f + 1, a, n =>
    if n = 0 then []
    else
      let k := min n (min m (4096 - a % 4096))
      if k = 0 then [] else (a, k) :: splitParts m f (a + k) (n - k)

/-- PX_CFG.MRRS in bytes. -/
def Hub.mrrs (h : Hub) : Nat := 128 * 2 ^ min 5 (h.rdF Reg.PX_CFG 6 4)

/-- A range lies in the accepted range (R357). -/
def Hub.accOk (h : Hub) (a n : Nat) : Bool :=
  decide (join64 (h.rd Reg.PX_ACC_BASE_LO) (h.rd Reg.PX_ACC_BASE_HI) ≤ a)
    && decide (a + n ≤ join64 (h.rd Reg.PX_ACC_LIMIT_LO) (h.rd Reg.PX_ACC_LIMIT_HI) + 1)

/-- Send a completion toward the initiator (Table 14.2). -/
def Hub.cplSend (h : Hub) (k : PxFar) (status part : Nat) (data : List Byte) : Hub :=
  let (h, mark) := h.pMark k.retP
  h.pxSend k.retN (brHeader 6 k.win k.tag data.length 0 status k.addr mark h.hubId 0 0 part k.retP ++ data)

/-- Byte enables of part p of n parts: FBE on the first, LBE on the last. -/
def partBe (fbe lbe p n : Nat) : Nat × Nat := (if p = 0 then fbe else 15, if p + 1 = n then lbe else 15)

/-- The bytes of part p of a write. -/
def PxFar.partData (k : PxFar) (p : Nat) : List Byte :=
  let before := (k.parts.take p).foldl (fun n e => n + e.2) 0
  (k.data.drop before).take ((k.parts.getD p (0, 0)).2)

/-- The type of a configuration request: 0 on bus 1, else 1 (R358). -/
def cfgType (addr : Nat) : Nat := if addr / 2 ^ 20 % 256 = 1 then 0 else 1

/-- Issue part p of a far request under tag t (R368). -/
def Hub.issuePart (h : Hub) (t p : Nat) (k : PxFar) : Hub :=
  let (a, n) := k.parts.getD p (0, 0)
  let (fbe, lbe) := partBe k.fbe k.lbe p k.parts.length
  match k.kind with
  | 2 => (h.emit (.tlp (.memWr a fbe lbe (k.partData p)))).emit (.tlp (.memRd t (a + n - 1) 0 0 0))
  | 3 => h.emit (.tlp (.memRd t a n fbe lbe))
  | 4 => h.emit (.tlp (.cfgRd t (cfgType k.addr) k.addr k.fbe))
  | _ => h.emit (.tlp (.cfgWr t (cfgType k.addr) k.addr k.fbe k.data))

/-- The first far request with a part still to issue. -/
def Hub.farWaiting (h : Hub) : Option (Nat × PxFar) := h.pxb.far.find? fun e => e.2.issued < e.2.parts.length

/-- Issue parts in order while tags are free (R362). -/
def Hub.farIssue (h : Hub) : Nat → Hub
  | 0 => h
  | n + 1 =>
    match h.farWaiting, h.freeTag with
    | some (i, k), some t =>
      let h := h.holdTag t (.bridge i k.issued)
      let h := (h.issuePart t k.issued k).updPxb fun x => { x with far := Tab.put x.far i { k with issued := k.issued + 1 } }
      Hub.farIssue h n
    | _, _ => h

/-- A far request ends: its outstanding tags stay held until their completions arrive (R368). -/
def Hub.farEnd (h : Hub) (i : Nat) : Hub :=
  { h with
    pxb := { h.pxb with far := Tab.del h.pxb.far i }
    tags := h.tags.map fun e => match e.2 with
      | .bridge j _ => if j = i then (e.1, .stale) else e
      | _ => e }

/-- The bridge takes up a far bridge's non-posted request (R357, R364, R368): refused with STATUS 0x04 or 0x01, or cut into
parts. -/
def Hub.farStart (h : Hub) (f : ExitFrame) : Hub :=
  let b := f.bytes
  let kind := brF b 0 1
  let addr := brF b 8 8
  let len := brLen b
  let k : PxFar := {
    kind := kind
    win := brF b 1 1 % 8
    tag := brF b 2 2
    src := brF b 18 2
    retN := brF b 20 3
    retP := brF b 23 3
    fbe := brF b 6 1 % 16
    lbe := brF b 6 1 / 16
    addr := addr
    parts := if kind = 3 then splitParts h.mrrs len addr len
      else if kind = 2 then splitParts (max 1 h.pxb.mps) len addr len else [(addr, len)]
    data := brData b }
  if !(h.hdr .pxb).enable ∨ h.pxMaster = false then h.cplSend k 4 0 []
  else if 4 ≤ kind ∧ h.role = .root then h.cplSend k 1 0 []
  else if kind ≤ 3 ∧ h.accOk addr len = false then h.cplSend k 4 0 []
  else if k.parts = [] then h.cplSend k 0 0 []
  else
    let i := h.pxb.nextFar
    (h.updPxb fun x => { x with far := Tab.put x.far i k, nextFar := i + 1 }).farIssue 256

/-- The mark of a frame is met (R364): the frames of P_FLOW up to P_MARK have been issued or counted as lost.
(Log entry 36, DEDUCED.) -/
def Hub.markMet (h : Hub) (b : List Byte) : Bool :=
  let flow := brF b 28 3
  let mark := brF b 16 2
  let early := fun (f : ExitFrame) => decide (f.flow = flow) && decide ((mark + 65536 - f.fseq) % 65536 < 32768)
  match h.lookup flow with
  | .resident s =>
    let c := h.ctx s
    let next := if c.reseq then c.rsqNext else c.expect
    decide ((next + 65535 - mark) % 65536 < 32768) && !h.pxb.inbox.any early && !h.pxb.stalled.any early
  | _ => !h.pxb.inbox.any early && !h.pxb.stalled.any early

/-- A posted write arrives (R364, R370): it is issued, or recorded as a late error. -/
def Hub.mwrRx (h : Hub) (f : ExitFrame) : Hub :=
  let b := f.bytes
  let addr := brF b 8 8
  if !(h.hdr .pxb).enable then h.lateError f 4
  else if !h.accOk addr (brLen b) then h.lateError f 1
  else if !h.pxMaster then h.lateError f 2
  else
    let parts := splitParts (max 1 h.pxb.mps) (brLen b) addr (brLen b)
    (parts.zipIdx.foldl (fun (a : Hub × List Byte) e =>
      let be := partBe (brF b 6 1 % 16) (brF b 6 1 / 16) e.2 parts.length
      (a.1.emit (.tlp (.memWr e.1.1 be.1 be.2 (a.2.take e.1.2))), a.2.drop e.1.2)) (h, brData b)).1

/-! ### Completions at the initiator (R361, R363, R368, R369) -/

/-- The PCIe completion of a STATUS (Table 14.4): its code, and whether it is poisoned. -/
def cplOf (status : Nat) : Nat × Bool :=
  match status with
  | 0 => (0, false)
  | 1 => (1, false)
  | 5 => (0, true)
  | _ => (4, false)

/-- A pending record ends; a sample of the tunnel's latency is taken (Table 20.1). -/
def Hub.pendEnd (h : Hub) (r : Nat) : Hub :=
  match Tab.find h.pxb.pend r with
  | none => h
  | some p =>
    (h.updPxb fun x => { x with pend := Tab.del x.pend r }).histSample 8 none none none ((h.mono - p.since : Nat) : Int)

/-- A non-posted write through a window is done (R369): its result is recorded, and the window is free. -/
def Hub.npwDone (h : Hub) (w parts mask : Nat) (failed : Bool) : Hub :=
  let h := (h.wr (Reg.PW_NPW_PARTS w) (w32 (parts % 64 + 256 * b2n failed))).wr (Reg.PW_NPW_FAILMASK w) (w32 mask)
  let h := if failed then h.attn .pxb 3 else h
  (h.wrB (Reg.PW_STAT w) 2 false).updPxb fun x => { x with npwBy := Tab.del x.npwBy w }

/-- The bytes that a read's completion brings: those asked for go to the requester, the others stay for the prefetch buffer. -/
def Hub.readCpl (h : Hub) (r : Nat) (p : PxPend) (status : Nat) (data : List Byte) : Hub :=
  let c := cplOf status
  let mine := data.take (p.len - p.got)
  let h := if mine = [] then h else h.pxCpl p.reqTag c.1 c.2 mine
  let got := p.got + data.length
  let extra := p.extra ++ data.drop (p.len - p.got)
  if got < p.len + p.ask then
    h.updPxb fun x => { x with pend := Tab.put x.pend r { p with got := got, extra := extra } }
  else
    let h := h.pendEnd r
    if extra = [] then h
    else
      let b : PfBuf := {
        addr := p.addr + p.len
        data := extra
        unread := extra.map fun _ => true
        since := h.mono }
      (h.pfDiscard p.win).updPxb fun x => { x with pf := Tab.put x.pf p.win b }

/-- A completion frame comes to its pending record (R363, R368, R369). -/
def Hub.cplIn (h : Hub) (f : ExitFrame) : Hub :=
  let b := f.bytes
  let r := brF b 2 2
  let status := brF b 7 1
  match Tab.find h.pxb.pend r with
  | none => (h.inc Reg.PX_CPL_STRAY).countExitFlow f.flow
  | some p =>
    let p := { p with resv := p.resv - cellCount b }
    let h := h.updPxb fun x => { x with pend := Tab.put x.pend r p }
    let good := decide (status = 0 ∨ status = 5)
    match p.kind with
    | 3 =>
      if good then h.readCpl r p status (brData b)
      else (if p.got < p.len then h.pxCpl p.reqTag (cplOf status).1 false [] else h).pendEnd r
    | 2 => (h.npwDone p.win (if status = 4 then 0 else brF b 26 2 + 1) (brF (brData b) 0 4) (decide (status ≠ 0))).pendEnd r
    | _ => (h.pxCpl p.reqTag (cplOf status).1 (cplOf status).2 (brData b)).pendEnd r

/-! ### Requests from the bridge's own link (R357–R361, R365, R369) -/

/-- PW_CFG.SIZE_LOG2 in force. -/
def Hub.pwSize (h : Hub) (w : Nat) : Nat := 2 ^ clampN 12 40 (h.rdF (Reg.PW_CFG w) 13 8)

/-- PW_BASE. -/
def Hub.pwBase (h : Hub) (w : Nat) : Nat := join64 (h.rd (Reg.PW_BASE_LO w)) (h.rd (Reg.PW_BASE_HI w))

/-- The lowest enabled window that an address falls in (R357); PW_BASE is aligned to the size. -/
def Hub.pwOf (h : Hub) (a : Nat) : Option Nat :=
  (List.range 8).find? fun w => h.rdB (Reg.PW_CFG w) 0 && decide (h.pwBase w / h.pwSize w = a / h.pwSize w)

/-- A configuration window (R358). -/
def Hub.pwCfg (h : Hub) (w : Nat) : Bool := h.rdB (Reg.PW_CFG w) 1

/-- The offset of an address in its window. -/
def Hub.pwOff (h : Hub) (w a : Nat) : Nat := a % h.pwSize w

/-- A request stays inside its window, and in a configuration window is an aligned access of 4 bytes (R357, R358). -/
def Hub.pwFits (h : Hub) (w : Nat) (r : PcieReq) : Bool :=
  decide (h.pwOff w r.addr + r.len ≤ h.pwSize w)
    && (!h.pwCfg w || (decide (r.len = 4) && decide (r.addr % 4 = 0) && decide (2 ^ 20 ≤ h.pwSize w)))

/-- The far address of a request: the ECAM offset in a configuration window (R357, R358, Table 14.2). -/
def Hub.pwFar (h : Hub) (w a : Nat) : Nat :=
  if h.pwCfg w then h.pwOff w a % 2 ^ 28
  else (join64 (h.rd (Reg.PW_XLAT_LO w)) (h.rd (Reg.PW_XLAT_HI w)) + h.pwOff w a) % 2 ^ 64

/-- The frame kind of a request (Table 14.3). -/
def Hub.pwKind (h : Hub) (w : Nat) (write : Bool) : Nat :=
  if h.pwCfg w then (if write then 5 else 4)
  else if write then (if h.rdB (Reg.PW_CFG w) 2 then 2 else 1) else 3

/-- The TARGET of a window can be reached (R375). -/
def Hub.pwRoute (h : Hub) (w : Nat) : Bool := (h.route (h.rdF (Reg.PW_CFG w) 29 16)).isSome

/-- The bytes that a read through a prefetching window asks for beyond its own (R373). -/
def Hub.pfAsk (h : Hub) (w a len : Nat) : Nat :=
  if h.rdB (Reg.PW_CFG w) 3 && !h.pwCfg w then
    let n := 256 * 2 ^ min 4 (h.rdF (Reg.PW_PF w) 2 0)
    (n - a % n) - len
  else 0

/-- The cells to reserve for a request's completions (R365). -/
def resvCells (len : Nat) : Nat := max 1 (3 * ((len + 511) / 512))

/-- The frame of a request through a window. -/
def Hub.pwFrame (h : Hub) (w kind tag len : Nat) (r : PcieReq) (mark : Nat) : List Byte :=
  brHeader kind w tag len (r.fbe + 16 * r.lbe) 0 (h.pwFar w r.addr) mark h.hubId (h.rdF (Reg.PW_RET_N w) 23 0)
    (h.rdF (Reg.PW_RET_P w) 23 0) 0 (h.rdF (Reg.PW_FLOW_P w) 23 0) ++ (if r.write then r.data else [])

/-- A pending record and completion room are free for a request through a window (R361, R365). -/
def Hub.npReady (h : Hub) (len : Nat) : Bool :=
  decide (h.pxb.pend.length < 128)
    && decide (h.pendC 0x0D 2 + h.pxReserved + resvCells len ≤ h.rdF (Reg.TP_EG_LIMIT 0x0D 2) 16 0)

/-- Send a non-posted request (R361, R364, R365): it holds the lowest free pending record. -/
def Hub.npSend (h : Hub) (w : Nat) (r : PcieReq) : Hub :=
  let kind := h.pwKind w r.write
  let ask := if kind = 3 then h.pfAsk w r.addr r.len else 0
  let rec' := ((gaps 128 (Tab.keys h.pxb.pend) 0 1).head?).getD 0
  let (h, mark) := h.pMark (h.rdF (Reg.PW_FLOW_P w) 23 0)
  let p : PxPend := { win := w, reqTag := r.tag, kind := kind, addr := r.addr, len := r.len, got := 0, ask := ask,
                      resv := resvCells (r.len + ask), since := h.mono }
  let h := h.updPxb fun x => { x with
    pend := Tab.put x.pend rec' p
    npwBy := if kind = 2 then Tab.put x.npwBy w rec' else x.npwBy }
  (h.pxSend (h.rdF (Reg.PW_FLOW_N w) 23 0) (h.pwFrame w kind rec' (r.len + ask) r mark)).inc (Reg.PW_REQS w)

/-- A request is answered as a miss (R357). -/
def Hub.pxMiss (h : Hub) (r : PcieReq) : Hub :=
  let h := (h.inc Reg.PX_UR_IN).attn .pxb 6
  if r.write then h else h.pxCpl r.tag 1 false []

/-- A request to a TARGET with no route (R375). -/
def Hub.pxNoRoute (h : Hub) (w : Nat) (r : PcieReq) : Hub :=
  if h.pwKind w r.write = 1 then h.lateLocal (lateWords w false 4 h.hubId (h.pwFar w r.addr) r.len 0 h.now)
  else if h.pwKind w r.write = 2 then h.npwDone w 0 0 true
  else h.pxCpl r.tag 4 false []

/-- A non-posted request is sent, or waits in order for a record or room (R361, R365). -/
def Hub.npTake (h : Hub) (w : Nat) (r : PcieReq) : Hub :=
  let kind := h.pwKind w r.write
  let len := r.len + (if kind = 3 then h.pfAsk w r.addr r.len else 0)
  let h := if kind = 2 then
      (h.wrB (Reg.PW_STAT w) 2 true).updPxb fun x => { x with npwBy := Tab.put x.npwBy w 128 }
    else h
  if h.pxb.npWait = [] ∧ h.npReady len = true then h.npSend w r
  else h.updPxb fun x => { x with npWait := x.npWait ++ [(w, r)] }

/-- A request through window w (R357, R369, R371, R373). -/
def Hub.pwTake (h : Hub) (w : Nat) (r : PcieReq) : Hub :=
  let kind := h.pwKind w r.write
  if (Tab.find h.pxb.npwBy w).isSome then h.updPxb fun x => { x with npwHeld := x.npwHeld ++ [(w, r)] }
  else if r.write && kind ≤ 2 && h.rdB (Reg.PW_STAT w) 0 then h.inc (Reg.PW_FENCE_DROP w)
  else
    match (if kind = 3 then h.pfHit w r.addr r.len else none) with
    | some d => (h.pfServe w r.addr r.len).pxCpl r.tag 0 false d
    | none =>
      let h := if r.write ∨ kind = 3 then h.pfDiscard w else h
      if !h.pwRoute w then h.pxNoRoute w r
      else if kind = 1 then
        let (h, mark) := h.pMark (h.rdF (Reg.PW_FLOW_P w) 23 0)
        (h.pxSend (h.rdF (Reg.PW_FLOW_P w) 23 0) (h.pwFrame w 1 0 r.len r mark)).inc (Reg.PW_REQS w)
      else h.npTake w r

/-- A request from the bridge's link toward the windows (R357, R366): at a LEAF a write to the MSI range is a message. -/
def Hub.pxTake (h : Hub) (r : PcieReq) : Hub :=
  let msi := join64 (h.rd Reg.PX_MSI_BASE_LO) (h.rd Reg.PX_MSI_BASE_HI)
  if h.role = .leaf ∧ r.write = true ∧ msi ≤ r.addr ∧ r.addr < msi + 4096 then
    h.pxMessage 0 (imgWord (r.data ++ [0, 0, 0, 0]) 0)
  else
    match h.pwOf r.addr with
    | none => h.pxMiss r
    | some w => if h.pwFits w r then h.pwTake w r else h.pxMiss r

/-- Requests that a finished non-posted write through a window held back are taken in order, until another one holds them
(R369; fuel: their number). -/
def Hub.npwResume (h : Hub) (w : Nat) : Nat → Hub
  | 0 => h
  | n + 1 =>
    if (Tab.find h.pxb.npwBy w).isSome then h
    else
      match h.pxb.npwHeld.find? fun e => e.1 = w with
      | none => h
      | some e => ((h.updPxb fun x => { x with npwHeld := x.npwHeld.erase e }).pwTake w e.2).npwResume w n

/-- The windows whose non-posted write has ended take their held requests. -/
def Hub.npwResumeAll (h : Hub) : Hub :=
  (List.range 8).foldl (fun h w => h.npwResume w h.pxb.npwHeld.length) h

/-- The first waiting non-posted request can be sent now, with its window. -/
def Hub.npNext (h : Hub) : Option (Nat × PcieReq) :=
  match h.pxb.npWait with
  | [] => none
  | (w, r) :: _ =>
    let len := r.len + (if h.pwKind w r.write = 3 then h.pfAsk w r.addr r.len else 0)
    if h.npReady len then some (w, r) else none

/-- The oldest waiting non-posted request leaves, now that its reserve is there (R365). -/
def Hub.npGrant (h : Hub) : Hub :=
  match h.npNext with
  | none => h
  | some (w, r) => (h.updPxb fun x => { x with npWait := x.npWait.tail }).npSend w r

/-- NP_RESERVE_GRANT (R365): the request that has waited longest takes a record, reserves its cells and is sent. -/
def execNpReserveGrant (s : State) : Answer :=
  actT s (s.hub.works .pxb && s.hub.npNext.isSome) Hub.npGrant

/-! ### Frames that have left the fabric at P -/

/-- Take the head frame off the inbox; a frame of a stalled flow joins it (R367). -/
def Hub.pxPop (h : Hub) (f : ExitFrame) (g : Hub → Hub) : Hub :=
  let h := h.updPxb fun x => { x with inbox := x.inbox.tail }
  if h.pxStalled f.flow then h.pxStall f else g h

/-- Deliver a frame whose mark is met or passed over. -/
def Hub.pxDeliver (h : Hub) (f : ExitFrame) : Hub :=
  if brF f.bytes 0 1 = 6 then (h.cplIn f).npwResumeAll else h.farStart f

/-- A frame in the non-posted stream arrives (R364): delivered, or held behind its mark and behind held frames of its flow. -/
def Hub.npRx (h : Hub) (f : ExitFrame) : Hub :=
  if h.markMet f.bytes && !h.pxb.held.any (fun e => decide (e.1.flow = f.flow)) then h.pxDeliver f
  else h.updPxb fun x => { x with held := x.held ++ [(f, h.mono)] }

/-- A frame that is no frame of Table 14.3 (R360). -/
def Hub.pxBad (h : Hub) (f : ExitFrame) : Hub := (h.inc Reg.PX_BAD_FRAME).countExitFlow f.flow

/-- The posted frame or request at the head of a flow is carried out. -/
def Hub.pxCarry (h : Hub) (f : ExitFrame) : Hub :=
  if !brGood f.bytes then h.pxBad f
  else
    match brF f.bytes 0 1 with
    | 1 => h.mwrRx f
    | 7 => if brLen f.bytes = 16 then h.msgRx f else h.pxBad f
    | 8 => if brLen f.bytes = 24 then h.lateRx f else h.pxBad f
    | _ => h.npRx f

/-- The kind of the frame at the head of the inbox, 0 for a bad one; none: it is empty. -/
def Hub.pxHead (h : Hub) : Option (ExitFrame × Nat) :=
  h.pxb.inbox.head?.map fun (f : ExitFrame) => (f, if brGood f.bytes then brF f.bytes 0 1 else 0)

/-- The row of a frame kind acts on the head frame. -/
def Hub.pxRow (h : Hub) (ks : List Nat) : Bool := h.up .pxb && h.pxHead.elim false fun e => ks.contains e.2

/-- Carry out the head frame. -/
def Hub.pxStep (h : Hub) : Hub :=
  match h.pxHead with
  | none => h
  | some (f, _) => h.pxPop f fun h => h.pxCarry f

/-- BRIDGE_FRAME_RX (R364): a posted write or a non-posted request arrives, or a frame that is none (R360). -/
def execBridgeFrameRx (s : State) : Answer := actT s (s.hub.pxRow [0, 1, 2, 3, 4, 5]) Hub.pxStep

/-- BRIDGE_CPL_RX (R368). -/
def execBridgeCplRx (s : State) : Answer := actT s (s.hub.pxRow [6]) Hub.pxStep

/-- LATE_FRAME_RX (R371). -/
def execLateFrameRx (s : State) : Answer := actT s (s.hub.pxRow [8]) Hub.pxStep

/-- MSG_FRAME_RX (R366). -/
def execMsgFrameRx (s : State) : Answer := actT s (s.hub.pxRow [7]) Hub.pxStep

/-- Frames of stalled flows go on until a message finds the queue full again (R367; fuel: their number). -/
def Hub.unstall (h : Hub) : Nat → List Nat → Hub
  | 0, _ => h
  | n + 1, stuck =>
    match h.pxb.stalled.find? fun (f : ExitFrame) => ¬ stuck.contains f.flow with
    | none => h
    | some f =>
      let full := decide (brF f.bytes 0 1 = 7) && brGood f.bytes && (h.mqPut (mqWords f.bytes)).isNone
      if full then Hub.unstall h n (f.flow :: stuck)
      else Hub.unstall ((h.updPxb fun x => { x with stalled := x.stalled.erase f }).pxCarry f) n stuck

/-- PX_MQ_POP: entries are removed, oldest first, and stalled flows resume (R367). -/
def Hub.mqPop (h : Hub) (n : Nat) : Hub :=
  let fill := h.rdF Reg.PX_MQ_STAT 24 16
  let k := min n fill
  let h := (h.wrF Reg.PX_MQ_STAT 7 0 ((h.rdF Reg.PX_MQ_STAT 7 0 + k) % 256)).wrF Reg.PX_MQ_STAT 24 16 (fill - k)
  h.unstall h.pxb.stalled.length []

/-- MQ_POP (R367). -/
def execMqPop (n : BitVec 9) (s : State) : Answer := actT s (s.hub.up .pxb) fun h => h.mqPop n.toNat

/-- The first held frame whose mark is met; it is the oldest held one of its flow. -/
def Hub.heldReady (h : Hub) : Option (ExitFrame × Nat) :=
  (h.pxb.held.zipIdx.find? fun e => h.markMet e.1.1.bytes
    && !(h.pxb.held.take e.2).any fun x => decide (x.1.flow = e.1.1.flow)).map (·.1)

/-- The oldest held frame whose mark is met is carried out (R364). -/
def Hub.markMetNext (h : Hub) : Hub :=
  match h.heldReady with
  | none => h
  | some e => (h.updPxb fun x => { x with held := x.held.erase e }).pxDeliver e.1

/-- BRIDGE_MARK_MET (R364). -/
def execBridgeMarkMet (s : State) : Answer :=
  actT s (s.hub.up .pxb && s.hub.heldReady.isSome) Hub.markMetNext

/-- The oldest held frame no longer waits for its mark (R364). -/
def Hub.markLate (h : Hub) : Hub :=
  match h.pxb.held with
  | [] => h
  | e :: l => (((h.updPxb fun x => { x with held := l }).inc Reg.PX_BAR_LATE).attn .pxb 10).pxDeliver e.1

/-- BRIDGE_MARK_TIMEOUT (R364): the frame held longest is delivered without its mark, 1 ms after it arrived. -/
def execBridgeMarkTimeout (s : State) : Answer :=
  actT s (s.hub.up .pxb && s.hub.pxb.held.head?.elim false fun e => decide (e.2 + 1000000 ≤ s.hub.mono)) Hub.markLate

/-! ### Tags (R362, R363, R368) -/

/-- The running CFG_XFER takes a tag and is issued (R377). -/
def Hub.cfgIssue (h : Hub) (t : Nat) : Hub :=
  let a := h.arg .pxb 0
  let addr := fld a 27 12 * 4096 + fld a 11 0
  let be := fld (h.arg .pxb 2) 3 0
  let h := (h.holdTag t .cfg).updPxb fun x => { x with cfgWait := false }
  if bit a 31 then h.emit (.tlp (.cfgWr t (cfgType addr) addr be (leBytes 4 (h.arg .pxb 1).toNat)))
  else h.emit (.tlp (.cfgRd t (cfgType addr) addr be))

/-- Free tags go to what waits for them: context paging, far requests, a configuration request (R368, R370). -/
def Hub.tagsGranted (h : Hub) : Hub :=
  let h := (h.pageServe h.pageq.length).farIssue 256
  match h.pxb.cfgWait, h.freeTag with
  | true, some t => h.cfgIssue t
  | _, _ => h

/-- TAG_GRANT (R362): requests that wait for a tag take the free ones: page-ins, bridged requests in order, a CFG_XFER. -/
def execTagGrant (s : State) : Answer :=
  actT s (s.hub.up .pxb && s.hub.freeTag.isSome
      && (decide (s.hub.pageq ≠ []) || s.hub.farWaiting.isSome || s.hub.pxb.cfgWait)) Hub.tagsGranted

/-- Results of a far read, in address order (R368; fuel: the parts): data goes back, the first part that fails ends it. -/
def Hub.farReads (h : Hub) (i : Nat) : Nat → Hub
  | 0 => h
  | n + 1 =>
    match Tab.find h.pxb.far i with
    | none => h
    | some k =>
      match k.results.find? fun r => r.1 = k.answered with
      | none => h
      | some (p, st, d) =>
        let h := h.cplSend k st p (if st = 0 ∨ st = 5 then d else [])
        if (st = 0 ∨ st = 5) ∧ p + 1 < k.parts.length then
          Hub.farReads (h.updPxb fun x => { x with far := Tab.put x.far i { k with answered := p + 1 } }) i n
        else h.farEnd i

/-- The confirmations of a non-posted write (R368): after the last one, one CPL with a bit for each failed part. -/
def Hub.farWrites (h : Hub) (i : Nat) (k : PxFar) : Hub :=
  if k.results.length < k.parts.length then h
  else
    let mask := k.results.foldl (fun m r => if r.2.1 = 0 then m else m ||| 2 ^ r.1) 0
    (h.cplSend k (if mask = 0 then 0 else 2) (k.parts.length - 1) (leBytes 4 mask)).farEnd i

/-- The result of part p of a far request: STATUS and data. -/
def Hub.farResult (h : Hub) (i p st : Nat) (d : List Byte) : Hub :=
  match Tab.find h.pxb.far i with
  | none => h
  | some k =>
    let k := { k with results := k.results ++ [(p, st, d)] }
    let h := h.updPxb fun x => { x with far := Tab.put x.far i k }
    match k.kind with
    | 3 => h.farReads i k.parts.length
    | 2 => h.farWrites i k
    | _ => (h.cplSend k st 0 (if st = 0 ∨ st = 5 then d else [])).farEnd i

/-- Release a tag. -/
def Hub.tagFree (h : Hub) (t : Nat) : Hub :=
  { h with
    tags := Tab.del h.tags t
    pxb := { h.pxb with tagAt := Tab.del h.pxb.tagAt t } }

/-- PX_CTO in ns. -/
def Hub.pxCto (h : Hub) : Nat := 1000 * clampN 50 64000 (h.rdF Reg.PX_CTO 15 0)

/-- PX_TUN_TMO in ns. -/
def Hub.pxTunTmo (h : Hub) : Nat := 1000 * clampN 100 60000 (h.rdF Reg.PX_TUN_TMO 15 0)

/-- A tag is held, and PX_CTO has passed since its request was issued (R363). -/
def Hub.tagExpired (h : Hub) (t : Nat) : Bool :=
  (Tab.find h.tags t).isSome && decide ((Tab.get (fun _ => 0) h.pxb.tagAt t) + h.pxCto ≤ h.mono)

/-- STATUS of a completion on the bridge's own link (Table 14.4). -/
def farStatus : CplStatus → Nat
  | .ok => 0
  | .ur => 1
  | .ca => 2
  | .poisoned => 5

/-- A completion ends the request that holds its tag; one that no request holds is a stray (R368). -/
def Hub.tlpCpl (h : Hub) (tag : BitVec 8) (status : CplStatus) (data : List Byte) : Hub :=
  let t := tag.toNat
  let h' := h.tagFree t
  match Tab.find h.tags t with
  | none => h.inc Reg.PX_CPL_STRAY
  | some (.page r) => h'.pageAnswer r (if status = .ok then 0 else 2) data
  | some (.bridge i p) => h'.farResult i p (farStatus status) data
  | some .cfg =>
    let code : Nat := match status with
      | .ur => 1
      | .ca => 4
      | _ => 0
    let d := [imgWord (data ++ [0, 0, 0, 0]) 0, w32 code]
    h'.opResult .pxb 0x10 (if code = 0 then mbxOk d else { err := 0x81, data := d })
  | some .stale => h'

/-- PCIE_COMPLETION_RX (R362, R368, R374): the request of a tag is completed; with no such tag the completion is discarded. -/
def execPcieCompletionRx (tag : BitVec 8) (status : CplStatus) (data : List Byte) (s : State) : Answer :=
  actT s (s.hub.up .pxb && s.hub.pxLink) fun h => h.tlpCpl tag status data

/-- A tag's request ends without a completion, with this STATUS toward whoever waits for it (R363). -/
def Hub.tagLost (h : Hub) (t st : Nat) : Hub :=
  match Tab.find h.tags t with
  | none => h
  | some u =>
    let h := (((h.tagFree t).inc Reg.PX_CTO_CNT).attn .pxb 4).fault .pxb 1
    match u with
    | .page r => h.pageAnswer r st []
    | .bridge i p => h.farResult i p st []
    | .cfg => h.opResult .pxb 0x10 (mbxErr (if st = 3 then 0x07 else 0x80))
    | .stale => h

/-- COMPLETION_TIMEOUT (R363): PX_CTO has passed for a tag. -/
def execCompletionTimeout (tag : BitVec 8) (s : State) : Answer :=
  actT s (s.hub.up .pxb && s.hub.tagExpired tag.toNat) fun h => h.tagLost tag.toNat 3

/-- A pending record ends with Completer Abort toward its requester (R363, R372). -/
def Hub.pendAbort (h : Hub) (r : Nat) : Hub :=
  match Tab.find h.pxb.pend r with
  | none => h
  | some p =>
    let h := if p.kind = 2 then h.npwDone p.win 0 0 true
      else if p.kind = 3 ∧ p.len ≤ p.got then h
      else h.pxCpl p.reqTag 4 false []
    (h.pendEnd r).npwResumeAll

/-- TUNNEL_TIMEOUT (R363): PX_TUN_TMO has passed since the pending record was taken. -/
def execTunnelTimeout (r : Fin 128) (s : State) : Answer :=
  actT s (s.hub.up .pxb && (Tab.find s.hub.pxb.pend r).elim false fun p => decide (p.since + s.hub.pxTunTmo ≤ s.hub.mono)) fun h =>
    ((h.inc Reg.PX_TUN_TMO_CNT).attn .pxb 5).pendAbort r

/-- The running CFG_XFER: an error, or the configuration request once a tag is free (R378). -/
def Hub.cfgOp (h : Hub) : Hub × Option MbxResult :=
  let a := h.arg .pxb 0
  if h.role ≠ .leaf then done h (mbxErr 0x04)
  else if fld a 1 0 ≠ 0 then done h (mbxErr 0x02)
  else if !h.pxLink then done h (mbxErr 0x80)
  else if h.pxb.cfgWait || (h.tags.any fun e => decide (e.2 = .cfg)) then (h, none)
  else
    match h.freeTag with
    | some t => (h.cfgIssue t, none)
    | none => (h.updPxb fun x => { x with cfgWait := true }, none)

/-- CFG_XFER (R377): it waits for a tag and for the completion. -/
def execCfgXfer (s : State) : Answer :=
  mbxAct s .pxb 0x10 Hub.cfgOp

/-! ### The link (R375, R378) -/

/-- The lane rate code of a PCIe speed (Table 4.2). -/
def pxRateCode (speed : Nat) : Nat := if speed = 1 then 3 else if speed = 2 then 7 else if speed = 3 then 9 else 0xC

/-- Mb/s of one lane of a PCIe link, after its line code: 8b/10b up to 5.0 GT/s, else 128b/130b. -/
def pxLaneRate (speed : Nat) : Nat :=
  if speed = 1 then 2000 else if speed = 2 then 4000 else if speed = 3 then 7876 else 15753

/-- PXB reports its rate to TSS (R227). -/
def Hub.pxReport (h : Hub) (rate : Nat) : Hub := h.rateReport 0x0D rate

/-- A LEAF tells its target of the link's state (Table 14.8). -/
def Hub.pxLinkMsg (h : Hub) : Hub :=
  if h.role = .leaf then h.pxMessage 4 (w32 (h.rdF Reg.PX_STAT 6 0)) else h

/-- The PCIe link is up at a speed, a width and with what the host has configured: PX_STAT, the lanes' rate, the rate reported to TSS and LINK (R373). -/
def Hub.pcieUp (h : Hub) (speed width : BitVec 3) (mps : Nat) (busMaster memSpace : Bool) : Hub :=
  let sp := clampN 1 (clampN 1 4 (h.rdF Reg.PX_CFG 2 0)) speed.toNat
  let w := if width.toNat ≤ 1 then 1 else if width.toNat ≤ 3 then 2 else 4
  let h := h.wr Reg.PX_STAT (w32 (1 + 2 * sp + 16 * w + 128 * b2n busMaster + 256 * b2n memSpace))
  let h := (h.updPxb fun x => { x with mps := clampN 128 512 mps, bar4 := clampN 24 39 (h.rdF Reg.PX_CFG 21 16) }).edgeRate 0x0D (pxRateCode sp)
  let h := h.edgeLocked 0x0D
  let h := (((h.pxReport (pxLaneRate sp * w)).attn .pxb 9).setLive .pxb 2 false).pxLinkMsg
  h.pathCheck

/-- PCIE_LINK_UP (R378): the link trains at a speed and width; Max Payload Size, Bus Master and Memory Space Enable are as the
host, or the LEAF's steward, has set them. -/
def execPcieLinkUp (speed width : BitVec 3) (mps : Nat) (busMaster memSpace : Bool) (s : State) : Answer :=
  actT s (s.hub.up .pxb && !s.hub.pxLink && s.hub.refsReady 0x0D && !(s.hub.portLanes 0x0D).isEmpty)
    fun h => h.pcieUp speed width mps busMaster memSpace

/-- The link's state falls: LINK_UP 0, and no rate (R227, R378). -/
def Hub.pxFall (h : Hub) : Hub :=
  ((((h.wr Reg.PX_STAT 0).attn .pxb 9).fault .pxb 2).setLive .pxb 2 true).pxReport 0

/-- No non-posted write runs through a window any longer. -/
def Hub.npwClear (h : Hub) : Hub := (List.range 8).foldl (fun h w => h.wrB (Reg.PW_STAT w) 2 false) h

/-- The PCIe link goes down (R375): tags end as timeouts, far requests with STATUS 0x04; the requesters on the link are gone
with it. -/
def Hub.pcieDown (h : Hub) : Hub :=
  let h := h.pxFall
  let h := (Tab.keys h.tags).foldl (fun h t => h.tagLost t 4) h
  let h := (Tab.keys h.pxb.far).foldl (fun h i =>
    match Tab.find h.pxb.far i with
    | some k => (h.cplSend k 4 0 []).farEnd i
    | none => h) h
  let h := if h.pxb.cfgWait then (h.updPxb fun x => { x with cfgWait := false }).opResult .pxb 0x10 (mbxErr 0x80) else h
  let h := h.npwClear.updPxb fun x => { x with pend := [], npWait := [], npwHeld := [], npwBy := [] }
  (h.pxLinkMsg.pageServe h.pageq.length).pathCheck

/-- Frames that have left the fabric are dropped by a block reset, counted per flow (R35). -/
def Hub.exitDrop (h : Hub) (p : Nat) (l : List ExitFrame) : Hub := l.foldl (fun h f => h.countFlow p f.flow .reset) h

/-- A block reset of PXB (R27, R375): pending records, reservations and tags return to their pools and nothing is sent for them, so far
requesters time out; page-ins under a tag end like a timeout (R27); the frames that PXB holds are counted as dropped. -/
def Hub.pxReset (h : Hub) : Hub :=
  let h := h.edgeReturn 0x0D
  let h := h.exitDrop 0x0D (h.pxb.inbox ++ h.pxb.held.map (·.1) ++ h.pxb.stalled)
  let pages := h.tags.filterMap fun e => match e.2 with
    | .page r => some r
    | _ => none
  let h := { (if h.pxLink then h.pxFall else h) with pxb := { mqIn := h.pxb.mqIn }, tags := [] }
  pages.foldl (fun h r => h.pageAnswer r 3 []) h

/-- PCIE_LINK_DOWN (R375). -/
def execPcieLinkDown (s : State) : Answer := actT s (s.hub.up .pxb && s.hub.pxLink) fun h => h.pcieDown

/-! ### Exit and commit -/

/-- A frame leaves the fabric at port P (R372): whole, to the bridge; or cut off by a pennant failure, which only the initiator
sees. -/
def Hub.pxExit (h : Hub) (s : Nat) (u : List Nat) (ecc : Option Nat) : Hub :=
  let b := h.unitBytes u
  let good := h.unitGood u ecc
  let c := u.head?.bind h.cell
  let f : ExitFrame := { flow := c.elim 0 fun (c : CellSt) => c.flow, fseq := c.elim 0 fun (c : CellSt) => c.fseq, bytes := b }
  let h := h.exitFrame s 0x0D u ecc
  if good then h.updPxb fun x => { x with inbox := x.inbox ++ [f] }
  else
    let h := h.fault .pxb 3
    if brF b 0 1 = 1 then h.lateError f 3
    else if brF b 0 1 = 6 then h.pendAbort (brF b 2 2)
    else h

/-- What the commit of PXB's fields does: the prefetch buffers of the windows committed are discarded (R373, R375). -/
def Hub.pxCommit (h old : Hub) : Hub :=
  (List.range 8).foldl (fun h w =>
    if old.pend.any fun e => Reg.PW_CFG w ≤ e.1 ∧ e.1 < Reg.PW_CFG w + 0x1000 then h.pfDiscard w else h) h

end Sys2Proof.Machine
end

