-- ==== Sys2Proof/Machine/Usb.lean ====
section
/-! DEFINITION. The USB hub and its tunnels (R379–R399): bursts, endpoint memory, enumeration watch, translators, ports,
suspend and resume, resets. -/

namespace Sys2Proof.Machine

/-- Change the USB hub. -/
def Hub.updUsb (h : Hub) (f : Usb → Usb) : Hub := { h with usb := f h.usb }

/-- A tunnel. -/
def Hub.tun (h : Hub) (t : Nat) : UsbTun := Tab.get (fun _ => {}) h.usb.tuns t

/-- Change a tunnel. -/
def Hub.updTun (h : Hub) (t : Nat) (f : UsbTun → UsbTun) : Hub :=
  h.updUsb fun x => { x with tuns := Tab.upd (fun _ => {}) x.tuns t f }

/-- A port. -/
def Hub.uport (h : Hub) (i : Nat) : UsbPort := Tab.get (fun _ => {}) h.usb.ports i

/-- Change a port. -/
def Hub.updUport (h : Hub) (i : Nat) (f : UsbPort → UsbPort) : Hub :=
  h.updUsb fun x => { x with ports := Tab.upd (fun _ => {}) x.ports i f }

/-- The number of tunnels: 8 in ROOT, 1 in LEAF (R380). -/
def Hub.tunCount (h : Hub) : Nat := if h.role = .root then 8 else 1

/-- USB_CFG.NPORTS, 1 to 16; a LEAF has 4 ports. -/
def Hub.nPorts (h : Hub) : Nat := if h.role = .root then clampN 1 16 (h.rdF Reg.USB_CFG 5 1) else 4

/-- TN_CFG.EN in force. -/
def Hub.tunEn (h : Hub) (t : Nat) : Bool := h.rdB (Reg.TN_CFG t) 0

/-- TN_WIN, 1 to 256. -/
def Hub.tunWin (h : Hub) (t : Nat) : Nat := clampN 1 256 (h.rdF (Reg.TN_CFG t) 24 16)

/-- The flow that this end sends a tunnel's bursts on. -/
def Hub.tunTx (h : Hub) (t : Nat) : Nat := h.rdF (if h.role = .root then Reg.TN_FLOW_DN t else Reg.TN_FLOW_UP t) 23 0

/-- The flow that a tunnel's bursts arrive on. -/
def Hub.tunRx (h : Hub) (t : Nat) : Nat := h.rdF (if h.role = .root then Reg.TN_FLOW_UP t else Reg.TN_FLOW_DN t) 23 0

/-- Bit `i` of UP_STAT of a port: wPortStatus in bits 0–15, wPortChange in bits 16–31 (Table 15.8). -/
def Hub.upBit (h : Hub) (p i : Nat) : Bool := h.rdB (Reg.UP_STAT p) i

/-- Set or clear bits of UP_STAT. -/
def Hub.upSet (h : Hub) (p : Nat) (l : List (Nat × Bool)) : Hub :=
  h.wr (Reg.UP_STAT p) (l.foldl (fun w e => setBit w e.1 e.2) (h.rd (Reg.UP_STAT p)))

/-- The virtual port of a tunnel's LEAF port (R380). -/
def Hub.vportOf (h : Hub) (t l : Nat) : Option Nat :=
  (List.range h.nPorts).find? fun v => h.rdF (Reg.UP_CFG v) 2 0 = t ∧ h.rdF (Reg.UP_CFG v) 5 4 = l

/-- The tunnel of a port: its UP_CFG.TUNNEL at the ROOT, 0 at a LEAF. -/
def Hub.tunOf (h : Hub) (p : Nat) : Nat := if h.role = .root then h.rdF (Reg.UP_CFG p) 2 0 else 0

/-- The virtual ports of a tunnel. -/
def Hub.vports (h : Hub) (t : Nat) : List Nat := (List.range h.nPorts).filter fun v => h.rdF (Reg.UP_CFG v) 2 0 = t

/-! ### The message queue (R397) -/

/-- Enter an event of KIND 0 (a port) or 1 (a tunnel), or merge it into its unconsumed entry. -/
def Hub.usbMsg (h : Hub) (kind which : Nat) (data : Word) : Hub :=
  if h.role = .root then
    let rd := h.rdF Reg.USB_MQ_STAT 4 0
    let key := 32 * kind + which
    let n := h.usb.mq.length
    let pos := h.usb.mq.idxOf key
    let i := (rd + pos) % 32
    let put := fun (h : Hub) (w0 d : Word) => (((h.wr (Reg.USB_MQ (4 * i)) w0).wr (Reg.USB_MQ (4 * i + 1)) d).wr
      (Reg.USB_MQ (4 * i + 2)) (lo32 h.now)).wr (Reg.USB_MQ (4 * i + 3)) (hi32 h.now)
    if pos < n then
      let old := h.rd (Reg.USB_MQ (4 * i))
      let bits := h.rd (Reg.USB_MQ (4 * i + 1)) &&& 0xFFFF0000
      put h (setFld old 15 8 (holdAt 255 (fld old 15 8 + 1))) (if kind = 0 then data ||| bits else data)
    else
      let h := put h (w32 (kind + 256 + 65536 * which)) data
      (h.wrF Reg.USB_MQ_STAT 21 16 (n + 1)).updUsb fun x => { x with mq := x.mq ++ [key], mqIn := x.mqIn + 1 }
  else h

/-- What a tunnel has brought for the host and the host has not taken: IN packets in their endpoints' buffers, and IN results of the
translators. Each has a number of its own. -/
def Hub.undelivered (h : Hub) (t : Nat) : List Nat :=
  let mine := h.usb.devs.filter fun e => h.tunOf e.2.vport = t
  let bufs := h.usb.eps.filter fun e => e.1 % 2 = 1 && e.2.buf.isSome && mine.any fun d => d.1 = e.1 / 32
  bufs.map (·.1) ++ (h.vports t).flatMap fun v =>
    let p : UsbPort := Tab.get (fun _ => {}) h.usb.ports v
    (p.splits.filter fun y => y.isIn && y.result.isSome).map fun y => 4096 * (v + 1) + y.dev * 32 + y.ep % 16 * 2 + 1

/-- A message of a tunnel enters once every earlier record of that tunnel has been delivered to the host (R85, R397). -/
def Hub.usbPost (h : Hub) (t kind which : Nat) (data : Word) (fresh : Bool) : Hub :=
  let w := h.undelivered t
  if h.role ≠ .root then h
  else if w = [] then h.usbMsg kind which data
  else h.updUsb fun x => { x with mqDue := x.mqDue ++ [⟨kind, which, data, t, fresh, w⟩] }

/-- The messages that waited only for what has now been delivered enter. -/
def Hub.usbDeliver (h : Hub) : Hub :=
  let left := h.usb.mqDue.map fun d => { d with waits := d.waits.filter fun k => (h.undelivered d.tunnel).contains k }
  let h := h.updUsb fun x => { x with mqDue := left.filter fun d => d.waits ≠ [] }
  left.foldl (fun h d => if d.waits = [] then h.usbMsg d.kind d.which d.data else h) h

/-- A change of a tunnel's UP or EPOCH enters the queue (R397). -/
def Hub.tunMsg (h : Hub) (t : Nat) : Hub := h.usbPost t 1 t (w32 (b2n (h.tun t).up + 256 * (h.tun t).epoch)) false

/-- USB_MQ_POP: the oldest entries are removed. -/
def Hub.usbPop (h : Hub) (n : Nat) : Hub :=
  let k := min n h.usb.mq.length
  let h := h.wrF Reg.USB_MQ_STAT 4 0 ((h.rdF Reg.USB_MQ_STAT 4 0 + k) % 32)
  (h.wrF Reg.USB_MQ_STAT 21 16 (h.usb.mq.length - k)).updUsb fun x => { x with mq := x.mq.drop k }

/-- USB_MQ_POP (R396). -/
def execUsbMqPop (n : BitVec 6) (s : State) : Answer := act s (s.hub.up .usb) fun h => h.usbPop n.toNat

/-! ### Bursts (R388, R389) -/

/-- A record's bytes: the 8-byte header, and its data padded to a multiple of 4. -/
def UsbRec.bytes (r : UsbRec) : List Byte :=
  leBytes 1 r.type ++ leBytes 1 r.dev ++ leBytes 1 r.epdir ++ leBytes 1 r.status ++ leBytes 4 r.data.length
    ++ r.data ++ List.replicate ((4 - r.data.length % 4) % 4) 0

/-- The 16-byte header of Table 15.2. -/
def burstHeader (epoch : Nat) (ackOnly nak restart : Bool) (tseq ack hframe nrec src : Nat) : List Byte :=
  leBytes 1 epoch ++ leBytes 1 (b2n ackOnly + 2 * b2n nak + 4 * b2n restart) ++ leBytes 2 tseq ++ leBytes 2 ack
    ++ leBytes 2 hframe ++ leBytes 1 nrec ++ leBytes 1 0 ++ leBytes 2 src ++ leBytes 4 0

/-- The host frame number that a burst carries: 0 from a LEAF; at the ROOT the host's own, which the spec leaves open here.
(Log entry 37, DEDUCED.) -/
def Hub.hframe (h : Hub) : Hub × Nat :=
  if h.role = .root then
    let (w, h) := h.draw
    (h, w.toNat % 16384)
  else (h, 0)

/-- Last TSEQ received in order. -/
def UsbTun.ack (x : UsbTun) : Nat := (x.nextRx + 4095) % 4096

/-- Hand a burst's bytes to the fabric. -/
def Hub.tunEmit (h : Hub) (t : Nat) (b : List Byte) : Hub := (h.edgeFrame 0x10 (h.tunTx t) b).1

/-- The frames of a tunnel that wait at admission or in the foyer. -/
def Hub.tunQueue (h : Hub) (t : Nat) : List (List Byte) :=
  let flow := h.tunTx t
  (h.waits.filter fun (w : WaitFrame) => w.port = 0x10 ∧ w.flow = flow).map (fun (w : WaitFrame) => w.payload)
    ++ ((h.foyer 0x10).filter fun (f : FoyFrame) => f.flow = flow).map fun (f : FoyFrame) =>
      (f.cells.head?.bind h.cell).elim [] fun (c : CellSt) => c.payload

/-- A numbered burst is built and waits at admission: it is in flight (R389). -/
def Hub.inFlight (h : Hub) (t : Nat) (b : UsbBurst) : Bool :=
  (h.tunQueue t).any fun f => !(f.getD 1 0).getLsbD 0 && decide ((f.drop 2).take 2 = leBytes 2 b.tseq)

/-- The bursts of a tunnel in flight. -/
def Hub.tunInfl (h : Hub) (t : Nat) : Nat := ((h.tun t).unacked.filter (h.inFlight t)).length

/-- The records that fit into one burst (R388): at most 255, and 16,384 bytes with the header. -/
def burstTake : Nat → Nat → List UsbRec → List UsbRec
  | 0, _, _ => []
  | _, _, [] => []
  | n + 1, room, r :: l => if r.bytes.length ≤ room then r :: burstTake n (room - r.bytes.length) l else []

/-- Build and send one numbered burst with the records that wait. -/
def Hub.burst (h : Hub) (t : Nat) : Hub :=
  let x := h.tun t
  let rs := burstTake 255 16368 x.waiting
  let (h, hf) := h.hframe
  let b := burstHeader x.epoch false false x.restart x.nextTx x.ack hf rs.length h.hubId ++ rs.flatMap UsbRec.bytes
  let x' := { x with
    nextTx := (x.nextTx + 1) % 4096
    restart := false
    ackDue := false
    unacked := x.unacked ++ [⟨x.nextTx, b⟩]
    ackAt := if x.unacked = [] then h.mono else x.ackAt
    waiting := x.waiting.drop rs.length }
  (h.updTun t fun _ => x').tunEmit t b

/-- Build bursts while records wait and the window is open (fuel: the records). -/
def Hub.pump (h : Hub) (t : Nat) : Nat → Hub
  | 0 => h
  | n + 1 =>
    if (h.tun t).waiting ≠ [] ∧ (h.tun t).unacked.length < h.tunWin t then (h.burst t).pump t n else h

/-- Send a record on a tunnel that is UP. -/
def Hub.sendRec (h : Hub) (t : Nat) (r : UsbRec) : Hub :=
  if (h.tun t).up then (h.updTun t fun x => { x with waiting := x.waiting ++ [r] }).pump t ((h.tun t).waiting.length + 1)
  else h

/-- Send an ACK_ONLY burst. -/
def Hub.ackOnly (h : Hub) (t : Nat) (nak : Bool) : Hub :=
  let x := h.tun t
  let (h, hf) := h.hframe
  let h := h.updTun t fun x => { x with ackDue := false }
  h.tunEmit t (burstHeader x.epoch true nak false 0 x.ack hf 0 h.hubId)

/-- Send the bursts that await acknowledgement again, with the present ACK (R389); those in flight have not left yet. -/
def Hub.tunResend (h : Hub) (t : Nat) : Hub :=
  let x := h.tun t
  let l := x.unacked.filter fun b => !h.inFlight t b
  let h := (h.inc (Reg.TN_RESEND t) l.length).updTun t fun x => { x with ackAt := h.mono }
  l.foldl (fun h (b : UsbBurst) => h.tunEmit t (b.bytes.take 4 ++ leBytes 2 x.ack ++ b.bytes.drop 6)) h

/-- An ACK covers the bursts up to it. -/
def Hub.tunAck (h : Hub) (t ack : Nat) : Hub :=
  let left := (h.tun t).unacked.filter fun (b : UsbBurst) => 2048 ≤ (ack + 4096 - b.tseq) % 4096
  let h := h.updTun t fun x =>
    { x with unacked := left, ackAt := if left.length < x.unacked.length then h.mono else x.ackAt }
  h.pump t (h.tun t).waiting.length

/-- Frames of a tunnel that wait at admission are withdrawn. -/
def Hub.tunWithdraw (h : Hub) (t : Nat) : Hub :=
  let flow := h.tunTx t
  { h with waits := h.waits.filter fun (w : WaitFrame) => ¬ (w.port = 0x10 ∧ w.flow = flow) }

/-- TUN_DEAD is live while an enabled tunnel is DOWN after it was UP. -/
def Hub.tunLive (h : Hub) : Hub :=
  h.setLive .usb 1 ((List.range h.tunCount).any fun t => h.tunEn t && !(h.tun t).up && bit (h.hdr .usb).live 1)

/-! ### Devices and endpoints (R381, R384) -/

/-- The key of an endpoint. -/
def epKey (dev ep : Nat) (isIn : Bool) : Nat := dev * 32 + ep % 16 * 2 + b2n isIn

/-- A device. -/
def Hub.udev (h : Hub) (d : Nat) : Option UsbDev := Tab.find h.usb.devs d

/-- Change a device. -/
def Hub.updUdev (h : Hub) (d : Nat) (f : UsbDev → UsbDev) : Hub :=
  match h.udev d with
  | none => h
  | some x => h.updUsb fun u => { u with devs := Tab.put u.devs d (f x) }

/-- An endpoint. -/
def Hub.uep (h : Hub) (k : Nat) : Option UsbEp := Tab.find h.usb.eps k

/-- Change an endpoint. -/
def Hub.updUep (h : Hub) (k : Nat) (f : UsbEp → UsbEp) : Hub :=
  match h.uep k with
  | none => h
  | some x => h.updUsb fun u => { u with eps := Tab.put u.eps k (f x) }

/-- Remove a device and return its blocks. -/
def Hub.dropDev (h : Hub) (d : Nat) : Hub :=
  h.updUsb fun u => { u with devs := Tab.del u.devs d, eps := u.eps.filter fun e => e.1 / 32 ≠ d }

/-- Remove the devices of a port, and its translator's transactions. -/
def Hub.dropPortDevs (h : Hub) (p : Nat) : Hub :=
  let ds := h.usb.devs.filter fun e => e.2.vport = p
  (ds.foldl (fun h e => h.dropDev e.1) h).updUport p fun x => { x with splits := [] }

/-- The two buffers of EP0, one block in all. -/
def ep0s (d : Nat) : List (Nat × UsbEp) :=
  [(epKey d 0 false, { kind := 0, max := 64, blocks := 1 }), (epKey d 0 true, { kind := 0, max := 64, blocks := 0 })]

/-- A device at the default address of a port that has been reset, at its speed. -/
def Hub.newDev (h : Hub) (p speed : Nat) : Hub :=
  let h := (h.dropPortDevs p).dropDev 0
  h.updUsb fun u => { u with
    devs := Tab.put u.devs 0 { vport := p, speed := speed }
    eps := (ep0s 0).foldl (fun t e => Tab.put t e.1 e.2) u.eps }

/-- A port that is enabled at low or full speed has its translator's 18 blocks (R384). -/
def Hub.ttBlocks (h : Hub) : Nat :=
  18 * ((List.range h.nPorts).filter fun p => h.upBit p 1 && !h.upBit p 10).length

/-- Blocks held by endpoints. -/
def Hub.epBlocks (h : Hub) : Nat := h.usb.eps.foldl (fun n e => n + e.2.blocks) 0

/-- USB_EPMEM: free blocks. -/
def Hub.epFree (h : Hub) : Nat := 1024 - (h.epBlocks + h.ttBlocks)

/-- Tracked devices: those with an address (R381). -/
def Hub.tracked (h : Hub) : List (Nat × UsbDev) := h.usb.devs.filter fun e => e.1 ≠ 0

/-- Word w of entry d of the device table (R396): the tracked devices in address order. -/
def Hub.usbDevWord (h : Hub) (d w : Nat) : Word :=
  match h.tracked[d]? with
  | none => 0
  | some (a, x) =>
    let es := h.usb.eps.filter fun e => e.1 / 32 = a
    match w with
    | 0 => w32 (a + 128 + 256 * x.vport + 8192 * x.speed)
    | 1 => w32 (es.foldl (fun n e => n + 2 ^ (e.1 % 32 / 2 + 16 * (1 - e.1 % 2))) 0)
    | 2 => w32 (es.foldl (fun n e => n + e.2.blocks) 0)
    | _ => 0

/-- The descriptors of a configuration (fuel: its bytes): interface, alternate setting, class, and the bytes of an endpoint
descriptor (empty at an interface descriptor). -/
def cfgWalk : Nat → Nat × Nat × Nat → List Byte → List (Nat × Nat × Nat × List Byte)
  | 0, _, _ => []
  | n + 1, c, b =>
    let len := (b.getD 0 0).toNat
    if len < 2 ∨ b.length < len then []
    else
      let d := b.take len
      let by8 := fun k => (d.getD k 0).toNat
      if by8 1 = 4 then
        (by8 2, by8 3, by8 5, []) :: cfgWalk n (by8 2, by8 3, by8 5) (b.drop len)
      else if by8 1 = 5 then (c.1, c.2.1, c.2.2, d) :: cfgWalk n c (b.drop len)
      else cfgWalk n c (b.drop len)

/-- The endpoints of a device's configuration at an alternate setting per interface. -/
def cfgEps (d speed : Nat) (config : List Byte) (sel : Nat → Nat → Bool) : List (Nat × UsbEp) :=
  (cfgWalk config.length (0, 0, 0) config).filterMap fun e =>
    let b := e.2.2.2
    if b = [] ∨ !sel e.1 e.2.1 then none
    else
      let a := (b.getD 2 0).toNat
      let m := leVal ((b.drop 4).take 2) % 2048
      let x : UsbEp := {
        kind := (b.getD 3 0).toNat % 4
        max := m
        blocks := if speed = 2 then max 1 ((m + 63) / 64) else 0 }
      some (epKey d (a % 16) (decide (128 ≤ a)), x)

/-- The device reports the hub class in an interface of its configuration. -/
def cfgHub (config : List Byte) : Bool :=
  (cfgWalk config.length (0, 0, 0) config).any fun e => decide (e.2.2.1 = 9)

/-- The fields of a SETUP: bmRequestType and bRequest in one number, wValue, wIndex, wLength. -/
def setupReq (b : List Byte) : Nat := (b.getD 0 0).toNat * 256 + (b.getD 1 0).toNat
/-- wValue. -/
def setupValue (b : List Byte) : Nat := leVal ((b.drop 2).take 2)
/-- wIndex. -/
def setupIndex (b : List Byte) : Nat := leVal ((b.drop 4).take 2)
/-- The request is from device to host. -/
def setupIn (b : List Byte) : Bool := (b.getD 0 0).getLsbD 7

/-- The refusals of R381: SET_ADDRESS with 64 devices tracked, SET_CONFIGURATION of a hub, SET_CONFIGURATION without memory (the
second flag). -/
def Hub.enumRefuses (h : Hub) (d : Nat) (b : List Byte) : Bool × Bool :=
  match h.udev d with
  | none => (false, false)
  | some x =>
    if setupReq b = 0x0005 then (decide (d = 0) && decide (64 ≤ h.tracked.length), false)
    else if setupReq b = 0x0009 ∧ setupValue b % 256 ≠ 0 then
      let need := (cfgEps d x.speed x.config fun _ a => a = 0).foldl (fun n e => n + e.2.blocks) 0
      let mine := (h.usb.eps.filter fun e => e.1 / 32 = d ∧ 2 ≤ e.1 % 32).foldl (fun n e => n + e.2.blocks) 0
      let full := decide (h.epFree + mine < need)
      (cfgHub x.config || full, full && !cfgHub x.config)
    else (false, false)

/-- A SETUP to a device is noted; at the ROOT it may be refused (R381). Answers whether it goes on to the LEAF. -/
def Hub.enumSetup (h : Hub) (d : Nat) (b : List Byte) : Hub × Bool :=
  let r := if h.role = .root then h.enumRefuses d b else (false, false)
  let h := h.updUdev d fun x => { x with setup := b, stage := [], refused := r.1 }
  let h := if r.1 then (h.inc Reg.USB_DEV_REFUSED).attn .usb 12 else h
  (if r.2 then h.attn .usb 7 else h, !r.1)

/-- Data of a control transfer's data stage is noted. -/
def Hub.enumData (h : Hub) (d : Nat) (b : List Byte) : Hub := h.updUdev d fun x => { x with stage := x.stage ++ b }

/-- Put endpoints. -/
def Hub.putEps (h : Hub) (l : List (Nat × UsbEp)) : Hub :=
  h.updUsb fun u => { u with eps := l.foldl (fun t e => Tab.put t e.1 e.2) u.eps }

/-- A watched request has completed (R381): the table follows it, and the toggles it concerns start again. -/
def Hub.enumDone (h : Hub) (d : Nat) : Hub :=
  match h.udev d with
  | none => h
  | some x =>
    let b := x.setup
    let v := setupValue b
    let h := h.updUdev d fun x => { x with setup := [], stage := [] }
    if setupReq b = 0x0005 then
      let a := v % 128
      if a = d then h
      else
        let h := if a = 0 then h else h.dropDev a
        h.updUsb fun u => { u with
          devs := Tab.put (Tab.del u.devs d) a { x with setup := [], stage := [] }
          eps := (u.eps.filter fun e => e.1 / 32 = d).foldl (fun t e => Tab.put t (a * 32 + e.1 % 32) e.2)
            (u.eps.filter fun e => e.1 / 32 ≠ d) }
    else if setupReq b = 0x8006 ∧ v / 256 = 2 then
      if 9 ≤ x.stage.length then h.updUdev d fun y => { y with config := x.stage } else h
    else if setupReq b = 0x0009 then
      let h := h.updUsb fun u => { u with eps := u.eps.filter fun e => ¬ (e.1 / 32 = d ∧ 2 ≤ e.1 % 32) }
      if v % 256 = 0 then h else h.putEps (cfgEps d x.speed x.config fun _ a => a = 0)
    else if setupReq b = 0x010B then
      let i := setupIndex b
      let old := (cfgEps d x.speed x.config fun j _ => j = i).map (·.1)
      let h := h.updUsb fun u => { u with eps := u.eps.filter fun e => ¬ old.contains e.1 }
      h.putEps (cfgEps d x.speed x.config fun j a => j = i ∧ a = v)
    else if setupReq b = 0x0201 ∧ v = 0 then
      let a := setupIndex b
      h.updUep (epKey d (a % 16) (decide (128 ≤ a % 256))) fun e => { e with toggle := false, stall := false }
    else h

/-! ### Ports -/

/-- A virtual port's change bits rise (R397): PORT_CHANGE, and a message; `fresh`: it had none before. -/
def Hub.portChanged (h : Hub) (v : Nat) (fresh : Bool) : Hub :=
  (h.attn .usb 4).usbPost (h.tunOf v) 0 v (h.rd (Reg.UP_STAT v)) fresh

/-- A LEAF sends the status of a port. -/
def Hub.sendPortStat (h : Hub) (p : Nat) : Hub :=
  h.sendRec 0 { type := 7, dev := p + 1, epdir := 0, status := 0, data := leBytes 4 (h.rd (Reg.UP_STAT p)).toNat }

/-- A LEAF port's status changes, with a wPortChange bit. -/
def Hub.leafPort (h : Hub) (p : Nat) (l : List (Nat × Bool)) : Hub := ((h.upSet p l).attn .usb 4).sendPortStat p

/-- A LEAF port is powered off: nothing is connected there. -/
def Hub.portOff (h : Hub) (p : Nat) : Hub :=
  let h := h.upSet p [(0, false), (1, false), (2, false), (4, false), (8, false), (9, false), (10, false)]
  (h.dropPortDevs p).updUport p fun x => { x with driving := false }

/-- A LEAF port drives K; a K that it drives already goes on (Table 15.4). -/
def Hub.driveK (h : Hub) (p : Nat) : Hub :=
  h.updUport p fun x => { x with driving := true, kAt := if x.driving then x.kAt else h.mono }

/-- OVERCURRENT is live while a port reports over-current. -/
def Hub.ocLive (h : Hub) : Hub := h.setLive .usb 0 ((List.range 4).any fun p => h.upBit p 3)

/-- A virtual port reports no device (R380, R390). -/
def Hub.vportGone (h : Hub) (v : Nat) : Hub :=
  let conn := h.upBit v 0
  let h := h.upSet v [(0, false), (1, false), (2, false), (4, false), (9, false), (10, false)]
  let h := (h.dropPortDevs v).updUport v fun x => { x with resuming := false }
  if conn then (h.upSet v [(16, true)]).portChanged v (decide (fld (h.rd (Reg.UP_STAT v)) 31 16 = 0)) else h

/-- The guards of the LEAF's port rows. -/
def Hub.leafUp (h : Hub) : Bool := h.works .usb && decide (h.role = .leaf)

/-- The guards of the ROOT's rows. -/
def Hub.rootUp (h : Hub) : Bool := h.works .usb && decide (h.role = .root)

/-- USB_ATTACH (R382): a device of a speed (0 low, 1 full, 2 high) is connected at a powered LEAF port; a high-speed device
attaches as a full-speed one. -/
def execUsbAttach (port : Fin 4) (speed : Fin 3) (s : State) : Answer :=
  actT s (s.hub.leafUp && s.hub.upBit port 8 && !s.hub.upBit port 0) fun h =>
    h.leafPort port [(0, true), (9, decide (speed = 0)), (10, false), (16, true)]

/-- A device leaves a LEAF port: its devices are forgotten and the port reports it (R381, Table 15.3). -/
def Hub.devDetach (h : Hub) (port : Fin 4) : Hub :=
  let h := (h.dropPortDevs port).updUport port fun x => { x with driving := false }
  h.leafPort port [(0, false), (1, false), (2, false), (4, false), (9, false), (10, false), (16, true)]

/-- USB_DEVICE_DETACH (R384). -/
def execUsbDeviceDetach (port : Fin 4) (s : State) : Answer :=
  actT s (s.hub.leafUp && s.hub.upBit port 0) fun h => h.devDetach port

/-- An overcurrent takes the power off a port; a resume that it cuts short counts as ended (Table 15.3). -/
def Hub.overcurrent (h : Hub) (port : Fin 4) : Hub :=
  let resume := (h.uport port).driving
  let h := (h.inc (Reg.UP_OC port)).portOff port
  let h := h.leafPort port ([(3, true), (19, true)] ++ if resume then [(18, true)] else [])
  ((h.attn .usb 11).fault .usb 0).ocLive

/-- USB_OVERCURRENT (R382, R395): a resume that runs on the port ends with it. -/
def execUsbOvercurrent (port : Fin 4) (s : State) : Answer :=
  actT s (s.hub.leafUp) fun h => h.overcurrent port

/-- A port reset ends: the device answers at address 0 with its speed (R382, Table 15.3). -/
def Hub.portResetEnd (h : Hub) (port : Fin 4) (speed : Fin 3) : Hub :=
  let h := ((h.inc (Reg.UP_RESETS port)).newDev port speed.val).updUport port fun x => { x with driving := false }
  h.leafPort port [(4, false), (1, true), (2, false), (9, decide (speed = 0)), (10, decide (speed = 2)), (20, true)]

/-- USB_PORT_RESET_DONE (R382): the 10 ms end with the port enabled at a speed (0 low, 1 full, 2 high). -/
def execUsbPortResetDone (port : Fin 4) (speed : Fin 3) (s : State) : Answer :=
  actT s (s.hub.leafUp && s.hub.upBit port 4 && decide ((s.hub.uport port).resetAt + 10000000 ≤ s.hub.mono))
    fun h => h.portResetEnd port speed

/-! ### Epochs, UP and DOWN (R390, R394) -/

/-- Both directions of a tunnel start again with an epoch. -/
def Hub.tunEpoch (h : Hub) (t e : Nat) : Hub :=
  let h := h.tunWithdraw t
  h.updTun t fun x => { x with
    epoch := e % 256
    nextTx := 0
    nextRx := 0
    nakSent := false
    ackDue := false
    restart := true
    unacked := []
    waiting := []
    arrived := []
    ackAt := h.mono
    heardAt := h.mono
    suspended := false }

/-- The ROOT starts a new epoch and sends its RESTART burst. -/
def Hub.newEpoch (h : Hub) (t : Nat) : Hub := ((h.tunEpoch t ((h.tun t).epoch + 1)).burst t).tunMsg t

/-- A LEAF powers its ports off, as a hub reset does, and loses its devices (R390, R394). -/
def Hub.leafPortsOff (h : Hub) : Hub :=
  let h := (List.range 4).foldl (fun h p => (h.portOff p).wr (Reg.UP_STAT p) 0) h
  (h.updUsb fun u => { u with devs := [], eps := [], ports := [] }).ocLive

/-- A tunnel goes DOWN (R390). -/
def Hub.tunDown (h : Hub) (t : Nat) : Hub :=
  let h := (h.tunEpoch t (h.tun t).epoch).updTun t fun x => { x with up := false, restart := false }
  let h := ((h.attn .usb 6).fault .usb 1).setLive .usb 1 true
  let h := h.tunMsg t
  let h := if h.role = .leaf then h.leafPortsOff else ((h.vports t).foldl Hub.vportGone h).usbDeliver
  h.tunLive

/-- A tunnel is UP from the first RESTART burst accepted (R390). -/
def Hub.tunUp (h : Hub) (t : Nat) : Hub :=
  if (h.tun t).up then h
  else (((h.updTun t fun x => { x with up := true }).attn .usb 5).tunMsg t).tunLive

/-- TN_TMO in ns: 10 to 1,000 µs (Table 15.7). -/
def Hub.tunTmo (h : Hub) (t : Nat) : Nat := 1000 * clampN 10 1000 (h.rdF (Reg.TN_TMO t) 9 0)

/-- TN_DEAD in ns: 1 to 1,000 ms (Table 15.7). -/
def Hub.tunDeadTime (h : Hub) (t : Nat) : Nat := 1000000 * clampN 1 1000 (h.rdF (Reg.TN_TMO t) 25 16)

/-- TUNNEL_DEAD (R390): no burst has been accepted for TN_DEAD. -/
def execTunnelDead (t : Fin 8) (s : State) : Answer :=
  actT s (s.hub.works .usb && (s.hub.tun t).up && !(s.hub.tun t).suspended
    && decide ((s.hub.tun t).heardAt + s.hub.tunDeadTime t ≤ s.hub.mono)) fun h => h.tunDown t

/-- TUNNEL_RESEND_TIMEOUT (R389): bursts await acknowledgement, and ACK has not advanced for TN_TMO. -/
def execTunnelResendTimeout (t : Fin 8) (s : State) : Answer :=
  actT s (s.hub.works .usb && decide (s.hub.tunInfl t < (s.hub.tun t).unacked.length)
    && decide ((s.hub.tun t).ackAt + s.hub.tunTmo t ≤ s.hub.mono)) fun h => h.tunResend t

/-- TUNNEL_ACK_ONLY (R389). -/
def execTunnelAckOnly (t : Fin 8) (s : State) : Answer :=
  actT s (s.hub.works .usb && (s.hub.tun t).ackDue) fun h => h.ackOnly t false

/-- A keepalive: an empty burst where the window has room, else an ACK_ONLY one (R389). -/
def Hub.keepalive (h : Hub) (t : Fin 8) : Hub :=
  let x := h.tun t
  if x.up then (if x.unacked.length < h.tunWin t then h.burst t else h.ackOnly t false)
  else if x.unacked = [] then h.ackOnly t false
  else h

/-- TUNNEL_KEEPALIVE (R390): a burst on an UP tunnel, an ACK_ONLY one while its window is full; an enabled tunnel that has gone DOWN
is asked for with ACK_ONLY. (Log entry 37, DEDUCED.) -/
def execTunnelKeepalive (t : Fin 8) (s : State) : Answer :=
  actT s (s.hub.rootUp && s.hub.tunEn t && !(s.hub.tun t).suspended) fun h => h.keepalive t

/-! ### Reception (R386, R389) -/

/-- The records of a burst (fuel: their number); none: the length disagrees, or a TYPE is reserved. -/
def burstRecs : Nat → List Byte → Option (List UsbRec)
  | 0, b => if b = [] then some [] else none
  | n + 1, b =>
    let len := leVal ((b.drop 4).take 2)
    let all := 8 + 4 * ((len + 3) / 4)
    let type := (b.getD 0 0).toNat
    if b.length < all ∨ type = 0 ∨ 10 ≤ type then none
    else
      let r : UsbRec := {
        type := type
        dev := (b.getD 1 0).toNat
        epdir := (b.getD 2 0).toNat
        status := (b.getD 3 0).toNat
        data := (b.drop 8).take len }
      (burstRecs n (b.drop all)).map (r :: ·)

/-- A LEAF accepts a RESTART burst with a new EPOCH (R394). -/
def Hub.leafRestart (h : Hub) (t e : Nat) : Hub :=
  let h := ((h.tunEpoch t e).leafPortsOff.inc Reg.USB_RESETS).attn .usb 1
  h.tunUp t

/-- A burst in its epoch, or as the first of a new one (R389). -/
def Hub.burstIn (h : Hub) (t : Nat) (b : List Byte) (rs : List UsbRec) : Hub :=
  let f := (b.getD 1 0).toNat
  let tseq := leVal ((b.drop 2).take 2) % 4096
  let h := if h.role = .leaf then h.updUsb fun u => { u with frame := leVal ((b.drop 6).take 2) % 16384 } else h
  let h := h.tunAck t (leVal ((b.drop 4).take 2) % 4096)
  let h := if f.testBit 1 then h.tunResend t else h
  let x := h.tun t
  if f.testBit 0 then h
  else if tseq = x.nextRx ∧ (x.up ∨ f.testBit 2 = true) then
    let h := h.updTun t fun x => { x with
      nextRx := (x.nextRx + 1) % 4096
      nakSent := false
      ackDue := true
      heardAt := h.mono
      arrived := x.arrived ++ rs }
    let h := (h.inc (Reg.TN_BURSTS t)).tunUp t
    if (h.tun t).restart then h.burst t else h
  else if 1 ≤ (x.nextRx + 4096 - tseq) % 4096 ∧ (x.nextRx + 4096 - tseq) % 4096 ≤ 2048 then
    (h.inc (Reg.TN_DUP t)).updTun t fun x => { x with ackDue := true }
  else
    let h := h.inc (Reg.TN_GAP t)
    if x.nakSent then h else (h.updTun t fun x => { x with nakSent := true }).ackOnly t true

/-- A burst that left the fabric for an enabled tunnel. -/
def Hub.burstRx (h : Hub) (t : Nat) (b : List Byte) : Hub :=
  let e := (b.getD 0 0).toNat
  let restart := (b.getD 1 0).getLsbD 2
  match (if 16 ≤ b.length then burstRecs (b.getD 8 0).toNat (b.drop 16) else none) with
  | none => h.inc (Reg.TN_GAP t)
  | some rs =>
    let x := h.tun t
    if h.role = .leaf then
      if restart && (decide (e ≠ x.epoch) || !x.up) then (h.leafRestart t e).burstIn t b rs
      else if e ≠ x.epoch ∨ x.up = false then
        let h := h.inc Reg.USB_EPOCH_DROP
        if x.up then h else h.ackOnly t false
      else h.burstIn t b rs
    else if e = x.epoch ∧ (x.up = true ∨ restart = true) then h.burstIn t b rs
    else
      let h := if e ≠ x.epoch then h.inc Reg.USB_EPOCH_DROP else h
      if !x.up ∧ x.unacked = [] then h.newEpoch t else h

/-- The first burst of a tunnel in the inbox. -/
def Hub.burstHead (h : Hub) (t : Nat) : Option ExitFrame :=
  h.usb.inbox.find? fun (f : ExitFrame) => f.flow = h.tunRx t

/-- The first burst of a tunnel is taken from the inbox and received (R390, R391). -/
def Hub.burstTake (h : Hub) (t : Fin 8) : Hub :=
  match h.burstHead t with
  | none => h
  | some f => (h.updUsb fun u => { u with inbox := u.inbox.erase f }).burstRx t f.bytes

/-- TUNNEL_BURST_RX (R389). -/
def execTunnelBurstRx (t : Fin 8) (s : State) : Answer :=
  actT s (s.hub.up .usb && s.hub.tunEn t && (s.hub.burstHead t).isSome) fun h => h.burstTake t

/-- The tunnel whose bursts arrive on a flow. -/
def Hub.tunOfFlow (h : Hub) (flow : Nat) : Option Nat :=
  (List.range h.tunCount).find? fun t => h.tunEn t && decide (h.tunRx t = flow)

/-- A frame leaves the fabric at the USB port (R386): a burst with a failed cell is discarded whole and counted. -/
def Hub.usbExit (h : Hub) (s : Nat) (u : List Nat) (ecc : Option Nat) : Hub :=
  let b := h.unitBytes u
  let good := h.unitGood u ecc
  let c := u.head?.bind h.cell
  let f : ExitFrame := { flow := c.elim 0 fun (c : CellSt) => c.flow, fseq := c.elim 0 fun (c : CellSt) => c.fseq, bytes := b }
  let t := h.tunOfFlow f.flow
  let h := h.exitFrame s 0x10 u ecc
  match t, good with
  | none, good => if good then h.countExitFlow f.flow else h
  | some _, true => h.updUsb fun x => { x with inbox := x.inbox ++ [f] }
  | some t, false => (h.inc (Reg.TN_GAP t)).fault .usb 3

/-- The oldest record of a tunnel that waits to be carried out is of one of these types. -/
def Hub.recIs (h : Hub) (t : Nat) (ty : Nat) : Bool :=
  h.works .usb && ((h.tun t).arrived.head?.elim false fun (r : UsbRec) => decide (r.type = ty))

/-- Take the oldest record. -/
def Hub.recTake (h : Hub) (t : Nat) (f : Hub → UsbRec → Hub) : Hub :=
  match (h.tun t).arrived with
  | [] => h
  | r :: l => (f (h.updTun t fun x => { x with arrived := l }) r).usbDeliver

/-- Take the oldest record; at the end that Table 15.3 does not send it to it has no effect. (Log entry 63, DESIGN CHOICE.) -/
def Hub.recFor (h : Hub) (t : Nat) (role : Role) (f : Hub → UsbRec → Hub) : Hub :=
  h.recTake t fun h r => if h.role = role then f h r else h

/-- Endpoint number of a record. -/
def UsbRec.ep (r : UsbRec) : Nat := r.epdir % 16
/-- IN of a record. -/
def UsbRec.isIn (r : UsbRec) : Bool := r.epdir.testBit 4

/-- EPDIR of an endpoint. -/
def epDir (ep : Nat) (isIn toggle : Bool) : Nat := ep % 16 + 16 * b2n isIn + 32 * b2n toggle

/-- A result goes to the other end. -/
def Hub.sendResult (h : Hub) (t dev ep : Nat) (isIn : Bool) (status : Nat) (data : List Byte) : Hub :=
  h.sendRec t { type := 4, dev := dev, epdir := epDir ep isIn false, status := status, data := data }

/-! ### Host transactions at the ROOT (R385) -/

/-- What U0 answers: a handshake or a data packet. -/
def Hub.usbSay (h : Hub) (pid : Nat) (d : List Byte := []) : Hub := h.emit (.packet 0x10 pid d)
/-- ACK. -/
def pidAck : Nat := 0xD2
/-- NAK. -/
def pidNak : Nat := 0x5A
/-- STALL. -/
def pidStall : Nat := 0x1E
/-- NYET. -/
def pidNyet : Nat := 0x96
/-- The split error handshake. -/
def pidErr : Nat := 0x3C
/-- DATA0 or DATA1. -/
def pidData (toggle : Bool) : Nat := if toggle then 0x4B else 0xC3

/-- The status endpoint's change bitmap (R397): bit v + 1 for each virtual port with a change bit, set as its message enters. -/
def Hub.usbChange (h : Hub) : Nat :=
  (List.range h.nPorts).foldl (fun n v =>
    if fld (h.rd (Reg.UP_STAT v)) 31 16 = 0 || h.usb.mqDue.any fun d => d.fresh && d.kind = 0 && d.which = v then n
    else n + 2 ^ (v + 1)) 0

/-- The virtual port that a hub class request names. -/
def Hub.reqPort (h : Hub) (b : List Byte) : Option Nat :=
  let i := setupIndex b % 256
  if 1 ≤ i ∧ i ≤ h.nPorts then some (i - 1) else none

/-- The hub function supports a request (Table 15.1). -/
def Hub.hubKnows (h : Hub) (b : List Byte) : Bool :=
  let r := setupReq b
  let v := setupValue b
  if r = 0x2303 then (h.reqPort b).isSome && [2, 4, 8].contains v
  else if r = 0x2301 then (h.reqPort b).isSome && [1, 2, 8, 16, 17, 18, 19, 20].contains v
  else if r = 0xA300 ∨ r = 0x2309 ∨ r = 0x230B ∨ r = 0x230A ∨ r = 0xA30A then (h.reqPort b).isSome
  else if r = 0x0001 ∨ r = 0x0003 then decide (v = 1)
  else [0x0005, 0x0009, 0x010B, 0x0201, 0x8000, 0x8100, 0x8200, 0x8006, 0x8008, 0x810A, 0xA000, 0xA006, 0x2001, 0x2003,
    0x2308].contains r

/-- The data stage of a request to the hub function. -/
def Hub.hubData (h : Hub) (b : List Byte) : List Byte :=
  let n := leVal ((b.drop 6).take 2)
  let d := match setupReq b with
    | 0x8000 => leBytes 2 (1 + 2 * b2n (h.rdB Reg.USB_STAT 14))
    | 0x8100 => leBytes 2 0
    | 0x8200 => leBytes 2 0
    | 0x8008 => leBytes 1 (b2n (h.rdB Reg.USB_STAT 11))
    | 0xA000 => leBytes 4 0
    | 0xA300 => leBytes 4 ((h.reqPort b).elim 0 fun v => (h.rd (Reg.UP_STAT v)).toNat)
    | _ => Config.usbDescriptor (setupReq b * 65536 + setupValue b) (setupIndex b)
  d.take n

/-- A port feature goes to the LEAF as a PORT_CMD record. -/
def Hub.portCmd (h : Hub) (v feature : Nat) (set : Bool) : Hub :=
  h.sendRec (h.rdF (Reg.UP_CFG v) 2 0)
    { type := 6, dev := h.rdF (Reg.UP_CFG v) 5 4 + 1, epdir := 16 * b2n set, status := feature, data := [] }

/-- A request to the hub function completes. -/
def Hub.hubApply (h : Hub) (b : List Byte) : Hub :=
  let v := setupValue b
  let p := (h.reqPort b).getD 0
  match setupReq b with
  | 0x0005 => h.wrF Reg.USB_STAT 10 4 v
  | 0x0009 => h.wrB Reg.USB_STAT 11 (decide (v ≠ 0))
  | 0x0003 => h.wrB Reg.USB_STAT 14 true
  | 0x0001 => h.wrB Reg.USB_STAT 14 false
  | 0x2303 => h.portCmd p v true
  | 0x2301 =>
    if 16 ≤ v then (h.upSet p [(v, false)]).portCmd p v false
    else if v = 2 ∧ h.upBit p 2 = true then
      (h.updUport p fun x => { x with resuming := true }).portCmd p v false
    else h.portCmd p v false
  | 0x2309 => h.updUport p fun x => { x with splits := [] }
  | 0x2308 =>
    let d := v / 16 % 128
    let e := v % 16
    (List.range h.nPorts).foldl (fun h q => h.updUport q fun x =>
      { x with splits := x.splits.filter fun (y : UsbSplit) => ¬ (y.dev = d ∧ y.ep = e) }) h
  | _ => h

/-- A token to the hub function (Table 15.1). -/
def Hub.hubToken (h : Hub) (ep : Nat) (tok : UsbTok) : Hub :=
  let b := h.usb.hubSetup
  match tok with
  | .setup d => if ep = 0 then (h.updUsb fun u => { u with hubSetup := d }).usbSay pidAck else h
  | .out _ _ => if ep = 0 then h.usbSay (if h.hubKnows b then pidAck else pidStall) else h
  | .ping => if ep = 0 then h.usbSay pidAck else h
  | .inTok =>
    if ep = 0 then
      if !h.hubKnows b then h.usbSay pidStall
      else h.usbSay (pidData true) (if setupIn b then h.hubData b else [])
    else if ep = 1 ∧ h.rdB Reg.USB_STAT 11 = true then
      if h.usbChange = 0 then h.usbSay pidNak
      else h.usbSay (pidData false) (leBytes ((h.nPorts + 8) / 8) h.usbChange)
    else h
  | .ack => if ep = 0 && !setupIn b && h.hubKnows b then (h.updUsb fun u => { u with hubSetup := [] }).hubApply b else h
  | .iso => h

/-- A SETUP to a device at a virtual port's tunnel: it replaces what EP0 holds, and goes to the LEAF unless it is refused. -/
def Hub.setupTake (h : Hub) (dev : Nat) (d : List Byte) : Hub :=
  match h.udev dev with
  | none => h
  | some x =>
    let (h, go) := h.enumSetup dev d
    let h := h.updUep (epKey dev 0 true) fun e => { e with buf := none, stall := false, toggle := true }
    let h := h.updUep (epKey dev 0 false) fun e =>
      { e with buf := if go then some d else none, setup := true, stall := false, toggle := true }
    if go then h.sendRec (h.tunOf x.vport) { type := 1, dev := dev, epdir := 0, status := 0, data := d } else h

/-- An OUT packet to a high-speed endpoint. -/
def Hub.outTake (h : Hub) (t dev ep : Nat) (toggle : Bool) (d : List Byte) : Hub :=
  let k := epKey dev ep false
  match h.uep k with
  | none => h
  | some e =>
    if e.stall then h.usbSay pidStall
    else if e.buf.isSome then h.usbSay pidNak
    else if toggle ≠ e.toggle then h.usbSay pidAck
    else
      let h := h.updUep k fun e => { e with buf := some d, setup := false, toggle := !e.toggle }
      let h := h.sendRec t { type := 2, dev := dev, epdir := epDir ep false toggle, status := 0, data := d }
      h.usbSay (if e.kind = 3 then pidAck else pidNyet)

/-- The host has acknowledged an IN packet: its buffer is released at both ends (R385). -/
def Hub.inAcked (h : Hub) (t dev ep : Nat) : Hub :=
  let k := epKey dev ep true
  match h.uep k with
  | none => h
  | some e =>
    match e.buf with
    | none => h
    | some d =>
      let h := (h.updUep k fun e => { e with buf := none, toggle := !e.toggle }).sendResult t dev ep true 0 []
      if ep = 0 then
        match h.udev dev with
        | some x => if setupIn x.setup then h.enumData dev d else h.enumDone dev
        | none => h
      else h

/-- A token to a high-speed device (R385). -/
def Hub.devToken (h : Hub) (dev ep : Nat) (x : UsbDev) (tok : UsbTok) : Hub :=
  let t := h.tunOf x.vport
  match tok with
  | .setup d => if ep = 0 then (h.setupTake dev d).usbSay pidAck else h
  | .out toggle d => if x.refused && decide (ep = 0) then h.usbSay pidStall else h.outTake t dev ep toggle d
  | .ping =>
    match h.uep (epKey dev ep false) with
    | some e => h.usbSay (if e.stall then pidStall else if e.buf.isSome then pidNak else pidAck)
    | none => h
  | .inTok =>
    match h.uep (epKey dev ep true) with
    | some e =>
      if e.stall || (x.refused && decide (ep = 0)) then h.usbSay pidStall
      else
        match e.buf with
        | some d => h.usbSay (pidData e.toggle) d
        | none => h.usbSay pidNak
    | none => h
  | .ack => h.inAcked t dev ep
  | .iso => (h.inc Reg.USB_HS_ISO_REJ).attn .usb 8

/-- The device's virtual port is enabled and its tunnel is UP. -/
def Hub.devLive (h : Hub) (x : UsbDev) : Bool := h.upBit x.vport 1 && (h.tun (h.tunOf x.vport)).up

/-- A high-speed transaction of the host: to the hub itself, or to a device behind it (R383–R385). -/
def Hub.hostToken (h : Hub) (addr : BitVec 7) (ep : BitVec 4) (tok : UsbTok) (crcGood : Bool) : Hub :=
  if !crcGood then h.inc Reg.USB_RX_CRC
  else if addr.toNat = h.rdF Reg.USB_STAT 10 4 ∧ ¬ (addr = 0 ∧ (h.udev 0).isSome = true) then h.hubToken ep.toNat tok
  else
    match h.udev addr.toNat with
    | none => h
    | some x =>
      let iso := fun b => (h.uep (epKey addr.toNat ep.toNat b)).elim false fun (e : UsbEp) => decide (e.kind = 1)
      if x.speed ≠ 2 ∨ !h.devLive x then h
      else (h.devToken addr.toNat ep.toNat x (if iso true || iso false then .iso else tok)).usbDeliver

/-- USB_HOST_TRANSACTION (R385, R386): a host's packet at U0 for an address and endpoint. A token of an endpoint that the device
has as isochronous is rejected whatever it is. -/
def execUsbHostTransaction (addr : BitVec 7) (ep : BitVec 4) (tok : UsbTok) (crcGood : Bool) (s : State) : Answer :=
  actT s (s.hub.rootUp && s.hub.rdB Reg.USB_STAT 1 && !s.hub.rdB Reg.USB_STAT 12) fun h => h.hostToken addr ep tok crcGood

/-! ### Translators (R387) -/

/-- The transfer type is periodic: isochronous or interrupt. -/
def splitPeriodic (type : Nat) : Bool := decide (type = 1) || decide (type = 3)

/-- The transaction is of an endpoint. -/
def UsbSplit.isOf (x : UsbSplit) (dev ep : Nat) (isIn : Bool) : Bool :=
  decide (x.dev = dev ∧ x.ep = ep ∧ x.isIn = isIn)

/-- Answer a complete-split with a result. -/
def Hub.splitSay (h : Hub) (isIn : Bool) (r : Nat × List Byte) : Hub :=
  match r.1 with
  | 0 => if isIn then h.usbSay (pidData false) r.2 else h.usbSay pidAck
  | 1 => h.usbSay pidNak
  | 2 => h.usbSay pidStall
  | _ => h.usbSay pidErr

/-- A control transaction's result is handed to the host: the enumeration watch follows it. -/
def Hub.splitWatch (h : Hub) (dev ep : Nat) (isIn : Bool) (type : Nat) (r : Nat × List Byte) : Hub :=
  if type = 0 ∧ ep = 0 ∧ r.1 = 0 then
    match h.udev dev with
    | none => h
    | some x =>
      if x.setup = [] then h
      else if isIn && setupIn x.setup then h.enumData dev r.2
      else if isIn = setupIn x.setup then h
      else if isIn then h.enumDone dev
      else if x.stage = [] then h else h.enumDone dev
  else h

/-- A start-split (R387). -/
def Hub.startSplit (h : Hub) (v dev ep : Nat) (isIn : Bool) (type : Nat) (setup : Bool) (data : List Byte) : Hub :=
  let t := h.tunOf v
  let new : UsbSplit := { dev := dev, ep := ep, isIn := isIn, type := type }
  let put := fun (h : Hub) (y : UsbSplit) => h.updUport v fun x => { x with splits := x.splits ++ [y] }
  let record : UsbRec := { type := 5, dev := dev, epdir := epDir ep isIn false, status := type, data := data }
  if splitPeriodic type then
    let h := h.sendRec t record
    if type = 1 ∧ isIn = false then h else put h new
  else if 2 ≤ ((h.uport v).splits.filter fun (y : UsbSplit) => !splitPeriodic y.type && !y.late).length then h.usbSay pidNak
  else if setup then
    let (h, go) := h.enumSetup dev data
    let h := if go then (put h new).sendRec t { type := 1, dev := dev, epdir := 0, status := 0, data := data }
      else put h { new with result := some (0, []) }
    h.usbSay pidAck
  else if ep = 0 ∧ ((h.udev dev).elim false fun (x : UsbDev) => x.refused) = true then
    (put h { new with result := some (2, []) }).usbSay pidAck
  else ((put h new).sendRec t record).usbSay pidAck

/-- A complete-split; `last` says that it is its poll's last one (R387). -/
def Hub.completeSplit (h : Hub) (v dev ep : Nat) (isIn : Bool) (type : Nat) (last : Bool) : Hub :=
  let mine := (h.uport v).splits.filter fun (y : UsbSplit) => y.isOf dev ep isIn && !y.late
  let drop := fun (h : Hub) (y : UsbSplit) => h.updUport v fun x => { x with splits := x.splits.erase y }
  let none' := if type = 1 then (0, []) else (1, [])
  match mine with
  | [] => if splitPeriodic type then h.splitSay isIn none' else h
  | y :: l =>
    if splitPeriodic type && decide (l = []) then h.splitSay isIn none'
    else
      match y.result with
      | some r => ((drop h y).splitSay isIn r).splitWatch dev ep isIn type r
      | none =>
        if splitPeriodic type && last then
          let h := h.updUport v fun x => { x with splits := x.splits.map fun z => if z = y then { z with late := true } else z }
          ((h.inc Reg.USB_SPLIT_LATE).attn .usb 9).splitSay isIn none'
        else h.usbSay pidNyet

/-- A start or complete split of the host (R388). -/
def Hub.hostSplit (h : Hub) (v : Fin 16) (dev : BitVec 7) (ep : BitVec 4) (isIn : Bool) (type : Fin 4)
    (start setup last : Bool) (data : List Byte) : Hub :=
  if start then h.startSplit v dev.toNat ep.toNat isIn type.val setup data
  else (h.completeSplit v dev.toNat ep.toNat isIn type.val last).usbDeliver

/-- USB_SPLIT_TRANSACTION (R387): a start-split or complete-split of a virtual port's translator. -/
def execUsbSplitTransaction (v : Fin 16) (dev : BitVec 7) (ep : BitVec 4) (isIn : Bool) (type : Fin 4)
    (start setup last : Bool) (data : List Byte) (s : State) : Answer :=
  actT s (s.hub.rootUp && s.hub.rdB Reg.USB_STAT 1 && !s.hub.rdB Reg.USB_STAT 12 && decide (v.val < s.hub.nPorts)
      && s.hub.upBit v 1 && !s.hub.upBit v 10 && (s.hub.tun (s.hub.tunOf v)).up)
    fun h => h.hostSplit v dev ep isIn type start setup last data

/-! ### Records (Table 15.3) -/

/-- A SETUP record sets up endpoint 0 of its device (R384, R385). -/
def Hub.setupRec (h : Hub) (t : Fin 8) : Hub :=
  h.recFor t .leaf fun h r =>
    let h := (h.enumSetup r.dev r.data).1
    let h := h.updUep (epKey r.dev 0 true) fun e => { e with buf := none, stall := false, toggle := true }
    h.updUep (epKey r.dev 0 false) fun e => { e with buf := some r.data, setup := true, stall := false, toggle := true }

/-- SETUP_RECORD_RX (R388): the SETUP waits in EP0 for the device. -/
def execSetupRecordRx (t : Fin 8) (s : State) : Answer :=
  actT s (s.hub.recIs t 1) fun h => h.setupRec t

/-- An OUT record fills an endpoint's buffer (R384). -/
def Hub.outIn (h : Hub) (t : Fin 8) : Hub :=
  h.recFor t .leaf fun h r => h.updUep (epKey r.dev r.ep false) fun e => { e with buf := some r.data, setup := false }

/-- OUT_RECORD_RX (R388): the packet waits in its endpoint for the device. -/
def execOutRecordRx (t : Fin 8) (s : State) : Answer :=
  actT s (s.hub.recIs t 2) fun h => h.outIn t

/-- An IN record fills an endpoint's buffer (R384). -/
def Hub.inIn (h : Hub) (t : Fin 8) : Hub :=
  h.recFor t .root fun h r => h.updUep (epKey r.dev r.ep true) fun e => { e with buf := some r.data }

/-- IN_RECORD_RX (R385): the data fills the endpoint's buffer. -/
def execInRecordRx (t : Fin 8) (s : State) : Answer :=
  actT s (s.hub.recIs t 3) fun h => h.inIn t

/-- A result at the ROOT: of a translator's transaction, or of a high-speed endpoint (R385, R387). -/
def Hub.resultRoot (h : Hub) (r : UsbRec) : Hub :=
  match h.udev r.dev with
  | none => h
  | some x =>
    let k := epKey r.dev r.ep r.isIn
    if x.speed ≠ 2 then
      let split := fun (y : UsbSplit) => y.isOf r.dev r.ep r.isIn && y.result.isNone
      match (h.uport x.vport).splits.find? split with
      | none => h
      | some y => h.updUport x.vport fun p =>
          { p with splits := if y.late then p.splits.erase y
                             else p.splits.map fun z => if z = y then { z with result := some (r.status, r.data) } else z }
    else if r.status = 0 then
      let status := (h.uep k).elim false fun (e : UsbEp) => !e.setup
      let h := h.updUep k fun e => { e with buf := none }
      if r.ep = 0 ∧ r.isIn = false ∧ status = true ∧ setupIn x.setup = true then h.enumDone r.dev else h
    else if r.status = 1 then h
    else h.updUep k fun e => { e with buf := none, stall := true }

/-- A result at the LEAF: the host has taken the packet of an IN endpoint (R385). -/
def Hub.resultLeaf (h : Hub) (r : UsbRec) : Hub :=
  let h' := h.updUep (epKey r.dev r.ep true) fun e => { e with buf := none }
  match h.udev r.dev with
  | some x => if r.ep = 0 ∧ x.setup ≠ [] ∧ setupIn x.setup = false then h'.enumDone r.dev else h'
  | none => h'

/-- A RESULT record ends what the endpoint waits for (R384). -/
def Hub.resultIn (h : Hub) (t : Fin 8) : Hub :=
  h.recTake t fun h r => if h.role = .root then h.resultRoot r else h.resultLeaf r

/-- RESULT_RECORD_RX (R388). -/
def execResultRecordRx (t : Fin 8) (s : State) : Answer :=
  actT s (s.hub.recIs t 4) fun h => h.resultIn t

/-- What a device's answer is as a result: STATUS and data. -/
def UsbAns.result : UsbAns → Nat × List Byte
  | .ack => (0, [])
  | .nak => (1, [])
  | .stall => (2, [])
  | .error => (3, [])
  | .data d => (0, d)

/-- A SPLIT record is carried out at the device, whose answer is reported (R388). -/
def Hub.splitIn (h : Hub) (t : Fin 8) (ans : UsbAns) : Hub :=
  h.recFor t .leaf fun h r =>
    match h.udev r.dev with
    | none => h
    | some _ =>
      let a := UsbAns.result ans
      let h := if r.status % 4 = 1 ∧ r.isIn = false then h
        else h.sendResult t r.dev r.ep r.isIn a.1 (if r.isIn then a.2 else [])
      h.splitWatch r.dev r.ep r.isIn (r.status % 4) a

/-- SPLIT_RECORD_RX (R387): the LEAF runs the transaction, and the device answers. -/
def execSplitRecordRx (t : Fin 8) (ans : UsbAns) (s : State) : Answer :=
  actT s (s.hub.recIs t 5) fun h => h.splitIn t ans

/-- What a device answers at a LEAF port to the transaction of an endpoint's buffer, and what that does at the endpoint (R384, R387). -/
def Hub.leafAnswer (h : Hub) (d ep : Nat) (isIn : Bool) (ans : UsbAns) : Hub :=
  let k := epKey d ep isIn
  match h.udev d, h.uep k, ans with
  | some x, some _, .nak => h.inc (Reg.UP_NAKPROXY x.vport)
  | some _, some _, .stall => (h.updUep k fun e => { e with buf := none, stall := true }).sendResult 0 d ep isIn 2 []
  | some _, some _, .error => (h.updUep k fun e => { e with buf := none, stall := true }).sendResult 0 d ep isIn 3 []
  | some x, some e, .data b =>
    if isIn then
      let h := h.updUep k fun e => { e with buf := some b, toggle := !e.toggle }
      let h := h.sendRec 0 { type := 3, dev := d, epdir := epDir ep true e.toggle, status := 0, data := b }
      if ep = 0 ∧ setupIn x.setup = true then h.enumData d b else h
    else h
  | some x, some e, .ack =>
    if isIn then h
    else
      let h := (h.updUep k fun e => { e with buf := none, toggle := if e.setup then true else !e.toggle }).sendResult 0 d
        ep false 0 []
      if ep = 0 ∧ e.setup = false ∧ x.setup ≠ [] ∧ setupIn x.setup = true then h.enumDone d else h
  | _, _, _ => h

/-- LEAF_DEVICE_TRANSACTION (R385): the LEAF delivers an OUT or SETUP packet to a device, or polls an IN endpoint that has room;
the device answers. -/
def execLeafDeviceTransaction (dev : BitVec 7) (ep : BitVec 4) (isIn : Bool) (ans : UsbAns) (s : State) : Answer :=
  let k := epKey dev.toNat ep.toNat isIn
  let d := dev.toNat
  actT s (s.hub.leafUp && (s.hub.tun 0).up
      && ((s.hub.uep k).elim false fun (e : UsbEp) => e.buf.isSome != isIn && !e.stall)
      && ((s.hub.udev d).elim false fun (x : UsbDev) => s.hub.upBit x.vport 1 && !s.hub.upBit x.vport 2))
    fun h => h.leafAnswer dev.toNat ep.toNat isIn ans

/-- A port feature is set or cleared at the LEAF (R382, R391, R392). -/
def Hub.portFeature (h : Hub) (p feature : Nat) (set : Bool) : Hub :=
  if 16 ≤ feature then (if set then h else h.upSet p [(feature, false)])
  else
    match feature, set with
    | 8, true => ((h.upSet p [(8, true), (3, false)]).ocLive).sendPortStat p
    | 8, false => (h.portOff p).sendPortStat p
    | 4, true =>
      if h.upBit p 0 then
        let h := (h.dropPortDevs p).updUport p fun x => { x with driving := false, resetAt := h.mono }
        (h.upSet p [(4, true), (1, false), (2, false)]).sendPortStat p
      else h
    | 2, true => if h.upBit p 1 then (h.upSet p [(2, true)]).sendPortStat p else h
    | 2, false => if h.upBit p 2 then h.driveK p else h
    | 1, false => ((h.dropPortDevs p).upSet p [(1, false)]).sendPortStat p
    | _, _ => h

/-- A PORT_CMD record acts on a LEAF port (R382). -/
def Hub.portCmdIn (h : Hub) (t : Fin 8) : Hub :=
  h.recFor t .leaf fun h r => if 1 ≤ r.dev ∧ r.dev ≤ 4 then h.portFeature (r.dev - 1) r.status r.isIn else h

/-- PORT_CMD_RX (R388). -/
def execPortCmdRx (t : Fin 8) (s : State) : Answer :=
  actT s (s.hub.recIs t 6) fun h => h.portCmdIn t

/-- The status of a LEAF port reaches its virtual port (R382, R392, R397). -/
def Hub.portStatIn (h : Hub) (v : Nat) (w : Word) : Hub :=
  let old := h.rd (Reg.UP_STAT v)
  let new := (w &&& 0x0000FFFF) ||| ((old ||| w) &&& 0xFFFF0000)
  let h := h.wr (Reg.UP_STAT v) new
  let fresh := fun i => bit new i && !bit old i
  let h := if bit w 20 && bit w 1 && (fresh 20 || !bit old 1) then
      (h.newDev v (if bit w 10 then 2 else if bit w 9 then 0 else 1)).inc (Reg.UP_RESETS v)
    else if bit w 1 then h else h.dropPortDevs v
  let h := if bit w 18 && !bit w 2 || !bit w 1 then h.updUport v fun x => { x with resuming := false } else h
  if new &&& 0xFFFF0000 ≠ old &&& 0xFFFF0000 then h.portChanged v (decide (fld old 31 16 = 0)) else h

/-- A PORT_STAT record updates a virtual port (R381, R397). -/
def Hub.portStatRec (h : Hub) (t : Fin 8) : Hub :=
  h.recFor t .root fun h r =>
    match h.vportOf t (r.dev - 1) with
    | some v => h.portStatIn v (imgWord r.data 0)
    | none => h

/-- PORT_STAT_RX (R397). -/
def execPortStatRx (t : Fin 8) (s : State) : Answer :=
  actT s (s.hub.recIs t 7) fun h => h.portStatRec t

/-- A SUSPEND record suspends the LEAF's tunnel, or resumes it and its ports (R392). -/
def Hub.suspendIn (h : Hub) (t : Fin 8) : Hub :=
  h.recFor t .leaf fun h r =>
    if r.status = 0 then h.updTun t fun x => { x with suspended := true }
    else if (h.tun t).suspended then
      let h := h.updTun t fun x => { x with suspended := false, heardAt := h.mono }
      (List.range 4).foldl (fun h p =>
        if h.upBit p 1 && !h.upBit p 2 then h.driveK p else h) h
    else h

/-- SUSPEND_RECORD_RX (R391, R392): a global suspend, or its resume, at the LEAF. -/
def execSuspendRecordRx (t : Fin 8) (s : State) : Answer :=
  actT s (s.hub.recIs t 8) fun h => h.suspendIn t

/-- A WAKE record: merged into a resume that runs, or K toward the host where it has allowed remote wake-up (R393). -/
def Hub.wakeIn (h : Hub) (t : Fin 8) : Hub :=
  h.recFor t .root fun h r =>
    match h.vportOf t (r.dev - 1) with
    | none => h
    | some v =>
      if (h.uport v).resuming then (h.inc Reg.USB_WAKE_MERGED).attn .usb 10
      else if h.rdB Reg.USB_STAT 12 && !h.upBit v 2 && h.rdB Reg.USB_STAT 14 then
        (h.updUsb fun u => { u with hostK := true, kAt := h.mono }).wrB Reg.USB_STAT 13 true
      else h

/-- WAKE_RECORD_RX (R392, R393). -/
def execWakeRecordRx (t : Fin 8) (s : State) : Answer :=
  actT s (s.hub.recIs t 9) fun h => h.wakeIn t

/-! ### Suspend and resume (R391–R393) -/

/-- USB_CFG.WAKE_K in ns: 1 to 15 ms. -/
def Hub.wakeKTime (h : Hub) : Nat := 1000000 * max 1 (h.rdF Reg.USB_CFG 11 8)

/-- The host's bus is suspended, and with it every tunnel that is up (R392). -/
def Hub.busSuspend (h : Hub) : Hub :=
  let h := (h.wrB Reg.USB_STAT 12 true).attn .usb 2
  (List.range 8).foldl (fun h t =>
    if (h.tun t).up then
      (h.sendRec t { type := 8, dev := 0, epdir := 0, status := 0, data := [] }).updTun t fun x => { x with suspended := true }
    else h) h

/-- USB_SUSPEND (R391). -/
def execUsbSuspend (s : State) : Answer :=
  actT s (s.hub.rootUp && s.hub.rdB Reg.USB_STAT 1 && !s.hub.rdB Reg.USB_STAT 12) Hub.busSuspend

/-- The host resumes the bus, and with it the tunnels; a K of the hub's own is merged into it (R392, R393). -/
def Hub.hostResume (h : Hub) : Hub :=
  let h := if h.usb.hostK then (h.inc Reg.USB_WAKE_MERGED).attn .usb 10 else h
  let h := (h.wrB Reg.USB_STAT 13 true).updUsb fun u => { u with hostK := false, kAt := if u.hostK then u.kAt else 0 }
  let h := (List.range 8).foldl (fun h t =>
    if (h.tun t).up then
      (h.updTun t fun x => { x with suspended := false, heardAt := h.mono }).sendRec t
        { type := 8, dev := 0, epdir := 0, status := 1, data := [] }
    else h) h
  (List.range h.nPorts).foldl (fun h v =>
    if h.upBit v 1 && !h.upBit v 2 then h.updUport v fun x => { x with resuming := true } else h) h

/-- USB_HOST_RESUME (R392, R393): K on U0 after a global suspend. -/
def execUsbHostResume (s : State) : Answer :=
  actT s (s.hub.rootUp && s.hub.rdB Reg.USB_STAT 12 && (!s.hub.rdB Reg.USB_STAT 13 || s.hub.usb.hostK)) Hub.hostResume

/-- USB_REMOTE_WAKE (R392): a device's K on a suspended LEAF port. -/
def execUsbRemoteWake (port : Fin 4) (s : State) : Answer :=
  actT s (s.hub.leafUp && s.hub.upBit port 1 && !(s.hub.uport port).driving
      && (s.hub.upBit port 2 || (s.hub.tun 0).suspended)) fun h =>
    (h.driveK port).sendRec 0
      { type := 9, dev := port.val + 1, epdir := 0, status := 0, data := [] }

/-- USB_RESUME_END (R392): the 20 ms of K on a LEAF port end; or, with no port, K on U0 ends: the host's resume, or WAKE_K ms of the
ROOT's own K that no host K has followed, which leaves the hub function suspended. (Log entry 37, DEDUCED.) -/
def execUsbResumeEnd (port : Option (Fin 4)) (s : State) : Answer :=
  match port with
  | some p =>
    actT s (s.hub.leafUp && (s.hub.uport p).driving && decide ((s.hub.uport p).kAt + 20000000 ≤ s.hub.mono)) fun h =>
      (h.updUport p fun x => { x with driving := false }).leafPort p [(2, false), (18, true)]
  | none =>
    actT s (s.hub.rootUp && s.hub.rdB Reg.USB_STAT 12 && s.hub.rdB Reg.USB_STAT 13
        && decide (s.hub.usb.kAt + s.hub.wakeKTime ≤ s.hub.mono)) fun h =>
      if h.usb.hostK then (h.updUsb fun u => { u with hostK := false }).wrB Reg.USB_STAT 13 false
      else ((h.wrB Reg.USB_STAT 12 false).wrB Reg.USB_STAT 13 false).attn .usb 3

/-- The LEAF's frame number advances, and a SOF goes to each port that is enabled and not suspended: at full and low speed every eighth time (R387). -/
def Hub.leafSof (h : Hub) : Hub :=
  let n := (h.usb.frame + 1) % 16384
  let h := h.updUsb fun u => { u with frame := n }
  (List.range 4).foldl (fun h p =>
    if h.upBit p 1 && !h.upBit p 2 && !(h.uport p).driving && (h.upBit p 10 || decide (n % 8 = 0)) then
      h.emit (.packet 0x10 0xA5 (leBytes 1 p ++ leBytes 2 (n / 8)))
    else h) h

/-- LEAF_SOF (R390): a 125 µs boundary of cell time; full- and low-speed ports see every eighth. -/
def execLeafSof (s : State) : Answer :=
  actT s (s.hub.leafUp && (s.hub.tun 0).up && !(s.hub.tun 0).suspended && s.hub.time.reached 125000) Hub.leafSof

/-! ### Attachment and bus reset (R383, R394) -/

/-- The state behind the ports goes with a bus reset. -/
def Hub.hubClear (h : Hub) : Hub :=
  let h := (List.range 16).foldl (fun h v => h.wr (Reg.UP_STAT v) 0) h
  h.updUsb fun u => { u with devs := [], eps := [], ports := [], hubSetup := [], hostK := false }

/-- A bus reset (R394). -/
def Hub.busReset (h : Hub) : Hub :=
  let h := (h.hubClear.usbDeliver.inc Reg.USB_RESETS).attn .usb 1
  let h := (h.wrF Reg.USB_STAT 11 4 0).wrF Reg.USB_STAT 14 12 0
  (List.range 8).foldl (fun h t => if h.tunEn t then h.newEpoch t else h) h

/-- USB_BUS_RESET (R394): SE0 on U0; the host's chirp leaves the hub at high or full speed. -/
def execUsbBusReset (hs : Bool) (s : State) : Answer :=
  actT s (s.hub.rootUp && s.hub.rdB Reg.USB_STAT 1) fun h => h.busReset.wrF Reg.USB_STAT 3 2 (if hs then 2 else 1)

/-- U0_ATTACH (R383, R395): VBUS has been high for 10 ms, and the 10 ms after a block reset have passed. -/
def execU0Attach (s : State) : Answer :=
  actT s (s.hub.rootUp && s.hub.rdB Reg.USB_CFG 0 && !s.hub.rdB Reg.USB_STAT 1
    && decide (s.hub.usb.attachFrom ≤ s.hub.mono)) fun h =>
    (h.wrF Reg.USB_STAT 1 0 3).attn .usb 0

/-- U0_DETACH (R383): VBUS or EN has ended. -/
def execU0Detach (vbus : Bool) (s : State) : Answer :=
  actT s (s.hub.rootUp && s.hub.rdB Reg.USB_STAT 1 && (!vbus || !s.hub.rdB Reg.USB_CFG 0)) fun h =>
    (h.busReset.wrF Reg.USB_STAT 3 0 (b2n vbus)).attn .usb 0

/-- The running TUN_RESTART: an error, or a new epoch with the tunnel's ports disconnected (R391, R398). -/
def Hub.tunRestartOp (h : Hub) : Hub × Option MbxResult :=
  let t := (h.arg .usb 0).toNat
  if h.role = .leaf then done h (mbxErr 0x04)
  else if 8 ≤ t then done h (mbxErr 0x02)
  else if !h.tunEn t then done h (mbxErr 0x80)
  else
    let h := ((h.vports t).foldl Hub.vportGone h).newEpoch t
    done h (mbxOk [w32 (h.tun t).epoch])

/-- TUN_RESTART (R398). -/
def execTunRestart (s : State) : Answer :=
  mbxAct s .usb 0x10 Hub.tunRestartOp

/-! ### Commit, and words computed on reading -/

/-- The rate that USB reports to TSS for its port: none while no tunnel is enabled (R227). (Log entry 57, DESIGN CHOICE: a free
value.) -/
def Hub.usbRate (h : Hub) : Nat :=
  if (List.range h.tunCount).any fun t => h.tunEn t then (Config.innerRate 0x10).toNat else 0

/-- What the commit of USB's fields does (R390, R395). -/
def Hub.usbCommit (h old : Hub) : Hub :=
  let h := h.rateReport 0x10 h.usbRate
  let h := (List.range h.tunCount).foldl (fun h t =>
    match old.tunEn t, h.tunEn t with
    | false, true => if h.role = .root then h.newEpoch t else h
    | true, false => if (h.tun t).up then h.tunDown t
        else (h.tunEpoch t (h.tun t).epoch).updTun t fun x => { x with restart := false }
    | _, _ => h) h
  if h.role = .root then
    (List.range 16).foldl (fun h v =>
      if h.rd (Reg.UP_CFG v) ≠ old.rd (Reg.UP_CFG v) ∧ h.upBit v 1 then h.vportGone v else h) h
  else h

/-- TN_STAT (Table 15.7). -/
def Hub.tnStat (h : Hub) (t : Nat) : Word :=
  let x := h.tun t
  w32 (b2n x.up + 2 * b2n x.suspended + 256 * x.epoch + 65536 * x.nextTx)

/-- TN_SEQ (Table 15.7): free window and bursts that await acknowledgement. -/
def Hub.tnSeq (h : Hub) (t : Nat) : Word :=
  let k := (h.tun t).unacked.length
  w32 ((h.tunWin t - k) + 65536 * (k - h.tunInfl t))

end Sys2Proof.Machine
end

