-- ==== Sys2Proof/Machine/Ledger.lean ====
section
/-! DEFINITION. The ledger (R29–R31, R183–R185, R507): the pools' equations on a snapshot, and the record of a mismatch. -/

namespace Sys2Proof.Machine

/-- An equation that failed: POOL, INSTANCE, and its left side less its right side (R184). -/
structure Unequal where
  pool : Nat
  inst : Nat
  diff : Int
  deriving DecidableEq, Repr

/-- An equation of a pool: it fails where the difference is not 0. -/
def eqn (pool inst : Nat) (d : Int) : List Unequal := if d = 0 then [] else [⟨pool, inst, d⟩]

/-- An inequality of a pool: it fails where the left side less the right side is below 0. -/
def leastZero (pool inst : Nat) (d : Int) : List Unequal := if 0 ≤ d then [] else [⟨pool, inst, d⟩]

/-- RXHELD of a port and class as the descriptors give it, by IN and TC. -/
def Hub.heldByDesc (h : Hub) (p c : Nat) : Nat := (h.cells.filter fun e => e.2.inp = p ∧ e.2.tc = c ∧ e.2.credit).length

/-- LIMIT_EFF of a port and class (Table 6.6a). -/
def Hub.limitEff (h : Hub) (p c : Nat) : Nat := max (h.rxLimit p c) ((h.link p).limEff.getD c 0)

/-- UNSENT of a port and class: the RET_CUM advance not yet sent. -/
def LinkSt.unsent (l : LinkSt) (c : Nat) : Nat := (l.retCum.getD c 0 + 65536 - l.retSent.getD c 0) % 65536

/-- OUT of a port and class (R141). -/
def LinkSt.outCells (l : LinkSt) (c : Nat) : Nat := (l.sentCum.getD c 0 + 65536 - l.retRx.getD c 0) % 65536

/-- The credits of a class that are outstanding at a port (Table 1.9): those of cells it holds, those in return, and those it has out. -/
def LinkSt.creditsOut (l : LinkSt) (c : Nat) : Nat := l.held.getD c 0 + l.unsent c + l.outCells c

/-- The unacknowledged cells of a class on a port, those that went as VOID among them. -/
def Hub.unackedOf (h : Hub) (p c : Nat) : Nat :=
  ((h.link p).unacked.filter fun e => (h.cell e.2).elim false fun (x : CellSt) => decide (x.tc = c)).length
    + ((h.link p).times.filter fun x => x.void.elim false fun v => decide (v.1 = c)).length

/-- POOL 0x2 of one port and class. -/
def Hub.rxPool (h : Hub) (p c : Nat) : List Unequal :=
  let l := h.link p
  let held := l.held.getD c 0
  match eqn 2 (8 * p + c) ((held : Int) - h.heldByDesc p c) with
  | [] => leastZero 2 (8 * p + c) ((h.limitEff p c : Int) - held - l.unsent c)
  | l => l

/-- POOL 0x3 of one port and class. -/
def Hub.txPool (h : Hub) (p c : Nat) : List Unequal :=
  let l := h.link p
  match eqn 3 (8 * p + c) (l.hand.getD c 0 + l.outCells c - (l.adv.getD c 0 : Int)) with
  | [] => if h.unackedOf p c ≤ l.outCells c then [] else [⟨3, 8 * p + c, (h.unackedOf p c : Int) - l.outCells c⟩]
  | l => l

/-- The tags of a use. -/
def Hub.tagsOf (h : Hub) (page : Bool) : Nat :=
  (h.tags.filter fun e => match e.2 with | .page _ => page | _ => !page).length

/-- Bridge tags in the free list. -/
def Hub.freeTags (h : Hub) : Nat := ((List.range 256).filter fun t => (Tab.find h.tags t).isNone).length

/-- POOL 0x6 of one tunnel: free, in flight and awaiting acknowledgement; one that is not enabled has its whole window free (R507). -/
def Hub.tunPool (h : Hub) (t : Nat) : List Unequal :=
  let k := (h.tun t).unacked.length
  let free : Int := if h.tunEn t then (h.tunWin t : Int) - k else h.tunWin t
  eqn 6 t (free + h.tunInfl t + (k - h.tunInfl t : Nat) - h.tunWin t)

/-- POOL 0x7 of one channel: remaining and consumed; one in OFF has its whole budget remaining (R507). -/
def Hub.retryPool (h : Hub) (n : Nat) : List Unequal :=
  let off := !h.present .ppc || decide (h.pcState n = 0)
  let left := if off then h.pcRetryMax n else h.rdF (Reg.PC_STAT n) 11 8
  eqn 7 n ((left + h.rdF (Reg.PC_STAT n) 15 12 : Nat) - (h.pcRetryMax n : Int))

/-- Every port and class, as the pools of link credits number them. -/
def portClasses : List (Nat × Nat) := (List.range 9).flatMap fun p => (List.range 8).map fun c => (p, c)

/-- Every equation of Table 6.6a that fails, in the order of POOL and INSTANCE. TXE is 0 between commands: a command
that reads a cell for an edge port ends its transmission. -/
def Hub.unequal (h : Hub) : List Unequal :=
  eqn 0 0 (h.counts.sum - h.rdF Reg.TSC_CAP 16 0)
  ++ eqn 1 0 (h.counts.refs - (h.counts.pend + h.counts.repl))
  ++ portClasses.flatMap (fun e => h.rxPool e.1 e.2)
  ++ portClasses.flatMap (fun e => h.txPool e.1 e.2)
  ++ eqn 4 0 ((h.freeTags + h.tagsOf false + h.tagsOf true : Nat) - (256 : Int))
  ++ (match eqn 5 0 ((h.slotCount .free + h.slotCount .resident + h.slotCount .dummy + h.slotCount .writeback : Nat)
        - (8192 : Int)) with
      | [] => if h.pinned ≤ 6144 then [] else [⟨5, 0, (h.pinned : Int) - 6144⟩]
      | l => l)
  ++ (List.range 8).flatMap h.tunPool
  ++ (List.range 6).flatMap h.retryPool

/-- The holder counts of a snapshot (TSC_SNAP_KITTY to TSC_SNAP_TXE). -/
def Hub.snapWords (h : Hub) : List Word :=
  let x := h.counts
  [iword x.kitty, iword x.foyer, iword x.reseq, iword x.queued, iword x.replay, iword x.spent, iword x.condemned,
    iword x.refs, iword x.pend, iword x.repl, 0]

/-- A ledger check on the snapshot `snap` (R183, R184); with ECC_VOID the ledger has stopped evaluating (R185). Whether the
check matched goes with it. (Log entry 31, DEDUCED.) -/
def Hub.ledgerCheck (h snap : Hub) : Hub × Bool :=
  if h.rdB Reg.TSC_LEDGER_STAT 2 then (h, false)
  else
    let bad := snap.unequal
    let h := snap.snapWords.zipIdx.foldl (fun h e => h.wr (Reg.TSC_SNAP e.2) e.1) h
    let h := (h.wrB Reg.TSC_LEDGER_STAT 0 (!bad.isEmpty)).wrB Reg.TSC_LEDGER_STAT 1 (decide (1 < bad.length))
    let h := h.incFW Reg.TSC_LEDGER_STAT 31 16
    match bad with
    | [] => (h, true)
    | u :: _ =>
      let h := (h.wr Reg.TSC_LEDGER_REC (w32 (u.pool + 256 * u.inst))).wr Reg.TSC_LEDGER_DIFF (iword u.diff)
      (((h.wrWide Reg.TSC_LEDGER_TIME_LO snap.now).fault .tsc 0).attn .tsc 0, false)

/-- LEDGER_CHECK_NOW (R188): an extra check, on a snapshot at the next 1 µs boundary; the command runs until it is done. -/
def execLedgerCheckNow (s : State) : Answer :=
  mbxAct s .tsc 0x13 fun h =>
    let h := (h.ledgerCheck h).1
    done h (mbxOk [h.rd Reg.TSC_LEDGER_STAT])

end Sys2Proof.Machine
end

