-- ==== Sys2Proof/Machine/Mirror.lean ====
section
/-! DEFINITION. The mirrored pair's commands (R253–R273): PAIR_SYNC, heartbeat and loss, batches of mirror records, takeover,
lost notices and reconciliation, handover. -/

namespace Sys2Proof.Machine

/-- The partner's PAIR_SYNC is taken: its hub ID is shown, its words are kept, an answer goes where one is due, and the pair forms or
mismatches (R255). -/
def Hub.pairSynced (h : Hub) (words : List Word) (hub : Nat) : Hub :=
  let again := !h.mir.syncTx || h.paired
  let h := (h.wrF Reg.MIR_STAT 29 16 hub).updMir fun m => { m with partner := some words }
  if !h.mirEn then h else (if again then h.sendPairSync else h).syncJudge

/-- PAIR_SYNC_RX (R255): the partner's MIR_GROUP words, AUTO_TAKE and hub ID. A member that has sent none in this session, or a paired one
whose partner forms the pair anew, sends its own. -/
def execPairSyncRx (words : List Word) (autoTake : Bool) (hub : BitVec 14) (s : State) : Answer :=
  actT s (s.hub.keepsRecs && s.hub.hears 8 && decide (4 ≤ s.hub.klState 8 ∧ s.hub.klState 8 ≤ 8)) fun h =>
    let _ := autoTake
    h.pairSynced words hub.toNat

/-! ### Heartbeat and loss (R262, R263) -/

/-- Heartbeats are sent: FORMING with M UP, and PAIRED (R262). -/
def Hub.beats (h : Hub) : Bool :=
  h.up .mir && h.mirEn && (h.paired || (decide (h.pairState = 1) && h.mUp))

/-- The groups of which a handover is pending at this member. -/
def Hub.handoverMask (h : Hub) : Nat :=
  maskOf (h.mir.giving.map (fun (x : Giving) => x.group)) ||| maskOf (h.mir.taking.map (·.1))

/-- HEARTBEAT_TX (R262), every 1 µs of cell time: HB_SEQ, STATE, HOIST, HANDOVER, MIRROR_ACK. (Log entry 17, PRESUMED.) -/
def execHeartbeatTx (s : State) : Answer :=
  actT s (s.hub.beats && s.hub.time.reached 1000) fun h =>
    let h := h.incW Reg.MIR_HB_SEQ_TX
    h.postNear 8 0x0401 (beBytes 4 (h.rd Reg.MIR_HB_SEQ_TX).toNat ++ beBytes 1 h.pairState
      ++ beBytes 1 (h.rdF Reg.MIR_ROLE 7 0) ++ beBytes 1 h.handoverMask ++ beBytes 4 h.mir.applied)

/-- HEARTBEAT_RX (R262): a heartbeat whose MAC has passed; it is accepted if its HB_SEQ is greater than the last accepted one.
`ports` is what the member knows by then of the partner's twin ports that are UP. -/
def execHeartbeatRx (seq : BitVec 32) (ack : BitVec 32) (ports : BitVec 8) (s : State) : Answer :=
  act s (s.hub.keepsRecs && s.hub.hears 8 && decide ((s.hub.rd Reg.MIR_HB_SEQ_RX).toNat < seq.toNat)) fun h =>
    (h.wr Reg.MIR_HB_SEQ_RX seq).updMir fun m => { m with
      hbLast := h.mono
      hbSeen := true
      acked := ack.toNat
      partnerUp := ports.toNat }

/-- HEARTBEAT_MISS (R262): a 1 µs interval ends; MIR_HB_MISS advances if no heartbeat was accepted in it, whatever the pair's state. -/
def execHeartbeatMiss (s : State) : Answer :=
  act s (s.hub.keepsRecs && s.hub.time.reached 1000) fun h =>
    if h.mir.hbSeen then h.updMir fun m => { m with hbSeen := false } else h.inc Reg.MIR_HB_MISS

/-! ### Takeover (R264, Table 9.5) -/

/-- The twin ports of a list of groups. -/
def Hub.twinPorts (h : Hub) (gs : List Nat) : List Nat :=
  (List.range 8).filter fun p => gs.any fun g => (h.groupPorts g).testBit p

/-- Step 3: the bucket and INSEQ of each flow of the groups taken. -/
def Hub.takeFlows (h : Hub) (gs : List Nat) : Hub :=
  ((h.ctxs.filter fun e => 9 ≤ e.1 ∧ e.2.state = .resident).map (·.1)).foldl (fun h s =>
    if (h.flowGroups s).any fun g => gs.contains g then
      match Tab.find h.mir.recs (h.ctx s).handle with
      | none => h
      | some r => h.updCtx s fun c => { c with
          tokens := r.bucket.elim c.tokens fun b => min b c.tokens
          inseq := r.seqs.elim c.inseq fun q =>
            let d := (q.1 + 65536 - c.inseq) % 65536
            if 0 < d ∧ d < 32768 then q.1 else c.inseq }
    else h) h

/-- Step 4: LOST_NOTICE to the failed member's peer on a twin port that a CREDIT record names. -/
def Hub.lostNotice (h : Hub) (p : Nat) : Hub :=
  match Tab.find h.mir.credits p with
  | none => h
  | some c =>
    let body := beBytes 2 h.mir.lostHub ++ beBytes 1 p
      ++ (List.range 8).flatMap (fun k => beBytes 2 (c.out.getD k 0))
    let h := (h.wrB Reg.MIR_TAKE_STAT p true).updMir fun m => { m with noticed := m.noticed ||| 2 ^ p }
    if h.upOrIdle p then h.postFrame p (mgmtHandle c.hub) (h.msgBytes 0x0404 body) else h.postHub c.hub 0x0404 body

/-- Step 5: the takeover is complete; TAKEOVER_DONE, and a ledger check. -/
def Hub.takeDone (h : Hub) : Hub :=
  let h := (h.wr Reg.MIR_TAKE_TIME (w32 (holdAt 0xFFFF ((h.mono - h.mir.lossAt) / 100)))).attn .mir 2
  let r := h.ledgerCheck h
  r.1.updMir fun m => { m with running := false, matched := m.matched && r.2 }

/-- Every neighbour that a LOST_NOTICE named has sent its first answer. -/
def Hub.allAnswered (h : Hub) : Bool := decide (h.mir.noticed &&& h.rdF Reg.MIR_TAKE_STAT 15 8 = h.mir.noticed)

/-- The takeover of the groups that are due (R264). -/
def Hub.takeover (h : Hub) : Hub :=
  let gs := onesOf h.mir.toTake 8
  if gs = [] then h
  else
    let h := (h.inc Reg.MIR_TAKEOVERS).wr Reg.MIR_TAKE_STAT 0
    let h := h.updMir fun m => { m with
      toTake := 0
      running := true
      counting := true
      noticed := 0
      finished := 0
      matched := true
      recs := m.recs.map fun e => (e.1, { e.2 with upAck := none, downIn := none, est := false, lost := 0 }) }
    let h := ((h.klDown 8 none).takeFlows gs)
    let h := (h.twinPorts gs).foldl Hub.lostNotice h
    if h.mir.noticed = 0 then h.takeDone else h

/-- The partner is declared lost (R263): the member is ALONE and hoist of every group, the cell time is kept, and with AUTO_TAKE the takeover
starts. -/
def Hub.partnerLost (h : Hub) : Hub :=
  let due := maskOf (h.activeGroups fun g => !h.hoistOf g || h.rdB Reg.MIR_ROLE (16 + g))
  let h := ((h.setPair 3 0).attn .mir 1).fault .mir 0
  let h := (h.setLive .mir 0 true).wrWide Reg.MIR_LOSS_TIME_LO h.now
  let h := h.updMir fun m => { m with
    lossAt := h.mono
    toTake := due
    syncTx := false
    partner := none
    lostHub := h.rdF Reg.MIR_STAT 29 16 }
  if h.rdB Reg.MIR_CFG 1 then h.takeover else h

/-- PARTNER_LOSS (R263): no heartbeat for 8 µs. -/
def execPartnerLoss (s : State) : Answer :=
  actT s (s.hub.up .mir && s.hub.paired && decide (s.hub.mir.hbLast + 8000 ≤ s.hub.mono)) Hub.partnerLost

/-- TAKEOVER_TIMEOUT (R264): 20 µs after the declaration; each neighbour that has not answered stays marked unanswered. -/
def execTakeoverTimeout (s : State) : Answer :=
  actT s (s.hub.up .mir && s.hub.mir.running && decide (s.hub.mir.lossAt + 20000 ≤ s.hub.mono)) fun h =>
    let h := h.fault .mir 3
    let h := h.updMir fun m => { m with noticed := m.noticed &&& h.rdF Reg.MIR_TAKE_STAT 15 8 }
    h.takeDone

/-! ### Lost notices and reconciliation (R265, R266) -/

/-- The port whose peer is a hub: the one whose peer names the port code given, else the lowest. -/
def Hub.portTo (h : Hub) (hub port : Nat) : Option Nat :=
  let l := (List.range 9).filter fun p => portPresent h.straps p && decide (h.rdF (Reg.KL_PEER p) 13 0 = hub)
  (l.find? fun p => h.rdF (Reg.KL_PEER p) 28 24 = port).orElse fun _ => l.head?

/-- A group goes to the partner at once, with no drain. -/
def Hub.handOff (h : Hub) (p : Nat) : Hub :=
  match h.groupOf p with
  | some g =>
    if h.paired && h.hoistOf g then
      let h := (h.wrB Reg.MIR_ROLE g false).postNear 8 0x0403 [0#8, BitVec.ofNat 8 (2 ^ g)]
      h.postNear 8 0x0403 [1#8, BitVec.ofNat 8 (2 ^ g)]
    else h
  | none => h

/-- The RECONCILE_DATA records of a port: handle, LAST_IN, LAST_ACK_OUT, and a flag byte that says which of the two are of this
port. -/
def Hub.reconRecs (h : Hub) (p : Nat) : List (List Byte) :=
  (h.mir.recs.filter fun e => e.2.inPort = p ∨ e.2.outPort = p).map fun e =>
    beBytes 3 e.1 ++ beBytes 2 e.2.lastIn ++ beBytes 2 e.2.lastAck
      ++ beBytes 1 (b2n (e.2.inPort = p) + 2 * b2n (e.2.outPort = p))

/-- The RECONCILE_DATA frames of a port: up to 255 records each, the last one with the result of the ledger check. -/
def reconFrames (port : Nat) (ok : Bool) : List (List (List Byte)) → List (List Byte)
  | [] => [beBytes 1 port ++ [1#8, BitVec.ofNat 8 (b2n ok)]]
  | [l] => [beBytes 1 port ++ [1#8, BitVec.ofNat 8 (b2n ok)] ++ l.flatten]
  | l :: ls => (beBytes 1 port ++ [0#8, 0#8] ++ l.flatten) :: reconFrames port ok ls

/-- A LOST_NOTICE is acted on at the port whose peer is the lost hub: the port goes DOWN and the RECONCILE_DATA frames answer it; with no such
port the message is bad (R265). -/
def Hub.lostNoticed (h : Hub) (src lost : Nat) (port : Fin 8) (out : List (BitVec 16)) : Hub :=
  match h.portTo lost port with
  | none => h.msgBad
  | some p =>
    let h := (h.handOff p).klDown p none false
    let h := h.wr Reg.MIR_RECON_HUB (w32 (lost + 2 ^ 14 * port.val))
    let h := h.wr Reg.MIR_RECON_OUT (w32 (out.foldl (fun n x => n + x.toNat) 0))
    let h := h.wr Reg.MIR_RECON_RET (w32 (h.link p).returned)
    let r := h.ledgerCheck h
    let h := (reconFrames port r.2 (chunks 255 (h.reconRecs p))).foldl (fun h b => h.postHub src 0x0405 b) r.1
    h.attn .mir 9

/-- LOST_NOTICE_RX (R265): the survivor, the lost hub, its port code and its last OUT counts. -/
def execLostNoticeRx (src lost : BitVec 14) (port : Fin 8) (out : List (BitVec 16)) (s : State) : Answer :=
  actT s (s.hub.mainUp && s.hub.up .kll) fun h => h.lostNoticed src.toNat lost.toNat port out

/-- A record of RECONCILE_DATA. -/
def Hub.takeRecon (h : Hub) (e : BitVec 24 × BitVec 16 × BitVec 16 × Byte) : Hub :=
  let flow := e.1.toNat
  (h.recEnsure flow false).updRec flow fun r => { r with
    downIn := if e.2.2.2.getLsbD 0 then some e.2.1.toNat else r.downIn
    upAck := if e.2.2.2.getLsbD 1 then some e.2.2.1.toNat else r.upAck }

/-- A frame of the answer for a port code of the lost member; `last` carries the result of the neighbour's ledger check on its last frame.
A frame of a neighbour that no notice named is discarded (R264, R266). -/
def Hub.reconciled (h : Hub) (port : Fin 8) (recs : List (BitVec 24 × BitVec 16 × BitVec 16 × Byte)) (last : Option Bool) : Hub :=
  if !h.mir.noticed.testBit port || !h.mir.counting then h.msgBad
  else
    let h := recs.foldl Hub.takeRecon (h.wrB Reg.MIR_TAKE_STAT (8 + port) true)
    let h := match last with
      | none => h
      | some ok =>
        let h := if ok then h else h.fault .mir 3
        h.updMir fun m => { m with finished := m.finished ||| 2 ^ port.val, matched := m.matched && ok }
    if h.mir.running && h.allAnswered then h.takeDone else h

/-- RECONCILE_DATA_RX (R264, R266). -/
def execReconcileDataRx (port : Fin 8) (recs : List (BitVec 24 × BitVec 16 × BitVec 16 × Byte)) (last : Option Bool)
    (s : State) : Answer :=
  actT s (s.hub.up .mir) fun h => h.reconciled port recs last

/-- The frames lost of a flow: a difference of FSEQs, 0 if it exceeds 32,767. -/
def lostFrames (a b : Nat) : Nat :=
  let d := (a + 131072 - b) % 65536
  if 32767 < d then 0 else d

/-- The count for one entry (R266), and whether it is an estimate. -/
def PairRec.lostNow (r : PairRec) : Option (Nat × Bool) :=
  match r.upAck, r.downIn, r.seqs with
  | some a, some b, _ => some (lostFrames a b, false)
  | none, some b, some (inseq, _, _) => some (lostFrames (inseq + 65535) b, true)
  | some a, none, some (_, expect, _) => some (lostFrames a expect, true)
  | _, _, _ => none

/-- The last frame of every neighbour that has answered is in, and none is awaited any more. -/
def Hub.answersIn (h : Hub) : Bool := !h.mir.running && decide (h.mir.noticed &&& h.mir.finished = h.mir.noticed)

/-- LOST_COUNT_END (R266): every answer is in, or 1 ms has passed since the declaration. -/
def execLostCountEnd (s : State) : Answer :=
  act s (s.hub.up .mir && s.hub.mir.counting && (s.hub.answersIn || decide (s.hub.mir.lossAt + 1000000 ≤ s.hub.mono))) fun h =>
    let found := h.mir.recs.filterMap fun e => e.2.lostNow
    let sum := fun (est : Bool) => (found.filter fun x => x.2 = est).foldl (fun n x => n + x.1) 0
    let h := (h.inc Reg.MIR_LOST_FRAMES (sum false)).inc Reg.MIR_LOST_EST (sum true)
    let ok := h.mir.matched && decide (h.mir.finished = h.rdF Reg.MIR_TAKE_STAT 7 0)
    let h := ((h.wrB Reg.MIR_TAKE_STAT 16 ok).wrB Reg.MIR_TAKE_STAT 17 true).attn .mir 7
    h.updMir fun m => { m with
      counting := false
      recs := m.recs.map fun e => (e.1, e.2.lostNow.elim e.2 fun x => { e.2 with lost := x.1, est := x.2 }) }

/-! ### Batches (R260) -/

/-- A mirror record as a batch carries it. (Log entry 17, PRESUMED.) -/
def MirRec.bytes : MirRec → List Byte
  | .ctxOp op flow ws => beBytes 1 1 ++ beBytes 1 op ++ beBytes 3 flow ++ ws.flatMap fun w => beBytes 4 w.toNat
  | .seq flow i e l => beBytes 1 2 ++ beBytes 3 flow ++ beBytes 2 i ++ beBytes 2 e ++ beBytes 2 l
  | .credit p hub adv out => beBytes 1 3 ++ beBytes 1 p ++ beBytes 2 hub ++ (adv ++ out).flatMap (beBytes 2)
  | .gate p off v t => beBytes 1 4 ++ beBytes 1 p ++ beBytes 4 off ++ beBytes 4 v.toNat ++ beBytes 8 t
  | .shape flow b => beBytes 1 5 ++ beBytes 3 flow ++ beBytes 4 (iword b).toNat
  | .reserved t => beBytes 1 t

/-- Records packed into bodies of at most `lim` bytes, in order. (Log entry 17, PRESUMED.) -/
def packRecs (lim : Nat) : List (List Byte) → List Byte → List (List Byte)
  | [], cur => if cur = [] then [] else [cur]
  | r :: l, cur => if cur.length + r.length ≤ lim ∨ cur = [] then packRecs lim l (cur ++ r) else cur :: packRecs lim l r

/-- The slots of resident flows of a group that this member is hoist of. -/
def Hub.hoistSlots (h : Hub) : List Nat :=
  (h.ctxs.filter fun e => decide (9 ≤ e.1) && decide (e.2.state = .resident) && (h.flowGroups e.1).any h.hoistOf).map (·.1)

/-- The twin ports of groups that this member is hoist of. -/
def Hub.hoistPorts (h : Hub) : List Nat := h.twinPorts ((List.range 8).filter h.hoistOf)

/-- The SEQ and CREDIT records as they stand. -/
def Hub.liveRecs (h : Hub) : List MirRec :=
  h.hoistSlots.map (fun s =>
    let c := h.ctx s
    .seq c.handle c.inseq c.expect ((Tab.find h.mir.recs c.handle).elim 0 fun (r : PairRec) => r.lastIn))
  ++ ((h.hoistPorts.filter fun p => 5 ≤ h.klState p ∧ h.klState p ≤ 7).map fun p =>
    .credit p (h.rdF (Reg.KL_PEER p) 13 0) (h.link p).adv ((List.range 8).map fun c => (h.link p).outCells c))

/-- The SHAPE records, once per deal epoch. -/
def Hub.shapeRecs (h : Hub) : List MirRec :=
  if h.mir.shapeDue then h.hoistSlots.map fun s => .shape (h.ctx s).handle (h.ctx s).tokens else []

/-- The records that have changed since they were last sent. -/
def Hub.changedRecs (h : Hub) : List MirRec :=
  h.mir.queue.map (·.1) ++ h.liveRecs.filter (fun r => !h.mir.sent.contains r) ++ h.shapeRecs

/-- The records that have changed leave in batches (R260). When in the last 0.5 µs a SEQ or CREDIT value changed is a free value; a batch
names the time of its oldest change in cell time, which the two members share. (Log entry 63, DESIGN CHOICE.) -/
def Hub.batchOut (h : Hub) : Hub :=
  let rs := h.changedRecs
  let (w, h) := h.draw
  let live' := if h.liveRecs.all fun r => h.mir.sent.contains r then h.mono else h.mono - w.toNat % 501
  let since := h.now - (h.mono - h.mir.queue.foldl (fun t x => min t x.2) live')
  let live := h.liveRecs
  let bodies := packRecs 1024 (rs.map MirRec.bytes) []
  let h := h.updMir fun m => { m with queue := [], shapeDue := false, sent := live }
  bodies.foldl (fun h b =>
    let h := h.updMir fun m => { m with batch := (m.batch + 1) % 2 ^ 32 }
    h.postNear 8 0x0402 (beBytes 4 h.mir.batch ++ beBytes 8 since ++ b)) h

/-- MIRROR_BATCH_TX (R260): every 0.5 µs in which a record has changed; only the latest value of each record goes. -/
def execMirrorBatchTx (s : State) : Answer :=
  actT s (s.hub.up .mir && s.hub.paired && s.hub.mUp && decide (s.hub.changedRecs ≠ [])) Hub.batchOut

/-- The register of a gate bank at an offset of TSS. -/
def gateRegOf (t off : Nat) : Option (Bool × GateReg) :=
  let rs := [GateReg.baseLo, .baseHi, .cycle, .len] ++ (List.finRange 256).map GateReg.entry
  ([false, true].flatMap fun b => rs.map fun r => (b, r)).find? fun x => gateRegAddr t x.1 x.2 % 0x100000 = off

/-- A mirrored gate write acts on this member's own port as if written at the hoist's write time; SWITCH_LATE is not set. -/
def Hub.mirGate (h : Hub) (t off : Nat) (v : Word) (time : Nat) : Hub :=
  let own := h.time
  let late := bit (h.hdr .tss).attnRaw 2
  let h := { h with time := { own with ns := time } }
  let h :=
    if off = Reg.TS_GCTL t % 0x100000 then h.writeGctl t v
    else if off = Reg.TS_GSW_LO t % 0x100000 then h.wr (Reg.TS_GSW_LO t) v
    else if off = Reg.TS_GSW_HI t % 0x100000 then h.wr (Reg.TS_GSW_HI t) v
    else
      match gateRegOf t off with
      | some (b, r) => h.writeGate t b (gateRegAddr t b r) (v &&& gateRegMask r) (gateRegTiming r)
      | none => h
  let h := { h with time := own }
  h.updHdr .tss fun x => { x with attnRaw := setBit x.attnRaw 2 late }

/-- The fly applies one record (Table 9.4). -/
def Hub.mirApply (h : Hub) : MirRec → Hub
  | .ctxOp op flow ws => (h.recEnsure flow false).mirOp op flow ws
  | .seq flow i e l => (h.recEnsure flow false).updRec flow fun r => { r with seqs := some (i, e, l) }
  | .credit p hub adv out => h.updMir fun m => { m with credits := Tab.put m.credits p ⟨hub, adv, out⟩ }
  | .gate t off v time => if t ≤ 7 then h.mirGate t off v time else h
  | .shape flow b => (h.recEnsure flow false).updRec flow fun r => { r with bucket := some b }
  | .reserved _ => h.msgBad

/-- The record counts toward the lag: shaper records do not (Table 19.4). -/
def MirRec.lags : MirRec → Bool
  | .shape .. => false
  | _ => true

/-- MIR_LAG follows a batch (R260). -/
def Hub.mirLag (h : Hub) (t : Nat) : Hub :=
  let k := t / 10
  let h := (h.wrF Reg.MIR_LAG 15 0 (holdAt 0xFFFF k)).maxF Reg.MIR_LAG 30 16 (holdAt 0x7FFF k)
  if 2000 < t then h.fault .mir 2 else h

/-- A batch is applied in order, its number kept for the heartbeat, and its lag shown. What it does is not mirrored back (R260). -/
def Hub.batchIn (h : Hub) (seq since : Nat) (recs : List MirRec) : Hub :=
  let q := h.mir.queue
  let h := recs.foldl Hub.mirApply h
  let h := h.updMir fun m => { m with queue := q, applied := seq }
  if recs.any MirRec.lags then h.mirLag (h.now - since) else h

/-- MIRROR_BATCH_RX (R260): a batch with its number, the cell time of its oldest change and its records. -/
def execMirrorBatchRx (seq : BitVec 32) (since : BitVec 64) (recs : List MirRec) (s : State) : Answer :=
  actT s (s.hub.up .mir && s.hub.paired) fun h => h.batchIn seq.toNat since.toNat recs

/-! ### Handover (R267, R270) -/

/-- A handover that the running HANDOVER operation asked for ends: one more group moved, and with the last one the operation
completes. -/
def Hub.opMove (h : Hub) (n : Nat) : Hub :=
  let h := h.updMir fun m => { m with opMoved := m.opMoved + n }
  if h.mir.opGroups = 0 ∧ ¬ (h.mir.giving.any fun (x : Giving) => x.viaOp) then
    h.opResult .mir 0x12 (mbxOk [w32 h.mir.opMoved, w32 ((h.mono - h.mir.opFrom) / 1000)])
  else h

/-- A group leaves the list of those that a take waits for. -/
def Hub.opTaken (h : Hub) (g n : Nat) : Hub :=
  if h.mir.opGroups.testBit g then
    (h.updMir fun m => { m with opGroups := m.opGroups - 2 ^ g }).opMove n
  else h

/-- The new hoist takes a group: its TC0–TC5 units are held. -/
def Hub.takeGroup (h : Hub) (g : Nat) : Hub :=
  ((h.wrB Reg.MIR_ROLE g true).wrB Reg.MIR_ROLE (16 + g) true).updMir fun m => { m with
    taking := m.taking.filter (fun x => x.1 ≠ g) ++ [(g, h.mono)] }

/-- A GIVE for a group arrives. If this member is giving the same group, the GIVE of the side that HOIST_SIDE does not name is
applied, and the other one is refused (Table 9.6). -/
def Hub.giveRx (h : Hub) (g : Nat) : Hub :=
  match h.mir.giving.find? fun (x : Giving) => x.group = g with
  | none => h.takeGroup g
  | some x =>
    if h.sideOwn g then
      let h := h.updMir fun m => { m with giving := m.giving.filter fun (y : Giving) => y.group ≠ g }
      let h := if x.viaOp then h.opResult .mir 0x12 (mbxErr 0x82) else h
      h.takeGroup g
    else h

/-- HANDOVER_GIVE_RX (R267): a HANDOVER of kind GIVE for some groups; with `ask`, the partner asks this member to give
them. -/
def execHandoverGiveRx (groups : BitVec 8) (ask : Bool) (s : State) : Answer :=
  actT s (s.hub.up .mir && s.hub.paired) fun h =>
    if ask then
      ((onesOf groups.toNat 8).filter fun g => h.groupActive g && h.hoistOf g).foldl (fun h g => h.giveGroup g false) h
    else (onesOf groups.toNat 8).foldl Hub.giveRx h

/-- The twin ports of a group hold no cell of TC0–TC5, unread or unacknowledged (R267). -/
def Hub.drained (h : Hub) (g : Nat) : Bool :=
  let m := h.groupPorts g
  h.cells.all fun e => decide (6 ≤ e.2.tc) || decide ((e.2.pend ||| e.2.repl) &&& m = 0)

/-- HANDOVER_DRAINED (R267): the old hoist's twin ports of the group are drained. -/
def execHandoverDrained (g : Fin 8) (s : State) : Answer :=
  actT s (s.hub.up .mir && s.hub.paired && s.hub.mir.giving.any (fun (x : Giving) => x.group = g) && s.hub.drained g)
    fun h =>
      let viaOp := h.mir.giving.any fun (x : Giving) => x.group = g.val ∧ x.viaOp
      let h := h.updMir fun m => { m with giving := m.giving.filter fun (x : Giving) => x.group ≠ g.val }
      let h := (h.postNear 8 0x0403 [1#8, BitVec.ofNat 8 (2 ^ g.val)]).attn .mir 3
      if viaOp then h.opMove 1 else h

/-- The units of a group that were held are released, and the handover has ended. -/
def Hub.releaseGroup (h : Hub) (g : Nat) : Hub :=
  ((h.wrB Reg.MIR_ROLE (16 + g) false).updMir fun m => { m with taking := m.taking.filter fun x => x.1 ≠ g }).attn .mir 3

/-- HANDOVER_DRAINED_RX (R267): the old hoist has drained; the new hoist releases its held units. -/
def execHandoverDrainedRx (g : Fin 8) (s : State) : Answer :=
  actT s (s.hub.up .mir && s.hub.mir.taking.any fun x => x.1 = g) fun h => (h.releaseGroup g).opTaken g 1

/-- MIR_CFG.HO_TMO in force, in ns. -/
def Hub.hoTmo (h : Hub) : Nat := 1000 * clampN 10 65535 (h.rdF Reg.MIR_CFG 31 16)

/-- HANDOVER_TIMEOUT (R267): DRAINED has not come within HO_TMO; the held units of the group are released. A HANDOVER operation
does not wait longer for the group. -/
def execHandoverTimeout (g : Fin 8) (s : State) : Answer :=
  actT s (s.hub.up .mir && s.hub.paired) fun h =>
    let late := fun (t : Nat) => decide (t + h.hoTmo ≤ h.mono)
    if h.mir.taking.any fun x => x.1 = g && late x.2 then ((h.releaseGroup g).inc Reg.MIR_HO_LATE).opTaken g 1
    else if h.mir.opGroups.testBit g && late h.mir.opFrom then h.opTaken g 0
    else if h.mir.giving.any fun (x : Giving) => decide (x.group = g.val) && x.viaOp && late x.since then
      (h.updMir fun m => { m with
        giving := m.giving.map fun (x : Giving) => if x.group = g.val then { x with viaOp := false } else x }).opMove 1
    else h

/-- The ports of a group are UP at this member. -/
def Hub.groupUp (h : Hub) (g : Nat) : Bool := (onesOf (h.groupPorts g) 8).all fun p => decide (h.klState p = 5)

/-- The partner's ports of a group are UP, as far as this member knows. -/
def Hub.partnerGroupUp (h : Hub) (g : Nat) : Bool := decide (h.groupPorts g &&& h.mir.partnerUp = h.groupPorts g)

/-- The running HANDOVER: an error, a result at once for no group, or the gives or the ask that start it (R267, R272). -/
def Hub.handoverOp (h : Hub) : Hub × Option MbxResult :=
  let m := fld (h.arg .mir 0) 7 0
  let take := bit (h.arg .mir 1) 0
  let gs := onesOf m 8
  if !h.paired then done h (mbxErr 0x81)
  else if gs.any fun g => !h.groupActive g || (h.hoistOf g == take)
      || !(if take then h.groupUp g else h.partnerGroupUp g) then done h (mbxErr 0x82)
  else
    let h := h.updMir fun x => { x with opMoved := 0, opFrom := h.mono }
    if gs = [] then done h (mbxOk [0, 0])
    else if take then
      ((h.updMir fun x => { x with opGroups := m }).postNear 8 0x0403 [2#8, BitVec.ofNat 8 m], none)
    else (gs.foldl (fun h g => h.giveGroup g true) h, none)

/-- HANDOVER (R272): gives groups to the partner, or asks the partner to give them. -/
def execHandover (s : State) : Answer :=
  act s (s.hub.opRunning .mir 0x12 && !(s.hub.mir.giving.any fun (x : Giving) => x.viaOp) && decide (s.hub.mir.opGroups = 0))
    fun h => h.tscWatch (h.runOp .mir 0x12 Hub.handoverOp)

/-! ### Operations and registers (R271, R272) -/

/-- PAIR_FLOW_READ (R272). -/
def execPairFlowRead (s : State) : Answer :=
  mbxAct s .mir 0x10 fun h =>
    match Tab.find h.mir.recs (h.arg .mir 0).toNat with
    | none => done h (mbxErr 0x80)
    | some r =>
      let q := r.seqs.getD (0, 0, 0)
      done h (mbxOk [w32 (r.inPort + 32 * r.outPort + 1024 * b2n r.est), w32 (r.lastIn + 65536 * r.lastAck), w32 r.lost,
        w32 (q.1 + 65536 * q.2.1)])

/-- The GATE records of a port: both banks and the control registers, as they stand. -/
def Hub.gateRecs (h : Hub) (t : Nat) : List MirRec :=
  let rs := [GateReg.baseLo, .baseHi, .cycle, .len] ++ (List.finRange 256).map GateReg.entry
  let as := ([false, true].flatMap fun b => rs.map fun r => gateRegAddr t b r)
    ++ [Reg.TS_GSW_LO t, Reg.TS_GSW_HI t]
  as.map (fun a => .gate t (a % 0x100000) (h.rd a) h.now) ++ [.gate t (Reg.TS_GCTL t % 0x100000) (h.gctlHeld t) h.now]

/-- RESYNC (R272): CTX_OP records for every resident context of a group of which this member is hoist, and GATE records for the
ports of those groups. -/
def execResync (s : State) : Answer :=
  mbxAct s .mir 0x11 fun h =>
    if !h.paired then done h (mbxErr 0x81)
    else
      let rs := h.hoistSlots.map (fun s => MirRec.ctxOp 0 (h.ctx s).handle (h.ctx s).policyWords)
        ++ h.hoistPorts.flatMap h.gateRecs
      done (rs.foldl Hub.mirQueue h) (mbxOk [w32 rs.length])

/-- MIR_LAG.CLR restarts the maximum. -/
def Hub.mirLagClr (h : Hub) : Hub := h.wrF Reg.MIR_LAG 30 16 0

/-- MIR_LAG_CLR (R271). -/
def execMirLagClr (s : State) : Answer := act s (s.hub.up .mir) Hub.mirLagClr

/-- LOSS_TIME_LO_READ (R271): a read of MIR_LOSS_TIME_LO latches HI. -/
def execLossTimeLoRead (s : State) : Answer :=
  act s (s.hub.up .mir) fun h => h.latchHi Reg.MIR_LOSS_TIME_LO Reg.MIR_LOSS_TIME_HI

end Sys2Proof.Machine
end

