-- ==== Sys2Proof/Machine/Ksi.lean ====
section
/-! DEFINITION. Keys, identity and tamper response (R446–R464). -/

namespace Sys2Proof.Machine

/-- Change KSI. -/
def Hub.updKsi (h : Hub) (f : Ksi → Ksi) : Hub := { h with ksi := f h.ksi }

/-- A key slot. -/
def Hub.keySlot (h : Hub) (n : Nat) : KeySlot := Tab.get (fun _ => {}) h.ksi.slots n

/-- Put a key slot. -/
def Hub.setKey (h : Hub) (n : Nat) (k : KeySlot) : Hub :=
  h.updKsi fun x => { x with slots := Tab.set (fun _ => {}) x.slots n k }

/-- KSI_SLOTn (Table 18.1). -/
def KeySlot.word (k : KeySlot) : Word :=
  w32 (k.type + 16 * b2n k.challenge + 32 * b2n k.remote + 256 * k.len + 65536 * k.ctr)

/-- KSI_DEV_DIGEST: SHA-384 over the device public key (R446); 0 while IDENTITY_LOST. -/
def Hub.devDigest (h : Hub) : List Byte :=
  if h.ksi.lost then List.replicate 48 0 else Config.sha384 (Config.devicePub h.ksi.root)

/-- KSI_STAT (Table 18.6). -/
def Hub.ksiStat (h : Hub) : Word :=
  w32 (b2n h.ksi.lost + 2 * b2n (decide ((h.keySlot 0).type = 2)) + 4 * b2n h.ksi.vbatLow
    + 8 * b2n (decide (h.ksi.kat ≠ 0)) + 16 * b2n (h.opRunning .ksi 0x11)
    + 256 * (h.ksi.slots.filter fun e => e.2.type ≠ 0).length)

/-- The first `n` bytes of KSI_BUF. -/
def Hub.ksiBuf (h : Hub) (n : Nat) : List Byte :=
  ((List.range ((n + 3) / 4)).flatMap fun i => leBytes 4 (h.rd (Reg.KSI_BUF i)).toNat).take n

/-- Put bytes into KSI_BUF from its start. -/
def Hub.putBuf (h : Hub) (b : List Byte) : Hub :=
  (chunks 4 b).zipIdx.foldl (fun h e => h.wr (Reg.KSI_BUF e.2) (w32 (leVal e.1))) h

/-- The path of the running request. -/
def Hub.ksiSrc (h : Hub) : Nat := (h.mbx .ksi).src

/-- Run a KSI operation behind the checks of R457 and R459: a failing known-answer test, and a lost identity. -/
def Hub.ksiOp (h : Hub) (f : Hub → Hub × Option MbxResult) : Hub × Option MbxResult :=
  if h.ksi.kat ≠ 0 then done h (mbxErr 0x86) else if h.ksi.lost then done h (mbxErr 0x87) else f h

/-! ### Challenge-response (R449) -/

/-- A challenge to slot n: the error, or the new counter and the response. -/
def Hub.challenge (h : Hub) (n : Nat) (remote : Bool) (chal : List Byte) : Hub × (Nat ⊕ Nat × List Byte) :=
  let k := h.keySlot n
  let c := (h.rd Reg.KSI_CR_CTR).toNat
  if k.type ≠ 1 then (h, .inl 0x80)
  else if !k.challenge then (h, .inl 0x81)
  else if remote && !k.remote then (h, .inl 0x81)
  else if c = 0xFFFFFFFF then (h, .inl 0x84)
  else (h.wr Reg.KSI_CR_CTR (w32 (c + 1)),
    .inr (c + 1, Config.hmac256 k.key (chal ++ beBytes 2 h.hubId ++ beBytes 4 (c + 1))))

/-- The 32 bytes of KSI_CHAL0–7. -/
def Hub.ksiChal (h : Hub) : List Byte := (List.range 8).flatMap fun i => leBytes 4 (h.rd (Reg.KSI_CHAL i)).toNat

/-- The running CHALLENGE (R449, R460). -/
def Hub.challengeOp (h : Hub) : Hub × Option MbxResult :=
  h.ksiOp fun h =>
  match h.challenge (fld (h.arg .ksi 0) 5 0) (decide (h.ksiSrc = 1)) h.ksiChal with
  | (h, .inl e) => done h (mbxErr e)
  | (h, .inr (c, r)) =>
    let h := (List.range 8).foldl (fun h i => h.wr (Reg.KSI_RESP i) (imgWord r i)) h
    done h (mbxOk [w32 c, w32 h.hubId])

/-- CHALLENGE (R449). -/
def execChallenge (s : State) : Answer :=
  mbxAct s .ksi 0x10 Hub.challengeOp

/-- A CHALLENGE message of another hub is answered (R450). -/
def Hub.challengeMsg (h : Hub) (src : BitVec 14) (slot : Byte) (chal : List Byte) : Hub :=
  let no := fun (h : Hub) (e : Nat) => h.postHub src.toNat 0x0503
    (List.replicate 6 0 ++ [BitVec.ofNat 8 e] ++ List.replicate 32 0)
  if h.ksi.kat ≠ 0 then no h 0x86
  else if h.ksi.lost then no h 0x87
  else
    match h.challenge slot.toNat true chal with
    | (h, .inl e) => no h e
    | (h, .inr (c, r)) => h.postHub src.toNat 0x0503 (beBytes 2 h.hubId ++ beBytes 4 c ++ [0#8] ++ r.take 32)

/-- CHALLENGE_MSG_RX (R453): a CHALLENGE message from a hub is served and answered. -/
def execChallengeMsgRx (src : BitVec 14) (slot : Byte) (chal : List Byte) (s : State) : Answer :=
  actT s (s.hub.mainUp && s.hub.up .ksi) fun h => h.challengeMsg src slot chal

/-! ### Sealed updates (R450–R453) -/

/-- Bytes `a` to `a + n − 1` of a message, big-endian. -/
def msgF (m : List Byte) (a n : Nat) : Nat := beVal ((m.drop a).take n)

/-- Step 1 of R451: the message is consistent (Table 18.2). -/
def keyShape (m : List Byte) : Bool :=
  let op := msgF m 5 1
  let slot := msgF m 6 1
  let type := msgF m 7 1
  let w := msgF m 165 1
  decide (262 ≤ m.length) && decide (msgF m 0 4 = 0x41484B55) && decide (msgF m 4 1 = 1) && decide (slot < 64)
    && decide (msgF m 8 1 < 4) && decide (msgF m 9 3 = 0) && decide (m.length = 262 + w)
    && (if op = 1 then
          (decide (type = 1 ∧ slot ≠ 0 ∧ 24 ≤ w ∧ w ≤ 72 ∧ w % 8 = 0) || decide (type = 2 ∧ slot = 0 ∧ w = 112))
        else decide (op = 2 ∧ type = 0 ∧ w = 0))

/-- Steps 1 to 6 of R451: the code of the first failure, or the slot, its new record and COUNTER. -/
def Hub.keyCheck (h : Hub) (m : List Byte) : Nat ⊕ Nat × KeySlot × Nat :=
  let ctr := msgF m 60 8
  let w := msgF m 165 1
  let slot := msgF m 6 1
  if !keyShape m then .inl 0x82
  else if (m.drop 12).take 48 ≠ h.devDigest then .inl 0x83
  else if ctr ≤ h.rdWide Reg.KSI_UPD_CTR_LO then .inl 0x84
  else if (h.keySlot 0).type ≠ 2 then .inl 0x88
  else if !Config.verify (h.keySlot 0).key (m.take (166 + w)) (m.drop (166 + w)) then .inl 0x06
  else if msgF m 5 1 = 2 then .inr (slot, {}, ctr)
  else
    let e := (m.drop 68).take 97
    let kek := Config.hmac256 (Config.ecdh (Config.devicePriv h.ksi.root) e)
      ([0x41#8, 0x48#8, 0x2D#8, 0x4B#8, 0x55#8, 0x31#8] ++ (m.drop 12).take 48 ++ beBytes 8 ctr)
    match (if Config.onCurve e then Config.unwrap kek ((m.drop 166).take w) else none) with
    | none => .inl 0x85
    | some k =>
      let type := msgF m 7 1
      let len := if type = 1 then w - 8 else 97
      let r : KeySlot := {
        type := type
        challenge := (m.getD 8 0).getLsbD 0
        remote := (m.getD 8 0).getLsbD 1
        len := len
        ctr := ctr % 65536
        key := k.take len }
      .inr (slot, r, ctr)

/-- A sealed update is checked and committed (R451, R452): the error code, or the slot and COUNTER. -/
def Hub.keyUpdate (h : Hub) (m : List Byte) : Hub × (Nat ⊕ Nat × Nat) :=
  match h.keyCheck m with
  | .inl e => (((h.inc Reg.KSI_UPD_REJ).attn .ksi 2).fault .ksi 1, .inl e)
  | .inr (slot, r, ctr) => (((h.setKey slot r).wrWide Reg.KSI_UPD_CTR_LO ctr).attn .ksi 1, .inr (slot, ctr))

/-- The running KEY_UPDATE (R451, R452, R460). -/
def Hub.keyUpdateOp (h : Hub) : Hub × Option MbxResult :=
  h.ksiOp fun h =>
  let n := (h.arg .ksi 0).toNat
  match h.keyUpdate (h.ksiBuf (min n 2048)) with
  | (h, .inl e) => done h (mbxErr e)
  | (h, .inr (slot, c)) => done h (mbxOk [w32 slot, lo32 c, hi32 c])

/-- KEY_UPDATE (R451). -/
def execKeyUpdate (s : State) : Answer :=
  mbxAct s .ksi 0x11 Hub.keyUpdateOp

/-- KEY_UPDATE_TIMEOUT (R28, R451): 2 s have passed; the update is abandoned and nothing has changed. -/
def execKeyUpdateTimeout (s : State) : Answer :=
  act s (s.hub.opRunning .ksi 0x11 && decide ((s.hub.mbx .ksi).postedAt + 2000000000 ≤ s.hub.mono)) fun h =>
    h.opResult .ksi 0x11 (mbxErr 0x07)

/-- A sealed update of another hub is checked, applied and answered (R451, R452). -/
def Hub.keySealed (h : Hub) (src : BitVec 14) (body : List Byte) : Hub :=
  let reply := fun (h : Hub) (st : Nat) => h.postHub src.toNat 0x0501
    (beBytes 8 (msgF body 60 8) ++ [body.getD 6 0, BitVec.ofNat 8 st])
  if h.opRunning .ksi 0x11 then reply h 0x8A
  else if h.ksi.kat ≠ 0 then reply h 0x86
  else if h.ksi.lost then reply h 0x87
  else
    match h.keyUpdate body with
    | (h, .inl e) => reply h e
    | (h, .inr _) => reply h 0

/-- KEY_SEALED_RX (R453): the steward runs the update of a KEY_SEALED message from a hub and answers, at once with 0x8A while an
update runs. (Log entry 40, DEDUCED.) -/
def execKeySealedRx (src : BitVec 14) (body : List Byte) (s : State) : Answer :=
  actT s (s.hub.mainUp && s.hub.up .ksi) fun h => h.keySealed src body

/-- The request came from the host of the hub itself: BAR0, SPI or SMBus (R454, Table 18.7). -/
def Hub.ksiLocal (h : Hub) : Bool := [0, 2, 3].contains h.ksiSrc

/-- The running OWNER_CLAIM (R446, R460). -/
def Hub.ownerClaimOp (h : Hub) : Hub × Option MbxResult :=
  h.ksiOp fun h =>
  let k := h.ksiBuf 97
  if !h.ksiLocal then done h (mbxErr 0x81)
  else if (h.keySlot 0).type ≠ 0 then done h (mbxErr 0x88)
  else if !Config.onCurve k then done h (mbxErr 0x82)
  else
    let r : KeySlot := { type := 2, len := 97, ctr := h.rdWide Reg.KSI_UPD_CTR_LO % 65536, key := k }
    done (h.setKey 0 r) (mbxOk [])

/-- OWNER_CLAIM (R454). -/
def execOwnerClaim (s : State) : Answer :=
  mbxAct s .ksi 0x12 Hub.ownerClaimOp

/-- The running CERT_READ (R460). -/
def Hub.certReadOp (h : Hub) : Hub × Option MbxResult :=
  let which := (h.arg .ksi 0).toNat
  let off := (h.arg .ksi 1).toNat
  let c := if which = 0 then h.ksi.devCert else h.ksi.caCert
  if 2 ≤ which ∨ off % 4 ≠ 0 ∨ c.length ≤ off then done h (mbxErr 0x02)
  else
    let b := (c.drop off).take 20 ++ List.replicate 20 0
    done h (mbxOk (w32 c.length :: (List.range 5).map (imgWord b)))

/-- CERT_READ (Table 18.7). -/
def execCertRead (s : State) : Answer :=
  mbxAct s .ksi 0x13 Hub.certReadOp

/-! ### Tamper (R455–R457) -/

/-- Every secret is zeroed, with a cause of KSI_TAMP_REC (R456). -/
def Hub.zeroize (h : Hub) (cause : Nat) : Hub :=
  let h := h.updKsi fun x => { x with lost := true, root := List.replicate 32 0, slots := [] }
  let h := ((h.wr Reg.KSI_TAMP_CFG 0).wr Reg.KSI_TAMP_REC (bitW cause)).inc Reg.KSI_TAMP_COUNT
  let h := h.wrWide Reg.KSI_TAMP_TIME_LO (if h.mainUp then h.now else 0)
  let h := ((h.attn .ksi 0).fault .ksi 0).setLive .ksi 0 true
  h.opResult .ksi 0x11 (mbxErr 0x87)

/-- The running ZEROIZE (R454, R460). -/
def Hub.zeroizeOp (h : Hub) : Hub × Option MbxResult :=
  if h.ksiLocal then done (h.zeroize 6) (mbxOk []) else done h (mbxErr 0x81)

/-- ZEROIZE (R456). -/
def execZeroize (s : State) : Answer :=
  mbxAct s .ksi 0x14 Hub.zeroizeOp

/-- TAMPER_TRIP (R455, R456): a detector of Table 18.4 trips, in any state; in NAP or DORMANT it wakes the hub. A loop trips only while
it is enabled. -/
def execTamperTrip (cause : Fin 6) (s : State) : Answer :=
  act s (decide (2 ≤ cause.val) || s.hub.rdB Reg.KSI_TAMP_CFG cause) fun h => (h.zeroize cause).wakeEvent 3

/-- TAMP_LOOP_ENABLE (R455): a W1S write of KSI_TAMP_CFG. -/
def execTampLoopEnable (mask : BitVec 2) (s : State) : Answer :=
  act s (s.hub.up .ksi) fun h => h.wr Reg.KSI_TAMP_CFG (h.rd Reg.KSI_TAMP_CFG ||| mask.setWidth 32)

/-- VBAT_CHECK (R460). -/
def execVbatCheck (low : Bool) (s : State) : Answer :=
  act s (s.hub.up .ksi) fun h =>
    let was := h.ksi.vbatLow
    let h := (h.updKsi fun x => { x with vbatLow := low }).setLive .ksi 3 low
    if low && !was then (h.attn .ksi 3).fault .ksi 3 else h

/-! ### Re-provisioning (R458) -/

/-- Thirty-two bytes from the random bit generator. -/
def Hub.random32 (h : Hub) : Hub × List Byte :=
  (List.range 8).foldl (fun a _ =>
    let (w, h) := a.1.draw
    (h, a.2 ++ leBytes 4 w.toNat)) (h, [])

/-- The running PROVISION_BEGIN (R457, R460). -/
def Hub.provisionOp (h : Hub) : Hub × Option MbxResult :=
  if h.ksi.kat ≠ 0 then done h (mbxErr 0x86)
  else if !h.ksi.lost then done h (mbxErr 0x89)
  else
    let (h, root) := h.random32
    let h := h.updKsi fun x => { x with root := root }
    let b := (Config.devicePub root).take 97 ++ beBytes 4 (h.rd Reg.KSI_SERIAL_HI).toNat
      ++ beBytes 4 (h.rd Reg.KSI_SERIAL_LO).toNat
    done (h.putBuf b) (mbxOk [105])

/-- PROVISION_BEGIN (R458). -/
def execProvisionBegin (s : State) : Answer :=
  mbxAct s .ksi 0x15 Hub.provisionOp

/-- The running PROVISION_CERT (R457, R460). -/
def Hub.provisionCertOp (h : Hub) : Hub × Option MbxResult :=
  let n := (h.arg .ksi 0).toNat
  let m := (h.arg .ksi 1).toNat
  let b := h.ksiBuf (min 2048 (n + m))
  let dev := b.take n
  let ca := b.drop n
  if h.ksi.kat ≠ 0 then done h (mbxErr 0x86)
  else if !h.ksi.lost then done h (mbxErr 0x89)
  else if 1024 < n ∨ 1024 < m then done h (mbxErr 0x02)
  else if Config.chainGood dev ca && decide (Config.certPub dev = Config.devicePub h.ksi.root)
      && decide (Config.certSerial dev = join64 (h.rd Reg.KSI_SERIAL_LO) (h.rd Reg.KSI_SERIAL_HI)) then
    let h := h.updKsi fun x => { x with lost := false, devCert := dev, caCert := ca }
    done ((h.setLive .ksi 0 false).attn .ksi 4) (mbxOk [])
  else done h (mbxErr 0x89)

/-- PROVISION_CERT (R458). -/
def execProvisionCert (s : State) : Answer :=
  mbxAct s .ksi 0x16 Hub.provisionCertOp

/-! ### Latched reads -/

/-- TAMP_TIME_LO_READ (R462). -/
def execTampTimeLoRead (s : State) : Answer :=
  act s (s.hub.up .ksi) fun h => h.latchHi Reg.KSI_TAMP_TIME_LO Reg.KSI_TAMP_TIME_HI

/-- UPD_CTR_LO_READ (R462). -/
def execUpdCtrLoRead (s : State) : Answer :=
  act s (s.hub.up .ksi) fun h => h.latchHi Reg.KSI_UPD_CTR_LO Reg.KSI_UPD_CTR_HI

end Sys2Proof.Machine
end

