-- ==== Sys2Proof/Machine/Sit.lean ====
section
/-! DEFINITION. The in-service test (R476–R485): bank steps, the tests of Table 19.5, the coverage cycle. -/

namespace Sys2Proof.Machine

/-- Change SIT. -/
def Hub.updSit (h : Hub) (f : Sit → Sit) : Hub := { h with sit := f h.sit }

/-- Target `t` of Table 19.5 is enabled. -/
def Hub.sitOn (h : Hub) (t : Nat) : Bool := h.rdB Reg.SIT_TARGET_EN t

/-- Tests are made in RUN (R476). -/
def Hub.sitRuns (h : Hub) : Bool := h.up .sit && h.mainUp && decide (h.power.state = .run)

/-! ### Instances and their opportunities (Table 19.5) -/

/-- An arbiter of Table 10.1 by its number, masthead position × 16 + k. -/
def sitArb (i : Nat) : Option (Block × Nat) :=
  match Block.all[i / 16]? with
  | none => none
  | some b => if (arbBases b (i % 16)).isSome then some (b, i % 16) else none

/-- The number names an instance (Table 19.9). -/
def sitExists (t i : Nat) : Bool :=
  match t with
  | 0 => true
  | 1 => decide (i < 40)
  | 2 => decide (i < 6)
  | 3 => decide (i < 5)
  | 4 => (sitArb i).isSome
  | _ => decide (i < 18)

/-- The instance exists in this hub: power channels in a LEAF hub only, and the egress ports of its role.
(Log entry 41, DEDUCED.) -/
def Hub.sitHere (h : Hub) (t i : Nat) : Bool :=
  sitExists t i && !(decide (t = 2) && decide (h.role ≠ .leaf)) && !(decide (t = 5) && !portPresent h.straps i)

/-- The lane is a wired spare. -/
def Hub.laneWired (h : Hub) (l : Nat) : Bool := h.laneFree l && h.rdB (Reg.LN_CFG l) 4

/-- The instance offers an opportunity now. -/
def Hub.sitChance (h : Hub) (t i : Nat) : Bool :=
  match t with
  | 0 => h.sparePresent
  | 1 => !h.laneOut i && (h.laneFree i || h.portDown (h.lanePort i)) && decide (h.rdF (Reg.LN_PAT_CFG i) 1 0 = 0)
      && decide (h.rdF (Reg.LN_LOOP i) 1 0 = 0)
  | 2 => decide (h.role = .leaf) && (decide (h.pcState i = 0) || (decide (h.pcState i = 1) && decide ((h.chan i).detTicks = 0)))
  | 3 => true
  | 4 => (sitArb i).elim false fun e => !(h.arb e.1 e.2).held
  | _ => h.pathLent i

/-- A physical bank is mapped out (TSC_BANK_OUT). -/
def Hub.bankOut (h : Hub) (pb : Nat) : Bool :=
  if pb < 32 then h.rdB Reg.TSC_BANK_OUT_LO pb else h.rdB Reg.TSC_BANK_OUT_HI 0

/-- The instances of a target that a coverage cycle counts. -/
def Hub.sitInstances (h : Hub) (t : Nat) : List Nat :=
  match t with
  | 0 => (List.range 33).filter fun pb => !h.bankOut pb
  | 1 => (List.range 40).filter fun l => !h.laneOut l && (h.laneFree l || h.portDown (h.lanePort l))
  | 2 => if h.role = .leaf then List.range 6 else []
  | 3 => List.range 5
  | 4 => (List.range 272).filter fun i => (sitArb i).isSome
  | _ => (List.range 18).filter fun p => h.rdB (Reg.TS_GCTL p) 5

/-! ### The coverage cycle (R477, R478) -/

/-- STEP of the running cycle. -/
def Hub.sitStep (h : Hub) : Nat := h.rdF Reg.SIT_COVER_STAT 13 8

/-- A cycle ends: coverage is reported, and the next cycle starts. -/
def Hub.coverEnd (h : Hub) : Hub :=
  let missed := fun t => (h.sitInstances t).filter fun i => !h.sit.tested.contains (t, i)
  let on := (List.range 6).filter fun t => h.sitOn t
  let skipped := on.foldl (fun n t => n + (missed t).length) 0
  let doneBits := on.foldl (fun m t => if (missed t).isEmpty then m + 2 ^ t else m) 0
  let h := (h.wrF Reg.SIT_COVER_STAT 5 0 doneBits).incFW Reg.SIT_COVER_STAT 31 16
  let h := (h.wr Reg.SIT_COVER_LAST (w32 ((h.mono - h.sit.start) / 1000000000))).wr Reg.SIT_SKIPPED (w32 (min 65535 skipped))
  ((h.wrF Reg.SIT_COVER_STAT 13 8 0).updSit fun x => { x with start := h.mono, late := false, tested := [] }).attn .sit 0

/-- A bank step has ended; a TEST_NOW that waited for its test, and finds no spare bank, is answered. -/
def Hub.stepEnd (h : Hub) : Hub :=
  let h := if h.sit.waits then (h.updSit fun x => { x with waits := false }).opResult .sit 0x10 (mbxErr 0x82) else h
  let h := (h.wrF Reg.SIT_COVER_STAT 13 8 (h.sitStep + 1)).updSit fun x => { x with running := false }
  if 33 ≤ h.sitStep then h.coverEnd else h

/-- Begin the bank step that is due (R180, R477): at once over where BANK is disabled or no spare is present; it waits while TSC
condemns a bank (Table 19.6). -/
def Hub.stepBegin (h : Hub) : Hub :=
  if h.sit.running || h.banks.condemn || h.banks.draining.isSome || h.banks.copying.isSome then
    h.updSit fun x => { x with due := true }
  else if !h.sitOn 0 || !h.sparePresent then (h.updSit fun x => { x with due := false }).stepEnd
  else
    let lb := h.sit.next
    let h := h.updSit fun x => { x with due := false, running := true, next := (lb + 1) % 32 }
    ({ h with banks := { h.banks with copying := some lb } }).showBanks

/-- A bank step that waited for a condemnation begins. -/
def Hub.sitResume (h : Hub) : Hub := if h.sit.due then h.stepBegin else h

/-- SIT_BANK_PERIOD in ns. -/
def Hub.bankPeriod (h : Hub) : Nat := 1000000000 * clampN 1 2600 (h.rdF Reg.SIT_BANK_PERIOD 11 0)

/-- SIT_COVER_LIMIT in ns. -/
def Hub.coverLimit (h : Hub) : Nat := 3600000000000 * clampN 1 24 (h.rdF Reg.SIT_COVER_LIMIT 4 0)

/-- BANK_STEP_DUE (R477): SIT_BANK_PERIOD after the step before fell due. -/
def execBankStepDue (s : State) : Answer :=
  actT s (s.hub.sitRuns && decide (s.hub.sit.dueAt + s.hub.bankPeriod ≤ s.hub.mono)) fun h =>
    (h.updSit fun x => { x with dueAt := x.dueAt + h.bankPeriod }).stepBegin

/-- COVERAGE_LATE (R478): the cycle has run for SIT_COVER_LIMIT hours; it is reported once. -/
def execCoverageLate (s : State) : Answer :=
  act s (s.hub.sitRuns && !s.hub.sit.late && decide (s.hub.sit.start + s.hub.coverLimit ≤ s.hub.mono)) fun h =>
    ((h.updSit fun x => { x with late := true }).fault .sit 4).attn .sit 1

/-! ### Tests (R476, R479) -/

/-- A test has failed: TEST_FAIL, and the target's counter. -/
def Hub.sitFailed (h : Hub) (t : Nat) : Hub := (h.inc (Reg.SIT_FAIL t)).attn .sit 2

/-- What a failure of a target does (R479). -/
def Hub.sitAct (h : Hub) (t i : Nat) : Hub :=
  match t with
  | 1 => (h.laneMapOut i).fault .sit 1
  | 2 => h.fault .ppc 6
  | 3 =>
    let h := h.updKsi fun x => { x with kat := x.kat ||| 2 ^ i }
    ((h.attn .ksi 5).fault .ksi 2).setLive .ksi 2 true
  | 4 => h.fault .sit 2
  | _ => ((h.fault .sit 3).inc (Reg.TP_DROP_PENNANT i)).fault .tsc 2

/-- A known-answer test that passes again clears its failure (R459). -/
def Hub.katPassed (h : Hub) (i : Nat) : Hub :=
  let h := h.updKsi fun x => { x with kat := x.kat - (x.kat &&& 2 ^ i) }
  if h.ksi.kat = 0 then h.setLive .ksi 2 false else h

/-- The result of a test: 0 pass, 1 fail, 2 no partner (Table 19.9). `lock` is what a lane's checker found. -/
def Hub.sitResult (h : Hub) (t i : Nat) (lock : Bool) (errs : Nat) : Nat :=
  if t = 1 then
    if lock then (if errs ≤ h.rdF Reg.SIT_LANE_CFG 31 16 then 0 else 1) else if h.laneWired i then 2 else 1
  else if errs = 0 then 0 else 1

/-- Test an instance (R476). -/
def Hub.sitTest (h : Hub) (t i : Nat) (lock : Bool) (errs : Nat) : Hub :=
  let r := h.sitResult t i lock errs
  let h := (h.inc (Reg.SIT_RUN t)).updSit fun x => { x with tested := (x.tested.erase (t, i)) ++ [(t, i)] }
  match r with
  | 0 => if t = 3 then h.katPassed i else h
  | 1 => (h.sitFailed t).sitAct t i
  | _ => h.inc Reg.SIT_LANE_NOPEER

/-- DWELL of a lane test, in ns (Table 19.7). -/
def Hub.laneDwell (h : Hub) : Nat := 1000000000 * max 1 (h.rdF Reg.SIT_LANE_CFG 7 0)

/-- SIT holds a lane (R110). -/
def Hub.sitHolds (h : Hub) (l : Nat) : Bool := h.rdB (Reg.LN_STAT l) 18

/-- The test of a lane that SIT holds has come to its end: after DWELL, or after 1 ms without checker lock (Table 19.5). -/
def Hub.laneTested (h : Hub) (l : Nat) (lock : Bool) : Bool :=
  h.sitHolds l && decide ((Tab.get (fun _ => {}) h.lanes l : LaneSt).testFrom + (if lock then h.laneDwell else 1000000) ≤ h.mono)

/-- SIT_TEST_RUN (R476): an instance of an enabled target other than BANK is tested at an opportunity; `lock` is what the checker of
a lane found, `errs` the errors or mismatches. SIT takes a lane first, and its test ends with a second such event, once DWELL has passed.
(Log entry 62, DESIGN CHOICE.) -/
def execSitTestRun (t : Fin 6) (i : Nat) (lock : Bool) (errs : Nat) (s : State) : Answer :=
  actT s (s.hub.sitRuns && decide (t ≠ 0) && s.hub.sitOn t && sitExists t i && s.hub.sitChance t i) fun h =>
    if t = 1 then
      if !h.sitHolds i then h.sitTakeLane i
      else if h.laneTested i lock then (h.sitReleaseLane i).sitTest 1 i lock errs
      else h
    else h.sitTest t i lock errs

/-- BANK_COPY_DONE (R180, R182), in lent buffer cycles (R248), which the copy of a condemned bank does not wait for: the logical bank moves to the spare in one cycle; the freed bank is tested next,
or mapped out if it was condemned. -/
def execBankCopyDone (s : State) : Answer :=
  actT s (s.hub.mainUp && s.hub.banks.copying.isSome && (s.hub.banks.condemn || s.hub.lends)) fun h =>
    match h.banks.copying with
    | none => h
    | some lb =>
      let old := h.bankOf lb
      let h := ((h.setBank lb h.spareBank).wrF Reg.TSC_BANK_SPARE 5 0 0x3F).attn .tsc 2
      if h.banks.condemn then
        let h := { h with banks := { h.banks with copying := none, condemn := false } }
        ((h.mapOutBank old).spareGone.showBanks).nextCondemn.sitResume
      else ({ h with banks := { h.banks with copying := none, testing := some old } }).showBanks

/-- BANK_DRAIN_COMPLETE (R182): all 2,048 cells of the draining bank are CONDEMNED; it is mapped out, and USABLE and
CONDEMNED fall by 2,048. -/
def execBankDrainComplete (s : State) : Answer :=
  actT s (s.hub.mainUp && (s.hub.banks.draining.elim false fun lb => decide (s.hub.freeInBank lb = 2048))) fun h =>
    match h.banks.draining with
    | none => h
    | some lb =>
      let pb := h.bankOf lb
      let h := { h with
        counts := h.counts.move .condemned (-2048)
        banks := { h.banks with draining := none } }
      let h := ((h.setBank lb 0x3F).wrF Reg.TSC_CAP 16 0 (h.rdF Reg.TSC_CAP 16 0 - 2048)).mapOutBank pb
      (h.showBanks.limitWatch).nextCondemn.sitResume

/-- The freed bank's test ends (R180, R181): it becomes the spare, or is mapped out and the rotation stops. -/
def Hub.bankTested (h : Hub) (pass : Bool) : Hub :=
  match h.banks.testing with
  | none => h
  | some pb =>
    let h := { h with banks := { h.banks with testing := none } }
    let h := (h.inc (Reg.SIT_RUN 0)).updSit fun x => { x with tested := (x.tested.erase (0, pb)) ++ [(0, pb)] }
    let h := if pass then (h.wrF Reg.TSC_BANK_SPARE 5 0 pb).showBanks
      else ((((h.fault .sit 0).sitFailed 0).mapOutBank pb).spareGone).showBanks
    let h := if h.sit.waits then
        (h.updSit fun x => { x with waits := false }).opResult .sit 0x10 (mbxOk [w32 (b2n (!pass)), w32 (b2n (!pass))])
      else h
    h.nextCondemn.stepEnd.sitResume

/-- BANK_TEST_DONE (R181), in lent buffer cycles (R248). -/
def execBankTestDone (pass : Bool) (s : State) : Answer :=
  actT s (s.hub.mainUp && s.hub.banks.testing.isSome && s.hub.lends) fun h => h.bankTested pass

/-- The instance offers an opportunity in the sense of TEST_NOW's error code 0x81: a port's is that it has a gate list in force, and the
test then waits for a gap. -/
def Hub.sitOffers (h : Hub) (t i : Nat) : Bool := if t = 5 then h.listOn i else h.sitChance t i

/-- The longest completion of TEST_NOW, in ns (Table 19.9). -/
def Hub.testBound (h : Hub) (t : Nat) : Nat := 2000000000 + if t = 1 then h.laneDwell else 0

/-- TEST_NOW (R484): `result` is what the test of an instance finds, none where the bound passes first; a bank step answers at its
end. -/
def execTestNow (result : Option (Bool × Nat)) (s : State) : Answer :=
  mbxAct s .sit 0x10 fun h =>
    let t := (h.arg .sit 0).toNat
    let i := (h.arg .sit 1).toNat
    if 6 ≤ t ∨ !h.sitHere t i then done h (mbxErr 0x02)
    else if !h.sitOn t then done h (mbxErr 0x80)
    else if t = 0 ∧ !h.sparePresent then done h (mbxErr 0x82)
    else if !h.sitRuns || !h.sitOffers t i then done h (mbxErr 0x81)
    else
      match result with
      | none => if h.mono < (h.mbx .sit).postedAt + h.testBound t then (h, none) else done ((if t = 1 then h.sitReleaseLane i else h).updSit fun x => { x with waits := false }) (mbxErr 0x07)
      | some (lock, errs) =>
        if t = 0 then ((if h.sit.running then h else h.stepBegin).updSit fun x => { x with waits := true }, none)
        else if t = 1 ∧ !h.sitHolds i then (h.sitTakeLane i, none)
        else if (t = 1 ∧ !h.laneTested i lock) ∨ !h.sitChance t i then (h, none)
        else done ((if t = 1 then h.sitReleaseLane i else h).sitTest t i lock errs) (mbxOk [w32 (h.sitResult t i lock errs), w32 errs])

/-- COVER_RESTART (R484). -/
def execCoverRestart (s : State) : Answer :=
  mbxAct s .sit 0x11 fun h =>
    let n := h.sitStep
    done ((h.wrF Reg.SIT_COVER_STAT 13 8 0).updSit fun x => { x with start := h.mono, late := false, tested := [] }) (mbxOk [w32 n])

end Sys2Proof.Machine
end

