-- ==== Sys2Proof/Machine/Vin.lean ====
section
/-! DEFINITION. Vision ingress (R323–R337): CSI-2 packets of the camera receivers become capture and view frames. -/

namespace Sys2Proof.Machine

/-- The receiver accepts packets: VIN runs and EN in force is 1. -/
def Hub.vinOn (h : Hub) (n : Nat) : Bool := h.works .vin && h.rdB (Reg.VN_CFG n) 0

/-- A packet is dropped under Table 12.3: its counter, RX_ERR and its fault source. -/
def Hub.vinErr (h : Hub) (n cnt : Nat) (src : Option Nat) : Hub :=
  let h := ((h.inc cnt).attn .vin (6 * n + 2)).dropEvent (0x12 + n) 0
  src.elim h fun i => h.fault .vin i

/-- VN_STAT.LAST_DT. -/
def Hub.vinDt (h : Hub) (n dt : Nat) : Hub := h.wrF (Reg.VN_STAT n) 15 8 dt

/-- The open picture closes; VN_VFRAME shows the lines received in it. -/
def Hub.vinClose (h : Hub) (n : Nat) : Hub :=
  (h.wrF (Reg.VN_VFRAME n) 31 16 (h.vinRx n).line).updVin n fun x => { x with isOpen := false, closed := h.mono }

/-- The open picture is truncated (R328). -/
def Hub.vinTrunc (h : Hub) (n : Nat) : Hub :=
  (((h.vinClose n).inc (Reg.VN_TRUNC n)).attn .vin (6 * n + 3)).fault .vin 3

/-- The packet belongs to the receiver's virtual channel; others are discarded (Table 12.1). -/
def Hub.vinVc (h : Hub) (n vc : Nat) : Bool := decide (h.rdF (Reg.VN_CFG n) 5 4 = vc)

/-- A packet of the receiver's channel has arrived (R328). -/
def Hub.vinSeen (h : Hub) (n : Nat) : Hub := h.updVin n fun x => { x with seen := h.mono }

/-- A corrected header (Table 12.3). -/
def Hub.vinFix (h : Hub) (n : Nat) (fixed : Bool) : Hub := if fixed then h.inc (Reg.VN_ECC_FIX n) else h

/-- VN_FS_LAT (R330): the frame start less the rise of the latest pulse, or 0x8000_0000 without one since the last ARM. -/
def Hub.vinLat (h : Hub) (n t : Nat) : Word :=
  match (h.vinRx n).rise with
  | some r => BitVec.ofInt 32 ((t : Int) - r)
  | none => 0x80000000#32

/-- The window of a receiver closes (R334): a commit still armed there that was armed too late for each of its instants has missed
it (R76). -/
def Hub.vinMiss (h : Hub) (n : Nat) : Hub :=
  let x := h.hdr .vin
  if x.waiting.contains n && !(h.vinRx n).isOpen && decide (h.mono - x.armedAt < 1000 + h.now % 1000) then
    h.updHdr .vin fun x => x.miss n
  else h

/-- A frame start on a virtual channel: another channel's is dropped; one that finds a frame open truncates it (R328, Table 12.3). -/
def Hub.csiStart (h : Hub) (n : Fin 4) (vc : BitVec 2) (back : Nat) (eccFix : Bool) : Hub :=
  if !h.vinVc n vc.toNat then h.inc (Reg.VN_OTHER_DROP n)
  else
    let t := h.now - back
    let h := (h.vinMiss n).vinSeen n
    let h := (h.vinFix n eccFix).vinDt n 0
    let h := if (h.vinRx n).isOpen then h.vinTrunc n else h
    let h := (h.incFW (Reg.VN_VFRAME n) 15 0).updVin n fun x => { x with isOpen := true, line := 0, stamp := t % 2 ^ 32 }
    ((h.wrWide (Reg.VN_FS_TIME_LO n) t).wr (Reg.VN_FS_LAT n) (h.vinLat n t)).attn .vin (6 * n)

/-- CSI_FRAME_START (R328, R330): a frame-start packet whose burst began `back` ns ago. -/
def execCsiFrameStart (n : Fin 4) (vc : BitVec 2) (back : Nat) (eccFix : Bool) (s : State) : Answer :=
  act s (s.hub.vinOn n) fun h => h.csiStart n vc back eccFix

/-- A frame end on a virtual channel: another channel's is dropped; one with no frame open is an orphan (Table 12.3). -/
def Hub.csiEnd (h : Hub) (n : Fin 4) (vc : BitVec 2) (eccFix : Bool) : Hub :=
  if !h.vinVc n vc.toNat then h.inc (Reg.VN_OTHER_DROP n)
  else
    let h := ((h.vinSeen n).vinFix n eccFix).vinDt n 1
    if (h.vinRx n).isOpen then ((h.vinClose n).inc (Reg.VN_FRAMES n)).attn .vin (6 * n + 1)
    else h.vinErr n (Reg.VN_ORPHAN n) none

/-- CSI_FRAME_END (R328). -/
def execCsiFrameEnd (n : Fin 4) (vc : BitVec 2) (eccFix : Bool) (s : State) : Answer :=
  act s (s.hub.vinOn n) fun h => h.csiEnd n vc eccFix

/-- GAP_TMO of a receiver in ns (Table 12.6). -/
def Hub.gapTmo (h : Hub) (n : Nat) : Nat := 100000 * max 1 (h.rdF (Reg.VN_CFG n) 23 16)

/-- CSI_GAP_TIMEOUT (R328): no packet of the channel for GAP_TMO while a picture is open. -/
def execCsiGapTimeout (n : Fin 4) (s : State) : Answer :=
  act s (s.hub.vinOn n && (s.hub.vinRx n).isOpen && decide ((s.hub.vinRx n).seen + s.hub.gapTmo n ≤ s.hub.mono)) fun h => h.vinTrunc n

/-- The long packets of a supported type (Table 12.1). -/
def csiTypeOk (dt : Nat) : Bool := decide (dt = 0x1E ∨ dt = 0x2A ∨ dt = 0x2B ∨ dt = 0x2C)

/-- The 8 most significant bits of each pixel of a RAW line (R327): RAW10 packs 4 pixels in 5 bytes, RAW12 2 in 3, the high
bytes first. -/
def rawHigh (dt : Nat) (b : List Byte) : List Byte :=
  if dt = 0x2B then (chunks 5 b).flatMap fun g => g.take 4
  else if dt = 0x2C then (chunks 3 b).flatMap fun g => g.take 2
  else b

/-- Format, width and pixels of the view frame of a line; none where XSTART lies beyond it (R327). -/
def viewOf (dt xstart width : Nat) (b : List Byte) : Option (Nat × Nat × List Byte) :=
  if dt = 0x1E then
    let x := xstart - xstart % 2
    let n := min (width - width % 2) (b.length / 2 - x)
    let n := n - n % 2
    if n = 0 then none else some (4, n, (b.drop (2 * x)).take (2 * n))
  else
    let p := ((rawHigh dt b).drop xstart).take width
    if p = [] then none else some (5, p.length, p)

/-- The capture header (Table 12.2). -/
def captureHeader (vframe line bytes dt flags stamp vc rx : Nat) : List Byte :=
  leBytes 2 vframe ++ leBytes 2 line ++ leBytes 2 bytes ++ leBytes 1 dt ++ leBytes 1 flags ++ leBytes 4 stamp
    ++ leBytes 1 vc ++ leBytes 1 rx ++ leBytes 2 0

/-- An accepted line becomes a frame of each enabled flow (R325–R327). -/
def Hub.vinLine (h : Hub) (n line dt : Nat) (b : List Byte) (fixed : Bool) : Hub :=
  let x := h.vinRx n
  let cfg := h.rd (Reg.VN_CFG n)
  let vf := h.rdF (Reg.VN_VFRAME n) 15 0
  let lines := h.rdF (Reg.VN_FRAME_LINES n) 15 0
  let flags := b2n (decide (line = 0)) + 2 * b2n (decide (lines ≠ 0 ∧ line + 1 = lines))
  let h := h.inc (Reg.VN_LINES_OK n)
  let hd := if bit cfg 3 then captureHeader vf line b.length dt (flags + 4 * b2n fixed) x.stamp (fld cfg 5 4) n else []
  let h := if bit cfg 6 then (h.edgeFrame (0x12 + n) (h.rdF (Reg.VN_CAP_FLOW n) 23 0) (hd ++ b)).1 else h
  if bit cfg 7 then
    let win := h.rd (Reg.VN_VIEW_WIN n)
    match viewOf dt (fld win 12 0) (clampN 1 4096 (fld win 28 16)) b with
    | none => h
    | some (f, w, px) =>
      (h.edgeFrame (0x12 + n) (h.rdF (Reg.VN_VIEW_FLOW n) 23 0) (lineHeader vf line w f flags x.stamp ++ px)).1
  else h

/-- A long packet: what is wrong with it is counted by its cause; a good line is numbered and captured (R329, R330, Table 12.3). -/
def Hub.csiLine (h : Hub) (n : Fin 4) (vc : BitVec 2) (dt : Byte) (payload : List Byte) (check : CsiCheck) : Hub :=
  let d := dt.toNat
  match check with
  | .badSync => h.vinErr n (Reg.VN_PHY_ERR n) (some 2)
  | .badHeader => h.vinErr n (Reg.VN_ECC_ERR n) (some 1)
  | _ =>
    let h := if h.vinVc n vc.toNat then h.vinSeen n else h
    if !h.vinVc n vc.toNat ∨ csiTypeOk d = false then h.inc (Reg.VN_OTHER_DROP n)
    else
      let h := (h.vinFix n (decide (check = .fixed))).vinDt n d
      if (h.vinRx n).isOpen then
        let line := (h.vinRx n).line
        let h := h.updVin n fun x => { x with line := line + 1 }
        if check = .cut then h.vinErr n (Reg.VN_PHY_ERR n) (some 2)
        else if 16368 < payload.length then (h.inc (Reg.VN_LONG_DROP n)).dropEvent (0x12 + n) 0
        else if check = .badCrc then h.vinErr n (Reg.VN_CRC_ERR n) (some 0)
        else h.vinLine n line d payload (decide (check = .fixed))
      else h.vinErr n (Reg.VN_ORPHAN n) none

/-- CSI_LINE_RX (R325–R329): a long packet, with what its reception showed. -/
def execCsiLineRx (n : Fin 4) (vc : BitVec 2) (dt : Byte) (payload : List Byte) (check : CsiCheck) (s : State) : Answer :=
  actT s (s.hub.vinOn n) fun h => h.csiLine n vc dt payload check

/-- FS_TIME_LO_READ (R336). -/
def execFsTimeLoRead (n : Fin 4) (s : State) : Answer :=
  act s (s.hub.up .vin) fun h => h.latchHi (Reg.VN_FS_TIME_LO n) (Reg.VN_FS_TIME_HI n)

end Sys2Proof.Machine
end

