-- ==== Sys2Proof/Machine/Commit.lean ====
section
/-! DEFINITION. Shadows and commits (R73–R78, Table 3.6): arming, discarding and applying a commit, what each block does as its
fields come into force, and the deal epoch boundary (R77, R183, R197, R242). -/

namespace Sys2Proof.Machine

/-! ### Shadows -/

/-- The S bits of the register at an address (Table 0.5). -/
def shadowMask (a : Nat) : Word :=
  match rowAddr a with
  | some (_, r) => w32 r.s
  | none => 0

/-- The shadow write of an address belongs to a block. -/
def ofBlock (b : Block) (a : Nat) : Bool := decide (b.base ≤ a) && decide (a < b.base + 0x100000)

/-- The number of commit windows of a block (Table 3.6): LNX per lane, KLL per link port, DSE per output, VIN per
receiver, ETH per port; every other block has one. -/
def windowCount : Block → Nat
  | .lnx => 40 | .kll => 9 | .dse => 2 | .vin => 4 | .eth => 4
  | _ => 1

/-- The output that the overlay registers commit with: the one DS_OVL_CTL.OUT names, output 0 in clone. -/
def Hub.ovlOut (h : Hub) : Nat := if h.rdB Reg.DS_CTRL 0 then 0 else b2n (h.rdB Reg.DS_OVL_CTL 1)

/-- The window that the register at an address commits in: that of its own instance page; a page of the whole block, the fault
pages and the arbiter page go with the first window of the commit (none). (Log entry 19, DEDUCED.) -/
def Hub.windowOf (h : Hub) (b : Block) (a : Nat) : Option Nat :=
  let pg := a % 0x100000 / 0x1000
  match b with
  | .lnx => if 0x10 ≤ pg ∧ pg < 0x38 then some (pg - 0x10) else none
  | .kll => if 0x10 ≤ pg ∧ pg < 0x19 then some (pg - 0x10) else none
  | .vin | .eth => if 0x10 ≤ pg ∧ pg < 0x14 then some (pg - 0x10) else none
  | .dse =>
    if 0x10 ≤ pg ∧ pg < 0x12 then some (pg - 0x10)
    else if 0x20 ≤ pg ∧ pg < 0x22 then some (pg - 0x20)
    else if pg = 1 then (if Reg.DS_OVL_CTL ≤ a ∧ a ≤ Reg.DS_OVL_SIZE then some h.ovlOut else some 0)
    else none
  | _ => none

/-- The shadow writes that the window `inst` of a block applies. -/
def Hub.due (h : Hub) (b : Block) (inst : Nat) (first : Bool) : Tab Word :=
  h.pend.filter fun e => ofBlock b e.1 && match h.windowOf b e.1 with
    | some i => decide (i = inst)
    | none => first

/-- Put shadow writes in force: the S bits of each register. -/
def Hub.putInForce (h : Hub) (l : Tab Word) : Hub :=
  l.foldl (fun h e => h.wr e.1 ((h.rd e.1 &&& ~~~shadowMask e.1) ||| (e.2 &&& shadowMask e.1))) h

/-- Apply the shadow writes of a window that `keep` does not hold back (R75); the others stay shadows. -/
def Hub.applyShadows (h : Hub) (b : Block) (inst : Nat) (first : Bool) (keep : Nat → Bool) : Hub :=
  let l := (h.due b inst first).filter fun e => !keep e.1
  { h.putInForce l with pend := h.pend.filter fun e => !l.any fun x => x.1 = e.1 }

/-! ### What a commit does in each block -/

/-- An RX_LIMIT register. -/
def isRxLimit (a : Nat) : Bool :=
  (List.range 9).any fun p => (List.range 8).any fun c => decide (a = Reg.TP_RX_LIMIT p c)

/-- The sum of the RX_LIMIT shadows over the link ports of the role, each as it acts (R161). -/
def Hub.rxLimitSum (h : Hub) : Nat :=
  portClasses.foldl (fun n e =>
    if portPresent h.straps e.1 then
      let v := min 4095 (fld (h.shadow (Reg.TP_RX_LIMIT e.1 e.2)) 15 0)
      n + (if e.2 = 6 then max 16 v else v)
    else n) 0

/-- The RX_LIMIT shadows ask for more than the buffer gives (R161). -/
def Hub.rxRefused (h : Hub) : Bool := decide (h.rdF Reg.TSC_CAP 16 0 < h.rxLimitSum + 4096)

/-- Two groups of the MIR_GROUP shadows share a port (R256). -/
def Hub.groupsClash (h : Hub) : Bool :=
  (List.range 8).any fun g => (List.range g).any fun k =>
    decide (fld (h.shadow (Reg.MIR_GROUP g)) 7 0 &&& fld (h.shadow (Reg.MIR_GROUP k)) 7 0 ≠ 0)

/-- A MIR_GROUP register. -/
def isMirGroup (a : Nat) : Bool := (List.range 8).any fun g => decide (a = Reg.MIR_GROUP g)

/-- Shadow writes that a commit of the block holds back, with the attention bit that says so (R161, R256, R467). -/
def Hub.heldBack (h : Hub) (b : Block) : Option ((Nat → Bool) × Nat) :=
  match b with
  | .tsc => if h.rxRefused then some (isRxLimit, 1) else none
  | .mir => if (h.pend.any fun e => isMirGroup e.1) && h.groupsClash then some (isMirGroup, 8) else none
  | .sit =>
    if (h.pend.any fun e => e.1 = Reg.SIT_PROFILE) && decide (h.pairState = 1 ∨ h.pairState = 2)
        && decide (h.shadow Reg.SIT_PROFILE &&& 1 ≠ h.rd Reg.SIT_PROFILE &&& 1) then
      some (fun a => decide (a = Reg.SIT_PROFILE), 4)
    else none
  | _ => none

/-- STW's time source in force has changed: the runs of Table 10.5 begin anew, and LOCKED follows the new source. -/
def Hub.timeSrcNew (h : Hub) : Hub :=
  let h := { h with time := { h.time with good := 0, bad := 0 } }
  if h.timeSrc = 0 then h.freeLock
  else if h.timeSrc = 1 then h.setLocked (h.rdB Reg.KLL_TT_STAT 0)
  else h.setLocked false

/-- A port's KL_CFG has come into force: EN 0 takes the port down, and a new RATE is ordered; a port that is up then
loses lock (R93, R135). -/
def Hub.klCommit (h old : Hub) (p : Nat) : Hub :=
  let en := h.rdB (Reg.KL_CFG p) 4
  if old.rdB (Reg.KL_CFG p) 4 && !en then h.klDown p none
  else if old.klRate p = h.klRate p then h
  else
    let wasUp := decide (h.klState p = 5)
    let h := (h.orderRates p).showLinkRate p
    if wasUp then (h.portLanes p).foldl (fun h l => h.lockLost l false) h else h

/-- KLL_TT_CFG.SRC has changed: the exchanges with the new source begin anew (R151). -/
def Hub.ttCommit (h old : Hub) : Hub :=
  if old.ttSource = h.ttSource then h
  else
    let h := h.setTtLocked false
    ({ h with xfer := { h.xfer with busy := false, good := 0, bad := 0 } }).showTtSrc

/-- The old limit of a class, kept while it has more cells to account for than the new one allows; else 0. -/
def Hub.limKept (h old : Hub) (p : Nat) (l : LinkSt) (c : Nat) : Nat :=
  if h.rxLimit p c < l.held.getD c 0 + l.unsent c then max (old.rxLimit p c) (l.limEff.getD c 0) else 0

/-- The limits of a link port's classes that a commit has lowered below what they govern keep acting until the count has fallen
(Table 6.6a), and a CREDIT_ADV with the new ones goes out (R139). -/
def Hub.limitCommit (h old : Hub) (p : Nat) : Hub :=
  if (List.range 8).all fun c => old.rxLimit p c = h.rxLimit p c then h
  else
    let h := h.updLink p fun l => { l with limEff := (List.range 8).map (h.limKept old p l) }
    if 4 ≤ h.klState p ∧ h.klState p ≤ 8 then h.sendAdv p else h

/-- MIR's fields have come into force (R255, R256, R264). -/
def Hub.mirCommit (h old : Hub) : Hub :=
  let groups := !old.groupsClash && old.pend.any fun e => isMirGroup e.1
  let h := h.wrF Reg.MIR_ROLE 15 8 (maskOf ((List.range 8).filter h.groupActive))
  let h :=
    if !old.mirEn && h.mirEn then
      let h := h.setPair 1 0
      if h.mUp then h.sendPairSync.syncJudge else h
    else if old.mirEn && !h.mirEn then
      (h.setPair 0 0).updMir fun m => { m with syncTx := false }
    else h
  let h := if h.pairState = 4 ∧ groups = true ∧ h.mUp = true then h.sendPairSync.syncJudge else h
  if !old.rdB Reg.MIR_CFG 1 && h.rdB Reg.MIR_CFG 1 && decide (h.pairState = 3) then h.takeover else h

/-- The profile in force has changed: every compact window closes with a count of 0 (R467). -/
def Hub.profileNew (h : Hub) : Hub :=
  { h with hdrs := PerBlock.of fun b =>
      let x := h.hdr b
      { x with flt := x.flt.map fun y => { y with win := 0 } } }

/-- LNX's fields of a lane have come into force: the spares show which of them are wired (R117), the lanes of its DP port may go to
electrical idle, and a repair that waits for a wired spare may start (R114). -/
def Hub.laneCommit (h : Hub) (l : Nat) : Hub :=
  let h := if h.lanePort l = 0x0E ∨ h.lanePort l = 0x0F then h.dpIdle (h.lanePort l - 0x0E) else h
  h.showSpares.autoNext

/-- What the fields that have come into force in window `inst` of a block do besides; `old` is the hub before. -/
def Hub.afterCommit (h old : Hub) (b : Block) (inst : Nat) (first : Bool) : Hub :=
  match b with
  | .stw =>
    let h := if old.timeSrc = h.timeSrc then h else h.timeSrcNew
    if h.rdB Reg.STW_PPS_CFG 0 then h else { h with pins := { h.pins with ppsOut := false } }
  | .pmc => (List.range 18).foldl (fun h j =>
      if old.rd (Reg.BW_WIN j) = h.rd (Reg.BW_WIN j) then h
      else h.updPmc fun x => { x with bw := Tab.set (fun _ => 0) x.bw j 0 }) h
  | .lnx => h.laneCommit inst
  | .kll =>
    let h := h.klCommit old inst
    if first then h.ttCommit old else h
  | .mir => h.mirCommit old
  | .tsc => ((List.range 9).foldl (fun h p => h.limitCommit old p) h).limitWatch
  | .fcm => h.pathCheck
  | .dse =>
    let h := if inst = 0 then h.dpCommitPage old else h
    let h := if h.role = .root then h.dpCommitIn old inst else h.dpCommitOut old inst
    h.dpIdle inst
  | .eth => h.epCommit old inst
  | .pxb => h.pxCommit old
  | .usb => h.usbCommit old
  | .ppc => h.ppcCommit old
  | .sit => if old.profile = h.profile then h else h.profileNew
  | .tss | .vin | .pmu | .ksi => h

/-! ### Arming, discarding, applying -/

/-- ARM (R74): a commit is armed in every window of the block; the clock request is held until it has applied. -/
def Hub.commitArm (h : Hub) (b : Block) : Hub :=
  if (h.hdr b).waiting.isEmpty then
    h.updHdr b fun x => { x with waiting := List.range (windowCount b), armedAt := h.mono, overdue := [], clkReq := true }
  else h

/-- DISCARD (R74): the commit is disarmed, and every value in force is copied back into its shadow. -/
def Hub.commitDiscard (h : Hub) (b : Block) : Hub :=
  { h.updHdr b fun x => { x with waiting := [], overdue := [] } with
    pend := h.pend.filter fun e => !ofBlock b e.1 }

/-- A window of the commit is over: APPLIED advances with the last one (Table 3.7); one that came late sets LATE and COMMIT_LATE
and advances MISSED (R76). -/
def Hdr.applied1 (x : Hdr) (inst : Nat) (late : Bool) : Hdr :=
  let left := x.waiting.erase inst
  { x with
    waiting := left
    applied := if left.isEmpty then (x.applied + 1) % 256 else x.applied
    overdue := x.overdue.erase inst
    late := x.late || late
    missed := if late then holdAt 0xFFFF (x.missed + 1) else x.missed
    attnRaw := if late then x.attnRaw ||| bitW 30 else x.attnRaw }

/-- An armed commit applies in window `inst` of a block (R75); `late` says that it has missed one (R76). -/
def Hub.commitApply (h : Hub) (b : Block) (inst : Nat) (late : Bool) : Hub :=
  let first := decide ((h.hdr b).waiting.length = windowCount b)
  let old := h
  let h := match old.heldBack b with
    | some (keep, bit) => (old.applyShadows b inst first keep).attn b bit
    | none => old.applyShadows b inst first fun _ => false
  (if h.present b then h.afterCommit old b inst first else h).updHdr b fun x => x.applied1 inst late

/-- COMMIT_ARM (R74). -/
def execCommitArm (b : Block) (s : State) : Answer := act s (s.hub.answers b) fun h => h.commitArm b

/-- COMMIT_DISCARD (R74). -/
def execCommitDiscard (b : Block) (s : State) : Answer := act s (s.hub.answers b) fun h => h.commitDiscard b

/-- How an armed commit meets the window of its block that is open now: the window is not one for it yet; it opened less than the
setup time after the ARM, which misses it; or the commit applies, late or not. -/
inductive Window where
  | shut | missed | applies (late : Bool)
  deriving DecidableEq, Repr

/-- The last 1 µs boundary of cell time as a window, with a setup of 100 ns: it applies when the ARM came that long before it, and
late when an earlier boundary came after the ARM, at its instant or within the setup time (R75, R76). -/
def Hub.tickWindow (h : Hub) (b : Block) : Window :=
  let e := h.mono - (h.hdr b).armedAt
  if e < 100 + h.now % 1000 then .shut else .applies (decide (((e : Int) - h.now) % 1000 < 100))

/-- A window that opened `ago` ns ago, as the command says: a block boundary, a heartbeat, a gap, a tick or a microframe (Table 3.6).
One that opened before the ARM is none for it; one that opened less than the setup time after the ARM is missed (R76). -/
def Hub.openWindow (h : Hub) (b : Block) (setup ago : Nat) : Window :=
  let e := h.mono - (h.hdr b).armedAt
  if e < ago then .shut else if e < setup + ago then .missed else .applies false

/-- The link port has a lane that carries a block stream, and is neither DOWN nor FAILED (Table 3.6). -/
def Hub.linkStream (h : Hub) (p : Nat) : Bool :=
  decide (h.klState p ≠ 0 ∧ h.klState p ≠ 6 ∧ h.klState p ≠ 9) && !(h.portLanes p).isEmpty

/-- The lane carries a block stream (Table 3.6): it belongs to such a link port, is not in electrical idle, and sends no test pattern. -/
def Hub.laneStream (h : Hub) (l : Nat) : Bool :=
  isLinkPort (h.lanePort l) && h.linkStream (h.lanePort l) && !h.rdB (Reg.LN_STAT l) 15 && !h.rdB (Reg.LN_PAT_CFG l) 0

/-- MIR sends heartbeats: PAIRED, or FORMING with M UP (R262). -/
def Hub.heartbeats (h : Hub) : Bool := h.present .mir && (h.paired || (decide (h.pairState = 1) && h.mUp))

/-- The window of VIN (R334): the last 1 µs boundary while no picture was open, 1 µs after the ARM. -/
def Hub.vinWindow (h : Hub) (n : Nat) : Window :=
  let x := h.vinRx n
  let past := h.now % 1000
  if (x.isOpen || decide (h.mono - x.closed < past)) && h.rdB (Reg.VN_CFG n) 0 then .shut
  else if h.mono - (h.hdr .vin).armedAt < 1000 + past then .shut else .applies false

/-- The window of DSE (R314): the instants of an output's raster, 1 µs after the ARM; each 1 µs boundary for an output without a
raster and for the input pages. -/
def Hub.dseWindow (h : Hub) (o : Nat) : Window :=
  if h.role = .leaf ∧ h.dpEn o = true then
    if h.dpInstant o && decide (1000 ≤ h.mono - (h.hdr .dse).armedAt) then .applies false else .shut
  else h.tickWindow .dse

/-- The window of a block's instance at this instant (Table 3.6); `ago` says when one opened that State does not time. TSC, TSS and FCM
have theirs at DEAL_EPOCH_BOUNDARY. -/
def Hub.window (h : Hub) (b : Block) (i ago : Nat) : Window :=
  match b with
  | .stw | .pmc | .pmu | .sit | .pxb => h.tickWindow b
  | .ppc | .ksi => h.openWindow b 100 ago
  | .lnx => if h.laneStream i then h.openWindow b 100 ago else h.tickWindow b
  | .kll => if h.linkStream i then h.openWindow b 100 ago else h.tickWindow b
  | .mir => if h.heartbeats then h.openWindow b 100 ago else h.tickWindow b
  | .eth => if h.epMode i = 0 ∨ h.rdB (Reg.EP_STAT i) 0 = false then h.tickWindow b else h.openWindow b 100 ago
  | .usb => h.openWindow b 1000 ago
  | .vin => h.vinWindow i
  | .dse => h.dseWindow i
  | .tsc | .tss | .fcm => .shut

/-- A commit window of instance `i` of a block with an armed commit (R75, R76). -/
def Hub.commitWindow (h : Hub) (b : Block) (i ago : Nat) : Hub :=
  match h.window b i ago with
  | .shut => h
  | .missed => h.updHdr b fun x => x.miss i
  | .applies late => h.commitApply b i (late || (h.hdr b).overdue.contains i)

/-- COMMIT_APPLY (R75, R76): a commit window of instance `inst` of the block, opened `ago` ns ago. The armed commit applies if it was armed the setup time
before; if not, it has missed the window. TSC, TSS and FCM apply at DEAL_EPOCH_BOUNDARY (R77). -/
def execCommitApply (b : Block) (inst ago : Nat) (s : State) : Answer :=
  actT s (s.hub.answers b && (s.hub.hdr b).waiting.contains inst) fun h => h.commitWindow b inst ago

/-! ### The deal epoch boundary -/

/-- An epoch commit of one block: it applies if it was armed 1 µs before the boundary, and else misses it (R75, R76). -/
def Hub.epochCommit (h : Hub) (b : Block) : Hub :=
  let x := h.hdr b
  if x.waiting.isEmpty then h
  else if x.armedAt + 1000 ≤ h.mono then h.commitApply b 0 (x.overdue.contains 0)
  else h.updHdr b fun x => x.miss 0

/-- The policies that have waited 1 µs apply (R197): the context's policy fields are replaced, and the operation completes. -/
def Hub.policyCommit (h : Hub) : Hub :=
  let due := h.paging.policy.filter fun x => x.since + 1000 ≤ h.mono
  let h := h.updPaging fun p => { p with policy := p.policy.filter fun x => ¬ x.since + 1000 ≤ h.mono }
  due.foldl (fun h x =>
    let h := (h.updCtx x.slot fun c => c.withPolicy x.words).ctxNote 1 x.slot
    if x.viaOp then h.opResult .fcm 0x11 (mbxOk [w32 x.slot, lo32 h.now]) else h) h

/-- DEAL_EPOCH_BOUNDARY (R77, R183, R186, R242, R243): the snapshot, the commits of TSC, TSS and FCM and the policies, then the
deal; MIR samples the shapers (Table 9.4). -/
def execDealEpochBoundary (s : State) : Answer :=
  actT s (s.hub.mainUp && decide (s.hub.power.state = .run) && s.hub.time.reached s.hub.epochNs) fun h =>
    let ep := h.epochNs
    let h := (h.ledgerCheck h).1
    let h := ((h.epochCommit .tsc).epochCommit .tss).epochCommit .fcm
    let h := h.policyCommit
    (h.updMir fun m => { m with shapeDue := true }).dealStart ep

end Sys2Proof.Machine
end

