-- ==== Sys2Proof/Machine/Refs.lean ====
section
/-! DEFINITION. References and signal detect (R22, R94–R96, R106, R429), and the supply fault that the loss of REFCLK_A and R44
share. -/

namespace Sys2Proof.Machine

/-! ### The end of the main die's operation by a supply fault or a thermal trip (R44, R63) -/

/-- A STATE_REQ that has not completed when a supply fault strikes: NAP exit ends with ERR_CODE 0x07 (Table 17.9). -/
def Hub.stateReqLost (h : Hub) : Hub := h.opResult .pmu 0x10 (mbxErr 0x07)

/-- The main die is clamped and held in reset and CORE_EN falls (R44, R435); the hub has left its operating conditions (R31). The
phase shows what the restart has to repeat. -/
def Hub.mainDown (h : Hub) : Hub :=
  let h := if h.power.state = .run ∨ h.power.state = .off then h.enterEnd 0x07 else h.stateReqLost.showState 0
  ((h.updPower fun x => { x with
    phase := .rails
    state := .run
    clamped := true
    coreEn := false
    step := none
    wakeLatch := none
    held := true
    outOfCond := true }).fault .pmu 3)

/-- A supply fault (R44): the rail is recorded, and FAULT_N follows; a main die that is held in reset already stays so.
(Log entry 22, DEDUCED.) -/
def Hub.supplyFault (h : Hub) (r : Rail) : Hub :=
  let h := (h.updPower fun x => { x with supplyBad := some r }).fault .pmu 0
  if h.power.held && !h.power.coreEn then h else h.mainDown

/-! ### References (R94–R96) -/

/-- LNX_REF_STAT changes; REF_CHANGE is set if it does. -/
def Hub.refStat (h : Hub) (w : Word) : Hub :=
  if h.rd Reg.LNX_REF_STAT = w then h else (h.wr Reg.LNX_REF_STAT w).attn .lnx 0

/-- The port codes that hold a lane which a test takes. -/
def Hub.portsWith (h : Hub) (f : List Nat → Bool) : List Nat := (List.range 16).filter fun c => f (h.portLanes c)

/-- A port whose reference is lost or split goes through a PORT reset (R91, R95, R96, Table 5.5). -/
def Hub.refPortReset (h : Hub) (c : Nat) : Hub :=
  if c ≤ 8 then h.klDown c (some 0xC)
  else
    let h := h.edgeReturn c
    if c ≤ 0x0C then (if h.rdB (Reg.EP_STAT (c - 9)) 0 then h.epDown (c - 9) false else h)
    else if c = 0x0D then (if h.pxLink then h.pcieDown else h)
    else if h.role = .leaf then h.dpLinkDown (c - 0x0E)
    else if h.rdB (Reg.DI_STAT (c - 0x0E)) 7 then h.dpInDown (c - 0x0E)
    else h

/-- The lanes span references that are not all co-sourced (R95). -/
def splitRefs (st : Word) (ls : List Nat) : Bool :=
  (ls.any fun l => laneRef l ≠ laneRef (ls.headD 0)) && !ls.all fun l => bit st (4 + laneRef l)

/-- REFCLK_DETECT (R94): a reference is present; it is pending until its first window has ended. Bit 4 equals bit 0. -/
def execRefclkDetect (r : Fin 4) (s : State) : Answer :=
  act s (s.hub.mainUp && !s.hub.rdB Reg.LNX_REF_STAT r) fun h =>
    let w := setBit (setBit (h.rd Reg.LNX_REF_STAT) r true) (8 + r) true
    h.refStat (if r = 0 then setBit w 4 true else w)

/-- REFCLK_LOSS (R96): the loss of REFCLK_B, C or D puts every port with a lane on it through a PORT reset; REFCLK_A's is a supply
fault. -/
def execRefclkLoss (r : Fin 4) (s : State) : Answer :=
  actT s (s.hub.mainUp) fun h =>
    if r = 0 then h.supplyFault .core
    else
      let w := setBit (setBit (setBit (h.rd Reg.LNX_REF_STAT) r false) (4 + r) false) (8 + r) false
      let h := ((h.refStat w).fault .lnx 0).setLive .lnx 0 true
      (h.portsWith fun ls => ls.any fun l => laneRef l = r).foldl Hub.refPortReset h

/-- COSOURCE_WINDOW_END (R94, R95): the windows of the present references end, with those co-sourced with REFCLK_A. -/
def execCosourceWindowEnd (good : BitVec 4) (s : State) : Answer :=
  actT s (s.hub.mainUp) fun h =>
    let old := h.rd Reg.LNX_REF_STAT
    let p := fld old 3 0
    let w := setFld (setFld old 7 4 (p &&& (good.toNat ||| 1))) 11 8 0
    let lost := h.portsWith fun ls => splitRefs w ls && !splitRefs old ls
    let h := h.refStat w
    let h := if lost = [] then h else h.fault .lnx 1
    let h := (h.setLive .lnx 1 (!(h.portsWith (splitRefs w)).isEmpty)).setLive .lnx 0 (bit (h.hdr .lnx).live 0
      && !(h.portsWith fun ls => ls.any fun l => !bit w (laneRef l)).isEmpty)
    lost.foldl Hub.refPortReset h

/-! ### Signal detect (R22, R106) -/

/-- SIGNAL_DETECT (R106): a lane's comparator asserts. In RUN and DOZE the lane shows it and, from electrical idle, wakes; with
WAKE_EN it is wake source 0, in NAP too. -/
def execSignalDetect (l : LaneNo) (s : State) : Answer :=
  act s (s.hub.custodyUp && (s.hub.up .lnx || decide (s.hub.power.state = .nap))) fun h =>
    let wakes := h.rdB (Reg.LN_CFG l) 3
    if h.power.state = .nap then (if wakes then h.wakeEvent 0 else h)
    else
      let h := h.wrB (Reg.LN_STAT l) 14 true
      if wakes then h.wakeEvent 0 else h.dozeExit 0

/-- NAP_HOLD_END (R429): signal on a lane of a port held DOWN by BYE 0x4E ends the hold. -/
def execNapHoldEnd (p : LinkNo) (s : State) : Answer :=
  act s (s.hub.linkUp p && (s.hub.link p).napHeld) fun h => h.updLink p fun l => { l with napHeld := false }

end Sys2Proof.Machine
end

