-- ==== Sys2Proof/Machine/Reset.lean ====
section
/-! DEFINITION. Start-up, POR, WARM and block resets (R27, R31, R33, R44–R47, R50, R55, R63, R82, R91, Table 3.16, R186, R219, R288,
R421, R441, R474, R481). -/

namespace Sys2Proof.Machine

/-! ### What a reset of the main die keeps (Table 3.16) -/

/-- The register at an address is on the custody die: PPC, PMU and KSI whole, and of SIT the profile, FAULT_N, page 0x02 and the
fault pages (R483); and STW_RESET_CAUSE, which only POR clears. -/
def custodyReg (a : Nat) : Bool :=
  let off := a % 0x100000
  decide (a = Reg.STW_RESET_CAUSE)
    || (match Block.at a with
      | some .ppc | some .pmu | some .ksi => true
      | some .sit => decide (off < 0x100C) || decide (0x2000 ≤ off ∧ off < 0x3000) || decide (0xFE000 ≤ off)
      | _ => false)

/-- The header of a block as a reset of the main die leaves it: a custody block keeps its own; FLT_RECOVERY stays in every
block. -/
def Hub.mainHdr (h : Hub) (b : Block) : Hdr :=
  let x := h.hdr b
  if b.custody then x
  else { Hdr.reset h.straps b with recovery := x.recovery }

/-- A reset of the main die: everything but the custody die's state is as right after POR, its time with it. -/
def Hub.mainReset (h : Hub) : Hub :=
  { Hub.reset h.straps with
    regs := h.regs.filter fun e => custodyReg e.1
    pend := h.pend.filter fun e => custodyReg e.1
    wide := h.wide.filter fun e => custodyReg e.1
    hdrs := PerBlock.of h.mainHdr
    arbs := h.arbs.filter fun e => Block.all.any fun b => b.custody && decide (e.1 / 16 = b.idx)
    power := { h.power with fwRunning := false }
    time := { up := h.time.up }
    pins := { faultPulse := h.pins.faultPulse }
    repairMap := h.repairMap
    ksi := h.ksi
    ppc := h.ppc
    sit := Sit.fresh h.time.up
    free := h.free
    out := h.out }

/-- POLL_SEQ of every block and MH_SEQ read 0 after a WARM reset, and the order log is empty (Table 3.16, R84, R286). -/
def Hub.warmEnd (old h : Hub) : Hub :=
  let r := settle old h
  { r with
    olog := {}
    mh := {}
    hdrs := PerBlock.of fun b =>
      let x := r.hdr b
      { x with pollSeq := 0 } }

/-- The running request of a custody block needs the main die (R78): KSI's operations but NOP, CERT_READ and ZEROIZE use the
cryptographic engines, and SIT's TEST_NOW the unit under test, which only a power channel has on the custody die.
(Log entry 49, DEDUCED.) -/
def Hub.needsMain (h : Hub) (b : Block) : Bool :=
  let m := h.mbx b
  m.busy && m.result.isNone && (match b with
    | .ksi => decide (0x10 ≤ m.op ∧ m.op ≤ 0x16 ∧ m.op ≠ 0x13 ∧ m.op ≠ 0x14)
    | .sit => decide (m.op = 0x10) && decide ((h.arg .sit 0).toNat ≠ 2)
    | _ => false)

/-- A running custody request that needs the main die is aborted as by a block reset (R78, R82). -/
def Hub.custodyAbort (h : Hub) (b : Block) : Hub :=
  if h.needsMain b then (h.updMbx b Mailbox.abort).attn b 29 else h

/-- The held counts of the pools (R33): cells, link credits, bridge tags, slots, USB sequence numbers, retries. -/
def Hub.heldPools (h : Hub) : List Nat :=
  [(h.counts.sum - h.counts.kitty).toNat,
    portClasses.foldl (fun n e => n + (h.link e.1).creditsOut e.2) 0,
    h.tags.length,
    8192 - h.slotCount .free,
    (List.range 8).foldl (fun n t => n + (h.tun t).unacked.length) 0,
    (List.range 6).foldl (fun n c => n + h.rdF (Reg.PC_STAT c) 15 12) 0]

/-- A WARM reset (R33, R91), or what acts as one, with its bit of STW_RESET_CAUSE; `held` are the counts that PMU has captured. The
fabric restarts at F0 (R441). -/
def Hub.warm (h : Hub) (cause : Nat) (held : List Nat) : Hub :=
  let h := (h.dozeExit 0).enterEnd 0x08
  let h := ((h.custodyAbort .ksi).custodyAbort .sit).mainReset
  let h := (h.wrB Reg.STW_RESET_CAUSE cause true).wr Reg.PMU_DVFS 0
  h.updPower fun x => { x with
    state := .run
    step := none
    pmbFails := 0
    outOfCond := false
    heldCounts := held }

/-- The fabric has to restart at F0: its voltage is commanded first where the commanded one is below it (R441). -/
def Hub.toF0 (h : Hub) : Hub :=
  if h.power.vcmd < h.vPoint 0 then
    (h.vout (h.vPoint 0) true).updPower fun x => { x with phase := .core }
  else h.updPower fun x => { x with phase := .confirmed }

/-! ### POR and start-up (R45, Table 2.5) -/

/-- KSI's registers whose contents lie in battery-backed memory or the store (R446–R456). -/
def ksiStored (a : Nat) : Bool :=
  [Reg.KSI_TAMP_CFG, Reg.KSI_TAMP_REC, Reg.KSI_TAMP_COUNT, Reg.KSI_UPD_CTR_LO, Reg.KSI_CR_CTR,
    Reg.KSI_SERIAL_LO, Reg.KSI_SERIAL_HI].contains a

/-- Registers whose contents lie in the non-volatile store or in battery-backed memory; PC_INSERT is kept through every reset
(R421). -/
def storedReg (a : Nat) : Bool :=
  ksiStored a || decide (a = Reg.PMU_BROWNOUTS) || (List.range 6).any fun n => decide (a = Reg.PC_INSERT n)

/-- POR of the whole hub with straps as sampled: everything is at reset but the store and the battery-backed memory. -/
def Hub.por (h : Hub) (st : Straps) : Hub :=
  { Hub.reset st with
    regs := h.regs.filter fun e => storedReg e.1
    wide := h.wide.filter fun e => storedReg e.1
    repairMap := h.repairMap
    ksi := { h.ksi with vbatLow := false, kat := 0 }
    free := h.free
    power := {
      phase := .por
      custRisen := false
      coreEn := false
      clamped := true
      rootLost := h.power.rootLost } }

/-- POR_ASSERT (R45, R47): VDD_CUST falls below its threshold; `vbatLost` says that VBAT is below 2.0 V too, so that the root secret
is lost. -/
def execPorAssert (vbatLost : Bool) (s : State) : Answer :=
  actReset s true fun h =>
    (h.por h.straps).updPower fun x => { x with rootLost := x.rootLost || vbatLost }

/-- VDD_CUST_RISE (R47): VDD_CUST is above its threshold, and the 10 ms to POR release run. -/
def execVddCustRise (s : State) : Answer :=
  actReset s (decide (s.hub.power.phase = .por) && !s.hub.power.custRisen) fun h =>
    h.updPower fun x => { x with custRisen := true }

/-- What KSI finds at POR release (R47, R457): a root secret lost without supply is IDENTITY_LOST, cause VOLT_LOW; an identity lost
before stays lost. -/
def Hub.ksiPor (h : Hub) : Hub :=
  if h.power.rootLost then (h.zeroize 2).updPower fun x => { x with rootLost := false }
  else if h.ksi.lost then h.setLive .ksi 0 true
  else h

/-- Straps are sampled and the custody die starts (R40, R45). -/
def Hub.porEnd (h : Hub) (st : Straps) : Hub :=
  let h := h.por st
  ((h.updPower fun x => { x with phase := .rails, custRisen := true })).ksiPor

/-- POR_RELEASE (R40, R45): 10 ms after VDD_CUST rose. -/
def execPorRelease (straps : Straps) (s : State) : Answer :=
  actReset s (decide (s.hub.power.phase = .por) && s.hub.power.custRisen) fun h => h.porEnd straps

/-- CORE_EN_ASSERT (R45, R50): the main-die rails have been in window for 2 kt. -/
def Hub.coreEnable (h : Hub) : Hub :=
  (h.updPower fun x => { x with phase := .core, coreEn := true, vcmd := 800 }).pmbStart [pmbOperation true]

/-- CORE_EN_ASSERT (R45). -/
def execCoreEnAssert (s : State) : Answer :=
  act s (decide (s.hub.power.phase = .rails) && s.hub.power.supplyBad.isNone && !s.hub.power.thermHold) fun h => h.coreEnable

/-- CORE_CONFIRM (R45, R49): VOUT_MODE and READ_VOUT are read; an unusable mode is a fault and keeps the fabric at F0. -/
def execCoreConfirm (modeOk : Bool) (s : State) : Answer :=
  act s (decide (s.hub.power.phase = .core)) fun h =>
    let h := h.pmbStart [pmbVoutMode, pmbReadVout]
    let h := h.updPower fun x => { x with phase := .confirmed, linear := modeOk }
    if modeOk then h else h.fault .pmu 5

/-- The physical banks that the repair map leaves out (R181, R480). -/
def banksOut (m : List RepairRec) : List Nat :=
  (m.filter fun r => r.kind = 1 ∧ r.cleared = false).map fun r => r.res

/-- TSC builds its bank map from the repair map (R481). -/
def Hub.bankInit (h : Hub) : Hub :=
  let out := banksOut h.repairMap
  if out = [] then h
  else
    let good := (List.range 33).filter fun p => !out.contains p
    let h := (List.range 32).foldl (fun h l => h.setBank l (good.getD l 0x3F)) h
    let usable := 2048 * min 32 good.length
    let h := h.wr Reg.TSC_CAP (w32 (usable + (33 - good.length) * 0x20000 + b2n (decide (33 ≤ good.length)) * 0x800000))
    let h := h.wr Reg.TSC_BANK_SPARE (w32 (good.getD 32 0x3F))
    let h := out.foldl (fun h p =>
      if p < 32 then h.wrB Reg.TSC_BANK_OUT_LO p true else h.wrB Reg.TSC_BANK_OUT_HI 0 true) h
    let h := { h.wr Reg.TSC_KITTY_MIN (w32 usable) with counts := { h.counts with kitty := usable } }
    let h := if 33 ≤ good.length ∨ bit (h.hdr .sit).live 6 = true then h else (h.fault .sit 6).setLive .sit 6 true
    h.limitWatch

/-- A reserved role or TESTMODE is a fault of STW that stays live (R2, R38, R42). -/
def Hub.strapFault (h : Hub) : Hub := if h.straps.err then (h.fault .stw 0).setLive .stw 0 true else h

/-- The main die leaves reset (R45, R98, R288, R481): its maps are built from the repair map, and STW starts from its boot source. -/
def Hub.mainStart (h : Hub) : Hub :=
  let h := h.updPower fun x => { x with
    phase := .running
    state := .run
    clamped := false
    coreEn := true
    held := false
    fwRunning := false }
  h.strapFault.lnxInit.bankInit

/-- The end of a step that starts the main die: the masthead is loaded, which counts as no change, and MH_SEQ reads 0 (R84). -/
def Hub.startEnd (old h : Hub) : Hub := { settle old h with mh := {} }

/-- MAIN_DIE_RELEASE (R45): RESET_N is high and REFCLK_A has been present for 100 µs. -/
def execMainDieRelease (s : State) : Answer :=
  actReset s (decide (s.hub.power.phase = .confirmed)) fun h => h.startEnd (h.fresh.mainStart)

/-- VDD_CORE_EARLY (R46). -/
def execVddCoreEarly (s : State) : Answer :=
  act s (s.hub.custodyUp && !s.hub.power.coreEn) fun h => h.fault .pmu 4

/-! ### Supply fault, thermal trip, RESET_N -/

/-- A main-die rail is watched (R44): while the core regulator is on, all but VDD_CORE as it is off or rises; while a supply fault or
a thermal trip holds the main die in reset, all but VDD_CORE. -/
def Hub.railWatched (h : Hub) (r : Rail) : Bool :=
  h.custodyUp && (if h.power.coreEn then
      !(decide (r = .core) && (decide (h.power.state = .nap) || decide (h.power.phase = .core)))
    else h.power.held && decide (h.power.phase = .rails) && decide (r ≠ .core))

/-- SUPPLY_FAULT (R44): a rail that is watched leaves its window for more than 2 µs. -/
def execSupplyFault (r : Rail) (s : State) : Answer := act s (s.hub.railWatched r) fun h => h.supplyFault r

/-- A command that ends in a WARM reset, or in what acts as one. -/
def actWarm (s : State) (c : Bool) (f : Hub → Hub) : Answer := actReset s c fun h => h.warmEnd (f h.fresh)

/-- SUPPLY_RESTART (R44): every rail is back in window. A thermal trip that still holds the main die goes on holding it. -/
def execSupplyRestart (s : State) : Answer :=
  actWarm s (s.hub.custodyUp && s.hub.power.supplyBad.isSome) fun h =>
    let h := (h.warm 2 []).updPower fun x => { x with supplyBad := none }
    if h.power.thermHold then h else h.coreEnable

/-- THERMAL_TRIP (R63): a sensed Tj of 130 °C or more. -/
def execThermalTrip (tj : BitVec 16) (s : State) : Answer :=
  act s (s.hub.custodyUp && decide (1300 ≤ tj.toInt) && !s.hub.power.thermHold) fun h =>
    let h := (h.senseTj tj).fault .pmu 1
    let h := if bit (h.hdr .pmu).live 2 then h else (h.fault .pmu 2).setLive .pmu 2 true
    (h.updPower fun x => { x with thermHold := true }).mainDown

/-- THERMAL_TRIP_RELEASE (R63): the sensed Tj has fallen below 110 °C. -/
def execThermalTripRelease (tj : BitVec 16) (s : State) : Answer :=
  actWarm s (s.hub.custodyUp && s.hub.power.thermHold && decide (tj.toInt < 1100)) fun h =>
    let h := (h.senseTj tj).setLive .pmu 2 false
    let h := (h.warm 3 []).updPower fun x => { x with thermHold := false }
    if h.power.supplyBad.isSome then h else h.coreEnable

/-- A WARM reset in NAP or DORMANT (R55): the hub leaves the state, with no wake source; after NAP the core regulator is switched on
and confirmed, after DORMANT start-up is repeated from step 2 of Table 2.5. -/
def Hub.warmAsleep (h : Hub) : Hub :=
  let nap := decide (h.power.state = .nap)
  let h := h.backToRun (if nap then 2 else 3) 0 ((h.mono - h.power.since) / 1000)
  let h := (h.warm 1 h.heldPools).wrB Reg.PMU_AO 0 false
  if nap then h.coreEnable else h.updPower fun x => { x with phase := .rails }

/-- RESET_N_PULSE (R33, R55): a WARM reset. A main die that is held in reset already stays in it, and the restart waits for RESET_N
high. -/
def execResetNPulse (s : State) : Answer :=
  let asleep := decide (s.hub.power.state = .nap ∨ s.hub.power.state = .dormant)
  if s.hub.mainUp || s.hub.custodyUp && asleep then
    actWarm s true fun h => if asleep then h.warmAsleep else (h.warm 1 h.heldPools).toF0
  else act s (s.hub.custodyUp && s.hub.power.coreEn) fun h => h.wrB Reg.STW_RESET_CAUSE 1 true

/-! ### Block reset (R27, Table 3.16) -/

/-- Every cell returns to the kitty (R186): link ports go through a PORT reset, and queues, foyers, held and open frames are
emptied, each frame counted per flow as dropped by block reset. -/
def Hub.bufferReset (h : Hub) : Hub :=
  let h := (List.range 9).foldl (fun h p => h.klDown p none) h
  let h := (List.range 22).foldl Hub.edgeReturn h
  let h := h.ctxs.foldl (fun h e =>
    let n := e.2.held.length
    let h := if n = 0 then h else h.countReset e.1 n
    let h := e.2.held.foldl (fun h f =>
      match f.cells.head?.bind h.cell with
      | some c => (h.inc (Reg.TP_DROP_RESET c.inp)).dropEvent c.inp c.tc
      | none => h) h
    h.updCtx e.1 fun c => { c with list := [], held := [] }) h
  { h with
    cells := []
    opens := []
    foyers := []
    waits := []
    fts := []
    counts := { kitty := (h.rdF Reg.TSC_CAP 16 0 : Nat) }
    banks := { h.banks with draining := none } }

/-- Before a block resets, what it holds of the pools goes back (R27), and its own state behind the registers starts anew, as the
block's chapter says. -/
def Hub.blockRelease (h : Hub) (b : Block) : Hub :=
  match b with
  | .stw => ({ h.edgeReturn 0x11 with olog := {}, remote := {} }.updPower fun x => { x with fwRunning := false }).showSteward
  | .pmc => { h with pmc := {} }
  | .lnx => { (List.range 40).foldl (fun h l => h.lockLost l false) h with lanes := [], repair := none, auto := {} }
  | .kll => { (List.range 9).foldl (fun h p => h.klDown p none) h with xfer := {} }
  | .mir => { h.setPair 0 0 with mir := {} }
  | .tsc => h.bufferReset
  | .tss => { h with
      tports := (List.range 18).map fun t => (t, { epochFrom := h.mono })
      fts := h.fts.map fun e => (e.1, { quant := 32, since := h.mono, elig := h.mono, headAt := h.mono }) }
  | .fcm =>
    let h := { h.bufferReset with paging := {}, pageq := [] }
    let h := (h.ctxs.filter fun e => e.2.state = .resident ∨ e.2.state = .dummy).foldl (fun h e => h.recDrop e.2.handle) h
    { h with ctxs := [] }
  | .dse =>
    { (h.dpPortReset 0).dpPortReset 1 with dse := {} }
  | .vin =>
    let h := (List.range 4).foldl (fun h n =>
      let h := if (h.vinRx n).isOpen then h.vinTrunc n else h
      (h.edgeReturn (0x12 + n)).trigPin n (h.vinRx n).pol) h
    { h with vin := [] }
  | .eth => { (List.range 4).foldl (fun h p => h.edgeReturn (9 + p)) h with eth := [] }
  | .pxb =>
    h.pxReset
  | .usb =>
    let h := h.edgeReturn 0x10
    { (if h.role = .root then h.busReset else h.leafPortsOff) with usb := { mqIn := h.usb.mqIn, attachFrom := h.mono + 10000000 } }
  | .ppc => { h with ppc := [] }
  | .pmu => (h.dozeExit 0).updPower fun x => { x with timer := 0 }
  | .ksi => h
  | .sit => { (List.range 40).foldl (fun h l => if h.rdB (Reg.LN_STAT l) 18 then h.sitReleaseLane l else h) h with sit := Sit.fresh h.mono }

/-- The registers of a block that its block reset keeps: those in the store, the slots of KSI's key store among them, PC_INSERT,
STW_RESET_CAUSE, and the bank map and repair state that TSC and LNX built at the release of the main die. -/
def keptAtBlockReset (a : Nat) : Bool :=
  storedReg a || [Reg.STW_RESET_CAUSE, Reg.TSC_CAP, Reg.TSC_BANK_SPARE, Reg.TSC_BANK_OUT_LO, Reg.TSC_BANK_OUT_HI].contains a
    || (List.range 7).any fun k => decide (a = Reg.TSC_BANK_MAP k)

/-- The mailbox of a block after its reset (R82): the ticket counter survives, and a running request is reported with 0x08. -/
def Mailbox.afterReset (m : Mailbox) : Mailbox :=
  let n : Mailbox := { ticket := m.ticket }
  if m.busy then n.complete { err := 0x08 } else n

/-- The header of a block after its reset (Table 3.16): fault state, FLT_RECOVERY and POLL_SEQ are kept, ATTN_RAW reads RESET_DONE,
with MBX_DONE for an aborted request. FLT_STICKY and FLT_LIVE stay, in a custody block too. (Log entry 61, DESIGN CHOICE.) -/
def Hdr.afterReset (x : Hdr) (st : Straps) (b : Block) : Hdr :=
  { Hdr.reset st b with
    attnRaw := if x.mbx.busy then 0xA0000000 else 0x80000000
    sticky := x.sticky
    live := x.live
    recovery := x.recovery
    pollSeq := x.pollSeq
    flt := x.flt
    inFault := x.inFault
    quietFrom := x.quietFrom
    mbx := x.mbx.afterReset }

/-- The registers, shadows, arbiters and header of a block return to their reset values. -/
def Hub.regsReset (h : Hub) (b : Block) : Hub :=
  let h := h.arbsReset b
  { h with
    regs := h.regs.filter fun e => !ofBlock b e.1 || keptAtBlockReset e.1
    pend := h.pend.filter fun e => !ofBlock b e.1
    wide := h.wide.filter fun e => !ofBlock b e.1 || keptAtBlockReset e.1
    hdrs := h.hdrs.set b ((h.hdr b).afterReset h.straps b) }

/-- STW's time after its block reset (R288): the count, VALID and F run on; P and LOCKED are 0, so STW is in holdover. -/
def Hub.timeKept (h : Hub) (valid : Bool) : Hub :=
  let tb : TimeBase := { h.time with p := 0, slew := 0, good := 0, bad := 0 }
  let h := { h with time := tb, pins := { h.pins with ppsOut := false } }
  ((h.wrB Reg.STW_TIME_STAT 0 valid).wrB Reg.STW_TIME_STAT 2 valid).timeShow

/-- PMU after its block reset (R441): the point in force stands, a running step goes on, and where the point is not F0 a step to F0
starts; at F0, the reset F0 voltage is commanded where it differs. -/
def Hub.pmuKept (h : Hub) (point : Nat) : Hub :=
  let h := (h.wrF Reg.PMU_DVFS 3 2 point).wrB Reg.PMU_DVFS 4 h.power.step.isSome
  if h.power.step.isNone ∧ point = 0 then
    if h.power.vcmd = h.vPoint 0 then h
    else
      let raise := decide (h.power.vcmd < h.vPoint 0)
      h.vout (h.vPoint 0) raise
  else h.dvfsStart

/-- After a TSS block reset every port reports its rate and lead again (R227, R237). (Log entry 21, DEDUCED.) -/
def Hub.tssShow (h : Hub) : Hub :=
  let h := (List.range 9).foldl Hub.showLinkRate h.showLeads
  let h := (List.range 4).foldl Hub.epShow h
  let h := (List.range 2).foldl (fun h o =>
    h.dpReport o (if h.rdB (Reg.DO_STAT o) 16 then dpPayload (h.rdF (Reg.DO_STAT o) 21 19) (h.rdF (Reg.DO_STAT o) 25 22) else 0)) h
  let w := h.rd Reg.PX_STAT
  let h := h.pxReport (if w.getLsbD 0 then pxLaneRate (fld w 3 1) * fld w 6 4 else 0)
  (h.rateReport 0x10 h.usbRate).showSteward

/-- What a block sets up again after its reset: LNX the map of its lanes, TSC the free count, FCM the nine link contexts, PXB its
path to the host, DSE the level of HPD at its outputs, the state words that mirror state kept elsewhere. (Log entry 21, DEDUCED.) -/
def Hub.afterReset (h old : Hub) (b : Block) : Hub :=
  match b with
  | .stw => h.timeKept (old.rdB Reg.STW_TIME_STAT 0)
  | .lnx => h.lnxInit
  | .kll => h.showDepth
  | .dse => (List.range 2).foldl (fun h o => h.wrB (Reg.DO_STAT o) 17 (old.rdB (Reg.DO_STAT o) 17)) h
  | .tss => h.tssShow
  | .eth => (List.range 4).foldl Hub.epReport h
  | .tsc => (h.wr Reg.TSC_KITTY_MIN (w32 (h.rdF Reg.TSC_CAP 16 0))).showBanks.limitWatch
  | .pmu => h.pmuKept old.dvfsPoint
  | .ksi => if h.ksi.lost then h.setLive .ksi 0 true else h
  | _ => h

/-- BLK_CTRL.SRST of a block (R27, R91). FCM's takes TSC with it (R219). -/
def Hub.blockReset (h : Hub) (b : Block) : Hub :=
  let void := h.rdB Reg.TSC_LEDGER_STAT 2
  let h := ((((if h.present b then h.blockRelease b else h).regsReset b).afterReset h b))
  let h := if b = .fcm then (h.regsReset .tsc).afterReset h .tsc else h
  if b = .tsc ∨ b = .fcm then h.wrB Reg.TSC_LEDGER_STAT 2 void else h

/-- The end of a block reset as one steward cycle; STW's own loads the summaries anew, and MH_SEQ reads 0 (R84). -/
def Hub.resetEnd (old h : Hub) (b : Block) : Hub :=
  let r := settle old (old.tscWatch h)
  if b = .stw then { r with mh := {} } else r

/-- BLOCK_RESET (R27). -/
def execBlockReset (b : Block) (s : State) : Answer :=
  actReset s (s.hub.answers b) fun h => h.resetEnd (h.fresh.blockReset b) b

end Sys2Proof.Machine
end

