-- ==== Sys2Proof/Machine/Sleep.lean ====
section
/-! DEFINITION. Power states and their changes (R32, R221, R424–R437, R441, R506), and the start of the steward's firmware (R499–R501). -/

namespace Sys2Proof.Machine

/-! ### Firmware -/

/-- An image passes its checks (R500). -/
def fwGood (i : FwImage) : Bool := i.magic && decide (i.len ≤ 524288) && i.chain && i.signed

/-- Derdom firmware runs; in TRANSIT and LEAF it commits KL_CFG of T0 with EN 1, RATE 0xE and AUTO_ALIGN 1 (R501). -/
def Hub.fwStart (h : Hub) : Hub :=
  let h := (h.updPower fun x => { x with fwRunning := true }).showSteward
  if h.role = .transit ∨ h.role = .leaf then
    let h := h.wrShadow (Reg.KL_CFG 0) (setFld (h.shadow (Reg.KL_CFG 0)) 3 0 0xE ||| 0x50)
    h.commitArm .kll
  else h

/-- STW loads an image (R500): from the flash the slot with the higher version first, and the other only if that fails; an image
written through the SPI target stands alone. Each that fails raises FW_AUTH; with none good STW goes on waiting. -/
def Hub.fwLoad (h : Hub) : List FwImage → Hub
  | [] => h
  | i :: l => if fwGood i then h.fwStart else (h.fault .stw 2).fwLoad l

/-- The order in which the slots are tried. -/
def fwOrder (a b : FwImage) : List FwImage := if a.version.toNat < b.version.toNat then [b, a] else [a, b]

/-- FIRMWARE_LOAD (R500): the images of the two slots; or, where the boot source is the SPI target or both slots have failed, the
image written there. -/
def execFirmwareLoad (a b : FwImage) (spi : Option FwImage) (s : State) : Answer :=
  actT s (s.hub.mainUp && !s.hub.power.fwRunning) fun h =>
    match spi with
    | some i => h.fwLoad [i]
    | none => if h.straps.boot then h else h.fwLoad (fwOrder a b)

/-! ### The conditions of Table 17.2 -/

/-- Every assigned lane is in electrical idle, or its port is down. -/
def Hub.lanesQuiet (h : Hub) : Bool :=
  (List.range 40).all fun l =>
    decide (h.lanePort l = 0x1F) || h.rdB (Reg.LN_STAT l) 15 || h.portDown (h.lanePort l)

/-- The pools are empty (R32): every cell in the kitty, no credit, tag or USB sequence number outstanding. -/
def Hub.poolsEmpty (h : Hub) : Bool :=
  decide (h.counts.sum = h.counts.kitty) && h.cells.isEmpty && h.tags.isEmpty
    && (portClasses.all fun e => decide ((h.link e.1).creditsOut e.2 = 0))
    && (List.range 8).all fun t => (h.tun t).unacked.isEmpty

/-- The context bank of a slot is retained (R190, R430). -/
def Hub.bankKept (h : Hub) (s : Nat) : Bool := h.rdB Reg.PMU_RETAIN_LO (s / 256)

/-- R221 for NAP; for DORMANT no bank is retained, and no software context may be pinned. -/
def Hub.contextsOk (h : Hub) (nap : Bool) : Bool :=
  let loose := h.ctxs.filter fun e => 9 ≤ e.1 ∧ e.2.state = .resident ∧ !(nap && h.bankKept e.1)
  (!nap || h.bankKept 0) && (loose.all fun e => !e.2.pin) && (loose.isEmpty || h.storeOn)

/-- Every steward bank that firmware needs is retained; bank 0 always is (R430). -/
def Hub.fwBanksKept (h : Hub) : Bool :=
  decide (h.rd Reg.PMU_FW_BANKS &&& ~~~(h.rd Reg.PMU_RETAIN_HI ||| 1) = 0)

/-- Every link port is in DOWN or IDLE. -/
def Hub.linksQuiet (h : Hub) : Bool := (List.range 9).all fun p => decide (h.klState p = 0 ∨ h.klState p = 6)

/-- DSE, VIN, ETH and USB have ENABLE 0, or are absent. -/
def Hub.edgesOff (h : Hub) : Bool := [Block.dse, .vin, .eth, .usb].all fun b => !(h.hdr b).enable || !h.present b

/-- The error of the first condition of Table 17.2 that fails for DOZE. -/
def Hub.dozeCheck (h : Hub) : Option Nat :=
  if h.anyAwake then some 0x05 else if h.lanesQuiet then none else some 0x80

/-- The error of the first condition of Table 17.2 that fails for NAP or DORMANT, but for the load. -/
def Hub.napCheck (h : Hub) (nap : Bool) : Option Nat :=
  if h.anyAwake then some 0x05
  else if !h.poolsEmpty then some 0x05
  else if !h.contextsOk nap then some 0x05
  else if nap && !h.fwBanksKept then some 0x05
  else if !h.linksQuiet then some 0x80
  else if !h.edgesOff then some 0x80
  else none

/-! ### Entering -/

/-- The header of a block in DOZE: a fabric branch has no grant. -/
def Hub.dozeHdr (h : Hub) (b : Block) : Hdr :=
  { h.hdr b with clkGranted := (h.hdr b).clkGranted && !fastBlock b }

/-- DOZE (R426): the grants of the fabric branches are withdrawn. -/
def Hub.dozeEnter (h : Hub) : Hub :=
  let h := (List.range 40).foldl Hub.sitReleaseLane { h with hdrs := PerBlock.of h.dozeHdr }
  ((h.updPower fun x => { x with state := .doze, since := h.mono }).showState 1).inc Reg.PMU_DOZES

/-- The slots whose contexts an entry writes back and frees (R221). -/
def Hub.looseSlots (h : Hub) (nap : Bool) : List Nat :=
  (h.ctxs.filter fun e => 9 ≤ e.1 ∧ e.2.state = .resident ∧ !(nap && h.bankKept e.1)).map (·.1)

/-- Step 1 of R428: the write-backs start; each slot is in WRITEBACK until its acknowledgement. -/
def Hub.napWriteBacks (h : Hub) (nap : Bool) : Hub :=
  (h.looseSlots nap).foldl (fun h s =>
    let c := h.ctx s
    (h.updCtx s fun c => { c with state := .writeback }).writeBack c.handle ((c.gen + 1) % 2 ^ 32) .nap
      (c.image ((c.gen + 1) % 2 ^ 32))) h

/-- Step 2 of R428: a link port that is up or idle sends BYE with reason 0x4E and enters DOWN. -/
def Hub.napBye (h : Hub) (p : Nat) : Hub :=
  if h.klState p = 5 ∨ h.klState p = 6 then
    let h := if h.klState p = 6 then h.emit (.wake p) else h
    (h.emit (.bye p 0x4E)).klDown p none
  else h

/-- An entry that ends before its point of no return (R428, R436): the hub is in RUN. -/
def Hub.napCancel (h : Hub) (err : Nat) : Hub × Option MbxResult :=
  ((h.updPower fun x => { x with clamped := false }).showState 0, some (mbxErr err))

/-- Steps 2 to 7 of R428, with the board's load at the second check and a wake that arrives before step 6; DORMANT drops CORE_EN
instead of writing OPERATION off (R433). -/
def Hub.napEnter (h : Hub) (nap : Bool) (board2 : Nat) (wake : Option (Fin 6)) : Hub × Option MbxResult :=
  let h := (List.range 9).foldl Hub.napBye h
  let h := if h.pxLink then h.pcieDown else h
  let h := (h.updPower fun x => { x with clamped := true }).aoSense board2
  if wake.elim false fun w => decide (w = 3) || h.rdB Reg.PMU_WAKE_EN w then h.napCancel 0x81
  else if 450 < h.aoLoad nap then h.napCancel 0x82
  else
    let h := if nap then h.pmbStart [pmbOperation false] else h
    let h := h.updPower fun x => { x with
      state := if nap then .nap else .dormant
      coreEn := nap
      step := none
      since := h.mono
      wakeLatch := none }
    (((h.showState (if nap then 2 else 3)).wrB Reg.PMU_AO 0 true).inc Reg.PMU_NAPS, none)

/-- OFF (R434): every channel goes off with the normal sink, the outputs are clamped, OPERATION goes off (Table 2.6) and CORE_EN falls;
the request completes. -/
def Hub.offEnter (h : Hub) : Hub :=
  let h := if h.present .ppc then (List.range 6).foldl (fun h n => h.pcOff n) h else h
  let h := (h.publish .pmu (mbxOk [])).pmbStart [pmbOperation false]
  h.updPower fun x => { x with state := .off, clamped := true, coreEn := false, step := none, wakeLatch := none }

/-- A request for NAP or DORMANT: the checks, the write-backs, and, when none is outstanding, the checks anew and the rest of the entry.
(Log entry 23, DEDUCED.) -/
def Hub.napRequest (h : Hub) (nap : Bool) (board board2 : Nat) (wake : Option (Fin 6)) : Hub × Option MbxResult :=
  if h.rdF Reg.PMU_STATE 2 0 = 4 then
    if h.paging.wbs.isEmpty then (h.napCheck nap).elim (h.napEnter nap board2 wake) h.napCancel
    else if wake.elim false fun w => decide (w = 3) || h.rdB Reg.PMU_WAKE_EN w then h.napCancel 0x81
    else (h, none)
  else
    match h.napCheck nap with
    | some e => done h (mbxErr e)
    | none =>
      let h := h.aoSense board
      if 450 < h.aoLoad nap then done h (mbxErr 0x82)
      else
        let h := (h.napWriteBacks nap).showState 4
        if h.paging.wbs.isEmpty then h.napEnter nap board2 wake else (h, none)

/-- STATE_REQ (R425): it enters the state that ARG0 names; while write-backs of a NAP or DORMANT entry are outstanding, the next
STATE_REQ of the same request goes on with it. In DOZE a request for a deeper state is the steward request that ends DOZE (R426). `board` and `board2` are the board's draw on AO_CAP at the two load checks, in
10 µA, and `wake` a wake source that asserts before step 6. -/
def execStateReq (board board2 : BitVec 12) (wake : Option (Fin 6)) (s : State) : Answer :=
  actT s (s.hub.opRunning .pmu 0x10) fun h => h.runOp .pmu 0x10 fun h =>
    let a := (h.arg .pmu 0).toNat
    let h := if 2 ≤ a then h.dozeExit 0 else h
    if 5 ≤ a then done h (mbxErr 0x02)
    else if a = 0 then
      if h.power.state = .doze then (h.dozeExit 0, none) else done h (mbxOk [])
    else if h.power.state ≠ .run then (h, none)
    else if !h.mainUp then done h (mbxErr 0x05)
    else if a = 1 then
      match h.dozeCheck with
      | some e => done h (mbxErr e)
      | none => (h.dozeEnter, none)
    else if a = 4 then (h.offEnter, none)
    else h.napRequest (decide (a = 2)) board.toNat board2.toNat wake

/-- Every fabric branch is released. -/
def Hub.branchesFree (h : Hub) : Bool :=
  Block.all.all fun b => !fastBlock b || (!(h.hdr b).clkReq && !(h.hdr b).clkGranted)

/-- AUTO_DOZE_ENTRY (R427): DOZE_IDLE µs after the last branch was released, with the conditions met; a running STATE_REQ is served
first (Table 17.9). How long Table 17.2 has held is not kept. (Log entry 62, DESIGN CHOICE.) -/
def execAutoDozeEntry (s : State) : Answer :=
  act s (s.hub.up .pmu && s.hub.mainUp && decide (s.hub.power.state = .run) && s.hub.rdB Reg.PMU_AUTO 0
      && !s.hub.opRunning .pmu 0x10 && s.hub.branchesFree && s.hub.dozeCheck.isNone
      && decide (s.hub.power.idleFrom + 1000 * max 1 (s.hub.rdF Reg.PMU_AUTO 31 16) ≤ s.hub.mono)) fun h => h.dozeEnter

/-! ### Leaving -/

/-- Keep-clock ticks in whole nanoseconds (R431). -/
def keepNs (kt : Nat) : Nat := kt * 30517578125 / 1000000

/-- Cell time as the keep domain returns it after `kt` ticks (R431): VALID kept, LOCKED cleared, so holdover. The wake timer has counted the ticks
that idle steps have not. -/
def Hub.timeBack (h old : Hub) (kt : Nat) : Hub :=
  let valid := old.rdB Reg.STW_TIME_STAT 0
  let ns := keepNs kt
  let since := old.power.since
  let h := ({ h with time := { up := max old.mono (since + ns), ns := (old.now + ns) % 2 ^ 64, frac := old.time.frac, f := old.time.f } }).updPower
    fun x => x.count (kt - (old.mono - since) * 1000000 / 30517578125)
  let h := ((h.wrB Reg.STW_TIME_STAT 0 valid).wrB Reg.STW_TIME_STAT 2 valid).timeShow
  if old.timeLocked then h.attn .stw 3 else h

/-- The context that a retained slot holds after NAP (R506). -/
def Ctx.retained (c : Ctx) : Ctx := { c with list := [], held := [], rsqSet := false }

/-- The retained context banks (R506): RESIDENT contexts stay, every other slot is FREE. -/
def Hub.retainedCtxs (h : Hub) : Tab Ctx :=
  (h.ctxs.filter fun e => 9 ≤ e.1 ∧ e.2.state = .resident ∧ h.bankKept e.1).map fun e => (e.1, e.2.retained)

/-- The hub is back in RUN at F0 (R432, R441): the core is on, the clamps are off, and the steward runs. -/
def Hub.coreBack (h : Hub) : Hub :=
  ((h.wr Reg.PMU_DVFS 0).wrB Reg.PMU_AO 0 false).updPower fun x => { x with
    phase := .running
    clamped := false
    coreEn := true
    vcmd := h.vPoint 0
    step := none }

/-- The wake source that ends NAP or DORMANT, as a mask. -/
def Hub.wokenBy (h : Hub) : Nat := h.power.wakeLatch.elim 0 fun w => 2 ^ w

/-- NAP ends (R432, Table 17.3): the retained contexts come back, every other part of the main die is at reset, and firmware
resumes from its record. -/
def Hub.napExit (h : Hub) (kt : Nat) (voutOk : Bool) : Hub :=
  let n := (h.mainReset.timeBack h kt).coreBack
  let n := { n with ctxs := h.retainedCtxs }
  let n := ((n.strapFault.lnxInit.bankInit).updPower fun x => { x with fwRunning := true }).showSteward
  let n := n.pmbStart [pmbOperation true, pmbReadVout]
  let n := if voutOk then n else n.fault .pmu 5
  n.backToRun 2 h.wokenBy (keepNs kt / 1000)

/-- NAP_EXIT (R432): `kt` ticks of the keep clock have passed since entry; `pg` says that PMB_PG rises within 5 ms, `voutOk` that
READ_VOUT is within 10 mV of the F0 voltage. Without PMB_PG the hub acts as on a supply fault (Table 17.9). -/
def execNapExit (kt : Nat) (voutOk pg : Bool) (s : State) : Answer :=
  actReset s (s.hub.custodyUp && decide (s.hub.power.state = .nap) && s.hub.power.wakeLatch.isSome) fun h =>
    h.startEnd (if pg then h.fresh.napExit kt voutOk else (h.fresh.fault .pmu 5).supplyFault .core)

/-- DORMANT ends (R433): start-up from step 2 and the firmware load; the reset acts as WARM on the main die, STW_RESET_CAUSE stays,
and cell time comes back from the keep domain. -/
def Hub.dormantExit (h : Hub) (kt : Nat) (a b : FwImage) (spi : Option FwImage) : Hub :=
  let n := (h.mainReset.timeBack h kt).coreBack
  let n := n.coreEnable.pmbStart [pmbVoutMode, pmbReadVout]
  let n := n.mainStart
  let n := match spi with
    | some i => n.fwLoad [i]
    | none => if n.straps.boot then n else n.fwLoad (fwOrder a b)
  n.backToRun 3 h.wokenBy (keepNs kt / 1000)

/-- DORMANT_EXIT (R433): with STRAP_BOOT at 1 the exit waits for firmware through the SPI target. -/
def execDormantExit (kt : Nat) (a b : FwImage) (spi : Option FwImage) (s : State) : Answer :=
  actReset s (s.hub.custodyUp && decide (s.hub.power.state = .dormant) && s.hub.power.wakeLatch.isSome
      && (!s.hub.straps.boot || spi.isSome)) fun h =>
    h.startEnd (h.fresh.dormantExit kt a b spi)

/-- AO_BROWNOUT (R437): as POR in every respect, straps sampled again; counted in PMU_BROWNOUTS. -/
def execAoBrownout (straps : Straps) (s : State) : Answer :=
  actReset s s.hub.custodyUp fun h => (h.inc Reg.PMU_BROWNOUTS).porEnd straps

end Sys2Proof.Machine
end

