-- ==== Sys2Proof/Machine/Bus.lean ====
section
/-! DEFINITION. The register space (R9–R12, R64–R90): what a read of each register returns and does, and what a write does, by any
path. -/

namespace Sys2Proof.Machine

/-! ### Reach -/

/-- The registers of a block answer on a path (R45, R434): while the main die does not run, those of the custody die, and only by
SMBus; after OFF only to reads. (Log entry 23, DEDUCED.) -/
def Hub.reaches (h : Hub) (b : Block) (p : Path) (write : Bool) : Bool :=
  if b.custody && decide (p = .smbus) then
    decide (h.power.phase ≠ .por) && (decide (h.power.state ≠ .off) || !write)
  else h.mainUp

/-- The page number of an address within its block. -/
def pageOf (a : Nat) : Nat := a % 0x100000 / 0x1000

/-- The registers of SIT that are on the main die (R483): all of page 1 but the first three. -/
def sitMain (b : Block) (a : Nat) : Bool := decide (b = .sit) && decide (pageOf a = 1) && decide (0xC ≤ a % 0x1000) && decide (a % 0x1000 < 0x60)

/-- The port whose register is at an address, where it belongs to one (R3, Table 6.4). -/
def portAt (b : Block) (a : Nat) : Option Nat :=
  let pg := pageOf a
  match b with
  | .kll => if 0x10 ≤ pg ∧ pg < 0x19 then some (pg - 0x10) else if pg = 0xFD then some (a % 0x1000 / 0x100) else none
  | .tsc | .fcm => if 0x10 ≤ pg ∧ pg < 0x26 then some (pg - 0x10) else none
  | .tss => if 0x10 ≤ pg ∧ pg < 0x22 then some (pg - 0x10) else if 0x40 ≤ pg ∧ pg < 0x52 then some (pg - 0x40) else none
  | .pmc => if pg = 0x20 then some (a % 0x1000 / 16) else none
  | _ => none

/-- The register at an address keeps its reset value and takes no write: its port is absent (R3), or its block is and the page is
neither page 0 nor a fault page (R12). -/
def Hub.dead (h : Hub) (b : Block) (a : Nat) : Bool :=
  (!h.present b && !(decide (pageOf a = 0) || decide (0xFE ≤ pageOf a)))
    || (portAt b a).elim false fun p => decide (p < 22) && !portPresent h.straps p


/-! ### Page 0 -/

/-- BLK_CAP.INSTANCES (the register section of each chapter); open for USB where it is absent. -/
def instances (r : Role) : Block → Nat
  | .pmc => 32 | .lnx => 40 | .kll => 9 | .tsc => 22 | .tss => 18 | .fcm => 22 | .dse => 2 | .vin => 4 | .eth => 4 | .pxb => 8
  | .usb => if r = .root then 24 else if r = .leaf then 5 else (Config.usbInstances).toNat
  | .ppc => 6
  | .stw | .mir | .pmu | .ksi | .sit => 0

/-- BLK_CAP (Table 3.3). -/
def Hub.blkCap (h : Hub) (b : Block) : Word :=
  w32 (b2n (h.present b) + 2 * b2n (decide (opCount b ≠ 0)) + 4 * b2n (decide (b = .pxb ∨ (b = .usb ∧ h.role = .root)))
    + 8 * b2n b.custody + 16 * instances h.role b + 0x10000 * nSources b)

/-- The block lies on a keep-awake path (R24). -/
def Hub.onAwakePath (h : Hub) (b : Block) : Bool :=
  h.anyAwake && (decide (b = .tsc ∨ b = .tss ∨ b = .fcm) || (List.range 22).any fun p => h.keepAwake p && (portBlocks p).contains b)

/-- BLK_STAT (Table 3.3). -/
def Hub.blkStat (h : Hub) (b : Block) : Word :=
  w32 (b2n (!h.present b) + 2 * b2n (h.hdr b).clkGranted + 4 * b2n (h.onAwakePath b) + 8 * b2n (!h.present b))

/-- BLK_CTRL (Table 3.3); SRST reads 0, since a block reset is one command. -/
def Hdr.ctrl (x : Hdr) : Word := w32 (2 * b2n x.enable + 4 * b2n x.rdlive + 16 * x.arbMode)

/-- COMMIT_STAT (Table 3.7). -/
def Hdr.commitStat (x : Hdr) : Word := w32 (b2n (!x.waiting.isEmpty) + 2 * b2n x.late + 0x100 * x.applied + 0x10000 * x.missed)

/-- What a read of page 0 returns (Tables 3.2 and 3.8). -/
def Hub.hdrWord (h : Hub) (b : Block) (p : Path) (off : Nat) : Word :=
  let x := h.hdr b
  match off with
  | 0x00 => blkId b
  | 0x04 => h.blkCap b
  | 0x08 => x.ctrl
  | 0x0C => h.blkStat b
  | 0x10 => x.attnRaw
  | 0x14 => x.attnEn
  | 0x18 => x.attnRaw &&& x.attnEn
  | 0x20 => x.sticky
  | 0x24 => x.live
  | 0x28 => h.fltClass b
  | 0x2C => x.recovery
  | 0x34 => x.commitStat
  | 0x38 => x.pollSeq
  | 0x44 => x.mbx.tickets.getD p.code 0
  | 0x60 => x.mbx.resStat
  | _ =>
    if 0x48 ≤ off ∧ off ≤ 0x5C then x.mbx.args.getD ((off - 0x48) / 4) 0
    else if 0x68 ≤ off ∧ off ≤ 0x7C then x.mbx.data.getD ((off - 0x68) / 4) 0
    else 0

/-- A write of BLK_CTRL but for SRST (Table 3.3). -/
def Hub.writeCtrl (h : Hub) (b : Block) (v : Word) : Hub :=
  (h.updHdr b fun x => { x with enable := bit v 1 && h.present b, rdlive := bit v 2 }).writeArbMode b (fld v 5 4)

/-- A write of page 0 (Tables 3.2, 3.7 and 3.9). -/
def Hub.writeHdr (h : Hub) (b : Block) (p : Path) (off : Nat) (v : Word) : Hub :=
  match off with
  | 0x08 => h.writeCtrl b v
  | 0x10 => h.updHdr b fun x => { x with attnRaw := x.attnRaw &&& ~~~v }
  | 0x14 => h.updHdr b fun x => { x with attnEn := v }
  | 0x20 => h.stickyClear b v
  | 0x30 => if bit v 1 then h.commitDiscard b else if bit v 0 then h.commitArm b else h
  | 0x34 => if bit v 1 then h.updHdr b fun x => { x with late := false } else h
  | 0x40 => h.updMbx b fun m => m.request p (fld v 15 0) h.mono
  | 0x64 => h.updMbx b fun m => m.ack (fld v 7 0)
  | _ =>
    if 0x48 ≤ off ∧ off ≤ 0x5C then h.updMbx b fun m => { m with args := putAt m.args ((off - 0x48) / 4) v } else h

/-! ### Plain registers -/

/-- The bits of a register that read (R10, R11). -/
def RegRow.reads (r : RegRow) : Word := w32 r.s ||| w32 r.i ||| w32 r.c ||| w32 r.r

/-- What a read of a plain register returns (R73): its S bits from the shadow unless RDLIVE is 1. -/
def Hub.plainWord (h : Hub) (b : Block) (r : RegRow) (a : Nat) : Word :=
  (if (h.hdr b).rdlive then h.rd a else (h.shadow a &&& w32 r.s) ||| (h.rd a &&& ~~~ w32 r.s)) &&& r.reads

/-- A write of a plain register (R73): S bits to the shadow, I bits in force, W1C bits cleared where written 1. -/
def Hub.writePlain (h : Hub) (r : RegRow) (a : Nat) (v : Word) : Hub :=
  let s := w32 r.s
  let h := if s = 0 then h else h.wrShadow a ((h.shadow a &&& ~~~s) ||| (v &&& s))
  if w32 r.i ||| w32 r.c = 0 then h
  else
    let i := w32 r.i
    h.wr a ((h.rd a &&& ~~~i &&& ~~~(v &&& w32 r.c)) ||| (v &&& i))

/-- A write of ARB_BASE while ARB_MODE is IMMEDIATE updates the shadow and the value in force (R280). -/
def Hub.writeArbBase (h : Hub) (b : Block) (r : RegRow) (a : Nat) (v : Word) : Hub :=
  if (h.hdr b).arbMode = 1 then { h.wr a (v &&& w32 r.s) with pend := h.pend.filter fun e => e.1 ≠ a } else h.writePlain r a v

/-! ### Arbiter and fault pages -/

/-- What a read of an arbiter register returns (Table 10.2). -/
def Hub.arbWord (h : Hub) (b : Block) (a : Nat) : Word :=
  let k := a % 0x1000 / 0x100
  let o := a % 0x100
  if (arbBases b k).isNone then 0
  else if o = 0 then arbId b k
  else if o = 4 then h.arbStat b k
  else if 0x20 ≤ o ∧ o ≤ 0x2C then h.arbEffWord b k ((o - 0x20) / 4)
  else (rowOf b 0xFD (a % 0x1000)).elim 0 fun r => h.plainWord b r a

/-- A write of an arbiter register. -/
def Hub.writeArb (h : Hub) (b : Block) (a : Nat) (v : Word) : Hub :=
  let o := a % 0x100
  match rowOf b 0xFD (a % 0x1000) with
  | none => h
  | some r => if o = 0x30 then (if bit v 31 then h.arbWaitClr b (a % 0x1000 / 0x100) else h) else if 0x10 ≤ o ∧ o ≤ 0x1C then h.writeArbBase b r a v else h

/-- What a read of a fault page returns (Tables 19.1 and 19.3). -/
def Hub.fltWord (h : Hub) (b : Block) (a : Nat) : Word :=
  let off := a % 0x1000
  if pageOf a = 0xFE then
    if nSources b ≤ off / 16 then 0
    else if off % 16 = 4 then (atD (h.hdr b).flt (off / 16) {}).count
    else if off % 16 = 8 then h.fsStat b (off / 16)
    else (rowOf b 0xFE off).elim 0 fun r => h.plainWord b r a
  else if off = 4 then h.quietLeft b
  else (rowOf b 0xFF off).elim 0 fun r => h.plainWord b r a

/-- A write of a fault page: FS_CFG and FLT_QUIET, and FLT_CTRL (Table 19.3). -/
def Hub.writeFlt (h : Hub) (b : Block) (a : Nat) (v : Word) : Hub :=
  if pageOf a = 0xFF ∧ a % 0x1000 = 8 then
    let h := if bit v 0 then h.fltExit b else h
    if bit v 1 then h.fltCntClr b else h
  else (rowOf b (pageOf a) (a % 0x1000)).elim h fun r => h.writePlain r a v

/-! ### Registers whose value is kept elsewhere -/

/-- The LO/HI pairs whose LO shows a live 64-bit value, by block: page of the first, step and number of pages, LO and HI offsets. -/
def widePairs : Block → List (Nat × Nat × Nat × Nat)
  | .stw => [(3, 1, 0x18, 0x1C), (3, 1, 0x34, 0x38)]
  | .tsc => [(1, 1, 0x2C, 0x30)]
  | .tss => [(1, 1, 0x20, 0x24)]
  | .mir => [(1, 1, 0x68, 0x6C)]
  | .ksi => [(1, 1, 0x10, 0x14), (1, 1, 0x18, 0x1C)]
  | .pxb => [(1, 1, 0x48, 0x4C)]
  | .dse => [(0x10, 2, 0x2C, 0x30)]
  | .vin => [(0x10, 4, 0x1C, 0x20)]
  | .pmc => (List.range 32).map fun n => (2, 1, 0x40 * n + 0x24, 0x40 * n + 0x28)
  | _ => []

/-- The HI address of a LO register of `widePairs`. -/
def wideHi (b : Block) (a : Nat) : Option Nat :=
  ((widePairs b).find? fun e => decide (e.1 ≤ pageOf a) && decide (pageOf a < e.1 + e.2.1) && decide (a % 0x1000 = e.2.2.1)).map
    fun e => a + 4 * ((e.2.2.2 - e.2.2.1) / 4)

/-- One bit per block in the masthead's order (Table 3.12). -/
def mhWord (f : Block → Bool) : Word := w32 (Block.all.foldl (fun n b => n + 2 ^ b.idx * b2n (f b)) 0)

/-- The masthead (Table 3.11). -/
def Hub.mhRead (h : Hub) (off : Nat) : Option Word :=
  match off with
  | 0x00 => some h.mh.seq
  | 0x04 => some (mhWord fun b => (h.hdr b).summary.1)
  | 0x08 => some (mhWord fun b => (h.hdr b).summary.2.1)
  | 0x0C => some (mhWord fun b => (h.hdr b).summary.2.2.1)
  | 0x10 => some (mhWord fun b => (h.hdr b).summary.2.2.2)
  | 0x14 => some (mhWord fun b => decide (h.msgLen b ≠ 0))
  | 0x18 => some (w32 (h.hubId + 0x4000 * fld h.straps.roleWord 1 0))
  | 0x20 => some (lo32 h.mh.time)
  | _ => none

/-- A word of an order-log record (Table 10.3). -/
def LogRec.word (r : LogRec) (w : Nat) : Word :=
  match w with
  | 0 => lo32 r.stamp
  | 1 => hi32 r.stamp
  | 2 => r.seq
  | _ => w32 (r.block + 0x20 * r.kind + 0x100 * r.bit + 0x10000 * r.info)

/-- STW's registers kept elsewhere (Tables 3.11, 3.13, 10.6 and 10.8, R286). -/
def Hub.stwWord (h : Hub) (pg off : Nat) : Option Word :=
  if pg = 1 then h.mhRead off
  else if pg = 2 ∧ off = 0x10 then some (h.rd Reg.STW_REMOTE_STAT ||| w32 (0x100 * h.remote.tags.length))
  else if pg = 3 ∧ off = 0 then some (lo32 h.now)
  else if pg = 4 ∧ off = 0x08 then some (w32 h.olog.next)
  else if pg = 4 ∧ off = 0x0C then some h.olog.seq
  else if pg = 4 ∧ off = 0x14 then some (w32 (h.ologUnread % 2048))
  else if 0x10 ≤ pg ∧ pg < 0x14 then
    some ((Tab.get (fun _ => {}) h.olog.ring ((pg - 0x10) * 256 + off / 16)).word (off % 16 / 4))
  else none

/-- A word of a bin or counter reads 0xFFFF_FFFF after an uncorrectable error in it (R495). -/
def Hub.memWord (h : Hub) (a : Nat) (v : Word) : Word := if h.pmc.bad.contains a then 0xFFFFFFFF else v

/-- The address of a counter's word on page 3. -/
def cntAddr (off : Nat) : Nat := 0x103000 + off / 8 * 8

/-- PMC's registers kept elsewhere (R497): counters on pages 3 and 5, bins, the capture ring. -/
def Hub.pmcWord (h : Hub) (pg off : Nat) : Option Word :=
  if pg = 3 ∨ pg = 5 then
    if off < 0x800 then some (h.memWord (cntAddr off) (h.cntWord (off / 8) (decide (off % 8 = 4))))
    else if pg = 3 ∧ off < 0x848 then some (h.rd (Reg.BW_LAST ((off - 0x800) / 4)))
    else some 0
  else if 0x10 ≤ pg ∧ pg < 0x14 then
    let k := ((pg - 0x10) % 2 * 0x1000 + off) / 4
    let live := decide (pg < 0x12)
    some (h.memWord (0x100000 + pg * 0x1000 + off) (w32 (Tab.get (fun _ => 0) (if live then h.pmc.bins else h.pmc.frozen) k)))
  else if 0x40 ≤ pg ∧ pg < 0x7C then
    let o := (pg - 0x40) * 0x1000 + off
    some (((Tab.find h.pmc.ring (o / 64)).getD []).getD (o % 64 / 4) 0)
  else none

/-- TSC's registers kept elsewhere (Tables 6.8 and 6.6). -/
def Hub.tscWord (h : Hub) (pg off : Nat) : Option Word :=
  if pg = 1 then
    if off = 4 then some (w32 h.counts.kitty.toNat) else if off = 0xC then some (w32 h.reserve) else none
  else if 0x10 ≤ pg ∧ pg < 0x26 then
    if 0x50 ≤ off ∧ off ≤ 0x6C then some (w32 (h.pendC (pg - 0x10) ((off - 0x50) / 4)))
    else if off = 0x70 then some (w32 (h.pendTotal (pg - 0x10)))
    else if off = 0x74 then some (w32 (h.ingHeld (pg - 0x10)))
    else none
  else none

/-- FCM's registers kept elsewhere (Tables 7.11 and 7.12). -/
def Hub.fcmWord (h : Hub) (pg off : Nat) : Option Word :=
  if pg = 1 then
    match off with
    | 0x00 => some (w32 (h.slotCount .free))
    | 0x04 => some (w32 (h.slotCount .resident))
    | 0x08 => some (w32 (h.slotCount .dummy))
    | 0x0C => some (w32 (h.slotCount .writeback))
    | 0x10 => some (w32 h.pinned)
    | _ => none
  else if 0x10 ≤ pg ∧ pg < 0x26 then
    if off = 0 then some (w32 (h.foyer (pg - 0x10)).length)
    else if off = 4 then some (w32 (h.foyCells (pg - 0x10)))
    else none
  else none

/-- KL_CRED_Cc of a link port (Table 5.11): ADV from the peer and OUT. -/
def Hub.credWord (h : Hub) (p c : Nat) : Word := w32 ((h.link p).adv.getD c 0 % 4096 + 0x10000 * ((h.link p).outCells c % 4096))

/-- PXB's registers kept elsewhere (Table 14.9). -/
def Hub.pxbWord (h : Hub) (pg off : Nat) : Option Word :=
  if pg = 1 ∧ off = 0x20 then some (w32 (256 - h.tags.length + 0x10000 * h.pageTagsUsed))
  else if pg = 1 ∧ off = 0x24 then some (w32 h.pxb.pend.length)
  else none

/-- USB's registers kept elsewhere (Tables 15.6 and 15.7, R396). -/
def Hub.usbWord (h : Hub) (pg off : Nat) : Option Word :=
  if pg = 1 then
    if off = 8 then some (w32 h.epFree) else if off = 0xC then some (w32 h.tracked.length) else none
  else if 0x10 ≤ pg ∧ pg < 0x18 then
    if off = 0x10 then some (h.tnStat (pg - 0x10))
    else if off = 0x14 then some (h.tnSeq (pg - 0x10))
    else if off = 0x18 then some (w32 (h.tunInfl (pg - 0x10)))
    else none
  else if pg = 0x40 ∧ off < 0x400 then some (h.usbDevWord (off / 16) (off % 16 / 4))
  else none

/-- Word i of a list of bytes, the first byte in [7:0]. -/
def byteWord (l : List Byte) (i : Nat) : Word := w32 (leVal ((l.drop (4 * i)).take 4))

/-- KSI's registers kept elsewhere (Table 18.6, R462). -/
def Hub.ksiWord (h : Hub) (pg off : Nat) : Option Word :=
  if pg = 1 then
    if off = 0 then some h.ksiStat
    else if 0x30 ≤ off ∧ off < 0x60 then some (byteWord h.devDigest ((off - 0x30) / 4))
    else if 0x60 ≤ off ∧ off < 0x90 then some (byteWord Config.rootDigest ((off - 0x60) / 4))
    else none
  else if pg = 5 ∧ off < 0x100 then some (h.keySlot (off / 4)).word
  else none

/-- A word of a repair record (Table 19.8). -/
def RepairRec.word (r : RepairRec) (w : Nat) : Word :=
  if w = 0 then w32 (r.kind + 0x100 * r.res + 0x10000 * r.port + 0x200000 * r.logical + 0x800000 * b2n r.cleared)
  else w32 r.time

/-- SIT's registers kept elsewhere (Tables 19.7 and 19.8). -/
def Hub.sitWord (h : Hub) (pg off : Nat) : Option Word :=
  if pg = 1 ∧ off = 4 then
    some (((h.plainWord .sit ⟨1, 1, 1, 4, 1, 4, 0, 0, 0x3FFF0000, 1, 0, 0⟩ Reg.SIT_FAULTN))
      ||| w32 (2 * b2n h.pins.faultPulse.isSome + 4 * b2n h.faultPinLow))
  else if pg = 1 ∧ off = 0x60 then some ((h.rd Reg.SIT_REPAIR_STAT &&& 0x10000) ||| w32 h.repairMap.length)
  else if pg = 2 ∧ off < 0x800 then some ((h.repairMap[off / 8]?).elim 0 fun r => r.word (off % 8 / 4))
  else none

/-- PMU's registers kept elsewhere (Table 17.10). -/
def Hub.pmuWord (h : Hub) (pg off : Nat) : Option Word :=
  if pg = 1 ∧ off = 4 then some h.keepWord else if pg = 1 ∧ off = 0x2C then some h.wakeTimer else none

/-- The value of a register whose value is kept elsewhere than in the register file. -/
def Hub.keptWord (h : Hub) (b : Block) (a : Nat) : Option Word :=
  let pg := pageOf a
  let off := a % 0x1000
  match b with
  | .stw => h.stwWord pg off
  | .pmc => h.pmcWord pg off
  | .kll => if 0x10 ≤ pg ∧ pg < 0x19 ∧ 0x40 ≤ off ∧ off < 0x60 then some (h.credWord (pg - 0x10) ((off - 0x40) / 4)) else none
  | .tsc => h.tscWord pg off
  | .tss => if 0x10 ≤ pg ∧ pg < 0x22 ∧ 0x70 ≤ off ∧ off < 0x8C then some (w32 (h.classQ (pg - 0x10) ((off - 0x70) / 4))) else none
  | .fcm => h.fcmWord pg off
  | .pxb => h.pxbWord pg off
  | .usb => h.usbWord pg off
  | .ppc => if pg = 1 ∧ off = 0 then some h.ppcSummary else none
  | .pmu => h.pmuWord pg off
  | .ksi => h.ksiWord pg off
  | .sit => h.sitWord pg off
  | .lnx | .mir | .dse | .vin | .eth => none

/-! ### Reads -/

/-- A register stands at an address outside page 0 (R64): a listed one, one whose value is kept elsewhere, an arbiter's or a fault
page's. -/
def Hub.occupied (h : Hub) (b : Block) (a : Nat) : Bool :=
  let pg := pageOf a
  let off := a % 0x1000
  (rowOf b pg off).isSome
    || (if pg = 0xFD then (arbBases b (off / 0x100)).isSome
          && decide (off % 0x100 < 8 ∨ 0x20 ≤ off % 0x100 ∧ off % 0x100 < 0x30)
        else if pg = 0xFE then decide (off / 16 < nSources b) && decide (off % 16 = 4 ∨ off % 16 = 8)
        else if pg = 0xFF then decide (off = 4 ∨ off = 8)
        else if b = .pmc ∧ (pg = 3 ∨ pg = 5) then decide (off < 0x800) || decide (pg = 3) && decide (off < 0x848)
        else (h.keptWord b a).isSome)

/-- An access to a register outside page 0 raises the clock request of its block, and is served after the grant (R67); an unoccupied
address raises none (R9). -/
def Hub.clockFor (h : Hub) (b : Block) (a : Nat) : Hub :=
  if fastBlock b && h.present b && decide (pageOf a ≠ 0) && h.occupied b a then
    ((h.updHdr b fun x => { x with clkReq := true, clkGranted := true }).pxIdle b false).dozeExit 0
  else h

/-- What a read of a register that answers returns. -/
def Hub.peek (h : Hub) (b : Block) (p : Path) (a : Nat) : Word :=
  let pg := pageOf a
  if pg = 0 then h.hdrWord b p (a % 0x1000)
  else if pg = 0xFD then (if h.dead b a then Hub.reset h.straps else h).arbWord b a
  else if 0xFE ≤ pg then h.fltWord b a
  else if h.dead b a then regReset h.straps a
  else if (wideHi b a).isSome then lo32 (h.rdWide a)
  else
    match h.keptWord b a with
    | some w => w
    | none => (rowAt b pg (a % 0x1000)).elim 0 fun r => h.plainWord b r a

/-- What a read does besides: a LO word latches its HI word, PCn_LO latches its chain (R491), and BW_PEAK and BW_TOTAL clear
(R493). -/
def Hub.readNote (h : Hub) (b : Block) (a : Nat) : Hub :=
  let pg := pageOf a
  let off := a % 0x1000
  if h.dead b a then h
  else if a = 0x1020 then h.wr Reg.MH_TIME_HI (hi32 h.mh.time)
  else if a = 0x3000 then h.wr Reg.STW_TIME_HI (hi32 h.now)
  else if b = .pmc ∧ (pg = 3 ∨ pg = 5) ∧ off < 0x800 ∧ off % 8 = 0 then h.cntLatch (off / 8)
  else if b = .pmc ∧ pg = 0x20 ∧ (off % 16 = 8 ∨ off % 16 = 0xC) ∧ off < 0x120 then h.wr a 0
  else (wideHi b a).elim h fun hi => h.latchHi a hi

/-- A read of a word by a path (R9, R45): an unoccupied or unaligned address, and a register that does not answer, read 0. -/
def Hub.busRead (h : Hub) (p : Path) (a : Nat) : Hub × Word :=
  match Block.at a with
  | none => (h, 0)
  | some b =>
    if a % 4 = 0 ∧ h.reaches b p false = true ∧ (sitMain b a && !h.mainUp) = false then
      let h := h.clockFor b a
      (h.readNote b a, h.peek b p a)
    else (h, 0)

/-! ### Writes -/

/-- A write of TS_GSW: the switch time, mirrored in a pair like the other gate registers (Table 9.4). -/
def Hub.writeGsw (h : Hub) (t a : Nat) (v : Word) : Hub := (h.wr a v).gateNote t (a % 0x100000) v

/-- The gate-bank register of TSS at an address. -/
def gateRegAt (pg off : Nat) : Option (Nat × Bool × GateReg) :=
  if 0x40 ≤ pg ∧ pg < 0x52 then
    some (pg - 0x40, decide (0x400 ≤ off ∧ off < 0x800), .entry (Fin.ofNat 256 (off % 0x400 / 4)))
  else if 0x10 ≤ pg ∧ pg < 0x22 ∧ 0xB0 ≤ off ∧ off < 0xD0 then
    let r : GateReg := match off % 16 with
      | 0 => .baseLo | 4 => .baseHi | 8 => .cycle | _ => .len
    some (pg - 0x10, decide (0xC0 ≤ off), r)
  else none

/-- Writes of TSS that act beyond their register. -/
def Hub.tssWrite (h : Hub) (pg off a : Nat) (v : Word) : Option Hub :=
  if 0x10 ≤ pg ∧ pg < 0x22 ∧ off = 0x94 then some (h.storeGctl (pg - 0x10) v)
  else if 0x10 ≤ pg ∧ pg < 0x22 ∧ (off = 0x98 ∨ off = 0x9C) then some (h.writeGsw (pg - 0x10) a v)
  else if 0x40 ≤ pg ∧ 0x800 ≤ off then none
  else (gateRegAt pg off).map fun e => h.storeGate e.1 e.2.1 a (v &&& gateRegMask e.2.2) (gateRegTiming e.2.2)

/-- Writes of STW that act beyond their register. -/
def Hub.stwWrite (h : Hub) (p : Path) (a : Nat) (v : Word) : Option Hub :=
  if a = Reg.STW_HUB_ID then some (h.writeHubId v)
  else if a = Reg.STW_SOFT_ADJ then some (h.softAdj v)
  else if a = Reg.STW_OLOG_MARK then some (h.ologMark p (fld v 15 0))
  else none

/-- Writes of a lane page that act beyond their register. -/
def Hub.lnxWrite (h : Hub) (pg off : Nat) (v : Word) : Option Hub :=
  if 0x10 ≤ pg ∧ pg < 0x38 then
    match off with
    | 0x0C => some (h.writeSlip (pg - 0x10) (fld v 7 0))
    | 0x10 => some (h.writeShWin (pg - 0x10) (fld v 15 0))
    | 0x20 => some (h.writePatCfg (pg - 0x10) v)
    | 0x24 => some (h.writePatUser (pg - 0x10) v)
    | 0x34 => some (h.writeLoop (pg - 0x10) v)
    | _ => none
  else none

/-- A write of PC_CTRL: it acts at the next tick (R405). -/
def Hub.writePcCtrl (h : Hub) (n : Nat) (v : Word) : Hub := h.pcWrite n (fld v 2 0)

/-- A write of VN_TRIG_CTL: POL, then STOP, then ARM (R332). -/
def Hub.writeTrigCtl (h : Hub) (n : Nat) (v : Word) : Hub :=
  let h := h.wrB (Reg.VN_TRIG_CTL n) 2 (bit v 2)
  let h := if bit v 1 then h.trigStop n else h
  if bit v 0 then h.trigArm n else h

/-- Writes of PMC that act beyond their register: H_CTL (SNAP takes the counts that CLR clears, R489) and the writable counters. -/
def Hub.pmcWrite (h : Hub) (pg off : Nat) (v : Word) : Option Hub :=
  if pg = 2 ∧ off % 0x40 = 0xC ∧ off < 0x800 then
    let h := if bit v 0 then h.histSnap (off / 0x40) else h
    some (if bit v 1 then h.histClr (off / 0x40) else h)
  else if pg = 5 ∧ off < 0x800 then
    some (if off % 8 = 0 then h.cntLoad (off / 8) v else h.cntHold (off / 8) v)
  else none

/-- Writes that act beyond their register, by block: W1S and WO registers, and the registers whose rows state an effect. -/
def Hub.actWrite (h : Hub) (b : Block) (p : Path) (a : Nat) (v : Word) : Option Hub :=
  let pg := pageOf a
  let off := a % 0x1000
  match b with
  | .stw => h.stwWrite p a v
  | .pmc => h.pmcWrite pg off v
  | .lnx => h.lnxWrite pg off v
  | .kll => if 0x10 ≤ pg ∧ pg < 0x19 ∧ off = 4 then some (h.writeKlCtrl (pg - 0x10) v) else none
  | .mir => if a = Reg.MIR_LAG then some (if bit v 31 then h.mirLagClr else h) else none
  | .tsc =>
    if a = Reg.TSC_KITTY_MIN then some (if bit v 31 then h.kittyMinClr else h)
    else if 0x10 ≤ pg ∧ pg < 0x26 ∧ off = 0x78 then some (if bit v 31 then h.pendMaxClr (pg - 0x10) else h)
    else none
  | .tss => h.tssWrite pg off a v
  | .fcm =>
    if a = Reg.FCM_PAGE_LAT_MAX then some (if bit v 31 then h.pageLatMaxClr else h)
    else if 0x10 ≤ pg ∧ pg < 0x26 ∧ off = 8 then some (if bit v 31 then h.fyMaxClr (pg - 0x10) else h)
    else if 0x10 ≤ pg ∧ pg < 0x26 ∧ off = 0x10 then some (if bit v 31 then h.fyWaitMaxClr (pg - 0x10) else h)
    else none
  | .vin =>
    if pg = 1 ∧ off = 0 then some ((onesOf (fld v 3 0) 4).foldl Hub.trigArm h)
    else if 0x10 ≤ pg ∧ pg < 0x14 ∧ off = 0x30 then some (h.writeTrigCtl (pg - 0x10) v)
    else none
  | .eth => if 0x40 ≤ pg ∧ pg < 0x50 then some (h.clsWrite ((pg - 0x40) * 256 + off / 16) (off % 16 / 4) v) else none
  | .pxb =>
    if a = Reg.PX_MQ_POP then some (h.mqPop (fld v 8 0))
    else if a = Reg.PX_PF_CTL then some (if bit v 0 then h.pfClr else h)
    else if 0x10 ≤ pg ∧ pg < 0x18 ∧ off = 0x28 then some (if bit v 1 then h.wrB (Reg.PW_STAT (pg - 0x10)) 0 false else h)
    else none
  | .usb => if a = Reg.USB_MQ_POP then some (h.usbPop (fld v 5 0)) else none
  | .ppc =>
    if 0x10 ≤ pg ∧ pg < 0x16 ∧ off = 4 then some (h.writePcCtrl (pg - 0x10) v)
    else if 0x10 ≤ pg ∧ pg < 0x16 ∧ off = 0x58 then some (if bit v 31 then h.tfetClr (pg - 0x10) else h)
    else none
  | .pmu =>
    if a = Reg.PMU_DVFS then some (if h.mainUp then h.dvfsWrite (fld v 1 0) else h)
    else if a = Reg.PMU_WAKE_TIMER then some (h.wakeTimerWrite v)
    else if a = Reg.PMU_TEMP then some (if bit v 31 then h.tempClr else h)
    else none
  | .ksi => if a = Reg.KSI_TAMP_CFG then some (h.wr a (h.rd a ||| (v &&& 3))) else none
  | .dse | .sit => none

/-- A write of a register that answers. -/
def Hub.poke (h : Hub) (b : Block) (p : Path) (a : Nat) (v : Word) : Hub :=
  let pg := pageOf a
  if pg = 0 then h.writeHdr b p (a % 0x1000) v
  else if 0xFE ≤ pg then h.writeFlt b a v
  else if h.dead b a then h
  else if pg = 0xFD then h.writeArb b a v
  else
    match h.actWrite b p a v with
    | some h' => h'
    | none => (rowAt b pg (a % 0x1000)).elim h fun r => h.writePlain r a v

/-- A write of a word by a path, but for BLK_CTRL.SRST (R9, R45): discarded where no register answers. -/
def Hub.busWrite (h : Hub) (p : Path) (a : Nat) (v : Word) : Hub :=
  match Block.at a with
  | none => h
  | some b =>
    if a % 4 = 0 ∧ h.reaches b p true = true ∧ (sitMain b a && !h.mainUp) = false then (h.clockFor b a).poke b p a v
    else h

/-- The block whose reset a write of BLK_CTRL.SRST starts. -/
def Hub.srstOf (h : Hub) (p : Path) (a : Nat) (v : Word) : Option Block :=
  (Block.at a).filter fun b => decide (a = b.base + 8) && bit v 0 && h.reaches b p true

/-- A write as one steward cycle; SRST then resets the block. (Log entry 24, DEDUCED.) -/
def Hub.writeWord (h : Hub) (p : Path) (a : Nat) (v : Word) : Hub :=
  let n := settle h (h.tscWatch (h.busWrite p a v))
  match h.srstOf p a v with
  | some b => n.resetEnd (n.blockReset b) b
  | none => n

/-- A read as one steward cycle. -/
def Hub.readWord (h : Hub) (p : Path) (a : Nat) : Hub × Word :=
  let r := h.busRead p a
  (settle h (h.tscWatch r.1), r.2)

/-- A path reaches the hub: BAR0 exists only in ROOT (R65), and with a strap error no port is enabled, so that only SPI, SMBus, JTAG
and the hub's own steward do (R2). -/
def Hub.pathOpen (h : Hub) (p : Path) : Bool :=
  match p with
  | .bar0 => decide (h.role = .root) && !h.straps.err
  | .bar2 => !h.straps.err
  | .spi | .smbus | .steward => true

/-- REGISTER_WRITE (R73): the path's write of a word. -/
def execRegisterWrite (p : Path) (a : BitVec 26) (v : Word) (s : State) : Answer :=
  actReset s (s.hub.pathOpen p) fun h => h.fresh.writeWord p a.toNat v

end Sys2Proof.Machine
end

