-- ==== Sys2Proof/Machine/Decide.lean ====
section
/-! DEFINITION. The egress decision of a port (R226, R229): a replay goes on, or the unit that TSS chooses leaves, by the way its
port has. -/

namespace Sys2Proof.Machine

/-- A unit leaves by a link port: one cell, whose pennant is checked as it is read (R128, R178). -/
def Hub.linkExit (h : Hub) (s t : Nat) (u : List Nat) (ecc : Bool) : Hub :=
  match u with
  | i :: _ => if h.cellGood i ecc then h.sendCell t i else h.pennantFail s t i ecc
  | [] => h

/-- A unit leaves by its port: a link, Ethernet, the bridge, a DisplayPort output, USB, or the steward. -/
def Hub.unitExit (h : Hub) (s t : Nat) (u : List Nat) (ecc : Option Nat) : Hub :=
  if isLinkPort t then h.linkExit s t u ecc.isSome
  else if t ≤ 0x0C then h.ethExit s (t - 9) u ecc
  else if t = 0x0D then h.pxExit s u ecc
  else if t = 0x0E ∨ t = 0x0F then h.dpStart s t u
  else if t = 0x10 then h.usbExit s u ecc
  else h.stewardExit s u ecc

/-- The chosen unit of a flow leaves: it is charged as it starts (R231). -/
def Hub.leave (h : Hub) (s t : Nat) (ecc : Option Nat) : Hub :=
  let u := h.headUnit s t
  ((h.charge s t (h.ctx s).tc (h.unitCharge t u)).unitExit s t u ecc).newHead s t

/-- What a sample capture may record of a decision (Table 20.3); `took` is the slot chosen, none for an idle slot. -/
def Hub.decRecord (h : Hub) (t : Nat) (took : Option Nat) : PmcDec :=
  let tc := took.elim 0 fun s => (h.ctx s).tc
  { time := h.now
    tc := tc
    idle := took.isNone
    slot := took.getD 0
    cdef := took.elim 0 fun _ => (h.tport t).cdef.getD tc 0
    fdef := took.elim 0 fun s => (h.ft s t).elim 0 fun (f : FlowTgt) => f.deficit
    gates := h.gatesNow t
    pending := (List.range 8).foldl (fun m c => if h.pendC t c = 0 then m else m + 2 ^ c) 0
    kitty := h.counts.kitty.toNat
    pend := h.pendTotal t }

/-- EGRESS_DECISION (R229): a port can accept a unit. A replay that runs on a link port sends its next cell (R144);
else TSS chooses a unit, which leaves, or makes an idle slot. `ecc` names the cell of the unit at whose read an
uncorrectable error is found. -/
def execEgressDecision (t : EgressNo) (ecc : Option Nat) (s : State) : Answer :=
  actT s (s.hub.mainUp && portPresent s.hub.straps t) fun h =>
    if isLinkPort t && (h.link t).replay.isSome && (decide (h.klState t ≤ 5 ∧ 2 ≤ h.klState t) || decide (h.klState t = 8)) then h.resend t ecc.isSome
    else
      let h := h.skipFailed t
      match h.decision t with
      | (h, none) => (h.pmcEvent 0x05 t 0).pmcDecision t (h.decRecord t none)
      | (h, some sl) =>
        let h := h.leave sl t ecc
        h.pmcDecision t (h.decRecord t (some sl))

end Sys2Proof.Machine
end

