-- ==== Sys2Proof/Machine/Ecc.lean ====
section
/-! DEFINITION. Events of fault sources that reach the hub as such (R465), and what an uncorrectable memory error does where it lies
(R185, R220, R241, R495). -/

namespace Sys2Proof.Machine

/-- An uncorrectable error in a context slot (R220): its cells are discarded but for those that a replay holds, counted by cell in
TSC_DROP_LOST, and the slot is FREE; a flow that no write-back can bring back is CTX_LOST until it is created again. -/
def Hub.slotLost (h : Hub) (s : Nat) : Hub :=
  let c := h.ctx s
  let mine := fun (o : OpenFrame) => match o.fate with
    | .admitted t _ | .reseq t _ => decide (t = s)
    | _ => false
  let open' := ((h.opens.filter mine).flatMap fun (o : OpenFrame) => o.cells.filter (h.ofFrame o)).filter fun j => !c.list.contains j
  let loose := (open' ++ c.held.flatMap fun (f : HeldFrame) => f.cells).dedup
  let n := ((c.list ++ loose).filter fun j => (h.cell j).elim false fun (x : CellSt) => decide (x.repl = 0)).length
  let h := { h with opens := h.opens.filter fun o => !mine o }
  let h := (h.dropUnread s c.list (2 ^ 18 - 1)).freeCells loose
  let h := h.inc Reg.TSC_DROP_LOST n
  let h := if c.pin || !h.storeOn then h.updPaging fun p => { p with lost := p.lost ++ [c.handle] } else h
  h.freeSlotAt s

/-- The address at which a bin reads (R497). -/
def binAddr (frozen : Bool) (n b : Nat) : Nat := (if frozen then 0x112000 else 0x110000) + 0x100 * n + 4 * b

/-- A bin or counter word reads 0xFFFF_FFFF from now on (R495). -/
def Hub.memBad (h : Hub) (a : Nat) : Hub := h.updPmc fun x => { x with bad := x.bad ++ [a] }

/-- What an uncorrectable memory error does besides its fault event. -/
def Hub.eccAt (h : Hub) (b : Block) (i : Nat) : EccAt → Hub
  | .slot s => if b = .fcm ∧ i = 4 ∧ (h.ctx s).state ≠ .free then h.slotLost s else h
  | .ledger => h
  | .gate t bank e =>
    if b = .tss ∧ i = 2 then (h.updTport t fun p => { p with badEntry := p.badEntry ++ [(bank, e.val)] }).showGate t else h
  | .counter n => if b = .pmc ∧ i = 1 then h.memBad (0x103000 + 8 * n) else h
  | .bank lb => if b = .tsc ∧ (i = 3 ∨ i = 4) then h.autoCondemn lb else h
  | .desc c =>
    if b = .tsc ∧ i = 4 then (h.updCell c.toNat fun x => { x with poison := true }).autoCondemn (c.toNat / 2048) else h
  | .corrected lb =>
    if b = .tsc then
      let l := (h.banks.errs.filter fun e => h.mono < e.2 + 1000000000) ++ [(lb.val, h.mono)]
      let h := { h with banks := { h.banks with errs := l } }
      if 16 < (l.filter fun e => e.1 = lb.val).length then h.autoCondemn lb else h
    else h
  | .bin f n k => if b = .pmc ∧ i = 0 then h.memBad (binAddr f n k) else h

/-- FAULT_EVENT (R465): an event of source i of a block; `live` sets or clears the live bit of a source that Table 19.4 gives a live
condition; `ecc` says where the memory error lies that is the event, or that corrected errors have condemned a bank. -/
def execFaultEvent (b : Block) (i : Nat) (live : Option Bool) (ecc : Option EccAt) (s : State) : Answer :=
  actT s (s.hub.answers b && decide (i < nSources b)) fun h =>
    let h := match ecc with
      | some (.corrected _) => h.updHdr b fun x => { x with corrected := x.corrected + 1 }
      | _ => h.fault b i
    let h := match ecc with
      | some (.corrected _) => h
      | _ => if b = .tsc ∧ i = 1 then (h.wrB Reg.TSC_LEDGER_STAT 2 true).setLive .tsc 1 true else h
    let h := match live with
      | some v => if ((fltCatalogue b).getD i (0, false, false)).2.2 then h.setLive b i v else h
      | none => h
    match ecc with
    | some e => h.eccAt b i e
    | none => h

end Sys2Proof.Machine
end

