-- ==== Sys2Proof/Machine/PpcTick.lean ====
section
/-! DEFINITION. The commands of the power ports (R404–R418): the tick, its events each by itself, PC_CTRL, and the wake source PWR. -/

namespace Sys2Proof.Machine

/-- PWR asserts as a VIN enters or leaves its window, or a presence changes (Table 17.7). -/
def Hub.pwrWake (old h : Hub) : Hub :=
  if (List.range 6).any fun n => (old.chan n).inWin != (h.chan n).inWin || old.rdB (Reg.PC_STAT n) 6 != h.rdB (Reg.PC_STAT n) 6 then
    h.wakeEvent 1
  else h

/-- PPC_TICK (R405): one tick with each channel's samples, in channel order. -/
def execPpcTick (samples : List PpcSample) (s : State) : Answer :=
  act s (s.hub.up .ppc) fun h => h.pwrWake ((samples.take 6).zipIdx.foldl (fun h e => h.pcTick e.2 e.1) h)

/-! ### The events of a tick, each by itself

Each is what the next tick does when its count is one short (R405). (Log entry 38, DEDUCED.) -/

/-- FAST_TRIP (R408): the gate is pulled low at once; the next tick records the trip. -/
def execFastTrip (n : Fin 6) (s : State) : Answer :=
  act s (s.hub.up .ppc && s.hub.pcDriven n) fun h => h.updChan n fun x => { x with fast := true }

/-- A trip in the tick that records a fast trip has the fast trip's cause, the lowest code (Table 16.3, R420). -/
def Hub.pcTrips (h : Hub) (n cause : Nat) : Hub := h.pcTripped n (if (h.chan n).fast then 1 else cause)

/-- TIMER_TRIP (R407). -/
def execTimerTrip (n : Fin 6) (s : State) : Answer :=
  act s (s.hub.up .ppc && s.hub.pcDriven n && decide (s.hub.pcFault n ≤ (s.hub.chan n).timer + 1)) fun h =>
    h.pcTrips n (h.pcState n)

/-- GATE_FAULT (R409). -/
def execGateFault (n : Fin 6) (s : State) : Answer :=
  act s (s.hub.up .ppc && decide (s.hub.pcState n = 3) && decide (10 ≤ (s.hub.chan n).underTicks + 1)) fun h => h.pcTrips n 6

/-- The temperature input has been out of its range for 10 ticks: a driven channel that uses it trips (R412). -/
def Hub.pcSensor (h : Hub) (n : Fin 6) : Hub :=
  let h := h.updChan n fun x => { x with sensorBad := true, tempTicks := 10 }
  if h.pcDriven n && decide (h.rdF (Reg.PC_CFG n) 5 4 ≠ 0) then h.pcTrips n 5 else h

/-- TEMP_SENSOR_FAULT (R412). -/
def execTempSensorFault (n : Fin 6) (s : State) : Answer :=
  act s (s.hub.up .ppc && decide (10 ≤ (s.hub.chan n).tempTicks + 1)) fun h => h.pcSensor n

/-- RETRY_DELAY_EXPIRE (R404): RETRY_DELAY has passed; the channel ramps again once the FET is cool. -/
def execRetryDelayExpire (n : Fin 6) (s : State) : Answer :=
  act s (s.hub.up .ppc && decide (s.hub.pcState n = 4) && s.hub.pcCool n
    && decide (s.hub.pcDelay n ≤ (s.hub.chan n).waitTicks + 1)) fun h => h.pcRamp n

/-- BUDGET_RESTORE (R414). -/
def execBudgetRestore (n : Fin 6) (s : State) : Answer :=
  act s (s.hub.up .ppc && s.hub.rdB (Reg.PC_STAT n) 4 && decide (s.hub.pcHold n ≤ (s.hub.chan n).pgHeld + 1)) fun h => h.pcRestore n

/-- PG_ASSERT (R415): the count reaches PG_DELAY in a tick that is ok. -/
def execPgAssert (n : Fin 6) (s : State) : Answer :=
  act s (s.hub.up .ppc && decide (s.hub.pcState n = 3) && decide ((s.hub.chan n).timer = 0)
      && s.hub.pcVoutOk n (s.hub.rdF (Reg.PC_MEAS_V n) 31 16)
      && decide (s.hub.pcPgDelay n ≤ (s.hub.chan n).pgCount + 1)) fun h => h.setPg n true

/-- VIN has been out of its window for 5 ticks; a fast trip of the same tick is taken in its place (R417, R420). -/
def Hub.pcWindowOut (h : Hub) (n : Fin 6) : Hub :=
  let x := (h.wrB (Reg.PC_STAT n) 7 false).updChan n fun x => { x with inWin := false }
  h.pwrWake (if (h.chan n).fast then x.pcTripped n 1 else x.pcInputFault n)

/-- INPUT_WINDOW_FAULT (R417); a fast trip of the same tick is taken in its place (R420). -/
def execInputWindowFault (n : Fin 6) (s : State) : Answer :=
  act s (s.hub.up .ppc && s.hub.pcDriven n && decide (5 ≤ (s.hub.chan n).outTicks + 1)) fun h => h.pcWindowOut n

/-- VIN has been in its window for 0.1 s: the channel ramps (R404, R417). -/
def Hub.pcWindowIn (h : Hub) (n : Fin 6) : Hub :=
  h.pwrWake (((h.wrB (Reg.PC_STAT n) 7 true).updChan n fun x => { x with inWin := true }).pcRamp n)

/-- INPUT_WINDOW_RETURN (R404, R417). -/
def execInputWindowReturn (n : Fin 6) (s : State) : Answer :=
  act s (s.hub.up .ppc && decide (s.hub.pcState n = 6) && s.hub.pcCool n
      && decide (10000 ≤ (s.hub.chan n).inTicks + 1)) fun h => h.pcWindowIn n

/-- PRESENCE_CHANGE (R418). -/
def execPresenceChange (n : Fin 6) (s : State) : Answer :=
  act s (s.hub.up .ppc && decide (s.hub.pcState n = 1) && s.hub.rdB (Reg.PC_CFG n) 2
    && decide (s.hub.pcDetTime n ≤ (s.hub.chan n).detTicks + 1)) fun h => h.pwrWake (h.pcPresence n)

/-- PC_ON (R404, R405). -/
def execPcOn (n : Fin 6) (s : State) : Answer := act s (s.hub.up .ppc) fun h => h.pcWrite n 1

/-- PC_OFF (R404, R405). -/
def execPcOff (n : Fin 6) (s : State) : Answer := act s (s.hub.up .ppc) fun h => h.pcWrite n 2

/-- PC_CLEAR (R404, R405). -/
def execPcClear (n : Fin 6) (s : State) : Answer := act s (s.hub.up .ppc) fun h => h.pcWrite n 4

/-- TFET_MAX_CLR (R422). -/
def execTfetMaxClr (n : Fin 6) (s : State) : Answer := act s (s.hub.up .ppc) fun h => h.tfetClr n

end Sys2Proof.Machine
end

