-- ==== Sys2Proof/Machine/Remote.lean ====
section
/-! DEFINITION. The management paths: SPI and SMBus frames (R66), BAR0, BAR2 and the user alias (R65, R87, R88, R494), remote accesses
and block transfers (R86–R90). -/

namespace Sys2Proof.Machine

/-! ### SPI and SMBus (R66) -/

/-- Words of a frame go to consecutive addresses. -/
def Hub.writeWords (h : Hub) (p : Path) (a : Nat) : List Word → Hub
  | [] => h
  | w :: l => (h.writeWord p a w).writeWords p (a + 4) l

/-- A frame reads `n` words from consecutive addresses. -/
def Hub.readWords (h : Hub) (p : Path) : Nat → Nat → Hub × List Word
  | _, 0 => (h, [])
  | a, n + 1 =>
    let r := h.readWord p a
    let q := r.1.readWords p (a + 4) n
    (q.1, r.2 :: q.2)

/-- The SPI target answers while the main die runs (R45). -/
def Hub.spiUp (h : Hub) : Bool := h.mainUp

/-- SPI_READ_FRAME (R66): `n` data bytes from an address; their whole words go out on SPI_MISO. A frame that ends part-way through a
word is discarded: what its reads would have done besides is not done. (Log entry 50, DESIGN CHOICE.) -/
def execSpiReadFrame (a : BitVec 32) (n : Nat) (s : State) : Answer :=
  actReset s s.hub.spiUp fun h =>
    let r := h.fresh.readWords .spi a.toNat (n / 4)
    (if n % 4 = 0 then r.1 else h.fresh).emit (.words r.2)

/-- SPI_WRITE_FRAME (R66): whole words to consecutive addresses; a frame that ends part-way through a word (`cut`) is discarded. -/
def execSpiWriteFrame (a : BitVec 32) (ws : List Word) (cut : Bool) (s : State) : Answer :=
  actReset s (s.hub.spiUp && !cut) fun h => h.fresh.writeWords .spi a.toNat ws

/-- The SMBus target answers from the release of POR (Table 2.5). -/
def Hub.smbUp (h : Hub) : Bool := decide (h.power.phase ≠ .por)

/-- SMBus adds a PEC byte over its bytes where the request carried one. -/
def pecWords (pec : Option Byte) (l : List Byte) : List Word := if pec.isSome then [w32 (crc8 l).toNat] else []

/-- The PEC of a request, where it carries one, is right. -/
def pecGood (pec : Option Byte) (l : List Byte) : Bool := pec.elim true fun b => decide (crc8 l = b)

/-- The target's address byte: 0x58 + SMBADDR, with the R/W bit (Table 2.2). -/
def Hub.smbByte (h : Hub) (read : Bool) : Byte := BitVec.ofNat 8 (2 * (0x58 + h.straps.smbAddr.toNat) + b2n read)

/-- The bytes of a write by SMBus: address byte, command 0x10, count 8, four address bytes, four data bytes (Table 3.1). -/
def Hub.smbWriteBytes (h : Hub) (a v : Word) : List Byte :=
  h.smbByte false :: 0x10 :: 8 :: (beBytes 4 a.toNat ++ leBytes 4 v.toNat)

/-- The bytes of a read request by SMBus: address byte, command 0x11, count 4, four address bytes. -/
def Hub.smbReadBytes (h : Hub) (a : Word) : List Byte := h.smbByte false :: 0x11 :: 4 :: beBytes 4 a.toNat

/-- A STATE_REQ for RUN that arrives by SMBus is wake source 5 (Table 17.7). -/
def Hub.smbWake (h : Hub) (op : Nat) : Hub :=
  if op = 0x10 ∧ (h.mbx .pmu).args.getD 0 0 = 0 then settle h (h.wakeEvent 5) else h

/-- SMBUS_BLOCK_WRITE (R66): one word; a request whose PEC fails is not acted on and not acknowledged at its last byte. -/
def execSmbusBlockWrite (a v : Word) (pec : Option Byte) (s : State) : Answer :=
  actReset s s.hub.smbUp fun h =>
    if pecGood pec (h.smbWriteBytes a v) then
      let h := h.fresh.writeWord .smbus a.toNat v
      (if a.toNat = Block.pmu.base + 0x40 then h.smbWake (fld v 15 0) else h).emit (.smbAck true)
    else h.fresh.emit (.smbAck false)

/-- SMBUS_PROCESS_CALL (R66): one word; with a PEC in the request the response carries one. -/
def execSmbusProcessCall (a : Word) (pec : Option Byte) (s : State) : Answer :=
  actReset s s.hub.smbUp fun h =>
    if pecGood pec (h.smbReadBytes a) then
      let r := h.fresh.readWord .smbus a.toNat
      (r.1.emit (.smbAck true)).emit
        (.words (r.2 :: pecWords pec (h.smbReadBytes a ++ h.smbByte true :: 4 :: leBytes 4 r.2.toNat)))
    else h.fresh.emit (.smbAck false)

/-- MGMT_COMMAND_IGNORED (R66): any other command code does nothing; SPI_MISO stays high-impedance, and the SMBus target answers NACK at
the command byte. -/
def execMgmtCommandIgnored (p : Path) (code : Byte) (s : State) : Answer :=
  let smb := decide (p = .smbus) && code != 0x10 && code != 0x11
  act s (decide (p = .spi) && code != 0x0B && code != 0x02 || smb) fun h =>
    if smb && h.smbUp then h.emit (.smbAck false) else h

/-- A PMU request on SMBus wakes the hub where its command asks for that (R438); any other request leaves it. -/
def Hub.reqWake (h : Hub) (b : Block) (p : Path) (op : Nat) : Hub := if b = .pmu ∧ p = .smbus then h.smbWake op else h

/-- MAILBOX_REQ (R80): a REQ write reaches a block on a path. -/
def execMailboxReq (b : Block) (p : Path) (opcode : BitVec 16) (s : State) : Answer :=
  actReset s (s.hub.answers b && s.hub.pathOpen p) fun h =>
    (settle h (h.fresh.updMbx b fun m => m.request p opcode.toNat h.mono)).reqWake b p opcode.toNat

/-! ### Remote accesses (R87, R88) -/

/-- Change the remote window. -/
def Hub.updRemote (h : Hub) (f : Remote → Remote) : Hub := { h with remote := f h.remote }

/-- The hub that BAR2 reaches. -/
def Hub.remoteSel (h : Hub) : Nat := h.rdF Reg.STW_REMOTE_SEL 13 0

/-- The lowest free remote tag of the 32. -/
def Hub.remoteTag (h : Hub) : Option Nat := (List.range 32).find? fun t => (Tab.find h.remote.tags t).isNone

/-- The access takes a tag: it is a read, or a word of a block transfer, whose writes are acknowledged. -/
def RemoteReq.tagged (r : RemoteReq) : Bool := !decide (r.use = .write)

/-- A BAR2 read has ended (R88): LAST, and for a failure FAILS and REMOTE_RFAIL; the host reads 0xFFFF_FFFF then. -/
def Hub.remoteRead (h : Hub) (tag status : Nat) (v : Word) : Hub :=
  let h := h.wrF Reg.STW_REMOTE_STAT 1 0 status
  if status = 0 then h.pxCpl tag 0 false (leBytes 4 v.toNat)
  else ((h.incF Reg.STW_REMOTE_STAT 31 16).attn .stw 0).pxCpl tag 0 false (leBytes 4 0xFFFFFFFF)

/-- A read through the user alias has ended (R494): a failure reads 0 and advances FAILS. -/
def Hub.remoteUser (h : Hub) (tag status : Nat) (v : Word) : Hub :=
  if status = 0 then h.pxCpl tag 0 false (leBytes 4 v.toNat)
  else (h.incF Reg.STW_REMOTE_STAT 31 16).pxCpl tag 0 false (leBytes 4 0)

/-- A BAR2 write has failed (R88): counted, its address recorded if it is the first since the attention bit was cleared. -/
def Hub.remoteWriteFail (h : Hub) (a : Nat) : Hub :=
  let h := h.inc Reg.STW_REMOTE_WFAIL
  let h := if bit (h.hdr .stw).attnRaw 1 then h else h.wr Reg.STW_REMOTE_WADDR (w32 (a % 2 ^ 26))
  h.attn .stw 1

/-- The status of word k of a block transfer (R89, R90). -/
def Hub.blockStatus (h : Hub) (k status : Nat) : Hub :=
  h.wrF (Reg.STW_BLK_STATUS (k / 16)) (2 * (k % 16) + 1) (2 * (k % 16)) status

/-- Word k of the running block transfer has ended. -/
def Hub.blockWord (h : Hub) (k status : Nat) (write : Bool) (v : Word) : Hub :=
  let h := h.blockStatus k status
  let h := if status = 0 ∧ write = false then h.wr (Reg.STW_BLK_DATA k) v else h
  h.updRemote fun x => { x with
    left := x.left - 1
    okWords := if status = 0 then x.okWords + 1 else x.okWords
    firstBad := if status = 0 then x.firstBad else x.firstBad.orElse fun _ => some k }

/-- An access has ended with a status of Table 3.15. -/
def Hub.remoteEnd (h : Hub) (r : RemoteReq) (status : Nat) (v : Word) : Hub :=
  match r.use with
  | .read tag false => h.remoteRead tag status v
  | .read tag true => h.remoteUser tag status v
  | .write => if status = 0 then h else h.remoteWriteFail r.addr
  | .block k => h.blockWord k status r.write v

/-- An uncorrectable memory error lies at the register (Table 3.15): a bin or counter that has lost its word (R495), or a gate entry that is
held bad (R241). -/
def Hub.wordBad (h : Hub) (a : Nat) : Bool :=
  let pg := pageOf a
  let off := a % 0x1000
  h.pmc.bad.contains a || (decide (a / 0x800 = 0x206 ∨ a / 0x800 = 0x20A) && h.pmc.bad.contains (cntAddr off))
    || (decide (Block.at a = some .tss) && decide (0x40 ≤ pg ∧ pg < 0x52 ∧ off < 0x800)
        && (h.tport (pg - 0x40)).badEntry.contains (decide (0x400 ≤ off), off % 0x400 / 4))

/-- The message of an access: 0x0100 read and 0x0101 write: tag, flags (bit 0 unprivileged, bit 1 acknowledge),
address, and for a write the data. (Log entry 16, PRESUMED.) -/
def Hub.remotePost (h : Hub) (r : RemoteReq) (tag : Nat) : Hub :=
  let flags := match r.use with
    | .read _ true => 1
    | .block _ => 2
    | _ => 0
  h.postHub r.hub (if r.write then 0x0101 else 0x0100)
    (beBytes 1 tag ++ beBytes 1 flags ++ beBytes 4 r.addr ++ (if r.write then beBytes 4 r.value.toNat else []))

/-- An access goes out, or fails at once where routing finds no path (R88, R130). -/
def Hub.remoteSend (h : Hub) (r : RemoteReq) : Hub :=
  match h.route r.hub with
  | none => h.remoteEnd r 1 0
  | some _ =>
    if r.tagged then
      match h.remoteTag with
      | none => h
      | some t => (h.updRemote fun x => { x with tags := Tab.put x.tags t { r with since := h.mono } }).remotePost r t
    else h.remotePost r 0

/-- The access can go out now. -/
def Hub.remoteFree (h : Hub) (r : RemoteReq) : Bool := !r.tagged || h.remoteTag.isSome || (h.route r.hub).isNone

/-- The next word of a block transfer, if none of its words is under way (R89). -/
def Hub.blockNext (h : Hub) : Option RemoteReq :=
  let own : RemoteReq → Bool := fun r => match r.use with
    | .block _ => true
    | _ => false
  if h.remote.left = 0 || h.remote.tags.any (fun e => own e.2) || h.remote.waiting.any own then none
  else
    let m := h.mbx .stw
    let k := (h.arg .stw 2).toNat - h.remote.left
    some {
      hub := (h.arg .stw 0).toNat
      addr := (h.arg .stw 1).toNat + 4 * k
      write := decide (m.op = 0x11)
      value := h.rd (Reg.STW_BLK_DATA k)
      since := h.mono
      use := .block k }

/-- Accesses that wait go out in order (R87), and the block transfer goes on (fuel). -/
def Hub.remoteRun (h : Hub) : Nat → Hub
  | 0 => h
  | n + 1 =>
    match h.remote.waiting with
    | r :: l =>
      if h.remoteFree r then ((h.updRemote fun x => { x with waiting := l }).remoteSend r).remoteRun n else h
    | [] =>
      match h.blockNext with
      | none => h
      | some r => (h.updRemote fun x => { x with waiting := [r] }).remoteRun n

/-- The block transfer has run over every word (Table 3.14): its result, ERR set if any word failed; ERR_CODE is open then among the
common codes 0x00 to 0x07 of Table 3.10.
(Log entry 25, DEDUCED.) -/
def Hub.blockEnd (h : Hub) : Hub :=
  let m := h.mbx .stw
  if m.busy && (decide (m.op = 0x10) || decide (m.op = 0x11)) && m.result.isNone && decide (h.remote.left = 0) then
    let bad := h.remote.firstBad
    let (w, h) := if bad.isSome then h.draw else (0, h)
    h.opResult .stw m.op {
      err := w.toNat % 8
      flag := bad.isSome
      data := [w32 h.remote.okWords, w32 (bad.getD 0xFFFFFFFF)] }
  else h

/-- Everything that can go on goes on. -/
def Hub.remoteGo (h : Hub) : Hub := (h.remoteRun (h.remote.waiting.length + 2 * h.remote.left + 2)).blockEnd

/-- An access joins the queue, which keeps the order of issue (R87). -/
def Hub.remoteAdd (h : Hub) (r : RemoteReq) : Hub := (h.updRemote fun x => { x with waiting := x.waiting ++ [r] }).remoteGo

/-- A BAR2 read of a word: an alias of BAR0 while STW_REMOTE_SEL is 0 (R86), else a remote read. -/
def Hub.bar2Read (h : Hub) (tag a : Nat) : Hub :=
  if h.remoteSel = 0 then
    let r := h.readWord .bar0 a
    r.1.pxCpl tag 0 false (leBytes 4 r.2.toNat)
  else settle h (h.tscWatch (h.remoteAdd ⟨h.remoteSel, a, false, 0, h.mono, .read tag false⟩))

/-- A BAR2 write of a word (R88). -/
def Hub.bar2Write (h : Hub) (a : Nat) (v : Word) : Hub :=
  if h.remoteSel = 0 then h.writeWord .bar0 a v
  else settle h (h.tscWatch (h.remoteAdd ⟨h.remoteSel, a, true, v, h.mono, .write⟩))

/-- The hub is a ROOT whose endpoint's link is up. -/
def Hub.hostLink (h : Hub) : Bool := decide (h.role = .root) && h.works .pxb && h.pxLink && h.mainUp

/-- BAR2_READ (R87). -/
def execBar2Read (tag : BitVec 8) (a : BitVec 26) (s : State) : Answer :=
  actReset s s.hub.hostLink fun h => h.fresh.bar2Read tag.toNat a.toNat

/-- BAR2_WRITE (R88). -/
def execBar2Write (a : BitVec 26) (v : Word) (s : State) : Answer :=
  actReset s s.hub.hostLink fun h => h.fresh.bar2Write a.toNat v

/-- A remote access is refused: it carries the unprivileged mark and is not a read of the counter window page while USER_EN is 1
(R494). -/
def Hub.refusesRemote (h : Hub) (a : Nat) (write user : Bool) : Bool :=
  user && (write || !(decide (a / 0x1000 = 0x103) && h.rdB Reg.PMC_CTL 0))

/-- The answer to a remote access (0x0102): tag, status, data. (Log entry 16, PRESUMED.) -/
def Hub.remoteAnswer (h : Hub) (src tag status : Nat) (v : Word) : Hub :=
  h.postHub src 0x0102 (beBytes 1 tag ++ beBytes 1 status ++ beBytes 4 v.toNat)

/-- REMOTE_ACCESS_RX (R87, R90, R494): an access of another hub is served on path BAR2, or refused; `value` is the data of a write,
and `ack` asks for its acknowledgement. A read is answered; so is a write that fails. -/
def execRemoteAccessRx (src : BitVec 14) (tag : Fin 32) (a : Word) (value : Option Word) (user ack : Bool) (s : State) : Answer :=
  actReset s (s.hub.mainUp && s.hub.pathOpen .bar2) fun h =>
    let h := h.fresh
    if h.refusesRemote a.toNat value.isSome user then settle h (h.tscWatch (h.remoteAnswer src.toNat tag 2 0))
    else
      match value with
      | some v =>
        let h := h.writeWord .bar2 a.toNat v
        if ack then settle h (h.tscWatch (h.remoteAnswer src.toNat tag 0 0)) else h
      | none =>
        let bad := h.wordBad a.toNat
        let r := h.readWord .bar2 a.toNat
        settle r.1 (r.1.tscWatch (r.1.remoteAnswer src.toNat tag (if bad then 3 else 0) r.2))

/-- REMOTE_ANSWER_RX (R88, R90): the answer under a tag; or, without one, the refusal of a posted write to an address. -/
def execRemoteAnswerRx (src : BitVec 14) (tag : Fin 32) (posted : Option (BitVec 26)) (status : BitVec 2) (v : Word) (s : State) :
    Answer :=
  actT s s.hub.mainUp fun h =>
    match posted with
    | some a => if status = 0 then h else h.remoteWriteFail a.toNat
    | none =>
      match Tab.find h.remote.tags tag with
      | none => h
      | some r =>
        if r.hub = src.toNat then
          ((h.updRemote fun x => { x with tags := Tab.del x.tags tag }).remoteEnd r status.toNat v).remoteGo
        else h

/-- STW_REMOTE_TMO as it acts, in µs (Table 3.13). -/
def Hub.remoteTmo (h : Hub) : Nat := clampN 10 100000 (h.rdF Reg.STW_REMOTE_TMO 16 0)

/-- REMOTE_READ_TIMEOUT (R88): STW_REMOTE_TMO has passed without an answer under a tag. -/
def execRemoteReadTimeout (tag : Fin 32) (s : State) : Answer :=
  actT s (s.hub.mainUp && (Tab.find s.hub.remote.tags tag).elim false fun r =>
      decide (r.since + 1000 * s.hub.remoteTmo ≤ s.hub.mono)) fun h =>
    match Tab.find h.remote.tags tag with
    | none => h
    | some r => ((h.updRemote fun x => { x with tags := Tab.del x.tags tag }).remoteEnd r 1 0).remoteGo

/-! ### Block transfers (R89) -/

/-- The arguments of a block transfer are in range: a hub ID, a count of 1 to 256, and a range inside one block. -/
def Hub.blockArgs (h : Hub) : Bool :=
  let a := (h.arg .stw 1).toNat
  let n := (h.arg .stw 2).toNat
  decide ((h.arg .stw 0).toNat < 0x4000) && decide (1 ≤ n ∧ n ≤ 256) && decide (a / 0x100000 = (a + 4 * n - 1) / 0x100000)

/-- A word of a transfer whose hub ID is 0, this hub, on the steward's own path. -/
def Hub.blockLocal (h : Hub) (write : Bool) (a k : Nat) : Hub :=
  if write then (h.writeWord .steward (a + 4 * k) (h.rd (Reg.STW_BLK_DATA k))).blockWord k 0 true 0
  else
    let bad := h.wordBad (a + 4 * k)
    let r := h.readWord .steward (a + 4 * k)
    r.1.blockWord k (if bad then 3 else 0) false r.2

/-- A block transfer starts (Table 3.14), as a steward cycle. -/
def Hub.blockStart (h : Hub) (write : Bool) : Hub :=
  if !h.blockArgs then settle h (h.opResult .stw (if write then 0x11 else 0x10) (mbxErr 0x02))
  else
    let n := (h.arg .stw 2).toNat
    let g := h.updRemote fun x => { x with okWords := 0, firstBad := none, left := n }
    if g.arg .stw 0 = 0 then
      ((List.range n).foldl (fun h k => h.blockLocal write (h.arg .stw 1).toNat k) g).blockEnd
    else settle h (h.tscWatch g.remoteGo)

/-- REMOTE_READ_BLOCK (R89). -/
def execRemoteReadBlock (s : State) : Answer :=
  actReset s (s.hub.opRunning .stw 0x10 && decide (s.hub.remote.left = 0)) fun h => h.fresh.blockStart false

/-- REMOTE_WRITE_BLOCK (R89). -/
def execRemoteWriteBlock (s : State) : Answer :=
  actReset s (s.hub.opRunning .stw 0x11 && decide (s.hub.remote.left = 0)) fun h => h.fresh.blockStart true

/-! ### The user alias and the host's requests (R65, R357, R494) -/

/-- The top 4 KiB page of BAR4 (R357, R494). -/
def Hub.aliasPage (h : Hub) (a : Nat) : Bool :=
  decide (h.role = .root) && decide (a / 0x1000 = 2 ^ h.pxb.bar4 / 0x1000 - 1)

/-- A read of a word of the counter window page by unprivileged software (R494). -/
def Hub.userRead (h : Hub) (tag off : Nat) : Hub :=
  let a := 0x103000 + off % 0x1000
  if h.remoteSel = 0 then
    if h.rdB Reg.PMC_CTL 0 then
      let r := h.readWord .bar0 a
      r.1.pxCpl tag 0 false (leBytes 4 r.2.toNat)
    else h.pxCpl tag 0 false (leBytes 4 0)
  else settle h (h.tscWatch (h.remoteAdd ⟨h.remoteSel, a, false, 0, h.mono, .read tag true⟩))

/-- USER_ALIAS_READ (R494). -/
def execUserAliasRead (tag : BitVec 8) (off : BitVec 12) (s : State) : Answer :=
  actReset s s.hub.hostLink fun h => h.fresh.userRead tag.toNat off.toNat

/-- A request covers one whole dword. -/
def oneWord (r : PcieReq) : Bool := decide (r.len = 4) && decide (r.fbe = 0xF) && decide (r.addr % 4 = 0)

/-- A request to a BAR of registers (R9, R65): more than one dword is an Unsupported Request; part of a dword reads 0 and writes
nothing. (Log entry 25, DEDUCED.) -/
def Hub.barTake (h : Hub) (r : PcieReq) (rd : Hub → Nat → Nat → Hub) (wr : Hub → Nat → Word → Hub) : Hub :=
  if 4 < r.len then (if r.write then h else h.pxCpl r.tag 1 false [])
  else if !oneWord r then (if r.write then h else h.pxCpl r.tag 0 false (leBytes 4 0))
  else if r.write then wr h r.addr (w32 (leVal (r.data.take 4)))
  else rd h r.tag r.addr

/-- A BAR0 read. -/
def Hub.bar0Read (h : Hub) (tag a : Nat) : Hub :=
  let r := h.readWord .bar0 a
  r.1.pxCpl tag 0 false (leBytes 4 r.2.toNat)

/-- A request of the PCIe host is taken: an access through BAR0, BAR2 or an alias page, or one through a window of BAR4 (R357, R363, R365). -/
def Hub.pcieIn (h : Hub) (r : PcieReq) : Hub :=
  let h := h.fresh
  if h.role = .root ∧ r.bar = 0 then h.barTake r Hub.bar0Read fun h a v => h.writeWord .bar0 a v
  else if h.role = .root ∧ r.bar = 2 then h.barTake r Hub.bar2Read Hub.bar2Write
  else if h.aliasPage r.addr then h.barTake r Hub.userRead fun h _ _ => h
  else settle h (h.tscWatch (h.pxTake r))

/-- PCIE_REQUEST_RX (R65, R357): at a ROOT, BAR0 is the register space, BAR2 the remote window, BAR4 the user alias and the windows;
at a LEAF every request goes to the windows. -/
def execPcieRequestRx (r : PcieReq) (s : State) : Answer :=
  actReset s (s.hub.works .pxb && s.hub.pxLink && s.hub.mainUp) fun h => h.pcieIn r

end Sys2Proof.Machine
end

