-- ==== Sys2Proof/Machine/Dispatch.lean ====
section
/-! DEFINITION. The meaning of each command: one arm per constructor of Instr, in the table's order. -/

namespace Sys2Proof.Machine

/-- The command's effect on everything but the queue. -/
def exec (i : Instr) (s : State) : Host.Outcome State Fault Refusal :=
  match i with
  | .porAssert vbatLost => Sys2Proof.Machine.execPorAssert vbatLost s
  | .porRelease straps => Sys2Proof.Machine.execPorRelease straps s
  | .xtalSwitchover => Sys2Proof.Machine.execXtalSwitchover s
  | .xtalStartTimeout => Sys2Proof.Machine.execXtalStartTimeout s
  | .coreEnAssert => Sys2Proof.Machine.execCoreEnAssert s
  | .coreConfirm modeOk => Sys2Proof.Machine.execCoreConfirm modeOk s
  | .mainDieRelease => Sys2Proof.Machine.execMainDieRelease s
  | .vddCoreEarly => Sys2Proof.Machine.execVddCoreEarly s
  | .supplyFault r => Sys2Proof.Machine.execSupplyFault r s
  | .supplyRestart => Sys2Proof.Machine.execSupplyRestart s
  | .resetNPulse => Sys2Proof.Machine.execResetNPulse s
  | .tempHigh tj => Sys2Proof.Machine.execTempHigh tj s
  | .thermalTrip tj => Sys2Proof.Machine.execThermalTrip tj s
  | .thermalTripRelease tj => Sys2Proof.Machine.execThermalTripRelease tj s
  | .pmbusRetry => Sys2Proof.Machine.execPmbusRetry s
  | .ppsInEdge => Sys2Proof.Machine.execPpsInEdge s
  | .ppsOutRise => Sys2Proof.Machine.execPpsOutRise s
  | .ppsOutFall => Sys2Proof.Machine.execPpsOutFall s
  | .refclkDetect r => Sys2Proof.Machine.execRefclkDetect r s
  | .refclkLoss r => Sys2Proof.Machine.execRefclkLoss r s
  | .cosourceWindowEnd good => Sys2Proof.Machine.execCosourceWindowEnd good s
  | .clockRequest b => Sys2Proof.Machine.execClockRequest b s
  | .clockGrant b => Sys2Proof.Machine.execClockGrant b s
  | .idleHoldExpire b => Sys2Proof.Machine.execIdleHoldExpire b s
  | .blockReset b => Sys2Proof.Machine.execBlockReset b s
  | .registerWrite p a v => Sys2Proof.Machine.execRegisterWrite p a v s
  | .arbModeWrite b mode => Sys2Proof.Machine.execArbModeWrite b mode s
  | .attnRawClear b v setNow => Sys2Proof.Machine.execAttnRawClear b v setNow s
  | .fltStickyClear b v event => Sys2Proof.Machine.execFltStickyClear b v event s
  | .commitArm b => Sys2Proof.Machine.execCommitArm b s
  | .commitDiscard b => Sys2Proof.Machine.execCommitDiscard b s
  | .commitApply b inst ago => Sys2Proof.Machine.execCommitApply b inst ago s
  | .mailboxReq b p opcode => Sys2Proof.Machine.execMailboxReq b p opcode s
  | .mailboxComplete b => Sys2Proof.Machine.execMailboxComplete b s
  | .resAck b ticket => Sys2Proof.Machine.execResAck b ticket s
  | .nop b => Sys2Proof.Machine.execNop b s
  | .spiReadFrame a n => Sys2Proof.Machine.execSpiReadFrame a n s
  | .spiWriteFrame a ws cut => Sys2Proof.Machine.execSpiWriteFrame a ws cut s
  | .smbusBlockWrite a v pec => Sys2Proof.Machine.execSmbusBlockWrite a v pec s
  | .smbusProcessCall a pec => Sys2Proof.Machine.execSmbusProcessCall a pec s
  | .mgmtCommandIgnored p code => Sys2Proof.Machine.execMgmtCommandIgnored p code s
  | .bar2Read tag a => Sys2Proof.Machine.execBar2Read tag a s
  | .bar2Write a v => Sys2Proof.Machine.execBar2Write a v s
  | .remoteAccessRx src tag a value user ack => Sys2Proof.Machine.execRemoteAccessRx src tag a value user ack s
  | .remoteAnswerRx src tag posted status v => Sys2Proof.Machine.execRemoteAnswerRx src tag posted status v s
  | .remoteReadTimeout tag => Sys2Proof.Machine.execRemoteReadTimeout tag s
  | .remoteReadBlock => Sys2Proof.Machine.execRemoteReadBlock s
  | .remoteWriteBlock => Sys2Proof.Machine.execRemoteWriteBlock s
  | .laneAssign => Sys2Proof.Machine.execLaneAssign s
  | .laneRelease => Sys2Proof.Machine.execLaneRelease s
  | .laneRepair => Sys2Proof.Machine.execLaneRepair s
  | .laneUnmap lock errs bits => Sys2Proof.Machine.execLaneUnmap lock errs bits s
  | .autoRepairStart l grew => Sys2Proof.Machine.execAutoRepairStart l grew s
  | .repairReqRx p logical => Sys2Proof.Machine.execRepairReqRx p logical s
  | .repairReadyRx p status => Sys2Proof.Machine.execRepairReadyRx p status s
  | .repairSwitchRx p logical marker => Sys2Proof.Machine.execRepairSwitchRx p logical marker s
  | .laneMove => Sys2Proof.Machine.execLaneMove s
  | .repairTimeout => Sys2Proof.Machine.execRepairTimeout s
  | .laneRelock l => Sys2Proof.Machine.execLaneRelock l s
  | .lnSlip l count => Sys2Proof.Machine.execLnSlip l count s
  | .lnShWinWrite l v => Sys2Proof.Machine.execLnShWinWrite l v s
  | .shWindowEnd l errors => Sys2Proof.Machine.execShWindowEnd l errors s
  | .blockLockGain l => Sys2Proof.Machine.execBlockLockGain l s
  | .blockLockLoss l => Sys2Proof.Machine.execBlockLockLoss l s
  | .deskewComplete p late => Sys2Proof.Machine.execDeskewComplete p late s
  | .ppmAlarm l ppm => Sys2Proof.Machine.execPpmAlarm l ppm s
  | .signalDetect l => Sys2Proof.Machine.execSignalDetect l s
  | .laneWake l ok => Sys2Proof.Machine.execLaneWake l ok s
  | .patCfgWrite l v => Sys2Proof.Machine.execPatCfgWrite l v s
  | .lnLoopWrite l v => Sys2Proof.Machine.execLnLoopWrite l v s
  | .injectOne l => Sys2Proof.Machine.execInjectOne l s
  | .patErrClr l => Sys2Proof.Machine.execPatErrClr l s
  | .checkerLock l errs bits => Sys2Proof.Machine.execCheckerLock l errs bits s
  | .klAligned p => Sys2Proof.Machine.execKlAligned p s
  | .klRetrain p => Sys2Proof.Machine.execKlRetrain p s
  | .klDown p => Sys2Proof.Machine.execKlDown p s
  | .linkEnterAlign p => Sys2Proof.Machine.execLinkEnterAlign p s
  | .helloRx p body => Sys2Proof.Machine.execHelloRx p body s
  | .helloResend p => Sys2Proof.Machine.execHelloResend p s
  | .hubIdWrite v => Sys2Proof.Machine.execHubIdWrite v s
  | .authCertRx p body => Sys2Proof.Machine.execAuthCertRx p body s
  | .authKexRx p body => Sys2Proof.Machine.execAuthKexRx p body s
  | .authFinRx p codeGood digest => Sys2Proof.Machine.execAuthFinRx p codeGood digest s
  | .authTimeout p => Sys2Proof.Machine.execAuthTimeout p s
  | .creditAdvRx p adv => Sys2Proof.Machine.execCreditAdvRx p adv s
  | .cellRx p header data cut => Sys2Proof.Machine.execCellRx p header data cut s
  | .macBlockRx p code => Sys2Proof.Machine.execMacBlockRx p code s
  | .creditBlockRx p hi nak ack ret crcGood => Sys2Proof.Machine.execCreditBlockRx p hi nak ack ret crcGood s
  | .creditBlockSend p => Sys2Proof.Machine.execCreditBlockSend p s
  | .replayTimeout p => Sys2Proof.Machine.execReplayTimeout p s
  | .recoverComplete p => Sys2Proof.Machine.execRecoverComplete p s
  | .recoverTimeout p => Sys2Proof.Machine.execRecoverTimeout p s
  | .byeRx p reason => Sys2Proof.Machine.execByeRx p reason s
  | .idleRequest p => Sys2Proof.Machine.execIdleRequest p s
  | .idleReqRx p => Sys2Proof.Machine.execIdleReqRx p s
  | .idleAckRx p => Sys2Proof.Machine.execIdleAckRx p s
  | .idleNakRx p => Sys2Proof.Machine.execIdleNakRx p s
  | .linkWake p => Sys2Proof.Machine.execLinkWake p s
  | .timeExchangeStart => Sys2Proof.Machine.execTimeExchangeStart s
  | .timeReqRx p seq delay => Sys2Proof.Machine.execTimeReqRx p seq delay s
  | .timeMarkRx p seq => Sys2Proof.Machine.execTimeMarkRx p seq s
  | .timeRespRx p seq t2 f2 t3 f3 => Sys2Proof.Machine.execTimeRespRx p seq t2 f2 t3 f3 s
  | .timeExchangeMiss => Sys2Proof.Machine.execTimeExchangeMiss s
  | .peerCertRead => Sys2Proof.Machine.execPeerCertRead s
  | .ttExchangeNow => Sys2Proof.Machine.execTtExchangeNow s
  | .admitRetry idx => Sys2Proof.Machine.execAdmitRetry idx s
  | .reasmTimeout p flow => Sys2Proof.Machine.execReasmTimeout p flow s
  | .reseqTimeout sl => Sys2Proof.Machine.execReseqTimeout sl s
  | .bankCopyDone => Sys2Proof.Machine.execBankCopyDone s
  | .bankTestDone pass => Sys2Proof.Machine.execBankTestDone pass s
  | .bankCondemn => Sys2Proof.Machine.execBankCondemn s
  | .bankDrainComplete => Sys2Proof.Machine.execBankDrainComplete s
  | .descSweepDone idx slotGood => Sys2Proof.Machine.execDescSweepDone idx slotGood s
  | .ledgerCheckNow => Sys2Proof.Machine.execLedgerCheckNow s
  | .flowCounts => Sys2Proof.Machine.execFlowCounts s
  | .flowCountsClear => Sys2Proof.Machine.execFlowCountsClear s
  | .reseqState => Sys2Proof.Machine.execReseqState s
  | .flowCountsExit => Sys2Proof.Machine.execFlowCountsExit s
  | .kittyMinClr => Sys2Proof.Machine.execKittyMinClr s
  | .pendMaxClr p => Sys2Proof.Machine.execPendMaxClr p s
  | .flowCreate => Sys2Proof.Machine.execFlowCreate s
  | .flowPolicy => Sys2Proof.Machine.execFlowPolicy s
  | .flowPin => Sys2Proof.Machine.execFlowPin s
  | .flowUnpin => Sys2Proof.Machine.execFlowUnpin s
  | .flowDelete => Sys2Proof.Machine.execFlowDelete s
  | .flowRead => Sys2Proof.Machine.execFlowRead s
  | .flowEvict => Sys2Proof.Machine.execFlowEvict s
  | .pageInStart => Sys2Proof.Machine.execPageInStart s
  | .slotGrant => Sys2Proof.Machine.execSlotGrant s
  | .pageReadRx src req flow addr => Sys2Proof.Machine.execPageReadRx src req flow addr s
  | .pageWriteRx src req flow addr image => Sys2Proof.Machine.execPageWriteRx src req flow addr image s
  | .pageDataRx req status image => Sys2Proof.Machine.execPageDataRx req status image s
  | .pageWriteAckRx req status => Sys2Proof.Machine.execPageWriteAckRx req status s
  | .pageInTimeout req => Sys2Proof.Machine.execPageInTimeout req s
  | .writebackTimeout req => Sys2Proof.Machine.execWritebackTimeout req s
  | .foyerTimeout p => Sys2Proof.Machine.execFoyerTimeout p s
  | .pagePathHoldEnd => Sys2Proof.Machine.execPagePathHoldEnd s
  | .fyMaxClr p => Sys2Proof.Machine.execFyMaxClr p s
  | .fyWaitMaxClr p => Sys2Proof.Machine.execFyWaitMaxClr p s
  | .pageLatMaxClr => Sys2Proof.Machine.execPageLatMaxClr s
  | .egressDecision t ecc => Sys2Proof.Machine.execEgressDecision t ecc s
  | .shaperRefill => Sys2Proof.Machine.execShaperRefill s
  | .dealEpochBoundary => Sys2Proof.Machine.execDealEpochBoundary s
  | .dealPortDone t => Sys2Proof.Machine.execDealPortDone t s
  | .gateEntryEnd t => Sys2Proof.Machine.execGateEntryEnd t s
  | .gateArm t bank => Sys2Proof.Machine.execGateArm t bank s
  | .gateCancel t => Sys2Proof.Machine.execGateCancel t s
  | .gateEnWrite t on => Sys2Proof.Machine.execGateEnWrite t on s
  | .gateSwitch t => Sys2Proof.Machine.execGateSwitch t s
  | .gateBankWrite t bank r v => Sys2Proof.Machine.execGateBankWrite t bank r v s
  | .flowSchedRead => Sys2Proof.Machine.execFlowSchedRead s
  | .gateCheck => Sys2Proof.Machine.execGateCheck s
  | .pairSyncRx words autoTake hub => Sys2Proof.Machine.execPairSyncRx words autoTake hub s
  | .heartbeatTx => Sys2Proof.Machine.execHeartbeatTx s
  | .heartbeatRx seq ack ports => Sys2Proof.Machine.execHeartbeatRx seq ack ports s
  | .heartbeatMiss => Sys2Proof.Machine.execHeartbeatMiss s
  | .partnerLoss => Sys2Proof.Machine.execPartnerLoss s
  | .lostNoticeRx src lost port out => Sys2Proof.Machine.execLostNoticeRx src lost port out s
  | .reconcileDataRx port recs last => Sys2Proof.Machine.execReconcileDataRx port recs last s
  | .lostCountEnd => Sys2Proof.Machine.execLostCountEnd s
  | .mirrorBatchTx => Sys2Proof.Machine.execMirrorBatchTx s
  | .mirrorBatchRx seq since recs => Sys2Proof.Machine.execMirrorBatchRx seq since recs s
  | .handoverGiveRx groups ask => Sys2Proof.Machine.execHandoverGiveRx groups ask s
  | .handoverDrained g => Sys2Proof.Machine.execHandoverDrained g s
  | .handoverDrainedRx g => Sys2Proof.Machine.execHandoverDrainedRx g s
  | .handoverTimeout g => Sys2Proof.Machine.execHandoverTimeout g s
  | .pairFlowRead => Sys2Proof.Machine.execPairFlowRead s
  | .resync => Sys2Proof.Machine.execResync s
  | .handover => Sys2Proof.Machine.execHandover s
  | .mirLagClr => Sys2Proof.Machine.execMirLagClr s
  | .arbiterDecision b k reqs withdraw => Sys2Proof.Machine.execArbiterDecision b k reqs withdraw s
  | .arbWaitMaxClr b k => Sys2Proof.Machine.execArbWaitMaxClr b k s
  | .orderLogGrant => Sys2Proof.Machine.execOrderLogGrant s
  | .ologMark p v => Sys2Proof.Machine.execOlogMark p v s
  | .ologCfgWrite v => Sys2Proof.Machine.execOlogCfgWrite v s
  | .slewEnd => Sys2Proof.Machine.execSlewEnd s
  | .softAdjWrite v => Sys2Proof.Machine.execSoftAdjWrite v s
  | .timeLockTimeout => Sys2Proof.Machine.execTimeLockTimeout s
  | .timeSet => Sys2Proof.Machine.execTimeSet s
  | .timeStep => Sys2Proof.Machine.execTimeStep s
  | .dpLineRx idx l => Sys2Proof.Machine.execDpLineRx idx l s
  | .dpCellWrite o ecc => Sys2Proof.Machine.execDpCellWrite o ecc s
  | .rasterLineBoundary o => Sys2Proof.Machine.execRasterLineBoundary o s
  | .activeLineStart o ecc ovlEcc => Sys2Proof.Machine.execActiveLineStart o ecc ovlEcc s
  | .retimeSynthDone o => Sys2Proof.Machine.execRetimeSynthDone o s
  | .hpdUnplug o => Sys2Proof.Machine.execHpdUnplug o s
  | .hpdIrqRx o lockLost retrained => Sys2Proof.Machine.execHpdIrqRx o lockLost retrained s
  | .auxRequestRx idx r => Sys2Proof.Machine.execAuxRequestRx idx r s
  | .auxXfer replies => Sys2Proof.Machine.execAuxXfer replies s
  | .linkTrain cr ce swing sinkAsync => Sys2Proof.Machine.execLinkTrain cr ce swing sinkAsync s
  | .hpdIrq => Sys2Proof.Machine.execHpdIrq s
  | .csiFrameStart n vc back eccFix => Sys2Proof.Machine.execCsiFrameStart n vc back eccFix s
  | .csiFrameEnd n vc eccFix => Sys2Proof.Machine.execCsiFrameEnd n vc eccFix s
  | .csiLineRx n vc dt payload check => Sys2Proof.Machine.execCsiLineRx n vc dt payload check s
  | .csiGapTimeout n => Sys2Proof.Machine.execCsiGapTimeout n s
  | .triggerPulse n => Sys2Proof.Machine.execTriggerPulse n s
  | .triggerPulseEnd n => Sys2Proof.Machine.execTriggerPulseEnd n s
  | .triggerArm n => Sys2Proof.Machine.execTriggerArm n s
  | .triggerStop n => Sys2Proof.Machine.execTriggerStop n s
  | .trigArmMask mask => Sys2Proof.Machine.execTrigArmMask mask s
  | .ethFrameRx p frame fcsGood codeErr back frac ecc => Sys2Proof.Machine.execEthFrameRx p frame fcsGood codeErr back frac ecc s
  | .ethLinkDown p cut => Sys2Proof.Machine.execEthLinkDown p cut s
  | .ethLinkUp p speedBad => Sys2Proof.Machine.execEthLinkUp p speedBad s
  | .clsEntryWrite idx w v => Sys2Proof.Machine.execClsEntryWrite idx w v s
  | .mdioXfer answer => Sys2Proof.Machine.execMdioXfer answer s
  | .clsLookup ecc => Sys2Proof.Machine.execClsLookup ecc s
  | .pcieRequestRx r => Sys2Proof.Machine.execPcieRequestRx r s
  | .npReserveGrant => Sys2Proof.Machine.execNpReserveGrant s
  | .tagGrant => Sys2Proof.Machine.execTagGrant s
  | .bridgeFrameRx => Sys2Proof.Machine.execBridgeFrameRx s
  | .bridgeMarkMet => Sys2Proof.Machine.execBridgeMarkMet s
  | .bridgeMarkTimeout => Sys2Proof.Machine.execBridgeMarkTimeout s
  | .pcieCompletionRx tag status data => Sys2Proof.Machine.execPcieCompletionRx tag status data s
  | .bridgeCplRx => Sys2Proof.Machine.execBridgeCplRx s
  | .completionTimeout tag => Sys2Proof.Machine.execCompletionTimeout tag s
  | .tunnelTimeout r => Sys2Proof.Machine.execTunnelTimeout r s
  | .lateFrameRx => Sys2Proof.Machine.execLateFrameRx s
  | .msiCapture kind data => Sys2Proof.Machine.execMsiCapture kind data s
  | .gpioEdge n level => Sys2Proof.Machine.execGpioEdge n level s
  | .msgFrameRx => Sys2Proof.Machine.execMsgFrameRx s
  | .mqPop n => Sys2Proof.Machine.execMqPop n s
  | .fenceClr w => Sys2Proof.Machine.execFenceClr w s
  | .pfClr => Sys2Proof.Machine.execPfClr s
  | .prefetchAgeExpire w => Sys2Proof.Machine.execPrefetchAgeExpire w s
  | .pcieLinkDown => Sys2Proof.Machine.execPcieLinkDown s
  | .cfgXfer => Sys2Proof.Machine.execCfgXfer s
  | .usbAttach port speed => Sys2Proof.Machine.execUsbAttach port speed s
  | .usbOvercurrent port => Sys2Proof.Machine.execUsbOvercurrent port s
  | .usbPortResetDone port speed => Sys2Proof.Machine.execUsbPortResetDone port speed s
  | .u0Attach => Sys2Proof.Machine.execU0Attach s
  | .u0Detach vbus => Sys2Proof.Machine.execU0Detach vbus s
  | .usbHostTransaction addr ep tok crcGood => Sys2Proof.Machine.execUsbHostTransaction addr ep tok crcGood s
  | .usbSplitTransaction v dev ep isIn type start setup last data => Sys2Proof.Machine.execUsbSplitTransaction v dev ep isIn type start setup last data s
  | .leafDeviceTransaction dev ep isIn ans => Sys2Proof.Machine.execLeafDeviceTransaction dev ep isIn ans s
  | .tunnelBurstRx t => Sys2Proof.Machine.execTunnelBurstRx t s
  | .setupRecordRx t => Sys2Proof.Machine.execSetupRecordRx t s
  | .outRecordRx t => Sys2Proof.Machine.execOutRecordRx t s
  | .inRecordRx t => Sys2Proof.Machine.execInRecordRx t s
  | .resultRecordRx t => Sys2Proof.Machine.execResultRecordRx t s
  | .splitRecordRx t ans => Sys2Proof.Machine.execSplitRecordRx t ans s
  | .portCmdRx t => Sys2Proof.Machine.execPortCmdRx t s
  | .portStatRx t => Sys2Proof.Machine.execPortStatRx t s
  | .suspendRecordRx t => Sys2Proof.Machine.execSuspendRecordRx t s
  | .wakeRecordRx t => Sys2Proof.Machine.execWakeRecordRx t s
  | .tunnelResendTimeout t => Sys2Proof.Machine.execTunnelResendTimeout t s
  | .tunnelAckOnly t => Sys2Proof.Machine.execTunnelAckOnly t s
  | .tunnelKeepalive t => Sys2Proof.Machine.execTunnelKeepalive t s
  | .leafSof => Sys2Proof.Machine.execLeafSof s
  | .tunnelDead t => Sys2Proof.Machine.execTunnelDead t s
  | .usbSuspend => Sys2Proof.Machine.execUsbSuspend s
  | .usbHostResume => Sys2Proof.Machine.execUsbHostResume s
  | .usbRemoteWake port => Sys2Proof.Machine.execUsbRemoteWake port s
  | .usbResumeEnd port => Sys2Proof.Machine.execUsbResumeEnd port s
  | .usbBusReset hs => Sys2Proof.Machine.execUsbBusReset hs s
  | .tunRestart => Sys2Proof.Machine.execTunRestart s
  | .usbMqPop n => Sys2Proof.Machine.execUsbMqPop n s
  | .ppcTick samples => Sys2Proof.Machine.execPpcTick samples s
  | .fastTrip n => Sys2Proof.Machine.execFastTrip n s
  | .timerTrip n => Sys2Proof.Machine.execTimerTrip n s
  | .gateFault n => Sys2Proof.Machine.execGateFault n s
  | .tempSensorFault n => Sys2Proof.Machine.execTempSensorFault n s
  | .retryDelayExpire n => Sys2Proof.Machine.execRetryDelayExpire n s
  | .budgetRestore n => Sys2Proof.Machine.execBudgetRestore n s
  | .pgAssert n => Sys2Proof.Machine.execPgAssert n s
  | .inputWindowFault n => Sys2Proof.Machine.execInputWindowFault n s
  | .inputWindowReturn n => Sys2Proof.Machine.execInputWindowReturn n s
  | .presenceChange n => Sys2Proof.Machine.execPresenceChange n s
  | .pcOn n => Sys2Proof.Machine.execPcOn n s
  | .pcOff n => Sys2Proof.Machine.execPcOff n s
  | .pcClear n => Sys2Proof.Machine.execPcClear n s
  | .tfetMaxClr n => Sys2Proof.Machine.execTfetMaxClr n s
  | .stateReq board board2 wake => Sys2Proof.Machine.execStateReq board board2 wake s
  | .autoDozeEntry => Sys2Proof.Machine.execAutoDozeEntry s
  | .dozeExit => Sys2Proof.Machine.execDozeExit s
  | .wakeEvent src => Sys2Proof.Machine.execWakeEvent src s
  | .napExit kt voutOk pg => Sys2Proof.Machine.execNapExit kt voutOk pg s
  | .dormantExit kt a b spi => Sys2Proof.Machine.execDormantExit kt a b spi s
  | .napHoldEnd p => Sys2Proof.Machine.execNapHoldEnd p s
  | .aoBrownout straps => Sys2Proof.Machine.execAoBrownout straps s
  | .wakeTimerExpire => Sys2Proof.Machine.execWakeTimerExpire s
  | .wakeCmpCross level => Sys2Proof.Machine.execWakeCmpCross level s
  | .dvfsTargetWrite t => Sys2Proof.Machine.execDvfsTargetWrite t s
  | .dvfsStepComplete => Sys2Proof.Machine.execDvfsStepComplete s
  | .dvfsRaiseTimeout => Sys2Proof.Machine.execDvfsRaiseTimeout s
  | .dvfsHeldRelease => Sys2Proof.Machine.execDvfsHeldRelease s
  | .aoMeasure board => Sys2Proof.Machine.execAoMeasure board s
  | .pmuTempClr => Sys2Proof.Machine.execPmuTempClr s
  | .challenge => Sys2Proof.Machine.execChallenge s
  | .keyUpdate => Sys2Proof.Machine.execKeyUpdate s
  | .keyUpdateTimeout => Sys2Proof.Machine.execKeyUpdateTimeout s
  | .ownerClaim => Sys2Proof.Machine.execOwnerClaim s
  | .certRead => Sys2Proof.Machine.execCertRead s
  | .zeroize => Sys2Proof.Machine.execZeroize s
  | .provisionBegin => Sys2Proof.Machine.execProvisionBegin s
  | .provisionCert => Sys2Proof.Machine.execProvisionCert s
  | .keySealedRx src body => Sys2Proof.Machine.execKeySealedRx src body s
  | .challengeMsgRx src slot chal => Sys2Proof.Machine.execChallengeMsgRx src slot chal s
  | .tamperTrip cause => Sys2Proof.Machine.execTamperTrip cause s
  | .tampLoopEnable mask => Sys2Proof.Machine.execTampLoopEnable mask s
  | .vbatCheck low => Sys2Proof.Machine.execVbatCheck low s
  | .faultEvent b idx live ecc => Sys2Proof.Machine.execFaultEvent b idx live ecc s
  | .faultnPulseEnd => Sys2Proof.Machine.execFaultnPulseEnd s
  | .compactWindowEnd b idx => Sys2Proof.Machine.execCompactWindowEnd b idx s
  | .faultQuietEnd b => Sys2Proof.Machine.execFaultQuietEnd b s
  | .faultExit b => Sys2Proof.Machine.execFaultExit b s
  | .faultCountClear b => Sys2Proof.Machine.execFaultCountClear b s
  | .faultnLevelWrite level => Sys2Proof.Machine.execFaultnLevelWrite level s
  | .bankStepDue => Sys2Proof.Machine.execBankStepDue s
  | .sitTestRun t idx lock errs => Sys2Proof.Machine.execSitTestRun t idx lock errs s
  | .coverageLate => Sys2Proof.Machine.execCoverageLate s
  | .testNow result => Sys2Proof.Machine.execTestNow result s
  | .coverRestart => Sys2Proof.Machine.execCoverRestart s
  | .histBinUpdate n => Sys2Proof.Machine.execHistBinUpdate n s
  | .hSnap n => Sys2Proof.Machine.execHSnap n s
  | .hClr n => Sys2Proof.Machine.execHClr n s
  | .counterLoRead n => Sys2Proof.Machine.execCounterLoRead n s
  | .counterHiWrite n v => Sys2Proof.Machine.execCounterHiWrite n v s
  | .counterLoWrite n v => Sys2Proof.Machine.execCounterLoWrite n v s
  | .sampleCapture => Sys2Proof.Machine.execSampleCapture s
  | .bwWindowEnd t => Sys2Proof.Machine.execBwWindowEnd t s
  | .bwPeakRead t => Sys2Proof.Machine.execBwPeakRead t s
  | .bwTotalRead t => Sys2Proof.Machine.execBwTotalRead t s
  | .userAliasRead tag off => Sys2Proof.Machine.execUserAliasRead tag off s
  | .mhTimeLoRead => Sys2Proof.Machine.execMhTimeLoRead s
  | .stwTimeLoRead => Sys2Proof.Machine.execStwTimeLoRead s
  | .stwTimeStepLoRead => Sys2Proof.Machine.execStwTimeStepLoRead s
  | .stwPpsInLoRead => Sys2Proof.Machine.execStwPpsInLoRead s
  | .ledgerTimeLoRead => Sys2Proof.Machine.execLedgerTimeLoRead s
  | .lentBufLoRead => Sys2Proof.Machine.execLentBufLoRead s
  | .lossTimeLoRead => Sys2Proof.Machine.execLossTimeLoRead s
  | .doStartLoRead o => Sys2Proof.Machine.execDoStartLoRead o s
  | .fsTimeLoRead n => Sys2Proof.Machine.execFsTimeLoRead n s
  | .pfFirstLoRead => Sys2Proof.Machine.execPfFirstLoRead s
  | .tampTimeLoRead => Sys2Proof.Machine.execTampTimeLoRead s
  | .updCtrLoRead => Sys2Proof.Machine.execUpdCtrLoRead s
  | .snapTimeLoRead n => Sys2Proof.Machine.execSnapTimeLoRead n s
  | .firmwareLoad a b spi => Sys2Proof.Machine.execFirmwareLoad a b spi s
  | .vddCustRise => Sys2Proof.Machine.execVddCustRise s
  | .pmbPgLow => Sys2Proof.Machine.execPmbPgLow s
  | .elasticBufferSlip l fill => Sys2Proof.Machine.execElasticBufferSlip l fill s
  | .cdrLockLoss l => Sys2Proof.Machine.execCdrLockLoss l s
  | .hpdPlug o => Sys2Proof.Machine.execHpdPlug o s
  | .dpInputLinkLoss idx => Sys2Proof.Machine.execDpInputLinkLoss idx s
  | .pcieLinkUp speed width mps busMaster memSpace => Sys2Proof.Machine.execPcieLinkUp speed width mps busMaster memSpace s
  | .usbDeviceDetach port => Sys2Proof.Machine.execUsbDeviceDetach port s
  | .takeoverTimeout => Sys2Proof.Machine.execTakeoverTimeout s

end Sys2Proof.Machine
end

