-- ==== Sys2Proof/Machine/Step.lean ====
section
/-! DEFINITION. One step: the command at the front of the queue, or the passage of one steward cycle. -/

namespace Sys2Proof.Machine

/-- A step: the command at the front of the queue is executed with the queue's rest; on an empty queue the
hub idles. (Log entry 1, DESIGN CHOICE.) -/
def step (s : State) : Host.Outcome State Fault Refusal :=
  match s.pending with
  | [] => .next { s with hub := s.hub.idle }
  | c :: rest => exec c { s with pending := rest }

/-- `s` with the command that a word spells in front of its queue; the table gives its rows no bits, so no word
spells one and `s` is unchanged. (Log entry 3, DESIGN CHOICE.) -/
def State.withFetchWord (s : State) (nbits w : Nat) : State :=
  match decodeTableWord nbits w with
  | some c => { s with pending := c :: s.pending }
  | none => s

end Sys2Proof.Machine
end

