-- ==== Sys2Proof/Safety.lean ====
section
/-! DEFINITION. The words in which statements say what a command leaves alone. `Keeps` names the parts of the hub, the registers and
the block headers that a command may change; everything else is the same before and after. -/

namespace Sys2Proof.Machine

/-- The parts of the hub, apart from the registers in force, the headers, the order log's FIFOs, the masthead and what the
last command sent out. -/
inductive Part where
  | straps | pend | wide | ring | arbs | time | power | pins | lanes | repair | auto | repairMap | cells | counts | opens
  | foyers | waits | ctxs | paging | banks | links | xfer | fts | tports | pageq | tags | ksi | mir | dse | vin | eth
  | pxb | usb | ppc | pmc | sit | remote | free
  deriving DecidableEq, Repr

/-- The order log less the block FIFOs: its ring, its position and its counts. -/
def Olog.ringOnly (x : Olog) : Olog := { x with fifos := PerBlock.of fun _ => {} }

/-- A part is the same in two hubs. -/
def Part.same (p : Part) (h k : Hub) : Prop :=
  match p with
  | .straps => k.straps = h.straps
  | .pend => k.pend = h.pend
  | .wide => k.wide = h.wide
  | .ring => k.olog.ringOnly = h.olog.ringOnly
  | .arbs => k.arbs = h.arbs
  | .time => k.time = h.time
  | .power => k.power = h.power
  | .pins => k.pins = h.pins
  | .lanes => k.lanes = h.lanes
  | .repair => k.repair = h.repair
  | .auto => k.auto = h.auto
  | .repairMap => k.repairMap = h.repairMap
  | .cells => k.cells = h.cells
  | .counts => k.counts = h.counts
  | .opens => k.opens = h.opens
  | .foyers => k.foyers = h.foyers
  | .waits => k.waits = h.waits
  | .ctxs => k.ctxs = h.ctxs
  | .paging => k.paging = h.paging
  | .banks => k.banks = h.banks
  | .links => k.links = h.links
  | .xfer => k.xfer = h.xfer
  | .fts => k.fts = h.fts
  | .tports => k.tports = h.tports
  | .pageq => k.pageq = h.pageq
  | .tags => k.tags = h.tags
  | .ksi => k.ksi = h.ksi
  | .mir => k.mir = h.mir
  | .dse => k.dse = h.dse
  | .vin => k.vin = h.vin
  | .eth => k.eth = h.eth
  | .pxb => k.pxb = h.pxb
  | .usb => k.usb = h.usb
  | .ppc => k.ppc = h.ppc
  | .pmc => k.pmc = h.pmc
  | .sit => k.sit = h.sit
  | .remote => k.remote = h.remote
  | .free => k.free = h.free

/-- A header less POLL_SEQ and ENABLE, which every command's end keeps (R71, R12), and for PMU less KEEPAWAKE, which every
change of the keep-awake marks sets (Table 17.12). -/
def Hdr.body (b : Block) (x : Hdr) : Hdr :=
  { x with
    pollSeq := 0
    enable := false
    attnRaw := if b = .pmu then x.attnRaw ||| 16 else x.attnRaw }

/-- From hub `h` to hub `k` nothing changed but the listed parts, registers and headers: every other part, every register in
force at another address and every other header are as before. -/
structure Frame (h k : Hub) (parts : List Part) (regs : Set Nat) (blocks : List Block) : Prop where
  part : ∀ p, p ∉ parts → p.same h k
  reg : ∀ a, a ∉ regs → k.rd a = h.rd a
  hdr : ∀ b, b ∉ blocks → (k.hdr b).body b = (h.hdr b).body b

/-- From `s` to `t` nothing changed but the listed parts, registers and headers of the hub; the queue is as before. -/
def Keeps (s t : State) (parts : List Part) (regs : Set Nat) (blocks : List Block) : Prop :=
  t.pending = s.pending ∧ Frame s.hub t.hub parts regs blocks

/-- The ATTN_RAW bit `i` of a block (R71). -/
def Hub.raw (h : Hub) (b : Block) (i : Nat) : Bool := bit (h.hdr b).attnRaw i

/-- The registers of a block. -/
def blockRegs (b : Block) : Set Nat := { a | b.base ≤ a ∧ a < b.base + 0x100000 }

/-- The overflow flags that a counter's wrap sets (R491). -/
def pmcRegs : Set Nat := { a | ∃ i < 8, a = Reg.PMC_OVF i }

/-- The leads that TSS shows (R237). -/
def leadRegs : Set Nat := { a | ∃ t < 18, a = Reg.TS_LEAD t }

/-- The status registers of the lanes. -/
def laneStats : Set Nat := { a | ∃ l < 40, a = Reg.LN_STAT l }

/-- The registers of the trigger schedules that a step of cell time moves (R333). -/
def trigRegs : Set Nat := { a | ∃ n < 4, a = Reg.VN_STAT n ∨ a = Reg.VN_TRIG_CTL n ∨ a = Reg.VN_TRIG_SKIP n }

/-- What a frame that the hub itself sends or admits may change in the fabric (R166, R167): cells and their counts, contexts, the
scheduler's flow-target state, link credits, frames that wait, and what the fault pin and PMC show of it. -/
def sendParts : List Part := [.cells, .counts, .ctxs, .fts, .links, .pins, .pmc, .waits]

/-- The registers that go with `sendParts`. -/
def sendRegs : Set Nat := blockRegs .tsc ∪ {Reg.KLL_ROUTE_MISS, Reg.SIT_FAULTN_CNT} ∪ pmcRegs

/-- The headers that go with `sendParts`. -/
def sendBlocks : List Block := [.tsc, .kll, .pmc, .sit]

/-- Every part of the hub. -/
def allParts : List Part :=
  [.straps, .pend, .wide, .ring, .arbs, .time, .power, .pins, .lanes, .repair, .auto, .repairMap, .cells, .counts, .opens, .foyers,
    .waits, .ctxs, .paging, .banks, .links, .xfer, .fts, .tports, .pageq, .tags, .ksi, .mir, .dse, .vin, .eth, .pxb, .usb,
    .ppc, .pmc, .sit, .remote, .free]

/-- What a reset of the main die may change (Table 3.16): every part but the straps, the repair map, the key store and the
power ports, which lie on the custody die or in its store. -/
def mainParts : List Part := allParts.filter fun p => p ∉ [.straps, .repairMap, .ksi, .ppc, .free]

/-- The registers of the main die. -/
def mainRegs : Set Nat := { a | custodyReg a = false }

/-- A change of state of link port `p` is the port's own affair: it is T1 to T7 or a D port, it is not the time source (R151), no pair is
formed (R267), and the depth shown is the depth (R138). -/
def Hub.calm (h : Hub) (p : Nat) : Bool :=
  decide (1 ≤ p) && decide (p ≤ 7) && decide (h.ttSource ≠ some p) && !h.paired
    && decide (h.depthNow = h.rdF Reg.KLL_DEPTH 5 0)

/-- The registers that such a change of state moves. -/
def klRegs (p : Nat) : Set Nat := {Reg.KL_STATE p, Reg.KLL_PORT_UP, Reg.KLL_DEPTH}

/-- The state of one lane behind its registers. -/
def Hub.lane (h : Hub) (l : Nat) : LaneSt := Tab.get (fun _ => {}) h.lanes l

/-- What the PORT reset of a link port may change in the fabric (R91, R186): the cells, frames and credit of the port, and what counts
them; a running lane repair of the port ends. -/
def resetParts : List Part := [.cells, .counts, .ctxs, .fts, .tports, .opens, .foyers, .waits, .links, .repair, .pmc]

/-- The registers that go with it, with those of the change of state. -/
def resetRegs (p : Nat) : Set Nat := klRegs p ∪ {Reg.KL_REPLAY_STAT p} ∪ blockRegs .tsc ∪ pmcRegs

/-- No frame of a flow waits in a foyer. -/
def Hub.noFoyer (h : Hub) (flow : Nat) : Bool :=
  (List.range 22).all fun p => (h.foyer p).all fun (f : FoyFrame) => decide (f.flow ≠ flow)

/-- What a unit that leaves by its port may change in the fabric (R178, R229, R231): cells and what counts them, deficits, buckets and
flow-target state, link sequence and credit, and the measurements of PMC. -/
def exitParts : List Part := [.cells, .counts, .ctxs, .fts, .tports, .links, .pmc, .pins]

/-- The registers that go with `exitParts`. -/
def exitRegs : Set Nat := blockRegs .tsc ∪ blockRegs .tss ∪ blockRegs .pmc ∪ {Reg.SIT_FAULTN_CNT}

/-- The headers that go with `exitParts`. -/
def exitBlocks : List Block := [.tsc, .tss, .pmc, .sit]

/-- A frame of `n` bytes of a flow that enters at port `i` is admitted at once for all its targets into slot `k` (R165, R166): its context
is resident there without RESEQ, and no earlier frame of the flow waits. -/
def Hub.admits (h : Hub) (i flow n k : Nat) : Bool :=
  decide (h.lookup flow = .resident k) && !h.flowWaits i flow && !(h.ctx k).reseq && decide (0 < n)
    && (match h.verdict k i (h.ctx k).tc ((n + 255) / 256) with
      | .accept _ 0 => true
      | _ => false)

/-- The registers of USB's message queue (R397). -/
def mqRegs : Set Nat := { a | a = Reg.USB_MQ_STAT ∨ ∃ i < 128, a = Reg.USB_MQ i }

/-- A power channel with its gate off: its timer, its counts and its power-good counts start again (Table 16.2). -/
def PpcChan.gateOff (x : PpcChan) : PpcChan :=
  { x with
    timer := 0
    fast := false
    underTicks := 0
    outTicks := 0
    inTicks := 0
    waitTicks := 0
    detTicks := 0
    pgCount := 0
    pgHeld := 0 }

/-- The registers that a tick moves on power channel `n` (R405). -/
def pcRegs (n : Nat) : Set Nat :=
  {Reg.PC_STAT n, Reg.PC_MEAS_V n, Reg.PC_MEAS_I n, Reg.PC_TFET_MAX n, Reg.PC_RAMPS n, Reg.PC_TRIP_FAST n, Reg.PC_TRIP_TIMER n,
    Reg.PC_TRIP_THERM n, Reg.PC_TRIP_GATE n, Reg.PC_LATCHES n, Reg.PC_PG_RACE n, Reg.PC_INPUT_FLT n, Reg.PC_INSERT n}

/-- What holds of the hub after every step: ENABLE reads 0 in a block that the straps leave out (R12), and while the main die runs with
STW_OLOG_CFG.EN at 0 the block's event FIFO is empty (Table 10.8). -/
def Hub.Sound (h : Hub) : Prop :=
  ∀ b ∈ Block.all, ((h.hdr b).enable = true → h.present b = true)
    ∧ (h.mainUp = true → h.rdB Reg.STW_OLOG_CFG 0 = false → h.olog.fifos.get b = {})

/-- The command `c` answers a next state whose hub is `h`; the queue is as before. -/
def Runs (c : Instr) (s : State) (h : Hub) : Prop := exec c s = .next { s with hub := h }

/-- The command `c` answers a next state, in which `Q` holds and nothing but the listed parts, registers and headers has
changed. -/
def Ends (c : Instr) (s : State) (parts : List Part) (regs : Set Nat) (blocks : List Block) (Q : State → Prop) : Prop :=
  ∃ t, exec c s = .next t ∧ Keeps s t parts regs blocks ∧ Q t

end Sys2Proof.Machine
end

