-- ==== Sys2Proof/Certificates/Slice0/Obligations.lean ====
section
/-! DEFINITION. The statements for the provers. -/

open Sys2Proof Sys2Proof.Machine

/-- A read of the LO word of a latched pair latches its HI word: the pair's HI register takes bits 63:32 of the value, and
nothing else changes (R83, R187, R250, R271, R296, R321, R336, R376, R462, R497). -/
def Obligations.LatchedReads : Prop :=
  (∀ s : State, s.hub.mainUp = true →
    Ends .mhTimeLoRead s [] {Reg.MH_TIME_HI} [] (fun t => t.hub.rd Reg.MH_TIME_HI = hi32 s.hub.mh.time)
    ∧ Ends .stwTimeLoRead s [] {Reg.STW_TIME_HI} [] (fun t => t.hub.rd Reg.STW_TIME_HI = hi32 s.hub.time.ns)
    ∧ Ends .stwTimeStepLoRead s [] {Reg.STW_TIME_STEP_HI} []
        (fun t => t.hub.rd Reg.STW_TIME_STEP_HI = hi32 (s.hub.rdWide Reg.STW_TIME_STEP_LO))
    ∧ Ends .stwPpsInLoRead s [] {Reg.STW_PPS_IN_HI} []
        (fun t => t.hub.rd Reg.STW_PPS_IN_HI = hi32 (s.hub.rdWide Reg.STW_PPS_IN_LO))
    ∧ Ends .ledgerTimeLoRead s [] {Reg.TSC_LEDGER_TIME_HI} []
        (fun t => t.hub.rd Reg.TSC_LEDGER_TIME_HI = hi32 (s.hub.rdWide Reg.TSC_LEDGER_TIME_LO))
    ∧ Ends .lentBufLoRead s [] {Reg.TSS_LENT_BUF_HI} []
        (fun t => t.hub.rd Reg.TSS_LENT_BUF_HI = hi32 (s.hub.rdWide Reg.TSS_LENT_BUF_LO))
    ∧ ∀ n : Fin 32, Ends (.snapTimeLoRead n) s [] {Reg.H_SNAP_TIME_HI n} []
        (fun t => t.hub.rd (Reg.H_SNAP_TIME_HI n) = hi32 (s.hub.rdWide (Reg.H_SNAP_TIME_LO n))))
  ∧ (∀ s : State, s.hub.up .mir = true → Ends .lossTimeLoRead s [] {Reg.MIR_LOSS_TIME_HI} []
        (fun t => t.hub.rd Reg.MIR_LOSS_TIME_HI = hi32 (s.hub.rdWide Reg.MIR_LOSS_TIME_LO)))
  ∧ (∀ s : State, s.hub.up .dse = true → ∀ o : Fin 2, Ends (.doStartLoRead o) s [] {Reg.DO_START_HI o} []
        (fun t => t.hub.rd (Reg.DO_START_HI o) = hi32 (s.hub.rdWide (Reg.DO_START_LO o))))
  ∧ (∀ s : State, s.hub.up .vin = true → ∀ n : Fin 4, Ends (.fsTimeLoRead n) s [] {Reg.VN_FS_TIME_HI n} []
        (fun t => t.hub.rd (Reg.VN_FS_TIME_HI n) = hi32 (s.hub.rdWide (Reg.VN_FS_TIME_LO n))))
  ∧ (∀ s : State, s.hub.up .pxb = true → Ends .pfFirstLoRead s [] {Reg.PX_PF_FIRST_HI} []
        (fun t => t.hub.rd Reg.PX_PF_FIRST_HI = hi32 (s.hub.rdWide Reg.PX_PF_FIRST_LO)))
  ∧ (∀ s : State, s.hub.up .ksi = true →
    Ends .tampTimeLoRead s [] {Reg.KSI_TAMP_TIME_HI} []
        (fun t => t.hub.rd Reg.KSI_TAMP_TIME_HI = hi32 (s.hub.rdWide Reg.KSI_TAMP_TIME_LO))
    ∧ Ends .updCtrLoRead s [] {Reg.KSI_UPD_CTR_HI} []
        (fun t => t.hub.rd Reg.KSI_UPD_CTR_HI = hi32 (s.hub.rdWide Reg.KSI_UPD_CTR_LO)))

/-- Writes and reads that restart a count or a maximum: the register that each restarts, and nothing else changes (R108, R187, R223,
R271, R282, R371, R373, R422, R443, R493). -/
def Obligations.RestartedCounts : Prop :=
  (∀ s : State, s.hub.mainUp = true →
    Ends .kittyMinClr s [] {Reg.TSC_KITTY_MIN} [] (fun t =>
      t.hub.rd Reg.TSC_KITTY_MIN = setFld (s.hub.rd Reg.TSC_KITTY_MIN) 16 0 s.hub.counts.kitty.toNat)
    ∧ (∀ p : PortNo, Ends (.pendMaxClr p) s [] {Reg.TP_PEND_MAX p} [] (fun t =>
      t.hub.rd (Reg.TP_PEND_MAX p) = setFld (s.hub.rd (Reg.TP_PEND_MAX p)) 16 0 (s.hub.pendTotal p)))
    ∧ (∀ p : PortNo, Ends (.fyMaxClr p) s [] {Reg.FY_MAX p} [] (fun t =>
      t.hub.rd (Reg.FY_MAX p) = setFld (s.hub.rd (Reg.FY_MAX p)) 11 0 (s.hub.foyCells p)))
    ∧ (∀ p : PortNo, Ends (.fyWaitMaxClr p) s [] {Reg.FY_WAIT_MAX p} [] (fun t => t.hub.rd (Reg.FY_WAIT_MAX p) = 0))
    ∧ Ends .pageLatMaxClr s [] {Reg.FCM_PAGE_LAT_MAX} [] (fun t => t.hub.rd Reg.FCM_PAGE_LAT_MAX = 0)
    ∧ ∀ e : EgressNo,
      Ends (.bwPeakRead e) s [] {Reg.BW_PEAK e} [] (fun t =>
        t.hub.rd (Reg.BW_PEAK e) = 0 ∧ t.hub.out = [.words [s.hub.rd (Reg.BW_PEAK e)]])
      ∧ Ends (.bwTotalRead e) s [] {Reg.BW_TOTAL e} [] (fun t =>
        t.hub.rd (Reg.BW_TOTAL e) = 0 ∧ t.hub.out = [.words [s.hub.rd (Reg.BW_TOTAL e)]]))
  ∧ (∀ s : State, s.hub.up .mir = true → Ends .mirLagClr s [] {Reg.MIR_LAG} [] (fun t =>
      t.hub.rdF Reg.MIR_LAG 30 16 = 0 ∧ t.hub.rdF Reg.MIR_LAG 15 0 = s.hub.rdF Reg.MIR_LAG 15 0))
  ∧ (∀ s : State, s.hub.up .pmu = true → Ends .pmuTempClr s [] {Reg.PMU_TEMP} [] (fun t =>
      t.hub.rdF Reg.PMU_TEMP 15 0 = s.hub.rdF Reg.PMU_TEMP 15 0
      ∧ (s.hub.rdF Reg.PMU_TEMP 15 0 < 0x4000 → t.hub.rdF Reg.PMU_TEMP 30 16 = s.hub.rdF Reg.PMU_TEMP 15 0)))
  ∧ (∀ s : State, s.hub.up .ppc = true → ∀ n : Fin 6, Ends (.tfetMaxClr n) s [] {Reg.PC_TFET_MAX n} [] (fun t =>
      t.hub.rdF (Reg.PC_TFET_MAX n) 15 0 = (BitVec.ofInt 16 ((s.hub.chan n).tfet * 10 / 256)).toNat))
  ∧ (∀ s : State, s.hub.up .lnx = true → ∀ l : LaneNo,
      Ends (.patErrClr l) s [] {Reg.LN_PAT_ERR l, Reg.LN_PAT_BITS_LO l, Reg.LN_PAT_BITS_HI l} [] (fun t =>
        t.hub.rd (Reg.LN_PAT_ERR l) = 0 ∧ t.hub.rd (Reg.LN_PAT_BITS_LO l) = 0 ∧ t.hub.rd (Reg.LN_PAT_BITS_HI l) = 0))
  ∧ (∀ s : State, s.hub.up .pxb = true →
    (∀ w : Fin 8, Ends (.fenceClr w) s [] {Reg.PW_STAT w} [] (fun t => t.hub.rdB (Reg.PW_STAT w) 0 = false))
    ∧ Ends .pfClr s [.wide, .pxb] {Reg.PX_PF_DISCARD} [] (fun t =>
        t.hub.rd Reg.PX_PF_DISCARD = 0 ∧ t.hub.rdWide Reg.PX_PF_FIRST_LO = 0 ∧ t.hub.pxb = { s.hub.pxb with pfSet := false }
        ∧ ∀ a, a ≠ Reg.PX_PF_FIRST_LO → t.hub.rdWide a = s.hub.rdWide a))
  ∧ (∀ (s : State) (b : Block) (k : Nat), s.hub.arbUp b k = true →
    Ends (.arbWaitMaxClr b k) s [.arbs] {arbReg b k 0x30} [] (fun t =>
      t.hub.rd (arbReg b k 0x30) = 0 ∧ (∀ r, (t.hub.arb b k).losses.getD r 0 = 0)
      ∧ (t.hub.arb b k).steps = (s.hub.arb b k).steps ∧ (t.hub.arb b k).owner = (s.hub.arb b k).owner))

/-- Cell time (R289–R291, R293, R294): the end of a slew, an offset written by software, the loss of lock, an accepted PPS edge and the
PPS output, with what each leaves alone.
Its clauses rest on these choices of the model: log entries 15 and 46. -/
def Obligations.CellTime : Prop :=
  (∀ s : State, s.hub.mainUp = true → s.hub.time.p ≠ 0 →
    s.hub.time.slew.natAbs * 1000000000 ≤ 16 * (s.hub.time.p.natAbs * (s.hub.mono - s.hub.time.slewFrom)) →
    Ends .slewEnd s [.time] {Reg.STW_TIME_RATE, Reg.STW_TIME_STAT} [] (fun t =>
      t.hub.time = { s.hub.time with p := 0, slew := 0 }
      ∧ t.hub.rd Reg.STW_TIME_RATE = swordHold s.hub.time.f ∧ t.hub.rdB Reg.STW_TIME_STAT 3 = false))
  ∧ (∀ (s : State) (v : Word) (t0 w : Nat), s.hub.mainUp = true → s.hub.rdF Reg.STW_TIME_CFG 1 0 = 3 →
    s.hub.rdB Reg.STW_TIME_STAT 0 = true → s.hub.time.lastSoft = some t0 → w = s.hub.mono - t0 → 1000000 ≤ w →
    w ≤ 10000000000 → (sword v).natAbs ≤ 3200 → s.hub.rdB Reg.STW_TIME_CFG 2 = false →
    Ends (.softAdjWrite v) s [.time] {Reg.STW_TIME_OFS, Reg.STW_TIME_RATE, Reg.STW_TIME_STAT} [.stw] (fun t =>
      t.hub.rd Reg.STW_TIME_OFS = swordHold (sword v)
      ∧ t.hub.time.ns = s.hub.time.ns ∧ t.hub.time.frac = s.hub.time.frac ∧ t.hub.time.lastSoft = some s.hub.mono
      ∧ t.hub.time.f = clampI (-250000) 250000 (s.hub.time.f - sword v * 1000000000 / (16 * 8 * w))
      ∧ t.hub.time.p = clampI (-(10000 * clampN 1 50 (s.hub.rdF Reg.STW_TIME_CFG 15 8) : Nat))
          ((10000 * clampN 1 50 (s.hub.rdF Reg.STW_TIME_CFG 15 8) : Nat)) (-(sword v * 1000000000 / (16 * w)))
      ∧ t.hub.rd Reg.STW_TIME_RATE = swordHold (t.hub.time.f + t.hub.time.p)))
  ∧ (∀ s : State, s.hub.mainUp = true → (s.hub.rdF Reg.STW_TIME_CFG 1 0 = 2 ∧ s.hub.time.ppsOkAt.getD 0 + 3000000000 ≤ s.hub.mono
      ∨ s.hub.rdF Reg.STW_TIME_CFG 1 0 = 3 ∧ s.hub.time.lastSoft.getD 0 + 10000000000 ≤ s.hub.mono) →
    s.hub.rdB Reg.STW_TIME_STAT 1 = true → s.hub.rdB Reg.STW_TIME_STAT 0 = true →
    Ends .timeLockTimeout s [.time] {Reg.STW_TIME_RATE, Reg.STW_TIME_STAT} [.stw] (fun t =>
      t.hub.rdB Reg.STW_TIME_STAT 1 = false ∧ t.hub.rdB Reg.STW_TIME_STAT 2 = true ∧ t.hub.raw .stw 3 = true
      ∧ t.hub.time.p = 0 ∧ t.hub.time.f = s.hub.time.f))
  ∧ (∀ s : State, s.hub.mainUp = true → s.hub.rdB Reg.STW_PPS_CFG 2 = true →
    (s.hub.time.lastPpsIn.all fun u => decide (1000 ≤ s.hub.mono - u)) = true → s.hub.rdF Reg.STW_TIME_CFG 1 0 ≠ 2 →
    Ends .ppsInEdge s [.time, .wide] {Reg.STW_PPS_IN_CNT, Reg.STW_PPS_IN_ERR} [.stw] (fun t =>
      t.hub.rdWide Reg.STW_PPS_IN_LO = s.hub.time.ns % 2 ^ 64
      ∧ t.hub.rd Reg.STW_PPS_IN_CNT = s.hub.rd Reg.STW_PPS_IN_CNT + 1
      ∧ t.hub.rd Reg.STW_PPS_IN_ERR = swordHold (secOffset s.hub.time.ns) ∧ t.hub.raw .stw 6 = true
      ∧ t.hub.time = { s.hub.time with lastPpsIn := some s.hub.mono, ppsOkAt := some s.hub.mono }))
  ∧ (∀ s : State, s.hub.mainUp = true → s.hub.time.reached 1000000000 = true → s.hub.rdB Reg.STW_PPS_CFG 0 = true →
    (s.hub.rdB Reg.STW_PPS_CFG 1 = true → s.hub.rdB Reg.STW_TIME_STAT 0 = true ∧ s.hub.rdB Reg.STW_TIME_STAT 1 = true) →
    (s.hub.time.lastPpsRise.all fun u =>
      decide (1000 * clampN 1 500000 (s.hub.rdF Reg.STW_PPS_CFG 26 8) + 1000 ≤ s.hub.mono - u)) = true →
    Ends .ppsOutRise s [.time, .pins] ∅ [] (fun t =>
      t.hub.pins = { s.hub.pins with ppsOut := true }
      ∧ t.hub.time = { s.hub.time with lastPpsRise := some s.hub.mono }))
  ∧ (∀ s : State, s.hub.mainUp = true → s.hub.pins.ppsOut = true →
    (s.hub.time.lastPpsRise.all fun u =>
      decide (u + 1000 * clampN 1 500000 (s.hub.rdF Reg.STW_PPS_CFG 26 8) ≤ s.hub.mono)) = true →
    Ends .ppsOutFall s [.pins] ∅ [] (fun t => t.hub.pins = { s.hub.pins with ppsOut := false }))

/-- The operations TIME_SET and TIME_STEP (R290, R297): the new cell time, RATE without its phase part, STEPS, VALID, the recorded step,
TIME_STEP's attention and the result words; they are refused with 0x80 while SRC is LINK and LOCKED is 1, and then nothing but the
result is stored.
Its clauses rest on these choices of the model: log entry 15. -/
def Obligations.TimeOperations : Prop :=
  (∀ (s : State) (tb : Nat) (d : Int), s.hub.opRunning .stw 0x12 = true →
    (s.hub.rdF Reg.STW_TIME_CFG 1 0 ≠ 1 ∨ s.hub.rdB Reg.STW_TIME_STAT 1 = false) → tb = (s.hub.time.ns / 1000 + 1) * 1000 →
    tb < 2 ^ 64 → d = ((join64 (s.hub.arg .stw 0) (s.hub.arg .stw 1) + (tb - s.hub.time.ns) : Nat) : Int) - tb →
    Ends .timeSet s [.time, .wide, .vin, .ring, .pmc, .tports]
      ({Reg.STW_TIME_RATE, Reg.STW_TIME_STAT, Reg.STW_OLOG_LOST} ∪ trigRegs ∪ pmcRegs) [.stw, .vin, .pmc] (fun t =>
      t.hub.time.ns = (join64 (s.hub.arg .stw 0) (s.hub.arg .stw 1) + (tb - s.hub.time.ns)) % 2 ^ 64
      ∧ t.hub.time.p = 0 ∧ t.hub.time.f = s.hub.time.f ∧ t.hub.rdB Reg.STW_TIME_STAT 0 = true ∧ t.hub.raw .stw 2 = true
      ∧ t.hub.rdWide Reg.STW_TIME_STEP_LO = (d % (2 ^ 64 : Int)).toNat
      ∧ (t.hub.mbx .stw).result = some (mbxOk [lo32 tb, hi32 tb])))
  ∧ (∀ (s : State) (d : Int), s.hub.opRunning .stw 0x13 = true →
    (s.hub.rdF Reg.STW_TIME_CFG 1 0 ≠ 1 ∨ s.hub.rdB Reg.STW_TIME_STAT 1 = false) →
    d = (BitVec.ofNat 64 (join64 (s.hub.arg .stw 0) (s.hub.arg .stw 1))).toInt →
    Ends .timeStep s [.time, .wide, .vin, .ring, .pmc, .tports]
      ({Reg.STW_TIME_RATE, Reg.STW_TIME_STAT, Reg.STW_OLOG_LOST} ∪ trigRegs ∪ pmcRegs) [.stw, .vin, .pmc] (fun t =>
      t.hub.time.ns = (((s.hub.time.ns : Int) + d) % (2 ^ 64 : Int)).toNat
      ∧ t.hub.time.p = 0 ∧ t.hub.time.f = s.hub.time.f ∧ t.hub.rdB Reg.STW_TIME_STAT 0 = true ∧ t.hub.raw .stw 2 = true
      ∧ t.hub.rdWide Reg.STW_TIME_STEP_LO = (d % (2 ^ 64 : Int)).toNat
      ∧ (t.hub.mbx .stw).result = some (mbxOk [lo32 s.hub.time.ns, hi32 s.hub.time.ns])))
  ∧ (∀ s : State, s.hub.rdF Reg.STW_TIME_CFG 1 0 = 1 → s.hub.rdB Reg.STW_TIME_STAT 1 = true → s.hub.opRunning .stw 0x12 = true →
    Ends .timeSet s [] ∅ [.stw] (fun t => (t.hub.mbx .stw).result = some (mbxErr 0x80)))
  ∧ (∀ s : State, s.hub.rdF Reg.STW_TIME_CFG 1 0 = 1 → s.hub.rdB Reg.STW_TIME_STAT 1 = true → s.hub.opRunning .stw 0x13 = true →
    Ends .timeStep s [] ∅ [.stw] (fun t => (t.hub.mbx .stw).result = some (mbxErr 0x80)))

/-- The order log (R284, R286, R287, R296): a mark reaches STW's FIFO; turning recording off empties every FIFO; and a grant writes the
granted block's oldest record into the ring with the cell time of the grant and the next SEQ, and ends its cycle.
Its clauses rest on these choices of the model: log entries 2 and 31. -/
def Obligations.OrderLog : Prop :=
  (∀ (s : State) (p : Path) (v : BitVec 16), s.hub.mainUp = true → s.hub.rdB Reg.STW_OLOG_CFG 0 = true →
    (s.hub.olog.fifos.get .stw).lost = 0 → (s.hub.olog.fifos.get .stw).recs.length < 16 →
    Ends (.ologMark p v) s [] ∅ [] (fun t =>
      (t.hub.olog.fifos.get .stw).recs = (s.hub.olog.fifos.get .stw).recs ++ [⟨4, p.code, v.toNat⟩]))
  ∧ (∀ (s : State) (v : Word), s.hub.mainUp = true →
    Ends (.ologCfgWrite v) s [] {Reg.STW_OLOG_CFG} [] (fun t =>
      t.hub.rd Reg.STW_OLOG_CFG = v &&& 3
      ∧ (v.getLsbD 0 = false → ∀ b ∈ Block.all, t.hub.olog.fifos.get b = {})))
  ∧ (∀ (s : State) (b : Block) (r : EvRec) (rest : List EvRec), s.hub.mainUp = true → s.hub.rdB Reg.STW_OLOG_CFG 0 = true →
    s.hub.olog.lostRun = 0 → s.hub.ologFull = false → s.hub.ologReqs = [b.idx] →
    s.hub.olog.fifos.get b = { recs := r :: rest } → (s.hub.arb .stw 1).steps.length = 17 →
    Ends .orderLogGrant s [.ring, .arbs, .time, .power, .pmc, .wide]
      ({arbReg .stw 1 0x08, arbReg .stw 1 0x0C, arbReg .stw 1 0x30} ∪ pmcRegs) [.stw, .pmc] (fun t =>
      Tab.get (fun _ => {}) t.hub.olog.ring s.hub.olog.next =
        { stamp := s.hub.time.ns, seq := s.hub.olog.seq + 1, block := b.idx, kind := r.kind, bit := r.bit, info := r.info }
      ∧ t.hub.olog.next = (s.hub.olog.next + 1) % 1024 ∧ t.hub.olog.seq = s.hub.olog.seq + 1
      ∧ (t.hub.arb .stw 1).owner = b.idx ∧ t.hub.time = s.hub.time.tick
      ∧ (b ≠ .stw → b ≠ .pmc → b ≠ .pmu → (t.hub.olog.fifos.get b).recs = rest)))

/-- An arbiter's decision (R275–R278): among the requesters the one of highest effective priority is granted, its steps return to 0,
every other requester gains a step up to 15, and nothing outside the arbiter changes. -/
def Obligations.ArbiterDecision : Prop :=
  (∀ (s : State) (b : Block) (k : Nat) (reqs : List Nat) (w : Nat), s.hub.arbUp b k = true →
    (s.hub.arb b k).parked = false → (s.hub.arb b k).held = false → s.hub.arbChoose b k reqs = some w →
    w < (s.hub.arb b k).steps.length →
    Ends (.arbiterDecision b k reqs none) s [.arbs] {arbReg b k 0x08, arbReg b k 0x30} [] (fun t =>
      (t.hub.arb b k).owner = w ∧ (t.hub.arb b k).held = true ∧ (t.hub.arb b k).parked = false
      ∧ (t.hub.arb b k).steps.getD w 0 = 0
      ∧ (∀ r < (s.hub.arb b k).steps.length, r ≠ w → r ∈ reqs →
          (t.hub.arb b k).steps.getD r 0 = min 15 ((s.hub.arb b k).steps.getD r 0 + 1))
      ∧ (∀ r < (s.hub.arb b k).steps.length, r ≠ w → r ∉ reqs →
          (t.hub.arb b k).steps.getD r 0 = (s.hub.arb b k).steps.getD r 0)
      ∧ t.hub.rd (arbReg b k 0x08) = s.hub.rd (arbReg b k 0x08) + 1))
  ∧ (∀ (s : State) (b : Block) (k : Nat) (reqs : List Nat) (w : Nat), s.hub.arbUp b k = true →
    (s.hub.arb b k).parked = false → (s.hub.arb b k).held = false → s.hub.arbChoose b k reqs = some w →
    w < (s.hub.arb b k).steps.length →
    Ends (.arbiterDecision b k reqs (some w)) s [.arbs] {arbReg b k 0x34, arbReg b k 0x30} [] (fun t =>
      (t.hub.arb b k).owner = (s.hub.arb b k).owner ∧ (t.hub.arb b k).held = false
      ∧ t.hub.rd (arbReg b k 0x34) = s.hub.rd (arbReg b k 0x34) + 1))
  ∧ (∀ (s : State) (b : Block) (k : Nat), s.hub.arbUp b k = true →
    Ends (.arbiterDecision b k [] none) s [.arbs] ∅ [] (fun t =>
      (t.hub.arb b k).parked = ((s.hub.arb b k).parked || (s.hub.arb b k).held) ∧ (t.hub.arb b k).held = false
      ∧ (t.hub.arb b k).owner = (s.hub.arb b k).owner))
  ∧ (∀ (s : State) (b : Block) (k : Nat), s.hub.arbUp b k = true → (s.hub.arb b k).parked = true →
    Ends (.arbiterDecision b k [(s.hub.arb b k).owner] none) s [.arbs] {arbReg b k 0x08, arbReg b k 0x0C} [] (fun t =>
      (t.hub.arb b k).held = true ∧ (t.hub.arb b k).owner = (s.hub.arb b k).owner
      ∧ t.hub.rd (arbReg b k 0x08) = s.hub.rd (arbReg b k 0x08) + 1
      ∧ t.hub.rd (arbReg b k 0x0C) = s.hub.rd (arbReg b k 0x0C) + 1))

/-- The choice of a decision (R275): the effective priority is min(15, BASE + STEPS); a requester is chosen if there is one, no requester
has a higher effective priority than the chosen one, and among equals the chosen one comes first in the order that starts after the
last owner; after reset the last owner is the highest index. -/
def Obligations.ArbiterChoice : Prop :=
  (∀ (h : Hub) (b : Block) (k r : Nat), h.arbBase b k r ≤ 15
    ∧ h.arbEff b k r = min 15 (h.arbBase b k r + (h.arb b k).steps.getD r 0))
  ∧ (∀ (h : Hub) (b : Block) (k : Nat) (reqs : List Nat),
    (h.arbChoose b k reqs = none ↔ ∀ r ∈ reqs, (h.arb b k).steps.length ≤ r)
    ∧ ∀ w, h.arbChoose b k reqs = some w →
      w ∈ reqs ∧ w < (h.arb b k).steps.length
      ∧ ∀ r ∈ reqs, r < (h.arb b k).steps.length → r ≠ w →
        h.arbEff b k r < h.arbEff b k w
        ∨ (h.arbEff b k r = h.arbEff b k w
          ∧ (w + (h.arb b k).steps.length - ((h.arb b k).owner + 1) % (h.arb b k).steps.length) % (h.arb b k).steps.length
            < (r + (h.arb b k).steps.length - ((h.arb b k).owner + 1) % (h.arb b k).steps.length) % (h.arb b k).steps.length))
  ∧ (∀ (st : Straps) (b : Block) (k : Nat) (l : List Nat), arbBases b k = some l → k < 16 →
    ((Hub.reset st).arb b k).owner = l.length - 1 ∧ ((Hub.reset st).arb b k).steps = List.replicate l.length 0)

/-- ARB_MODE (R280): the mode is stored; a change from SHADOWED to IMMEDIATE puts the pending ARB_BASE writes of the block in
force and takes them off the shadows.
Its clauses rest on these choices of the model: log entry 24. -/
def Obligations.ArbiterMode : Prop :=
  (∀ (s : State) (b : Block) (m : BitVec 2), s.hub.answers b = true → ((s.hub.hdr b).arbMode = 1 ∨ m ≠ 1) →
    Ends (.arbModeWrite b m) s [] ∅ [b] (fun t => (t.hub.hdr b).arbMode = m.toNat))
  ∧ (∀ (s : State) (b : Block) (a : Nat) (v : Word), s.hub.answers b = true → (s.hub.hdr b).arbMode ≠ 1 →
    s.hub.pend = [(a, v)] → b.base + 0xFD000 ≤ a → a < b.base + 0xFE000 →
    Ends (.arbModeWrite b 1) s [.pend] {a} [b] (fun t =>
      (t.hub.hdr b).arbMode = 1 ∧ t.hub.rd a = v ∧ t.hub.pend = []))

/-- An event of a fault source (R465, R468–R473): the sticky bit and, where it was clear, FLT_NEW; FS_COUNT; the classification in the
compact and in the backbone profile; the live bit; and the FAULT_N pulse of a source that becomes severe.
Its clauses rest on these choices of the model: log entry 28. -/
def Obligations.FaultEvent : Prop :=
  (∀ (s : State) (b : Block) (i : Nat), s.hub.answers b = true → i < nSources b → i < (s.hub.hdr b).flt.length →
    (b ≠ .tsc ∨ i ≠ 1) →
    Ends (.faultEvent b i none none) s [.pins] {Reg.SIT_FAULTN_CNT, Reg.TSC_KITTY_MIN} [b, .sit, .tsc] (fun t =>
      bit (t.hub.hdr b).sticky i = true ∧ (bit (s.hub.hdr b).sticky i = false → t.hub.raw b 28 = true)
      ∧ (atD (t.hub.hdr b).flt i {}).count = incHold (atD (s.hub.hdr b).flt i {}).count
      ∧ (t.hub.hdr b).quietFrom = s.hub.mono
      ∧ (t.hub.hdr b).live = (s.hub.hdr b).live))
  ∧ (∀ (s : State) (b : Block) (i : Nat), s.hub.answers b = true → i < nSources b → i < (s.hub.hdr b).flt.length →
    s.hub.profile = false → (b ≠ .tsc ∨ i ≠ 1) → (atD (s.hub.hdr b).flt i {}).winOver (s.hub.fltW b i) s.hub.mono = false →
    (atD (s.hub.hdr b).flt i {}).win + 1 < s.hub.fltN b i →
    Ends (.faultEvent b i none none) s [] {Reg.TSC_KITTY_MIN} [b, .tsc] (fun t =>
      (atD (t.hub.hdr b).flt i {}).win = (atD (s.hub.hdr b).flt i {}).win + 1
      ∧ (atD (t.hub.hdr b).flt i {}).cls = (atD (s.hub.hdr b).flt i {}).cls))
  ∧ (∀ (s : State) (b : Block) (i : Nat), s.hub.answers b = true → i < nSources b → i < (s.hub.hdr b).flt.length →
    s.hub.profile = false → (b ≠ .tsc ∨ i ≠ 1) → (atD (s.hub.hdr b).flt i {}).winOver (s.hub.fltW b i) s.hub.mono = true →
    1 < s.hub.fltN b i →
    Ends (.faultEvent b i none none) s [] {Reg.TSC_KITTY_MIN} [b, .tsc] (fun t =>
      (atD (t.hub.hdr b).flt i {}).win = 1 ∧ (atD (t.hub.hdr b).flt i {}).winFrom = s.hub.mono
      ∧ (atD (t.hub.hdr b).flt i {}).cls = (atD (s.hub.hdr b).flt i {}).cls))
  ∧ (∀ (s : State) (b : Block) (i : Nat), s.hub.answers b = true → i < nSources b → i < (s.hub.hdr b).flt.length →
    s.hub.profile = false → (atD (s.hub.hdr b).flt i {}).winOver (s.hub.fltW b i) s.hub.mono = false →
    s.hub.fltN b i ≤ (atD (s.hub.hdr b).flt i {}).win + 1 → (atD (s.hub.hdr b).flt i {}).cls < 3 →
    Ends (.faultEvent b i none none) s [.pins] {Reg.SIT_FAULTN_CNT, Reg.TSC_KITTY_MIN, Reg.TSC_LEDGER_STAT} [b, .sit, .tsc] (fun t =>
      (atD (t.hub.hdr b).flt i {}).cls = 3 ∧ (atD (t.hub.hdr b).flt i {}).win = 0 ∧ (t.hub.hdr b).inFault = true
      ∧ t.hub.pins.faultPulse.isSome = true ∧ t.hub.raw .sit 5 = true
      ∧ t.hub.rd Reg.SIT_FAULTN_CNT = incHold (s.hub.rd Reg.SIT_FAULTN_CNT)))
  ∧ (∀ (s : State) (b : Block) (i : Nat), s.hub.answers b = true → i < nSources b → i < (s.hub.hdr b).flt.length →
    s.hub.profile = true →
    Ends (.faultEvent b i none none) s [.pins] {Reg.SIT_FAULTN_CNT, Reg.TSC_KITTY_MIN, Reg.TSC_LEDGER_STAT} [b, .sit, .tsc] (fun t =>
      (atD (t.hub.hdr b).flt i {}).cls =
        max (atD (s.hub.hdr b).flt i {}).cls (if fltFixed b i then 3 else s.hub.rdF (fsCfg b i) 1 0)
      ∧ (atD (t.hub.hdr b).flt i {}).win = (atD (s.hub.hdr b).flt i {}).win))
  ∧ (∀ (s : State) (b : Block) (i : Nat) (v : Bool), s.hub.answers b = true → i < nSources b →
    ((fltCatalogue b).getD i (0, false, false)).2.2 = true →
    Ends (.faultEvent b i (some v) none) s [.pins] {Reg.SIT_FAULTN_CNT, Reg.TSC_KITTY_MIN, Reg.TSC_LEDGER_STAT} [b, .sit, .tsc] (fun t =>
      bit (t.hub.hdr b).live i = v ∧ bit (t.hub.hdr b).sticky i = true))

/-- What an uncorrectable memory error does where it lies, beside its fault event (R185, R220, R241, R495): the slot is free, the ledger is
void, the gate entry counts as failed, and the counter or bin word reads all ones from then on.
Its clauses rest on these choices of the model: log entries 28, 41 and 51. -/
def Obligations.MemoryErrors : Prop :=
  (∀ (s : State) (t : EgressNo) (bank : Bool) (e : Fin 256), s.hub.mainUp = true →
    Ends (.faultEvent .tss 2 none (some (.gate t bank e))) s [.pins, .tports] {Reg.SIT_FAULTN_CNT, Reg.TSC_KITTY_MIN}
      [.tss, .sit, .tsc] (fun u => (u.hub.tport t).badEntry = (s.hub.tport t).badEntry ++ [(bank, e.val)]))
  ∧ (∀ s : State, s.hub.mainUp = true →
    Ends (.faultEvent .tsc 1 none none) s [.pins] {Reg.SIT_FAULTN_CNT, Reg.TSC_KITTY_MIN, Reg.TSC_LEDGER_STAT}
      [.tsc, .sit] (fun u => u.hub.rdB Reg.TSC_LEDGER_STAT 2 = true ∧ bit (u.hub.hdr .tsc).live 1 = true)
    ∧ Ends (.faultEvent .tsc 1 none (some .ledger)) s [.pins] {Reg.SIT_FAULTN_CNT, Reg.TSC_KITTY_MIN, Reg.TSC_LEDGER_STAT}
      [.tsc, .sit] (fun u => u.hub.rdB Reg.TSC_LEDGER_STAT 2 = true ∧ bit (u.hub.hdr .tsc).live 1 = true))
  ∧ (∀ (s : State) (n : Fin 256), s.hub.mainUp = true →
    Ends (.faultEvent .pmc 1 none (some (.counter n))) s [.pins, .pmc] {Reg.SIT_FAULTN_CNT, Reg.TSC_KITTY_MIN}
      [.pmc, .sit, .tsc] (fun u => u.hub.pmc.bad = s.hub.pmc.bad ++ [0x103000 + 8 * n.val]))
  ∧ (∀ (s : State) (n : Fin 32) (k : Fin 64), s.hub.mainUp = true →
    Ends (.faultEvent .pmc 0 none (some (.bin false n k))) s [.pins, .pmc] {Reg.SIT_FAULTN_CNT, Reg.TSC_KITTY_MIN}
      [.pmc, .sit, .tsc] (fun u => u.hub.pmc.bad = s.hub.pmc.bad ++ [0x110000 + 0x100 * n.val + 4 * k.val]))

/-- The end of faults (R466, R468, R472, R474, R71): a window that closes below N, the end of a quiet period, FLT_CTRL's EXIT and
CNT_CLR, the end of a FAULT_N pulse, LEVEL, and the write-one-to-clear writes of ATTN_RAW and FLT_STICKY.
Its clauses rest on these choices of the model: log entries 24, 46 and 64. -/
def Obligations.FaultClearing : Prop :=
  (∀ (s : State) (b : Block) (i : Nat), s.hub.answers b = true → (atD (s.hub.hdr b).flt i {}).win ≠ 0 →
    (atD (s.hub.hdr b).flt i {}).winOver (s.hub.fltW b i) s.hub.mono = true →
    Ends (.compactWindowEnd b i) s [] ∅ [b] (fun t =>
      atD (t.hub.hdr b).flt i {} = { atD (s.hub.hdr b).flt i {} with win := 0 }
      ∧ (t.hub.hdr b).inFault = (s.hub.hdr b).inFault))
  ∧ (∀ (s : State) (b : Block), s.hub.answers b = true → (s.hub.hdr b).inFault = true → (s.hub.hdr b).heldLive = false →
    s.hub.quietLeft b = 0 →
    Ends (.faultQuietEnd b) s [] ∅ [b] (fun t =>
      (t.hub.hdr b).inFault = false ∧ (t.hub.hdr b).level = 0 ∧ (t.hub.hdr b).recovery = incHold (s.hub.hdr b).recovery
      ∧ (t.hub.hdr b).flt.map (·.count) = (s.hub.hdr b).flt.map (·.count)))
  ∧ (∀ (s : State) (b : Block), s.hub.answers b = true → (s.hub.hdr b).inFault = true → (s.hub.hdr b).heldLive = false →
    Ends (.faultExit b) s [] ∅ [b] (fun t =>
      (t.hub.hdr b).inFault = false ∧ (t.hub.hdr b).level = 0 ∧ (t.hub.hdr b).recovery = incHold (s.hub.hdr b).recovery
      ∧ (t.hub.hdr b).flt.map (·.count) = (s.hub.hdr b).flt.map (·.count)))
  ∧ (∀ (s : State) (b : Block), s.hub.answers b = true →
    Ends (.faultCountClear b) s [] ∅ [b] (fun t =>
      (t.hub.hdr b).flt = (s.hub.hdr b).flt.map fun y => { y with count := 0 }))
  ∧ (∀ (s : State) (u : Nat), s.hub.custodyUp = true → s.hub.pins.faultPulse = some u → u ≤ s.hub.mono →
    Ends .faultnPulseEnd s [.pins] ∅ [] (fun t => t.hub.pins = { s.hub.pins with faultPulse := none }))
  ∧ (∀ (s : State) (v : Bool), s.hub.custodyUp = true →
    Ends (.faultnLevelWrite v) s [] {Reg.SIT_FAULTN} [] (fun t =>
      t.hub.rdB Reg.SIT_FAULTN 0 = v ∧ t.hub.rdF Reg.SIT_FAULTN 29 16 = s.hub.rdF Reg.SIT_FAULTN 29 16))
  ∧ (∀ (s : State) (b : Block) (v n : Word), s.hub.answers b = true →
    Ends (.attnRawClear b v n) s [] ∅ [b] (fun t => (t.hub.hdr b).attnRaw = ((s.hub.hdr b).attnRaw &&& ~~~v) ||| (n &&& attnMask b)
      ∧ (t.hub.hdr b).sticky = (s.hub.hdr b).sticky))
  ∧ (∀ (s : State) (b : Block) (v : Word), s.hub.answers b = true →
    Ends (.fltStickyClear b v none) s [] ∅ [b] (fun t => (t.hub.hdr b).sticky = (s.hub.hdr b).sticky &&& ~~~v
      ∧ (b ≠ .pmu → (t.hub.hdr b).attnRaw = (s.hub.hdr b).attnRaw)
      ∧ t.hub.out = (if b = .pmu ∧ bit ((s.hub.hdr b).sticky &&& v) 5 = true then [s.hub.pmbWire ⟨0x03, [], false⟩] else [])))
  ∧ (∀ (s : State) (b : Block) (v : Word) (i : Nat), s.hub.answers b = true → i < nSources b →
    Ends (.fltStickyClear b v (some i)) s [.pins] {Reg.SIT_FAULTN_CNT} [b, .sit] (fun t =>
      (t.hub.hdr b).sticky = ((s.hub.hdr b).sticky &&& ~~~v) ||| bitW i))

/-- The mailbox (R79–R82): a request on an idle mailbox takes the next ticket and the arguments; one on a busy mailbox is refused and
only its path's ticket word says so; NOP and every stored result complete with their words, READY, ERR and MBX_DONE; and an
acknowledgement of the published ticket clears READY.
A clause `Runs c s h` says that the form completes with the effect of the definition that it names, under the row's own conditions alone.
Its clauses rest on these choices of the model: log entries 20 and 46. -/
def Obligations.MailboxCommands : Prop :=
  (∀ (s : State) (b : Block) (p : Path) (op : BitVec 16), s.hub.answers b = true → s.hub.pathOpen p = true →
    ¬ (b = .pmu ∧ p = .smbus) → (s.hub.mbx b).busy = false →
    Ends (.mailboxReq b p op) s [] ∅ [b] (fun t =>
      (t.hub.mbx b).busy = true ∧ (t.hub.mbx b).op = op.toNat ∧ (t.hub.mbx b).src = p.code
      ∧ (t.hub.mbx b).ticket = (if (s.hub.mbx b).ticket ≥ 255 then 1 else (s.hub.mbx b).ticket + 1)
      ∧ (t.hub.mbx b).latched = (s.hub.mbx b).args ∧ (t.hub.mbx b).ready = false
      ∧ (t.hub.mbx b).tickets = (s.hub.mbx b).tickets.set p.code (w32 ((t.hub.mbx b).ticket + 0x200 * p.code))))
  ∧ (∀ (s : State) (b : Block) (p : Path) (op : BitVec 16), s.hub.answers b = true → s.hub.pathOpen p = true →
    ¬ (b = .pmu ∧ p = .smbus) → (s.hub.mbx b).busy = true →
    Ends (.mailboxReq b p op) s [] ∅ [b] (fun t =>
      t.hub.mbx b = { s.hub.mbx b with
        tickets := (s.hub.mbx b).tickets.set p.code (w32 ((s.hub.mbx b).ticket + 0x100 + 0x200 * p.code)) }))
  ∧ (∀ (s : State) (b : Block), s.hub.opRunning b 0 = true →
    Ends (.nop b) s [] ∅ [b] (fun t =>
      (t.hub.mbx b).data = [blkId b, 0, 0, 0, 0, 0] ∧ (t.hub.mbx b).ready = true ∧ (t.hub.mbx b).err = false
      ∧ (t.hub.mbx b).busy = false ∧ (t.hub.mbx b).dataTicket = (s.hub.mbx b).ticket ∧ t.hub.raw b 29 = true))
  ∧ (∀ (s : State) (b : Block) (r : MbxResult), s.hub.answers b = true → (s.hub.mbx b).busy = true →
    opDefined b (s.hub.mbx b).op = true → (s.hub.mbx b).result = some r →
    Ends (.mailboxComplete b) s [] ∅ [b] (fun t =>
      (t.hub.mbx b).data = (List.range 6).map (fun i => r.data.getD i 0) ∧ (t.hub.mbx b).errCode = r.err
      ∧ (t.hub.mbx b).err = (decide (r.err ≠ 0) || r.flag) ∧ (t.hub.mbx b).ready = true ∧ (t.hub.mbx b).busy = false
      ∧ (t.hub.mbx b).dataTicket = (s.hub.mbx b).ticket ∧ t.hub.raw b 29 = true))
  ∧ (∀ (s : State) (b : Block), s.hub.answers b = true → (s.hub.mbx b).busy = true → opDefined b (s.hub.mbx b).op = false →
    Ends (.mailboxComplete b) s [] ∅ [b] (fun t =>
      (t.hub.mbx b).errCode = 1 ∧ (t.hub.mbx b).err = true ∧ (t.hub.mbx b).data = [0, 0, 0, 0, 0, 0]
      ∧ (t.hub.mbx b).busy = false))
  ∧ (∀ (s : State) (b : Block) (k : BitVec 8), s.hub.answers b = true → (s.hub.mbx b).ready = true →
    k.toNat = (s.hub.mbx b).ticket →
    Ends (.resAck b k) s [] ∅ [b] (fun t => t.hub.mbx b = { s.hub.mbx b with ready := false, err := false }))
  ∧ (∀ (s : State) (b : Block) (p : Path) (op : BitVec 16), s.hub.answers b = true → s.hub.pathOpen p = true →
    Runs (.mailboxReq b p op) s (
      (settle s.hub (s.hub.fresh.updMbx b fun m => m.request p op.toNat s.hub.mono)).reqWake b p op.toNat))

/-- Commits (R73–R76): ARM waits in every window of the block; DISCARD drops the block's shadows and no other; in its window an armed
commit puts the S bits of a shadow in force, and one that comes late says so.
A clause `Runs c s h` says that the form completes with the effect of the definition that it names, under the row's own conditions alone.
Its clauses rest on these choices of the model: log entries 19 and 46. -/
def Obligations.Commits : Prop :=
  (∀ (s : State) (b : Block), s.hub.answers b = true → (s.hub.hdr b).waiting = [] →
    Ends (.commitArm b) s [] ∅ [b] (fun t =>
      (t.hub.hdr b).waiting = List.range (windowCount b) ∧ (t.hub.hdr b).armedAt = s.hub.mono ∧ (t.hub.hdr b).overdue = []
      ∧ (t.hub.hdr b).applied = (s.hub.hdr b).applied))
  ∧ (∀ (s : State) (b : Block), s.hub.answers b = true →
    Ends (.commitDiscard b) s [.pend] ∅ [b] (fun t =>
      (t.hub.hdr b).waiting = []
      ∧ t.hub.pend = s.hub.pend.filter fun e => !(decide (b.base ≤ e.1) && decide (e.1 < b.base + 0x100000))))
  ∧ (∀ (s : State) (b : Block) (a n : Nat) (v : Word), s.hub.custodyUp = true → b = .pmu ∨ b = .ksi →
    (s.hub.hdr b).waiting = [0] → (s.hub.hdr b).overdue = [] → s.hub.window b 0 n = .applies false →
    s.hub.pend = [(a, v)] → b.base ≤ a → a < b.base + 0x100000 → a ≠ Reg.PMU_DVFS →
    Ends (.commitApply b 0 n) s [.pend] {a, Reg.TSC_KITTY_MIN} [b, .tsc] (fun t =>
      t.hub.rd a = (s.hub.rd a &&& ~~~shadowMask a) ||| (v &&& shadowMask a)
      ∧ t.hub.pend = [] ∧ (t.hub.hdr b).waiting = [] ∧ (t.hub.hdr b).applied = ((s.hub.hdr b).applied + 1) % 256
      ∧ (t.hub.hdr b).missed = (s.hub.hdr b).missed))
  ∧ (∀ (s : State) (n : Nat), s.hub.custodyUp = true → (s.hub.hdr .ksi).waiting = [0] →
    s.hub.mono < (s.hub.hdr .ksi).armedAt + 100 + n → (s.hub.hdr .ksi).armedAt + n ≤ s.hub.mono →
    Ends (.commitApply .ksi 0 n) s [] {Reg.TSC_KITTY_MIN} [.ksi, .tsc] (fun t =>
      (t.hub.hdr .ksi).waiting = [0] ∧ (t.hub.hdr .ksi).overdue.contains 0 = true
      ∧ (t.hub.hdr .ksi).applied = (s.hub.hdr .ksi).applied))
  ∧ (∀ (s : State) (b : Block) (n : Nat), s.hub.custodyUp = true → b = .pmu ∨ b = .ksi → (s.hub.hdr b).waiting = [0] →
    s.hub.pend = [] → (s.hub.hdr b).overdue = [0] → s.hub.window b 0 n ≠ .shut → s.hub.window b 0 n ≠ .missed →
    Ends (.commitApply b 0 n) s [] {Reg.TSC_KITTY_MIN} [b, .tsc] (fun t =>
      (t.hub.hdr b).late = true ∧ t.hub.raw b 30 = true ∧ (t.hub.hdr b).missed = min 0xFFFF ((s.hub.hdr b).missed + 1)
      ∧ (t.hub.hdr b).applied = ((s.hub.hdr b).applied + 1) % 256))
  ∧ (∀ (s : State) (b : Block) (i n : Nat), s.hub.answers b = true → (s.hub.hdr b).waiting.contains i = true →
    Runs (.commitApply b i n) s (settle s.hub (s.hub.fresh.tscWatch (s.hub.fresh.commitWindow b i n))))

/-- The deal epoch boundary (R77, R183, R242, R243, R247): the ledger takes its snapshot, a commit of TSS that was armed 1 µs before
applies, the deal starts in every port, and MIR is due to sample the shapers.
Its clauses rest on these choices of the model: log entries 19, 31 and 46. -/
def Obligations.EpochBoundary : Prop :=
  (∀ s : State, s.hub.mainUp = true → s.hub.power.state = .run → s.hub.rdB Reg.TSC_LEDGER_STAT 2 = false →
    (s.hub.hdr .tsc).waiting = [] → (s.hub.hdr .tss).waiting = [] → (s.hub.hdr .fcm).waiting = [] →
    s.hub.paging.policy = [] → s.hub.rdB Reg.TSS_DEAL_CFG 0 = true → s.hub.time.reached s.hub.epochNs = true →
    Ends .dealEpochBoundary s [.wide, .pins, .mir, .tports, .fts, .pmc]
      (blockRegs .tsc ∪ blockRegs .tss ∪ {Reg.SIT_FAULTN_CNT} ∪ pmcRegs) [.tsc, .tss, .sit, .pmc] (fun t =>
      t.hub.mir = { s.hub.mir with shapeDue := true }
      ∧ t.hub.rd (Reg.TSC_SNAP 0) = iword s.hub.counts.kitty
      ∧ t.hub.rdF Reg.TSC_LEDGER_STAT 31 16 = (s.hub.rdF Reg.TSC_LEDGER_STAT 31 16 + 1) % 65536
      ∧ t.hub.rdF Reg.TSS_DEAL_STAT 31 16 = (s.hub.rdF Reg.TSS_DEAL_STAT 31 16 + 1) % 65536
      ∧ ∀ p ∈ List.range 18, (t.hub.tport p).dealing.isSome = true))
  ∧ (∀ (s : State) (v : Word), s.hub.mainUp = true → s.hub.power.state = .run → (s.hub.hdr .tsc).waiting = [] →
    (s.hub.hdr .tss).waiting = [0] → (s.hub.hdr .tss).armedAt + 1000 ≤ s.hub.mono →
    (s.hub.hdr .fcm).waiting = [] → s.hub.paging.policy = [] → s.hub.pend = [(Reg.TSS_EPOCH, v)] →
    s.hub.time.reached s.hub.epochNs = true →
    Ends .dealEpochBoundary s [.pend, .wide, .pins, .mir, .tports, .fts, .pmc]
      (blockRegs .tsc ∪ blockRegs .tss ∪ {Reg.SIT_FAULTN_CNT} ∪ pmcRegs) [.tsc, .tss, .sit, .pmc] (fun t =>
      t.hub.rdF Reg.TSS_EPOCH 8 0 = v.toNat % 512 ∧ t.hub.pend = [] ∧ (t.hub.hdr .tss).waiting = []
      ∧ (t.hub.hdr .tss).applied = ((s.hub.hdr .tss).applied + 1) % 256))

/-- Register writes and reads by every local path (R9, R10, R65, R66, R73): a write of ATTN_EN stores the word; a write of a shadowed field
goes to the shadow and leaves the value in force; a block that the role leaves out takes no write; SPI frames and SMBus transfers
act on the words they name, an SMBus transfer on the custody die also while the main die does not run; a management command of
another code does nothing.
A clause `Runs c s h` says that the form completes with the effect of the definition that it names, under the row's own conditions alone.
Its clauses rest on these choices of the model: log entries 23, 24 and 50. -/
def Obligations.RegisterPaths : Prop :=
  (∀ (s : State) (p : Path) (b : Block) (a : BitVec 26) (v : Word), s.hub.mainUp = true → s.hub.pathOpen p = true →
    a.toNat = b.base + 0x14 →
    Ends (.registerWrite p a v) s [] {Reg.TSC_KITTY_MIN} [b, .tsc] (fun t => (t.hub.hdr b).attnEn = v))
  ∧ (∀ (s : State) (p : Path) (v : Word), s.hub.mainUp = true → s.hub.power.state = .run →
    s.hub.pathOpen p = true →
    Ends (.registerWrite p (BitVec.ofNat 26 Reg.TSS_EPOCH) v) s [.pend] {Reg.TSC_KITTY_MIN} [.tss, .tsc] (fun t =>
      fld (t.hub.shadow Reg.TSS_EPOCH) 8 0 = fld v 8 0 ∧ t.hub.rd Reg.TSS_EPOCH = s.hub.rd Reg.TSS_EPOCH))
  ∧ (∀ (s : State) (p : Path) (b : Block) (a : BitVec 26) (v : Word), s.hub.mainUp = true →
    s.hub.pathOpen p = true → s.hub.present b = false → b.base + 0x1000 ≤ a.toNat →
    a.toNat < b.base + 0xFE000 →
    Ends (.registerWrite p a v) s [] {Reg.TSC_KITTY_MIN} [.tsc] (fun t => t.hub.pend = s.hub.pend))
  ∧ (∀ (s : State) (p : Path) (a : BitVec 26) (v : Word), s.hub.pathOpen p = true →
    Runs (.registerWrite p a v) s (s.hub.fresh.writeWord p a.toNat v))
  ∧ (∀ (s : State) (b : Block) (a : BitVec 32) (v w : Word), s.hub.mainUp = true → a.toNat = b.base + 0x48 →
    (s.hub.mbx b).args.length = 6 →
    Ends (.spiWriteFrame a [v, w] false) s [] {Reg.TSC_KITTY_MIN} [b, .tsc] (fun t =>
      (t.hub.mbx b).args.getD 0 0 = v ∧ (t.hub.mbx b).args.getD 1 0 = w
      ∧ (t.hub.mbx b).args.drop 2 = (s.hub.mbx b).args.drop 2))
  ∧ (∀ (s : State) (a : BitVec 32) (ws : List Word), s.hub.mainUp = true →
    Runs (.spiWriteFrame a ws false) s (s.hub.fresh.writeWords .spi a.toNat ws) ∧ Runs (.spiWriteFrame a ws true) s s.hub)
  ∧ (∀ (s : State) (a : BitVec 32) (n : Nat), s.hub.mainUp = true →
    Runs (.spiReadFrame a (4 * n)) s
      ((s.hub.fresh.readWords .spi a.toNat n).1.emit (.words (s.hub.fresh.readWords .spi a.toNat n).2)))
  ∧ (∀ (s : State) (a : BitVec 32) (n : Nat), s.hub.mainUp = true → n % 4 ≠ 0 →
    Ends (.spiReadFrame a n) s [] ∅ [] (fun t => t.hub.out = [.words (s.hub.fresh.readWords .spi a.toNat (n / 4)).2]))
  ∧ (∀ (s : State) (b : Block) (a : BitVec 32), s.hub.mainUp = true → a.toNat = b.base →
    Ends (.spiReadFrame a 8) s [] {Reg.TSC_KITTY_MIN} [.tsc] (fun t => t.hub.out = [.words [blkId b, s.hub.blkCap b]]))
  ∧ (∀ (s : State) (b : Block) (a v : Word), s.hub.power.phase ≠ .por → s.hub.power.state ≠ .off →
    (b.custody = true ∨ s.hub.mainUp = true) → a.toNat = b.base + 0x14 →
    Ends (.smbusBlockWrite a v none) s [] {Reg.TSC_KITTY_MIN} [b, .tsc] (fun t => (t.hub.hdr b).attnEn = v))
  ∧ (∀ (s : State) (b : Block) (a : Word), s.hub.power.phase ≠ .por → (b.custody = true ∨ s.hub.mainUp = true) →
    a.toNat = b.base →
    Ends (.smbusProcessCall a none) s [] {Reg.TSC_KITTY_MIN} [.tsc] (fun t => t.hub.out = [.smbAck true, .words [blkId b]]))
  ∧ (∀ (s : State) (a v : Word) (pec : Option Byte), s.hub.power.phase ≠ .por → pecGood pec (s.hub.smbWriteBytes a v) = true →
    a.toNat ≠ Block.pmu.base + 0x40 →
    Runs (.smbusBlockWrite a v pec) s ((s.hub.fresh.writeWord .smbus a.toNat v).emit (.smbAck true)))
  ∧ (∀ (s : State) (a v : Word) (pec : Option Byte), s.hub.power.phase ≠ .por → pecGood pec (s.hub.smbWriteBytes a v) = false →
    Ends (.smbusBlockWrite a v pec) s [] ∅ [] (fun t => t.hub.out = [.smbAck false]))
  ∧ (∀ (s : State) (a : Word) (pec : Option Byte), s.hub.power.phase ≠ .por → pecGood pec (s.hub.smbReadBytes a) = true →
    Runs (.smbusProcessCall a pec) s (((s.hub.fresh.readWord .smbus a.toNat).1.emit (.smbAck true)).emit
      (.words ((s.hub.fresh.readWord .smbus a.toNat).2
        :: pecWords pec (s.hub.smbReadBytes a ++ s.hub.smbByte true :: 4 :: leBytes 4 (s.hub.fresh.readWord .smbus a.toNat).2.toNat)))))
  ∧ (∀ (s : State) (a : Word) (pec : Option Byte), s.hub.power.phase ≠ .por → pecGood pec (s.hub.smbReadBytes a) = false →
    Ends (.smbusProcessCall a pec) s [] ∅ [] (fun t => t.hub.out = [.smbAck false]))
  ∧ (∀ (s : State) (c : Byte), c ≠ 0x0B → c ≠ 0x02 → Ends (.mgmtCommandIgnored .spi c) s [] ∅ [] (fun t => t.hub.out = []))
  ∧ (∀ (s : State) (c : Byte), c ≠ 0x10 → c ≠ 0x11 → s.hub.power.phase ≠ .por →
    Ends (.mgmtCommandIgnored .smbus c) s [] ∅ [] (fun t => t.hub.out = [.smbAck false]))

/-- Remote accesses (R86–R88, R90, R494): BAR2 is BAR0 while STW_REMOTE_SEL is 0; else a read takes a tag and goes out as a message,
and a write goes out; an answer or a time-out releases its tag, completes the host's read and shows LAST; a failed posted write is
counted; and an access of another hub is served on path BAR2 and answered.
A clause `Runs c s h` says that the form completes with the effect of the definition that it names, under the row's own conditions alone.
Its clauses rest on these choices of the model: log entries 16, 25 and 46. -/
def Obligations.RemoteAccesses : Prop :=
  (∀ (s : State) (tag : BitVec 8) (a : BitVec 26), s.hub.hostLink = true →
    Runs (.bar2Read tag a) s (s.hub.fresh.bar2Read tag.toNat a.toNat))
  ∧ (∀ (s : State) (a : BitVec 26) (v : Word), s.hub.hostLink = true →
    Runs (.bar2Write a v) s (s.hub.fresh.bar2Write a.toNat v))
  ∧ (∀ (s : State) (tag : BitVec 8) (a : BitVec 26) (b : Block), s.hub.hostLink = true → s.hub.rdF Reg.STW_REMOTE_SEL 13 0 = 0 →
    a.toNat = b.base →
    Ends (.bar2Read tag a) s [] {Reg.TSC_KITTY_MIN} [.tsc] (fun t =>
      t.hub.out = [.tlp (.cpl tag.toNat 0 false (leBytes 4 (blkId b).toNat))]))
  ∧ (∀ (s : State) (a : BitVec 26) (b : Block) (v : Word), s.hub.hostLink = true → s.hub.rdF Reg.STW_REMOTE_SEL 13 0 = 0 →
    a.toNat = b.base + 0x14 →
    Ends (.bar2Write a v) s [] {Reg.TSC_KITTY_MIN} [b, .tsc] (fun t => (t.hub.hdr b).attnEn = v))
  ∧ (∀ (s : State) (tag : BitVec 8) (a : BitVec 26), s.hub.hostLink = true → s.hub.rdF Reg.STW_REMOTE_SEL 13 0 ≠ 0 →
    (s.hub.route (s.hub.rdF Reg.STW_REMOTE_SEL 13 0)).isSome = true → s.hub.remote.waiting = [] → s.hub.remote.left = 0 →
    s.hub.remote.tags = [] → (s.hub.mbx .stw).busy = false →
    Ends (.bar2Read tag a) s (.remote :: sendParts) sendRegs sendBlocks (fun t =>
      t.hub.remote.tags = [(0, ⟨s.hub.rdF Reg.STW_REMOTE_SEL 13 0, a.toNat, false, 0, s.hub.mono, .read tag.toNat false⟩)] ∧ t.hub.remote.waiting = []))
  ∧ (∀ (s : State) (a : BitVec 26) (v : Word), s.hub.hostLink = true → s.hub.rdF Reg.STW_REMOTE_SEL 13 0 ≠ 0 →
    s.hub.route (s.hub.rdF Reg.STW_REMOTE_SEL 13 0) = none → s.hub.remote.waiting = [] → s.hub.remote.left = 0 →
    (s.hub.mbx .stw).busy = false → bit (s.hub.hdr .stw).attnRaw 1 = false →
    Ends (.bar2Write a v) s [.remote] {Reg.STW_REMOTE_WFAIL, Reg.STW_REMOTE_WADDR, Reg.TSC_KITTY_MIN} [.stw, .tsc] (fun t =>
      t.hub.rd Reg.STW_REMOTE_WFAIL = incHold (s.hub.rd Reg.STW_REMOTE_WFAIL)
      ∧ t.hub.rd Reg.STW_REMOTE_WADDR = w32 a.toNat ∧ t.hub.raw .stw 1 = true))
  ∧ (∀ (s : State) (src : BitVec 14) (tag : Fin 32) (v : Word) (r : RemoteReq) (ht : Nat), s.hub.mainUp = true →
    s.hub.rdB Reg.PX_STAT 0 = true → s.hub.remote.tags = [(tag.val, r)] → r.hub = src.toNat → r.use = .read ht false →
    s.hub.remote.waiting = [] → s.hub.remote.left = 0 → (s.hub.mbx .stw).busy = false →
    Ends (.remoteAnswerRx src tag none 0 v) s [.remote] {Reg.STW_REMOTE_STAT, Reg.TSC_KITTY_MIN} [.tsc] (fun t =>
      t.hub.remote.tags = [] ∧ t.hub.out = [.tlp (.cpl ht 0 false (leBytes 4 v.toNat))]
      ∧ t.hub.rdF Reg.STW_REMOTE_STAT 1 0 = 0))
  ∧ (∀ (s : State) (tag : Fin 32) (r : RemoteReq) (ht : Nat), s.hub.mainUp = true →
    s.hub.rdB Reg.PX_STAT 0 = true → s.hub.remote.tags = [(tag.val, r)] → r.use = .read ht false →
    s.hub.remote.waiting = [] → s.hub.remote.left = 0 → (s.hub.mbx .stw).busy = false →
    r.since + 1000 * s.hub.remoteTmo ≤ s.hub.mono →
    Ends (.remoteReadTimeout tag) s [.remote] {Reg.STW_REMOTE_STAT, Reg.TSC_KITTY_MIN} [.stw, .tsc] (fun t =>
      t.hub.remote.tags = [] ∧ t.hub.out = [.tlp (.cpl ht 0 false (leBytes 4 0xFFFFFFFF))]
      ∧ t.hub.rdF Reg.STW_REMOTE_STAT 1 0 = 1 ∧ t.hub.raw .stw 0 = true
      ∧ t.hub.rdF Reg.STW_REMOTE_STAT 31 16 = min 0xFFFF (s.hub.rdF Reg.STW_REMOTE_STAT 31 16 + 1)))
  ∧ (∀ (s : State) (src : BitVec 14) (tag : Fin 32) (r : RemoteReq) (st : BitVec 2) (v : Word), s.hub.mainUp = true →
    Tab.find s.hub.remote.tags tag = some r → r.hub = src.toNat →
    Runs (.remoteAnswerRx src tag none st v) s (settle s.hub (s.hub.fresh.tscWatch
      (((s.hub.fresh.updRemote fun x => { x with tags := Tab.del x.tags tag }).remoteEnd r st.toNat v).remoteGo))))
  ∧ (∀ (s : State) (src : BitVec 14) (tag : Fin 32) (a : BitVec 26) (st : BitVec 2) (v : Word), s.hub.mainUp = true → st ≠ 0 →
    Ends (.remoteAnswerRx src tag (some a) st v) s [] {Reg.STW_REMOTE_WFAIL, Reg.STW_REMOTE_WADDR, Reg.TSC_KITTY_MIN} [.stw, .tsc]
      (fun t => t.hub.rd Reg.STW_REMOTE_WFAIL = incHold (s.hub.rd Reg.STW_REMOTE_WFAIL) ∧ t.hub.raw .stw 1 = true))
  ∧ (∀ (s : State) (tag : Fin 32) (r : RemoteReq), s.hub.mainUp = true → Tab.find s.hub.remote.tags tag = some r →
    r.since + 1000 * s.hub.remoteTmo ≤ s.hub.mono →
    Runs (.remoteReadTimeout tag) s (settle s.hub (s.hub.fresh.tscWatch
      (((s.hub.fresh.updRemote fun x => { x with tags := Tab.del x.tags tag }).remoteEnd r 1 0).remoteGo))))
  ∧ (∀ (s : State) (src : BitVec 14) (tag : Fin 32) (a : Word) (v : Option Word) (user ack : Bool), s.hub.mainUp = true →
    s.hub.straps.err = false → s.hub.refusesRemote a.toNat v.isSome user = true →
    Runs (.remoteAccessRx src tag a v user ack) s
      (settle s.hub.fresh (s.hub.fresh.tscWatch (s.hub.fresh.remoteAnswer src.toNat tag 2 0))))
  ∧ (∀ (s : State) (src : BitVec 14) (tag : Fin 32) (a v : Word), s.hub.mainUp = true → s.hub.straps.err = false →
    Runs (.remoteAccessRx src tag a (some v) false false) s (s.hub.fresh.writeWord .bar2 a.toNat v))
  ∧ (∀ (s : State) (src : BitVec 14) (tag : Fin 32) (a : Word) (user ack : Bool) (h : Hub), s.hub.mainUp = true →
    s.hub.straps.err = false → s.hub.refusesRemote a.toNat false user = false → h = (s.hub.fresh.readWord .bar2 a.toNat).1 →
    Runs (.remoteAccessRx src tag a none user ack) s (settle h (h.tscWatch (h.remoteAnswer src.toNat tag
      (if s.hub.wordBad a.toNat then 3 else 0) (s.hub.fresh.readWord .bar2 a.toNat).2))))
  ∧ (∀ (s : State) (src : BitVec 14) (tag : Fin 32) (b : Block) (a v : Word), s.hub.mainUp = true → s.hub.straps.err = false →
    a.toNat = b.base + 0x14 →
    Ends (.remoteAccessRx src tag a (some v) false false) s [] {Reg.TSC_KITTY_MIN} [b, .tsc] (fun t =>
      (t.hub.hdr b).attnEn = v))

/-- Block transfers, the host's requests and the user alias (R65, R66, R89, R357, R494): a transfer with arguments out of range ends
with 0x02; one that names this hub moves its words at once; and the user alias returns a counter word while USER_EN is 1 and
0 otherwise.
A clause `Runs c s h` says that the form completes with the effect of the definition that it names, under the row's own conditions alone.
Its clauses rest on these choices of the model: log entries 6 and 25. -/
def Obligations.HostAndBlockAccesses : Prop :=
  (∀ s : State, s.hub.opRunning .stw 0x10 = true → s.hub.remote.left = 0 →
    Runs .remoteReadBlock s (s.hub.fresh.blockStart false))
  ∧ (∀ s : State, s.hub.opRunning .stw 0x11 = true → s.hub.remote.left = 0 →
    Runs .remoteWriteBlock s (s.hub.fresh.blockStart true))
  ∧ (∀ (s : State) (tag : BitVec 8) (off : BitVec 12), s.hub.hostLink = true →
    Runs (.userAliasRead tag off) s (s.hub.fresh.userRead tag.toNat off.toNat))
  ∧ (∀ (s : State) (r : PcieReq), s.hub.works .pxb = true → s.hub.pxLink = true → s.hub.mainUp = true →
    (s.hub.straps.role = .leaf ∨ 4 ≤ r.bar) → s.hub.aliasPage r.addr = false →
    Runs (.pcieRequestRx r) s (settle s.hub.fresh (s.hub.fresh.tscWatch (s.hub.fresh.pxTake r))))
  ∧ (∀ (s : State) (r : PcieReq), s.hub.works .pxb = true → s.hub.pxLink = true → s.hub.mainUp = true →
    s.hub.straps.role = .root → r.bar = 2 →
    Runs (.pcieRequestRx r) s (s.hub.fresh.barTake r Hub.bar2Read Hub.bar2Write))
  ∧ (∀ s : State, s.hub.opRunning .stw 0x10 = true → s.hub.remote.left = 0 → 256 < (s.hub.arg .stw 2).toNat →
    Ends .remoteReadBlock s [] ∅ [.stw] (fun t => (t.hub.mbx .stw).result = some (mbxErr 0x02)))
  ∧ (∀ s : State, s.hub.opRunning .stw 0x11 = true → s.hub.remote.left = 0 → 256 < (s.hub.arg .stw 2).toNat →
    Ends .remoteWriteBlock s [] ∅ [.stw] (fun t => (t.hub.mbx .stw).result = some (mbxErr 0x02)))
  ∧ (∀ (s : State) (b : Block), s.hub.opRunning .stw 0x10 = true → s.hub.remote.left = 0 → s.hub.arg .stw 0 = 0 →
    (s.hub.arg .stw 1).toNat = b.base → s.hub.arg .stw 2 = 1 → s.hub.present .stw = true →
    Ends .remoteReadBlock s [.remote] {Reg.STW_BLK_DATA 0, Reg.STW_BLK_STATUS 0, Reg.TSC_KITTY_MIN} [.stw, .tsc] (fun t =>
      t.hub.rd (Reg.STW_BLK_DATA 0) = blkId b ∧ t.hub.rdF (Reg.STW_BLK_STATUS 0) 1 0 = 0
      ∧ (t.hub.mbx .stw).result = some { err := 0, flag := false, data := [1, 0xFFFFFFFF] }))
  ∧ (∀ (s : State) (b : Block), s.hub.opRunning .stw 0x11 = true → s.hub.remote.left = 0 → s.hub.arg .stw 0 = 0 →
    (s.hub.arg .stw 1).toNat = b.base + 0x14 → s.hub.arg .stw 2 = 1 →
    Ends .remoteWriteBlock s [.remote] {Reg.STW_BLK_STATUS 0, Reg.TSC_KITTY_MIN} [.stw, .tsc, b] (fun t =>
      (t.hub.hdr b).attnEn = s.hub.rd (Reg.STW_BLK_DATA 0)
      ∧ (t.hub.mbx .stw).result = some { err := 0, flag := false, data := [1, 0xFFFFFFFF] }))
  ∧ (∀ (s : State) (tag : BitVec 8) (off : BitVec 12), s.hub.hostLink = true → s.hub.rdF Reg.STW_REMOTE_SEL 13 0 = 0 →
    s.hub.rdB Reg.PMC_CTL 0 = false →
    Ends (.userAliasRead tag off) s [] ∅ [] (fun t =>
      t.hub.out = [.tlp (.cpl tag.toNat 0 false [0, 0, 0, 0])]))
  ∧ (∀ (s : State) (r : PcieReq) (b : Block), s.hub.straps.role = .root → s.hub.works .pxb = true → s.hub.pxLink = true →
    s.hub.mainUp = true → r.bar = 0 → r.write = false → r.len = 4 → r.fbe = 0xF → r.addr = b.base →
    Ends (.pcieRequestRx r) s [] {Reg.TSC_KITTY_MIN} [.tsc] (fun t =>
      t.hub.out = [.tlp (.cpl r.tag 0 false (leBytes 4 (blkId b).toNat))]))

/-- Power-on reset and start-up, step by step (R45, R46, R47, R481, Table 2.5): what POR leaves, the 10 ms count, the sampled straps,
a root secret lost with VBAT, CORE_EN, the confirmation of the core, the release of the main die, and VDD_CORE before CORE_EN.
Its clauses rest on these choices of the model: log entries 9, 22, 40, 48 and 64. -/
def Obligations.PowerOn : Prop :=
  (∀ (s : State) (l : Bool),
    Ends (.porAssert l) s (allParts.filter fun p => p ∉ [.straps, .repairMap, .free]) { a | storedReg a = false } Block.all (fun t =>
      t.hub.power.phase = .por ∧ t.hub.custodyUp = false ∧ t.hub.power.rootLost = (s.hub.power.rootLost || l)
      ∧ t.hub.ksi = { s.hub.ksi with vbatLow := false, kat := 0 } ∧ t.hub.cells = [] ∧ t.hub.ctxs = []
      ∧ ∀ a, storedReg a = false → t.hub.rd a = regReset s.hub.straps a))
  ∧ (∀ s : State, s.hub.power.phase = .por → s.hub.power.custRisen = false →
    Ends .vddCustRise s [.power] ∅ [] (fun t => t.hub.power = { s.hub.power with custRisen := true }))
  ∧ (∀ (s : State) (st : Straps), s.hub.power.phase = .por → s.hub.power.custRisen = true → s.hub.power.rootLost = false →
    Ends (.porRelease st) s (allParts.filter fun p => p ∉ [.repairMap, .free]) { a | storedReg a = false } Block.all (fun t =>
      t.hub.straps = st ∧ t.hub.power.phase = .rails ∧ t.hub.custodyUp = true ∧ t.hub.mainUp = false
      ∧ bit (t.hub.hdr .ksi).live 0 = s.hub.ksi.lost
      ∧ ∀ a, storedReg a = false → t.hub.rd a = regReset st a))
  ∧ (∀ (s : State) (st : Straps), s.hub.power.phase = .por → s.hub.power.custRisen = true → s.hub.power.rootLost = true →
    Ends (.porRelease st) s (allParts.filter fun p => p ∉ [.repairMap, .free]) Set.univ Block.all (fun t =>
      t.hub.straps = st ∧ t.hub.power.phase = .rails ∧ t.hub.power.rootLost = false
      ∧ t.hub.ksi.lost = true ∧ t.hub.ksi.slots = [] ∧ bit (t.hub.hdr .ksi).live 0 = true
      ∧ t.hub.rd Reg.KSI_TAMP_REC = bitW 2 ∧ t.hub.rd Reg.KSI_TAMP_CFG = 0))
  ∧ (∀ s : State, s.hub.power.phase = .rails → s.hub.power.supplyBad = none → s.hub.power.thermHold = false →
    Ends .coreEnAssert s [.power] ∅ [] (fun t =>
      t.hub.power = { s.hub.power with phase := .core, coreEn := true, vcmd := 800, pmb := [pmbOperation true], pmbAt := 0, pmbFails := 0 }
      ∧ t.hub.out = [s.hub.pmbWire (pmbOperation true)]))
  ∧ (∀ s : State, s.hub.power.phase = .core →
    Ends (.coreConfirm true) s [.power] ∅ [] (fun t =>
      t.hub.power = { s.hub.power with
        phase := .confirmed, linear := true, pmb := [pmbVoutMode, pmbReadVout], pmbAt := 0, pmbFails := 0 }
      ∧ t.hub.out = [s.hub.pmbWire pmbVoutMode, s.hub.pmbWire pmbReadVout])
    ∧ Ends (.coreConfirm false) s [.power, .pins] {Reg.SIT_FAULTN_CNT} [.pmu, .sit] (fun t =>
      t.hub.power = { s.hub.power with
        phase := .confirmed, linear := false, pmb := [pmbVoutMode, pmbReadVout], pmbAt := 0, pmbFails := 0 }
      ∧ bit (t.hub.hdr .pmu).sticky 5 = true))
  ∧ (∀ s : State, s.hub.power.phase = .confirmed → s.hub.repairMap = [] → s.hub.straps.err = false →
    Ends .mainDieRelease s [.power] ∅ [] (fun t =>
      t.hub.power = { s.hub.power with
        phase := .running, state := .run, clamped := false, coreEn := true, held := false, fwRunning := false }
      ∧ t.hub.mainUp = true ∧ t.hub.mh = {}))
  ∧ (∀ (s : State) (x : RepairRec), s.hub.power.phase = .confirmed → s.hub.repairMap = [x] → x.kind = 1 → x.cleared = false →
    x.res < 33 → s.hub.straps.err = false →
    Ends .mainDieRelease s [.power, .counts, .pins]
      (blockRegs .lnx ∪ blockRegs .tsc ∪ {Reg.SIT_FAULTN_CNT}) [.sit, .tsc, .lnx] (fun t =>
      t.hub.mainUp = true ∧ t.hub.counts.kitty = 65536
      ∧ t.hub.rd Reg.TSC_CAP = 65536 + 0x20000 ∧ t.hub.rd Reg.TSC_KITTY_MIN = 65536 ∧ t.hub.mh = {}))
  ∧ (∀ s : State, s.hub.custodyUp = true → s.hub.power.coreEn = false →
    Ends .vddCoreEarly s [.pins] {Reg.SIT_FAULTN_CNT} [.pmu, .sit] (fun t =>
      bit (t.hub.hdr .pmu).sticky 4 = true ∧ t.hub.power = s.hub.power))

/-- Supply faults, thermal trips, RESET_N and the restarts (R33, R44, R55, R63, Table 3.16): the main die is clamped and held, the cause
is recorded, the custody die keeps its registers, its power ports and its keys, and the main die comes back as after POR.
Its clauses rest on these choices of the model: log entries 22, 49 and 64. -/
def Obligations.SupplyAndWarm : Prop :=
  (∀ (s : State) (r : Rail), s.hub.custodyUp = true → s.hub.power.coreEn = true → s.hub.power.state = .run →
    s.hub.power.phase ≠ .core →
    Ends (.supplyFault r) s [.power, .pins] {Reg.SIT_FAULTN_CNT, Reg.PMU_STATE} [.pmu, .sit] (fun t =>
      t.hub.power.supplyBad = some r ∧ t.hub.power.clamped = true ∧ t.hub.power.coreEn = false ∧ t.hub.mainUp = false
      ∧ t.hub.power.outOfCond = true ∧ bit (t.hub.hdr .pmu).sticky 0 = true ∧ bit (t.hub.hdr .pmu).sticky 3 = true))
  ∧ (∀ s : State, s.hub.custodyUp = true → s.hub.power.supplyBad.isSome = true →
    Ends .supplyRestart s mainParts (mainRegs ∪ {Reg.STW_RESET_CAUSE, Reg.PMU_DVFS, Reg.PMU_STATE}) Block.all (fun t =>
      t.hub.power.supplyBad = none ∧ t.hub.rdB Reg.STW_RESET_CAUSE 2 = true ∧ t.hub.rd Reg.PMU_DVFS = 0
      ∧ (s.hub.power.thermHold = false → t.hub.power.phase = .core ∧ t.hub.power.coreEn = true)
      ∧ (s.hub.power.thermHold = true → t.hub.power.phase = s.hub.power.phase)
      ∧ t.hub.cells = [] ∧ t.hub.ctxs = [] ∧ t.hub.time.ns = 0
      ∧ ∀ a, custodyReg a = false → t.hub.rd a = regReset s.hub.straps a))
  ∧ (∀ (s : State) (tj : BitVec 16), s.hub.custodyUp = true → 1300 ≤ tj.toInt → s.hub.power.thermHold = false →
    s.hub.power.state = .run →
    Ends (.thermalTrip tj) s [.power, .pins] {Reg.SIT_FAULTN_CNT, Reg.PMU_TEMP, Reg.PMU_STATE} [.pmu, .sit] (fun t =>
      t.hub.power.thermHold = true ∧ t.hub.power.coreEn = false ∧ t.hub.power.clamped = true ∧ t.hub.mainUp = false
      ∧ bit (t.hub.hdr .pmu).sticky 1 = true ∧ t.hub.rdF Reg.PMU_TEMP 15 0 = tj.toNat))
  ∧ (∀ (s : State) (tj : BitVec 16), s.hub.custodyUp = true → s.hub.power.thermHold = true → tj.toInt < 1100 →
    Ends (.thermalTripRelease tj) s mainParts
      (mainRegs ∪ {Reg.STW_RESET_CAUSE, Reg.PMU_DVFS, Reg.PMU_STATE, Reg.PMU_TEMP}) Block.all (fun t =>
      t.hub.power.thermHold = false ∧ t.hub.rdB Reg.STW_RESET_CAUSE 3 = true
      ∧ (s.hub.power.supplyBad = none → t.hub.power.phase = .core ∧ t.hub.power.coreEn = true)
      ∧ ∀ a, custodyReg a = false → t.hub.rd a = regReset s.hub.straps a))
  ∧ (∀ s : State, s.hub.custodyUp = true → s.hub.mainUp = true → s.hub.power.coreEn = true →
    Ends .resetNPulse s mainParts (mainRegs ∪ {Reg.STW_RESET_CAUSE, Reg.PMU_DVFS, Reg.PMU_STATE}) Block.all (fun t =>
      t.hub.rdB Reg.STW_RESET_CAUSE 1 = true ∧ t.hub.mainUp = false ∧ t.hub.power.heldCounts = s.hub.heldPools
      ∧ t.hub.power.fwRunning = false ∧ t.hub.power.vcmd = max s.hub.power.vcmd (s.hub.vPoint 0)
      ∧ ∀ a, custodyReg a = false → t.hub.rd a = regReset s.hub.straps a))
  ∧ (∀ s : State, s.hub.custodyUp = true → s.hub.mainUp = false → s.hub.power.coreEn = true → s.hub.power.state = .run →
    Ends .resetNPulse s [] {Reg.STW_RESET_CAUSE} [] (fun t => t.hub.rdB Reg.STW_RESET_CAUSE 1 = true))
  ∧ (∀ s : State, s.hub.custodyUp = true → s.hub.power.coreEn = true → s.hub.power.state = .nap →
    Ends .resetNPulse s mainParts (mainRegs ∪ {Reg.STW_RESET_CAUSE, Reg.PMU_DVFS, Reg.PMU_STATE, Reg.PMU_AO}) Block.all (fun t =>
      t.hub.rdB Reg.STW_RESET_CAUSE 1 = true ∧ t.hub.power.state = .run ∧ t.hub.power.phase = .core ∧ t.hub.mainUp = false
      ∧ t.hub.power.heldCounts = s.hub.heldPools ∧ t.hub.rdF Reg.PMU_STATE 2 0 = 0
      ∧ ∀ a, custodyReg a = false → t.hub.rd a = regReset s.hub.straps a))

/-- A block reset (R27, R82, R91, Table 3.16): RESET_DONE, no waiting commit, the ticket counter kept, and every register of the block
that the store or the release of the main die does not keep at its reset value; KSI's reset leaves every other block alone.
Its clauses rest on these choices of the model: log entries 21, 57 and 61. -/
def Obligations.BlockResets : Prop :=
  (∀ (s : State) (b : Block), s.hub.answers b = true → (s.hub.mbx b).busy = false →
    Ends (.blockReset b) s (allParts.filter fun p => p ∉ [.straps, .ksi, .repairMap]) Set.univ Block.all (fun t =>
      t.hub.raw b 31 = true ∧ (t.hub.hdr b).waiting = [] ∧ (t.hub.mbx b).ticket = (s.hub.mbx b).ticket
      ∧ (t.hub.mbx b).busy = false ∧ (t.hub.mbx b).ready = false))
  ∧ (∀ (s : State) (b : Block), s.hub.answers b = true → b ∈ [.tss, .eth, .pmc, .ksi] → (s.hub.mbx b).busy = true →
    Ends (.blockReset b) s (allParts.filter fun p => p ∉ [.straps, .ksi, .repairMap]) Set.univ Block.all (fun t =>
      t.hub.raw b 31 = true ∧ t.hub.raw b 29 = true ∧ (t.hub.mbx b).ticket = (s.hub.mbx b).ticket
      ∧ (t.hub.mbx b).busy = false ∧ (t.hub.mbx b).ready = true ∧ (t.hub.mbx b).err = true ∧ (t.hub.mbx b).errCode = 8))
  ∧ (∀ (s : State) (b : Block) (a : Nat), s.hub.answers b = true → b ∈ [.eth, .usb, .ppc, .pmc, .sit, .mir] → ofBlock b a = true →
    keptAtBlockReset a = false →
    Ends (.blockReset b) s (allParts.filter fun p => p ∉ [.straps, .ksi, .repairMap]) Set.univ Block.all (fun t =>
      t.hub.rd a = regReset s.hub.straps a))
  ∧ (∀ s : State, s.hub.custodyUp = true →
    Ends (.blockReset .ksi) s [.pend, .wide, .arbs] (blockRegs .ksi ∪ {Reg.TSC_KITTY_MIN}) [.ksi, .tsc] (fun t =>
      t.hub.ksi = s.hub.ksi ∧ (t.hub.hdr .ksi).sticky = (s.hub.hdr .ksi).sticky ∧ (t.hub.hdr .ksi).flt = (s.hub.hdr .ksi).flt
      ∧ (t.hub.hdr .ksi).recovery = (s.hub.hdr .ksi).recovery
      ∧ ∀ a, storedReg a = true → t.hub.rd a = s.hub.rd a))

/-- Clocks and DOZE's end (R20, R24, R426): a block with work requests its clock and is granted it, an idle hold that ends releases it
unless a keep-awake mark or an armed commit holds it, and a request ends DOZE.
Its clauses rest on these choices of the model: log entries 14, 23 and 52. -/
def Obligations.ClockGating : Prop :=
  (∀ (s : State) (b : Block), s.hub.up b = true → fastBlock b = true → s.hub.power.state = .run →
    (b = .pxb → s.hub.rdB Reg.PX_STAT 0 = false) →
    Ends (.clockRequest b) s [] ∅ [b] (fun t => t.hub.hdr b = { s.hub.hdr b with clkReq := true, enable := (t.hub.hdr b).enable }))
  ∧ (∀ s : State, s.hub.up .pxb = true → s.hub.power.state = .run → s.hub.rdB Reg.PX_STAT 0 = true →
    Ends (.clockRequest .pxb) s [] laneStats [.pxb] (fun t =>
      (t.hub.hdr .pxb).clkReq = true ∧ ∀ l ∈ s.hub.portLanes 0x0D, t.hub.rdB (Reg.LN_STAT l) 15 = false))
  ∧ (∀ (s : State) (b : Block), s.hub.up b = true → fastBlock b = true → s.hub.power.state = .doze →
    (b = .pxb → s.hub.rdB Reg.PX_STAT 0 = false) →
    Ends (.clockRequest b) s [.power, .sit] {Reg.PMU_STATE} [b, .pmu] (fun t =>
      (t.hub.hdr b).clkReq = true ∧ t.hub.power.state = .run ∧ t.hub.rdF Reg.PMU_STATE 2 0 = 0 ∧ t.hub.raw .pmu 0 = true))
  ∧ (∀ (s : State) (b : Block), s.hub.up b = true → s.hub.power.state = .run → (s.hub.hdr b).clkReq = true →
    Ends (.clockGrant b) s [] ∅ [b] (fun t =>
      (t.hub.hdr b).clkGranted = true ∧ (t.hub.hdr b).clkReq = true ∧ (t.hub.hdr b).sticky = (s.hub.hdr b).sticky))
  ∧ (∀ (s : State) (b : Block), s.hub.up b = true → (s.hub.hdr b).clkGranted = true → s.hub.clockHeld b = false →
    (b = .pxb → s.hub.rdB Reg.PX_STAT 0 = false) →
    Ends (.idleHoldExpire b) s [.power] ∅ [b] (fun t =>
      t.hub.power = { s.hub.power with idleFrom := s.hub.mono }
      ∧ (t.hub.hdr b).clkGranted = false ∧ (t.hub.hdr b).clkReq = false ∧ (t.hub.hdr b).sticky = (s.hub.hdr b).sticky))
  ∧ (∀ (s : State) (b : Block), s.hub.clockHeld b = true →
    Ends (.idleHoldExpire b) s [] ∅ [] (fun t => t.hub = s.hub))
  ∧ (∀ s : State, s.hub.custodyUp = true → s.hub.power.state = .doze →
    Ends .dozeExit s [.power, .sit] {Reg.PMU_STATE} [.pmu] (fun t =>
      t.hub.power.state = .run ∧ t.hub.rdF Reg.PMU_STATE 2 0 = 0 ∧ t.hub.rdF Reg.PMU_STATE 9 7 = 1
      ∧ t.hub.rdF Reg.PMU_STATE 15 10 = 0 ∧ t.hub.raw .pmu 0 = true))

/-- Wake sources (R438, R439): in RUN an enabled one sets WAKE, in NAP and DORMANT the first enabled one starts the exit, the tamper
source needs no enable; the timer and the comparator that assert are sources 4 and 2.
Its clauses rest on these choices of the model: log entries 23, 46 and 47. -/
def Obligations.WakeSources : Prop :=
  (∀ (s : State) (i : Fin 6), s.hub.custodyUp = true → s.hub.power.state = .run →
    s.hub.rdF Reg.PMU_STATE 2 0 ≠ 4 → (i = 3 ∨ s.hub.rdB Reg.PMU_WAKE_EN i.val = true) →
    Ends (.wakeEvent i) s [] ∅ [.pmu] (fun t => t.hub.raw .pmu 1 = true ∧ t.hub.mbx .pmu = s.hub.mbx .pmu))
  ∧ (∀ (s : State) (i : Fin 6), s.hub.opRunning .pmu 0x10 = true → s.hub.power.state = .run →
    s.hub.rdF Reg.PMU_STATE 2 0 = 4 → (i = 3 ∨ s.hub.rdB Reg.PMU_WAKE_EN i.val = true) →
    Ends (.wakeEvent i) s [] {Reg.PMU_STATE} [.pmu] (fun t =>
      t.hub.raw .pmu 1 = true ∧ t.hub.rdF Reg.PMU_STATE 2 0 = 0 ∧ (t.hub.mbx .pmu).result = some (mbxErr 0x81)))
  ∧ (∀ (s : State) (i : Fin 6), s.hub.custodyUp = true → s.hub.power.state = .doze →
    Ends (.wakeEvent i) s [.power, .sit] {Reg.PMU_STATE} [.pmu] (fun t =>
      t.hub.power.state = .run ∧ t.hub.rdF Reg.PMU_STATE 9 7 = 1 ∧ t.hub.rdF Reg.PMU_STATE 15 10 = 2 ^ i.val))
  ∧ (∀ (s : State) (i : Fin 6), s.hub.custodyUp = true → s.hub.power.state ≠ .doze → i ≠ 3 →
    s.hub.rdB Reg.PMU_WAKE_EN i.val = false →
    Ends (.wakeEvent i) s [] ∅ [] (fun t => t.hub.power = s.hub.power))
  ∧ (∀ (s : State) (i : Fin 6), s.hub.custodyUp = true → (s.hub.power.state = .nap ∨ s.hub.power.state = .dormant) →
    (i = 3 ∨ s.hub.rdB Reg.PMU_WAKE_EN i.val = true) → s.hub.power.wakeLatch = none →
    Ends (.wakeEvent i) s [.power] {Reg.PMU_STATE} [] (fun t =>
      t.hub.power = { s.hub.power with wakeLatch := some i.val } ∧ t.hub.rdF Reg.PMU_STATE 2 0 = 5
      ∧ t.hub.rdF Reg.PMU_STATE 31 3 = s.hub.rdF Reg.PMU_STATE 31 3))
  ∧ (∀ s : State, s.hub.custodyUp = true → s.hub.power.timer = 1 → s.hub.power.state = .run →
    s.hub.rdF Reg.PMU_STATE 2 0 ≠ 4 →
    s.hub.rdB Reg.PMU_WAKE_EN 4 = true →
    Ends .wakeTimerExpire s [.power] ∅ [.pmu] (fun t =>
      t.hub.power = { s.hub.power with timer := 0 } ∧ t.hub.raw .pmu 5 = true ∧ t.hub.raw .pmu 1 = true))
  ∧ (∀ (s : State) (v : Bool), s.hub.custodyUp = true → s.hub.power.state = .run →
    s.hub.rdF Reg.PMU_STATE 2 0 ≠ 4 → s.hub.rdB Reg.PMU_WAKE_CMP 7 ≠ v →
    s.hub.rdB Reg.PMU_WAKE_CMP 6 = !v → s.hub.rdB Reg.PMU_WAKE_EN 2 = true →
    Ends (.wakeCmpCross v) s [] {Reg.PMU_WAKE_CMP} [.pmu] (fun t =>
      t.hub.rd Reg.PMU_WAKE_CMP = setBit (s.hub.rd Reg.PMU_WAKE_CMP) 7 v ∧ t.hub.raw .pmu 1 = true))
  ∧ (∀ (s : State) (v : Bool), s.hub.custodyUp = true → s.hub.rdB Reg.PMU_WAKE_CMP 7 ≠ v → s.hub.rdB Reg.PMU_WAKE_CMP 6 = v →
    Ends (.wakeCmpCross v) s [] {Reg.PMU_WAKE_CMP} [] (fun t =>
      t.hub.rd Reg.PMU_WAKE_CMP = setBit (s.hub.rd Reg.PMU_WAKE_CMP) 7 v))

/-- Voltage and frequency (R24, R50, R440, R441): a raise commands the voltage and keeps the point until it is confirmed, a lowering
takes the point at once, a keep-awake mark holds the change, and a raise that is not confirmed goes back.
Its clauses rest on these choices of the model: log entries 39, 46, 48, 56, 57 and 64. -/
def Obligations.VoltageSteps : Prop :=
  (∀ (s : State) (x : BitVec 2), s.hub.custodyUp = true → s.hub.mainUp = true → s.hub.power.step = none →
    s.hub.power.linear = true → s.hub.anyAwake = false → x.toNat < s.hub.dvfsPoint →
    Ends (.dvfsTargetWrite x) s [.power] {Reg.PMU_DVFS} [] (fun t =>
      t.hub.power = { s.hub.power with
        step := some ⟨x.toNat, true, s.hub.power.vcmd, s.hub.mono⟩, vcmd := s.hub.vPoint x.toNat
        pmb := [pmbVout (s.hub.vPoint x.toNat), pmbStatus, pmbReadVout], pmbAt := 0, pmbFails := 0 }
      ∧ t.hub.dvfsTarget = x.toNat ∧ t.hub.dvfsPoint = s.hub.dvfsPoint ∧ t.hub.rdB Reg.PMU_DVFS 4 = true
      ∧ t.hub.rdB Reg.PMU_DVFS 5 = false
      ∧ t.hub.out = [s.hub.pmbWire (pmbVout (s.hub.vPoint x.toNat)), s.hub.pmbWire pmbStatus, s.hub.pmbWire pmbReadVout]))
  ∧ (∀ (s : State) (x : BitVec 2), s.hub.custodyUp = true → s.hub.mainUp = true → s.hub.power.step = none →
    s.hub.power.linear = true → s.hub.anyAwake = false → s.hub.dvfsPoint < x.toNat →
    Ends (.dvfsTargetWrite x) s [.power] ({Reg.PMU_DVFS} ∪ leadRegs) [] (fun t =>
      t.hub.power = { s.hub.power with
        step := some ⟨x.toNat, false, s.hub.power.vcmd, s.hub.mono⟩, vcmd := s.hub.vPoint x.toNat
        pmb := [pmbVout (s.hub.vPoint x.toNat), pmbStatus], pmbAt := 0, pmbFails := 0 }
      ∧ t.hub.dvfsTarget = x.toNat ∧ t.hub.dvfsPoint = x.toNat ∧ t.hub.rdB Reg.PMU_DVFS 4 = true))
  ∧ (∀ (s : State) (x : BitVec 2), s.hub.custodyUp = true → s.hub.mainUp = true → s.hub.power.step = none →
    s.hub.power.linear = true → s.hub.anyAwake = true → x.toNat ≠ s.hub.dvfsPoint →
    Ends (.dvfsTargetWrite x) s [] {Reg.PMU_DVFS} [] (fun t =>
      t.hub.dvfsTarget = x.toNat ∧ t.hub.dvfsPoint = s.hub.dvfsPoint ∧ t.hub.rdB Reg.PMU_DVFS 5 = true))
  ∧ (∀ (s : State) (p v n : Nat) (r : Bool), s.hub.custodyUp = true → s.hub.power.step = some ⟨p, r, v, n⟩ →
    p = s.hub.dvfsTarget → p < 4 →
    Ends .dvfsStepComplete s [.power] ({Reg.PMU_DVFS} ∪ leadRegs) [.pmu] (fun t =>
      t.hub.power = { s.hub.power with step := none, pmbFails := 0 } ∧ t.hub.dvfsPoint = p
      ∧ t.hub.rdB Reg.PMU_DVFS 4 = false ∧ t.hub.raw .pmu 2 = true))
  ∧ (∀ (s : State) (p v n : Nat), s.hub.custodyUp = true → s.hub.power.step = some ⟨p, true, v, n⟩ → p = s.hub.dvfsTarget →
    n + 500000 ≤ s.hub.mono →
    Ends .dvfsRaiseTimeout s [.power, .pins] {Reg.PMU_DVFS, Reg.SIT_FAULTN_CNT} [.pmu, .sit] (fun t =>
      t.hub.power = { s.hub.power with
        step := none, pmb := [pmbVout v, pmbStatus], pmbAt := 0, pmbFails := 0, vcmd := v }
      ∧ t.hub.out = [s.hub.pmbWire (pmbVout v), s.hub.pmbWire pmbStatus]
      ∧ t.hub.dvfsPoint = s.hub.dvfsPoint ∧ t.hub.rdB Reg.PMU_DVFS 6 = true ∧ t.hub.raw .pmu 3 = true
      ∧ bit (t.hub.hdr .pmu).sticky 5 = true))
  ∧ (∀ s : State, s.hub.custodyUp = true → s.hub.rdB Reg.PMU_DVFS 5 = true → s.hub.anyAwake = false →
    s.hub.power.step = none → s.hub.power.linear = true → s.hub.dvfsTarget < s.hub.dvfsPoint →
    Ends .dvfsHeldRelease s [.power] {Reg.PMU_DVFS} [] (fun t =>
      t.hub.power = { s.hub.power with
        step := some ⟨s.hub.dvfsTarget, true, s.hub.power.vcmd, s.hub.mono⟩, vcmd := s.hub.vPoint s.hub.dvfsTarget
        pmb := [pmbVout (s.hub.vPoint s.hub.dvfsTarget), pmbStatus, pmbReadVout], pmbAt := 0, pmbFails := 0 }
      ∧ t.hub.rdB Reg.PMU_DVFS 5 = false ∧ t.hub.rdB Reg.PMU_DVFS 4 = true))

/-- PMBus retries, sensed temperature, crystal and always-on load (R49, R59, R63, R444, Table 2.6).
Its clauses rest on these choices of the model: log entries 11, 48, 64 and 65. -/
def Obligations.PowerMonitoring : Prop :=
  (∀ s : State, s.hub.custodyUp = true → s.hub.power.pmb.isEmpty = false → s.hub.power.pmbFails < 3 →
    Ends .pmbusRetry s [.power, .free] ∅ [] (fun t =>
      t.hub.power = { s.hub.power with pmbAt := t.hub.power.pmbAt, pmbFails := s.hub.power.tries t.hub.power.pmbAt + 1 }
      ∧ t.hub.power.pmbAt < s.hub.power.pmb.length
      ∧ t.hub.out = [s.hub.pmbWire (s.hub.power.pmb.getD t.hub.power.pmbAt pmbStatus)]))
  ∧ (∀ s : State, s.hub.custodyUp = true → s.hub.power.pmb.isEmpty = false →
    Runs .pmbusRetry s (settle s.hub s.hub.fresh.pmbFailed))
  ∧ (∀ s : State, s.hub.custodyUp = true → s.hub.power.pmb.length = 1 → s.hub.power.pmbAt = 0 → 3 ≤ s.hub.power.pmbFails →
    Ends .pmbusRetry s [.power, .pins, .free] {Reg.PMU_DVFS, Reg.SIT_FAULTN_CNT} [.pmu, .sit] (fun t =>
      t.hub.power = { s.hub.power with
        step := none, pmbFails := 0, pmb := [], vcmd := s.hub.power.step.elim s.hub.power.vcmd fun x => x.old }
      ∧ t.hub.dvfsPoint = s.hub.dvfsPoint
      ∧ bit (t.hub.hdr .pmu).sticky 5 = true))
  ∧ (∀ s : State, s.hub.custodyUp = true → Ends .pmbPgLow s [.power] ∅ [] (fun t =>
      t.hub.power = { s.hub.power with pmb := s.hub.power.pmb ++ [pmbStatus] } ∧ t.hub.out = [s.hub.pmbWire pmbStatus]))
  ∧ (∀ (s : State) (tj : BitVec 16), s.hub.custodyUp = true → 1180 ≤ tj.toInt →
    Ends (.tempHigh tj) s [.power, .pins] {Reg.PMU_TEMP, Reg.SIT_FAULTN_CNT} [.pmu, .sit] (fun t =>
      t.hub.rdF Reg.PMU_TEMP 15 0 = tj.toNat ∧ bit (t.hub.hdr .pmu).sticky 2 = true ∧ bit (t.hub.hdr .pmu).live 2 = true
      ∧ bit (t.hub.hdr .pmu).sticky 3 = true ∧ t.hub.power = { s.hub.power with outOfCond := true }))
  ∧ (∀ (s : State) (tj : BitVec 16), s.hub.custodyUp = true → tj.toInt < 1180 →
    Ends (.tempHigh tj) s [] {Reg.PMU_TEMP} [.pmu] (fun t =>
      t.hub.rdF Reg.PMU_TEMP 15 0 = tj.toNat ∧ bit (t.hub.hdr .pmu).live 2 = false
      ∧ (t.hub.hdr .pmu).sticky = (s.hub.hdr .pmu).sticky))
  ∧ (∀ s : State, s.hub.custodyUp = true → s.hub.power.xtal = false →
    Ends .xtalSwitchover s [.power] ∅ [] (fun t => t.hub.power = { s.hub.power with xtal := true } ∧ t.hub.time = s.hub.time)
    ∧ Ends .xtalStartTimeout s [.pins] {Reg.SIT_FAULTN_CNT} [.pmu, .sit] (fun t =>
      bit (t.hub.hdr .pmu).sticky 6 = true ∧ t.hub.power.xtal = false))
  ∧ (∀ (s : State) (board : BitVec 12), s.hub.opRunning .pmu 0x11 = true →
    (s.hub.arg .pmu 0).toNat = 2 ∨ (s.hub.arg .pmu 0).toNat = 3 →
    Ends (.aoMeasure board) s [.power] {Reg.PMU_AO} [.pmu] (fun t =>
      t.hub.power = { s.hub.power with aoBoard := board.toNat }
      ∧ t.hub.rdF Reg.PMU_AO 27 16 = min 4095 (t.hub.aoLoad false)
      ∧ (t.hub.mbx .pmu).result = some (mbxOk [w32 (t.hub.aoLoad (decide ((s.hub.arg .pmu 0).toNat = 2)))])))
  ∧ (∀ (s : State) (board : BitVec 12), s.hub.opRunning .pmu 0x11 = true →
    (s.hub.arg .pmu 0).toNat ≠ 2 → (s.hub.arg .pmu 0).toNat ≠ 3 →
    Ends (.aoMeasure board) s [] ∅ [.pmu] (fun t => (t.hub.mbx .pmu).result = some (mbxErr 2)))

/-- STATE_REQ and DOZE (R425–R428, R433, R434, Tables 17.1 and 17.2): a state that does not exist is refused, the first condition that
fails names the error, DOZE withdraws the fabric's grants, and NAP, DORMANT and OFF leave the state that they name.
Its clauses rest on these choices of the model: log entries 23, 46, 48 and 62. -/
def Obligations.StateRequests : Prop :=
  (∀ (s : State) (b1 b2 : BitVec 12) (w : Option (Fin 6)), s.hub.opRunning .pmu 0x10 = true → 5 ≤ (s.hub.arg .pmu 0).toNat →
    s.hub.power.state ≠ .doze →
    Ends (.stateReq b1 b2 w) s [] {Reg.TSC_KITTY_MIN} [.pmu, .tsc] (fun t =>
      (t.hub.mbx .pmu).result = some (mbxErr 2) ∧ t.hub.power = s.hub.power))
  ∧ (∀ (s : State) (b1 b2 : BitVec 12) (w : Option (Fin 6)), s.hub.opRunning .pmu 0x10 = true → (s.hub.arg .pmu 0).toNat = 0 →
    s.hub.power.state = .run →
    Ends (.stateReq b1 b2 w) s [] {Reg.TSC_KITTY_MIN} [.pmu, .tsc] (fun t =>
      (t.hub.mbx .pmu).result = some (mbxOk []) ∧ t.hub.power = s.hub.power))
  ∧ (∀ (s : State) (b1 b2 : BitVec 12) (w : Option (Fin 6)), s.hub.opRunning .pmu 0x10 = true → (s.hub.arg .pmu 0).toNat = 1 →
    s.hub.power.state = .run → s.hub.mainUp = true → s.hub.dozeCheck = none →
    Ends (.stateReq b1 b2 w) s [.power] ({Reg.PMU_STATE, Reg.PMU_DOZES, Reg.TSC_KITTY_MIN} ∪ laneStats) (Block.all.filter fastBlock) (fun t =>
      t.hub.power = { s.hub.power with state := .doze, since := s.hub.mono } ∧ (∀ l ∈ List.range 40, t.hub.sitHolds l = false) ∧ t.hub.rdF Reg.PMU_STATE 2 0 = 1
      ∧ t.hub.rd Reg.PMU_DOZES = incHold (s.hub.rd Reg.PMU_DOZES)
      ∧ (∀ b ∈ Block.all, fastBlock b = true → (t.hub.hdr b).clkGranted = false)))
  ∧ (∀ (s : State) (b1 b2 : BitVec 12) (w : Option (Fin 6)) (e : Nat), s.hub.opRunning .pmu 0x10 = true →
    (s.hub.arg .pmu 0).toNat = 1 → s.hub.power.state = .run → s.hub.mainUp = true → s.hub.dozeCheck = some e →
    Ends (.stateReq b1 b2 w) s [] {Reg.TSC_KITTY_MIN} [.pmu, .tsc] (fun t =>
      (t.hub.mbx .pmu).result = some (mbxErr e) ∧ t.hub.power = s.hub.power))
  ∧ (∀ (s : State) (b1 b2 : BitVec 12) (nap : Bool), s.hub.opRunning .pmu 0x10 = true →
    (s.hub.arg .pmu 0).toNat = (if nap then 2 else 3) → s.hub.power.state = .run → s.hub.rdF Reg.PMU_STATE 2 0 = 0 →
    s.hub.mainUp = true → s.hub.napCheck nap = none →
    s.hub.looseSlots nap = [] → s.hub.paging.wbs = [] → s.hub.pxLink = false →
    (∀ p ∈ List.range 9, s.hub.klState p = 0) → (s.hub.aoSense b1.toNat).aoLoad nap ≤ 450 →
    (s.hub.aoSense b2.toNat).aoLoad nap ≤ 450 →
    Ends (.stateReq b1 b2 none) s [.power] {Reg.PMU_STATE, Reg.PMU_AO, Reg.PMU_NAPS, Reg.TSC_KITTY_MIN} [.tsc] (fun t =>
      t.hub.power.state = (if nap then .nap else .dormant) ∧ t.hub.power.clamped = true ∧ t.hub.power.coreEn = nap
      ∧ t.hub.power.since = s.hub.mono ∧ t.hub.rdF Reg.PMU_STATE 2 0 = (if nap then 2 else 3)
      ∧ t.hub.rdB Reg.PMU_AO 0 = true ∧ t.hub.rd Reg.PMU_NAPS = incHold (s.hub.rd Reg.PMU_NAPS)
      ∧ t.hub.out = (if nap then [s.hub.pmbWire (pmbOperation false)] else [])))
  ∧ (∀ (s : State) (b1 b2 : BitVec 12) (w : Option (Fin 6)) (nap : Bool) (e : Nat), s.hub.opRunning .pmu 0x10 = true →
    (s.hub.arg .pmu 0).toNat = (if nap then 2 else 3) → s.hub.power.state = .run → s.hub.rdF Reg.PMU_STATE 2 0 = 0 →
    s.hub.mainUp = true → s.hub.napCheck nap = some e →
    Ends (.stateReq b1 b2 w) s [] {Reg.TSC_KITTY_MIN} [.pmu, .tsc] (fun t =>
      (t.hub.mbx .pmu).result = some (mbxErr e) ∧ t.hub.power = s.hub.power))
  ∧ (∀ (s : State) (b1 b2 : BitVec 12) (w : Option (Fin 6)), s.hub.opRunning .pmu 0x10 = true → (s.hub.arg .pmu 0).toNat = 4 →
    s.hub.power.state = .run → s.hub.mainUp = true →
    Ends (.stateReq b1 b2 w) s [.power, .ppc, .pins] (blockRegs .ppc ∪ {Reg.TSC_KITTY_MIN, Reg.SIT_FAULTN_CNT})
      [.pmu, .ppc, .sit, .tsc] (fun t =>
      t.hub.power.state = .off ∧ t.hub.power.clamped = true ∧ t.hub.power.coreEn = false ∧ t.hub.custodyUp = false
      ∧ (t.hub.mbx .pmu).busy = false ∧ (t.hub.mbx .pmu).ready = true ∧ (t.hub.mbx .pmu).errCode = 0))
  ∧ (∀ s : State, s.hub.custodyUp = true → s.hub.mainUp = true → s.hub.power.state = .run → s.hub.rdB Reg.PMU_AUTO 0 = true →
    s.hub.opRunning .pmu 0x10 = false → s.hub.branchesFree = true → s.hub.dozeCheck = none →
    s.hub.power.idleFrom + 1000 * max 1 (s.hub.rdF Reg.PMU_AUTO 31 16) ≤ s.hub.mono →
    Ends .autoDozeEntry s [.power] ({Reg.PMU_STATE, Reg.PMU_DOZES} ∪ laneStats) (Block.all.filter fastBlock) (fun t =>
      t.hub.power = { s.hub.power with state := .doze, since := s.hub.mono } ∧ t.hub.rdF Reg.PMU_STATE 2 0 = 1
      ∧ t.hub.rd Reg.PMU_DOZES = incHold (s.hub.rd Reg.PMU_DOZES)))

/-- The ways back to RUN (R431–R433, R437, R441, R506, Table 17.3): cell time comes back from the keep domain, the retained contexts
stay, everything else of the main die is at reset, the state left and its wake source are recorded; without PMB_PG a NAP exit
is a supply fault; a brown-out acts as POR and is counted.
Its clauses rest on these choices of the model: log entries 22, 23, 46, 47, 48 and 64. -/
def Obligations.WakeUps : Prop :=
  (∀ (s : State) (kt : Nat) (ok : Bool) (w : Nat), s.hub.custodyUp = true → s.hub.power.state = .nap →
    s.hub.power.wakeLatch = some w → w < 6 →
    Ends (.napExit kt ok true) s mainParts
      (mainRegs ∪ {Reg.PMU_DVFS, Reg.PMU_AO, Reg.PMU_STATE, Reg.SIT_FAULTN_CNT})
      (Block.all.filter fun b => b ∉ [.ppc, .ksi]) (fun t =>
      t.hub.mainUp = true ∧ t.hub.power.state = .run ∧ t.hub.power.clamped = false ∧ t.hub.power.fwRunning = true
      ∧ t.hub.power.wakeLatch = none ∧ t.hub.time.ns = (s.hub.time.ns + kt * 30517578125 / 1000000) % 2 ^ 64
      ∧ t.hub.ctxs = s.hub.retainedCtxs ∧ t.hub.rdF Reg.PMU_STATE 2 0 = 0 ∧ t.hub.rdF Reg.PMU_STATE 9 7 = 2
      ∧ t.hub.rdF Reg.PMU_STATE 15 10 = 2 ^ w ∧ t.hub.rd Reg.PMU_DVFS = 0 ∧ t.hub.rdB Reg.PMU_AO 0 = false
      ∧ t.hub.raw .pmu 0 = true ∧ bit (t.hub.hdr .pmu).sticky 5 = (bit (s.hub.hdr .pmu).sticky 5 || !ok) ∧ t.hub.mh = {}))
  ∧ (∀ (s : State) (kt : Nat) (ok : Bool), s.hub.custodyUp = true → s.hub.power.state = .nap →
    s.hub.power.wakeLatch.isSome = true → s.hub.power.coreEn = true →
    Ends (.napExit kt ok false) s [.power, .pins] {Reg.PMU_STATE, Reg.SIT_FAULTN_CNT} [.pmu, .sit] (fun t =>
      t.hub.mainUp = false ∧ t.hub.power.supplyBad = some .core ∧ t.hub.power.coreEn = false ∧ t.hub.power.state = .run
      ∧ bit (t.hub.hdr .pmu).sticky 0 = true ∧ bit (t.hub.hdr .pmu).sticky 5 = true))
  ∧ (∀ (s : State) (kt : Nat) (a b i : FwImage) (w : Nat), s.hub.custodyUp = true → s.hub.power.state = .dormant →
    s.hub.power.wakeLatch = some w → w < 6 → fwGood i = true → s.hub.role = .root →
    Ends (.dormantExit kt a b (some i)) s mainParts
      (mainRegs ∪ {Reg.PMU_DVFS, Reg.PMU_AO, Reg.PMU_STATE, Reg.SIT_FAULTN_CNT})
      (Block.all.filter fun x => x ∉ [.ppc, .ksi]) (fun t =>
      t.hub.mainUp = true ∧ t.hub.power.state = .run ∧ t.hub.power.clamped = false ∧ t.hub.power.fwRunning = true
      ∧ t.hub.time.ns = (s.hub.time.ns + kt * 30517578125 / 1000000) % 2 ^ 64 ∧ t.hub.ctxs = []
      ∧ t.hub.rdF Reg.PMU_STATE 9 7 = 3 ∧ t.hub.rdF Reg.PMU_STATE 15 10 = 2 ^ w
      ∧ t.hub.rd Reg.STW_RESET_CAUSE = s.hub.rd Reg.STW_RESET_CAUSE ∧ t.hub.raw .pmu 0 = true))
  ∧ (∀ (s : State) (st : Straps), s.hub.custodyUp = true → s.hub.power.rootLost = false →
    Ends (.aoBrownout st) s (allParts.filter fun p => p ∉ [.repairMap, .free])
      ({ a | storedReg a = false } ∪ {Reg.PMU_BROWNOUTS}) Block.all (fun t =>
      t.hub.straps = st ∧ t.hub.power.phase = .rails ∧ t.hub.mainUp = false
      ∧ t.hub.rd Reg.PMU_BROWNOUTS = incHold (s.hub.rd Reg.PMU_BROWNOUTS)
      ∧ ∀ a, storedReg a = false → t.hub.rd a = regReset st a))
  ∧ (∀ (s : State) (a b : FwImage), s.hub.mainUp = true → s.hub.power.fwRunning = false → s.hub.straps.boot = false →
    s.hub.role = .root → (fwGood a = true ∨ fwGood b = true) → (a.version.toNat < b.version.toNat → fwGood b = true) →
    (b.version.toNat ≤ a.version.toNat → fwGood a = true) →
    Ends (.firmwareLoad a b none) s [.power] {Reg.TSC_KITTY_MIN, Reg.TS_BYTE_TIME 0x11, Reg.TS_CAP 0x11} [.tsc] (fun t =>
      t.hub.power = { s.hub.power with fwRunning := true } ∧ (t.hub.hdr .stw).sticky = (s.hub.hdr .stw).sticky))
  ∧ (∀ (s : State) (a b i : FwImage), s.hub.mainUp = true → s.hub.power.fwRunning = false → fwGood i = true →
    (s.hub.role = .transit ∨ s.hub.role = .leaf) → (s.hub.hdr .kll).waiting = [] →
    Ends (.firmwareLoad a b (some i)) s [.power, .pend] {Reg.TSC_KITTY_MIN, Reg.TS_BYTE_TIME 0x11, Reg.TS_CAP 0x11} [.kll, .tsc] (fun t =>
      t.hub.power.fwRunning = true ∧ fld (t.hub.shadow (Reg.KL_CFG 0)) 3 0 = 0xE ∧ bit (t.hub.shadow (Reg.KL_CFG 0)) 4 = true
      ∧ bit (t.hub.shadow (Reg.KL_CFG 0)) 6 = true
      ∧ (t.hub.hdr .kll).waiting = List.range (windowCount .kll) ∧ (t.hub.hdr .kll).armedAt = s.hub.mono))
  ∧ (∀ (s : State) (a b : FwImage), s.hub.mainUp = true → s.hub.power.fwRunning = false → s.hub.straps.boot = false →
    fwGood a = false → fwGood b = false →
    Ends (.firmwareLoad a b none) s [.pins] {Reg.TSC_KITTY_MIN, Reg.SIT_FAULTN_CNT} [.stw, .sit, .tsc] (fun t =>
      t.hub.power = s.hub.power ∧ bit (t.hub.hdr .stw).sticky 2 = true))

/-- References and signal detect (R22, R94, R96, R106, R429): a reference that appears is pending, the windows' end judges each, the
loss of one with no port on it is a fault of LNX, the loss of REFCLK_A a supply fault; a lane's signal wakes, and ends a hold.
Its clauses rest on these choices of the model: log entries 22, 26 and 46. -/
def Obligations.References : Prop :=
  (∀ (s : State) (r : Fin 4), s.hub.mainUp = true → s.hub.rdB Reg.LNX_REF_STAT r = false →
    Ends (.refclkDetect r) s [] {Reg.LNX_REF_STAT} [.lnx] (fun t =>
      t.hub.rdB Reg.LNX_REF_STAT r = true ∧ t.hub.rdB Reg.LNX_REF_STAT (8 + r) = true ∧ t.hub.raw .lnx 0 = true))
  ∧ (∀ s : State, s.hub.mainUp = true → s.hub.power.state = .run →
    Ends (.refclkLoss 0) s [.power, .pins] {Reg.SIT_FAULTN_CNT, Reg.TSC_KITTY_MIN, Reg.PMU_STATE} [.pmu, .sit, .tsc] (fun t =>
      t.hub.power.supplyBad = some .core ∧ t.hub.power.coreEn = false ∧ t.hub.mainUp = false))
  ∧ (∀ (s : State) (r : Fin 4), s.hub.mainUp = true → r ≠ 0 →
    (s.hub.portsWith fun ls => ls.any fun l => laneRef l = r) = [] →
    Ends (.refclkLoss r) s [.pins] {Reg.LNX_REF_STAT, Reg.SIT_FAULTN_CNT, Reg.TSC_KITTY_MIN} [.lnx, .sit, .tsc] (fun t =>
      t.hub.rdB Reg.LNX_REF_STAT r = false ∧ t.hub.rdB Reg.LNX_REF_STAT (4 + r) = false
      ∧ t.hub.rdB Reg.LNX_REF_STAT (8 + r) = false ∧ bit (t.hub.hdr .lnx).sticky 0 = true ∧ bit (t.hub.hdr .lnx).live 0 = true))
  ∧ (∀ (s : State) (r : Fin 4) (c : Nat), s.hub.mainUp = true → r ≠ 0 → c ≤ 8 → s.hub.klState c = 0 →
    (s.hub.portsWith fun ls => ls.any fun l => laneRef l = r) = [c] →
    Ends (.refclkLoss r) s [.pins] {Reg.LNX_REF_STAT, Reg.SIT_FAULTN_CNT, Reg.TSC_KITTY_MIN} [.lnx, .sit, .tsc] (fun t =>
      t.hub.rdB Reg.LNX_REF_STAT r = false ∧ bit (t.hub.hdr .lnx).sticky 0 = true ∧ t.hub.klState c = 0))
  ∧ (∀ (s : State) (g : BitVec 4) (w : Word), s.hub.mainUp = true →
    w = setFld (setFld (s.hub.rd Reg.LNX_REF_STAT) 7 4 (s.hub.rdF Reg.LNX_REF_STAT 3 0 &&& (g.toNat ||| 1))) 11 8 0 →
    s.hub.portsWith (splitRefs w) = [] →
    Ends (.cosourceWindowEnd g) s [] {Reg.LNX_REF_STAT, Reg.TSC_KITTY_MIN} [.lnx, .tsc] (fun t =>
      t.hub.rd Reg.LNX_REF_STAT = w ∧ bit (t.hub.hdr .lnx).live 1 = false
      ∧ (w ≠ s.hub.rd Reg.LNX_REF_STAT → t.hub.raw .lnx 0 = true)))
  ∧ (∀ (s : State) (l : LaneNo), s.hub.up .lnx = true → s.hub.power.state = .run →
    (s.hub.rdB (Reg.LN_CFG l) 3 = true → s.hub.rdB Reg.PMU_WAKE_EN 0 = false) →
    Ends (.signalDetect l) s [] {Reg.LN_STAT l} [] (fun t =>
      t.hub.rd (Reg.LN_STAT l) = setBit (s.hub.rd (Reg.LN_STAT l)) 14 true))
  ∧ (∀ (s : State) (l : LaneNo), s.hub.up .lnx = true → s.hub.power.state = .run →
    s.hub.rdB (Reg.LN_CFG l) 3 = true → s.hub.rdB Reg.PMU_WAKE_EN 0 = true → s.hub.rdF Reg.PMU_STATE 2 0 ≠ 4 →
    Ends (.signalDetect l) s [] {Reg.LN_STAT l} [.pmu] (fun t =>
      t.hub.rdB (Reg.LN_STAT l) 14 = true ∧ t.hub.raw .pmu 1 = true))
  ∧ (∀ (s : State) (p : LinkNo), s.hub.linkUp p = true → (s.hub.link p).napHeld = true →
    Ends (.napHoldEnd p) s [.links] ∅ [] (fun t =>
      t.hub.link p = { s.hub.link p with napHeld := false } ∧ ∀ q : LinkNo, q ≠ p → t.hub.link q = s.hub.link q))

/-- The lane map by mailbox (R100, R113): a down port takes its full set of free lanes in one step or gives them back, a port that is
not down refuses, and a mapped-out lane that passes its test returns.
A clause `Runs c s h` says that the form completes with the effect of the definition that it names, under the row's own conditions alone.
Its clauses rest on these choices of the model: log entries 26 and 58. -/
def Obligations.LaneMap : Prop :=
  (∀ (s : State) (c : Nat) (ls : List Nat), s.hub.opRunning .lnx 0x10 = true → s.hub.up .lnx = true →
    c = (s.hub.arg .lnx 0).toNat →
    ls = (List.range (s.hub.arg .lnx 1).toNat).map (fun i => fld (s.hub.arg .lnx 2) (8 * i + 5) (8 * i)) →
    widthOk c (s.hub.arg .lnx 1).toNat = true → ls.Nodup → portPresent s.hub.straps c = true → s.hub.portDown c = true →
    ls.all (fun l => decide (l < 40) && s.hub.laneFree l) = true → s.hub.refsOk ls = true → s.hub.portLanes c = [] →
    Ends .laneAssign s [] (blockRegs .lnx) [.lnx] (fun t =>
      t.hub.rd (Reg.LNX_PORT_MAP c) = w32 (portMapWord ls)
      ∧ (t.hub.mbx .lnx).result = some (mbxOk [w32 (portMapWord ls)]) ∧ ls.all (fun l => decide (t.hub.lanePort l = c)) = true))
  ∧ (∀ s : State, s.hub.opRunning .lnx 0x10 = true → s.hub.up .lnx = true →
    widthOk (s.hub.arg .lnx 0).toNat (s.hub.arg .lnx 1).toNat = false →
    Ends .laneAssign s [] ∅ [.lnx] (fun t => (t.hub.mbx .lnx).result = some (mbxErr 2)))
  ∧ (∀ (s : State) (c : Nat), s.hub.opRunning .lnx 0x11 = true → s.hub.up .lnx = true → c = (s.hub.arg .lnx 0).toNat →
    c ≤ 15 → portPresent s.hub.straps c = true → s.hub.portDown c = true →
    Ends .laneRelease s [] (blockRegs .lnx) [.lnx] (fun t =>
      t.hub.portLanes c = [] ∧ (t.hub.mbx .lnx).result = some (mbxOk [s.hub.rd (Reg.LNX_PORT_MAP c)])))
  ∧ (∀ (s : State) (c : Nat), s.hub.opRunning .lnx 0x11 = true → s.hub.up .lnx = true → c = (s.hub.arg .lnx 0).toNat →
    c ≤ 15 → portPresent s.hub.straps c = true → s.hub.portDown c = false →
    Ends .laneRelease s [] ∅ [.lnx] (fun t => (t.hub.mbx .lnx).result = some (mbxErr 0x81)))
  ∧ (∀ (s : State) (l : Nat) (e n : Word), s.hub.opRunning .lnx 0x13 = true → s.hub.up .lnx = true → l = (s.hub.arg .lnx 0).toNat →
    l < 40 → s.hub.laneOut l = true → e.toNat ≤ s.hub.rdF Reg.SIT_LANE_CFG 31 16 →
    Ends (.laneUnmap true e n) s [.repairMap] (blockRegs .lnx) [.lnx, .sit] (fun t =>
      t.hub.laneOut l = false ∧ t.hub.raw .sit 3 = true ∧ (t.hub.mbx .lnx).result = some (mbxOk [e, n])
      ∧ t.hub.repairMap = s.hub.repairMap.map (fun r => if r.kind = 2 ∧ r.res = l then { r with cleared := true } else r)))
  ∧ (∀ (s : State) (l : Nat) (e n : Word), s.hub.opRunning .lnx 0x13 = true → s.hub.up .lnx = true → l = (s.hub.arg .lnx 0).toNat →
    l < 40 → s.hub.laneOut l = true →
    Ends (.laneUnmap false e n) s [] ∅ [.lnx] (fun t =>
      (t.hub.mbx .lnx).result = some { err := 0x85, data := [e, n] }))
  ∧ (∀ s : State, s.hub.opRunning .lnx 0x10 = true → Runs .laneAssign s (settle s.hub (s.hub.fresh.runOp .lnx 0x10 Hub.laneAssign)))
  ∧ (∀ s : State, s.hub.opRunning .lnx 0x11 = true → Runs .laneRelease s (settle s.hub (s.hub.fresh.runOp .lnx 0x11 Hub.laneReleaseOp)))
  ∧ (∀ (s : State) (lock : Bool) (e n : Word), s.hub.opRunning .lnx 0x13 = true →
    Runs (.laneUnmap lock e n) s (settle s.hub (s.hub.fresh.runOp .lnx 0x13 fun h => h.laneUnmapOp lock e n)))

/-- Alignment, patterns and loops of one lane (R92, R97, R101, R102, R108–R110): each changes that lane's registers and state, and no
other lane's.
A clause `Runs c s h` says that the form completes with the effect of the definition that it names, under the row's own conditions alone.
Its clauses rest on these choices of the model: log entry 26. -/
def Obligations.LaneEvents : Prop :=
  (∀ (s : State) (l : LaneNo) (n : BitVec 8), s.hub.up .lnx = true → s.hub.laneAligns l = true → n ≠ 0 →
    s.hub.slipAllowed l = true →
    Ends (.lnSlip l n) s [.lanes] {Reg.LN_SH_ERR l} [] (fun t =>
      (t.hub.lane l).pos = ((s.hub.lane l).pos + n.toNat) % 130
      ∧ t.hub.rdB (Reg.LN_SH_ERR l) 16 = false
      ∧ ∀ k, k ≠ l.val → t.hub.lane k = s.hub.lane k))
  ∧ (∀ (s : State) (l : LaneNo) (n : BitVec 8), s.hub.up .lnx = true → s.hub.laneAligns l = true → n ≠ 0 →
    s.hub.slipAllowed l = false →
    Ends (.lnSlip l n) s [] ∅ [.lnx] (fun t => t.hub.raw .lnx 3 = true))
  ∧ (∀ (s : State) (l : LaneNo) (v : BitVec 16), s.hub.up .lnx = true → s.hub.laneAligns l = true →
    Ends (.lnShWinWrite l v) s [] {Reg.LN_SH_WIN l, Reg.LN_SH_ERR l} [] (fun t =>
      t.hub.rd (Reg.LN_SH_WIN l) = w32 v.toNat ∧ t.hub.rdB (Reg.LN_SH_ERR l) 16 = false))
  ∧ (∀ (s : State) (l : LaneNo) (n : Nat), s.hub.up .lnx = true → s.hub.laneAligns l = true →
    Ends (.shWindowEnd l n) s [] {Reg.LN_SH_ERR l} [] (fun t =>
      t.hub.rd (Reg.LN_SH_ERR l) = w32 (min n (max 16 (s.hub.rdF (Reg.LN_SH_WIN l) 15 0)) + 0x10000))
    ∧ Ends (.blockLockGain l) s [] {Reg.LN_STAT l} [] (fun t =>
      t.hub.rd (Reg.LN_STAT l) = setBit (s.hub.rd (Reg.LN_STAT l)) 16 true))
  ∧ (∀ (s : State) (l : LaneNo), s.hub.up .lnx = true → s.hub.rdF (Reg.LN_STAT l) 11 8 ≠ 0 →
    Ends (.laneRelock l) s [] {Reg.LN_STAT l} [] (fun t =>
      t.hub.rd (Reg.LN_STAT l) = setBit (setBit (s.hub.rd (Reg.LN_STAT l)) 12 true) 13 true))
  ∧ (∀ (s : State) (l : LaneNo) (p : BitVec 16), s.hub.up .lnx = true → 30000 < p.toInt.natAbs →
    Ends (.ppmAlarm l p) s [.pins] {Reg.LN_PPM l, Reg.LN_STAT l, Reg.SIT_FAULTN_CNT} [.lnx, .sit] (fun t =>
      t.hub.rd (Reg.LN_PPM l) = w32 (BitVec.ofInt 16 (clampI (-32767) 32767 p.toInt)).toNat
      ∧ t.hub.rdB (Reg.LN_STAT l) 19 = true ∧ bit (t.hub.hdr .lnx).sticky 3 = true ∧ bit (t.hub.hdr .lnx).live 3 = true
      ∧ t.hub.raw .lnx 2 = true))
  ∧ (∀ (s : State) (l : LaneNo) (v : Word), s.hub.up .lnx = true → s.hub.portDown (s.hub.lanePort l) = true →
    Ends (.patCfgWrite l v) s [.lanes]
      {Reg.LN_PAT_CFG l, Reg.LN_STAT l, Reg.LN_PAT_ERR l, Reg.LN_PAT_BITS_LO l, Reg.LN_PAT_BITS_HI l} [] (fun t =>
      t.hub.rd (Reg.LN_PAT_CFG l) = (v &&& 0x7DF#32) ||| (if bit v 1 then s.hub.rd (Reg.LN_PAT_CFG l) &&& 0x800#32 else 0)
      ∧ (fld v 1 0 ≠ s.hub.rdF (Reg.LN_PAT_CFG l) 1 0 → t.hub.rdB (Reg.LN_STAT l) 18 = false)
      ∧ (t.hub.lane l).flips = (s.hub.lane l).flips + b2n (bit v 5)
      ∧ t.hub.rd (Reg.LN_PAT_ERR l) = (if bit v 12 then 0 else s.hub.rd (Reg.LN_PAT_ERR l))))
  ∧ (∀ (s : State) (l : LaneNo) (v : Word), s.hub.up .lnx = true → s.hub.portDown (s.hub.lanePort l) = false →
    bit v 5 = false → bit v 12 = false → bit v 1 = false → fld v 1 0 ≠ s.hub.rdF (Reg.LN_PAT_CFG l) 1 0 →
    s.hub.rdB (Reg.LN_PAT_CFG l) 1 = false →
    Ends (.patCfgWrite l v) s [] {Reg.LN_PAT_CFG l} [.lnx] (fun t =>
      t.hub.rd (Reg.LN_PAT_CFG l) = (v &&& 0x7DC#32) ||| (s.hub.rd (Reg.LN_PAT_CFG l) &&& 3#32) ∧ t.hub.raw .lnx 4 = true))
  ∧ (∀ (s : State) (l : LaneNo) (v : Word), s.hub.up .lnx = true → s.hub.portDown (s.hub.lanePort l) = true →
    Ends (.lnLoopWrite l v) s [] {Reg.LN_LOOP l, Reg.LN_STAT l} [] (fun t => t.hub.rd (Reg.LN_LOOP l) = v &&& 7#32))
  ∧ (∀ (s : State) (l : LaneNo) (v : Word), s.hub.up .lnx = true → s.hub.portDown (s.hub.lanePort l) = false →
    fld v 1 0 ≠ s.hub.rdF (Reg.LN_LOOP l) 1 0 →
    Ends (.lnLoopWrite l v) s [] {Reg.LN_LOOP l} [.lnx] (fun t =>
      t.hub.rd (Reg.LN_LOOP l) = setBit (s.hub.rd (Reg.LN_LOOP l)) 2 (bit v 2) ∧ t.hub.raw .lnx 4 = true))
  ∧ (∀ (s : State) (l : LaneNo), s.hub.up .lnx = true →
    Ends (.injectOne l) s [.lanes] ∅ [] (fun t =>
      (t.hub.lane l).flips = (s.hub.lane l).flips + 1
      ∧ ∀ k, k ≠ l.val → t.hub.lane k = s.hub.lane k)
    ∧ Ends (.patErrClr l) s [] {Reg.LN_PAT_ERR l, Reg.LN_PAT_BITS_LO l, Reg.LN_PAT_BITS_HI l} [] (fun t =>
      t.hub.rd (Reg.LN_PAT_ERR l) = 0 ∧ t.hub.rd (Reg.LN_PAT_BITS_LO l) = 0 ∧ t.hub.rd (Reg.LN_PAT_BITS_HI l) = 0))
  ∧ (∀ (s : State) (l : LaneNo) (e n : Nat), s.hub.up .lnx = true → s.hub.rdB (Reg.LN_PAT_CFG l) 1 = true →
    Ends (.checkerLock l e n) s [] {Reg.LN_PAT_CFG l, Reg.LN_PAT_ERR l, Reg.LN_PAT_BITS_LO l, Reg.LN_PAT_BITS_HI l} [] (fun t =>
      t.hub.rdB (Reg.LN_PAT_CFG l) 11 = true ∧ t.hub.rd (Reg.LN_PAT_ERR l) = incHold (s.hub.rd (Reg.LN_PAT_ERR l)) e
      ∧ join64 (t.hub.rd (Reg.LN_PAT_BITS_LO l)) (t.hub.rd (Reg.LN_PAT_BITS_HI l))
        = (join64 (s.hub.rd (Reg.LN_PAT_BITS_LO l)) (s.hub.rd (Reg.LN_PAT_BITS_HI l)) + n) % 2 ^ 64))
  ∧ (∀ (s : State) (l : LaneNo) (v : Word) (n : BitVec 8) (p : BitVec 16), s.hub.up .lnx = true →
    Runs (.patCfgWrite l v) s (settle s.hub (s.hub.fresh.writePatCfg l v))
    ∧ Runs (.lnLoopWrite l v) s (settle s.hub (s.hub.fresh.writeLoop l v))
    ∧ Runs (.lnSlip l n) s (settle s.hub (s.hub.fresh.writeSlip l n.toNat))
    ∧ Runs (.ppmAlarm l p) s (settle s.hub (s.hub.fresh.ppmIn l p)))

/-- What lane events do (R101, R103, R107, R119, R125, R148): lock lost on a down port only undoes the deskew, on any other it is
LOCK_LOST and takes a link port in UP to RECOVER; an elastic buffer is corrected on every lane of its port; a lane that wakes
returns a link port in IDLE to UP with its last lane.
A clause `Runs c s h` says that the form completes with the effect of the definition that it names, under the row's own conditions alone.
Its clauses rest on these choices of the model: log entries 26, 27 and 46. -/
def Obligations.LaneLinkEvents : Prop :=
  (∀ (s : State) (l : LaneNo), s.hub.up .lnx = true → s.hub.laneAligns l = true → s.hub.rdB (Reg.LN_STAT l) 16 = true →
    s.hub.portDown (s.hub.lanePort l) = true →
    Ends (.blockLockLoss l) s [.links] {Reg.LN_STAT l, Reg.TSC_KITTY_MIN} [.tsc] (fun t =>
      t.hub.rd (Reg.LN_STAT l) = setBit (s.hub.rd (Reg.LN_STAT l)) 16 false
      ∧ (isLinkPort (s.hub.lanePort l) = true → (t.hub.link (s.hub.lanePort l)).deskewed = false)))
  ∧ (∀ (s : State) (l : LaneNo) (p : Nat), s.hub.up .lnx = true → s.hub.laneAligns l = true →
    s.hub.rdB (Reg.LN_STAT l) 16 = true → p = s.hub.lanePort l → s.hub.klState p = 5 → s.hub.calm p = true →
    Ends (.blockLockLoss l) s [.links, .pins] (klRegs p ∪ {Reg.LN_STAT l, Reg.SIT_FAULTN_CNT, Reg.TSC_KITTY_MIN})
      [.lnx, .sit, .tsc] (fun t =>
      t.hub.rdB (Reg.LN_STAT l) 16 = false ∧ t.hub.raw .lnx 1 = true ∧ bit (t.hub.hdr .lnx).sticky 2 = true
      ∧ t.hub.klState p = 7 ∧ (t.hub.link p).recoverLoss = true ∧ t.hub.rdB Reg.KLL_PORT_UP p = false))
  ∧ (∀ (s : State) (l : LaneNo), s.hub.up .lnx = true → s.hub.rdB (Reg.LN_STAT l) 13 = true →
    s.hub.portDown (s.hub.lanePort l) = true →
    Ends (.cdrLockLoss l) s [] {Reg.LN_STAT l, Reg.TSC_KITTY_MIN} [.tsc] (fun t =>
      t.hub.rd (Reg.LN_STAT l) = setBit (s.hub.rd (Reg.LN_STAT l)) 13 false))
  ∧ (∀ (s : State) (l : LaneNo), s.hub.up .lnx = true → s.hub.rdB (Reg.LN_STAT l) 13 = true →
    s.hub.portDown (s.hub.lanePort l) = false → isLinkPort (s.hub.lanePort l) = false →
    Ends (.cdrLockLoss l) s [] {Reg.LN_STAT l, Reg.TSC_KITTY_MIN} [.lnx, .tsc] (fun t =>
      t.hub.rdB (Reg.LN_STAT l) 13 = false ∧ t.hub.raw .lnx 1 = true))
  ∧ (∀ (s : State) (l : LaneNo) (p n : Nat), s.hub.up .lnx = true → p = s.hub.lanePort l → isLinkPort p = true →
    12 < n → n ≤ 16 → l.val ∈ s.hub.portLanes p → (s.hub.portLanes p).Nodup →
    Ends (.elasticBufferSlip l n) s [.lanes] ∅ [] (fun t =>
      (t.hub.lane l).fill = n - 1 ∧ (s.hub.portLanes p).all (fun k => k = l.val ∨ (t.hub.lane k).fill = (s.hub.lane k).fill - 1) = true
      ∧ ∀ k, k ∉ s.hub.portLanes p → t.hub.lane k = s.hub.lane k))
  ∧ (∀ (s : State) (l : LaneNo) (n : Nat), s.hub.up .lnx = true → isLinkPort (s.hub.lanePort l) = true → 16 < n ∨ n = 0 →
    Ends (.elasticBufferSlip l n) s [.lanes] {Reg.KL_CNT_ELASTIC (s.hub.lanePort l)} [] (fun t =>
      t.hub.rd (Reg.KL_CNT_ELASTIC (s.hub.lanePort l)) = incHold (s.hub.rd (Reg.KL_CNT_ELASTIC (s.hub.lanePort l)))))
  ∧ (∀ (s : State) (l : LaneNo) (ok : Bool), s.hub.up .lnx = true → s.hub.rdB (Reg.LN_STAT l) 15 = true →
    (isLinkPort (s.hub.lanePort l) = true → s.hub.klState (s.hub.lanePort l) ≠ 6) → s.hub.laneAligns l = true →
    Ends (.laneWake l ok) s [.pins] {Reg.LN_STAT l, Reg.SIT_FAULTN_CNT, Reg.TSC_KITTY_MIN} [.lnx, .sit, .tsc] (fun t =>
      t.hub.rd (Reg.LN_STAT l) = setBit (setBit (setBit (s.hub.rd (Reg.LN_STAT l)) 15 false) 14 true) 16 ok
      ∧ (ok = false → isLinkPort (s.hub.lanePort l) = true → s.hub.portDown (s.hub.lanePort l) = false →
        t.hub.raw .lnx 1 = true ∧ bit (t.hub.hdr .lnx).sticky 2 = true)))
  ∧ (∀ (s : State) (l : LaneNo) (p : Nat), s.hub.up .lnx = true → s.hub.rdB (Reg.LN_STAT l) 15 = true →
    p = s.hub.lanePort l → s.hub.klState p = 6 → s.hub.calm p = true →
    (s.hub.portLanes p).all (fun k => k = l.val ∨ (s.hub.rdB (Reg.LN_STAT k) 15 = false ∧ k < 40)) = true → s.hub.holdCause p = none →
    Ends (.laneWake l true) s [.links] (klRegs p ∪ {Reg.LN_STAT l, Reg.TSC_KITTY_MIN}) [.kll, .tsc] (fun t =>
      t.hub.klState p = 5 ∧ t.hub.rdB Reg.KLL_PORT_UP p = true ∧ t.hub.rdB (Reg.LN_STAT l) 15 = false))
  ∧ (∀ (s : State) (p : LinkNo), s.hub.linkUp p = true → s.hub.allLanes p 16 = true → s.hub.repair = none →
    s.hub.portLanes p ≠ [] →
    Ends (.deskewComplete p 0) s [.links] (blockRegs .lnx ∪ {Reg.TSC_KITTY_MIN}) [.tsc] (fun t =>
      (t.hub.link p).deskewed = true ∧ (s.hub.portLanes p).all (fun l => !t.hub.rdB (Reg.LN_STAT l) 17) = true))
  ∧ (∀ (s : State) (l : LaneNo), s.hub.up .lnx = true → s.hub.laneAligns l = true → s.hub.rdB (Reg.LN_STAT l) 16 = true →
    Runs (.blockLockLoss l) s (settle s.hub (s.hub.fresh.tscWatch (s.hub.fresh.blockLost l))))
  ∧ (∀ (s : State) (l : LaneNo), s.hub.up .lnx = true → s.hub.rdB (Reg.LN_STAT l) 13 = true →
    Runs (.cdrLockLoss l) s
      (settle s.hub (s.hub.fresh.tscWatch ((s.hub.fresh.wrB (Reg.LN_STAT l) 13 false).lockLost l false))))
  ∧ (∀ (s : State) (l : LaneNo) (n : Nat), s.hub.up .lnx = true → isLinkPort (s.hub.lanePort l) = true →
    Runs (.elasticBufferSlip l n) s (settle s.hub (s.hub.fresh.elasticTo l n)))
  ∧ (∀ (s : State) (l : LaneNo) (ok : Bool), s.hub.up .lnx = true → s.hub.rdB (Reg.LN_STAT l) 15 = true →
    Runs (.laneWake l ok) s (settle s.hub (s.hub.fresh.tscWatch (s.hub.fresh.laneWoken l ok))))
  ∧ (∀ (s : State) (p : LinkNo) (late : BitVec 4) (ls : List Nat), s.hub.linkUp p = true → ls = s.hub.deskewLanes p →
    ls.isEmpty = false → (ls.all fun k => s.hub.rdB (Reg.LN_STAT k) 16) = true →
    late.toNat % 2 ^ ls.length ≠ 2 ^ ls.length - 1 →
    Runs (.deskewComplete p late) s (settle s.hub (s.hub.fresh.tscWatch (s.hub.fresh.deskewOn p ls late.toNat))))

/-- Lane repair (R111–R116): a repair that cannot start says why, one that starts takes its spare and asks the far end; the far end's
answers carry it on or refuse it; at the named marker the lane moves and both records are written; 5 ms end it.
A clause `Runs c s h` says that the form completes with the effect of the definition that it names, under the row's own conditions alone.
Its clauses rest on these choices of the model: log entries 6, 26, 46 and 58. -/
def Obligations.LaneRepairs : Prop :=
  (∀ (s : State) (e : Nat), s.hub.opRunning .lnx 0x12 = true → s.hub.up .lnx = true → s.hub.repair = none →
    s.hub.repairCheck (s.hub.arg .lnx 0).toNat (s.hub.arg .lnx 1).toNat (s.hub.arg .lnx 2).toNat = .inl e →
    Ends .laneRepair s [.pins] {Reg.SIT_FAULTN_CNT, Reg.TSC_KITTY_MIN} [.lnx, .sit, .tsc] (fun t =>
      (t.hub.mbx .lnx).result = some (mbxErr e) ∧ t.hub.repair = none
      ∧ (e = 3 → t.hub.raw .lnx 6 = true ∧ bit (t.hub.hdr .lnx).sticky 4 = true)))
  ∧ (∀ (s : State) (l : Nat), s.hub.opRunning .lnx 0x12 = true → s.hub.up .lnx = true → s.hub.repair = none →
    s.hub.repairCheck (s.hub.arg .lnx 0).toNat (s.hub.arg .lnx 1).toNat (s.hub.arg .lnx 2).toNat = .inr l →
    Ends .laneRepair s (.repair :: sendParts) (sendRegs ∪ {Reg.LN_STAT l}) sendBlocks (fun t =>
      t.hub.repair = some ⟨(s.hub.arg .lnx 0).toNat, (s.hub.arg .lnx 1).toNat, l, true, false, false, false, none, s.hub.mono⟩
      ∧ t.hub.rdF (Reg.LN_STAT l) 11 8 = s.hub.klRate (s.hub.arg .lnx 0).toNat ∧ t.hub.rdB (Reg.LN_STAT l) 16 = false))
  ∧ (∀ (s : State) (l : LaneNo) (n : Word), s.hub.up .lnx = true → isLinkPort (s.hub.lanePort l) = true →
    s.hub.portDown (s.hub.lanePort l) = false →
    (s.hub.rdB Reg.LNX_REPAIR_CTRL 0 = false ∨ n.toNat < max 1 (s.hub.rdF Reg.LNX_REPAIR_CTRL 15 8)) →
    Ends (.autoRepairStart l n) s [] {Reg.LN_ERRBLK l, Reg.TSC_KITTY_MIN} [.tsc] (fun t =>
      t.hub.rd (Reg.LN_ERRBLK l) = incWrap (s.hub.rd (Reg.LN_ERRBLK l)) n.toNat))
  ∧ (∀ (s : State) (l : LaneNo) (n : Word) (e : Nat), s.hub.up .lnx = true → isLinkPort (s.hub.lanePort l) = true →
    s.hub.portDown (s.hub.lanePort l) = false → s.hub.rdB Reg.LNX_REPAIR_CTRL 0 = true →
    max 1 (s.hub.rdF Reg.LNX_REPAIR_CTRL 15 8) ≤ n.toNat → (s.hub.mbx .lnx).busy = false →
    s.hub.auto = {} → s.hub.repairCheck (s.hub.lanePort l) (s.hub.rdF (Reg.LN_STAT l) 6 5) 0x3F = .inl e →
    Ends (.autoRepairStart l n) s [.pins, .auto] {Reg.LN_ERRBLK l, Reg.SIT_FAULTN_CNT, Reg.TSC_KITTY_MIN} [.lnx, .sit, .tsc] (fun t =>
      t.hub.rd (Reg.LN_ERRBLK l) = incWrap (s.hub.rd (Reg.LN_ERRBLK l)) n.toNat
      ∧ (t.hub.mbx .lnx).src = 4 ∧ (t.hub.mbx .lnx).op = 0x12 ∧ (t.hub.mbx .lnx).result = some (mbxErr e)))
  ∧ (∀ (s : State) (p : LinkNo) (k : Byte) (r : LaneRepair), s.hub.hears p = true → s.hub.repairHears p = true → s.hub.repair = some r →
    r.port = p.val → r.starter = true → r.answered = false → s.hub.carriesOn p = true →
    Ends (.repairReqRx p k) s [] {Reg.TSC_KITTY_MIN} [.tsc] (fun t => t.hub.repair = some r))
  ∧ (∀ (s : State) (p : LinkNo) (k : Byte), s.hub.hears p = true → s.hub.repairHears p = true → s.hub.repair = none → (s.hub.mbx .lnx).busy = true →
    Ends (.repairReqRx p k) s sendParts sendRegs sendBlocks (fun t => t.hub.repair = none ∧ t.hub.mbx .lnx = s.hub.mbx .lnx))
  ∧ (∀ (s : State) (p : LinkNo) (k : Byte) (l : Nat), s.hub.hears p = true → s.hub.repairHears p = true → s.hub.repair = none → (s.hub.mbx .lnx).busy = false →
    s.hub.portDown p = false → s.hub.repairCheck p k.toNat 0x3F = .inr l →
    Ends (.repairReqRx p k) s [.repair] {Reg.LN_STAT l, Reg.TSC_KITTY_MIN} [.lnx, .tsc] (fun t =>
      t.hub.repair = some { port := p, logical := k.toNat, spare := l, starter := false, answered := true, since := s.hub.mono }
      ∧ (t.hub.mbx .lnx).src = 4 ∧ (t.hub.mbx .lnx).busy = true))
  ∧ (∀ (s : State) (p : LinkNo) (c : Byte) (r : LaneRepair), s.hub.hears p = true → s.hub.repairHears p = true → s.hub.repair = some r → r.port = p.val →
    c ≠ 0 →
    Ends (.repairReadyRx p c) s [.repair] (blockRegs .lnx ∪ {Reg.TSC_KITTY_MIN}) [.lnx, .tsc] (fun t =>
      t.hub.repair = none ∧ (s.hub.opRunning .lnx 0x12 = true → (t.hub.mbx .lnx).result = some (mbxErr 0x83))))
  ∧ (∀ (s : State) (p : LinkNo) (r : LaneRepair), s.hub.hears p = true → s.hub.repairHears p = true → s.hub.repair = some r → r.port = p.val →
    r.ready = false →
    Ends (.repairReadyRx p 0) s [.repair] {Reg.TSC_KITTY_MIN} [.tsc] (fun t =>
      t.hub.repair = some { r with answered := true, peerReady := true }))
  ∧ (∀ (s : State) (p : LinkNo) (k : Byte) (m : BitVec 16) (r : LaneRepair), s.hub.hears p = true → s.hub.repairHears p = true → s.hub.repair = some r →
    r.port = p.val → r.logical = k.toNat →
    Ends (.repairSwitchRx p k m) s [.repair] ∅ [] (fun t => t.hub.repair = some { r with marker := some m.toNat }))
  ∧ (∀ (s : State) (r : LaneRepair) (m : Nat), s.hub.up .lnx = true → s.hub.repair = some r → r.marker = some m → r.port ≤ 8 →
    s.hub.repairMap.length < 255 → r.logical < (s.hub.portLanes r.port).length → (s.hub.portLanes r.port).length ≤ 4 → r.spare < 40 →
    Ends .laneMove s [.repair, .repairMap] (blockRegs .lnx ∪ {Reg.TSC_KITTY_MIN}) [.lnx, .sit, .tsc] (fun t =>
      t.hub.repair = none ∧ (t.hub.portLanes r.port).getD r.logical 0 = r.spare
      ∧ t.hub.rdB (Reg.LN_STAT ((s.hub.portLanes r.port).getD r.logical 0)) 7 = true
      ∧ t.hub.repairMap.length = s.hub.repairMap.length + 2 ∧ t.hub.raw .lnx 5 = true ∧ t.hub.raw .sit 3 = true))
  ∧ (∀ (s : State) (r : LaneRepair), s.hub.up .lnx = true → s.hub.repair = some r → r.since + 5000000 ≤ s.hub.mono →
    Ends .repairTimeout s [.repair] (blockRegs .lnx) [.lnx] (fun t =>
      t.hub.repair = none
      ∧ (s.hub.opRunning .lnx 0x12 = true → (t.hub.mbx .lnx).result = some (mbxErr (if r.ready then 0x83 else 0x84)))))
  ∧ (∀ (s : State) (l : LaneNo) (n : Word), s.hub.up .lnx = true → isLinkPort (s.hub.lanePort l) = true →
    s.hub.portDown (s.hub.lanePort l) = false → s.hub.rdB Reg.LNX_REPAIR_CTRL 0 = true →
    max 1 (s.hub.rdF Reg.LNX_REPAIR_CTRL 15 8) ≤ n.toNat → (s.hub.mbx .lnx).busy = true →
    Ends (.autoRepairStart l n) s [.auto] {Reg.LN_ERRBLK l, Reg.TSC_KITTY_MIN} [.tsc] (fun t =>
      t.hub.rd (Reg.LN_ERRBLK l) = incWrap (s.hub.rd (Reg.LN_ERRBLK l)) n.toNat
      ∧ (s.hub.lanePort l, s.hub.rdF (Reg.LN_STAT l) 6 5) ∈ t.hub.auto.waits))
  ∧ (∀ s : State, s.hub.opRunning .lnx 0x12 = true → s.hub.repair = none →
    Runs .laneRepair s (settle s.hub (s.hub.fresh.tscWatch (s.hub.fresh.runOp .lnx 0x12 fun h =>
      h.repairStart (h.arg .lnx 0).toNat (h.arg .lnx 1).toNat (h.arg .lnx 2).toNat))))
  ∧ (∀ (s : State) (l : LaneNo) (n : Word), s.hub.up .lnx = true → isLinkPort (s.hub.lanePort l) = true →
    s.hub.portDown (s.hub.lanePort l) = false →
    Runs (.autoRepairStart l n) s (settle s.hub (s.hub.fresh.tscWatch (s.hub.fresh.errGrew l n))))
  ∧ (∀ (s : State) (p : LinkNo) (k : Byte), s.hub.hears p = true → s.hub.repairHears p = true →
    Runs (.repairReqRx p k) s (settle s.hub (s.hub.fresh.tscWatch (s.hub.fresh.repairReq p k))))
  ∧ (∀ (s : State) (p : LinkNo) (c : Byte) (r : LaneRepair), s.hub.hears p = true → s.hub.repairHears p = true →
    s.hub.repair = some r → r.port = p.val →
    Runs (.repairReadyRx p c) s (settle s.hub (s.hub.fresh.tscWatch (s.hub.fresh.repairAnswer p c))))
  ∧ (∀ (s : State) (r : LaneRepair) (m : Nat), s.hub.up .lnx = true → s.hub.repair = some r → r.marker = some m →
    Runs .laneMove s (settle s.hub (s.hub.fresh.tscWatch s.hub.fresh.laneMoved)))

/-- The states of a link port (R135, R136, R146, R429, Table 5.5): DOWN to ALIGN with locked lanes, ALIGN to HELLO when software says
so, RETRAIN and DOWN through a PORT reset, HELLO checked, and RECOVER's two ends.
A clause `Runs c s h` says that the form completes with the effect of the definition that it names, under the row's own conditions alone.
Its clauses rest on these choices of the model: log entries 27 and 46. -/
def Obligations.LinkStates : Prop :=
  (∀ (s : State) (p : LinkNo), s.hub.linkUp p = true → s.hub.calm p = true → s.hub.klState p = 1 → s.hub.allLanes p 16 = true →
    (s.hub.link p).deskewed = true →
    Ends (.klAligned p) s sendParts (klRegs p ∪ laneStats ∪ sendRegs) sendBlocks (fun t =>
      t.hub.klState p = 2 ∧ (t.hub.link p).helloTx = true ∧ t.hub.rdB Reg.KLL_PORT_UP p = false))
  ∧ (∀ (s : State) (p : LinkNo), s.hub.linkUp p = true → s.hub.calm p = true → s.hub.klState p ≠ 0 → s.hub.klState p ≠ 1 →
    s.hub.portLanes p ≠ [] → (s.hub.portMap p).all (fun l => decide (l < 40)) = true →
    Ends (.klRetrain p) s resetParts (resetRegs p ∪ {Reg.TS_BYTE_TIME p, Reg.TS_CAP p}) [.kll, .lnx, .pmc, .tsc] (fun t =>
      t.hub.klState p = 1 ∧ (t.hub.link p).deskewed = false ∧ (t.hub.link p).gotChain = false
      ∧ t.hub.rd (Reg.KL_REPLAY_STAT p) = 0x00FFF000))
  ∧ (∀ (s : State) (p : LinkNo), s.hub.linkUp p = true → s.hub.klState p = 0 →
    Ends (.klRetrain p) s [.links] {Reg.TSC_KITTY_MIN} [.tsc] (fun t =>
      t.hub.link p = { s.hub.link p with napHeld := false }))
  ∧ (∀ (s : State) (p : LinkNo), s.hub.linkUp p = true → s.hub.calm p = true → s.hub.klState p ≠ 0 →
    Ends (.klDown p) s resetParts (resetRegs p ∪ {Reg.TS_BYTE_TIME p, Reg.TS_CAP p}) [.kll, .lnx, .pmc, .tsc] (fun t =>
      t.hub.klState p = 0 ∧ t.hub.raw .kll 1 = true ∧ (s.hub.muted p = false → .bye p 0 ∈ t.hub.out) ∧ t.hub.rdB Reg.KLL_PORT_UP p = false
      ∧ t.hub.rdF (Reg.KL_STATE p) 7 4 = s.hub.rdF (Reg.KL_STATE p) 7 4))
  ∧ (∀ (s : State) (p : LinkNo), s.hub.linkUp p = true → s.hub.calm p = true → s.hub.mayAlign p = true →
    (s.hub.portMap p).all (fun l => decide (l < 40)) = true →
    (s.hub.portLanes p).all (fun l => decide (s.hub.rdF (Reg.LN_STAT l) 11 8 = s.hub.klRate p) && s.hub.rdB (Reg.LN_STAT l) 12
      && s.hub.rdB (Reg.LN_STAT l) 14) = true →
    Ends (.linkEnterAlign p) s [.links] (klRegs p ∪ {Reg.TS_BYTE_TIME p, Reg.TS_CAP p, Reg.TSC_KITTY_MIN}) [.tsc] (fun t =>
      t.hub.klState p = 1 ∧ (t.hub.link p).keyTx = [] ∧ (t.hub.link p).gotChain = false))
  ∧ (∀ (s : State) (p : LinkNo), s.hub.linkUp p = true → s.hub.mayAlign p = true → (s.hub.portLanes p).Nodup →
    (s.hub.portLanes p).any (fun l => decide (s.hub.rdF (Reg.LN_STAT l) 11 8 ≠ s.hub.klRate p)) = true →
    Ends (.linkEnterAlign p) s [] (blockRegs .lnx ∪ {Reg.TSC_KITTY_MIN}) [.tsc] (fun t =>
      t.hub.klState p = 0 ∧ (s.hub.portLanes p).all (fun l => t.hub.rdF (Reg.LN_STAT l) 11 8 = s.hub.klRate p) = true))
  ∧ (∀ (s : State) (p : LinkNo) (b : List Byte), s.hub.hears p = true → s.hub.calm p = true → s.hub.klState p = 2 →
    s.hub.helloGood p b = false →
    Ends (.helloRx p b) s [.links, .repair] (klRegs p ∪ blockRegs .lnx ∪ {Reg.KL_PEER p, Reg.TSC_KITTY_MIN}) [.kll, .lnx, .tsc] (fun t =>
      t.hub.klState p = 9 ∧ t.hub.rdF (Reg.KL_STATE p) 7 4 = 2 ∧ t.hub.raw .kll 2 = true
      ∧ (t.hub.link p).peerDepth = (b.getD 4 0).toNat % 64))
  ∧ (∀ (s : State) (p : LinkNo) (b : List Byte), s.hub.hears p = true → s.hub.calm p = true → s.hub.klState p = 2 →
    s.hub.helloGood p b = true → s.hub.ksi.lost = false → s.hub.ksi.kat = 0 → (s.hub.link p).earlyCert = [] →
    Ends (.helloRx p b) s (.free :: sendParts) (klRegs p ∪ {Reg.KL_PEER p} ∪ sendRegs) sendBlocks (fun t =>
      t.hub.klState p = 3 ∧ (t.hub.link p).helloRx = true ∧ (t.hub.link p).authFrom = s.hub.mono
      ∧ t.hub.rdF (Reg.KL_PEER p) 23 18 = (b.getD 4 0).toNat % 64))
  ∧ (∀ (s : State) (p : LinkNo), s.hub.linkUp p = true → s.hub.klState p = 2 → (s.hub.link p).helloRx = false →
    (s.hub.link p).helloAt + 100000 ≤ s.hub.mono →
    Ends (.helloResend p) s sendParts sendRegs sendBlocks (fun t => (t.hub.link p).helloAt = s.hub.mono ∧ t.hub.klState p = 2))
  ∧ (∀ (s : State) (v : Word), s.hub.mainUp = true →
    Ends (.hubIdWrite v) s sendParts ({Reg.STW_HUB_ID} ∪ sendRegs) sendBlocks (fun t => t.hub.rd Reg.STW_HUB_ID = v &&& 0x3FFF))
  ∧ (∀ (s : State) (p : LinkNo), s.hub.linkUp p = true → s.hub.calm p = true → s.hub.klState p = 7 → s.hub.allLanes p 16 = true →
    (s.hub.link p).deskewed = true → (s.hub.link p).creditRx = true → s.hub.holdCause p = none →
    Ends (.recoverComplete p) s [.links] (klRegs p ∪ {Reg.KL_CNT_RETRAIN p, Reg.TSC_KITTY_MIN}) [.kll, .tsc] (fun t =>
      t.hub.klState p = 5 ∧ t.hub.raw .kll 0 = true ∧ t.hub.raw .kll 4 = true
      ∧ t.hub.rd (Reg.KL_CNT_RETRAIN p) = incHold (s.hub.rd (Reg.KL_CNT_RETRAIN p))
      ∧ (t.hub.link p).replay = ((s.hub.link p).unacked.head?).map (·.1)))
  ∧ (∀ (s : State) (p : LinkNo), s.hub.linkUp p = true → s.hub.calm p = true → s.hub.klState p = 7 →
    (s.hub.link p).since + 200000 ≤ s.hub.mono →
    Ends (.recoverTimeout p) s resetParts (resetRegs p ∪ {Reg.TS_BYTE_TIME p, Reg.TS_CAP p}) [.kll, .lnx, .pmc, .tsc] (fun t =>
      t.hub.klState p = 0 ∧ t.hub.rdF (Reg.KL_STATE p) 7 4 = (if (s.hub.link p).recoverLoss then 8 else 7)
      ∧ t.hub.raw .kll 1 = true))
  ∧ (∀ (s : State) (p : LinkNo) (c : Byte), s.hub.hears p = true → s.hub.calm p = true → 4 ≤ s.hub.klState p →
    s.hub.klState p ≤ 8 →
    Ends (.byeRx p c) s resetParts (resetRegs p ∪ blockRegs .lnx ∪ {Reg.TS_BYTE_TIME p, Reg.TS_CAP p}) [.kll, .lnx, .pmc, .tsc] (fun t =>
      t.hub.klState p = 0 ∧ t.hub.rdF (Reg.KL_STATE p) 7 4 = 9 ∧ (c = 0x4E → (t.hub.link p).napHeld = true)))
  ∧ (∀ (s : State) (p : LinkNo), s.hub.linkUp p = true →
    Runs (.klAligned p) s (settle s.hub (s.hub.fresh.tscWatch (s.hub.fresh.klCtrlAligned p)))
    ∧ Runs (.klRetrain p) s (settle s.hub (s.hub.fresh.tscWatch (s.hub.fresh.klCtrlRetrain p)))
    ∧ Runs (.klDown p) s (settle s.hub (s.hub.fresh.tscWatch (s.hub.fresh.klCtrlDown p))))
  ∧ (∀ (s : State) (p : LinkNo), s.hub.linkUp p = true → s.hub.mayAlign p = true →
    Runs (.linkEnterAlign p) s (settle s.hub (s.hub.fresh.tscWatch (s.hub.fresh.toAlign p))))
  ∧ (∀ (s : State) (p : LinkNo) (b : List Byte), s.hub.hears p = true → 2 ≤ s.hub.klState p → s.hub.klState p ≤ 8 →
    Runs (.helloRx p b) s (settle s.hub (s.hub.fresh.tscWatch (s.hub.fresh.helloIn p b))))
  ∧ (∀ (s : State) (p : LinkNo), s.hub.linkUp p = true → s.hub.klState p = 7 → s.hub.allLanes p 16 = true →
    (s.hub.link p).deskewed = true → (s.hub.link p).creditRx = true →
    Runs (.recoverComplete p) s (settle s.hub (s.hub.fresh.tscWatch (s.hub.fresh.recovered p))))
  ∧ (∀ (s : State) (p : LinkNo), s.hub.linkUp p = true → s.hub.klState p = 7 → (s.hub.link p).since + 200000 ≤ s.hub.mono →
    Runs (.recoverTimeout p) s (settle s.hub (s.hub.fresh.tscWatch
      (s.hub.fresh.klDown p (some (if (s.hub.fresh.link p).recoverLoss then 8 else 7))))))
  ∧ (∀ (s : State) (p : LinkNo) (c : Byte), s.hub.hears p = true → 4 ≤ s.hub.klState p → s.hub.klState p ≤ 8 →
    Runs (.byeRx p c) s (settle s.hub (s.hub.fresh.tscWatch (s.hub.fresh.byeIn p c))))

/-- Authentication (R137, R138, R155, R459): each message is acted on in AUTH, a bad chain, signature or digest fails the port with its
LAST_FAIL and the fault event, a good AUTH_FIN leads to CREDIT, and the peer's chain reads back as received.
A clause `Runs c s h` says that the form completes with the effect of the definition that it names, under the row's own conditions alone.
Its clauses rest on these choices of the model: log entries 6, 7, 27 and 46. -/
def Obligations.LinkAuthentication : Prop :=
  (∀ (s : State) (p : LinkNo) (b : List Byte), s.hub.hears p = true → s.hub.calm p = true → s.hub.klState p = 3 → s.hub.ksi.kat = 0 →
    Ends (.authCertRx p b) s (.free :: .repair :: sendParts)
      (klRegs p ∪ { a | ∃ i ∈ List.range 12, a = Reg.KL_PEER_DIGEST p i } ∪ blockRegs .lnx ∪ sendRegs) (.lnx :: sendBlocks)
      (fun t => (t.hub.link p).chain = b.drop 32 ∧ (t.hub.link p).gotChain = true
      ∧ (Config.chainGood (chainOf b).1 (chainOf b).2 = false →
          t.hub.klState p = 9 ∧ t.hub.rdF (Reg.KL_STATE p) 7 4 = 3 ∧ bit (t.hub.hdr .kll).sticky 5 = true)
      ∧ (Config.chainGood (chainOf b).1 (chainOf b).2 = true → t.hub.klState p = 3)))
  ∧ (∀ (s : State) (p : LinkNo) (b : List Byte) (l : LinkSt), s.hub.hears p = true → s.hub.calm p = true → s.hub.klState p = 3 →
    s.hub.ksi.kat = 0 → l = s.hub.link p → l.kexOwn ≠ [] → l.kexPeer = [] →
    Ends (.authKexRx p b) s (.repair :: sendParts) (klRegs p ∪ blockRegs .lnx ∪ sendRegs) (.lnx :: sendBlocks) (fun t =>
      (Config.verify (Config.certPub (chainOf l.certPeer).1) (kexDigest l.nPeer l.nOwn (b.take 97)
          (s.hub.rdF (Reg.KL_PEER p) 28 24) (s.hub.rdF (Reg.KL_PEER p) 13 0)) (b.drop 97) = false →
        t.hub.klState p = 9 ∧ t.hub.rdF (Reg.KL_STATE p) 7 4 = 4 ∧ bit (t.hub.hdr .kll).sticky 5 = true)
      ∧ (Config.verify (Config.certPub (chainOf l.certPeer).1) (kexDigest l.nPeer l.nOwn (b.take 97)
          (s.hub.rdF (Reg.KL_PEER p) 28 24) (s.hub.rdF (Reg.KL_PEER p) 13 0)) (b.drop 97) = true →
        t.hub.klState p = 3 ∧ (t.hub.link p).finTx = true ∧ (t.hub.link p).kexPeer = b ∧ t.hub.rdB (Reg.KL_STATE p) 8 = true)))
  ∧ (∀ (s : State) (p : LinkNo) (d : List Byte), s.hub.hears p = true → s.hub.calm p = true → s.hub.klState p = 3 →
    (s.hub.link p).finTx = true →
    Ends (.authFinRx p false d) s [.links, .pins, .repair] (klRegs p ∪ blockRegs .lnx ∪ {Reg.SIT_FAULTN_CNT, Reg.TSC_KITTY_MIN})
      [.kll, .lnx, .sit, .tsc] (fun t =>
      t.hub.klState p = 9 ∧ t.hub.rdF (Reg.KL_STATE p) 7 4 = 4 ∧ bit (t.hub.hdr .kll).sticky 5 = true ∧ t.hub.raw .kll 2 = true))
  ∧ (∀ (s : State) (p : LinkNo) (d : List Byte), s.hub.hears p = true → s.hub.calm p = true → s.hub.klState p = 3 →
    (s.hub.link p).finTx = true → (s.hub.link p).advRx = false →
    Ends (.authFinRx p true d) s (.repair :: sendParts) (klRegs p ∪ blockRegs .lnx ∪ sendRegs) (.lnx :: sendBlocks) (fun t =>
      (d = finDigest (s.hub.link p) →
        t.hub.klState p = 4 ∧ (t.hub.link p).finRx = true ∧ (t.hub.link p).advTx = true)
      ∧ (d ≠ finDigest (s.hub.link p) → t.hub.klState p = 9 ∧ t.hub.rdF (Reg.KL_STATE p) 7 4 = 4)))
  ∧ (∀ (s : State) (p : LinkNo), s.hub.linkUp p = true → s.hub.calm p = true → s.hub.klState p = 3 →
    (s.hub.link p).authFrom + 20000000 ≤ s.hub.mono →
    Ends (.authTimeout p) s [.links, .pins, .repair] (klRegs p ∪ blockRegs .lnx ∪ {Reg.SIT_FAULTN_CNT, Reg.TSC_KITTY_MIN})
      [.kll, .lnx, .sit, .tsc] (fun t =>
      t.hub.klState p = 9 ∧ t.hub.rdF (Reg.KL_STATE p) 7 4 = 5 ∧ (t.hub.link p).keyTx = [] ∧ (t.hub.link p).keyRx = []
      ∧ bit (t.hub.hdr .kll).sticky 5 = true))
  ∧ (∀ (s : State) (p : LinkNo) (v : List (BitVec 16)), s.hub.hears p = true → 4 ≤ s.hub.klState p → s.hub.klState p ≤ 8 →
    (s.hub.klState p = 4 → (s.hub.link p).advTx = false) →
    Ends (.creditAdvRx p v) s [.links] {Reg.TSC_KITTY_MIN} [.tsc] (fun t =>
      (t.hub.link p).adv = (List.range 8).map (fun c => min 4095 (v.getD c 0).toNat) ∧ (t.hub.link p).advRx = true
      ∧ (t.hub.link p).hand = (List.range 8).map (fun c => (s.hub.link p).hand.getD c 0 + (min 4095 (v.getD c 0).toNat : Nat)
          - ((s.hub.link p).adv.getD c 0 : Nat))))
  ∧ (∀ (s : State) (p : LinkNo) (v : List (BitVec 16)), s.hub.hears p = true → s.hub.calm p = true → s.hub.klState p = 4 →
    (s.hub.link p).advTx = true →
    Ends (.creditAdvRx p v) s [.links] (klRegs p ∪ {Reg.TSC_KITTY_MIN}) [.kll, .tsc] (fun t =>
      t.hub.klState p = 5 ∧ t.hub.raw .kll 0 = true ∧ t.hub.rdB Reg.KLL_PORT_UP p = true))
  ∧ (∀ (s : State) (p o : Nat) (c : List Byte), s.hub.opRunning .kll 0x10 = true → s.hub.up .kll = true →
    p = (s.hub.arg .kll 0).toNat → o = (s.hub.arg .kll 1).toNat → p ≤ 8 → o % 4 = 0 → portPresent s.hub.straps p = true →
    (s.hub.link p).gotChain = true → c = (s.hub.link p).chain → o < c.length →
    Ends .peerCertRead s [] ∅ [.kll] (fun t =>
      (t.hub.mbx .kll).result = some (mbxOk (w32 c.length :: (List.range 5).map fun k => w32 (leVal ((c.drop (o + 4 * k)).take 4))))))
  ∧ (∀ (s : State) (p : LinkNo) (b : List Byte), s.hub.hears p = true → s.hub.klState p = 2 →
    Ends (.authCertRx p b) s [.links] {Reg.TSC_KITTY_MIN} [.tsc] (fun t =>
      (t.hub.link p).earlyCert = b ∧ t.hub.klState p = 2))
  ∧ (∀ (s : State) (p : LinkNo) (b : List Byte), s.hub.hears p = true → 2 < s.hub.klState p → s.hub.klState p ≤ 8 →
    facesUp s.hub.role p = false → s.hub.depthNow = s.hub.rdF Reg.KLL_DEPTH 5 0 →
    Ends (.helloRx p b) s [.links] {Reg.KL_PEER p, Reg.KLL_DEPTH, Reg.TSC_KITTY_MIN} [.tsc] (fun t =>
      t.hub.klState p = s.hub.klState p ∧ (t.hub.link p).peerDepth = (b.getD 4 0).toNat % 64
      ∧ t.hub.rdF (Reg.KL_PEER p) 13 0 = beVal ((b.drop 2).take 2) % 16384))
  ∧ (∀ (s : State) (p : LinkNo) (b : List Byte), s.hub.hears p = true → s.hub.klState p = 2 ∨ s.hub.klState p = 3 →
    Runs (.authCertRx p b) s (settle s.hub (s.hub.fresh.tscWatch (s.hub.fresh.certIn p b))))
  ∧ (∀ (s : State) (p : LinkNo) (b : List Byte), s.hub.hears p = true → s.hub.klState p = 3 → s.hub.ksi.kat = 0 →
    (s.hub.link p).kexOwn.isEmpty = false → (s.hub.link p).kexPeer.isEmpty = true →
    Runs (.authKexRx p b) s (settle s.hub (s.hub.fresh.tscWatch (s.hub.fresh.gotKex p b))))
  ∧ (∀ (s : State) (p : LinkNo) (g : Bool) (d : List Byte), s.hub.hears p = true → s.hub.klState p = 3 →
    (s.hub.link p).finTx = true →
    Runs (.authFinRx p g d) s (settle s.hub (s.hub.fresh.tscWatch (s.hub.fresh.finIn p g d))))
  ∧ (∀ (s : State) (p : LinkNo), s.hub.linkUp p = true → s.hub.klState p = 3 →
    (s.hub.link p).authFrom + 20000000 ≤ s.hub.mono →
    Runs (.authTimeout p) s (settle s.hub (s.hub.fresh.tscWatch (s.hub.fresh.klFail p 5))))
  ∧ (∀ (s : State) (p : LinkNo) (v : List (BitVec 16)), s.hub.hears p = true → 4 ≤ s.hub.klState p → s.hub.klState p ≤ 8 →
    Runs (.creditAdvRx p v) s (settle s.hub (s.hub.fresh.tscWatch
      ((s.hub.fresh.setAdv p ((List.range 8).map fun c => min 4095 (v.getD c 0).toNat)).creditDone p))))
  ∧ (∀ s : State, s.hub.opRunning .kll 0x10 = true →
    Runs .peerCertRead s (settle s.hub (s.hub.fresh.runOp .kll 0x10 Hub.peerCertOp)))

/-- Cells on a link (R127, R128, R133, R143, R145, R162): a good cell in sequence is accepted, stored and listed; a VOID cell is accepted
and stores nothing; a malformed one, one whose pennant fails and one ahead of its turn are receive errors; one that has come
before is acknowledged again; the MAC block of a frame that is gone, and one that fails twice, let the link move on.
A clause `Runs c s h` says that the form completes with the effect of the definition that it names, under the row's own conditions alone.
Its clauses rest on these choices of the model: log entries 7, 18, 27 and 51. -/
def Obligations.LinkCells : Prop :=
  (∀ (s : State) (p : LinkNo) (hd data : List Byte) (r : RawCell) (o : OpenFrame) (f m i : Nat), s.hub.hears p = true →
    s.hub.klState p = 5 → (s.hub.link p).macCell = none → hd.getD 0 0 = 0xC5 → r = rawCell hd → r.check = true →
    r.rseq = (s.hub.link p).rxNext → r.void = false → r.malformed data false = false →
    r.pennant = pennantOf (data.take (r.len + 1)) r.flow r.fseq → r.tc ≠ 6 → r.flow < 0xFFC000 → r.first = false →
    s.hub.openOf p r.flow = some o → o.fate = .admitted f m → o.fseq = r.fseq → o.count < 64 → s.hub.freeIdx 1 = [i] →
    (s.hub.link p).idleReq = false → (data.length + 15) / 16 ≤ r.blocks →
    Ends (.cellRx p hd data false) s [.cells, .counts, .ctxs, .fts, .links, .opens, .pmc, .mir]
      (blockRegs .tsc ∪ blockRegs .mir ∪ pmcRegs) [.tsc, .pmc, .mir] (fun t =>
      (t.hub.link p).rxNext = ((s.hub.link p).rxNext + 1) % 4096 ∧ (t.hub.link p).ackDue = true
      ∧ (t.hub.cell i).map (·.payload) = some (data.take (r.len + 1)) ∧ (t.hub.cell i).map (·.pend) = some m
      ∧ (t.hub.ctx f).list = (s.hub.ctx f).list ++ [i]
      ∧ (t.hub.link p).held = modAt (s.hub.link p).held r.tc (fun n => n + 1)))
  ∧ (∀ (s : State) (p : LinkNo) (hd data : List Byte) (r : RawCell) (f m i : Nat), s.hub.hears p = true →
    s.hub.klState p = 5 → (s.hub.link p).macCell = none → hd.getD 0 0 = 0xC5 → r = rawCell hd → r.check = true →
    r.rseq = (s.hub.link p).rxNext → r.void = false → r.malformed data false = false →
    r.pennant = pennantOf (data.take (r.len + 1)) r.flow r.fseq → r.tc ≠ 6 → r.flow < 0xFFC000 → r.first = true → r.last = true →
    s.hub.opens.filter (fun o => o.flow = r.flow) = [] → s.hub.lookup r.flow = .resident f → (s.hub.ctx f).reseq = false →
    s.hub.verdict f p r.tc 1 = .accept m 0 → s.hub.freeIdx 1 = [i] →
    (s.hub.link p).idleReq = false → (data.length + 15) / 16 ≤ r.blocks →
    Ends (.cellRx p hd data false) s [.cells, .counts, .ctxs, .fts, .links, .pmc, .mir]
      (blockRegs .tsc ∪ blockRegs .mir ∪ pmcRegs) [.tsc, .pmc, .mir] (fun t =>
      (t.hub.link p).rxNext = ((s.hub.link p).rxNext + 1) % 4096 ∧ (t.hub.link p).ackDue = true
      ∧ (t.hub.cell i).map (·.payload) = some (data.take (r.len + 1)) ∧ (t.hub.cell i).map (·.pend) = some m
      ∧ (t.hub.cell i).map (·.arr) = some s.hub.mono ∧ (t.hub.ctx f).list = (s.hub.ctx f).list ++ [i]))
  ∧ (∀ (s : State) (p : LinkNo) (hd data : List Byte) (r : RawCell), s.hub.hears p = true → s.hub.klState p = 5 →
    (s.hub.link p).macCell = none → hd.getD 0 0 = 0xC5 → r = rawCell hd → r.check = true → r.rseq = (s.hub.link p).rxNext →
    r.void = true → r.malformed data false = false → s.hub.openOf p r.flow = none →
    (s.hub.link p).idleReq = false → (data.length + 15) / 16 ≤ r.blocks →
    Ends (.cellRx p hd data false) s [.links] {Reg.KL_CNT_VOID p, Reg.TSC_KITTY_MIN} [.tsc] (fun t =>
      (t.hub.link p).rxNext = ((s.hub.link p).rxNext + 1) % 4096
      ∧ t.hub.rd (Reg.KL_CNT_VOID p) = incHold (s.hub.rd (Reg.KL_CNT_VOID p))
      ∧ (t.hub.link p).retCum = modAt (s.hub.link p).retCum r.tc (fun n => (n + 1) % 65536)))
  ∧ (∀ (s : State) (p : LinkNo) (hd data : List Byte) (cut : Bool), s.hub.hears p = true → s.hub.klState p = 5 →
    (s.hub.link p).macCell = none → hd.getD 0 0 = 0xC5 → (rawCell hd).malformed data cut = true → (rawCell hd).check = false →
    (s.hub.link p).nakSent = false →
    (s.hub.link p).idleReq = false → (data.length + 15) / 16 ≤ (rawCell hd).blocks →
    Ends (.cellRx p hd data cut) s [.links, .pins] {Reg.KL_CNT_HDR p, Reg.SIT_FAULTN_CNT, Reg.TSC_KITTY_MIN} [.kll, .sit, .tsc]
      (fun t => t.hub.rd (Reg.KL_CNT_HDR p) = incHold (s.hub.rd (Reg.KL_CNT_HDR p)) ∧ bit (t.hub.hdr .kll).sticky 0 = true
      ∧ t.hub.link p = { s.hub.link p with nakSent := true }
      ∧ t.hub.out = s.hub.sends p [.block p (s.hub.creditBytes p false true)]))
  ∧ (∀ (s : State) (p : LinkNo) (hd data : List Byte) (r : RawCell), s.hub.hears p = true → s.hub.klState p = 5 →
    (s.hub.link p).macCell = none → hd.getD 0 0 = 0xC5 → r = rawCell hd → r.malformed data false = false →
    r.rseq ≠ (s.hub.link p).rxNext → 2048 < ((s.hub.link p).rxNext + 4096 - r.rseq) % 4096 → (s.hub.link p).nakSent = true →
    (s.hub.link p).idleReq = false → (data.length + 15) / 16 ≤ r.blocks →
    Ends (.cellRx p hd data false) s [] {Reg.TSC_KITTY_MIN} [.tsc] (fun t => t.hub.out = []))
  ∧ (∀ (s : State) (p : LinkNo) (hd data : List Byte) (r : RawCell), s.hub.hears p = true → s.hub.klState p = 5 →
    (s.hub.link p).macCell = none → hd.getD 0 0 = 0xC5 → r = rawCell hd → r.malformed data false = false →
    r.rseq ≠ (s.hub.link p).rxNext → ((s.hub.link p).rxNext + 4096 - r.rseq) % 4096 ≤ 2048 →
    (s.hub.link p).idleReq = false → (data.length + 15) / 16 ≤ r.blocks →
    Ends (.cellRx p hd data false) s [.links] {Reg.TSC_KITTY_MIN} [.tsc] (fun t =>
      t.hub.link p = { s.hub.link p with ackDue := true }))
  ∧ (∀ (s : State) (p : LinkNo) (hd data : List Byte) (r : RawCell), s.hub.hears p = true → s.hub.klState p = 5 →
    (s.hub.link p).macCell = none → hd.getD 0 0 = 0xC5 → r = rawCell hd → r.check = true → r.rseq = (s.hub.link p).rxNext →
    r.void = false → r.malformed data false = false → r.pennant ≠ pennantOf (data.take (r.len + 1)) r.flow r.fseq →
    (s.hub.link p).idleReq = false → (data.length + 15) / 16 ≤ r.blocks →
    Ends (.cellRx p hd data false) s [.links, .pins, .paging, .ctxs, .pmc]
      ({Reg.KL_CNT_PENNANT p, Reg.SIT_FAULTN_CNT, Reg.TSC_KITTY_MIN} ∪ pmcRegs) [.kll, .sit, .tsc, .pmc] (fun t => t.hub.rd (Reg.KL_CNT_PENNANT p) = incHold (s.hub.rd (Reg.KL_CNT_PENNANT p))
      ∧ bit (t.hub.hdr .kll).sticky 1 = true ∧ t.hub.link p = { s.hub.link p with nakSent := true }))
  ∧ (∀ (s : State) (p : LinkNo) (code : List Byte) (c : CellIn), s.hub.hears p = true → s.hub.klState p = 5 →
    (s.hub.link p).macCell = some c → c.tc = 6 → c.last = true → c.first = false → 0xFFC000 ≤ c.flow → s.hub.openOf p c.flow = none →
    Ends (.macBlockRx p code) s [.links] {Reg.TSC_KITTY_MIN} [.tsc] (fun t =>
      (t.hub.link p).macCell = none ∧ (t.hub.link p).rxNext = ((s.hub.link p).rxNext + 1) % 4096
      ∧ (t.hub.link p).ctrRx = (s.hub.link p).ctrRx + 1 ∧ (t.hub.link p).macTried = false))
  ∧ (∀ (s : State) (p : LinkNo) (code : List Byte) (c : CellIn) (l : LinkSt), s.hub.hears p = true → l = s.hub.link p →
    l.macCell = some c → c.first = true → l.macTried = true → code ≠ tc6Code l.keyRx l.ctrRx c.flow c.fseq c.payload →
    Ends (.macBlockRx p code) s [.links, .pins, .paging, .ctxs, .pmc]
      ({Reg.KL_CNT_MAC p, Reg.SIT_FAULTN_CNT, Reg.TSC_KITTY_MIN} ∪ pmcRegs) [.kll, .sit, .tsc, .pmc]
      (fun t => (t.hub.link p).macCell = none ∧ (t.hub.link p).ctrRx = l.ctrRx + 1 ∧ (t.hub.link p).macTried = false
      ∧ (t.hub.link p).rxNext = (l.rxNext + 1) % 4096 ∧ bit (t.hub.hdr .kll).sticky 2 = true
      ∧ t.hub.rd (Reg.KL_CNT_MAC p) = incHold (s.hub.rd (Reg.KL_CNT_MAC p))))
  ∧ (∀ (s : State) (p : LinkNo) (hd data : List Byte) (cut : Bool), s.hub.hears p = true → 2 ≤ s.hub.klState p →
    s.hub.klState p ≤ 8 →
    Runs (.cellRx p hd data cut) s (settle s.hub (s.hub.fresh.tscWatch (s.hub.fresh.cellOrBlock p hd data cut))))
  ∧ (∀ (s : State) (p : LinkNo) (code : List Byte) (c : CellIn), s.hub.hears p = true → (s.hub.link p).macCell = some c →
    Runs (.macBlockRx p code) s (settle s.hub (s.hub.fresh.tscWatch (s.hub.fresh.macRx p c code))))

/-- Credit, replay and idle (R122, R140, R141, R144, R146–R148): a credit block advances the returns and acknowledges, one whose check
fails or whose count is too high is an error, the hub's own blocks clear what is due, a timeout replays from the oldest cell until the
limit, and a link idles and wakes by request and answer.
A clause `Runs c s h` says that the form completes with the effect of the definition that it names, under the row's own conditions alone.
Its clauses rest on these choices of the model: log entries 27 and 46. -/
def Obligations.LinkCredit : Prop :=
  (∀ (s : State) (p : LinkNo) (hi nak : Bool) (k : BitVec 12) (v : List (BitVec 16)), s.hub.hears p = true →
    2 ≤ s.hub.klState p → s.hub.klState p ≤ 8 → (s.hub.link p).macCell = none →
    Ends (.creditBlockRx p hi nak k v false) s [.pins] {Reg.KL_CNT_HDR p, Reg.SIT_FAULTN_CNT, Reg.TSC_KITTY_MIN} [.kll, .sit, .tsc]
      (fun t => t.hub.rd (Reg.KL_CNT_HDR p) = incHold (s.hub.rd (Reg.KL_CNT_HDR p)) ∧ bit (t.hub.hdr .kll).sticky 0 = true))
  ∧ (∀ (s : State) (p : LinkNo) (hi nak : Bool) (k : BitVec 12) (v : List (BitVec 16)), s.hub.hears p = true →
    2 ≤ s.hub.klState p → s.hub.klState p ≤ 8 → (s.hub.link p).macCell = none →
    (List.range 4).any (fun c => decide (32767 < outAfter ((s.hub.link p).sentCum.getD ((if hi then 4 else 0) + c) 0)
      (v.getD c 0).toNat)) = true → v.length = 4 →
    Ends (.creditBlockRx p hi nak k v true) s [.pins] {Reg.SIT_FAULTN_CNT, Reg.TSC_KITTY_MIN} [.kll, .sit, .tsc] (fun t =>
      bit (t.hub.hdr .kll).sticky 3 = true))
  ∧ (∀ (s : State) (p : LinkNo) (hi : Bool) (k : BitVec 12) (v : List (BitVec 16)), s.hub.hears p = true →
    2 ≤ s.hub.klState p → s.hub.klState p ≤ 8 → (s.hub.link p).macCell = none →
    (List.range 4).all (fun c => decide (outAfter ((s.hub.link p).sentCum.getD ((if hi then 4 else 0) + c) 0) (v.getD c 0).toNat ≤ 32767))
      = true → v.length = 4 → (s.hub.link p).retRx.length = 8 →
    (s.hub.link p).unacked.all (fun e => decide (e.1 ≠ k.toNat)) = true →
    Ends (.creditBlockRx p hi false k v true) s [.links] {Reg.KL_REPLAY_STAT p, Reg.TSC_KITTY_MIN} [.tsc] (fun t =>
      t.hub.rdF (Reg.KL_REPLAY_STAT p) 23 12 = k.toNat
      ∧ (List.range 4).all (fun c => decide ((t.hub.link p).retRx.getD ((if hi then 4 else 0) + c) 0 = (v.getD c 0).toNat)) = true
      ∧ (t.hub.link p).unacked = (s.hub.link p).unacked))
  ∧ (∀ (s : State) (p : LinkNo), s.hub.linkUp p = true → 2 ≤ s.hub.klState p → s.hub.klState p ≤ 8 →
    s.hub.klState p ≠ 6 →
    Ends (.creditBlockSend p) s [.links] ∅ [] (fun t =>
      (t.hub.link p).retSent = (s.hub.link p).retCum ∧ (t.hub.link p).ackDue = false
      ∧ t.hub.out = s.hub.sends p [.block p (s.hub.creditBytes p false false), .block p (s.hub.creditBytes p true false)]))
  ∧ (∀ (s : State) (p : LinkNo) (r i : Nat) (l : List (Nat × Nat)), s.hub.linkUp p = true → 2 ≤ s.hub.klState p →
    s.hub.klState p ≤ 6 → (s.hub.link p).unacked = (r, i) :: l → (s.hub.link p).run = 0 → 1 < s.hub.rdF (Reg.KL_REPLAY_CFG p) 15 12 →
    (s.hub.link p).ackAt + s.hub.replayTmo p ≤ s.hub.mono →
    Ends (.replayTimeout p) s [.links] {Reg.TSC_KITTY_MIN} [.tsc] (fun t =>
      t.hub.link p = { s.hub.link p with
        run := 1, runSeq := r, replay := some r, ackAt := s.hub.mono, replayAt := some s.hub.mono }))
  ∧ (∀ (s : State) (p : LinkNo) (r i : Nat) (l : List (Nat × Nat)), s.hub.linkUp p = true → s.hub.calm p = true →
    s.hub.klState p = 5 → (s.hub.link p).unacked = (r, i) :: l → (s.hub.link p).run ≠ 0 → (s.hub.link p).runSeq = r →
    max 1 (s.hub.rdF (Reg.KL_REPLAY_CFG p) 15 12) ≤ (s.hub.link p).run + 1 →
    (s.hub.link p).ackAt + s.hub.replayTmo p ≤ s.hub.mono →
    Ends (.replayTimeout p) s [.links, .pins] (klRegs p ∪ {Reg.SIT_FAULTN_CNT, Reg.TSC_KITTY_MIN}) [.kll, .sit, .tsc] (fun t =>
      t.hub.klState p = 7 ∧ (t.hub.link p).recoverLoss = false ∧ bit (t.hub.hdr .kll).sticky 4 = true))
  ∧ (∀ (s : State) (p : LinkNo), s.hub.linkUp p = true → s.hub.idleReady p = true → s.hub.rdF Reg.KLL_IDLE_HOLD 15 0 ≠ 0 →
    Ends (.idleRequest p) s [.links] ∅ [] (fun t =>
      t.hub.link p = { s.hub.link p with idleReq := true } ∧ t.hub.out = s.hub.sends p [.block p (idleBlock 0)]))
  ∧ (∀ (s : State) (p : LinkNo), s.hub.hears p = true → s.hub.klState p = 5 → s.hub.idleReady p = false →
    (s.hub.link p).idleReq = false →
    (s.hub.link p).macCell = none →
    Ends (.idleReqRx p) s [] {Reg.TSC_KITTY_MIN} [.tsc] (fun t => t.hub.out = s.hub.sends p [.block p (idleBlock 2)] ∧ t.hub.klState p = 5))
  ∧ (∀ (s : State) (p : LinkNo), s.hub.hears p = true → s.hub.calm p = true → s.hub.klState p = 5 → s.hub.idleReady p = true →
    (s.hub.link p).idleReq = false →
    (s.hub.link p).macCell = none →
    Ends (.idleReqRx p) s [.links] (klRegs p ∪ blockRegs .lnx ∪ {Reg.TSC_KITTY_MIN}) [.tsc] (fun t =>
      t.hub.klState p = 6 ∧ t.hub.out = s.hub.sends p [.block p (idleBlock 1)] ∧ t.hub.rdB Reg.KLL_PORT_UP p = true))
  ∧ (∀ (s : State) (p : LinkNo), s.hub.hears p = true → s.hub.calm p = true → s.hub.klState p = 5 →
    (s.hub.link p).idleReq = true → (s.hub.link p).macCell = none → s.hub.keepAwake p = false →
    Ends (.idleAckRx p) s [.links] (klRegs p ∪ blockRegs .lnx ∪ {Reg.TSC_KITTY_MIN}) [.tsc] (fun t =>
      t.hub.klState p = 6 ∧ (t.hub.link p).idleReq = false
      ∧ (s.hub.portLanes p).all (fun l => !s.hub.rdB (Reg.LN_CFG l) 2 || t.hub.rdB (Reg.LN_STAT l) 15) = true))
  ∧ (∀ (s : State) (p : LinkNo), s.hub.hears p = true → (s.hub.link p).idleReq = true →
    (s.hub.link p).macCell = none →
    Ends (.idleNakRx p) s [.links] ∅ [] (fun t =>
      t.hub.link p = { s.hub.link p with idleReq := false } ∧ t.hub.klState p = s.hub.klState p))
  ∧ (∀ (s : State) (p : LinkNo), s.hub.linkUp p = true → s.hub.calm p = true → s.hub.klState p = 6 → s.hub.pendTotal p ≠ 0 ∨ s.hub.keepAwake p = true →
    s.hub.allLanes p 16 = true → s.hub.holdCause p = none →
    Ends (.linkWake p) s [.links] (klRegs p ∪ blockRegs .lnx ∪ {Reg.TSC_KITTY_MIN}) [.kll, .tsc] (fun t =>
      t.hub.klState p = 5 ∧ t.hub.out = s.hub.sends p [.wake p] ∧ (s.hub.portLanes p).all (fun l => !t.hub.rdB (Reg.LN_STAT l) 15) = true))
  ∧ (∀ (s : State) (p : LinkNo), s.hub.hears p = true → s.hub.klState p = 5 → (s.hub.link p).idleReq = true →
    (s.hub.link p).macCell = none → s.hub.keepAwake p = true →
    Ends (.idleAckRx p) s [.links] {Reg.TSC_KITTY_MIN} [.tsc] (fun t =>
      t.hub.klState p = 5 ∧ t.hub.link p = { s.hub.link p with idleReq := false } ∧ t.hub.out = s.hub.sends p [.wake p]))
  ∧ (∀ (s : State) (p : LinkNo) (hi nak g : Bool) (k : BitVec 12) (v : List (BitVec 16)), s.hub.hears p = true →
    2 ≤ s.hub.klState p → s.hub.klState p ≤ 8 →
    Runs (.creditBlockRx p hi nak k v g) s (settle s.hub (s.hub.fresh.tscWatch (s.hub.fresh.creditIn p hi nak k v g))))
  ∧ (∀ (s : State) (p : LinkNo), s.hub.linkUp p = true → 2 ≤ s.hub.klState p → s.hub.klState p ≤ 8 → s.hub.klState p ≠ 7 →
    (s.hub.link p).ackAt + s.hub.replayTmo p ≤ s.hub.mono →
    Runs (.replayTimeout p) s (settle s.hub (s.hub.fresh.tscWatch (s.hub.fresh.replayLate p))))
  ∧ (∀ (s : State) (p : LinkNo), s.hub.hears p = true → s.hub.klState p = 5 →
    Runs (.idleReqRx p) s (settle s.hub (s.hub.fresh.tscWatch (s.hub.fresh.idleAsked p))))
  ∧ (∀ (s : State) (p : LinkNo), s.hub.hears p = true → s.hub.klState p = 5 → (s.hub.link p).idleReq = true →
    Runs (.idleAckRx p) s (settle s.hub (s.hub.fresh.tscWatch ((s.hub.fresh.macMissing p).enterIdle p))))
  ∧ (∀ (s : State) (p : LinkNo), s.hub.linkUp p = true → s.hub.klState p = 6 →
    s.hub.pendTotal p ≠ 0 ∨ s.hub.keepAwake p = true →
    Runs (.linkWake p) s (settle s.hub (s.hub.fresh.tscWatch ((s.hub.fresh.emit (.wake p)).wakeLink p))))

/-- Time transfer (R149–R151, R155): the child's request, the parent's answer, the mark, θ, and missed exchanges.
A clause `Runs c s h` says that the form completes with the effect of the definition that it names, under the row's own conditions alone.
Its clauses rest on these choices of the model: log entries 15, 18, 46 and 59. -/
def Obligations.TimeTransfer : Prop :=
  (∀ (s : State) (p : Nat), s.hub.up .kll = true → s.hub.ttUp = some p → s.hub.xfer.busy = false →
    s.hub.xfer.lastTick.all (fun a => decide (a + 1000000 ≤ s.hub.mono)) = true →
    Ends .timeExchangeStart s [.xfer] ∅ [] (fun t =>
      t.hub.xfer.busy = true ∧ t.hub.xfer.seq = (s.hub.xfer.seq + 1) % 65536 ∧ t.hub.xfer.t1 = s.hub.stamp16
      ∧ t.hub.xfer.t4 = none ∧ t.hub.xfer.reqAt = s.hub.mono
      ∧ t.hub.out = s.hub.sends p [.block p (timeBlock 0 ((s.hub.xfer.seq + 1) % 65536))]))
  ∧ (∀ (s : State) (p : LinkNo) (k : BitVec 16) (d : Nat), s.hub.hears p = true → s.hub.klState p = 5 → d ≤ 160000 →
    (s.hub.link p).macCell = none →
    Ends (.timeReqRx p k d) s sendParts sendRegs sendBlocks (fun t => (s.hub.muted p = false → .block p (timeBlock 1 k.toNat) ∈ t.hub.out) ∧ t.hub.xfer = s.hub.xfer))
  ∧ (∀ (s : State) (p : LinkNo) (k : BitVec 16), s.hub.hears p = true → s.hub.ttSource = some p.val → s.hub.xfer.busy = true →
    k.toNat = s.hub.xfer.seq →
    (s.hub.link p).macCell = none →
    Ends (.timeMarkRx p k) s [.xfer] ∅ [] (fun t => t.hub.xfer = { s.hub.xfer with t4 := some s.hub.stamp16 }))
  ∧ (∀ (s : State) (p : LinkNo) (k : BitVec 16) (t2 t3 : BitVec 64) (f2 f3 : BitVec 4) (t4 : Nat) (th : Int), s.hub.hears p = true →
    s.hub.ttSource = some p.val → s.hub.xfer.busy = true → k.toNat = s.hub.xfer.seq → s.hub.xfer.t4 = some t4 →
    s.hub.xfer.viaOp = false → s.hub.timeSrc ≠ 1 → s.hub.xfer.good < 7 → s.hub.xfer.bad = 0 →
    th = ((((t4 : Nat) : Int) - (t3.toNat * 16 + f3.toNat : Nat)) - ((t2.toNat * 16 + f2.toNat : Nat) - (s.hub.xfer.t1 : Int))
      + (BitVec.ofNat 16 (s.hub.rdF (Reg.KL_TT_ASYM p) 15 0)).toInt) / 2 →
    Ends (.timeRespRx p k t2 f2 t3 f3) s [.xfer] {Reg.KLL_TT_STAT, Reg.KLL_TT_OFS} [] (fun t =>
      t.hub.rd Reg.KLL_TT_OFS = swordHold th ∧ t.hub.xfer.busy = false
      ∧ t.hub.rdF Reg.KLL_TT_STAT 15 8 = (s.hub.rdF Reg.KLL_TT_STAT 15 8 + 1) % 256 ∧ t.hub.rdF Reg.KLL_TT_STAT 23 16 = 0
      ∧ t.hub.xfer.good = (if th.natAbs ≤ 32 then s.hub.xfer.good + 1 else 0)
      ∧ t.hub.xfer.bad = (if 320 < th.natAbs then 1 else 0)))
  ∧ (∀ s : State, s.hub.up .kll = true → s.hub.xfer.busy = true →
    s.hub.xfer.reqAt + 500000 ≤ s.hub.mono → s.hub.xfer.viaOp = false → s.hub.rdF Reg.KLL_TT_STAT 23 16 < 3 →
    Ends .timeExchangeMiss s [.xfer] {Reg.KLL_TT_STAT} [] (fun t =>
      t.hub.xfer.busy = false ∧ t.hub.xfer.good = 0
      ∧ t.hub.rdF Reg.KLL_TT_STAT 23 16 = s.hub.rdF Reg.KLL_TT_STAT 23 16 + 1))
  ∧ (∀ s : State, s.hub.up .kll = true → s.hub.xfer.busy = true →
    s.hub.xfer.reqAt + 500000 ≤ s.hub.mono → s.hub.xfer.viaOp = false → s.hub.rdF Reg.KLL_TT_STAT 23 16 = 3 →
    s.hub.rdB Reg.KLL_TT_STAT 0 = true → s.hub.timeSrc ≠ 1 →
    Ends .timeExchangeMiss s [.xfer] (blockRegs .kll) [.kll] (fun t =>
      t.hub.rdB Reg.KLL_TT_STAT 0 = false ∧ t.hub.raw .kll 5 = true ∧ t.hub.rdF Reg.KLL_TT_STAT 23 16 = 4))
  ∧ (∀ (s : State) (p : Nat), s.hub.opRunning .kll 0x11 = true → s.hub.up .kll = true → s.hub.ttUp = some p → s.hub.xfer.viaOp = false →
    Ends .ttExchangeNow s [.xfer] ∅ [] (fun t =>
      t.hub.xfer.busy = true ∧ t.hub.xfer.viaOp = true ∧ t.hub.xfer.seq = (s.hub.xfer.seq + 1) % 65536
      ∧ (t.hub.mbx .kll).result = none))
  ∧ (∀ s : State, s.hub.opRunning .kll 0x11 = true → s.hub.up .kll = true → s.hub.ttUp = none →
    Ends .ttExchangeNow s [] ∅ [.kll] (fun t => (t.hub.mbx .kll).result = some (mbxErr 0x81)))
  ∧ (∀ (s : State) (p : LinkNo) (k : BitVec 16) (d : Nat), s.hub.hears p = true → s.hub.klState p = 5 → d ≤ 160000 →
    Runs (.timeReqRx p k d) s (settle s.hub (s.hub.fresh.tscWatch (s.hub.fresh.timeAsked p k d))))
  ∧ (∀ (s : State) (p : LinkNo) (k : BitVec 16) (t2 t3 : BitVec 64) (f2 f3 : BitVec 4) (t4 : Nat), s.hub.hears p = true →
    s.hub.ttSource = some p.val → s.hub.xfer.busy = true → k.toNat = s.hub.xfer.seq → s.hub.xfer.t4 = some t4 →
    Runs (.timeRespRx p k t2 f2 t3 f3) s (settle s.hub
      (s.hub.fresh.ttDone p (t2.toNat * 16 + f2.toNat : Nat) (t3.toNat * 16 + f3.toNat : Nat) (t4 : Nat))))
  ∧ (∀ s : State, s.hub.up .kll = true → s.hub.xfer.busy = true → s.hub.xfer.reqAt + 500000 ≤ s.hub.mono →
    Runs .timeExchangeMiss s (settle s.hub s.hub.fresh.exchangeMissed))
  ∧ (∀ s : State, s.hub.opRunning .kll 0x11 = true →
    Runs .ttExchangeNow s (settle s.hub (s.hub.fresh.runOp .kll 0x11 Hub.exchangeNowOp)))

/-- The switch core's own events (R167, R175, R177, R179–R182): a frame that waits is admitted when it fits, open and held frames time
out, banks move to the spare, are tested, condemned and drained, and a descriptor error's sweep counts what it cannot read.
A clause `Runs c s h` says that the form completes with the effect of the definition that it names, under the row's own conditions alone.
Its clauses rest on these choices of the model: log entries 28, 46, 51, 53 and 63. -/
def Obligations.SwitchCore : Prop :=
  (∀ (s : State) (w : WaitFrame) (q ok : Nat), s.hub.mainUp = true → s.hub.waits = [w] → w.port = 0x11 → w.slot = some q → q < 9 →
    s.hub.foyer 0x11 = [] → (s.hub.ctx q).reseq = false →
    s.hub.verdict q 0x11 (s.hub.ctx q).tc (cellCount w.payload) = .accept ok 0 →
    Ends (.admitRetry (0x11 : PortNo)) s sendParts sendRegs sendBlocks (fun t =>
      t.hub.waits = [] ∧ (t.hub.ctx q).inseq = ((s.hub.ctx q).inseq + 1) % 65536))
  ∧ (∀ (s : State) (i : PortNo) (w : WaitFrame) (q : Nat), s.hub.mainUp = true → holdsAt i = true → s.hub.waits = [w] →
    w.port = i.val → w.slot = some q → s.hub.foyer i = [] →
    (s.hub.verdict q i (s.hub.ctx q).tc (cellCount w.payload)).passes i = false →
    Ends (.admitRetry i) s [.waits] (blockRegs .tsc) [.tsc] (fun t =>
      t.hub.waits.map (fun x => { x with told := false }) = [{ w with told := false }]))
  ∧ (∀ (s : State) (p : PortNo) (f : BitVec 24) (o : OpenFrame), s.hub.mainUp = true → s.hub.openOf p f.toNat = some o →
    o.time + s.hub.reasmTmo ≤ s.hub.mono →
    Ends (.reasmTimeout p f) s [.cells, .counts, .ctxs, .fts, .tports, .opens, .foyers, .links, .paging, .pmc]
      (blockRegs .tsc ∪ pmcRegs) [.tsc, .pmc] (fun t =>
      t.hub.openOf p f.toNat = none
      ∧ t.hub.rd (Reg.TP_DROP_ABANDON p) = incHold (s.hub.rd (Reg.TP_DROP_ABANDON p))))
  ∧ (∀ (s : State) (k : SlotNo) (f : HeldFrame), s.hub.mainUp = true → (s.hub.ctx k).held = [f] → f.fseq < 65536 →
    (s.hub.ctx k).rsqNext < 65536 → f.fseq ≠ (s.hub.ctx k).rsqNext → f.since + s.hub.reseqTmo ≤ s.hub.mono →
    Ends (.reseqTimeout k) s [.cells, .counts, .ctxs, .fts] (blockRegs .tsc) [.tsc] (fun t =>
      (t.hub.ctx k).held = [] ∧ (t.hub.ctx k).rsqNext = (f.fseq + 1) % 65536 ∧ t.hub.raw .tsc 7 = true
      ∧ (t.hub.ctx k).cntGap = holdAt 0xFFFFFFFF ((s.hub.ctx k).cntGap + (s.hub.ctx k).rsqDist f.fseq)))
  ∧ (∀ (s : State) (l : Nat), s.hub.mainUp = true → s.hub.banks.copying = some l → l < 32 → s.hub.banks.condemn = false →
    s.hub.lends = true →
    Ends .bankCopyDone s [.banks] {Reg.TSC_BANK_MAP (l / 5), Reg.TSC_BANK_SPARE, Reg.TSC_KITTY_MIN} [.tsc] (fun t =>
      t.hub.bankOf l = s.hub.spareBank ∧ t.hub.spareBank = 0x3F ∧ t.hub.raw .tsc 2 = true
      ∧ t.hub.banks = { s.hub.banks with copying := none, testing := some (s.hub.bankOf l) }))
  ∧ (∀ (s : State) (l : Nat), s.hub.mainUp = true → s.hub.banks.copying = some l → l < 32 → s.hub.banks.condemn = true →
    s.hub.sit.due = false → s.hub.banks.waiting = [] → s.hub.repairMap.length < 256 →
    Ends .bankCopyDone s [.banks, .repairMap, .pins] (blockRegs .tsc ∪ {Reg.SIT_FAULTN_CNT}) [.tsc, .sit] (fun t =>
      t.hub.bankOf l = s.hub.spareBank ∧ t.hub.spareBank = 0x3F ∧ t.hub.sparePresent = false ∧ bit (t.hub.hdr .sit).live 6 = true
      ∧ t.hub.repairMap.length = s.hub.repairMap.length + 1
      ∧ t.hub.banks = { s.hub.banks with copying := none, condemn := false }))
  ∧ (∀ (s : State) (b : Nat), s.hub.mainUp = true → s.hub.banks.testing = some b → b < 33 → s.hub.lends = true → s.hub.sit.waits = false →
    s.hub.sit.due = false → s.hub.banks.waiting = [] → s.hub.sitStep < 32 →
    Ends (.bankTestDone true) s [.banks, .sit] {Reg.TSC_BANK_SPARE, Reg.SIT_RUN 0, Reg.SIT_COVER_STAT, Reg.TSC_KITTY_MIN} [.tsc] (fun t =>
      t.hub.spareBank = b ∧ t.hub.banks = { s.hub.banks with testing := none } ∧ t.hub.sitStep = s.hub.sitStep + 1
      ∧ t.hub.rd (Reg.SIT_RUN 0) = incHold (s.hub.rd (Reg.SIT_RUN 0)) ∧ t.hub.sit = { s.hub.sit with running := false, tested := s.hub.sit.tested.erase (0, b) ++ [(0, b)] })
    ∧ Ends (.bankTestDone false) s [.banks, .sit, .repairMap, .pins]
      (blockRegs .tsc ∪ {Reg.SIT_RUN 0, Reg.SIT_FAIL 0, Reg.SIT_COVER_STAT, Reg.SIT_REPAIR_STAT, Reg.SIT_FAULTN_CNT}) [.tsc, .sit] (fun t =>
      t.hub.spareBank = 0x3F ∧ t.hub.sparePresent = false ∧ bit (t.hub.hdr .sit).sticky 0 = true ∧ t.hub.raw .sit 2 = true
      ∧ t.hub.rd (Reg.SIT_FAIL 0) = incHold (s.hub.rd (Reg.SIT_FAIL 0))
      ∧ t.hub.rdB (if b < 32 then Reg.TSC_BANK_OUT_LO else Reg.TSC_BANK_OUT_HI) (b % 32) = true))
  ∧ (∀ (s : State) (l : Nat), s.hub.opRunning .tsc 0x14 = true → l = (s.hub.arg .tsc 0).toNat → l < 32 → s.hub.bankOf l ≠ 0x3F →
    s.hub.banks.testing = none → s.hub.banks.condemn = false → s.hub.banks.draining = none → s.hub.banks.waiting = [] →
    s.hub.sparePresent = true → s.hub.banks.copying = none →
    Ends .bankCondemn s [.banks] {Reg.TSC_BANK_SPARE, Reg.TSC_KITTY_MIN} [.tsc] (fun t =>
      t.hub.banks = { s.hub.banks with copying := some l, condemn := true } ∧ t.hub.raw .tsc 3 = true
      ∧ (t.hub.mbx .tsc).result = some (mbxOk [w32 (s.hub.bankOf l)])))
  ∧ (∀ (s : State) (l k : Nat), s.hub.opRunning .tsc 0x14 = true → l = (s.hub.arg .tsc 0).toNat → l < 32 → s.hub.bankOf l ≠ 0x3F →
    s.hub.banks.testing = none → s.hub.banks.condemn = false → s.hub.banks.draining = none → s.hub.banks.waiting = [] →
    s.hub.sparePresent = true → s.hub.banks.copying = some k →
    Ends .bankCondemn s [.banks, .sit] {Reg.TSC_BANK_SPARE, Reg.TSC_KITTY_MIN} [.tsc] (fun t =>
      t.hub.banks = { s.hub.banks with copying := some l, condemn := true } ∧ t.hub.raw .tsc 3 = true
      ∧ t.hub.sit = { s.hub.sit with running := false, due := true, next := k }))
  ∧ (∀ (s : State) (l : Nat), s.hub.opRunning .tsc 0x14 = true → l = (s.hub.arg .tsc 0).toNat → l < 32 → s.hub.bankOf l ≠ 0x3F →
    s.hub.banks.testing = none → s.hub.banks.condemn = false → s.hub.banks.draining = none → s.hub.banks.waiting = [] →
    s.hub.sparePresent = false →
    Ends .bankCondemn s [.banks, .counts] {Reg.TSC_BANK_SPARE, Reg.TSC_KITTY_MIN} [.tsc] (fun t =>
      t.hub.banks = { s.hub.banks with draining := some l } ∧ t.hub.raw .tsc 3 = true
      ∧ t.hub.counts.kitty = s.hub.counts.kitty - s.hub.freeInBank l
      ∧ t.hub.counts.condemned = s.hub.counts.condemned + s.hub.freeInBank l))
  ∧ (∀ (s : State) (l : Nat), s.hub.mainUp = true → s.hub.banks.draining = some l → l < 32 → s.hub.freeInBank l = 2048 →
    s.hub.sit.due = false → s.hub.banks.waiting = [] → s.hub.repairMap.length < 256 → 2048 ≤ s.hub.rdF Reg.TSC_CAP 16 0 →
    Ends .bankDrainComplete s [.banks, .counts, .repairMap, .pins] (blockRegs .tsc ∪ {Reg.SIT_FAULTN_CNT}) [.tsc, .sit] (fun t =>
      t.hub.bankOf l = 0x3F ∧ t.hub.rdF Reg.TSC_CAP 16 0 = s.hub.rdF Reg.TSC_CAP 16 0 - 2048 ∧ t.hub.raw .tsc 4 = true
      ∧ t.hub.counts.condemned = s.hub.counts.condemned - 2048 ∧ t.hub.banks = { s.hub.banks with draining := none }
      ∧ t.hub.repairMap.length = s.hub.repairMap.length + 1))
  ∧ (∀ (s : State) (i : BitVec 16) (c : CellSt), s.hub.mainUp = true → s.hub.cell i.toNat = some c → (s.hub.ctx c.slot).list = [i.toNat] →
    c.repl = 0 → c.pend < 2 ^ 18 → s.hub.opens = [] →
    Ends (.descSweepDone i false) s [.cells, .counts, .ctxs, .fts, .tports, .links] (blockRegs .tsc) [.tsc] (fun t =>
      t.hub.cell i.toNat = none ∧ (t.hub.ctx c.slot).list = []
      ∧ t.hub.rd Reg.TSC_DROP_LOST = incHold (s.hub.rd Reg.TSC_DROP_LOST)))
  ∧ (∀ (s : State) (i : PortNo), s.hub.mainUp = true → holdsAt i = true →
    Runs (.admitRetry i) s (settle s.hub (s.hub.fresh.tscWatch (s.hub.fresh.admitRetry i))))
  ∧ (∀ (s : State) (k : SlotNo) (f : HeldFrame), s.hub.mainUp = true → (s.hub.ctx k).held.head? = some f →
    f.since + s.hub.reseqTmo ≤ s.hub.mono →
    Runs (.reseqTimeout k) s (settle s.hub (s.hub.fresh.tscWatch (s.hub.fresh.rsqTimeout k 64))))
  ∧ (∀ (s : State) (b : Bool), s.hub.mainUp = true → s.hub.banks.testing.isSome = true → s.hub.lends = true →
    Runs (.bankTestDone b) s (settle s.hub (s.hub.fresh.tscWatch (s.hub.fresh.bankTested b))))
  ∧ (∀ (s : State) (i : BitVec 16) (b : Bool), s.hub.mainUp = true → (s.hub.cell i.toNat).isSome = true →
    Runs (.descSweepDone i b) s (settle s.hub (s.hub.fresh.tscWatch (s.hub.fresh.sweepFrom i.toNat b))))

/-- TSC's per-flow operations (R188, Table 6.10): they answer from the context of a resident slot, refuse any other slot, and only
FLOW_COUNTS_CLEAR changes it.
Its clauses rest on these choices of the model: log entry 29. -/
def Obligations.FlowCounts : Prop :=
  (∀ (s : State) (k : Nat) (c : Ctx), s.hub.opRunning .tsc 0x10 = true → k = (s.hub.arg .tsc 0).toNat → k < 8192 → c = s.hub.ctx k →
    c.state = .resident →
    Ends .flowCounts s [] ∅ [.tsc] (fun t => (t.hub.mbx .tsc).result =
      some (mbxOk [w32 c.cntPennant, w32 c.cntAdmit, w32 c.cntReset, w32 c.cntGap, w32 c.cntDup, w32 c.cntLate])))
  ∧ (∀ (s : State) (k : Nat) (c : Ctx), s.hub.opRunning .tsc 0x11 = true → k = (s.hub.arg .tsc 0).toNat → k < 8192 → c = s.hub.ctx k →
    c.state = .resident →
    Ends .flowCountsClear s [.ctxs] ∅ [.tsc] (fun t => (t.hub.mbx .tsc).result = some (mbxOk [])
      ∧ t.hub.ctx k = { c with cntPennant := 0, cntAdmit := 0, cntReset := 0, cntGap := 0, cntDup := 0, cntLate := 0, cntFoyer := 0, cntExit := 0 }
      ∧ ∀ j, j ≠ k → t.hub.ctx j = s.hub.ctx j))
  ∧ (∀ (s : State) (k : Nat) (c : Ctx), s.hub.opRunning .tsc 0x12 = true → k = (s.hub.arg .tsc 0).toNat → k < 8192 → c = s.hub.ctx k →
    c.state = .resident →
    Ends .reseqState s [] ∅ [.tsc] (fun t => (t.hub.mbx .tsc).result =
      some (mbxOk [w32 (c.rsqNext + b2n c.rsqSet * 2 ^ 16 + c.held.length * 2 ^ 17), w32 ((c.held.head?.map (·.fseq)).getD 0),
        w32 (c.held.foldl (fun n f => n + f.cells.length) 0)])))
  ∧ (∀ (s : State) (k : Nat) (c : Ctx), s.hub.opRunning .tsc 0x15 = true → k = (s.hub.arg .tsc 0).toNat → k < 8192 → c = s.hub.ctx k →
    c.state = .resident →
    Ends .flowCountsExit s [] ∅ [.tsc] (fun t => (t.hub.mbx .tsc).result = some (mbxOk [w32 c.cntExit, w32 c.cntFoyer])))
  ∧ (∀ s : State, s.hub.opRunning .tsc 0x11 = true → 8192 ≤ (s.hub.arg .tsc 0).toNat →
    Ends .flowCountsClear s [] ∅ [.tsc] (fun t => (t.hub.mbx .tsc).result = some (mbxErr 2)))
  ∧ (∀ s : State, s.hub.opRunning .tsc 0x11 = true → (s.hub.arg .tsc 0).toNat < 8192 →
    (s.hub.ctx (s.hub.arg .tsc 0).toNat).state ≠ .resident →
    Ends .flowCountsClear s [] ∅ [.tsc] (fun t => (t.hub.mbx .tsc).result = some (mbxErr 0x80)))

/-- The ledger and the in-service test (R183–R185, R188, R476–R479, R484): an extra check snapshots the pools and records the first
equation that fails; a bank step copies the next bank; a test of an instance passes or acts on its failure; the two operations.
A clause `Runs c s h` says that the form completes with the effect of the definition that it names, under the row's own conditions alone.
Its clauses rest on these choices of the model: log entries 31, 41, 46 and 62. -/
def Obligations.LedgerAndServiceTest : Prop :=
  (∀ s : State, s.hub.opRunning .tsc 0x13 = true → s.hub.rdB Reg.TSC_LEDGER_STAT 2 = false → s.hub.unequal = [] →
    Ends .ledgerCheckNow s [] (blockRegs .tsc) [.tsc] (fun t =>
      t.hub.rd (Reg.TSC_SNAP 0) = iword s.hub.counts.kitty ∧ t.hub.rd (Reg.TSC_SNAP 7) = iword s.hub.counts.refs
      ∧ t.hub.rdB Reg.TSC_LEDGER_STAT 0 = false
      ∧ t.hub.rdF Reg.TSC_LEDGER_STAT 31 16 = (s.hub.rdF Reg.TSC_LEDGER_STAT 31 16 + 1) % 65536
      ∧ (t.hub.mbx .tsc).result = some (mbxOk [t.hub.rd Reg.TSC_LEDGER_STAT])))
  ∧ (∀ (s : State) (u : Unequal) (l : List Unequal), s.hub.opRunning .tsc 0x13 = true → s.hub.rdB Reg.TSC_LEDGER_STAT 2 = false →
    s.hub.unequal = u :: l →
    Ends .ledgerCheckNow s [.wide, .pins] (blockRegs .tsc ∪ {Reg.SIT_FAULTN_CNT}) [.tsc, .sit] (fun t =>
      t.hub.rdB Reg.TSC_LEDGER_STAT 0 = true ∧ t.hub.rdB Reg.TSC_LEDGER_STAT 1 = !l.isEmpty
      ∧ t.hub.rd Reg.TSC_LEDGER_REC = w32 (u.pool + 256 * u.inst) ∧ t.hub.rd Reg.TSC_LEDGER_DIFF = iword u.diff
      ∧ t.hub.rdWide Reg.TSC_LEDGER_TIME_LO = s.hub.time.ns % 2 ^ 64 ∧ bit (t.hub.hdr .tsc).sticky 0 = true ∧ t.hub.raw .tsc 0 = true))
  ∧ (∀ s : State, s.hub.opRunning .tsc 0x13 = true → s.hub.rdB Reg.TSC_LEDGER_STAT 2 = true →
    Ends .ledgerCheckNow s [] ∅ [.tsc] (fun t => (t.hub.mbx .tsc).result = some (mbxOk [s.hub.rd Reg.TSC_LEDGER_STAT])))
  ∧ (∀ s : State, s.hub.sitRuns = true → s.hub.sit.running = false → s.hub.banks.condemn = false → s.hub.banks.draining = none →
    s.hub.banks.copying = none → s.hub.sitOn 0 = true → s.hub.sparePresent = true →
    s.hub.sit.dueAt + s.hub.bankPeriod ≤ s.hub.mono →
    Ends .bankStepDue s [.sit, .banks] {Reg.TSC_BANK_SPARE, Reg.TSC_KITTY_MIN} [.tsc] (fun t =>
      t.hub.banks = { s.hub.banks with copying := some s.hub.sit.next }
      ∧ t.hub.sit = { s.hub.sit with
        due := false, running := true, next := (s.hub.sit.next + 1) % 32, dueAt := s.hub.sit.dueAt + s.hub.bankPeriod }))
  ∧ (∀ s : State, s.hub.sitRuns = true → s.hub.sit.running = true →
    s.hub.sit.dueAt + s.hub.bankPeriod ≤ s.hub.mono →
    Ends .bankStepDue s [.sit] {Reg.TSC_KITTY_MIN} [.tsc] (fun t =>
      t.hub.sit = { s.hub.sit with due := true, dueAt := s.hub.sit.dueAt + s.hub.bankPeriod }))
  ∧ (∀ s : State, s.hub.sitRuns = true → s.hub.sit.late = false → s.hub.sit.start + s.hub.coverLimit ≤ s.hub.mono →
    Ends .coverageLate s [.sit, .pins] {Reg.SIT_FAULTN_CNT} [.sit] (fun t =>
      t.hub.sit = { s.hub.sit with late := true } ∧ bit (t.hub.hdr .sit).sticky 4 = true ∧ t.hub.raw .sit 1 = true))
  ∧ (∀ (s : State) (i : Fin 6) (n : Nat), s.hub.sitRuns = true → i = 2 ∨ i = 4 ∨ i = 5 → s.hub.sitOn i = true → sitExists i n = true →
    s.hub.sitChance i n = true →
    Ends (.sitTestRun i n true 0) s [.sit] {Reg.SIT_RUN i, Reg.TSC_KITTY_MIN} [.tsc] (fun t =>
      t.hub.rd (Reg.SIT_RUN i) = incHold (s.hub.rd (Reg.SIT_RUN i)) ∧ (i.val, n) ∈ t.hub.sit.tested))
  ∧ (∀ (s : State) (n e : Nat), s.hub.sitRuns = true → s.hub.sitOn 1 = true → n < 40 → s.hub.sitChance 1 n = true →
    s.hub.sitHolds n = true → s.hub.laneTested n true = true → s.hub.rdF Reg.SIT_LANE_CFG 31 16 < e → s.hub.repairMap.length < 256 →
    Ends (.sitTestRun 1 n true e) s [.sit, .repairMap, .pins]
      (blockRegs .lnx ∪ {Reg.SIT_RUN 1, Reg.SIT_FAIL 1, Reg.SIT_FAULTN_CNT, Reg.TSC_KITTY_MIN}) [.sit, .tsc] (fun t =>
      t.hub.laneOut n = true ∧ t.hub.rd (Reg.SIT_FAIL 1) = incHold (s.hub.rd (Reg.SIT_FAIL 1)) ∧ t.hub.raw .sit 2 = true
      ∧ bit (t.hub.hdr .sit).sticky 1 = true ∧ t.hub.repairMap.length = s.hub.repairMap.length + 1))
  ∧ (∀ (s : State) (n e : Nat) (k : Bool), s.hub.sitRuns = true → s.hub.sitOn 1 = true → n < 40 → s.hub.sitChance 1 n = true →
    s.hub.sitHolds n = false →
    Ends (.sitTestRun 1 n k e) s [.lanes] {Reg.LN_STAT n, Reg.TSC_KITTY_MIN} [.tsc] (fun t =>
      t.hub.sitHolds n = true ∧ (t.hub.lane n).testFrom = s.hub.mono))
  ∧ (∀ (s : State) (n e : Nat), s.hub.sitRuns = true → s.hub.sitOn 3 = true → n < 5 → e ≠ 0 →
    Ends (.sitTestRun 3 n true e) s [.sit, .ksi, .pins] {Reg.SIT_RUN 3, Reg.SIT_FAIL 3, Reg.SIT_FAULTN_CNT, Reg.TSC_KITTY_MIN}
      [.sit, .ksi, .tsc] (fun t =>
      t.hub.ksi = { s.hub.ksi with kat := s.hub.ksi.kat ||| 2 ^ n } ∧ bit (t.hub.hdr .ksi).sticky 2 = true
      ∧ bit (t.hub.hdr .ksi).live 2 = true ∧ t.hub.raw .sit 2 = true))
  ∧ (∀ (s : State) (i : Fin 6) (n : Nat), s.hub.opRunning .sit 0x10 = true → s.hub.sitRuns = true → i = 2 ∨ i = 4 ∨ i = 5 →
    (s.hub.arg .sit 0).toNat = i.val → (s.hub.arg .sit 1).toNat = n → s.hub.sitHere i n = true → s.hub.sitOn i = true →
    s.hub.sitOffers i n = true → s.hub.sitChance i n = true →
    Ends (.testNow (some (true, 0))) s [.sit] {Reg.SIT_RUN i} [.sit] (fun t =>
      t.hub.rd (Reg.SIT_RUN i) = incHold (s.hub.rd (Reg.SIT_RUN i)) ∧ (t.hub.mbx .sit).result = some (mbxOk [0, 0]))
    ∧ Ends (.testNow (some (true, 1))) s [.sit, .pins] (blockRegs .sit ∪ {Reg.TP_DROP_PENNANT n, Reg.TSC_KITTY_MIN}) [.sit, .ppc, .tsc] (fun t =>
      t.hub.rd (Reg.SIT_FAIL i) = incHold (s.hub.rd (Reg.SIT_FAIL i)) ∧ (t.hub.mbx .sit).result = some (mbxOk [1, 1])))
  ∧ (∀ (s : State) (i : Fin 6) (n e : Nat) (k : Bool), s.hub.opRunning .sit 0x10 = true → s.hub.sitRuns = true → i ≠ 0 → i ≠ 1 →
    (s.hub.arg .sit 0).toNat = i.val → (s.hub.arg .sit 1).toNat = n → s.hub.sitHere i n = true → s.hub.sitOn i = true →
    s.hub.sitOffers i n = true → s.hub.sitChance i n = true →
    Runs (.testNow (some (k, e))) s
      (settle s.hub (s.hub.fresh.runOp .sit 0x10 fun h => done (h.sitTest i n k e) (mbxOk [w32 (h.sitResult i n k e), w32 e]))))
  ∧ (∀ (s : State) (i : Fin 6) (n e : Nat) (k : Bool), s.hub.sitRuns = true → i ≠ 0 → i ≠ 1 → s.hub.sitOn i = true →
    sitExists i n = true → s.hub.sitChance i n = true →
    Runs (.sitTestRun i n k e) s (settle s.hub (s.hub.fresh.tscWatch (s.hub.fresh.sitTest i n k e))))
  ∧ (∀ (s : State) (i : Fin 6) (n : Nat), s.hub.opRunning .sit 0x10 = true → s.hub.sitRuns = true → i ≠ 0 → i ≠ 1 →
    (s.hub.arg .sit 0).toNat = i.val → (s.hub.arg .sit 1).toNat = n → s.hub.sitHere i n = true → s.hub.sitOn i = true →
    s.hub.sitOffers i n = true → (s.hub.mbx .sit).postedAt + 2000000000 ≤ s.hub.mono →
    Ends (.testNow none) s [.sit] ∅ [.sit] (fun t => (t.hub.mbx .sit).result = some (mbxErr 7)))
  ∧ (∀ s : State, s.hub.opRunning .sit 0x11 = true →
    Ends .coverRestart s [.sit] {Reg.SIT_COVER_STAT} [.sit] (fun t =>
      t.hub.sitStep = 0 ∧ t.hub.sit = { s.hub.sit with start := s.hub.mono, late := false, tested := [] }
      ∧ (t.hub.mbx .sit).result = some (mbxOk [w32 s.hub.sitStep])))

/-- FCM's mailbox operations (R191, R196–R199, R224, Table 7.13), the result clauses outside a pair: each acts on the context that it names and answers
as the table says, or refuses with the table's error and changes no context.
A clause `Runs c s h` says that the form completes with the effect of the definition that it names, under the row's own conditions alone.
Its clauses rest on these choices of the model: log entries 28, 29, 60 and 63. -/
def Obligations.FlowOperations : Prop :=
  (∀ (s : State) (f k : Nat) (c : Ctx), s.hub.opRunning .fcm 0x10 = true → f = (s.hub.arg .fcm 0).toNat → f < 0xFFC000 →
    bit (s.hub.arg .fcm 1) 31 = false → Tab.find s.hub.paging.owed f = none → s.hub.lookup f = .miss → s.hub.freeSlot = some k → 9 ≤ k → (s.hub.ctx k).state = .free → s.hub.noFoyer f = true →
    s.hub.paired = false → c = ({ handle := f } : Ctx).withPolicy s.hub.template → c.tc ≠ 7 → bit (s.hub.template.getD 0 0) 29 = false →
    Ends .flowCreate s [.ctxs, .paging] {Reg.TSC_KITTY_MIN} [.fcm, .tsc] (fun t =>
      t.hub.ctx k = { c with state := .resident, lrs := s.hub.mono, shapeOn := c.shaped } ∧ (t.hub.mbx .fcm).result = some (mbxOk [w32 k])
      ∧ ∀ j, j ≠ k → t.hub.ctx j = s.hub.ctx j))
  ∧ (∀ (s : State) (k : Nat), s.hub.opRunning .fcm 0x10 = true → k = (s.hub.arg .fcm 0).toNat % 8192 →
    bit (s.hub.arg .fcm 1) 31 = true →
    Ends .flowCreate s [] {Reg.TSC_KITTY_MIN} [.fcm, .tsc] (fun t =>
      (k < 9 → (t.hub.mbx .fcm).result = some (mbxErr 2))
      ∧ (9 ≤ k → (s.hub.ctx k).state = .resident → (t.hub.mbx .fcm).result = some (mbxErr 0x83))))
  ∧ (∀ (s : State) (f : Nat), s.hub.opRunning .fcm 0x10 = true → f = (s.hub.arg .fcm 0).toNat → bit (s.hub.arg .fcm 1) 31 = false →
    Ends .flowCreate s [.ctxs, .paging, .cells, .counts, .fts, .tports, .foyers, .opens, .links, .pageq, .mir, .pmc, .pins, .waits, .tags]
      (blockRegs .fcm ∪ blockRegs .mir ∪ blockRegs .pmc ∪ sendRegs) [.fcm, .mir, .pmc, .tsc, .kll, .sit] (fun t =>
      (0xFFC000 ≤ f → (t.hub.mbx .fcm).result = some (mbxErr 2) ∧ t.hub.ctxs = s.hub.ctxs)
      ∧ (f < 0xFFC000 → s.hub.lookup f ≠ .miss → (t.hub.mbx .fcm).result = some (mbxErr 0x83) ∧ t.hub.ctxs = s.hub.ctxs)))
  ∧ (∀ (s : State) (k : Nat), s.hub.opRunning .fcm 0x11 = true → s.hub.named false = .slot k → (s.hub.ctx k).state = .resident →
    (fld (s.hub.template.getD 0 0) 26 24 = 7 ↔ (s.hub.ctx k).tc = 7) → s.hub.paging.policy.all (fun x => !x.viaOp) = true →
    Ends .flowPolicy s [.paging] ∅ [] (fun t =>
      t.hub.paging = { s.hub.paging with policy := s.hub.paging.policy ++ [⟨k, s.hub.mono, s.hub.template, true⟩] }
      ∧ (t.hub.mbx .fcm).result = none))
  ∧ (∀ (s : State) (k : Nat), s.hub.opRunning .fcm 0x11 = true → s.hub.named false = .slot k → (s.hub.ctx k).state = .resident →
    ¬(fld (s.hub.template.getD 0 0) 26 24 = 7 ↔ (s.hub.ctx k).tc = 7) →
    Ends .flowPolicy s [] ∅ [.fcm] (fun t => (t.hub.mbx .fcm).result = some (mbxErr 0x82)))
  ∧ (∀ (s : State) (k : Nat), s.hub.opRunning .fcm 0x12 = true → s.hub.named false = .slot k → (s.hub.ctx k).state = .resident →
    (s.hub.ctx k).pin = false → s.hub.pinned < 6144 → s.hub.mirEn = false → s.hub.paired = false →
    Ends .flowPin s [.ctxs, .mir] (blockRegs .mir) [.fcm, .mir] (fun t =>
      t.hub.ctx k = { s.hub.ctx k with pin := true } ∧ (t.hub.mbx .fcm).result = some (mbxOk [w32 k, w32 t.hub.pinned])
      ∧ ∀ j, j ≠ k → t.hub.ctx j = s.hub.ctx j))
  ∧ (∀ (s : State) (k : Nat), s.hub.opRunning .fcm 0x12 = true → s.hub.named false = .slot k → (s.hub.ctx k).state = .resident →
    (s.hub.ctx k).pin = false → 6144 ≤ s.hub.pinned →
    Ends .flowPin s [] ∅ [.fcm] (fun t => (t.hub.mbx .fcm).result = some (mbxErr 3)))
  ∧ (∀ (s : State) (k : Nat), s.hub.opRunning .fcm 0x13 = true → s.hub.named false = .slot k → (s.hub.ctx k).state = .resident →
    (s.hub.ctx k).tc ≠ 7 → s.hub.paired = false →
    Ends .flowUnpin s [.ctxs] ∅ [.fcm] (fun t =>
      t.hub.ctx k = { s.hub.ctx k with pin := false } ∧ (t.hub.mbx .fcm).result = some (mbxOk [w32 t.hub.pinned])
      ∧ ∀ j, j ≠ k → t.hub.ctx j = s.hub.ctx j))
  ∧ (∀ (s : State) (k : Nat), s.hub.opRunning .fcm 0x13 = true → s.hub.named false = .slot k → (s.hub.ctx k).state = .resident →
    (s.hub.ctx k).tc = 7 →
    Ends .flowUnpin s [] ∅ [.fcm] (fun t => (t.hub.mbx .fcm).result = some (mbxErr 0x82)))
  ∧ (∀ (s : State) (k : Nat), s.hub.opRunning .fcm 0x14 = true → s.hub.paging.op = none → s.hub.named false = .slot k →
    (s.hub.ctx k).state = .resident → (s.hub.ctx k).pin = false → s.hub.slotIdle k = true → bit (s.hub.arg .fcm 1) 0 = false →
    s.hub.paired = false →
    Ends .flowDelete s [.ctxs, .mir] {Reg.MIR_REC_USED, Reg.TSC_KITTY_MIN} [.fcm, .tsc] (fun t =>
      t.hub.ctx k = ctxReset k ∧ (t.hub.mbx .fcm).result = some (mbxOk []) ∧ ∀ j, j ≠ k → t.hub.ctx j = s.hub.ctx j))
  ∧ (∀ (s : State) (k : Nat), s.hub.opRunning .fcm 0x14 = true → s.hub.paging.op = none → s.hub.named false = .slot k →
    ((s.hub.ctx k).pin = true ∨ s.hub.slotIdle k = false) →
    Ends .flowDelete s [] {Reg.TSC_KITTY_MIN} [.fcm, .tsc] (fun t => (t.hub.mbx .fcm).result = some (mbxErr 0x81)))
  ∧ (∀ (s : State) (k : Nat) (c : Ctx), s.hub.opRunning .fcm 0x15 = true → s.hub.named true = .slot k → c = s.hub.ctx k →
    Ends .flowRead s [] ∅ [.fcm] (fun t => (t.hub.mbx .fcm).result = some (mbxOk [w32 (k + c.state.code * 2 ^ 13 + b2n c.pin * 2 ^ 15),
      c.idWord, c.destWord, w32 c.list.length, w32 c.cntFoyer, w32 (c.lrs / 2 ^ 10)])))
  ∧ (∀ (s : State) (k : Nat) (c : Ctx), s.hub.opRunning .fcm 0x16 = true → s.hub.paging.op = none → s.hub.named false = .slot k →
    s.hub.storeOn = true → s.hub.candidate k = true → s.hub.role ≠ .root → c = s.hub.ctx k →
    Ends .flowEvict s (.paging :: sendParts) sendRegs (.fcm :: sendBlocks) (fun t =>
      (t.hub.ctx k).state = .writeback ∧ t.hub.paging.op = some 0x16 ∧ t.hub.paging.opFlow = c.handle
      ∧ t.hub.paging.wbs = s.hub.paging.wbs ++ [⟨s.hub.paging.nextReq, c.handle, (c.gen + 1) % 2 ^ 32, .evict, s.hub.mono⟩]
      ∧ (t.hub.mbx .fcm).result = none))
  ∧ (∀ (s : State) (k : Nat), s.hub.opRunning .fcm 0x16 = true → s.hub.paging.op = none → s.hub.named false = .slot k →
    s.hub.storeOn = true → s.hub.candidate k = false →
    Ends .flowEvict s [] {Reg.TSC_KITTY_MIN} [.fcm, .tsc] (fun t => (t.hub.mbx .fcm).result = some (mbxErr 0x81)))
  ∧ (∀ s : State, s.hub.opRunning .fcm 0x10 = true →
    Runs .flowCreate s (settle s.hub (s.hub.fresh.tscWatch (s.hub.fresh.runOp .fcm 0x10 Hub.flowCreate))))
  ∧ (∀ s : State, s.hub.opRunning .fcm 0x11 = true → Runs .flowPolicy s (settle s.hub (s.hub.fresh.runOp .fcm 0x11 Hub.flowPolicy)))
  ∧ (∀ s : State, s.hub.opRunning .fcm 0x12 = true → Runs .flowPin s (settle s.hub (s.hub.fresh.runOp .fcm 0x12 Hub.flowPin)))
  ∧ (∀ s : State, s.hub.opRunning .fcm 0x14 = true → s.hub.paging.op = none →
    Runs .flowDelete s (settle s.hub (s.hub.fresh.tscWatch (s.hub.fresh.runOp .fcm 0x14 Hub.flowDelete))))
  ∧ (∀ s : State, s.hub.opRunning .fcm 0x16 = true → s.hub.paging.op = none →
    Runs .flowEvict s (settle s.hub (s.hub.fresh.tscWatch (s.hub.fresh.runOp .fcm 0x16 Hub.flowEvict))))

/-- Paging (R206–R213, R217, R218, R204): a page-in that waited takes a slot, requests of other hubs are served by the ROOT and refused
by any other hub, data install or fail the page-in, acknowledgements and timeouts end what they answer, and a foyer frame that has
waited too long is dropped, counted and logged.
A clause `Runs c s h` says that the form completes with the effect of the definition that it names, under the row's own conditions alone.
Its clauses rest on these choices of the model: log entries 28, 29, 46, 51, 60 and 63. -/
def Obligations.PagingEvents : Prop :=
  (∀ (s : State) (f since k : Nat), s.hub.mainUp = true → s.hub.role ≠ .root → s.hub.paging.waits = [(f, since)] →
    s.hub.canPage = true → s.hub.storeOn = true → s.hub.pathDown = false → s.hub.freeSlot = some k → 9 ≤ k →
    (s.hub.ctx k).state = .free →
    Ends .pageInStart s (.paging :: sendParts) sendRegs sendBlocks (fun t =>
      t.hub.ctx k = { state := .dummy, handle := f } ∧ t.hub.paging.waits = []
      ∧ t.hub.paging.ins = s.hub.paging.ins ++ [⟨s.hub.paging.nextReq, f, k, since, s.hub.mono⟩])
    ∧ Ends .slotGrant s (.paging :: sendParts) sendRegs sendBlocks (fun t =>
      t.hub.ctx k = { state := .dummy, handle := f } ∧ t.hub.paging.waits = []
      ∧ t.hub.paging.ins = s.hub.paging.ins ++ [⟨s.hub.paging.nextReq, f, k, since, s.hub.mono⟩]))
  ∧ (∀ s : State, s.hub.mainUp = true → s.hub.paging.waits ≠ [] → s.hub.canPage = true → s.hub.storeOn = true → s.hub.pathDown = false →
    Runs .pageInStart s (settle s.hub (s.hub.fresh.tscWatch s.hub.fresh.startWaiting))
    ∧ Runs .slotGrant s (settle s.hub (s.hub.fresh.tscWatch s.hub.fresh.startWaiting)))
  ∧ (∀ (s : State) (src : BitVec 14) (q : BitVec 16) (f : BitVec 24) (a : BitVec 64), s.hub.mainUp = true → s.hub.role ≠ .root →
    Ends (.pageReadRx src q f a) s sendParts sendRegs sendBlocks (fun t =>
      t.hub.rd Reg.FCM_PAGE_SERVED = s.hub.rd Reg.FCM_PAGE_SERVED ∧ t.hub.tags = s.hub.tags))
  ∧ (∀ (s : State) (src : BitVec 14) (q : BitVec 16) (f : BitVec 24) (a : BitVec 64) (x : Nat), s.hub.mainUp = true →
    s.hub.role = .root → s.hub.hostUp = true → s.hub.inAperture a.toNat = true → s.hub.pageq = [] → s.hub.freeTag = some x →
    s.hub.pageTagsUsed < s.hub.pageTags →
    Ends (.pageReadRx src q f a) s [.tags, .pxb] {Reg.FCM_PAGE_SERVED, Reg.TSC_KITTY_MIN} [.tsc] (fun t =>
      t.hub.rd Reg.FCM_PAGE_SERVED = incHold (s.hub.rd Reg.FCM_PAGE_SERVED)
      ∧ Tab.find t.hub.tags x = some (.page ⟨some src.toNat, q.toNat, f.toNat, a.toNat, none⟩)
      ∧ t.hub.out = [.tlp (.memRd x a.toNat 256 15 15)]))
  ∧ (∀ (s : State) (src : BitVec 14) (q : BitVec 16) (f : BitVec 24) (a : BitVec 64) (im : List Byte), s.hub.mainUp = true →
    s.hub.role = .root → s.hub.hostUp = true → s.hub.inAperture a.toNat = true → s.hub.pageq = [] →
    256 ≤ s.hub.pxb.mps →
    Ends (.pageWriteRx src q f a im) s sendParts (sendRegs ∪ {Reg.FCM_PAGE_SERVED}) sendBlocks (fun t =>
      t.hub.rd Reg.FCM_PAGE_SERVED = incHold (s.hub.rd Reg.FCM_PAGE_SERVED) ∧ .tlp (.memWr a.toNat 15 15 im) ∈ t.hub.out))
  ∧ (∀ (s : State) (q : BitVec 16) (st : Byte) (im : List Byte), s.hub.mainUp = true →
    s.hub.paging.ins.all (fun x => decide (x.req ≠ q.toNat)) = true →
    Ends (.pageDataRx q st im) s [] {Reg.KLL_MSG_BAD, Reg.TSC_KITTY_MIN} [.kll, .tsc] (fun t =>
      t.hub.rd Reg.KLL_MSG_BAD = incHold (s.hub.rd Reg.KLL_MSG_BAD) ∧ t.hub.raw .kll 7 = true))
  ∧ (∀ (s : State) (q : BitVec 16) (im : List Byte) (x : PageIn) (c : Ctx), s.hub.mainUp = true →
    s.hub.paging.ins.find? (fun (y : PageIn) => y.req = q.toNat) = some x → imageGood im = true → c = ctxOfImage im → c.handle = x.flow →
    im ≠ List.replicate 256 0 → c.tc ≠ 7 → s.hub.noFoyer x.flow = true → s.hub.paging.op = none →
    Tab.find s.hub.paging.owed c.handle = none →
    Ends (.pageDataRx q 0 im) s [.ctxs, .paging, .pmc]
      ({Reg.FCM_PAGE_IN, Reg.FCM_PAGE_LAT_MAX, Reg.FCM_PAGE_LATE, Reg.TSC_KITTY_MIN} ∪ blockRegs .pmc) [.fcm, .pmc, .tsc] (fun t =>
      t.hub.ctx x.slot = { c.addCounts (s.hub.ctx x.slot) with
        state := .resident, lrs := s.hub.mono, shapeOn := c.shaped }
      ∧ t.hub.rd Reg.FCM_PAGE_IN = incHold (s.hub.rd Reg.FCM_PAGE_IN)
      ∧ t.hub.paging.ins = s.hub.paging.ins.filter (fun y => y.req ≠ x.req)))
  ∧ (∀ (s : State) (q : BitVec 16) (st : Byte) (im : List Byte) (x : PageIn), s.hub.mainUp = true →
    s.hub.paging.ins.find? (fun (y : PageIn) => y.req = q.toNat) = some x → st ≠ 0 → st ≠ 4 → s.hub.noFoyer x.flow = true →
    s.hub.paging.op = none → x.issued + 1000000 ≤ s.hub.mono →
    Ends (.pageDataRx q st im) s [.ctxs, .paging, .mir, .pins] {Reg.FCM_PAGE_FAIL, Reg.MIR_REC_USED, Reg.SIT_FAULTN_CNT, Reg.TSC_KITTY_MIN}
      [.fcm, .sit, .tsc] (fun t =>
      t.hub.ctx x.slot = ctxReset x.slot ∧ t.hub.rd Reg.FCM_PAGE_FAIL = incHold (s.hub.rd Reg.FCM_PAGE_FAIL)
      ∧ bit (t.hub.hdr .fcm).sticky 2 = true ∧ t.hub.raw .fcm 1 = true)
    ∧ Ends (.pageInTimeout q) s [.ctxs, .paging, .mir, .pins] {Reg.FCM_PAGE_FAIL, Reg.MIR_REC_USED, Reg.SIT_FAULTN_CNT, Reg.TSC_KITTY_MIN}
      [.fcm, .sit, .tsc] (fun t =>
      t.hub.ctx x.slot = ctxReset x.slot ∧ t.hub.rd Reg.FCM_PAGE_FAIL = incHold (s.hub.rd Reg.FCM_PAGE_FAIL)
      ∧ t.hub.paging.ins = s.hub.paging.ins.filter (fun y => y.req ≠ x.req)
      ∧ bit (t.hub.hdr .fcm).sticky 2 = true ∧ t.hub.raw .fcm 1 = true))
  ∧ (∀ (s : State) (q : BitVec 16) (w : WriteBack), s.hub.mainUp = true → s.hub.paging.wbs.find? (fun x => x.req = q.toNat) = some w →
    w.issued + 1000000 ≤ s.hub.mono → w.cause = .victim → s.hub.ctxs.all (fun e => !(decide (e.2.state = .writeback ∧ e.2.handle = w.flow))) = true →
    Ends (.pageWriteAckRx q 0) s [.paging] {Reg.FCM_PAGE_OUT, Reg.TSC_KITTY_MIN} [.tsc] (fun t =>
      t.hub.rd Reg.FCM_PAGE_OUT = incHold (s.hub.rd Reg.FCM_PAGE_OUT)
      ∧ t.hub.paging = { s.hub.paging with wbs := s.hub.paging.wbs.filter (fun y => y.req ≠ w.req) })
    ∧ Ends (.writebackTimeout q) s [.paging, .pins] {Reg.FCM_WB_LOST, Reg.SIT_FAULTN_CNT, Reg.TSC_KITTY_MIN} [.fcm, .sit, .tsc] (fun t =>
      t.hub.rd Reg.FCM_WB_LOST = incHold (s.hub.rd Reg.FCM_WB_LOST) ∧ bit (t.hub.hdr .fcm).sticky 3 = true
      ∧ t.hub.raw .fcm 3 = true
      ∧ t.hub.paging = { s.hub.paging with wbs := s.hub.paging.wbs.filter (fun y => y.req ≠ w.req) }))
  ∧ (∀ (s : State) (p : PortNo) (f : FoyFrame) (k : Nat), s.hub.mainUp = true → s.hub.foyerDue p = some f →
    s.hub.lookup f.flow = .dummy k →
    Ends (.foyerTimeout p) s [.cells, .counts, .ctxs, .foyers, .links, .opens, .paging, .pmc, .pins]
      (blockRegs .fcm ∪ blockRegs .tsc ∪ blockRegs .pmc ∪ {Reg.SIT_FAULTN_CNT}) [.fcm, .pmc, .sit, .tsc] (fun t =>
      t.hub.foyer p = (s.hub.foyer p).erase f ∧ t.hub.rd Reg.FCM_FOYER_DROP = incHold (s.hub.rd Reg.FCM_FOYER_DROP)
      ∧ (t.hub.ctx k).cntFoyer = holdAt 0xFFFFFFFF ((s.hub.ctx k).cntFoyer + 1)
      ∧ t.hub.raw .fcm 0 = true ∧ t.hub.raw .fcm 6 = true ∧ bit (t.hub.hdr .fcm).sticky 0 = true))
  ∧ (∀ s : State, s.hub.mainUp = true → s.hub.paging.hold = true →
    s.hub.paging.holdFrom + 10000000 ≤ s.hub.mono → (s.hub.role = .root → s.hub.hostUp = true) →
    (s.hub.role ≠ .root → s.hub.upOrIdle 0 = true) →
    Ends .pagePathHoldEnd s [.paging] {Reg.TSC_KITTY_MIN} [.fcm, .tsc] (fun t =>
      t.hub.paging = { s.hub.paging with hold := false } ∧ t.hub.pathDown = false ∧ bit (t.hub.hdr .fcm).live 1 = false))
  ∧ (∀ (s : State) (q : BitVec 16) (st : Byte) (im : List Byte), s.hub.mainUp = true →
    Runs (.pageDataRx q st im) s (settle s.hub (s.hub.fresh.tscWatch (s.hub.fresh.pageData q.toNat (pageStatus st.toNat) im)))
    ∧ Runs (.pageWriteAckRx q st) s (settle s.hub (s.hub.fresh.tscWatch (s.hub.fresh.wbAck q.toNat (pageStatus st.toNat)))))
  ∧ (∀ (s : State) (p : PortNo), s.hub.mainUp = true → (s.hub.foyerDue p).isSome = true →
    Runs (.foyerTimeout p) s (settle s.hub (s.hub.fresh.tscWatch (s.hub.fresh.foyerDrop p))))
  ∧ (∀ (s : State) (x : PageIn) (q : BitVec 16), s.hub.mainUp = true →
    s.hub.paging.ins.find? (fun (y : PageIn) => y.req = q.toNat ∧ y.issued + 1000000 ≤ s.hub.mono) = some x →
    Runs (.pageInTimeout q) s (settle s.hub (s.hub.fresh.tscWatch (s.hub.fresh.pageFail x 5))))
  ∧ (∀ (s : State) (w : WriteBack) (q : BitVec 16), s.hub.mainUp = true →
    s.hub.paging.wbs.find? (fun (y : WriteBack) => y.req = q.toNat ∧ y.issued + 1000000 ≤ s.hub.mono) = some w →
    Runs (.writebackTimeout q) s (settle s.hub (s.hub.fresh.tscWatch (s.hub.fresh.wbEnd w false))))
  ∧ (∀ (s : State) (src : BitVec 14) (q : BitVec 16) (f : BitVec 24) (a : BitVec 64) (im : List Byte), s.hub.mainUp = true →
    s.hub.role = .root →
    Runs (.pageReadRx src q f a) s (settle s.hub (s.hub.fresh.tscWatch ((s.hub.fresh.inc Reg.FCM_PAGE_SERVED).pageSubmit
      { hub := some src.toNat, req := q.toNat, flow := f.toNat, addr := a.toNat, image := none })))
    ∧ Runs (.pageWriteRx src q f a im) s (settle s.hub (s.hub.fresh.tscWatch ((s.hub.fresh.inc Reg.FCM_PAGE_SERVED).pageSubmit
      { hub := some src.toNat, req := q.toNat, flow := f.toNat, addr := a.toNat, image := some im }))))

/-- The scheduler (R229, R233, R247, R251, Table 8.7): a port with nothing pending takes an idle slot, a chosen cell leaves by a link port
or a chosen frame by the steward, buckets refill, a port's deal applies, and the operations report what they are asked.
A clause `Runs c s h` says that the form completes with the effect of the definition that it names, under the row's own conditions alone.
Its clauses rest on these choices of the model: log entries 44, 46, 54 and 55. -/
def Obligations.Scheduling : Prop :=
  (∀ (s : State) (p : EgressNo), s.hub.mainUp = true → portPresent s.hub.straps p = true → (s.hub.link p).replay = none →
    (s.hub.tport p).failed = [] → s.hub.fts.all (fun e => decide (e.1 % 32 ≠ p.val)) = true →
    Ends (.egressDecision p none) s [.pmc] (blockRegs .pmc ∪ {Reg.TSC_KITTY_MIN}) [.pmc, .tsc] (fun t => t.hub.out = []))
  ∧ (∀ (s : State) (p : EgressNo) (k i r : Nat) (c : CellSt), s.hub.mainUp = true → portPresent s.hub.straps p = true →
    isLinkPort p = true → (s.hub.link p).replay = none → (s.hub.tport p).failed = [] → (s.hub.decision p).2 = some k →
    s.hub.headUnit k p = [i] → s.hub.cell i = some c → s.hub.cellGood i false = true → c.tc ≠ 6 → r = s.hub.nextRseq p →
    (s.hub.link p).codes.all (fun e => decide (e.1 ≠ r)) = true →
    Ends (.egressDecision p none) s exitParts (exitRegs ∪ {Reg.KL_REPLAY_STAT p}) exitBlocks (fun t =>
      t.hub.out = s.hub.sends p [.cell p (c.header r) (dataBlocks c.payload)]
      ∧ (t.hub.link p).unacked = (s.hub.link p).unacked ++ [(r, i)] ∧ t.hub.nextRseq p = (r + 1) % 4096
      ∧ t.hub.cell i = some { c with pend := c.pend - (c.pend &&& 2 ^ p.val), repl := c.repl ||| (c.pend &&& 2 ^ p.val) }))
  ∧ (∀ (s : State) (k : Nat) (u : List Nat), s.hub.mainUp = true → (s.hub.tport 0x11).failed = [] →
    (s.hub.decision 0x11).2 = some k → u = s.hub.headUnit k 0x11 → u.all (fun i => s.hub.cellGood i false) = true →
    Ends (.egressDecision (0x11 : EgressNo) none) s (.free :: exitParts) exitRegs exitBlocks (fun t =>
      ∀ i ∈ u, (t.hub.cell i).all (fun c => !c.pend.testBit 0x11) = true))
  ∧ (∀ (s : State) (p : EgressNo) (i r : Nat) (c : CellSt), s.hub.mainUp = true → portPresent s.hub.straps p = true →
    isLinkPort p = true → (2 ≤ s.hub.klState p ∧ s.hub.klState p ≤ 5 ∨ s.hub.klState p = 8) → (s.hub.link p).replay = some r → (s.hub.link p).unacked = [(r, i)] →
    s.hub.cell i = some c → s.hub.cellGood i false = true → (s.hub.link p).codes = [] →
    (s.hub.link p).times.all (fun x => decide (x.void = none)) = true →
    Ends (.egressDecision p none) s [.links, .pmc] ({Reg.KL_CNT_REPLAY p, Reg.TSC_KITTY_MIN} ∪ pmcRegs) [.pmc, .tsc] (fun t =>
      t.hub.out = s.hub.sends p [.cell p (c.header r) (dataBlocks c.payload)]
      ∧ (t.hub.link p).replay = none ∧ t.hub.rd (Reg.KL_CNT_REPLAY p) = incHold (s.hub.rd (Reg.KL_CNT_REPLAY p))))
  ∧ (∀ s : State, s.hub.mainUp = true → s.hub.time.reached (1000 * s.hub.refillUs) = true → (Tab.keys s.hub.ctxs).Nodup →
    Ends .shaperRefill s [.ctxs, .tports] ∅ [] (fun t =>
      (∀ k, (s.hub.ctx k).state = .resident → (s.hub.ctx k).shaped = true →
        t.hub.ctx k = { s.hub.ctx k with
          tokens := (refill (s.hub.ctx k).shapeRate s.hub.refillUs (s.hub.ctx k).depth (s.hub.ctx k).tokens (s.hub.ctx k).frac).1
          frac := (refill (s.hub.ctx k).shapeRate s.hub.refillUs (s.hub.ctx k).depth (s.hub.ctx k).tokens (s.hub.ctx k).frac).2
          shapeOn := true })
      ∧ (∀ k, ¬((s.hub.ctx k).state = .resident ∧ (s.hub.ctx k).shaped = true) → t.hub.ctx k = { s.hub.ctx k with shapeOn := false })
      ∧ (∀ p ∈ List.range 18, ∀ c ∈ List.range 8, c < (s.hub.tport p).tokens.length → s.hub.classRate p c ≠ 0 →
        (t.hub.tport p).tokens.getD c 0 = (refill (s.hub.classRate p c) s.hub.refillUs
          (256 * max 1 (s.hub.rdF (Reg.TS_CSH p c) 31 20)) ((s.hub.tport p).tokens.getD c 0) ((s.hub.tport p).frac.getD c 0)).1)))
  ∧ (∀ (s : State) (p : EgressNo) (k q a : Nat) (f : FlowTgt), s.hub.mainUp = true → (s.hub.tport p).dealing = some [(k, q, a)] →
    s.hub.dealNext = some p.val → s.hub.ft k p = some f →
    Ends (.dealPortDone p) s [.fts, .tports] {Reg.TSS_DEAL_TIME} [] (fun t =>
      t.hub.ft k p = some (if f.isNew then f else { f with quant := q, allot := a }) ∧ (t.hub.tport p).dealing = none
      ∧ ((∀ j ∈ List.range 18, j = p.val ∨ (s.hub.tport j).dealing = none) →
        t.hub.rd Reg.TSS_DEAL_TIME = w32 (holdAt 0xFFFF ((s.hub.mono - (s.hub.tport p).dealFrom) / 100)))))
  ∧ (∀ (s : State) (k p : Nat), s.hub.opRunning .tss 0x10 = true → k = (s.hub.arg .tss 0).toNat → p = (s.hub.arg .tss 1).toNat →
    p ≤ 0x11 → k < 8192 → (s.hub.ctx k).state = .resident →
    Ends .flowSchedRead s [] ∅ [.tss] (fun t => (t.hub.mbx .tss).result = some (match s.hub.ft k p with
      | none => mbxOk [0, 0, 0, 0, iword (s.hub.ctx k).tokens, iword ((s.hub.tport p).tokens.getD (s.hub.ctx k).tc 0)]
      | some f => mbxOk [w32 (f.q + 2 ^ 16), iword f.deficit, w32 f.allot, w32 f.demand, iword (s.hub.ctx k).tokens,
          iword ((s.hub.tport p).tokens.getD (s.hub.ctx k).tc 0)])))
  ∧ (∀ (s : State) (k p : Nat), s.hub.opRunning .tss 0x10 = true → k = (s.hub.arg .tss 0).toNat → p = (s.hub.arg .tss 1).toNat →
    Ends .flowSchedRead s [] ∅ [.tss] (fun t =>
      ((0x11 < p ∨ 8192 ≤ k) → (t.hub.mbx .tss).result = some (mbxErr 2))
      ∧ (p ≤ 0x11 → k < 8192 → (s.hub.ctx k).state ≠ .resident → (t.hub.mbx .tss).result = some (mbxErr 0x80))))
  ∧ (∀ (s : State) (p c : Nat) (b : Bool), s.hub.opRunning .tss 0x11 = true → p = (s.hub.arg .tss 0).toNat →
    b = bit (s.hub.arg .tss 1) 0 → c = fld (s.hub.arg .tss 2) 2 0 →
    Ends .gateCheck s [] ∅ [.tss] (fun t =>
      (0x11 < p → (t.hub.mbx .tss).result = some (mbxErr 2))
      ∧ (p ≤ 0x11 → (t.hub.mbx .tss).result = some (mbxOk [(longestWindow c (s.hub.gSegs p b)).elim 0xFFFFFFFF w32,
        w32 (((s.hub.gSegs p b).filter fun x => x.gates.testBit c).map fun x => x.stop - x.start).sum,
        w32 ((List.range (s.hub.gLen p b)).map fun e => entryNs (s.hub.gEntry p b e)).sum, w32 (s.hub.gCycle p b)]))))
  ∧ (∀ (s : State) (p : EgressNo) (e : Option Nat), s.hub.mainUp = true → portPresent s.hub.straps p = true →
    isLinkPort p = true → (s.hub.link p).replay.isSome = true → (2 ≤ s.hub.klState p ∧ s.hub.klState p ≤ 5 ∨ s.hub.klState p = 8) →
    Runs (.egressDecision p e) s (settle s.hub (s.hub.fresh.tscWatch (s.hub.fresh.resend p e.isSome))))
  ∧ (∀ (s : State) (p : EgressNo) (e : Option Nat) (h : Hub), s.hub.mainUp = true → portPresent s.hub.straps p = true →
    (isLinkPort p = false ∨ (s.hub.link p).replay = none) → (s.hub.fresh.skipFailed p).decision p = (h, none) →
    Runs (.egressDecision p e) s (settle s.hub (s.hub.fresh.tscWatch ((h.pmcEvent 0x05 p 0).pmcDecision p (h.decRecord p none)))))
  ∧ (∀ (s : State) (p : EgressNo) (e : Option Nat) (h : Hub) (k : Nat), s.hub.mainUp = true → portPresent s.hub.straps p = true →
    (isLinkPort p = false ∨ (s.hub.link p).replay = none) → (s.hub.fresh.skipFailed p).decision p = (h, some k) →
    Runs (.egressDecision p e) s
      (settle s.hub (s.hub.fresh.tscWatch ((h.leave k p e).pmcDecision p ((h.leave k p e).decRecord p (some k))))))

/-- Time gates (R238–R241): an entry's end shows the next entry and counts cycles, ARM chooses the next bank or is refused, CANCEL and
GATE_EN replace the pending switch, the switch takes effect, and a bank is written unless it is in force. The result clauses are stated outside a pair.
Its clauses rest on these choices of the model: log entries 15 and 56. -/
def Obligations.TimeGates : Prop :=
  (∀ (s : State) (p : EgressNo) (g : GateSeg), s.hub.mainUp = true → s.hub.listOn p = true →
    g = s.hub.gSegAt p (s.hub.gActive p) s.hub.now →
    Ends (.gateEntryEnd p) s [] {Reg.TS_GSTAT p, Reg.TS_GCYCLES p, Reg.TSS_LENT_GAP} [] (fun t =>
      t.hub.rd (Reg.TS_GSTAT p) = w32 (g.entry % 256 + 256 * g.gates)
      ∧ t.hub.rd (Reg.TS_GCYCLES p) = (if g.start = 0 then incHold (s.hub.rd (Reg.TS_GCYCLES p))
          else s.hub.rd (Reg.TS_GCYCLES p))))
  ∧ (∀ (s : State) (p : EgressNo) (b : Bool), s.hub.mainUp = true → portPresent s.hub.straps p = true → s.hub.paired = false →
    s.hub.gctl p 0 = true →
    Ends (.gateArm p b) s [.tports] {Reg.TS_GCTL p} [.tss] (fun t =>
      t.hub.gctl p 3 = b
      ∧ ((s.hub.listOn p = true ∧ s.hub.gActive p = b) → t.hub.raw .tss 3 = true ∧ t.hub.tports = s.hub.tports)
      ∧ (¬(s.hub.listOn p = true ∧ s.hub.gActive p = b) →
        (t.hub.tport p).switch = some (.toBank b (s.hub.switchT p b)) ∧ t.hub.gctl p 6 = true
        ∧ (join64 (s.hub.rd (Reg.TS_GSW_LO p)) (s.hub.rd (Reg.TS_GSW_HI p)) < s.hub.now → t.hub.raw .tss 2 = true))))
  ∧ (∀ (s : State) (p : EgressNo), s.hub.mainUp = true → portPresent s.hub.straps p = true → s.hub.paired = false →
    s.hub.gctl p 0 = true →
    Ends (.gateCancel p) s [.tports] {Reg.TS_GCTL p} [] (fun t =>
      (t.hub.tport p).switch = none ∧ t.hub.gctl p 6 = false ∧ t.hub.gctl p 5 = s.hub.gctl p 5 ∧ t.hub.gctl p 4 = s.hub.gctl p 4))
  ∧ (∀ (s : State) (p : EgressNo) (on : Bool), s.hub.mainUp = true → portPresent s.hub.straps p = true → s.hub.paired = false →
    Ends (.gateEnWrite p on) s [.tports] {Reg.TS_GCTL p} [] (fun t =>
      t.hub.gctl p 0 = on ∧ t.hub.gctl p 5 = s.hub.gctl p 5
      ∧ (on = true → t.hub.tports = s.hub.tports ∧ t.hub.gctl p 6 = s.hub.gctl p 6)
      ∧ (on = false → s.hub.listOn p = true →
        (t.hub.tport p).switch = some (.toNone (s.hub.gEntryEnd p (s.hub.gActive p) s.hub.now)) ∧ t.hub.gctl p 6 = true)
      ∧ (on = false → s.hub.listOn p = false → (t.hub.tport p).switch = none ∧ t.hub.gctl p 6 = false)))
  ∧ (∀ (s : State) (p : EgressNo) (e : Nat), s.hub.mainUp = true → (s.hub.tport p).switch = some (.toNone e) →
    Ends (.gateSwitch p) s [.tports] {Reg.TS_GCTL p, Reg.TS_GSTAT p} [] (fun t =>
      t.hub.listOn p = false ∧ t.hub.gctl p 6 = false ∧ (t.hub.tport p).switch = none ∧ t.hub.rd (Reg.TS_GSTAT p) = 0xFF00))
  ∧ (∀ (s : State) (p : EgressNo) (b : Bool) (e : Nat), s.hub.mainUp = true → (s.hub.tport p).switch = some (.toBank b e) →
    Ends (.gateSwitch p) s [.tports] {Reg.TS_GCTL p, Reg.TS_GSTAT p, Reg.TS_GCYCLES p, Reg.TSS_LENT_GAP} [.tss] (fun t =>
      t.hub.listOn p = true ∧ t.hub.gActive p = b ∧ t.hub.gctl p 6 = false ∧ (t.hub.tport p).switch = none
      ∧ t.hub.rd (Reg.TS_GCYCLES p) = 0 ∧ t.hub.raw .tss 0 = true))
  ∧ (∀ (s : State) (p : EgressNo) (b : Bool) (r : GateReg) (v : Word), s.hub.mainUp = true → portPresent s.hub.straps p = true →
    s.hub.paired = false → ¬(s.hub.listOn p = true ∧ s.hub.gActive p = b) →
    Ends (.gateBankWrite p b r v) s [.tports] {gateRegAddr p b r, Reg.TS_GCTL p} [.tss] (fun t =>
      t.hub.rd (gateRegAddr p b r) = v &&& gateRegMask r))
  ∧ (∀ (s : State) (p : EgressNo) (b : Bool) (r : GateReg) (v : Word), s.hub.mainUp = true → portPresent s.hub.straps p = true →
    s.hub.paired = false → s.hub.listOn p = true → s.hub.gActive p = b →
    Ends (.gateBankWrite p b r v) s [] ∅ [.tss] (fun t => t.hub.raw .tss 1 = true))

/-- The mirrored pair forms, watches and takes over (R255, R256, R262–R266, Tables 9.1 and 9.5): PAIR_SYNC pairs or mismatches, heartbeats
are counted, a loss makes the member ALONE and hoist of every group, a takeover asks the neighbours, and the count of lost frames ends.
A clause `Runs c s h` says that the form completes with the effect of the definition that it names, under the row's own conditions alone.
Its clauses rest on these choices of the model: log entries 17, 18, 30 and 46. -/
def Obligations.PairAndTakeover : Prop :=
  (∀ (s : State) (ws : List Word) (au : Bool) (n : BitVec 14), s.hub.keepsRecs = true → s.hub.hears 8 = true → s.hub.klState 8 = 5 →
    s.hub.mirEn = true → s.hub.mir.syncTx = true → s.hub.pairState = 1 → (List.range 8).all (fun g => decide (ws.getD g 0 = s.hub.rd (Reg.MIR_GROUP g))) = true →
    Ends (.pairSyncRx ws au n) s [.mir] {Reg.MIR_STAT, Reg.MIR_ROLE, Reg.TSC_KITTY_MIN} [.mir, .tsc] (fun t =>
      t.hub.pairState = 2 ∧ t.hub.rdF Reg.MIR_STAT 29 16 = n.toNat ∧ t.hub.raw .mir 0 = true
      ∧ t.hub.rdF Reg.MIR_ROLE 7 0 = maskOf ((List.range 8).filter s.hub.sideOwn)))
  ∧ (∀ (s : State) (ws : List Word) (au : Bool) (n : BitVec 14), s.hub.keepsRecs = true → s.hub.hears 8 = true → s.hub.klState 8 = 5 →
    s.hub.mirEn = true → s.hub.mir.syncTx = true → s.hub.pairState ≠ 2 → s.hub.pairState ≠ 4 → (List.range 8).all (fun g => decide (ws.getD g 0 = s.hub.rd (Reg.MIR_GROUP g))) = false →
    Ends (.pairSyncRx ws au n) s [.mir, .pins] {Reg.MIR_STAT, Reg.MIR_ROLE, Reg.SIT_FAULTN_CNT, Reg.TSC_KITTY_MIN} [.mir, .sit, .tsc]
      (fun t => t.hub.pairState = 4 ∧ t.hub.rdF Reg.MIR_STAT 11 8 = 4 ∧ t.hub.raw .mir 4 = true ∧ bit (t.hub.hdr .mir).live 1 = true
        ∧ bit (t.hub.hdr .mir).sticky 1 = true ∧ t.hub.rdF Reg.MIR_ROLE 7 0 = 0xFF ∧ t.hub.rdF Reg.MIR_ROLE 23 16 = 0))
  ∧ (∀ s : State, s.hub.beats = true → s.hub.time.reached 1000 = true →
    Ends .heartbeatTx s sendParts (sendRegs ∪ {Reg.MIR_HB_SEQ_TX}) sendBlocks (fun t =>
      t.hub.rd Reg.MIR_HB_SEQ_TX = incWrap (s.hub.rd Reg.MIR_HB_SEQ_TX)))
  ∧ (∀ s : State, s.hub.keepsRecs = true → s.hub.time.reached 1000 = true →
    Ends .heartbeatMiss s [.mir] {Reg.MIR_HB_MISS} [] (fun t => t.hub.mir = { s.hub.mir with hbSeen := false }
      ∧ t.hub.rd Reg.MIR_HB_MISS = (if s.hub.mir.hbSeen = true then s.hub.rd Reg.MIR_HB_MISS else incHold (s.hub.rd Reg.MIR_HB_MISS))))
  ∧ (∀ (s : State) (q a : BitVec 32) (u : BitVec 8), s.hub.keepsRecs = true → s.hub.hears 8 = true → (s.hub.rd Reg.MIR_HB_SEQ_RX).toNat < q.toNat →
    Ends (.heartbeatRx q a u) s [.mir] {Reg.MIR_HB_SEQ_RX} [] (fun t => t.hub.rd Reg.MIR_HB_SEQ_RX = q
      ∧ t.hub.mir = { s.hub.mir with hbLast := s.hub.mono, hbSeen := true, acked := a.toNat, partnerUp := u.toNat }))
  ∧ (∀ s : State, s.hub.up .mir = true → s.hub.paired = true → s.hub.mir.hbLast + 8000 ≤ s.hub.mono →
    s.hub.rdB Reg.MIR_CFG 1 = false →
    Ends .partnerLoss s [.mir, .wide, .pins] {Reg.MIR_STAT, Reg.MIR_ROLE, Reg.SIT_FAULTN_CNT, Reg.TSC_KITTY_MIN} [.mir, .sit, .tsc] (fun t =>
      t.hub.pairState = 3 ∧ t.hub.rdF Reg.MIR_ROLE 7 0 = 0xFF ∧ t.hub.rdF Reg.MIR_ROLE 23 16 = 0 ∧ t.hub.raw .mir 1 = true
      ∧ bit (t.hub.hdr .mir).live 0 = true ∧ bit (t.hub.hdr .mir).sticky 0 = true
      ∧ t.hub.rdWide Reg.MIR_LOSS_TIME_LO = s.hub.now ∧ t.hub.mir.lostHub = s.hub.rdF Reg.MIR_STAT 29 16
      ∧ t.hub.mir.toTake = maskOf (s.hub.activeGroups fun g => !s.hub.rdB Reg.MIR_ROLE g || s.hub.rdB Reg.MIR_ROLE (16 + g))))
  ∧ (∀ s : State, s.hub.up .mir = true → s.hub.paired = true → s.hub.mir.hbLast + 8000 ≤ s.hub.mono →
    s.hub.rdB Reg.MIR_CFG 1 = true → s.hub.ttSource ≠ some 8 →
    s.hub.depthNow = s.hub.rdF Reg.KLL_DEPTH 5 0 → s.hub.mir.credits = [] →
    (s.hub.activeGroups fun g => !s.hub.rdB Reg.MIR_ROLE g || s.hub.rdB Reg.MIR_ROLE (16 + g)) ≠ [] →
    Ends .partnerLoss s ([.mir, .wide, .pins] ++ resetParts) (resetRegs 8 ∪ blockRegs .mir ∪ {Reg.SIT_FAULTN_CNT, Reg.TS_BYTE_TIME 8, Reg.TS_CAP 8})
      [.mir, .sit, .tsc, .kll, .lnx, .pmc] (fun t =>
      t.hub.pairState = 3 ∧ t.hub.rd Reg.MIR_TAKEOVERS = incHold (s.hub.rd Reg.MIR_TAKEOVERS) ∧ t.hub.rd Reg.MIR_TAKE_STAT = 0
      ∧ t.hub.raw .mir 2 = true ∧ t.hub.klState 8 = 0 ∧ t.hub.mir.running = false ∧ t.hub.mir.counting = true ∧ t.hub.mir.toTake = 0))
  ∧ (∀ s : State, s.hub.up .mir = true → s.hub.mir.running = true → s.hub.mir.lossAt + 20000 ≤ s.hub.mono →
    Ends .takeoverTimeout s [.mir, .wide, .pins] ({Reg.MIR_TAKE_TIME, Reg.SIT_FAULTN_CNT} ∪ blockRegs .tsc) [.mir, .sit, .tsc] (fun t =>
      bit (t.hub.hdr .mir).sticky 3 = true ∧ t.hub.raw .mir 2 = true ∧ t.hub.mir.running = false
      ∧ t.hub.mir.noticed = s.hub.mir.noticed &&& s.hub.rdF Reg.MIR_TAKE_STAT 15 8
      ∧ t.hub.rd Reg.MIR_TAKE_TIME = w32 (holdAt 0xFFFF ((s.hub.mono - s.hub.mir.lossAt) / 100))))
  ∧ (∀ (s : State) (src lost : BitVec 14) (c : Fin 8) (out : List (BitVec 16)) (p : Nat), s.hub.mainUp = true → s.hub.up .kll = true →
    s.hub.portTo lost.toNat c = some p → s.hub.calm p = true →
    Ends (.lostNoticeRx src lost c out) s ([.wide, .pins] ++ resetParts)
      (resetRegs p ∪ sendRegs
        ∪ {Reg.MIR_RECON_HUB, Reg.MIR_RECON_OUT, Reg.MIR_RECON_RET, Reg.TS_BYTE_TIME p, Reg.TS_CAP p}) [.mir, .kll, .lnx, .pmc, .sit, .tsc] (fun t =>
      t.hub.klState p = 0 ∧ t.hub.raw .mir 9 = true ∧ t.hub.rd Reg.MIR_RECON_HUB = w32 (lost.toNat + 2 ^ 14 * c.val)
      ∧ t.hub.rd Reg.MIR_RECON_OUT = w32 (out.foldl (fun n x => n + x.toNat) 0)))
  ∧ (∀ (s : State) (c : Fin 8) (rs : List (BitVec 24 × BitVec 16 × BitVec 16 × Byte)) (l : Option Bool), s.hub.up .mir = true →
    s.hub.mir.noticed.testBit c = false →
    Ends (.reconcileDataRx c rs l) s [] {Reg.KLL_MSG_BAD, Reg.TSC_KITTY_MIN} [.kll, .tsc] (fun t =>
      t.hub.rd Reg.KLL_MSG_BAD = incHold (s.hub.rd Reg.KLL_MSG_BAD) ∧ t.hub.raw .kll 7 = true))
  ∧ (∀ (s : State) (c : Fin 8) (rs : List (BitVec 24 × BitVec 16 × BitVec 16 × Byte)), s.hub.up .mir = true →
    s.hub.mir.noticed.testBit c = true → s.hub.mir.counting = true → s.hub.mir.running = false →
    Ends (.reconcileDataRx c rs (some true)) s [.mir] {Reg.MIR_TAKE_STAT, Reg.MIR_REC_USED, Reg.MIR_REC_FULL, Reg.TSC_KITTY_MIN}
      [.mir, .tsc] (fun t =>
      t.hub.rdB Reg.MIR_TAKE_STAT (8 + c) = true ∧ t.hub.mir.finished = s.hub.mir.finished ||| 2 ^ c.val
      ∧ t.hub.mir.matched = s.hub.mir.matched))
  ∧ (∀ (s : State) (found : List (Nat × Bool)), s.hub.up .mir = true → s.hub.mir.counting = true →
    (s.hub.answersIn = true ∨ s.hub.mir.lossAt + 1000000 ≤ s.hub.mono) →
    found = s.hub.mir.recs.filterMap (fun e => e.2.lostNow) →
    Ends .lostCountEnd s [.mir] {Reg.MIR_LOST_FRAMES, Reg.MIR_LOST_EST, Reg.MIR_TAKE_STAT} [.mir] (fun t =>
      t.hub.rd Reg.MIR_LOST_FRAMES = incHold (s.hub.rd Reg.MIR_LOST_FRAMES) ((found.filter fun x => x.2 = false).foldl (fun n x => n + x.1) 0)
      ∧ t.hub.rd Reg.MIR_LOST_EST = incHold (s.hub.rd Reg.MIR_LOST_EST) ((found.filter fun x => x.2 = true).foldl (fun n x => n + x.1) 0)
      ∧ t.hub.rdB Reg.MIR_TAKE_STAT 17 = true ∧ t.hub.raw .mir 7 = true ∧ t.hub.mir.counting = false
      ∧ t.hub.rdB Reg.MIR_TAKE_STAT 16 = (s.hub.mir.matched && decide (s.hub.mir.finished = s.hub.rdF Reg.MIR_TAKE_STAT 7 0))))
  ∧ (∀ (s : State) (ws : List Word) (au : Bool) (n : BitVec 14), s.hub.keepsRecs = true → s.hub.hears 8 = true →
    4 ≤ s.hub.klState 8 ∧ s.hub.klState 8 ≤ 8 →
    Runs (.pairSyncRx ws au n) s (settle s.hub (s.hub.fresh.tscWatch (s.hub.fresh.pairSynced ws n.toNat))))
  ∧ (∀ s : State, s.hub.up .mir = true → s.hub.paired = true → s.hub.mir.hbLast + 8000 ≤ s.hub.mono →
    Runs .partnerLoss s (settle s.hub (s.hub.fresh.tscWatch s.hub.fresh.partnerLost)))
  ∧ (∀ (s : State) (src lost : BitVec 14) (c : Fin 8) (out : List (BitVec 16)), s.hub.mainUp = true → s.hub.up .kll = true →
    Runs (.lostNoticeRx src lost c out) s (settle s.hub (s.hub.fresh.tscWatch (s.hub.fresh.lostNoticed src.toNat lost.toNat c out))))
  ∧ (∀ (s : State) (c : Fin 8) (rs : List (BitVec 24 × BitVec 16 × BitVec 16 × Byte)) (l : Option Bool), s.hub.up .mir = true →
    Runs (.reconcileDataRx c rs l) s (settle s.hub (s.hub.fresh.tscWatch (s.hub.fresh.reconciled c rs l))))

/-- The mirrored pair's records and handovers (R260, R261, R267, R271, R272, Tables 9.4 and 9.6): batches go and are applied, groups move
by GIVE and DRAINED or by timeout, and the operations answer.
A clause `Runs c s h` says that the form completes with the effect of the definition that it names, under the row's own conditions alone.
Its clauses rest on these choices of the model: log entries 17, 18, 30, 46 and 63. -/
def Obligations.PairRecordsAndHandover : Prop :=
  (∀ s : State, s.hub.up .mir = true → s.hub.paired = true → s.hub.mUp = true → s.hub.changedRecs ≠ [] →
    Ends .mirrorBatchTx s (.mir :: .free :: sendParts) sendRegs sendBlocks (fun t =>
      t.hub.mir.queue = [] ∧ t.hub.mir.shapeDue = false ∧ t.hub.mir.sent = s.hub.liveRecs ∧ t.hub.mir.recs = s.hub.mir.recs
      ∧ (s.hub.mir.batch < 2 ^ 32 → t.hub.mir.batch =
        (s.hub.mir.batch + (packRecs 1024 (s.hub.changedRecs.map MirRec.bytes) []).length) % 2 ^ 32)))
  ∧ (∀ (s : State) (q : BitVec 32) (tm : BitVec 64) (p hub : Nat) (adv out : List Nat), s.hub.up .mir = true → s.hub.paired = true →
    Ends (.mirrorBatchRx q tm [.credit p hub adv out]) s [.mir, .pins] {Reg.MIR_LAG, Reg.SIT_FAULTN_CNT, Reg.TSC_KITTY_MIN} [.mir, .sit, .tsc]
      (fun t => t.hub.mir = { s.hub.mir with credits := Tab.put s.hub.mir.credits p ⟨hub, adv, out⟩, applied := q.toNat }
        ∧ t.hub.rdF Reg.MIR_LAG 15 0 = holdAt 0xFFFF ((s.hub.now - tm.toNat) / 10)
        ∧ (2000 < s.hub.now - tm.toNat → bit (t.hub.hdr .mir).sticky 2 = true)))
  ∧ (∀ (s : State) (q : BitVec 32) (tm : BitVec 64) (f i e l : Nat) (r : PairRec), s.hub.up .mir = true → s.hub.paired = true →
    Tab.find s.hub.mir.recs f = some r →
    Ends (.mirrorBatchRx q tm [.seq f i e l]) s [.mir, .pins] {Reg.MIR_LAG, Reg.SIT_FAULTN_CNT, Reg.TSC_KITTY_MIN} [.mir, .sit, .tsc]
      (fun t => Tab.find t.hub.mir.recs f = some { r with seqs := some (i, e, l) } ∧ t.hub.mir.applied = q.toNat))
  ∧ (∀ (s : State) (g : Nat) (m : BitVec 8), s.hub.up .mir = true → s.hub.paired = true → g < 8 → m = BitVec.ofNat 8 (2 ^ g) →
    s.hub.mir.giving = [] →
    Ends (.handoverGiveRx m false) s [.mir] {Reg.MIR_ROLE, Reg.TSC_KITTY_MIN} [.tsc] (fun t =>
      t.hub.rdB Reg.MIR_ROLE g = true ∧ t.hub.rdB Reg.MIR_ROLE (16 + g) = true
      ∧ t.hub.mir = { s.hub.mir with taking := s.hub.mir.taking.filter (fun x => x.1 ≠ g) ++ [(g, s.hub.mono)] }))
  ∧ (∀ (s : State) (g : Nat) (m : BitVec 8), s.hub.up .mir = true → s.hub.paired = true → g < 8 → m = BitVec.ofNat 8 (2 ^ g) →
    s.hub.groupActive g = true → s.hub.rdB Reg.MIR_ROLE g = true →
    Ends (.handoverGiveRx m true) s (.mir :: sendParts) (sendRegs ∪ {Reg.MIR_ROLE}) sendBlocks (fun t =>
      t.hub.rdB Reg.MIR_ROLE g = false ∧ t.hub.mir = { s.hub.mir with giving := s.hub.mir.giving ++ [⟨g, s.hub.mono, false⟩] }))
  ∧ (∀ (s : State) (g : Fin 8) (since : Nat), s.hub.up .mir = true → s.hub.paired = true → s.hub.mir.giving = [⟨g.val, since, false⟩] →
    s.hub.drained g = true →
    Ends (.handoverDrained g) s (.mir :: sendParts) sendRegs (.mir :: sendBlocks) (fun t =>
      t.hub.mir = { s.hub.mir with giving := [] } ∧ t.hub.raw .mir 3 = true))
  ∧ (∀ (s : State) (g : Fin 8) (since : Nat), s.hub.up .mir = true → s.hub.paired = true → s.hub.mir.taking = [(g.val, since)] →
    s.hub.mir.opGroups.testBit g = false →
    Ends (.handoverDrainedRx g) s [.mir] {Reg.MIR_ROLE, Reg.TSC_KITTY_MIN} [.mir, .tsc] (fun t =>
      t.hub.rdB Reg.MIR_ROLE (16 + g) = false ∧ t.hub.mir = { s.hub.mir with taking := [] } ∧ t.hub.raw .mir 3 = true))
  ∧ (∀ (s : State) (g : Fin 8) (since : Nat), s.hub.up .mir = true → s.hub.paired = true → s.hub.mir.taking = [(g.val, since)] →
    s.hub.mir.opGroups.testBit g = false → since + s.hub.hoTmo ≤ s.hub.mono →
    Ends (.handoverTimeout g) s [.mir] {Reg.MIR_ROLE, Reg.MIR_HO_LATE, Reg.TSC_KITTY_MIN} [.mir, .tsc] (fun t =>
      t.hub.rdB Reg.MIR_ROLE (16 + g) = false ∧ t.hub.mir = { s.hub.mir with taking := [] } ∧ t.hub.raw .mir 3 = true
      ∧ t.hub.rd Reg.MIR_HO_LATE = incHold (s.hub.rd Reg.MIR_HO_LATE)))
  ∧ (∀ (s : State) (r : PairRec), s.hub.opRunning .mir 0x10 = true → s.hub.present .mir = true →
    Tab.find s.hub.mir.recs (s.hub.arg .mir 0).toNat = some r →
    Ends .pairFlowRead s [] ∅ [.mir] (fun t => (t.hub.mbx .mir).result = some (mbxOk [w32 (r.inPort + 32 * r.outPort + 1024 * b2n r.est),
      w32 (r.lastIn + 65536 * r.lastAck), w32 r.lost, w32 ((r.seqs.getD (0, 0, 0)).1 + 65536 * (r.seqs.getD (0, 0, 0)).2.1)])))
  ∧ (∀ s : State, s.hub.opRunning .mir 0x11 = true → s.hub.present .mir = true →
    Ends .resync s [.mir] ∅ [.mir] (fun t =>
      (s.hub.paired = false → (t.hub.mbx .mir).result = some (mbxErr 0x81) ∧ t.hub.mir = s.hub.mir)
      ∧ (s.hub.paired = true → (t.hub.mbx .mir).result = some (mbxOk [w32 (s.hub.hoistSlots.length
        + (s.hub.hoistPorts.flatMap s.hub.gateRecs).length)]))))
  ∧ (∀ s : State, s.hub.opRunning .mir 0x12 = true → s.hub.present .mir = true → s.hub.mir.giving = [] → s.hub.mir.opGroups = 0 →
    s.hub.paired = false →
    Ends .handover s [] {Reg.TSC_KITTY_MIN} [.mir, .tsc] (fun t => (t.hub.mbx .mir).result = some (mbxErr 0x81)))
  ∧ (∀ (s : State) (g : Nat), s.hub.opRunning .mir 0x12 = true → s.hub.present .mir = true → s.hub.mir.giving = [] →
    s.hub.mir.opGroups = 0 → s.hub.paired = true → fld (s.hub.arg .mir 0) 7 0 = 2 ^ g → bit (s.hub.arg .mir 1) 0 = false →
    s.hub.groupActive g = true → s.hub.rdB Reg.MIR_ROLE g = true → s.hub.partnerGroupUp g = true →
    Ends .handover s (.mir :: sendParts) (sendRegs ∪ {Reg.MIR_ROLE}) sendBlocks (fun t =>
      t.hub.rdB Reg.MIR_ROLE g = false ∧ (t.hub.mbx .mir).result = none
      ∧ t.hub.mir = { s.hub.mir with opMoved := 0, opFrom := s.hub.mono, giving := [⟨g, s.hub.mono, true⟩] }))
  ∧ (∀ s : State, s.hub.up .mir = true →
    Ends .mirLagClr s [] {Reg.MIR_LAG} [] (fun t => t.hub.rdF Reg.MIR_LAG 30 16 = 0 ∧ t.hub.rdF Reg.MIR_LAG 15 0 = s.hub.rdF Reg.MIR_LAG 15 0))
  ∧ (∀ s : State, s.hub.up .mir = true → s.hub.paired = true → s.hub.mUp = true → s.hub.changedRecs ≠ [] →
    Runs .mirrorBatchTx s (settle s.hub (s.hub.fresh.tscWatch s.hub.fresh.batchOut)))
  ∧ (∀ (s : State) (q : BitVec 32) (tm : BitVec 64) (rs : List MirRec), s.hub.up .mir = true → s.hub.paired = true →
    Runs (.mirrorBatchRx q tm rs) s (settle s.hub (s.hub.fresh.tscWatch (s.hub.fresh.batchIn q.toNat tm.toNat rs))))
  ∧ (∀ (s : State) (m : BitVec 8) (ask : Bool), s.hub.up .mir = true → s.hub.paired = true →
    Runs (.handoverGiveRx m ask) s (settle s.hub (s.hub.fresh.tscWatch (if ask then
      ((onesOf m.toNat 8).filter fun g => s.hub.fresh.groupActive g && s.hub.fresh.hoistOf g).foldl (fun h g => h.giveGroup g false) s.hub.fresh
      else (onesOf m.toNat 8).foldl Hub.giveRx s.hub.fresh))))
  ∧ (∀ s : State, s.hub.opRunning .mir 0x12 = true → (s.hub.mir.giving.any fun (x : Giving) => x.viaOp) = false → s.hub.mir.opGroups = 0 →
    Runs .handover s (settle s.hub (s.hub.fresh.tscWatch (s.hub.fresh.runOp .mir 0x12 Hub.handoverOp))))

/-- The display engine's lines and rasters (R302–R310, R316), the result clauses with clone off: a ROOT input cuts received lines into frames, a LEAF output reads
its cells, blanks, starts pictures and fill frames, scans active lines, and begins its new timing when the synthesiser is there.
A clause `Runs c s h` says that the form completes with the effect of the definition that it names, under the row's own conditions alone.
Its clauses rest on these choices of the model: log entries 8 and 32. -/
def Obligations.DisplayLines : Prop :=
  (∀ (s : State) (i : Fin 2) (l : DpRxLine) (k : Nat), s.hub.works .dse = true → s.hub.role = .root →
    s.hub.rdB (Reg.DI_CFG i) 0 = true → s.hub.rdB (Reg.DI_STAT i) 7 = true → l.format.isSome = true → l.symErr = false →
    s.hub.admits (0x0E + i) (s.hub.rdF (Reg.DI_FLOW i) 23 0) (16 + l.pixels.length) k = true →
    Ends (.dpLineRx i l) s (.dse :: sendParts) (sendRegs ∪ blockRegs .dse) (.dse :: sendBlocks) (fun t =>
      t.hub.rd (Reg.DI_LINES i) = incHold (s.hub.rd (Reg.DI_LINES i)) ∧ t.hub.rdB (Reg.DI_STAT i) 8 = true
      ∧ t.hub.rdB (Reg.DI_STAT i) 9 = false ∧ t.hub.rd (Reg.DI_SDP_DROP i) = incHold (s.hub.rd (Reg.DI_SDP_DROP i)) l.sdps
      ∧ t.hub.rd (Reg.DI_H i) = w32 (l.hact % 8192 + l.htotal % 8192 * 65536)
      ∧ (t.hub.ctx k).inseq = ((s.hub.ctx k).inseq + 1) % 65536))
  ∧ (∀ (s : State) (i : Fin 2) (l : DpRxLine), s.hub.works .dse = true → s.hub.role = .root →
    s.hub.rdB (Reg.DI_CFG i) 0 = true → s.hub.rdB (Reg.DI_STAT i) 7 = true → l.format = none →
    Ends (.dpLineRx i l) s [.dse] (blockRegs .dse ∪ {Reg.TSC_KITTY_MIN}) [.dse, .tsc] (fun t =>
      t.hub.rdB (Reg.DI_STAT i) 9 = true ∧ t.hub.rdF (Reg.DI_FMT i) 7 0 = 0xFF ∧ t.hub.raw .dse 19 = true))
  ∧ (∀ (s : State) (o : Fin 2) (u : DpUnit) (i : Nat) (rest : List Nat) (c : CellSt), s.hub.up .dse = true →
    (s.hub.dpOut o).reading = some u → u.cells = i :: rest → rest ≠ [] → s.hub.cell i = some c → c.pend.testBit (0x0E + o) = true →
    s.hub.cellGood i false = true →
    Ends (.dpCellWrite o false) s (.dse :: exitParts) (exitRegs ∪ {Reg.DO_FIFO o}) exitBlocks (fun t =>
      (t.hub.dpOut o).reading = some { u with cells := rest, bytes := u.bytes ++ c.payload }))
  ∧ (∀ (s : State) (o : Fin 2) (u : DpUnit) (i : Nat), s.hub.up .dse = true → (s.hub.dpOut o).reading = some u → u.cells = [i] →
    Ends (.dpCellWrite o false) s (.dse :: exitParts) (exitRegs ∪ blockRegs .dse) (.dse :: exitBlocks) (fun t =>
      (t.hub.dpOut o).reading = none))
  ∧ (∀ (s : State) (o : Fin 2) (n : Nat), s.hub.up .dse = true → s.hub.role = .leaf → s.hub.dpEn o = true → s.hub.dpClone = false →
    (s.hub.dpOut o).phase = .blank → n = (s.hub.dpOut o).next → (s.hub.dpOut o).tim.vact < n →
    n < (s.hub.dpOut o).tim.vact + (s.hub.dpOut o).tim.vbmin →
    (s.hub.dpOut o).lineDue s.hub.mono = true →
    Ends (.rasterLineBoundary o) s [.dse] {Reg.DO_FIFO o, Reg.DO_STAT o} [.dse] (fun t =>
      t.hub.dpOut o = { s.hub.dpOut o with next := n + 1, pix := (s.hub.dpOut o).pix + (s.hub.dpOut o).tim.htot } ∧ t.hub.rdF (Reg.DO_STAT o) 12 0 = n % 8192 ∧ t.hub.rdB (Reg.DO_STAT o) 13 = false
      ∧ t.hub.out = (if s.hub.rdB (Reg.DO_STAT o) 16 = true then [.blank (0x0E + o)] else [])))
  ∧ (∀ (s : State) (o : Fin 2) (v : Nat), s.hub.up .dse = true → s.hub.role = .leaf → s.hub.dpEn o = true → s.hub.dpClone = false →
    (s.hub.dpOut o).phase = .picture v → (s.hub.dpOut o).next = (s.hub.dpOut o).tim.vact → 0 < (s.hub.dpOut o).tim.vbmin →
    (s.hub.dpOut o).aborted = false →
    (s.hub.dpOut o).lineDue s.hub.mono = true →
    Ends (.rasterLineBoundary o) s [.dse] {Reg.DO_FIFO o, Reg.DO_STAT o, Reg.DO_DISCARD o, Reg.DO_CRC_RG o, Reg.DO_CRC_B o} [.dse] (fun t =>
      (t.hub.dpOut o).phase = .blank ∧ t.hub.raw .dse (8 * o) = true ∧ t.hub.raw .dse (8 * o + 2) = true
      ∧ t.hub.rd (Reg.DO_CRC_B o) = w32 ((s.hub.dpOut o).crc.getD 2 0).toNat))
  ∧ (∀ (s : State) (o : Fin 2), s.hub.up .dse = true → s.hub.role = .leaf → s.hub.dpEn o = true → s.hub.dpClone = false →
    (s.hub.dpOut o).phase = .blank → (s.hub.dpOut o).fifo = [] → (s.hub.dpOut o).tim.vbmin ≤ (s.hub.dpOut o).tim.vbmax →
    0 < (s.hub.dpOut o).tim.vbmax → (s.hub.dpOut o).next = (s.hub.dpOut o).tim.vact + (s.hub.dpOut o).tim.vbmax →
    (s.hub.dpOut o).lineDue s.hub.mono = true →
    Ends (.rasterLineBoundary o) s [.dse, .wide] {Reg.DO_FIFO o, Reg.DO_FILL_FRAMES o} [.dse] (fun t =>
      (t.hub.dpOut o).phase = .fill ∧ (t.hub.dpOut o).next = 0 ∧ (t.hub.dpOut o).tim = s.hub.timing o
      ∧ t.hub.rd (Reg.DO_FILL_FRAMES o) = incHold (s.hub.rd (Reg.DO_FILL_FRAMES o)) ∧ t.hub.raw .dse (8 * o + 4) = true
      ∧ t.hub.rdWide (Reg.DO_START_LO o) = s.hub.now))
  ∧ (∀ (s : State) (o : Fin 2) (l : DpLine), s.hub.up .dse = true → s.hub.role = .leaf → s.hub.dpEn o = true → s.hub.dpClone = false →
    (s.hub.dpOut o).phase = .blank → (s.hub.dpOut o).fifo = [l] → l.sof = true → l.eof = true → l.line = 0 →
    (s.hub.dpOut o).tim.vact < (s.hub.dpOut o).next →
    (s.hub.dpOut o).tim.vact + (s.hub.dpOut o).tim.vbmin ≤ (s.hub.dpOut o).next →
    (s.hub.dpOut o).lineDue s.hub.mono = true →
    Ends (.rasterLineBoundary o) s [.dse, .wide] {Reg.DO_FIFO o, Reg.DO_FRAMES o, Reg.DO_VFRAME o, Reg.DO_SKIPPED o} [.dse] (fun t =>
      (t.hub.dpOut o).phase = .picture l.vframe ∧ (t.hub.dpOut o).next = 0 ∧ (t.hub.dpOut o).fifo = [l]
      ∧ t.hub.rd (Reg.DO_FRAMES o) = incHold (s.hub.rd (Reg.DO_FRAMES o)) ∧ t.hub.rdF (Reg.DO_VFRAME o) 15 0 = l.vframe % 65536))
  ∧ (∀ (s : State) (o : Fin 2) (n : Nat), s.hub.up .dse = true → s.hub.dpEn o = true → s.hub.dpClone = false →
    (s.hub.dpOut o).phase = .fill → n = (s.hub.dpOut o).next → n < (s.hub.dpOut o).tim.vact → (s.hub.dpOut o).aborted = false →
    (s.hub.dpOut o).lineDue s.hub.mono = true →
    Ends (.activeLineStart o false false) s [.dse] {Reg.DO_FIFO o, Reg.DO_STAT o} [.dse] (fun t =>
      (t.hub.dpOut o).next = n + 1 ∧ t.hub.rdB (Reg.DO_STAT o) 13 = true
      ∧ t.hub.out = (if s.hub.rdB (Reg.DO_STAT o) 16 = true then [.line (0x0E + o) (s.hub.dpRow o n none false)] else [])
      ∧ (t.hub.dpOut o).crc = Config.dpCrc (s.hub.dpOut o).crc (s.hub.dpRow o n none false)))
  ∧ (∀ (s : State) (o : Fin 2) (v n : Nat) (l : DpLine), s.hub.up .dse = true → s.hub.dpEn o = true → s.hub.dpClone = false →
    (s.hub.dpOut o).phase = .picture v → n = (s.hub.dpOut o).next → n < (s.hub.dpOut o).tim.vact → (s.hub.dpOut o).aborted = false →
    (s.hub.dpOut o).ends = none → (s.hub.dpOut o).fifo = [l] → l.vframe = v → l.line = n → l.bad = false →
    s.hub.rdF (Reg.DO_WIN o) 28 16 = 0 →
    (s.hub.dpOut o).lineDue s.hub.mono = true →
    Ends (.activeLineStart o false false) s [.dse, .pmc] ({Reg.DO_FIFO o, Reg.DO_STAT o, Reg.DO_DISCARD o} ∪ blockRegs .pmc) [.dse, .pmc]
      (fun t => (t.hub.dpOut o).next = n + 1 ∧ (t.hub.dpOut o).fifo = []
        ∧ t.hub.out = (if s.hub.rdB (Reg.DO_STAT o) 16 = true then [.line (0x0E + o) (s.hub.dpRow o n (some l) false)] else [])))
  ∧ (∀ (s : State) (o : Fin 2), s.hub.up .dse = true → s.hub.dpClone = false → (s.hub.dpOut o).phase = .synth →
    Ends (.retimeSynthDone o) s [.dse] {Reg.DO_FIFO o} [] (fun t =>
      t.hub.dpOut o = { s.hub.dpOut o with phase := .retime, tim := s.hub.timing o, next := 0, pixFrom := s.hub.mono, pix := 0 }))
  ∧ (∀ (s : State) (i : Fin 2) (l : DpRxLine), s.hub.works .dse = true → s.hub.role = .root →
    s.hub.rdB (Reg.DI_CFG i) 0 = true → s.hub.rdB (Reg.DI_STAT i) 7 = true →
    Runs (.dpLineRx i l) s (settle s.hub (s.hub.fresh.tscWatch (s.hub.fresh.dpLineIn i l))))
  ∧ (∀ (s : State) (o : Fin 2) (ecc : Bool), s.hub.up .dse = true → (s.hub.dpOut o).reading.isSome = true →
    Runs (.dpCellWrite o ecc) s (settle s.hub (s.hub.fresh.tscWatch (s.hub.fresh.dpCell o ecc))))
  ∧ (∀ (s : State) (o : Fin 2), s.hub.up .dse = true → s.hub.role = .leaf → s.hub.dpEn o = true → (s.hub.dpOut o).inBlanking = true →
    (s.hub.dpOut o).lineDue s.hub.mono = true → (s.hub.dpClone = false ∨ o = 0 ∨ (s.hub.dpOut o).phase = .retime) →
    Runs (.rasterLineBoundary o) s (settle s.hub (((s.hub.fresh.windowPass o).dpLineBegin o).dpLineBoundary o)))
  ∧ (∀ (s : State) (o : Fin 2) (ecc ovl : Bool), s.hub.up .dse = true → s.hub.dpEn o = true → (s.hub.dpOut o).inActive = true →
    (s.hub.dpOut o).lineDue s.hub.mono = true → (s.hub.dpClone = false ∨ o = 0) →
    Runs (.activeLineStart o ecc ovl) s (settle s.hub ((s.hub.fresh.dpLineBegin o).dpActive o ecc ovl)))
  ∧ (∀ (s : State) (o : Fin 2), s.hub.up .dse = true → (s.hub.dpOut o).phase = .synth →
    Runs (.retimeSynthDone o) s (settle s.hub (s.hub.fresh.synthDone o)))

/-- Links, hot plug and AUX of the display engine (R105, R317–R319, R322, Tables 11.8 and 11.14).
A clause `Runs c s h` says that the form completes with the effect of the definition that it names, under the row's own conditions alone.
Its clauses rest on these choices of the model: log entries 32 and 33. -/
def Obligations.DisplayLinks : Prop :=
  (∀ (s : State) (o : Fin 2), s.hub.up .dse = true → s.hub.role = .leaf → s.hub.rdB (Reg.DO_STAT o) 17 = false →
    Ends (.hpdPlug o) s [] {Reg.DO_STAT o} [.dse] (fun t => t.hub.rdB (Reg.DO_STAT o) 17 = true ∧ t.hub.raw .dse (8 * o + 6) = true))
  ∧ (∀ (s : State) (o : Fin 2), s.hub.up .dse = true → s.hub.role = .leaf → s.hub.rdB (Reg.DO_STAT o) 17 = true →
    s.hub.rdB (Reg.DO_STAT o) 16 = false →
    Ends (.hpdUnplug o) s [] {Reg.DO_STAT o} [.dse] (fun t => t.hub.rdB (Reg.DO_STAT o) 17 = false ∧ t.hub.raw .dse (8 * o + 6) = true)
    ∧ Ends (.hpdIrqRx o true false) s [] ∅ [.dse] (fun t => t.hub.raw .dse (8 * o + 6) = true))
  ∧ (∀ (s : State) (o : Fin 2), s.hub.up .dse = true → s.hub.role = .leaf → s.hub.rdB (Reg.DO_STAT o) 17 = true →
    s.hub.rdB (Reg.DO_STAT o) 16 = true →
    Ends (.hpdUnplug o) s [.dse, .pins] ({Reg.DO_STAT o, Reg.DO_FIFO o, Reg.TS_BYTE_TIME (0x0E + o), Reg.TS_CAP (0x0E + o),
        Reg.SIT_FAULTN_CNT} ∪ blockRegs .lnx) [.dse, .sit] (fun t =>
      t.hub.rdB (Reg.DO_STAT o) 17 = false ∧ t.hub.rdB (Reg.DO_STAT o) 16 = false ∧ t.hub.raw .dse (8 * o + 6) = true
      ∧ t.hub.raw .dse (8 * o + 7) = true ∧ bit (t.hub.hdr .dse).live 1 = true ∧ bit (t.hub.hdr .dse).sticky 1 = true
      ∧ t.hub.rdF (Reg.TS_CAP (0x0E + o)) 20 0 = 0))
  ∧ (∀ (s : State) (i : Fin 2) (a n : Nat), s.hub.up .dse = true → s.hub.role = .root → s.hub.rdB (Reg.DI_CFG i) 0 = true →
    Ends (.auxRequestRx i (.dpcd a n)) s [] ∅ [] (fun t =>
      t.hub.out = [.packet (0x0E + i) 0x11 ((List.range n).map fun k => BitVec.ofNat 8 (s.hub.dpcd i (a + k)))])
    ∧ Ends (.auxRequestRx i (.edid a n)) s [] ∅ [] (fun t =>
      t.hub.out = [.packet (0x0E + i) 0x12 ((List.range n).map fun k =>
        BitVec.ofNat 8 (s.hub.edid i ((a + k) % 512)))]))
  ∧ (∀ (s : State) (i : Fin 2), s.hub.up .dse = true → s.hub.role = .root → s.hub.rdB (Reg.DI_CFG i) 0 = true →
    s.hub.refsReady (0x0E + i) = true →
    Ends (.auxRequestRx i (.trained 0xA 4)) s [.dse] ({Reg.DI_STAT i} ∪ blockRegs .lnx) [.dse] (fun t =>
      t.hub.rdF (Reg.DI_STAT i) 3 0 = 0xA ∧ t.hub.rdF (Reg.DI_STAT i) 6 4 = 4 ∧ t.hub.rdB (Reg.DI_STAT i) 7 = true
      ∧ t.hub.raw .dse (8 * i + 7) = true))
  ∧ (∀ (s : State) (i : Fin 2), s.hub.up .dse = true → s.hub.role = .root → s.hub.rdB (Reg.DI_STAT i) 7 = true →
    Ends (.dpInputLinkLoss i) s [.dse, .pins] ({Reg.DI_STAT i, Reg.DI_FMT i, Reg.SIT_FAULTN_CNT} ∪ blockRegs .lnx) [.dse, .sit] (fun t =>
      t.hub.rdB (Reg.DI_STAT i) 7 = false ∧ t.hub.rdB (Reg.DI_STAT i) 8 = false ∧ t.hub.raw .dse (8 * i + 7) = true
      ∧ bit (t.hub.hdr .dse).live 1 = true ∧ bit (t.hub.hdr .dse).sticky 1 = true))
  ∧ (∀ (s : State) (c : Nat) (b : List Byte), s.hub.opRunning .dse 0x10 = true → s.hub.present .dse = true → s.hub.role = .leaf →
    1 ≤ fld (s.hub.arg .dse 1) 4 0 → fld (s.hub.arg .dse 1) 4 0 ≤ 16 →
    s.hub.rdB (Reg.DO_STAT (b2n (bit (s.hub.arg .dse 0) 0))) 17 = true → c = 0 → b.length ≤ 16 →
    Ends (.auxXfer [none, some (2, []), some (c, b)]) s [] ∅ [.dse] (fun t => (t.hub.mbx .dse).result = some (mbxOk
      (w32 (c + 0x100 * b.length) :: (List.range 4).map fun k => w32 (leVal ((b.drop (4 * k)).take 4)))))
    ∧ Ends (.auxXfer [none, none, none, none]) s [] ∅ [.dse] (fun t => (t.hub.mbx .dse).result = some (mbxErr 0x81)))
  ∧ (∀ s : State, s.hub.opRunning .dse 0x11 = true → s.hub.present .dse = true → s.hub.role = .leaf → s.hub.arg .dse 0 = 1 →
    s.hub.arg .dse 1 = 8 → s.hub.arg .dse 2 = 4 → s.hub.dpEn 1 = false → s.hub.rdB (Reg.DO_STAT 1) 17 = true → s.hub.refsReady 0x0F = true →
    Ends (.linkTrain true true 0x1234 true) s [.dse] ({Reg.DO_STAT 1, Reg.DO_FIFO 1, Reg.TS_BYTE_TIME 0x0F, Reg.TS_CAP 0x0F} ∪ blockRegs .lnx)
      [.dse] (fun t =>
      (t.hub.mbx .dse).result = some (mbxOk [4, 8, 0x1234]) ∧ t.hub.rdB (Reg.DO_STAT 1) 16 = true ∧ t.hub.rdB (Reg.DO_STAT 1) 18 = true
      ∧ t.hub.rdF (Reg.DO_STAT 1) 21 19 = 4 ∧ t.hub.rdF (Reg.DO_STAT 1) 25 22 = 8 ∧ t.hub.raw .dse 15 = true
      ∧ t.hub.rdF (Reg.TS_CAP 0x0F) 20 0 = 17280)
    ∧ Ends (.linkTrain false true 0 true) s [.dse, .pins] ({Reg.DO_STAT 1, Reg.DO_FIFO 1, Reg.TS_BYTE_TIME 0x0F, Reg.TS_CAP 0x0F,
        Reg.SIT_FAULTN_CNT} ∪ blockRegs .lnx) [.dse, .sit] (fun t =>
      (t.hub.mbx .dse).result = some (mbxErr 0x82) ∧ t.hub.rdB (Reg.DO_STAT 1) 16 = false))
  ∧ (∀ s : State, s.hub.opRunning .dse 0x12 = true → s.hub.present .dse = true → s.hub.role = .root → s.hub.arg .dse 0 = 1 →
    s.hub.rdB (Reg.DI_CFG 1) 0 = true →
    Ends .hpdIrq s [] ∅ [.dse] (fun t => (t.hub.mbx .dse).result = some (mbxOk []) ∧ t.hub.out = [.packet 0x0F 0x10 []]))
  ∧ (∀ (s : State) (o : Fin 2) (a b : Bool), s.hub.up .dse = true → s.hub.role = .leaf → s.hub.rdB (Reg.DO_STAT o) 17 = true →
    Runs (.hpdIrqRx o a b) s (settle s.hub (s.hub.fresh.hpdIrqIn o a b)))
  ∧ (∀ (s : State) (i : Fin 2) (r : AuxReq), s.hub.up .dse = true → s.hub.role = .root → s.hub.rdB (Reg.DI_CFG i) 0 = true →
    Runs (.auxRequestRx i r) s (settle s.hub (s.hub.fresh.auxAnswer i r)))
  ∧ (∀ (s : State) (rs : List (Option (Nat × List Byte))), s.hub.opRunning .dse 0x10 = true →
    Runs (.auxXfer rs) s (settle s.hub (s.hub.fresh.runOp .dse 0x10 fun h => h.auxOp rs)))
  ∧ (∀ (s : State) (cr ce v : Bool) (sw : BitVec 16), s.hub.opRunning .dse 0x11 = true →
    Runs (.linkTrain cr ce sw v) s (settle s.hub (s.hub.fresh.runOp .dse 0x11 fun h => h.trainOp cr ce sw v)))
  ∧ (∀ s : State, s.hub.opRunning .dse 0x12 = true →
    Runs .hpdIrq s (settle s.hub (s.hub.fresh.runOp .dse 0x12 Hub.hpdIrqOp)))

/-- Vision ingress (R325, R328–R330, Tables 12.1 and 12.3): frame starts and ends, lines that are counted, sent as capture frames or
dropped with their cause, packets of another channel, and the gap timeout.
A clause `Runs c s h` says that the form completes with the effect of the definition that it names, under the row's own conditions alone.
Its clauses rest on these choices of the model: log entries 34 and 46. -/
def Obligations.VisionIngress : Prop :=
  (∀ (s : State) (n : Fin 4) (vc : BitVec 2) (back : Nat), s.hub.vinOn n = true → s.hub.vinVc n vc.toNat = true →
    (s.hub.vinRx n).isOpen = false →
    Ends (.csiFrameStart n vc back false) s [.vin, .wide] {Reg.VN_STAT n, Reg.VN_TRIG_CTL n, Reg.VN_VFRAME n, Reg.VN_FS_LAT n} [.vin] (fun t =>
      t.hub.rdF (Reg.VN_VFRAME n) 15 0 = (s.hub.rdF (Reg.VN_VFRAME n) 15 0 + 1) % 65536
      ∧ t.hub.vinRx n = { s.hub.vinRx n with isOpen := true, line := 0, stamp := (s.hub.now - back) % 2 ^ 32, seen := s.hub.mono }
      ∧ t.hub.rdWide (Reg.VN_FS_TIME_LO n) = s.hub.now - back ∧ t.hub.raw .vin (6 * n) = true
      ∧ t.hub.rd (Reg.VN_FS_LAT n) = s.hub.vinLat n (s.hub.now - back) ∧ t.hub.rdB (Reg.VN_STAT n) 0 = true
      ∧ t.hub.rdF (Reg.VN_STAT n) 15 8 = 0))
  ∧ (∀ (s : State) (n : Fin 4) (vc : BitVec 2) (back : Nat) (fix : Bool), s.hub.vinOn n = true → s.hub.vinVc n vc.toNat = false →
    Ends (.csiFrameStart n vc back fix) s [] {Reg.VN_OTHER_DROP n} [] (fun t =>
      t.hub.rd (Reg.VN_OTHER_DROP n) = incHold (s.hub.rd (Reg.VN_OTHER_DROP n)))
    ∧ Ends (.csiFrameEnd n vc fix) s [] {Reg.VN_OTHER_DROP n} [] (fun t =>
      t.hub.rd (Reg.VN_OTHER_DROP n) = incHold (s.hub.rd (Reg.VN_OTHER_DROP n))))
  ∧ (∀ (s : State) (n : Fin 4) (vc : BitVec 2), s.hub.vinOn n = true → s.hub.vinVc n vc.toNat = true → (s.hub.vinRx n).isOpen = true →
    Ends (.csiFrameEnd n vc true) s [.vin] {Reg.VN_STAT n, Reg.VN_TRIG_CTL n, Reg.VN_VFRAME n, Reg.VN_FRAMES n, Reg.VN_ECC_FIX n} [.vin]
      (fun t => t.hub.rd (Reg.VN_FRAMES n) = incHold (s.hub.rd (Reg.VN_FRAMES n)) ∧ t.hub.raw .vin (6 * n + 1) = true
        ∧ t.hub.rd (Reg.VN_ECC_FIX n) = incHold (s.hub.rd (Reg.VN_ECC_FIX n)) ∧ t.hub.rdB (Reg.VN_STAT n) 0 = false
        ∧ t.hub.vinRx n = { s.hub.vinRx n with isOpen := false, seen := s.hub.mono, closed := s.hub.mono }
        ∧ t.hub.rdF (Reg.VN_VFRAME n) 31 16 = (s.hub.vinRx n).line % 65536))
  ∧ (∀ (s : State) (n : Fin 4), s.hub.vinOn n = true → (s.hub.vinRx n).isOpen = true →
    (s.hub.vinRx n).seen + s.hub.gapTmo n ≤ s.hub.mono →
    Ends (.csiGapTimeout n) s [.vin, .pins] {Reg.VN_STAT n, Reg.VN_TRIG_CTL n, Reg.VN_VFRAME n, Reg.VN_TRUNC n, Reg.SIT_FAULTN_CNT}
      [.vin, .sit] (fun t => t.hub.rd (Reg.VN_TRUNC n) = incHold (s.hub.rd (Reg.VN_TRUNC n)) ∧ t.hub.raw .vin (6 * n + 3) = true
        ∧ t.hub.vinRx n = { s.hub.vinRx n with isOpen := false, closed := s.hub.mono } ∧ bit (t.hub.hdr .vin).sticky 3 = true))
  ∧ (∀ (s : State) (n : Fin 4) (vc : BitVec 2) (d : Byte) (b : List Byte), s.hub.vinOn n = true → s.hub.vinVc n vc.toNat = true →
    csiTypeOk d.toNat = true → (s.hub.vinRx n).isOpen = true → b.length ≤ 16368 → s.hub.rdB (Reg.VN_CFG n) 6 = false →
    s.hub.rdB (Reg.VN_CFG n) 7 = false →
    Ends (.csiLineRx n vc d b .good) s [.vin] {Reg.VN_STAT n, Reg.VN_TRIG_CTL n, Reg.VN_LINES_OK n, Reg.TSC_KITTY_MIN} [.tsc] (fun t =>
      t.hub.rd (Reg.VN_LINES_OK n) = incHold (s.hub.rd (Reg.VN_LINES_OK n)) ∧ t.hub.rdF (Reg.VN_STAT n) 15 8 = d.toNat
      ∧ t.hub.vinRx n = { s.hub.vinRx n with line := (s.hub.vinRx n).line + 1, seen := s.hub.mono })
    ∧ Ends (.csiLineRx n vc d b .badCrc) s [.vin, .pins, .pmc] ({Reg.VN_STAT n, Reg.VN_TRIG_CTL n, Reg.VN_CRC_ERR n, Reg.TSC_KITTY_MIN,
        Reg.SIT_FAULTN_CNT} ∪ pmcRegs) [.vin, .pmc, .sit, .tsc] (fun t =>
      t.hub.rd (Reg.VN_CRC_ERR n) = incHold (s.hub.rd (Reg.VN_CRC_ERR n)) ∧ t.hub.raw .vin (6 * n + 2) = true
      ∧ bit (t.hub.hdr .vin).sticky 0 = true ∧ t.hub.vinRx n = { s.hub.vinRx n with line := (s.hub.vinRx n).line + 1, seen := s.hub.mono }))
  ∧ (∀ (s : State) (n : Fin 4) (vc : BitVec 2) (d : Byte) (b : List Byte), s.hub.vinOn n = true →
    Ends (.csiLineRx n vc d b .badSync) s [.pins, .pmc] ({Reg.VN_PHY_ERR n, Reg.TSC_KITTY_MIN, Reg.SIT_FAULTN_CNT} ∪ pmcRegs)
      [.vin, .pmc, .sit, .tsc] (fun t =>
      t.hub.rd (Reg.VN_PHY_ERR n) = incHold (s.hub.rd (Reg.VN_PHY_ERR n)) ∧ t.hub.raw .vin (6 * n + 2) = true
      ∧ bit (t.hub.hdr .vin).sticky 2 = true)
    ∧ Ends (.csiLineRx n vc d b .badHeader) s [.pins, .pmc] ({Reg.VN_ECC_ERR n, Reg.TSC_KITTY_MIN, Reg.SIT_FAULTN_CNT} ∪ pmcRegs)
      [.vin, .pmc, .sit, .tsc] (fun t =>
      t.hub.rd (Reg.VN_ECC_ERR n) = incHold (s.hub.rd (Reg.VN_ECC_ERR n)) ∧ t.hub.raw .vin (6 * n + 2) = true
      ∧ bit (t.hub.hdr .vin).sticky 1 = true))
  ∧ (∀ (s : State) (n : Fin 4) (vc : BitVec 2) (d : Byte) (b : List Byte) (k : Nat), s.hub.vinOn n = true →
    s.hub.vinVc n vc.toNat = true → csiTypeOk d.toNat = true → (s.hub.vinRx n).isOpen = true → b.length ≤ 16368 →
    s.hub.rdB (Reg.VN_CFG n) 6 = true → s.hub.rdB (Reg.VN_CFG n) 3 = true → s.hub.rdB (Reg.VN_CFG n) 7 = false →
    s.hub.admits (0x12 + n) (s.hub.rdF (Reg.VN_CAP_FLOW n) 23 0) (16 + b.length) k = true →
    Ends (.csiLineRx n vc d b .good) s (.vin :: sendParts) (sendRegs ∪ {Reg.VN_STAT n, Reg.VN_TRIG_CTL n, Reg.VN_LINES_OK n}) sendBlocks
      (fun t => t.hub.rd (Reg.VN_LINES_OK n) = incHold (s.hub.rd (Reg.VN_LINES_OK n))
        ∧ (t.hub.ctx k).inseq = ((s.hub.ctx k).inseq + 1) % 65536))
  ∧ (∀ (s : State) (n : Fin 4) (vc : BitVec 2) (back : Nat) (fix : Bool), s.hub.vinOn n = true →
    Runs (.csiFrameStart n vc back fix) s (settle s.hub (s.hub.fresh.csiStart n vc back fix))
    ∧ Runs (.csiFrameEnd n vc fix) s (settle s.hub (s.hub.fresh.csiEnd n vc fix)))
  ∧ (∀ (s : State) (n : Fin 4) (vc : BitVec 2) (d : Byte) (b : List Byte) (x : CsiCheck), s.hub.vinOn n = true →
    Runs (.csiLineRx n vc d b x) s (settle s.hub (s.hub.fresh.tscWatch (s.hub.fresh.csiLine n vc d b x))))

/-- Triggers (R331, R332): a due pulse starts and drives its ball, ends WIDTH later, ARM loads a schedule, STOP ends it, and the mask
arms several receivers at once.
A clause `Runs c s h` says that the form completes with the effect of the definition that it names, under the row's own conditions alone.
Its clauses rest on these choices of the model: log entry 34. -/
def Obligations.Triggers : Prop :=
  (∀ (s : State) (n : Fin 4) (x : TrigSched), s.hub.up .vin = true → (s.hub.vinRx n).sched = some x → x.time x.k ≤ s.hub.now →
    (s.hub.vinRx n).pulseEnd = none → n.val < s.hub.pins.trig.length →
    Ends (.triggerPulse n) s [.vin, .pins] {Reg.VN_STAT n, Reg.VN_TRIG_CTL n, Reg.VN_TRIG_MADE n, Reg.VN_FS_LAT n} [.vin] (fun t =>
      t.hub.rd (Reg.VN_TRIG_MADE n) = incHold (s.hub.rd (Reg.VN_TRIG_MADE n))
      ∧ (t.hub.vinRx n).rise = some s.hub.now ∧ (t.hub.vinRx n).pulseEnd = some (s.hub.now + x.width) ∧ (t.hub.vinRx n).active = true
      ∧ t.hub.pins.trig.getD n false = !(s.hub.vinRx n).pol
      ∧ (t.hub.vinRx n).sched = (if TrigSched.over { x with k := x.k + 1 } = true then none else some { x with k := x.k + 1 })))
  ∧ (∀ (s : State) (n : Fin 4) (x : TrigSched) (e : Nat), s.hub.up .vin = true → (s.hub.vinRx n).sched = some x → x.time x.k ≤ s.hub.now →
    (s.hub.vinRx n).pulseEnd = some e → x.time x.k < e + 100 →
    Ends (.triggerPulse n) s [.vin] {Reg.VN_STAT n, Reg.VN_TRIG_CTL n, Reg.VN_TRIG_SKIP n} [.vin] (fun t =>
      t.hub.rd (Reg.VN_TRIG_SKIP n) = incHold (s.hub.rd (Reg.VN_TRIG_SKIP n)) ∧ (t.hub.vinRx n).active = (s.hub.vinRx n).active))
  ∧ (∀ (s : State) (n : Fin 4) (e : Nat), s.hub.up .vin = true → (s.hub.vinRx n).active = true → (s.hub.vinRx n).pulseEnd = some e →
    e ≤ s.hub.now → n.val < s.hub.pins.trig.length →
    Ends (.triggerPulseEnd n) s [.vin, .pins] {Reg.VN_STAT n, Reg.VN_TRIG_CTL n} [] (fun t =>
      t.hub.vinRx n = { s.hub.vinRx n with active := false } ∧ t.hub.pins.trig.getD n false = (s.hub.vinRx n).pol))
  ∧ (∀ (s : State) (n : Fin 4) (m : BitVec 4), s.hub.up .vin = true → m = BitVec.ofNat 4 (2 ^ n.val) → 0 < s.hub.trigPeriod n →
    s.hub.now + 1000 ≤ join64 (s.hub.rd (Reg.VN_TRIG_START_LO n)) (s.hub.rd (Reg.VN_TRIG_START_HI n)) →
    Ends (.triggerArm n) s [.vin, .pins] {Reg.VN_STAT n, Reg.VN_TRIG_CTL n, Reg.VN_TRIG_MADE n, Reg.VN_FS_LAT n} [.vin] (fun t =>
      t.hub.rd (Reg.VN_TRIG_MADE n) = 0 ∧ (t.hub.vinRx n).rise = none ∧ t.hub.rdB (Reg.VN_TRIG_CTL n) 3 = true
      ∧ (t.hub.vinRx n).sched = some ⟨join64 (s.hub.rd (Reg.VN_TRIG_START_LO n)) (s.hub.rd (Reg.VN_TRIG_START_HI n)),
        s.hub.trigPeriod n, s.hub.trigWidth n, (s.hub.rd (Reg.VN_TRIG_COUNT n)).toNat, 0⟩)
    ∧ Ends (.trigArmMask m) s [.vin, .pins] {Reg.VN_STAT n, Reg.VN_TRIG_CTL n, Reg.VN_TRIG_MADE n, Reg.VN_FS_LAT n} [.vin] (fun t =>
      t.hub.rd (Reg.VN_TRIG_MADE n) = 0 ∧ (t.hub.vinRx n).rise = none ∧ t.hub.rdB (Reg.VN_TRIG_CTL n) 3 = true))
  ∧ (∀ (s : State) (n : Fin 4), s.hub.up .vin = true →
    Ends (.triggerStop n) s [.vin] {Reg.VN_STAT n, Reg.VN_TRIG_CTL n} [] (fun t =>
      t.hub.vinRx n = { s.hub.vinRx n with sched := none } ∧ t.hub.rdB (Reg.VN_TRIG_CTL n) 3 = false))
  ∧ (∀ (s : State) (n : Fin 4), s.hub.up .vin = true → s.hub.trigDue n = true →
    Runs (.triggerPulse n) s (settle s.hub (s.hub.fresh.trigPulse n)))
  ∧ (∀ (s : State) (n : Fin 4) (e : Nat), s.hub.up .vin = true → (s.hub.vinRx n).active = true → (s.hub.vinRx n).pulseEnd = some e →
    e ≤ s.hub.now → Runs (.triggerPulseEnd n) s (settle s.hub (s.hub.fresh.trigEnd n)))
  ∧ (∀ (s : State) (n : Fin 4) (m : BitVec 4), s.hub.up .vin = true →
    Runs (.triggerArm n) s (settle s.hub (s.hub.fresh.trigArm n))
    ∧ Runs (.trigArmMask m) s (settle s.hub ((onesOf m.toNat 4).foldl Hub.trigArm s.hub.fresh)))

/-- The Ethernet ports (R338, R341–R345, R351, R354, Tables 13.3 and 13.7): link changes, the checks of a received frame and where it
goes, the classifier's entries and lookup, and the PHY registers.
A clause `Runs c s h` says that the form completes with the effect of the definition that it names, under the row's own conditions alone.
Its clauses rest on these choices of the model: log entries 35, 57 and 63. -/
def Obligations.EthernetPorts : Prop :=
  (∀ (s : State) (p : Fin 4), s.hub.up .eth = true → s.hub.rdB (Reg.EP_STAT p) 0 = true → s.hub.epMode p ≠ 0 →
    s.hub.rdB (Reg.EP_CFG p) 9 = false →
    Ends (.ethLinkDown p false) s [.pins] {Reg.EP_STAT p, Reg.SIT_FAULTN_CNT, Reg.TSC_KITTY_MIN} [.eth, .sit, .tsc] (fun t =>
      t.hub.rdF (Reg.EP_STAT p) 2 0 = 0 ∧ t.hub.raw .eth (4 * p) = true ∧ bit (t.hub.hdr .eth).sticky 0 = true
      ∧ bit (t.hub.hdr .eth).live 0 = true))
  ∧ (∀ (s : State) (p : Fin 4), s.hub.up .eth = true → s.hub.rdB (Reg.EP_STAT p) 0 = false → s.hub.epMode p = 2 →
    s.hub.refsReady (9 + p) = true →
    Ends (.ethLinkUp p true) s [] {Reg.EP_STAT p} [] (fun t =>
      t.hub.rdB (Reg.EP_STAT p) 5 = true ∧ t.hub.rdB (Reg.EP_STAT p) 0 = false)
    ∧ Ends (.ethLinkUp p false) s [] ({Reg.EP_STAT p} ∪ laneStats) [.eth] (fun t =>
      t.hub.rdF (Reg.EP_STAT p) 2 0 = 7 ∧ t.hub.rdB (Reg.EP_STAT p) 5 = false ∧ t.hub.raw .eth (4 * p) = true))
  ∧ (∀ (s : State) (p : Fin 4) (b : List Byte) (fr : BitVec 4) (back : Nat), s.hub.works .eth = true →
    s.hub.rdB (Reg.EP_STAT p) 0 = true →
    Ends (.ethFrameRx p b false false back fr none) s [.pins, .pmc] ({Reg.EP_RX_FCS p, Reg.SIT_FAULTN_CNT, Reg.TSC_KITTY_MIN} ∪ pmcRegs)
      [.eth, .pmc, .sit, .tsc] (fun t =>
      t.hub.rd (Reg.EP_RX_FCS p) = incHold (s.hub.rd (Reg.EP_RX_FCS p)) ∧ t.hub.raw .eth (4 * p + 1) = true
      ∧ bit (t.hub.hdr .eth).sticky 1 = true))
  ∧ (∀ (s : State) (p : Fin 4) (b : List Byte) (code : Bool) (fr : BitVec 4) (back : Nat), s.hub.works .eth = true →
    s.hub.rdB (Reg.EP_STAT p) 0 = true → b.length < 60 →
    Ends (.ethFrameRx p b true code back fr none) s [.pmc] ({Reg.EP_RX_LEN p, Reg.TSC_KITTY_MIN} ∪ pmcRegs) [.eth, .pmc, .tsc] (fun t =>
      t.hub.rd (Reg.EP_RX_LEN p) = incHold (s.hub.rd (Reg.EP_RX_LEN p)) ∧ t.hub.raw .eth (4 * p + 1) = true))
  ∧ (∀ (s : State) (p : Fin 4) (b : List Byte) (fr : BitVec 4) (back : Nat), s.hub.works .eth = true →
    s.hub.rdB (Reg.EP_STAT p) 0 = true → 60 ≤ b.length → b.length + 4 ≤ clampN 64 9600 (s.hub.rdF (Reg.EP_MAXLEN p) 13 0) →
    Ends (.ethFrameRx p b true true back fr none) s [.pmc] ({Reg.EP_RX_CODE p, Reg.TSC_KITTY_MIN} ∪ pmcRegs) [.eth, .pmc, .tsc] (fun t =>
      t.hub.rd (Reg.EP_RX_CODE p) = incHold (s.hub.rd (Reg.EP_RX_CODE p)) ∧ t.hub.raw .eth (4 * p + 1) = true))
  ∧ (∀ (s : State) (p : Fin 4) (b : List Byte) (fr : BitVec 4) (back : Nat), s.hub.works .eth = true →
    s.hub.rdB (Reg.EP_STAT p) 0 = true → 60 ≤ b.length → b.length + 4 ≤ clampN 64 9600 (s.hub.rdF (Reg.EP_MAXLEN p) 13 0) →
    s.hub.rdB (Reg.EP_CFG p) 8 = false → beVal ((b.drop 12).take 2) = 0x8808 →
    Ends (.ethFrameRx p b true false back fr none) s [.pmc] ({Reg.EP_RX_CTRL p, Reg.TSC_KITTY_MIN} ∪ pmcRegs) [.pmc, .tsc] (fun t =>
      t.hub.rd (Reg.EP_RX_CTRL p) = incHold (s.hub.rd (Reg.EP_RX_CTRL p))))
  ∧ (∀ (s : State) (p : Fin 4) (b : List Byte) (fr : BitVec 4) (back : Nat), s.hub.works .eth = true →
    s.hub.rdB (Reg.EP_STAT p) 0 = true → 60 ≤ b.length → b.length + 4 ≤ clampN 64 9600 (s.hub.rdF (Reg.EP_MAXLEN p) 13 0) →
    s.hub.rdB (Reg.EP_CFG p) 8 = false → beVal ((b.drop 12).take 2) ≠ 0x8808 → s.hub.rdB (Reg.EP_CFG p) 6 = true →
    s.hub.clsFind p (beVal (b.take 6)) (s.hub.ethTag p b).1 (s.hub.ethTag p b).2 none = none →
    Ends (.ethFrameRx p b true false back fr none) s [.pmc] ({Reg.EP_RX_MISS p, Reg.TSC_KITTY_MIN} ∪ pmcRegs) [.eth, .pmc, .tsc] (fun t =>
      t.hub.rd (Reg.EP_RX_MISS p) = incHold (s.hub.rd (Reg.EP_RX_MISS p)) ∧ t.hub.raw .eth (4 * p + 1) = true))
  ∧ (∀ (s : State) (p : Fin 4) (b : List Byte) (fr : BitVec 4) (back i f k : Nat), s.hub.works .eth = true →
    s.hub.rdB (Reg.EP_STAT p) 0 = true → 60 ≤ b.length → b.length + 4 ≤ clampN 64 9600 (s.hub.rdF (Reg.EP_MAXLEN p) 13 0) →
    s.hub.rdB (Reg.EP_CFG p) 8 = false → beVal ((b.drop 12).take 2) ≠ 0x8808 →
    s.hub.clsFind p (beVal (b.take 6)) (s.hub.ethTag p b).1 (s.hub.ethTag p b).2 none = some i → f = fld (s.hub.rd (clsAddr i 2)) 23 0 →
    s.hub.admits (9 + p) f (4 + b.length) k = true →
    Ends (.ethFrameRx p b true false back fr none) s sendParts (sendRegs ∪ {Reg.EP_RX_FRAMES p}) sendBlocks (fun t =>
      t.hub.rd (Reg.EP_RX_FRAMES p) = incHold (s.hub.rd (Reg.EP_RX_FRAMES p)) ∧ (t.hub.ctx k).inseq = ((s.hub.ctx k).inseq + 1) % 65536))
  ∧ (∀ (s : State) (i : Fin 4096) (v : Word), s.hub.up .eth = true →
    Ends (.clsEntryWrite i 0 v) s [] {clsAddr i 0, Reg.ETH_CLS_STAT} [] (fun t => t.hub.rd (clsAddr i 0) = v)
    ∧ Ends (.clsEntryWrite i 1 v) s [] {clsAddr i 1, Reg.ETH_CLS_STAT} [] (fun t => t.hub.rd (clsAddr i 1) = v &&& 0x0FFFFFFF)
    ∧ Ends (.clsEntryWrite i 2 v) s [] {clsAddr i 2, Reg.ETH_CLS_STAT} [] (fun t => t.hub.rd (clsAddr i 2) = v &&& 0x00FFFFFF)
    ∧ Ends (.clsEntryWrite i 3 v) s [] {clsAddr i 3, Reg.ETH_CLS_STAT} [] (fun t => t.hub.rd (clsAddr i 3) = v &&& 0x00007FFF
      ∧ t.hub.rd Reg.ETH_CLS_STAT = w32 t.hub.clsValid.length))
  ∧ (∀ (s : State) (i : Nat), s.hub.opRunning .eth 0x11 = true → s.hub.present .eth = true →
    s.hub.clsFind (fld (s.hub.arg .eth 0) 1 0) ((s.hub.arg .eth 1).toNat + fld (s.hub.arg .eth 2) 15 0 * 2 ^ 32)
      (fld (s.hub.arg .eth 0) 27 16) (fld (s.hub.arg .eth 0) 14 12) none = some i →
    Ends (.clsLookup none) s [] ∅ [.eth] (fun t =>
      (t.hub.mbx .eth).result = some (mbxOk [w32 i, w32 (fld (s.hub.rd (clsAddr i 2)) 23 0)])))
  ∧ (∀ s : State, s.hub.opRunning .eth 0x11 = true → s.hub.present .eth = true →
    s.hub.clsFind (fld (s.hub.arg .eth 0) 1 0) ((s.hub.arg .eth 1).toNat + fld (s.hub.arg .eth 2) 15 0 * 2 ^ 32)
      (fld (s.hub.arg .eth 0) 27 16) (fld (s.hub.arg .eth 0) 14 12) none = none →
    Ends (.clsLookup none) s [.free] ∅ [.eth] (fun t =>
      (t.hub.mbx .eth).result = some (mbxOk [0x1FFF, s.hub.draw.1 &&& 0x00FFFFFF])))
  ∧ (∀ (s : State) (a : BitVec 16), s.hub.opRunning .eth 0x10 = true → s.hub.present .eth = true → bit (s.hub.arg .eth 0) 0 = true →
    Ends (.mdioXfer a) s [] ∅ [.eth] (fun t =>
      t.hub.out = [.packet 9 0x30 (leBytes 4 (s.hub.arg .eth 0).toNat ++ leBytes 2 (fld (s.hub.arg .eth 1) 15 0))]
      ∧ (t.hub.mbx .eth).result = some (mbxOk (if 2 ≤ fld (s.hub.arg .eth 0) 2 1 then [a.setWidth 32] else []))))
  ∧ (∀ (s : State) (p : Fin 4) (cut : Bool), s.hub.up .eth = true → s.hub.rdB (Reg.EP_STAT p) 0 = true →
    Runs (.ethLinkDown p cut) s (settle s.hub (s.hub.fresh.tscWatch (s.hub.fresh.epDown p cut))))
  ∧ (∀ (s : State) (p : Fin 4) (bad : Bool), s.hub.up .eth = true → s.hub.epMode p ≠ 0 → s.hub.rdB (Reg.EP_STAT p) 0 = false →
    s.hub.refsReady (9 + p) = true → Runs (.ethLinkUp p bad) s (settle s.hub (s.hub.fresh.epUp p bad)))
  ∧ (∀ (s : State) (p : Fin 4) (b : List Byte) (fcs code : Bool) (back : Nat) (fr : BitVec 4) (e : Option (Fin 4096)),
    s.hub.works .eth = true → s.hub.rdB (Reg.EP_STAT p) 0 = true →
    Runs (.ethFrameRx p b fcs code back fr e) s (settle s.hub (s.hub.fresh.tscWatch (s.hub.fresh.ethRx p b fcs code
      ((s.hub.stamp16 : Int) - 16 * back - fr.toNat) (e.map fun (x : Fin 4096) => x.val)))))
  ∧ (∀ (s : State) (i : Fin 4096) (w : Fin 4) (v : Word), s.hub.up .eth = true →
    Runs (.clsEntryWrite i w v) s (settle s.hub (s.hub.fresh.clsWrite i w v)))
  ∧ (∀ (s : State) (e : Option (Fin 4096)), s.hub.opRunning .eth 0x11 = true →
    Runs (.clsLookup e) s (settle s.hub (s.hub.fresh.runOp .eth 0x11 fun h => h.clsLookupOp e)))
  ∧ (∀ (s : State) (a : BitVec 16), s.hub.opRunning .eth 0x10 = true →
    Runs (.mdioXfer a) s (settle s.hub (s.hub.fresh.runOp .eth 0x10 fun h => h.mdioOp a)))

/-- The bridge as initiator (R357, R363, R365–R373, R375, R377, R378): requests through windows, completions that come back, late errors,
timeouts, messages of device and pins, the prefetch buffer's age, the link, and a configuration transfer.
A clause `Runs c s h` says that the form completes with the effect of the definition that it names, under the row's own conditions alone.
Its clauses rest on these choices of the model: log entries 36 and 46. -/
def Obligations.BridgeRequests : Prop :=
  (∀ (s : State) (r : PcieReq), s.hub.works .pxb = true → s.hub.pxLink = true → s.hub.mainUp = true → s.hub.role = .root → r.bar = 4 →
    s.hub.aliasPage r.addr = false → s.hub.pwOf r.addr = none → r.write = false →
    Ends (.pcieRequestRx r) s [] {Reg.PX_UR_IN, Reg.TSC_KITTY_MIN} [.pxb, .tsc] (fun t =>
      t.hub.rd Reg.PX_UR_IN = incHold (s.hub.rd Reg.PX_UR_IN) ∧ t.hub.raw .pxb 6 = true ∧ t.hub.out = [.tlp (.cpl r.tag 1 false [])]))
  ∧ (∀ (s : State) (r : PcieReq) (w k : Nat), s.hub.works .pxb = true → s.hub.pxLink = true → s.hub.mainUp = true → s.hub.role = .root →
    r.bar = 4 → s.hub.aliasPage r.addr = false → s.hub.pwOf r.addr = some w → s.hub.pwFits w r = true →
    Tab.find s.hub.pxb.npwBy w = none → s.hub.rdB (Reg.PW_STAT w) 0 = false → Tab.find s.hub.pxb.pf w = none → s.hub.pwRoute w = true →
    r.write = true → s.hub.pwKind w true = 1 → s.hub.lookup (s.hub.rdF (Reg.PW_FLOW_P w) 23 0) = .resident k →
    s.hub.admits 0x0D (s.hub.rdF (Reg.PW_FLOW_P w) 23 0) (32 + r.data.length) k = true →
    Ends (.pcieRequestRx r) s sendParts (sendRegs ∪ {Reg.PW_REQS w}) sendBlocks (fun t =>
      t.hub.rd (Reg.PW_REQS w) = incHold (s.hub.rd (Reg.PW_REQS w)) ∧ (t.hub.ctx k).inseq = ((s.hub.ctx k).inseq + 1) % 65536))
  ∧ (∀ (s : State) (w : Nat) (r : PcieReq) (l : List (Nat × PcieReq)) (k j : Nat), s.hub.works .pxb = true → s.hub.pxb.npWait = (w, r) :: l →
    s.hub.pwKind w r.write = 4 → s.hub.npReady r.len = true → r.write = false →
    s.hub.lookup (s.hub.rdF (Reg.PW_FLOW_P w) 23 0) = .resident j → s.hub.admits 0x0D (s.hub.rdF (Reg.PW_FLOW_N w) 23 0) 32 k = true →
    Ends .npReserveGrant s (.pxb :: sendParts) (sendRegs ∪ {Reg.PW_REQS w}) sendBlocks (fun t =>
      t.hub.pxb.npWait = l ∧ t.hub.rd (Reg.PW_REQS w) = incHold (s.hub.rd (Reg.PW_REQS w))
      ∧ (t.hub.ctx k).inseq = ((s.hub.ctx k).inseq + 1) % 65536
      ∧ Tab.find t.hub.pxb.pend (((gaps 128 (Tab.keys s.hub.pxb.pend) 0 1).head?).getD 0)
        = some ⟨w, r.tag, 4, r.addr, r.len, 0, 0, [], resvCells r.len, s.hub.mono⟩))
  ∧ (∀ (s : State) (f : ExitFrame) (l : List ExitFrame) (r : Nat) (p : PxPend), s.hub.up .pxb = true → s.hub.pxb.inbox = f :: l →
    brGood f.bytes = true → brF f.bytes 0 1 = 6 → s.hub.pxStalled f.flow = false → s.hub.markMet f.bytes = true → s.hub.pxb.held = [] →
    r = brF f.bytes 2 2 → Tab.find s.hub.pxb.pend r = some p → p.kind = 4 → brF f.bytes 7 1 = 0 → s.hub.pxLink = true →
    s.hub.pxb.npwHeld = [] →
    Ends .bridgeCplRx s [.pxb, .pmc] ({Reg.TSC_KITTY_MIN} ∪ blockRegs .pmc) [.pmc, .tsc] (fun t =>
      t.hub.pxb.inbox = l ∧ Tab.find t.hub.pxb.pend r = none ∧ t.hub.out = [.tlp (.cpl p.reqTag 0 false (brData f.bytes))]))
  ∧ (∀ (s : State) (f : ExitFrame) (l : List ExitFrame) (w : Nat), s.hub.up .pxb = true → s.hub.pxb.inbox = f :: l →
    brGood f.bytes = true → brF f.bytes 0 1 = 8 → brLen f.bytes = 24 → s.hub.pxStalled f.flow = false →
    w = fld (imgWord (brData f.bytes) 0) 2 0 → s.hub.rdB (Reg.PW_CFG w) 4 = true →
    Ends .lateFrameRx s [.pxb, .pins] ({a | ∃ i ∈ List.range 128, a = Reg.PX_LATE_RING i} ∪ {Reg.PX_LATE_HEAD, Reg.PW_LATE w, Reg.PW_STAT w,
        Reg.SIT_FAULTN_CNT, Reg.TSC_KITTY_MIN}) [.pxb, .sit, .tsc] (fun t =>
      t.hub.pxb.inbox = l ∧ t.hub.rd (Reg.PW_LATE w) = incHold (s.hub.rd (Reg.PW_LATE w)) ∧ t.hub.rdB (Reg.PW_STAT w) 0 = true
      ∧ t.hub.raw .pxb 1 = true ∧ t.hub.raw .pxb 2 = true ∧ bit (t.hub.hdr .pxb).sticky 0 = true
      ∧ t.hub.rdF Reg.PX_LATE_HEAD 3 0 = (s.hub.rdF Reg.PX_LATE_HEAD 3 0 + 1) % 16))
  ∧ (∀ (s : State) (r : Fin 128) (p : PxPend), s.hub.up .pxb = true → s.hub.pxLink = true → Tab.find s.hub.pxb.pend r = some p →
    p.kind = 4 → s.hub.pxb.npwHeld = [] → p.since + s.hub.pxTunTmo ≤ s.hub.mono →
    Ends (.tunnelTimeout r) s [.pxb, .pmc] ({Reg.PX_TUN_TMO_CNT, Reg.TSC_KITTY_MIN} ∪ blockRegs .pmc) [.pxb, .pmc, .tsc] (fun t =>
      t.hub.rd Reg.PX_TUN_TMO_CNT = incHold (s.hub.rd Reg.PX_TUN_TMO_CNT) ∧ t.hub.raw .pxb 5 = true
      ∧ Tab.find t.hub.pxb.pend r = none ∧ t.hub.out = [.tlp (.cpl p.reqTag 4 false [])]))
  ∧ (∀ (s : State) (w : Nat) (c : Fin 5) (d : Word) (k : Nat), s.hub.works .pxb = true → s.hub.role = .leaf → s.hub.pxLink = true →
    s.hub.rdB Reg.PX_CFG 7 = true → w = s.hub.rdF Reg.PX_CFG 10 8 → s.hub.admits 0x0D (s.hub.rdF (Reg.PW_FLOW_P w) 23 0) 48 k = true →
    Ends (.msiCapture c d) s sendParts sendRegs sendBlocks (fun t => (t.hub.ctx k).inseq = ((s.hub.ctx k).inseq + 1) % 65536))
  ∧ (∀ (s : State) (w : Nat) (n : Fin 8) (k : Nat), s.hub.mainUp = true → s.hub.works .pxb = true → s.hub.pins.gpio.testBit n = false →
    s.hub.rdB Reg.PX_GPIO_CFG n = true →
    s.hub.rdB Reg.PX_CFG 7 = true → w = s.hub.rdF Reg.PX_CFG 10 8 → s.hub.admits 0x0D (s.hub.rdF (Reg.PW_FLOW_P w) 23 0) 48 k = true →
    Ends (.gpioEdge n true) s sendParts sendRegs sendBlocks (fun t => (t.hub.ctx k).inseq = ((s.hub.ctx k).inseq + 1) % 65536
      ∧ t.hub.pins.gpio = s.hub.pins.gpio ||| 2 ^ n.val))
  ∧ (∀ (s : State) (w : Fin 8) (b : PfBuf), s.hub.up .pxb = true → Tab.find s.hub.pxb.pf w = some b →
    b.unread.all (fun x => !x) = true → b.since + s.hub.pfAge w ≤ s.hub.mono →
    Ends (.prefetchAgeExpire w) s [.pxb] ∅ [] (fun t => t.hub.pxb = { s.hub.pxb with pf := Tab.del s.hub.pxb.pf w }))
  ∧ (∀ (s : State) (w : Fin 8) (b : PfBuf), s.hub.up .pxb = true → Tab.find s.hub.pxb.pf w = some b →
    b.unread.any (fun x => x) = true → s.hub.pxb.pfSet = false → b.since + s.hub.pfAge w ≤ s.hub.mono →
    Ends (.prefetchAgeExpire w) s [.pxb, .wide] {Reg.PX_PF_DISCARD} [.pxb] (fun t =>
      t.hub.pxb = { s.hub.pxb with pf := Tab.del s.hub.pxb.pf w, pfSet := true } ∧ t.hub.raw .pxb 7 = true
      ∧ t.hub.rd Reg.PX_PF_DISCARD = incHold (s.hub.rd Reg.PX_PF_DISCARD) (b.unread.filter id).length
      ∧ t.hub.rdWide Reg.PX_PF_FIRST_LO = b.addr + b.unread.idxOf true))
  ∧ (∀ (s : State) (mps : Nat), s.hub.up .pxb = true → s.hub.pxLink = false → s.hub.role = .root → s.hub.storeOn = false →
    bit (s.hub.hdr .fcm).live 1 = false → s.hub.paging.ins = [] → s.hub.paging.waits = [] → s.hub.rdF Reg.PX_CFG 2 0 = 4 →
    s.hub.refsReady 0x0D = true → (s.hub.portLanes 0x0D).isEmpty = false →
    Ends (.pcieLinkUp 3 4 mps true true) s [.paging, .pxb] ({Reg.PX_STAT, Reg.TS_BYTE_TIME 0x0D, Reg.TS_CAP 0x0D, Reg.TSC_KITTY_MIN}
        ∪ blockRegs .lnx) [.pxb, .tsc] (fun t =>
      t.hub.rd Reg.PX_STAT = 0x1C7 ∧ t.hub.raw .pxb 9 = true ∧ bit (t.hub.hdr .pxb).live 2 = false
      ∧ t.hub.pxb.mps = clampN 128 512 mps ∧ t.hub.rdF (Reg.TS_CAP 0x0D) 20 0 = 31504))
  ∧ (∀ s : State, s.hub.up .pxb = true → s.hub.pxLink = true → s.hub.role = .root → s.hub.storeOn = false →
    bit (s.hub.hdr .fcm).live 1 = false → s.hub.paging.ins = [] → s.hub.paging.waits = [] → s.hub.tags = [] → s.hub.pxb.far = [] →
    s.hub.pageq = [] →
    Ends .pcieLinkDown s [.paging, .pxb, .wide, .pins] ({Reg.PX_STAT, Reg.TS_BYTE_TIME 0x0D, Reg.TS_CAP 0x0D, Reg.TSC_KITTY_MIN,
        Reg.PX_PF_DISCARD, Reg.SIT_FAULTN_CNT} ∪ {a | ∃ w ∈ List.range 8, a = Reg.PW_STAT w}) [.pxb, .sit, .tsc] (fun t =>
      t.hub.rd Reg.PX_STAT = 0 ∧ t.hub.raw .pxb 9 = true ∧ bit (t.hub.hdr .pxb).live 2 = true ∧ bit (t.hub.hdr .pxb).sticky 2 = true
      ∧ t.hub.pxb.pend = [] ∧ t.hub.pxb.npWait = [] ∧ t.hub.rdF (Reg.TS_CAP 0x0D) 20 0 = 0))
  ∧ (∀ (s : State) (x : Nat), s.hub.opRunning .pxb 0x10 = true → s.hub.present .pxb = true → s.hub.role = .leaf → s.hub.pxLink = true →
    s.hub.arg .pxb 0 = 0x00100004 → s.hub.pxb.cfgWait = false → s.hub.tags = [] → s.hub.freeTag = some x →
    Ends .cfgXfer s [.tags, .pxb] ∅ [] (fun t => t.hub.tags = [(x, .cfg)] ∧ (t.hub.mbx .pxb).result = none
      ∧ t.hub.out = [.tlp (.cfgRd x (cfgType 0x00100004) 0x00100004 (fld (s.hub.arg .pxb 2) 3 0))]))
  ∧ (∀ (s : State) (r : PcieReq), s.hub.works .pxb = true → s.hub.pxLink = true → s.hub.mainUp = true →
    Runs (.pcieRequestRx r) s (s.hub.pcieIn r))
  ∧ (∀ s : State, s.hub.works .pxb = true → s.hub.npNext.isSome = true →
    Runs .npReserveGrant s (settle s.hub (s.hub.fresh.tscWatch s.hub.fresh.npGrant)))
  ∧ (∀ s : State, s.hub.pxRow [6] = true → Runs .bridgeCplRx s (settle s.hub (s.hub.fresh.tscWatch s.hub.fresh.pxStep)))
  ∧ (∀ s : State, s.hub.pxRow [8] = true → Runs .lateFrameRx s (settle s.hub (s.hub.fresh.tscWatch s.hub.fresh.pxStep)))
  ∧ (∀ (s : State) (r : Fin 128) (p : PxPend), s.hub.up .pxb = true → Tab.find s.hub.pxb.pend r = some p →
    p.since + s.hub.pxTunTmo ≤ s.hub.mono →
    Runs (.tunnelTimeout r) s (settle s.hub (s.hub.fresh.tscWatch (((s.hub.fresh.inc Reg.PX_TUN_TMO_CNT).attn .pxb 5).pendAbort r))))
  ∧ (∀ (s : State) (c : Fin 5) (d : Word), s.hub.works .pxb = true → s.hub.role = .leaf → s.hub.pxLink = true →
    Runs (.msiCapture c d) s (settle s.hub (s.hub.fresh.tscWatch (s.hub.fresh.pxMessage c d))))
  ∧ (∀ (s : State) (n : Fin 8) (v : Bool), s.hub.mainUp = true → s.hub.pins.gpio.testBit n ≠ v →
    Runs (.gpioEdge n v) s (settle s.hub (s.hub.fresh.tscWatch (s.hub.fresh.gpioTo n v))))
  ∧ (∀ (s : State) (w : Fin 8) (b : PfBuf), s.hub.up .pxb = true → Tab.find s.hub.pxb.pf w = some b → b.since + s.hub.pfAge w ≤ s.hub.mono →
    Runs (.prefetchAgeExpire w) s (settle s.hub (s.hub.fresh.pfDiscard w)))
  ∧ (∀ (s : State) (sp wd : BitVec 3) (mps : Nat) (bm ms : Bool), s.hub.up .pxb = true → s.hub.pxLink = false →
    s.hub.refsReady 0x0D = true → (s.hub.portLanes 0x0D).isEmpty = false →
    Runs (.pcieLinkUp sp wd mps bm ms) s (settle s.hub (s.hub.fresh.tscWatch (s.hub.fresh.pcieUp sp wd mps bm ms))))
  ∧ (∀ s : State, s.hub.up .pxb = true → s.hub.pxLink = true → Runs .pcieLinkDown s (settle s.hub (s.hub.fresh.tscWatch s.hub.fresh.pcieDown)))
  ∧ (∀ s : State, s.hub.opRunning .pxb 0x10 = true → Runs .cfgXfer s (settle s.hub (s.hub.fresh.runOp .pxb 0x10 Hub.cfgOp)))


/-- The bridge as completer (R360–R364, R366–R368, R370): posted frames are carried out in order, non-posted ones wait for their mark or
its timeout, tags are granted, completed or time out, and messages enter the queue and leave it.
A clause `Runs c s h` says that the form completes with the effect of the definition that it names, under the row's own conditions alone.
Its clauses rest on these choices of the model: log entries 6, 13, 36 and 46. -/
def Obligations.BridgeService : Prop :=
  (∀ (s : State) (f : ExitFrame) (l : List ExitFrame), s.hub.up .pxb = true → s.hub.pxb.inbox = f :: l → s.hub.pxStalled f.flow = false →
    brGood f.bytes = false → s.hub.lookup f.flow = .miss →
    Ends .bridgeFrameRx s [.pxb, .paging] {Reg.PX_BAD_FRAME, Reg.TSC_KITTY_MIN} [.tsc] (fun t =>
      t.hub.pxb = { s.hub.pxb with inbox := l } ∧ t.hub.rd Reg.PX_BAD_FRAME = incHold (s.hub.rd Reg.PX_BAD_FRAME)))
  ∧ (∀ (s : State) (f : ExitFrame) (l : List ExitFrame), s.hub.works .pxb = true → s.hub.pxb.inbox = f :: l →
    s.hub.pxStalled f.flow = false → brGood f.bytes = true → brF f.bytes 0 1 = 1 →
    s.hub.accOk (brF f.bytes 8 8) (brLen f.bytes) = true → s.hub.pxMaster = true → 1 ≤ brLen f.bytes →
    brLen f.bytes ≤ s.hub.pxb.mps → brF f.bytes 8 8 % 4096 + brLen f.bytes ≤ 4096 →
    Ends .bridgeFrameRx s [.pxb] {Reg.TSC_KITTY_MIN} [.tsc] (fun t => t.hub.pxb = { s.hub.pxb with inbox := l }
      ∧ t.hub.out = [.tlp (.memWr (brF f.bytes 8 8) (brF f.bytes 6 1 % 16) (brF f.bytes 6 1 / 16) (brData f.bytes))]))
  ∧ (∀ (s : State) (f : ExitFrame) (l : List ExitFrame), s.hub.up .pxb = true → s.hub.pxb.inbox = f :: l →
    s.hub.pxStalled f.flow = false → brGood f.bytes = true → brF f.bytes 0 1 = 3 →
    Hub.markMet { s.hub with pxb := { s.hub.pxb with inbox := l } } f.bytes = false →
    Ends .bridgeFrameRx s [.pxb] {Reg.TSC_KITTY_MIN} [.tsc] (fun t =>
      t.hub.pxb = { s.hub.pxb with inbox := l, held := s.hub.pxb.held ++ [(f, s.hub.mono)] }))
  ∧ (∀ (s : State) (f : ExitFrame) (since x a : Nat), s.hub.works .pxb = true → s.hub.pxb.held = [(f, since)] → s.hub.pxb.far = [] →
    brF f.bytes 0 1 = 3 → a = brF f.bytes 8 8 → s.hub.pxMaster = true → s.hub.accOk a (brLen f.bytes) = true → 1 ≤ brLen f.bytes →
    brLen f.bytes ≤ s.hub.mrrs → a % 4096 + brLen f.bytes ≤ 4096 → s.hub.freeTag = some x →
    since + 1000000 ≤ s.hub.mono →
    Ends .bridgeMarkTimeout s [.pxb, .tags] {Reg.PX_BAR_LATE, Reg.TSC_KITTY_MIN} [.pxb, .tsc] (fun t =>
      t.hub.rd Reg.PX_BAR_LATE = incHold (s.hub.rd Reg.PX_BAR_LATE) ∧ t.hub.raw .pxb 10 = true ∧ t.hub.pxb.held = []
      ∧ Tab.find t.hub.tags x = some (.bridge s.hub.pxb.nextFar 0)
      ∧ t.hub.out = [.tlp (.memRd x a (brLen f.bytes) (brF f.bytes 6 1 % 16) (brF f.bytes 6 1 / 16))]))
  ∧ (∀ (s : State) (f : ExitFrame) (since x a : Nat), s.hub.works .pxb = true → s.hub.pxb.held = [(f, since)] → s.hub.pxb.far = [] →
    brF f.bytes 0 1 = 3 → a = brF f.bytes 8 8 → s.hub.pxMaster = true → s.hub.accOk a (brLen f.bytes) = true → 1 ≤ brLen f.bytes →
    brLen f.bytes ≤ s.hub.mrrs → a % 4096 + brLen f.bytes ≤ 4096 → s.hub.freeTag = some x → s.hub.markMet f.bytes = true →
    Ends .bridgeMarkMet s [.pxb, .tags] {Reg.TSC_KITTY_MIN} [.tsc] (fun t => t.hub.pxb.held = []
      ∧ Tab.find t.hub.tags x = some (.bridge s.hub.pxb.nextFar 0)
      ∧ t.hub.out = [.tlp (.memRd x a (brLen f.bytes) (brF f.bytes 6 1 % 16) (brF f.bytes 6 1 / 16))]))
  ∧ (∀ (s : State) (x : Nat) (r : PageReq), s.hub.up .pxb = true → s.hub.pageq = [r] → r.image = none → s.hub.hostUp = true →
    s.hub.freeTag = some x → s.hub.pageTagsUsed < s.hub.pageTags → s.hub.pxb.far = [] → s.hub.pxb.cfgWait = false →
    Ends .tagGrant s [.tags, .pxb, .pageq] {Reg.TSC_KITTY_MIN} [.tsc] (fun t => t.hub.pageq = [] ∧ Tab.find t.hub.tags x = some (.page r)
      ∧ t.hub.out = [.tlp (.memRd x r.addr 256 15 15)]))
  ∧ (∀ (s : State) (g : BitVec 8) (st : CplStatus) (d : List Byte), s.hub.up .pxb = true → s.hub.pxLink = true →
    Tab.find s.hub.tags g.toNat = none →
    Ends (.pcieCompletionRx g st d) s [] {Reg.PX_CPL_STRAY, Reg.TSC_KITTY_MIN} [.tsc] (fun t =>
      t.hub.rd Reg.PX_CPL_STRAY = incHold (s.hub.rd Reg.PX_CPL_STRAY)))
  ∧ (∀ (s : State) (g : BitVec 8) (d : List Byte), s.hub.up .pxb = true → s.hub.pxLink = true → Tab.find s.hub.tags g.toNat = some .cfg →
    s.hub.opRunning .pxb 0x10 = true →
    Ends (.pcieCompletionRx g .ok d) s [.tags] {Reg.TSC_KITTY_MIN} [.pxb, .tsc] (fun t => Tab.find t.hub.tags g.toNat = none
      ∧ (t.hub.mbx .pxb).result = some (mbxOk [imgWord (d ++ [0, 0, 0, 0]) 0, 0])))
  ∧ (∀ (s : State) (g : BitVec 8), s.hub.up .pxb = true → s.hub.tagExpired g.toNat = true → Tab.find s.hub.tags g.toNat = some .cfg →
    s.hub.opRunning .pxb 0x10 = true →
    Ends (.completionTimeout g) s [.tags, .pins] {Reg.PX_CTO_CNT, Reg.SIT_FAULTN_CNT, Reg.TSC_KITTY_MIN} [.pxb, .sit, .tsc] (fun t =>
      Tab.find t.hub.tags g.toNat = none ∧ t.hub.rd Reg.PX_CTO_CNT = incHold (s.hub.rd Reg.PX_CTO_CNT) ∧ t.hub.raw .pxb 4 = true
      ∧ bit (t.hub.hdr .pxb).sticky 1 = true ∧ (t.hub.mbx .pxb).result = some (mbxErr 7)))
  ∧ (∀ (s : State) (f : ExitFrame) (l : List ExitFrame) (i : Nat), s.hub.up .pxb = true → s.hub.pxb.inbox = f :: l →
    s.hub.pxStalled f.flow = false → brGood f.bytes = true → brF f.bytes 0 1 = 7 → brLen f.bytes = 16 →
    s.hub.rdF Reg.PX_MQ_STAT 24 16 = 0 → i = s.hub.rdF Reg.PX_MQ_STAT 7 0 →
    Ends .msgFrameRx s [.pxb] ({a | ∃ k ∈ List.range 4, a = Reg.PX_MQ (4 * i + k)} ∪ {Reg.PX_MQ_STAT, Reg.TSC_KITTY_MIN}) [.tsc] (fun t =>
      t.hub.pxb = { s.hub.pxb with inbox := l, mqIn := s.hub.pxb.mqIn + 1 } ∧ t.hub.rdF Reg.PX_MQ_STAT 24 16 = 1
      ∧ (∀ k ∈ List.range 4, t.hub.rd (Reg.PX_MQ (4 * i + k)) = (mqWords f.bytes).getD k 0)))
  ∧ (∀ (s : State) (n : BitVec 9), s.hub.up .pxb = true → s.hub.pxb.stalled = [] → s.hub.rdF Reg.PX_MQ_STAT 24 16 ≤ 256 →
    Ends (.mqPop n) s [] {Reg.PX_MQ_STAT, Reg.TSC_KITTY_MIN} [.tsc] (fun t =>
      t.hub.rdF Reg.PX_MQ_STAT 7 0 = (s.hub.rdF Reg.PX_MQ_STAT 7 0 + min n.toNat (s.hub.rdF Reg.PX_MQ_STAT 24 16)) % 256
      ∧ t.hub.rdF Reg.PX_MQ_STAT 24 16 = s.hub.rdF Reg.PX_MQ_STAT 24 16 - min n.toNat (s.hub.rdF Reg.PX_MQ_STAT 24 16)))
  ∧ (∀ s : State, s.hub.pxRow [0, 1, 2, 3, 4, 5] = true → Runs .bridgeFrameRx s (settle s.hub (s.hub.fresh.tscWatch s.hub.fresh.pxStep)))
  ∧ (∀ s : State, s.hub.pxRow [7] = true → Runs .msgFrameRx s (settle s.hub (s.hub.fresh.tscWatch s.hub.fresh.pxStep)))
  ∧ (∀ (s : State) (f : ExitFrame) (since : Nat) (l : List (ExitFrame × Nat)), s.hub.up .pxb = true → s.hub.pxb.held = (f, since) :: l →
    since + 1000000 ≤ s.hub.mono → Runs .bridgeMarkTimeout s (settle s.hub (s.hub.fresh.tscWatch s.hub.fresh.markLate)))
  ∧ (∀ s : State, s.hub.up .pxb = true → s.hub.heldReady.isSome = true → Runs .bridgeMarkMet s (settle s.hub (s.hub.fresh.tscWatch s.hub.fresh.markMetNext)))
  ∧ (∀ s : State, s.hub.up .pxb = true → s.hub.freeTag.isSome = true →
    (s.hub.pageq ≠ [] ∨ s.hub.farWaiting.isSome = true ∨ s.hub.pxb.cfgWait = true) → Runs .tagGrant s (settle s.hub (s.hub.fresh.tscWatch s.hub.fresh.tagsGranted)))
  ∧ (∀ (s : State) (g : BitVec 8) (st : CplStatus) (d : List Byte), s.hub.up .pxb = true → s.hub.pxLink = true →
    Runs (.pcieCompletionRx g st d) s (settle s.hub (s.hub.fresh.tscWatch (s.hub.fresh.tlpCpl g st d))))
  ∧ (∀ (s : State) (g : BitVec 8), s.hub.up .pxb = true → s.hub.tagExpired g.toNat = true →
    Runs (.completionTimeout g) s (settle s.hub (s.hub.fresh.tscWatch (s.hub.fresh.tagLost g.toNat 3))))
  ∧ (∀ (s : State) (n : BitVec 9), s.hub.up .pxb = true → Runs (.mqPop n) s (settle s.hub (s.hub.fresh.tscWatch (s.hub.fresh.mqPop n.toNat))))

/-- USB's ports, devices and records (R381–R385, R387, R388, R390–R393, R397, Tables 15.3 and 15.8): what happens at a LEAF port, and what
each record that a tunnel brings does at the end that takes it.
A clause `Runs c s h` says that the form completes with the effect of the definition that it names, under the row's own conditions alone.
Its clauses rest on these choices of the model: log entries 8, 37, 46 and 63. -/
def Obligations.UsbPortsAndRecords : Prop :=
  (∀ (s : State) (p : Fin 4) (v : Fin 3), s.hub.leafUp = true → s.hub.upBit p 8 = true → s.hub.upBit p 0 = false → (s.hub.tun 0).up = false →
    Ends (.usbAttach p v) s [] {Reg.UP_STAT p, Reg.TSC_KITTY_MIN} [.usb, .tsc] (fun t =>
      t.hub.upBit p 0 = true ∧ t.hub.upBit p 9 = decide (v = 0) ∧ t.hub.upBit p 10 = false ∧ t.hub.upBit p 16 = true
      ∧ t.hub.upBit p 1 = s.hub.upBit p 1 ∧ t.hub.raw .usb 4 = true))
  ∧ (∀ (s : State) (p : Fin 4) (v : Fin 3) (k : Nat), s.hub.leafUp = true → s.hub.upBit p 8 = true → s.hub.upBit p 0 = false →
    (s.hub.tun 0).up = true → (s.hub.tun 0).waiting = [] → (s.hub.tun 0).unacked.length < s.hub.tunWin 0 →
    s.hub.admits 0x10 (s.hub.tunTx 0) 28 k = true →
    Ends (.usbAttach p v) s (.usb :: sendParts) (sendRegs ∪ {Reg.UP_STAT p}) (.usb :: sendBlocks) (fun t =>
      t.hub.upBit p 0 = true ∧ (t.hub.tun 0).nextTx = ((s.hub.tun 0).nextTx + 1) % 4096
      ∧ (t.hub.tun 0).unacked.length = (s.hub.tun 0).unacked.length + 1 ∧ (t.hub.ctx k).inseq = ((s.hub.ctx k).inseq + 1) % 65536))
  ∧ (∀ (s : State) (p : Fin 4), s.hub.leafUp = true → s.hub.upBit p 0 = true → (s.hub.tun 0).up = false →
    Ends (.usbDeviceDetach p) s [.usb] {Reg.UP_STAT p, Reg.TSC_KITTY_MIN} [.usb, .tsc] (fun t =>
      t.hub.upBit p 0 = false ∧ t.hub.upBit p 1 = false ∧ t.hub.upBit p 16 = true ∧ t.hub.raw .usb 4 = true
      ∧ t.hub.usb.devs.all (fun e => decide (e.2.vport ≠ p.val)) = true)
    ∧ Ends (.usbOvercurrent p) s [.usb, .pins] {Reg.UP_STAT p, Reg.UP_OC p, Reg.SIT_FAULTN_CNT, Reg.TSC_KITTY_MIN} [.usb, .sit, .tsc] (fun t =>
      t.hub.rd (Reg.UP_OC p) = incHold (s.hub.rd (Reg.UP_OC p)) ∧ t.hub.upBit p 3 = true ∧ t.hub.upBit p 19 = true
      ∧ t.hub.upBit p 8 = false ∧ t.hub.raw .usb 11 = true ∧ bit (t.hub.hdr .usb).sticky 0 = true ∧ bit (t.hub.hdr .usb).live 0 = true))
  ∧ (∀ (s : State) (p : Fin 4) (v : Fin 3), s.hub.leafUp = true → s.hub.upBit p 4 = true → (s.hub.tun 0).up = false →
    (s.hub.uport p).resetAt + 10000000 ≤ s.hub.mono →
    Ends (.usbPortResetDone p v) s [.usb] {Reg.UP_STAT p, Reg.UP_RESETS p, Reg.TSC_KITTY_MIN} [.usb, .tsc] (fun t =>
      t.hub.rd (Reg.UP_RESETS p) = incHold (s.hub.rd (Reg.UP_RESETS p)) ∧ t.hub.upBit p 4 = false ∧ t.hub.upBit p 1 = true
      ∧ t.hub.upBit p 9 = decide (v = 0) ∧ t.hub.upBit p 10 = decide (v = 2) ∧ t.hub.upBit p 20 = true
      ∧ t.hub.udev 0 = some { vport := p.val, speed := v.val }))
  ∧ (∀ (s : State) (p : Fin 4), s.hub.leafUp = true → s.hub.upBit p 1 = true → s.hub.upBit p 2 = true → (s.hub.uport p).driving = false →
    (s.hub.tun 0).up = false →
    Ends (.usbRemoteWake p) s [.usb] {Reg.TSC_KITTY_MIN} [.tsc] (fun t => t.hub.uport p = { s.hub.uport p with driving := true, kAt := s.hub.mono }))
  ∧ (∀ (s : State) (p : Fin 4), s.hub.leafUp = true → (s.hub.uport p).driving = true → (s.hub.tun 0).up = false →
    (s.hub.uport p).kAt + 20000000 ≤ s.hub.mono →
    Ends (.usbResumeEnd (some p)) s [.usb] {Reg.UP_STAT p, Reg.TSC_KITTY_MIN} [.usb, .tsc] (fun t =>
      t.hub.uport p = { s.hub.uport p with driving := false } ∧ t.hub.upBit p 2 = false ∧ t.hub.upBit p 18 = true))
  ∧ (∀ s : State, s.hub.rootUp = true → s.hub.rdB Reg.USB_STAT 12 = true → s.hub.rdB Reg.USB_STAT 13 = true → s.hub.usb.hostK = false →
    s.hub.usb.kAt + s.hub.wakeKTime ≤ s.hub.mono →
    Ends (.usbResumeEnd none) s [] {Reg.USB_STAT, Reg.TSC_KITTY_MIN} [.usb, .tsc] (fun t =>
      t.hub.rdB Reg.USB_STAT 12 = false ∧ t.hub.rdB Reg.USB_STAT 13 = false ∧ t.hub.raw .usb 3 = true))
  ∧ (∀ (s : State) (n : Nat), s.hub.leafUp = true → (s.hub.tun 0).up = true → (s.hub.tun 0).suspended = false →
    s.hub.time.reached 125000 = true → n = (s.hub.usb.frame + 1) % 16384 → n % 8 ≠ 0 →
    Ends .leafSof s [.usb] {Reg.TSC_KITTY_MIN} [.tsc] (fun t => t.hub.usb = { s.hub.usb with frame := n }
      ∧ t.hub.out = ((List.range 4).filter fun p => s.hub.upBit p 1 && !s.hub.upBit p 2 && !(s.hub.uport p).driving && s.hub.upBit p 10).map
        fun p => .packet 0x10 0xA5 (leBytes 1 p ++ leBytes 2 (n / 8))))
  ∧ (∀ (s : State) (x : Fin 8) (r : UsbRec) (l : List UsbRec) (d : UsbDev) (e f : UsbEp), s.hub.recIs x 1 = true → s.hub.role = .leaf →
    (s.hub.tun x).arrived = r :: l → s.hub.udev r.dev = some d → s.hub.uep (epKey r.dev 0 false) = some e →
    s.hub.uep (epKey r.dev 0 true) = some f →
    Ends (.setupRecordRx x) s [.usb] {Reg.TSC_KITTY_MIN} [.tsc] (fun t => t.hub.tun x = { s.hub.tun x with arrived := l }
      ∧ t.hub.udev r.dev = some { d with setup := r.data, stage := [], refused := false }
      ∧ t.hub.uep (epKey r.dev 0 false) = some { e with buf := some r.data, setup := true, stall := false, toggle := true }
      ∧ t.hub.uep (epKey r.dev 0 true) = some { f with buf := none, stall := false, toggle := true }))
  ∧ (∀ (s : State) (x : Fin 8) (r : UsbRec) (l : List UsbRec) (e : UsbEp), s.hub.recIs x 2 = true → s.hub.role = .leaf →
    (s.hub.tun x).arrived = r :: l → s.hub.uep (epKey r.dev r.ep false) = some e →
    Ends (.outRecordRx x) s [.usb] {Reg.TSC_KITTY_MIN} [.tsc] (fun t => t.hub.tun x = { s.hub.tun x with arrived := l }
      ∧ t.hub.uep (epKey r.dev r.ep false) = some { e with buf := some r.data, setup := false }))
  ∧ (∀ (s : State) (x : Fin 8) (r : UsbRec) (l : List UsbRec) (e : UsbEp), s.hub.recIs x 3 = true → s.hub.role = .root →
    (s.hub.tun x).arrived = r :: l → s.hub.uep (epKey r.dev r.ep true) = some e →
    Ends (.inRecordRx x) s [.usb] {Reg.TSC_KITTY_MIN} [.tsc] (fun t => t.hub.tun x = { s.hub.tun x with arrived := l }
      ∧ t.hub.uep (epKey r.dev r.ep true) = some { e with buf := some r.data }))
  ∧ (∀ (s : State) (x : Fin 8) (r : UsbRec) (l : List UsbRec) (d : UsbDev) (e : UsbEp), s.hub.recIs x 4 = true → s.hub.role = .root →
    (s.hub.tun x).arrived = r :: l → s.hub.udev r.dev = some d → d.speed = 2 → r.status = 2 →
    s.hub.uep (epKey r.dev r.ep r.isIn) = some e →
    Ends (.resultRecordRx x) s [.usb] {Reg.TSC_KITTY_MIN} [.tsc] (fun t => t.hub.tun x = { s.hub.tun x with arrived := l }
      ∧ t.hub.uep (epKey r.dev r.ep r.isIn) = some { e with buf := none, stall := true }))
  ∧ (∀ (s : State) (x : Fin 8) (r : UsbRec) (l : List UsbRec) (d : UsbDev), s.hub.recIs x 5 = true → s.hub.role = .leaf →
    (s.hub.tun x).arrived = r :: l → s.hub.udev r.dev = some d → r.status = 1 → r.isIn = false →
    Ends (.splitRecordRx x .ack) s [.usb] {Reg.TSC_KITTY_MIN} [.tsc] (fun t => t.hub.tun x = { s.hub.tun x with arrived := l }))
  ∧ (∀ (s : State) (x : Fin 8) (r : UsbRec) (l : List UsbRec), s.hub.recIs x 6 = true → s.hub.role = .leaf →
    (s.hub.tun x).arrived = r :: l → 1 ≤ r.dev → r.dev ≤ 4 → 16 ≤ r.status → r.status < 32 → r.isIn = false →
    Ends (.portCmdRx x) s [.usb] {Reg.UP_STAT (r.dev - 1), Reg.TSC_KITTY_MIN} [.tsc] (fun t =>
      t.hub.tun x = { s.hub.tun x with arrived := l } ∧ t.hub.upBit (r.dev - 1) r.status = false))
  ∧ (∀ (s : State) (x : Fin 8) (r : UsbRec) (l : List UsbRec) (v : Nat) (w old : Word), s.hub.recIs x 7 = true → s.hub.role = .root →
    (s.hub.tun x).arrived = r :: l → s.hub.vportOf x (r.dev - 1) = some v → w = imgWord r.data 0 → old = s.hub.rd (Reg.UP_STAT v) →
    Ends (.portStatRx x) s [.usb] ({Reg.UP_STAT v, Reg.UP_RESETS v, Reg.TSC_KITTY_MIN} ∪ mqRegs) [.usb, .tsc] (fun t =>
      (t.hub.tun x).arrived = l ∧ t.hub.rd (Reg.UP_STAT v) = (w &&& 0x0000FFFF) ||| ((old ||| w) &&& 0xFFFF0000)
      ∧ ((w &&& 0xFFFF0000) &&& ~~~old ≠ 0 → t.hub.raw .usb 4 = true)))
  ∧ (∀ (s : State) (x : Fin 8) (r : UsbRec) (l : List UsbRec), s.hub.recIs x 8 = true → s.hub.role = .leaf →
    (s.hub.tun x).arrived = r :: l → r.status = 0 →
    Ends (.suspendRecordRx x) s [.usb] {Reg.TSC_KITTY_MIN} [.tsc] (fun t => t.hub.tun x = { s.hub.tun x with arrived := l, suspended := true }))
  ∧ (∀ (s : State) (x : Fin 8) (r : UsbRec) (l : List UsbRec) (v : Nat), s.hub.recIs x 9 = true → s.hub.role = .root →
    (s.hub.tun x).arrived = r :: l → s.hub.vportOf x (r.dev - 1) = some v →
    Ends (.wakeRecordRx x) s [.usb] {Reg.USB_WAKE_MERGED, Reg.USB_STAT, Reg.TSC_KITTY_MIN} [.usb, .tsc] (fun t =>
      (t.hub.tun x).arrived = l
      ∧ ((s.hub.uport v).resuming = true → t.hub.rd Reg.USB_WAKE_MERGED = incHold (s.hub.rd Reg.USB_WAKE_MERGED) ∧ t.hub.raw .usb 10 = true)
      ∧ ((s.hub.uport v).resuming = false → s.hub.rdB Reg.USB_STAT 12 = true → s.hub.upBit v 2 = false → s.hub.rdB Reg.USB_STAT 14 = true →
        t.hub.usb.hostK = true ∧ t.hub.rdB Reg.USB_STAT 13 = true)))
  ∧ (∀ (s : State) (a : BitVec 7) (p : BitVec 4) (d : UsbDev) (e : UsbEp), s.hub.leafUp = true → (s.hub.tun 0).up = true →
    s.hub.udev a.toNat = some d → s.hub.uep (epKey a.toNat p.toNat true) = some e → e.buf = none → e.stall = false →
    s.hub.upBit d.vport 1 = true → s.hub.upBit d.vport 2 = false →
    Ends (.leafDeviceTransaction a p true .nak) s [] {Reg.UP_NAKPROXY d.vport, Reg.TSC_KITTY_MIN} [.tsc] (fun t =>
      t.hub.rd (Reg.UP_NAKPROXY d.vport) = incHold (s.hub.rd (Reg.UP_NAKPROXY d.vport))))
  ∧ (∀ (s : State) (a : BitVec 7) (p : BitVec 4) (d : UsbDev) (e : UsbEp) (k : Nat), s.hub.leafUp = true → (s.hub.tun 0).up = true →
    s.hub.udev a.toNat = some d → s.hub.uep (epKey a.toNat p.toNat false) = some e → e.buf.isSome = true → e.stall = false → e.setup = false →
    s.hub.upBit d.vport 1 = true → s.hub.upBit d.vport 2 = false → p ≠ 0 → (s.hub.tun 0).waiting = [] →
    (s.hub.tun 0).unacked.length < s.hub.tunWin 0 → s.hub.admits 0x10 (s.hub.tunTx 0) 24 k = true →
    Ends (.leafDeviceTransaction a p false .ack) s (.usb :: sendParts) sendRegs sendBlocks (fun t =>
      t.hub.uep (epKey a.toNat p.toNat false) = some { e with buf := none, toggle := !e.toggle }
      ∧ (t.hub.tun 0).unacked.length = (s.hub.tun 0).unacked.length + 1))
  ∧ (∀ (s : State) (p : Fin 4) (v : Fin 3), s.hub.leafUp = true → s.hub.upBit p 8 = true → s.hub.upBit p 0 = false →
    Runs (.usbAttach p v) s (settle s.hub (s.hub.fresh.tscWatch 
      (s.hub.fresh.leafPort p [(0, true), (9, decide (v = 0)), (10, false), (16, true)]))))
  ∧ (∀ (s : State) (p : Fin 4), s.hub.leafUp = true → s.hub.upBit p 0 = true →
    Runs (.usbDeviceDetach p) s (settle s.hub (s.hub.fresh.tscWatch (s.hub.fresh.devDetach p))))
  ∧ (∀ (s : State) (p : Fin 4), s.hub.leafUp = true → Runs (.usbOvercurrent p) s (settle s.hub (s.hub.fresh.tscWatch (s.hub.fresh.overcurrent p))))
  ∧ (∀ (s : State) (p : Fin 4) (v : Fin 3), s.hub.leafUp = true → s.hub.upBit p 4 = true →
    (s.hub.uport p).resetAt + 10000000 ≤ s.hub.mono → Runs (.usbPortResetDone p v) s (settle s.hub (s.hub.fresh.tscWatch (s.hub.fresh.portResetEnd p v))))
  ∧ (∀ (s : State) (p : Fin 4), s.hub.leafUp = true → s.hub.upBit p 1 = true → (s.hub.uport p).driving = false →
    (s.hub.upBit p 2 = true ∨ (s.hub.tun 0).suspended = true) →
    Runs (.usbRemoteWake p) s (settle s.hub (s.hub.fresh.tscWatch ((s.hub.fresh.driveK p).sendRec 0 ⟨9, p.val + 1, 0, 0, []⟩))))
  ∧ (∀ (s : State) (p : Fin 4), s.hub.leafUp = true → (s.hub.uport p).driving = true → (s.hub.uport p).kAt + 20000000 ≤ s.hub.mono →
    Runs (.usbResumeEnd (some p)) s (settle s.hub (s.hub.fresh.tscWatch 
      ((s.hub.fresh.updUport p fun x => { x with driving := false }).leafPort p [(2, false), (18, true)]))))
  ∧ (∀ s : State, s.hub.leafUp = true → (s.hub.tun 0).up = true → (s.hub.tun 0).suspended = false → s.hub.time.reached 125000 = true →
    Runs .leafSof s (settle s.hub (s.hub.fresh.tscWatch s.hub.fresh.leafSof)))
  ∧ (∀ (s : State) (x : Fin 8), s.hub.recIs x 1 = true → Runs (.setupRecordRx x) s (settle s.hub (s.hub.fresh.tscWatch (s.hub.fresh.setupRec x))))
  ∧ (∀ (s : State) (x : Fin 8), s.hub.recIs x 2 = true → Runs (.outRecordRx x) s (settle s.hub (s.hub.fresh.tscWatch (s.hub.fresh.outIn x))))
  ∧ (∀ (s : State) (x : Fin 8), s.hub.recIs x 3 = true → Runs (.inRecordRx x) s (settle s.hub (s.hub.fresh.tscWatch (s.hub.fresh.inIn x))))
  ∧ (∀ (s : State) (x : Fin 8), s.hub.recIs x 4 = true → Runs (.resultRecordRx x) s (settle s.hub (s.hub.fresh.tscWatch (s.hub.fresh.resultIn x))))
  ∧ (∀ (s : State) (x : Fin 8) (y : UsbAns), s.hub.recIs x 5 = true → Runs (.splitRecordRx x y) s (settle s.hub (s.hub.fresh.tscWatch (s.hub.fresh.splitIn x y))))
  ∧ (∀ (s : State) (x : Fin 8), s.hub.recIs x 6 = true → Runs (.portCmdRx x) s (settle s.hub (s.hub.fresh.tscWatch (s.hub.fresh.portCmdIn x))))
  ∧ (∀ (s : State) (x : Fin 8), s.hub.recIs x 7 = true → Runs (.portStatRx x) s (settle s.hub (s.hub.fresh.tscWatch (s.hub.fresh.portStatRec x))))
  ∧ (∀ (s : State) (x : Fin 8), s.hub.recIs x 8 = true → Runs (.suspendRecordRx x) s (settle s.hub (s.hub.fresh.tscWatch (s.hub.fresh.suspendIn x))))
  ∧ (∀ (s : State) (x : Fin 8), s.hub.recIs x 9 = true → Runs (.wakeRecordRx x) s (settle s.hub (s.hub.fresh.tscWatch (s.hub.fresh.wakeIn x))))
  ∧ (∀ (s : State) (a : BitVec 7) (p : BitVec 4) (i : Bool) (y : UsbAns) (d : UsbDev) (e : UsbEp), s.hub.leafUp = true →
    (s.hub.tun 0).up = true → s.hub.udev a.toNat = some d → s.hub.uep (epKey a.toNat p.toNat i) = some e → e.buf.isSome = !i →
    e.stall = false → s.hub.upBit d.vport 1 = true → s.hub.upBit d.vport 2 = false →
    Runs (.leafDeviceTransaction a p i y) s (settle s.hub (s.hub.fresh.tscWatch (s.hub.fresh.leafAnswer a.toNat p.toNat i y))))


/-- USB's tunnels and the host's side (R383, R385, R387, R389–R392, R394, R397, R398): bursts in order and out of it, resends, the window,
epochs and dead tunnels, host transactions and splits, suspend and resume, and the operation that restarts a tunnel.
A clause `Runs c s h` says that the form completes with the effect of the definition that it names, under the row's own conditions alone.
Its clauses rest on these choices of the model: log entries 6, 37, 46 and 57. -/
def Obligations.UsbTunnelsAndHost : Prop :=
  (∀ (s : State) (x : Fin 8) (f : ExitFrame), s.hub.up .usb = true → s.hub.tunEn x = true → s.hub.burstHead x = some f →
    f.bytes.length < 16 →
    Ends (.tunnelBurstRx x) s [.usb] {Reg.TN_GAP x, Reg.TSC_KITTY_MIN} [.tsc] (fun t =>
      t.hub.usb = { s.hub.usb with inbox := s.hub.usb.inbox.erase f } ∧ t.hub.rd (Reg.TN_GAP x) = incHold (s.hub.rd (Reg.TN_GAP x))))
  ∧ (∀ (s : State) (x : Fin 8) (f : ExitFrame) (rs : List UsbRec), s.hub.up .usb = true → s.hub.role = .leaf → s.hub.tunEn x = true →
    s.hub.burstHead x = some f → 16 ≤ f.bytes.length → burstRecs (f.bytes.getD 8 0).toNat (f.bytes.drop 16) = some rs →
    (f.bytes.getD 0 0).toNat = (s.hub.tun x).epoch → f.bytes.getD 1 0 = 0 → (s.hub.tun x).up = true → (s.hub.tun x).restart = false →
    (s.hub.tun x).waiting = [] → leVal ((f.bytes.drop 2).take 2) % 4096 = (s.hub.tun x).nextRx →
    Ends (.tunnelBurstRx x) s [.usb] {Reg.TN_BURSTS x, Reg.TSC_KITTY_MIN} [.tsc] (fun t =>
      t.hub.rd (Reg.TN_BURSTS x) = incHold (s.hub.rd (Reg.TN_BURSTS x)) ∧ (t.hub.tun x).arrived = (s.hub.tun x).arrived ++ rs
      ∧ (t.hub.tun x).nextRx = ((s.hub.tun x).nextRx + 1) % 4096 ∧ (t.hub.tun x).ackDue = true ∧ t.hub.usb.inbox = s.hub.usb.inbox.erase f))
  ∧ (∀ (s : State) (x : Fin 8) (b : UsbBurst) (k : Nat), s.hub.works .usb = true → (s.hub.tun x).unacked = [b] → s.hub.tunInfl x = 0 →
    (s.hub.tun x).ackAt + s.hub.tunTmo x ≤ s.hub.mono → 6 ≤ b.bytes.length → s.hub.admits 0x10 (s.hub.tunTx x) b.bytes.length k = true →
    Ends (.tunnelResendTimeout x) s (.usb :: .free :: sendParts) (sendRegs ∪ {Reg.TN_RESEND x}) sendBlocks (fun t =>
      t.hub.rd (Reg.TN_RESEND x) = incHold (s.hub.rd (Reg.TN_RESEND x)) ∧ (t.hub.ctx k).inseq = ((s.hub.ctx k).inseq + 1) % 65536))
  ∧ (∀ (s : State) (x : Fin 8) (k : Nat), s.hub.works .usb = true → (s.hub.tun x).ackDue = true → s.hub.admits 0x10 (s.hub.tunTx x) 16 k = true →
    Ends (.tunnelAckOnly x) s (.usb :: .free :: sendParts) sendRegs sendBlocks (fun t =>
      t.hub.tun x = { s.hub.tun x with ackDue := false } ∧ (t.hub.ctx k).inseq = ((s.hub.ctx k).inseq + 1) % 65536))
  ∧ (∀ (s : State) (x : Fin 8) (k : Nat), s.hub.rootUp = true → s.hub.tunEn x = true → (s.hub.tun x).suspended = false →
    (s.hub.tun x).up = true → (s.hub.tun x).waiting = [] → (s.hub.tun x).unacked.length < s.hub.tunWin x →
    s.hub.admits 0x10 (s.hub.tunTx x) 16 k = true →
    Ends (.tunnelKeepalive x) s (.usb :: .free :: sendParts) sendRegs sendBlocks (fun t =>
      (t.hub.tun x).nextTx = ((s.hub.tun x).nextTx + 1) % 4096 ∧ (t.hub.tun x).unacked.length = (s.hub.tun x).unacked.length + 1
      ∧ (t.hub.tun x).restart = false ∧ (t.hub.tun x).ackDue = false))
  ∧ (∀ (s : State) (x : Fin 8), s.hub.rootUp = true → s.hub.tunEn x = true → (s.hub.tun x).up = true → (s.hub.tun x).suspended = false →
    (s.hub.tun x).heardAt + s.hub.tunDeadTime x ≤ s.hub.mono →
    Ends (.tunnelDead x) s [.usb, .waits, .pins] (mqRegs ∪ {a | ∃ v ∈ List.range 16, a = Reg.UP_STAT v} ∪ {Reg.SIT_FAULTN_CNT, Reg.TSC_KITTY_MIN})
      [.usb, .sit, .tsc] (fun t =>
      (t.hub.tun x).up = false ∧ (t.hub.tun x).epoch = (s.hub.tun x).epoch % 256 ∧ (t.hub.tun x).unacked = [] ∧ t.hub.raw .usb 6 = true
      ∧ bit (t.hub.hdr .usb).sticky 1 = true ∧ bit (t.hub.hdr .usb).live 1 = true
      ∧ (s.hub.vports x).all (fun v => !t.hub.upBit v 0 && !t.hub.upBit v 1) = true))
  ∧ (∀ s : State, s.hub.rootUp = true → s.hub.rdB Reg.USB_CFG 0 = true → s.hub.rdB Reg.USB_STAT 1 = false →
    s.hub.usb.attachFrom ≤ s.hub.mono →
    Ends .u0Attach s [] {Reg.USB_STAT, Reg.TSC_KITTY_MIN} [.usb, .tsc] (fun t =>
      t.hub.rdF Reg.USB_STAT 1 0 = 3 ∧ t.hub.raw .usb 0 = true))
  ∧ (∀ s : State, s.hub.rootUp = true → s.hub.rdB Reg.USB_STAT 1 = true → (List.range 8).all (fun x => !s.hub.tunEn x) = true →
    Ends (.u0Detach false) s [.usb] ({a | ∃ v ∈ List.range 16, a = Reg.UP_STAT v} ∪ {Reg.USB_STAT, Reg.USB_RESETS, Reg.TSC_KITTY_MIN})
      [.usb, .tsc] (fun t =>
      t.hub.rdF Reg.USB_STAT 3 0 = 0 ∧ t.hub.raw .usb 0 = true ∧ t.hub.usb.devs = [] ∧ t.hub.usb.eps = []
      ∧ t.hub.rdF Reg.USB_STAT 11 4 = 0 ∧ (List.range 16).all (fun v => decide (t.hub.rd (Reg.UP_STAT v) = 0)) = true)
    ∧ Ends (.usbBusReset true) s [.usb] ({a | ∃ v ∈ List.range 16, a = Reg.UP_STAT v} ∪ {Reg.USB_STAT, Reg.USB_RESETS, Reg.TSC_KITTY_MIN})
      [.usb, .tsc] (fun t =>
      t.hub.rdF Reg.USB_STAT 3 2 = 2 ∧ t.hub.raw .usb 1 = true ∧ t.hub.rd Reg.USB_RESETS = incHold (s.hub.rd Reg.USB_RESETS)
      ∧ t.hub.usb.devs = [] ∧ t.hub.usb.eps = [] ∧ t.hub.rdF Reg.USB_STAT 11 4 = 0 ∧ t.hub.rdF Reg.USB_STAT 14 12 = 0))
  ∧ (∀ (s : State) (a : BitVec 7) (p : BitVec 4) (tok : UsbTok) (d : List Byte), s.hub.rootUp = true → s.hub.rdB Reg.USB_STAT 1 = true →
    s.hub.rdB Reg.USB_STAT 12 = false → a.toNat = s.hub.rdF Reg.USB_STAT 10 4 → a ≠ 0 →
    Ends (.usbHostTransaction a p tok false) s [] {Reg.USB_RX_CRC, Reg.TSC_KITTY_MIN} [.tsc] (fun t =>
      t.hub.rd Reg.USB_RX_CRC = incHold (s.hub.rd Reg.USB_RX_CRC) ∧ t.hub.out = [])
    ∧ Ends (.usbHostTransaction a 0 (.setup d) true) s [.usb] {Reg.TSC_KITTY_MIN} [.tsc] (fun t =>
      t.hub.usb = { s.hub.usb with hubSetup := d } ∧ t.hub.out = [.packet 0x10 pidAck []]))
  ∧ (∀ (s : State) (a : BitVec 7) (p : BitVec 4) (d : UsbDev) (e : UsbEp), s.hub.rootUp = true → s.hub.rdB Reg.USB_STAT 1 = true →
    s.hub.rdB Reg.USB_STAT 12 = false → a.toNat ≠ s.hub.rdF Reg.USB_STAT 10 4 → s.hub.udev a.toNat = some d → d.speed = 2 →
    s.hub.devLive d = true → d.refused = false → s.hub.uep (epKey a.toNat p.toNat true) = some e → e.kind ≠ 1 → e.stall = false →
    s.hub.uep (epKey a.toNat p.toNat false) = none →
    Ends (.usbHostTransaction a p .inTok true) s [] {Reg.TSC_KITTY_MIN} [.tsc] (fun t =>
      t.hub.out = [match e.buf with | some b => .packet 0x10 (pidData e.toggle) b | none => .packet 0x10 pidNak []]))
  ∧ (∀ (s : State) (v : Fin 16) (a : BitVec 7) (p : BitVec 4) (y : UsbSplit) (b : List Byte), s.hub.rootUp = true →
    s.hub.rdB Reg.USB_STAT 1 = true → s.hub.rdB Reg.USB_STAT 12 = false → v.val < s.hub.nPorts → s.hub.upBit v 1 = true →
    s.hub.upBit v 10 = false → (s.hub.tun (s.hub.tunOf v)).up = true → (s.hub.uport v).splits = [y] → y.isOf a.toNat p.toNat true = true →
    y.late = false → y.result = some (1, b) →
    Ends (.usbSplitTransaction v a p true 2 false false false []) s [.usb] {Reg.TSC_KITTY_MIN} [.tsc] (fun t =>
      (t.hub.uport v).splits = [] ∧ t.hub.out = [.packet 0x10 pidNak []]))
  ∧ (∀ (s : State) (v : Fin 16) (a : BitVec 7) (p : BitVec 4) (b : List Byte) (x : Nat), s.hub.rootUp = true →
    s.hub.rdB Reg.USB_STAT 1 = true → s.hub.rdB Reg.USB_STAT 12 = false → v.val < s.hub.nPorts → s.hub.upBit v 1 = true →
    s.hub.upBit v 10 = false → x = s.hub.tunOf v → (s.hub.tun x).up = true → (s.hub.uport v).splits = [] → p ≠ 0 →
    s.hub.tunWin x ≤ (s.hub.tun x).unacked.length →
    Ends (.usbSplitTransaction v a p true 2 true false false b) s [.usb] {Reg.TSC_KITTY_MIN} [.tsc] (fun t =>
      (t.hub.uport v).splits = [{ dev := a.toNat, ep := p.toNat, isIn := true, type := 2 }] ∧ t.hub.out = [.packet 0x10 pidAck []]
      ∧ (t.hub.tun x).waiting = (s.hub.tun x).waiting ++ [{ type := 5, dev := a.toNat, epdir := epDir p.toNat true false, status := 2, data := b }]))
  ∧ (∀ s : State, s.hub.rootUp = true → s.hub.rdB Reg.USB_STAT 1 = true → s.hub.rdB Reg.USB_STAT 12 = false →
    (List.range 8).all (fun x => !(s.hub.tun x).up) = true →
    Ends .usbSuspend s [] {Reg.USB_STAT, Reg.TSC_KITTY_MIN} [.usb, .tsc] (fun t => t.hub.rdB Reg.USB_STAT 12 = true ∧ t.hub.raw .usb 2 = true))
  ∧ (∀ s : State, s.hub.rootUp = true → s.hub.rdB Reg.USB_STAT 12 = true → s.hub.usb.hostK = true →
    (List.range 8).all (fun x => !(s.hub.tun x).up) = true →
    Ends .usbHostResume s [.usb] {Reg.USB_STAT, Reg.USB_WAKE_MERGED, Reg.TSC_KITTY_MIN} [.usb, .tsc] (fun t =>
      t.hub.rdB Reg.USB_STAT 13 = true ∧ t.hub.usb.hostK = false ∧ t.hub.raw .usb 10 = true
      ∧ t.hub.rd Reg.USB_WAKE_MERGED = incHold (s.hub.rd Reg.USB_WAKE_MERGED)))
  ∧ (∀ (s : State) (x k : Nat), s.hub.opRunning .usb 0x10 = true → s.hub.present .usb = true → s.hub.role = .root →
    x = (s.hub.arg .usb 0).toNat → x < 8 → s.hub.tunEn x = true → s.hub.vports x = [] → s.hub.admits 0x10 (s.hub.tunTx x) 16 k = true →
    Ends .tunRestart s (.usb :: .free :: sendParts) (sendRegs ∪ mqRegs) (.usb :: sendBlocks) (fun t =>
      (t.hub.tun x).epoch = ((s.hub.tun x).epoch + 1) % 256 ∧ (t.hub.tun x).nextTx = 1 ∧ (t.hub.tun x).nextRx = 0
      ∧ (t.hub.mbx .usb).result = some (mbxOk [w32 (((s.hub.tun x).epoch + 1) % 256)])))
  ∧ (∀ (s : State) (n : BitVec 6), s.hub.up .usb = true → s.hub.usb.mq.length ≤ 32 →
    Ends (.usbMqPop n) s [.usb] {Reg.USB_MQ_STAT} [] (fun t =>
      t.hub.usb = { s.hub.usb with mq := s.hub.usb.mq.drop (min n.toNat s.hub.usb.mq.length) }
      ∧ t.hub.rdF Reg.USB_MQ_STAT 4 0 = (s.hub.rdF Reg.USB_MQ_STAT 4 0 + min n.toNat s.hub.usb.mq.length) % 32
      ∧ t.hub.rdF Reg.USB_MQ_STAT 21 16 = s.hub.usb.mq.length - min n.toNat s.hub.usb.mq.length))
  ∧ (∀ (s : State) (x : Fin 8), s.hub.up .usb = true → s.hub.tunEn x = true → (s.hub.burstHead x).isSome = true →
    Runs (.tunnelBurstRx x) s (settle s.hub (s.hub.fresh.tscWatch (s.hub.fresh.burstTake x))))
  ∧ (∀ (s : State) (x : Fin 8), s.hub.works .usb = true → s.hub.tunInfl x < (s.hub.tun x).unacked.length →
    (s.hub.tun x).ackAt + s.hub.tunTmo x ≤ s.hub.mono → Runs (.tunnelResendTimeout x) s (settle s.hub (s.hub.fresh.tscWatch (s.hub.fresh.tunResend x))))
  ∧ (∀ (s : State) (x : Fin 8), s.hub.works .usb = true → (s.hub.tun x).ackDue = true →
    Runs (.tunnelAckOnly x) s (settle s.hub (s.hub.fresh.tscWatch (s.hub.fresh.ackOnly x false))))
  ∧ (∀ (s : State) (x : Fin 8), s.hub.rootUp = true → s.hub.tunEn x = true → (s.hub.tun x).suspended = false →
    Runs (.tunnelKeepalive x) s (settle s.hub (s.hub.fresh.tscWatch (s.hub.fresh.keepalive x))))
  ∧ (∀ (s : State) (x : Fin 8), s.hub.works .usb = true → (s.hub.tun x).up = true → (s.hub.tun x).suspended = false →
    (s.hub.tun x).heardAt + s.hub.tunDeadTime x ≤ s.hub.mono → Runs (.tunnelDead x) s (settle s.hub (s.hub.fresh.tscWatch (s.hub.fresh.tunDown x))))
  ∧ (∀ (s : State) (v : Bool), s.hub.rootUp = true → s.hub.rdB Reg.USB_STAT 1 = true → (v = false ∨ s.hub.rdB Reg.USB_CFG 0 = false) →
    Runs (.u0Detach v) s (settle s.hub (s.hub.fresh.tscWatch ((s.hub.fresh.busReset.wrF Reg.USB_STAT 3 0 (b2n v)).attn .usb 0))))
  ∧ (∀ (s : State) (v : Bool), s.hub.rootUp = true → s.hub.rdB Reg.USB_STAT 1 = true → 
    Runs (.usbBusReset v) s (settle s.hub (s.hub.fresh.tscWatch (s.hub.fresh.busReset.wrF Reg.USB_STAT 3 2 (if v then 2 else 1)))))
  ∧ (∀ (s : State) (a : BitVec 7) (p : BitVec 4) (tok : UsbTok) (g : Bool), s.hub.rootUp = true → s.hub.rdB Reg.USB_STAT 1 = true → 
    s.hub.rdB Reg.USB_STAT 12 = false → Runs (.usbHostTransaction a p tok g) s (settle s.hub (s.hub.fresh.tscWatch (s.hub.fresh.hostToken a p tok g))))
  ∧ (∀ (s : State) (v : Fin 16) (a : BitVec 7) (p : BitVec 4) (i st u l : Bool) (ty : Fin 4) (b : List Byte), s.hub.rootUp = true → s.hub.rdB Reg.USB_STAT 1 = true → 
    s.hub.rdB Reg.USB_STAT 12 = false → v.val < s.hub.nPorts → s.hub.upBit v 1 = true → s.hub.upBit v 10 = false →
    (s.hub.tun (s.hub.tunOf v)).up = true →
    Runs (.usbSplitTransaction v a p i ty st u l b) s (settle s.hub (s.hub.fresh.tscWatch (s.hub.fresh.hostSplit v a p i ty st u l b))))
  ∧ (∀ s : State, s.hub.rootUp = true → s.hub.rdB Reg.USB_STAT 1 = true → s.hub.rdB Reg.USB_STAT 12 = false →
    Runs .usbSuspend s (settle s.hub (s.hub.fresh.tscWatch s.hub.fresh.busSuspend)))
  ∧ (∀ s : State, s.hub.rootUp = true → s.hub.rdB Reg.USB_STAT 12 = true → (s.hub.rdB Reg.USB_STAT 13 = false ∨ s.hub.usb.hostK = true) →
    Runs .usbHostResume s (settle s.hub (s.hub.fresh.tscWatch s.hub.fresh.hostResume)))
  ∧ (∀ s : State, s.hub.opRunning .usb 0x10 = true → Runs .tunRestart s (settle s.hub (s.hub.fresh.runOp .usb 0x10 Hub.tunRestartOp)))

/-- The power ports (R404–R409, R412–R418, Tables 16.2 and 16.3): the tick, the trips and what each consumes, retries, the budget,
power-good, the input window, presence, and ON, OFF and CLEAR.
A clause `Runs c s h` says that the form completes with the effect of the definition that it names, under the row's own conditions alone.
Its clauses rest on these choices of the model: log entries 38 and 63. -/
def Obligations.PowerPorts : Prop :=
  (∀ (s : State) (l : List PpcSample) (n : Fin 6) (m : PpcSample), s.hub.up .ppc = true → l.length = 6 → l[n.val]? = some m →
    s.hub.rdB Reg.PMU_WAKE_EN 1 = false → s.hub.power.state ≠ .doze → (s.hub.chan n).ctl = 0 →
    Ends (.ppcTick l) s [.ppc, .pins] (pcRegs 0 ∪ pcRegs 1 ∪ pcRegs 2 ∪ pcRegs 3 ∪ pcRegs 4 ∪ pcRegs 5 ∪ {Reg.SIT_FAULTN_CNT}) [.ppc, .sit] (fun t =>
      t.hub.rd (Reg.PC_MEAS_V n) = w32 (min 65535 m.vin + 65536 * min 65535 m.vout)
      ∧ t.hub.rdF (Reg.PC_MEAS_I n) 15 0 = min 65535 m.cur
      ∧ (t.hub.chan n).inWin = (if (s.hub.chan n).inWin
          then decide (clampN 80 500 (s.hub.rdF (Reg.PC_VIN_WIN n) 9 0) * 100 ≤ m.vin ∧ m.vin ≤ clampN 120 580 (s.hub.rdF (Reg.PC_VIN_WIN n) 25 16) * 100)
          else decide (clampN 80 500 (s.hub.rdF (Reg.PC_VIN_WIN n) 9 0) * 101 ≤ m.vin ∧ m.vin ≤ clampN 120 580 (s.hub.rdF (Reg.PC_VIN_WIN n) 25 16) * 99))
      ∧ t.hub.rdB (Reg.PC_STAT n) 7 = (t.hub.chan n).inWin
      ∧ (s.hub.rdB (Reg.PC_CFG n) 0 = false → t.hub.pcState n = 0)
      ∧ (s.hub.rdB (Reg.PC_CFG n) 0 = true → s.hub.pcDriven n = true → (s.hub.chan n).fast = true →
        t.hub.rdF (Reg.PC_STAT n) 19 16 = 1 ∧ t.hub.rd (Reg.PC_TRIP_FAST n) = incHold (s.hub.rd (Reg.PC_TRIP_FAST n))
        ∧ t.hub.pcState n = (if s.hub.rdF (Reg.PC_STAT n) 11 8 = 0 then 5 else 4))))
  ∧ (∀ (s : State) (n : Fin 6), s.hub.up .ppc = true → s.hub.pcDriven n = true →
    Ends (.fastTrip n) s [.ppc] {} [] (fun t => t.hub.chan n = { s.hub.chan n with fast := true }))
  ∧ (∀ (s : State) (n : Fin 6) (r : Nat), s.hub.up .ppc = true → s.hub.pcDriven n = true → r = s.hub.rdF (Reg.PC_STAT n) 11 8 → r ≠ 0 →
    (s.hub.chan n).fast = false → s.hub.pcFault n ≤ (s.hub.chan n).timer + 1 →
    Ends (.timerTrip n) s [.ppc, .pins] {Reg.PC_STAT n, Reg.PC_TRIP_TIMER n, Reg.SIT_FAULTN_CNT} [.ppc, .sit] (fun t =>
      t.hub.pcState n = 4 ∧ t.hub.rdF (Reg.PC_STAT n) 19 16 = s.hub.pcState n ∧ t.hub.rdF (Reg.PC_STAT n) 11 8 = r - 1
      ∧ t.hub.rdF (Reg.PC_STAT n) 15 12 = (s.hub.rdF (Reg.PC_STAT n) 15 12 + 1) % 16 ∧ t.hub.rdF (Reg.PC_STAT n) 5 4 = 0
      ∧ t.hub.rd (Reg.PC_TRIP_TIMER n) = incHold (s.hub.rd (Reg.PC_TRIP_TIMER n))
      ∧ t.hub.raw .ppc (4 * n + 1) = true ∧ bit (t.hub.hdr .ppc).sticky 1 = true ∧ t.hub.chan n = (s.hub.chan n).gateOff))
  ∧ (∀ (s : State) (n : Fin 6), s.hub.up .ppc = true → s.hub.pcState n = 3 → s.hub.rdF (Reg.PC_STAT n) 11 8 = 0 →
    (s.hub.chan n).fast = false → 9 ≤ (s.hub.chan n).underTicks →
    Ends (.gateFault n) s [.ppc, .pins] {Reg.PC_STAT n, Reg.PC_TRIP_GATE n, Reg.PC_LATCHES n, Reg.SIT_FAULTN_CNT} [.ppc, .sit] (fun t =>
      t.hub.pcState n = 5 ∧ t.hub.rdF (Reg.PC_STAT n) 19 16 = 6 ∧ t.hub.rdF (Reg.PC_STAT n) 15 12 = s.hub.rdF (Reg.PC_STAT n) 15 12
      ∧ t.hub.rd (Reg.PC_TRIP_GATE n) = incHold (s.hub.rd (Reg.PC_TRIP_GATE n))
      ∧ t.hub.rd (Reg.PC_LATCHES n) = incHold (s.hub.rd (Reg.PC_LATCHES n)) ∧ t.hub.raw .ppc (4 * n + 1) = true
      ∧ t.hub.raw .ppc (4 * n + 2) = true ∧ bit (t.hub.hdr .ppc).sticky 3 = true ∧ bit (t.hub.hdr .ppc).sticky 4 = true
      ∧ bit (t.hub.hdr .ppc).live 4 = true ∧ t.hub.chan n = (s.hub.chan n).gateOff))
  ∧ (∀ (s : State) (n : Fin 6), s.hub.up .ppc = true → s.hub.pcDriven n = false → 9 ≤ (s.hub.chan n).tempTicks →
    Ends (.tempSensorFault n) s [.ppc] {} [] (fun t => t.hub.chan n = { s.hub.chan n with sensorBad := true, tempTicks := 10 }))
  ∧ (∀ (s : State) (n : Fin 6) (r : Nat), s.hub.up .ppc = true → s.hub.pcDriven n = true → s.hub.rdF (Reg.PC_CFG n) 5 4 ≠ 0 →
    r = s.hub.rdF (Reg.PC_STAT n) 11 8 → r ≠ 0 → (s.hub.chan n).fast = false → 9 ≤ (s.hub.chan n).tempTicks →
    Ends (.tempSensorFault n) s [.ppc, .pins] {Reg.PC_STAT n, Reg.PC_TRIP_THERM n, Reg.SIT_FAULTN_CNT} [.ppc, .sit] (fun t =>
      t.hub.pcState n = 4 ∧ t.hub.rdF (Reg.PC_STAT n) 19 16 = 5 ∧ t.hub.rdF (Reg.PC_STAT n) 11 8 = r - 1
      ∧ t.hub.rd (Reg.PC_TRIP_THERM n) = incHold (s.hub.rd (Reg.PC_TRIP_THERM n)) ∧ bit (t.hub.hdr .ppc).sticky 2 = true
      ∧ t.hub.chan n = { (s.hub.chan n).gateOff with sensorBad := true, tempTicks := 10 }))
  ∧ (∀ (s : State) (n : Fin 6), s.hub.up .ppc = true → s.hub.pcState n = 4 → s.hub.pcCool n = true →
    s.hub.pcDelay n ≤ (s.hub.chan n).waitTicks + 1 →
    Ends (.retryDelayExpire n) s [.ppc] {Reg.PC_STAT n, Reg.PC_RAMPS n} [.ppc] (fun t =>
      t.hub.pcState n = 2 ∧ t.hub.rd (Reg.PC_RAMPS n) = incHold (s.hub.rd (Reg.PC_RAMPS n)) ∧ t.hub.rdB (Reg.PC_STAT n) 4 = false
      ∧ t.hub.rdF (Reg.PC_STAT n) 19 8 = s.hub.rdF (Reg.PC_STAT n) 19 8 ∧ t.hub.chan n = (s.hub.chan n).gateOff))
  ∧ (∀ (s : State) (n : Fin 6), s.hub.up .ppc = true → s.hub.pcState n = 6 → s.hub.pcCool n = true →
    9999 ≤ (s.hub.chan n).inTicks → s.hub.rdB Reg.PMU_WAKE_EN 1 = false → s.hub.power.state ≠ .doze →
    Ends (.inputWindowReturn n) s [.ppc] {Reg.PC_STAT n, Reg.PC_RAMPS n} [.ppc] (fun t =>
      t.hub.pcState n = 2 ∧ t.hub.rd (Reg.PC_RAMPS n) = incHold (s.hub.rd (Reg.PC_RAMPS n)) ∧ t.hub.rdB (Reg.PC_STAT n) 7 = true
      ∧ t.hub.chan n = { (s.hub.chan n).gateOff with inWin := true }))
  ∧ (∀ (s : State) (n : Fin 6), s.hub.up .ppc = true → s.hub.rdB (Reg.PC_STAT n) 4 = true →
    s.hub.pcHold n ≤ (s.hub.chan n).pgHeld + 1 →
    Ends (.budgetRestore n) s [] {Reg.PC_STAT n} [] (fun t =>
      t.hub.rdF (Reg.PC_STAT n) 11 8 = s.hub.rdF (Reg.PC_CFG n) 9 6 ∧ t.hub.rdF (Reg.PC_STAT n) 15 12 = 0
      ∧ t.hub.rdF (Reg.PC_STAT n) 7 0 = s.hub.rdF (Reg.PC_STAT n) 7 0 ∧ t.hub.rdF (Reg.PC_STAT n) 31 16 = s.hub.rdF (Reg.PC_STAT n) 31 16))
  ∧ (∀ (s : State) (n : Fin 6), s.hub.up .ppc = true → s.hub.pcState n = 3 → (s.hub.chan n).timer = 0 →
    s.hub.pcPgDelay n ≤ (s.hub.chan n).pgCount + 1 →
    s.hub.rdF (Reg.PC_PG_WIN n) 9 0 * 100 ≤ s.hub.rdF (Reg.PC_MEAS_V n) 31 16 →
    s.hub.rdF (Reg.PC_MEAS_V n) 31 16 ≤ s.hub.rdF (Reg.PC_PG_WIN n) 25 16 * 100 →
    Ends (.pgAssert n) s [.ppc] {Reg.PC_STAT n} [.ppc] (fun t =>
      t.hub.rd (Reg.PC_STAT n) = setBit (s.hub.rd (Reg.PC_STAT n)) 4 true
      ∧ (s.hub.rdB (Reg.PC_STAT n) 4 = false → t.hub.raw .ppc (4 * n) = true)))
  ∧ (∀ (s : State) (n : Fin 6), s.hub.up .ppc = true → s.hub.pcDriven n = true → (s.hub.chan n).fast = false →
    4 ≤ (s.hub.chan n).outTicks → s.hub.rdB Reg.PMU_WAKE_EN 1 = false → s.hub.power.state ≠ .doze →
    Ends (.inputWindowFault n) s [.ppc, .pins] {Reg.PC_STAT n, Reg.PC_INPUT_FLT n, Reg.SIT_FAULTN_CNT} [.ppc, .sit] (fun t =>
      t.hub.pcState n = 6 ∧ t.hub.rdB (Reg.PC_STAT n) 7 = false ∧ t.hub.rd (Reg.PC_INPUT_FLT n) = incHold (s.hub.rd (Reg.PC_INPUT_FLT n))
      ∧ t.hub.rdF (Reg.PC_STAT n) 19 8 = s.hub.rdF (Reg.PC_STAT n) 19 8 ∧ t.hub.raw .ppc (4 * n + 2) = true
      ∧ bit (t.hub.hdr .ppc).sticky 5 = true ∧ bit (t.hub.hdr .ppc).live 5 = true
      ∧ t.hub.chan n = { (s.hub.chan n).gateOff with inWin := false }))
  ∧ (∀ (s : State) (n : Fin 6), s.hub.up .ppc = true → s.hub.pcState n = 1 → s.hub.rdB (Reg.PC_CFG n) 2 = true →
    s.hub.rdB (Reg.PC_STAT n) 6 = false → s.hub.rdB (Reg.PC_CFG n) 1 = false →
    s.hub.pcDetTime n ≤ (s.hub.chan n).detTicks + 1 → s.hub.rdB Reg.PMU_WAKE_EN 1 = false → s.hub.power.state ≠ .doze →
    Ends (.presenceChange n) s [.ppc] {Reg.PC_STAT n, Reg.PC_INSERT n} [.ppc] (fun t =>
      t.hub.rd (Reg.PC_STAT n) = setBit (s.hub.rd (Reg.PC_STAT n)) 6 true ∧ t.hub.rd (Reg.PC_INSERT n) = incHold (s.hub.rd (Reg.PC_INSERT n))
      ∧ t.hub.raw .ppc (4 * n + 3) = true))
  ∧ (∀ (s : State) (n : Fin 6), s.hub.up .ppc = true → s.hub.pcState n = 1 → s.hub.rdB (Reg.PC_CFG n) 2 = true →
    s.hub.rdB (Reg.PC_STAT n) 6 = false → s.hub.rdB (Reg.PC_CFG n) 1 = true → (s.hub.chan n).inWin = true →
    s.hub.pcDetTime n ≤ (s.hub.chan n).detTicks + 1 → s.hub.rdB Reg.PMU_WAKE_EN 1 = false → s.hub.power.state ≠ .doze →
    Ends (.presenceChange n) s [.ppc] {Reg.PC_STAT n, Reg.PC_INSERT n, Reg.PC_RAMPS n} [.ppc] (fun t =>
      t.hub.pcState n = 2 ∧ t.hub.rdB (Reg.PC_STAT n) 6 = true ∧ t.hub.rd (Reg.PC_RAMPS n) = incHold (s.hub.rd (Reg.PC_RAMPS n))))
  ∧ (∀ (s : State) (n : Fin 6), s.hub.up .ppc = true → s.hub.pcState n = 1 → s.hub.rdB (Reg.PC_CFG n) 2 = true →
    s.hub.rdB (Reg.PC_STAT n) 6 = true →
    s.hub.pcDetTime n ≤ (s.hub.chan n).detTicks + 1 → s.hub.rdB Reg.PMU_WAKE_EN 1 = false → s.hub.power.state ≠ .doze →
    Ends (.presenceChange n) s [.ppc] {Reg.PC_STAT n} [] (fun t =>
      t.hub.rd (Reg.PC_STAT n) = setBit (s.hub.rd (Reg.PC_STAT n)) 6 false))
  ∧ (∀ (s : State) (n : Fin 6), s.hub.up .ppc = true →
    Ends (.pcOn n) s [.ppc] ∅ [] (fun t => t.hub.chan n = { s.hub.chan n with ctl := (s.hub.chan n).ctl ||| 1 })
    ∧ Ends (.pcOff n) s [.ppc] ∅ [] (fun t => t.hub.chan n = { s.hub.chan n with ctl := (s.hub.chan n).ctl ||| 2 })
    ∧ Ends (.pcClear n) s [.ppc] ∅ [] (fun t => t.hub.chan n = { s.hub.chan n with ctl := (s.hub.chan n).ctl ||| 4 }))
  ∧ (∀ (s : State) (l : List PpcSample) (n : Fin 6), s.hub.up .ppc = true → l.length = 6 →
    s.hub.rdB Reg.PMU_WAKE_EN 1 = false → s.hub.power.state ≠ .doze → s.hub.rdB (Reg.PC_CFG n) 0 = true →
    (s.hub.chan n).ctl = 1 → s.hub.pcState n = 1 → s.hub.rdB (Reg.PC_CFG n) 2 = false →
    Ends (.ppcTick l) s [.ppc, .pins] (pcRegs 0 ∪ pcRegs 1 ∪ pcRegs 2 ∪ pcRegs 3 ∪ pcRegs 4 ∪ pcRegs 5 ∪ {Reg.SIT_FAULTN_CNT}) [.ppc, .sit] (fun t => (t.hub.chan n).ctl = 0
      ∧ ((s.hub.chan n).inWin = true → t.hub.rd (Reg.PC_RAMPS n) = incHold (s.hub.rd (Reg.PC_RAMPS n)))
      ∧ ((s.hub.chan n).inWin = false → t.hub.pcState n = 6)))
  ∧ (∀ (s : State) (l : List PpcSample) (n : Fin 6), s.hub.up .ppc = true → l.length = 6 →
    s.hub.rdB Reg.PMU_WAKE_EN 1 = false → s.hub.power.state ≠ .doze → s.hub.rdB (Reg.PC_CFG n) 0 = true →
    (s.hub.chan n).ctl = 2 → s.hub.rdB (Reg.PC_CFG n) 2 = false →
    (s.hub.pcState n = 2 ∨ s.hub.pcState n = 3 ∨ s.hub.pcState n = 4 ∨ s.hub.pcState n = 6) →
    Ends (.ppcTick l) s [.ppc, .pins] (pcRegs 0 ∪ pcRegs 1 ∪ pcRegs 2 ∪ pcRegs 3 ∪ pcRegs 4 ∪ pcRegs 5 ∪ {Reg.SIT_FAULTN_CNT}) [.ppc, .sit] (fun t => (t.hub.chan n).ctl = 0 ∧ t.hub.pcState n = 1
      ∧ t.hub.rdF (Reg.PC_STAT n) 11 8 = s.hub.rdF (Reg.PC_CFG n) 9 6 ∧ t.hub.rdF (Reg.PC_STAT n) 15 12 = 0 ∧ t.hub.rdF (Reg.PC_STAT n) 19 16 = s.hub.rdF (Reg.PC_STAT n) 19 16))
  ∧ (∀ (s : State) (l : List PpcSample) (n : Fin 6), s.hub.up .ppc = true → l.length = 6 →
    s.hub.rdB Reg.PMU_WAKE_EN 1 = false → s.hub.power.state ≠ .doze → s.hub.rdB (Reg.PC_CFG n) 0 = true →
    (s.hub.chan n).ctl = 2 → s.hub.pcState n = 5 →
    Ends (.ppcTick l) s [.ppc, .pins] (pcRegs 0 ∪ pcRegs 1 ∪ pcRegs 2 ∪ pcRegs 3 ∪ pcRegs 4 ∪ pcRegs 5 ∪ {Reg.SIT_FAULTN_CNT}) [.ppc, .sit] (fun t => t.hub.pcState n = 5 ∧ t.hub.rdF (Reg.PC_STAT n) 11 8 = s.hub.rdF (Reg.PC_CFG n) 9 6 ∧ t.hub.rdF (Reg.PC_STAT n) 15 12 = 0))
  ∧ (∀ (s : State) (l : List PpcSample) (n : Fin 6), s.hub.up .ppc = true → l.length = 6 →
    s.hub.rdB Reg.PMU_WAKE_EN 1 = false → s.hub.power.state ≠ .doze → s.hub.rdB (Reg.PC_CFG n) 0 = true →
    (s.hub.chan n).ctl = 4 → s.hub.rdB (Reg.PC_CFG n) 2 = false → s.hub.pcState n = 5 →
    Ends (.ppcTick l) s [.ppc, .pins] (pcRegs 0 ∪ pcRegs 1 ∪ pcRegs 2 ∪ pcRegs 3 ∪ pcRegs 4 ∪ pcRegs 5 ∪ {Reg.SIT_FAULTN_CNT}) [.ppc, .sit] (fun t => (t.hub.chan n).ctl = 0 ∧ t.hub.pcState n = 1
      ∧ t.hub.rdF (Reg.PC_STAT n) 11 8 = s.hub.rdF (Reg.PC_CFG n) 9 6 ∧ t.hub.rdF (Reg.PC_STAT n) 15 12 = 0 ∧ t.hub.rdF (Reg.PC_STAT n) 19 16 = 0))
  ∧ (∀ (s : State) (l : List PpcSample), s.hub.up .ppc = true →
    Runs (.ppcTick l) s (settle s.hub (s.hub.fresh.pwrWake ((l.take 6).zipIdx.foldl (fun h e => h.pcTick e.2 e.1) s.hub.fresh))))
  ∧ (∀ (s : State) (n : Fin 6), s.hub.up .ppc = true → s.hub.pcDriven n = true → s.hub.pcFault n ≤ (s.hub.chan n).timer + 1 →
    Runs (.timerTrip n) s (settle s.hub (s.hub.fresh.pcTrips n (s.hub.pcState n))))
  ∧ (∀ (s : State) (n : Fin 6), s.hub.up .ppc = true → s.hub.pcState n = 3 → 9 ≤ (s.hub.chan n).underTicks →
    Runs (.gateFault n) s (settle s.hub (s.hub.fresh.pcTrips n 6)))
  ∧ (∀ (s : State) (n : Fin 6), s.hub.up .ppc = true → 9 ≤ (s.hub.chan n).tempTicks →
    Runs (.tempSensorFault n) s (settle s.hub (s.hub.fresh.pcSensor n)))
  ∧ (∀ (s : State) (n : Fin 6), s.hub.up .ppc = true → s.hub.pcState n = 6 → s.hub.pcCool n = true → 9999 ≤ (s.hub.chan n).inTicks →
    Runs (.inputWindowReturn n) s (settle s.hub (s.hub.fresh.pcWindowIn n)))
  ∧ (∀ (s : State) (n : Fin 6), s.hub.up .ppc = true → s.hub.pcDriven n = true → 4 ≤ (s.hub.chan n).outTicks →
    Runs (.inputWindowFault n) s (settle s.hub (s.hub.fresh.pcWindowOut n)))
  ∧ (∀ (s : State) (n : Fin 6), s.hub.up .ppc = true → s.hub.pcState n = 1 → s.hub.rdB (Reg.PC_CFG n) 2 = true →
    s.hub.pcDetTime n ≤ (s.hub.chan n).detTicks + 1 → Runs (.presenceChange n) s (settle s.hub (s.hub.fresh.pwrWake (s.hub.fresh.pcPresence n))))

/-- Keys, identity and the tamper response (R446, R449–R458, R460, Tables 18.2, 18.4 and 18.7): challenges, sealed updates and their checks in
order, the owner's claim, certificates, zeroization by command and by a detector, re-provisioning, and the battery check. What the
cryptographic functions themselves return stays open.
A clause `Runs c s h` says that the form completes with the effect of the definition that it names, under the row's own conditions alone.
Its clauses rest on these choices of the model: log entries 6, 7, 40 and 46. -/
def Obligations.KeysAndTamper : Prop :=
  (∀ (s : State) (n c : Nat) (k : KeySlot), s.hub.opRunning .ksi 0x10 = true → s.hub.present .ksi = true → s.hub.ksi.kat = 0 →
    s.hub.ksi.lost = false → n = fld (s.hub.arg .ksi 0) 5 0 → k = s.hub.keySlot n → k.type = 1 → k.challenge = true →
    (k.remote = true ∨ s.hub.ksiSrc ≠ 1) → c = (s.hub.rd Reg.KSI_CR_CTR).toNat → c ≠ 0xFFFFFFFF →
    Ends .challenge s [] {Reg.KSI_CR_CTR, Reg.KSI_RESP 0, Reg.KSI_RESP 1, Reg.KSI_RESP 2, Reg.KSI_RESP 3, Reg.KSI_RESP 4, Reg.KSI_RESP 5, Reg.KSI_RESP 6, Reg.KSI_RESP 7}
      [.ksi] (fun t =>
      t.hub.rd Reg.KSI_CR_CTR = w32 (c + 1) ∧ (t.hub.mbx .ksi).result = some (mbxOk [w32 (c + 1), w32 s.hub.hubId])
      ∧ (List.range 8).all (fun i => decide (t.hub.rd (Reg.KSI_RESP i)
        = imgWord (Config.hmac256 k.key (s.hub.ksiChal ++ beBytes 2 s.hub.hubId ++ beBytes 4 (c + 1))) i)) = true))
  ∧ (∀ s : State, s.hub.opRunning .ksi 0x10 = true → s.hub.present .ksi = true → s.hub.ksi.kat = 0 →
    s.hub.ksi.lost = false → (s.hub.keySlot (fld (s.hub.arg .ksi 0) 5 0)).type ≠ 1 →
    Ends .challenge s [] {} [.ksi] (fun t => (t.hub.mbx .ksi).result = some (mbxErr 0x80)))
  ∧ (∀ s : State, s.hub.opRunning .ksi 0x10 = true → s.hub.present .ksi = true → s.hub.ksi.kat ≠ 0 ∨ s.hub.ksi.lost = true →
    Ends .challenge s [] {} [.ksi] (fun t =>
      (t.hub.mbx .ksi).result = some (mbxErr (if s.hub.ksi.kat ≠ 0 then 0x86 else 0x87))))
  ∧ (∀ (s : State) (src : BitVec 14) (x : Byte) (chal : List Byte) (p c o : Nat) (k : KeySlot), s.hub.mainUp = true → s.hub.up .ksi = true →
    s.hub.ksi.kat = 0 → s.hub.ksi.lost = false → k = s.hub.keySlot x.toNat → k.type = 1 → k.challenge = true → k.remote = true →
    c = (s.hub.rd Reg.KSI_CR_CTR).toNat → c ≠ 0xFFFFFFFF → s.hub.route src.toNat = some p →
    (s.hub.waits.all fun w => decide (w.slot ≠ some p)) = true → s.hub.verdict p 0x11 (s.hub.ctx p).tc 1 = .accept o 0 →
    Ends (.challengeMsgRx src x chal) s sendParts (sendRegs ∪ {Reg.KSI_CR_CTR}) sendBlocks (fun t =>
      t.hub.rd Reg.KSI_CR_CTR = w32 (c + 1) ∧ (t.hub.ctx p).inseq = ((s.hub.ctx p).inseq + 1) % 65536))
  ∧ (∀ (s : State) (m : List Byte) (slot ctr w : Nat), s.hub.opRunning .ksi 0x11 = true → s.hub.present .ksi = true → s.hub.ksi.kat = 0 →
    s.hub.ksi.lost = false → m = s.hub.ksiBuf (min (s.hub.arg .ksi 0).toNat 2048) → slot = msgF m 6 1 → ctr = msgF m 60 8 → w = msgF m 165 1 →
    Ends .keyUpdate s [.ksi, .wide, .pins] {Reg.KSI_UPD_REJ, Reg.SIT_FAULTN_CNT} [.ksi, .sit] (fun t =>
      (∀ a, a ≠ Reg.KSI_UPD_CTR_LO → t.hub.rdWide a = s.hub.rdWide a)
      ∧ ((t.hub.mbx .ksi).result ≠ some (mbxOk [w32 slot, lo32 ctr, hi32 ctr]) →
        t.hub.ksi = s.hub.ksi ∧ t.hub.rdWide Reg.KSI_UPD_CTR_LO = s.hub.rdWide Reg.KSI_UPD_CTR_LO
        ∧ t.hub.rd Reg.KSI_UPD_REJ = incHold (s.hub.rd Reg.KSI_UPD_REJ) ∧ t.hub.raw .ksi 2 = true ∧ bit (t.hub.hdr .ksi).sticky 1 = true)
      ∧ (keyShape m = false → (t.hub.mbx .ksi).result = some (mbxErr 0x82))
      ∧ (keyShape m = true → (m.drop 12).take 48 ≠ s.hub.devDigest → (t.hub.mbx .ksi).result = some (mbxErr 0x83))
      ∧ (keyShape m = true → (m.drop 12).take 48 = s.hub.devDigest → ctr ≤ s.hub.rdWide Reg.KSI_UPD_CTR_LO →
        (t.hub.mbx .ksi).result = some (mbxErr 0x84))
      ∧ (keyShape m = true → (m.drop 12).take 48 = s.hub.devDigest → s.hub.rdWide Reg.KSI_UPD_CTR_LO < ctr → (s.hub.keySlot 0).type = 2 →
        Config.verify (s.hub.keySlot 0).key (m.take (166 + w)) (m.drop (166 + w)) = false → (t.hub.mbx .ksi).result = some (mbxErr 0x06))
      ∧ (keyShape m = true → (m.drop 12).take 48 = s.hub.devDigest → s.hub.rdWide Reg.KSI_UPD_CTR_LO < ctr → (s.hub.keySlot 0).type = 2 →
        Config.verify (s.hub.keySlot 0).key (m.take (166 + w)) (m.drop (166 + w)) = true → msgF m 5 1 = 2 →
        t.hub.keySlot slot = {} ∧ t.hub.rdWide Reg.KSI_UPD_CTR_LO = ctr ∧ t.hub.raw .ksi 1 = true
        ∧ (t.hub.mbx .ksi).result = some (mbxOk [w32 slot, lo32 ctr, hi32 ctr]))))
  ∧ (∀ s : State, s.hub.opRunning .ksi 0x11 = true → (s.hub.mbx .ksi).postedAt + 2000000000 ≤ s.hub.mono →
    Ends .keyUpdateTimeout s [] {} [.ksi] (fun t => (t.hub.mbx .ksi).result = some (mbxErr 0x07)))
  ∧ (∀ (s : State) (src : BitVec 14) (m : List Byte) (p o : Nat), s.hub.mainUp = true → s.hub.up .ksi = true → s.hub.route src.toNat = some p →
    (s.hub.waits.all fun w => decide (w.slot ≠ some p)) = true → s.hub.verdict p 0x11 (s.hub.ctx p).tc 1 = .accept o 0 →
    Ends (.keySealedRx src m) s (.ksi :: .wide :: sendParts) (sendRegs ∪ {Reg.KSI_UPD_REJ}) (.ksi :: sendBlocks) (fun t =>
      (∀ a, a ≠ Reg.KSI_UPD_CTR_LO → t.hub.rdWide a = s.hub.rdWide a)
      ∧ (t.hub.ctx p).inseq = ((s.hub.ctx p).inseq + 1) % 65536
      ∧ (s.hub.opRunning .ksi 0x11 = true ∨ s.hub.ksi.kat ≠ 0 ∨ s.hub.ksi.lost = true → t.hub.ksi = s.hub.ksi
        ∧ t.hub.rd Reg.KSI_UPD_REJ = s.hub.rd Reg.KSI_UPD_REJ ∧ t.hub.rdWide Reg.KSI_UPD_CTR_LO = s.hub.rdWide Reg.KSI_UPD_CTR_LO)
      ∧ (s.hub.opRunning .ksi 0x11 = false → s.hub.ksi.kat = 0 → s.hub.ksi.lost = false → keyShape m = false → t.hub.ksi = s.hub.ksi
        ∧ t.hub.rd Reg.KSI_UPD_REJ = incHold (s.hub.rd Reg.KSI_UPD_REJ) ∧ t.hub.raw .ksi 2 = true)))
  ∧ (∀ (s : State) (k : List Byte), s.hub.opRunning .ksi 0x12 = true → s.hub.present .ksi = true → s.hub.ksi.kat = 0 →
    s.hub.ksi.lost = false → s.hub.ksiLocal = true → (s.hub.keySlot 0).type = 0 → k = s.hub.ksiBuf 97 →
    Ends .ownerClaim s [.ksi] {} [.ksi] (fun t =>
      (Config.onCurve k = true → t.hub.keySlot 0 = { type := 2, len := 97, ctr := s.hub.rdWide Reg.KSI_UPD_CTR_LO % 65536, key := k }
        ∧ (t.hub.mbx .ksi).result = some (mbxOk []))
      ∧ (Config.onCurve k = false → t.hub.ksi = s.hub.ksi ∧ (t.hub.mbx .ksi).result = some (mbxErr 0x82))))
  ∧ (∀ s : State, s.hub.opRunning .ksi 0x12 = true → s.hub.present .ksi = true → s.hub.ksi.kat = 0 → s.hub.ksi.lost = true →
    Ends .ownerClaim s [] {} [.ksi] (fun t => (t.hub.mbx .ksi).result = some (mbxErr 0x87)))
  ∧ (∀ s : State, s.hub.opRunning .ksi 0x12 = true → s.hub.present .ksi = true → s.hub.ksi.kat = 0 →
    s.hub.ksi.lost = false → s.hub.ksiLocal = false ∨ (s.hub.keySlot 0).type ≠ 0 →
    Ends .ownerClaim s [] {} [.ksi] (fun t => (t.hub.mbx .ksi).result = some (mbxErr (if s.hub.ksiLocal then 0x88 else 0x81))))
  ∧ (∀ (s : State) (c b : List Byte) (off : Nat), s.hub.opRunning .ksi 0x13 = true → s.hub.present .ksi = true → s.hub.arg .ksi 0 ∈ [0, 1] →
    c = (if s.hub.arg .ksi 0 = 0 then s.hub.ksi.devCert else s.hub.ksi.caCert) → off = (s.hub.arg .ksi 1).toNat → off % 4 = 0 → off < c.length →
    b = (c.drop off).take 20 ++ List.replicate 20 0 →
    Ends .certRead s [] {} [.ksi] (fun t => (t.hub.mbx .ksi).result
      = some (mbxOk [w32 c.length, imgWord b 0, imgWord b 1, imgWord b 2, imgWord b 3, imgWord b 4])))
  ∧ (∀ s : State, s.hub.opRunning .ksi 0x14 = true → s.hub.present .ksi = true → s.hub.ksiLocal = true →
    Ends .zeroize s [.ksi, .wide, .pins] {Reg.KSI_TAMP_CFG, Reg.KSI_TAMP_REC, Reg.KSI_TAMP_COUNT, Reg.SIT_FAULTN_CNT} [.ksi, .sit] (fun t =>
      (∀ a, a ≠ Reg.KSI_TAMP_TIME_LO → t.hub.rdWide a = s.hub.rdWide a)
      ∧ t.hub.ksi = { s.hub.ksi with lost := true, root := List.replicate 32 0, slots := [] } ∧ t.hub.rd Reg.KSI_TAMP_CFG = 0
      ∧ t.hub.rd Reg.KSI_TAMP_REC = bitW 6 ∧ t.hub.rd Reg.KSI_TAMP_COUNT = incHold (s.hub.rd Reg.KSI_TAMP_COUNT)
      ∧ t.hub.raw .ksi 0 = true ∧ bit (t.hub.hdr .ksi).sticky 0 = true ∧ bit (t.hub.hdr .ksi).live 0 = true
      ∧ t.hub.rdWide Reg.KSI_TAMP_TIME_LO = (if s.hub.mainUp then s.hub.now % 2 ^ 64 else 0) ∧ (t.hub.mbx .ksi).result = some (mbxOk [])))
  ∧ (∀ s : State, s.hub.opRunning .ksi 0x14 = true → s.hub.present .ksi = true → s.hub.ksiLocal = false →
    Ends .zeroize s [] {} [.ksi] (fun t => (t.hub.mbx .ksi).result = some (mbxErr 0x81)))
  ∧ (∀ (s : State) (c : Fin 6), s.hub.power.state = .run → s.hub.mainUp = true → s.hub.rdF Reg.PMU_STATE 2 0 ≠ 4 →
    (2 ≤ c.val ∨ s.hub.rdB Reg.KSI_TAMP_CFG c = true) →
    Ends (.tamperTrip c) s [.ksi, .wide, .pins] {Reg.KSI_TAMP_CFG, Reg.KSI_TAMP_REC, Reg.KSI_TAMP_COUNT, Reg.SIT_FAULTN_CNT} [.ksi, .pmu, .sit] (fun t =>
      (∀ a, a ≠ Reg.KSI_TAMP_TIME_LO → t.hub.rdWide a = s.hub.rdWide a)
      ∧ t.hub.ksi = { s.hub.ksi with lost := true, root := List.replicate 32 0, slots := [] } ∧ t.hub.rd Reg.KSI_TAMP_CFG = 0
      ∧ t.hub.rd Reg.KSI_TAMP_REC = bitW c ∧ t.hub.rd Reg.KSI_TAMP_COUNT = incHold (s.hub.rd Reg.KSI_TAMP_COUNT)
      ∧ t.hub.rdWide Reg.KSI_TAMP_TIME_LO = s.hub.now % 2 ^ 64 ∧ t.hub.raw .ksi 0 = true ∧ bit (t.hub.hdr .ksi).live 0 = true
      ∧ t.hub.raw .pmu 1 = true ∧ (s.hub.opRunning .ksi 0x11 = true → (t.hub.mbx .ksi).result = some (mbxErr 0x87))))
  ∧ (∀ (s : State) (c : Fin 6), s.hub.power.state ∈ [.nap, .dormant] → s.hub.power.wakeLatch = none →
    (2 ≤ c.val ∨ s.hub.rdB Reg.KSI_TAMP_CFG c = true) →
    Ends (.tamperTrip c) s [.ksi, .wide, .pins, .power] {Reg.KSI_TAMP_CFG, Reg.KSI_TAMP_REC, Reg.KSI_TAMP_COUNT, Reg.SIT_FAULTN_CNT, Reg.PMU_STATE}
      [.ksi, .sit] (fun t =>
      (∀ a, a ≠ Reg.KSI_TAMP_TIME_LO → t.hub.rdWide a = s.hub.rdWide a)
      ∧ t.hub.ksi = { s.hub.ksi with lost := true, root := List.replicate 32 0, slots := [] } ∧ t.hub.rd Reg.KSI_TAMP_REC = bitW c
      ∧ t.hub.power = { s.hub.power with wakeLatch := some 3 } ∧ t.hub.rdF Reg.PMU_STATE 2 0 = 5))
  ∧ (∀ (s : State) (m : BitVec 2), s.hub.up .ksi = true →
    Ends (.tampLoopEnable m) s [] {Reg.KSI_TAMP_CFG} [] (fun t => t.hub.rd Reg.KSI_TAMP_CFG = s.hub.rd Reg.KSI_TAMP_CFG ||| m.setWidth 32))
  ∧ (∀ s : State, s.hub.up .ksi = true → s.hub.ksi.vbatLow = false →
    Ends (.vbatCheck true) s [.ksi, .pins] {Reg.SIT_FAULTN_CNT} [.ksi, .sit] (fun t => t.hub.ksi = { s.hub.ksi with vbatLow := true }
      ∧ t.hub.raw .ksi 3 = true ∧ bit (t.hub.hdr .ksi).sticky 3 = true ∧ bit (t.hub.hdr .ksi).live 3 = true))
  ∧ (∀ s : State, s.hub.up .ksi = true →
    Ends (.vbatCheck false) s [.ksi] {} [.ksi] (fun t => t.hub.ksi = { s.hub.ksi with vbatLow := false } ∧ bit (t.hub.hdr .ksi).live 3 = false))
  ∧ (∀ s : State, s.hub.opRunning .ksi 0x15 = true → s.hub.present .ksi = true → s.hub.ksi.kat = 0 → s.hub.ksi.lost = true →
    Ends .provisionBegin s [.ksi, .free] {a | ∃ i ∈ List.range 512, a = Reg.KSI_BUF i} [.ksi] (fun t =>
      t.hub.ksi = { s.hub.ksi with root := (s.hub.random32).2 } ∧ t.hub.free = s.hub.free + 8
      ∧ (t.hub.mbx .ksi).result = some (mbxOk [105])))
  ∧ (∀ s : State, s.hub.opRunning .ksi 0x15 = true → s.hub.present .ksi = true → s.hub.ksi.kat = 0 → s.hub.ksi.lost = false →
    Ends .provisionBegin s [] {} [.ksi] (fun t => (t.hub.mbx .ksi).result = some (mbxErr 0x89)))
  ∧ (∀ (s : State) (n m : Nat) (d c : List Byte), s.hub.opRunning .ksi 0x16 = true → s.hub.present .ksi = true → s.hub.ksi.kat = 0 →
    s.hub.ksi.lost = true → n = (s.hub.arg .ksi 0).toNat → m = (s.hub.arg .ksi 1).toNat → n ≤ 1024 → m ≤ 1024 →
    d = (s.hub.ksiBuf (n + m)).take n → c = (s.hub.ksiBuf (n + m)).drop n →
    Ends .provisionCert s [.ksi] {} [.ksi] (fun t =>
      (Config.chainGood d c = true → Config.certPub d = Config.devicePub s.hub.ksi.root →
        Config.certSerial d = join64 (s.hub.rd Reg.KSI_SERIAL_LO) (s.hub.rd Reg.KSI_SERIAL_HI) →
        t.hub.ksi = { s.hub.ksi with lost := false, devCert := d, caCert := c } ∧ bit (t.hub.hdr .ksi).live 0 = false
        ∧ t.hub.raw .ksi 4 = true ∧ (t.hub.mbx .ksi).result = some (mbxOk []))
      ∧ (Config.chainGood d c = false → t.hub.ksi = s.hub.ksi ∧ (t.hub.mbx .ksi).result = some (mbxErr 0x89))))
  ∧ (∀ s : State, s.hub.opRunning .ksi 0x10 = true → Runs .challenge s (settle s.hub (s.hub.fresh.runOp .ksi 0x10 Hub.challengeOp)))
  ∧ (∀ s : State, s.hub.opRunning .ksi 0x11 = true → Runs .keyUpdate s (settle s.hub (s.hub.fresh.runOp .ksi 0x11 Hub.keyUpdateOp)))
  ∧ (∀ s : State, s.hub.opRunning .ksi 0x12 = true → Runs .ownerClaim s (settle s.hub (s.hub.fresh.runOp .ksi 0x12 Hub.ownerClaimOp)))
  ∧ (∀ s : State, s.hub.opRunning .ksi 0x13 = true → Runs .certRead s (settle s.hub (s.hub.fresh.runOp .ksi 0x13 Hub.certReadOp)))
  ∧ (∀ s : State, s.hub.opRunning .ksi 0x14 = true → Runs .zeroize s (settle s.hub (s.hub.fresh.runOp .ksi 0x14 Hub.zeroizeOp)))
  ∧ (∀ s : State, s.hub.opRunning .ksi 0x15 = true → Runs .provisionBegin s (settle s.hub (s.hub.fresh.runOp .ksi 0x15 Hub.provisionOp)))
  ∧ (∀ s : State, s.hub.opRunning .ksi 0x16 = true → Runs .provisionCert s (settle s.hub (s.hub.fresh.runOp .ksi 0x16 Hub.provisionCertOp)))
  ∧ (∀ (s : State) (src : BitVec 14) (x : Byte) (m : List Byte), s.hub.mainUp = true → s.hub.up .ksi = true →
    Runs (.challengeMsgRx src x m) s (settle s.hub (s.hub.fresh.tscWatch (s.hub.fresh.challengeMsg src x m)))
    ∧ Runs (.keySealedRx src m) s (settle s.hub (s.hub.fresh.tscWatch (s.hub.fresh.keySealed src m))))
  ∧ (∀ (s : State) (c : Fin 6), (2 ≤ c.val ∨ s.hub.rdB Reg.KSI_TAMP_CFG c = true) →
    Runs (.tamperTrip c) s (settle s.hub ((s.hub.fresh.zeroize c).wakeEvent 3)))

/-- Performance counters (R486, R488, R489, R491–R493): a queued sample's bin, a histogram's snapshot and its clearing, the
counters' latched reads and loads, a sample's capture, and the end of a bandwidth window.
Its clauses rest on these choices of the model: log entry 39. -/
def Obligations.Measurements : Prop :=
  (∀ (s : State) (n : Fin 32) (x k : Nat) (q : List Nat), s.hub.mainUp = true → Tab.get (fun _ => []) s.hub.pmc.queue n = x :: q →
    k = 64 * n.val + binOf (s.hub.rdF (Reg.H_CFG n) 6 4) x →
    Ends (.histBinUpdate n) s [.pmc] {} [.pmc] (fun t =>
      t.hub.pmc = { s.hub.pmc with bins := t.hub.pmc.bins, queue := Tab.set (fun _ => []) s.hub.pmc.queue n q }
      ∧ Tab.get (fun _ => 0) t.hub.pmc.bins k = min 0xFFFFFFFF (Tab.get (fun _ => 0) s.hub.pmc.bins k + 1)
      ∧ (∀ j, j ≠ k → Tab.get (fun _ => 0) t.hub.pmc.bins j = Tab.get (fun _ => 0) s.hub.pmc.bins j)
      ∧ (Tab.get (fun _ => 0) t.hub.pmc.bins k = 0xFFFFFFFF → t.hub.raw .pmc 2 = true)))
  ∧ (∀ (s : State) (n : Fin 32), s.hub.mainUp = true →
    Ends (.hSnap n) s [.pmc, .wide] {Reg.H_FCOUNT n, Reg.H_FOVER n, Reg.H_FREPLAY n, Reg.H_FLOST n, Reg.H_FMAX n} [] (fun t =>
      t.hub.pmc = { s.hub.pmc with frozen := t.hub.pmc.frozen }
      ∧ (∀ b ∈ List.range 64, Tab.get (fun _ => 0) t.hub.pmc.frozen (64 * n.val + b) = Tab.get (fun _ => 0) s.hub.pmc.bins (64 * n.val + b))
      ∧ (∀ j, j / 64 ≠ n.val → Tab.get (fun _ => 0) t.hub.pmc.frozen j = Tab.get (fun _ => 0) s.hub.pmc.frozen j)
      ∧ t.hub.rd (Reg.H_FCOUNT n) = s.hub.rd (Reg.H_COUNT n) ∧ t.hub.rd (Reg.H_FOVER n) = s.hub.rd (Reg.H_OVER n)
      ∧ t.hub.rd (Reg.H_FREPLAY n) = s.hub.rd (Reg.H_REPLAY n) ∧ t.hub.rd (Reg.H_FLOST n) = s.hub.rd (Reg.H_LOST n)
      ∧ t.hub.rd (Reg.H_FMAX n) = s.hub.rd (Reg.H_MAX n) ∧ t.hub.rdWide (Reg.H_SNAP_TIME_LO n) = s.hub.now % 2 ^ 64
      ∧ (∀ a, a ≠ Reg.H_SNAP_TIME_LO n → t.hub.rdWide a = s.hub.rdWide a))
    ∧ Ends (.hClr n) s [.pmc] {Reg.H_COUNT n, Reg.H_OVER n, Reg.H_REPLAY n, Reg.H_LOST n, Reg.H_MAX n} [] (fun t =>
      t.hub.pmc = { s.hub.pmc with bins := t.hub.pmc.bins }
      ∧ (∀ b ∈ List.range 64, Tab.get (fun _ => 0) t.hub.pmc.bins (64 * n.val + b) = 0)
      ∧ (∀ j, j / 64 ≠ n.val → Tab.get (fun _ => 0) t.hub.pmc.bins j = Tab.get (fun _ => 0) s.hub.pmc.bins j)
      ∧ t.hub.rd (Reg.H_COUNT n) = 0 ∧ t.hub.rd (Reg.H_OVER n) = 0 ∧ t.hub.rd (Reg.H_REPLAY n) = 0 ∧ t.hub.rd (Reg.H_LOST n) = 0
      ∧ t.hub.rd (Reg.H_MAX n) = 0))
  ∧ (∀ (s : State) (n : Fin 256), s.hub.mainUp = true → s.hub.chained n = false →
    Ends (.counterLoRead n) s [.pmc] {} [] (fun t =>
      t.hub.pmc = { s.hub.pmc with latch := t.hub.pmc.latch } ∧ Tab.find t.hub.pmc.latch (2 * n.val + 1) = some (hi32 (s.hub.counter n))
      ∧ (s.hub.chainAbove 256 n).all (fun m => decide (Tab.find t.hub.pmc.latch (2 * m) = some (lo32 (s.hub.counter m)))
        && decide (Tab.find t.hub.pmc.latch (2 * m + 1) = some (hi32 (s.hub.counter m)))) = true))
  ∧ (∀ (s : State) (n : Fin 256), s.hub.mainUp = true → s.hub.chained n = true → Ends (.counterLoRead n) s [] {} [] (fun _ => True))
  ∧ (∀ (s : State) (n : Fin 256) (v : Word), s.hub.mainUp = true →
    Ends (.counterHiWrite n v) s [.pmc] {} [] (fun t =>
      t.hub.pmc = { s.hub.pmc with hold := t.hub.pmc.hold } ∧ Tab.find t.hub.pmc.hold n = some (v &&& 0xFFFF)
      ∧ (∀ j, j ≠ n.val → Tab.find t.hub.pmc.hold j = Tab.find s.hub.pmc.hold j) ∧ t.hub.counter n = s.hub.counter n)
    ∧ Ends (.counterLoWrite n v) s [.pmc] {} [] (fun t =>
      t.hub.pmc = { s.hub.pmc with cnt := t.hub.pmc.cnt, bad := t.hub.pmc.bad }
      ∧ t.hub.counter n = join64 v ((Tab.find s.hub.pmc.hold n).getD 0) ∧ (∀ j, j ≠ n.val → t.hub.counter j = s.hub.counter j)))
  ∧ (∀ (s : State) (e : Nat × Nat × Nat) (d : PmcDec) (i : Nat), s.hub.mainUp = true → s.hub.capReady = some e →
    Tab.find s.hub.pmc.lastDec e.1 = some d → i = s.hub.rdF Reg.PMC_CAP_STAT 11 0 → s.hub.capUnread ≠ 3807 ∨ s.hub.rdB Reg.PMC_CTL 2 = true →
    Ends .sampleCapture s [.pmc] {Reg.PMC_CAP_STAT} [] (fun t =>
      t.hub.pmc = { s.hub.pmc with capture := s.hub.pmc.capture.erase e, ring := t.hub.pmc.ring }
      ∧ Tab.find t.hub.pmc.ring i = some (d.words e.2.1 e.1) ∧ (∀ j, j ≠ i → Tab.find t.hub.pmc.ring j = Tab.find s.hub.pmc.ring j)
      ∧ t.hub.rdF Reg.PMC_CAP_STAT 11 0 = (i + 1) % 3808))
  ∧ (∀ (s : State) (e : Nat × Nat × Nat) (d : PmcDec), s.hub.mainUp = true → s.hub.capReady = some e →
    Tab.find s.hub.pmc.lastDec e.1 = some d → s.hub.capUnread = 3807 → s.hub.rdB Reg.PMC_CTL 2 = false →
    Ends .sampleCapture s [.pmc] {Reg.PMC_CAP_LOST} [.pmc] (fun t =>
      t.hub.pmc = { s.hub.pmc with capture := s.hub.pmc.capture.erase e }
      ∧ t.hub.rd Reg.PMC_CAP_LOST = incHold (s.hub.rd Reg.PMC_CAP_LOST) ∧ t.hub.raw .pmc 1 = true))
  ∧ (∀ (s : State) (p : EgressNo) (n : Nat), s.hub.mainUp = true → s.hub.time.reached (s.hub.bwWin p) = true →
    n = min (Tab.get (fun _ => 0) s.hub.pmc.bw p) 0xFFFFFFFF →
    Ends (.bwWindowEnd p) s [.pmc] {Reg.BW_LAST p, Reg.BW_PEAK p} [] (fun t =>
      t.hub.rd (Reg.BW_LAST p) = w32 n ∧ (t.hub.rd (Reg.BW_PEAK p)).toNat = max (s.hub.rd (Reg.BW_PEAK p)).toNat n
      ∧ t.hub.pmc = { s.hub.pmc with bw := Tab.del s.hub.pmc.bw p } ∧ Tab.get (fun _ => 0) t.hub.pmc.bw p = 0))

/-- A step runs the command at the front of the queue on the queue's rest; on an empty queue the hub idles, which lets one steward cycle
pass, or, while the main die is held or sleeps, the custody die's intervals and keep clock go on (the model's choice, log entries 1 and 46). Every command, whatever its operands and the state, answers a next state with the queue as it
was. -/
def Obligations.StepRunsFront : Prop :=
  (∀ (c : Instr) (q : List Instr) (s : State), step { s with pending := c :: q } = exec c { s with pending := q })
  ∧ (∀ s : State, s.pending = [] → s.hub.mainUp = true → step s = .next { s with hub := s.hub.tick })
  ∧ (∀ s : State, s.pending = [] → s.hub.mainUp = false → s.hub.custodyUp = true →
    step s = .next { s with hub := { s.hub with
      time := { s.hub.time with up := s.hub.time.up + 2 }
      power := s.hub.power.keepTick } })
  ∧ (∀ s : State, s.pending = [] → s.hub.mainUp = false → s.hub.custodyUp = false → step s = .next s)
  ∧ (∀ (c : Instr) (s : State), ∃ h, exec c s = .next { s with hub := h })

/-- Right after reset, whatever the straps, ENABLE is 0 in every block that they leave out, and no event waits in a FIFO of the order log
that is off. -/
def Obligations.SoundAtReset : Prop := State.reset.hub.Sound ∧ ∀ st : Straps, (Hub.reset st).Sound

/-- Every step of a sound hub answers a next state, and its hub is sound: no command of the table, and no idle cycle, sets ENABLE in a block
that the role leaves out (R12), or leaves an event in a FIFO of an order log that is off (Table 10.8); and none ends the run. -/
def Obligations.StepsKeepSound : Prop := ∀ s : State, s.hub.Sound → ∃ t, step s = .next t ∧ t.hub.Sound
end

