-- ==== Sys2Proof/Laws/State.lean ====
section
/-! SUPPORT. What each update of the hub leaves alone: one equation per update and field, all by definition, so that no
proof unfolds a record update. -/

namespace Sys2Proof.Machine

@[simp] theorem Hub.wr_straps (h : Hub) (a : Nat) (v : Word) : (h.wr a v).straps = h.straps := rfl
@[simp] theorem Hub.wr_pend (h : Hub) (a : Nat) (v : Word) : (h.wr a v).pend = h.pend := rfl
@[simp] theorem Hub.wr_wide (h : Hub) (a : Nat) (v : Word) : (h.wr a v).wide = h.wide := rfl
@[simp] theorem Hub.wr_hdrs (h : Hub) (a : Nat) (v : Word) : (h.wr a v).hdrs = h.hdrs := rfl
@[simp] theorem Hub.wr_mh (h : Hub) (a : Nat) (v : Word) : (h.wr a v).mh = h.mh := rfl
@[simp] theorem Hub.wr_olog (h : Hub) (a : Nat) (v : Word) : (h.wr a v).olog = h.olog := rfl
@[simp] theorem Hub.wr_arbs (h : Hub) (a : Nat) (v : Word) : (h.wr a v).arbs = h.arbs := rfl
@[simp] theorem Hub.wr_time (h : Hub) (a : Nat) (v : Word) : (h.wr a v).time = h.time := rfl
@[simp] theorem Hub.wr_power (h : Hub) (a : Nat) (v : Word) : (h.wr a v).power = h.power := rfl
@[simp] theorem Hub.wr_pins (h : Hub) (a : Nat) (v : Word) : (h.wr a v).pins = h.pins := rfl
@[simp] theorem Hub.wr_lanes (h : Hub) (a : Nat) (v : Word) : (h.wr a v).lanes = h.lanes := rfl
@[simp] theorem Hub.wr_repair (h : Hub) (a : Nat) (v : Word) : (h.wr a v).repair = h.repair := rfl
@[simp] theorem Hub.wr_auto (h : Hub) (a : Nat) (v : Word) : (h.wr a v).auto = h.auto := rfl
@[simp] theorem Hub.wr_repairMap (h : Hub) (a : Nat) (v : Word) : (h.wr a v).repairMap = h.repairMap := rfl
@[simp] theorem Hub.wr_cells (h : Hub) (a : Nat) (v : Word) : (h.wr a v).cells = h.cells := rfl
@[simp] theorem Hub.wr_counts (h : Hub) (a : Nat) (v : Word) : (h.wr a v).counts = h.counts := rfl
@[simp] theorem Hub.wr_opens (h : Hub) (a : Nat) (v : Word) : (h.wr a v).opens = h.opens := rfl
@[simp] theorem Hub.wr_foyers (h : Hub) (a : Nat) (v : Word) : (h.wr a v).foyers = h.foyers := rfl
@[simp] theorem Hub.wr_waits (h : Hub) (a : Nat) (v : Word) : (h.wr a v).waits = h.waits := rfl
@[simp] theorem Hub.wr_ctxs (h : Hub) (a : Nat) (v : Word) : (h.wr a v).ctxs = h.ctxs := rfl
@[simp] theorem Hub.wr_paging (h : Hub) (a : Nat) (v : Word) : (h.wr a v).paging = h.paging := rfl
@[simp] theorem Hub.wr_banks (h : Hub) (a : Nat) (v : Word) : (h.wr a v).banks = h.banks := rfl
@[simp] theorem Hub.wr_links (h : Hub) (a : Nat) (v : Word) : (h.wr a v).links = h.links := rfl
@[simp] theorem Hub.wr_xfer (h : Hub) (a : Nat) (v : Word) : (h.wr a v).xfer = h.xfer := rfl
@[simp] theorem Hub.wr_fts (h : Hub) (a : Nat) (v : Word) : (h.wr a v).fts = h.fts := rfl
@[simp] theorem Hub.wr_tports (h : Hub) (a : Nat) (v : Word) : (h.wr a v).tports = h.tports := rfl
@[simp] theorem Hub.wr_pageq (h : Hub) (a : Nat) (v : Word) : (h.wr a v).pageq = h.pageq := rfl
@[simp] theorem Hub.wr_tags (h : Hub) (a : Nat) (v : Word) : (h.wr a v).tags = h.tags := rfl
@[simp] theorem Hub.wr_ksi (h : Hub) (a : Nat) (v : Word) : (h.wr a v).ksi = h.ksi := rfl
@[simp] theorem Hub.wr_mir (h : Hub) (a : Nat) (v : Word) : (h.wr a v).mir = h.mir := rfl
@[simp] theorem Hub.wr_dse (h : Hub) (a : Nat) (v : Word) : (h.wr a v).dse = h.dse := rfl
@[simp] theorem Hub.wr_vin (h : Hub) (a : Nat) (v : Word) : (h.wr a v).vin = h.vin := rfl
@[simp] theorem Hub.wr_eth (h : Hub) (a : Nat) (v : Word) : (h.wr a v).eth = h.eth := rfl
@[simp] theorem Hub.wr_pxb (h : Hub) (a : Nat) (v : Word) : (h.wr a v).pxb = h.pxb := rfl
@[simp] theorem Hub.wr_usb (h : Hub) (a : Nat) (v : Word) : (h.wr a v).usb = h.usb := rfl
@[simp] theorem Hub.wr_ppc (h : Hub) (a : Nat) (v : Word) : (h.wr a v).ppc = h.ppc := rfl
@[simp] theorem Hub.wr_pmc (h : Hub) (a : Nat) (v : Word) : (h.wr a v).pmc = h.pmc := rfl
@[simp] theorem Hub.wr_sit (h : Hub) (a : Nat) (v : Word) : (h.wr a v).sit = h.sit := rfl
@[simp] theorem Hub.wr_remote (h : Hub) (a : Nat) (v : Word) : (h.wr a v).remote = h.remote := rfl
@[simp] theorem Hub.wr_free (h : Hub) (a : Nat) (v : Word) : (h.wr a v).free = h.free := rfl
@[simp] theorem Hub.wr_out (h : Hub) (a : Nat) (v : Word) : (h.wr a v).out = h.out := rfl
@[simp] theorem Hub.wr_rdWide (h : Hub) (a : Nat) (v : Word) (y : Nat) : (h.wr a v).rdWide y = h.rdWide y := rfl
@[simp] theorem Hub.wr_hdr (h : Hub) (a : Nat) (v : Word) (y : Block) : (h.wr a v).hdr y = h.hdr y := rfl

@[simp] theorem Hub.wrF_straps (h : Hub) (a hi lo v : Nat) : (h.wrF a hi lo v).straps = h.straps := rfl
@[simp] theorem Hub.wrF_pend (h : Hub) (a hi lo v : Nat) : (h.wrF a hi lo v).pend = h.pend := rfl
@[simp] theorem Hub.wrF_wide (h : Hub) (a hi lo v : Nat) : (h.wrF a hi lo v).wide = h.wide := rfl
@[simp] theorem Hub.wrF_hdrs (h : Hub) (a hi lo v : Nat) : (h.wrF a hi lo v).hdrs = h.hdrs := rfl
@[simp] theorem Hub.wrF_mh (h : Hub) (a hi lo v : Nat) : (h.wrF a hi lo v).mh = h.mh := rfl
@[simp] theorem Hub.wrF_olog (h : Hub) (a hi lo v : Nat) : (h.wrF a hi lo v).olog = h.olog := rfl
@[simp] theorem Hub.wrF_arbs (h : Hub) (a hi lo v : Nat) : (h.wrF a hi lo v).arbs = h.arbs := rfl
@[simp] theorem Hub.wrF_time (h : Hub) (a hi lo v : Nat) : (h.wrF a hi lo v).time = h.time := rfl
@[simp] theorem Hub.wrF_power (h : Hub) (a hi lo v : Nat) : (h.wrF a hi lo v).power = h.power := rfl
@[simp] theorem Hub.wrF_pins (h : Hub) (a hi lo v : Nat) : (h.wrF a hi lo v).pins = h.pins := rfl
@[simp] theorem Hub.wrF_lanes (h : Hub) (a hi lo v : Nat) : (h.wrF a hi lo v).lanes = h.lanes := rfl
@[simp] theorem Hub.wrF_repair (h : Hub) (a hi lo v : Nat) : (h.wrF a hi lo v).repair = h.repair := rfl
@[simp] theorem Hub.wrF_auto (h : Hub) (a hi lo v : Nat) : (h.wrF a hi lo v).auto = h.auto := rfl
@[simp] theorem Hub.wrF_repairMap (h : Hub) (a hi lo v : Nat) : (h.wrF a hi lo v).repairMap = h.repairMap := rfl
@[simp] theorem Hub.wrF_cells (h : Hub) (a hi lo v : Nat) : (h.wrF a hi lo v).cells = h.cells := rfl
@[simp] theorem Hub.wrF_counts (h : Hub) (a hi lo v : Nat) : (h.wrF a hi lo v).counts = h.counts := rfl
@[simp] theorem Hub.wrF_opens (h : Hub) (a hi lo v : Nat) : (h.wrF a hi lo v).opens = h.opens := rfl
@[simp] theorem Hub.wrF_foyers (h : Hub) (a hi lo v : Nat) : (h.wrF a hi lo v).foyers = h.foyers := rfl
@[simp] theorem Hub.wrF_waits (h : Hub) (a hi lo v : Nat) : (h.wrF a hi lo v).waits = h.waits := rfl
@[simp] theorem Hub.wrF_ctxs (h : Hub) (a hi lo v : Nat) : (h.wrF a hi lo v).ctxs = h.ctxs := rfl
@[simp] theorem Hub.wrF_paging (h : Hub) (a hi lo v : Nat) : (h.wrF a hi lo v).paging = h.paging := rfl
@[simp] theorem Hub.wrF_banks (h : Hub) (a hi lo v : Nat) : (h.wrF a hi lo v).banks = h.banks := rfl
@[simp] theorem Hub.wrF_links (h : Hub) (a hi lo v : Nat) : (h.wrF a hi lo v).links = h.links := rfl
@[simp] theorem Hub.wrF_xfer (h : Hub) (a hi lo v : Nat) : (h.wrF a hi lo v).xfer = h.xfer := rfl
@[simp] theorem Hub.wrF_fts (h : Hub) (a hi lo v : Nat) : (h.wrF a hi lo v).fts = h.fts := rfl
@[simp] theorem Hub.wrF_tports (h : Hub) (a hi lo v : Nat) : (h.wrF a hi lo v).tports = h.tports := rfl
@[simp] theorem Hub.wrF_pageq (h : Hub) (a hi lo v : Nat) : (h.wrF a hi lo v).pageq = h.pageq := rfl
@[simp] theorem Hub.wrF_tags (h : Hub) (a hi lo v : Nat) : (h.wrF a hi lo v).tags = h.tags := rfl
@[simp] theorem Hub.wrF_ksi (h : Hub) (a hi lo v : Nat) : (h.wrF a hi lo v).ksi = h.ksi := rfl
@[simp] theorem Hub.wrF_mir (h : Hub) (a hi lo v : Nat) : (h.wrF a hi lo v).mir = h.mir := rfl
@[simp] theorem Hub.wrF_dse (h : Hub) (a hi lo v : Nat) : (h.wrF a hi lo v).dse = h.dse := rfl
@[simp] theorem Hub.wrF_vin (h : Hub) (a hi lo v : Nat) : (h.wrF a hi lo v).vin = h.vin := rfl
@[simp] theorem Hub.wrF_eth (h : Hub) (a hi lo v : Nat) : (h.wrF a hi lo v).eth = h.eth := rfl
@[simp] theorem Hub.wrF_pxb (h : Hub) (a hi lo v : Nat) : (h.wrF a hi lo v).pxb = h.pxb := rfl
@[simp] theorem Hub.wrF_usb (h : Hub) (a hi lo v : Nat) : (h.wrF a hi lo v).usb = h.usb := rfl
@[simp] theorem Hub.wrF_ppc (h : Hub) (a hi lo v : Nat) : (h.wrF a hi lo v).ppc = h.ppc := rfl
@[simp] theorem Hub.wrF_pmc (h : Hub) (a hi lo v : Nat) : (h.wrF a hi lo v).pmc = h.pmc := rfl
@[simp] theorem Hub.wrF_sit (h : Hub) (a hi lo v : Nat) : (h.wrF a hi lo v).sit = h.sit := rfl
@[simp] theorem Hub.wrF_remote (h : Hub) (a hi lo v : Nat) : (h.wrF a hi lo v).remote = h.remote := rfl
@[simp] theorem Hub.wrF_free (h : Hub) (a hi lo v : Nat) : (h.wrF a hi lo v).free = h.free := rfl
@[simp] theorem Hub.wrF_out (h : Hub) (a hi lo v : Nat) : (h.wrF a hi lo v).out = h.out := rfl
@[simp] theorem Hub.wrF_rdWide (h : Hub) (a hi lo v : Nat) (y : Nat) : (h.wrF a hi lo v).rdWide y = h.rdWide y := rfl
@[simp] theorem Hub.wrF_hdr (h : Hub) (a hi lo v : Nat) (y : Block) : (h.wrF a hi lo v).hdr y = h.hdr y := rfl

@[simp] theorem Hub.wrB_straps (h : Hub) (a i : Nat) (v : Bool) : (h.wrB a i v).straps = h.straps := rfl
@[simp] theorem Hub.wrB_pend (h : Hub) (a i : Nat) (v : Bool) : (h.wrB a i v).pend = h.pend := rfl
@[simp] theorem Hub.wrB_wide (h : Hub) (a i : Nat) (v : Bool) : (h.wrB a i v).wide = h.wide := rfl
@[simp] theorem Hub.wrB_hdrs (h : Hub) (a i : Nat) (v : Bool) : (h.wrB a i v).hdrs = h.hdrs := rfl
@[simp] theorem Hub.wrB_mh (h : Hub) (a i : Nat) (v : Bool) : (h.wrB a i v).mh = h.mh := rfl
@[simp] theorem Hub.wrB_olog (h : Hub) (a i : Nat) (v : Bool) : (h.wrB a i v).olog = h.olog := rfl
@[simp] theorem Hub.wrB_arbs (h : Hub) (a i : Nat) (v : Bool) : (h.wrB a i v).arbs = h.arbs := rfl
@[simp] theorem Hub.wrB_time (h : Hub) (a i : Nat) (v : Bool) : (h.wrB a i v).time = h.time := rfl
@[simp] theorem Hub.wrB_power (h : Hub) (a i : Nat) (v : Bool) : (h.wrB a i v).power = h.power := rfl
@[simp] theorem Hub.wrB_pins (h : Hub) (a i : Nat) (v : Bool) : (h.wrB a i v).pins = h.pins := rfl
@[simp] theorem Hub.wrB_lanes (h : Hub) (a i : Nat) (v : Bool) : (h.wrB a i v).lanes = h.lanes := rfl
@[simp] theorem Hub.wrB_repair (h : Hub) (a i : Nat) (v : Bool) : (h.wrB a i v).repair = h.repair := rfl
@[simp] theorem Hub.wrB_auto (h : Hub) (a i : Nat) (v : Bool) : (h.wrB a i v).auto = h.auto := rfl
@[simp] theorem Hub.wrB_repairMap (h : Hub) (a i : Nat) (v : Bool) : (h.wrB a i v).repairMap = h.repairMap := rfl
@[simp] theorem Hub.wrB_cells (h : Hub) (a i : Nat) (v : Bool) : (h.wrB a i v).cells = h.cells := rfl
@[simp] theorem Hub.wrB_counts (h : Hub) (a i : Nat) (v : Bool) : (h.wrB a i v).counts = h.counts := rfl
@[simp] theorem Hub.wrB_opens (h : Hub) (a i : Nat) (v : Bool) : (h.wrB a i v).opens = h.opens := rfl
@[simp] theorem Hub.wrB_foyers (h : Hub) (a i : Nat) (v : Bool) : (h.wrB a i v).foyers = h.foyers := rfl
@[simp] theorem Hub.wrB_waits (h : Hub) (a i : Nat) (v : Bool) : (h.wrB a i v).waits = h.waits := rfl
@[simp] theorem Hub.wrB_ctxs (h : Hub) (a i : Nat) (v : Bool) : (h.wrB a i v).ctxs = h.ctxs := rfl
@[simp] theorem Hub.wrB_paging (h : Hub) (a i : Nat) (v : Bool) : (h.wrB a i v).paging = h.paging := rfl
@[simp] theorem Hub.wrB_banks (h : Hub) (a i : Nat) (v : Bool) : (h.wrB a i v).banks = h.banks := rfl
@[simp] theorem Hub.wrB_links (h : Hub) (a i : Nat) (v : Bool) : (h.wrB a i v).links = h.links := rfl
@[simp] theorem Hub.wrB_xfer (h : Hub) (a i : Nat) (v : Bool) : (h.wrB a i v).xfer = h.xfer := rfl
@[simp] theorem Hub.wrB_fts (h : Hub) (a i : Nat) (v : Bool) : (h.wrB a i v).fts = h.fts := rfl
@[simp] theorem Hub.wrB_tports (h : Hub) (a i : Nat) (v : Bool) : (h.wrB a i v).tports = h.tports := rfl
@[simp] theorem Hub.wrB_pageq (h : Hub) (a i : Nat) (v : Bool) : (h.wrB a i v).pageq = h.pageq := rfl
@[simp] theorem Hub.wrB_tags (h : Hub) (a i : Nat) (v : Bool) : (h.wrB a i v).tags = h.tags := rfl
@[simp] theorem Hub.wrB_ksi (h : Hub) (a i : Nat) (v : Bool) : (h.wrB a i v).ksi = h.ksi := rfl
@[simp] theorem Hub.wrB_mir (h : Hub) (a i : Nat) (v : Bool) : (h.wrB a i v).mir = h.mir := rfl
@[simp] theorem Hub.wrB_dse (h : Hub) (a i : Nat) (v : Bool) : (h.wrB a i v).dse = h.dse := rfl
@[simp] theorem Hub.wrB_vin (h : Hub) (a i : Nat) (v : Bool) : (h.wrB a i v).vin = h.vin := rfl
@[simp] theorem Hub.wrB_eth (h : Hub) (a i : Nat) (v : Bool) : (h.wrB a i v).eth = h.eth := rfl
@[simp] theorem Hub.wrB_pxb (h : Hub) (a i : Nat) (v : Bool) : (h.wrB a i v).pxb = h.pxb := rfl
@[simp] theorem Hub.wrB_usb (h : Hub) (a i : Nat) (v : Bool) : (h.wrB a i v).usb = h.usb := rfl
@[simp] theorem Hub.wrB_ppc (h : Hub) (a i : Nat) (v : Bool) : (h.wrB a i v).ppc = h.ppc := rfl
@[simp] theorem Hub.wrB_pmc (h : Hub) (a i : Nat) (v : Bool) : (h.wrB a i v).pmc = h.pmc := rfl
@[simp] theorem Hub.wrB_sit (h : Hub) (a i : Nat) (v : Bool) : (h.wrB a i v).sit = h.sit := rfl
@[simp] theorem Hub.wrB_remote (h : Hub) (a i : Nat) (v : Bool) : (h.wrB a i v).remote = h.remote := rfl
@[simp] theorem Hub.wrB_free (h : Hub) (a i : Nat) (v : Bool) : (h.wrB a i v).free = h.free := rfl
@[simp] theorem Hub.wrB_out (h : Hub) (a i : Nat) (v : Bool) : (h.wrB a i v).out = h.out := rfl
@[simp] theorem Hub.wrB_rdWide (h : Hub) (a i : Nat) (v : Bool) (y : Nat) : (h.wrB a i v).rdWide y = h.rdWide y := rfl
@[simp] theorem Hub.wrB_hdr (h : Hub) (a i : Nat) (v : Bool) (y : Block) : (h.wrB a i v).hdr y = h.hdr y := rfl

@[simp] theorem Hub.inc_straps (h : Hub) (a k : Nat) : (h.inc a k).straps = h.straps := rfl
@[simp] theorem Hub.inc_pend (h : Hub) (a k : Nat) : (h.inc a k).pend = h.pend := rfl
@[simp] theorem Hub.inc_wide (h : Hub) (a k : Nat) : (h.inc a k).wide = h.wide := rfl
@[simp] theorem Hub.inc_hdrs (h : Hub) (a k : Nat) : (h.inc a k).hdrs = h.hdrs := rfl
@[simp] theorem Hub.inc_mh (h : Hub) (a k : Nat) : (h.inc a k).mh = h.mh := rfl
@[simp] theorem Hub.inc_olog (h : Hub) (a k : Nat) : (h.inc a k).olog = h.olog := rfl
@[simp] theorem Hub.inc_arbs (h : Hub) (a k : Nat) : (h.inc a k).arbs = h.arbs := rfl
@[simp] theorem Hub.inc_time (h : Hub) (a k : Nat) : (h.inc a k).time = h.time := rfl
@[simp] theorem Hub.inc_power (h : Hub) (a k : Nat) : (h.inc a k).power = h.power := rfl
@[simp] theorem Hub.inc_pins (h : Hub) (a k : Nat) : (h.inc a k).pins = h.pins := rfl
@[simp] theorem Hub.inc_lanes (h : Hub) (a k : Nat) : (h.inc a k).lanes = h.lanes := rfl
@[simp] theorem Hub.inc_repair (h : Hub) (a k : Nat) : (h.inc a k).repair = h.repair := rfl
@[simp] theorem Hub.inc_auto (h : Hub) (a k : Nat) : (h.inc a k).auto = h.auto := rfl
@[simp] theorem Hub.inc_repairMap (h : Hub) (a k : Nat) : (h.inc a k).repairMap = h.repairMap := rfl
@[simp] theorem Hub.inc_cells (h : Hub) (a k : Nat) : (h.inc a k).cells = h.cells := rfl
@[simp] theorem Hub.inc_counts (h : Hub) (a k : Nat) : (h.inc a k).counts = h.counts := rfl
@[simp] theorem Hub.inc_opens (h : Hub) (a k : Nat) : (h.inc a k).opens = h.opens := rfl
@[simp] theorem Hub.inc_foyers (h : Hub) (a k : Nat) : (h.inc a k).foyers = h.foyers := rfl
@[simp] theorem Hub.inc_waits (h : Hub) (a k : Nat) : (h.inc a k).waits = h.waits := rfl
@[simp] theorem Hub.inc_ctxs (h : Hub) (a k : Nat) : (h.inc a k).ctxs = h.ctxs := rfl
@[simp] theorem Hub.inc_paging (h : Hub) (a k : Nat) : (h.inc a k).paging = h.paging := rfl
@[simp] theorem Hub.inc_banks (h : Hub) (a k : Nat) : (h.inc a k).banks = h.banks := rfl
@[simp] theorem Hub.inc_links (h : Hub) (a k : Nat) : (h.inc a k).links = h.links := rfl
@[simp] theorem Hub.inc_xfer (h : Hub) (a k : Nat) : (h.inc a k).xfer = h.xfer := rfl
@[simp] theorem Hub.inc_fts (h : Hub) (a k : Nat) : (h.inc a k).fts = h.fts := rfl
@[simp] theorem Hub.inc_tports (h : Hub) (a k : Nat) : (h.inc a k).tports = h.tports := rfl
@[simp] theorem Hub.inc_pageq (h : Hub) (a k : Nat) : (h.inc a k).pageq = h.pageq := rfl
@[simp] theorem Hub.inc_tags (h : Hub) (a k : Nat) : (h.inc a k).tags = h.tags := rfl
@[simp] theorem Hub.inc_ksi (h : Hub) (a k : Nat) : (h.inc a k).ksi = h.ksi := rfl
@[simp] theorem Hub.inc_mir (h : Hub) (a k : Nat) : (h.inc a k).mir = h.mir := rfl
@[simp] theorem Hub.inc_dse (h : Hub) (a k : Nat) : (h.inc a k).dse = h.dse := rfl
@[simp] theorem Hub.inc_vin (h : Hub) (a k : Nat) : (h.inc a k).vin = h.vin := rfl
@[simp] theorem Hub.inc_eth (h : Hub) (a k : Nat) : (h.inc a k).eth = h.eth := rfl
@[simp] theorem Hub.inc_pxb (h : Hub) (a k : Nat) : (h.inc a k).pxb = h.pxb := rfl
@[simp] theorem Hub.inc_usb (h : Hub) (a k : Nat) : (h.inc a k).usb = h.usb := rfl
@[simp] theorem Hub.inc_ppc (h : Hub) (a k : Nat) : (h.inc a k).ppc = h.ppc := rfl
@[simp] theorem Hub.inc_pmc (h : Hub) (a k : Nat) : (h.inc a k).pmc = h.pmc := rfl
@[simp] theorem Hub.inc_sit (h : Hub) (a k : Nat) : (h.inc a k).sit = h.sit := rfl
@[simp] theorem Hub.inc_remote (h : Hub) (a k : Nat) : (h.inc a k).remote = h.remote := rfl
@[simp] theorem Hub.inc_free (h : Hub) (a k : Nat) : (h.inc a k).free = h.free := rfl
@[simp] theorem Hub.inc_out (h : Hub) (a k : Nat) : (h.inc a k).out = h.out := rfl
@[simp] theorem Hub.inc_rdWide (h : Hub) (a k : Nat) (y : Nat) : (h.inc a k).rdWide y = h.rdWide y := rfl
@[simp] theorem Hub.inc_hdr (h : Hub) (a k : Nat) (y : Block) : (h.inc a k).hdr y = h.hdr y := rfl

@[simp] theorem Hub.incW_straps (h : Hub) (a k : Nat) : (h.incW a k).straps = h.straps := rfl
@[simp] theorem Hub.incW_pend (h : Hub) (a k : Nat) : (h.incW a k).pend = h.pend := rfl
@[simp] theorem Hub.incW_wide (h : Hub) (a k : Nat) : (h.incW a k).wide = h.wide := rfl
@[simp] theorem Hub.incW_hdrs (h : Hub) (a k : Nat) : (h.incW a k).hdrs = h.hdrs := rfl
@[simp] theorem Hub.incW_mh (h : Hub) (a k : Nat) : (h.incW a k).mh = h.mh := rfl
@[simp] theorem Hub.incW_olog (h : Hub) (a k : Nat) : (h.incW a k).olog = h.olog := rfl
@[simp] theorem Hub.incW_arbs (h : Hub) (a k : Nat) : (h.incW a k).arbs = h.arbs := rfl
@[simp] theorem Hub.incW_time (h : Hub) (a k : Nat) : (h.incW a k).time = h.time := rfl
@[simp] theorem Hub.incW_power (h : Hub) (a k : Nat) : (h.incW a k).power = h.power := rfl
@[simp] theorem Hub.incW_pins (h : Hub) (a k : Nat) : (h.incW a k).pins = h.pins := rfl
@[simp] theorem Hub.incW_lanes (h : Hub) (a k : Nat) : (h.incW a k).lanes = h.lanes := rfl
@[simp] theorem Hub.incW_repair (h : Hub) (a k : Nat) : (h.incW a k).repair = h.repair := rfl
@[simp] theorem Hub.incW_auto (h : Hub) (a k : Nat) : (h.incW a k).auto = h.auto := rfl
@[simp] theorem Hub.incW_repairMap (h : Hub) (a k : Nat) : (h.incW a k).repairMap = h.repairMap := rfl
@[simp] theorem Hub.incW_cells (h : Hub) (a k : Nat) : (h.incW a k).cells = h.cells := rfl
@[simp] theorem Hub.incW_counts (h : Hub) (a k : Nat) : (h.incW a k).counts = h.counts := rfl
@[simp] theorem Hub.incW_opens (h : Hub) (a k : Nat) : (h.incW a k).opens = h.opens := rfl
@[simp] theorem Hub.incW_foyers (h : Hub) (a k : Nat) : (h.incW a k).foyers = h.foyers := rfl
@[simp] theorem Hub.incW_waits (h : Hub) (a k : Nat) : (h.incW a k).waits = h.waits := rfl
@[simp] theorem Hub.incW_ctxs (h : Hub) (a k : Nat) : (h.incW a k).ctxs = h.ctxs := rfl
@[simp] theorem Hub.incW_paging (h : Hub) (a k : Nat) : (h.incW a k).paging = h.paging := rfl
@[simp] theorem Hub.incW_banks (h : Hub) (a k : Nat) : (h.incW a k).banks = h.banks := rfl
@[simp] theorem Hub.incW_links (h : Hub) (a k : Nat) : (h.incW a k).links = h.links := rfl
@[simp] theorem Hub.incW_xfer (h : Hub) (a k : Nat) : (h.incW a k).xfer = h.xfer := rfl
@[simp] theorem Hub.incW_fts (h : Hub) (a k : Nat) : (h.incW a k).fts = h.fts := rfl
@[simp] theorem Hub.incW_tports (h : Hub) (a k : Nat) : (h.incW a k).tports = h.tports := rfl
@[simp] theorem Hub.incW_pageq (h : Hub) (a k : Nat) : (h.incW a k).pageq = h.pageq := rfl
@[simp] theorem Hub.incW_tags (h : Hub) (a k : Nat) : (h.incW a k).tags = h.tags := rfl
@[simp] theorem Hub.incW_ksi (h : Hub) (a k : Nat) : (h.incW a k).ksi = h.ksi := rfl
@[simp] theorem Hub.incW_mir (h : Hub) (a k : Nat) : (h.incW a k).mir = h.mir := rfl
@[simp] theorem Hub.incW_dse (h : Hub) (a k : Nat) : (h.incW a k).dse = h.dse := rfl
@[simp] theorem Hub.incW_vin (h : Hub) (a k : Nat) : (h.incW a k).vin = h.vin := rfl
@[simp] theorem Hub.incW_eth (h : Hub) (a k : Nat) : (h.incW a k).eth = h.eth := rfl
@[simp] theorem Hub.incW_pxb (h : Hub) (a k : Nat) : (h.incW a k).pxb = h.pxb := rfl
@[simp] theorem Hub.incW_usb (h : Hub) (a k : Nat) : (h.incW a k).usb = h.usb := rfl
@[simp] theorem Hub.incW_ppc (h : Hub) (a k : Nat) : (h.incW a k).ppc = h.ppc := rfl
@[simp] theorem Hub.incW_pmc (h : Hub) (a k : Nat) : (h.incW a k).pmc = h.pmc := rfl
@[simp] theorem Hub.incW_sit (h : Hub) (a k : Nat) : (h.incW a k).sit = h.sit := rfl
@[simp] theorem Hub.incW_remote (h : Hub) (a k : Nat) : (h.incW a k).remote = h.remote := rfl
@[simp] theorem Hub.incW_free (h : Hub) (a k : Nat) : (h.incW a k).free = h.free := rfl
@[simp] theorem Hub.incW_out (h : Hub) (a k : Nat) : (h.incW a k).out = h.out := rfl
@[simp] theorem Hub.incW_rdWide (h : Hub) (a k : Nat) (y : Nat) : (h.incW a k).rdWide y = h.rdWide y := rfl
@[simp] theorem Hub.incW_hdr (h : Hub) (a k : Nat) (y : Block) : (h.incW a k).hdr y = h.hdr y := rfl

@[simp] theorem Hub.incF_straps (h : Hub) (a hi lo k : Nat) : (h.incF a hi lo k).straps = h.straps := rfl
@[simp] theorem Hub.incF_pend (h : Hub) (a hi lo k : Nat) : (h.incF a hi lo k).pend = h.pend := rfl
@[simp] theorem Hub.incF_wide (h : Hub) (a hi lo k : Nat) : (h.incF a hi lo k).wide = h.wide := rfl
@[simp] theorem Hub.incF_hdrs (h : Hub) (a hi lo k : Nat) : (h.incF a hi lo k).hdrs = h.hdrs := rfl
@[simp] theorem Hub.incF_mh (h : Hub) (a hi lo k : Nat) : (h.incF a hi lo k).mh = h.mh := rfl
@[simp] theorem Hub.incF_olog (h : Hub) (a hi lo k : Nat) : (h.incF a hi lo k).olog = h.olog := rfl
@[simp] theorem Hub.incF_arbs (h : Hub) (a hi lo k : Nat) : (h.incF a hi lo k).arbs = h.arbs := rfl
@[simp] theorem Hub.incF_time (h : Hub) (a hi lo k : Nat) : (h.incF a hi lo k).time = h.time := rfl
@[simp] theorem Hub.incF_power (h : Hub) (a hi lo k : Nat) : (h.incF a hi lo k).power = h.power := rfl
@[simp] theorem Hub.incF_pins (h : Hub) (a hi lo k : Nat) : (h.incF a hi lo k).pins = h.pins := rfl
@[simp] theorem Hub.incF_lanes (h : Hub) (a hi lo k : Nat) : (h.incF a hi lo k).lanes = h.lanes := rfl
@[simp] theorem Hub.incF_repair (h : Hub) (a hi lo k : Nat) : (h.incF a hi lo k).repair = h.repair := rfl
@[simp] theorem Hub.incF_auto (h : Hub) (a hi lo k : Nat) : (h.incF a hi lo k).auto = h.auto := rfl
@[simp] theorem Hub.incF_repairMap (h : Hub) (a hi lo k : Nat) : (h.incF a hi lo k).repairMap = h.repairMap := rfl
@[simp] theorem Hub.incF_cells (h : Hub) (a hi lo k : Nat) : (h.incF a hi lo k).cells = h.cells := rfl
@[simp] theorem Hub.incF_counts (h : Hub) (a hi lo k : Nat) : (h.incF a hi lo k).counts = h.counts := rfl
@[simp] theorem Hub.incF_opens (h : Hub) (a hi lo k : Nat) : (h.incF a hi lo k).opens = h.opens := rfl
@[simp] theorem Hub.incF_foyers (h : Hub) (a hi lo k : Nat) : (h.incF a hi lo k).foyers = h.foyers := rfl
@[simp] theorem Hub.incF_waits (h : Hub) (a hi lo k : Nat) : (h.incF a hi lo k).waits = h.waits := rfl
@[simp] theorem Hub.incF_ctxs (h : Hub) (a hi lo k : Nat) : (h.incF a hi lo k).ctxs = h.ctxs := rfl
@[simp] theorem Hub.incF_paging (h : Hub) (a hi lo k : Nat) : (h.incF a hi lo k).paging = h.paging := rfl
@[simp] theorem Hub.incF_banks (h : Hub) (a hi lo k : Nat) : (h.incF a hi lo k).banks = h.banks := rfl
@[simp] theorem Hub.incF_links (h : Hub) (a hi lo k : Nat) : (h.incF a hi lo k).links = h.links := rfl
@[simp] theorem Hub.incF_xfer (h : Hub) (a hi lo k : Nat) : (h.incF a hi lo k).xfer = h.xfer := rfl
@[simp] theorem Hub.incF_fts (h : Hub) (a hi lo k : Nat) : (h.incF a hi lo k).fts = h.fts := rfl
@[simp] theorem Hub.incF_tports (h : Hub) (a hi lo k : Nat) : (h.incF a hi lo k).tports = h.tports := rfl
@[simp] theorem Hub.incF_pageq (h : Hub) (a hi lo k : Nat) : (h.incF a hi lo k).pageq = h.pageq := rfl
@[simp] theorem Hub.incF_tags (h : Hub) (a hi lo k : Nat) : (h.incF a hi lo k).tags = h.tags := rfl
@[simp] theorem Hub.incF_ksi (h : Hub) (a hi lo k : Nat) : (h.incF a hi lo k).ksi = h.ksi := rfl
@[simp] theorem Hub.incF_mir (h : Hub) (a hi lo k : Nat) : (h.incF a hi lo k).mir = h.mir := rfl
@[simp] theorem Hub.incF_dse (h : Hub) (a hi lo k : Nat) : (h.incF a hi lo k).dse = h.dse := rfl
@[simp] theorem Hub.incF_vin (h : Hub) (a hi lo k : Nat) : (h.incF a hi lo k).vin = h.vin := rfl
@[simp] theorem Hub.incF_eth (h : Hub) (a hi lo k : Nat) : (h.incF a hi lo k).eth = h.eth := rfl
@[simp] theorem Hub.incF_pxb (h : Hub) (a hi lo k : Nat) : (h.incF a hi lo k).pxb = h.pxb := rfl
@[simp] theorem Hub.incF_usb (h : Hub) (a hi lo k : Nat) : (h.incF a hi lo k).usb = h.usb := rfl
@[simp] theorem Hub.incF_ppc (h : Hub) (a hi lo k : Nat) : (h.incF a hi lo k).ppc = h.ppc := rfl
@[simp] theorem Hub.incF_pmc (h : Hub) (a hi lo k : Nat) : (h.incF a hi lo k).pmc = h.pmc := rfl
@[simp] theorem Hub.incF_sit (h : Hub) (a hi lo k : Nat) : (h.incF a hi lo k).sit = h.sit := rfl
@[simp] theorem Hub.incF_remote (h : Hub) (a hi lo k : Nat) : (h.incF a hi lo k).remote = h.remote := rfl
@[simp] theorem Hub.incF_free (h : Hub) (a hi lo k : Nat) : (h.incF a hi lo k).free = h.free := rfl
@[simp] theorem Hub.incF_out (h : Hub) (a hi lo k : Nat) : (h.incF a hi lo k).out = h.out := rfl
@[simp] theorem Hub.incF_rdWide (h : Hub) (a hi lo k : Nat) (y : Nat) : (h.incF a hi lo k).rdWide y = h.rdWide y := rfl
@[simp] theorem Hub.incF_hdr (h : Hub) (a hi lo k : Nat) (y : Block) : (h.incF a hi lo k).hdr y = h.hdr y := rfl

@[simp] theorem Hub.incFW_straps (h : Hub) (a hi lo k : Nat) : (h.incFW a hi lo k).straps = h.straps := rfl
@[simp] theorem Hub.incFW_pend (h : Hub) (a hi lo k : Nat) : (h.incFW a hi lo k).pend = h.pend := rfl
@[simp] theorem Hub.incFW_wide (h : Hub) (a hi lo k : Nat) : (h.incFW a hi lo k).wide = h.wide := rfl
@[simp] theorem Hub.incFW_hdrs (h : Hub) (a hi lo k : Nat) : (h.incFW a hi lo k).hdrs = h.hdrs := rfl
@[simp] theorem Hub.incFW_mh (h : Hub) (a hi lo k : Nat) : (h.incFW a hi lo k).mh = h.mh := rfl
@[simp] theorem Hub.incFW_olog (h : Hub) (a hi lo k : Nat) : (h.incFW a hi lo k).olog = h.olog := rfl
@[simp] theorem Hub.incFW_arbs (h : Hub) (a hi lo k : Nat) : (h.incFW a hi lo k).arbs = h.arbs := rfl
@[simp] theorem Hub.incFW_time (h : Hub) (a hi lo k : Nat) : (h.incFW a hi lo k).time = h.time := rfl
@[simp] theorem Hub.incFW_power (h : Hub) (a hi lo k : Nat) : (h.incFW a hi lo k).power = h.power := rfl
@[simp] theorem Hub.incFW_pins (h : Hub) (a hi lo k : Nat) : (h.incFW a hi lo k).pins = h.pins := rfl
@[simp] theorem Hub.incFW_lanes (h : Hub) (a hi lo k : Nat) : (h.incFW a hi lo k).lanes = h.lanes := rfl
@[simp] theorem Hub.incFW_repair (h : Hub) (a hi lo k : Nat) : (h.incFW a hi lo k).repair = h.repair := rfl
@[simp] theorem Hub.incFW_auto (h : Hub) (a hi lo k : Nat) : (h.incFW a hi lo k).auto = h.auto := rfl
@[simp] theorem Hub.incFW_repairMap (h : Hub) (a hi lo k : Nat) : (h.incFW a hi lo k).repairMap = h.repairMap := rfl
@[simp] theorem Hub.incFW_cells (h : Hub) (a hi lo k : Nat) : (h.incFW a hi lo k).cells = h.cells := rfl
@[simp] theorem Hub.incFW_counts (h : Hub) (a hi lo k : Nat) : (h.incFW a hi lo k).counts = h.counts := rfl
@[simp] theorem Hub.incFW_opens (h : Hub) (a hi lo k : Nat) : (h.incFW a hi lo k).opens = h.opens := rfl
@[simp] theorem Hub.incFW_foyers (h : Hub) (a hi lo k : Nat) : (h.incFW a hi lo k).foyers = h.foyers := rfl
@[simp] theorem Hub.incFW_waits (h : Hub) (a hi lo k : Nat) : (h.incFW a hi lo k).waits = h.waits := rfl
@[simp] theorem Hub.incFW_ctxs (h : Hub) (a hi lo k : Nat) : (h.incFW a hi lo k).ctxs = h.ctxs := rfl
@[simp] theorem Hub.incFW_paging (h : Hub) (a hi lo k : Nat) : (h.incFW a hi lo k).paging = h.paging := rfl
@[simp] theorem Hub.incFW_banks (h : Hub) (a hi lo k : Nat) : (h.incFW a hi lo k).banks = h.banks := rfl
@[simp] theorem Hub.incFW_links (h : Hub) (a hi lo k : Nat) : (h.incFW a hi lo k).links = h.links := rfl
@[simp] theorem Hub.incFW_xfer (h : Hub) (a hi lo k : Nat) : (h.incFW a hi lo k).xfer = h.xfer := rfl
@[simp] theorem Hub.incFW_fts (h : Hub) (a hi lo k : Nat) : (h.incFW a hi lo k).fts = h.fts := rfl
@[simp] theorem Hub.incFW_tports (h : Hub) (a hi lo k : Nat) : (h.incFW a hi lo k).tports = h.tports := rfl
@[simp] theorem Hub.incFW_pageq (h : Hub) (a hi lo k : Nat) : (h.incFW a hi lo k).pageq = h.pageq := rfl
@[simp] theorem Hub.incFW_tags (h : Hub) (a hi lo k : Nat) : (h.incFW a hi lo k).tags = h.tags := rfl
@[simp] theorem Hub.incFW_ksi (h : Hub) (a hi lo k : Nat) : (h.incFW a hi lo k).ksi = h.ksi := rfl
@[simp] theorem Hub.incFW_mir (h : Hub) (a hi lo k : Nat) : (h.incFW a hi lo k).mir = h.mir := rfl
@[simp] theorem Hub.incFW_dse (h : Hub) (a hi lo k : Nat) : (h.incFW a hi lo k).dse = h.dse := rfl
@[simp] theorem Hub.incFW_vin (h : Hub) (a hi lo k : Nat) : (h.incFW a hi lo k).vin = h.vin := rfl
@[simp] theorem Hub.incFW_eth (h : Hub) (a hi lo k : Nat) : (h.incFW a hi lo k).eth = h.eth := rfl
@[simp] theorem Hub.incFW_pxb (h : Hub) (a hi lo k : Nat) : (h.incFW a hi lo k).pxb = h.pxb := rfl
@[simp] theorem Hub.incFW_usb (h : Hub) (a hi lo k : Nat) : (h.incFW a hi lo k).usb = h.usb := rfl
@[simp] theorem Hub.incFW_ppc (h : Hub) (a hi lo k : Nat) : (h.incFW a hi lo k).ppc = h.ppc := rfl
@[simp] theorem Hub.incFW_pmc (h : Hub) (a hi lo k : Nat) : (h.incFW a hi lo k).pmc = h.pmc := rfl
@[simp] theorem Hub.incFW_sit (h : Hub) (a hi lo k : Nat) : (h.incFW a hi lo k).sit = h.sit := rfl
@[simp] theorem Hub.incFW_remote (h : Hub) (a hi lo k : Nat) : (h.incFW a hi lo k).remote = h.remote := rfl
@[simp] theorem Hub.incFW_free (h : Hub) (a hi lo k : Nat) : (h.incFW a hi lo k).free = h.free := rfl
@[simp] theorem Hub.incFW_out (h : Hub) (a hi lo k : Nat) : (h.incFW a hi lo k).out = h.out := rfl
@[simp] theorem Hub.incFW_rdWide (h : Hub) (a hi lo k : Nat) (y : Nat) : (h.incFW a hi lo k).rdWide y = h.rdWide y := rfl
@[simp] theorem Hub.incFW_hdr (h : Hub) (a hi lo k : Nat) (y : Block) : (h.incFW a hi lo k).hdr y = h.hdr y := rfl

@[simp] theorem Hub.maxR_straps (h : Hub) (a v : Nat) : (h.maxR a v).straps = h.straps := rfl
@[simp] theorem Hub.maxR_pend (h : Hub) (a v : Nat) : (h.maxR a v).pend = h.pend := rfl
@[simp] theorem Hub.maxR_wide (h : Hub) (a v : Nat) : (h.maxR a v).wide = h.wide := rfl
@[simp] theorem Hub.maxR_hdrs (h : Hub) (a v : Nat) : (h.maxR a v).hdrs = h.hdrs := rfl
@[simp] theorem Hub.maxR_mh (h : Hub) (a v : Nat) : (h.maxR a v).mh = h.mh := rfl
@[simp] theorem Hub.maxR_olog (h : Hub) (a v : Nat) : (h.maxR a v).olog = h.olog := rfl
@[simp] theorem Hub.maxR_arbs (h : Hub) (a v : Nat) : (h.maxR a v).arbs = h.arbs := rfl
@[simp] theorem Hub.maxR_time (h : Hub) (a v : Nat) : (h.maxR a v).time = h.time := rfl
@[simp] theorem Hub.maxR_power (h : Hub) (a v : Nat) : (h.maxR a v).power = h.power := rfl
@[simp] theorem Hub.maxR_pins (h : Hub) (a v : Nat) : (h.maxR a v).pins = h.pins := rfl
@[simp] theorem Hub.maxR_lanes (h : Hub) (a v : Nat) : (h.maxR a v).lanes = h.lanes := rfl
@[simp] theorem Hub.maxR_repair (h : Hub) (a v : Nat) : (h.maxR a v).repair = h.repair := rfl
@[simp] theorem Hub.maxR_auto (h : Hub) (a v : Nat) : (h.maxR a v).auto = h.auto := rfl
@[simp] theorem Hub.maxR_repairMap (h : Hub) (a v : Nat) : (h.maxR a v).repairMap = h.repairMap := rfl
@[simp] theorem Hub.maxR_cells (h : Hub) (a v : Nat) : (h.maxR a v).cells = h.cells := rfl
@[simp] theorem Hub.maxR_counts (h : Hub) (a v : Nat) : (h.maxR a v).counts = h.counts := rfl
@[simp] theorem Hub.maxR_opens (h : Hub) (a v : Nat) : (h.maxR a v).opens = h.opens := rfl
@[simp] theorem Hub.maxR_foyers (h : Hub) (a v : Nat) : (h.maxR a v).foyers = h.foyers := rfl
@[simp] theorem Hub.maxR_waits (h : Hub) (a v : Nat) : (h.maxR a v).waits = h.waits := rfl
@[simp] theorem Hub.maxR_ctxs (h : Hub) (a v : Nat) : (h.maxR a v).ctxs = h.ctxs := rfl
@[simp] theorem Hub.maxR_paging (h : Hub) (a v : Nat) : (h.maxR a v).paging = h.paging := rfl
@[simp] theorem Hub.maxR_banks (h : Hub) (a v : Nat) : (h.maxR a v).banks = h.banks := rfl
@[simp] theorem Hub.maxR_links (h : Hub) (a v : Nat) : (h.maxR a v).links = h.links := rfl
@[simp] theorem Hub.maxR_xfer (h : Hub) (a v : Nat) : (h.maxR a v).xfer = h.xfer := rfl
@[simp] theorem Hub.maxR_fts (h : Hub) (a v : Nat) : (h.maxR a v).fts = h.fts := rfl
@[simp] theorem Hub.maxR_tports (h : Hub) (a v : Nat) : (h.maxR a v).tports = h.tports := rfl
@[simp] theorem Hub.maxR_pageq (h : Hub) (a v : Nat) : (h.maxR a v).pageq = h.pageq := rfl
@[simp] theorem Hub.maxR_tags (h : Hub) (a v : Nat) : (h.maxR a v).tags = h.tags := rfl
@[simp] theorem Hub.maxR_ksi (h : Hub) (a v : Nat) : (h.maxR a v).ksi = h.ksi := rfl
@[simp] theorem Hub.maxR_mir (h : Hub) (a v : Nat) : (h.maxR a v).mir = h.mir := rfl
@[simp] theorem Hub.maxR_dse (h : Hub) (a v : Nat) : (h.maxR a v).dse = h.dse := rfl
@[simp] theorem Hub.maxR_vin (h : Hub) (a v : Nat) : (h.maxR a v).vin = h.vin := rfl
@[simp] theorem Hub.maxR_eth (h : Hub) (a v : Nat) : (h.maxR a v).eth = h.eth := rfl
@[simp] theorem Hub.maxR_pxb (h : Hub) (a v : Nat) : (h.maxR a v).pxb = h.pxb := rfl
@[simp] theorem Hub.maxR_usb (h : Hub) (a v : Nat) : (h.maxR a v).usb = h.usb := rfl
@[simp] theorem Hub.maxR_ppc (h : Hub) (a v : Nat) : (h.maxR a v).ppc = h.ppc := rfl
@[simp] theorem Hub.maxR_pmc (h : Hub) (a v : Nat) : (h.maxR a v).pmc = h.pmc := rfl
@[simp] theorem Hub.maxR_sit (h : Hub) (a v : Nat) : (h.maxR a v).sit = h.sit := rfl
@[simp] theorem Hub.maxR_remote (h : Hub) (a v : Nat) : (h.maxR a v).remote = h.remote := rfl
@[simp] theorem Hub.maxR_free (h : Hub) (a v : Nat) : (h.maxR a v).free = h.free := rfl
@[simp] theorem Hub.maxR_out (h : Hub) (a v : Nat) : (h.maxR a v).out = h.out := rfl
@[simp] theorem Hub.maxR_rdWide (h : Hub) (a v : Nat) (y : Nat) : (h.maxR a v).rdWide y = h.rdWide y := rfl
@[simp] theorem Hub.maxR_hdr (h : Hub) (a v : Nat) (y : Block) : (h.maxR a v).hdr y = h.hdr y := rfl

@[simp] theorem Hub.maxF_straps (h : Hub) (a hi lo v : Nat) : (h.maxF a hi lo v).straps = h.straps := rfl
@[simp] theorem Hub.maxF_pend (h : Hub) (a hi lo v : Nat) : (h.maxF a hi lo v).pend = h.pend := rfl
@[simp] theorem Hub.maxF_wide (h : Hub) (a hi lo v : Nat) : (h.maxF a hi lo v).wide = h.wide := rfl
@[simp] theorem Hub.maxF_hdrs (h : Hub) (a hi lo v : Nat) : (h.maxF a hi lo v).hdrs = h.hdrs := rfl
@[simp] theorem Hub.maxF_mh (h : Hub) (a hi lo v : Nat) : (h.maxF a hi lo v).mh = h.mh := rfl
@[simp] theorem Hub.maxF_olog (h : Hub) (a hi lo v : Nat) : (h.maxF a hi lo v).olog = h.olog := rfl
@[simp] theorem Hub.maxF_arbs (h : Hub) (a hi lo v : Nat) : (h.maxF a hi lo v).arbs = h.arbs := rfl
@[simp] theorem Hub.maxF_time (h : Hub) (a hi lo v : Nat) : (h.maxF a hi lo v).time = h.time := rfl
@[simp] theorem Hub.maxF_power (h : Hub) (a hi lo v : Nat) : (h.maxF a hi lo v).power = h.power := rfl
@[simp] theorem Hub.maxF_pins (h : Hub) (a hi lo v : Nat) : (h.maxF a hi lo v).pins = h.pins := rfl
@[simp] theorem Hub.maxF_lanes (h : Hub) (a hi lo v : Nat) : (h.maxF a hi lo v).lanes = h.lanes := rfl
@[simp] theorem Hub.maxF_repair (h : Hub) (a hi lo v : Nat) : (h.maxF a hi lo v).repair = h.repair := rfl
@[simp] theorem Hub.maxF_auto (h : Hub) (a hi lo v : Nat) : (h.maxF a hi lo v).auto = h.auto := rfl
@[simp] theorem Hub.maxF_repairMap (h : Hub) (a hi lo v : Nat) : (h.maxF a hi lo v).repairMap = h.repairMap := rfl
@[simp] theorem Hub.maxF_cells (h : Hub) (a hi lo v : Nat) : (h.maxF a hi lo v).cells = h.cells := rfl
@[simp] theorem Hub.maxF_counts (h : Hub) (a hi lo v : Nat) : (h.maxF a hi lo v).counts = h.counts := rfl
@[simp] theorem Hub.maxF_opens (h : Hub) (a hi lo v : Nat) : (h.maxF a hi lo v).opens = h.opens := rfl
@[simp] theorem Hub.maxF_foyers (h : Hub) (a hi lo v : Nat) : (h.maxF a hi lo v).foyers = h.foyers := rfl
@[simp] theorem Hub.maxF_waits (h : Hub) (a hi lo v : Nat) : (h.maxF a hi lo v).waits = h.waits := rfl
@[simp] theorem Hub.maxF_ctxs (h : Hub) (a hi lo v : Nat) : (h.maxF a hi lo v).ctxs = h.ctxs := rfl
@[simp] theorem Hub.maxF_paging (h : Hub) (a hi lo v : Nat) : (h.maxF a hi lo v).paging = h.paging := rfl
@[simp] theorem Hub.maxF_banks (h : Hub) (a hi lo v : Nat) : (h.maxF a hi lo v).banks = h.banks := rfl
@[simp] theorem Hub.maxF_links (h : Hub) (a hi lo v : Nat) : (h.maxF a hi lo v).links = h.links := rfl
@[simp] theorem Hub.maxF_xfer (h : Hub) (a hi lo v : Nat) : (h.maxF a hi lo v).xfer = h.xfer := rfl
@[simp] theorem Hub.maxF_fts (h : Hub) (a hi lo v : Nat) : (h.maxF a hi lo v).fts = h.fts := rfl
@[simp] theorem Hub.maxF_tports (h : Hub) (a hi lo v : Nat) : (h.maxF a hi lo v).tports = h.tports := rfl
@[simp] theorem Hub.maxF_pageq (h : Hub) (a hi lo v : Nat) : (h.maxF a hi lo v).pageq = h.pageq := rfl
@[simp] theorem Hub.maxF_tags (h : Hub) (a hi lo v : Nat) : (h.maxF a hi lo v).tags = h.tags := rfl
@[simp] theorem Hub.maxF_ksi (h : Hub) (a hi lo v : Nat) : (h.maxF a hi lo v).ksi = h.ksi := rfl
@[simp] theorem Hub.maxF_mir (h : Hub) (a hi lo v : Nat) : (h.maxF a hi lo v).mir = h.mir := rfl
@[simp] theorem Hub.maxF_dse (h : Hub) (a hi lo v : Nat) : (h.maxF a hi lo v).dse = h.dse := rfl
@[simp] theorem Hub.maxF_vin (h : Hub) (a hi lo v : Nat) : (h.maxF a hi lo v).vin = h.vin := rfl
@[simp] theorem Hub.maxF_eth (h : Hub) (a hi lo v : Nat) : (h.maxF a hi lo v).eth = h.eth := rfl
@[simp] theorem Hub.maxF_pxb (h : Hub) (a hi lo v : Nat) : (h.maxF a hi lo v).pxb = h.pxb := rfl
@[simp] theorem Hub.maxF_usb (h : Hub) (a hi lo v : Nat) : (h.maxF a hi lo v).usb = h.usb := rfl
@[simp] theorem Hub.maxF_ppc (h : Hub) (a hi lo v : Nat) : (h.maxF a hi lo v).ppc = h.ppc := rfl
@[simp] theorem Hub.maxF_pmc (h : Hub) (a hi lo v : Nat) : (h.maxF a hi lo v).pmc = h.pmc := rfl
@[simp] theorem Hub.maxF_sit (h : Hub) (a hi lo v : Nat) : (h.maxF a hi lo v).sit = h.sit := rfl
@[simp] theorem Hub.maxF_remote (h : Hub) (a hi lo v : Nat) : (h.maxF a hi lo v).remote = h.remote := rfl
@[simp] theorem Hub.maxF_free (h : Hub) (a hi lo v : Nat) : (h.maxF a hi lo v).free = h.free := rfl
@[simp] theorem Hub.maxF_out (h : Hub) (a hi lo v : Nat) : (h.maxF a hi lo v).out = h.out := rfl
@[simp] theorem Hub.maxF_rdWide (h : Hub) (a hi lo v : Nat) (y : Nat) : (h.maxF a hi lo v).rdWide y = h.rdWide y := rfl
@[simp] theorem Hub.maxF_hdr (h : Hub) (a hi lo v : Nat) (y : Block) : (h.maxF a hi lo v).hdr y = h.hdr y := rfl

@[simp] theorem Hub.wrShadow_straps (h : Hub) (a : Nat) (v : Word) : (h.wrShadow a v).straps = h.straps := rfl
@[simp] theorem Hub.wrShadow_regs (h : Hub) (a : Nat) (v : Word) : (h.wrShadow a v).regs = h.regs := rfl
@[simp] theorem Hub.wrShadow_wide (h : Hub) (a : Nat) (v : Word) : (h.wrShadow a v).wide = h.wide := rfl
@[simp] theorem Hub.wrShadow_hdrs (h : Hub) (a : Nat) (v : Word) : (h.wrShadow a v).hdrs = h.hdrs := rfl
@[simp] theorem Hub.wrShadow_mh (h : Hub) (a : Nat) (v : Word) : (h.wrShadow a v).mh = h.mh := rfl
@[simp] theorem Hub.wrShadow_olog (h : Hub) (a : Nat) (v : Word) : (h.wrShadow a v).olog = h.olog := rfl
@[simp] theorem Hub.wrShadow_arbs (h : Hub) (a : Nat) (v : Word) : (h.wrShadow a v).arbs = h.arbs := rfl
@[simp] theorem Hub.wrShadow_time (h : Hub) (a : Nat) (v : Word) : (h.wrShadow a v).time = h.time := rfl
@[simp] theorem Hub.wrShadow_power (h : Hub) (a : Nat) (v : Word) : (h.wrShadow a v).power = h.power := rfl
@[simp] theorem Hub.wrShadow_pins (h : Hub) (a : Nat) (v : Word) : (h.wrShadow a v).pins = h.pins := rfl
@[simp] theorem Hub.wrShadow_lanes (h : Hub) (a : Nat) (v : Word) : (h.wrShadow a v).lanes = h.lanes := rfl
@[simp] theorem Hub.wrShadow_repair (h : Hub) (a : Nat) (v : Word) : (h.wrShadow a v).repair = h.repair := rfl
@[simp] theorem Hub.wrShadow_auto (h : Hub) (a : Nat) (v : Word) : (h.wrShadow a v).auto = h.auto := rfl
@[simp] theorem Hub.wrShadow_repairMap (h : Hub) (a : Nat) (v : Word) : (h.wrShadow a v).repairMap = h.repairMap := rfl
@[simp] theorem Hub.wrShadow_cells (h : Hub) (a : Nat) (v : Word) : (h.wrShadow a v).cells = h.cells := rfl
@[simp] theorem Hub.wrShadow_counts (h : Hub) (a : Nat) (v : Word) : (h.wrShadow a v).counts = h.counts := rfl
@[simp] theorem Hub.wrShadow_opens (h : Hub) (a : Nat) (v : Word) : (h.wrShadow a v).opens = h.opens := rfl
@[simp] theorem Hub.wrShadow_foyers (h : Hub) (a : Nat) (v : Word) : (h.wrShadow a v).foyers = h.foyers := rfl
@[simp] theorem Hub.wrShadow_waits (h : Hub) (a : Nat) (v : Word) : (h.wrShadow a v).waits = h.waits := rfl
@[simp] theorem Hub.wrShadow_ctxs (h : Hub) (a : Nat) (v : Word) : (h.wrShadow a v).ctxs = h.ctxs := rfl
@[simp] theorem Hub.wrShadow_paging (h : Hub) (a : Nat) (v : Word) : (h.wrShadow a v).paging = h.paging := rfl
@[simp] theorem Hub.wrShadow_banks (h : Hub) (a : Nat) (v : Word) : (h.wrShadow a v).banks = h.banks := rfl
@[simp] theorem Hub.wrShadow_links (h : Hub) (a : Nat) (v : Word) : (h.wrShadow a v).links = h.links := rfl
@[simp] theorem Hub.wrShadow_xfer (h : Hub) (a : Nat) (v : Word) : (h.wrShadow a v).xfer = h.xfer := rfl
@[simp] theorem Hub.wrShadow_fts (h : Hub) (a : Nat) (v : Word) : (h.wrShadow a v).fts = h.fts := rfl
@[simp] theorem Hub.wrShadow_tports (h : Hub) (a : Nat) (v : Word) : (h.wrShadow a v).tports = h.tports := rfl
@[simp] theorem Hub.wrShadow_pageq (h : Hub) (a : Nat) (v : Word) : (h.wrShadow a v).pageq = h.pageq := rfl
@[simp] theorem Hub.wrShadow_tags (h : Hub) (a : Nat) (v : Word) : (h.wrShadow a v).tags = h.tags := rfl
@[simp] theorem Hub.wrShadow_ksi (h : Hub) (a : Nat) (v : Word) : (h.wrShadow a v).ksi = h.ksi := rfl
@[simp] theorem Hub.wrShadow_mir (h : Hub) (a : Nat) (v : Word) : (h.wrShadow a v).mir = h.mir := rfl
@[simp] theorem Hub.wrShadow_dse (h : Hub) (a : Nat) (v : Word) : (h.wrShadow a v).dse = h.dse := rfl
@[simp] theorem Hub.wrShadow_vin (h : Hub) (a : Nat) (v : Word) : (h.wrShadow a v).vin = h.vin := rfl
@[simp] theorem Hub.wrShadow_eth (h : Hub) (a : Nat) (v : Word) : (h.wrShadow a v).eth = h.eth := rfl
@[simp] theorem Hub.wrShadow_pxb (h : Hub) (a : Nat) (v : Word) : (h.wrShadow a v).pxb = h.pxb := rfl
@[simp] theorem Hub.wrShadow_usb (h : Hub) (a : Nat) (v : Word) : (h.wrShadow a v).usb = h.usb := rfl
@[simp] theorem Hub.wrShadow_ppc (h : Hub) (a : Nat) (v : Word) : (h.wrShadow a v).ppc = h.ppc := rfl
@[simp] theorem Hub.wrShadow_pmc (h : Hub) (a : Nat) (v : Word) : (h.wrShadow a v).pmc = h.pmc := rfl
@[simp] theorem Hub.wrShadow_sit (h : Hub) (a : Nat) (v : Word) : (h.wrShadow a v).sit = h.sit := rfl
@[simp] theorem Hub.wrShadow_remote (h : Hub) (a : Nat) (v : Word) : (h.wrShadow a v).remote = h.remote := rfl
@[simp] theorem Hub.wrShadow_free (h : Hub) (a : Nat) (v : Word) : (h.wrShadow a v).free = h.free := rfl
@[simp] theorem Hub.wrShadow_out (h : Hub) (a : Nat) (v : Word) : (h.wrShadow a v).out = h.out := rfl
@[simp] theorem Hub.wrShadow_rd (h : Hub) (a : Nat) (v : Word) (y : Nat) : (h.wrShadow a v).rd y = h.rd y := rfl
@[simp] theorem Hub.wrShadow_rdWide (h : Hub) (a : Nat) (v : Word) (y : Nat) : (h.wrShadow a v).rdWide y = h.rdWide y := rfl
@[simp] theorem Hub.wrShadow_hdr (h : Hub) (a : Nat) (v : Word) (y : Block) : (h.wrShadow a v).hdr y = h.hdr y := rfl

@[simp] theorem Hub.wrWide_straps (h : Hub) (a v : Nat) : (h.wrWide a v).straps = h.straps := rfl
@[simp] theorem Hub.wrWide_regs (h : Hub) (a v : Nat) : (h.wrWide a v).regs = h.regs := rfl
@[simp] theorem Hub.wrWide_pend (h : Hub) (a v : Nat) : (h.wrWide a v).pend = h.pend := rfl
@[simp] theorem Hub.wrWide_hdrs (h : Hub) (a v : Nat) : (h.wrWide a v).hdrs = h.hdrs := rfl
@[simp] theorem Hub.wrWide_mh (h : Hub) (a v : Nat) : (h.wrWide a v).mh = h.mh := rfl
@[simp] theorem Hub.wrWide_olog (h : Hub) (a v : Nat) : (h.wrWide a v).olog = h.olog := rfl
@[simp] theorem Hub.wrWide_arbs (h : Hub) (a v : Nat) : (h.wrWide a v).arbs = h.arbs := rfl
@[simp] theorem Hub.wrWide_time (h : Hub) (a v : Nat) : (h.wrWide a v).time = h.time := rfl
@[simp] theorem Hub.wrWide_power (h : Hub) (a v : Nat) : (h.wrWide a v).power = h.power := rfl
@[simp] theorem Hub.wrWide_pins (h : Hub) (a v : Nat) : (h.wrWide a v).pins = h.pins := rfl
@[simp] theorem Hub.wrWide_lanes (h : Hub) (a v : Nat) : (h.wrWide a v).lanes = h.lanes := rfl
@[simp] theorem Hub.wrWide_repair (h : Hub) (a v : Nat) : (h.wrWide a v).repair = h.repair := rfl
@[simp] theorem Hub.wrWide_auto (h : Hub) (a v : Nat) : (h.wrWide a v).auto = h.auto := rfl
@[simp] theorem Hub.wrWide_repairMap (h : Hub) (a v : Nat) : (h.wrWide a v).repairMap = h.repairMap := rfl
@[simp] theorem Hub.wrWide_cells (h : Hub) (a v : Nat) : (h.wrWide a v).cells = h.cells := rfl
@[simp] theorem Hub.wrWide_counts (h : Hub) (a v : Nat) : (h.wrWide a v).counts = h.counts := rfl
@[simp] theorem Hub.wrWide_opens (h : Hub) (a v : Nat) : (h.wrWide a v).opens = h.opens := rfl
@[simp] theorem Hub.wrWide_foyers (h : Hub) (a v : Nat) : (h.wrWide a v).foyers = h.foyers := rfl
@[simp] theorem Hub.wrWide_waits (h : Hub) (a v : Nat) : (h.wrWide a v).waits = h.waits := rfl
@[simp] theorem Hub.wrWide_ctxs (h : Hub) (a v : Nat) : (h.wrWide a v).ctxs = h.ctxs := rfl
@[simp] theorem Hub.wrWide_paging (h : Hub) (a v : Nat) : (h.wrWide a v).paging = h.paging := rfl
@[simp] theorem Hub.wrWide_banks (h : Hub) (a v : Nat) : (h.wrWide a v).banks = h.banks := rfl
@[simp] theorem Hub.wrWide_links (h : Hub) (a v : Nat) : (h.wrWide a v).links = h.links := rfl
@[simp] theorem Hub.wrWide_xfer (h : Hub) (a v : Nat) : (h.wrWide a v).xfer = h.xfer := rfl
@[simp] theorem Hub.wrWide_fts (h : Hub) (a v : Nat) : (h.wrWide a v).fts = h.fts := rfl
@[simp] theorem Hub.wrWide_tports (h : Hub) (a v : Nat) : (h.wrWide a v).tports = h.tports := rfl
@[simp] theorem Hub.wrWide_pageq (h : Hub) (a v : Nat) : (h.wrWide a v).pageq = h.pageq := rfl
@[simp] theorem Hub.wrWide_tags (h : Hub) (a v : Nat) : (h.wrWide a v).tags = h.tags := rfl
@[simp] theorem Hub.wrWide_ksi (h : Hub) (a v : Nat) : (h.wrWide a v).ksi = h.ksi := rfl
@[simp] theorem Hub.wrWide_mir (h : Hub) (a v : Nat) : (h.wrWide a v).mir = h.mir := rfl
@[simp] theorem Hub.wrWide_dse (h : Hub) (a v : Nat) : (h.wrWide a v).dse = h.dse := rfl
@[simp] theorem Hub.wrWide_vin (h : Hub) (a v : Nat) : (h.wrWide a v).vin = h.vin := rfl
@[simp] theorem Hub.wrWide_eth (h : Hub) (a v : Nat) : (h.wrWide a v).eth = h.eth := rfl
@[simp] theorem Hub.wrWide_pxb (h : Hub) (a v : Nat) : (h.wrWide a v).pxb = h.pxb := rfl
@[simp] theorem Hub.wrWide_usb (h : Hub) (a v : Nat) : (h.wrWide a v).usb = h.usb := rfl
@[simp] theorem Hub.wrWide_ppc (h : Hub) (a v : Nat) : (h.wrWide a v).ppc = h.ppc := rfl
@[simp] theorem Hub.wrWide_pmc (h : Hub) (a v : Nat) : (h.wrWide a v).pmc = h.pmc := rfl
@[simp] theorem Hub.wrWide_sit (h : Hub) (a v : Nat) : (h.wrWide a v).sit = h.sit := rfl
@[simp] theorem Hub.wrWide_remote (h : Hub) (a v : Nat) : (h.wrWide a v).remote = h.remote := rfl
@[simp] theorem Hub.wrWide_free (h : Hub) (a v : Nat) : (h.wrWide a v).free = h.free := rfl
@[simp] theorem Hub.wrWide_out (h : Hub) (a v : Nat) : (h.wrWide a v).out = h.out := rfl
@[simp] theorem Hub.wrWide_rd (h : Hub) (a v : Nat) (y : Nat) : (h.wrWide a v).rd y = h.rd y := rfl
@[simp] theorem Hub.wrWide_hdr (h : Hub) (a v : Nat) (y : Block) : (h.wrWide a v).hdr y = h.hdr y := rfl

@[simp] theorem Hub.setHdr_straps (h : Hub) (b : Block) (x : Hdr) : (h.setHdr b x).straps = h.straps := rfl
@[simp] theorem Hub.setHdr_regs (h : Hub) (b : Block) (x : Hdr) : (h.setHdr b x).regs = h.regs := rfl
@[simp] theorem Hub.setHdr_pend (h : Hub) (b : Block) (x : Hdr) : (h.setHdr b x).pend = h.pend := rfl
@[simp] theorem Hub.setHdr_wide (h : Hub) (b : Block) (x : Hdr) : (h.setHdr b x).wide = h.wide := rfl
@[simp] theorem Hub.setHdr_mh (h : Hub) (b : Block) (x : Hdr) : (h.setHdr b x).mh = h.mh := rfl
@[simp] theorem Hub.setHdr_olog (h : Hub) (b : Block) (x : Hdr) : (h.setHdr b x).olog = h.olog := rfl
@[simp] theorem Hub.setHdr_arbs (h : Hub) (b : Block) (x : Hdr) : (h.setHdr b x).arbs = h.arbs := rfl
@[simp] theorem Hub.setHdr_time (h : Hub) (b : Block) (x : Hdr) : (h.setHdr b x).time = h.time := rfl
@[simp] theorem Hub.setHdr_power (h : Hub) (b : Block) (x : Hdr) : (h.setHdr b x).power = h.power := rfl
@[simp] theorem Hub.setHdr_pins (h : Hub) (b : Block) (x : Hdr) : (h.setHdr b x).pins = h.pins := rfl
@[simp] theorem Hub.setHdr_lanes (h : Hub) (b : Block) (x : Hdr) : (h.setHdr b x).lanes = h.lanes := rfl
@[simp] theorem Hub.setHdr_repair (h : Hub) (b : Block) (x : Hdr) : (h.setHdr b x).repair = h.repair := rfl
@[simp] theorem Hub.setHdr_auto (h : Hub) (b : Block) (x : Hdr) : (h.setHdr b x).auto = h.auto := rfl
@[simp] theorem Hub.setHdr_repairMap (h : Hub) (b : Block) (x : Hdr) : (h.setHdr b x).repairMap = h.repairMap := rfl
@[simp] theorem Hub.setHdr_cells (h : Hub) (b : Block) (x : Hdr) : (h.setHdr b x).cells = h.cells := rfl
@[simp] theorem Hub.setHdr_counts (h : Hub) (b : Block) (x : Hdr) : (h.setHdr b x).counts = h.counts := rfl
@[simp] theorem Hub.setHdr_opens (h : Hub) (b : Block) (x : Hdr) : (h.setHdr b x).opens = h.opens := rfl
@[simp] theorem Hub.setHdr_foyers (h : Hub) (b : Block) (x : Hdr) : (h.setHdr b x).foyers = h.foyers := rfl
@[simp] theorem Hub.setHdr_waits (h : Hub) (b : Block) (x : Hdr) : (h.setHdr b x).waits = h.waits := rfl
@[simp] theorem Hub.setHdr_ctxs (h : Hub) (b : Block) (x : Hdr) : (h.setHdr b x).ctxs = h.ctxs := rfl
@[simp] theorem Hub.setHdr_paging (h : Hub) (b : Block) (x : Hdr) : (h.setHdr b x).paging = h.paging := rfl
@[simp] theorem Hub.setHdr_banks (h : Hub) (b : Block) (x : Hdr) : (h.setHdr b x).banks = h.banks := rfl
@[simp] theorem Hub.setHdr_links (h : Hub) (b : Block) (x : Hdr) : (h.setHdr b x).links = h.links := rfl
@[simp] theorem Hub.setHdr_xfer (h : Hub) (b : Block) (x : Hdr) : (h.setHdr b x).xfer = h.xfer := rfl
@[simp] theorem Hub.setHdr_fts (h : Hub) (b : Block) (x : Hdr) : (h.setHdr b x).fts = h.fts := rfl
@[simp] theorem Hub.setHdr_tports (h : Hub) (b : Block) (x : Hdr) : (h.setHdr b x).tports = h.tports := rfl
@[simp] theorem Hub.setHdr_pageq (h : Hub) (b : Block) (x : Hdr) : (h.setHdr b x).pageq = h.pageq := rfl
@[simp] theorem Hub.setHdr_tags (h : Hub) (b : Block) (x : Hdr) : (h.setHdr b x).tags = h.tags := rfl
@[simp] theorem Hub.setHdr_ksi (h : Hub) (b : Block) (x : Hdr) : (h.setHdr b x).ksi = h.ksi := rfl
@[simp] theorem Hub.setHdr_mir (h : Hub) (b : Block) (x : Hdr) : (h.setHdr b x).mir = h.mir := rfl
@[simp] theorem Hub.setHdr_dse (h : Hub) (b : Block) (x : Hdr) : (h.setHdr b x).dse = h.dse := rfl
@[simp] theorem Hub.setHdr_vin (h : Hub) (b : Block) (x : Hdr) : (h.setHdr b x).vin = h.vin := rfl
@[simp] theorem Hub.setHdr_eth (h : Hub) (b : Block) (x : Hdr) : (h.setHdr b x).eth = h.eth := rfl
@[simp] theorem Hub.setHdr_pxb (h : Hub) (b : Block) (x : Hdr) : (h.setHdr b x).pxb = h.pxb := rfl
@[simp] theorem Hub.setHdr_usb (h : Hub) (b : Block) (x : Hdr) : (h.setHdr b x).usb = h.usb := rfl
@[simp] theorem Hub.setHdr_ppc (h : Hub) (b : Block) (x : Hdr) : (h.setHdr b x).ppc = h.ppc := rfl
@[simp] theorem Hub.setHdr_pmc (h : Hub) (b : Block) (x : Hdr) : (h.setHdr b x).pmc = h.pmc := rfl
@[simp] theorem Hub.setHdr_sit (h : Hub) (b : Block) (x : Hdr) : (h.setHdr b x).sit = h.sit := rfl
@[simp] theorem Hub.setHdr_remote (h : Hub) (b : Block) (x : Hdr) : (h.setHdr b x).remote = h.remote := rfl
@[simp] theorem Hub.setHdr_free (h : Hub) (b : Block) (x : Hdr) : (h.setHdr b x).free = h.free := rfl
@[simp] theorem Hub.setHdr_out (h : Hub) (b : Block) (x : Hdr) : (h.setHdr b x).out = h.out := rfl
@[simp] theorem Hub.setHdr_rd (h : Hub) (b : Block) (x : Hdr) (y : Nat) : (h.setHdr b x).rd y = h.rd y := rfl
@[simp] theorem Hub.setHdr_rdWide (h : Hub) (b : Block) (x : Hdr) (y : Nat) : (h.setHdr b x).rdWide y = h.rdWide y := rfl

@[simp] theorem Hub.updHdr_straps (h : Hub) (b : Block) (f : Hdr → Hdr) : (h.updHdr b f).straps = h.straps := rfl
@[simp] theorem Hub.updHdr_regs (h : Hub) (b : Block) (f : Hdr → Hdr) : (h.updHdr b f).regs = h.regs := rfl
@[simp] theorem Hub.updHdr_pend (h : Hub) (b : Block) (f : Hdr → Hdr) : (h.updHdr b f).pend = h.pend := rfl
@[simp] theorem Hub.updHdr_wide (h : Hub) (b : Block) (f : Hdr → Hdr) : (h.updHdr b f).wide = h.wide := rfl
@[simp] theorem Hub.updHdr_mh (h : Hub) (b : Block) (f : Hdr → Hdr) : (h.updHdr b f).mh = h.mh := rfl
@[simp] theorem Hub.updHdr_olog (h : Hub) (b : Block) (f : Hdr → Hdr) : (h.updHdr b f).olog = h.olog := rfl
@[simp] theorem Hub.updHdr_arbs (h : Hub) (b : Block) (f : Hdr → Hdr) : (h.updHdr b f).arbs = h.arbs := rfl
@[simp] theorem Hub.updHdr_time (h : Hub) (b : Block) (f : Hdr → Hdr) : (h.updHdr b f).time = h.time := rfl
@[simp] theorem Hub.updHdr_power (h : Hub) (b : Block) (f : Hdr → Hdr) : (h.updHdr b f).power = h.power := rfl
@[simp] theorem Hub.updHdr_pins (h : Hub) (b : Block) (f : Hdr → Hdr) : (h.updHdr b f).pins = h.pins := rfl
@[simp] theorem Hub.updHdr_lanes (h : Hub) (b : Block) (f : Hdr → Hdr) : (h.updHdr b f).lanes = h.lanes := rfl
@[simp] theorem Hub.updHdr_repair (h : Hub) (b : Block) (f : Hdr → Hdr) : (h.updHdr b f).repair = h.repair := rfl
@[simp] theorem Hub.updHdr_auto (h : Hub) (b : Block) (f : Hdr → Hdr) : (h.updHdr b f).auto = h.auto := rfl
@[simp] theorem Hub.updHdr_repairMap (h : Hub) (b : Block) (f : Hdr → Hdr) : (h.updHdr b f).repairMap = h.repairMap := rfl
@[simp] theorem Hub.updHdr_cells (h : Hub) (b : Block) (f : Hdr → Hdr) : (h.updHdr b f).cells = h.cells := rfl
@[simp] theorem Hub.updHdr_counts (h : Hub) (b : Block) (f : Hdr → Hdr) : (h.updHdr b f).counts = h.counts := rfl
@[simp] theorem Hub.updHdr_opens (h : Hub) (b : Block) (f : Hdr → Hdr) : (h.updHdr b f).opens = h.opens := rfl
@[simp] theorem Hub.updHdr_foyers (h : Hub) (b : Block) (f : Hdr → Hdr) : (h.updHdr b f).foyers = h.foyers := rfl
@[simp] theorem Hub.updHdr_waits (h : Hub) (b : Block) (f : Hdr → Hdr) : (h.updHdr b f).waits = h.waits := rfl
@[simp] theorem Hub.updHdr_ctxs (h : Hub) (b : Block) (f : Hdr → Hdr) : (h.updHdr b f).ctxs = h.ctxs := rfl
@[simp] theorem Hub.updHdr_paging (h : Hub) (b : Block) (f : Hdr → Hdr) : (h.updHdr b f).paging = h.paging := rfl
@[simp] theorem Hub.updHdr_banks (h : Hub) (b : Block) (f : Hdr → Hdr) : (h.updHdr b f).banks = h.banks := rfl
@[simp] theorem Hub.updHdr_links (h : Hub) (b : Block) (f : Hdr → Hdr) : (h.updHdr b f).links = h.links := rfl
@[simp] theorem Hub.updHdr_xfer (h : Hub) (b : Block) (f : Hdr → Hdr) : (h.updHdr b f).xfer = h.xfer := rfl
@[simp] theorem Hub.updHdr_fts (h : Hub) (b : Block) (f : Hdr → Hdr) : (h.updHdr b f).fts = h.fts := rfl
@[simp] theorem Hub.updHdr_tports (h : Hub) (b : Block) (f : Hdr → Hdr) : (h.updHdr b f).tports = h.tports := rfl
@[simp] theorem Hub.updHdr_pageq (h : Hub) (b : Block) (f : Hdr → Hdr) : (h.updHdr b f).pageq = h.pageq := rfl
@[simp] theorem Hub.updHdr_tags (h : Hub) (b : Block) (f : Hdr → Hdr) : (h.updHdr b f).tags = h.tags := rfl
@[simp] theorem Hub.updHdr_ksi (h : Hub) (b : Block) (f : Hdr → Hdr) : (h.updHdr b f).ksi = h.ksi := rfl
@[simp] theorem Hub.updHdr_mir (h : Hub) (b : Block) (f : Hdr → Hdr) : (h.updHdr b f).mir = h.mir := rfl
@[simp] theorem Hub.updHdr_dse (h : Hub) (b : Block) (f : Hdr → Hdr) : (h.updHdr b f).dse = h.dse := rfl
@[simp] theorem Hub.updHdr_vin (h : Hub) (b : Block) (f : Hdr → Hdr) : (h.updHdr b f).vin = h.vin := rfl
@[simp] theorem Hub.updHdr_eth (h : Hub) (b : Block) (f : Hdr → Hdr) : (h.updHdr b f).eth = h.eth := rfl
@[simp] theorem Hub.updHdr_pxb (h : Hub) (b : Block) (f : Hdr → Hdr) : (h.updHdr b f).pxb = h.pxb := rfl
@[simp] theorem Hub.updHdr_usb (h : Hub) (b : Block) (f : Hdr → Hdr) : (h.updHdr b f).usb = h.usb := rfl
@[simp] theorem Hub.updHdr_ppc (h : Hub) (b : Block) (f : Hdr → Hdr) : (h.updHdr b f).ppc = h.ppc := rfl
@[simp] theorem Hub.updHdr_pmc (h : Hub) (b : Block) (f : Hdr → Hdr) : (h.updHdr b f).pmc = h.pmc := rfl
@[simp] theorem Hub.updHdr_sit (h : Hub) (b : Block) (f : Hdr → Hdr) : (h.updHdr b f).sit = h.sit := rfl
@[simp] theorem Hub.updHdr_remote (h : Hub) (b : Block) (f : Hdr → Hdr) : (h.updHdr b f).remote = h.remote := rfl
@[simp] theorem Hub.updHdr_free (h : Hub) (b : Block) (f : Hdr → Hdr) : (h.updHdr b f).free = h.free := rfl
@[simp] theorem Hub.updHdr_out (h : Hub) (b : Block) (f : Hdr → Hdr) : (h.updHdr b f).out = h.out := rfl
@[simp] theorem Hub.updHdr_rd (h : Hub) (b : Block) (f : Hdr → Hdr) (y : Nat) : (h.updHdr b f).rd y = h.rd y := rfl
@[simp] theorem Hub.updHdr_rdWide (h : Hub) (b : Block) (f : Hdr → Hdr) (y : Nat) : (h.updHdr b f).rdWide y = h.rdWide y := rfl

@[simp] theorem Hub.attn_straps (h : Hub) (b : Block) (i : Nat) : (h.attn b i).straps = h.straps := rfl
@[simp] theorem Hub.attn_regs (h : Hub) (b : Block) (i : Nat) : (h.attn b i).regs = h.regs := rfl
@[simp] theorem Hub.attn_pend (h : Hub) (b : Block) (i : Nat) : (h.attn b i).pend = h.pend := rfl
@[simp] theorem Hub.attn_wide (h : Hub) (b : Block) (i : Nat) : (h.attn b i).wide = h.wide := rfl
@[simp] theorem Hub.attn_mh (h : Hub) (b : Block) (i : Nat) : (h.attn b i).mh = h.mh := rfl
@[simp] theorem Hub.attn_olog (h : Hub) (b : Block) (i : Nat) : (h.attn b i).olog = h.olog := rfl
@[simp] theorem Hub.attn_arbs (h : Hub) (b : Block) (i : Nat) : (h.attn b i).arbs = h.arbs := rfl
@[simp] theorem Hub.attn_time (h : Hub) (b : Block) (i : Nat) : (h.attn b i).time = h.time := rfl
@[simp] theorem Hub.attn_power (h : Hub) (b : Block) (i : Nat) : (h.attn b i).power = h.power := rfl
@[simp] theorem Hub.attn_pins (h : Hub) (b : Block) (i : Nat) : (h.attn b i).pins = h.pins := rfl
@[simp] theorem Hub.attn_lanes (h : Hub) (b : Block) (i : Nat) : (h.attn b i).lanes = h.lanes := rfl
@[simp] theorem Hub.attn_repair (h : Hub) (b : Block) (i : Nat) : (h.attn b i).repair = h.repair := rfl
@[simp] theorem Hub.attn_auto (h : Hub) (b : Block) (i : Nat) : (h.attn b i).auto = h.auto := rfl
@[simp] theorem Hub.attn_repairMap (h : Hub) (b : Block) (i : Nat) : (h.attn b i).repairMap = h.repairMap := rfl
@[simp] theorem Hub.attn_cells (h : Hub) (b : Block) (i : Nat) : (h.attn b i).cells = h.cells := rfl
@[simp] theorem Hub.attn_counts (h : Hub) (b : Block) (i : Nat) : (h.attn b i).counts = h.counts := rfl
@[simp] theorem Hub.attn_opens (h : Hub) (b : Block) (i : Nat) : (h.attn b i).opens = h.opens := rfl
@[simp] theorem Hub.attn_foyers (h : Hub) (b : Block) (i : Nat) : (h.attn b i).foyers = h.foyers := rfl
@[simp] theorem Hub.attn_waits (h : Hub) (b : Block) (i : Nat) : (h.attn b i).waits = h.waits := rfl
@[simp] theorem Hub.attn_ctxs (h : Hub) (b : Block) (i : Nat) : (h.attn b i).ctxs = h.ctxs := rfl
@[simp] theorem Hub.attn_paging (h : Hub) (b : Block) (i : Nat) : (h.attn b i).paging = h.paging := rfl
@[simp] theorem Hub.attn_banks (h : Hub) (b : Block) (i : Nat) : (h.attn b i).banks = h.banks := rfl
@[simp] theorem Hub.attn_links (h : Hub) (b : Block) (i : Nat) : (h.attn b i).links = h.links := rfl
@[simp] theorem Hub.attn_xfer (h : Hub) (b : Block) (i : Nat) : (h.attn b i).xfer = h.xfer := rfl
@[simp] theorem Hub.attn_fts (h : Hub) (b : Block) (i : Nat) : (h.attn b i).fts = h.fts := rfl
@[simp] theorem Hub.attn_tports (h : Hub) (b : Block) (i : Nat) : (h.attn b i).tports = h.tports := rfl
@[simp] theorem Hub.attn_pageq (h : Hub) (b : Block) (i : Nat) : (h.attn b i).pageq = h.pageq := rfl
@[simp] theorem Hub.attn_tags (h : Hub) (b : Block) (i : Nat) : (h.attn b i).tags = h.tags := rfl
@[simp] theorem Hub.attn_ksi (h : Hub) (b : Block) (i : Nat) : (h.attn b i).ksi = h.ksi := rfl
@[simp] theorem Hub.attn_mir (h : Hub) (b : Block) (i : Nat) : (h.attn b i).mir = h.mir := rfl
@[simp] theorem Hub.attn_dse (h : Hub) (b : Block) (i : Nat) : (h.attn b i).dse = h.dse := rfl
@[simp] theorem Hub.attn_vin (h : Hub) (b : Block) (i : Nat) : (h.attn b i).vin = h.vin := rfl
@[simp] theorem Hub.attn_eth (h : Hub) (b : Block) (i : Nat) : (h.attn b i).eth = h.eth := rfl
@[simp] theorem Hub.attn_pxb (h : Hub) (b : Block) (i : Nat) : (h.attn b i).pxb = h.pxb := rfl
@[simp] theorem Hub.attn_usb (h : Hub) (b : Block) (i : Nat) : (h.attn b i).usb = h.usb := rfl
@[simp] theorem Hub.attn_ppc (h : Hub) (b : Block) (i : Nat) : (h.attn b i).ppc = h.ppc := rfl
@[simp] theorem Hub.attn_pmc (h : Hub) (b : Block) (i : Nat) : (h.attn b i).pmc = h.pmc := rfl
@[simp] theorem Hub.attn_sit (h : Hub) (b : Block) (i : Nat) : (h.attn b i).sit = h.sit := rfl
@[simp] theorem Hub.attn_remote (h : Hub) (b : Block) (i : Nat) : (h.attn b i).remote = h.remote := rfl
@[simp] theorem Hub.attn_free (h : Hub) (b : Block) (i : Nat) : (h.attn b i).free = h.free := rfl
@[simp] theorem Hub.attn_out (h : Hub) (b : Block) (i : Nat) : (h.attn b i).out = h.out := rfl
@[simp] theorem Hub.attn_rd (h : Hub) (b : Block) (i : Nat) (y : Nat) : (h.attn b i).rd y = h.rd y := rfl
@[simp] theorem Hub.attn_rdWide (h : Hub) (b : Block) (i : Nat) (y : Nat) : (h.attn b i).rdWide y = h.rdWide y := rfl

@[simp] theorem Hub.setLive_straps (h : Hub) (b : Block) (i : Nat) (v : Bool) : (h.setLive b i v).straps = h.straps := rfl
@[simp] theorem Hub.setLive_regs (h : Hub) (b : Block) (i : Nat) (v : Bool) : (h.setLive b i v).regs = h.regs := rfl
@[simp] theorem Hub.setLive_pend (h : Hub) (b : Block) (i : Nat) (v : Bool) : (h.setLive b i v).pend = h.pend := rfl
@[simp] theorem Hub.setLive_wide (h : Hub) (b : Block) (i : Nat) (v : Bool) : (h.setLive b i v).wide = h.wide := rfl
@[simp] theorem Hub.setLive_mh (h : Hub) (b : Block) (i : Nat) (v : Bool) : (h.setLive b i v).mh = h.mh := rfl
@[simp] theorem Hub.setLive_olog (h : Hub) (b : Block) (i : Nat) (v : Bool) : (h.setLive b i v).olog = h.olog := rfl
@[simp] theorem Hub.setLive_arbs (h : Hub) (b : Block) (i : Nat) (v : Bool) : (h.setLive b i v).arbs = h.arbs := rfl
@[simp] theorem Hub.setLive_time (h : Hub) (b : Block) (i : Nat) (v : Bool) : (h.setLive b i v).time = h.time := rfl
@[simp] theorem Hub.setLive_power (h : Hub) (b : Block) (i : Nat) (v : Bool) : (h.setLive b i v).power = h.power := rfl
@[simp] theorem Hub.setLive_pins (h : Hub) (b : Block) (i : Nat) (v : Bool) : (h.setLive b i v).pins = h.pins := rfl
@[simp] theorem Hub.setLive_lanes (h : Hub) (b : Block) (i : Nat) (v : Bool) : (h.setLive b i v).lanes = h.lanes := rfl
@[simp] theorem Hub.setLive_repair (h : Hub) (b : Block) (i : Nat) (v : Bool) : (h.setLive b i v).repair = h.repair := rfl
@[simp] theorem Hub.setLive_auto (h : Hub) (b : Block) (i : Nat) (v : Bool) : (h.setLive b i v).auto = h.auto := rfl
@[simp] theorem Hub.setLive_repairMap (h : Hub) (b : Block) (i : Nat) (v : Bool) : (h.setLive b i v).repairMap = h.repairMap := rfl
@[simp] theorem Hub.setLive_cells (h : Hub) (b : Block) (i : Nat) (v : Bool) : (h.setLive b i v).cells = h.cells := rfl
@[simp] theorem Hub.setLive_counts (h : Hub) (b : Block) (i : Nat) (v : Bool) : (h.setLive b i v).counts = h.counts := rfl
@[simp] theorem Hub.setLive_opens (h : Hub) (b : Block) (i : Nat) (v : Bool) : (h.setLive b i v).opens = h.opens := rfl
@[simp] theorem Hub.setLive_foyers (h : Hub) (b : Block) (i : Nat) (v : Bool) : (h.setLive b i v).foyers = h.foyers := rfl
@[simp] theorem Hub.setLive_waits (h : Hub) (b : Block) (i : Nat) (v : Bool) : (h.setLive b i v).waits = h.waits := rfl
@[simp] theorem Hub.setLive_ctxs (h : Hub) (b : Block) (i : Nat) (v : Bool) : (h.setLive b i v).ctxs = h.ctxs := rfl
@[simp] theorem Hub.setLive_paging (h : Hub) (b : Block) (i : Nat) (v : Bool) : (h.setLive b i v).paging = h.paging := rfl
@[simp] theorem Hub.setLive_banks (h : Hub) (b : Block) (i : Nat) (v : Bool) : (h.setLive b i v).banks = h.banks := rfl
@[simp] theorem Hub.setLive_links (h : Hub) (b : Block) (i : Nat) (v : Bool) : (h.setLive b i v).links = h.links := rfl
@[simp] theorem Hub.setLive_xfer (h : Hub) (b : Block) (i : Nat) (v : Bool) : (h.setLive b i v).xfer = h.xfer := rfl
@[simp] theorem Hub.setLive_fts (h : Hub) (b : Block) (i : Nat) (v : Bool) : (h.setLive b i v).fts = h.fts := rfl
@[simp] theorem Hub.setLive_tports (h : Hub) (b : Block) (i : Nat) (v : Bool) : (h.setLive b i v).tports = h.tports := rfl
@[simp] theorem Hub.setLive_pageq (h : Hub) (b : Block) (i : Nat) (v : Bool) : (h.setLive b i v).pageq = h.pageq := rfl
@[simp] theorem Hub.setLive_tags (h : Hub) (b : Block) (i : Nat) (v : Bool) : (h.setLive b i v).tags = h.tags := rfl
@[simp] theorem Hub.setLive_ksi (h : Hub) (b : Block) (i : Nat) (v : Bool) : (h.setLive b i v).ksi = h.ksi := rfl
@[simp] theorem Hub.setLive_mir (h : Hub) (b : Block) (i : Nat) (v : Bool) : (h.setLive b i v).mir = h.mir := rfl
@[simp] theorem Hub.setLive_dse (h : Hub) (b : Block) (i : Nat) (v : Bool) : (h.setLive b i v).dse = h.dse := rfl
@[simp] theorem Hub.setLive_vin (h : Hub) (b : Block) (i : Nat) (v : Bool) : (h.setLive b i v).vin = h.vin := rfl
@[simp] theorem Hub.setLive_eth (h : Hub) (b : Block) (i : Nat) (v : Bool) : (h.setLive b i v).eth = h.eth := rfl
@[simp] theorem Hub.setLive_pxb (h : Hub) (b : Block) (i : Nat) (v : Bool) : (h.setLive b i v).pxb = h.pxb := rfl
@[simp] theorem Hub.setLive_usb (h : Hub) (b : Block) (i : Nat) (v : Bool) : (h.setLive b i v).usb = h.usb := rfl
@[simp] theorem Hub.setLive_ppc (h : Hub) (b : Block) (i : Nat) (v : Bool) : (h.setLive b i v).ppc = h.ppc := rfl
@[simp] theorem Hub.setLive_pmc (h : Hub) (b : Block) (i : Nat) (v : Bool) : (h.setLive b i v).pmc = h.pmc := rfl
@[simp] theorem Hub.setLive_sit (h : Hub) (b : Block) (i : Nat) (v : Bool) : (h.setLive b i v).sit = h.sit := rfl
@[simp] theorem Hub.setLive_remote (h : Hub) (b : Block) (i : Nat) (v : Bool) : (h.setLive b i v).remote = h.remote := rfl
@[simp] theorem Hub.setLive_free (h : Hub) (b : Block) (i : Nat) (v : Bool) : (h.setLive b i v).free = h.free := rfl
@[simp] theorem Hub.setLive_out (h : Hub) (b : Block) (i : Nat) (v : Bool) : (h.setLive b i v).out = h.out := rfl
@[simp] theorem Hub.setLive_rd (h : Hub) (b : Block) (i : Nat) (v : Bool) (y : Nat) : (h.setLive b i v).rd y = h.rd y := rfl
@[simp] theorem Hub.setLive_rdWide (h : Hub) (b : Block) (i : Nat) (v : Bool) (y : Nat) : (h.setLive b i v).rdWide y = h.rdWide y := rfl

@[simp] theorem Hub.emit_straps (h : Hub) (e : Emit) : (h.emit e).straps = h.straps := rfl
@[simp] theorem Hub.emit_regs (h : Hub) (e : Emit) : (h.emit e).regs = h.regs := rfl
@[simp] theorem Hub.emit_pend (h : Hub) (e : Emit) : (h.emit e).pend = h.pend := rfl
@[simp] theorem Hub.emit_wide (h : Hub) (e : Emit) : (h.emit e).wide = h.wide := rfl
@[simp] theorem Hub.emit_hdrs (h : Hub) (e : Emit) : (h.emit e).hdrs = h.hdrs := rfl
@[simp] theorem Hub.emit_mh (h : Hub) (e : Emit) : (h.emit e).mh = h.mh := rfl
@[simp] theorem Hub.emit_olog (h : Hub) (e : Emit) : (h.emit e).olog = h.olog := rfl
@[simp] theorem Hub.emit_arbs (h : Hub) (e : Emit) : (h.emit e).arbs = h.arbs := rfl
@[simp] theorem Hub.emit_time (h : Hub) (e : Emit) : (h.emit e).time = h.time := rfl
@[simp] theorem Hub.emit_power (h : Hub) (e : Emit) : (h.emit e).power = h.power := rfl
@[simp] theorem Hub.emit_pins (h : Hub) (e : Emit) : (h.emit e).pins = h.pins := rfl
@[simp] theorem Hub.emit_lanes (h : Hub) (e : Emit) : (h.emit e).lanes = h.lanes := rfl
@[simp] theorem Hub.emit_repair (h : Hub) (e : Emit) : (h.emit e).repair = h.repair := rfl
@[simp] theorem Hub.emit_auto (h : Hub) (e : Emit) : (h.emit e).auto = h.auto := rfl
@[simp] theorem Hub.emit_repairMap (h : Hub) (e : Emit) : (h.emit e).repairMap = h.repairMap := rfl
@[simp] theorem Hub.emit_cells (h : Hub) (e : Emit) : (h.emit e).cells = h.cells := rfl
@[simp] theorem Hub.emit_counts (h : Hub) (e : Emit) : (h.emit e).counts = h.counts := rfl
@[simp] theorem Hub.emit_opens (h : Hub) (e : Emit) : (h.emit e).opens = h.opens := rfl
@[simp] theorem Hub.emit_foyers (h : Hub) (e : Emit) : (h.emit e).foyers = h.foyers := rfl
@[simp] theorem Hub.emit_waits (h : Hub) (e : Emit) : (h.emit e).waits = h.waits := rfl
@[simp] theorem Hub.emit_ctxs (h : Hub) (e : Emit) : (h.emit e).ctxs = h.ctxs := rfl
@[simp] theorem Hub.emit_paging (h : Hub) (e : Emit) : (h.emit e).paging = h.paging := rfl
@[simp] theorem Hub.emit_banks (h : Hub) (e : Emit) : (h.emit e).banks = h.banks := rfl
@[simp] theorem Hub.emit_links (h : Hub) (e : Emit) : (h.emit e).links = h.links := rfl
@[simp] theorem Hub.emit_xfer (h : Hub) (e : Emit) : (h.emit e).xfer = h.xfer := rfl
@[simp] theorem Hub.emit_fts (h : Hub) (e : Emit) : (h.emit e).fts = h.fts := rfl
@[simp] theorem Hub.emit_tports (h : Hub) (e : Emit) : (h.emit e).tports = h.tports := rfl
@[simp] theorem Hub.emit_pageq (h : Hub) (e : Emit) : (h.emit e).pageq = h.pageq := rfl
@[simp] theorem Hub.emit_tags (h : Hub) (e : Emit) : (h.emit e).tags = h.tags := rfl
@[simp] theorem Hub.emit_ksi (h : Hub) (e : Emit) : (h.emit e).ksi = h.ksi := rfl
@[simp] theorem Hub.emit_mir (h : Hub) (e : Emit) : (h.emit e).mir = h.mir := rfl
@[simp] theorem Hub.emit_dse (h : Hub) (e : Emit) : (h.emit e).dse = h.dse := rfl
@[simp] theorem Hub.emit_vin (h : Hub) (e : Emit) : (h.emit e).vin = h.vin := rfl
@[simp] theorem Hub.emit_eth (h : Hub) (e : Emit) : (h.emit e).eth = h.eth := rfl
@[simp] theorem Hub.emit_pxb (h : Hub) (e : Emit) : (h.emit e).pxb = h.pxb := rfl
@[simp] theorem Hub.emit_usb (h : Hub) (e : Emit) : (h.emit e).usb = h.usb := rfl
@[simp] theorem Hub.emit_ppc (h : Hub) (e : Emit) : (h.emit e).ppc = h.ppc := rfl
@[simp] theorem Hub.emit_pmc (h : Hub) (e : Emit) : (h.emit e).pmc = h.pmc := rfl
@[simp] theorem Hub.emit_sit (h : Hub) (e : Emit) : (h.emit e).sit = h.sit := rfl
@[simp] theorem Hub.emit_remote (h : Hub) (e : Emit) : (h.emit e).remote = h.remote := rfl
@[simp] theorem Hub.emit_free (h : Hub) (e : Emit) : (h.emit e).free = h.free := rfl
@[simp] theorem Hub.emit_rd (h : Hub) (e : Emit) (y : Nat) : (h.emit e).rd y = h.rd y := rfl
@[simp] theorem Hub.emit_rdWide (h : Hub) (e : Emit) (y : Nat) : (h.emit e).rdWide y = h.rdWide y := rfl
@[simp] theorem Hub.emit_hdr (h : Hub) (e : Emit) (y : Block) : (h.emit e).hdr y = h.hdr y := rfl

@[simp] theorem Hub.fresh_straps (h : Hub)  : (h.fresh).straps = h.straps := rfl
@[simp] theorem Hub.fresh_regs (h : Hub)  : (h.fresh).regs = h.regs := rfl
@[simp] theorem Hub.fresh_pend (h : Hub)  : (h.fresh).pend = h.pend := rfl
@[simp] theorem Hub.fresh_wide (h : Hub)  : (h.fresh).wide = h.wide := rfl
@[simp] theorem Hub.fresh_hdrs (h : Hub)  : (h.fresh).hdrs = h.hdrs := rfl
@[simp] theorem Hub.fresh_mh (h : Hub)  : (h.fresh).mh = h.mh := rfl
@[simp] theorem Hub.fresh_olog (h : Hub)  : (h.fresh).olog = h.olog := rfl
@[simp] theorem Hub.fresh_arbs (h : Hub)  : (h.fresh).arbs = h.arbs := rfl
@[simp] theorem Hub.fresh_time (h : Hub)  : (h.fresh).time = h.time := rfl
@[simp] theorem Hub.fresh_power (h : Hub)  : (h.fresh).power = h.power := rfl
@[simp] theorem Hub.fresh_pins (h : Hub)  : (h.fresh).pins = h.pins := rfl
@[simp] theorem Hub.fresh_lanes (h : Hub)  : (h.fresh).lanes = h.lanes := rfl
@[simp] theorem Hub.fresh_repair (h : Hub)  : (h.fresh).repair = h.repair := rfl
@[simp] theorem Hub.fresh_auto (h : Hub)  : (h.fresh).auto = h.auto := rfl
@[simp] theorem Hub.fresh_repairMap (h : Hub)  : (h.fresh).repairMap = h.repairMap := rfl
@[simp] theorem Hub.fresh_cells (h : Hub)  : (h.fresh).cells = h.cells := rfl
@[simp] theorem Hub.fresh_counts (h : Hub)  : (h.fresh).counts = h.counts := rfl
@[simp] theorem Hub.fresh_opens (h : Hub)  : (h.fresh).opens = h.opens := rfl
@[simp] theorem Hub.fresh_foyers (h : Hub)  : (h.fresh).foyers = h.foyers := rfl
@[simp] theorem Hub.fresh_waits (h : Hub)  : (h.fresh).waits = h.waits := rfl
@[simp] theorem Hub.fresh_ctxs (h : Hub)  : (h.fresh).ctxs = h.ctxs := rfl
@[simp] theorem Hub.fresh_paging (h : Hub)  : (h.fresh).paging = h.paging := rfl
@[simp] theorem Hub.fresh_banks (h : Hub)  : (h.fresh).banks = h.banks := rfl
@[simp] theorem Hub.fresh_links (h : Hub)  : (h.fresh).links = h.links := rfl
@[simp] theorem Hub.fresh_xfer (h : Hub)  : (h.fresh).xfer = h.xfer := rfl
@[simp] theorem Hub.fresh_fts (h : Hub)  : (h.fresh).fts = h.fts := rfl
@[simp] theorem Hub.fresh_tports (h : Hub)  : (h.fresh).tports = h.tports := rfl
@[simp] theorem Hub.fresh_pageq (h : Hub)  : (h.fresh).pageq = h.pageq := rfl
@[simp] theorem Hub.fresh_tags (h : Hub)  : (h.fresh).tags = h.tags := rfl
@[simp] theorem Hub.fresh_ksi (h : Hub)  : (h.fresh).ksi = h.ksi := rfl
@[simp] theorem Hub.fresh_mir (h : Hub)  : (h.fresh).mir = h.mir := rfl
@[simp] theorem Hub.fresh_dse (h : Hub)  : (h.fresh).dse = h.dse := rfl
@[simp] theorem Hub.fresh_vin (h : Hub)  : (h.fresh).vin = h.vin := rfl
@[simp] theorem Hub.fresh_eth (h : Hub)  : (h.fresh).eth = h.eth := rfl
@[simp] theorem Hub.fresh_pxb (h : Hub)  : (h.fresh).pxb = h.pxb := rfl
@[simp] theorem Hub.fresh_usb (h : Hub)  : (h.fresh).usb = h.usb := rfl
@[simp] theorem Hub.fresh_ppc (h : Hub)  : (h.fresh).ppc = h.ppc := rfl
@[simp] theorem Hub.fresh_pmc (h : Hub)  : (h.fresh).pmc = h.pmc := rfl
@[simp] theorem Hub.fresh_sit (h : Hub)  : (h.fresh).sit = h.sit := rfl
@[simp] theorem Hub.fresh_remote (h : Hub)  : (h.fresh).remote = h.remote := rfl
@[simp] theorem Hub.fresh_free (h : Hub)  : (h.fresh).free = h.free := rfl
@[simp] theorem Hub.fresh_rd (h : Hub)  (y : Nat) : (h.fresh).rd y = h.rd y := rfl
@[simp] theorem Hub.fresh_rdWide (h : Hub)  (y : Nat) : (h.fresh).rdWide y = h.rdWide y := rfl
@[simp] theorem Hub.fresh_hdr (h : Hub)  (y : Block) : (h.fresh).hdr y = h.hdr y := rfl

@[simp] theorem Hub.updPower_straps (h : Hub) (f : Power → Power) : (h.updPower f).straps = h.straps := rfl
@[simp] theorem Hub.updPower_regs (h : Hub) (f : Power → Power) : (h.updPower f).regs = h.regs := rfl
@[simp] theorem Hub.updPower_pend (h : Hub) (f : Power → Power) : (h.updPower f).pend = h.pend := rfl
@[simp] theorem Hub.updPower_wide (h : Hub) (f : Power → Power) : (h.updPower f).wide = h.wide := rfl
@[simp] theorem Hub.updPower_hdrs (h : Hub) (f : Power → Power) : (h.updPower f).hdrs = h.hdrs := rfl
@[simp] theorem Hub.updPower_mh (h : Hub) (f : Power → Power) : (h.updPower f).mh = h.mh := rfl
@[simp] theorem Hub.updPower_olog (h : Hub) (f : Power → Power) : (h.updPower f).olog = h.olog := rfl
@[simp] theorem Hub.updPower_arbs (h : Hub) (f : Power → Power) : (h.updPower f).arbs = h.arbs := rfl
@[simp] theorem Hub.updPower_time (h : Hub) (f : Power → Power) : (h.updPower f).time = h.time := rfl
@[simp] theorem Hub.updPower_pins (h : Hub) (f : Power → Power) : (h.updPower f).pins = h.pins := rfl
@[simp] theorem Hub.updPower_lanes (h : Hub) (f : Power → Power) : (h.updPower f).lanes = h.lanes := rfl
@[simp] theorem Hub.updPower_repair (h : Hub) (f : Power → Power) : (h.updPower f).repair = h.repair := rfl
@[simp] theorem Hub.updPower_auto (h : Hub) (f : Power → Power) : (h.updPower f).auto = h.auto := rfl
@[simp] theorem Hub.updPower_repairMap (h : Hub) (f : Power → Power) : (h.updPower f).repairMap = h.repairMap := rfl
@[simp] theorem Hub.updPower_cells (h : Hub) (f : Power → Power) : (h.updPower f).cells = h.cells := rfl
@[simp] theorem Hub.updPower_counts (h : Hub) (f : Power → Power) : (h.updPower f).counts = h.counts := rfl
@[simp] theorem Hub.updPower_opens (h : Hub) (f : Power → Power) : (h.updPower f).opens = h.opens := rfl
@[simp] theorem Hub.updPower_foyers (h : Hub) (f : Power → Power) : (h.updPower f).foyers = h.foyers := rfl
@[simp] theorem Hub.updPower_waits (h : Hub) (f : Power → Power) : (h.updPower f).waits = h.waits := rfl
@[simp] theorem Hub.updPower_ctxs (h : Hub) (f : Power → Power) : (h.updPower f).ctxs = h.ctxs := rfl
@[simp] theorem Hub.updPower_paging (h : Hub) (f : Power → Power) : (h.updPower f).paging = h.paging := rfl
@[simp] theorem Hub.updPower_banks (h : Hub) (f : Power → Power) : (h.updPower f).banks = h.banks := rfl
@[simp] theorem Hub.updPower_links (h : Hub) (f : Power → Power) : (h.updPower f).links = h.links := rfl
@[simp] theorem Hub.updPower_xfer (h : Hub) (f : Power → Power) : (h.updPower f).xfer = h.xfer := rfl
@[simp] theorem Hub.updPower_fts (h : Hub) (f : Power → Power) : (h.updPower f).fts = h.fts := rfl
@[simp] theorem Hub.updPower_tports (h : Hub) (f : Power → Power) : (h.updPower f).tports = h.tports := rfl
@[simp] theorem Hub.updPower_pageq (h : Hub) (f : Power → Power) : (h.updPower f).pageq = h.pageq := rfl
@[simp] theorem Hub.updPower_tags (h : Hub) (f : Power → Power) : (h.updPower f).tags = h.tags := rfl
@[simp] theorem Hub.updPower_ksi (h : Hub) (f : Power → Power) : (h.updPower f).ksi = h.ksi := rfl
@[simp] theorem Hub.updPower_mir (h : Hub) (f : Power → Power) : (h.updPower f).mir = h.mir := rfl
@[simp] theorem Hub.updPower_dse (h : Hub) (f : Power → Power) : (h.updPower f).dse = h.dse := rfl
@[simp] theorem Hub.updPower_vin (h : Hub) (f : Power → Power) : (h.updPower f).vin = h.vin := rfl
@[simp] theorem Hub.updPower_eth (h : Hub) (f : Power → Power) : (h.updPower f).eth = h.eth := rfl
@[simp] theorem Hub.updPower_pxb (h : Hub) (f : Power → Power) : (h.updPower f).pxb = h.pxb := rfl
@[simp] theorem Hub.updPower_usb (h : Hub) (f : Power → Power) : (h.updPower f).usb = h.usb := rfl
@[simp] theorem Hub.updPower_ppc (h : Hub) (f : Power → Power) : (h.updPower f).ppc = h.ppc := rfl
@[simp] theorem Hub.updPower_pmc (h : Hub) (f : Power → Power) : (h.updPower f).pmc = h.pmc := rfl
@[simp] theorem Hub.updPower_sit (h : Hub) (f : Power → Power) : (h.updPower f).sit = h.sit := rfl
@[simp] theorem Hub.updPower_remote (h : Hub) (f : Power → Power) : (h.updPower f).remote = h.remote := rfl
@[simp] theorem Hub.updPower_free (h : Hub) (f : Power → Power) : (h.updPower f).free = h.free := rfl
@[simp] theorem Hub.updPower_out (h : Hub) (f : Power → Power) : (h.updPower f).out = h.out := rfl
@[simp] theorem Hub.updPower_power (h : Hub) (f : Power → Power) : (h.updPower f).power = f h.power := rfl
@[simp] theorem Hub.updPower_rd (h : Hub) (f : Power → Power) (y : Nat) : (h.updPower f).rd y = h.rd y := rfl
@[simp] theorem Hub.updPower_rdWide (h : Hub) (f : Power → Power) (y : Nat) : (h.updPower f).rdWide y = h.rdWide y := rfl
@[simp] theorem Hub.updPower_hdr (h : Hub) (f : Power → Power) (y : Block) : (h.updPower f).hdr y = h.hdr y := rfl

@[simp] theorem Hub.updLink_straps (h : Hub) (p : Nat) (f : LinkSt → LinkSt) : (h.updLink p f).straps = h.straps := rfl
@[simp] theorem Hub.updLink_regs (h : Hub) (p : Nat) (f : LinkSt → LinkSt) : (h.updLink p f).regs = h.regs := rfl
@[simp] theorem Hub.updLink_pend (h : Hub) (p : Nat) (f : LinkSt → LinkSt) : (h.updLink p f).pend = h.pend := rfl
@[simp] theorem Hub.updLink_wide (h : Hub) (p : Nat) (f : LinkSt → LinkSt) : (h.updLink p f).wide = h.wide := rfl
@[simp] theorem Hub.updLink_hdrs (h : Hub) (p : Nat) (f : LinkSt → LinkSt) : (h.updLink p f).hdrs = h.hdrs := rfl
@[simp] theorem Hub.updLink_mh (h : Hub) (p : Nat) (f : LinkSt → LinkSt) : (h.updLink p f).mh = h.mh := rfl
@[simp] theorem Hub.updLink_olog (h : Hub) (p : Nat) (f : LinkSt → LinkSt) : (h.updLink p f).olog = h.olog := rfl
@[simp] theorem Hub.updLink_arbs (h : Hub) (p : Nat) (f : LinkSt → LinkSt) : (h.updLink p f).arbs = h.arbs := rfl
@[simp] theorem Hub.updLink_time (h : Hub) (p : Nat) (f : LinkSt → LinkSt) : (h.updLink p f).time = h.time := rfl
@[simp] theorem Hub.updLink_power (h : Hub) (p : Nat) (f : LinkSt → LinkSt) : (h.updLink p f).power = h.power := rfl
@[simp] theorem Hub.updLink_pins (h : Hub) (p : Nat) (f : LinkSt → LinkSt) : (h.updLink p f).pins = h.pins := rfl
@[simp] theorem Hub.updLink_lanes (h : Hub) (p : Nat) (f : LinkSt → LinkSt) : (h.updLink p f).lanes = h.lanes := rfl
@[simp] theorem Hub.updLink_repair (h : Hub) (p : Nat) (f : LinkSt → LinkSt) : (h.updLink p f).repair = h.repair := rfl
@[simp] theorem Hub.updLink_auto (h : Hub) (p : Nat) (f : LinkSt → LinkSt) : (h.updLink p f).auto = h.auto := rfl
@[simp] theorem Hub.updLink_repairMap (h : Hub) (p : Nat) (f : LinkSt → LinkSt) : (h.updLink p f).repairMap = h.repairMap := rfl
@[simp] theorem Hub.updLink_cells (h : Hub) (p : Nat) (f : LinkSt → LinkSt) : (h.updLink p f).cells = h.cells := rfl
@[simp] theorem Hub.updLink_counts (h : Hub) (p : Nat) (f : LinkSt → LinkSt) : (h.updLink p f).counts = h.counts := rfl
@[simp] theorem Hub.updLink_opens (h : Hub) (p : Nat) (f : LinkSt → LinkSt) : (h.updLink p f).opens = h.opens := rfl
@[simp] theorem Hub.updLink_foyers (h : Hub) (p : Nat) (f : LinkSt → LinkSt) : (h.updLink p f).foyers = h.foyers := rfl
@[simp] theorem Hub.updLink_waits (h : Hub) (p : Nat) (f : LinkSt → LinkSt) : (h.updLink p f).waits = h.waits := rfl
@[simp] theorem Hub.updLink_ctxs (h : Hub) (p : Nat) (f : LinkSt → LinkSt) : (h.updLink p f).ctxs = h.ctxs := rfl
@[simp] theorem Hub.updLink_paging (h : Hub) (p : Nat) (f : LinkSt → LinkSt) : (h.updLink p f).paging = h.paging := rfl
@[simp] theorem Hub.updLink_banks (h : Hub) (p : Nat) (f : LinkSt → LinkSt) : (h.updLink p f).banks = h.banks := rfl
@[simp] theorem Hub.updLink_xfer (h : Hub) (p : Nat) (f : LinkSt → LinkSt) : (h.updLink p f).xfer = h.xfer := rfl
@[simp] theorem Hub.updLink_fts (h : Hub) (p : Nat) (f : LinkSt → LinkSt) : (h.updLink p f).fts = h.fts := rfl
@[simp] theorem Hub.updLink_tports (h : Hub) (p : Nat) (f : LinkSt → LinkSt) : (h.updLink p f).tports = h.tports := rfl
@[simp] theorem Hub.updLink_pageq (h : Hub) (p : Nat) (f : LinkSt → LinkSt) : (h.updLink p f).pageq = h.pageq := rfl
@[simp] theorem Hub.updLink_tags (h : Hub) (p : Nat) (f : LinkSt → LinkSt) : (h.updLink p f).tags = h.tags := rfl
@[simp] theorem Hub.updLink_ksi (h : Hub) (p : Nat) (f : LinkSt → LinkSt) : (h.updLink p f).ksi = h.ksi := rfl
@[simp] theorem Hub.updLink_mir (h : Hub) (p : Nat) (f : LinkSt → LinkSt) : (h.updLink p f).mir = h.mir := rfl
@[simp] theorem Hub.updLink_dse (h : Hub) (p : Nat) (f : LinkSt → LinkSt) : (h.updLink p f).dse = h.dse := rfl
@[simp] theorem Hub.updLink_vin (h : Hub) (p : Nat) (f : LinkSt → LinkSt) : (h.updLink p f).vin = h.vin := rfl
@[simp] theorem Hub.updLink_eth (h : Hub) (p : Nat) (f : LinkSt → LinkSt) : (h.updLink p f).eth = h.eth := rfl
@[simp] theorem Hub.updLink_pxb (h : Hub) (p : Nat) (f : LinkSt → LinkSt) : (h.updLink p f).pxb = h.pxb := rfl
@[simp] theorem Hub.updLink_usb (h : Hub) (p : Nat) (f : LinkSt → LinkSt) : (h.updLink p f).usb = h.usb := rfl
@[simp] theorem Hub.updLink_ppc (h : Hub) (p : Nat) (f : LinkSt → LinkSt) : (h.updLink p f).ppc = h.ppc := rfl
@[simp] theorem Hub.updLink_pmc (h : Hub) (p : Nat) (f : LinkSt → LinkSt) : (h.updLink p f).pmc = h.pmc := rfl
@[simp] theorem Hub.updLink_sit (h : Hub) (p : Nat) (f : LinkSt → LinkSt) : (h.updLink p f).sit = h.sit := rfl
@[simp] theorem Hub.updLink_remote (h : Hub) (p : Nat) (f : LinkSt → LinkSt) : (h.updLink p f).remote = h.remote := rfl
@[simp] theorem Hub.updLink_free (h : Hub) (p : Nat) (f : LinkSt → LinkSt) : (h.updLink p f).free = h.free := rfl
@[simp] theorem Hub.updLink_out (h : Hub) (p : Nat) (f : LinkSt → LinkSt) : (h.updLink p f).out = h.out := rfl
@[simp] theorem Hub.updLink_rd (h : Hub) (p : Nat) (f : LinkSt → LinkSt) (y : Nat) : (h.updLink p f).rd y = h.rd y := rfl
@[simp] theorem Hub.updLink_rdWide (h : Hub) (p : Nat) (f : LinkSt → LinkSt) (y : Nat) : (h.updLink p f).rdWide y = h.rdWide y := rfl
@[simp] theorem Hub.updLink_hdr (h : Hub) (p : Nat) (f : LinkSt → LinkSt) (y : Block) : (h.updLink p f).hdr y = h.hdr y := rfl

@[simp] theorem Hub.setCtx_straps (h : Hub) (s : Nat) (c : Ctx) : (h.setCtx s c).straps = h.straps := rfl
@[simp] theorem Hub.setCtx_regs (h : Hub) (s : Nat) (c : Ctx) : (h.setCtx s c).regs = h.regs := rfl
@[simp] theorem Hub.setCtx_pend (h : Hub) (s : Nat) (c : Ctx) : (h.setCtx s c).pend = h.pend := rfl
@[simp] theorem Hub.setCtx_wide (h : Hub) (s : Nat) (c : Ctx) : (h.setCtx s c).wide = h.wide := rfl
@[simp] theorem Hub.setCtx_hdrs (h : Hub) (s : Nat) (c : Ctx) : (h.setCtx s c).hdrs = h.hdrs := rfl
@[simp] theorem Hub.setCtx_mh (h : Hub) (s : Nat) (c : Ctx) : (h.setCtx s c).mh = h.mh := rfl
@[simp] theorem Hub.setCtx_olog (h : Hub) (s : Nat) (c : Ctx) : (h.setCtx s c).olog = h.olog := rfl
@[simp] theorem Hub.setCtx_arbs (h : Hub) (s : Nat) (c : Ctx) : (h.setCtx s c).arbs = h.arbs := rfl
@[simp] theorem Hub.setCtx_time (h : Hub) (s : Nat) (c : Ctx) : (h.setCtx s c).time = h.time := rfl
@[simp] theorem Hub.setCtx_power (h : Hub) (s : Nat) (c : Ctx) : (h.setCtx s c).power = h.power := rfl
@[simp] theorem Hub.setCtx_pins (h : Hub) (s : Nat) (c : Ctx) : (h.setCtx s c).pins = h.pins := rfl
@[simp] theorem Hub.setCtx_lanes (h : Hub) (s : Nat) (c : Ctx) : (h.setCtx s c).lanes = h.lanes := rfl
@[simp] theorem Hub.setCtx_repair (h : Hub) (s : Nat) (c : Ctx) : (h.setCtx s c).repair = h.repair := rfl
@[simp] theorem Hub.setCtx_auto (h : Hub) (s : Nat) (c : Ctx) : (h.setCtx s c).auto = h.auto := rfl
@[simp] theorem Hub.setCtx_repairMap (h : Hub) (s : Nat) (c : Ctx) : (h.setCtx s c).repairMap = h.repairMap := rfl
@[simp] theorem Hub.setCtx_cells (h : Hub) (s : Nat) (c : Ctx) : (h.setCtx s c).cells = h.cells := rfl
@[simp] theorem Hub.setCtx_counts (h : Hub) (s : Nat) (c : Ctx) : (h.setCtx s c).counts = h.counts := rfl
@[simp] theorem Hub.setCtx_opens (h : Hub) (s : Nat) (c : Ctx) : (h.setCtx s c).opens = h.opens := rfl
@[simp] theorem Hub.setCtx_foyers (h : Hub) (s : Nat) (c : Ctx) : (h.setCtx s c).foyers = h.foyers := rfl
@[simp] theorem Hub.setCtx_waits (h : Hub) (s : Nat) (c : Ctx) : (h.setCtx s c).waits = h.waits := rfl
@[simp] theorem Hub.setCtx_paging (h : Hub) (s : Nat) (c : Ctx) : (h.setCtx s c).paging = h.paging := rfl
@[simp] theorem Hub.setCtx_banks (h : Hub) (s : Nat) (c : Ctx) : (h.setCtx s c).banks = h.banks := rfl
@[simp] theorem Hub.setCtx_links (h : Hub) (s : Nat) (c : Ctx) : (h.setCtx s c).links = h.links := rfl
@[simp] theorem Hub.setCtx_xfer (h : Hub) (s : Nat) (c : Ctx) : (h.setCtx s c).xfer = h.xfer := rfl
@[simp] theorem Hub.setCtx_fts (h : Hub) (s : Nat) (c : Ctx) : (h.setCtx s c).fts = h.fts := rfl
@[simp] theorem Hub.setCtx_tports (h : Hub) (s : Nat) (c : Ctx) : (h.setCtx s c).tports = h.tports := rfl
@[simp] theorem Hub.setCtx_pageq (h : Hub) (s : Nat) (c : Ctx) : (h.setCtx s c).pageq = h.pageq := rfl
@[simp] theorem Hub.setCtx_tags (h : Hub) (s : Nat) (c : Ctx) : (h.setCtx s c).tags = h.tags := rfl
@[simp] theorem Hub.setCtx_ksi (h : Hub) (s : Nat) (c : Ctx) : (h.setCtx s c).ksi = h.ksi := rfl
@[simp] theorem Hub.setCtx_mir (h : Hub) (s : Nat) (c : Ctx) : (h.setCtx s c).mir = h.mir := rfl
@[simp] theorem Hub.setCtx_dse (h : Hub) (s : Nat) (c : Ctx) : (h.setCtx s c).dse = h.dse := rfl
@[simp] theorem Hub.setCtx_vin (h : Hub) (s : Nat) (c : Ctx) : (h.setCtx s c).vin = h.vin := rfl
@[simp] theorem Hub.setCtx_eth (h : Hub) (s : Nat) (c : Ctx) : (h.setCtx s c).eth = h.eth := rfl
@[simp] theorem Hub.setCtx_pxb (h : Hub) (s : Nat) (c : Ctx) : (h.setCtx s c).pxb = h.pxb := rfl
@[simp] theorem Hub.setCtx_usb (h : Hub) (s : Nat) (c : Ctx) : (h.setCtx s c).usb = h.usb := rfl
@[simp] theorem Hub.setCtx_ppc (h : Hub) (s : Nat) (c : Ctx) : (h.setCtx s c).ppc = h.ppc := rfl
@[simp] theorem Hub.setCtx_pmc (h : Hub) (s : Nat) (c : Ctx) : (h.setCtx s c).pmc = h.pmc := rfl
@[simp] theorem Hub.setCtx_sit (h : Hub) (s : Nat) (c : Ctx) : (h.setCtx s c).sit = h.sit := rfl
@[simp] theorem Hub.setCtx_remote (h : Hub) (s : Nat) (c : Ctx) : (h.setCtx s c).remote = h.remote := rfl
@[simp] theorem Hub.setCtx_free (h : Hub) (s : Nat) (c : Ctx) : (h.setCtx s c).free = h.free := rfl
@[simp] theorem Hub.setCtx_out (h : Hub) (s : Nat) (c : Ctx) : (h.setCtx s c).out = h.out := rfl
@[simp] theorem Hub.setCtx_rd (h : Hub) (s : Nat) (c : Ctx) (y : Nat) : (h.setCtx s c).rd y = h.rd y := rfl
@[simp] theorem Hub.setCtx_rdWide (h : Hub) (s : Nat) (c : Ctx) (y : Nat) : (h.setCtx s c).rdWide y = h.rdWide y := rfl
@[simp] theorem Hub.setCtx_hdr (h : Hub) (s : Nat) (c : Ctx) (y : Block) : (h.setCtx s c).hdr y = h.hdr y := rfl

@[simp] theorem Hub.updCtx_straps (h : Hub) (s : Nat) (f : Ctx → Ctx) : (h.updCtx s f).straps = h.straps := rfl
@[simp] theorem Hub.updCtx_regs (h : Hub) (s : Nat) (f : Ctx → Ctx) : (h.updCtx s f).regs = h.regs := rfl
@[simp] theorem Hub.updCtx_pend (h : Hub) (s : Nat) (f : Ctx → Ctx) : (h.updCtx s f).pend = h.pend := rfl
@[simp] theorem Hub.updCtx_wide (h : Hub) (s : Nat) (f : Ctx → Ctx) : (h.updCtx s f).wide = h.wide := rfl
@[simp] theorem Hub.updCtx_hdrs (h : Hub) (s : Nat) (f : Ctx → Ctx) : (h.updCtx s f).hdrs = h.hdrs := rfl
@[simp] theorem Hub.updCtx_mh (h : Hub) (s : Nat) (f : Ctx → Ctx) : (h.updCtx s f).mh = h.mh := rfl
@[simp] theorem Hub.updCtx_olog (h : Hub) (s : Nat) (f : Ctx → Ctx) : (h.updCtx s f).olog = h.olog := rfl
@[simp] theorem Hub.updCtx_arbs (h : Hub) (s : Nat) (f : Ctx → Ctx) : (h.updCtx s f).arbs = h.arbs := rfl
@[simp] theorem Hub.updCtx_time (h : Hub) (s : Nat) (f : Ctx → Ctx) : (h.updCtx s f).time = h.time := rfl
@[simp] theorem Hub.updCtx_power (h : Hub) (s : Nat) (f : Ctx → Ctx) : (h.updCtx s f).power = h.power := rfl
@[simp] theorem Hub.updCtx_pins (h : Hub) (s : Nat) (f : Ctx → Ctx) : (h.updCtx s f).pins = h.pins := rfl
@[simp] theorem Hub.updCtx_lanes (h : Hub) (s : Nat) (f : Ctx → Ctx) : (h.updCtx s f).lanes = h.lanes := rfl
@[simp] theorem Hub.updCtx_repair (h : Hub) (s : Nat) (f : Ctx → Ctx) : (h.updCtx s f).repair = h.repair := rfl
@[simp] theorem Hub.updCtx_auto (h : Hub) (s : Nat) (f : Ctx → Ctx) : (h.updCtx s f).auto = h.auto := rfl
@[simp] theorem Hub.updCtx_repairMap (h : Hub) (s : Nat) (f : Ctx → Ctx) : (h.updCtx s f).repairMap = h.repairMap := rfl
@[simp] theorem Hub.updCtx_cells (h : Hub) (s : Nat) (f : Ctx → Ctx) : (h.updCtx s f).cells = h.cells := rfl
@[simp] theorem Hub.updCtx_counts (h : Hub) (s : Nat) (f : Ctx → Ctx) : (h.updCtx s f).counts = h.counts := rfl
@[simp] theorem Hub.updCtx_opens (h : Hub) (s : Nat) (f : Ctx → Ctx) : (h.updCtx s f).opens = h.opens := rfl
@[simp] theorem Hub.updCtx_foyers (h : Hub) (s : Nat) (f : Ctx → Ctx) : (h.updCtx s f).foyers = h.foyers := rfl
@[simp] theorem Hub.updCtx_waits (h : Hub) (s : Nat) (f : Ctx → Ctx) : (h.updCtx s f).waits = h.waits := rfl
@[simp] theorem Hub.updCtx_paging (h : Hub) (s : Nat) (f : Ctx → Ctx) : (h.updCtx s f).paging = h.paging := rfl
@[simp] theorem Hub.updCtx_banks (h : Hub) (s : Nat) (f : Ctx → Ctx) : (h.updCtx s f).banks = h.banks := rfl
@[simp] theorem Hub.updCtx_links (h : Hub) (s : Nat) (f : Ctx → Ctx) : (h.updCtx s f).links = h.links := rfl
@[simp] theorem Hub.updCtx_xfer (h : Hub) (s : Nat) (f : Ctx → Ctx) : (h.updCtx s f).xfer = h.xfer := rfl
@[simp] theorem Hub.updCtx_fts (h : Hub) (s : Nat) (f : Ctx → Ctx) : (h.updCtx s f).fts = h.fts := rfl
@[simp] theorem Hub.updCtx_tports (h : Hub) (s : Nat) (f : Ctx → Ctx) : (h.updCtx s f).tports = h.tports := rfl
@[simp] theorem Hub.updCtx_pageq (h : Hub) (s : Nat) (f : Ctx → Ctx) : (h.updCtx s f).pageq = h.pageq := rfl
@[simp] theorem Hub.updCtx_tags (h : Hub) (s : Nat) (f : Ctx → Ctx) : (h.updCtx s f).tags = h.tags := rfl
@[simp] theorem Hub.updCtx_ksi (h : Hub) (s : Nat) (f : Ctx → Ctx) : (h.updCtx s f).ksi = h.ksi := rfl
@[simp] theorem Hub.updCtx_mir (h : Hub) (s : Nat) (f : Ctx → Ctx) : (h.updCtx s f).mir = h.mir := rfl
@[simp] theorem Hub.updCtx_dse (h : Hub) (s : Nat) (f : Ctx → Ctx) : (h.updCtx s f).dse = h.dse := rfl
@[simp] theorem Hub.updCtx_vin (h : Hub) (s : Nat) (f : Ctx → Ctx) : (h.updCtx s f).vin = h.vin := rfl
@[simp] theorem Hub.updCtx_eth (h : Hub) (s : Nat) (f : Ctx → Ctx) : (h.updCtx s f).eth = h.eth := rfl
@[simp] theorem Hub.updCtx_pxb (h : Hub) (s : Nat) (f : Ctx → Ctx) : (h.updCtx s f).pxb = h.pxb := rfl
@[simp] theorem Hub.updCtx_usb (h : Hub) (s : Nat) (f : Ctx → Ctx) : (h.updCtx s f).usb = h.usb := rfl
@[simp] theorem Hub.updCtx_ppc (h : Hub) (s : Nat) (f : Ctx → Ctx) : (h.updCtx s f).ppc = h.ppc := rfl
@[simp] theorem Hub.updCtx_pmc (h : Hub) (s : Nat) (f : Ctx → Ctx) : (h.updCtx s f).pmc = h.pmc := rfl
@[simp] theorem Hub.updCtx_sit (h : Hub) (s : Nat) (f : Ctx → Ctx) : (h.updCtx s f).sit = h.sit := rfl
@[simp] theorem Hub.updCtx_remote (h : Hub) (s : Nat) (f : Ctx → Ctx) : (h.updCtx s f).remote = h.remote := rfl
@[simp] theorem Hub.updCtx_free (h : Hub) (s : Nat) (f : Ctx → Ctx) : (h.updCtx s f).free = h.free := rfl
@[simp] theorem Hub.updCtx_out (h : Hub) (s : Nat) (f : Ctx → Ctx) : (h.updCtx s f).out = h.out := rfl
@[simp] theorem Hub.updCtx_rd (h : Hub) (s : Nat) (f : Ctx → Ctx) (y : Nat) : (h.updCtx s f).rd y = h.rd y := rfl
@[simp] theorem Hub.updCtx_rdWide (h : Hub) (s : Nat) (f : Ctx → Ctx) (y : Nat) : (h.updCtx s f).rdWide y = h.rdWide y := rfl
@[simp] theorem Hub.updCtx_hdr (h : Hub) (s : Nat) (f : Ctx → Ctx) (y : Block) : (h.updCtx s f).hdr y = h.hdr y := rfl

@[simp] theorem Hub.setCell_straps (h : Hub) (i : Nat) (c : Option CellSt) : (h.setCell i c).straps = h.straps := rfl
@[simp] theorem Hub.setCell_regs (h : Hub) (i : Nat) (c : Option CellSt) : (h.setCell i c).regs = h.regs := rfl
@[simp] theorem Hub.setCell_pend (h : Hub) (i : Nat) (c : Option CellSt) : (h.setCell i c).pend = h.pend := rfl
@[simp] theorem Hub.setCell_wide (h : Hub) (i : Nat) (c : Option CellSt) : (h.setCell i c).wide = h.wide := rfl
@[simp] theorem Hub.setCell_hdrs (h : Hub) (i : Nat) (c : Option CellSt) : (h.setCell i c).hdrs = h.hdrs := rfl
@[simp] theorem Hub.setCell_mh (h : Hub) (i : Nat) (c : Option CellSt) : (h.setCell i c).mh = h.mh := rfl
@[simp] theorem Hub.setCell_olog (h : Hub) (i : Nat) (c : Option CellSt) : (h.setCell i c).olog = h.olog := rfl
@[simp] theorem Hub.setCell_arbs (h : Hub) (i : Nat) (c : Option CellSt) : (h.setCell i c).arbs = h.arbs := rfl
@[simp] theorem Hub.setCell_time (h : Hub) (i : Nat) (c : Option CellSt) : (h.setCell i c).time = h.time := rfl
@[simp] theorem Hub.setCell_power (h : Hub) (i : Nat) (c : Option CellSt) : (h.setCell i c).power = h.power := rfl
@[simp] theorem Hub.setCell_pins (h : Hub) (i : Nat) (c : Option CellSt) : (h.setCell i c).pins = h.pins := rfl
@[simp] theorem Hub.setCell_lanes (h : Hub) (i : Nat) (c : Option CellSt) : (h.setCell i c).lanes = h.lanes := rfl
@[simp] theorem Hub.setCell_repair (h : Hub) (i : Nat) (c : Option CellSt) : (h.setCell i c).repair = h.repair := rfl
@[simp] theorem Hub.setCell_auto (h : Hub) (i : Nat) (c : Option CellSt) : (h.setCell i c).auto = h.auto := rfl
@[simp] theorem Hub.setCell_repairMap (h : Hub) (i : Nat) (c : Option CellSt) : (h.setCell i c).repairMap = h.repairMap := rfl
@[simp] theorem Hub.setCell_opens (h : Hub) (i : Nat) (c : Option CellSt) : (h.setCell i c).opens = h.opens := rfl
@[simp] theorem Hub.setCell_foyers (h : Hub) (i : Nat) (c : Option CellSt) : (h.setCell i c).foyers = h.foyers := rfl
@[simp] theorem Hub.setCell_waits (h : Hub) (i : Nat) (c : Option CellSt) : (h.setCell i c).waits = h.waits := rfl
@[simp] theorem Hub.setCell_ctxs (h : Hub) (i : Nat) (c : Option CellSt) : (h.setCell i c).ctxs = h.ctxs := rfl
@[simp] theorem Hub.setCell_paging (h : Hub) (i : Nat) (c : Option CellSt) : (h.setCell i c).paging = h.paging := rfl
@[simp] theorem Hub.setCell_banks (h : Hub) (i : Nat) (c : Option CellSt) : (h.setCell i c).banks = h.banks := rfl
@[simp] theorem Hub.setCell_links (h : Hub) (i : Nat) (c : Option CellSt) : (h.setCell i c).links = h.links := rfl
@[simp] theorem Hub.setCell_xfer (h : Hub) (i : Nat) (c : Option CellSt) : (h.setCell i c).xfer = h.xfer := rfl
@[simp] theorem Hub.setCell_fts (h : Hub) (i : Nat) (c : Option CellSt) : (h.setCell i c).fts = h.fts := rfl
@[simp] theorem Hub.setCell_tports (h : Hub) (i : Nat) (c : Option CellSt) : (h.setCell i c).tports = h.tports := rfl
@[simp] theorem Hub.setCell_pageq (h : Hub) (i : Nat) (c : Option CellSt) : (h.setCell i c).pageq = h.pageq := rfl
@[simp] theorem Hub.setCell_tags (h : Hub) (i : Nat) (c : Option CellSt) : (h.setCell i c).tags = h.tags := rfl
@[simp] theorem Hub.setCell_ksi (h : Hub) (i : Nat) (c : Option CellSt) : (h.setCell i c).ksi = h.ksi := rfl
@[simp] theorem Hub.setCell_mir (h : Hub) (i : Nat) (c : Option CellSt) : (h.setCell i c).mir = h.mir := rfl
@[simp] theorem Hub.setCell_dse (h : Hub) (i : Nat) (c : Option CellSt) : (h.setCell i c).dse = h.dse := rfl
@[simp] theorem Hub.setCell_vin (h : Hub) (i : Nat) (c : Option CellSt) : (h.setCell i c).vin = h.vin := rfl
@[simp] theorem Hub.setCell_eth (h : Hub) (i : Nat) (c : Option CellSt) : (h.setCell i c).eth = h.eth := rfl
@[simp] theorem Hub.setCell_pxb (h : Hub) (i : Nat) (c : Option CellSt) : (h.setCell i c).pxb = h.pxb := rfl
@[simp] theorem Hub.setCell_usb (h : Hub) (i : Nat) (c : Option CellSt) : (h.setCell i c).usb = h.usb := rfl
@[simp] theorem Hub.setCell_ppc (h : Hub) (i : Nat) (c : Option CellSt) : (h.setCell i c).ppc = h.ppc := rfl
@[simp] theorem Hub.setCell_pmc (h : Hub) (i : Nat) (c : Option CellSt) : (h.setCell i c).pmc = h.pmc := rfl
@[simp] theorem Hub.setCell_sit (h : Hub) (i : Nat) (c : Option CellSt) : (h.setCell i c).sit = h.sit := rfl
@[simp] theorem Hub.setCell_remote (h : Hub) (i : Nat) (c : Option CellSt) : (h.setCell i c).remote = h.remote := rfl
@[simp] theorem Hub.setCell_free (h : Hub) (i : Nat) (c : Option CellSt) : (h.setCell i c).free = h.free := rfl
@[simp] theorem Hub.setCell_out (h : Hub) (i : Nat) (c : Option CellSt) : (h.setCell i c).out = h.out := rfl
@[simp] theorem Hub.setCell_rd (h : Hub) (i : Nat) (c : Option CellSt) (y : Nat) : (h.setCell i c).rd y = h.rd y := rfl
@[simp] theorem Hub.setCell_rdWide (h : Hub) (i : Nat) (c : Option CellSt) (y : Nat) : (h.setCell i c).rdWide y = h.rdWide y := rfl
@[simp] theorem Hub.setCell_hdr (h : Hub) (i : Nat) (c : Option CellSt) (y : Block) : (h.setCell i c).hdr y = h.hdr y := rfl

@[simp] theorem Hub.updPaging_straps (h : Hub) (f : Paging → Paging) : (h.updPaging f).straps = h.straps := rfl
@[simp] theorem Hub.updPaging_regs (h : Hub) (f : Paging → Paging) : (h.updPaging f).regs = h.regs := rfl
@[simp] theorem Hub.updPaging_pend (h : Hub) (f : Paging → Paging) : (h.updPaging f).pend = h.pend := rfl
@[simp] theorem Hub.updPaging_wide (h : Hub) (f : Paging → Paging) : (h.updPaging f).wide = h.wide := rfl
@[simp] theorem Hub.updPaging_hdrs (h : Hub) (f : Paging → Paging) : (h.updPaging f).hdrs = h.hdrs := rfl
@[simp] theorem Hub.updPaging_mh (h : Hub) (f : Paging → Paging) : (h.updPaging f).mh = h.mh := rfl
@[simp] theorem Hub.updPaging_olog (h : Hub) (f : Paging → Paging) : (h.updPaging f).olog = h.olog := rfl
@[simp] theorem Hub.updPaging_arbs (h : Hub) (f : Paging → Paging) : (h.updPaging f).arbs = h.arbs := rfl
@[simp] theorem Hub.updPaging_time (h : Hub) (f : Paging → Paging) : (h.updPaging f).time = h.time := rfl
@[simp] theorem Hub.updPaging_power (h : Hub) (f : Paging → Paging) : (h.updPaging f).power = h.power := rfl
@[simp] theorem Hub.updPaging_pins (h : Hub) (f : Paging → Paging) : (h.updPaging f).pins = h.pins := rfl
@[simp] theorem Hub.updPaging_lanes (h : Hub) (f : Paging → Paging) : (h.updPaging f).lanes = h.lanes := rfl
@[simp] theorem Hub.updPaging_repair (h : Hub) (f : Paging → Paging) : (h.updPaging f).repair = h.repair := rfl
@[simp] theorem Hub.updPaging_auto (h : Hub) (f : Paging → Paging) : (h.updPaging f).auto = h.auto := rfl
@[simp] theorem Hub.updPaging_repairMap (h : Hub) (f : Paging → Paging) : (h.updPaging f).repairMap = h.repairMap := rfl
@[simp] theorem Hub.updPaging_cells (h : Hub) (f : Paging → Paging) : (h.updPaging f).cells = h.cells := rfl
@[simp] theorem Hub.updPaging_counts (h : Hub) (f : Paging → Paging) : (h.updPaging f).counts = h.counts := rfl
@[simp] theorem Hub.updPaging_opens (h : Hub) (f : Paging → Paging) : (h.updPaging f).opens = h.opens := rfl
@[simp] theorem Hub.updPaging_foyers (h : Hub) (f : Paging → Paging) : (h.updPaging f).foyers = h.foyers := rfl
@[simp] theorem Hub.updPaging_waits (h : Hub) (f : Paging → Paging) : (h.updPaging f).waits = h.waits := rfl
@[simp] theorem Hub.updPaging_ctxs (h : Hub) (f : Paging → Paging) : (h.updPaging f).ctxs = h.ctxs := rfl
@[simp] theorem Hub.updPaging_banks (h : Hub) (f : Paging → Paging) : (h.updPaging f).banks = h.banks := rfl
@[simp] theorem Hub.updPaging_links (h : Hub) (f : Paging → Paging) : (h.updPaging f).links = h.links := rfl
@[simp] theorem Hub.updPaging_xfer (h : Hub) (f : Paging → Paging) : (h.updPaging f).xfer = h.xfer := rfl
@[simp] theorem Hub.updPaging_fts (h : Hub) (f : Paging → Paging) : (h.updPaging f).fts = h.fts := rfl
@[simp] theorem Hub.updPaging_tports (h : Hub) (f : Paging → Paging) : (h.updPaging f).tports = h.tports := rfl
@[simp] theorem Hub.updPaging_pageq (h : Hub) (f : Paging → Paging) : (h.updPaging f).pageq = h.pageq := rfl
@[simp] theorem Hub.updPaging_tags (h : Hub) (f : Paging → Paging) : (h.updPaging f).tags = h.tags := rfl
@[simp] theorem Hub.updPaging_ksi (h : Hub) (f : Paging → Paging) : (h.updPaging f).ksi = h.ksi := rfl
@[simp] theorem Hub.updPaging_mir (h : Hub) (f : Paging → Paging) : (h.updPaging f).mir = h.mir := rfl
@[simp] theorem Hub.updPaging_dse (h : Hub) (f : Paging → Paging) : (h.updPaging f).dse = h.dse := rfl
@[simp] theorem Hub.updPaging_vin (h : Hub) (f : Paging → Paging) : (h.updPaging f).vin = h.vin := rfl
@[simp] theorem Hub.updPaging_eth (h : Hub) (f : Paging → Paging) : (h.updPaging f).eth = h.eth := rfl
@[simp] theorem Hub.updPaging_pxb (h : Hub) (f : Paging → Paging) : (h.updPaging f).pxb = h.pxb := rfl
@[simp] theorem Hub.updPaging_usb (h : Hub) (f : Paging → Paging) : (h.updPaging f).usb = h.usb := rfl
@[simp] theorem Hub.updPaging_ppc (h : Hub) (f : Paging → Paging) : (h.updPaging f).ppc = h.ppc := rfl
@[simp] theorem Hub.updPaging_pmc (h : Hub) (f : Paging → Paging) : (h.updPaging f).pmc = h.pmc := rfl
@[simp] theorem Hub.updPaging_sit (h : Hub) (f : Paging → Paging) : (h.updPaging f).sit = h.sit := rfl
@[simp] theorem Hub.updPaging_remote (h : Hub) (f : Paging → Paging) : (h.updPaging f).remote = h.remote := rfl
@[simp] theorem Hub.updPaging_free (h : Hub) (f : Paging → Paging) : (h.updPaging f).free = h.free := rfl
@[simp] theorem Hub.updPaging_out (h : Hub) (f : Paging → Paging) : (h.updPaging f).out = h.out := rfl
@[simp] theorem Hub.updPaging_paging (h : Hub) (f : Paging → Paging) : (h.updPaging f).paging = f h.paging := rfl
@[simp] theorem Hub.updPaging_rd (h : Hub) (f : Paging → Paging) (y : Nat) : (h.updPaging f).rd y = h.rd y := rfl
@[simp] theorem Hub.updPaging_rdWide (h : Hub) (f : Paging → Paging) (y : Nat) : (h.updPaging f).rdWide y = h.rdWide y := rfl
@[simp] theorem Hub.updPaging_hdr (h : Hub) (f : Paging → Paging) (y : Block) : (h.updPaging f).hdr y = h.hdr y := rfl

@[simp] theorem Hub.updPxb_straps (h : Hub) (f : Pxb → Pxb) : (h.updPxb f).straps = h.straps := rfl
@[simp] theorem Hub.updPxb_regs (h : Hub) (f : Pxb → Pxb) : (h.updPxb f).regs = h.regs := rfl
@[simp] theorem Hub.updPxb_pend (h : Hub) (f : Pxb → Pxb) : (h.updPxb f).pend = h.pend := rfl
@[simp] theorem Hub.updPxb_wide (h : Hub) (f : Pxb → Pxb) : (h.updPxb f).wide = h.wide := rfl
@[simp] theorem Hub.updPxb_hdrs (h : Hub) (f : Pxb → Pxb) : (h.updPxb f).hdrs = h.hdrs := rfl
@[simp] theorem Hub.updPxb_mh (h : Hub) (f : Pxb → Pxb) : (h.updPxb f).mh = h.mh := rfl
@[simp] theorem Hub.updPxb_olog (h : Hub) (f : Pxb → Pxb) : (h.updPxb f).olog = h.olog := rfl
@[simp] theorem Hub.updPxb_arbs (h : Hub) (f : Pxb → Pxb) : (h.updPxb f).arbs = h.arbs := rfl
@[simp] theorem Hub.updPxb_time (h : Hub) (f : Pxb → Pxb) : (h.updPxb f).time = h.time := rfl
@[simp] theorem Hub.updPxb_power (h : Hub) (f : Pxb → Pxb) : (h.updPxb f).power = h.power := rfl
@[simp] theorem Hub.updPxb_pins (h : Hub) (f : Pxb → Pxb) : (h.updPxb f).pins = h.pins := rfl
@[simp] theorem Hub.updPxb_lanes (h : Hub) (f : Pxb → Pxb) : (h.updPxb f).lanes = h.lanes := rfl
@[simp] theorem Hub.updPxb_repair (h : Hub) (f : Pxb → Pxb) : (h.updPxb f).repair = h.repair := rfl
@[simp] theorem Hub.updPxb_auto (h : Hub) (f : Pxb → Pxb) : (h.updPxb f).auto = h.auto := rfl
@[simp] theorem Hub.updPxb_repairMap (h : Hub) (f : Pxb → Pxb) : (h.updPxb f).repairMap = h.repairMap := rfl
@[simp] theorem Hub.updPxb_cells (h : Hub) (f : Pxb → Pxb) : (h.updPxb f).cells = h.cells := rfl
@[simp] theorem Hub.updPxb_counts (h : Hub) (f : Pxb → Pxb) : (h.updPxb f).counts = h.counts := rfl
@[simp] theorem Hub.updPxb_opens (h : Hub) (f : Pxb → Pxb) : (h.updPxb f).opens = h.opens := rfl
@[simp] theorem Hub.updPxb_foyers (h : Hub) (f : Pxb → Pxb) : (h.updPxb f).foyers = h.foyers := rfl
@[simp] theorem Hub.updPxb_waits (h : Hub) (f : Pxb → Pxb) : (h.updPxb f).waits = h.waits := rfl
@[simp] theorem Hub.updPxb_ctxs (h : Hub) (f : Pxb → Pxb) : (h.updPxb f).ctxs = h.ctxs := rfl
@[simp] theorem Hub.updPxb_paging (h : Hub) (f : Pxb → Pxb) : (h.updPxb f).paging = h.paging := rfl
@[simp] theorem Hub.updPxb_banks (h : Hub) (f : Pxb → Pxb) : (h.updPxb f).banks = h.banks := rfl
@[simp] theorem Hub.updPxb_links (h : Hub) (f : Pxb → Pxb) : (h.updPxb f).links = h.links := rfl
@[simp] theorem Hub.updPxb_xfer (h : Hub) (f : Pxb → Pxb) : (h.updPxb f).xfer = h.xfer := rfl
@[simp] theorem Hub.updPxb_fts (h : Hub) (f : Pxb → Pxb) : (h.updPxb f).fts = h.fts := rfl
@[simp] theorem Hub.updPxb_tports (h : Hub) (f : Pxb → Pxb) : (h.updPxb f).tports = h.tports := rfl
@[simp] theorem Hub.updPxb_pageq (h : Hub) (f : Pxb → Pxb) : (h.updPxb f).pageq = h.pageq := rfl
@[simp] theorem Hub.updPxb_tags (h : Hub) (f : Pxb → Pxb) : (h.updPxb f).tags = h.tags := rfl
@[simp] theorem Hub.updPxb_ksi (h : Hub) (f : Pxb → Pxb) : (h.updPxb f).ksi = h.ksi := rfl
@[simp] theorem Hub.updPxb_mir (h : Hub) (f : Pxb → Pxb) : (h.updPxb f).mir = h.mir := rfl
@[simp] theorem Hub.updPxb_dse (h : Hub) (f : Pxb → Pxb) : (h.updPxb f).dse = h.dse := rfl
@[simp] theorem Hub.updPxb_vin (h : Hub) (f : Pxb → Pxb) : (h.updPxb f).vin = h.vin := rfl
@[simp] theorem Hub.updPxb_eth (h : Hub) (f : Pxb → Pxb) : (h.updPxb f).eth = h.eth := rfl
@[simp] theorem Hub.updPxb_usb (h : Hub) (f : Pxb → Pxb) : (h.updPxb f).usb = h.usb := rfl
@[simp] theorem Hub.updPxb_ppc (h : Hub) (f : Pxb → Pxb) : (h.updPxb f).ppc = h.ppc := rfl
@[simp] theorem Hub.updPxb_pmc (h : Hub) (f : Pxb → Pxb) : (h.updPxb f).pmc = h.pmc := rfl
@[simp] theorem Hub.updPxb_sit (h : Hub) (f : Pxb → Pxb) : (h.updPxb f).sit = h.sit := rfl
@[simp] theorem Hub.updPxb_remote (h : Hub) (f : Pxb → Pxb) : (h.updPxb f).remote = h.remote := rfl
@[simp] theorem Hub.updPxb_free (h : Hub) (f : Pxb → Pxb) : (h.updPxb f).free = h.free := rfl
@[simp] theorem Hub.updPxb_out (h : Hub) (f : Pxb → Pxb) : (h.updPxb f).out = h.out := rfl
@[simp] theorem Hub.updPxb_pxb (h : Hub) (f : Pxb → Pxb) : (h.updPxb f).pxb = f h.pxb := rfl
@[simp] theorem Hub.updPxb_rd (h : Hub) (f : Pxb → Pxb) (y : Nat) : (h.updPxb f).rd y = h.rd y := rfl
@[simp] theorem Hub.updPxb_rdWide (h : Hub) (f : Pxb → Pxb) (y : Nat) : (h.updPxb f).rdWide y = h.rdWide y := rfl
@[simp] theorem Hub.updPxb_hdr (h : Hub) (f : Pxb → Pxb) (y : Block) : (h.updPxb f).hdr y = h.hdr y := rfl

@[simp] theorem Hub.updSit_straps (h : Hub) (f : Sit → Sit) : (h.updSit f).straps = h.straps := rfl
@[simp] theorem Hub.updSit_regs (h : Hub) (f : Sit → Sit) : (h.updSit f).regs = h.regs := rfl
@[simp] theorem Hub.updSit_pend (h : Hub) (f : Sit → Sit) : (h.updSit f).pend = h.pend := rfl
@[simp] theorem Hub.updSit_wide (h : Hub) (f : Sit → Sit) : (h.updSit f).wide = h.wide := rfl
@[simp] theorem Hub.updSit_hdrs (h : Hub) (f : Sit → Sit) : (h.updSit f).hdrs = h.hdrs := rfl
@[simp] theorem Hub.updSit_mh (h : Hub) (f : Sit → Sit) : (h.updSit f).mh = h.mh := rfl
@[simp] theorem Hub.updSit_olog (h : Hub) (f : Sit → Sit) : (h.updSit f).olog = h.olog := rfl
@[simp] theorem Hub.updSit_arbs (h : Hub) (f : Sit → Sit) : (h.updSit f).arbs = h.arbs := rfl
@[simp] theorem Hub.updSit_time (h : Hub) (f : Sit → Sit) : (h.updSit f).time = h.time := rfl
@[simp] theorem Hub.updSit_power (h : Hub) (f : Sit → Sit) : (h.updSit f).power = h.power := rfl
@[simp] theorem Hub.updSit_pins (h : Hub) (f : Sit → Sit) : (h.updSit f).pins = h.pins := rfl
@[simp] theorem Hub.updSit_lanes (h : Hub) (f : Sit → Sit) : (h.updSit f).lanes = h.lanes := rfl
@[simp] theorem Hub.updSit_repair (h : Hub) (f : Sit → Sit) : (h.updSit f).repair = h.repair := rfl
@[simp] theorem Hub.updSit_auto (h : Hub) (f : Sit → Sit) : (h.updSit f).auto = h.auto := rfl
@[simp] theorem Hub.updSit_repairMap (h : Hub) (f : Sit → Sit) : (h.updSit f).repairMap = h.repairMap := rfl
@[simp] theorem Hub.updSit_cells (h : Hub) (f : Sit → Sit) : (h.updSit f).cells = h.cells := rfl
@[simp] theorem Hub.updSit_counts (h : Hub) (f : Sit → Sit) : (h.updSit f).counts = h.counts := rfl
@[simp] theorem Hub.updSit_opens (h : Hub) (f : Sit → Sit) : (h.updSit f).opens = h.opens := rfl
@[simp] theorem Hub.updSit_foyers (h : Hub) (f : Sit → Sit) : (h.updSit f).foyers = h.foyers := rfl
@[simp] theorem Hub.updSit_waits (h : Hub) (f : Sit → Sit) : (h.updSit f).waits = h.waits := rfl
@[simp] theorem Hub.updSit_ctxs (h : Hub) (f : Sit → Sit) : (h.updSit f).ctxs = h.ctxs := rfl
@[simp] theorem Hub.updSit_paging (h : Hub) (f : Sit → Sit) : (h.updSit f).paging = h.paging := rfl
@[simp] theorem Hub.updSit_banks (h : Hub) (f : Sit → Sit) : (h.updSit f).banks = h.banks := rfl
@[simp] theorem Hub.updSit_links (h : Hub) (f : Sit → Sit) : (h.updSit f).links = h.links := rfl
@[simp] theorem Hub.updSit_xfer (h : Hub) (f : Sit → Sit) : (h.updSit f).xfer = h.xfer := rfl
@[simp] theorem Hub.updSit_fts (h : Hub) (f : Sit → Sit) : (h.updSit f).fts = h.fts := rfl
@[simp] theorem Hub.updSit_tports (h : Hub) (f : Sit → Sit) : (h.updSit f).tports = h.tports := rfl
@[simp] theorem Hub.updSit_pageq (h : Hub) (f : Sit → Sit) : (h.updSit f).pageq = h.pageq := rfl
@[simp] theorem Hub.updSit_tags (h : Hub) (f : Sit → Sit) : (h.updSit f).tags = h.tags := rfl
@[simp] theorem Hub.updSit_ksi (h : Hub) (f : Sit → Sit) : (h.updSit f).ksi = h.ksi := rfl
@[simp] theorem Hub.updSit_mir (h : Hub) (f : Sit → Sit) : (h.updSit f).mir = h.mir := rfl
@[simp] theorem Hub.updSit_dse (h : Hub) (f : Sit → Sit) : (h.updSit f).dse = h.dse := rfl
@[simp] theorem Hub.updSit_vin (h : Hub) (f : Sit → Sit) : (h.updSit f).vin = h.vin := rfl
@[simp] theorem Hub.updSit_eth (h : Hub) (f : Sit → Sit) : (h.updSit f).eth = h.eth := rfl
@[simp] theorem Hub.updSit_pxb (h : Hub) (f : Sit → Sit) : (h.updSit f).pxb = h.pxb := rfl
@[simp] theorem Hub.updSit_usb (h : Hub) (f : Sit → Sit) : (h.updSit f).usb = h.usb := rfl
@[simp] theorem Hub.updSit_ppc (h : Hub) (f : Sit → Sit) : (h.updSit f).ppc = h.ppc := rfl
@[simp] theorem Hub.updSit_pmc (h : Hub) (f : Sit → Sit) : (h.updSit f).pmc = h.pmc := rfl
@[simp] theorem Hub.updSit_remote (h : Hub) (f : Sit → Sit) : (h.updSit f).remote = h.remote := rfl
@[simp] theorem Hub.updSit_free (h : Hub) (f : Sit → Sit) : (h.updSit f).free = h.free := rfl
@[simp] theorem Hub.updSit_out (h : Hub) (f : Sit → Sit) : (h.updSit f).out = h.out := rfl
@[simp] theorem Hub.updSit_sit (h : Hub) (f : Sit → Sit) : (h.updSit f).sit = f h.sit := rfl
@[simp] theorem Hub.updSit_rd (h : Hub) (f : Sit → Sit) (y : Nat) : (h.updSit f).rd y = h.rd y := rfl
@[simp] theorem Hub.updSit_rdWide (h : Hub) (f : Sit → Sit) (y : Nat) : (h.updSit f).rdWide y = h.rdWide y := rfl
@[simp] theorem Hub.updSit_hdr (h : Hub) (f : Sit → Sit) (y : Block) : (h.updSit f).hdr y = h.hdr y := rfl

@[simp] theorem Hub.updVin_straps (h : Hub) (n : Nat) (f : VinRx → VinRx) : (h.updVin n f).straps = h.straps := rfl
@[simp] theorem Hub.updVin_pend (h : Hub) (n : Nat) (f : VinRx → VinRx) : (h.updVin n f).pend = h.pend := rfl
@[simp] theorem Hub.updVin_wide (h : Hub) (n : Nat) (f : VinRx → VinRx) : (h.updVin n f).wide = h.wide := rfl
@[simp] theorem Hub.updVin_hdrs (h : Hub) (n : Nat) (f : VinRx → VinRx) : (h.updVin n f).hdrs = h.hdrs := rfl
@[simp] theorem Hub.updVin_mh (h : Hub) (n : Nat) (f : VinRx → VinRx) : (h.updVin n f).mh = h.mh := rfl
@[simp] theorem Hub.updVin_olog (h : Hub) (n : Nat) (f : VinRx → VinRx) : (h.updVin n f).olog = h.olog := rfl
@[simp] theorem Hub.updVin_arbs (h : Hub) (n : Nat) (f : VinRx → VinRx) : (h.updVin n f).arbs = h.arbs := rfl
@[simp] theorem Hub.updVin_time (h : Hub) (n : Nat) (f : VinRx → VinRx) : (h.updVin n f).time = h.time := rfl
@[simp] theorem Hub.updVin_power (h : Hub) (n : Nat) (f : VinRx → VinRx) : (h.updVin n f).power = h.power := rfl
@[simp] theorem Hub.updVin_pins (h : Hub) (n : Nat) (f : VinRx → VinRx) : (h.updVin n f).pins = h.pins := rfl
@[simp] theorem Hub.updVin_lanes (h : Hub) (n : Nat) (f : VinRx → VinRx) : (h.updVin n f).lanes = h.lanes := rfl
@[simp] theorem Hub.updVin_repair (h : Hub) (n : Nat) (f : VinRx → VinRx) : (h.updVin n f).repair = h.repair := rfl
@[simp] theorem Hub.updVin_auto (h : Hub) (n : Nat) (f : VinRx → VinRx) : (h.updVin n f).auto = h.auto := rfl
@[simp] theorem Hub.updVin_repairMap (h : Hub) (n : Nat) (f : VinRx → VinRx) : (h.updVin n f).repairMap = h.repairMap := rfl
@[simp] theorem Hub.updVin_cells (h : Hub) (n : Nat) (f : VinRx → VinRx) : (h.updVin n f).cells = h.cells := rfl
@[simp] theorem Hub.updVin_counts (h : Hub) (n : Nat) (f : VinRx → VinRx) : (h.updVin n f).counts = h.counts := rfl
@[simp] theorem Hub.updVin_opens (h : Hub) (n : Nat) (f : VinRx → VinRx) : (h.updVin n f).opens = h.opens := rfl
@[simp] theorem Hub.updVin_foyers (h : Hub) (n : Nat) (f : VinRx → VinRx) : (h.updVin n f).foyers = h.foyers := rfl
@[simp] theorem Hub.updVin_waits (h : Hub) (n : Nat) (f : VinRx → VinRx) : (h.updVin n f).waits = h.waits := rfl
@[simp] theorem Hub.updVin_ctxs (h : Hub) (n : Nat) (f : VinRx → VinRx) : (h.updVin n f).ctxs = h.ctxs := rfl
@[simp] theorem Hub.updVin_paging (h : Hub) (n : Nat) (f : VinRx → VinRx) : (h.updVin n f).paging = h.paging := rfl
@[simp] theorem Hub.updVin_banks (h : Hub) (n : Nat) (f : VinRx → VinRx) : (h.updVin n f).banks = h.banks := rfl
@[simp] theorem Hub.updVin_links (h : Hub) (n : Nat) (f : VinRx → VinRx) : (h.updVin n f).links = h.links := rfl
@[simp] theorem Hub.updVin_xfer (h : Hub) (n : Nat) (f : VinRx → VinRx) : (h.updVin n f).xfer = h.xfer := rfl
@[simp] theorem Hub.updVin_fts (h : Hub) (n : Nat) (f : VinRx → VinRx) : (h.updVin n f).fts = h.fts := rfl
@[simp] theorem Hub.updVin_tports (h : Hub) (n : Nat) (f : VinRx → VinRx) : (h.updVin n f).tports = h.tports := rfl
@[simp] theorem Hub.updVin_pageq (h : Hub) (n : Nat) (f : VinRx → VinRx) : (h.updVin n f).pageq = h.pageq := rfl
@[simp] theorem Hub.updVin_tags (h : Hub) (n : Nat) (f : VinRx → VinRx) : (h.updVin n f).tags = h.tags := rfl
@[simp] theorem Hub.updVin_ksi (h : Hub) (n : Nat) (f : VinRx → VinRx) : (h.updVin n f).ksi = h.ksi := rfl
@[simp] theorem Hub.updVin_mir (h : Hub) (n : Nat) (f : VinRx → VinRx) : (h.updVin n f).mir = h.mir := rfl
@[simp] theorem Hub.updVin_dse (h : Hub) (n : Nat) (f : VinRx → VinRx) : (h.updVin n f).dse = h.dse := rfl
@[simp] theorem Hub.updVin_eth (h : Hub) (n : Nat) (f : VinRx → VinRx) : (h.updVin n f).eth = h.eth := rfl
@[simp] theorem Hub.updVin_pxb (h : Hub) (n : Nat) (f : VinRx → VinRx) : (h.updVin n f).pxb = h.pxb := rfl
@[simp] theorem Hub.updVin_usb (h : Hub) (n : Nat) (f : VinRx → VinRx) : (h.updVin n f).usb = h.usb := rfl
@[simp] theorem Hub.updVin_ppc (h : Hub) (n : Nat) (f : VinRx → VinRx) : (h.updVin n f).ppc = h.ppc := rfl
@[simp] theorem Hub.updVin_pmc (h : Hub) (n : Nat) (f : VinRx → VinRx) : (h.updVin n f).pmc = h.pmc := rfl
@[simp] theorem Hub.updVin_sit (h : Hub) (n : Nat) (f : VinRx → VinRx) : (h.updVin n f).sit = h.sit := rfl
@[simp] theorem Hub.updVin_remote (h : Hub) (n : Nat) (f : VinRx → VinRx) : (h.updVin n f).remote = h.remote := rfl
@[simp] theorem Hub.updVin_free (h : Hub) (n : Nat) (f : VinRx → VinRx) : (h.updVin n f).free = h.free := rfl
@[simp] theorem Hub.updVin_out (h : Hub) (n : Nat) (f : VinRx → VinRx) : (h.updVin n f).out = h.out := rfl
@[simp] theorem Hub.updVin_rdWide (h : Hub) (n : Nat) (f : VinRx → VinRx) (y : Nat) : (h.updVin n f).rdWide y = h.rdWide y := rfl
@[simp] theorem Hub.updVin_hdr (h : Hub) (n : Nat) (f : VinRx → VinRx) (y : Block) : (h.updVin n f).hdr y = h.hdr y := rfl

@[simp] theorem Hub.updKsi_straps (h : Hub) (f : Ksi → Ksi) : (h.updKsi f).straps = h.straps := rfl
@[simp] theorem Hub.updKsi_regs (h : Hub) (f : Ksi → Ksi) : (h.updKsi f).regs = h.regs := rfl
@[simp] theorem Hub.updKsi_pend (h : Hub) (f : Ksi → Ksi) : (h.updKsi f).pend = h.pend := rfl
@[simp] theorem Hub.updKsi_wide (h : Hub) (f : Ksi → Ksi) : (h.updKsi f).wide = h.wide := rfl
@[simp] theorem Hub.updKsi_hdrs (h : Hub) (f : Ksi → Ksi) : (h.updKsi f).hdrs = h.hdrs := rfl
@[simp] theorem Hub.updKsi_mh (h : Hub) (f : Ksi → Ksi) : (h.updKsi f).mh = h.mh := rfl
@[simp] theorem Hub.updKsi_olog (h : Hub) (f : Ksi → Ksi) : (h.updKsi f).olog = h.olog := rfl
@[simp] theorem Hub.updKsi_arbs (h : Hub) (f : Ksi → Ksi) : (h.updKsi f).arbs = h.arbs := rfl
@[simp] theorem Hub.updKsi_time (h : Hub) (f : Ksi → Ksi) : (h.updKsi f).time = h.time := rfl
@[simp] theorem Hub.updKsi_power (h : Hub) (f : Ksi → Ksi) : (h.updKsi f).power = h.power := rfl
@[simp] theorem Hub.updKsi_pins (h : Hub) (f : Ksi → Ksi) : (h.updKsi f).pins = h.pins := rfl
@[simp] theorem Hub.updKsi_lanes (h : Hub) (f : Ksi → Ksi) : (h.updKsi f).lanes = h.lanes := rfl
@[simp] theorem Hub.updKsi_repair (h : Hub) (f : Ksi → Ksi) : (h.updKsi f).repair = h.repair := rfl
@[simp] theorem Hub.updKsi_auto (h : Hub) (f : Ksi → Ksi) : (h.updKsi f).auto = h.auto := rfl
@[simp] theorem Hub.updKsi_repairMap (h : Hub) (f : Ksi → Ksi) : (h.updKsi f).repairMap = h.repairMap := rfl
@[simp] theorem Hub.updKsi_cells (h : Hub) (f : Ksi → Ksi) : (h.updKsi f).cells = h.cells := rfl
@[simp] theorem Hub.updKsi_counts (h : Hub) (f : Ksi → Ksi) : (h.updKsi f).counts = h.counts := rfl
@[simp] theorem Hub.updKsi_opens (h : Hub) (f : Ksi → Ksi) : (h.updKsi f).opens = h.opens := rfl
@[simp] theorem Hub.updKsi_foyers (h : Hub) (f : Ksi → Ksi) : (h.updKsi f).foyers = h.foyers := rfl
@[simp] theorem Hub.updKsi_waits (h : Hub) (f : Ksi → Ksi) : (h.updKsi f).waits = h.waits := rfl
@[simp] theorem Hub.updKsi_ctxs (h : Hub) (f : Ksi → Ksi) : (h.updKsi f).ctxs = h.ctxs := rfl
@[simp] theorem Hub.updKsi_paging (h : Hub) (f : Ksi → Ksi) : (h.updKsi f).paging = h.paging := rfl
@[simp] theorem Hub.updKsi_banks (h : Hub) (f : Ksi → Ksi) : (h.updKsi f).banks = h.banks := rfl
@[simp] theorem Hub.updKsi_links (h : Hub) (f : Ksi → Ksi) : (h.updKsi f).links = h.links := rfl
@[simp] theorem Hub.updKsi_xfer (h : Hub) (f : Ksi → Ksi) : (h.updKsi f).xfer = h.xfer := rfl
@[simp] theorem Hub.updKsi_fts (h : Hub) (f : Ksi → Ksi) : (h.updKsi f).fts = h.fts := rfl
@[simp] theorem Hub.updKsi_tports (h : Hub) (f : Ksi → Ksi) : (h.updKsi f).tports = h.tports := rfl
@[simp] theorem Hub.updKsi_pageq (h : Hub) (f : Ksi → Ksi) : (h.updKsi f).pageq = h.pageq := rfl
@[simp] theorem Hub.updKsi_tags (h : Hub) (f : Ksi → Ksi) : (h.updKsi f).tags = h.tags := rfl
@[simp] theorem Hub.updKsi_mir (h : Hub) (f : Ksi → Ksi) : (h.updKsi f).mir = h.mir := rfl
@[simp] theorem Hub.updKsi_dse (h : Hub) (f : Ksi → Ksi) : (h.updKsi f).dse = h.dse := rfl
@[simp] theorem Hub.updKsi_vin (h : Hub) (f : Ksi → Ksi) : (h.updKsi f).vin = h.vin := rfl
@[simp] theorem Hub.updKsi_eth (h : Hub) (f : Ksi → Ksi) : (h.updKsi f).eth = h.eth := rfl
@[simp] theorem Hub.updKsi_pxb (h : Hub) (f : Ksi → Ksi) : (h.updKsi f).pxb = h.pxb := rfl
@[simp] theorem Hub.updKsi_usb (h : Hub) (f : Ksi → Ksi) : (h.updKsi f).usb = h.usb := rfl
@[simp] theorem Hub.updKsi_ppc (h : Hub) (f : Ksi → Ksi) : (h.updKsi f).ppc = h.ppc := rfl
@[simp] theorem Hub.updKsi_pmc (h : Hub) (f : Ksi → Ksi) : (h.updKsi f).pmc = h.pmc := rfl
@[simp] theorem Hub.updKsi_sit (h : Hub) (f : Ksi → Ksi) : (h.updKsi f).sit = h.sit := rfl
@[simp] theorem Hub.updKsi_remote (h : Hub) (f : Ksi → Ksi) : (h.updKsi f).remote = h.remote := rfl
@[simp] theorem Hub.updKsi_free (h : Hub) (f : Ksi → Ksi) : (h.updKsi f).free = h.free := rfl
@[simp] theorem Hub.updKsi_out (h : Hub) (f : Ksi → Ksi) : (h.updKsi f).out = h.out := rfl
@[simp] theorem Hub.updKsi_ksi (h : Hub) (f : Ksi → Ksi) : (h.updKsi f).ksi = f h.ksi := rfl
@[simp] theorem Hub.updKsi_rd (h : Hub) (f : Ksi → Ksi) (y : Nat) : (h.updKsi f).rd y = h.rd y := rfl
@[simp] theorem Hub.updKsi_rdWide (h : Hub) (f : Ksi → Ksi) (y : Nat) : (h.updKsi f).rdWide y = h.rdWide y := rfl
@[simp] theorem Hub.updKsi_hdr (h : Hub) (f : Ksi → Ksi) (y : Block) : (h.updKsi f).hdr y = h.hdr y := rfl

@[simp] theorem Hub.updChan_straps (h : Hub) (n : Nat) (f : PpcChan → PpcChan) : (h.updChan n f).straps = h.straps := rfl
@[simp] theorem Hub.updChan_regs (h : Hub) (n : Nat) (f : PpcChan → PpcChan) : (h.updChan n f).regs = h.regs := rfl
@[simp] theorem Hub.updChan_pend (h : Hub) (n : Nat) (f : PpcChan → PpcChan) : (h.updChan n f).pend = h.pend := rfl
@[simp] theorem Hub.updChan_wide (h : Hub) (n : Nat) (f : PpcChan → PpcChan) : (h.updChan n f).wide = h.wide := rfl
@[simp] theorem Hub.updChan_hdrs (h : Hub) (n : Nat) (f : PpcChan → PpcChan) : (h.updChan n f).hdrs = h.hdrs := rfl
@[simp] theorem Hub.updChan_mh (h : Hub) (n : Nat) (f : PpcChan → PpcChan) : (h.updChan n f).mh = h.mh := rfl
@[simp] theorem Hub.updChan_olog (h : Hub) (n : Nat) (f : PpcChan → PpcChan) : (h.updChan n f).olog = h.olog := rfl
@[simp] theorem Hub.updChan_arbs (h : Hub) (n : Nat) (f : PpcChan → PpcChan) : (h.updChan n f).arbs = h.arbs := rfl
@[simp] theorem Hub.updChan_time (h : Hub) (n : Nat) (f : PpcChan → PpcChan) : (h.updChan n f).time = h.time := rfl
@[simp] theorem Hub.updChan_power (h : Hub) (n : Nat) (f : PpcChan → PpcChan) : (h.updChan n f).power = h.power := rfl
@[simp] theorem Hub.updChan_pins (h : Hub) (n : Nat) (f : PpcChan → PpcChan) : (h.updChan n f).pins = h.pins := rfl
@[simp] theorem Hub.updChan_lanes (h : Hub) (n : Nat) (f : PpcChan → PpcChan) : (h.updChan n f).lanes = h.lanes := rfl
@[simp] theorem Hub.updChan_repair (h : Hub) (n : Nat) (f : PpcChan → PpcChan) : (h.updChan n f).repair = h.repair := rfl
@[simp] theorem Hub.updChan_auto (h : Hub) (n : Nat) (f : PpcChan → PpcChan) : (h.updChan n f).auto = h.auto := rfl
@[simp] theorem Hub.updChan_repairMap (h : Hub) (n : Nat) (f : PpcChan → PpcChan) : (h.updChan n f).repairMap = h.repairMap := rfl
@[simp] theorem Hub.updChan_cells (h : Hub) (n : Nat) (f : PpcChan → PpcChan) : (h.updChan n f).cells = h.cells := rfl
@[simp] theorem Hub.updChan_counts (h : Hub) (n : Nat) (f : PpcChan → PpcChan) : (h.updChan n f).counts = h.counts := rfl
@[simp] theorem Hub.updChan_opens (h : Hub) (n : Nat) (f : PpcChan → PpcChan) : (h.updChan n f).opens = h.opens := rfl
@[simp] theorem Hub.updChan_foyers (h : Hub) (n : Nat) (f : PpcChan → PpcChan) : (h.updChan n f).foyers = h.foyers := rfl
@[simp] theorem Hub.updChan_waits (h : Hub) (n : Nat) (f : PpcChan → PpcChan) : (h.updChan n f).waits = h.waits := rfl
@[simp] theorem Hub.updChan_ctxs (h : Hub) (n : Nat) (f : PpcChan → PpcChan) : (h.updChan n f).ctxs = h.ctxs := rfl
@[simp] theorem Hub.updChan_paging (h : Hub) (n : Nat) (f : PpcChan → PpcChan) : (h.updChan n f).paging = h.paging := rfl
@[simp] theorem Hub.updChan_banks (h : Hub) (n : Nat) (f : PpcChan → PpcChan) : (h.updChan n f).banks = h.banks := rfl
@[simp] theorem Hub.updChan_links (h : Hub) (n : Nat) (f : PpcChan → PpcChan) : (h.updChan n f).links = h.links := rfl
@[simp] theorem Hub.updChan_xfer (h : Hub) (n : Nat) (f : PpcChan → PpcChan) : (h.updChan n f).xfer = h.xfer := rfl
@[simp] theorem Hub.updChan_fts (h : Hub) (n : Nat) (f : PpcChan → PpcChan) : (h.updChan n f).fts = h.fts := rfl
@[simp] theorem Hub.updChan_tports (h : Hub) (n : Nat) (f : PpcChan → PpcChan) : (h.updChan n f).tports = h.tports := rfl
@[simp] theorem Hub.updChan_pageq (h : Hub) (n : Nat) (f : PpcChan → PpcChan) : (h.updChan n f).pageq = h.pageq := rfl
@[simp] theorem Hub.updChan_tags (h : Hub) (n : Nat) (f : PpcChan → PpcChan) : (h.updChan n f).tags = h.tags := rfl
@[simp] theorem Hub.updChan_ksi (h : Hub) (n : Nat) (f : PpcChan → PpcChan) : (h.updChan n f).ksi = h.ksi := rfl
@[simp] theorem Hub.updChan_mir (h : Hub) (n : Nat) (f : PpcChan → PpcChan) : (h.updChan n f).mir = h.mir := rfl
@[simp] theorem Hub.updChan_dse (h : Hub) (n : Nat) (f : PpcChan → PpcChan) : (h.updChan n f).dse = h.dse := rfl
@[simp] theorem Hub.updChan_vin (h : Hub) (n : Nat) (f : PpcChan → PpcChan) : (h.updChan n f).vin = h.vin := rfl
@[simp] theorem Hub.updChan_eth (h : Hub) (n : Nat) (f : PpcChan → PpcChan) : (h.updChan n f).eth = h.eth := rfl
@[simp] theorem Hub.updChan_pxb (h : Hub) (n : Nat) (f : PpcChan → PpcChan) : (h.updChan n f).pxb = h.pxb := rfl
@[simp] theorem Hub.updChan_usb (h : Hub) (n : Nat) (f : PpcChan → PpcChan) : (h.updChan n f).usb = h.usb := rfl
@[simp] theorem Hub.updChan_pmc (h : Hub) (n : Nat) (f : PpcChan → PpcChan) : (h.updChan n f).pmc = h.pmc := rfl
@[simp] theorem Hub.updChan_sit (h : Hub) (n : Nat) (f : PpcChan → PpcChan) : (h.updChan n f).sit = h.sit := rfl
@[simp] theorem Hub.updChan_remote (h : Hub) (n : Nat) (f : PpcChan → PpcChan) : (h.updChan n f).remote = h.remote := rfl
@[simp] theorem Hub.updChan_free (h : Hub) (n : Nat) (f : PpcChan → PpcChan) : (h.updChan n f).free = h.free := rfl
@[simp] theorem Hub.updChan_out (h : Hub) (n : Nat) (f : PpcChan → PpcChan) : (h.updChan n f).out = h.out := rfl
@[simp] theorem Hub.updChan_rd (h : Hub) (n : Nat) (f : PpcChan → PpcChan) (y : Nat) : (h.updChan n f).rd y = h.rd y := rfl
@[simp] theorem Hub.updChan_rdWide (h : Hub) (n : Nat) (f : PpcChan → PpcChan) (y : Nat) : (h.updChan n f).rdWide y = h.rdWide y := rfl
@[simp] theorem Hub.updChan_hdr (h : Hub) (n : Nat) (f : PpcChan → PpcChan) (y : Block) : (h.updChan n f).hdr y = h.hdr y := rfl

@[simp] theorem Hub.updPmc_straps (h : Hub) (f : Pmc → Pmc) : (h.updPmc f).straps = h.straps := rfl
@[simp] theorem Hub.updPmc_regs (h : Hub) (f : Pmc → Pmc) : (h.updPmc f).regs = h.regs := rfl
@[simp] theorem Hub.updPmc_pend (h : Hub) (f : Pmc → Pmc) : (h.updPmc f).pend = h.pend := rfl
@[simp] theorem Hub.updPmc_wide (h : Hub) (f : Pmc → Pmc) : (h.updPmc f).wide = h.wide := rfl
@[simp] theorem Hub.updPmc_hdrs (h : Hub) (f : Pmc → Pmc) : (h.updPmc f).hdrs = h.hdrs := rfl
@[simp] theorem Hub.updPmc_mh (h : Hub) (f : Pmc → Pmc) : (h.updPmc f).mh = h.mh := rfl
@[simp] theorem Hub.updPmc_olog (h : Hub) (f : Pmc → Pmc) : (h.updPmc f).olog = h.olog := rfl
@[simp] theorem Hub.updPmc_arbs (h : Hub) (f : Pmc → Pmc) : (h.updPmc f).arbs = h.arbs := rfl
@[simp] theorem Hub.updPmc_time (h : Hub) (f : Pmc → Pmc) : (h.updPmc f).time = h.time := rfl
@[simp] theorem Hub.updPmc_power (h : Hub) (f : Pmc → Pmc) : (h.updPmc f).power = h.power := rfl
@[simp] theorem Hub.updPmc_pins (h : Hub) (f : Pmc → Pmc) : (h.updPmc f).pins = h.pins := rfl
@[simp] theorem Hub.updPmc_lanes (h : Hub) (f : Pmc → Pmc) : (h.updPmc f).lanes = h.lanes := rfl
@[simp] theorem Hub.updPmc_repair (h : Hub) (f : Pmc → Pmc) : (h.updPmc f).repair = h.repair := rfl
@[simp] theorem Hub.updPmc_auto (h : Hub) (f : Pmc → Pmc) : (h.updPmc f).auto = h.auto := rfl
@[simp] theorem Hub.updPmc_repairMap (h : Hub) (f : Pmc → Pmc) : (h.updPmc f).repairMap = h.repairMap := rfl
@[simp] theorem Hub.updPmc_cells (h : Hub) (f : Pmc → Pmc) : (h.updPmc f).cells = h.cells := rfl
@[simp] theorem Hub.updPmc_counts (h : Hub) (f : Pmc → Pmc) : (h.updPmc f).counts = h.counts := rfl
@[simp] theorem Hub.updPmc_opens (h : Hub) (f : Pmc → Pmc) : (h.updPmc f).opens = h.opens := rfl
@[simp] theorem Hub.updPmc_foyers (h : Hub) (f : Pmc → Pmc) : (h.updPmc f).foyers = h.foyers := rfl
@[simp] theorem Hub.updPmc_waits (h : Hub) (f : Pmc → Pmc) : (h.updPmc f).waits = h.waits := rfl
@[simp] theorem Hub.updPmc_ctxs (h : Hub) (f : Pmc → Pmc) : (h.updPmc f).ctxs = h.ctxs := rfl
@[simp] theorem Hub.updPmc_paging (h : Hub) (f : Pmc → Pmc) : (h.updPmc f).paging = h.paging := rfl
@[simp] theorem Hub.updPmc_banks (h : Hub) (f : Pmc → Pmc) : (h.updPmc f).banks = h.banks := rfl
@[simp] theorem Hub.updPmc_links (h : Hub) (f : Pmc → Pmc) : (h.updPmc f).links = h.links := rfl
@[simp] theorem Hub.updPmc_xfer (h : Hub) (f : Pmc → Pmc) : (h.updPmc f).xfer = h.xfer := rfl
@[simp] theorem Hub.updPmc_fts (h : Hub) (f : Pmc → Pmc) : (h.updPmc f).fts = h.fts := rfl
@[simp] theorem Hub.updPmc_tports (h : Hub) (f : Pmc → Pmc) : (h.updPmc f).tports = h.tports := rfl
@[simp] theorem Hub.updPmc_pageq (h : Hub) (f : Pmc → Pmc) : (h.updPmc f).pageq = h.pageq := rfl
@[simp] theorem Hub.updPmc_tags (h : Hub) (f : Pmc → Pmc) : (h.updPmc f).tags = h.tags := rfl
@[simp] theorem Hub.updPmc_ksi (h : Hub) (f : Pmc → Pmc) : (h.updPmc f).ksi = h.ksi := rfl
@[simp] theorem Hub.updPmc_mir (h : Hub) (f : Pmc → Pmc) : (h.updPmc f).mir = h.mir := rfl
@[simp] theorem Hub.updPmc_dse (h : Hub) (f : Pmc → Pmc) : (h.updPmc f).dse = h.dse := rfl
@[simp] theorem Hub.updPmc_vin (h : Hub) (f : Pmc → Pmc) : (h.updPmc f).vin = h.vin := rfl
@[simp] theorem Hub.updPmc_eth (h : Hub) (f : Pmc → Pmc) : (h.updPmc f).eth = h.eth := rfl
@[simp] theorem Hub.updPmc_pxb (h : Hub) (f : Pmc → Pmc) : (h.updPmc f).pxb = h.pxb := rfl
@[simp] theorem Hub.updPmc_usb (h : Hub) (f : Pmc → Pmc) : (h.updPmc f).usb = h.usb := rfl
@[simp] theorem Hub.updPmc_ppc (h : Hub) (f : Pmc → Pmc) : (h.updPmc f).ppc = h.ppc := rfl
@[simp] theorem Hub.updPmc_sit (h : Hub) (f : Pmc → Pmc) : (h.updPmc f).sit = h.sit := rfl
@[simp] theorem Hub.updPmc_remote (h : Hub) (f : Pmc → Pmc) : (h.updPmc f).remote = h.remote := rfl
@[simp] theorem Hub.updPmc_free (h : Hub) (f : Pmc → Pmc) : (h.updPmc f).free = h.free := rfl
@[simp] theorem Hub.updPmc_out (h : Hub) (f : Pmc → Pmc) : (h.updPmc f).out = h.out := rfl
@[simp] theorem Hub.updPmc_pmc (h : Hub) (f : Pmc → Pmc) : (h.updPmc f).pmc = f h.pmc := rfl
@[simp] theorem Hub.updPmc_rd (h : Hub) (f : Pmc → Pmc) (y : Nat) : (h.updPmc f).rd y = h.rd y := rfl
@[simp] theorem Hub.updPmc_rdWide (h : Hub) (f : Pmc → Pmc) (y : Nat) : (h.updPmc f).rdWide y = h.rdWide y := rfl
@[simp] theorem Hub.updPmc_hdr (h : Hub) (f : Pmc → Pmc) (y : Block) : (h.updPmc f).hdr y = h.hdr y := rfl

@[simp] theorem Hub.updDpOut_straps (h : Hub) (o : Nat) (f : DpOut → DpOut) : (h.updDpOut o f).straps = h.straps := rfl
@[simp] theorem Hub.updDpOut_pend (h : Hub) (o : Nat) (f : DpOut → DpOut) : (h.updDpOut o f).pend = h.pend := rfl
@[simp] theorem Hub.updDpOut_wide (h : Hub) (o : Nat) (f : DpOut → DpOut) : (h.updDpOut o f).wide = h.wide := rfl
@[simp] theorem Hub.updDpOut_hdrs (h : Hub) (o : Nat) (f : DpOut → DpOut) : (h.updDpOut o f).hdrs = h.hdrs := rfl
@[simp] theorem Hub.updDpOut_mh (h : Hub) (o : Nat) (f : DpOut → DpOut) : (h.updDpOut o f).mh = h.mh := rfl
@[simp] theorem Hub.updDpOut_olog (h : Hub) (o : Nat) (f : DpOut → DpOut) : (h.updDpOut o f).olog = h.olog := rfl
@[simp] theorem Hub.updDpOut_arbs (h : Hub) (o : Nat) (f : DpOut → DpOut) : (h.updDpOut o f).arbs = h.arbs := rfl
@[simp] theorem Hub.updDpOut_time (h : Hub) (o : Nat) (f : DpOut → DpOut) : (h.updDpOut o f).time = h.time := rfl
@[simp] theorem Hub.updDpOut_power (h : Hub) (o : Nat) (f : DpOut → DpOut) : (h.updDpOut o f).power = h.power := rfl
@[simp] theorem Hub.updDpOut_pins (h : Hub) (o : Nat) (f : DpOut → DpOut) : (h.updDpOut o f).pins = h.pins := rfl
@[simp] theorem Hub.updDpOut_lanes (h : Hub) (o : Nat) (f : DpOut → DpOut) : (h.updDpOut o f).lanes = h.lanes := rfl
@[simp] theorem Hub.updDpOut_repair (h : Hub) (o : Nat) (f : DpOut → DpOut) : (h.updDpOut o f).repair = h.repair := rfl
@[simp] theorem Hub.updDpOut_auto (h : Hub) (o : Nat) (f : DpOut → DpOut) : (h.updDpOut o f).auto = h.auto := rfl
@[simp] theorem Hub.updDpOut_repairMap (h : Hub) (o : Nat) (f : DpOut → DpOut) : (h.updDpOut o f).repairMap = h.repairMap := rfl
@[simp] theorem Hub.updDpOut_cells (h : Hub) (o : Nat) (f : DpOut → DpOut) : (h.updDpOut o f).cells = h.cells := rfl
@[simp] theorem Hub.updDpOut_counts (h : Hub) (o : Nat) (f : DpOut → DpOut) : (h.updDpOut o f).counts = h.counts := rfl
@[simp] theorem Hub.updDpOut_opens (h : Hub) (o : Nat) (f : DpOut → DpOut) : (h.updDpOut o f).opens = h.opens := rfl
@[simp] theorem Hub.updDpOut_foyers (h : Hub) (o : Nat) (f : DpOut → DpOut) : (h.updDpOut o f).foyers = h.foyers := rfl
@[simp] theorem Hub.updDpOut_waits (h : Hub) (o : Nat) (f : DpOut → DpOut) : (h.updDpOut o f).waits = h.waits := rfl
@[simp] theorem Hub.updDpOut_ctxs (h : Hub) (o : Nat) (f : DpOut → DpOut) : (h.updDpOut o f).ctxs = h.ctxs := rfl
@[simp] theorem Hub.updDpOut_paging (h : Hub) (o : Nat) (f : DpOut → DpOut) : (h.updDpOut o f).paging = h.paging := rfl
@[simp] theorem Hub.updDpOut_banks (h : Hub) (o : Nat) (f : DpOut → DpOut) : (h.updDpOut o f).banks = h.banks := rfl
@[simp] theorem Hub.updDpOut_links (h : Hub) (o : Nat) (f : DpOut → DpOut) : (h.updDpOut o f).links = h.links := rfl
@[simp] theorem Hub.updDpOut_xfer (h : Hub) (o : Nat) (f : DpOut → DpOut) : (h.updDpOut o f).xfer = h.xfer := rfl
@[simp] theorem Hub.updDpOut_fts (h : Hub) (o : Nat) (f : DpOut → DpOut) : (h.updDpOut o f).fts = h.fts := rfl
@[simp] theorem Hub.updDpOut_tports (h : Hub) (o : Nat) (f : DpOut → DpOut) : (h.updDpOut o f).tports = h.tports := rfl
@[simp] theorem Hub.updDpOut_pageq (h : Hub) (o : Nat) (f : DpOut → DpOut) : (h.updDpOut o f).pageq = h.pageq := rfl
@[simp] theorem Hub.updDpOut_tags (h : Hub) (o : Nat) (f : DpOut → DpOut) : (h.updDpOut o f).tags = h.tags := rfl
@[simp] theorem Hub.updDpOut_ksi (h : Hub) (o : Nat) (f : DpOut → DpOut) : (h.updDpOut o f).ksi = h.ksi := rfl
@[simp] theorem Hub.updDpOut_mir (h : Hub) (o : Nat) (f : DpOut → DpOut) : (h.updDpOut o f).mir = h.mir := rfl
@[simp] theorem Hub.updDpOut_vin (h : Hub) (o : Nat) (f : DpOut → DpOut) : (h.updDpOut o f).vin = h.vin := rfl
@[simp] theorem Hub.updDpOut_eth (h : Hub) (o : Nat) (f : DpOut → DpOut) : (h.updDpOut o f).eth = h.eth := rfl
@[simp] theorem Hub.updDpOut_pxb (h : Hub) (o : Nat) (f : DpOut → DpOut) : (h.updDpOut o f).pxb = h.pxb := rfl
@[simp] theorem Hub.updDpOut_usb (h : Hub) (o : Nat) (f : DpOut → DpOut) : (h.updDpOut o f).usb = h.usb := rfl
@[simp] theorem Hub.updDpOut_ppc (h : Hub) (o : Nat) (f : DpOut → DpOut) : (h.updDpOut o f).ppc = h.ppc := rfl
@[simp] theorem Hub.updDpOut_pmc (h : Hub) (o : Nat) (f : DpOut → DpOut) : (h.updDpOut o f).pmc = h.pmc := rfl
@[simp] theorem Hub.updDpOut_sit (h : Hub) (o : Nat) (f : DpOut → DpOut) : (h.updDpOut o f).sit = h.sit := rfl
@[simp] theorem Hub.updDpOut_remote (h : Hub) (o : Nat) (f : DpOut → DpOut) : (h.updDpOut o f).remote = h.remote := rfl
@[simp] theorem Hub.updDpOut_free (h : Hub) (o : Nat) (f : DpOut → DpOut) : (h.updDpOut o f).free = h.free := rfl
@[simp] theorem Hub.updDpOut_out (h : Hub) (o : Nat) (f : DpOut → DpOut) : (h.updDpOut o f).out = h.out := rfl
@[simp] theorem Hub.updDpOut_rdWide (h : Hub) (o : Nat) (f : DpOut → DpOut) (y : Nat) : (h.updDpOut o f).rdWide y = h.rdWide y := rfl
@[simp] theorem Hub.updDpOut_hdr (h : Hub) (o : Nat) (f : DpOut → DpOut) (y : Block) : (h.updDpOut o f).hdr y = h.hdr y := rfl

@[simp] theorem Hub.updDpIn_straps (h : Hub) (o : Nat) (f : DpIn → DpIn) : (h.updDpIn o f).straps = h.straps := rfl
@[simp] theorem Hub.updDpIn_regs (h : Hub) (o : Nat) (f : DpIn → DpIn) : (h.updDpIn o f).regs = h.regs := rfl
@[simp] theorem Hub.updDpIn_pend (h : Hub) (o : Nat) (f : DpIn → DpIn) : (h.updDpIn o f).pend = h.pend := rfl
@[simp] theorem Hub.updDpIn_wide (h : Hub) (o : Nat) (f : DpIn → DpIn) : (h.updDpIn o f).wide = h.wide := rfl
@[simp] theorem Hub.updDpIn_hdrs (h : Hub) (o : Nat) (f : DpIn → DpIn) : (h.updDpIn o f).hdrs = h.hdrs := rfl
@[simp] theorem Hub.updDpIn_mh (h : Hub) (o : Nat) (f : DpIn → DpIn) : (h.updDpIn o f).mh = h.mh := rfl
@[simp] theorem Hub.updDpIn_olog (h : Hub) (o : Nat) (f : DpIn → DpIn) : (h.updDpIn o f).olog = h.olog := rfl
@[simp] theorem Hub.updDpIn_arbs (h : Hub) (o : Nat) (f : DpIn → DpIn) : (h.updDpIn o f).arbs = h.arbs := rfl
@[simp] theorem Hub.updDpIn_time (h : Hub) (o : Nat) (f : DpIn → DpIn) : (h.updDpIn o f).time = h.time := rfl
@[simp] theorem Hub.updDpIn_power (h : Hub) (o : Nat) (f : DpIn → DpIn) : (h.updDpIn o f).power = h.power := rfl
@[simp] theorem Hub.updDpIn_pins (h : Hub) (o : Nat) (f : DpIn → DpIn) : (h.updDpIn o f).pins = h.pins := rfl
@[simp] theorem Hub.updDpIn_lanes (h : Hub) (o : Nat) (f : DpIn → DpIn) : (h.updDpIn o f).lanes = h.lanes := rfl
@[simp] theorem Hub.updDpIn_repair (h : Hub) (o : Nat) (f : DpIn → DpIn) : (h.updDpIn o f).repair = h.repair := rfl
@[simp] theorem Hub.updDpIn_auto (h : Hub) (o : Nat) (f : DpIn → DpIn) : (h.updDpIn o f).auto = h.auto := rfl
@[simp] theorem Hub.updDpIn_repairMap (h : Hub) (o : Nat) (f : DpIn → DpIn) : (h.updDpIn o f).repairMap = h.repairMap := rfl
@[simp] theorem Hub.updDpIn_cells (h : Hub) (o : Nat) (f : DpIn → DpIn) : (h.updDpIn o f).cells = h.cells := rfl
@[simp] theorem Hub.updDpIn_counts (h : Hub) (o : Nat) (f : DpIn → DpIn) : (h.updDpIn o f).counts = h.counts := rfl
@[simp] theorem Hub.updDpIn_opens (h : Hub) (o : Nat) (f : DpIn → DpIn) : (h.updDpIn o f).opens = h.opens := rfl
@[simp] theorem Hub.updDpIn_foyers (h : Hub) (o : Nat) (f : DpIn → DpIn) : (h.updDpIn o f).foyers = h.foyers := rfl
@[simp] theorem Hub.updDpIn_waits (h : Hub) (o : Nat) (f : DpIn → DpIn) : (h.updDpIn o f).waits = h.waits := rfl
@[simp] theorem Hub.updDpIn_ctxs (h : Hub) (o : Nat) (f : DpIn → DpIn) : (h.updDpIn o f).ctxs = h.ctxs := rfl
@[simp] theorem Hub.updDpIn_paging (h : Hub) (o : Nat) (f : DpIn → DpIn) : (h.updDpIn o f).paging = h.paging := rfl
@[simp] theorem Hub.updDpIn_banks (h : Hub) (o : Nat) (f : DpIn → DpIn) : (h.updDpIn o f).banks = h.banks := rfl
@[simp] theorem Hub.updDpIn_links (h : Hub) (o : Nat) (f : DpIn → DpIn) : (h.updDpIn o f).links = h.links := rfl
@[simp] theorem Hub.updDpIn_xfer (h : Hub) (o : Nat) (f : DpIn → DpIn) : (h.updDpIn o f).xfer = h.xfer := rfl
@[simp] theorem Hub.updDpIn_fts (h : Hub) (o : Nat) (f : DpIn → DpIn) : (h.updDpIn o f).fts = h.fts := rfl
@[simp] theorem Hub.updDpIn_tports (h : Hub) (o : Nat) (f : DpIn → DpIn) : (h.updDpIn o f).tports = h.tports := rfl
@[simp] theorem Hub.updDpIn_pageq (h : Hub) (o : Nat) (f : DpIn → DpIn) : (h.updDpIn o f).pageq = h.pageq := rfl
@[simp] theorem Hub.updDpIn_tags (h : Hub) (o : Nat) (f : DpIn → DpIn) : (h.updDpIn o f).tags = h.tags := rfl
@[simp] theorem Hub.updDpIn_ksi (h : Hub) (o : Nat) (f : DpIn → DpIn) : (h.updDpIn o f).ksi = h.ksi := rfl
@[simp] theorem Hub.updDpIn_mir (h : Hub) (o : Nat) (f : DpIn → DpIn) : (h.updDpIn o f).mir = h.mir := rfl
@[simp] theorem Hub.updDpIn_vin (h : Hub) (o : Nat) (f : DpIn → DpIn) : (h.updDpIn o f).vin = h.vin := rfl
@[simp] theorem Hub.updDpIn_eth (h : Hub) (o : Nat) (f : DpIn → DpIn) : (h.updDpIn o f).eth = h.eth := rfl
@[simp] theorem Hub.updDpIn_pxb (h : Hub) (o : Nat) (f : DpIn → DpIn) : (h.updDpIn o f).pxb = h.pxb := rfl
@[simp] theorem Hub.updDpIn_usb (h : Hub) (o : Nat) (f : DpIn → DpIn) : (h.updDpIn o f).usb = h.usb := rfl
@[simp] theorem Hub.updDpIn_ppc (h : Hub) (o : Nat) (f : DpIn → DpIn) : (h.updDpIn o f).ppc = h.ppc := rfl
@[simp] theorem Hub.updDpIn_pmc (h : Hub) (o : Nat) (f : DpIn → DpIn) : (h.updDpIn o f).pmc = h.pmc := rfl
@[simp] theorem Hub.updDpIn_sit (h : Hub) (o : Nat) (f : DpIn → DpIn) : (h.updDpIn o f).sit = h.sit := rfl
@[simp] theorem Hub.updDpIn_remote (h : Hub) (o : Nat) (f : DpIn → DpIn) : (h.updDpIn o f).remote = h.remote := rfl
@[simp] theorem Hub.updDpIn_free (h : Hub) (o : Nat) (f : DpIn → DpIn) : (h.updDpIn o f).free = h.free := rfl
@[simp] theorem Hub.updDpIn_out (h : Hub) (o : Nat) (f : DpIn → DpIn) : (h.updDpIn o f).out = h.out := rfl
@[simp] theorem Hub.updDpIn_rd (h : Hub) (o : Nat) (f : DpIn → DpIn) (y : Nat) : (h.updDpIn o f).rd y = h.rd y := rfl
@[simp] theorem Hub.updDpIn_rdWide (h : Hub) (o : Nat) (f : DpIn → DpIn) (y : Nat) : (h.updDpIn o f).rdWide y = h.rdWide y := rfl
@[simp] theorem Hub.updDpIn_hdr (h : Hub) (o : Nat) (f : DpIn → DpIn) (y : Block) : (h.updDpIn o f).hdr y = h.hdr y := rfl

@[simp] theorem Hub.updUsb_straps (h : Hub) (f : Usb → Usb) : (h.updUsb f).straps = h.straps := rfl
@[simp] theorem Hub.updUsb_regs (h : Hub) (f : Usb → Usb) : (h.updUsb f).regs = h.regs := rfl
@[simp] theorem Hub.updUsb_pend (h : Hub) (f : Usb → Usb) : (h.updUsb f).pend = h.pend := rfl
@[simp] theorem Hub.updUsb_wide (h : Hub) (f : Usb → Usb) : (h.updUsb f).wide = h.wide := rfl
@[simp] theorem Hub.updUsb_hdrs (h : Hub) (f : Usb → Usb) : (h.updUsb f).hdrs = h.hdrs := rfl
@[simp] theorem Hub.updUsb_mh (h : Hub) (f : Usb → Usb) : (h.updUsb f).mh = h.mh := rfl
@[simp] theorem Hub.updUsb_olog (h : Hub) (f : Usb → Usb) : (h.updUsb f).olog = h.olog := rfl
@[simp] theorem Hub.updUsb_arbs (h : Hub) (f : Usb → Usb) : (h.updUsb f).arbs = h.arbs := rfl
@[simp] theorem Hub.updUsb_time (h : Hub) (f : Usb → Usb) : (h.updUsb f).time = h.time := rfl
@[simp] theorem Hub.updUsb_power (h : Hub) (f : Usb → Usb) : (h.updUsb f).power = h.power := rfl
@[simp] theorem Hub.updUsb_pins (h : Hub) (f : Usb → Usb) : (h.updUsb f).pins = h.pins := rfl
@[simp] theorem Hub.updUsb_lanes (h : Hub) (f : Usb → Usb) : (h.updUsb f).lanes = h.lanes := rfl
@[simp] theorem Hub.updUsb_repair (h : Hub) (f : Usb → Usb) : (h.updUsb f).repair = h.repair := rfl
@[simp] theorem Hub.updUsb_auto (h : Hub) (f : Usb → Usb) : (h.updUsb f).auto = h.auto := rfl
@[simp] theorem Hub.updUsb_repairMap (h : Hub) (f : Usb → Usb) : (h.updUsb f).repairMap = h.repairMap := rfl
@[simp] theorem Hub.updUsb_cells (h : Hub) (f : Usb → Usb) : (h.updUsb f).cells = h.cells := rfl
@[simp] theorem Hub.updUsb_counts (h : Hub) (f : Usb → Usb) : (h.updUsb f).counts = h.counts := rfl
@[simp] theorem Hub.updUsb_opens (h : Hub) (f : Usb → Usb) : (h.updUsb f).opens = h.opens := rfl
@[simp] theorem Hub.updUsb_foyers (h : Hub) (f : Usb → Usb) : (h.updUsb f).foyers = h.foyers := rfl
@[simp] theorem Hub.updUsb_waits (h : Hub) (f : Usb → Usb) : (h.updUsb f).waits = h.waits := rfl
@[simp] theorem Hub.updUsb_ctxs (h : Hub) (f : Usb → Usb) : (h.updUsb f).ctxs = h.ctxs := rfl
@[simp] theorem Hub.updUsb_paging (h : Hub) (f : Usb → Usb) : (h.updUsb f).paging = h.paging := rfl
@[simp] theorem Hub.updUsb_banks (h : Hub) (f : Usb → Usb) : (h.updUsb f).banks = h.banks := rfl
@[simp] theorem Hub.updUsb_links (h : Hub) (f : Usb → Usb) : (h.updUsb f).links = h.links := rfl
@[simp] theorem Hub.updUsb_xfer (h : Hub) (f : Usb → Usb) : (h.updUsb f).xfer = h.xfer := rfl
@[simp] theorem Hub.updUsb_fts (h : Hub) (f : Usb → Usb) : (h.updUsb f).fts = h.fts := rfl
@[simp] theorem Hub.updUsb_tports (h : Hub) (f : Usb → Usb) : (h.updUsb f).tports = h.tports := rfl
@[simp] theorem Hub.updUsb_pageq (h : Hub) (f : Usb → Usb) : (h.updUsb f).pageq = h.pageq := rfl
@[simp] theorem Hub.updUsb_tags (h : Hub) (f : Usb → Usb) : (h.updUsb f).tags = h.tags := rfl
@[simp] theorem Hub.updUsb_ksi (h : Hub) (f : Usb → Usb) : (h.updUsb f).ksi = h.ksi := rfl
@[simp] theorem Hub.updUsb_mir (h : Hub) (f : Usb → Usb) : (h.updUsb f).mir = h.mir := rfl
@[simp] theorem Hub.updUsb_dse (h : Hub) (f : Usb → Usb) : (h.updUsb f).dse = h.dse := rfl
@[simp] theorem Hub.updUsb_vin (h : Hub) (f : Usb → Usb) : (h.updUsb f).vin = h.vin := rfl
@[simp] theorem Hub.updUsb_eth (h : Hub) (f : Usb → Usb) : (h.updUsb f).eth = h.eth := rfl
@[simp] theorem Hub.updUsb_pxb (h : Hub) (f : Usb → Usb) : (h.updUsb f).pxb = h.pxb := rfl
@[simp] theorem Hub.updUsb_ppc (h : Hub) (f : Usb → Usb) : (h.updUsb f).ppc = h.ppc := rfl
@[simp] theorem Hub.updUsb_pmc (h : Hub) (f : Usb → Usb) : (h.updUsb f).pmc = h.pmc := rfl
@[simp] theorem Hub.updUsb_sit (h : Hub) (f : Usb → Usb) : (h.updUsb f).sit = h.sit := rfl
@[simp] theorem Hub.updUsb_remote (h : Hub) (f : Usb → Usb) : (h.updUsb f).remote = h.remote := rfl
@[simp] theorem Hub.updUsb_free (h : Hub) (f : Usb → Usb) : (h.updUsb f).free = h.free := rfl
@[simp] theorem Hub.updUsb_out (h : Hub) (f : Usb → Usb) : (h.updUsb f).out = h.out := rfl
@[simp] theorem Hub.updUsb_usb (h : Hub) (f : Usb → Usb) : (h.updUsb f).usb = f h.usb := rfl
@[simp] theorem Hub.updUsb_rd (h : Hub) (f : Usb → Usb) (y : Nat) : (h.updUsb f).rd y = h.rd y := rfl
@[simp] theorem Hub.updUsb_rdWide (h : Hub) (f : Usb → Usb) (y : Nat) : (h.updUsb f).rdWide y = h.rdWide y := rfl
@[simp] theorem Hub.updUsb_hdr (h : Hub) (f : Usb → Usb) (y : Block) : (h.updUsb f).hdr y = h.hdr y := rfl

@[simp] theorem Hub.updTun_straps (h : Hub) (o : Nat) (f : UsbTun → UsbTun) : (h.updTun o f).straps = h.straps := rfl
@[simp] theorem Hub.updTun_regs (h : Hub) (o : Nat) (f : UsbTun → UsbTun) : (h.updTun o f).regs = h.regs := rfl
@[simp] theorem Hub.updTun_pend (h : Hub) (o : Nat) (f : UsbTun → UsbTun) : (h.updTun o f).pend = h.pend := rfl
@[simp] theorem Hub.updTun_wide (h : Hub) (o : Nat) (f : UsbTun → UsbTun) : (h.updTun o f).wide = h.wide := rfl
@[simp] theorem Hub.updTun_hdrs (h : Hub) (o : Nat) (f : UsbTun → UsbTun) : (h.updTun o f).hdrs = h.hdrs := rfl
@[simp] theorem Hub.updTun_mh (h : Hub) (o : Nat) (f : UsbTun → UsbTun) : (h.updTun o f).mh = h.mh := rfl
@[simp] theorem Hub.updTun_olog (h : Hub) (o : Nat) (f : UsbTun → UsbTun) : (h.updTun o f).olog = h.olog := rfl
@[simp] theorem Hub.updTun_arbs (h : Hub) (o : Nat) (f : UsbTun → UsbTun) : (h.updTun o f).arbs = h.arbs := rfl
@[simp] theorem Hub.updTun_time (h : Hub) (o : Nat) (f : UsbTun → UsbTun) : (h.updTun o f).time = h.time := rfl
@[simp] theorem Hub.updTun_power (h : Hub) (o : Nat) (f : UsbTun → UsbTun) : (h.updTun o f).power = h.power := rfl
@[simp] theorem Hub.updTun_pins (h : Hub) (o : Nat) (f : UsbTun → UsbTun) : (h.updTun o f).pins = h.pins := rfl
@[simp] theorem Hub.updTun_lanes (h : Hub) (o : Nat) (f : UsbTun → UsbTun) : (h.updTun o f).lanes = h.lanes := rfl
@[simp] theorem Hub.updTun_repair (h : Hub) (o : Nat) (f : UsbTun → UsbTun) : (h.updTun o f).repair = h.repair := rfl
@[simp] theorem Hub.updTun_auto (h : Hub) (o : Nat) (f : UsbTun → UsbTun) : (h.updTun o f).auto = h.auto := rfl
@[simp] theorem Hub.updTun_repairMap (h : Hub) (o : Nat) (f : UsbTun → UsbTun) : (h.updTun o f).repairMap = h.repairMap := rfl
@[simp] theorem Hub.updTun_cells (h : Hub) (o : Nat) (f : UsbTun → UsbTun) : (h.updTun o f).cells = h.cells := rfl
@[simp] theorem Hub.updTun_counts (h : Hub) (o : Nat) (f : UsbTun → UsbTun) : (h.updTun o f).counts = h.counts := rfl
@[simp] theorem Hub.updTun_opens (h : Hub) (o : Nat) (f : UsbTun → UsbTun) : (h.updTun o f).opens = h.opens := rfl
@[simp] theorem Hub.updTun_foyers (h : Hub) (o : Nat) (f : UsbTun → UsbTun) : (h.updTun o f).foyers = h.foyers := rfl
@[simp] theorem Hub.updTun_waits (h : Hub) (o : Nat) (f : UsbTun → UsbTun) : (h.updTun o f).waits = h.waits := rfl
@[simp] theorem Hub.updTun_ctxs (h : Hub) (o : Nat) (f : UsbTun → UsbTun) : (h.updTun o f).ctxs = h.ctxs := rfl
@[simp] theorem Hub.updTun_paging (h : Hub) (o : Nat) (f : UsbTun → UsbTun) : (h.updTun o f).paging = h.paging := rfl
@[simp] theorem Hub.updTun_banks (h : Hub) (o : Nat) (f : UsbTun → UsbTun) : (h.updTun o f).banks = h.banks := rfl
@[simp] theorem Hub.updTun_links (h : Hub) (o : Nat) (f : UsbTun → UsbTun) : (h.updTun o f).links = h.links := rfl
@[simp] theorem Hub.updTun_xfer (h : Hub) (o : Nat) (f : UsbTun → UsbTun) : (h.updTun o f).xfer = h.xfer := rfl
@[simp] theorem Hub.updTun_fts (h : Hub) (o : Nat) (f : UsbTun → UsbTun) : (h.updTun o f).fts = h.fts := rfl
@[simp] theorem Hub.updTun_tports (h : Hub) (o : Nat) (f : UsbTun → UsbTun) : (h.updTun o f).tports = h.tports := rfl
@[simp] theorem Hub.updTun_pageq (h : Hub) (o : Nat) (f : UsbTun → UsbTun) : (h.updTun o f).pageq = h.pageq := rfl
@[simp] theorem Hub.updTun_tags (h : Hub) (o : Nat) (f : UsbTun → UsbTun) : (h.updTun o f).tags = h.tags := rfl
@[simp] theorem Hub.updTun_ksi (h : Hub) (o : Nat) (f : UsbTun → UsbTun) : (h.updTun o f).ksi = h.ksi := rfl
@[simp] theorem Hub.updTun_mir (h : Hub) (o : Nat) (f : UsbTun → UsbTun) : (h.updTun o f).mir = h.mir := rfl
@[simp] theorem Hub.updTun_dse (h : Hub) (o : Nat) (f : UsbTun → UsbTun) : (h.updTun o f).dse = h.dse := rfl
@[simp] theorem Hub.updTun_vin (h : Hub) (o : Nat) (f : UsbTun → UsbTun) : (h.updTun o f).vin = h.vin := rfl
@[simp] theorem Hub.updTun_eth (h : Hub) (o : Nat) (f : UsbTun → UsbTun) : (h.updTun o f).eth = h.eth := rfl
@[simp] theorem Hub.updTun_pxb (h : Hub) (o : Nat) (f : UsbTun → UsbTun) : (h.updTun o f).pxb = h.pxb := rfl
@[simp] theorem Hub.updTun_ppc (h : Hub) (o : Nat) (f : UsbTun → UsbTun) : (h.updTun o f).ppc = h.ppc := rfl
@[simp] theorem Hub.updTun_pmc (h : Hub) (o : Nat) (f : UsbTun → UsbTun) : (h.updTun o f).pmc = h.pmc := rfl
@[simp] theorem Hub.updTun_sit (h : Hub) (o : Nat) (f : UsbTun → UsbTun) : (h.updTun o f).sit = h.sit := rfl
@[simp] theorem Hub.updTun_remote (h : Hub) (o : Nat) (f : UsbTun → UsbTun) : (h.updTun o f).remote = h.remote := rfl
@[simp] theorem Hub.updTun_free (h : Hub) (o : Nat) (f : UsbTun → UsbTun) : (h.updTun o f).free = h.free := rfl
@[simp] theorem Hub.updTun_out (h : Hub) (o : Nat) (f : UsbTun → UsbTun) : (h.updTun o f).out = h.out := rfl
@[simp] theorem Hub.updTun_rd (h : Hub) (o : Nat) (f : UsbTun → UsbTun) (y : Nat) : (h.updTun o f).rd y = h.rd y := rfl
@[simp] theorem Hub.updTun_rdWide (h : Hub) (o : Nat) (f : UsbTun → UsbTun) (y : Nat) : (h.updTun o f).rdWide y = h.rdWide y := rfl
@[simp] theorem Hub.updTun_hdr (h : Hub) (o : Nat) (f : UsbTun → UsbTun) (y : Block) : (h.updTun o f).hdr y = h.hdr y := rfl

@[simp] theorem Hub.updMir_straps (h : Hub) (f : Mir → Mir) : (h.updMir f).straps = h.straps := rfl
@[simp] theorem Hub.updMir_regs (h : Hub) (f : Mir → Mir) : (h.updMir f).regs = h.regs := rfl
@[simp] theorem Hub.updMir_pend (h : Hub) (f : Mir → Mir) : (h.updMir f).pend = h.pend := rfl
@[simp] theorem Hub.updMir_wide (h : Hub) (f : Mir → Mir) : (h.updMir f).wide = h.wide := rfl
@[simp] theorem Hub.updMir_hdrs (h : Hub) (f : Mir → Mir) : (h.updMir f).hdrs = h.hdrs := rfl
@[simp] theorem Hub.updMir_mh (h : Hub) (f : Mir → Mir) : (h.updMir f).mh = h.mh := rfl
@[simp] theorem Hub.updMir_olog (h : Hub) (f : Mir → Mir) : (h.updMir f).olog = h.olog := rfl
@[simp] theorem Hub.updMir_arbs (h : Hub) (f : Mir → Mir) : (h.updMir f).arbs = h.arbs := rfl
@[simp] theorem Hub.updMir_time (h : Hub) (f : Mir → Mir) : (h.updMir f).time = h.time := rfl
@[simp] theorem Hub.updMir_power (h : Hub) (f : Mir → Mir) : (h.updMir f).power = h.power := rfl
@[simp] theorem Hub.updMir_pins (h : Hub) (f : Mir → Mir) : (h.updMir f).pins = h.pins := rfl
@[simp] theorem Hub.updMir_lanes (h : Hub) (f : Mir → Mir) : (h.updMir f).lanes = h.lanes := rfl
@[simp] theorem Hub.updMir_repair (h : Hub) (f : Mir → Mir) : (h.updMir f).repair = h.repair := rfl
@[simp] theorem Hub.updMir_auto (h : Hub) (f : Mir → Mir) : (h.updMir f).auto = h.auto := rfl
@[simp] theorem Hub.updMir_repairMap (h : Hub) (f : Mir → Mir) : (h.updMir f).repairMap = h.repairMap := rfl
@[simp] theorem Hub.updMir_cells (h : Hub) (f : Mir → Mir) : (h.updMir f).cells = h.cells := rfl
@[simp] theorem Hub.updMir_counts (h : Hub) (f : Mir → Mir) : (h.updMir f).counts = h.counts := rfl
@[simp] theorem Hub.updMir_opens (h : Hub) (f : Mir → Mir) : (h.updMir f).opens = h.opens := rfl
@[simp] theorem Hub.updMir_foyers (h : Hub) (f : Mir → Mir) : (h.updMir f).foyers = h.foyers := rfl
@[simp] theorem Hub.updMir_waits (h : Hub) (f : Mir → Mir) : (h.updMir f).waits = h.waits := rfl
@[simp] theorem Hub.updMir_ctxs (h : Hub) (f : Mir → Mir) : (h.updMir f).ctxs = h.ctxs := rfl
@[simp] theorem Hub.updMir_paging (h : Hub) (f : Mir → Mir) : (h.updMir f).paging = h.paging := rfl
@[simp] theorem Hub.updMir_banks (h : Hub) (f : Mir → Mir) : (h.updMir f).banks = h.banks := rfl
@[simp] theorem Hub.updMir_links (h : Hub) (f : Mir → Mir) : (h.updMir f).links = h.links := rfl
@[simp] theorem Hub.updMir_xfer (h : Hub) (f : Mir → Mir) : (h.updMir f).xfer = h.xfer := rfl
@[simp] theorem Hub.updMir_fts (h : Hub) (f : Mir → Mir) : (h.updMir f).fts = h.fts := rfl
@[simp] theorem Hub.updMir_tports (h : Hub) (f : Mir → Mir) : (h.updMir f).tports = h.tports := rfl
@[simp] theorem Hub.updMir_pageq (h : Hub) (f : Mir → Mir) : (h.updMir f).pageq = h.pageq := rfl
@[simp] theorem Hub.updMir_tags (h : Hub) (f : Mir → Mir) : (h.updMir f).tags = h.tags := rfl
@[simp] theorem Hub.updMir_ksi (h : Hub) (f : Mir → Mir) : (h.updMir f).ksi = h.ksi := rfl
@[simp] theorem Hub.updMir_dse (h : Hub) (f : Mir → Mir) : (h.updMir f).dse = h.dse := rfl
@[simp] theorem Hub.updMir_vin (h : Hub) (f : Mir → Mir) : (h.updMir f).vin = h.vin := rfl
@[simp] theorem Hub.updMir_eth (h : Hub) (f : Mir → Mir) : (h.updMir f).eth = h.eth := rfl
@[simp] theorem Hub.updMir_pxb (h : Hub) (f : Mir → Mir) : (h.updMir f).pxb = h.pxb := rfl
@[simp] theorem Hub.updMir_usb (h : Hub) (f : Mir → Mir) : (h.updMir f).usb = h.usb := rfl
@[simp] theorem Hub.updMir_ppc (h : Hub) (f : Mir → Mir) : (h.updMir f).ppc = h.ppc := rfl
@[simp] theorem Hub.updMir_pmc (h : Hub) (f : Mir → Mir) : (h.updMir f).pmc = h.pmc := rfl
@[simp] theorem Hub.updMir_sit (h : Hub) (f : Mir → Mir) : (h.updMir f).sit = h.sit := rfl
@[simp] theorem Hub.updMir_remote (h : Hub) (f : Mir → Mir) : (h.updMir f).remote = h.remote := rfl
@[simp] theorem Hub.updMir_free (h : Hub) (f : Mir → Mir) : (h.updMir f).free = h.free := rfl
@[simp] theorem Hub.updMir_out (h : Hub) (f : Mir → Mir) : (h.updMir f).out = h.out := rfl
@[simp] theorem Hub.updMir_mir (h : Hub) (f : Mir → Mir) : (h.updMir f).mir = f h.mir := rfl
@[simp] theorem Hub.updMir_rd (h : Hub) (f : Mir → Mir) (y : Nat) : (h.updMir f).rd y = h.rd y := rfl
@[simp] theorem Hub.updMir_rdWide (h : Hub) (f : Mir → Mir) (y : Nat) : (h.updMir f).rdWide y = h.rdWide y := rfl
@[simp] theorem Hub.updMir_hdr (h : Hub) (f : Mir → Mir) (y : Block) : (h.updMir f).hdr y = h.hdr y := rfl

@[simp] theorem Hub.updMbx_straps (h : Hub) (b : Block) (f : Mailbox → Mailbox) : (h.updMbx b f).straps = h.straps := rfl
@[simp] theorem Hub.updMbx_regs (h : Hub) (b : Block) (f : Mailbox → Mailbox) : (h.updMbx b f).regs = h.regs := rfl
@[simp] theorem Hub.updMbx_pend (h : Hub) (b : Block) (f : Mailbox → Mailbox) : (h.updMbx b f).pend = h.pend := rfl
@[simp] theorem Hub.updMbx_wide (h : Hub) (b : Block) (f : Mailbox → Mailbox) : (h.updMbx b f).wide = h.wide := rfl
@[simp] theorem Hub.updMbx_mh (h : Hub) (b : Block) (f : Mailbox → Mailbox) : (h.updMbx b f).mh = h.mh := rfl
@[simp] theorem Hub.updMbx_olog (h : Hub) (b : Block) (f : Mailbox → Mailbox) : (h.updMbx b f).olog = h.olog := rfl
@[simp] theorem Hub.updMbx_arbs (h : Hub) (b : Block) (f : Mailbox → Mailbox) : (h.updMbx b f).arbs = h.arbs := rfl
@[simp] theorem Hub.updMbx_time (h : Hub) (b : Block) (f : Mailbox → Mailbox) : (h.updMbx b f).time = h.time := rfl
@[simp] theorem Hub.updMbx_power (h : Hub) (b : Block) (f : Mailbox → Mailbox) : (h.updMbx b f).power = h.power := rfl
@[simp] theorem Hub.updMbx_pins (h : Hub) (b : Block) (f : Mailbox → Mailbox) : (h.updMbx b f).pins = h.pins := rfl
@[simp] theorem Hub.updMbx_lanes (h : Hub) (b : Block) (f : Mailbox → Mailbox) : (h.updMbx b f).lanes = h.lanes := rfl
@[simp] theorem Hub.updMbx_repair (h : Hub) (b : Block) (f : Mailbox → Mailbox) : (h.updMbx b f).repair = h.repair := rfl
@[simp] theorem Hub.updMbx_auto (h : Hub) (b : Block) (f : Mailbox → Mailbox) : (h.updMbx b f).auto = h.auto := rfl
@[simp] theorem Hub.updMbx_repairMap (h : Hub) (b : Block) (f : Mailbox → Mailbox) : (h.updMbx b f).repairMap = h.repairMap := rfl
@[simp] theorem Hub.updMbx_cells (h : Hub) (b : Block) (f : Mailbox → Mailbox) : (h.updMbx b f).cells = h.cells := rfl
@[simp] theorem Hub.updMbx_counts (h : Hub) (b : Block) (f : Mailbox → Mailbox) : (h.updMbx b f).counts = h.counts := rfl
@[simp] theorem Hub.updMbx_opens (h : Hub) (b : Block) (f : Mailbox → Mailbox) : (h.updMbx b f).opens = h.opens := rfl
@[simp] theorem Hub.updMbx_foyers (h : Hub) (b : Block) (f : Mailbox → Mailbox) : (h.updMbx b f).foyers = h.foyers := rfl
@[simp] theorem Hub.updMbx_waits (h : Hub) (b : Block) (f : Mailbox → Mailbox) : (h.updMbx b f).waits = h.waits := rfl
@[simp] theorem Hub.updMbx_ctxs (h : Hub) (b : Block) (f : Mailbox → Mailbox) : (h.updMbx b f).ctxs = h.ctxs := rfl
@[simp] theorem Hub.updMbx_paging (h : Hub) (b : Block) (f : Mailbox → Mailbox) : (h.updMbx b f).paging = h.paging := rfl
@[simp] theorem Hub.updMbx_banks (h : Hub) (b : Block) (f : Mailbox → Mailbox) : (h.updMbx b f).banks = h.banks := rfl
@[simp] theorem Hub.updMbx_links (h : Hub) (b : Block) (f : Mailbox → Mailbox) : (h.updMbx b f).links = h.links := rfl
@[simp] theorem Hub.updMbx_xfer (h : Hub) (b : Block) (f : Mailbox → Mailbox) : (h.updMbx b f).xfer = h.xfer := rfl
@[simp] theorem Hub.updMbx_fts (h : Hub) (b : Block) (f : Mailbox → Mailbox) : (h.updMbx b f).fts = h.fts := rfl
@[simp] theorem Hub.updMbx_tports (h : Hub) (b : Block) (f : Mailbox → Mailbox) : (h.updMbx b f).tports = h.tports := rfl
@[simp] theorem Hub.updMbx_pageq (h : Hub) (b : Block) (f : Mailbox → Mailbox) : (h.updMbx b f).pageq = h.pageq := rfl
@[simp] theorem Hub.updMbx_tags (h : Hub) (b : Block) (f : Mailbox → Mailbox) : (h.updMbx b f).tags = h.tags := rfl
@[simp] theorem Hub.updMbx_ksi (h : Hub) (b : Block) (f : Mailbox → Mailbox) : (h.updMbx b f).ksi = h.ksi := rfl
@[simp] theorem Hub.updMbx_mir (h : Hub) (b : Block) (f : Mailbox → Mailbox) : (h.updMbx b f).mir = h.mir := rfl
@[simp] theorem Hub.updMbx_dse (h : Hub) (b : Block) (f : Mailbox → Mailbox) : (h.updMbx b f).dse = h.dse := rfl
@[simp] theorem Hub.updMbx_vin (h : Hub) (b : Block) (f : Mailbox → Mailbox) : (h.updMbx b f).vin = h.vin := rfl
@[simp] theorem Hub.updMbx_eth (h : Hub) (b : Block) (f : Mailbox → Mailbox) : (h.updMbx b f).eth = h.eth := rfl
@[simp] theorem Hub.updMbx_pxb (h : Hub) (b : Block) (f : Mailbox → Mailbox) : (h.updMbx b f).pxb = h.pxb := rfl
@[simp] theorem Hub.updMbx_usb (h : Hub) (b : Block) (f : Mailbox → Mailbox) : (h.updMbx b f).usb = h.usb := rfl
@[simp] theorem Hub.updMbx_ppc (h : Hub) (b : Block) (f : Mailbox → Mailbox) : (h.updMbx b f).ppc = h.ppc := rfl
@[simp] theorem Hub.updMbx_pmc (h : Hub) (b : Block) (f : Mailbox → Mailbox) : (h.updMbx b f).pmc = h.pmc := rfl
@[simp] theorem Hub.updMbx_sit (h : Hub) (b : Block) (f : Mailbox → Mailbox) : (h.updMbx b f).sit = h.sit := rfl
@[simp] theorem Hub.updMbx_remote (h : Hub) (b : Block) (f : Mailbox → Mailbox) : (h.updMbx b f).remote = h.remote := rfl
@[simp] theorem Hub.updMbx_free (h : Hub) (b : Block) (f : Mailbox → Mailbox) : (h.updMbx b f).free = h.free := rfl
@[simp] theorem Hub.updMbx_out (h : Hub) (b : Block) (f : Mailbox → Mailbox) : (h.updMbx b f).out = h.out := rfl
@[simp] theorem Hub.updMbx_rd (h : Hub) (b : Block) (f : Mailbox → Mailbox) (y : Nat) : (h.updMbx b f).rd y = h.rd y := rfl
@[simp] theorem Hub.updMbx_rdWide (h : Hub) (b : Block) (f : Mailbox → Mailbox) (y : Nat) : (h.updMbx b f).rdWide y = h.rdWide y := rfl

@[simp] theorem Hub.updRemote_straps (h : Hub) (f : Remote → Remote) : (h.updRemote f).straps = h.straps := rfl
@[simp] theorem Hub.updRemote_regs (h : Hub) (f : Remote → Remote) : (h.updRemote f).regs = h.regs := rfl
@[simp] theorem Hub.updRemote_pend (h : Hub) (f : Remote → Remote) : (h.updRemote f).pend = h.pend := rfl
@[simp] theorem Hub.updRemote_wide (h : Hub) (f : Remote → Remote) : (h.updRemote f).wide = h.wide := rfl
@[simp] theorem Hub.updRemote_hdrs (h : Hub) (f : Remote → Remote) : (h.updRemote f).hdrs = h.hdrs := rfl
@[simp] theorem Hub.updRemote_mh (h : Hub) (f : Remote → Remote) : (h.updRemote f).mh = h.mh := rfl
@[simp] theorem Hub.updRemote_olog (h : Hub) (f : Remote → Remote) : (h.updRemote f).olog = h.olog := rfl
@[simp] theorem Hub.updRemote_arbs (h : Hub) (f : Remote → Remote) : (h.updRemote f).arbs = h.arbs := rfl
@[simp] theorem Hub.updRemote_time (h : Hub) (f : Remote → Remote) : (h.updRemote f).time = h.time := rfl
@[simp] theorem Hub.updRemote_power (h : Hub) (f : Remote → Remote) : (h.updRemote f).power = h.power := rfl
@[simp] theorem Hub.updRemote_pins (h : Hub) (f : Remote → Remote) : (h.updRemote f).pins = h.pins := rfl
@[simp] theorem Hub.updRemote_lanes (h : Hub) (f : Remote → Remote) : (h.updRemote f).lanes = h.lanes := rfl
@[simp] theorem Hub.updRemote_repair (h : Hub) (f : Remote → Remote) : (h.updRemote f).repair = h.repair := rfl
@[simp] theorem Hub.updRemote_auto (h : Hub) (f : Remote → Remote) : (h.updRemote f).auto = h.auto := rfl
@[simp] theorem Hub.updRemote_repairMap (h : Hub) (f : Remote → Remote) : (h.updRemote f).repairMap = h.repairMap := rfl
@[simp] theorem Hub.updRemote_cells (h : Hub) (f : Remote → Remote) : (h.updRemote f).cells = h.cells := rfl
@[simp] theorem Hub.updRemote_counts (h : Hub) (f : Remote → Remote) : (h.updRemote f).counts = h.counts := rfl
@[simp] theorem Hub.updRemote_opens (h : Hub) (f : Remote → Remote) : (h.updRemote f).opens = h.opens := rfl
@[simp] theorem Hub.updRemote_foyers (h : Hub) (f : Remote → Remote) : (h.updRemote f).foyers = h.foyers := rfl
@[simp] theorem Hub.updRemote_waits (h : Hub) (f : Remote → Remote) : (h.updRemote f).waits = h.waits := rfl
@[simp] theorem Hub.updRemote_ctxs (h : Hub) (f : Remote → Remote) : (h.updRemote f).ctxs = h.ctxs := rfl
@[simp] theorem Hub.updRemote_paging (h : Hub) (f : Remote → Remote) : (h.updRemote f).paging = h.paging := rfl
@[simp] theorem Hub.updRemote_banks (h : Hub) (f : Remote → Remote) : (h.updRemote f).banks = h.banks := rfl
@[simp] theorem Hub.updRemote_links (h : Hub) (f : Remote → Remote) : (h.updRemote f).links = h.links := rfl
@[simp] theorem Hub.updRemote_xfer (h : Hub) (f : Remote → Remote) : (h.updRemote f).xfer = h.xfer := rfl
@[simp] theorem Hub.updRemote_fts (h : Hub) (f : Remote → Remote) : (h.updRemote f).fts = h.fts := rfl
@[simp] theorem Hub.updRemote_tports (h : Hub) (f : Remote → Remote) : (h.updRemote f).tports = h.tports := rfl
@[simp] theorem Hub.updRemote_pageq (h : Hub) (f : Remote → Remote) : (h.updRemote f).pageq = h.pageq := rfl
@[simp] theorem Hub.updRemote_tags (h : Hub) (f : Remote → Remote) : (h.updRemote f).tags = h.tags := rfl
@[simp] theorem Hub.updRemote_ksi (h : Hub) (f : Remote → Remote) : (h.updRemote f).ksi = h.ksi := rfl
@[simp] theorem Hub.updRemote_mir (h : Hub) (f : Remote → Remote) : (h.updRemote f).mir = h.mir := rfl
@[simp] theorem Hub.updRemote_dse (h : Hub) (f : Remote → Remote) : (h.updRemote f).dse = h.dse := rfl
@[simp] theorem Hub.updRemote_vin (h : Hub) (f : Remote → Remote) : (h.updRemote f).vin = h.vin := rfl
@[simp] theorem Hub.updRemote_eth (h : Hub) (f : Remote → Remote) : (h.updRemote f).eth = h.eth := rfl
@[simp] theorem Hub.updRemote_pxb (h : Hub) (f : Remote → Remote) : (h.updRemote f).pxb = h.pxb := rfl
@[simp] theorem Hub.updRemote_usb (h : Hub) (f : Remote → Remote) : (h.updRemote f).usb = h.usb := rfl
@[simp] theorem Hub.updRemote_ppc (h : Hub) (f : Remote → Remote) : (h.updRemote f).ppc = h.ppc := rfl
@[simp] theorem Hub.updRemote_pmc (h : Hub) (f : Remote → Remote) : (h.updRemote f).pmc = h.pmc := rfl
@[simp] theorem Hub.updRemote_sit (h : Hub) (f : Remote → Remote) : (h.updRemote f).sit = h.sit := rfl
@[simp] theorem Hub.updRemote_free (h : Hub) (f : Remote → Remote) : (h.updRemote f).free = h.free := rfl
@[simp] theorem Hub.updRemote_out (h : Hub) (f : Remote → Remote) : (h.updRemote f).out = h.out := rfl
@[simp] theorem Hub.updRemote_remote (h : Hub) (f : Remote → Remote) : (h.updRemote f).remote = f h.remote := rfl
@[simp] theorem Hub.updRemote_rd (h : Hub) (f : Remote → Remote) (y : Nat) : (h.updRemote f).rd y = h.rd y := rfl
@[simp] theorem Hub.updRemote_rdWide (h : Hub) (f : Remote → Remote) (y : Nat) : (h.updRemote f).rdWide y = h.rdWide y := rfl
@[simp] theorem Hub.updRemote_hdr (h : Hub) (f : Remote → Remote) (y : Block) : (h.updRemote f).hdr y = h.hdr y := rfl

@[simp] theorem Hub.updTport_straps (h : Hub) (t : Nat) (f : TssPort → TssPort) : (h.updTport t f).straps = h.straps := rfl
@[simp] theorem Hub.updTport_regs (h : Hub) (t : Nat) (f : TssPort → TssPort) : (h.updTport t f).regs = h.regs := rfl
@[simp] theorem Hub.updTport_pend (h : Hub) (t : Nat) (f : TssPort → TssPort) : (h.updTport t f).pend = h.pend := rfl
@[simp] theorem Hub.updTport_wide (h : Hub) (t : Nat) (f : TssPort → TssPort) : (h.updTport t f).wide = h.wide := rfl
@[simp] theorem Hub.updTport_hdrs (h : Hub) (t : Nat) (f : TssPort → TssPort) : (h.updTport t f).hdrs = h.hdrs := rfl
@[simp] theorem Hub.updTport_mh (h : Hub) (t : Nat) (f : TssPort → TssPort) : (h.updTport t f).mh = h.mh := rfl
@[simp] theorem Hub.updTport_olog (h : Hub) (t : Nat) (f : TssPort → TssPort) : (h.updTport t f).olog = h.olog := rfl
@[simp] theorem Hub.updTport_arbs (h : Hub) (t : Nat) (f : TssPort → TssPort) : (h.updTport t f).arbs = h.arbs := rfl
@[simp] theorem Hub.updTport_time (h : Hub) (t : Nat) (f : TssPort → TssPort) : (h.updTport t f).time = h.time := rfl
@[simp] theorem Hub.updTport_power (h : Hub) (t : Nat) (f : TssPort → TssPort) : (h.updTport t f).power = h.power := rfl
@[simp] theorem Hub.updTport_pins (h : Hub) (t : Nat) (f : TssPort → TssPort) : (h.updTport t f).pins = h.pins := rfl
@[simp] theorem Hub.updTport_lanes (h : Hub) (t : Nat) (f : TssPort → TssPort) : (h.updTport t f).lanes = h.lanes := rfl
@[simp] theorem Hub.updTport_repair (h : Hub) (t : Nat) (f : TssPort → TssPort) : (h.updTport t f).repair = h.repair := rfl
@[simp] theorem Hub.updTport_auto (h : Hub) (t : Nat) (f : TssPort → TssPort) : (h.updTport t f).auto = h.auto := rfl
@[simp] theorem Hub.updTport_repairMap (h : Hub) (t : Nat) (f : TssPort → TssPort) : (h.updTport t f).repairMap = h.repairMap := rfl
@[simp] theorem Hub.updTport_cells (h : Hub) (t : Nat) (f : TssPort → TssPort) : (h.updTport t f).cells = h.cells := rfl
@[simp] theorem Hub.updTport_counts (h : Hub) (t : Nat) (f : TssPort → TssPort) : (h.updTport t f).counts = h.counts := rfl
@[simp] theorem Hub.updTport_opens (h : Hub) (t : Nat) (f : TssPort → TssPort) : (h.updTport t f).opens = h.opens := rfl
@[simp] theorem Hub.updTport_foyers (h : Hub) (t : Nat) (f : TssPort → TssPort) : (h.updTport t f).foyers = h.foyers := rfl
@[simp] theorem Hub.updTport_waits (h : Hub) (t : Nat) (f : TssPort → TssPort) : (h.updTport t f).waits = h.waits := rfl
@[simp] theorem Hub.updTport_ctxs (h : Hub) (t : Nat) (f : TssPort → TssPort) : (h.updTport t f).ctxs = h.ctxs := rfl
@[simp] theorem Hub.updTport_paging (h : Hub) (t : Nat) (f : TssPort → TssPort) : (h.updTport t f).paging = h.paging := rfl
@[simp] theorem Hub.updTport_banks (h : Hub) (t : Nat) (f : TssPort → TssPort) : (h.updTport t f).banks = h.banks := rfl
@[simp] theorem Hub.updTport_links (h : Hub) (t : Nat) (f : TssPort → TssPort) : (h.updTport t f).links = h.links := rfl
@[simp] theorem Hub.updTport_xfer (h : Hub) (t : Nat) (f : TssPort → TssPort) : (h.updTport t f).xfer = h.xfer := rfl
@[simp] theorem Hub.updTport_fts (h : Hub) (t : Nat) (f : TssPort → TssPort) : (h.updTport t f).fts = h.fts := rfl
@[simp] theorem Hub.updTport_pageq (h : Hub) (t : Nat) (f : TssPort → TssPort) : (h.updTport t f).pageq = h.pageq := rfl
@[simp] theorem Hub.updTport_tags (h : Hub) (t : Nat) (f : TssPort → TssPort) : (h.updTport t f).tags = h.tags := rfl
@[simp] theorem Hub.updTport_ksi (h : Hub) (t : Nat) (f : TssPort → TssPort) : (h.updTport t f).ksi = h.ksi := rfl
@[simp] theorem Hub.updTport_mir (h : Hub) (t : Nat) (f : TssPort → TssPort) : (h.updTport t f).mir = h.mir := rfl
@[simp] theorem Hub.updTport_dse (h : Hub) (t : Nat) (f : TssPort → TssPort) : (h.updTport t f).dse = h.dse := rfl
@[simp] theorem Hub.updTport_vin (h : Hub) (t : Nat) (f : TssPort → TssPort) : (h.updTport t f).vin = h.vin := rfl
@[simp] theorem Hub.updTport_eth (h : Hub) (t : Nat) (f : TssPort → TssPort) : (h.updTport t f).eth = h.eth := rfl
@[simp] theorem Hub.updTport_pxb (h : Hub) (t : Nat) (f : TssPort → TssPort) : (h.updTport t f).pxb = h.pxb := rfl
@[simp] theorem Hub.updTport_usb (h : Hub) (t : Nat) (f : TssPort → TssPort) : (h.updTport t f).usb = h.usb := rfl
@[simp] theorem Hub.updTport_ppc (h : Hub) (t : Nat) (f : TssPort → TssPort) : (h.updTport t f).ppc = h.ppc := rfl
@[simp] theorem Hub.updTport_pmc (h : Hub) (t : Nat) (f : TssPort → TssPort) : (h.updTport t f).pmc = h.pmc := rfl
@[simp] theorem Hub.updTport_sit (h : Hub) (t : Nat) (f : TssPort → TssPort) : (h.updTport t f).sit = h.sit := rfl
@[simp] theorem Hub.updTport_remote (h : Hub) (t : Nat) (f : TssPort → TssPort) : (h.updTport t f).remote = h.remote := rfl
@[simp] theorem Hub.updTport_free (h : Hub) (t : Nat) (f : TssPort → TssPort) : (h.updTport t f).free = h.free := rfl
@[simp] theorem Hub.updTport_out (h : Hub) (t : Nat) (f : TssPort → TssPort) : (h.updTport t f).out = h.out := rfl
@[simp] theorem Hub.updTport_rd (h : Hub) (t : Nat) (f : TssPort → TssPort) (y : Nat) : (h.updTport t f).rd y = h.rd y := rfl
@[simp] theorem Hub.updTport_rdWide (h : Hub) (t : Nat) (f : TssPort → TssPort) (y : Nat) : (h.updTport t f).rdWide y = h.rdWide y := rfl
@[simp] theorem Hub.updTport_hdr (h : Hub) (t : Nat) (f : TssPort → TssPort) (y : Block) : (h.updTport t f).hdr y = h.hdr y := rfl

@[simp] theorem Hub.setFt_straps (h : Hub) (s t : Nat) (f : FlowTgt) : (h.setFt s t f).straps = h.straps := rfl
@[simp] theorem Hub.setFt_regs (h : Hub) (s t : Nat) (f : FlowTgt) : (h.setFt s t f).regs = h.regs := rfl
@[simp] theorem Hub.setFt_pend (h : Hub) (s t : Nat) (f : FlowTgt) : (h.setFt s t f).pend = h.pend := rfl
@[simp] theorem Hub.setFt_wide (h : Hub) (s t : Nat) (f : FlowTgt) : (h.setFt s t f).wide = h.wide := rfl
@[simp] theorem Hub.setFt_hdrs (h : Hub) (s t : Nat) (f : FlowTgt) : (h.setFt s t f).hdrs = h.hdrs := rfl
@[simp] theorem Hub.setFt_mh (h : Hub) (s t : Nat) (f : FlowTgt) : (h.setFt s t f).mh = h.mh := rfl
@[simp] theorem Hub.setFt_olog (h : Hub) (s t : Nat) (f : FlowTgt) : (h.setFt s t f).olog = h.olog := rfl
@[simp] theorem Hub.setFt_arbs (h : Hub) (s t : Nat) (f : FlowTgt) : (h.setFt s t f).arbs = h.arbs := rfl
@[simp] theorem Hub.setFt_time (h : Hub) (s t : Nat) (f : FlowTgt) : (h.setFt s t f).time = h.time := rfl
@[simp] theorem Hub.setFt_power (h : Hub) (s t : Nat) (f : FlowTgt) : (h.setFt s t f).power = h.power := rfl
@[simp] theorem Hub.setFt_pins (h : Hub) (s t : Nat) (f : FlowTgt) : (h.setFt s t f).pins = h.pins := rfl
@[simp] theorem Hub.setFt_lanes (h : Hub) (s t : Nat) (f : FlowTgt) : (h.setFt s t f).lanes = h.lanes := rfl
@[simp] theorem Hub.setFt_repair (h : Hub) (s t : Nat) (f : FlowTgt) : (h.setFt s t f).repair = h.repair := rfl
@[simp] theorem Hub.setFt_auto (h : Hub) (s t : Nat) (f : FlowTgt) : (h.setFt s t f).auto = h.auto := rfl
@[simp] theorem Hub.setFt_repairMap (h : Hub) (s t : Nat) (f : FlowTgt) : (h.setFt s t f).repairMap = h.repairMap := rfl
@[simp] theorem Hub.setFt_cells (h : Hub) (s t : Nat) (f : FlowTgt) : (h.setFt s t f).cells = h.cells := rfl
@[simp] theorem Hub.setFt_counts (h : Hub) (s t : Nat) (f : FlowTgt) : (h.setFt s t f).counts = h.counts := rfl
@[simp] theorem Hub.setFt_opens (h : Hub) (s t : Nat) (f : FlowTgt) : (h.setFt s t f).opens = h.opens := rfl
@[simp] theorem Hub.setFt_foyers (h : Hub) (s t : Nat) (f : FlowTgt) : (h.setFt s t f).foyers = h.foyers := rfl
@[simp] theorem Hub.setFt_waits (h : Hub) (s t : Nat) (f : FlowTgt) : (h.setFt s t f).waits = h.waits := rfl
@[simp] theorem Hub.setFt_ctxs (h : Hub) (s t : Nat) (f : FlowTgt) : (h.setFt s t f).ctxs = h.ctxs := rfl
@[simp] theorem Hub.setFt_paging (h : Hub) (s t : Nat) (f : FlowTgt) : (h.setFt s t f).paging = h.paging := rfl
@[simp] theorem Hub.setFt_banks (h : Hub) (s t : Nat) (f : FlowTgt) : (h.setFt s t f).banks = h.banks := rfl
@[simp] theorem Hub.setFt_links (h : Hub) (s t : Nat) (f : FlowTgt) : (h.setFt s t f).links = h.links := rfl
@[simp] theorem Hub.setFt_xfer (h : Hub) (s t : Nat) (f : FlowTgt) : (h.setFt s t f).xfer = h.xfer := rfl
@[simp] theorem Hub.setFt_tports (h : Hub) (s t : Nat) (f : FlowTgt) : (h.setFt s t f).tports = h.tports := rfl
@[simp] theorem Hub.setFt_pageq (h : Hub) (s t : Nat) (f : FlowTgt) : (h.setFt s t f).pageq = h.pageq := rfl
@[simp] theorem Hub.setFt_tags (h : Hub) (s t : Nat) (f : FlowTgt) : (h.setFt s t f).tags = h.tags := rfl
@[simp] theorem Hub.setFt_ksi (h : Hub) (s t : Nat) (f : FlowTgt) : (h.setFt s t f).ksi = h.ksi := rfl
@[simp] theorem Hub.setFt_mir (h : Hub) (s t : Nat) (f : FlowTgt) : (h.setFt s t f).mir = h.mir := rfl
@[simp] theorem Hub.setFt_dse (h : Hub) (s t : Nat) (f : FlowTgt) : (h.setFt s t f).dse = h.dse := rfl
@[simp] theorem Hub.setFt_vin (h : Hub) (s t : Nat) (f : FlowTgt) : (h.setFt s t f).vin = h.vin := rfl
@[simp] theorem Hub.setFt_eth (h : Hub) (s t : Nat) (f : FlowTgt) : (h.setFt s t f).eth = h.eth := rfl
@[simp] theorem Hub.setFt_pxb (h : Hub) (s t : Nat) (f : FlowTgt) : (h.setFt s t f).pxb = h.pxb := rfl
@[simp] theorem Hub.setFt_usb (h : Hub) (s t : Nat) (f : FlowTgt) : (h.setFt s t f).usb = h.usb := rfl
@[simp] theorem Hub.setFt_ppc (h : Hub) (s t : Nat) (f : FlowTgt) : (h.setFt s t f).ppc = h.ppc := rfl
@[simp] theorem Hub.setFt_pmc (h : Hub) (s t : Nat) (f : FlowTgt) : (h.setFt s t f).pmc = h.pmc := rfl
@[simp] theorem Hub.setFt_sit (h : Hub) (s t : Nat) (f : FlowTgt) : (h.setFt s t f).sit = h.sit := rfl
@[simp] theorem Hub.setFt_remote (h : Hub) (s t : Nat) (f : FlowTgt) : (h.setFt s t f).remote = h.remote := rfl
@[simp] theorem Hub.setFt_free (h : Hub) (s t : Nat) (f : FlowTgt) : (h.setFt s t f).free = h.free := rfl
@[simp] theorem Hub.setFt_out (h : Hub) (s t : Nat) (f : FlowTgt) : (h.setFt s t f).out = h.out := rfl
@[simp] theorem Hub.setFt_rd (h : Hub) (s t : Nat) (f : FlowTgt) (y : Nat) : (h.setFt s t f).rd y = h.rd y := rfl
@[simp] theorem Hub.setFt_rdWide (h : Hub) (s t : Nat) (f : FlowTgt) (y : Nat) : (h.setFt s t f).rdWide y = h.rdWide y := rfl
@[simp] theorem Hub.setFt_hdr (h : Hub) (s t : Nat) (f : FlowTgt) (y : Block) : (h.setFt s t f).hdr y = h.hdr y := rfl

@[simp] theorem Hub.setArb_straps (h : Hub) (b : Block) (k : Nat) (a : Arb) : (h.setArb b k a).straps = h.straps := rfl
@[simp] theorem Hub.setArb_regs (h : Hub) (b : Block) (k : Nat) (a : Arb) : (h.setArb b k a).regs = h.regs := rfl
@[simp] theorem Hub.setArb_pend (h : Hub) (b : Block) (k : Nat) (a : Arb) : (h.setArb b k a).pend = h.pend := rfl
@[simp] theorem Hub.setArb_wide (h : Hub) (b : Block) (k : Nat) (a : Arb) : (h.setArb b k a).wide = h.wide := rfl
@[simp] theorem Hub.setArb_hdrs (h : Hub) (b : Block) (k : Nat) (a : Arb) : (h.setArb b k a).hdrs = h.hdrs := rfl
@[simp] theorem Hub.setArb_mh (h : Hub) (b : Block) (k : Nat) (a : Arb) : (h.setArb b k a).mh = h.mh := rfl
@[simp] theorem Hub.setArb_olog (h : Hub) (b : Block) (k : Nat) (a : Arb) : (h.setArb b k a).olog = h.olog := rfl
@[simp] theorem Hub.setArb_time (h : Hub) (b : Block) (k : Nat) (a : Arb) : (h.setArb b k a).time = h.time := rfl
@[simp] theorem Hub.setArb_power (h : Hub) (b : Block) (k : Nat) (a : Arb) : (h.setArb b k a).power = h.power := rfl
@[simp] theorem Hub.setArb_pins (h : Hub) (b : Block) (k : Nat) (a : Arb) : (h.setArb b k a).pins = h.pins := rfl
@[simp] theorem Hub.setArb_lanes (h : Hub) (b : Block) (k : Nat) (a : Arb) : (h.setArb b k a).lanes = h.lanes := rfl
@[simp] theorem Hub.setArb_repair (h : Hub) (b : Block) (k : Nat) (a : Arb) : (h.setArb b k a).repair = h.repair := rfl
@[simp] theorem Hub.setArb_auto (h : Hub) (b : Block) (k : Nat) (a : Arb) : (h.setArb b k a).auto = h.auto := rfl
@[simp] theorem Hub.setArb_repairMap (h : Hub) (b : Block) (k : Nat) (a : Arb) : (h.setArb b k a).repairMap = h.repairMap := rfl
@[simp] theorem Hub.setArb_cells (h : Hub) (b : Block) (k : Nat) (a : Arb) : (h.setArb b k a).cells = h.cells := rfl
@[simp] theorem Hub.setArb_counts (h : Hub) (b : Block) (k : Nat) (a : Arb) : (h.setArb b k a).counts = h.counts := rfl
@[simp] theorem Hub.setArb_opens (h : Hub) (b : Block) (k : Nat) (a : Arb) : (h.setArb b k a).opens = h.opens := rfl
@[simp] theorem Hub.setArb_foyers (h : Hub) (b : Block) (k : Nat) (a : Arb) : (h.setArb b k a).foyers = h.foyers := rfl
@[simp] theorem Hub.setArb_waits (h : Hub) (b : Block) (k : Nat) (a : Arb) : (h.setArb b k a).waits = h.waits := rfl
@[simp] theorem Hub.setArb_ctxs (h : Hub) (b : Block) (k : Nat) (a : Arb) : (h.setArb b k a).ctxs = h.ctxs := rfl
@[simp] theorem Hub.setArb_paging (h : Hub) (b : Block) (k : Nat) (a : Arb) : (h.setArb b k a).paging = h.paging := rfl
@[simp] theorem Hub.setArb_banks (h : Hub) (b : Block) (k : Nat) (a : Arb) : (h.setArb b k a).banks = h.banks := rfl
@[simp] theorem Hub.setArb_links (h : Hub) (b : Block) (k : Nat) (a : Arb) : (h.setArb b k a).links = h.links := rfl
@[simp] theorem Hub.setArb_xfer (h : Hub) (b : Block) (k : Nat) (a : Arb) : (h.setArb b k a).xfer = h.xfer := rfl
@[simp] theorem Hub.setArb_fts (h : Hub) (b : Block) (k : Nat) (a : Arb) : (h.setArb b k a).fts = h.fts := rfl
@[simp] theorem Hub.setArb_tports (h : Hub) (b : Block) (k : Nat) (a : Arb) : (h.setArb b k a).tports = h.tports := rfl
@[simp] theorem Hub.setArb_pageq (h : Hub) (b : Block) (k : Nat) (a : Arb) : (h.setArb b k a).pageq = h.pageq := rfl
@[simp] theorem Hub.setArb_tags (h : Hub) (b : Block) (k : Nat) (a : Arb) : (h.setArb b k a).tags = h.tags := rfl
@[simp] theorem Hub.setArb_ksi (h : Hub) (b : Block) (k : Nat) (a : Arb) : (h.setArb b k a).ksi = h.ksi := rfl
@[simp] theorem Hub.setArb_mir (h : Hub) (b : Block) (k : Nat) (a : Arb) : (h.setArb b k a).mir = h.mir := rfl
@[simp] theorem Hub.setArb_dse (h : Hub) (b : Block) (k : Nat) (a : Arb) : (h.setArb b k a).dse = h.dse := rfl
@[simp] theorem Hub.setArb_vin (h : Hub) (b : Block) (k : Nat) (a : Arb) : (h.setArb b k a).vin = h.vin := rfl
@[simp] theorem Hub.setArb_eth (h : Hub) (b : Block) (k : Nat) (a : Arb) : (h.setArb b k a).eth = h.eth := rfl
@[simp] theorem Hub.setArb_pxb (h : Hub) (b : Block) (k : Nat) (a : Arb) : (h.setArb b k a).pxb = h.pxb := rfl
@[simp] theorem Hub.setArb_usb (h : Hub) (b : Block) (k : Nat) (a : Arb) : (h.setArb b k a).usb = h.usb := rfl
@[simp] theorem Hub.setArb_ppc (h : Hub) (b : Block) (k : Nat) (a : Arb) : (h.setArb b k a).ppc = h.ppc := rfl
@[simp] theorem Hub.setArb_pmc (h : Hub) (b : Block) (k : Nat) (a : Arb) : (h.setArb b k a).pmc = h.pmc := rfl
@[simp] theorem Hub.setArb_sit (h : Hub) (b : Block) (k : Nat) (a : Arb) : (h.setArb b k a).sit = h.sit := rfl
@[simp] theorem Hub.setArb_remote (h : Hub) (b : Block) (k : Nat) (a : Arb) : (h.setArb b k a).remote = h.remote := rfl
@[simp] theorem Hub.setArb_free (h : Hub) (b : Block) (k : Nat) (a : Arb) : (h.setArb b k a).free = h.free := rfl
@[simp] theorem Hub.setArb_out (h : Hub) (b : Block) (k : Nat) (a : Arb) : (h.setArb b k a).out = h.out := rfl
@[simp] theorem Hub.setArb_rd (h : Hub) (b : Block) (k : Nat) (a : Arb) (y : Nat) : (h.setArb b k a).rd y = h.rd y := rfl
@[simp] theorem Hub.setArb_rdWide (h : Hub) (b : Block) (k : Nat) (a : Arb) (y : Nat) : (h.setArb b k a).rdWide y = h.rdWide y := rfl
@[simp] theorem Hub.setArb_hdr (h : Hub) (b : Block) (k : Nat) (a : Arb) (y : Block) : (h.setArb b k a).hdr y = h.hdr y := rfl

end Sys2Proof.Machine
end

