-- ==== Sys2Proof/Laws/Tab.lean ====
section
/-! SUPPORT. The sparse table: a read after a write, and that every write keeps the canonical form. -/

namespace Sys2Proof.Machine

theorem Tab.get_del {α : Type} (d : Nat → α) (t : Tab α) (k j : Nat) :
    Tab.get d (Tab.del t k) j = if j = k then d j else Tab.get d t j := by
  induction t with
  | nil => simp [Tab.del, Tab.get]
  | cons e t ih =>
    obtain ⟨i, v⟩ := e
    simp only [Tab.del, Tab.get]
    split
    · rw [ih]; split <;> simp_all
    · simp only [Tab.get, ih]; split <;> split <;> simp_all

theorem Tab.get_ins {α : Type} (d : Nat → α) (t : Tab α) (k j : Nat) (v : α) :
    Tab.get d (Tab.ins (Tab.del t k) k v) j = if j = k then v else Tab.get d t j := by
  induction t with
  | nil => simp [Tab.del, Tab.ins, Tab.get]
  | cons e t ih =>
    obtain ⟨i, w⟩ := e
    simp only [Tab.del]
    split
    · rw [ih]; simp only [Tab.get]; split <;> simp_all
    · simp only [Tab.ins]
      split
      · simp only [Tab.get, Tab.get_del]; split <;> simp_all
      · simp only [Tab.get, ih]; split <;> split <;> simp_all

/-- A read after a write: the value written at its key, and every other key as before. -/
theorem Tab.get_set {α : Type} [DecidableEq α] (d : Nat → α) (t : Tab α) (k j : Nat) (v : α) :
    Tab.get d (Tab.set d t k v) j = if j = k then v else Tab.get d t j := by
  unfold Tab.set
  split
  · rw [Tab.get_del]; split <;> simp_all
  · exact Tab.get_ins d t k j v

theorem Tab.find_del {α : Type} (t : Tab α) (k j : Nat) :
    Tab.find (Tab.del t k) j = if j = k then none else Tab.find t j := by
  induction t with
  | nil => simp [Tab.del, Tab.find]
  | cons e t ih =>
    obtain ⟨i, v⟩ := e
    simp only [Tab.del]
    split
    · rw [ih]; simp only [Tab.find]; split <;> simp_all
    · simp only [Tab.find, ih]; split <;> split <;> simp_all

/-- A look-up after a put. -/
theorem Tab.find_put {α : Type} (t : Tab α) (k j : Nat) (v : α) :
    Tab.find (Tab.put t k v) j = if j = k then some v else Tab.find t j := by
  unfold Tab.put
  induction t with
  | nil => simp [Tab.del, Tab.ins, Tab.find]
  | cons e t ih =>
    obtain ⟨i, w⟩ := e
    simp only [Tab.del]
    split
    · rw [ih]; simp only [Tab.find]; split <;> simp_all
    · simp only [Tab.ins]
      split
      · simp only [Tab.find, Tab.find_del]; split <;> simp_all
      · simp only [Tab.find, ih]; split <;> split <;> simp_all

theorem Tab.above_mono {α : Type} {b c : Nat} (t : Tab α) (h : Tab.above b t = true) (hc : c ≤ b) : Tab.above c t = true := by
  cases t with
  | nil => rfl
  | cons e t =>
    obtain ⟨i, v⟩ := e
    simp only [Tab.above, Bool.and_eq_true, decide_eq_true_eq] at *
    exact ⟨by omega, h.2⟩

theorem Tab.above_del {α : Type} {b : Nat} (t : Tab α) (k : Nat) (h : Tab.above b t = true) :
    Tab.above b (Tab.del t k) = true := by
  induction t generalizing b with
  | nil => rfl
  | cons e t ih =>
    obtain ⟨i, w⟩ := e
    simp only [Tab.above, Bool.and_eq_true, decide_eq_true_eq] at h
    simp only [Tab.del]
    split
    · exact Tab.above_mono _ (ih h.2) (by omega)
    · simp only [Tab.above, Bool.and_eq_true, decide_eq_true_eq]; exact ⟨h.1, ih h.2⟩

theorem Tab.above_ins {α : Type} {b : Nat} (t : Tab α) (k : Nat) (v : α) (h : Tab.above b (Tab.del t k) = true)
    (hb : b ≤ k) : Tab.above b (Tab.ins (Tab.del t k) k v) = true := by
  induction t generalizing b with
  | nil => simpa [Tab.del, Tab.ins, Tab.above] using hb
  | cons e t ih =>
    obtain ⟨i, w⟩ := e
    simp only [Tab.del] at *
    split at h
    · rename_i hi; rw [if_pos hi]; exact ih h hb
    · rename_i hi
      rw [if_neg hi]
      simp only [Tab.above, Bool.and_eq_true, decide_eq_true_eq] at h
      simp only [Tab.ins]
      split
      · rename_i hk
        simp only [Tab.above, Bool.and_eq_true, decide_eq_true_eq]
        exact ⟨hb, by omega, h.2⟩
      · simp only [Tab.above, Bool.and_eq_true, decide_eq_true_eq]
        exact ⟨h.1, ih h.2 (by omega)⟩

theorem Tab.mem_del {α : Type} (t : Tab α) (k : Nat) (e : Nat × α) (h : e ∈ Tab.del t k) : e ∈ t := by
  induction t with
  | nil => simp [Tab.del] at h
  | cons x t ih =>
    obtain ⟨i, w⟩ := x
    simp only [Tab.del] at h
    split at h
    · exact List.mem_cons_of_mem _ (ih h)
    · rcases List.mem_cons.mp h with rfl | h
      · exact List.mem_cons_self
      · exact List.mem_cons_of_mem _ (ih h)

theorem Tab.mem_ins {α : Type} (t : Tab α) (k : Nat) (v : α) (e : Nat × α) (h : e ∈ Tab.ins t k v) :
    e = (k, v) ∨ e ∈ t := by
  induction t with
  | nil => simpa [Tab.ins] using h
  | cons x t ih =>
    obtain ⟨i, w⟩ := x
    simp only [Tab.ins] at h
    split at h
    · rcases List.mem_cons.mp h with rfl | h
      · exact .inl rfl
      · exact .inr h
    · rcases List.mem_cons.mp h with rfl | h
      · exact .inr List.mem_cons_self
      · rcases ih h with rfl | h
        · exact .inl rfl
        · exact .inr (List.mem_cons_of_mem _ h)

/-- A write keeps the canonical form. -/
theorem Tab.wf_set {α : Type} [DecidableEq α] (d : Nat → α) (t : Tab α) (k : Nat) (v : α) (h : Tab.wf d t = true) :
    Tab.wf d (Tab.set d t k v) = true := by
  simp only [Tab.wf, Bool.and_eq_true, List.all_eq_true, decide_eq_true_eq] at *
  obtain ⟨ha, hd⟩ := h
  unfold Tab.set
  split
  · exact ⟨Tab.above_del t k ha, fun e he => hd e (Tab.mem_del t k e he)⟩
  · rename_i hv
    refine ⟨Tab.above_ins t k v (Tab.above_del t k ha) (Nat.zero_le _), fun e he => ?_⟩
    rcases Tab.mem_ins _ _ _ _ he with rfl | he
    · exact hv
    · exact hd e (Tab.mem_del t k e he)

end Sys2Proof.Machine
end

