-- ==== Sys2Proof/Laws/Regs.lean ====
section
/-! SUPPORT. Bit fields, and registers: what a read gives after each way of writing a register. -/

namespace Sys2Proof.Machine

/-! ### Bit fields -/

theorem bit_setBit (w : Word) (i j : Nat) (v : Bool) (hi : i < 32) :
    bit (setBit w i v) j = if j = i then v else bit w j := by
  have h : (w32 (2 ^ i)).getLsbD j = decide (j = i) := by
    unfold w32
    rw [BitVec.getLsbD_ofNat, Nat.testBit_two_pow]
    by_cases e : j = i
    · subst e; simp [hi]
    · have : ¬ i = j := fun x => e x.symm
      simp [e, this]
  unfold bit setBit
  cases v
  · by_cases e : j = i
    · subst e; simp [h]
    · simp only [Bool.false_eq_true, ite_false, BitVec.getLsbD_and, BitVec.getLsbD_not, h, e]
      by_cases e2 : j < 32
      · simp [e2]
      · simp [BitVec.getLsbD_of_ge w j (by omega)]
  · by_cases e : j = i
    · subst e; simp [h]
    · simp [h, e]

theorem fld_lt (w : Word) (hi lo : Nat) : fld w hi lo < 2 ^ (hi + 1 - lo) := Nat.mod_lt _ (Nat.two_pow_pos _)

theorem testBit_fld (w : Word) (hi lo i : Nat) :
    (fld w hi lo).testBit i = (decide (i < hi + 1 - lo) && w.getLsbD (lo + i)) := by
  unfold fld
  rw [Nat.testBit_mod_two_pow, Nat.testBit_shiftRight]
  rfl

theorem getLsbD_ones (hi lo j : Nat) :
    (ones hi lo).getLsbD j = (decide (j < 32) && decide (lo ≤ j) && decide (j < lo + (hi + 1 - lo))) := by
  unfold ones w32
  rw [BitVec.getLsbD_ofNat, ← Nat.shiftLeft_eq, Nat.testBit_shiftLeft, Nat.testBit_two_pow_sub_one]
  by_cases a : j < 32 <;> by_cases b : lo ≤ j <;> simp [a, b] <;> omega

theorem getLsbD_setFld (w : Word) (hi lo v j : Nat) :
    (setFld w hi lo v).getLsbD j =
      if j < 32 ∧ lo ≤ j ∧ j < lo + (hi + 1 - lo) then v.testBit (j - lo) else w.getLsbD j := by
  unfold setFld
  rw [BitVec.getLsbD_or, BitVec.getLsbD_and, BitVec.getLsbD_not, getLsbD_ones]
  unfold w32
  rw [BitVec.getLsbD_ofNat, ← Nat.shiftLeft_eq, Nat.testBit_shiftLeft, Nat.testBit_mod_two_pow]
  by_cases a : j < 32
  · by_cases b : lo ≤ j
    · by_cases c : j < lo + (hi + 1 - lo)
      · have : j - lo < hi + 1 - lo := by omega
        simp [a, b, c, this]
      · have : ¬ j - lo < hi + 1 - lo := by omega
        simp [a, b, c, this]
    · simp [a, b]
  · simp [a, BitVec.getLsbD_of_ge w j (by omega)]

/-- A field read after it is set. -/
theorem fld_setFld (w : Word) (hi lo v : Nat) (h : hi < 32) : fld (setFld w hi lo v) hi lo = v % 2 ^ (hi + 1 - lo) := by
  apply Nat.eq_of_testBit_eq
  intro i
  rw [testBit_fld, getLsbD_setFld, Nat.testBit_mod_two_pow]
  by_cases a : i < hi + 1 - lo
  · have : lo + i < 32 ∧ lo ≤ lo + i ∧ lo + i < lo + (hi + 1 - lo) := by omega
    simp [a, this]
  · simp [a]

/-- A field read after another one, apart from it, is set. -/
theorem fld_setFld_ne (w : Word) (hi lo v hi' lo' : Nat) (h : hi < lo' ∨ hi' < lo) :
    fld (setFld w hi lo v) hi' lo' = fld w hi' lo' := by
  apply Nat.eq_of_testBit_eq
  intro i
  rw [testBit_fld, getLsbD_setFld, testBit_fld]
  by_cases a : i < hi' + 1 - lo'
  · have : ¬ (lo' + i < 32 ∧ lo ≤ lo' + i ∧ lo' + i < lo + (hi + 1 - lo)) := by omega
    simp [a, this]
  · simp [a]

theorem bit_setFld_ne (w : Word) (hi lo v j : Nat) (h : j < lo ∨ hi < j) : bit (setFld w hi lo v) j = bit w j := by
  unfold bit
  rw [getLsbD_setFld, if_neg]
  omega

theorem fld_setBit_ne (w : Word) (i : Nat) (v : Bool) (hi lo : Nat) (hi32 : i < 32) (h : i < lo ∨ hi < i) :
    fld (setBit w i v) hi lo = fld w hi lo := by
  apply Nat.eq_of_testBit_eq
  intro k
  rw [testBit_fld, testBit_fld]
  by_cases a : k < hi + 1 - lo
  · have e : lo + k ≠ i := by omega
    have := bit_setBit w i (lo + k) v hi32
    rw [if_neg e] at this
    unfold bit at this
    rw [this]
  · simp [a]

/-! ### Registers -/

theorem Hub.rd_wr (h : Hub) (a b : Nat) (v : Word) : (h.wr a v).rd b = if b = a then v else h.rd b :=
  Tab.get_set _ _ _ _ _

@[simp] theorem Hub.rd_wr_self (h : Hub) (a : Nat) (v : Word) : (h.wr a v).rd a = v := by simp [Hub.rd_wr]

theorem Hub.rd_wr_ne (h : Hub) {a b : Nat} (v : Word) (hn : b ≠ a) : (h.wr a v).rd b = h.rd b := by
  simp [Hub.rd_wr, hn]

/-- Registers are read through the table and the straps alone. -/
theorem Hub.rd_congr {h h' : Hub} (hr : h'.regs = h.regs) (hs : h'.straps = h.straps) (a : Nat) : h'.rd a = h.rd a := by
  unfold Hub.rd; rw [hr, hs]

theorem Hub.rd_wrF (h : Hub) (a hi lo v b : Nat) :
    (h.wrF a hi lo v).rd b = if b = a then setFld (h.rd a) hi lo v else h.rd b := Hub.rd_wr _ _ _ _

theorem Hub.rd_wrB (h : Hub) (a i : Nat) (v : Bool) (b : Nat) :
    (h.wrB a i v).rd b = if b = a then setBit (h.rd a) i v else h.rd b := Hub.rd_wr _ _ _ _

theorem Hub.rd_inc (h : Hub) (a k b : Nat) : (h.inc a k).rd b = if b = a then incHold (h.rd a) k else h.rd b :=
  Hub.rd_wr _ _ _ _

theorem Hub.rd_incW (h : Hub) (a k b : Nat) : (h.incW a k).rd b = if b = a then incWrap (h.rd a) k else h.rd b :=
  Hub.rd_wr _ _ _ _

theorem Hub.rd_incF (h : Hub) (a hi lo k b : Nat) :
    (h.incF a hi lo k).rd b =
      if b = a then setFld (h.rd a) hi lo (holdAt (2 ^ (hi + 1 - lo) - 1) (h.rdF a hi lo + k)) else h.rd b :=
  Hub.rd_wr _ _ _ _

theorem Hub.rd_incFW (h : Hub) (a hi lo k b : Nat) :
    (h.incFW a hi lo k).rd b = if b = a then setFld (h.rd a) hi lo (h.rdF a hi lo + k) else h.rd b := Hub.rd_wr _ _ _ _

theorem Hub.rd_maxR (h : Hub) (a v b : Nat) :
    (h.maxR a v).rd b = if b = a then w32 (max (h.rd a).toNat v) else h.rd b := Hub.rd_wr _ _ _ _

theorem Hub.rd_maxF (h : Hub) (a hi lo v b : Nat) :
    (h.maxF a hi lo v).rd b = if b = a then setFld (h.rd a) hi lo (max (h.rdF a hi lo) v) else h.rd b := Hub.rd_wr _ _ _ _

theorem Hub.shadow_wrShadow (h : Hub) (a b : Nat) (v : Word) :
    (h.wrShadow a v).shadow b = if b = a then v else h.shadow b := by
  unfold Hub.shadow Hub.wrShadow
  simp only [Tab.find_put]
  split <;> simp [Hub.rd]

theorem Hub.rdWide_wrWide (h : Hub) (a v b : Nat) :
    (h.wrWide a v).rdWide b = if b = a then v % 2 ^ 64 else h.rdWide b := Tab.get_set _ _ _ _ _

/-- A register write keeps the table of registers canonical. -/
theorem Hub.wr_wf (h : Hub) (a : Nat) (v : Word) (hw : Tab.wf (regReset h.straps) h.regs = true) :
    Tab.wf (regReset (h.wr a v).straps) (h.wr a v).regs = true := Tab.wf_set _ _ _ _ hw

@[simp] theorem Hub.rdF_fresh (h : Hub) (a hi lo : Nat) : h.fresh.rdF a hi lo = h.rdF a hi lo := rfl
@[simp] theorem Hub.rdB_fresh (h : Hub) (a i : Nat) : h.fresh.rdB a i = h.rdB a i := rfl
@[simp] theorem Hub.shadow_fresh (h : Hub) (a : Nat) : h.fresh.shadow a = h.shadow a := rfl
@[simp] theorem Hub.fresh_out (h : Hub) : h.fresh.out = [] := rfl

/-! ### Headers -/

theorem PerBlock.get_set {α : Type} (p : PerBlock α) (b c : Block) (v : α) :
    (p.set b v).get c = if c = b then v else p.get c := by
  cases b <;> cases c <;> rfl

@[simp] theorem PerBlock.get_of {α : Type} (f : Block → α) (b : Block) : (PerBlock.of f).get b = f b := by
  cases b <;> rfl

theorem Hub.hdr_setHdr (h : Hub) (b c : Block) (x : Hdr) : (h.setHdr b x).hdr c = if c = b then x else h.hdr c :=
  PerBlock.get_set _ _ _ _

theorem Hub.hdr_updHdr (h : Hub) (b c : Block) (f : Hdr → Hdr) :
    (h.updHdr b f).hdr c = if c = b then f (h.hdr b) else h.hdr c := PerBlock.get_set _ _ _ _

@[simp] theorem Hub.hdr_updHdr_self (h : Hub) (b : Block) (f : Hdr → Hdr) : (h.updHdr b f).hdr b = f (h.hdr b) := by
  simp [Hub.hdr_updHdr]

end Sys2Proof.Machine
end

