-- ==== Sys2Proof/Laws/Settle.lean ====
section
/-! SUPPORT. What the end of a command does: `settle` changes POLL_SEQ, ENABLE, KEEPAWAKE, the order log's FIFOs and the masthead, and
nothing else; and the frame of a command follows from that of its effect. -/

namespace Sys2Proof.Machine

theorem keepNote_eq (o n : Hub) : keepNote o n = n ∨ keepNote o n = n.attn .pmu 4 := by
  unfold keepNote; split
  · exact .inl rfl
  · exact .inr rfl

/-- Every part of the hub that `settle` leaves alone. -/
theorem settle_same (o n : Hub) (p : Part) : p.same n (settle o n) := by
  rcases keepNote_eq o n with e | e <;> cases p <;>
    simp only [Part.same, settle, e, settleOlog] <;> first | rfl | (split; all_goals rfl)

@[simp] theorem settle_straps (o n : Hub) : (settle o n).straps = n.straps := by
  rcases keepNote_eq o n with e | e <;> simp only [settle, e] <;> rfl
@[simp] theorem settle_regs (o n : Hub) : (settle o n).regs = n.regs := by
  rcases keepNote_eq o n with e | e <;> simp only [settle, e] <;> rfl
@[simp] theorem settle_pend (o n : Hub) : (settle o n).pend = n.pend := by
  rcases keepNote_eq o n with e | e <;> simp only [settle, e] <;> rfl
@[simp] theorem settle_wide (o n : Hub) : (settle o n).wide = n.wide := by
  rcases keepNote_eq o n with e | e <;> simp only [settle, e] <;> rfl
@[simp] theorem settle_arbs (o n : Hub) : (settle o n).arbs = n.arbs := by
  rcases keepNote_eq o n with e | e <;> simp only [settle, e] <;> rfl
@[simp] theorem settle_time (o n : Hub) : (settle o n).time = n.time := by
  rcases keepNote_eq o n with e | e <;> simp only [settle, e] <;> rfl
@[simp] theorem settle_power (o n : Hub) : (settle o n).power = n.power := by
  rcases keepNote_eq o n with e | e <;> simp only [settle, e] <;> rfl
@[simp] theorem settle_pins (o n : Hub) : (settle o n).pins = n.pins := by
  rcases keepNote_eq o n with e | e <;> simp only [settle, e] <;> rfl
@[simp] theorem settle_lanes (o n : Hub) : (settle o n).lanes = n.lanes := by
  rcases keepNote_eq o n with e | e <;> simp only [settle, e] <;> rfl
@[simp] theorem settle_repair (o n : Hub) : (settle o n).repair = n.repair := by
  rcases keepNote_eq o n with e | e <;> simp only [settle, e] <;> rfl
@[simp] theorem settle_repairMap (o n : Hub) : (settle o n).repairMap = n.repairMap := by
  rcases keepNote_eq o n with e | e <;> simp only [settle, e] <;> rfl
@[simp] theorem settle_cells (o n : Hub) : (settle o n).cells = n.cells := by
  rcases keepNote_eq o n with e | e <;> simp only [settle, e] <;> rfl
@[simp] theorem settle_counts (o n : Hub) : (settle o n).counts = n.counts := by
  rcases keepNote_eq o n with e | e <;> simp only [settle, e] <;> rfl
@[simp] theorem settle_opens (o n : Hub) : (settle o n).opens = n.opens := by
  rcases keepNote_eq o n with e | e <;> simp only [settle, e] <;> rfl
@[simp] theorem settle_foyers (o n : Hub) : (settle o n).foyers = n.foyers := by
  rcases keepNote_eq o n with e | e <;> simp only [settle, e] <;> rfl
@[simp] theorem settle_waits (o n : Hub) : (settle o n).waits = n.waits := by
  rcases keepNote_eq o n with e | e <;> simp only [settle, e] <;> rfl
@[simp] theorem settle_ctxs (o n : Hub) : (settle o n).ctxs = n.ctxs := by
  rcases keepNote_eq o n with e | e <;> simp only [settle, e] <;> rfl
@[simp] theorem settle_paging (o n : Hub) : (settle o n).paging = n.paging := by
  rcases keepNote_eq o n with e | e <;> simp only [settle, e] <;> rfl
@[simp] theorem settle_banks (o n : Hub) : (settle o n).banks = n.banks := by
  rcases keepNote_eq o n with e | e <;> simp only [settle, e] <;> rfl
@[simp] theorem settle_links (o n : Hub) : (settle o n).links = n.links := by
  rcases keepNote_eq o n with e | e <;> simp only [settle, e] <;> rfl
@[simp] theorem settle_xfer (o n : Hub) : (settle o n).xfer = n.xfer := by
  rcases keepNote_eq o n with e | e <;> simp only [settle, e] <;> rfl
@[simp] theorem settle_fts (o n : Hub) : (settle o n).fts = n.fts := by
  rcases keepNote_eq o n with e | e <;> simp only [settle, e] <;> rfl
@[simp] theorem settle_tports (o n : Hub) : (settle o n).tports = n.tports := by
  rcases keepNote_eq o n with e | e <;> simp only [settle, e] <;> rfl
@[simp] theorem settle_pageq (o n : Hub) : (settle o n).pageq = n.pageq := by
  rcases keepNote_eq o n with e | e <;> simp only [settle, e] <;> rfl
@[simp] theorem settle_tags (o n : Hub) : (settle o n).tags = n.tags := by
  rcases keepNote_eq o n with e | e <;> simp only [settle, e] <;> rfl
@[simp] theorem settle_ksi (o n : Hub) : (settle o n).ksi = n.ksi := by
  rcases keepNote_eq o n with e | e <;> simp only [settle, e] <;> rfl
@[simp] theorem settle_mir (o n : Hub) : (settle o n).mir = n.mir := by
  rcases keepNote_eq o n with e | e <;> simp only [settle, e] <;> rfl
@[simp] theorem settle_dse (o n : Hub) : (settle o n).dse = n.dse := by
  rcases keepNote_eq o n with e | e <;> simp only [settle, e] <;> rfl
@[simp] theorem settle_vin (o n : Hub) : (settle o n).vin = n.vin := by
  rcases keepNote_eq o n with e | e <;> simp only [settle, e] <;> rfl
@[simp] theorem settle_eth (o n : Hub) : (settle o n).eth = n.eth := by
  rcases keepNote_eq o n with e | e <;> simp only [settle, e] <;> rfl
@[simp] theorem settle_pxb (o n : Hub) : (settle o n).pxb = n.pxb := by
  rcases keepNote_eq o n with e | e <;> simp only [settle, e] <;> rfl
@[simp] theorem settle_usb (o n : Hub) : (settle o n).usb = n.usb := by
  rcases keepNote_eq o n with e | e <;> simp only [settle, e] <;> rfl
@[simp] theorem settle_ppc (o n : Hub) : (settle o n).ppc = n.ppc := by
  rcases keepNote_eq o n with e | e <;> simp only [settle, e] <;> rfl
@[simp] theorem settle_pmc (o n : Hub) : (settle o n).pmc = n.pmc := by
  rcases keepNote_eq o n with e | e <;> simp only [settle, e] <;> rfl
@[simp] theorem settle_sit (o n : Hub) : (settle o n).sit = n.sit := by
  rcases keepNote_eq o n with e | e <;> simp only [settle, e] <;> rfl
@[simp] theorem settle_remote (o n : Hub) : (settle o n).remote = n.remote := by
  rcases keepNote_eq o n with e | e <;> simp only [settle, e] <;> rfl
@[simp] theorem settle_free (o n : Hub) : (settle o n).free = n.free := by
  rcases keepNote_eq o n with e | e <;> simp only [settle, e] <;> rfl
@[simp] theorem settle_out (o n : Hub) : (settle o n).out = n.out := by
  rcases keepNote_eq o n with e | e <;> simp only [settle, e] <;> rfl

@[simp] theorem settle_rd (o n : Hub) (a : Nat) : (settle o n).rd a = n.rd a := Hub.rd_congr (settle_regs o n) (settle_straps o n) a

@[simp] theorem settle_rdF (o n : Hub) (a hi lo : Nat) : (settle o n).rdF a hi lo = n.rdF a hi lo := by
  unfold Hub.rdF; rw [settle_rd]

@[simp] theorem settle_rdB (o n : Hub) (a i : Nat) : (settle o n).rdB a i = n.rdB a i := by unfold Hub.rdB; rw [settle_rd]

@[simp] theorem settle_rdWide (o n : Hub) (a : Nat) : (settle o n).rdWide a = n.rdWide a := by
  unfold Hub.rdWide; rw [settle_wide]

@[simp] theorem settle_shadow (o n : Hub) (a : Nat) : (settle o n).shadow a = n.shadow a := by
  unfold Hub.shadow; rw [settle_pend, settle_rd]

theorem settle_hdr (o n : Hub) (b : Block) : (settle o n).hdr b = settleHdr o (keepNote o n) b := by
  unfold Hub.hdr
  show (settleHdrs o (keepNote o n)).get b = _
  exact PerBlock.get_of _ _

theorem settleHdr_body (o n : Hub) (b : Block) : (settleHdr o n b).body b = (n.hdr b).body b := rfl

/-- A header apart from POLL_SEQ, ENABLE and KEEPAWAKE is as the effect left it. -/
theorem settle_body (o n : Hub) (b : Block) : ((settle o n).hdr b).body b = (n.hdr b).body b := by
  rw [settle_hdr, settleHdr_body]
  rcases keepNote_eq o n with e | e <;> rw [e]
  rw [Hub.attn, Hub.hdr_updHdr]
  split
  · rename_i hb
    subst hb
    simp only [Hdr.body, bitW, w32, ite_true]
    congr 1
    rw [BitVec.or_assoc]
    rfl
  · rfl

/-- A bit of ATTN_RAW other than PMU's KEEPAWAKE. -/
theorem settle_raw (o n : Hub) (b : Block) (i : Nat) (h : b ≠ .pmu ∨ i ≠ 4) : (settle o n).raw b i = n.raw b i := by
  unfold Hub.raw
  rw [settle_hdr]
  show bit ((keepNote o n).hdr b).attnRaw i = _
  rcases keepNote_eq o n with e | e <;> rw [e]
  rw [Hub.attn, Hub.hdr_updHdr]
  split
  · rename_i hb
    subst hb
    have hi : i ≠ 4 := by simpa using h
    unfold bit bitW w32
    rw [BitVec.getLsbD_or, BitVec.getLsbD_ofNat, Nat.testBit_two_pow]
    simp [hi.symm]
  · rfl

/-- The fields of a header that `settle` leaves alone. -/
theorem settle_hdr_fields (o n : Hub) (b : Block) :
    ((settle o n).hdr b).sticky = (n.hdr b).sticky ∧ ((settle o n).hdr b).live = (n.hdr b).live
    ∧ ((settle o n).hdr b).flt = (n.hdr b).flt ∧ ((settle o n).hdr b).mbx = (n.hdr b).mbx
    ∧ ((settle o n).hdr b).inFault = (n.hdr b).inFault ∧ ((settle o n).hdr b).recovery = (n.hdr b).recovery
    ∧ ((settle o n).hdr b).arbMode = (n.hdr b).arbMode ∧ ((settle o n).hdr b).attnEn = (n.hdr b).attnEn
    ∧ ((settle o n).hdr b).waiting = (n.hdr b).waiting ∧ ((settle o n).hdr b).applied = (n.hdr b).applied
    ∧ ((settle o n).hdr b).missed = (n.hdr b).missed ∧ ((settle o n).hdr b).late = (n.hdr b).late
    ∧ ((settle o n).hdr b).clkReq = (n.hdr b).clkReq ∧ ((settle o n).hdr b).clkGranted = (n.hdr b).clkGranted
    ∧ ((settle o n).hdr b).quietFrom = (n.hdr b).quietFrom := by
  have h := settle_body o n b
  simp only [Hdr.body, Hdr.mk.injEq] at h
  simp only [h, and_self]

/-- The end of a command changes nothing that a frame speaks of. -/
theorem Frame.settle {h k : Hub} (o : Hub) {ps : List Part} {rs : Set Nat} {bs : List Block} (hf : Frame h k ps rs bs) :
    Frame h (settle o k) ps rs bs where
  part p hp := by
    have h1 := hf.part p hp
    have h2 := settle_same o k p
    cases p <;> simp only [Part.same] at h1 h2 ⊢ <;> exact h2.trans h1
  reg a ha := (settle_rd _ _ _).trans (hf.reg a ha)
  hdr b hb := (settle_body _ _ _).trans (hf.hdr b hb)

end Sys2Proof.Machine
end

