-- ==== Sys2Proof/Laws/Frame.lean ====
section
/-! SUPPORT. Frames compose: each shared operation extends a frame by what it may change. A proof of a command's frame applies
these from the outside of its effect inward. -/

namespace Sys2Proof.Machine

variable {h k : Hub} {ps : List Part} {rs : Set Nat} {bs : List Block}

theorem Frame.refl (h : Hub) : Frame h h ps rs bs where
  part p _ := by cases p <;> rfl
  reg _ _ := rfl
  hdr _ _ := rfl

theorem Frame.trans {j : Hub} (a : Frame h j ps rs bs) (b : Frame j k ps rs bs) : Frame h k ps rs bs where
  part p hp := by
    have h1 := a.part p hp
    have h2 := b.part p hp
    cases p <;> simp only [Part.same] at h1 h2 ⊢ <;> exact h2.trans h1
  reg x hx := (b.reg x hx).trans (a.reg x hx)
  hdr x hx := (b.hdr x hx).trans (a.hdr x hx)

theorem Frame.mono {ps' : List Part} {rs' : Set Nat} {bs' : List Block} (a : Frame h k ps rs bs) (hp : ps ⊆ ps') (hr : rs ⊆ rs')
    (hb : bs ⊆ bs') : Frame h k ps' rs' bs' where
  part p n := a.part p fun m => n (hp m)
  reg x n := a.reg x fun m => n (hr m)
  hdr b n := a.hdr b fun m => n (hb m)

/-- A frame over an update that keeps straps, registers and headers and every unlisted part. -/
theorem Frame.upd {k' : Hub} (a : Frame h k ps rs bs) (hr : k'.regs = k.regs) (hs : k'.straps = k.straps)
    (hh : k'.hdrs = k.hdrs) (hp : ∀ p, p ∉ ps → p.same k k') : Frame h k' ps rs bs :=
  a.trans ⟨hp, fun x _ => Hub.rd_congr hr hs x, fun b _ => by unfold Hub.hdr; rw [hh]⟩

theorem Frame.out {l : List Emit} (a : Frame h k ps rs bs) : Frame h { k with out := l } ps rs bs :=
  a.upd rfl rfl rfl fun p _ => by cases p <;> rfl

theorem Frame.fresh (h : Hub) : Frame h h.fresh ps rs bs := (Frame.refl h).out

theorem Frame.emit {e : Emit} (a : Frame h k ps rs bs) : Frame h (k.emit e) ps rs bs := a.out

theorem Frame.wr {x : Nat} {v : Word} (a : Frame h k ps rs bs) (hx : x ∈ rs) : Frame h (k.wr x v) ps rs bs :=
  a.trans ⟨fun p _ => by cases p <;> rfl,
    fun y hy => Hub.rd_wr_ne _ _ fun e => hy (e ▸ hx), fun _ _ => rfl⟩

theorem Frame.wrF {x hi lo v : Nat} (a : Frame h k ps rs bs) (hx : x ∈ rs) : Frame h (k.wrF x hi lo v) ps rs bs := a.wr hx
theorem Frame.wrB {x i : Nat} {v : Bool} (a : Frame h k ps rs bs) (hx : x ∈ rs) : Frame h (k.wrB x i v) ps rs bs := a.wr hx
theorem Frame.inc {x n : Nat} (a : Frame h k ps rs bs) (hx : x ∈ rs) : Frame h (k.inc x n) ps rs bs := a.wr hx
theorem Frame.incW {x n : Nat} (a : Frame h k ps rs bs) (hx : x ∈ rs) : Frame h (k.incW x n) ps rs bs := a.wr hx
theorem Frame.incF {x hi lo n : Nat} (a : Frame h k ps rs bs) (hx : x ∈ rs) : Frame h (k.incF x hi lo n) ps rs bs := a.wr hx
theorem Frame.incFW {x hi lo n : Nat} (a : Frame h k ps rs bs) (hx : x ∈ rs) : Frame h (k.incFW x hi lo n) ps rs bs := a.wr hx
theorem Frame.maxR {x v : Nat} (a : Frame h k ps rs bs) (hx : x ∈ rs) : Frame h (k.maxR x v) ps rs bs := a.wr hx
theorem Frame.maxF {x hi lo v : Nat} (a : Frame h k ps rs bs) (hx : x ∈ rs) : Frame h (k.maxF x hi lo v) ps rs bs := a.wr hx
theorem Frame.latchHi {x y : Nat} (a : Frame h k ps rs bs) (hx : y ∈ rs) : Frame h (k.latchHi x y) ps rs bs := a.wr hx

theorem Frame.updHdr {b : Block} {f : Hdr → Hdr} (a : Frame h k ps rs bs) (hb : b ∈ bs) : Frame h (k.updHdr b f) ps rs bs :=
  a.trans ⟨fun p _ => by cases p <;> rfl, fun _ _ => rfl, fun c hc => by
    rw [Hub.hdr_updHdr, if_neg]; exact fun e => hc (e ▸ hb)⟩

theorem Frame.attn {b : Block} {i : Nat} (a : Frame h k ps rs bs) (hb : b ∈ bs) : Frame h (k.attn b i) ps rs bs := a.updHdr hb
theorem Frame.setLive {b : Block} {i : Nat} {v : Bool} (a : Frame h k ps rs bs) (hb : b ∈ bs) :
    Frame h (k.setLive b i v) ps rs bs := a.updHdr hb
theorem Frame.updMbx {b : Block} {f : Mailbox → Mailbox} (a : Frame h k ps rs bs) (hb : b ∈ bs) :
    Frame h (k.updMbx b f) ps rs bs := a.updHdr hb

theorem Frame.wrShadow {x : Nat} {v : Word} (a : Frame h k ps rs bs) (hx : Part.pend ∈ ps) : Frame h (k.wrShadow x v) ps rs bs :=
  a.upd rfl rfl rfl fun p hp => by cases p <;> first | exact absurd hx hp | rfl
theorem Frame.wrWide {x v : Nat} (a : Frame h k ps rs bs) (hx : Part.wide ∈ ps) : Frame h (k.wrWide x v) ps rs bs :=
  a.upd rfl rfl rfl fun p hp => by cases p <;> first | exact absurd hx hp | rfl
theorem Frame.updPower {f : Power → Power} (a : Frame h k ps rs bs) (hx : Part.power ∈ ps) : Frame h (k.updPower f) ps rs bs :=
  a.upd rfl rfl rfl fun p hp => by cases p <;> first | exact absurd hx hp | rfl
theorem Frame.updPmc {f : Pmc → Pmc} (a : Frame h k ps rs bs) (hx : Part.pmc ∈ ps) : Frame h (k.updPmc f) ps rs bs :=
  a.upd rfl rfl rfl fun p hp => by cases p <;> first | exact absurd hx hp | rfl
theorem Frame.updSit {f : Sit → Sit} (a : Frame h k ps rs bs) (hx : Part.sit ∈ ps) : Frame h (k.updSit f) ps rs bs :=
  a.upd rfl rfl rfl fun p hp => by cases p <;> first | exact absurd hx hp | rfl
theorem Frame.updMir {f : Mir → Mir} (a : Frame h k ps rs bs) (hx : Part.mir ∈ ps) : Frame h (k.updMir f) ps rs bs :=
  a.upd rfl rfl rfl fun p hp => by cases p <;> first | exact absurd hx hp | rfl
theorem Frame.updKsi {f : Ksi → Ksi} (a : Frame h k ps rs bs) (hx : Part.ksi ∈ ps) : Frame h (k.updKsi f) ps rs bs :=
  a.upd rfl rfl rfl fun p hp => by cases p <;> first | exact absurd hx hp | rfl
theorem Frame.updPxb {f : Pxb → Pxb} (a : Frame h k ps rs bs) (hx : Part.pxb ∈ ps) : Frame h (k.updPxb f) ps rs bs :=
  a.upd rfl rfl rfl fun p hp => by cases p <;> first | exact absurd hx hp | rfl
theorem Frame.updUsb {f : Usb → Usb} (a : Frame h k ps rs bs) (hx : Part.usb ∈ ps) : Frame h (k.updUsb f) ps rs bs :=
  a.upd rfl rfl rfl fun p hp => by cases p <;> first | exact absurd hx hp | rfl
theorem Frame.updRemote {f : Remote → Remote} (a : Frame h k ps rs bs) (hx : Part.remote ∈ ps) :
    Frame h (k.updRemote f) ps rs bs :=
  a.upd rfl rfl rfl fun p hp => by cases p <;> first | exact absurd hx hp | rfl
theorem Frame.updPaging {f : Paging → Paging} (a : Frame h k ps rs bs) (hx : Part.paging ∈ ps) :
    Frame h (k.updPaging f) ps rs bs :=
  a.upd rfl rfl rfl fun p hp => by cases p <;> first | exact absurd hx hp | rfl
theorem Frame.updChan {n : Nat} {f : PpcChan → PpcChan} (a : Frame h k ps rs bs) (hx : Part.ppc ∈ ps) :
    Frame h (k.updChan n f) ps rs bs :=
  a.upd rfl rfl rfl fun p hp => by cases p <;> first | exact absurd hx hp | rfl
theorem Frame.updLink {n : Nat} {f : LinkSt → LinkSt} (a : Frame h k ps rs bs) (hx : Part.links ∈ ps) :
    Frame h (k.updLink n f) ps rs bs :=
  a.upd rfl rfl rfl fun p hp => by cases p <;> first | exact absurd hx hp | rfl
theorem Frame.updTport {n : Nat} {f : TssPort → TssPort} (a : Frame h k ps rs bs) (hx : Part.tports ∈ ps) :
    Frame h (k.updTport n f) ps rs bs :=
  a.upd rfl rfl rfl fun p hp => by cases p <;> first | exact absurd hx hp | rfl
theorem Frame.updTun {n : Nat} {f : UsbTun → UsbTun} (a : Frame h k ps rs bs) (hx : Part.usb ∈ ps) :
    Frame h (k.updTun n f) ps rs bs :=
  a.upd rfl rfl rfl fun p hp => by cases p <;> first | exact absurd hx hp | rfl
theorem Frame.setCtx {n : Nat} {c : Ctx} (a : Frame h k ps rs bs) (hx : Part.ctxs ∈ ps) : Frame h (k.setCtx n c) ps rs bs :=
  a.upd rfl rfl rfl fun p hp => by cases p <;> first | exact absurd hx hp | rfl
theorem Frame.updCtx {n : Nat} {f : Ctx → Ctx} (a : Frame h k ps rs bs) (hx : Part.ctxs ∈ ps) : Frame h (k.updCtx n f) ps rs bs :=
  a.setCtx hx
theorem Frame.setArb {b : Block} {n : Nat} {c : Arb} (a : Frame h k ps rs bs) (hx : Part.arbs ∈ ps) :
    Frame h (k.setArb b n c) ps rs bs :=
  a.upd rfl rfl rfl fun p hp => by cases p <;> first | exact absurd hx hp | rfl
theorem Frame.setFt {n t : Nat} {f : FlowTgt} (a : Frame h k ps rs bs) (hx : Part.fts ∈ ps) : Frame h (k.setFt n t f) ps rs bs :=
  a.upd rfl rfl rfl fun p hp => by cases p <;> first | exact absurd hx hp | rfl
theorem Frame.setCell {i : Nat} {c : Option CellSt} (a : Frame h k ps rs bs) (hx : Part.cells ∈ ps) (hy : Part.counts ∈ ps) :
    Frame h (k.setCell i c) ps rs bs :=
  a.upd rfl rfl rfl fun p hp => by cases p <;> first | exact absurd hx hp | exact absurd hy hp | rfl

/-- A fold of framed updates. -/
theorem Frame.foldl {α : Type} {f : Hub → α → Hub} (l : List α) (a : Frame h k ps rs bs)
    (hf : ∀ x j, x ∈ l → Frame h j ps rs bs → Frame h (f j x) ps rs bs) : Frame h (l.foldl f k) ps rs bs := by
  induction l generalizing k with
  | nil => exact a
  | cons x l ih => exact ih (hf x k List.mem_cons_self a) fun y j hy => hf y j (List.mem_cons_of_mem _ hy)

theorem Frame.ite {c : Prop} [Decidable c] {j : Hub} (a : Frame h k ps rs bs) (b : Frame h j ps rs bs) :
    Frame h (if c then k else j) ps rs bs := by split <;> assumption

/-! ### Shared operations -/

theorem Frame.faultPulse (a : Frame h k ps rs bs) (hp : Part.pins ∈ ps) (hr : Reg.SIT_FAULTN_CNT ∈ rs) (hs : Block.sit ∈ bs) :
    Frame h k.faultPulse ps rs bs := by
  unfold Hub.faultPulse
  refine Frame.attn (Frame.inc ?_ hr) hs
  exact a.upd rfl rfl rfl fun p hp' => by cases p <;> first | exact absurd hp hp' | rfl

/-- A fault event changes its block's header, and, through FAULT_N, the pin, SIT_FAULTN_CNT and SIT's header (R465–R473). -/
theorem Frame.fault {b : Block} {i : Nat} (a : Frame h k ps rs bs) (hb : b ∈ bs) (hp : Part.pins ∈ ps)
    (hr : Reg.SIT_FAULTN_CNT ∈ rs) (hs : Block.sit ∈ bs) : Frame h (k.fault b i) ps rs bs := by
  unfold Hub.fault
  dsimp only
  split
  · exact Frame.faultPulse (Frame.updHdr (f := fun _ => _) a hb) hp hr hs
  · exact Frame.updHdr (f := fun _ => _) a hb

/-- The mailbox runner stores a result in its block's header. -/
theorem Frame.opResult {b : Block} {op : Nat} {r : MbxResult} (a : Frame h k ps rs bs) (hb : b ∈ bs) :
    Frame h (k.opResult b op r) ps rs bs := by
  unfold Hub.opResult
  split
  · exact a.updMbx hb
  · exact a

theorem Frame.publish {b : Block} {r : MbxResult} (a : Frame h k ps rs bs) (hb : b ∈ bs) : Frame h (k.publish b r) ps rs bs :=
  (a.updMbx hb).attn hb

theorem Frame.capDue {n p : Nat} (a : Frame h k ps rs bs) (hp : Part.pmc ∈ ps) : Frame h (k.capDue n p) ps rs bs := by
  unfold Hub.capDue
  split
  · exact a.updPmc hp
  · exact a

theorem Frame.cntAdd {port : Nat} (hp : Part.pmc ∈ ps) (hr : pmcRegs ⊆ rs) (hb : Block.pmc ∈ bs) (fuel n m : Nat)
    (hn : n < 256) (a : Frame h k ps rs bs) : Frame h (k.cntAdd port fuel n m) ps rs bs := by
  induction fuel generalizing k n m with
  | zero => exact a
  | succ f ih =>
    unfold Hub.cntAdd
    dsimp only
    split
    · exact a.updPmc hp
    · split
      · rename_i hc
        refine ih _ _ ?_ ((a.updPmc hp).capDue hp)
        simp only [Hub.chained, Bool.and_eq_true, decide_eq_true_eq] at hc
        omega
      · refine Frame.attn (Frame.wrB ((a.updPmc hp).capDue hp) (hr ?_)) hb
        exact ⟨n / 32, by omega, rfl⟩

/-- An event of Table 20.2 changes PMC's counters, its overflow flags and its header (R490, R491). -/
theorem Frame.pmcEvent {ev port tc n : Nat} (a : Frame h k ps rs bs) (hp : Part.pmc ∈ ps) (hr : pmcRegs ⊆ rs)
    (hb : Block.pmc ∈ bs) : Frame h (k.pmcEvent ev port tc n) ps rs bs := by
  unfold Hub.pmcEvent
  refine Frame.foldl _ a fun x j hx hj => ?_
  dsimp only
  split
  · refine Frame.cntAdd hp hr hb _ _ _ ?_ hj
    have h2 := (List.mem_filter.mp hx).2
    simp only [decide_eq_true_eq] at h2
    have h3 := h2.1
    have h4 := h2.2
    simp only [Reg.PC_SEL] at h3 h4 ⊢
    omega
  · exact hj

/-! ### Cell time and the order log -/

theorem Frame.updVin {n : Nat} {f : VinRx → VinRx} (a : Frame h k ps rs bs) (hp : Part.vin ∈ ps) (h1 : Reg.VN_STAT n ∈ rs)
    (h2 : Reg.VN_TRIG_CTL n ∈ rs) : Frame h (k.updVin n f) ps rs bs := by
  unfold Hub.updVin
  dsimp only
  refine Frame.wrB (Frame.wrB ?_ h1) h2
  exact a.upd rfl rfl rfl fun p hp' => by cases p <;> first | exact absurd hp hp' | rfl

theorem Frame.trigTo {n : Nat} {t : TrigSched} (a : Frame h k ps rs bs) (hp : Part.vin ∈ ps) (h1 : Reg.VN_STAT n ∈ rs)
    (h2 : Reg.VN_TRIG_CTL n ∈ rs) (hb : Block.vin ∈ bs) : Frame h (k.trigTo n t) ps rs bs := by
  unfold Hub.trigTo
  split
  · exact (a.updVin hp h1 h2).attn hb
  · exact a.updVin hp h1 h2

theorem Frame.trigPin {n : Nat} {v : Bool} (a : Frame h k ps rs bs) (hp : Part.pins ∈ ps) : Frame h (k.trigPin n v) ps rs bs :=
  a.upd rfl rfl rfl fun p hp' => by cases p <;> first | exact absurd hp hp' | rfl

/-- A step of cell time moves the trigger schedules (R333). -/
theorem Frame.trigStep {old : Nat} {d : Int} (a : Frame h k ps rs bs) (hp : Part.vin ∈ ps) (hr : trigRegs ⊆ rs)
    (hb : Block.vin ∈ bs) : Frame h (k.trigStep old d) ps rs bs := by
  unfold Hub.trigStep
  refine Frame.foldl _ a fun n j hn hj => ?_
  have hn := List.mem_range.mp hn
  have h1 : Reg.VN_STAT n ∈ rs := hr ⟨n, hn, .inl rfl⟩
  have h2 : Reg.VN_TRIG_CTL n ∈ rs := hr ⟨n, hn, .inr (.inl rfl)⟩
  have h3 : Reg.VN_TRIG_SKIP n ∈ rs := hr ⟨n, hn, .inr (.inr rfl)⟩
  dsimp only
  have h4 : ∀ f, Frame h (if (j.vinRx n).pulseEnd.isSome = true then j.updVin n f else j) ps rs bs := by
    intro f
    split
    · exact hj.updVin hp h1 h2
    · exact hj
  split
  · exact h4 _
  · split
    · exact ((h4 _).inc h3).trigTo hp h1 h2 hb
    · exact h4 _

theorem Frame.ologDrop (a : Frame h k ps rs bs) (hp : Part.ring ∈ ps) (hr : Reg.STW_OLOG_LOST ∈ rs) (hb : Block.stw ∈ bs) :
    Frame h k.ologDrop ps rs bs := by
  unfold Hub.ologDrop
  refine Frame.attn (Frame.inc ?_ hr) hb
  exact a.upd rfl rfl rfl fun p hp' => by cases p <;> first | exact absurd hp hp' | rfl

theorem Frame.ologPut {n : Nat} {r : EvRec} (a : Frame h k ps rs bs) (hp : Part.ring ∈ ps) (hb : Block.stw ∈ bs)
    (h1 : Part.pmc ∈ ps) (h2 : pmcRegs ⊆ rs) (h3 : Block.pmc ∈ bs) : Frame h (k.ologPut n r) ps rs bs := by
  unfold Hub.ologPut
  dsimp only
  have hx : ∀ x, Frame h { k with olog := x } ps rs bs := fun x =>
    a.upd rfl rfl rfl fun p hp' => by cases p <;> first | exact absurd hp hp' | rfl
  split
  · exact ((hx _).pmcEvent h1 h2 h3).attn hb
  · exact (hx _).pmcEvent h1 h2 h3

theorem Frame.ologLost (a : Frame h k ps rs bs) (hp : Part.ring ∈ ps) (hb : Block.stw ∈ bs)
    (h1 : Part.pmc ∈ ps) (h2 : pmcRegs ⊆ rs) (h3 : Block.pmc ∈ bs) : Frame h k.ologLost ps rs bs := by
  unfold Hub.ologLost
  split
  · exact a
  · exact Frame.ologPut (a.upd rfl rfl rfl fun p hp' => by cases p <;> first | exact absurd hp hp' | rfl) hp hb h1 h2 h3

/-- Writing a record changes the ring, its counts and STW's header, and counts event 0x0C (R284, R286). -/
theorem Frame.ologWrite {n : Nat} {r : EvRec} (a : Frame h k ps rs bs) (hp : Part.ring ∈ ps) (hr : Reg.STW_OLOG_LOST ∈ rs)
    (hb : Block.stw ∈ bs) (h1 : Part.pmc ∈ ps) (h2 : pmcRegs ⊆ rs) (h3 : Block.pmc ∈ bs) :
    Frame h (k.ologWrite n r) ps rs bs := by
  unfold Hub.ologWrite
  split
  · exact a.ologDrop hp hr hb
  · have hx := a.ologLost hp hb h1 h2 h3
    dsimp only
    split
    · exact hx.ologDrop hp hr hb
    · exact hx.ologPut hp hb h1 h2 h3

theorem Frame.time {t : TimeBase} (a : Frame h k ps rs bs) (hp : Part.time ∈ ps) : Frame h { k with time := t } ps rs bs :=
  a.upd rfl rfl rfl fun p hp' => by cases p <;> first | exact absurd hp hp' | rfl

/-- The time base, and the scheduler state of the ports. -/
theorem Frame.timePorts {t : TimeBase} {x : Tab TssPort} (a : Frame h k ps rs bs) (hp : Part.time ∈ ps) (hq : Part.tports ∈ ps) :
    Frame h { k with time := t, tports := x } ps rs bs :=
  a.upd rfl rfl rfl fun p hp' => by cases p <;> first | exact absurd hp hp' | exact absurd hq hp' | rfl

theorem Frame.timeShow (a : Frame h k ps rs bs) (h1 : Reg.STW_TIME_RATE ∈ rs) (h2 : Reg.STW_TIME_STAT ∈ rs) :
    Frame h k.timeShow ps rs bs := (a.wr h1).wrB h2

theorem Frame.setLocked {v : Bool} (a : Frame h k ps rs bs) (hp : Part.time ∈ ps) (h1 : Reg.STW_TIME_RATE ∈ rs)
    (h2 : Reg.STW_TIME_STAT ∈ rs) (hb : Block.stw ∈ bs) : Frame h (k.setLocked v) ps rs bs := by
  have hx := (a.wrB (i := 1) (v := v) h2).attn (i := 3) hb
  unfold Hub.setLocked
  dsimp only
  split
  · exact a
  · split
    · exact hx.wrB h2
    · split
      · exact ((hx.time hp).wrB h2).timeShow h1 h2
      · exact hx

theorem Frame.freeLock (a : Frame h k ps rs bs) (hp : Part.time ∈ ps) (h1 : Reg.STW_TIME_RATE ∈ rs)
    (h2 : Reg.STW_TIME_STAT ∈ rs) (hb : Block.stw ∈ bs) : Frame h k.freeLock ps rs bs := by
  unfold Hub.freeLock
  split
  · exact a.setLocked hp h1 h2 hb
  · exact a

/-- A step of cell time (R290): cell time, the recorded step, the trigger schedules, the pending ends of gate lists, and a STEP record
of the order log. -/
theorem Frame.stepTime {d : Int} (a : Frame h k ps rs bs) (hp : [Part.time, .wide, .vin, .ring, .pmc, .tports] ⊆ ps)
    (hr : { Reg.STW_TIME_RATE, Reg.STW_TIME_STAT, Reg.STW_OLOG_LOST } ∪ trigRegs ∪ pmcRegs ⊆ rs)
    (hb : [Block.stw, .vin, .pmc] ⊆ bs) : Frame h (k.stepTime d) ps rs bs := by
  have p1 : Part.time ∈ ps := hp (by decide)
  have p2 : Part.wide ∈ ps := hp (by decide)
  have p3 : Part.vin ∈ ps := hp (by decide)
  have p4 : Part.ring ∈ ps := hp (by decide)
  have p5 : Part.pmc ∈ ps := hp (by decide)
  have p6 : Part.tports ∈ ps := hp (by decide)
  have r1 : Reg.STW_TIME_RATE ∈ rs := hr (by simp)
  have r2 : Reg.STW_TIME_STAT ∈ rs := hr (by simp)
  have r3 : Reg.STW_OLOG_LOST ∈ rs := hr (by simp)
  have r4 : trigRegs ⊆ rs := fun x hx => hr (.inl (.inr hx))
  have r5 : pmcRegs ⊆ rs := fun x hx => hr (.inr hx)
  have b1 : Block.stw ∈ bs := hb (by decide)
  have b2 : Block.vin ∈ bs := hb (by decide)
  have b3 : Block.pmc ∈ bs := hb (by decide)
  unfold Hub.stepTime
  dsimp only
  have hx := ((((a.trigStep (old := k.now) (d := d) p3 r4 b2).timePorts (t := (k.trigStep k.now d).time.shift d)
    (x := (k.trigStep k.now d).tports.map fun (e : Nat × TssPort) => (e.1, e.2.gateStep (stepped d (k.trigStep k.now d).time.ns)))
    p1 p6).wrB (i := 0) (v := true) r2).incF
    (hi := 31) (lo := 8) (n := 1) r2).wrWide (v := (d % (2 ^ 64 : Int)).toNat) (x := Reg.STW_TIME_STEP_LO) p2
  split
  · exact (((hx.ologWrite p4 r3 b1 p5 r5 b3).attn b1).timeShow r1 r2).freeLock p1 r1 r2 b1
  · exact ((hx.attn b1).timeShow r1 r2).freeLock p1 r1 r2 b1

end Sys2Proof.Machine
end

