-- ==== Sys2Proof/Tests/Base.lean ====
section
/-! SUPPORT. Small states for the tests: hubs of the three roles, and ways to set them up. -/

namespace Sys2Proof.Tests

open Sys2Proof Sys2Proof.Machine

/-- A ROOT, a TRANSIT and a LEAF right after their main die's release. -/
def rootS : State := State.reset
def transitS : State := { hub := Hub.reset { role0 := true } }
def leafS : State := { hub := Hub.reset { role1 := true } }

/-- A state with its hub changed. -/
def on (s : State) (f : Hub → Hub) : State := { s with hub := f s.hub }

/-- A ROOT whose PCIe link is up, with Bus Master Enable. -/
def host : State := on rootS fun h => h.wr Reg.PX_STAT 0x81

/-- The request `op` runs in the mailbox of block `b`, with its arguments. -/
def ask (b : Block) (op : Nat) (args : List Word) (h : Hub) : Hub :=
  h.updMbx b fun m => { m with busy := true, ticket := 7, op := op, latched := args }

/-- The same hub `n` ns later. -/
def later (n : Nat) (h : Hub) : Hub := { h with time := { h.time with up := h.time.up + n } }

/-- Every count of power channel 5's ticks is at its end. -/
def ripe (h : Hub) : Hub := h.updChan 5 fun x => { x with
  timer := 1000000
  underTicks := 9
  tempTicks := 9
  outTicks := 4
  inTicks := 9999
  waitTicks := 10000000
  pgCount := 1000000
  pgHeld := 60000000
  detTicks := 100000 }

/-- A cell's header (Table 5.3): its flags, RSEQ, FLOW, FSEQ, LEN, HCHK and pennant. -/
def header (flags rseq flow fseq : Nat) (payload : List Byte) : List Byte :=
  let b := [0xC5#8, BitVec.ofNat 8 flags] ++ beBytes 2 rseq ++ beBytes 3 flow ++ beBytes 2 fseq
    ++ [BitVec.ofNat 8 (payload.length - 1), 0#8]
  b ++ [crc8 b] ++ beBytes 4 (pennantOf payload flow fseq).toNat

end Sys2Proof.Tests
end

