-- ==== Sys2Proof/WellFormed.lean ====
section
/-! DEFINITION. Which terms are commands that the hub can be sent: the operands that the types leave wider than the spec. The meanings are
total and act on every term; nothing is claimed of an ill-formed one. -/

namespace Sys2Proof

open Machine

/-- A request of PCIe: byte enables of four bits, a tag of eight, 1 to 4,096 bytes from one 4 KiB page, and a write's data (R357). -/
def PcieReq.ok (r : PcieReq) : Bool :=
  decide (r.fbe < 16) && decide (r.lbe < 16) && decide (r.tag < 256) && decide (1 ≤ r.len) && decide (r.addr % 4096 + r.len ≤ 4096)
    && decide (r.data.length = if r.write then r.len else 0)

/-- The command's operands are in range. -/
def Instr.wellFormed (i : Instr) : Bool :=
  match i with
  | .fltStickyClear b _ event => event.elim true fun i => decide (i < sourceCount b)
  | .commitApply b w _ => decide (w < windowCount b)
  | .authFinRx _ _ digest => decide (digest.length = 48)
  | .creditAdvRx _ adv => decide (adv.length = 8)
  | .cellRx _ header data _ => decide (header.length = 16) && decide (data.length ≤ 256)
  | .macBlockRx _ code => decide (code.length = 15)
  | .creditBlockRx _ _ _ _ ret _ => decide (ret.length = 4)
  | .pageWriteRx _ _ _ _ image => decide (image.length = 256)
  | .pageDataRx _ status image => decide (image.length = if status = 0 then 256 else 0)
  | .egressDecision _ ecc => ecc.elim true fun i => decide (i < 65536)
  | .pairSyncRx words _ _ => decide (words.length = 8)
  | .lostNoticeRx _ _ _ out => decide (out.length = 8)
  | .arbiterDecision b k reqs withdraw => (arbBases b k).elim false fun l =>
      reqs.all (fun r => decide (r < l.length)) && decide reqs.Nodup && withdraw.elim true fun r => reqs.contains r
  | .arbWaitMaxClr b k => (arbBases b k).isSome
  | .auxXfer replies => decide (replies.length ≤ 8) && replies.all fun r => r.elim true fun e => decide (e.1 < 16) && decide (e.2.length ≤ 16)
  | .csiLineRx _ _ _ payload _ => decide (payload.length ≤ 65535)
  | .pcieRequestRx r => r.ok
  | .usbSplitTransaction _ _ _ _ _ _ setup _ data => decide (data.length ≤ 1024) && (!setup || decide (data.length = 8))
  | .ppcTick samples => decide (samples.length = 6)
  | .challengeMsgRx _ _ chal => decide (chal.length = 32)
  | .faultEvent b i _ _ => decide (i < sourceCount b)
  | .compactWindowEnd b i => decide (i < sourceCount b)
  | .sitTestRun t i _ _ => sitExists t i
  | .checkerLock _ errs bits => decide (errs ≤ bits)
  | .pcieLinkUp _ _ mps _ _ => [128, 256, 512].contains mps
  | .porAssert .. | .porRelease .. | .xtalSwitchover .. | .xtalStartTimeout .. | .coreEnAssert .. | .coreConfirm ..
  | .mainDieRelease .. | .vddCoreEarly .. | .supplyFault .. | .supplyRestart .. | .resetNPulse .. | .tempHigh ..
  | .thermalTrip .. | .thermalTripRelease .. | .pmbusRetry .. | .ppsInEdge .. | .ppsOutRise .. | .ppsOutFall ..
  | .refclkDetect .. | .refclkLoss .. | .cosourceWindowEnd .. | .clockRequest .. | .clockGrant .. | .idleHoldExpire ..
  | .blockReset .. | .registerWrite .. | .arbModeWrite .. | .attnRawClear .. | .commitArm .. | .commitDiscard ..
  | .mailboxReq .. | .mailboxComplete .. | .resAck .. | .nop .. | .spiReadFrame .. | .spiWriteFrame .. | .smbusBlockWrite ..
  | .smbusProcessCall .. | .mgmtCommandIgnored .. | .bar2Read .. | .bar2Write .. | .remoteAccessRx .. | .remoteAnswerRx ..
  | .remoteReadTimeout .. | .remoteReadBlock .. | .remoteWriteBlock .. | .laneAssign .. | .laneRelease .. | .laneRepair ..
  | .laneUnmap .. | .autoRepairStart .. | .repairReqRx .. | .repairReadyRx .. | .repairSwitchRx .. | .laneMove ..
  | .repairTimeout .. | .laneRelock .. | .lnSlip .. | .lnShWinWrite .. | .shWindowEnd .. | .blockLockGain ..
  | .blockLockLoss .. | .deskewComplete .. | .ppmAlarm .. | .signalDetect .. | .laneWake .. | .patCfgWrite ..
  | .lnLoopWrite .. | .injectOne .. | .patErrClr .. | .klAligned .. | .klRetrain .. | .klDown .. | .linkEnterAlign ..
  | .helloRx .. | .helloResend .. | .hubIdWrite .. | .authCertRx .. | .authKexRx .. | .authTimeout .. | .creditBlockSend ..
  | .replayTimeout .. | .recoverComplete .. | .recoverTimeout .. | .byeRx .. | .idleRequest .. | .idleReqRx ..
  | .idleAckRx .. | .idleNakRx .. | .linkWake .. | .timeExchangeStart .. | .timeReqRx .. | .timeMarkRx .. | .timeRespRx ..
  | .timeExchangeMiss .. | .peerCertRead .. | .ttExchangeNow .. | .admitRetry .. | .reasmTimeout .. | .reseqTimeout ..
  | .bankCopyDone .. | .bankTestDone .. | .bankCondemn .. | .bankDrainComplete .. | .descSweepDone .. | .ledgerCheckNow ..
  | .flowCounts .. | .flowCountsClear .. | .reseqState .. | .flowCountsExit .. | .kittyMinClr .. | .pendMaxClr ..
  | .flowCreate .. | .flowPolicy .. | .flowPin .. | .flowUnpin .. | .flowDelete .. | .flowRead .. | .flowEvict ..
  | .pageInStart .. | .slotGrant .. | .pageReadRx .. | .pageWriteAckRx .. | .pageInTimeout .. | .writebackTimeout ..
  | .foyerTimeout .. | .pagePathHoldEnd .. | .fyMaxClr .. | .fyWaitMaxClr .. | .pageLatMaxClr .. | .shaperRefill ..
  | .dealEpochBoundary .. | .dealPortDone .. | .gateEntryEnd .. | .gateArm .. | .gateCancel .. | .gateEnWrite ..
  | .gateSwitch .. | .gateBankWrite .. | .flowSchedRead .. | .gateCheck .. | .heartbeatTx .. | .heartbeatRx ..
  | .heartbeatMiss .. | .partnerLoss .. | .reconcileDataRx .. | .lostCountEnd .. | .mirrorBatchTx .. | .mirrorBatchRx ..
  | .handoverGiveRx .. | .handoverDrained .. | .handoverDrainedRx .. | .handoverTimeout .. | .pairFlowRead .. | .resync ..
  | .handover .. | .mirLagClr .. | .orderLogGrant .. | .ologMark .. | .ologCfgWrite .. | .slewEnd .. | .softAdjWrite ..
  | .timeLockTimeout .. | .timeSet .. | .timeStep .. | .dpLineRx .. | .dpCellWrite .. | .rasterLineBoundary ..
  | .activeLineStart .. | .retimeSynthDone .. | .hpdUnplug .. | .hpdIrqRx .. | .auxRequestRx .. | .linkTrain .. | .hpdIrq ..
  | .csiFrameStart .. | .csiFrameEnd .. | .csiGapTimeout .. | .triggerPulse .. | .triggerPulseEnd .. | .triggerArm ..
  | .triggerStop .. | .trigArmMask .. | .ethFrameRx .. | .ethLinkDown .. | .ethLinkUp .. | .clsEntryWrite .. | .mdioXfer ..
  | .clsLookup .. | .npReserveGrant .. | .tagGrant .. | .bridgeFrameRx .. | .bridgeMarkMet .. | .bridgeMarkTimeout ..
  | .pcieCompletionRx .. | .bridgeCplRx .. | .completionTimeout .. | .tunnelTimeout .. | .lateFrameRx .. | .msiCapture ..
  | .gpioEdge .. | .msgFrameRx .. | .mqPop .. | .fenceClr .. | .pfClr .. | .prefetchAgeExpire .. | .pcieLinkDown ..
  | .cfgXfer .. | .usbAttach .. | .usbOvercurrent .. | .usbPortResetDone .. | .u0Attach .. | .u0Detach ..
  | .usbHostTransaction .. | .leafDeviceTransaction .. | .tunnelBurstRx .. | .setupRecordRx .. | .outRecordRx ..
  | .inRecordRx .. | .resultRecordRx .. | .splitRecordRx .. | .portCmdRx .. | .portStatRx .. | .suspendRecordRx ..
  | .wakeRecordRx .. | .tunnelResendTimeout .. | .tunnelAckOnly .. | .tunnelKeepalive .. | .leafSof .. | .tunnelDead ..
  | .usbSuspend .. | .usbHostResume .. | .usbRemoteWake .. | .usbResumeEnd .. | .usbBusReset .. | .tunRestart ..
  | .usbMqPop .. | .fastTrip .. | .timerTrip .. | .gateFault .. | .tempSensorFault .. | .retryDelayExpire ..
  | .budgetRestore .. | .pgAssert .. | .inputWindowFault .. | .inputWindowReturn .. | .presenceChange .. | .pcOn ..
  | .pcOff .. | .pcClear .. | .tfetMaxClr .. | .stateReq .. | .autoDozeEntry .. | .dozeExit .. | .wakeEvent .. | .napExit ..
  | .dormantExit .. | .napHoldEnd .. | .aoBrownout .. | .wakeTimerExpire .. | .wakeCmpCross .. | .dvfsTargetWrite ..
  | .dvfsStepComplete .. | .dvfsRaiseTimeout .. | .dvfsHeldRelease .. | .aoMeasure .. | .pmuTempClr .. | .challenge ..
  | .keyUpdate .. | .keyUpdateTimeout .. | .ownerClaim .. | .certRead .. | .zeroize .. | .provisionBegin ..
  | .provisionCert .. | .keySealedRx .. | .tamperTrip .. | .tampLoopEnable .. | .vbatCheck .. | .faultnPulseEnd ..
  | .faultQuietEnd .. | .faultExit .. | .faultCountClear .. | .faultnLevelWrite .. | .bankStepDue .. | .coverageLate ..
  | .testNow .. | .coverRestart .. | .histBinUpdate .. | .hSnap .. | .hClr .. | .counterLoRead .. | .counterHiWrite ..
  | .counterLoWrite .. | .sampleCapture .. | .bwWindowEnd .. | .bwPeakRead .. | .bwTotalRead .. | .userAliasRead ..
  | .mhTimeLoRead .. | .stwTimeLoRead .. | .stwTimeStepLoRead .. | .stwPpsInLoRead .. | .ledgerTimeLoRead ..
  | .lentBufLoRead .. | .lossTimeLoRead .. | .doStartLoRead .. | .fsTimeLoRead .. | .pfFirstLoRead .. | .tampTimeLoRead ..
  | .updCtrLoRead .. | .snapTimeLoRead .. | .firmwareLoad .. | .vddCustRise .. | .pmbPgLow .. | .elasticBufferSlip ..
  | .cdrLockLoss .. | .hpdPlug .. | .dpInputLinkLoss .. | .usbDeviceDetach .. | .takeoverTimeout .. => true

end Sys2Proof
end

