-- ==== Sys2Proof/Tests/Slice0.lean ====
section
/-! SUPPORT. Tests: states that meet the hypotheses of the statements, ill-formed terms that the checks refuse, and small tests against
numbers of the spec. -/

namespace Sys2Proof.Tests

open Sys2Proof Sys2Proof.Machine

set_option maxRecDepth 100000
set_option Elab.async false

def w01_1 : State := on rootS fun h => h.wrWide Reg.STW_TIME_STEP_LO 0x500000000

def w01_2 : State := rootS

def w01_3 : State := rootS

def w01_4 : State := leafS

def w01_5 : State := rootS

def w01_6 : State := rootS

/-- The hypotheses of Obligations.LatchedReads hold somewhere, clause by clause. -/
theorem wit_latchedReads :
    (w01_1.hub.mainUp = true)
    ∧ (w01_2.hub.up .mir = true)
    ∧ (w01_3.hub.up .dse = true)
    ∧ (w01_4.hub.up .vin = true)
    ∧ (w01_5.hub.up .pxb = true)
    ∧ (w01_6.hub.up .ksi = true) := by
  and_intros <;> decide +kernel

def w02_1 : State := rootS

def w02_2 : State := rootS

def w02_3 : State := on rootS fun h => h.wr Reg.PMU_TEMP 0x3FFF

def w02_4 : State := leafS

def w02_5 : State := rootS

def w02_6 : State := rootS

def w02_7 : State := rootS

/-- The hypotheses of Obligations.RestartedCounts hold somewhere, clause by clause. -/
theorem wit_restartedCounts :
    (w02_1.hub.mainUp = true)
    ∧ (w02_2.hub.up .mir = true)
    ∧ (w02_3.hub.up .pmu = true)
    ∧ (w02_4.hub.up .ppc = true)
    ∧ (w02_5.hub.up .lnx = true)
    ∧ (w02_6.hub.up .pxb = true)
    ∧ (w02_7.hub.arbUp (Block.stw) (1) = true) := by
  and_intros <;> decide +kernel

def w03_1 : State := on rootS fun h => { h with time := { h.time with p := 3000, f := -70 } }

def w03_2 : State := on rootS fun h => { ((h.wr Reg.STW_TIME_CFG 0x00010A03).wr Reg.STW_TIME_STAT 1) with time := { h.time with up := 2000000, lastSoft := some 1000000 } }

def w03_3 : State := on rootS fun h => { ((h.wr Reg.STW_TIME_CFG 0x00010A02).wr Reg.STW_TIME_STAT 3) with time := { h.time with p := 55, f := 7, up := 3000000000 } }

def w03_4 : State := on rootS fun h => { h.wr Reg.STW_PPS_CFG 4 with time := { h.time with ns := 1000000003, up := 1003, lastPpsIn := some 3 } }

def w03_5 : State := on rootS fun h => { (h.wr Reg.STW_PPS_CFG 0x103).wr Reg.STW_TIME_STAT 3 with time := { h.time with ns := 5000000001, up := 2000, lastPpsRise := some 0 } }

def w03_6 : State := on rootS fun h => { h with pins := { h.pins with ppsOut := true } }

/-- The hypotheses of Obligations.CellTime hold somewhere, clause by clause. -/
theorem wit_cellTime :
    (w03_1.hub.mainUp = true)
    ∧ (w03_1.hub.time.p ≠ 0)
    ∧ (w03_1.hub.time.slew.natAbs * 1000000000 ≤ 16 * (w03_1.hub.time.p.natAbs * (w03_1.hub.mono - w03_1.hub.time.slewFrom)))
    ∧ (w03_2.hub.mainUp = true)
    ∧ (w03_2.hub.rdF Reg.STW_TIME_CFG 1 0 = 3)
    ∧ (w03_2.hub.rdB Reg.STW_TIME_STAT 0 = true)
    ∧ (w03_2.hub.time.lastSoft = some (1000000))
    ∧ ((1000000) = w03_2.hub.mono - (1000000))
    ∧ (1000000 ≤ (1000000))
    ∧ ((1000000) ≤ 10000000000)
    ∧ ((sword (0xFFFFFF80)).natAbs ≤ 3200)
    ∧ (w03_2.hub.rdB Reg.STW_TIME_CFG 2 = false)
    ∧ (w03_3.hub.mainUp = true)
    ∧ ((w03_3.hub.rdF Reg.STW_TIME_CFG 1 0 = 2 ∧ w03_3.hub.time.ppsOkAt.getD 0 + 3000000000 ≤ w03_3.hub.mono
      ∨ w03_3.hub.rdF Reg.STW_TIME_CFG 1 0 = 3 ∧ w03_3.hub.time.lastSoft.getD 0 + 10000000000 ≤ w03_3.hub.mono))
    ∧ (w03_3.hub.rdB Reg.STW_TIME_STAT 1 = true)
    ∧ (w03_3.hub.rdB Reg.STW_TIME_STAT 0 = true)
    ∧ (w03_4.hub.mainUp = true)
    ∧ (w03_4.hub.rdB Reg.STW_PPS_CFG 2 = true)
    ∧ ((w03_4.hub.time.lastPpsIn.all fun u => decide (1000 ≤ w03_4.hub.mono - u)) = true)
    ∧ (w03_4.hub.rdF Reg.STW_TIME_CFG 1 0 ≠ 2)
    ∧ (w03_5.hub.mainUp = true)
    ∧ (w03_5.hub.time.reached 1000000000 = true)
    ∧ (w03_5.hub.rdB Reg.STW_PPS_CFG 0 = true)
    ∧ ((w03_5.hub.rdB Reg.STW_PPS_CFG 1 = true → w03_5.hub.rdB Reg.STW_TIME_STAT 0 = true ∧ w03_5.hub.rdB Reg.STW_TIME_STAT 1 = true))
    ∧ ((w03_5.hub.time.lastPpsRise.all fun u =>
      decide (1000 * clampN 1 500000 (w03_5.hub.rdF Reg.STW_PPS_CFG 26 8) + 1000 ≤ w03_5.hub.mono - u)) = true)
    ∧ (w03_6.hub.mainUp = true)
    ∧ (w03_6.hub.pins.ppsOut = true)
    ∧ ((w03_6.hub.time.lastPpsRise.all fun u =>
      decide (u + 1000 * clampN 1 500000 (w03_6.hub.rdF Reg.STW_PPS_CFG 26 8) ≤ w03_6.hub.mono)) = true) := by
  and_intros <;> decide +kernel

def w03_7 : State := on rootS fun h => ask .stw 0x12 [500, 0] { h with time := { h.time with ns := 1500, p := 9 } }

def w03_8 : State := on rootS fun h => ask .stw 0x13 [0xFFFFFFFF, 0xFFFFFFFF] { h with time := { h.time with ns := 1500, p := 9 } }

def w03_9 : State := on rootS fun h => ask .stw 0x12 [] ((h.wr Reg.STW_TIME_CFG 1).wr Reg.STW_TIME_STAT 2)

def w03_10 : State := on rootS fun h => ask .stw 0x13 [] ((h.wr Reg.STW_TIME_CFG 1).wr Reg.STW_TIME_STAT 2)

/-- The hypotheses of Obligations.TimeOperations hold somewhere, clause by clause. -/
theorem wit_timeOperations :
    (w03_7.hub.opRunning .stw 0x12 = true)
    ∧ ((w03_7.hub.rdF Reg.STW_TIME_CFG 1 0 ≠ 1 ∨ w03_7.hub.rdB Reg.STW_TIME_STAT 1 = false))
    ∧ ((2000) = (w03_7.hub.time.ns / 1000 + 1) * 1000)
    ∧ ((2000) < 2 ^ 64)
    ∧ ((-1000) = ((join64 (w03_7.hub.arg .stw 0) (w03_7.hub.arg .stw 1) + ((2000) - w03_7.hub.time.ns) : Nat) : Int) - (2000))
    ∧ (w03_8.hub.opRunning .stw 0x13 = true)
    ∧ ((w03_8.hub.rdF Reg.STW_TIME_CFG 1 0 ≠ 1 ∨ w03_8.hub.rdB Reg.STW_TIME_STAT 1 = false))
    ∧ ((-1) = (BitVec.ofNat 64 (join64 (w03_8.hub.arg .stw 0) (w03_8.hub.arg .stw 1))).toInt)
    ∧ (w03_9.hub.rdF Reg.STW_TIME_CFG 1 0 = 1)
    ∧ (w03_9.hub.rdB Reg.STW_TIME_STAT 1 = true)
    ∧ (w03_9.hub.opRunning .stw 0x12 = true)
    ∧ (w03_10.hub.rdF Reg.STW_TIME_CFG 1 0 = 1)
    ∧ (w03_10.hub.rdB Reg.STW_TIME_STAT 1 = true)
    ∧ (w03_10.hub.opRunning .stw 0x13 = true) := by
  and_intros <;> decide +kernel

def w04_1 : State := on rootS fun h => h.wr Reg.STW_OLOG_CFG 1

def w04_2 : State := on rootS fun h => { h.wr Reg.STW_OLOG_CFG 1 with olog := { h.olog with fifos := h.olog.fifos.set .usb { recs := [⟨0, 3, 0⟩] } } }

def w04_3 : State := on rootS fun h => { h.wr Reg.STW_OLOG_CFG 1 with olog := { h.olog with next := 1023, fifos := h.olog.fifos.set .sit { recs := [⟨0, 3, 0⟩] } } }

/-- The hypotheses of Obligations.OrderLog hold somewhere, clause by clause. -/
theorem wit_orderLog :
    (w04_1.hub.mainUp = true)
    ∧ (w04_1.hub.rdB Reg.STW_OLOG_CFG 0 = true)
    ∧ ((w04_1.hub.olog.fifos.get .stw).lost = 0)
    ∧ ((w04_1.hub.olog.fifos.get .stw).recs.length < 16)
    ∧ (w04_2.hub.mainUp = true)
    ∧ (w04_3.hub.mainUp = true)
    ∧ (w04_3.hub.rdB Reg.STW_OLOG_CFG 0 = true)
    ∧ (w04_3.hub.olog.lostRun = 0)
    ∧ (w04_3.hub.ologFull = false)
    ∧ (w04_3.hub.ologReqs = [(Block.sit).idx])
    ∧ (w04_3.hub.olog.fifos.get (Block.sit) = { recs := ((⟨0, 3, 0⟩ : EvRec)) :: (([] : List EvRec)) })
    ∧ ((w04_3.hub.arb .stw 1).steps.length = 17) := by
  and_intros <;> decide +kernel

def w04_4 : State := rootS

def w04_5 : State := rootS

def w04_6 : State := rootS

def w04_7 : State := on rootS fun h => h.setArb .ksi 0 { h.arb .ksi 0 with parked := true }

/-- The hypotheses of Obligations.ArbiterDecision hold somewhere, clause by clause. -/
theorem wit_arbiterDecision :
    (w04_4.hub.arbUp (Block.kll) (8) = true)
    ∧ ((w04_4.hub.arb (Block.kll) (8)).parked = false)
    ∧ ((w04_4.hub.arb (Block.kll) (8)).held = false)
    ∧ (w04_4.hub.arbChoose (Block.kll) (8) ([0, 2, 4]) = some (2))
    ∧ ((2) < (w04_4.hub.arb (Block.kll) (8)).steps.length)
    ∧ (w04_5.hub.arbUp (Block.kll) (8) = true)
    ∧ ((w04_5.hub.arb (Block.kll) (8)).parked = false)
    ∧ ((w04_5.hub.arb (Block.kll) (8)).held = false)
    ∧ (w04_5.hub.arbChoose (Block.kll) (8) ([0, 2, 4]) = some (2))
    ∧ ((2) < (w04_5.hub.arb (Block.kll) (8)).steps.length)
    ∧ (w04_6.hub.arbUp (Block.ksi) (0) = true)
    ∧ (w04_7.hub.arbUp (Block.ksi) (0) = true)
    ∧ ((w04_7.hub.arb (Block.ksi) (0)).parked = true) := by
  and_intros <;> decide +kernel

def w04_8 : State := rootS

def w04_9 : State := on rootS fun h => { h.updHdr .pmu fun x => { x with arbMode := 0 } with pend := [(0x21FD010, 7)] }

/-- The hypotheses of Obligations.ArbiterMode hold somewhere, clause by clause. -/
theorem wit_arbiterMode :
    (w04_8.hub.answers (Block.usb) = true)
    ∧ (((w04_8.hub.hdr (Block.usb)).arbMode = 1 ∨ ((3 : BitVec 2)) ≠ 1))
    ∧ (w04_9.hub.answers (Block.pmu) = true)
    ∧ ((w04_9.hub.hdr (Block.pmu)).arbMode ≠ 1)
    ∧ (w04_9.hub.pend = [((0x21FD010), ((7 : Word)))])
    ∧ ((Block.pmu).base + 0xFD000 ≤ (0x21FD010))
    ∧ ((0x21FD010) < (Block.pmu).base + 0xFE000) := by
  and_intros <;> decide +kernel

def w05_1 : State := rootS

def w05_2 : State := on rootS fun h => h.wr (fsCfg .tss 3) 0x000FA012

def w05_3 : State := on rootS fun h => { (h.wr (fsCfg .tss 3) 0x000FA012).updHdr .tss fun x => { x with flt := x.flt.set 3 { win := 3 } } with time := { up := 90000000000 } }

def w05_4 : State := rootS

def w05_5 : State := on rootS fun h => h.wr Reg.SIT_PROFILE 1

def w05_6 : State := rootS

/-- The hypotheses of Obligations.FaultEvent hold somewhere, clause by clause. -/
theorem wit_faultEvent :
    (w05_1.hub.answers (Block.tss) = true)
    ∧ ((3) < nSources (Block.tss))
    ∧ ((3) < (w05_1.hub.hdr (Block.tss)).flt.length)
    ∧ (((Block.tss) ≠ .tsc ∨ (3) ≠ 1))
    ∧ (w05_2.hub.answers (Block.tss) = true)
    ∧ ((3) < nSources (Block.tss))
    ∧ ((3) < (w05_2.hub.hdr (Block.tss)).flt.length)
    ∧ (w05_2.hub.profile = false)
    ∧ (((Block.tss) ≠ .tsc ∨ (3) ≠ 1))
    ∧ ((atD (w05_2.hub.hdr (Block.tss)).flt (3) {}).winOver (w05_2.hub.fltW (Block.tss) (3)) w05_2.hub.mono = false)
    ∧ ((atD (w05_2.hub.hdr (Block.tss)).flt (3) {}).win + 1 < w05_2.hub.fltN (Block.tss) (3))
    ∧ (w05_3.hub.answers (Block.tss) = true)
    ∧ ((3) < nSources (Block.tss))
    ∧ ((3) < (w05_3.hub.hdr (Block.tss)).flt.length)
    ∧ (w05_3.hub.profile = false)
    ∧ (((Block.tss) ≠ .tsc ∨ (3) ≠ 1))
    ∧ ((atD (w05_3.hub.hdr (Block.tss)).flt (3) {}).winOver (w05_3.hub.fltW (Block.tss) (3)) w05_3.hub.mono = true)
    ∧ (1 < w05_3.hub.fltN (Block.tss) (3))
    ∧ (w05_4.hub.answers (Block.tsc) = true)
    ∧ ((0) < nSources (Block.tsc))
    ∧ ((0) < (w05_4.hub.hdr (Block.tsc)).flt.length)
    ∧ (w05_4.hub.profile = false)
    ∧ ((atD (w05_4.hub.hdr (Block.tsc)).flt (0) {}).winOver (w05_4.hub.fltW (Block.tsc) (0)) w05_4.hub.mono = false)
    ∧ (w05_4.hub.fltN (Block.tsc) (0) ≤ (atD (w05_4.hub.hdr (Block.tsc)).flt (0) {}).win + 1)
    ∧ ((atD (w05_4.hub.hdr (Block.tsc)).flt (0) {}).cls < 3)
    ∧ (w05_5.hub.answers (Block.sit) = true)
    ∧ ((2) < nSources (Block.sit))
    ∧ ((2) < (w05_5.hub.hdr (Block.sit)).flt.length)
    ∧ (w05_5.hub.profile = true)
    ∧ (w05_6.hub.answers (Block.sit) = true)
    ∧ ((6) < nSources (Block.sit))
    ∧ (((fltCatalogue (Block.sit)).getD (6) (0, false, false)).2.2 = true) := by
  and_intros <;> decide +kernel

def w05_7 : State := rootS

def w05_8 : State := rootS

def w05_9 : State := rootS

def w05_10 : State := rootS

/-- The hypotheses of Obligations.MemoryErrors hold somewhere, clause by clause. -/
theorem wit_memoryErrors :
    (w05_7.hub.mainUp = true)
    ∧ (w05_8.hub.mainUp = true)
    ∧ (w05_9.hub.mainUp = true)
    ∧ (w05_10.hub.mainUp = true) := by
  and_intros <;> decide +kernel

def w05_11 : State := on rootS fun h => { h with time := { up := 90000000000 } }.updHdr .kll fun x => { x with flt := x.flt.set 5 { win := 3, cls := 1 } }

def w05_12 : State := on rootS fun h => { h with time := { up := 90000000000000 } }.updHdr .kll fun x => { x with flt := x.flt.set 5 { win := 3, cls := 1, count := 9 }, inFault := true, recovery := 0xFFFFFFFF }

def w05_13 : State := on rootS fun h => { h with time := { up := 90000000000000 } }.updHdr .kll fun x => { x with flt := x.flt.set 5 { win := 3, cls := 1, count := 9 }, inFault := true, recovery := 0xFFFFFFFF }

def w05_14 : State := on rootS fun h => h.updHdr .kll fun x => { x with flt := x.flt.set 5 { win := 3, cls := 1, count := 9 } }

def w05_15 : State := on rootS fun h => { h with pins := { h.pins with faultPulse := some 3 }, time := { up := 3 } }

def w05_16 : State := rootS

def w05_17 : State := rootS

def w05_18 : State := on rootS fun h => h.updHdr .pmu fun x => { x with sticky := 0x7F }

def w05_19 : State := on rootS fun h => h.updHdr .pmu fun x => { x with sticky := 0x7F }

/-- The hypotheses of Obligations.FaultClearing hold somewhere, clause by clause. -/
theorem wit_faultClearing :
    (w05_11.hub.answers (Block.kll) = true)
    ∧ ((atD (w05_11.hub.hdr (Block.kll)).flt (5) {}).win ≠ 0)
    ∧ ((atD (w05_11.hub.hdr (Block.kll)).flt (5) {}).winOver (w05_11.hub.fltW (Block.kll) (5)) w05_11.hub.mono = true)
    ∧ (w05_12.hub.answers (Block.kll) = true)
    ∧ ((w05_12.hub.hdr (Block.kll)).inFault = true)
    ∧ ((w05_12.hub.hdr (Block.kll)).heldLive = false)
    ∧ (w05_12.hub.quietLeft (Block.kll) = 0)
    ∧ (w05_13.hub.answers (Block.kll) = true)
    ∧ ((w05_13.hub.hdr (Block.kll)).inFault = true)
    ∧ ((w05_13.hub.hdr (Block.kll)).heldLive = false)
    ∧ (w05_14.hub.answers (Block.kll) = true)
    ∧ (w05_15.hub.custodyUp = true)
    ∧ (w05_15.hub.pins.faultPulse = some (3))
    ∧ ((3) ≤ w05_15.hub.mono)
    ∧ (w05_16.hub.custodyUp = true)
    ∧ (w05_17.hub.answers (Block.pmu) = true)
    ∧ (w05_18.hub.answers (Block.pmu) = true)
    ∧ (w05_19.hub.answers (Block.pmu) = true)
    ∧ ((6) < nSources (Block.pmu)) := by
  and_intros <;> decide +kernel

def w06_1 : State := on rootS fun h => h.updMbx .sit fun m => { m with ticket := 255, args := [1,2,3,4,5,6] }

def w06_2 : State := on rootS fun h => ask .sit 0x10 [] h

def w06_3 : State := on rootS fun h => ask .usb 0 [] h

def w06_4 : State := on rootS fun h => (ask .tsc 0x11 [] h).updMbx .tsc fun m => { m with result := some (mbxErr 2) }

def w06_5 : State := on rootS fun h => ask .vin 0x10 [] h

def w06_6 : State := on rootS fun h => h.updMbx .ksi fun m => { m with ticket := 255, ready := true, err := true }

def w06_7 : State := on rootS fun h => ask .pmu 0x12 [] h

/-- The hypotheses of Obligations.MailboxCommands hold somewhere, clause by clause. -/
theorem wit_mailboxCommands :
    (w06_1.hub.answers (Block.sit) = true)
    ∧ (w06_1.hub.pathOpen (Path.steward) = true)
    ∧ (¬ ((Block.sit) = .pmu ∧ (Path.steward) = .smbus))
    ∧ ((w06_1.hub.mbx (Block.sit)).busy = false)
    ∧ (w06_2.hub.answers (Block.sit) = true)
    ∧ (w06_2.hub.pathOpen (Path.bar0) = true)
    ∧ (¬ ((Block.sit) = .pmu ∧ (Path.bar0) = .smbus))
    ∧ ((w06_2.hub.mbx (Block.sit)).busy = true)
    ∧ (w06_3.hub.opRunning (Block.usb) 0 = true)
    ∧ (w06_4.hub.answers (Block.tsc) = true)
    ∧ ((w06_4.hub.mbx (Block.tsc)).busy = true)
    ∧ (opDefined (Block.tsc) (w06_4.hub.mbx (Block.tsc)).op = true)
    ∧ ((w06_4.hub.mbx (Block.tsc)).result = some ((mbxErr 2)))
    ∧ (w06_5.hub.answers (Block.vin) = true)
    ∧ ((w06_5.hub.mbx (Block.vin)).busy = true)
    ∧ (opDefined (Block.vin) (w06_5.hub.mbx (Block.vin)).op = false)
    ∧ (w06_6.hub.answers (Block.ksi) = true)
    ∧ ((w06_6.hub.mbx (Block.ksi)).ready = true)
    ∧ (((255 : BitVec 8)).toNat = (w06_6.hub.mbx (Block.ksi)).ticket)
    ∧ (w06_7.hub.answers (Block.pmu) = true)
    ∧ (w06_7.hub.pathOpen (Path.smbus) = true) := by
  and_intros <;> decide +kernel

def w06_8 : State := rootS

def w06_9 : State := on rootS fun h => { h with pend := [(Reg.STW_TIME_CFG, 1), (Reg.SIT_PROFILE, 1)] }

def w06_10 : State := on rootS fun h => { h.updHdr .ksi fun x => { x with waiting := [0] } with pend := [(0x2200000 + 0xFE000, 7)], time := { up := 100 } }

def w06_11 : State := on rootS fun h => { h.updHdr .ksi fun x => { x with waiting := [0], armedAt := 1 } with time := { up := 110 } }

def w06_12 : State := on rootS fun h => { h with time := { ns := 1500, up := 2000 } }.updHdr .pmu fun x => { x with waiting := [0], missed := 0xFFFF, overdue := [0], armedAt := 0 }

def w06_13 : State := on rootS fun h => { h with time := { ns := 1500, up := 2000 } }.updHdr .pmu fun x => { x with waiting := [0], missed := 0xFFFF, overdue := [0], armedAt := 0 }

/-- The hypotheses of Obligations.Commits hold somewhere, clause by clause. -/
theorem wit_commits :
    (w06_8.hub.answers (Block.lnx) = true)
    ∧ ((w06_8.hub.hdr (Block.lnx)).waiting = [])
    ∧ (w06_9.hub.answers (Block.sit) = true)
    ∧ (w06_10.hub.custodyUp = true)
    ∧ ((Block.ksi) = .pmu ∨ (Block.ksi) = .ksi)
    ∧ ((w06_10.hub.hdr (Block.ksi)).waiting = [0])
    ∧ ((w06_10.hub.hdr (Block.ksi)).overdue = [])
    ∧ (w06_10.hub.window (Block.ksi) 0 (0) = .applies false)
    ∧ (w06_10.hub.pend = [((0x2200000 + 0xFE000), ((7 : Word)))])
    ∧ ((Block.ksi).base ≤ (0x2200000 + 0xFE000))
    ∧ ((0x2200000 + 0xFE000) < (Block.ksi).base + 0x100000)
    ∧ ((0x2200000 + 0xFE000) ≠ Reg.PMU_DVFS)
    ∧ (w06_11.hub.custodyUp = true)
    ∧ ((w06_11.hub.hdr .ksi).waiting = [0])
    ∧ (w06_11.hub.mono < (w06_11.hub.hdr .ksi).armedAt + 100 + (10))
    ∧ ((w06_11.hub.hdr .ksi).armedAt + (10) ≤ w06_11.hub.mono)
    ∧ (w06_12.hub.custodyUp = true)
    ∧ ((Block.pmu) = .pmu ∨ (Block.pmu) = .ksi)
    ∧ ((w06_12.hub.hdr (Block.pmu)).waiting = [0])
    ∧ (w06_12.hub.pend = [])
    ∧ ((w06_12.hub.hdr (Block.pmu)).overdue = [0])
    ∧ (w06_12.hub.window (Block.pmu) 0 (0) ≠ .shut)
    ∧ (w06_12.hub.window (Block.pmu) 0 (0) ≠ .missed)
    ∧ (w06_13.hub.answers (Block.pmu) = true)
    ∧ ((w06_13.hub.hdr (Block.pmu)).waiting.contains (0) = true) := by
  and_intros <;> decide +kernel

def w06_14 : State := on rootS fun h => (h.wr Reg.TSS_DEAL_CFG 1)

def w06_15 : State := on rootS fun h => { h.updHdr .tss fun x => { x with waiting := [0], armedAt := 1 } with pend := [(Reg.TSS_EPOCH, 5)], time := { ns := 10000000, up := 1001 } }

/-- The hypotheses of Obligations.EpochBoundary hold somewhere, clause by clause. -/
theorem wit_epochBoundary :
    (w06_14.hub.mainUp = true)
    ∧ (w06_14.hub.power.state = .run)
    ∧ (w06_14.hub.rdB Reg.TSC_LEDGER_STAT 2 = false)
    ∧ ((w06_14.hub.hdr .tsc).waiting = [])
    ∧ ((w06_14.hub.hdr .tss).waiting = [])
    ∧ ((w06_14.hub.hdr .fcm).waiting = [])
    ∧ (w06_14.hub.paging.policy = [])
    ∧ (w06_14.hub.rdB Reg.TSS_DEAL_CFG 0 = true)
    ∧ (w06_14.hub.time.reached w06_14.hub.epochNs = true)
    ∧ (w06_15.hub.mainUp = true)
    ∧ (w06_15.hub.power.state = .run)
    ∧ ((w06_15.hub.hdr .tsc).waiting = [])
    ∧ ((w06_15.hub.hdr .tss).waiting = [0])
    ∧ ((w06_15.hub.hdr .tss).armedAt + 1000 ≤ w06_15.hub.mono)
    ∧ ((w06_15.hub.hdr .fcm).waiting = [])
    ∧ (w06_15.hub.paging.policy = [])
    ∧ (w06_15.hub.pend = [(Reg.TSS_EPOCH, ((5 : Word)))])
    ∧ (w06_15.hub.time.reached w06_15.hub.epochNs = true) := by
  and_intros <;> decide +kernel

def w07_1 : State := leafS

def w07_2 : State := rootS

def w07_3 : State := rootS

def w07_4 : State := rootS

def w07_5 : State := rootS

def w07_6 : State := rootS

def w07_7 : State := rootS

def w07_8 : State := rootS

def w07_9 : State := rootS

def w07_10 : State := on rootS fun h => h.updPower fun p => { p with phase := .rails }

def w07_11 : State := on rootS fun h => h.updPower fun p => { p with state := .off }

def w07_12 : State := rootS

def w07_13 : State := rootS

def w07_14 : State := rootS

def w07_15 : State := rootS

def w07_16 : State := rootS

def w07_17 : State := rootS

/-- The hypotheses of Obligations.RegisterPaths hold somewhere, clause by clause. -/
theorem wit_registerPaths :
    (w07_1.hub.mainUp = true)
    ∧ (w07_1.hub.pathOpen (Path.steward) = true)
    ∧ ((BitVec.ofNat 26 (Block.sit.base + 0x14)).toNat = (Block.sit).base + 0x14)
    ∧ (w07_2.hub.mainUp = true)
    ∧ (w07_2.hub.power.state = .run)
    ∧ (w07_2.hub.pathOpen (Path.bar0) = true)
    ∧ (w07_3.hub.mainUp = true)
    ∧ (w07_3.hub.pathOpen (Path.spi) = true)
    ∧ (w07_3.hub.present (Block.ppc) = false)
    ∧ ((Block.ppc).base + 0x1000 ≤ (BitVec.ofNat 26 (Block.ppc.base + 0xFDFFC)).toNat)
    ∧ ((BitVec.ofNat 26 (Block.ppc.base + 0xFDFFC)).toNat < (Block.ppc).base + 0xFE000)
    ∧ (w07_4.hub.pathOpen (Path.spi) = true)
    ∧ (w07_5.hub.mainUp = true)
    ∧ ((BitVec.ofNat 32 (Block.usb.base + 0x48)).toNat = (Block.usb).base + 0x48)
    ∧ ((w07_5.hub.mbx (Block.usb)).args.length = 6)
    ∧ (w07_6.hub.mainUp = true)
    ∧ (w07_7.hub.mainUp = true)
    ∧ (w07_8.hub.mainUp = true)
    ∧ ((7) % 4 ≠ 0)
    ∧ (w07_9.hub.mainUp = true)
    ∧ ((BitVec.ofNat 32 (Block.usb.base)).toNat = (Block.usb).base)
    ∧ (w07_10.hub.power.phase ≠ .por)
    ∧ (w07_10.hub.power.state ≠ .off)
    ∧ (((Block.ksi).custody = true ∨ w07_10.hub.mainUp = true))
    ∧ ((BitVec.ofNat 32 (Block.ksi.base + 0x14)).toNat = (Block.ksi).base + 0x14)
    ∧ (w07_11.hub.power.phase ≠ .por)
    ∧ (((Block.ksi).custody = true ∨ w07_11.hub.mainUp = true))
    ∧ ((BitVec.ofNat 32 Block.ksi.base).toNat = (Block.ksi).base)
    ∧ (w07_12.hub.power.phase ≠ .por)
    ∧ (pecGood ((none : Option Byte)) (w07_12.hub.smbWriteBytes (BitVec.ofNat 32 (Block.ksi.base + 0x14)) ((1 : Word))) = true)
    ∧ ((BitVec.ofNat 32 (Block.ksi.base + 0x14)).toNat ≠ Block.pmu.base + 0x40)
    ∧ (w07_13.hub.power.phase ≠ .por)
    ∧ (pecGood ((some (crc8 ((State.reset.hub).smbWriteBytes 0 0) + 1) : Option Byte)) (w07_13.hub.smbWriteBytes ((0 : Word)) ((0 : Word))) = false)
    ∧ (w07_14.hub.power.phase ≠ .por)
    ∧ (pecGood ((some (crc8 ((State.reset.hub).smbReadBytes 0)) : Option Byte)) (w07_14.hub.smbReadBytes ((0 : Word))) = true)
    ∧ (w07_15.hub.power.phase ≠ .por)
    ∧ (pecGood ((some (crc8 ((State.reset.hub).smbReadBytes 0) + 1) : Option Byte)) (w07_15.hub.smbReadBytes ((0 : Word))) = false)
    ∧ (((0x10 : Byte)) ≠ 0x0B)
    ∧ (((0x10 : Byte)) ≠ 0x02)
    ∧ (((0x02 : Byte)) ≠ 0x10)
    ∧ (((0x02 : Byte)) ≠ 0x11)
    ∧ (w07_17.hub.power.phase ≠ .por) := by
  and_intros <;> decide +kernel

def w07_18 : State := host

def w07_19 : State := host

def w07_20 : State := host

def w07_21 : State := host

def w07_22 : State := on host fun h => ((h.wr Reg.STW_REMOTE_SEL 9).wr (Reg.KL_ROUTE 1) 0x00100005).wr (Reg.KL_STATE 1) 5

def w07_23 : State := on host fun h => h.wr Reg.STW_REMOTE_SEL 9

def w07_24 : State := on host fun h => h.updRemote fun x => { x with tags := [(31, ⟨9, 4, false, 0, 0, .read 77 false⟩)] }

def w07_25 : State := on host fun h => { h with time := { up := 100000000 } }.updRemote fun x => { x with tags := [(31, ⟨9, 4, false, 0, 0, .read 77 false⟩)] }

def w07_26 : State := on host fun h => h.updRemote fun x => { x with tags := [(31, ⟨9, 4, false, 0, 0, .read 77 false⟩)] }

def w07_27 : State := rootS

def w07_28 : State := on host fun h => { h with time := { up := 100000000 } }.updRemote fun x => { x with tags := [(31, ⟨9, 4, false, 0, 0, .read 77 false⟩)] }

def w07_29 : State := rootS

def w07_30 : State := rootS

def w07_31 : State := rootS

def w07_32 : State := leafS

/-- The hypotheses of Obligations.RemoteAccesses hold somewhere, clause by clause. -/
theorem wit_remoteAccesses :
    (w07_18.hub.hostLink = true)
    ∧ (w07_19.hub.hostLink = true)
    ∧ (w07_20.hub.hostLink = true)
    ∧ (w07_20.hub.rdF Reg.STW_REMOTE_SEL 13 0 = 0)
    ∧ ((BitVec.ofNat 26 Block.pmu.base).toNat = (Block.pmu).base)
    ∧ (w07_21.hub.hostLink = true)
    ∧ (w07_21.hub.rdF Reg.STW_REMOTE_SEL 13 0 = 0)
    ∧ ((BitVec.ofNat 26 (Block.pmu.base + 0x14)).toNat = (Block.pmu).base + 0x14)
    ∧ (w07_22.hub.hostLink = true)
    ∧ (w07_22.hub.rdF Reg.STW_REMOTE_SEL 13 0 ≠ 0)
    ∧ ((w07_22.hub.route (w07_22.hub.rdF Reg.STW_REMOTE_SEL 13 0)).isSome = true)
    ∧ (w07_22.hub.remote.waiting = [])
    ∧ (w07_22.hub.remote.left = 0)
    ∧ (w07_22.hub.remote.tags = [])
    ∧ ((w07_22.hub.mbx .stw).busy = false)
    ∧ (w07_23.hub.hostLink = true)
    ∧ (w07_23.hub.rdF Reg.STW_REMOTE_SEL 13 0 ≠ 0)
    ∧ (w07_23.hub.route (w07_23.hub.rdF Reg.STW_REMOTE_SEL 13 0) = none)
    ∧ (w07_23.hub.remote.waiting = [])
    ∧ (w07_23.hub.remote.left = 0)
    ∧ ((w07_23.hub.mbx .stw).busy = false)
    ∧ (bit (w07_23.hub.hdr .stw).attnRaw 1 = false)
    ∧ (w07_24.hub.mainUp = true)
    ∧ (w07_24.hub.rdB Reg.PX_STAT 0 = true)
    ∧ (w07_24.hub.remote.tags = [(((31 : Fin 32)).val, ((⟨9, 4, false, 0, 0, .read 77 false⟩ : RemoteReq)))])
    ∧ (((⟨9, 4, false, 0, 0, .read 77 false⟩ : RemoteReq)).hub = ((9 : BitVec 14)).toNat)
    ∧ (((⟨9, 4, false, 0, 0, .read 77 false⟩ : RemoteReq)).use = .read ((77 : Nat)) false)
    ∧ (w07_24.hub.remote.waiting = [])
    ∧ (w07_24.hub.remote.left = 0)
    ∧ ((w07_24.hub.mbx .stw).busy = false)
    ∧ (w07_25.hub.mainUp = true)
    ∧ (w07_25.hub.rdB Reg.PX_STAT 0 = true)
    ∧ (w07_25.hub.remote.tags = [(((31 : Fin 32)).val, ((⟨9, 4, false, 0, 0, .read 77 false⟩ : RemoteReq)))])
    ∧ (((⟨9, 4, false, 0, 0, .read 77 false⟩ : RemoteReq)).use = .read ((77 : Nat)) false)
    ∧ (w07_25.hub.remote.waiting = [])
    ∧ (w07_25.hub.remote.left = 0)
    ∧ ((w07_25.hub.mbx .stw).busy = false)
    ∧ (((⟨9, 4, false, 0, 0, .read 77 false⟩ : RemoteReq)).since + 1000 * w07_25.hub.remoteTmo ≤ w07_25.hub.mono)
    ∧ (w07_26.hub.mainUp = true)
    ∧ (Tab.find w07_26.hub.remote.tags ((31 : Fin 32)) = some ((⟨9, 4, false, 0, 0, .read 77 false⟩ : RemoteReq)))
    ∧ (((⟨9, 4, false, 0, 0, .read 77 false⟩ : RemoteReq)).hub = ((9 : BitVec 14)).toNat)
    ∧ (w07_27.hub.mainUp = true)
    ∧ (((2 : BitVec 2)) ≠ 0)
    ∧ (w07_28.hub.mainUp = true)
    ∧ (Tab.find w07_28.hub.remote.tags ((31 : Fin 32)) = some ((⟨9, 4, false, 0, 0, .read 77 false⟩ : RemoteReq)))
    ∧ (((⟨9, 4, false, 0, 0, .read 77 false⟩ : RemoteReq)).since + 1000 * w07_28.hub.remoteTmo ≤ w07_28.hub.mono)
    ∧ (w07_29.hub.mainUp = true)
    ∧ (w07_29.hub.straps.err = false)
    ∧ (w07_29.hub.refusesRemote ((0x103000 : Word)).toNat ((some 1 : Option Word)).isSome (true) = true)
    ∧ (w07_30.hub.mainUp = true)
    ∧ (w07_30.hub.straps.err = false)
    ∧ (w07_31.hub.mainUp = true)
    ∧ (w07_31.hub.straps.err = false)
    ∧ (w07_31.hub.refusesRemote ((0x14 : Word)).toNat false (false) = false)
    ∧ ((((State.reset.hub.fresh).readWord .bar2 (0x14 : Word).toNat).1) = (w07_31.hub.fresh.readWord .bar2 ((0x14 : Word)).toNat).1)
    ∧ (w07_32.hub.mainUp = true)
    ∧ (w07_32.hub.straps.err = false)
    ∧ (((0x14 : Word)).toNat = (Block.stw).base + 0x14) := by
  and_intros <;> decide +kernel

def w07_33 : State := on rootS fun h => ask .stw 0x10 [0, 0, 257] h

def w07_34 : State := on rootS fun h => ask .stw 0x11 [0, 0, 0xFFFFFFFF] h

def w07_35 : State := host

def w07_36 : State := on leafS fun h => h.wr Reg.PX_STAT 1

def w07_37 : State := host

def w07_38 : State := on rootS fun h => ask .stw 0x10 [0, 0, 257] h

def w07_39 : State := on rootS fun h => ask .stw 0x11 [0, 0, 0xFFFFFFFF] h

def w07_40 : State := on rootS fun h => ask .stw 0x10 [0, BitVec.ofNat 32 Block.usb.base, 1] h

def w07_41 : State := on rootS fun h => (ask .stw 0x11 [0, BitVec.ofNat 32 (Block.usb.base + 0x14), 1] h).wr (Reg.STW_BLK_DATA 0) 0xABC

def w07_42 : State := host

def w07_43 : State := host

/-- The hypotheses of Obligations.HostAndBlockAccesses hold somewhere, clause by clause. -/
theorem wit_hostAndBlockAccesses :
    (w07_33.hub.opRunning .stw 0x10 = true)
    ∧ (w07_33.hub.remote.left = 0)
    ∧ (w07_34.hub.opRunning .stw 0x11 = true)
    ∧ (w07_34.hub.remote.left = 0)
    ∧ (w07_35.hub.hostLink = true)
    ∧ (w07_36.hub.works .pxb = true)
    ∧ (w07_36.hub.pxLink = true)
    ∧ (w07_36.hub.mainUp = true)
    ∧ ((w07_36.hub.straps.role = .leaf ∨ 4 ≤ (({ bar := 0, write := false, addr := 0x100, len := 4, fbe := 15, lbe := 0, tag := 9, data := [] } : PcieReq)).bar))
    ∧ (w07_36.hub.aliasPage (({ bar := 0, write := false, addr := 0x100, len := 4, fbe := 15, lbe := 0, tag := 9, data := [] } : PcieReq)).addr = false)
    ∧ (w07_37.hub.works .pxb = true)
    ∧ (w07_37.hub.pxLink = true)
    ∧ (w07_37.hub.mainUp = true)
    ∧ (w07_37.hub.straps.role = .root)
    ∧ ((({ bar := 2, write := false, addr := 0x100, len := 4, fbe := 15, lbe := 0, tag := 9, data := [] } : PcieReq)).bar = 2)
    ∧ (w07_38.hub.opRunning .stw 0x10 = true)
    ∧ (w07_38.hub.remote.left = 0)
    ∧ (256 < (w07_38.hub.arg .stw 2).toNat)
    ∧ (w07_39.hub.opRunning .stw 0x11 = true)
    ∧ (w07_39.hub.remote.left = 0)
    ∧ (256 < (w07_39.hub.arg .stw 2).toNat)
    ∧ (w07_40.hub.opRunning .stw 0x10 = true)
    ∧ (w07_40.hub.remote.left = 0)
    ∧ (w07_40.hub.arg .stw 0 = 0)
    ∧ ((w07_40.hub.arg .stw 1).toNat = (Block.usb).base)
    ∧ (w07_40.hub.arg .stw 2 = 1)
    ∧ (w07_40.hub.present .stw = true)
    ∧ (w07_41.hub.opRunning .stw 0x11 = true)
    ∧ (w07_41.hub.remote.left = 0)
    ∧ (w07_41.hub.arg .stw 0 = 0)
    ∧ ((w07_41.hub.arg .stw 1).toNat = (Block.usb).base + 0x14)
    ∧ (w07_41.hub.arg .stw 2 = 1)
    ∧ (w07_42.hub.hostLink = true)
    ∧ (w07_42.hub.rdF Reg.STW_REMOTE_SEL 13 0 = 0)
    ∧ (w07_42.hub.rdB Reg.PMC_CTL 0 = false)
    ∧ (w07_43.hub.straps.role = .root)
    ∧ (w07_43.hub.works .pxb = true)
    ∧ (w07_43.hub.pxLink = true)
    ∧ (w07_43.hub.mainUp = true)
    ∧ ((({ bar := 0, write := false, addr := Block.eth.base, len := 4, fbe := 15, lbe := 0, tag := 9, data := [] } : PcieReq)).bar = 0)
    ∧ ((({ bar := 0, write := false, addr := Block.eth.base, len := 4, fbe := 15, lbe := 0, tag := 9, data := [] } : PcieReq)).write = false)
    ∧ ((({ bar := 0, write := false, addr := Block.eth.base, len := 4, fbe := 15, lbe := 0, tag := 9, data := [] } : PcieReq)).len = 4)
    ∧ ((({ bar := 0, write := false, addr := Block.eth.base, len := 4, fbe := 15, lbe := 0, tag := 9, data := [] } : PcieReq)).fbe = 0xF)
    ∧ ((({ bar := 0, write := false, addr := Block.eth.base, len := 4, fbe := 15, lbe := 0, tag := 9, data := [] } : PcieReq)).addr = (Block.eth).base) := by
  and_intros <;> decide +kernel

def w08_1 : State := rootS

def w08_2 : State := on rootS fun h => h.updPower fun p => { p with phase := .por, custRisen := false }

def w08_3 : State := on rootS fun h => h.updPower fun p => { p with phase := .por }

def w08_4 : State := on rootS fun h => h.updPower fun p => { p with phase := .por, rootLost := true }

def w08_5 : State := on rootS fun h => h.updPower fun p => { p with phase := .rails, coreEn := false }

def w08_6 : State := on rootS fun h => h.updPower fun p => { p with phase := .core }

def w08_7 : State := on rootS fun h => h.updPower fun p => { p with phase := .confirmed, clamped := true }

def w08_8 : State := on rootS fun h => { h.updPower fun p => { p with phase := .confirmed, clamped := true } with repairMap := [{ kind := 1, res := 5 }] }

def w08_9 : State := on rootS fun h => h.updPower fun p => { p with phase := .rails, coreEn := false }

/-- The hypotheses of Obligations.PowerOn hold somewhere, clause by clause. -/
theorem wit_powerOn :
    (w08_2.hub.power.phase = .por)
    ∧ (w08_2.hub.power.custRisen = false)
    ∧ (w08_3.hub.power.phase = .por)
    ∧ (w08_3.hub.power.custRisen = true)
    ∧ (w08_3.hub.power.rootLost = false)
    ∧ (w08_4.hub.power.phase = .por)
    ∧ (w08_4.hub.power.custRisen = true)
    ∧ (w08_4.hub.power.rootLost = true)
    ∧ (w08_5.hub.power.phase = .rails)
    ∧ (w08_5.hub.power.supplyBad = none)
    ∧ (w08_5.hub.power.thermHold = false)
    ∧ (w08_6.hub.power.phase = .core)
    ∧ (w08_7.hub.power.phase = .confirmed)
    ∧ (w08_7.hub.repairMap = [])
    ∧ (w08_7.hub.straps.err = false)
    ∧ (w08_8.hub.power.phase = .confirmed)
    ∧ (w08_8.hub.repairMap = [(({ kind := 1, res := 5 } : RepairRec))])
    ∧ ((({ kind := 1, res := 5 } : RepairRec)).kind = 1)
    ∧ ((({ kind := 1, res := 5 } : RepairRec)).cleared = false)
    ∧ ((({ kind := 1, res := 5 } : RepairRec)).res < 33)
    ∧ (w08_8.hub.straps.err = false)
    ∧ (w08_9.hub.custodyUp = true)
    ∧ (w08_9.hub.power.coreEn = false) := by
  and_intros <;> decide +kernel

def w08_10 : State := rootS

def w08_11 : State := on rootS fun h => (h.updPower fun p => { p with phase := .rails, coreEn := false, supplyBad := some .core }).wr (Reg.TSC_GROUP 0 3) 3

def w08_12 : State := rootS

def w08_13 : State := on rootS fun h => (h.updPower fun p => { p with phase := .rails, coreEn := false, thermHold := true }).wr (Reg.TSC_GROUP 0 3) 3

def w08_14 : State := on rootS fun h => h.wr (Reg.TSC_GROUP 0 3) 3

def w08_15 : State := on rootS fun h => h.updPower fun p => { p with phase := .confirmed }

def w08_16 : State := on rootS fun h => h.updPower fun p => { p with state := .nap, clamped := true }

/-- The hypotheses of Obligations.SupplyAndWarm hold somewhere, clause by clause. -/
theorem wit_supplyAndWarm :
    (w08_10.hub.custodyUp = true)
    ∧ (w08_10.hub.power.coreEn = true)
    ∧ (w08_10.hub.power.state = .run)
    ∧ (w08_10.hub.power.phase ≠ .core)
    ∧ (w08_11.hub.custodyUp = true)
    ∧ (w08_11.hub.power.supplyBad.isSome = true)
    ∧ (w08_12.hub.custodyUp = true)
    ∧ (1300 ≤ ((1300 : BitVec 16)).toInt)
    ∧ (w08_12.hub.power.thermHold = false)
    ∧ (w08_12.hub.power.state = .run)
    ∧ (w08_13.hub.custodyUp = true)
    ∧ (w08_13.hub.power.thermHold = true)
    ∧ (((1099 : BitVec 16)).toInt < 1100)
    ∧ (w08_14.hub.custodyUp = true)
    ∧ (w08_14.hub.mainUp = true)
    ∧ (w08_14.hub.power.coreEn = true)
    ∧ (w08_15.hub.custodyUp = true)
    ∧ (w08_15.hub.mainUp = false)
    ∧ (w08_15.hub.power.coreEn = true)
    ∧ (w08_15.hub.power.state = .run)
    ∧ (w08_16.hub.custodyUp = true)
    ∧ (w08_16.hub.power.coreEn = true)
    ∧ (w08_16.hub.power.state = .nap) := by
  and_intros <;> decide +kernel

def w08_17 : State := on rootS fun h => h.wr (Reg.TSC_GROUP 0 3) 3

def w08_18 : State := on rootS (ask .tss 1 [])

def w08_19 : State := on rootS fun h => (h.wr Reg.PMU_WAKE_EN 3).wr (Reg.PC_INSERT 2) 4

def w08_20 : State := on rootS fun h => h.wr Reg.KSI_TAMP_CFG 3

/-- The hypotheses of Obligations.BlockResets hold somewhere, clause by clause. -/
theorem wit_blockResets :
    (w08_17.hub.answers (Block.tsc) = true)
    ∧ ((w08_17.hub.mbx (Block.tsc)).busy = false)
    ∧ (w08_18.hub.answers (Block.tss) = true)
    ∧ ((Block.tss) ∈ [.tss, .eth, .pmc, .ksi])
    ∧ ((w08_18.hub.mbx (Block.tss)).busy = true)
    ∧ (w08_19.hub.answers (Block.ppc) = true)
    ∧ ((Block.ppc) ∈ [.eth, .usb, .ppc, .pmc, .sit, .mir])
    ∧ (ofBlock (Block.ppc) ((Reg.PC_CFG 3)) = true)
    ∧ (keptAtBlockReset ((Reg.PC_CFG 3)) = false)
    ∧ (w08_20.hub.custodyUp = true) := by
  and_intros <;> decide +kernel

def w09_1 : State := rootS

def w09_2 : State := on rootS fun h => h.wr Reg.PX_STAT 1

def w09_3 : State := on rootS fun h => (h.updPower fun p => { p with state := .doze }).wr Reg.PMU_STATE 1

def w09_4 : State := on rootS fun h => h.updHdr .tss fun x => { x with clkReq := true }

def w09_5 : State := on rootS fun h => h.updHdr .tss fun x => { x with clkReq := true, clkGranted := true }

def w09_6 : State := on rootS fun h => h.updHdr .tss fun x => { x with clkReq := true, clkGranted := true, waiting := [0] }

def w09_7 : State := on rootS fun h => (h.updPower fun p => { p with state := .doze }).wr Reg.PMU_STATE 1

/-- The hypotheses of Obligations.ClockGating hold somewhere, clause by clause. -/
theorem wit_clockGating :
    (w09_1.hub.up (Block.tss) = true)
    ∧ (fastBlock (Block.tss) = true)
    ∧ (w09_1.hub.power.state = .run)
    ∧ (((Block.tss) = .pxb → w09_1.hub.rdB Reg.PX_STAT 0 = false))
    ∧ (w09_2.hub.up .pxb = true)
    ∧ (w09_2.hub.power.state = .run)
    ∧ (w09_2.hub.rdB Reg.PX_STAT 0 = true)
    ∧ (w09_3.hub.up (Block.tss) = true)
    ∧ (fastBlock (Block.tss) = true)
    ∧ (w09_3.hub.power.state = .doze)
    ∧ (((Block.tss) = .pxb → w09_3.hub.rdB Reg.PX_STAT 0 = false))
    ∧ (w09_4.hub.up (Block.tss) = true)
    ∧ (w09_4.hub.power.state = .run)
    ∧ ((w09_4.hub.hdr (Block.tss)).clkReq = true)
    ∧ (w09_5.hub.up (Block.tss) = true)
    ∧ ((w09_5.hub.hdr (Block.tss)).clkGranted = true)
    ∧ (w09_5.hub.clockHeld (Block.tss) = false)
    ∧ (((Block.tss) = .pxb → w09_5.hub.rdB Reg.PX_STAT 0 = false))
    ∧ (w09_6.hub.clockHeld (Block.tss) = true)
    ∧ (w09_7.hub.custodyUp = true)
    ∧ (w09_7.hub.power.state = .doze) := by
  and_intros <;> decide +kernel

def w09_8 : State := on rootS fun h => h.wr Reg.PMU_WAKE_EN 4

def w09_9 : State := on rootS fun h => (ask .pmu 0x10 [2] h).wr Reg.PMU_STATE 4

def w09_10 : State := on rootS fun h => (h.updPower fun p => { p with state := .doze }).wr Reg.PMU_STATE 1

def w09_11 : State := rootS

def w09_12 : State := on rootS fun h => h.updPower fun p => { p with state := .nap }

def w09_13 : State := on rootS fun h => (h.wr Reg.PMU_WAKE_EN 0x10).updPower fun p => { p with timer := 1 }

def w09_14 : State := on rootS fun h => (h.wr Reg.PMU_WAKE_EN 4).wr Reg.PMU_WAKE_CMP 0

def w09_15 : State := on rootS fun h => h.wr Reg.PMU_WAKE_CMP 0x80

/-- The hypotheses of Obligations.WakeSources hold somewhere, clause by clause. -/
theorem wit_wakeSources :
    (w09_8.hub.custodyUp = true)
    ∧ (w09_8.hub.power.state = .run)
    ∧ (w09_8.hub.rdF Reg.PMU_STATE 2 0 ≠ 4)
    ∧ ((((2 : Fin 6)) = 3 ∨ w09_8.hub.rdB Reg.PMU_WAKE_EN ((2 : Fin 6)).val = true))
    ∧ (w09_9.hub.opRunning .pmu 0x10 = true)
    ∧ (w09_9.hub.power.state = .run)
    ∧ (w09_9.hub.rdF Reg.PMU_STATE 2 0 = 4)
    ∧ ((((3 : Fin 6)) = 3 ∨ w09_9.hub.rdB Reg.PMU_WAKE_EN ((3 : Fin 6)).val = true))
    ∧ (w09_10.hub.custodyUp = true)
    ∧ (w09_10.hub.power.state = .doze)
    ∧ (w09_11.hub.custodyUp = true)
    ∧ (w09_11.hub.power.state ≠ .doze)
    ∧ (((5 : Fin 6)) ≠ 3)
    ∧ (w09_11.hub.rdB Reg.PMU_WAKE_EN ((5 : Fin 6)).val = false)
    ∧ (w09_12.hub.custodyUp = true)
    ∧ ((w09_12.hub.power.state = .nap ∨ w09_12.hub.power.state = .dormant))
    ∧ ((((3 : Fin 6)) = 3 ∨ w09_12.hub.rdB Reg.PMU_WAKE_EN ((3 : Fin 6)).val = true))
    ∧ (w09_12.hub.power.wakeLatch = none)
    ∧ (w09_13.hub.custodyUp = true)
    ∧ (w09_13.hub.power.timer = 1)
    ∧ (w09_13.hub.power.state = .run)
    ∧ (w09_13.hub.rdF Reg.PMU_STATE 2 0 ≠ 4)
    ∧ (w09_13.hub.rdB Reg.PMU_WAKE_EN 4 = true)
    ∧ (w09_14.hub.custodyUp = true)
    ∧ (w09_14.hub.power.state = .run)
    ∧ (w09_14.hub.rdF Reg.PMU_STATE 2 0 ≠ 4)
    ∧ (w09_14.hub.rdB Reg.PMU_WAKE_CMP 7 ≠ (true))
    ∧ (w09_14.hub.rdB Reg.PMU_WAKE_CMP 6 = !(true))
    ∧ (w09_14.hub.rdB Reg.PMU_WAKE_EN 2 = true)
    ∧ (w09_15.hub.custodyUp = true)
    ∧ (w09_15.hub.rdB Reg.PMU_WAKE_CMP 7 ≠ (false))
    ∧ (w09_15.hub.rdB Reg.PMU_WAKE_CMP 6 = (false)) := by
  and_intros <;> decide +kernel

def w09_16 : State := on rootS fun h => h.wr Reg.PMU_DVFS 0xF

def w09_17 : State := rootS

def w09_18 : State := on rootS fun h => (h.wr (Reg.TS_GCTL 3) 0x20)

def w09_19 : State := on rootS fun h => ({ h with time := { up := 500000 } }.wr Reg.PMU_DVFS 0x1E).updPower fun p => { p with step := some ⟨2, true, 800, 0⟩, pmbFails := 2 }

def w09_20 : State := on rootS fun h => ({ h with time := { up := 500000 } }.wr Reg.PMU_DVFS 0x1E).updPower fun p => { p with step := some ⟨2, true, 800, 0⟩, pmbFails := 2 }

def w09_21 : State := on rootS fun h => h.wr Reg.PMU_DVFS 0x2E

/-- The hypotheses of Obligations.VoltageSteps hold somewhere, clause by clause. -/
theorem wit_voltageSteps :
    (w09_16.hub.custodyUp = true)
    ∧ (w09_16.hub.mainUp = true)
    ∧ (w09_16.hub.power.step = none)
    ∧ (w09_16.hub.power.linear = true)
    ∧ (w09_16.hub.anyAwake = false)
    ∧ (((1 : BitVec 2)).toNat < w09_16.hub.dvfsPoint)
    ∧ (w09_17.hub.custodyUp = true)
    ∧ (w09_17.hub.mainUp = true)
    ∧ (w09_17.hub.power.step = none)
    ∧ (w09_17.hub.power.linear = true)
    ∧ (w09_17.hub.anyAwake = false)
    ∧ (w09_17.hub.dvfsPoint < ((3 : BitVec 2)).toNat)
    ∧ (w09_18.hub.custodyUp = true)
    ∧ (w09_18.hub.mainUp = true)
    ∧ (w09_18.hub.power.step = none)
    ∧ (w09_18.hub.power.linear = true)
    ∧ (w09_18.hub.anyAwake = true)
    ∧ (((3 : BitVec 2)).toNat ≠ w09_18.hub.dvfsPoint)
    ∧ (w09_19.hub.custodyUp = true)
    ∧ (w09_19.hub.power.step = some ⟨(2), (true), (800), (0)⟩)
    ∧ ((2) = w09_19.hub.dvfsTarget)
    ∧ ((2) < 4)
    ∧ (w09_20.hub.custodyUp = true)
    ∧ (w09_20.hub.power.step = some ⟨(2), true, (800), (0)⟩)
    ∧ ((2) = w09_20.hub.dvfsTarget)
    ∧ ((0) + 500000 ≤ w09_20.hub.mono)
    ∧ (w09_21.hub.custodyUp = true)
    ∧ (w09_21.hub.rdB Reg.PMU_DVFS 5 = true)
    ∧ (w09_21.hub.anyAwake = false)
    ∧ (w09_21.hub.power.step = none)
    ∧ (w09_21.hub.power.linear = true)
    ∧ (w09_21.hub.dvfsTarget < w09_21.hub.dvfsPoint) := by
  and_intros <;> decide +kernel

def w09_22 : State := on rootS fun h => h.updPower fun p => { p with pmb := [pmbStatus], pmbFails := 2 }

def w09_23 : State := on rootS fun h => (h.wrB Reg.PMU_DVFS 4 true).updPower fun p => { p with pmb := [pmbVout 800, pmbStatus, pmbReadVout], pmbFails := 1, pmbAt := 2 }

def w09_24 : State := on rootS fun h => ({ h with time := { up := 500000 } }.wr Reg.PMU_DVFS 0x1E).updPower fun p => { p with step := some ⟨2, true, 800, 0⟩, pmbFails := 3, pmb := [pmbStatus] }

def w09_25 : State := rootS

def w09_26 : State := rootS

def w09_27 : State := rootS

def w09_28 : State := rootS

def w09_29 : State := on rootS (ask .pmu 0x11 [2])

def w09_30 : State := on rootS (ask .pmu 0x11 [1])

/-- The hypotheses of Obligations.PowerMonitoring hold somewhere, clause by clause. -/
theorem wit_powerMonitoring :
    (w09_22.hub.custodyUp = true)
    ∧ (w09_22.hub.power.pmb.isEmpty = false)
    ∧ (w09_22.hub.power.pmbFails < 3)
    ∧ (w09_23.hub.custodyUp = true)
    ∧ (w09_23.hub.power.pmb.isEmpty = false)
    ∧ (w09_24.hub.custodyUp = true)
    ∧ (w09_24.hub.power.pmb.length = 1)
    ∧ (w09_24.hub.power.pmbAt = 0)
    ∧ (3 ≤ w09_24.hub.power.pmbFails)
    ∧ (w09_25.hub.custodyUp = true)
    ∧ (w09_26.hub.custodyUp = true)
    ∧ (1180 ≤ ((1180 : BitVec 16)).toInt)
    ∧ (w09_27.hub.custodyUp = true)
    ∧ (((1179 : BitVec 16)).toInt < 1180)
    ∧ (w09_28.hub.custodyUp = true)
    ∧ (w09_28.hub.power.xtal = false)
    ∧ (w09_29.hub.opRunning .pmu 0x11 = true)
    ∧ ((w09_29.hub.arg .pmu 0).toNat = 2 ∨ (w09_29.hub.arg .pmu 0).toNat = 3)
    ∧ (w09_30.hub.opRunning .pmu 0x11 = true)
    ∧ ((w09_30.hub.arg .pmu 0).toNat ≠ 2)
    ∧ ((w09_30.hub.arg .pmu 0).toNat ≠ 3) := by
  and_intros <;> decide +kernel

def w10_1 : State := on rootS (ask .pmu 0x10 [5])

def w10_2 : State := on rootS (ask .pmu 0x10 [0])

def w10_3 : State := on rootS fun h => (ask .pmu 0x10 [1] h).updHdr .tss fun x => { x with clkGranted := true }

def w10_4 : State := on rootS fun h => (ask .pmu 0x10 [1] h).wr (Reg.TS_GCTL 3) 0x20

def w10_5 : State := on rootS fun h => (([Block.dse, .vin, .eth, .usb].foldl (fun h b => h.updHdr b fun x => { x with enable := false }) (ask .pmu 0x10 [2] h)).wr Reg.PMU_RETAIN_LO 1)

def w10_6 : State := on rootS fun h => (ask .pmu 0x10 [3] h).wr (Reg.TS_GCTL 3) 0x20

def w10_7 : State := on leafS fun h => (ask .pmu 0x10 [4] h).wr (Reg.PC_STAT 2) 3

def w10_8 : State := on rootS fun h => { h.wr Reg.PMU_AUTO 1 with time := { up := 1000 } }

/-- The hypotheses of Obligations.StateRequests hold somewhere, clause by clause. -/
theorem wit_stateRequests :
    (w10_1.hub.opRunning .pmu 0x10 = true)
    ∧ (5 ≤ (w10_1.hub.arg .pmu 0).toNat)
    ∧ (w10_1.hub.power.state ≠ .doze)
    ∧ (w10_2.hub.opRunning .pmu 0x10 = true)
    ∧ ((w10_2.hub.arg .pmu 0).toNat = 0)
    ∧ (w10_2.hub.power.state = .run)
    ∧ (w10_3.hub.opRunning .pmu 0x10 = true)
    ∧ ((w10_3.hub.arg .pmu 0).toNat = 1)
    ∧ (w10_3.hub.power.state = .run)
    ∧ (w10_3.hub.mainUp = true)
    ∧ (w10_3.hub.dozeCheck = none)
    ∧ (w10_4.hub.opRunning .pmu 0x10 = true)
    ∧ ((w10_4.hub.arg .pmu 0).toNat = 1)
    ∧ (w10_4.hub.power.state = .run)
    ∧ (w10_4.hub.mainUp = true)
    ∧ (w10_4.hub.dozeCheck = some (5))
    ∧ (w10_5.hub.opRunning .pmu 0x10 = true)
    ∧ ((w10_5.hub.arg .pmu 0).toNat = (if (true) then 2 else 3))
    ∧ (w10_5.hub.power.state = .run)
    ∧ (w10_5.hub.rdF Reg.PMU_STATE 2 0 = 0)
    ∧ (w10_5.hub.mainUp = true)
    ∧ (w10_5.hub.napCheck (true) = none)
    ∧ (w10_5.hub.looseSlots (true) = [])
    ∧ (w10_5.hub.paging.wbs = [])
    ∧ (w10_5.hub.pxLink = false)
    ∧ ((∀ p ∈ List.range 9, w10_5.hub.klState p = 0))
    ∧ ((w10_5.hub.aoSense ((300 : BitVec 12)).toNat).aoLoad (true) ≤ 450)
    ∧ ((w10_5.hub.aoSense ((380 : BitVec 12)).toNat).aoLoad (true) ≤ 450)
    ∧ (w10_6.hub.opRunning .pmu 0x10 = true)
    ∧ ((w10_6.hub.arg .pmu 0).toNat = (if (false) then 2 else 3))
    ∧ (w10_6.hub.power.state = .run)
    ∧ (w10_6.hub.rdF Reg.PMU_STATE 2 0 = 0)
    ∧ (w10_6.hub.mainUp = true)
    ∧ (w10_6.hub.napCheck (false) = some (5))
    ∧ (w10_7.hub.opRunning .pmu 0x10 = true)
    ∧ ((w10_7.hub.arg .pmu 0).toNat = 4)
    ∧ (w10_7.hub.power.state = .run)
    ∧ (w10_7.hub.mainUp = true)
    ∧ (w10_8.hub.custodyUp = true)
    ∧ (w10_8.hub.mainUp = true)
    ∧ (w10_8.hub.power.state = .run)
    ∧ (w10_8.hub.rdB Reg.PMU_AUTO 0 = true)
    ∧ (w10_8.hub.opRunning .pmu 0x10 = false)
    ∧ (w10_8.hub.branchesFree = true)
    ∧ (w10_8.hub.dozeCheck = none)
    ∧ (w10_8.hub.power.idleFrom + 1000 * max 1 (w10_8.hub.rdF Reg.PMU_AUTO 31 16) ≤ w10_8.hub.mono) := by
  and_intros <;> decide +kernel

def w10_9 : State := on rootS fun h => ((h.updPower fun p => { p with state := .nap, wakeLatch := some 5, clamped := true }).wr Reg.PMU_STATE 5).setCtx 9 { state := .resident, list := [3] }

def w10_10 : State := on rootS fun h => ((h.updPower fun p => { p with state := .nap, wakeLatch := some 5, clamped := true }).wr Reg.PMU_STATE 5)

def w10_11 : State := on rootS fun h => ((h.updPower fun p => { p with state := .dormant, wakeLatch := some 0, clamped := true, coreEn := false }).wr Reg.PMU_STATE 5).wr Reg.STW_RESET_CAUSE 7

def w10_12 : State := rootS

def w10_13 : State := rootS

def w10_14 : State := leafS

def w10_15 : State := rootS

/-- The hypotheses of Obligations.WakeUps hold somewhere, clause by clause. -/
theorem wit_wakeUps :
    (w10_9.hub.custodyUp = true)
    ∧ (w10_9.hub.power.state = .nap)
    ∧ (w10_9.hub.power.wakeLatch = some (5))
    ∧ ((5) < 6)
    ∧ (w10_10.hub.custodyUp = true)
    ∧ (w10_10.hub.power.state = .nap)
    ∧ (w10_10.hub.power.wakeLatch.isSome = true)
    ∧ (w10_10.hub.power.coreEn = true)
    ∧ (w10_11.hub.custodyUp = true)
    ∧ (w10_11.hub.power.state = .dormant)
    ∧ (w10_11.hub.power.wakeLatch = some (0))
    ∧ ((0) < 6)
    ∧ (fwGood (({ magic := true, version := 0, len := 9, chain := true, signed := true } : FwImage)) = true)
    ∧ (w10_11.hub.role = .root)
    ∧ (w10_12.hub.custodyUp = true)
    ∧ (w10_12.hub.power.rootLost = false)
    ∧ (w10_13.hub.mainUp = true)
    ∧ (w10_13.hub.power.fwRunning = false)
    ∧ (w10_13.hub.straps.boot = false)
    ∧ (w10_13.hub.role = .root)
    ∧ ((fwGood (({ magic := true, version := 0, len := 9, chain := true, signed := true } : FwImage)) = true ∨ fwGood (({ magic := true, version := 0, len := 9, chain := true, signed := false } : FwImage)) = true))
    ∧ (((({ magic := true, version := 0, len := 9, chain := true, signed := true } : FwImage)).version.toNat < (({ magic := true, version := 0, len := 9, chain := true, signed := false } : FwImage)).version.toNat → fwGood (({ magic := true, version := 0, len := 9, chain := true, signed := false } : FwImage)) = true))
    ∧ (((({ magic := true, version := 0, len := 9, chain := true, signed := false } : FwImage)).version.toNat ≤ (({ magic := true, version := 0, len := 9, chain := true, signed := true } : FwImage)).version.toNat → fwGood (({ magic := true, version := 0, len := 9, chain := true, signed := true } : FwImage)) = true))
    ∧ (w10_14.hub.mainUp = true)
    ∧ (w10_14.hub.power.fwRunning = false)
    ∧ (fwGood (({ magic := true, version := 0, len := 9, chain := true, signed := true } : FwImage)) = true)
    ∧ ((w10_14.hub.role = .transit ∨ w10_14.hub.role = .leaf))
    ∧ ((w10_14.hub.hdr .kll).waiting = [])
    ∧ (w10_15.hub.mainUp = true)
    ∧ (w10_15.hub.power.fwRunning = false)
    ∧ (w10_15.hub.straps.boot = false)
    ∧ (fwGood (({ magic := true, version := 0, len := 9, chain := false, signed := true } : FwImage)) = false)
    ∧ (fwGood (({ magic := true, version := 0, len := 9, chain := true, signed := false } : FwImage)) = false) := by
  and_intros <;> decide +kernel

def w10_16 : State := on rootS fun h => h.wr Reg.LNX_REF_STAT 0x11

def w10_17 : State := rootS

def w10_18 : State := on rootS fun h => (List.range 16).foldl (fun h c => h.wr (Reg.LNX_PORT_MAP c) 0) h

def w10_19 : State := on rootS fun h => (List.range 16).foldl (fun h c => if c = 2 then h else h.wr (Reg.LNX_PORT_MAP c) 0) h

def w10_20 : State := on rootS fun h => (List.range 16).foldl (fun h c => if c = 2 then h else h.wr (Reg.LNX_PORT_MAP c) 0) h

def w10_21 : State := rootS

def w10_22 : State := on rootS fun h => (h.wr (Reg.LN_CFG 39) 8).wr Reg.PMU_WAKE_EN 1

def w10_23 : State := on rootS fun h => h.updLink 8 fun l => { l with napHeld := true }

/-- The hypotheses of Obligations.References hold somewhere, clause by clause. -/
theorem wit_references :
    (w10_16.hub.mainUp = true)
    ∧ (w10_16.hub.rdB Reg.LNX_REF_STAT ((3 : Fin 4)) = false)
    ∧ (w10_17.hub.mainUp = true)
    ∧ (w10_17.hub.power.state = .run)
    ∧ (w10_18.hub.mainUp = true)
    ∧ (((3 : Fin 4)) ≠ 0)
    ∧ ((w10_18.hub.portsWith fun ls => ls.any fun l => laneRef l = ((3 : Fin 4))) = [])
    ∧ (w10_19.hub.mainUp = true)
    ∧ (((1 : Fin 4)) ≠ 0)
    ∧ ((2) ≤ 8)
    ∧ (w10_19.hub.klState (2) = 0)
    ∧ ((w10_19.hub.portsWith fun ls => ls.any fun l => laneRef l = ((1 : Fin 4))) = [(2)])
    ∧ (w10_20.hub.mainUp = true)
    ∧ (((setFld (setFld ((on rootS fun h => (List.range 16).foldl (fun h c => if c = 2 then h else h.wr (Reg.LNX_PORT_MAP c) 0) h).hub.rd Reg.LNX_REF_STAT) 7 4 ((on rootS fun h => (List.range 16).foldl (fun h c => if c = 2 then h else h.wr (Reg.LNX_PORT_MAP c) 0) h).hub.rdF Reg.LNX_REF_STAT 3 0 &&& 5)) 11 8 0)) = setFld (setFld (w10_20.hub.rd Reg.LNX_REF_STAT) 7 4 (w10_20.hub.rdF Reg.LNX_REF_STAT 3 0 &&& (((5 : BitVec 4)).toNat ||| 1))) 11 8 0)
    ∧ (w10_20.hub.portsWith (splitRefs ((setFld (setFld ((on rootS fun h => (List.range 16).foldl (fun h c => if c = 2 then h else h.wr (Reg.LNX_PORT_MAP c) 0) h).hub.rd Reg.LNX_REF_STAT) 7 4 ((on rootS fun h => (List.range 16).foldl (fun h c => if c = 2 then h else h.wr (Reg.LNX_PORT_MAP c) 0) h).hub.rdF Reg.LNX_REF_STAT 3 0 &&& 5)) 11 8 0))) = [])
    ∧ (w10_21.hub.up .lnx = true)
    ∧ (w10_21.hub.power.state = .run)
    ∧ ((w10_21.hub.rdB (Reg.LN_CFG ((39 : LaneNo))) 3 = true → w10_21.hub.rdB Reg.PMU_WAKE_EN 0 = false))
    ∧ (w10_22.hub.up .lnx = true)
    ∧ (w10_22.hub.power.state = .run)
    ∧ (w10_22.hub.rdB (Reg.LN_CFG ((39 : LaneNo))) 3 = true)
    ∧ (w10_22.hub.rdB Reg.PMU_WAKE_EN 0 = true)
    ∧ (w10_22.hub.rdF Reg.PMU_STATE 2 0 ≠ 4)
    ∧ (w10_23.hub.linkUp ((8 : LinkNo)) = true)
    ∧ ((w10_23.hub.link ((8 : LinkNo))).napHeld = true) := by
  and_intros <;> decide +kernel

def w11_1 : State := on rootS fun h => ((ask .lnx 0x10 [0, 2, 0x0302] h).setPortLanes 0 []).wr Reg.LNX_REF_STAT 0x11

def w11_2 : State := on rootS (ask .lnx 0x10 [0, 3, 0x0302])

def w11_3 : State := on rootS (ask .lnx 0x11 [0])

def w11_4 : State := on rootS fun h => (ask .lnx 0x11 [0] h).wr (Reg.KL_STATE 0) 5

def w11_5 : State := on rootS fun h => (ask .lnx 0x13 [39] h).laneMapOut 39

def w11_6 : State := on rootS fun h => (ask .lnx 0x13 [39] h).laneMapOut 39

def w11_7 : State := on rootS fun h => ((ask .lnx 0x10 [0, 2, 0x0302] h).setPortLanes 0 []).wr Reg.LNX_REF_STAT 0x11

def w11_8 : State := on rootS fun h => (ask .lnx 0x11 [0] h).wr (Reg.KL_STATE 0) 5

def w11_9 : State := on rootS fun h => (ask .lnx 0x13 [39] h).laneMapOut 39

/-- The hypotheses of Obligations.LaneMap hold somewhere, clause by clause. -/
theorem wit_laneMap :
    (w11_1.hub.opRunning .lnx 0x10 = true)
    ∧ (w11_1.hub.up .lnx = true)
    ∧ ((0) = (w11_1.hub.arg .lnx 0).toNat)
    ∧ ((([2, 3] : List Nat)) = (List.range (w11_1.hub.arg .lnx 1).toNat).map (fun i => fld (w11_1.hub.arg .lnx 2) (8 * i + 5) (8 * i)))
    ∧ (widthOk (0) (w11_1.hub.arg .lnx 1).toNat = true)
    ∧ ((([2, 3] : List Nat)).Nodup)
    ∧ (portPresent w11_1.hub.straps (0) = true)
    ∧ (w11_1.hub.portDown (0) = true)
    ∧ ((([2, 3] : List Nat)).all (fun l => decide (l < 40) && w11_1.hub.laneFree l) = true)
    ∧ (w11_1.hub.refsOk (([2, 3] : List Nat)) = true)
    ∧ (w11_1.hub.portLanes (0) = [])
    ∧ (w11_2.hub.opRunning .lnx 0x10 = true)
    ∧ (w11_2.hub.up .lnx = true)
    ∧ (widthOk (w11_2.hub.arg .lnx 0).toNat (w11_2.hub.arg .lnx 1).toNat = false)
    ∧ (w11_3.hub.opRunning .lnx 0x11 = true)
    ∧ (w11_3.hub.up .lnx = true)
    ∧ ((0) = (w11_3.hub.arg .lnx 0).toNat)
    ∧ ((0) ≤ 15)
    ∧ (portPresent w11_3.hub.straps (0) = true)
    ∧ (w11_3.hub.portDown (0) = true)
    ∧ (w11_4.hub.opRunning .lnx 0x11 = true)
    ∧ (w11_4.hub.up .lnx = true)
    ∧ ((0) = (w11_4.hub.arg .lnx 0).toNat)
    ∧ ((0) ≤ 15)
    ∧ (portPresent w11_4.hub.straps (0) = true)
    ∧ (w11_4.hub.portDown (0) = false)
    ∧ (w11_5.hub.opRunning .lnx 0x13 = true)
    ∧ (w11_5.hub.up .lnx = true)
    ∧ ((39) = (w11_5.hub.arg .lnx 0).toNat)
    ∧ ((39) < 40)
    ∧ (w11_5.hub.laneOut (39) = true)
    ∧ (((0 : Word)).toNat ≤ w11_5.hub.rdF Reg.SIT_LANE_CFG 31 16)
    ∧ (w11_6.hub.opRunning .lnx 0x13 = true)
    ∧ (w11_6.hub.up .lnx = true)
    ∧ ((39) = (w11_6.hub.arg .lnx 0).toNat)
    ∧ ((39) < 40)
    ∧ (w11_6.hub.laneOut (39) = true)
    ∧ (w11_7.hub.opRunning .lnx 0x10 = true)
    ∧ (w11_8.hub.opRunning .lnx 0x11 = true)
    ∧ (w11_9.hub.opRunning .lnx 0x13 = true) := by
  and_intros <;> decide +kernel

def w11_10 : State := rootS

def w11_11 : State := on rootS fun h => h.wr (Reg.KL_STATE 0) 5

def w11_12 : State := rootS

def w11_13 : State := rootS

def w11_14 : State := on rootS fun h => h.wrF (Reg.LN_STAT 0) 11 8 3

def w11_15 : State := rootS

def w11_16 : State := on rootS fun h => h.wrB (Reg.LN_STAT 0) 18 true

def w11_17 : State := on rootS fun h => h.wr (Reg.KL_STATE 0) 5

def w11_18 : State := on rootS fun h => h.wrB (Reg.LN_STAT 0) 18 true

def w11_19 : State := on rootS fun h => h.wr (Reg.KL_STATE 0) 5

def w11_20 : State := rootS

def w11_21 : State := on rootS fun h => (h.wr (Reg.LN_PAT_CFG 39) 2).wr (Reg.LN_PAT_BITS_LO 39) 0xFFFFFFFF

def w11_22 : State := on rootS fun h => h.wr (Reg.KL_STATE 0) 5

/-- The hypotheses of Obligations.LaneEvents hold somewhere, clause by clause. -/
theorem wit_laneEvents :
    (w11_10.hub.up .lnx = true)
    ∧ (w11_10.hub.laneAligns ((0 : LaneNo)) = true)
    ∧ (((255 : BitVec 8)) ≠ 0)
    ∧ (w11_10.hub.slipAllowed ((0 : LaneNo)) = true)
    ∧ (w11_11.hub.up .lnx = true)
    ∧ (w11_11.hub.laneAligns ((0 : LaneNo)) = true)
    ∧ (((255 : BitVec 8)) ≠ 0)
    ∧ (w11_11.hub.slipAllowed ((0 : LaneNo)) = false)
    ∧ (w11_12.hub.up .lnx = true)
    ∧ (w11_12.hub.laneAligns ((0 : LaneNo)) = true)
    ∧ (w11_13.hub.up .lnx = true)
    ∧ (w11_13.hub.laneAligns ((0 : LaneNo)) = true)
    ∧ (w11_14.hub.up .lnx = true)
    ∧ (w11_14.hub.rdF (Reg.LN_STAT ((0 : LaneNo))) 11 8 ≠ 0)
    ∧ (w11_15.hub.up .lnx = true)
    ∧ (30000 < ((32768 : BitVec 16)).toInt.natAbs)
    ∧ (w11_16.hub.up .lnx = true)
    ∧ (w11_16.hub.portDown (w11_16.hub.lanePort ((0 : LaneNo))) = true)
    ∧ (w11_17.hub.up .lnx = true)
    ∧ (w11_17.hub.portDown (w11_17.hub.lanePort ((0 : LaneNo))) = false)
    ∧ (bit ((0x15 : Word)) 5 = false)
    ∧ (bit ((0x15 : Word)) 12 = false)
    ∧ (bit ((0x15 : Word)) 1 = false)
    ∧ (fld ((0x15 : Word)) 1 0 ≠ w11_17.hub.rdF (Reg.LN_PAT_CFG ((0 : LaneNo))) 1 0)
    ∧ (w11_17.hub.rdB (Reg.LN_PAT_CFG ((0 : LaneNo))) 1 = false)
    ∧ (w11_18.hub.up .lnx = true)
    ∧ (w11_18.hub.portDown (w11_18.hub.lanePort ((0 : LaneNo))) = true)
    ∧ (w11_19.hub.up .lnx = true)
    ∧ (w11_19.hub.portDown (w11_19.hub.lanePort ((0 : LaneNo))) = false)
    ∧ (fld ((0x15 : Word)) 1 0 ≠ w11_19.hub.rdF (Reg.LN_LOOP ((0 : LaneNo))) 1 0)
    ∧ (w11_20.hub.up .lnx = true)
    ∧ (w11_21.hub.up .lnx = true)
    ∧ (w11_21.hub.rdB (Reg.LN_PAT_CFG ((39 : LaneNo))) 1 = true)
    ∧ (w11_22.hub.up .lnx = true) := by
  and_intros <;> decide +kernel

def w12_1 : State := on rootS fun h => h.wrB (Reg.LN_STAT 0) 16 true

def w12_2 : State := on rootS fun h => (h.wrB (Reg.LN_STAT 4) 16 true).wr (Reg.KL_STATE 1) 5

def w12_3 : State := on rootS fun h => h.wrB (Reg.LN_STAT 4) 13 true

def w12_4 : State := on rootS fun h => ((h.setPortLanes 9 [30]).wrB (Reg.LN_STAT 30) 13 true).wr (Reg.EP_CFG 0) 3

def w12_5 : State := rootS

def w12_6 : State := rootS

def w12_7 : State := on rootS fun h => h.wrB (Reg.LN_STAT 4) 15 true

def w12_8 : State := on rootS fun h => (h.wrB (Reg.LN_STAT 4) 15 true).wr (Reg.KL_STATE 1) 6

def w12_9 : State := on rootS fun h => h.updLanes 1 fun w => setBit w 16 true

def w12_10 : State := on rootS fun h => (h.wrB (Reg.LN_STAT 4) 16 true).wr (Reg.KL_STATE 1) 5

def w12_11 : State := on rootS fun h => (h.wrB (Reg.LN_STAT 4) 13 true).wr (Reg.KL_STATE 1) 5

def w12_12 : State := rootS

def w12_13 : State := on rootS fun h => (h.wrB (Reg.LN_STAT 4) 15 true).wr (Reg.KL_STATE 1) 6

def w12_14 : State := on rootS fun h => (h.updLanes 1 fun w => setBit w 16 true).wr (Reg.KL_STATE 1) 1

/-- The hypotheses of Obligations.LaneLinkEvents hold somewhere, clause by clause. -/
theorem wit_laneLinkEvents :
    (w12_1.hub.up .lnx = true)
    ∧ (w12_1.hub.laneAligns ((0 : LaneNo)) = true)
    ∧ (w12_1.hub.rdB (Reg.LN_STAT ((0 : LaneNo))) 16 = true)
    ∧ (w12_1.hub.portDown (w12_1.hub.lanePort ((0 : LaneNo))) = true)
    ∧ (w12_2.hub.up .lnx = true)
    ∧ (w12_2.hub.laneAligns ((4 : LaneNo)) = true)
    ∧ (w12_2.hub.rdB (Reg.LN_STAT ((4 : LaneNo))) 16 = true)
    ∧ ((1) = w12_2.hub.lanePort ((4 : LaneNo)))
    ∧ (w12_2.hub.klState (1) = 5)
    ∧ (w12_2.hub.calm (1) = true)
    ∧ (w12_3.hub.up .lnx = true)
    ∧ (w12_3.hub.rdB (Reg.LN_STAT ((4 : LaneNo))) 13 = true)
    ∧ (w12_3.hub.portDown (w12_3.hub.lanePort ((4 : LaneNo))) = true)
    ∧ (w12_4.hub.up .lnx = true)
    ∧ (w12_4.hub.rdB (Reg.LN_STAT ((30 : LaneNo))) 13 = true)
    ∧ (w12_4.hub.portDown (w12_4.hub.lanePort ((30 : LaneNo))) = false)
    ∧ (isLinkPort (w12_4.hub.lanePort ((30 : LaneNo))) = false)
    ∧ (w12_5.hub.up .lnx = true)
    ∧ ((1) = w12_5.hub.lanePort ((5 : LaneNo)))
    ∧ (isLinkPort (1) = true)
    ∧ (12 < (13))
    ∧ ((13) ≤ 16)
    ∧ (((5 : LaneNo)).val ∈ w12_5.hub.portLanes (1))
    ∧ ((w12_5.hub.portLanes (1)).Nodup)
    ∧ (w12_6.hub.up .lnx = true)
    ∧ (isLinkPort (w12_6.hub.lanePort ((5 : LaneNo))) = true)
    ∧ (16 < (17) ∨ (17) = 0)
    ∧ (w12_7.hub.up .lnx = true)
    ∧ (w12_7.hub.rdB (Reg.LN_STAT ((4 : LaneNo))) 15 = true)
    ∧ ((isLinkPort (w12_7.hub.lanePort ((4 : LaneNo))) = true → w12_7.hub.klState (w12_7.hub.lanePort ((4 : LaneNo))) ≠ 6))
    ∧ (w12_7.hub.laneAligns ((4 : LaneNo)) = true)
    ∧ (w12_8.hub.up .lnx = true)
    ∧ (w12_8.hub.rdB (Reg.LN_STAT ((4 : LaneNo))) 15 = true)
    ∧ ((1) = w12_8.hub.lanePort ((4 : LaneNo)))
    ∧ (w12_8.hub.klState (1) = 6)
    ∧ (w12_8.hub.calm (1) = true)
    ∧ ((w12_8.hub.portLanes (1)).all (fun k => k = ((4 : LaneNo)).val ∨ (w12_8.hub.rdB (Reg.LN_STAT k) 15 = false ∧ k < 40)) = true)
    ∧ (w12_8.hub.holdCause (1) = none)
    ∧ (w12_9.hub.linkUp ((1 : LinkNo)) = true)
    ∧ (w12_9.hub.allLanes ((1 : LinkNo)) 16 = true)
    ∧ (w12_9.hub.repair = none)
    ∧ (w12_9.hub.portLanes ((1 : LinkNo)) ≠ [])
    ∧ (w12_10.hub.up .lnx = true)
    ∧ (w12_10.hub.laneAligns ((4 : LaneNo)) = true)
    ∧ (w12_10.hub.rdB (Reg.LN_STAT ((4 : LaneNo))) 16 = true)
    ∧ (w12_11.hub.up .lnx = true)
    ∧ (w12_11.hub.rdB (Reg.LN_STAT ((4 : LaneNo))) 13 = true)
    ∧ (w12_12.hub.up .lnx = true)
    ∧ (isLinkPort (w12_12.hub.lanePort ((5 : LaneNo))) = true)
    ∧ (w12_13.hub.up .lnx = true)
    ∧ (w12_13.hub.rdB (Reg.LN_STAT ((4 : LaneNo))) 15 = true)
    ∧ (w12_14.hub.linkUp ((1 : LinkNo)) = true)
    ∧ ((((on rootS fun h => (h.updLanes 1 fun w => setBit w 16 true).wr (Reg.KL_STATE 1) 1).hub.deskewLanes 1)) = w12_14.hub.deskewLanes ((1 : LinkNo)))
    ∧ ((((on rootS fun h => (h.updLanes 1 fun w => setBit w 16 true).wr (Reg.KL_STATE 1) 1).hub.deskewLanes 1)).isEmpty = false)
    ∧ (((((on rootS fun h => (h.updLanes 1 fun w => setBit w 16 true).wr (Reg.KL_STATE 1) 1).hub.deskewLanes 1)).all fun k => w12_14.hub.rdB (Reg.LN_STAT k) 16) = true)
    ∧ (((1 : BitVec 4)).toNat % 2 ^ (((on rootS fun h => (h.updLanes 1 fun w => setBit w 16 true).wr (Reg.KL_STATE 1) 1).hub.deskewLanes 1)).length ≠ 2 ^ (((on rootS fun h => (h.updLanes 1 fun w => setBit w 16 true).wr (Reg.KL_STATE 1) 1).hub.deskewLanes 1)).length - 1) := by
  and_intros <;> decide +kernel

def w12_15 : State := on rootS (ask .lnx 0x12 [9, 0, 0x3F])

def w12_16 : State := on rootS fun h => (((((ask .lnx 0x12 [1, 0, 0x3F]) h).setPortLanes 2 []).wr (Reg.LN_CFG 8) 0x30).wr Reg.LNX_REF_STAT 0xFF).wr (Reg.KL_STATE 1) 5

def w12_17 : State := on rootS fun h => h.wr (Reg.KL_STATE 1) 5

def w12_18 : State := on rootS fun h => (h.wr (Reg.KL_STATE 1) 5).wr Reg.LNX_REPAIR_CTRL 0x101

def w12_19 : State := on rootS fun h => { h.wr (Reg.KL_STATE 1) 5 with repair := some { port := 1, logical := 0, spare := 8, starter := true } }

def w12_20 : State := on rootS fun h => (ask .lnx 0x10 [9, 0, 0x3F] h).wr (Reg.KL_STATE 1) 5

def w12_21 : State := on rootS fun h => ((((h).setPortLanes 2 []).wr (Reg.LN_CFG 8) 0x30).wr Reg.LNX_REF_STAT 0xFF).wr (Reg.KL_STATE 1) 5

def w12_22 : State := on rootS fun h => { h.wr (Reg.KL_STATE 1) 5 with repair := some { port := 1, logical := 0, spare := 8, starter := true } }

def w12_23 : State := on rootS fun h => { h.wr (Reg.KL_STATE 1) 5 with repair := some { port := 1, logical := 0, spare := 8, starter := true } }

def w12_24 : State := on rootS fun h => { h.wr (Reg.KL_STATE 1) 5 with repair := some { port := 1, logical := 0, spare := 8, starter := true } }

def w12_25 : State := on rootS fun h => { (h.setPortLanes 2 []) with repair := some { port := 1, logical := 1, spare := 8, starter := true, marker := some 7 } }

def w12_26 : State := on rootS fun h => { ask .lnx 0x12 [1, 1, 0x3F] h with time := { h.time with up := h.time.up + 5000000 }, repair := some { port := 1, logical := 1, spare := 8, starter := true, marker := some 7 } }

def w12_27 : State := on rootS fun h => (((ask .lnx 0x10 [9, 0, 0x3F] h).wr (Reg.KL_STATE 1) 5)).wr Reg.LNX_REPAIR_CTRL 0x101

def w12_28 : State := on rootS (ask .lnx 0x12 [9, 0, 0x3F])

def w12_29 : State := on rootS fun h => h.wr (Reg.KL_STATE 1) 5

def w12_30 : State := on rootS fun h => (ask .lnx 0x10 [9, 0, 0x3F] h).wr (Reg.KL_STATE 1) 5

def w12_31 : State := on rootS fun h => { h.wr (Reg.KL_STATE 1) 5 with repair := some { port := 1, logical := 0, spare := 8, starter := true, ready := true } }

def w12_32 : State := on rootS fun h => { h with repair := some { port := 1, logical := 1, spare := 8, starter := true, marker := some 7 } }

/-- The hypotheses of Obligations.LaneRepairs hold somewhere, clause by clause. -/
theorem wit_laneRepairs :
    (w12_15.hub.opRunning .lnx 0x12 = true)
    ∧ (w12_15.hub.up .lnx = true)
    ∧ (w12_15.hub.repair = none)
    ∧ (w12_15.hub.repairCheck (w12_15.hub.arg .lnx 0).toNat (w12_15.hub.arg .lnx 1).toNat (w12_15.hub.arg .lnx 2).toNat = .inl (2))
    ∧ (w12_16.hub.opRunning .lnx 0x12 = true)
    ∧ (w12_16.hub.up .lnx = true)
    ∧ (w12_16.hub.repair = none)
    ∧ (w12_16.hub.repairCheck (w12_16.hub.arg .lnx 0).toNat (w12_16.hub.arg .lnx 1).toNat (w12_16.hub.arg .lnx 2).toNat = .inr (8))
    ∧ (w12_17.hub.up .lnx = true)
    ∧ (isLinkPort (w12_17.hub.lanePort ((4 : LaneNo))) = true)
    ∧ (w12_17.hub.portDown (w12_17.hub.lanePort ((4 : LaneNo))) = false)
    ∧ ((w12_17.hub.rdB Reg.LNX_REPAIR_CTRL 0 = false ∨ ((1 : Word)).toNat < max 1 (w12_17.hub.rdF Reg.LNX_REPAIR_CTRL 15 8)))
    ∧ (w12_18.hub.up .lnx = true)
    ∧ (isLinkPort (w12_18.hub.lanePort ((4 : LaneNo))) = true)
    ∧ (w12_18.hub.portDown (w12_18.hub.lanePort ((4 : LaneNo))) = false)
    ∧ (w12_18.hub.rdB Reg.LNX_REPAIR_CTRL 0 = true)
    ∧ (max 1 (w12_18.hub.rdF Reg.LNX_REPAIR_CTRL 15 8) ≤ ((1 : Word)).toNat)
    ∧ ((w12_18.hub.mbx .lnx).busy = false)
    ∧ (w12_18.hub.auto = {})
    ∧ (w12_18.hub.repairCheck (w12_18.hub.lanePort ((4 : LaneNo))) (w12_18.hub.rdF (Reg.LN_STAT ((4 : LaneNo))) 6 5) 0x3F = .inl (3))
    ∧ (w12_19.hub.hears ((1 : LinkNo)) = true)
    ∧ (w12_19.hub.repairHears ((1 : LinkNo)) = true)
    ∧ (w12_19.hub.repair = some (({ port := 1, logical := 0, spare := 8, starter := true } : LaneRepair)))
    ∧ ((({ port := 1, logical := 0, spare := 8, starter := true } : LaneRepair)).port = ((1 : LinkNo)).val)
    ∧ ((({ port := 1, logical := 0, spare := 8, starter := true } : LaneRepair)).starter = true)
    ∧ ((({ port := 1, logical := 0, spare := 8, starter := true } : LaneRepair)).answered = false)
    ∧ (w12_19.hub.carriesOn ((1 : LinkNo)) = true)
    ∧ (w12_20.hub.hears ((1 : LinkNo)) = true)
    ∧ (w12_20.hub.repairHears ((1 : LinkNo)) = true)
    ∧ (w12_20.hub.repair = none)
    ∧ ((w12_20.hub.mbx .lnx).busy = true)
    ∧ (w12_21.hub.hears ((1 : LinkNo)) = true)
    ∧ (w12_21.hub.repairHears ((1 : LinkNo)) = true)
    ∧ (w12_21.hub.repair = none)
    ∧ ((w12_21.hub.mbx .lnx).busy = false)
    ∧ (w12_21.hub.portDown ((1 : LinkNo)) = false)
    ∧ (w12_21.hub.repairCheck ((1 : LinkNo)) ((1 : Byte)).toNat 0x3F = .inr (8))
    ∧ (w12_22.hub.hears ((1 : LinkNo)) = true)
    ∧ (w12_22.hub.repairHears ((1 : LinkNo)) = true)
    ∧ (w12_22.hub.repair = some (({ port := 1, logical := 0, spare := 8, starter := true } : LaneRepair)))
    ∧ ((({ port := 1, logical := 0, spare := 8, starter := true } : LaneRepair)).port = ((1 : LinkNo)).val)
    ∧ (((255 : Byte)) ≠ 0)
    ∧ (w12_23.hub.hears ((1 : LinkNo)) = true)
    ∧ (w12_23.hub.repairHears ((1 : LinkNo)) = true)
    ∧ (w12_23.hub.repair = some (({ port := 1, logical := 0, spare := 8, starter := true } : LaneRepair)))
    ∧ ((({ port := 1, logical := 0, spare := 8, starter := true } : LaneRepair)).port = ((1 : LinkNo)).val)
    ∧ ((({ port := 1, logical := 0, spare := 8, starter := true } : LaneRepair)).ready = false)
    ∧ (w12_24.hub.hears ((1 : LinkNo)) = true)
    ∧ (w12_24.hub.repairHears ((1 : LinkNo)) = true)
    ∧ (w12_24.hub.repair = some (({ port := 1, logical := 0, spare := 8, starter := true } : LaneRepair)))
    ∧ ((({ port := 1, logical := 0, spare := 8, starter := true } : LaneRepair)).port = ((1 : LinkNo)).val)
    ∧ ((({ port := 1, logical := 0, spare := 8, starter := true } : LaneRepair)).logical = ((0 : Byte)).toNat)
    ∧ (w12_25.hub.up .lnx = true)
    ∧ (w12_25.hub.repair = some (({ port := 1, logical := 1, spare := 8, starter := true, marker := some 7 } : LaneRepair)))
    ∧ ((({ port := 1, logical := 1, spare := 8, starter := true, marker := some 7 } : LaneRepair)).marker = some (7))
    ∧ ((({ port := 1, logical := 1, spare := 8, starter := true, marker := some 7 } : LaneRepair)).port ≤ 8)
    ∧ (w12_25.hub.repairMap.length < 255)
    ∧ ((({ port := 1, logical := 1, spare := 8, starter := true, marker := some 7 } : LaneRepair)).logical < (w12_25.hub.portLanes (({ port := 1, logical := 1, spare := 8, starter := true, marker := some 7 } : LaneRepair)).port).length)
    ∧ ((w12_25.hub.portLanes (({ port := 1, logical := 1, spare := 8, starter := true, marker := some 7 } : LaneRepair)).port).length ≤ 4)
    ∧ ((({ port := 1, logical := 1, spare := 8, starter := true, marker := some 7 } : LaneRepair)).spare < 40)
    ∧ (w12_26.hub.up .lnx = true)
    ∧ (w12_26.hub.repair = some (({ port := 1, logical := 1, spare := 8, starter := true, marker := some 7 } : LaneRepair)))
    ∧ ((({ port := 1, logical := 1, spare := 8, starter := true, marker := some 7 } : LaneRepair)).since + 5000000 ≤ w12_26.hub.mono)
    ∧ (w12_27.hub.up .lnx = true)
    ∧ (isLinkPort (w12_27.hub.lanePort ((4 : LaneNo))) = true)
    ∧ (w12_27.hub.portDown (w12_27.hub.lanePort ((4 : LaneNo))) = false)
    ∧ (w12_27.hub.rdB Reg.LNX_REPAIR_CTRL 0 = true)
    ∧ (max 1 (w12_27.hub.rdF Reg.LNX_REPAIR_CTRL 15 8) ≤ ((1 : Word)).toNat)
    ∧ ((w12_27.hub.mbx .lnx).busy = true)
    ∧ (w12_28.hub.opRunning .lnx 0x12 = true)
    ∧ (w12_28.hub.repair = none)
    ∧ (w12_29.hub.up .lnx = true)
    ∧ (isLinkPort (w12_29.hub.lanePort ((4 : LaneNo))) = true)
    ∧ (w12_29.hub.portDown (w12_29.hub.lanePort ((4 : LaneNo))) = false)
    ∧ (w12_30.hub.hears ((1 : LinkNo)) = true)
    ∧ (w12_30.hub.repairHears ((1 : LinkNo)) = true)
    ∧ (w12_31.hub.hears ((1 : LinkNo)) = true)
    ∧ (w12_31.hub.repairHears ((1 : LinkNo)) = true)
    ∧ (w12_31.hub.repair = some (({ port := 1, logical := 0, spare := 8, starter := true, ready := true } : LaneRepair)))
    ∧ ((({ port := 1, logical := 0, spare := 8, starter := true, ready := true } : LaneRepair)).port = ((1 : LinkNo)).val)
    ∧ (w12_32.hub.up .lnx = true)
    ∧ (w12_32.hub.repair = some (({ port := 1, logical := 1, spare := 8, starter := true, marker := some 7 } : LaneRepair)))
    ∧ ((({ port := 1, logical := 1, spare := 8, starter := true, marker := some 7 } : LaneRepair)).marker = some (7)) := by
  and_intros <;> decide +kernel

def w13_1 : State := on rootS fun h => ((h.wr (Reg.KL_STATE 1) 1).updLanes 1 fun w => setBit w 16 true).updLink 1 fun l => { l with deskewed := true }

def w13_2 : State := on rootS fun h => h.wr (Reg.KL_STATE 1) 5

def w13_3 : State := on rootS fun h => h.updLink 0 fun l => { l with napHeld := true }

def w13_4 : State := on rootS fun h => h.wr (Reg.KL_STATE 1) 0x35

def w13_5 : State := on rootS fun h => ((h.wrF (Reg.KL_CFG 1) 4 0 0x1E).wr Reg.LNX_REF_STAT 0xFF).updLanes 1 fun w => setBit (setBit (setFld w 11 8 0xE) 12 true) 14 true

def w13_6 : State := on rootS fun h => ((h.wrF (Reg.KL_CFG 1) 4 0 0x1E).wr Reg.LNX_REF_STAT 0xFF).updLanes 1 fun w => setBit (setBit (setFld w 11 8 0xC) 12 true) 14 true

def w13_7 : State := on rootS fun h => h.wr (Reg.KL_STATE 1) 2

def w13_8 : State := on rootS fun h => (h.wr (Reg.KL_STATE 1) 2).wrF (Reg.KL_CFG 1) 4 0 0x1E

def w13_9 : State := on rootS fun h => later 100000 (h.wr (Reg.KL_STATE 1) 2)

def w13_10 : State := on rootS fun h => h.wr (Reg.KL_STATE 1) 5

def w13_11 : State := on rootS fun h => (((h.wr (Reg.KL_STATE 1) 7).updLanes 1 fun w => setBit w 16 true)).updLink 1 fun l => { l with unacked := [(4, 6)], deskewed := true, creditRx := true }

def w13_12 : State := on rootS fun h => later 200000 <| (h.wr (Reg.KL_STATE 1) 7).updLink 1 fun l => { l with recoverLoss := true }

def w13_13 : State := on rootS fun h => h.wr (Reg.KL_STATE 1) 8

def w13_14 : State := on rootS fun h => h.wr (Reg.KL_STATE 8) 5

def w13_15 : State := on rootS fun h => (h.wrF (Reg.KL_CFG 1) 4 0 0x1E).wr Reg.LNX_REF_STAT 0xFF

def w13_16 : State := on rootS fun h => h.wr (Reg.KL_STATE 8) 2

def w13_17 : State := on rootS fun h => ((h.wr (Reg.KL_STATE 8) 7).updLanes 8 fun w => setBit w 16 true).updLink 8 fun l => { l with unacked := [(4, 6)], deskewed := true, creditRx := true }

def w13_18 : State := on rootS fun h => later 200000 <| h.wr (Reg.KL_STATE 8) 7

def w13_19 : State := on rootS fun h => h.wr (Reg.KL_STATE 8) 5

/-- The hypotheses of Obligations.LinkStates hold somewhere, clause by clause. -/
theorem wit_linkStates :
    (w13_1.hub.linkUp ((1 : LinkNo)) = true)
    ∧ (w13_1.hub.calm ((1 : LinkNo)) = true)
    ∧ (w13_1.hub.klState ((1 : LinkNo)) = 1)
    ∧ (w13_1.hub.allLanes ((1 : LinkNo)) 16 = true)
    ∧ ((w13_1.hub.link ((1 : LinkNo))).deskewed = true)
    ∧ (w13_2.hub.linkUp ((1 : LinkNo)) = true)
    ∧ (w13_2.hub.calm ((1 : LinkNo)) = true)
    ∧ (w13_2.hub.klState ((1 : LinkNo)) ≠ 0)
    ∧ (w13_2.hub.klState ((1 : LinkNo)) ≠ 1)
    ∧ (w13_2.hub.portLanes ((1 : LinkNo)) ≠ [])
    ∧ ((w13_2.hub.portMap ((1 : LinkNo))).all (fun l => decide (l < 40)) = true)
    ∧ (w13_3.hub.linkUp ((0 : LinkNo)) = true)
    ∧ (w13_3.hub.klState ((0 : LinkNo)) = 0)
    ∧ (w13_4.hub.linkUp ((1 : LinkNo)) = true)
    ∧ (w13_4.hub.calm ((1 : LinkNo)) = true)
    ∧ (w13_4.hub.klState ((1 : LinkNo)) ≠ 0)
    ∧ (w13_5.hub.linkUp ((1 : LinkNo)) = true)
    ∧ (w13_5.hub.calm ((1 : LinkNo)) = true)
    ∧ (w13_5.hub.mayAlign ((1 : LinkNo)) = true)
    ∧ ((w13_5.hub.portMap ((1 : LinkNo))).all (fun l => decide (l < 40)) = true)
    ∧ ((w13_5.hub.portLanes ((1 : LinkNo))).all (fun l => decide (w13_5.hub.rdF (Reg.LN_STAT l) 11 8 = w13_5.hub.klRate ((1 : LinkNo))) && w13_5.hub.rdB (Reg.LN_STAT l) 12
      && w13_5.hub.rdB (Reg.LN_STAT l) 14) = true)
    ∧ (w13_6.hub.linkUp ((1 : LinkNo)) = true)
    ∧ (w13_6.hub.mayAlign ((1 : LinkNo)) = true)
    ∧ ((w13_6.hub.portLanes ((1 : LinkNo))).Nodup)
    ∧ ((w13_6.hub.portLanes ((1 : LinkNo))).any (fun l => decide (w13_6.hub.rdF (Reg.LN_STAT l) 11 8 ≠ w13_6.hub.klRate ((1 : LinkNo)))) = true)
    ∧ (w13_7.hub.hears ((1 : LinkNo)) = true)
    ∧ (w13_7.hub.calm ((1 : LinkNo)) = true)
    ∧ (w13_7.hub.klState ((1 : LinkNo)) = 2)
    ∧ (w13_7.hub.helloGood ((1 : LinkNo)) (([1, 0, 0, 9, 4, 0, 3, 14] : List Byte)) = false)
    ∧ (w13_8.hub.hears ((1 : LinkNo)) = true)
    ∧ (w13_8.hub.calm ((1 : LinkNo)) = true)
    ∧ (w13_8.hub.klState ((1 : LinkNo)) = 2)
    ∧ (w13_8.hub.helloGood ((1 : LinkNo)) (([1, 0, 0, 9, 4, 0, 4, 14] : List Byte)) = true)
    ∧ (w13_8.hub.ksi.lost = false)
    ∧ (w13_8.hub.ksi.kat = 0)
    ∧ ((w13_8.hub.link ((1 : LinkNo))).earlyCert = [])
    ∧ (w13_9.hub.linkUp ((1 : LinkNo)) = true)
    ∧ (w13_9.hub.klState ((1 : LinkNo)) = 2)
    ∧ ((w13_9.hub.link ((1 : LinkNo))).helloRx = false)
    ∧ ((w13_9.hub.link ((1 : LinkNo))).helloAt + 100000 ≤ w13_9.hub.mono)
    ∧ (w13_10.hub.mainUp = true)
    ∧ (w13_11.hub.linkUp ((1 : LinkNo)) = true)
    ∧ (w13_11.hub.calm ((1 : LinkNo)) = true)
    ∧ (w13_11.hub.klState ((1 : LinkNo)) = 7)
    ∧ (w13_11.hub.allLanes ((1 : LinkNo)) 16 = true)
    ∧ ((w13_11.hub.link ((1 : LinkNo))).deskewed = true)
    ∧ ((w13_11.hub.link ((1 : LinkNo))).creditRx = true)
    ∧ (w13_11.hub.holdCause ((1 : LinkNo)) = none)
    ∧ (w13_12.hub.linkUp ((1 : LinkNo)) = true)
    ∧ (w13_12.hub.calm ((1 : LinkNo)) = true)
    ∧ (w13_12.hub.klState ((1 : LinkNo)) = 7)
    ∧ ((w13_12.hub.link ((1 : LinkNo))).since + 200000 ≤ w13_12.hub.mono)
    ∧ (w13_13.hub.hears ((1 : LinkNo)) = true)
    ∧ (w13_13.hub.calm ((1 : LinkNo)) = true)
    ∧ (4 ≤ w13_13.hub.klState ((1 : LinkNo)))
    ∧ (w13_13.hub.klState ((1 : LinkNo)) ≤ 8)
    ∧ (w13_14.hub.linkUp ((8 : LinkNo)) = true)
    ∧ (w13_15.hub.linkUp ((1 : LinkNo)) = true)
    ∧ (w13_15.hub.mayAlign ((1 : LinkNo)) = true)
    ∧ (w13_16.hub.hears ((8 : LinkNo)) = true)
    ∧ (2 ≤ w13_16.hub.klState ((8 : LinkNo)))
    ∧ (w13_16.hub.klState ((8 : LinkNo)) ≤ 8)
    ∧ (w13_17.hub.linkUp ((8 : LinkNo)) = true)
    ∧ (w13_17.hub.klState ((8 : LinkNo)) = 7)
    ∧ (w13_17.hub.allLanes ((8 : LinkNo)) 16 = true)
    ∧ ((w13_17.hub.link ((8 : LinkNo))).deskewed = true)
    ∧ ((w13_17.hub.link ((8 : LinkNo))).creditRx = true)
    ∧ (w13_18.hub.linkUp ((8 : LinkNo)) = true)
    ∧ (w13_18.hub.klState ((8 : LinkNo)) = 7)
    ∧ ((w13_18.hub.link ((8 : LinkNo))).since + 200000 ≤ w13_18.hub.mono)
    ∧ (w13_19.hub.hears ((8 : LinkNo)) = true)
    ∧ (4 ≤ w13_19.hub.klState ((8 : LinkNo)))
    ∧ (w13_19.hub.klState ((8 : LinkNo)) ≤ 8) := by
  and_intros <;> decide +kernel

def w13_20 : State := on rootS fun h => h.wr (Reg.KL_STATE 1) 3

def w13_21 : State := on rootS fun h => (h.wr (Reg.KL_STATE 1) 3).updLink 1 fun l => { l with kexOwn := [3] }

def w13_22 : State := on rootS fun h => (h.wr (Reg.KL_STATE 1) 3).updLink 1 fun l => { l with finTx := true }

def w13_23 : State := on rootS fun h => (h.wr (Reg.KL_STATE 1) 3).updLink 1 fun l => { l with finTx := true }

def w13_24 : State := on rootS fun h => later 20000000 <| (h.wr (Reg.KL_STATE 1) 3).updLink 1 fun l => { l with keyTx := [4] }

def w13_25 : State := on rootS fun h => h.wr (Reg.KL_STATE 1) 5

def w13_26 : State := on rootS fun h => (h.wr (Reg.KL_STATE 1) 4).updLink 1 fun l => { l with advTx := true }

def w13_27 : State := on rootS fun h => (ask .kll 0x10 [8, 4] h).updLink 8 fun l => { l with gotChain := true, chain := [1, 2, 3, 4, 5, 6] }

def w13_28 : State := on rootS fun h => h.wr (Reg.KL_STATE 1) 2

def w13_29 : State := on rootS fun h => h.wr (Reg.KL_STATE 1) 5

def w13_30 : State := on rootS fun h => h.wr (Reg.KL_STATE 8) 3

def w13_31 : State := on rootS fun h => (h.wr (Reg.KL_STATE 8) 3).updLink 8 fun l => { l with kexOwn := [3] }

def w13_32 : State := on rootS fun h => (h.wr (Reg.KL_STATE 8) 3).updLink 8 fun l => { l with finTx := true }

def w13_33 : State := on rootS fun h => later 20000000 <| h.wr (Reg.KL_STATE 8) 3

def w13_34 : State := on rootS fun h => (h.wr (Reg.KL_STATE 8) 4).updLink 8 fun l => { l with advTx := true }

def w13_35 : State := on rootS (ask .kll 0x10 [9, 0])

/-- The hypotheses of Obligations.LinkAuthentication hold somewhere, clause by clause. -/
theorem wit_linkAuthentication :
    (w13_20.hub.hears ((1 : LinkNo)) = true)
    ∧ (w13_20.hub.calm ((1 : LinkNo)) = true)
    ∧ (w13_20.hub.klState ((1 : LinkNo)) = 3)
    ∧ (w13_20.hub.ksi.kat = 0)
    ∧ (w13_21.hub.hears ((1 : LinkNo)) = true)
    ∧ (w13_21.hub.calm ((1 : LinkNo)) = true)
    ∧ (w13_21.hub.klState ((1 : LinkNo)) = 3)
    ∧ (w13_21.hub.ksi.kat = 0)
    ∧ ((((on rootS fun h => (h.wr (Reg.KL_STATE 1) 3).updLink 1 fun l => { l with kexOwn := [3] }).hub.link 1)) = w13_21.hub.link ((1 : LinkNo)))
    ∧ ((((on rootS fun h => (h.wr (Reg.KL_STATE 1) 3).updLink 1 fun l => { l with kexOwn := [3] }).hub.link 1)).kexOwn ≠ [])
    ∧ ((((on rootS fun h => (h.wr (Reg.KL_STATE 1) 3).updLink 1 fun l => { l with kexOwn := [3] }).hub.link 1)).kexPeer = [])
    ∧ (w13_22.hub.hears ((1 : LinkNo)) = true)
    ∧ (w13_22.hub.calm ((1 : LinkNo)) = true)
    ∧ (w13_22.hub.klState ((1 : LinkNo)) = 3)
    ∧ ((w13_22.hub.link ((1 : LinkNo))).finTx = true)
    ∧ (w13_23.hub.hears ((1 : LinkNo)) = true)
    ∧ (w13_23.hub.calm ((1 : LinkNo)) = true)
    ∧ (w13_23.hub.klState ((1 : LinkNo)) = 3)
    ∧ ((w13_23.hub.link ((1 : LinkNo))).finTx = true)
    ∧ ((w13_23.hub.link ((1 : LinkNo))).advRx = false)
    ∧ (w13_24.hub.linkUp ((1 : LinkNo)) = true)
    ∧ (w13_24.hub.calm ((1 : LinkNo)) = true)
    ∧ (w13_24.hub.klState ((1 : LinkNo)) = 3)
    ∧ ((w13_24.hub.link ((1 : LinkNo))).authFrom + 20000000 ≤ w13_24.hub.mono)
    ∧ (w13_25.hub.hears ((1 : LinkNo)) = true)
    ∧ (4 ≤ w13_25.hub.klState ((1 : LinkNo)))
    ∧ (w13_25.hub.klState ((1 : LinkNo)) ≤ 8)
    ∧ ((w13_25.hub.klState ((1 : LinkNo)) = 4 → (w13_25.hub.link ((1 : LinkNo))).advTx = false))
    ∧ (w13_26.hub.hears ((1 : LinkNo)) = true)
    ∧ (w13_26.hub.calm ((1 : LinkNo)) = true)
    ∧ (w13_26.hub.klState ((1 : LinkNo)) = 4)
    ∧ ((w13_26.hub.link ((1 : LinkNo))).advTx = true)
    ∧ (w13_27.hub.opRunning .kll 0x10 = true)
    ∧ (w13_27.hub.up .kll = true)
    ∧ ((8) = (w13_27.hub.arg .kll 0).toNat)
    ∧ ((4) = (w13_27.hub.arg .kll 1).toNat)
    ∧ ((8) ≤ 8)
    ∧ ((4) % 4 = 0)
    ∧ (portPresent w13_27.hub.straps (8) = true)
    ∧ ((w13_27.hub.link (8)).gotChain = true)
    ∧ ((([1, 2, 3, 4, 5, 6] : List Byte)) = (w13_27.hub.link (8)).chain)
    ∧ ((4) < (([1, 2, 3, 4, 5, 6] : List Byte)).length)
    ∧ (w13_28.hub.hears ((1 : LinkNo)) = true)
    ∧ (w13_28.hub.klState ((1 : LinkNo)) = 2)
    ∧ (w13_29.hub.hears ((1 : LinkNo)) = true)
    ∧ (2 < w13_29.hub.klState ((1 : LinkNo)))
    ∧ (w13_29.hub.klState ((1 : LinkNo)) ≤ 8)
    ∧ (facesUp w13_29.hub.role ((1 : LinkNo)) = false)
    ∧ (w13_29.hub.depthNow = w13_29.hub.rdF Reg.KLL_DEPTH 5 0)
    ∧ (w13_30.hub.hears ((8 : LinkNo)) = true)
    ∧ (w13_30.hub.klState ((8 : LinkNo)) = 2 ∨ w13_30.hub.klState ((8 : LinkNo)) = 3)
    ∧ (w13_31.hub.hears ((8 : LinkNo)) = true)
    ∧ (w13_31.hub.klState ((8 : LinkNo)) = 3)
    ∧ (w13_31.hub.ksi.kat = 0)
    ∧ ((w13_31.hub.link ((8 : LinkNo))).kexOwn.isEmpty = false)
    ∧ ((w13_31.hub.link ((8 : LinkNo))).kexPeer.isEmpty = true)
    ∧ (w13_32.hub.hears ((8 : LinkNo)) = true)
    ∧ (w13_32.hub.klState ((8 : LinkNo)) = 3)
    ∧ ((w13_32.hub.link ((8 : LinkNo))).finTx = true)
    ∧ (w13_33.hub.linkUp ((8 : LinkNo)) = true)
    ∧ (w13_33.hub.klState ((8 : LinkNo)) = 3)
    ∧ ((w13_33.hub.link ((8 : LinkNo))).authFrom + 20000000 ≤ w13_33.hub.mono)
    ∧ (w13_34.hub.hears ((8 : LinkNo)) = true)
    ∧ (4 ≤ w13_34.hub.klState ((8 : LinkNo)))
    ∧ (w13_34.hub.klState ((8 : LinkNo)) ≤ 8)
    ∧ (w13_35.hub.opRunning .kll 0x10 = true) := by
  and_intros <;> decide +kernel

def w14_1 : State := on rootS fun h => { (h.wr (Reg.KL_STATE 1) 5).setCtx 9 { state := .resident, handle := 77, port := 2 } with opens := [{ port := 1, flow := 77, fseq := 3, tc := 2, count := 1, cells := [0], time := 0, fate := .admitted 9 4 }], cells := [(0, { slot := 9, flow := 77, fseq := 3, tc := 2, first := true, last := false, inp := 1, pennant := 0, payload := [], place := .listed })] }

def w14_2 : State := on rootS fun h => (h.wr (Reg.KL_STATE 1) 5).setCtx 9 { state := .resident, handle := 77, port := 2 }

def w14_3 : State := on rootS fun h => (h.wr (Reg.KL_STATE 1) 5)

def w14_4 : State := on rootS fun h => (h.wr (Reg.KL_STATE 1) 5)

def w14_5 : State := on rootS fun h => (h.wr (Reg.KL_STATE 1) 5).updLink 1 fun l => { l with nakSent := true }

def w14_6 : State := on rootS fun h => (h.wr (Reg.KL_STATE 1) 5).updLink 1 fun l => { l with rxNext := 2048 }

def w14_7 : State := on rootS fun h => (h.wr (Reg.KL_STATE 1) 5)

def w14_8 : State := on rootS fun h => (h.wr (Reg.KL_STATE 1) 5).updLink 1 fun l => { l with macCell := some { flow := 0xFFC000, fseq := 0, tc := 6, first := false, last := true, payload := [], pennant := 0 }, macTried := true }

def w14_9 : State := on rootS fun h => (h.wr (Reg.KL_STATE 1) 5).updLink 1 fun l => { l with macCell := some { flow := 0xFFC000, fseq := 0, tc := 6, first := true, last := true, payload := [], pennant := 0 }, macTried := true }

def w14_10 : State := on rootS fun h => (h.wr (Reg.KL_STATE 1) 6)

def w14_11 : State := on rootS fun h => (h.wr (Reg.KL_STATE 1) 5).updLink 1 fun l => { l with macCell := some { flow := 0xFFC000, fseq := 0, tc := 6, first := true, last := true, payload := [], pennant := 0 } }

/-- The hypotheses of Obligations.LinkCells hold somewhere, clause by clause. -/
theorem wit_linkCells :
    (w14_1.hub.hears ((1 : LinkNo)) = true)
    ∧ (w14_1.hub.klState ((1 : LinkNo)) = 5)
    ∧ ((w14_1.hub.link ((1 : LinkNo))).macCell = none)
    ∧ (((header 0x12 0 77 3 [9, 8] : List Byte)).getD 0 0 = 0xC5)
    ∧ (((rawCell (header 0x12 0 77 3 [9, 8]) : RawCell)) = rawCell ((header 0x12 0 77 3 [9, 8] : List Byte)))
    ∧ (((rawCell (header 0x12 0 77 3 [9, 8]) : RawCell)).check = true)
    ∧ (((rawCell (header 0x12 0 77 3 [9, 8]) : RawCell)).rseq = (w14_1.hub.link ((1 : LinkNo))).rxNext)
    ∧ (((rawCell (header 0x12 0 77 3 [9, 8]) : RawCell)).void = false)
    ∧ (((rawCell (header 0x12 0 77 3 [9, 8]) : RawCell)).malformed (([9, 8, 0] : List Byte)) false = false)
    ∧ (((rawCell (header 0x12 0 77 3 [9, 8]) : RawCell)).pennant = pennantOf ((([9, 8, 0] : List Byte)).take (((rawCell (header 0x12 0 77 3 [9, 8]) : RawCell)).len + 1)) ((rawCell (header 0x12 0 77 3 [9, 8]) : RawCell)).flow ((rawCell (header 0x12 0 77 3 [9, 8]) : RawCell)).fseq)
    ∧ (((rawCell (header 0x12 0 77 3 [9, 8]) : RawCell)).tc ≠ 6)
    ∧ (((rawCell (header 0x12 0 77 3 [9, 8]) : RawCell)).flow < 0xFFC000)
    ∧ (((rawCell (header 0x12 0 77 3 [9, 8]) : RawCell)).first = false)
    ∧ (w14_1.hub.openOf ((1 : LinkNo)) ((rawCell (header 0x12 0 77 3 [9, 8]) : RawCell)).flow = some (({ port := 1, flow := 77, fseq := 3, tc := 2, count := 1, cells := [0], time := 0, fate := .admitted 9 4 } : OpenFrame)))
    ∧ ((({ port := 1, flow := 77, fseq := 3, tc := 2, count := 1, cells := [0], time := 0, fate := .admitted 9 4 } : OpenFrame)).fate = .admitted (9) (4))
    ∧ ((({ port := 1, flow := 77, fseq := 3, tc := 2, count := 1, cells := [0], time := 0, fate := .admitted 9 4 } : OpenFrame)).fseq = ((rawCell (header 0x12 0 77 3 [9, 8]) : RawCell)).fseq)
    ∧ ((({ port := 1, flow := 77, fseq := 3, tc := 2, count := 1, cells := [0], time := 0, fate := .admitted 9 4 } : OpenFrame)).count < 64)
    ∧ (w14_1.hub.freeIdx 1 = [(1)])
    ∧ ((w14_1.hub.link ((1 : LinkNo))).idleReq = false)
    ∧ (((([9, 8, 0] : List Byte)).length + 15) / 16 ≤ ((rawCell (header 0x12 0 77 3 [9, 8]) : RawCell)).blocks)
    ∧ (w14_2.hub.hears ((1 : LinkNo)) = true)
    ∧ (w14_2.hub.klState ((1 : LinkNo)) = 5)
    ∧ ((w14_2.hub.link ((1 : LinkNo))).macCell = none)
    ∧ (((header 0x1A 0 77 3 [9, 8] : List Byte)).getD 0 0 = 0xC5)
    ∧ (((rawCell (header 0x1A 0 77 3 [9, 8]) : RawCell)) = rawCell ((header 0x1A 0 77 3 [9, 8] : List Byte)))
    ∧ (((rawCell (header 0x1A 0 77 3 [9, 8]) : RawCell)).check = true)
    ∧ (((rawCell (header 0x1A 0 77 3 [9, 8]) : RawCell)).rseq = (w14_2.hub.link ((1 : LinkNo))).rxNext)
    ∧ (((rawCell (header 0x1A 0 77 3 [9, 8]) : RawCell)).void = false)
    ∧ (((rawCell (header 0x1A 0 77 3 [9, 8]) : RawCell)).malformed (([9, 8, 0] : List Byte)) false = false)
    ∧ (((rawCell (header 0x1A 0 77 3 [9, 8]) : RawCell)).pennant = pennantOf ((([9, 8, 0] : List Byte)).take (((rawCell (header 0x1A 0 77 3 [9, 8]) : RawCell)).len + 1)) ((rawCell (header 0x1A 0 77 3 [9, 8]) : RawCell)).flow ((rawCell (header 0x1A 0 77 3 [9, 8]) : RawCell)).fseq)
    ∧ (((rawCell (header 0x1A 0 77 3 [9, 8]) : RawCell)).tc ≠ 6)
    ∧ (((rawCell (header 0x1A 0 77 3 [9, 8]) : RawCell)).flow < 0xFFC000)
    ∧ (((rawCell (header 0x1A 0 77 3 [9, 8]) : RawCell)).first = true)
    ∧ (((rawCell (header 0x1A 0 77 3 [9, 8]) : RawCell)).last = true)
    ∧ (w14_2.hub.opens.filter (fun o => o.flow = ((rawCell (header 0x1A 0 77 3 [9, 8]) : RawCell)).flow) = [])
    ∧ (w14_2.hub.lookup ((rawCell (header 0x1A 0 77 3 [9, 8]) : RawCell)).flow = .resident (9))
    ∧ ((w14_2.hub.ctx (9)).reseq = false)
    ∧ (w14_2.hub.verdict (9) ((1 : LinkNo)) ((rawCell (header 0x1A 0 77 3 [9, 8]) : RawCell)).tc 1 = .accept (4) 0)
    ∧ (w14_2.hub.freeIdx 1 = [(0)])
    ∧ ((w14_2.hub.link ((1 : LinkNo))).idleReq = false)
    ∧ (((([9, 8, 0] : List Byte)).length + 15) / 16 ≤ ((rawCell (header 0x1A 0 77 3 [9, 8]) : RawCell)).blocks)
    ∧ (w14_3.hub.hears ((1 : LinkNo)) = true)
    ∧ (w14_3.hub.klState ((1 : LinkNo)) = 5)
    ∧ ((w14_3.hub.link ((1 : LinkNo))).macCell = none)
    ∧ (((header 0x22 0 77 3 [9] : List Byte)).getD 0 0 = 0xC5)
    ∧ (((rawCell (header 0x22 0 77 3 [9]) : RawCell)) = rawCell ((header 0x22 0 77 3 [9] : List Byte)))
    ∧ (((rawCell (header 0x22 0 77 3 [9]) : RawCell)).check = true)
    ∧ (((rawCell (header 0x22 0 77 3 [9]) : RawCell)).rseq = (w14_3.hub.link ((1 : LinkNo))).rxNext)
    ∧ (((rawCell (header 0x22 0 77 3 [9]) : RawCell)).void = true)
    ∧ (((rawCell (header 0x22 0 77 3 [9]) : RawCell)).malformed (([] : List Byte)) false = false)
    ∧ (w14_3.hub.openOf ((1 : LinkNo)) ((rawCell (header 0x22 0 77 3 [9]) : RawCell)).flow = none)
    ∧ ((w14_3.hub.link ((1 : LinkNo))).idleReq = false)
    ∧ (((([] : List Byte)).length + 15) / 16 ≤ ((rawCell (header 0x22 0 77 3 [9]) : RawCell)).blocks)
    ∧ (w14_4.hub.hears ((1 : LinkNo)) = true)
    ∧ (w14_4.hub.klState ((1 : LinkNo)) = 5)
    ∧ ((w14_4.hub.link ((1 : LinkNo))).macCell = none)
    ∧ ((([0xC5, 1, 2, 3] : List Byte)).getD 0 0 = 0xC5)
    ∧ ((rawCell (([0xC5, 1, 2, 3] : List Byte))).malformed (([] : List Byte)) (true) = true)
    ∧ ((rawCell (([0xC5, 1, 2, 3] : List Byte))).check = false)
    ∧ ((w14_4.hub.link ((1 : LinkNo))).nakSent = false)
    ∧ ((w14_4.hub.link ((1 : LinkNo))).idleReq = false)
    ∧ (((([] : List Byte)).length + 15) / 16 ≤ (rawCell (([0xC5, 1, 2, 3] : List Byte))).blocks)
    ∧ (w14_5.hub.hears ((1 : LinkNo)) = true)
    ∧ (w14_5.hub.klState ((1 : LinkNo)) = 5)
    ∧ ((w14_5.hub.link ((1 : LinkNo))).macCell = none)
    ∧ (((header 0x1A 1 77 3 [9, 8] : List Byte)).getD 0 0 = 0xC5)
    ∧ (((rawCell (header 0x1A 1 77 3 [9, 8]) : RawCell)) = rawCell ((header 0x1A 1 77 3 [9, 8] : List Byte)))
    ∧ (((rawCell (header 0x1A 1 77 3 [9, 8]) : RawCell)).malformed (([9, 8, 0] : List Byte)) false = false)
    ∧ (((rawCell (header 0x1A 1 77 3 [9, 8]) : RawCell)).rseq ≠ (w14_5.hub.link ((1 : LinkNo))).rxNext)
    ∧ (2048 < ((w14_5.hub.link ((1 : LinkNo))).rxNext + 4096 - ((rawCell (header 0x1A 1 77 3 [9, 8]) : RawCell)).rseq) % 4096)
    ∧ ((w14_5.hub.link ((1 : LinkNo))).nakSent = true)
    ∧ ((w14_5.hub.link ((1 : LinkNo))).idleReq = false)
    ∧ (((([9, 8, 0] : List Byte)).length + 15) / 16 ≤ ((rawCell (header 0x1A 1 77 3 [9, 8]) : RawCell)).blocks)
    ∧ (w14_6.hub.hears ((1 : LinkNo)) = true)
    ∧ (w14_6.hub.klState ((1 : LinkNo)) = 5)
    ∧ ((w14_6.hub.link ((1 : LinkNo))).macCell = none)
    ∧ (((header 0x1A 0 77 3 [9, 8] : List Byte)).getD 0 0 = 0xC5)
    ∧ (((rawCell (header 0x1A 0 77 3 [9, 8]) : RawCell)) = rawCell ((header 0x1A 0 77 3 [9, 8] : List Byte)))
    ∧ (((rawCell (header 0x1A 0 77 3 [9, 8]) : RawCell)).malformed (([9, 8, 0] : List Byte)) false = false)
    ∧ (((rawCell (header 0x1A 0 77 3 [9, 8]) : RawCell)).rseq ≠ (w14_6.hub.link ((1 : LinkNo))).rxNext)
    ∧ (((w14_6.hub.link ((1 : LinkNo))).rxNext + 4096 - ((rawCell (header 0x1A 0 77 3 [9, 8]) : RawCell)).rseq) % 4096 ≤ 2048)
    ∧ ((w14_6.hub.link ((1 : LinkNo))).idleReq = false)
    ∧ (((([9, 8, 0] : List Byte)).length + 15) / 16 ≤ ((rawCell (header 0x1A 0 77 3 [9, 8]) : RawCell)).blocks)
    ∧ (w14_7.hub.hears ((1 : LinkNo)) = true)
    ∧ (w14_7.hub.klState ((1 : LinkNo)) = 5)
    ∧ ((w14_7.hub.link ((1 : LinkNo))).macCell = none)
    ∧ (((header 0x1A 0 77 3 [9, 8] : List Byte)).getD 0 0 = 0xC5)
    ∧ (((rawCell (header 0x1A 0 77 3 [9, 8]) : RawCell)) = rawCell ((header 0x1A 0 77 3 [9, 8] : List Byte)))
    ∧ (((rawCell (header 0x1A 0 77 3 [9, 8]) : RawCell)).check = true)
    ∧ (((rawCell (header 0x1A 0 77 3 [9, 8]) : RawCell)).rseq = (w14_7.hub.link ((1 : LinkNo))).rxNext)
    ∧ (((rawCell (header 0x1A 0 77 3 [9, 8]) : RawCell)).void = false)
    ∧ (((rawCell (header 0x1A 0 77 3 [9, 8]) : RawCell)).malformed (([9, 9, 0] : List Byte)) false = false)
    ∧ (((rawCell (header 0x1A 0 77 3 [9, 8]) : RawCell)).pennant ≠ pennantOf ((([9, 9, 0] : List Byte)).take (((rawCell (header 0x1A 0 77 3 [9, 8]) : RawCell)).len + 1)) ((rawCell (header 0x1A 0 77 3 [9, 8]) : RawCell)).flow ((rawCell (header 0x1A 0 77 3 [9, 8]) : RawCell)).fseq)
    ∧ ((w14_7.hub.link ((1 : LinkNo))).idleReq = false)
    ∧ (((([9, 9, 0] : List Byte)).length + 15) / 16 ≤ ((rawCell (header 0x1A 0 77 3 [9, 8]) : RawCell)).blocks)
    ∧ (w14_8.hub.hears ((1 : LinkNo)) = true)
    ∧ (w14_8.hub.klState ((1 : LinkNo)) = 5)
    ∧ ((w14_8.hub.link ((1 : LinkNo))).macCell = some (({ flow := 0xFFC000, fseq := 0, tc := 6, first := false, last := true, payload := [], pennant := 0 } : CellIn)))
    ∧ ((({ flow := 0xFFC000, fseq := 0, tc := 6, first := false, last := true, payload := [], pennant := 0 } : CellIn)).tc = 6)
    ∧ ((({ flow := 0xFFC000, fseq := 0, tc := 6, first := false, last := true, payload := [], pennant := 0 } : CellIn)).last = true)
    ∧ ((({ flow := 0xFFC000, fseq := 0, tc := 6, first := false, last := true, payload := [], pennant := 0 } : CellIn)).first = false)
    ∧ (0xFFC000 ≤ (({ flow := 0xFFC000, fseq := 0, tc := 6, first := false, last := true, payload := [], pennant := 0 } : CellIn)).flow)
    ∧ (w14_8.hub.openOf ((1 : LinkNo)) (({ flow := 0xFFC000, fseq := 0, tc := 6, first := false, last := true, payload := [], pennant := 0 } : CellIn)).flow = none)
    ∧ (w14_9.hub.hears ((1 : LinkNo)) = true)
    ∧ ((((on rootS fun h => (h.wr (Reg.KL_STATE 1) 5).updLink 1 fun l => { l with macCell := some { flow := 0xFFC000, fseq := 0, tc := 6, first := true, last := true, payload := [], pennant := 0 }, macTried := true }).hub.link 1)) = w14_9.hub.link ((1 : LinkNo)))
    ∧ ((((on rootS fun h => (h.wr (Reg.KL_STATE 1) 5).updLink 1 fun l => { l with macCell := some { flow := 0xFFC000, fseq := 0, tc := 6, first := true, last := true, payload := [], pennant := 0 }, macTried := true }).hub.link 1)).macCell = some (({ flow := 0xFFC000, fseq := 0, tc := 6, first := true, last := true, payload := [], pennant := 0 } : CellIn)))
    ∧ ((({ flow := 0xFFC000, fseq := 0, tc := 6, first := true, last := true, payload := [], pennant := 0 } : CellIn)).first = true)
    ∧ ((((on rootS fun h => (h.wr (Reg.KL_STATE 1) 5).updLink 1 fun l => { l with macCell := some { flow := 0xFFC000, fseq := 0, tc := 6, first := true, last := true, payload := [], pennant := 0 }, macTried := true }).hub.link 1)).macTried = true)
    ∧ (w14_10.hub.hears ((1 : LinkNo)) = true)
    ∧ (2 ≤ w14_10.hub.klState ((1 : LinkNo)))
    ∧ (w14_10.hub.klState ((1 : LinkNo)) ≤ 8)
    ∧ (w14_11.hub.hears ((1 : LinkNo)) = true)
    ∧ ((w14_11.hub.link ((1 : LinkNo))).macCell = some (({ flow := 0xFFC000, fseq := 0, tc := 6, first := true, last := true, payload := [], pennant := 0 } : CellIn))) := by
  and_intros <;> decide +kernel

def w14_12 : State := on rootS fun h => (h.wr (Reg.KL_STATE 1) 8)

def w14_13 : State := on rootS fun h => (h.wr (Reg.KL_STATE 1) 2)

def w14_14 : State := on rootS fun h => (h.wr (Reg.KL_STATE 1) 2).updLink 1 fun l => { l with sentCum := [0, 0, 0, 0, 0, 5, 0, 2], unacked := [(4094, 3)] }

def w14_15 : State := on rootS fun h => (h.wr (Reg.KL_STATE 1) 5).updLink 1 fun l => { l with ackDue := true, retCum := [0, 0, 0, 0, 0, 5, 0, 2] }

def w14_16 : State := on rootS fun h => later 1000000 <| (h.wr (Reg.KL_STATE 1) 5).updLink 1 fun l => { l with unacked := [(4094, 3)] }

def w14_17 : State := on rootS fun h => later 1000000 <| ((h.wr (Reg.KL_STATE 1) 5).wrF (Reg.KL_REPLAY_CFG 1) 15 12 2).updLink 1 fun l => { l with unacked := [(4094, 3)], run := 1, runSeq := 4094 }

def w14_18 : State := on rootS fun h => (h.wr (Reg.KL_STATE 1) 5).wrB (Reg.KL_CFG 1) 5 true

def w14_19 : State := on rootS fun h => (h.wr (Reg.KL_STATE 1) 5).wrB (Reg.KL_CFG 1) 5 false

def w14_20 : State := on rootS fun h => (h.wr (Reg.KL_STATE 1) 5).wrB (Reg.KL_CFG 1) 5 true

def w14_21 : State := on rootS fun h => ((h.wr (Reg.KL_STATE 1) 5).wrB (Reg.LN_CFG 4) 2 true).updLink 1 fun l => { l with idleReq := true }

def w14_22 : State := on rootS fun h => (h.wr (Reg.KL_STATE 1) 5).updLink 1 fun l => { l with idleReq := true }

def w14_23 : State := on rootS fun h => { ((h.wr (Reg.KL_STATE 1) 6).updLanes 1 fun w => setBit (setBit w 15 true) 16 true) with cells := [(0, { slot := 9, flow := 77, fseq := 3, tc := 2, first := true, last := false, inp := 2, pend := 2, pennant := 0, payload := [], place := .listed })] }

def w14_24 : State := on rootS fun h => ((h.wr (Reg.KL_STATE 1) 5).wr (Reg.TS_GCTL 1) 0x20).updLink 1 fun l => { l with idleReq := true }

def w14_25 : State := on rootS fun h => (h.wr (Reg.KL_STATE 1) 2).updLink 1 fun l => { l with sentCum := [0, 0, 0, 0, 0, 5, 0, 2], unacked := [(4094, 3)] }

def w14_26 : State := on rootS fun h => later 1000000 <| (h.wr (Reg.KL_STATE 8) 5).updLink 8 fun l => { l with unacked := [(4094, 3)] }

def w14_27 : State := on rootS fun h => (h.wr (Reg.KL_STATE 8) 5).wrB (Reg.KL_CFG 8) 5 true

def w14_28 : State := on rootS fun h => (h.wr (Reg.KL_STATE 8) 5).updLink 8 fun l => { l with idleReq := true }

def w14_29 : State := on rootS fun h => ((h.wr (Reg.KL_STATE 8) 6).wr (Reg.TS_GCTL 8) 0x20).updLanes 8 fun w => setBit (setBit w 15 true) 16 true

/-- The hypotheses of Obligations.LinkCredit hold somewhere, clause by clause. -/
theorem wit_linkCredit :
    (w14_12.hub.hears ((1 : LinkNo)) = true)
    ∧ (2 ≤ w14_12.hub.klState ((1 : LinkNo)))
    ∧ (w14_12.hub.klState ((1 : LinkNo)) ≤ 8)
    ∧ ((w14_12.hub.link ((1 : LinkNo))).macCell = none)
    ∧ (w14_13.hub.hears ((1 : LinkNo)) = true)
    ∧ (2 ≤ w14_13.hub.klState ((1 : LinkNo)))
    ∧ (w14_13.hub.klState ((1 : LinkNo)) ≤ 8)
    ∧ ((w14_13.hub.link ((1 : LinkNo))).macCell = none)
    ∧ ((List.range 4).any (fun c => decide (32767 < outAfter ((w14_13.hub.link ((1 : LinkNo))).sentCum.getD ((if (true) then 4 else 0) + c) 0)
      ((([0, 0, 0, 1] : List (BitVec 16))).getD c 0).toNat)) = true)
    ∧ ((([0, 0, 0, 1] : List (BitVec 16))).length = 4)
    ∧ (w14_14.hub.hears ((1 : LinkNo)) = true)
    ∧ (2 ≤ w14_14.hub.klState ((1 : LinkNo)))
    ∧ (w14_14.hub.klState ((1 : LinkNo)) ≤ 8)
    ∧ ((w14_14.hub.link ((1 : LinkNo))).macCell = none)
    ∧ ((List.range 4).all (fun c => decide (outAfter ((w14_14.hub.link ((1 : LinkNo))).sentCum.getD ((if (true) then 4 else 0) + c) 0) ((([0, 3, 0, 1] : List (BitVec 16))).getD c 0).toNat ≤ 32767))
      = true)
    ∧ ((([0, 3, 0, 1] : List (BitVec 16))).length = 4)
    ∧ ((w14_14.hub.link ((1 : LinkNo))).retRx.length = 8)
    ∧ ((w14_14.hub.link ((1 : LinkNo))).unacked.all (fun e => decide (e.1 ≠ ((4095 : BitVec 12)).toNat)) = true)
    ∧ (w14_15.hub.linkUp ((1 : LinkNo)) = true)
    ∧ (2 ≤ w14_15.hub.klState ((1 : LinkNo)))
    ∧ (w14_15.hub.klState ((1 : LinkNo)) ≤ 8)
    ∧ (w14_15.hub.klState ((1 : LinkNo)) ≠ 6)
    ∧ (w14_16.hub.linkUp ((1 : LinkNo)) = true)
    ∧ (2 ≤ w14_16.hub.klState ((1 : LinkNo)))
    ∧ (w14_16.hub.klState ((1 : LinkNo)) ≤ 6)
    ∧ ((w14_16.hub.link ((1 : LinkNo))).unacked = ((4094), (3)) :: (([] : List (Nat × Nat))))
    ∧ ((w14_16.hub.link ((1 : LinkNo))).run = 0)
    ∧ (1 < w14_16.hub.rdF (Reg.KL_REPLAY_CFG ((1 : LinkNo))) 15 12)
    ∧ ((w14_16.hub.link ((1 : LinkNo))).ackAt + w14_16.hub.replayTmo ((1 : LinkNo)) ≤ w14_16.hub.mono)
    ∧ (w14_17.hub.linkUp ((1 : LinkNo)) = true)
    ∧ (w14_17.hub.calm ((1 : LinkNo)) = true)
    ∧ (w14_17.hub.klState ((1 : LinkNo)) = 5)
    ∧ ((w14_17.hub.link ((1 : LinkNo))).unacked = ((4094), (3)) :: (([] : List (Nat × Nat))))
    ∧ ((w14_17.hub.link ((1 : LinkNo))).run ≠ 0)
    ∧ ((w14_17.hub.link ((1 : LinkNo))).runSeq = (4094))
    ∧ (max 1 (w14_17.hub.rdF (Reg.KL_REPLAY_CFG ((1 : LinkNo))) 15 12) ≤ (w14_17.hub.link ((1 : LinkNo))).run + 1)
    ∧ ((w14_17.hub.link ((1 : LinkNo))).ackAt + w14_17.hub.replayTmo ((1 : LinkNo)) ≤ w14_17.hub.mono)
    ∧ (w14_18.hub.linkUp ((1 : LinkNo)) = true)
    ∧ (w14_18.hub.idleReady ((1 : LinkNo)) = true)
    ∧ (w14_18.hub.rdF Reg.KLL_IDLE_HOLD 15 0 ≠ 0)
    ∧ (w14_19.hub.hears ((1 : LinkNo)) = true)
    ∧ (w14_19.hub.klState ((1 : LinkNo)) = 5)
    ∧ (w14_19.hub.idleReady ((1 : LinkNo)) = false)
    ∧ ((w14_19.hub.link ((1 : LinkNo))).idleReq = false)
    ∧ ((w14_19.hub.link ((1 : LinkNo))).macCell = none)
    ∧ (w14_20.hub.hears ((1 : LinkNo)) = true)
    ∧ (w14_20.hub.calm ((1 : LinkNo)) = true)
    ∧ (w14_20.hub.klState ((1 : LinkNo)) = 5)
    ∧ (w14_20.hub.idleReady ((1 : LinkNo)) = true)
    ∧ ((w14_20.hub.link ((1 : LinkNo))).idleReq = false)
    ∧ ((w14_20.hub.link ((1 : LinkNo))).macCell = none)
    ∧ (w14_21.hub.hears ((1 : LinkNo)) = true)
    ∧ (w14_21.hub.calm ((1 : LinkNo)) = true)
    ∧ (w14_21.hub.klState ((1 : LinkNo)) = 5)
    ∧ ((w14_21.hub.link ((1 : LinkNo))).idleReq = true)
    ∧ ((w14_21.hub.link ((1 : LinkNo))).macCell = none)
    ∧ (w14_21.hub.keepAwake ((1 : LinkNo)) = false)
    ∧ (w14_22.hub.hears ((1 : LinkNo)) = true)
    ∧ ((w14_22.hub.link ((1 : LinkNo))).idleReq = true)
    ∧ ((w14_22.hub.link ((1 : LinkNo))).macCell = none)
    ∧ (w14_23.hub.linkUp ((1 : LinkNo)) = true)
    ∧ (w14_23.hub.calm ((1 : LinkNo)) = true)
    ∧ (w14_23.hub.klState ((1 : LinkNo)) = 6)
    ∧ (w14_23.hub.pendTotal ((1 : LinkNo)) ≠ 0 ∨ w14_23.hub.keepAwake ((1 : LinkNo)) = true)
    ∧ (w14_23.hub.allLanes ((1 : LinkNo)) 16 = true)
    ∧ (w14_23.hub.holdCause ((1 : LinkNo)) = none)
    ∧ (w14_24.hub.hears ((1 : LinkNo)) = true)
    ∧ (w14_24.hub.klState ((1 : LinkNo)) = 5)
    ∧ ((w14_24.hub.link ((1 : LinkNo))).idleReq = true)
    ∧ ((w14_24.hub.link ((1 : LinkNo))).macCell = none)
    ∧ (w14_24.hub.keepAwake ((1 : LinkNo)) = true)
    ∧ (w14_25.hub.hears ((1 : LinkNo)) = true)
    ∧ (2 ≤ w14_25.hub.klState ((1 : LinkNo)))
    ∧ (w14_25.hub.klState ((1 : LinkNo)) ≤ 8)
    ∧ (w14_26.hub.linkUp ((8 : LinkNo)) = true)
    ∧ (2 ≤ w14_26.hub.klState ((8 : LinkNo)))
    ∧ (w14_26.hub.klState ((8 : LinkNo)) ≤ 8)
    ∧ (w14_26.hub.klState ((8 : LinkNo)) ≠ 7)
    ∧ ((w14_26.hub.link ((8 : LinkNo))).ackAt + w14_26.hub.replayTmo ((8 : LinkNo)) ≤ w14_26.hub.mono)
    ∧ (w14_27.hub.hears ((8 : LinkNo)) = true)
    ∧ (w14_27.hub.klState ((8 : LinkNo)) = 5)
    ∧ (w14_28.hub.hears ((8 : LinkNo)) = true)
    ∧ (w14_28.hub.klState ((8 : LinkNo)) = 5)
    ∧ ((w14_28.hub.link ((8 : LinkNo))).idleReq = true)
    ∧ (w14_29.hub.linkUp ((8 : LinkNo)) = true)
    ∧ (w14_29.hub.klState ((8 : LinkNo)) = 6)
    ∧ (w14_29.hub.pendTotal ((8 : LinkNo)) ≠ 0 ∨ w14_29.hub.keepAwake ((8 : LinkNo)) = true) := by
  and_intros <;> decide +kernel

def w14_30 : State := on rootS fun h => (h.wr (Reg.KL_STATE 1) 5).wr Reg.KLL_TT_CFG 1

def w14_31 : State := on rootS fun h => (h.wr (Reg.KL_STATE 1) 5).wr Reg.KLL_TT_CFG 1

def w14_32 : State := on rootS fun h => { (h.wr (Reg.KL_STATE 1) 5).wr Reg.KLL_TT_CFG 1 with xfer := { busy := true, seq := 9 } }

def w14_33 : State := on rootS fun h => { ((h.wr (Reg.KL_STATE 1) 5).wr Reg.KLL_TT_CFG 1).wr (Reg.KL_TT_ASYM 1) 0xFFFF with xfer := { busy := true, seq := 9, t1 := 100, t4 := some 700 } }

def w14_34 : State := on rootS fun h => { later 500000 h with xfer := { busy := true, good := 4, reqAt := h.mono } }

def w14_35 : State := on rootS fun h => { later 500000 (h.wr Reg.KLL_TT_STAT 0x30001) with xfer := { busy := true, good := 4, reqAt := h.mono } }

def w14_36 : State := on rootS fun h => (ask .kll 0x11 [] h).wr (Reg.KL_STATE 1) 5 |>.wr Reg.KLL_TT_CFG 1

def w14_37 : State := on rootS fun h => (ask .kll 0x11 [] h).wr (Reg.KL_STATE 1) 6 |>.wr Reg.KLL_TT_CFG 1

def w14_38 : State := on rootS fun h => (h.wr (Reg.KL_STATE 1) 5).wr Reg.KLL_TT_CFG 1

def w14_39 : State := on rootS fun h => { ((h.wr (Reg.KL_STATE 1) 5).wr Reg.KLL_TT_CFG 1).wr (Reg.KL_TT_ASYM 1) 0xFFFF with xfer := { busy := true, seq := 9, t1 := 100, t4 := some 700, viaOp := true } }

def w14_40 : State := on rootS fun h => { later 500000 h with xfer := { busy := true, good := 4, reqAt := h.mono, viaOp := true } }

def w14_41 : State := on rootS fun h => (ask .kll 0x11 [] h).wr (Reg.KL_STATE 1) 6 |>.wr Reg.KLL_TT_CFG 1

/-- The hypotheses of Obligations.TimeTransfer hold somewhere, clause by clause. -/
theorem wit_timeTransfer :
    (w14_30.hub.up .kll = true)
    ∧ (w14_30.hub.ttUp = some (1))
    ∧ (w14_30.hub.xfer.busy = false)
    ∧ (w14_30.hub.xfer.lastTick.all (fun a => decide (a + 1000000 ≤ w14_30.hub.mono)) = true)
    ∧ (w14_31.hub.hears ((1 : LinkNo)) = true)
    ∧ (w14_31.hub.klState ((1 : LinkNo)) = 5)
    ∧ ((160000) ≤ 160000)
    ∧ ((w14_31.hub.link ((1 : LinkNo))).macCell = none)
    ∧ (w14_32.hub.hears ((1 : LinkNo)) = true)
    ∧ (w14_32.hub.ttSource = some ((1 : LinkNo)).val)
    ∧ (w14_32.hub.xfer.busy = true)
    ∧ (((9 : BitVec 16)).toNat = w14_32.hub.xfer.seq)
    ∧ ((w14_32.hub.link ((1 : LinkNo))).macCell = none)
    ∧ (w14_33.hub.hears ((1 : LinkNo)) = true)
    ∧ (w14_33.hub.ttSource = some ((1 : LinkNo)).val)
    ∧ (w14_33.hub.xfer.busy = true)
    ∧ (((9 : BitVec 16)).toNat = w14_33.hub.xfer.seq)
    ∧ (w14_33.hub.xfer.t4 = some (700))
    ∧ (w14_33.hub.xfer.viaOp = false)
    ∧ (w14_33.hub.timeSrc ≠ 1)
    ∧ (w14_33.hub.xfer.good < 7)
    ∧ (w14_33.hub.xfer.bad = 0)
    ∧ ((((((700 : Nat) : Int) - (31 * 16 + 15 : Nat)) - ((30 * 16 + 2 : Nat) - (100 : Int)) + (-1)) / 2) = (((((700) : Nat) : Int) - (((31 : BitVec 64)).toNat * 16 + ((15 : BitVec 4)).toNat : Nat)) - ((((30 : BitVec 64)).toNat * 16 + ((2 : BitVec 4)).toNat : Nat) - (w14_33.hub.xfer.t1 : Int))
      + (BitVec.ofNat 16 (w14_33.hub.rdF (Reg.KL_TT_ASYM ((1 : LinkNo))) 15 0)).toInt) / 2)
    ∧ (w14_34.hub.up .kll = true)
    ∧ (w14_34.hub.xfer.busy = true)
    ∧ (w14_34.hub.xfer.reqAt + 500000 ≤ w14_34.hub.mono)
    ∧ (w14_34.hub.xfer.viaOp = false)
    ∧ (w14_34.hub.rdF Reg.KLL_TT_STAT 23 16 < 3)
    ∧ (w14_35.hub.up .kll = true)
    ∧ (w14_35.hub.xfer.busy = true)
    ∧ (w14_35.hub.xfer.reqAt + 500000 ≤ w14_35.hub.mono)
    ∧ (w14_35.hub.xfer.viaOp = false)
    ∧ (w14_35.hub.rdF Reg.KLL_TT_STAT 23 16 = 3)
    ∧ (w14_35.hub.rdB Reg.KLL_TT_STAT 0 = true)
    ∧ (w14_35.hub.timeSrc ≠ 1)
    ∧ (w14_36.hub.opRunning .kll 0x11 = true)
    ∧ (w14_36.hub.up .kll = true)
    ∧ (w14_36.hub.ttUp = some (1))
    ∧ (w14_36.hub.xfer.viaOp = false)
    ∧ (w14_37.hub.opRunning .kll 0x11 = true)
    ∧ (w14_37.hub.up .kll = true)
    ∧ (w14_37.hub.ttUp = none)
    ∧ (w14_38.hub.hears ((1 : LinkNo)) = true)
    ∧ (w14_38.hub.klState ((1 : LinkNo)) = 5)
    ∧ ((160000) ≤ 160000)
    ∧ (w14_39.hub.hears ((1 : LinkNo)) = true)
    ∧ (w14_39.hub.ttSource = some ((1 : LinkNo)).val)
    ∧ (w14_39.hub.xfer.busy = true)
    ∧ (((9 : BitVec 16)).toNat = w14_39.hub.xfer.seq)
    ∧ (w14_39.hub.xfer.t4 = some (700))
    ∧ (w14_40.hub.up .kll = true)
    ∧ (w14_40.hub.xfer.busy = true)
    ∧ (w14_40.hub.xfer.reqAt + 500000 ≤ w14_40.hub.mono)
    ∧ (w14_41.hub.opRunning .kll 0x11 = true) := by
  and_intros <;> decide +kernel

def w15_1 : State := on rootS fun h => { h with waits := [{ port := 0x11, flow := 0xFFC000, slot := some 1, payload := [1, 2] }] }

def w15_2 : State := on rootS fun h => { h.wr (Reg.TP_EG_LIMIT 1 6) 0 with waits := [{ port := 0x11, flow := 0xFFC000, slot := some 1, payload := [1, 2] }] }

def w15_3 : State := on rootS fun h => later 1000000 <| { h.setCtx 9 { state := .resident, handle := 77, port := 2 } with opens := [{ port := 1, flow := 77, fseq := 3, tc := 2, count := 1, cells := [0], time := 0, fate := .admitted 9 4 }], cells := [(0, { slot := 9, flow := 77, fseq := 3, tc := 2, first := true, last := false, inp := 1, pennant := 0, payload := [], place := .listed })] }

def w15_4 : State := on rootS fun h => later 1000000000 <| { h.setCtx 9 { state := .resident, handle := 77, port := 2, rsqNext := 65535, held := [{ fseq := 3, cells := [0], since := 0, tmask := 4 }] } with cells := [(0, { slot := 9, flow := 77, fseq := 3, tc := 2, first := true, last := false, inp := 1, tmask := 4, pennant := 0, payload := [], place := .reseq })] }

def w15_5 : State := on rootS fun h => { h.wrB Reg.TSS_LEND_CFG 0 true with banks := { copying := some 31 } }

def w15_6 : State := on rootS fun h => { h with banks := { copying := some 31, condemn := true } }

def w15_7 : State := on rootS fun h => { h.wrB Reg.TSS_LEND_CFG 0 true with banks := { testing := some 32 } }

def w15_8 : State := on rootS (ask .tsc 0x14 [31])

def w15_9 : State := on rootS fun h => { ask .tsc 0x14 [31] h with banks := { copying := some 5 } }

def w15_10 : State := on rootS fun h => (ask .tsc 0x14 [31] h).wrB Reg.TSC_CAP 23 false

def w15_11 : State := on rootS fun h => { h with banks := { draining := some 31 } }

def w15_12 : State := on rootS fun h => { h.setCtx 9 { state := .resident, handle := 77, port := 2, list := [5] } with cells := [(5, { slot := 9, flow := 77, fseq := 3, tc := 2, first := true, last := false, inp := 1, pend := 4, pennant := 0, payload := [], place := .listed })] }

def w15_13 : State := on rootS fun h => { h with waits := [{ port := 0x11, flow := 0xFFC000, slot := some 1, payload := [1, 2] }] }

def w15_14 : State := on rootS fun h => later 1000000000 <| { h.setCtx 9 { state := .resident, handle := 77, port := 2, rsqNext := 65535, held := [{ fseq := 3, cells := [0], since := 0, tmask := 4 }] } with cells := [(0, { slot := 9, flow := 77, fseq := 3, tc := 2, first := true, last := false, inp := 1, tmask := 4, pennant := 0, payload := [], place := .reseq })] }

def w15_15 : State := on rootS fun h => { h.wrB Reg.TSS_LEND_CFG 0 true with banks := { testing := some 3 } }

def w15_16 : State := on rootS fun h => { h.setCtx 9 { state := .resident, handle := 77, port := 2, list := [5] } with cells := [(5, { slot := 9, flow := 77, fseq := 3, tc := 2, first := true, last := false, inp := 1, pend := 4, pennant := 0, payload := [], place := .listed })] }

/-- The hypotheses of Obligations.SwitchCore hold somewhere, clause by clause. -/
theorem wit_switchCore :
    (w15_1.hub.mainUp = true)
    ∧ (w15_1.hub.waits = [(({ port := 0x11, flow := 0xFFC000, slot := some 1, payload := [1, 2] } : WaitFrame))])
    ∧ ((({ port := 0x11, flow := 0xFFC000, slot := some 1, payload := [1, 2] } : WaitFrame)).port = 0x11)
    ∧ ((({ port := 0x11, flow := 0xFFC000, slot := some 1, payload := [1, 2] } : WaitFrame)).slot = some (1))
    ∧ ((1) < 9)
    ∧ (w15_1.hub.foyer 0x11 = [])
    ∧ ((w15_1.hub.ctx (1)).reseq = false)
    ∧ (w15_1.hub.verdict (1) 0x11 (w15_1.hub.ctx (1)).tc (cellCount (({ port := 0x11, flow := 0xFFC000, slot := some 1, payload := [1, 2] } : WaitFrame)).payload) = .accept (2) 0)
    ∧ (w15_2.hub.mainUp = true)
    ∧ (holdsAt ((0x11 : PortNo)) = true)
    ∧ (w15_2.hub.waits = [(({ port := 0x11, flow := 0xFFC000, slot := some 1, payload := [1, 2] } : WaitFrame))])
    ∧ ((({ port := 0x11, flow := 0xFFC000, slot := some 1, payload := [1, 2] } : WaitFrame)).port = ((0x11 : PortNo)).val)
    ∧ ((({ port := 0x11, flow := 0xFFC000, slot := some 1, payload := [1, 2] } : WaitFrame)).slot = some (1))
    ∧ (w15_2.hub.foyer ((0x11 : PortNo)) = [])
    ∧ ((w15_2.hub.verdict (1) ((0x11 : PortNo)) (w15_2.hub.ctx (1)).tc (cellCount (({ port := 0x11, flow := 0xFFC000, slot := some 1, payload := [1, 2] } : WaitFrame)).payload)).passes ((0x11 : PortNo)) = false)
    ∧ (w15_3.hub.mainUp = true)
    ∧ (w15_3.hub.openOf ((1 : PortNo)) ((77 : BitVec 24)).toNat = some (({ port := 1, flow := 77, fseq := 3, tc := 2, count := 1, cells := [0], time := 0, fate := .admitted 9 4 } : OpenFrame)))
    ∧ ((({ port := 1, flow := 77, fseq := 3, tc := 2, count := 1, cells := [0], time := 0, fate := .admitted 9 4 } : OpenFrame)).time + w15_3.hub.reasmTmo ≤ w15_3.hub.mono)
    ∧ (w15_4.hub.mainUp = true)
    ∧ ((w15_4.hub.ctx ((9 : SlotNo))).held = [(({ fseq := 3, cells := [0], since := 0, tmask := 4 } : HeldFrame))])
    ∧ ((({ fseq := 3, cells := [0], since := 0, tmask := 4 } : HeldFrame)).fseq < 65536)
    ∧ ((w15_4.hub.ctx ((9 : SlotNo))).rsqNext < 65536)
    ∧ ((({ fseq := 3, cells := [0], since := 0, tmask := 4 } : HeldFrame)).fseq ≠ (w15_4.hub.ctx ((9 : SlotNo))).rsqNext)
    ∧ ((({ fseq := 3, cells := [0], since := 0, tmask := 4 } : HeldFrame)).since + w15_4.hub.reseqTmo ≤ w15_4.hub.mono)
    ∧ (w15_5.hub.mainUp = true)
    ∧ (w15_5.hub.banks.copying = some (31))
    ∧ ((31) < 32)
    ∧ (w15_5.hub.banks.condemn = false)
    ∧ (w15_5.hub.lends = true)
    ∧ (w15_6.hub.mainUp = true)
    ∧ (w15_6.hub.banks.copying = some (31))
    ∧ ((31) < 32)
    ∧ (w15_6.hub.banks.condemn = true)
    ∧ (w15_6.hub.sit.due = false)
    ∧ (w15_6.hub.banks.waiting = [])
    ∧ (w15_6.hub.repairMap.length < 256)
    ∧ (w15_7.hub.mainUp = true)
    ∧ (w15_7.hub.banks.testing = some (32))
    ∧ ((32) < 33)
    ∧ (w15_7.hub.lends = true)
    ∧ (w15_7.hub.sit.waits = false)
    ∧ (w15_7.hub.sit.due = false)
    ∧ (w15_7.hub.banks.waiting = [])
    ∧ (w15_7.hub.sitStep < 32)
    ∧ (w15_8.hub.opRunning .tsc 0x14 = true)
    ∧ ((31) = (w15_8.hub.arg .tsc 0).toNat)
    ∧ ((31) < 32)
    ∧ (w15_8.hub.bankOf (31) ≠ 0x3F)
    ∧ (w15_8.hub.banks.testing = none)
    ∧ (w15_8.hub.banks.condemn = false)
    ∧ (w15_8.hub.banks.draining = none)
    ∧ (w15_8.hub.banks.waiting = [])
    ∧ (w15_8.hub.sparePresent = true)
    ∧ (w15_8.hub.banks.copying = none)
    ∧ (w15_9.hub.opRunning .tsc 0x14 = true)
    ∧ ((31) = (w15_9.hub.arg .tsc 0).toNat)
    ∧ ((31) < 32)
    ∧ (w15_9.hub.bankOf (31) ≠ 0x3F)
    ∧ (w15_9.hub.banks.testing = none)
    ∧ (w15_9.hub.banks.condemn = false)
    ∧ (w15_9.hub.banks.draining = none)
    ∧ (w15_9.hub.banks.waiting = [])
    ∧ (w15_9.hub.sparePresent = true)
    ∧ (w15_9.hub.banks.copying = some (5))
    ∧ (w15_10.hub.opRunning .tsc 0x14 = true)
    ∧ ((31) = (w15_10.hub.arg .tsc 0).toNat)
    ∧ ((31) < 32)
    ∧ (w15_10.hub.bankOf (31) ≠ 0x3F)
    ∧ (w15_10.hub.banks.testing = none)
    ∧ (w15_10.hub.banks.condemn = false)
    ∧ (w15_10.hub.banks.draining = none)
    ∧ (w15_10.hub.banks.waiting = [])
    ∧ (w15_10.hub.sparePresent = false)
    ∧ (w15_11.hub.mainUp = true)
    ∧ (w15_11.hub.banks.draining = some (31))
    ∧ ((31) < 32)
    ∧ (w15_11.hub.freeInBank (31) = 2048)
    ∧ (w15_11.hub.sit.due = false)
    ∧ (w15_11.hub.banks.waiting = [])
    ∧ (w15_11.hub.repairMap.length < 256)
    ∧ (2048 ≤ w15_11.hub.rdF Reg.TSC_CAP 16 0)
    ∧ (w15_12.hub.mainUp = true)
    ∧ (w15_12.hub.cell ((5 : BitVec 16)).toNat = some (({ slot := 9, flow := 77, fseq := 3, tc := 2, first := true, last := false, inp := 1, pend := 4, pennant := 0, payload := [], place := .listed } : CellSt)))
    ∧ ((w15_12.hub.ctx (({ slot := 9, flow := 77, fseq := 3, tc := 2, first := true, last := false, inp := 1, pend := 4, pennant := 0, payload := [], place := .listed } : CellSt)).slot).list = [((5 : BitVec 16)).toNat])
    ∧ ((({ slot := 9, flow := 77, fseq := 3, tc := 2, first := true, last := false, inp := 1, pend := 4, pennant := 0, payload := [], place := .listed } : CellSt)).repl = 0)
    ∧ ((({ slot := 9, flow := 77, fseq := 3, tc := 2, first := true, last := false, inp := 1, pend := 4, pennant := 0, payload := [], place := .listed } : CellSt)).pend < 2 ^ 18)
    ∧ (w15_12.hub.opens = [])
    ∧ (w15_13.hub.mainUp = true)
    ∧ (holdsAt ((0x11 : PortNo)) = true)
    ∧ (w15_14.hub.mainUp = true)
    ∧ ((w15_14.hub.ctx ((9 : SlotNo))).held.head? = some (({ fseq := 3, cells := [0], since := 0, tmask := 4 } : HeldFrame)))
    ∧ ((({ fseq := 3, cells := [0], since := 0, tmask := 4 } : HeldFrame)).since + w15_14.hub.reseqTmo ≤ w15_14.hub.mono)
    ∧ (w15_15.hub.mainUp = true)
    ∧ (w15_15.hub.banks.testing.isSome = true)
    ∧ (w15_15.hub.lends = true)
    ∧ (w15_16.hub.mainUp = true)
    ∧ ((w15_16.hub.cell ((5 : BitVec 16)).toNat).isSome = true) := by
  and_intros <;> decide +kernel

def w15_17 : State := on rootS fun h => (ask .tsc 0x10 [8191] h).setCtx 8191 { state := .resident, handle := 77, port := 2, cntGap := 9 }

def w15_18 : State := on rootS fun h => (ask .tsc 0x11 [8191] h).setCtx 8191 { state := .resident, handle := 77, port := 2, cntGap := 9 }

def w15_19 : State := on rootS fun h => (ask .tsc 0x12 [8191] h).setCtx 8191 { state := .resident, handle := 77, port := 2, cntGap := 9 }

def w15_20 : State := on rootS fun h => (ask .tsc 0x15 [8191] h).setCtx 8191 { state := .resident, handle := 77, port := 2, cntGap := 9 }

def w15_21 : State := on rootS (ask .tsc 0x11 [8192])

def w15_22 : State := on rootS (ask .tsc 0x11 [8191])

/-- The hypotheses of Obligations.FlowCounts hold somewhere, clause by clause. -/
theorem wit_flowCounts :
    (w15_17.hub.opRunning .tsc 0x10 = true)
    ∧ ((8191) = (w15_17.hub.arg .tsc 0).toNat)
    ∧ ((8191) < 8192)
    ∧ ((({ state := .resident, handle := 77, port := 2, cntGap := 9 } : Ctx)) = w15_17.hub.ctx (8191))
    ∧ ((({ state := .resident, handle := 77, port := 2, cntGap := 9 } : Ctx)).state = .resident)
    ∧ (w15_18.hub.opRunning .tsc 0x11 = true)
    ∧ ((8191) = (w15_18.hub.arg .tsc 0).toNat)
    ∧ ((8191) < 8192)
    ∧ ((({ state := .resident, handle := 77, port := 2, cntGap := 9 } : Ctx)) = w15_18.hub.ctx (8191))
    ∧ ((({ state := .resident, handle := 77, port := 2, cntGap := 9 } : Ctx)).state = .resident)
    ∧ (w15_19.hub.opRunning .tsc 0x12 = true)
    ∧ ((8191) = (w15_19.hub.arg .tsc 0).toNat)
    ∧ ((8191) < 8192)
    ∧ ((({ state := .resident, handle := 77, port := 2, cntGap := 9 } : Ctx)) = w15_19.hub.ctx (8191))
    ∧ ((({ state := .resident, handle := 77, port := 2, cntGap := 9 } : Ctx)).state = .resident)
    ∧ (w15_20.hub.opRunning .tsc 0x15 = true)
    ∧ ((8191) = (w15_20.hub.arg .tsc 0).toNat)
    ∧ ((8191) < 8192)
    ∧ ((({ state := .resident, handle := 77, port := 2, cntGap := 9 } : Ctx)) = w15_20.hub.ctx (8191))
    ∧ ((({ state := .resident, handle := 77, port := 2, cntGap := 9 } : Ctx)).state = .resident)
    ∧ (w15_21.hub.opRunning .tsc 0x11 = true)
    ∧ (8192 ≤ (w15_21.hub.arg .tsc 0).toNat)
    ∧ (w15_22.hub.opRunning .tsc 0x11 = true)
    ∧ ((w15_22.hub.arg .tsc 0).toNat < 8192)
    ∧ ((w15_22.hub.ctx (w15_22.hub.arg .tsc 0).toNat).state ≠ .resident) := by
  and_intros <;> decide +kernel

def w15_23 : State := on rootS (ask .tsc 0x13 [])

def w15_24 : State := on rootS fun h => { ask .tsc 0x13 [] h with counts := { kitty := 65535 } }

def w15_25 : State := on rootS fun h => (ask .tsc 0x13 [] h).wrB Reg.TSC_LEDGER_STAT 2 true

def w15_26 : State := on rootS fun h => later 2600000000000 <| h.wr Reg.SIT_TARGET_EN 1

def w15_27 : State := on rootS fun h => later 2600000000000 <| h.updSit fun x => { x with running := true }

def w15_28 : State := on rootS fun h => later 86400000000000 h

def w15_29 : State := on leafS fun h => h.wr Reg.SIT_TARGET_EN 4

def w15_30 : State := on leafS fun h => { later 255000000000 ((h.wr Reg.SIT_TARGET_EN 2).wrB (Reg.LN_STAT 3) 18 true) with lanes := [(3, { testFrom := h.mono })] }

def w15_31 : State := on leafS fun h => h.wr Reg.SIT_TARGET_EN 2

def w15_32 : State := on leafS fun h => h.wr Reg.SIT_TARGET_EN 8

def w15_33 : State := on leafS fun h => (ask .sit 0x10 [2, 3] h).wr Reg.SIT_TARGET_EN 4

def w15_34 : State := on leafS fun h => (ask .sit 0x10 [2, 3] h).wr Reg.SIT_TARGET_EN 4

def w15_35 : State := on leafS fun h => h.wr Reg.SIT_TARGET_EN 16

def w15_36 : State := on leafS fun h => later 2000000000 <| (ask .sit 0x10 [2, 3] h).wr Reg.SIT_TARGET_EN 4

def w15_37 : State := on leafS fun h => (ask .sit 0x11 [2, 3] h).wr Reg.SIT_COVER_STAT 0x500

/-- The hypotheses of Obligations.LedgerAndServiceTest hold somewhere, clause by clause. -/
theorem wit_ledgerAndServiceTest :
    (w15_23.hub.opRunning .tsc 0x13 = true)
    ∧ (w15_23.hub.rdB Reg.TSC_LEDGER_STAT 2 = false)
    ∧ (w15_23.hub.unequal = [])
    ∧ (w15_24.hub.opRunning .tsc 0x13 = true)
    ∧ (w15_24.hub.rdB Reg.TSC_LEDGER_STAT 2 = false)
    ∧ (w15_24.hub.unequal = ((⟨0, 0, -1⟩ : Unequal)) :: (([] : List Unequal)))
    ∧ (w15_25.hub.opRunning .tsc 0x13 = true)
    ∧ (w15_25.hub.rdB Reg.TSC_LEDGER_STAT 2 = true)
    ∧ (w15_26.hub.sitRuns = true)
    ∧ (w15_26.hub.sit.running = false)
    ∧ (w15_26.hub.banks.condemn = false)
    ∧ (w15_26.hub.banks.draining = none)
    ∧ (w15_26.hub.banks.copying = none)
    ∧ (w15_26.hub.sitOn 0 = true)
    ∧ (w15_26.hub.sparePresent = true)
    ∧ (w15_26.hub.sit.dueAt + w15_26.hub.bankPeriod ≤ w15_26.hub.mono)
    ∧ (w15_27.hub.sitRuns = true)
    ∧ (w15_27.hub.sit.running = true)
    ∧ (w15_27.hub.sit.dueAt + w15_27.hub.bankPeriod ≤ w15_27.hub.mono)
    ∧ (w15_28.hub.sitRuns = true)
    ∧ (w15_28.hub.sit.late = false)
    ∧ (w15_28.hub.sit.start + w15_28.hub.coverLimit ≤ w15_28.hub.mono)
    ∧ (w15_29.hub.sitRuns = true)
    ∧ (((2 : Fin 6)) = 2 ∨ ((2 : Fin 6)) = 4 ∨ ((2 : Fin 6)) = 5)
    ∧ (w15_29.hub.sitOn ((2 : Fin 6)) = true)
    ∧ (sitExists ((2 : Fin 6)) (3) = true)
    ∧ (w15_29.hub.sitChance ((2 : Fin 6)) (3) = true)
    ∧ (w15_30.hub.sitRuns = true)
    ∧ (w15_30.hub.sitOn 1 = true)
    ∧ ((3) < 40)
    ∧ (w15_30.hub.sitChance 1 (3) = true)
    ∧ (w15_30.hub.sitHolds (3) = true)
    ∧ (w15_30.hub.laneTested (3) true = true)
    ∧ (w15_30.hub.rdF Reg.SIT_LANE_CFG 31 16 < (65536))
    ∧ (w15_30.hub.repairMap.length < 256)
    ∧ (w15_31.hub.sitRuns = true)
    ∧ (w15_31.hub.sitOn 1 = true)
    ∧ ((3) < 40)
    ∧ (w15_31.hub.sitChance 1 (3) = true)
    ∧ (w15_31.hub.sitHolds (3) = false)
    ∧ (w15_32.hub.sitRuns = true)
    ∧ (w15_32.hub.sitOn 3 = true)
    ∧ ((3) < 5)
    ∧ ((1) ≠ 0)
    ∧ (w15_33.hub.opRunning .sit 0x10 = true)
    ∧ (w15_33.hub.sitRuns = true)
    ∧ (((2 : Fin 6)) = 2 ∨ ((2 : Fin 6)) = 4 ∨ ((2 : Fin 6)) = 5)
    ∧ ((w15_33.hub.arg .sit 0).toNat = ((2 : Fin 6)).val)
    ∧ ((w15_33.hub.arg .sit 1).toNat = (3))
    ∧ (w15_33.hub.sitHere ((2 : Fin 6)) (3) = true)
    ∧ (w15_33.hub.sitOn ((2 : Fin 6)) = true)
    ∧ (w15_33.hub.sitOffers ((2 : Fin 6)) (3) = true)
    ∧ (w15_33.hub.sitChance ((2 : Fin 6)) (3) = true)
    ∧ (w15_34.hub.opRunning .sit 0x10 = true)
    ∧ (w15_34.hub.sitRuns = true)
    ∧ (((2 : Fin 6)) ≠ 0)
    ∧ (((2 : Fin 6)) ≠ 1)
    ∧ ((w15_34.hub.arg .sit 0).toNat = ((2 : Fin 6)).val)
    ∧ ((w15_34.hub.arg .sit 1).toNat = (3))
    ∧ (w15_34.hub.sitHere ((2 : Fin 6)) (3) = true)
    ∧ (w15_34.hub.sitOn ((2 : Fin 6)) = true)
    ∧ (w15_34.hub.sitOffers ((2 : Fin 6)) (3) = true)
    ∧ (w15_34.hub.sitChance ((2 : Fin 6)) (3) = true)
    ∧ (w15_35.hub.sitRuns = true)
    ∧ (((4 : Fin 6)) ≠ 0)
    ∧ (((4 : Fin 6)) ≠ 1)
    ∧ (w15_35.hub.sitOn ((4 : Fin 6)) = true)
    ∧ (sitExists ((4 : Fin 6)) (16) = true)
    ∧ (w15_35.hub.sitChance ((4 : Fin 6)) (16) = true)
    ∧ (w15_36.hub.opRunning .sit 0x10 = true)
    ∧ (w15_36.hub.sitRuns = true)
    ∧ (((2 : Fin 6)) ≠ 0)
    ∧ (((2 : Fin 6)) ≠ 1)
    ∧ ((w15_36.hub.arg .sit 0).toNat = ((2 : Fin 6)).val)
    ∧ ((w15_36.hub.arg .sit 1).toNat = (3))
    ∧ (w15_36.hub.sitHere ((2 : Fin 6)) (3) = true)
    ∧ (w15_36.hub.sitOn ((2 : Fin 6)) = true)
    ∧ (w15_36.hub.sitOffers ((2 : Fin 6)) (3) = true)
    ∧ ((w15_36.hub.mbx .sit).postedAt + 2000000000 ≤ w15_36.hub.mono)
    ∧ (w15_37.hub.opRunning .sit 0x11 = true) := by
  and_intros <;> decide +kernel

def w16_1 : State := on rootS (ask .fcm 0x10 [77])

def w16_2 : State := on rootS (ask .fcm 0x10 [8, 0x80000000])

def w16_3 : State := on rootS fun h => (ask .fcm 0x10 [77] h).setCtx 9 { state := .resident, handle := 77 }

def w16_4 : State := on rootS fun h => (ask .fcm 0x11 [77] h).setCtx 9 { state := .resident, handle := 77 }

def w16_5 : State := on rootS fun h => (ask .fcm 0x11 [77] h).setCtx 9 { state := .resident, handle := 77, tc := 7 }

def w16_6 : State := on rootS fun h => (ask .fcm 0x12 [9, 0x80000000] h).setCtx 9 { state := .resident, handle := 77, tc := 7 }

def w16_7 : State := on rootS fun h => { ask .fcm 0x12 [9, 0x80000000] h with ctxs := (9, ({ state := .resident, handle := 9 } : Ctx)) :: ((List.range 6135).map fun i => (i + 10, ({ state := .resident, handle := i + 10, pin := true } : Ctx))) }

def w16_8 : State := on rootS fun h => (ask .fcm 0x13 [9, 0x80000000] h).setCtx 9 { state := .resident, handle := 77, tc := 3, pin := true }

def w16_9 : State := on rootS fun h => (ask .fcm 0x13 [9, 0x80000000] h).setCtx 9 { state := .resident, handle := 77, tc := 7, pin := true }

def w16_10 : State := on rootS fun h => (ask .fcm 0x14 [77, 0] h).setCtx 9 { state := .resident, handle := 77, tc := 3 }

def w16_11 : State := on rootS fun h => (ask .fcm 0x14 [77, 0] h).setCtx 9 { state := .resident, handle := 77, tc := 3, pin := true }

def w16_12 : State := on rootS fun h => (ask .fcm 0x15 [8, 0x80000000] h)

def w16_13 : State := on transitS fun h => ((ask .fcm 0x16 [77] h).setCtx 9 { state := .resident, handle := 77, tc := 3 }).wr Reg.FCM_BS_CFG 1

def w16_14 : State := on transitS fun h => ((ask .fcm 0x16 [77] h).setCtx 9 { state := .resident, handle := 77, tc := 3, pin := true }).wr Reg.FCM_BS_CFG 1

def w16_15 : State := on rootS (ask .fcm 0x10 [77])

def w16_16 : State := on rootS (ask .fcm 0x11 [77])

def w16_17 : State := on rootS (ask .fcm 0x12 [77])

def w16_18 : State := on rootS (ask .fcm 0x14 [77])

def w16_19 : State := on rootS (ask .fcm 0x16 [77])

/-- The hypotheses of Obligations.FlowOperations hold somewhere, clause by clause. -/
theorem wit_flowOperations :
    (w16_1.hub.opRunning .fcm 0x10 = true)
    ∧ ((77) = (w16_1.hub.arg .fcm 0).toNat)
    ∧ ((77) < 0xFFC000)
    ∧ (bit (w16_1.hub.arg .fcm 1) 31 = false)
    ∧ (Tab.find w16_1.hub.paging.owed (77) = none)
    ∧ (w16_1.hub.lookup (77) = .miss)
    ∧ (w16_1.hub.freeSlot = some (9))
    ∧ (9 ≤ (9))
    ∧ ((w16_1.hub.ctx (9)).state = .free)
    ∧ (w16_1.hub.noFoyer (77) = true)
    ∧ (w16_1.hub.paired = false)
    ∧ (((({ handle := 77 } : Ctx).withPolicy [0, 0, 0, 0, 0, 0, 0])) = ({ handle := (77) } : Ctx).withPolicy w16_1.hub.template)
    ∧ (((({ handle := 77 } : Ctx).withPolicy [0, 0, 0, 0, 0, 0, 0])).tc ≠ 7)
    ∧ (bit (w16_1.hub.template.getD 0 0) 29 = false)
    ∧ (w16_2.hub.opRunning .fcm 0x10 = true)
    ∧ ((8) = (w16_2.hub.arg .fcm 0).toNat % 8192)
    ∧ (bit (w16_2.hub.arg .fcm 1) 31 = true)
    ∧ (w16_3.hub.opRunning .fcm 0x10 = true)
    ∧ ((77) = (w16_3.hub.arg .fcm 0).toNat)
    ∧ (bit (w16_3.hub.arg .fcm 1) 31 = false)
    ∧ (w16_4.hub.opRunning .fcm 0x11 = true)
    ∧ (w16_4.hub.named false = .slot (9))
    ∧ ((w16_4.hub.ctx (9)).state = .resident)
    ∧ ((fld (w16_4.hub.template.getD 0 0) 26 24 = 7 ↔ (w16_4.hub.ctx (9)).tc = 7))
    ∧ (w16_4.hub.paging.policy.all (fun x => !x.viaOp) = true)
    ∧ (w16_5.hub.opRunning .fcm 0x11 = true)
    ∧ (w16_5.hub.named false = .slot (9))
    ∧ ((w16_5.hub.ctx (9)).state = .resident)
    ∧ (¬(fld (w16_5.hub.template.getD 0 0) 26 24 = 7 ↔ (w16_5.hub.ctx (9)).tc = 7))
    ∧ (w16_6.hub.opRunning .fcm 0x12 = true)
    ∧ (w16_6.hub.named false = .slot (9))
    ∧ ((w16_6.hub.ctx (9)).state = .resident)
    ∧ ((w16_6.hub.ctx (9)).pin = false)
    ∧ (w16_6.hub.pinned < 6144)
    ∧ (w16_6.hub.mirEn = false)
    ∧ (w16_6.hub.paired = false)
    ∧ (w16_7.hub.opRunning .fcm 0x12 = true)
    ∧ (w16_7.hub.named false = .slot (9))
    ∧ ((w16_7.hub.ctx (9)).state = .resident)
    ∧ ((w16_7.hub.ctx (9)).pin = false)
    ∧ (6144 ≤ w16_7.hub.pinned)
    ∧ (w16_8.hub.opRunning .fcm 0x13 = true)
    ∧ (w16_8.hub.named false = .slot (9))
    ∧ ((w16_8.hub.ctx (9)).state = .resident)
    ∧ ((w16_8.hub.ctx (9)).tc ≠ 7)
    ∧ (w16_8.hub.paired = false)
    ∧ (w16_9.hub.opRunning .fcm 0x13 = true)
    ∧ (w16_9.hub.named false = .slot (9))
    ∧ ((w16_9.hub.ctx (9)).state = .resident)
    ∧ ((w16_9.hub.ctx (9)).tc = 7)
    ∧ (w16_10.hub.opRunning .fcm 0x14 = true)
    ∧ (w16_10.hub.paging.op = none)
    ∧ (w16_10.hub.named false = .slot (9))
    ∧ ((w16_10.hub.ctx (9)).state = .resident)
    ∧ ((w16_10.hub.ctx (9)).pin = false)
    ∧ (w16_10.hub.slotIdle (9) = true)
    ∧ (bit (w16_10.hub.arg .fcm 1) 0 = false)
    ∧ (w16_10.hub.paired = false)
    ∧ (w16_11.hub.opRunning .fcm 0x14 = true)
    ∧ (w16_11.hub.paging.op = none)
    ∧ (w16_11.hub.named false = .slot (9))
    ∧ (((w16_11.hub.ctx (9)).pin = true ∨ w16_11.hub.slotIdle (9) = false))
    ∧ (w16_12.hub.opRunning .fcm 0x15 = true)
    ∧ (w16_12.hub.named true = .slot (8))
    ∧ (((rootS.hub.ctx 8)) = w16_12.hub.ctx (8))
    ∧ (w16_13.hub.opRunning .fcm 0x16 = true)
    ∧ (w16_13.hub.paging.op = none)
    ∧ (w16_13.hub.named false = .slot (9))
    ∧ (w16_13.hub.storeOn = true)
    ∧ (w16_13.hub.candidate (9) = true)
    ∧ (w16_13.hub.role ≠ .root)
    ∧ ((({ state := .resident, handle := 77, tc := 3 } : Ctx)) = w16_13.hub.ctx (9))
    ∧ (w16_14.hub.opRunning .fcm 0x16 = true)
    ∧ (w16_14.hub.paging.op = none)
    ∧ (w16_14.hub.named false = .slot (9))
    ∧ (w16_14.hub.storeOn = true)
    ∧ (w16_14.hub.candidate (9) = false)
    ∧ (w16_15.hub.opRunning .fcm 0x10 = true)
    ∧ (w16_16.hub.opRunning .fcm 0x11 = true)
    ∧ (w16_17.hub.opRunning .fcm 0x12 = true)
    ∧ (w16_18.hub.opRunning .fcm 0x14 = true)
    ∧ (w16_18.hub.paging.op = none)
    ∧ (w16_19.hub.opRunning .fcm 0x16 = true)
    ∧ (w16_19.hub.paging.op = none) := by
  and_intros <;> decide +kernel

def w16_20 : State := on transitS fun h => ((h.updPaging fun p => { p with waits := [(77, 5)] }).wr Reg.FCM_BS_CFG 1).wr (Reg.KL_STATE 0) 5

def w16_21 : State := on transitS fun h => ((h.updPaging fun p => { p with waits := [(77, 5), (78, 4)] }).wr Reg.FCM_BS_CFG 1).wr (Reg.KL_STATE 0) 5

def w16_22 : State := transitS

def w16_23 : State := on rootS fun h => (h.wr Reg.PX_STAT 0x81).wr Reg.FCM_APER_LIMIT_LO 0xFFFF

def w16_24 : State := on rootS fun h => { (h.wr Reg.PX_STAT 0x81).wr Reg.FCM_APER_LIMIT_LO 0xFFFF with pxb := { h.pxb with mps := 256 } }

def w16_25 : State := rootS

def w16_26 : State := on rootS fun h => (h.updPaging fun p => { p with ins := [⟨8, 77, 9, 0, 0⟩] }).setCtx 9 { state := .dummy, handle := 77 }

def w16_27 : State := on rootS fun h => later 1000000 <| (h.updPaging fun p => { p with ins := [⟨8, 77, 9, 0, 0⟩] }).setCtx 9 { state := .dummy, handle := 77 }

def w16_28 : State := on rootS fun h => later 1000000 <| h.updPaging fun p => { p with wbs := [⟨8, 77, 1, .victim, 0⟩] }

def w16_29 : State := on rootS fun h => later 10000000 <| (h.setFoyer 9 [{ flow := 77, fseq := 0, cells := [], complete := true, since := 0 }]).setCtx 9 { state := .dummy, handle := 77 }

def w16_30 : State := on transitS fun h => later 10000000 <| (h.updPaging fun p => { p with hold := true }).wr (Reg.KL_STATE 0) 5

def w16_31 : State := on rootS fun h => (h.updPaging fun p => { p with ins := [⟨8, 77, 9, 0, 0⟩] }).setCtx 9 { state := .dummy, handle := 77 }

def w16_32 : State := on rootS fun h => later 10000000 <| (h.setFoyer 9 [{ flow := 77, fseq := 0, cells := [], complete := true, since := 0 }]).setCtx 9 { state := .dummy, handle := 77 }

def w16_33 : State := on rootS fun h => later 1000000 <| (h.updPaging fun p => { p with ins := [⟨8, 77, 9, 0, 0⟩] }).setCtx 9 { state := .dummy, handle := 77 }

def w16_34 : State := on rootS fun h => later 1000000 <| h.updPaging fun p => { p with wbs := [⟨8, 77, 1, .evict, 0⟩] }

def w16_35 : State := rootS

/-- The hypotheses of Obligations.PagingEvents hold somewhere, clause by clause. -/
theorem wit_pagingEvents :
    (w16_20.hub.mainUp = true)
    ∧ (w16_20.hub.role ≠ .root)
    ∧ (w16_20.hub.paging.waits = [((77), (5))])
    ∧ (w16_20.hub.canPage = true)
    ∧ (w16_20.hub.storeOn = true)
    ∧ (w16_20.hub.pathDown = false)
    ∧ (w16_20.hub.freeSlot = some (9))
    ∧ (9 ≤ (9))
    ∧ ((w16_20.hub.ctx (9)).state = .free)
    ∧ (w16_21.hub.mainUp = true)
    ∧ (w16_21.hub.paging.waits ≠ [])
    ∧ (w16_21.hub.canPage = true)
    ∧ (w16_21.hub.storeOn = true)
    ∧ (w16_21.hub.pathDown = false)
    ∧ (w16_22.hub.mainUp = true)
    ∧ (w16_22.hub.role ≠ .root)
    ∧ (w16_23.hub.mainUp = true)
    ∧ (w16_23.hub.role = .root)
    ∧ (w16_23.hub.hostUp = true)
    ∧ (w16_23.hub.inAperture ((0xFF00 : BitVec 64)).toNat = true)
    ∧ (w16_23.hub.pageq = [])
    ∧ (w16_23.hub.freeTag = some (0))
    ∧ (w16_23.hub.pageTagsUsed < w16_23.hub.pageTags)
    ∧ (w16_24.hub.mainUp = true)
    ∧ (w16_24.hub.role = .root)
    ∧ (w16_24.hub.hostUp = true)
    ∧ (w16_24.hub.inAperture ((0xFF00 : BitVec 64)).toNat = true)
    ∧ (w16_24.hub.pageq = [])
    ∧ (256 ≤ w16_24.hub.pxb.mps)
    ∧ (w16_25.hub.mainUp = true)
    ∧ (w16_25.hub.paging.ins.all (fun x => decide (x.req ≠ ((8 : BitVec 16)).toNat)) = true)
    ∧ (w16_26.hub.mainUp = true)
    ∧ (w16_26.hub.paging.ins.find? (fun (y : PageIn) => y.req = ((8 : BitVec 16)).toNat) = some ((⟨8, 77, 9, 0, 0⟩ : PageIn)))
    ∧ (imageGood ((({ handle := 77, tc := 3, gen := 5 } : Ctx).image 5 : List Byte)) = true)
    ∧ (((ctxOfImage (({ handle := 77, tc := 3, gen := 5 } : Ctx).image 5) : Ctx)) = ctxOfImage ((({ handle := 77, tc := 3, gen := 5 } : Ctx).image 5 : List Byte)))
    ∧ (((ctxOfImage (({ handle := 77, tc := 3, gen := 5 } : Ctx).image 5) : Ctx)).handle = ((⟨8, 77, 9, 0, 0⟩ : PageIn)).flow)
    ∧ (((({ handle := 77, tc := 3, gen := 5 } : Ctx).image 5 : List Byte)) ≠ List.replicate 256 0)
    ∧ (((ctxOfImage (({ handle := 77, tc := 3, gen := 5 } : Ctx).image 5) : Ctx)).tc ≠ 7)
    ∧ (w16_26.hub.noFoyer ((⟨8, 77, 9, 0, 0⟩ : PageIn)).flow = true)
    ∧ (w16_26.hub.paging.op = none)
    ∧ (Tab.find w16_26.hub.paging.owed ((ctxOfImage (({ handle := 77, tc := 3, gen := 5 } : Ctx).image 5) : Ctx)).handle = none)
    ∧ (w16_27.hub.mainUp = true)
    ∧ (w16_27.hub.paging.ins.find? (fun (y : PageIn) => y.req = ((8 : BitVec 16)).toNat) = some ((⟨8, 77, 9, 0, 0⟩ : PageIn)))
    ∧ (((255 : Byte)) ≠ 0)
    ∧ (((255 : Byte)) ≠ 4)
    ∧ (w16_27.hub.noFoyer ((⟨8, 77, 9, 0, 0⟩ : PageIn)).flow = true)
    ∧ (w16_27.hub.paging.op = none)
    ∧ (((⟨8, 77, 9, 0, 0⟩ : PageIn)).issued + 1000000 ≤ w16_27.hub.mono)
    ∧ (w16_28.hub.mainUp = true)
    ∧ (w16_28.hub.paging.wbs.find? (fun x => x.req = ((8 : BitVec 16)).toNat) = some ((⟨8, 77, 1, .victim, 0⟩ : WriteBack)))
    ∧ (((⟨8, 77, 1, .victim, 0⟩ : WriteBack)).issued + 1000000 ≤ w16_28.hub.mono)
    ∧ (((⟨8, 77, 1, .victim, 0⟩ : WriteBack)).cause = .victim)
    ∧ (w16_28.hub.ctxs.all (fun e => !(decide (e.2.state = .writeback ∧ e.2.handle = ((⟨8, 77, 1, .victim, 0⟩ : WriteBack)).flow))) = true)
    ∧ (w16_29.hub.mainUp = true)
    ∧ (w16_29.hub.foyerDue ((9 : PortNo)) = some (({ flow := 77, fseq := 0, cells := [], complete := true, since := 0 } : FoyFrame)))
    ∧ (w16_29.hub.lookup (({ flow := 77, fseq := 0, cells := [], complete := true, since := 0 } : FoyFrame)).flow = .dummy (9))
    ∧ (w16_30.hub.mainUp = true)
    ∧ (w16_30.hub.paging.hold = true)
    ∧ (w16_30.hub.paging.holdFrom + 10000000 ≤ w16_30.hub.mono)
    ∧ ((w16_30.hub.role = .root → w16_30.hub.hostUp = true))
    ∧ ((w16_30.hub.role ≠ .root → w16_30.hub.upOrIdle 0 = true))
    ∧ (w16_31.hub.mainUp = true)
    ∧ (w16_32.hub.mainUp = true)
    ∧ ((w16_32.hub.foyerDue ((9 : PortNo))).isSome = true)
    ∧ (w16_33.hub.mainUp = true)
    ∧ (w16_33.hub.paging.ins.find? (fun (y : PageIn) => y.req = ((8 : BitVec 16)).toNat ∧ y.issued + 1000000 ≤ w16_33.hub.mono) = some ((⟨8, 77, 9, 0, 0⟩ : PageIn)))
    ∧ (w16_34.hub.mainUp = true)
    ∧ (w16_34.hub.paging.wbs.find? (fun (y : WriteBack) => y.req = ((8 : BitVec 16)).toNat ∧ y.issued + 1000000 ≤ w16_34.hub.mono) = some ((⟨8, 77, 1, .evict, 0⟩ : WriteBack)))
    ∧ (w16_35.hub.mainUp = true)
    ∧ (w16_35.hub.role = .root) := by
  and_intros <;> decide +kernel

def w17_1 : State := rootS

def w17_2 : State := on rootS fun h => ((({ h.updHdr .tss fun x => { x with enable := true } with fts := [(32 * 9 + 1, {})] }.setCtx 9 { state := .resident, handle := 77, port := 1, tc := 7, ceil := 0xFFFFF, list := [5] }).setCell 5 (some { slot := 9, flow := 77, fseq := 3, tc := 7, first := true, last := true, inp := 0x11, tmask := 2, pend := 2, pennant := pennantOf [1, 2] 77 3, payload := [1, 2], place := .listed })).wr (Reg.KL_STATE 1) 5).updLink 1 fun l => { l with hand := [0, 0, 0, 0, 0, 0, 0, 4] }

def w17_3 : State := on rootS fun h => (({ h.updHdr .tss fun x => { x with enable := true } with fts := [(32 * 9 + 0x11, {})] }.setCtx 9 { state := .resident, handle := 77, port := 0x11, tc := 7, ceil := 0xFFFFF, list := [5] }).setCell 5 (some { slot := 9, flow := 77, fseq := 3, tc := 7, first := true, last := true, inp := 0x11, tmask := 2 ^ 0x11, pend := 2 ^ 0x11, pennant := pennantOf [1, 2] 77 3, payload := [1, 2], place := .listed }))

def w17_4 : State := on rootS fun h => ((h.setCell 5 (some { slot := 9, flow := 77, fseq := 3, tc := 7, first := true, last := true, inp := 0x11, tmask := 2, repl := 2, pennant := pennantOf [1, 2] 77 3, payload := [1, 2], place := .listed })).wr (Reg.KL_STATE 1) 8).updLink 1 fun l => { l with replay := some 4095, unacked := [(4095, 5)] }

def w17_5 : State := on rootS fun h => { h with time := { h.time with ns := h.time.ns - h.time.ns % 1000000 + 1024000 } } |> fun h => (h.setCtx 9 { state := .resident, handle := 77, rate := 1000, ceil := 0xFFFFF, burst := 4, frac := 7 }).wr (Reg.TS_CSH 1 2) 0x00100010

def w17_6 : State := on rootS fun h => { h.updTport 1 fun q => { q with dealing := some [(9, 65535, 3)], dealFrom := 0 } with fts := [(32 * 9 + 1, { deficit := 4 })] }

def w17_7 : State := on rootS fun h => { ask .tss 0x10 [9, 0x11] (h.setCtx 9 { state := .resident, handle := 77, tokens := -5 }) with fts := [(32 * 9 + 0x11, { deficit := -4, quant := 3 })] }

def w17_8 : State := on rootS (ask .tss 0x10 [8192, 0x11])

def w17_9 : State := on rootS fun h => (((ask .tss 0x11 [1, 1, 2] h).wr (Reg.TS_GLEN 1 1) 2).wr (Reg.TS_GATE_B 1 0) 0x6404).wr (Reg.TS_GATE_B 1 1) 0x10003

def w17_10 : State := on rootS fun h => ((h.setCell 5 (some { slot := 9, flow := 77, fseq := 3, tc := 7, first := true, last := true, inp := 0x11, tmask := 2, repl := 2, pennant := pennantOf [1, 2] 77 3, payload := [1, 2], place := .listed })).wr (Reg.KL_STATE 1) 8).updLink 1 fun l => { l with replay := some 4095, unacked := [(4095, 5)] }

def w17_11 : State := rootS

def w17_12 : State := on rootS fun h => (({ h.updHdr .tss fun x => { x with enable := true } with fts := [(32 * 9 + 0x11, {})] }.setCtx 9 { state := .resident, handle := 77, port := 0x11, tc := 7, ceil := 0xFFFFF, list := [5] }).setCell 5 (some { slot := 9, flow := 77, fseq := 3, tc := 7, first := true, last := true, inp := 0x11, tmask := 2 ^ 0x11, pend := 2 ^ 0x11, pennant := pennantOf [1, 2] 77 3, payload := [1, 2], place := .listed }))

/-- The hypotheses of Obligations.Scheduling hold somewhere, clause by clause. -/
theorem wit_scheduling :
    (w17_1.hub.mainUp = true)
    ∧ (portPresent w17_1.hub.straps ((0x10 : EgressNo)) = true)
    ∧ ((w17_1.hub.link ((0x10 : EgressNo))).replay = none)
    ∧ ((w17_1.hub.tport ((0x10 : EgressNo))).failed = [])
    ∧ (w17_1.hub.fts.all (fun e => decide (e.1 % 32 ≠ ((0x10 : EgressNo)).val)) = true)
    ∧ (w17_2.hub.mainUp = true)
    ∧ (portPresent w17_2.hub.straps ((1 : EgressNo)) = true)
    ∧ (isLinkPort ((1 : EgressNo)) = true)
    ∧ ((w17_2.hub.link ((1 : EgressNo))).replay = none)
    ∧ ((w17_2.hub.tport ((1 : EgressNo))).failed = [])
    ∧ ((w17_2.hub.decision ((1 : EgressNo))).2 = some (9))
    ∧ (w17_2.hub.headUnit (9) ((1 : EgressNo)) = [(5)])
    ∧ (w17_2.hub.cell (5) = some (({ slot := 9, flow := 77, fseq := 3, tc := 7, first := true, last := true, inp := 0x11, tmask := 2, pend := 2, pennant := pennantOf [1, 2] 77 3, payload := [1, 2], place := .listed } : CellSt)))
    ∧ (w17_2.hub.cellGood (5) false = true)
    ∧ ((({ slot := 9, flow := 77, fseq := 3, tc := 7, first := true, last := true, inp := 0x11, tmask := 2, pend := 2, pennant := pennantOf [1, 2] 77 3, payload := [1, 2], place := .listed } : CellSt)).tc ≠ 6)
    ∧ ((0) = w17_2.hub.nextRseq ((1 : EgressNo)))
    ∧ ((w17_2.hub.link ((1 : EgressNo))).codes.all (fun e => decide (e.1 ≠ (0))) = true)
    ∧ (w17_3.hub.mainUp = true)
    ∧ ((w17_3.hub.tport 0x11).failed = [])
    ∧ ((w17_3.hub.decision 0x11).2 = some (9))
    ∧ ((([5] : List Nat)) = w17_3.hub.headUnit (9) 0x11)
    ∧ ((([5] : List Nat)).all (fun i => w17_3.hub.cellGood i false) = true)
    ∧ (w17_4.hub.mainUp = true)
    ∧ (portPresent w17_4.hub.straps ((1 : EgressNo)) = true)
    ∧ (isLinkPort ((1 : EgressNo)) = true)
    ∧ ((2 ≤ w17_4.hub.klState ((1 : EgressNo)) ∧ w17_4.hub.klState ((1 : EgressNo)) ≤ 5 ∨ w17_4.hub.klState ((1 : EgressNo)) = 8))
    ∧ ((w17_4.hub.link ((1 : EgressNo))).replay = some (4095))
    ∧ ((w17_4.hub.link ((1 : EgressNo))).unacked = [((4095), (5))])
    ∧ (w17_4.hub.cell (5) = some (({ slot := 9, flow := 77, fseq := 3, tc := 7, first := true, last := true, inp := 0x11, tmask := 2, repl := 2, pennant := pennantOf [1, 2] 77 3, payload := [1, 2], place := .listed } : CellSt)))
    ∧ (w17_4.hub.cellGood (5) false = true)
    ∧ ((w17_4.hub.link ((1 : EgressNo))).codes = [])
    ∧ ((w17_4.hub.link ((1 : EgressNo))).times.all (fun x => decide (x.void = none)) = true)
    ∧ (w17_5.hub.mainUp = true)
    ∧ (w17_5.hub.time.reached (1000 * w17_5.hub.refillUs) = true)
    ∧ ((Tab.keys w17_5.hub.ctxs).Nodup)
    ∧ (w17_6.hub.mainUp = true)
    ∧ ((w17_6.hub.tport ((1 : EgressNo))).dealing = some [((9), (65535), (3))])
    ∧ (w17_6.hub.dealNext = some ((1 : EgressNo)).val)
    ∧ (w17_6.hub.ft (9) ((1 : EgressNo)) = some (({ deficit := 4 } : FlowTgt)))
    ∧ (w17_7.hub.opRunning .tss 0x10 = true)
    ∧ ((9) = (w17_7.hub.arg .tss 0).toNat)
    ∧ ((0x11) = (w17_7.hub.arg .tss 1).toNat)
    ∧ ((0x11) ≤ 0x11)
    ∧ ((9) < 8192)
    ∧ ((w17_7.hub.ctx (9)).state = .resident)
    ∧ (w17_8.hub.opRunning .tss 0x10 = true)
    ∧ ((8192) = (w17_8.hub.arg .tss 0).toNat)
    ∧ ((0x11) = (w17_8.hub.arg .tss 1).toNat)
    ∧ (w17_9.hub.opRunning .tss 0x11 = true)
    ∧ ((1) = (w17_9.hub.arg .tss 0).toNat)
    ∧ ((true) = bit (w17_9.hub.arg .tss 1) 0)
    ∧ ((2) = fld (w17_9.hub.arg .tss 2) 2 0)
    ∧ (w17_10.hub.mainUp = true)
    ∧ (portPresent w17_10.hub.straps ((1 : EgressNo)) = true)
    ∧ (isLinkPort ((1 : EgressNo)) = true)
    ∧ ((w17_10.hub.link ((1 : EgressNo))).replay.isSome = true)
    ∧ ((2 ≤ w17_10.hub.klState ((1 : EgressNo)) ∧ w17_10.hub.klState ((1 : EgressNo)) ≤ 5 ∨ w17_10.hub.klState ((1 : EgressNo)) = 8))
    ∧ (w17_11.hub.mainUp = true)
    ∧ (portPresent w17_11.hub.straps ((0x10 : EgressNo)) = true)
    ∧ ((isLinkPort ((0x10 : EgressNo)) = false ∨ (w17_11.hub.link ((0x10 : EgressNo))).replay = none))
    ∧ ((w17_11.hub.fresh.skipFailed ((0x10 : EgressNo))).decision ((0x10 : EgressNo)) = (((((rootS).hub.fresh.skipFailed 0x10).decision 0x10).1), none))
    ∧ (w17_12.hub.mainUp = true)
    ∧ (portPresent w17_12.hub.straps ((0x11 : EgressNo)) = true)
    ∧ ((isLinkPort ((0x11 : EgressNo)) = false ∨ (w17_12.hub.link ((0x11 : EgressNo))).replay = none))
    ∧ ((w17_12.hub.fresh.skipFailed ((0x11 : EgressNo))).decision ((0x11 : EgressNo)) = (((((on rootS fun h => (({ h.updHdr .tss fun x => { x with enable := true } with fts := [(32 * 9 + 0x11, {})] }.setCtx 9 { state := .resident, handle := 77, port := 0x11, tc := 7, ceil := 0xFFFFF, list := [5] }).setCell 5 (some { slot := 9, flow := 77, fseq := 3, tc := 7, first := true, last := true, inp := 0x11, tmask := 2 ^ 0x11, pend := 2 ^ 0x11, pennant := pennantOf [1, 2] 77 3, payload := [1, 2], place := .listed }))).hub.fresh.skipFailed 0x11).decision 0x11).1), some (9))) := by
  and_intros <;> decide +kernel

def w17_13 : State := on rootS fun h => (h.wr (Reg.TS_GCTL 1) 0x21).wr (Reg.TS_GATE_A 1 0) 0x6404

def w17_14 : State := on rootS fun h => h.wr (Reg.TS_GCTL 1) 0x21

def w17_15 : State := on rootS fun h => (h.wr (Reg.TS_GCTL 1) 0x61).updTport 1 fun q => { q with switch := some (.toBank true 5) }

def w17_16 : State := on rootS fun h => h.wr (Reg.TS_GCTL 1) 0x21

def w17_17 : State := on rootS fun h => (h.wr (Reg.TS_GCTL 1) 0x61).updTport 1 fun q => { q with switch := some (.toNone 5) }

def w17_18 : State := on rootS fun h => (h.wr (Reg.TS_GCTL 1) 0x61).updTport 1 fun q => { q with switch := some (.toBank true 5) }

def w17_19 : State := on rootS fun h => (h.wr (Reg.TS_GCTL 1) 0x61).updTport 1 fun q => { q with switch := some (.toBank true 5) }

def w17_20 : State := on rootS fun h => h.wr (Reg.TS_GCTL 1) 0x21

/-- The hypotheses of Obligations.TimeGates hold somewhere, clause by clause. -/
theorem wit_timeGates :
    (w17_13.hub.mainUp = true)
    ∧ (w17_13.hub.listOn ((1 : EgressNo)) = true)
    ∧ (((⟨0, 0, 1000, 4⟩ : GateSeg)) = w17_13.hub.gSegAt ((1 : EgressNo)) (w17_13.hub.gActive ((1 : EgressNo))) w17_13.hub.now)
    ∧ (w17_14.hub.mainUp = true)
    ∧ (portPresent w17_14.hub.straps ((1 : EgressNo)) = true)
    ∧ (w17_14.hub.paired = false)
    ∧ (w17_14.hub.gctl ((1 : EgressNo)) 0 = true)
    ∧ (w17_15.hub.mainUp = true)
    ∧ (portPresent w17_15.hub.straps ((1 : EgressNo)) = true)
    ∧ (w17_15.hub.paired = false)
    ∧ (w17_15.hub.gctl ((1 : EgressNo)) 0 = true)
    ∧ (w17_16.hub.mainUp = true)
    ∧ (portPresent w17_16.hub.straps ((1 : EgressNo)) = true)
    ∧ (w17_16.hub.paired = false)
    ∧ (w17_17.hub.mainUp = true)
    ∧ ((w17_17.hub.tport ((1 : EgressNo))).switch = some (.toNone (5)))
    ∧ (w17_18.hub.mainUp = true)
    ∧ ((w17_18.hub.tport ((1 : EgressNo))).switch = some (.toBank (true) (5)))
    ∧ (w17_19.hub.mainUp = true)
    ∧ (portPresent w17_19.hub.straps ((1 : EgressNo)) = true)
    ∧ (w17_19.hub.paired = false)
    ∧ (¬(w17_19.hub.listOn ((1 : EgressNo)) = true ∧ w17_19.hub.gActive ((1 : EgressNo)) = (true)))
    ∧ (w17_20.hub.mainUp = true)
    ∧ (portPresent w17_20.hub.straps ((1 : EgressNo)) = true)
    ∧ (w17_20.hub.paired = false)
    ∧ (w17_20.hub.listOn ((1 : EgressNo)) = true)
    ∧ (w17_20.hub.gActive ((1 : EgressNo)) = (false)) := by
  and_intros <;> decide +kernel

def w18_1 : State := on rootS fun h => ((h.wr Reg.MIR_CFG 1).wr (Reg.KL_STATE 8) 5).wr Reg.MIR_STAT 1 |> fun h => { h.wr (Reg.MIR_GROUP 1) 0x103 with mir := { h.mir with syncTx := true } }

def w18_2 : State := on rootS fun h => ((h.wr Reg.MIR_CFG 1).wr (Reg.KL_STATE 8) 5).wr Reg.MIR_STAT 1 |> fun h => { h.wr (Reg.MIR_GROUP 1) 0x103 with mir := { h.mir with syncTx := true } }

def w18_3 : State := on rootS fun h => (fun h : Hub => { h with time := { h.time with ns := 4000 } }) <| ((h.wr Reg.MIR_CFG 1).wr (Reg.KL_STATE 8) 5).wr Reg.MIR_STAT 1

def w18_4 : State := on rootS fun h => (fun h : Hub => { h with time := { h.time with ns := 4000 } }) <| ((h.wr Reg.MIR_CFG 1).wr (Reg.KL_STATE 8) 5).wr Reg.MIR_STAT 1

def w18_5 : State := on rootS fun h => ((h.wr Reg.MIR_CFG 1).wr (Reg.KL_STATE 8) 5).wr Reg.MIR_STAT 1

def w18_6 : State := on rootS fun h => later 20000 <| ((((h.wr Reg.MIR_CFG 1).wr (Reg.KL_STATE 8) 5).wr Reg.MIR_STAT 0x70002).wr (Reg.MIR_GROUP 7) 0x103).wr Reg.MIR_ROLE 0

def w18_7 : State := on rootS fun h => later 20000 <| ((((h.wr Reg.MIR_CFG 3).wr (Reg.KL_STATE 8) 5).wr Reg.MIR_STAT 0x70002).wr (Reg.MIR_GROUP 7) 0x103).wr Reg.MIR_ROLE 0

def w18_8 : State := on rootS fun h => later 30000 <| { h with mir := { h.mir with running := true, noticed := 3 } }.wr Reg.MIR_TAKE_STAT 0x200

def w18_9 : State := on rootS fun h => ((h.wr (Reg.KL_PEER 3) 77).wr (Reg.KL_STATE 3) 5).wr Reg.KLL_PORT_UP 8

def w18_10 : State := rootS

def w18_11 : State := on rootS fun h => { h with mir := { h.mir with counting := true, noticed := 128 } }

def w18_12 : State := on rootS fun h => later 1000000 <| { h with mir := { h.mir with counting := true, recs := [(5, { upAck := some 3, downIn := some 65535 }), (9, { upAck := some 3, seqs := some (1, 2, 3) })] } }

def w18_13 : State := on rootS fun h => ((h.wr Reg.MIR_CFG 1).wr (Reg.KL_STATE 8) 5).wr Reg.MIR_STAT 1 |> fun h => { h.wr (Reg.MIR_GROUP 1) 0x103 with mir := { h.mir with syncTx := true } }

def w18_14 : State := on rootS fun h => later 20000 <| ((((h.wr Reg.MIR_CFG 1).wr (Reg.KL_STATE 8) 5).wr Reg.MIR_STAT 0x70002).wr (Reg.MIR_GROUP 7) 0x103).wr Reg.MIR_ROLE 0

def w18_15 : State := on rootS fun h => ((h.wr (Reg.KL_PEER 3) 77).wr (Reg.KL_STATE 3) 5).wr Reg.KLL_PORT_UP 8

def w18_16 : State := on rootS fun h => { h with mir := { h.mir with counting := true, noticed := 128 } }

/-- The hypotheses of Obligations.PairAndTakeover hold somewhere, clause by clause. -/
theorem wit_pairAndTakeover :
    (w18_1.hub.keepsRecs = true)
    ∧ (w18_1.hub.hears 8 = true)
    ∧ (w18_1.hub.klState 8 = 5)
    ∧ (w18_1.hub.mirEn = true)
    ∧ (w18_1.hub.mir.syncTx = true)
    ∧ (w18_1.hub.pairState = 1)
    ∧ ((List.range 8).all (fun g => decide ((((List.range 8).map fun g => (on rootS fun h => h.wr (Reg.MIR_GROUP 1) 0x103).hub.rd (Reg.MIR_GROUP g) : List Word)).getD g 0 = w18_1.hub.rd (Reg.MIR_GROUP g))) = true)
    ∧ (w18_2.hub.keepsRecs = true)
    ∧ (w18_2.hub.hears 8 = true)
    ∧ (w18_2.hub.klState 8 = 5)
    ∧ (w18_2.hub.mirEn = true)
    ∧ (w18_2.hub.mir.syncTx = true)
    ∧ (w18_2.hub.pairState ≠ 2)
    ∧ (w18_2.hub.pairState ≠ 4)
    ∧ ((List.range 8).all (fun g => decide ((([] : List Word)).getD g 0 = w18_2.hub.rd (Reg.MIR_GROUP g))) = false)
    ∧ (w18_3.hub.beats = true)
    ∧ (w18_3.hub.time.reached 1000 = true)
    ∧ (w18_4.hub.keepsRecs = true)
    ∧ (w18_4.hub.time.reached 1000 = true)
    ∧ (w18_5.hub.keepsRecs = true)
    ∧ (w18_5.hub.hears 8 = true)
    ∧ ((w18_5.hub.rd Reg.MIR_HB_SEQ_RX).toNat < ((0xFFFFFFFF : BitVec 32)).toNat)
    ∧ (w18_6.hub.up .mir = true)
    ∧ (w18_6.hub.paired = true)
    ∧ (w18_6.hub.mir.hbLast + 8000 ≤ w18_6.hub.mono)
    ∧ (w18_6.hub.rdB Reg.MIR_CFG 1 = false)
    ∧ (w18_7.hub.up .mir = true)
    ∧ (w18_7.hub.paired = true)
    ∧ (w18_7.hub.mir.hbLast + 8000 ≤ w18_7.hub.mono)
    ∧ (w18_7.hub.rdB Reg.MIR_CFG 1 = true)
    ∧ (w18_7.hub.ttSource ≠ some 8)
    ∧ (w18_7.hub.depthNow = w18_7.hub.rdF Reg.KLL_DEPTH 5 0)
    ∧ (w18_7.hub.mir.credits = [])
    ∧ ((w18_7.hub.activeGroups fun g => !w18_7.hub.rdB Reg.MIR_ROLE g || w18_7.hub.rdB Reg.MIR_ROLE (16 + g)) ≠ [])
    ∧ (w18_8.hub.up .mir = true)
    ∧ (w18_8.hub.mir.running = true)
    ∧ (w18_8.hub.mir.lossAt + 20000 ≤ w18_8.hub.mono)
    ∧ (w18_9.hub.mainUp = true)
    ∧ (w18_9.hub.up .kll = true)
    ∧ (w18_9.hub.portTo ((77 : BitVec 14)).toNat ((2 : Fin 8)) = some (3))
    ∧ (w18_9.hub.calm (3) = true)
    ∧ (w18_10.hub.up .mir = true)
    ∧ (w18_10.hub.mir.noticed.testBit ((7 : Fin 8)) = false)
    ∧ (w18_11.hub.up .mir = true)
    ∧ (w18_11.hub.mir.noticed.testBit ((7 : Fin 8)) = true)
    ∧ (w18_11.hub.mir.counting = true)
    ∧ (w18_11.hub.mir.running = false)
    ∧ (w18_12.hub.up .mir = true)
    ∧ (w18_12.hub.mir.counting = true)
    ∧ ((w18_12.hub.answersIn = true ∨ w18_12.hub.mir.lossAt + 1000000 ≤ w18_12.hub.mono))
    ∧ ((([(4, false), (1, true)] : List (Nat × Bool))) = w18_12.hub.mir.recs.filterMap (fun e => e.2.lostNow))
    ∧ (w18_13.hub.keepsRecs = true)
    ∧ (w18_13.hub.hears 8 = true)
    ∧ (4 ≤ w18_13.hub.klState 8 ∧ w18_13.hub.klState 8 ≤ 8)
    ∧ (w18_14.hub.up .mir = true)
    ∧ (w18_14.hub.paired = true)
    ∧ (w18_14.hub.mir.hbLast + 8000 ≤ w18_14.hub.mono)
    ∧ (w18_15.hub.mainUp = true)
    ∧ (w18_15.hub.up .kll = true)
    ∧ (w18_16.hub.up .mir = true) := by
  and_intros <;> decide +kernel

def w18_17 : State := on rootS fun h => { h.wr Reg.MIR_STAT 2 with mir := { h.mir with queue := [(.reserved 9, 0)] } } |> fun h => h.wr (Reg.KL_STATE 8) 5

def w18_18 : State := on rootS fun h => { h.wr Reg.MIR_STAT 2 with time := { h.time with ns := 9000 } }

def w18_19 : State := on rootS fun h => { h.wr Reg.MIR_STAT 2 with mir := { h.mir with recs := [(77, {})] } }

def w18_20 : State := on rootS fun h => (h.wr Reg.MIR_STAT 2).wr Reg.MIR_ROLE 0

def w18_21 : State := on rootS fun h => ((h.wr Reg.MIR_STAT 2).wr (Reg.MIR_GROUP 7) 3).wr Reg.MIR_ROLE 0xFF

def w18_22 : State := on rootS fun h => { h.wr Reg.MIR_STAT 2 with mir := { h.mir with giving := [⟨7, 3, false⟩] } }

def w18_23 : State := on rootS fun h => { (h.wr Reg.MIR_STAT 2).wr Reg.MIR_ROLE 0x800080 with mir := { h.mir with taking := [(7, 3)] } }

def w18_24 : State := on rootS fun h => later 90000000 <| { (h.wr Reg.MIR_STAT 2).wr Reg.MIR_ROLE 0x800080 with mir := { h.mir with taking := [(7, 3)] } }

def w18_25 : State := on rootS fun h => { ask .mir 0x10 [77] h with mir := { h.mir with recs := [(77, { inPort := 3, lost := 9, seqs := some (7, 8, 9) })] } }

def w18_26 : State := on rootS fun h => ((ask .mir 0x11 [] h).wr Reg.MIR_STAT 2).wr (Reg.MIR_GROUP 7) 3

def w18_27 : State := on rootS (ask .mir 0x12 [1, 0])

def w18_28 : State := on rootS fun h => { (((ask .mir 0x12 [128, 0] h).wr Reg.MIR_STAT 2).wr Reg.MIR_ROLE 0xFF).wr (Reg.MIR_GROUP 7) 3 with mir := { h.mir with partnerUp := 3 } }

def w18_29 : State := on rootS fun h => h.wr Reg.MIR_LAG 0x7FFFFFFF

def w18_30 : State := on rootS fun h => { h.wr Reg.MIR_STAT 2 with mir := { h.mir with queue := [(.reserved 9, 0)] } } |> fun h => h.wr (Reg.KL_STATE 8) 5

def w18_31 : State := on rootS fun h => h.wr Reg.MIR_STAT 2

def w18_32 : State := on rootS fun h => ((h.wr Reg.MIR_STAT 2).wr (Reg.MIR_GROUP 7) 3).wr Reg.MIR_ROLE 0xFF

def w18_33 : State := on rootS fun h => { (((ask .mir 0x12 [128, 0] h).wr Reg.MIR_STAT 2).wr Reg.MIR_ROLE 0xFF).wr (Reg.MIR_GROUP 7) 3 with mir := { h.mir with partnerUp := 3 } }

/-- The hypotheses of Obligations.PairRecordsAndHandover hold somewhere, clause by clause. -/
theorem wit_pairRecordsAndHandover :
    (w18_17.hub.up .mir = true)
    ∧ (w18_17.hub.paired = true)
    ∧ (w18_17.hub.mUp = true)
    ∧ (w18_17.hub.changedRecs ≠ [])
    ∧ (w18_18.hub.up .mir = true)
    ∧ (w18_18.hub.paired = true)
    ∧ (w18_19.hub.up .mir = true)
    ∧ (w18_19.hub.paired = true)
    ∧ (Tab.find w18_19.hub.mir.recs (77) = some (({} : PairRec)))
    ∧ (w18_20.hub.up .mir = true)
    ∧ (w18_20.hub.paired = true)
    ∧ ((7) < 8)
    ∧ (((128 : BitVec 8)) = BitVec.ofNat 8 (2 ^ (7)))
    ∧ (w18_20.hub.mir.giving = [])
    ∧ (w18_21.hub.up .mir = true)
    ∧ (w18_21.hub.paired = true)
    ∧ ((7) < 8)
    ∧ (((128 : BitVec 8)) = BitVec.ofNat 8 (2 ^ (7)))
    ∧ (w18_21.hub.groupActive (7) = true)
    ∧ (w18_21.hub.rdB Reg.MIR_ROLE (7) = true)
    ∧ (w18_22.hub.up .mir = true)
    ∧ (w18_22.hub.paired = true)
    ∧ (w18_22.hub.mir.giving = [⟨((7 : Fin 8)).val, (3), false⟩])
    ∧ (w18_22.hub.drained ((7 : Fin 8)) = true)
    ∧ (w18_23.hub.up .mir = true)
    ∧ (w18_23.hub.paired = true)
    ∧ (w18_23.hub.mir.taking = [(((7 : Fin 8)).val, (3))])
    ∧ (w18_23.hub.mir.opGroups.testBit ((7 : Fin 8)) = false)
    ∧ (w18_24.hub.up .mir = true)
    ∧ (w18_24.hub.paired = true)
    ∧ (w18_24.hub.mir.taking = [(((7 : Fin 8)).val, (3))])
    ∧ (w18_24.hub.mir.opGroups.testBit ((7 : Fin 8)) = false)
    ∧ ((3) + w18_24.hub.hoTmo ≤ w18_24.hub.mono)
    ∧ (w18_25.hub.opRunning .mir 0x10 = true)
    ∧ (w18_25.hub.present .mir = true)
    ∧ (Tab.find w18_25.hub.mir.recs (w18_25.hub.arg .mir 0).toNat = some (({ inPort := 3, lost := 9, seqs := some (7, 8, 9) } : PairRec)))
    ∧ (w18_26.hub.opRunning .mir 0x11 = true)
    ∧ (w18_26.hub.present .mir = true)
    ∧ (w18_27.hub.opRunning .mir 0x12 = true)
    ∧ (w18_27.hub.present .mir = true)
    ∧ (w18_27.hub.mir.giving = [])
    ∧ (w18_27.hub.mir.opGroups = 0)
    ∧ (w18_27.hub.paired = false)
    ∧ (w18_28.hub.opRunning .mir 0x12 = true)
    ∧ (w18_28.hub.present .mir = true)
    ∧ (w18_28.hub.mir.giving = [])
    ∧ (w18_28.hub.mir.opGroups = 0)
    ∧ (w18_28.hub.paired = true)
    ∧ (fld (w18_28.hub.arg .mir 0) 7 0 = 2 ^ (7))
    ∧ (bit (w18_28.hub.arg .mir 1) 0 = false)
    ∧ (w18_28.hub.groupActive (7) = true)
    ∧ (w18_28.hub.rdB Reg.MIR_ROLE (7) = true)
    ∧ (w18_28.hub.partnerGroupUp (7) = true)
    ∧ (w18_29.hub.up .mir = true)
    ∧ (w18_30.hub.up .mir = true)
    ∧ (w18_30.hub.paired = true)
    ∧ (w18_30.hub.mUp = true)
    ∧ (w18_30.hub.changedRecs ≠ [])
    ∧ (w18_31.hub.up .mir = true)
    ∧ (w18_31.hub.paired = true)
    ∧ (w18_32.hub.up .mir = true)
    ∧ (w18_32.hub.paired = true)
    ∧ (w18_33.hub.opRunning .mir 0x12 = true)
    ∧ ((w18_33.hub.mir.giving.any fun (x : Giving) => x.viaOp) = false)
    ∧ (w18_33.hub.mir.opGroups = 0) := by
  and_intros <;> decide +kernel

def w19_1 : State := on rootS fun h => ((((h.updHdr .dse fun x => { x with enable := true }).wr (Reg.DI_CFG 1) 1).wr (Reg.DI_STAT 1) 0x80).wr (Reg.DI_FLOW 1) 77).setCtx 9 { state := .resident, handle := 77, port := 2, tc := 3, inseq := 65535 }

def w19_2 : State := on rootS fun h => (((h.updHdr .dse fun x => { x with enable := true }).wr (Reg.DI_CFG 1) 1).wr (Reg.DI_STAT 1) 0x80)

def w19_3 : State := on leafS fun h => ((h.setCtx 9 { state := .resident, handle := 77, port := 0xF, list := [5, 6] }).setCell 5 (some { slot := 9, flow := 77, fseq := 3, tc := 2, first := true, last := false, inp := 0, tmask := 2 ^ 15, pend := 2 ^ 15, pennant := pennantOf [1, 2] 77 3, payload := [1, 2], place := .listed })).updDpOut 1 fun x => { x with reading := some { slot := 9, flow := 77, fseq := 3, tmask := 2 ^ 15, cells := [5, 6], bytes := [], failed := false } }

def w19_4 : State := on leafS fun h => ((h.setCtx 9 { state := .resident, handle := 77, port := 0xF, list := [5] }).setCell 5 (some { slot := 9, flow := 77, fseq := 3, tc := 2, first := true, last := true, inp := 0, tmask := 2 ^ 15, pend := 2 ^ 15, pennant := pennantOf [1, 2] 77 3, payload := [1, 2], place := .listed })).updDpOut 1 fun x => { x with reading := some { slot := 9, flow := 77, fseq := 3, tmask := 2 ^ 15, cells := [5], bytes := [], failed := false } }

def w19_5 : State := on leafS fun h => ((h.wr (Reg.DO_CFG 1) 1).wr (Reg.DO_STAT 1) 0x10000).updDpOut 1 fun x => { x with phase := .blank, tim := { hact := 64, vact := 9, vbmin := 3, vbmax := 5 }, next := 11 }

def w19_6 : State := on leafS fun h => ((h.wr (Reg.DO_CFG 1) 1).wr (Reg.DO_STAT 1) 0x10000).updDpOut 1 fun x => { x with phase := .picture 7, tim := { hact := 64, vact := 9, vbmin := 3, vbmax := 5 }, next := 9, crc := [1, 2, 65535] }

def w19_7 : State := on leafS fun h => ((h.wr (Reg.DO_CFG 1) 1).wr (Reg.DO_STAT 1) 0x10000).updDpOut 1 fun x => { x with phase := .blank, tim := { hact := 64, vact := 9, vbmin := 3, vbmax := 5 }, next := 14 }

def w19_8 : State := on leafS fun h => ((h.wr (Reg.DO_CFG 1) 1).wr (Reg.DO_STAT 1) 0x10000).updDpOut 1 fun x => { x with phase := .blank, tim := { hact := 64, vact := 9, vbmin := 3, vbmax := 5 }, next := 12, fifo := [⟨77, 65535, 0, 1, 0, true, true, false, 3, 19, [1, 2, 3]⟩] }

def w19_9 : State := on leafS fun h => ((h.wr (Reg.DO_CFG 1) 1).wr (Reg.DO_STAT 1) 0x10000).updDpOut 1 fun x => { x with phase := .fill, tim := { hact := 3, vact := 9, vbmin := 3, vbmax := 5 }, next := 8 }

def w19_10 : State := on leafS fun h => ((h.wr (Reg.DO_CFG 1) 1).wr (Reg.DO_STAT 1) 0x10000).updDpOut 1 fun x => { x with phase := .picture 7, tim := { hact := 3, vact := 9, vbmin := 3, vbmax := 5 }, next := 8, fifo := [⟨77, 7, 8, 1, 0, true, true, false, 3, 19, [1, 2, 3]⟩] }

def w19_11 : State := on leafS fun h => (h.wr (Reg.DO_H 1) 64).updDpOut 1 fun x => { x with phase := .synth, next := 8 }

def w19_12 : State := on rootS fun h => ((((h.updHdr .dse fun x => { x with enable := true }).wr (Reg.DI_CFG 1) 1).wr (Reg.DI_STAT 1) 0x80).wr (Reg.DI_FLOW 1) 77).setCtx 9 { state := .resident, handle := 77, port := 2, tc := 3, inseq := 65535 }

def w19_13 : State := on leafS fun h => ((h.setCtx 9 { state := .resident, handle := 77, port := 0xF, list := [5, 6] }).setCell 5 (some { slot := 9, flow := 77, fseq := 3, tc := 2, first := true, last := false, inp := 0, tmask := 2 ^ 15, pend := 2 ^ 15, pennant := pennantOf [1, 2] 77 3, payload := [1, 2], place := .listed })).updDpOut 1 fun x => { x with reading := some { slot := 9, flow := 77, fseq := 3, tmask := 2 ^ 15, cells := [5, 6], bytes := [], failed := false } }

def w19_14 : State := on leafS fun h => ((h.wr (Reg.DO_CFG 1) 1).wr (Reg.DO_STAT 1) 0x10000).updDpOut 1 fun x => { x with phase := .blank, tim := { hact := 64, vact := 9, vbmin := 3, vbmax := 5 }, next := 11 }

def w19_15 : State := on leafS fun h => ((h.wr (Reg.DO_CFG 1) 1).wr (Reg.DO_STAT 1) 0x10000).updDpOut 1 fun x => { x with phase := .fill, tim := { hact := 3, vact := 9, vbmin := 3, vbmax := 5 }, next := 8 }

def w19_16 : State := on leafS fun h => (h.wr (Reg.DO_H 1) 64).updDpOut 1 fun x => { x with phase := .synth, next := 8 }

/-- The hypotheses of Obligations.DisplayLines hold somewhere, clause by clause. -/
theorem wit_displayLines :
    (w19_1.hub.works .dse = true)
    ∧ (w19_1.hub.role = .root)
    ∧ (w19_1.hub.rdB (Reg.DI_CFG ((1 : Fin 2))) 0 = true)
    ∧ (w19_1.hub.rdB (Reg.DI_STAT ((1 : Fin 2))) 7 = true)
    ∧ ((({ first := true, last := true, symErr := false, hact := 4, htotal := 5, vact := 6, vtotal := 7, pclk := 8, format := some 0, sdps := 2, pixels := [1, 2, 3] } : DpRxLine)).format.isSome = true)
    ∧ ((({ first := true, last := true, symErr := false, hact := 4, htotal := 5, vact := 6, vtotal := 7, pclk := 8, format := some 0, sdps := 2, pixels := [1, 2, 3] } : DpRxLine)).symErr = false)
    ∧ (w19_1.hub.admits (0x0E + ((1 : Fin 2))) (w19_1.hub.rdF (Reg.DI_FLOW ((1 : Fin 2))) 23 0) (16 + (({ first := true, last := true, symErr := false, hact := 4, htotal := 5, vact := 6, vtotal := 7, pclk := 8, format := some 0, sdps := 2, pixels := [1, 2, 3] } : DpRxLine)).pixels.length) (9) = true)
    ∧ (w19_2.hub.works .dse = true)
    ∧ (w19_2.hub.role = .root)
    ∧ (w19_2.hub.rdB (Reg.DI_CFG ((1 : Fin 2))) 0 = true)
    ∧ (w19_2.hub.rdB (Reg.DI_STAT ((1 : Fin 2))) 7 = true)
    ∧ ((({ first := true, last := true, symErr := false, hact := 4, htotal := 5, vact := 6, vtotal := 7, pclk := 8, format := none, sdps := 2, pixels := [1, 2, 3] } : DpRxLine)).format = none)
    ∧ (w19_3.hub.up .dse = true)
    ∧ ((w19_3.hub.dpOut ((1 : Fin 2))).reading = some (({ slot := 9, flow := 77, fseq := 3, tmask := 2 ^ 15, cells := [5, 6], bytes := [], failed := false } : DpUnit)))
    ∧ ((({ slot := 9, flow := 77, fseq := 3, tmask := 2 ^ 15, cells := [5, 6], bytes := [], failed := false } : DpUnit)).cells = (5) :: (([6] : List Nat)))
    ∧ ((([6] : List Nat)) ≠ [])
    ∧ (w19_3.hub.cell (5) = some (({ slot := 9, flow := 77, fseq := 3, tc := 2, first := true, last := false, inp := 0, tmask := 2 ^ 15, pend := 2 ^ 15, pennant := pennantOf [1, 2] 77 3, payload := [1, 2], place := .listed } : CellSt)))
    ∧ ((({ slot := 9, flow := 77, fseq := 3, tc := 2, first := true, last := false, inp := 0, tmask := 2 ^ 15, pend := 2 ^ 15, pennant := pennantOf [1, 2] 77 3, payload := [1, 2], place := .listed } : CellSt)).pend.testBit (0x0E + ((1 : Fin 2))) = true)
    ∧ (w19_3.hub.cellGood (5) false = true)
    ∧ (w19_4.hub.up .dse = true)
    ∧ ((w19_4.hub.dpOut ((1 : Fin 2))).reading = some (({ slot := 9, flow := 77, fseq := 3, tmask := 2 ^ 15, cells := [5], bytes := [], failed := false } : DpUnit)))
    ∧ ((({ slot := 9, flow := 77, fseq := 3, tmask := 2 ^ 15, cells := [5], bytes := [], failed := false } : DpUnit)).cells = [(5)])
    ∧ (w19_5.hub.up .dse = true)
    ∧ (w19_5.hub.role = .leaf)
    ∧ (w19_5.hub.dpEn ((1 : Fin 2)) = true)
    ∧ (w19_5.hub.dpClone = false)
    ∧ ((w19_5.hub.dpOut ((1 : Fin 2))).phase = .blank)
    ∧ ((11) = (w19_5.hub.dpOut ((1 : Fin 2))).next)
    ∧ ((w19_5.hub.dpOut ((1 : Fin 2))).tim.vact < (11))
    ∧ ((11) < (w19_5.hub.dpOut ((1 : Fin 2))).tim.vact + (w19_5.hub.dpOut ((1 : Fin 2))).tim.vbmin)
    ∧ ((w19_5.hub.dpOut ((1 : Fin 2))).lineDue w19_5.hub.mono = true)
    ∧ (w19_6.hub.up .dse = true)
    ∧ (w19_6.hub.role = .leaf)
    ∧ (w19_6.hub.dpEn ((1 : Fin 2)) = true)
    ∧ (w19_6.hub.dpClone = false)
    ∧ ((w19_6.hub.dpOut ((1 : Fin 2))).phase = .picture (7))
    ∧ ((w19_6.hub.dpOut ((1 : Fin 2))).next = (w19_6.hub.dpOut ((1 : Fin 2))).tim.vact)
    ∧ (0 < (w19_6.hub.dpOut ((1 : Fin 2))).tim.vbmin)
    ∧ ((w19_6.hub.dpOut ((1 : Fin 2))).aborted = false)
    ∧ ((w19_6.hub.dpOut ((1 : Fin 2))).lineDue w19_6.hub.mono = true)
    ∧ (w19_7.hub.up .dse = true)
    ∧ (w19_7.hub.role = .leaf)
    ∧ (w19_7.hub.dpEn ((1 : Fin 2)) = true)
    ∧ (w19_7.hub.dpClone = false)
    ∧ ((w19_7.hub.dpOut ((1 : Fin 2))).phase = .blank)
    ∧ ((w19_7.hub.dpOut ((1 : Fin 2))).fifo = [])
    ∧ ((w19_7.hub.dpOut ((1 : Fin 2))).tim.vbmin ≤ (w19_7.hub.dpOut ((1 : Fin 2))).tim.vbmax)
    ∧ (0 < (w19_7.hub.dpOut ((1 : Fin 2))).tim.vbmax)
    ∧ ((w19_7.hub.dpOut ((1 : Fin 2))).next = (w19_7.hub.dpOut ((1 : Fin 2))).tim.vact + (w19_7.hub.dpOut ((1 : Fin 2))).tim.vbmax)
    ∧ ((w19_7.hub.dpOut ((1 : Fin 2))).lineDue w19_7.hub.mono = true)
    ∧ (w19_8.hub.up .dse = true)
    ∧ (w19_8.hub.role = .leaf)
    ∧ (w19_8.hub.dpEn ((1 : Fin 2)) = true)
    ∧ (w19_8.hub.dpClone = false)
    ∧ ((w19_8.hub.dpOut ((1 : Fin 2))).phase = .blank)
    ∧ ((w19_8.hub.dpOut ((1 : Fin 2))).fifo = [((⟨77, 65535, 0, 1, 0, true, true, false, 3, 19, [1, 2, 3]⟩ : DpLine))])
    ∧ (((⟨77, 65535, 0, 1, 0, true, true, false, 3, 19, [1, 2, 3]⟩ : DpLine)).sof = true)
    ∧ (((⟨77, 65535, 0, 1, 0, true, true, false, 3, 19, [1, 2, 3]⟩ : DpLine)).eof = true)
    ∧ (((⟨77, 65535, 0, 1, 0, true, true, false, 3, 19, [1, 2, 3]⟩ : DpLine)).line = 0)
    ∧ ((w19_8.hub.dpOut ((1 : Fin 2))).tim.vact < (w19_8.hub.dpOut ((1 : Fin 2))).next)
    ∧ ((w19_8.hub.dpOut ((1 : Fin 2))).tim.vact + (w19_8.hub.dpOut ((1 : Fin 2))).tim.vbmin ≤ (w19_8.hub.dpOut ((1 : Fin 2))).next)
    ∧ ((w19_8.hub.dpOut ((1 : Fin 2))).lineDue w19_8.hub.mono = true)
    ∧ (w19_9.hub.up .dse = true)
    ∧ (w19_9.hub.dpEn ((1 : Fin 2)) = true)
    ∧ (w19_9.hub.dpClone = false)
    ∧ ((w19_9.hub.dpOut ((1 : Fin 2))).phase = .fill)
    ∧ ((8) = (w19_9.hub.dpOut ((1 : Fin 2))).next)
    ∧ ((8) < (w19_9.hub.dpOut ((1 : Fin 2))).tim.vact)
    ∧ ((w19_9.hub.dpOut ((1 : Fin 2))).aborted = false)
    ∧ ((w19_9.hub.dpOut ((1 : Fin 2))).lineDue w19_9.hub.mono = true)
    ∧ (w19_10.hub.up .dse = true)
    ∧ (w19_10.hub.dpEn ((1 : Fin 2)) = true)
    ∧ (w19_10.hub.dpClone = false)
    ∧ ((w19_10.hub.dpOut ((1 : Fin 2))).phase = .picture (7))
    ∧ ((8) = (w19_10.hub.dpOut ((1 : Fin 2))).next)
    ∧ ((8) < (w19_10.hub.dpOut ((1 : Fin 2))).tim.vact)
    ∧ ((w19_10.hub.dpOut ((1 : Fin 2))).aborted = false)
    ∧ ((w19_10.hub.dpOut ((1 : Fin 2))).ends = none)
    ∧ ((w19_10.hub.dpOut ((1 : Fin 2))).fifo = [((⟨77, 7, 8, 1, 0, true, true, false, 3, 19, [1, 2, 3]⟩ : DpLine))])
    ∧ (((⟨77, 7, 8, 1, 0, true, true, false, 3, 19, [1, 2, 3]⟩ : DpLine)).vframe = (7))
    ∧ (((⟨77, 7, 8, 1, 0, true, true, false, 3, 19, [1, 2, 3]⟩ : DpLine)).line = (8))
    ∧ (((⟨77, 7, 8, 1, 0, true, true, false, 3, 19, [1, 2, 3]⟩ : DpLine)).bad = false)
    ∧ (w19_10.hub.rdF (Reg.DO_WIN ((1 : Fin 2))) 28 16 = 0)
    ∧ ((w19_10.hub.dpOut ((1 : Fin 2))).lineDue w19_10.hub.mono = true)
    ∧ (w19_11.hub.up .dse = true)
    ∧ (w19_11.hub.dpClone = false)
    ∧ ((w19_11.hub.dpOut ((1 : Fin 2))).phase = .synth)
    ∧ (w19_12.hub.works .dse = true)
    ∧ (w19_12.hub.role = .root)
    ∧ (w19_12.hub.rdB (Reg.DI_CFG ((1 : Fin 2))) 0 = true)
    ∧ (w19_12.hub.rdB (Reg.DI_STAT ((1 : Fin 2))) 7 = true)
    ∧ (w19_13.hub.up .dse = true)
    ∧ ((w19_13.hub.dpOut ((1 : Fin 2))).reading.isSome = true)
    ∧ (w19_14.hub.up .dse = true)
    ∧ (w19_14.hub.role = .leaf)
    ∧ (w19_14.hub.dpEn ((1 : Fin 2)) = true)
    ∧ ((w19_14.hub.dpOut ((1 : Fin 2))).inBlanking = true)
    ∧ ((w19_14.hub.dpOut ((1 : Fin 2))).lineDue w19_14.hub.mono = true)
    ∧ ((w19_14.hub.dpClone = false ∨ ((1 : Fin 2)) = 0 ∨ (w19_14.hub.dpOut ((1 : Fin 2))).phase = .retime))
    ∧ (w19_15.hub.up .dse = true)
    ∧ (w19_15.hub.dpEn ((1 : Fin 2)) = true)
    ∧ ((w19_15.hub.dpOut ((1 : Fin 2))).inActive = true)
    ∧ ((w19_15.hub.dpOut ((1 : Fin 2))).lineDue w19_15.hub.mono = true)
    ∧ ((w19_15.hub.dpClone = false ∨ ((1 : Fin 2)) = 0))
    ∧ (w19_16.hub.up .dse = true)
    ∧ ((w19_16.hub.dpOut ((1 : Fin 2))).phase = .synth) := by
  and_intros <;> decide +kernel

def w19_17 : State := leafS

def w19_18 : State := on leafS fun h => h.wr (Reg.DO_STAT 1) 0x20000

def w19_19 : State := on leafS fun h => h.wr (Reg.DO_STAT 1) 0x30000

def w19_20 : State := on rootS fun h => h.wr (Reg.DI_CFG 1) 0x4A1

def w19_21 : State := on rootS fun h => (h.wr Reg.LNX_REF_STAT 0xFF).wr (Reg.DI_CFG 1) 0x4A1

def w19_22 : State := on rootS fun h => h.wr (Reg.DI_STAT 1) 0x180

def w19_23 : State := on leafS fun h => (ask .dse 0x10 [1, 16] h).wr (Reg.DO_STAT 1) 0x20000

def w19_24 : State := on leafS fun h => ((ask .dse 0x11 [1, 8, 4] h).wr Reg.LNX_REF_STAT 0xFF).wr (Reg.DO_STAT 1) 0x20000

def w19_25 : State := on rootS fun h => (ask .dse 0x12 [1] h).wr (Reg.DI_CFG 1) 1

def w19_26 : State := on leafS fun h => h.wr (Reg.DO_STAT 1) 0x30000

def w19_27 : State := on rootS fun h => h.wr (Reg.DI_CFG 1) 0x4A1

def w19_28 : State := on leafS fun h => (ask .dse 0x10 [1, 16] h).wr (Reg.DO_STAT 1) 0x20000

def w19_29 : State := on leafS fun h => (ask .dse 0x11 [1, 8, 4] h).wr (Reg.DO_STAT 1) 0x20000

def w19_30 : State := on rootS fun h => (ask .dse 0x12 [1] h).wr (Reg.DI_CFG 1) 1

/-- The hypotheses of Obligations.DisplayLinks hold somewhere, clause by clause. -/
theorem wit_displayLinks :
    (w19_17.hub.up .dse = true)
    ∧ (w19_17.hub.role = .leaf)
    ∧ (w19_17.hub.rdB (Reg.DO_STAT ((1 : Fin 2))) 17 = false)
    ∧ (w19_18.hub.up .dse = true)
    ∧ (w19_18.hub.role = .leaf)
    ∧ (w19_18.hub.rdB (Reg.DO_STAT ((1 : Fin 2))) 17 = true)
    ∧ (w19_18.hub.rdB (Reg.DO_STAT ((1 : Fin 2))) 16 = false)
    ∧ (w19_19.hub.up .dse = true)
    ∧ (w19_19.hub.role = .leaf)
    ∧ (w19_19.hub.rdB (Reg.DO_STAT ((1 : Fin 2))) 17 = true)
    ∧ (w19_19.hub.rdB (Reg.DO_STAT ((1 : Fin 2))) 16 = true)
    ∧ (w19_20.hub.up .dse = true)
    ∧ (w19_20.hub.role = .root)
    ∧ (w19_20.hub.rdB (Reg.DI_CFG ((1 : Fin 2))) 0 = true)
    ∧ (w19_21.hub.up .dse = true)
    ∧ (w19_21.hub.role = .root)
    ∧ (w19_21.hub.rdB (Reg.DI_CFG ((1 : Fin 2))) 0 = true)
    ∧ (w19_21.hub.refsReady (0x0E + ((1 : Fin 2))) = true)
    ∧ (w19_22.hub.up .dse = true)
    ∧ (w19_22.hub.role = .root)
    ∧ (w19_22.hub.rdB (Reg.DI_STAT ((1 : Fin 2))) 7 = true)
    ∧ (w19_23.hub.opRunning .dse 0x10 = true)
    ∧ (w19_23.hub.present .dse = true)
    ∧ (w19_23.hub.role = .leaf)
    ∧ (1 ≤ fld (w19_23.hub.arg .dse 1) 4 0)
    ∧ (fld (w19_23.hub.arg .dse 1) 4 0 ≤ 16)
    ∧ (w19_23.hub.rdB (Reg.DO_STAT (b2n (bit (w19_23.hub.arg .dse 0) 0))) 17 = true)
    ∧ ((0) = 0)
    ∧ ((([1, 2, 3, 4, 5] : List Byte)).length ≤ 16)
    ∧ (w19_24.hub.opRunning .dse 0x11 = true)
    ∧ (w19_24.hub.present .dse = true)
    ∧ (w19_24.hub.role = .leaf)
    ∧ (w19_24.hub.arg .dse 0 = 1)
    ∧ (w19_24.hub.arg .dse 1 = 8)
    ∧ (w19_24.hub.arg .dse 2 = 4)
    ∧ (w19_24.hub.dpEn 1 = false)
    ∧ (w19_24.hub.rdB (Reg.DO_STAT 1) 17 = true)
    ∧ (w19_24.hub.refsReady 0x0F = true)
    ∧ (w19_25.hub.opRunning .dse 0x12 = true)
    ∧ (w19_25.hub.present .dse = true)
    ∧ (w19_25.hub.role = .root)
    ∧ (w19_25.hub.arg .dse 0 = 1)
    ∧ (w19_25.hub.rdB (Reg.DI_CFG 1) 0 = true)
    ∧ (w19_26.hub.up .dse = true)
    ∧ (w19_26.hub.role = .leaf)
    ∧ (w19_26.hub.rdB (Reg.DO_STAT ((1 : Fin 2))) 17 = true)
    ∧ (w19_27.hub.up .dse = true)
    ∧ (w19_27.hub.role = .root)
    ∧ (w19_27.hub.rdB (Reg.DI_CFG ((1 : Fin 2))) 0 = true)
    ∧ (w19_28.hub.opRunning .dse 0x10 = true)
    ∧ (w19_29.hub.opRunning .dse 0x11 = true)
    ∧ (w19_30.hub.opRunning .dse 0x12 = true) := by
  and_intros <;> decide +kernel

def w20_1 : State := on leafS fun h => (h.updHdr .vin fun x => { x with enable := true }).wr (Reg.VN_CFG 3) 0x31 |> fun h => h.wr (Reg.VN_VFRAME 3) 0xFFFF

def w20_2 : State := on leafS fun h => (h.updHdr .vin fun x => { x with enable := true }).wr (Reg.VN_CFG 3) 0x31

def w20_3 : State := on leafS fun h => ((h.updHdr .vin fun x => { x with enable := true }).wr (Reg.VN_CFG 3) 0x31).updVin 3 fun x => { x with isOpen := true, line := 9 }

def w20_4 : State := on leafS fun h => later 100000000 <| ((h.updHdr .vin fun x => { x with enable := true }).wr (Reg.VN_CFG 3) 0x31).updVin 3 fun x => { x with isOpen := true, line := 9 }

def w20_5 : State := on leafS fun h => ((h.updHdr .vin fun x => { x with enable := true }).wr (Reg.VN_CFG 3) 0x31).updVin 3 fun x => { x with isOpen := true, line := 9 }

def w20_6 : State := on leafS fun h => (h.updHdr .vin fun x => { x with enable := true }).wr (Reg.VN_CFG 3) 0x31

def w20_7 : State := on leafS fun h => ((((h.updHdr .vin fun x => { x with enable := true }).wr (Reg.VN_CFG 3) 0x79).wr (Reg.VN_CAP_FLOW 3) 77).setCtx 9 { state := .resident, handle := 77, port := 2, tc := 3, inseq := 65535 }).updVin 3 fun x => { x with isOpen := true, line := 9 }

def w20_8 : State := on leafS fun h => (h.updHdr .vin fun x => { x with enable := true }).wr (Reg.VN_CFG 3) 0x31 |> fun h => h.wr (Reg.VN_VFRAME 3) 0xFFFF

def w20_9 : State := on leafS fun h => ((((h.updHdr .vin fun x => { x with enable := true }).wr (Reg.VN_CFG 3) 0x79).wr (Reg.VN_CAP_FLOW 3) 77).setCtx 9 { state := .resident, handle := 77, port := 2, tc := 3, inseq := 65535 }).updVin 3 fun x => { x with isOpen := true, line := 9 }

/-- The hypotheses of Obligations.VisionIngress hold somewhere, clause by clause. -/
theorem wit_visionIngress :
    (w20_1.hub.vinOn ((3 : Fin 4)) = true)
    ∧ (w20_1.hub.vinVc ((3 : Fin 4)) ((3 : BitVec 2)).toNat = true)
    ∧ ((w20_1.hub.vinRx ((3 : Fin 4))).isOpen = false)
    ∧ (w20_2.hub.vinOn ((3 : Fin 4)) = true)
    ∧ (w20_2.hub.vinVc ((3 : Fin 4)) ((2 : BitVec 2)).toNat = false)
    ∧ (w20_3.hub.vinOn ((3 : Fin 4)) = true)
    ∧ (w20_3.hub.vinVc ((3 : Fin 4)) ((3 : BitVec 2)).toNat = true)
    ∧ ((w20_3.hub.vinRx ((3 : Fin 4))).isOpen = true)
    ∧ (w20_4.hub.vinOn ((3 : Fin 4)) = true)
    ∧ ((w20_4.hub.vinRx ((3 : Fin 4))).isOpen = true)
    ∧ ((w20_4.hub.vinRx ((3 : Fin 4))).seen + w20_4.hub.gapTmo ((3 : Fin 4)) ≤ w20_4.hub.mono)
    ∧ (w20_5.hub.vinOn ((3 : Fin 4)) = true)
    ∧ (w20_5.hub.vinVc ((3 : Fin 4)) ((3 : BitVec 2)).toNat = true)
    ∧ (csiTypeOk ((0x2C : Byte)).toNat = true)
    ∧ ((w20_5.hub.vinRx ((3 : Fin 4))).isOpen = true)
    ∧ ((([1, 2, 3] : List Byte)).length ≤ 16368)
    ∧ (w20_5.hub.rdB (Reg.VN_CFG ((3 : Fin 4))) 6 = false)
    ∧ (w20_5.hub.rdB (Reg.VN_CFG ((3 : Fin 4))) 7 = false)
    ∧ (w20_6.hub.vinOn ((3 : Fin 4)) = true)
    ∧ (w20_7.hub.vinOn ((3 : Fin 4)) = true)
    ∧ (w20_7.hub.vinVc ((3 : Fin 4)) ((3 : BitVec 2)).toNat = true)
    ∧ (csiTypeOk ((0x2C : Byte)).toNat = true)
    ∧ ((w20_7.hub.vinRx ((3 : Fin 4))).isOpen = true)
    ∧ ((([1, 2, 3] : List Byte)).length ≤ 16368)
    ∧ (w20_7.hub.rdB (Reg.VN_CFG ((3 : Fin 4))) 6 = true)
    ∧ (w20_7.hub.rdB (Reg.VN_CFG ((3 : Fin 4))) 3 = true)
    ∧ (w20_7.hub.rdB (Reg.VN_CFG ((3 : Fin 4))) 7 = false)
    ∧ (w20_7.hub.admits (0x12 + ((3 : Fin 4))) (w20_7.hub.rdF (Reg.VN_CAP_FLOW ((3 : Fin 4))) 23 0) (16 + (([1, 2, 3] : List Byte)).length) (9) = true)
    ∧ (w20_8.hub.vinOn ((3 : Fin 4)) = true)
    ∧ (w20_9.hub.vinOn ((3 : Fin 4)) = true) := by
  and_intros <;> decide +kernel

def w20_10 : State := on leafS fun h => h.updVin 3 fun x => { x with sched := some ⟨0, 1000, 8, 1, 0⟩ }

def w20_11 : State := on leafS fun h => h.updVin 3 fun x => { x with sched := some ⟨0, 1000, 8, 1, 0⟩, pulseEnd := some 0 }

def w20_12 : State := on leafS fun h => h.updVin 3 fun x => { x with active := true, pulseEnd := some 0 }

def w20_13 : State := on leafS fun h => ((h.wr (Reg.VN_TRIG_START_LO 3) 1000).wr (Reg.VN_TRIG_PERIOD 3) 5000).wr (Reg.VN_TRIG_COUNT 3) 7

def w20_14 : State := on leafS fun h => h.updVin 3 fun x => { x with sched := some ⟨0, 1000, 8, 1, 0⟩ }

def w20_15 : State := on leafS fun h => h.updVin 3 fun x => { x with sched := some ⟨0, 1000, 8, 1, 0⟩ }

def w20_16 : State := on leafS fun h => h.updVin 3 fun x => { x with active := true, pulseEnd := some 0 }

def w20_17 : State := on leafS fun h => ((h.wr (Reg.VN_TRIG_START_LO 3) 1000).wr (Reg.VN_TRIG_PERIOD 3) 5000).wr (Reg.VN_TRIG_COUNT 3) 7

/-- The hypotheses of Obligations.Triggers hold somewhere, clause by clause. -/
theorem wit_triggers :
    (w20_10.hub.up .vin = true)
    ∧ ((w20_10.hub.vinRx ((3 : Fin 4))).sched = some ((⟨0, 1000, 8, 1, 0⟩ : TrigSched)))
    ∧ (((⟨0, 1000, 8, 1, 0⟩ : TrigSched)).time ((⟨0, 1000, 8, 1, 0⟩ : TrigSched)).k ≤ w20_10.hub.now)
    ∧ ((w20_10.hub.vinRx ((3 : Fin 4))).pulseEnd = none)
    ∧ (((3 : Fin 4)).val < w20_10.hub.pins.trig.length)
    ∧ (w20_11.hub.up .vin = true)
    ∧ ((w20_11.hub.vinRx ((3 : Fin 4))).sched = some ((⟨0, 1000, 8, 1, 0⟩ : TrigSched)))
    ∧ (((⟨0, 1000, 8, 1, 0⟩ : TrigSched)).time ((⟨0, 1000, 8, 1, 0⟩ : TrigSched)).k ≤ w20_11.hub.now)
    ∧ ((w20_11.hub.vinRx ((3 : Fin 4))).pulseEnd = some (0))
    ∧ (((⟨0, 1000, 8, 1, 0⟩ : TrigSched)).time ((⟨0, 1000, 8, 1, 0⟩ : TrigSched)).k < (0) + 100)
    ∧ (w20_12.hub.up .vin = true)
    ∧ ((w20_12.hub.vinRx ((3 : Fin 4))).active = true)
    ∧ ((w20_12.hub.vinRx ((3 : Fin 4))).pulseEnd = some (0))
    ∧ ((0) ≤ w20_12.hub.now)
    ∧ (((3 : Fin 4)).val < w20_12.hub.pins.trig.length)
    ∧ (w20_13.hub.up .vin = true)
    ∧ (((8 : BitVec 4)) = BitVec.ofNat 4 (2 ^ ((3 : Fin 4)).val))
    ∧ (0 < w20_13.hub.trigPeriod ((3 : Fin 4)))
    ∧ (w20_13.hub.now + 1000 ≤ join64 (w20_13.hub.rd (Reg.VN_TRIG_START_LO ((3 : Fin 4)))) (w20_13.hub.rd (Reg.VN_TRIG_START_HI ((3 : Fin 4)))))
    ∧ (w20_14.hub.up .vin = true)
    ∧ (w20_15.hub.up .vin = true)
    ∧ (w20_15.hub.trigDue ((3 : Fin 4)) = true)
    ∧ (w20_16.hub.up .vin = true)
    ∧ ((w20_16.hub.vinRx ((3 : Fin 4))).active = true)
    ∧ ((w20_16.hub.vinRx ((3 : Fin 4))).pulseEnd = some (0))
    ∧ ((0) ≤ w20_16.hub.now)
    ∧ (w20_17.hub.up .vin = true) := by
  and_intros <;> decide +kernel

def w21_1 : State := on rootS fun h => (h.wr (Reg.EP_CFG 3) 1).wr (Reg.EP_STAT 3) 7

def w21_2 : State := on rootS fun h => (h.wr (Reg.EP_CFG 3) 2).wr Reg.LNX_REF_STAT 0xFF

def w21_3 : State := on rootS fun h => (h.updHdr .eth fun x => { x with enable := true }).wr (Reg.EP_STAT 3) 7

def w21_4 : State := on rootS fun h => (h.updHdr .eth fun x => { x with enable := true }).wr (Reg.EP_STAT 3) 7

def w21_5 : State := on rootS fun h => (h.updHdr .eth fun x => { x with enable := true }).wr (Reg.EP_STAT 3) 7

def w21_6 : State := on rootS fun h => (h.updHdr .eth fun x => { x with enable := true }).wr (Reg.EP_STAT 3) 7

def w21_7 : State := on rootS fun h => ((h.updHdr .eth fun x => { x with enable := true }).wr (Reg.EP_STAT 3) 7).wr (Reg.EP_CFG 3) 0x40

def w21_8 : State := on rootS fun h => (((((h.updHdr .eth fun x => { x with enable := true }).wr (Reg.EP_STAT 3) 7).wr (Reg.EP_CFG 3) 0x40).wr (clsAddr 4095 2) 77).wr (clsAddr 4095 3) 0x7FFF).setCtx 9 { state := .resident, handle := 77, port := 2, tc := 3, inseq := 65535 }

def w21_9 : State := rootS

def w21_10 : State := on rootS fun h => ((ask .eth 0x11 [3, 0, 0] h).wr (clsAddr 4095 2) 77).wr (clsAddr 4095 3) 0x7FFF

def w21_11 : State := on rootS fun h => ask .eth 0x11 [3, 0, 0] h

def w21_12 : State := on rootS fun h => ask .eth 0x10 [5, 0] h

def w21_13 : State := on rootS fun h => (h.wr (Reg.EP_CFG 3) 1).wr (Reg.EP_STAT 3) 7

def w21_14 : State := on rootS fun h => (h.wr (Reg.EP_CFG 3) 2).wr Reg.LNX_REF_STAT 0xFF

def w21_15 : State := on rootS fun h => (h.updHdr .eth fun x => { x with enable := true }).wr (Reg.EP_STAT 3) 7

def w21_16 : State := rootS

def w21_17 : State := on rootS fun h => ask .eth 0x11 [3, 0, 0] h

def w21_18 : State := on rootS fun h => ask .eth 0x10 [6, 0] h

/-- The hypotheses of Obligations.EthernetPorts hold somewhere, clause by clause. -/
theorem wit_ethernetPorts :
    (w21_1.hub.up .eth = true)
    ∧ (w21_1.hub.rdB (Reg.EP_STAT ((3 : Fin 4))) 0 = true)
    ∧ (w21_1.hub.epMode ((3 : Fin 4)) ≠ 0)
    ∧ (w21_1.hub.rdB (Reg.EP_CFG ((3 : Fin 4))) 9 = false)
    ∧ (w21_2.hub.up .eth = true)
    ∧ (w21_2.hub.rdB (Reg.EP_STAT ((3 : Fin 4))) 0 = false)
    ∧ (w21_2.hub.epMode ((3 : Fin 4)) = 2)
    ∧ (w21_2.hub.refsReady (9 + ((3 : Fin 4))) = true)
    ∧ (w21_3.hub.works .eth = true)
    ∧ (w21_3.hub.rdB (Reg.EP_STAT ((3 : Fin 4))) 0 = true)
    ∧ (w21_4.hub.works .eth = true)
    ∧ (w21_4.hub.rdB (Reg.EP_STAT ((3 : Fin 4))) 0 = true)
    ∧ (((List.replicate 59 1 : List Byte)).length < 60)
    ∧ (w21_5.hub.works .eth = true)
    ∧ (w21_5.hub.rdB (Reg.EP_STAT ((3 : Fin 4))) 0 = true)
    ∧ (60 ≤ ((List.replicate 60 1 : List Byte)).length)
    ∧ (((List.replicate 60 1 : List Byte)).length + 4 ≤ clampN 64 9600 (w21_5.hub.rdF (Reg.EP_MAXLEN ((3 : Fin 4))) 13 0))
    ∧ (w21_6.hub.works .eth = true)
    ∧ (w21_6.hub.rdB (Reg.EP_STAT ((3 : Fin 4))) 0 = true)
    ∧ (60 ≤ ((List.replicate 12 1 ++ [0x88, 8] ++ List.replicate 60 1 : List Byte)).length)
    ∧ (((List.replicate 12 1 ++ [0x88, 8] ++ List.replicate 60 1 : List Byte)).length + 4 ≤ clampN 64 9600 (w21_6.hub.rdF (Reg.EP_MAXLEN ((3 : Fin 4))) 13 0))
    ∧ (w21_6.hub.rdB (Reg.EP_CFG ((3 : Fin 4))) 8 = false)
    ∧ (beVal ((((List.replicate 12 1 ++ [0x88, 8] ++ List.replicate 60 1 : List Byte)).drop 12).take 2) = 0x8808)
    ∧ (w21_7.hub.works .eth = true)
    ∧ (w21_7.hub.rdB (Reg.EP_STAT ((3 : Fin 4))) 0 = true)
    ∧ (60 ≤ ((List.replicate 60 1 : List Byte)).length)
    ∧ (((List.replicate 60 1 : List Byte)).length + 4 ≤ clampN 64 9600 (w21_7.hub.rdF (Reg.EP_MAXLEN ((3 : Fin 4))) 13 0))
    ∧ (w21_7.hub.rdB (Reg.EP_CFG ((3 : Fin 4))) 8 = false)
    ∧ (beVal ((((List.replicate 60 1 : List Byte)).drop 12).take 2) ≠ 0x8808)
    ∧ (w21_7.hub.rdB (Reg.EP_CFG ((3 : Fin 4))) 6 = true)
    ∧ (w21_7.hub.clsFind ((3 : Fin 4)) (beVal (((List.replicate 60 1 : List Byte)).take 6)) (w21_7.hub.ethTag ((3 : Fin 4)) ((List.replicate 60 1 : List Byte))).1 (w21_7.hub.ethTag ((3 : Fin 4)) ((List.replicate 60 1 : List Byte))).2 none = none)
    ∧ (w21_8.hub.works .eth = true)
    ∧ (w21_8.hub.rdB (Reg.EP_STAT ((3 : Fin 4))) 0 = true)
    ∧ (60 ≤ ((List.replicate 60 1 : List Byte)).length)
    ∧ (((List.replicate 60 1 : List Byte)).length + 4 ≤ clampN 64 9600 (w21_8.hub.rdF (Reg.EP_MAXLEN ((3 : Fin 4))) 13 0))
    ∧ (w21_8.hub.rdB (Reg.EP_CFG ((3 : Fin 4))) 8 = false)
    ∧ (beVal ((((List.replicate 60 1 : List Byte)).drop 12).take 2) ≠ 0x8808)
    ∧ (w21_8.hub.clsFind ((3 : Fin 4)) (beVal (((List.replicate 60 1 : List Byte)).take 6)) (w21_8.hub.ethTag ((3 : Fin 4)) ((List.replicate 60 1 : List Byte))).1 (w21_8.hub.ethTag ((3 : Fin 4)) ((List.replicate 60 1 : List Byte))).2 none = some (4095))
    ∧ ((77) = fld (w21_8.hub.rd (clsAddr (4095) 2)) 23 0)
    ∧ (w21_8.hub.admits (9 + ((3 : Fin 4))) (77) (4 + ((List.replicate 60 1 : List Byte)).length) (9) = true)
    ∧ (w21_9.hub.up .eth = true)
    ∧ (w21_10.hub.opRunning .eth 0x11 = true)
    ∧ (w21_10.hub.present .eth = true)
    ∧ (w21_10.hub.clsFind (fld (w21_10.hub.arg .eth 0) 1 0) ((w21_10.hub.arg .eth 1).toNat + fld (w21_10.hub.arg .eth 2) 15 0 * 2 ^ 32)
      (fld (w21_10.hub.arg .eth 0) 27 16) (fld (w21_10.hub.arg .eth 0) 14 12) none = some (4095))
    ∧ (w21_11.hub.opRunning .eth 0x11 = true)
    ∧ (w21_11.hub.present .eth = true)
    ∧ (w21_11.hub.clsFind (fld (w21_11.hub.arg .eth 0) 1 0) ((w21_11.hub.arg .eth 1).toNat + fld (w21_11.hub.arg .eth 2) 15 0 * 2 ^ 32)
      (fld (w21_11.hub.arg .eth 0) 27 16) (fld (w21_11.hub.arg .eth 0) 14 12) none = none)
    ∧ (w21_12.hub.opRunning .eth 0x10 = true)
    ∧ (w21_12.hub.present .eth = true)
    ∧ (bit (w21_12.hub.arg .eth 0) 0 = true)
    ∧ (w21_13.hub.up .eth = true)
    ∧ (w21_13.hub.rdB (Reg.EP_STAT ((3 : Fin 4))) 0 = true)
    ∧ (w21_14.hub.up .eth = true)
    ∧ (w21_14.hub.epMode ((3 : Fin 4)) ≠ 0)
    ∧ (w21_14.hub.rdB (Reg.EP_STAT ((3 : Fin 4))) 0 = false)
    ∧ (w21_14.hub.refsReady (9 + ((3 : Fin 4))) = true)
    ∧ (w21_15.hub.works .eth = true)
    ∧ (w21_15.hub.rdB (Reg.EP_STAT ((3 : Fin 4))) 0 = true)
    ∧ (w21_16.hub.up .eth = true)
    ∧ (w21_17.hub.opRunning .eth 0x11 = true)
    ∧ (w21_18.hub.opRunning .eth 0x10 = true) := by
  and_intros <;> decide +kernel

def w22_1 : State := on rootS fun h => (h.updHdr .pxb fun x => { x with enable := true }).wr Reg.PX_STAT 0x1C7

def w22_2 : State := on rootS fun h => ((((((h.updHdr .pxb fun x => { x with enable := true }).wr Reg.PX_STAT 0x1C7).wr (Reg.PW_CFG 7) 0x10C01).wr (Reg.PW_FLOW_P 7) 77).wr (Reg.KL_STATE 2) 5).wr (Reg.KL_ROUTE 2) 0x3FFF0000).setCtx 9 { state := .resident, handle := 77, port := 2, tc := 2, inseq := 65535 }

def w22_3 : State := on rootS fun h => (((((((h.updHdr .pxb fun x => { x with enable := true }).wr Reg.PX_STAT 0x1C7).wr (Reg.PW_CFG 7) 0x11403).wr (Reg.PW_FLOW_P 7) 77).wr (Reg.PW_FLOW_N 7) 77).setCtx 9 { state := .resident, handle := 77, port := 2, tc := 2, inseq := 65535 }).wr (Reg.TP_EG_LIMIT 0x0D 2) 600).updPxb fun x => { x with npWait := [(7, ⟨4, false, 0x100000, 4, 15, 0, 9, []⟩)], pend := [(0, ⟨1, 2, 4, 5, 6, 0, 0, [], 1, 0⟩)] }

def w22_4 : State := on rootS fun h => (h.wr Reg.PX_STAT 0x1C7).updPxb fun x => { x with inbox := [⟨78, 3, brHeader 6 7 5 4 0 0 0 0 0 0 0 0 79 ++ [1, 2, 3, 4]⟩], pend := [(5, ⟨1, 2, 4, 5, 4, 0, 0, [], 1, 0⟩)] }

def w22_5 : State := on rootS fun h => ((h.wr (Reg.PW_CFG 7) 0x10).wr Reg.PX_LATE_HEAD 15).updPxb fun x => { x with inbox := [⟨78, 3, brHeader 8 7 5 24 0 0 0 0 0 0 0 0 79 ++ List.replicate 24 7⟩] }

def w22_6 : State := on rootS fun h => later 100000000 <| (h.wr Reg.PX_STAT 0x1C7).updPxb fun x => { x with pend := [(127, ⟨1, 2, 4, 5, 4, 0, 0, [], 1, 0⟩)] }

def w22_7 : State := on leafS fun h => ((((h.updHdr .pxb fun x => { x with enable := true }).wr Reg.PX_STAT 0x1C7).wr Reg.PX_CFG 0x780).wr (Reg.PW_FLOW_P 7) 77).setCtx 9 { state := .resident, handle := 77, port := 2, tc := 2, inseq := 65535 }

def w22_8 : State := on leafS fun h => (((((h.updHdr .pxb fun x => { x with enable := true }).wr Reg.PX_STAT 0x1C7).wr Reg.PX_CFG 0x780).wr (Reg.PW_FLOW_P 7) 77).setCtx 9 { state := .resident, handle := 77, port := 2, tc := 2, inseq := 65535 }).wr Reg.PX_GPIO_CFG 0x80

def w22_9 : State := on rootS fun h => later 100000000 <| h.updPxb fun x => { x with pf := [(7, ⟨5, [1, 2], [false, false], 0⟩)] }

def w22_10 : State := on rootS fun h => later 100000000 <| h.updPxb fun x => { x with pf := [(7, ⟨5, [1, 2], [false, true], 0⟩)] }

def w22_11 : State := on rootS fun h => (h.wr Reg.PX_CFG 4).wr Reg.LNX_REF_STAT 0xFF

def w22_12 : State := on rootS fun h => (h.wr Reg.PX_STAT 0x1C7).updPxb fun x => { x with pf := [(7, ⟨5, [1, 2], [false, true], 0⟩)] }

def w22_13 : State := on leafS fun h => (ask .pxb 0x10 [0x00100004, 0, 15] h).wr Reg.PX_STAT 0x1C7

def w22_14 : State := on rootS fun h => (h.updHdr .pxb fun x => { x with enable := true }).wr Reg.PX_STAT 0x1C7

def w22_15 : State := on rootS fun h => (((((((h.updHdr .pxb fun x => { x with enable := true }).wr Reg.PX_STAT 0x1C7).wr (Reg.PW_CFG 7) 0x11403).wr (Reg.PW_FLOW_P 7) 77).wr (Reg.PW_FLOW_N 7) 77).setCtx 9 { state := .resident, handle := 77, port := 2, tc := 2, inseq := 65535 }).wr (Reg.TP_EG_LIMIT 0x0D 2) 600).updPxb fun x => { x with npWait := [(7, ⟨4, false, 0x100000, 4, 15, 0, 9, []⟩)], pend := [(0, ⟨1, 2, 4, 5, 6, 0, 0, [], 1, 0⟩)] }

def w22_16 : State := on rootS fun h => (h.wr Reg.PX_STAT 0x1C7).updPxb fun x => { x with inbox := [⟨78, 3, brHeader 6 7 5 4 0 0 0 0 0 0 0 0 79 ++ [1, 2, 3, 4]⟩], pend := [(5, ⟨1, 2, 4, 5, 4, 0, 0, [], 1, 0⟩)] }

def w22_17 : State := on rootS fun h => ((h.wr (Reg.PW_CFG 7) 0x10).wr Reg.PX_LATE_HEAD 15).updPxb fun x => { x with inbox := [⟨78, 3, brHeader 8 7 5 24 0 0 0 0 0 0 0 0 79 ++ List.replicate 24 7⟩] }

def w22_18 : State := on rootS fun h => later 100000000 <| (h.wr Reg.PX_STAT 0x1C7).updPxb fun x => { x with pend := [(127, ⟨1, 2, 4, 5, 4, 0, 0, [], 1, 0⟩)] }

def w22_19 : State := on leafS fun h => ((((h.updHdr .pxb fun x => { x with enable := true }).wr Reg.PX_STAT 0x1C7).wr Reg.PX_CFG 0x780).wr (Reg.PW_FLOW_P 7) 77).setCtx 9 { state := .resident, handle := 77, port := 2, tc := 2, inseq := 65535 }

def w22_20 : State := on leafS fun h => (((((h.updHdr .pxb fun x => { x with enable := true }).wr Reg.PX_STAT 0x1C7).wr Reg.PX_CFG 0x780).wr (Reg.PW_FLOW_P 7) 77).setCtx 9 { state := .resident, handle := 77, port := 2, tc := 2, inseq := 65535 }).wr Reg.PX_GPIO_CFG 0x80

def w22_21 : State := on rootS fun h => later 100000000 <| h.updPxb fun x => { x with pf := [(7, ⟨5, [1, 2], [false, true], 0⟩)] }

def w22_22 : State := on rootS fun h => (h.wr Reg.PX_CFG 4).wr Reg.LNX_REF_STAT 0xFF

def w22_23 : State := on rootS fun h => (h.wr Reg.PX_STAT 0x1C7).updPxb fun x => { x with pf := [(7, ⟨5, [1, 2], [false, true], 0⟩)] }

def w22_24 : State := on leafS fun h => (ask .pxb 0x10 [0x00100004, 0, 15] h).wr Reg.PX_STAT 0x1C7

/-- The hypotheses of Obligations.BridgeRequests hold somewhere, clause by clause. -/
theorem wit_bridgeRequests :
    (w22_1.hub.works .pxb = true)
    ∧ (w22_1.hub.pxLink = true)
    ∧ (w22_1.hub.mainUp = true)
    ∧ (w22_1.hub.role = .root)
    ∧ (((⟨4, false, 0x1000, 4, 15, 15, 9, []⟩ : PcieReq)).bar = 4)
    ∧ (w22_1.hub.aliasPage ((⟨4, false, 0x1000, 4, 15, 15, 9, []⟩ : PcieReq)).addr = false)
    ∧ (w22_1.hub.pwOf ((⟨4, false, 0x1000, 4, 15, 15, 9, []⟩ : PcieReq)).addr = none)
    ∧ (((⟨4, false, 0x1000, 4, 15, 15, 9, []⟩ : PcieReq)).write = false)
    ∧ (w22_2.hub.works .pxb = true)
    ∧ (w22_2.hub.pxLink = true)
    ∧ (w22_2.hub.mainUp = true)
    ∧ (w22_2.hub.role = .root)
    ∧ (((⟨4, true, 0x10, 4, 15, 0, 9, [1, 2, 3, 4]⟩ : PcieReq)).bar = 4)
    ∧ (w22_2.hub.aliasPage ((⟨4, true, 0x10, 4, 15, 0, 9, [1, 2, 3, 4]⟩ : PcieReq)).addr = false)
    ∧ (w22_2.hub.pwOf ((⟨4, true, 0x10, 4, 15, 0, 9, [1, 2, 3, 4]⟩ : PcieReq)).addr = some (7))
    ∧ (w22_2.hub.pwFits (7) ((⟨4, true, 0x10, 4, 15, 0, 9, [1, 2, 3, 4]⟩ : PcieReq)) = true)
    ∧ (Tab.find w22_2.hub.pxb.npwBy (7) = none)
    ∧ (w22_2.hub.rdB (Reg.PW_STAT (7)) 0 = false)
    ∧ (Tab.find w22_2.hub.pxb.pf (7) = none)
    ∧ (w22_2.hub.pwRoute (7) = true)
    ∧ (((⟨4, true, 0x10, 4, 15, 0, 9, [1, 2, 3, 4]⟩ : PcieReq)).write = true)
    ∧ (w22_2.hub.pwKind (7) true = 1)
    ∧ (w22_2.hub.lookup (w22_2.hub.rdF (Reg.PW_FLOW_P (7)) 23 0) = .resident (9))
    ∧ (w22_2.hub.admits 0x0D (w22_2.hub.rdF (Reg.PW_FLOW_P (7)) 23 0) (32 + ((⟨4, true, 0x10, 4, 15, 0, 9, [1, 2, 3, 4]⟩ : PcieReq)).data.length) (9) = true)
    ∧ (w22_3.hub.works .pxb = true)
    ∧ (w22_3.hub.pxb.npWait = ((7), ((⟨4, false, 0x100000, 4, 15, 0, 9, []⟩ : PcieReq))) :: (([] : List (Nat × PcieReq))))
    ∧ (w22_3.hub.pwKind (7) ((⟨4, false, 0x100000, 4, 15, 0, 9, []⟩ : PcieReq)).write = 4)
    ∧ (w22_3.hub.npReady ((⟨4, false, 0x100000, 4, 15, 0, 9, []⟩ : PcieReq)).len = true)
    ∧ (((⟨4, false, 0x100000, 4, 15, 0, 9, []⟩ : PcieReq)).write = false)
    ∧ (w22_3.hub.lookup (w22_3.hub.rdF (Reg.PW_FLOW_P (7)) 23 0) = .resident (9))
    ∧ (w22_3.hub.admits 0x0D (w22_3.hub.rdF (Reg.PW_FLOW_N (7)) 23 0) 32 (9) = true)
    ∧ (w22_4.hub.up .pxb = true)
    ∧ (w22_4.hub.pxb.inbox = ((⟨78, 3, brHeader 6 7 5 4 0 0 0 0 0 0 0 0 79 ++ [1, 2, 3, 4]⟩ : ExitFrame)) :: (([] : List ExitFrame)))
    ∧ (brGood ((⟨78, 3, brHeader 6 7 5 4 0 0 0 0 0 0 0 0 79 ++ [1, 2, 3, 4]⟩ : ExitFrame)).bytes = true)
    ∧ (brF ((⟨78, 3, brHeader 6 7 5 4 0 0 0 0 0 0 0 0 79 ++ [1, 2, 3, 4]⟩ : ExitFrame)).bytes 0 1 = 6)
    ∧ (w22_4.hub.pxStalled ((⟨78, 3, brHeader 6 7 5 4 0 0 0 0 0 0 0 0 79 ++ [1, 2, 3, 4]⟩ : ExitFrame)).flow = false)
    ∧ (w22_4.hub.markMet ((⟨78, 3, brHeader 6 7 5 4 0 0 0 0 0 0 0 0 79 ++ [1, 2, 3, 4]⟩ : ExitFrame)).bytes = true)
    ∧ (w22_4.hub.pxb.held = [])
    ∧ ((5) = brF ((⟨78, 3, brHeader 6 7 5 4 0 0 0 0 0 0 0 0 79 ++ [1, 2, 3, 4]⟩ : ExitFrame)).bytes 2 2)
    ∧ (Tab.find w22_4.hub.pxb.pend (5) = some ((⟨1, 2, 4, 5, 4, 0, 0, [], 1, 0⟩ : PxPend)))
    ∧ (((⟨1, 2, 4, 5, 4, 0, 0, [], 1, 0⟩ : PxPend)).kind = 4)
    ∧ (brF ((⟨78, 3, brHeader 6 7 5 4 0 0 0 0 0 0 0 0 79 ++ [1, 2, 3, 4]⟩ : ExitFrame)).bytes 7 1 = 0)
    ∧ (w22_4.hub.pxLink = true)
    ∧ (w22_4.hub.pxb.npwHeld = [])
    ∧ (w22_5.hub.up .pxb = true)
    ∧ (w22_5.hub.pxb.inbox = ((⟨78, 3, brHeader 8 7 5 24 0 0 0 0 0 0 0 0 79 ++ List.replicate 24 7⟩ : ExitFrame)) :: (([] : List ExitFrame)))
    ∧ (brGood ((⟨78, 3, brHeader 8 7 5 24 0 0 0 0 0 0 0 0 79 ++ List.replicate 24 7⟩ : ExitFrame)).bytes = true)
    ∧ (brF ((⟨78, 3, brHeader 8 7 5 24 0 0 0 0 0 0 0 0 79 ++ List.replicate 24 7⟩ : ExitFrame)).bytes 0 1 = 8)
    ∧ (brLen ((⟨78, 3, brHeader 8 7 5 24 0 0 0 0 0 0 0 0 79 ++ List.replicate 24 7⟩ : ExitFrame)).bytes = 24)
    ∧ (w22_5.hub.pxStalled ((⟨78, 3, brHeader 8 7 5 24 0 0 0 0 0 0 0 0 79 ++ List.replicate 24 7⟩ : ExitFrame)).flow = false)
    ∧ ((7) = fld (imgWord (brData ((⟨78, 3, brHeader 8 7 5 24 0 0 0 0 0 0 0 0 79 ++ List.replicate 24 7⟩ : ExitFrame)).bytes) 0) 2 0)
    ∧ (w22_5.hub.rdB (Reg.PW_CFG (7)) 4 = true)
    ∧ (w22_6.hub.up .pxb = true)
    ∧ (w22_6.hub.pxLink = true)
    ∧ (Tab.find w22_6.hub.pxb.pend ((127 : Fin 128)) = some ((⟨1, 2, 4, 5, 4, 0, 0, [], 1, 0⟩ : PxPend)))
    ∧ (((⟨1, 2, 4, 5, 4, 0, 0, [], 1, 0⟩ : PxPend)).kind = 4)
    ∧ (w22_6.hub.pxb.npwHeld = [])
    ∧ (((⟨1, 2, 4, 5, 4, 0, 0, [], 1, 0⟩ : PxPend)).since + w22_6.hub.pxTunTmo ≤ w22_6.hub.mono)
    ∧ (w22_7.hub.works .pxb = true)
    ∧ (w22_7.hub.role = .leaf)
    ∧ (w22_7.hub.pxLink = true)
    ∧ (w22_7.hub.rdB Reg.PX_CFG 7 = true)
    ∧ ((7) = w22_7.hub.rdF Reg.PX_CFG 10 8)
    ∧ (w22_7.hub.admits 0x0D (w22_7.hub.rdF (Reg.PW_FLOW_P (7)) 23 0) 48 (9) = true)
    ∧ (w22_8.hub.mainUp = true)
    ∧ (w22_8.hub.works .pxb = true)
    ∧ (w22_8.hub.pins.gpio.testBit ((7 : Fin 8)) = false)
    ∧ (w22_8.hub.rdB Reg.PX_GPIO_CFG ((7 : Fin 8)) = true)
    ∧ (w22_8.hub.rdB Reg.PX_CFG 7 = true)
    ∧ ((7) = w22_8.hub.rdF Reg.PX_CFG 10 8)
    ∧ (w22_8.hub.admits 0x0D (w22_8.hub.rdF (Reg.PW_FLOW_P (7)) 23 0) 48 (9) = true)
    ∧ (w22_9.hub.up .pxb = true)
    ∧ (Tab.find w22_9.hub.pxb.pf ((7 : Fin 8)) = some ((⟨5, [1, 2], [false, false], 0⟩ : PfBuf)))
    ∧ (((⟨5, [1, 2], [false, false], 0⟩ : PfBuf)).unread.all (fun x => !x) = true)
    ∧ (((⟨5, [1, 2], [false, false], 0⟩ : PfBuf)).since + w22_9.hub.pfAge ((7 : Fin 8)) ≤ w22_9.hub.mono)
    ∧ (w22_10.hub.up .pxb = true)
    ∧ (Tab.find w22_10.hub.pxb.pf ((7 : Fin 8)) = some ((⟨5, [1, 2], [false, true], 0⟩ : PfBuf)))
    ∧ (((⟨5, [1, 2], [false, true], 0⟩ : PfBuf)).unread.any (fun x => x) = true)
    ∧ (w22_10.hub.pxb.pfSet = false)
    ∧ (((⟨5, [1, 2], [false, true], 0⟩ : PfBuf)).since + w22_10.hub.pfAge ((7 : Fin 8)) ≤ w22_10.hub.mono)
    ∧ (w22_11.hub.up .pxb = true)
    ∧ (w22_11.hub.pxLink = false)
    ∧ (w22_11.hub.role = .root)
    ∧ (w22_11.hub.storeOn = false)
    ∧ (bit (w22_11.hub.hdr .fcm).live 1 = false)
    ∧ (w22_11.hub.paging.ins = [])
    ∧ (w22_11.hub.paging.waits = [])
    ∧ (w22_11.hub.rdF Reg.PX_CFG 2 0 = 4)
    ∧ (w22_11.hub.refsReady 0x0D = true)
    ∧ ((w22_11.hub.portLanes 0x0D).isEmpty = false)
    ∧ (w22_12.hub.up .pxb = true)
    ∧ (w22_12.hub.pxLink = true)
    ∧ (w22_12.hub.role = .root)
    ∧ (w22_12.hub.storeOn = false)
    ∧ (bit (w22_12.hub.hdr .fcm).live 1 = false)
    ∧ (w22_12.hub.paging.ins = [])
    ∧ (w22_12.hub.paging.waits = [])
    ∧ (w22_12.hub.tags = [])
    ∧ (w22_12.hub.pxb.far = [])
    ∧ (w22_12.hub.pageq = [])
    ∧ (w22_13.hub.opRunning .pxb 0x10 = true)
    ∧ (w22_13.hub.present .pxb = true)
    ∧ (w22_13.hub.role = .leaf)
    ∧ (w22_13.hub.pxLink = true)
    ∧ (w22_13.hub.arg .pxb 0 = 0x00100004)
    ∧ (w22_13.hub.pxb.cfgWait = false)
    ∧ (w22_13.hub.tags = [])
    ∧ (w22_13.hub.freeTag = some (0))
    ∧ (w22_14.hub.works .pxb = true)
    ∧ (w22_14.hub.pxLink = true)
    ∧ (w22_14.hub.mainUp = true)
    ∧ (w22_15.hub.works .pxb = true)
    ∧ (w22_15.hub.npNext.isSome = true)
    ∧ (w22_16.hub.pxRow [6] = true)
    ∧ (w22_17.hub.pxRow [8] = true)
    ∧ (w22_18.hub.up .pxb = true)
    ∧ (Tab.find w22_18.hub.pxb.pend ((127 : Fin 128)) = some ((⟨1, 2, 4, 5, 4, 0, 0, [], 1, 0⟩ : PxPend)))
    ∧ (((⟨1, 2, 4, 5, 4, 0, 0, [], 1, 0⟩ : PxPend)).since + w22_18.hub.pxTunTmo ≤ w22_18.hub.mono)
    ∧ (w22_19.hub.works .pxb = true)
    ∧ (w22_19.hub.role = .leaf)
    ∧ (w22_19.hub.pxLink = true)
    ∧ (w22_20.hub.mainUp = true)
    ∧ (w22_20.hub.pins.gpio.testBit ((7 : Fin 8)) ≠ (true))
    ∧ (w22_21.hub.up .pxb = true)
    ∧ (Tab.find w22_21.hub.pxb.pf ((7 : Fin 8)) = some ((⟨5, [1, 2], [false, true], 0⟩ : PfBuf)))
    ∧ (((⟨5, [1, 2], [false, true], 0⟩ : PfBuf)).since + w22_21.hub.pfAge ((7 : Fin 8)) ≤ w22_21.hub.mono)
    ∧ (w22_22.hub.up .pxb = true)
    ∧ (w22_22.hub.pxLink = false)
    ∧ (w22_22.hub.refsReady 0x0D = true)
    ∧ ((w22_22.hub.portLanes 0x0D).isEmpty = false)
    ∧ (w22_23.hub.up .pxb = true)
    ∧ (w22_23.hub.pxLink = true)
    ∧ (w22_24.hub.opRunning .pxb 0x10 = true) := by
  and_intros <;> decide +kernel

def w22_25 : State := on rootS fun h => h.updPxb fun x => { x with inbox := [⟨78, 3, [1, 2]⟩] }

def w22_26 : State := on rootS fun h => (((h.updHdr .pxb fun x => { x with enable := true }).wr Reg.PX_STAT 0x1C7).wr Reg.PX_ACC_LIMIT_LO 0xFFFF).updPxb fun x => { x with inbox := [⟨78, 3, brHeader 1 7 5 4 0xF 0 0xFFC 0 0 0 0 0 79 ++ [1, 2, 3, 4]⟩] }

def w22_27 : State := on rootS fun h => ((h.updHdr .pxb fun x => { x with enable := true }).setCtx 9 { state := .resident, handle := 79, port := 2, expect := 0 }).updPxb fun x => { x with inbox := [⟨78, 3, brHeader 3 7 5 4 0xF 0 0xFFC 9 0 0 0 0 79⟩] }

def w22_28 : State := on rootS fun h => later 100000000 <| (((h.updHdr .pxb fun x => { x with enable := true }).wr Reg.PX_STAT 0x1C7).wr Reg.PX_ACC_LIMIT_LO 0xFFFF).updPxb fun x => { x with held := [(⟨78, 3, brHeader 3 7 5 4 0xF 0 0xFFC 9 0 0 0 0 79⟩, 5)] }

def w22_29 : State := on rootS fun h => (((h.updHdr .pxb fun x => { x with enable := true }).wr Reg.PX_STAT 0x1C7).wr Reg.PX_ACC_LIMIT_LO 0xFFFF).updPxb fun x => { x with held := [(⟨78, 3, brHeader 3 7 5 4 0xF 0 0xFFC 9 0 0 0 0 79⟩, 5)] }

def w22_30 : State := on rootS fun h => { h.wr Reg.PX_STAT 0x1C7 with pageq := [⟨none, 8, 77, 0x100, none⟩] }

def w22_31 : State := on rootS fun h => h.wr Reg.PX_STAT 0x1C7

def w22_32 : State := on leafS fun h => { (ask .pxb 0x10 [0x00100004, 0, 15] h).wr Reg.PX_STAT 0x1C7 with tags := [(255, .cfg)] }

def w22_33 : State := on leafS fun h => later 100000000 <| { (ask .pxb 0x10 [0x00100004, 0, 15] h).wr Reg.PX_STAT 0x1C7 with tags := [(255, .cfg)] }

def w22_34 : State := on rootS fun h => (h.wr Reg.PX_MQ_STAT 255).updPxb fun x => { x with inbox := [⟨78, 3, brHeader 7 7 5 16 0 0 0 0 0 0 0 0 79 ++ List.replicate 16 7⟩] }

def w22_35 : State := on rootS fun h => h.wr Reg.PX_MQ_STAT 0x10000FF

def w22_36 : State := on rootS fun h => h.updPxb fun x => { x with inbox := [⟨78, 3, [1, 2]⟩] }

def w22_37 : State := on rootS fun h => (h.wr Reg.PX_MQ_STAT 255).updPxb fun x => { x with inbox := [⟨78, 3, brHeader 7 7 5 16 0 0 0 0 0 0 0 0 79 ++ List.replicate 16 7⟩] }

def w22_38 : State := on rootS fun h => later 100000000 <| (((h.updHdr .pxb fun x => { x with enable := true }).wr Reg.PX_STAT 0x1C7).wr Reg.PX_ACC_LIMIT_LO 0xFFFF).updPxb fun x => { x with held := [(⟨78, 3, brHeader 3 7 5 4 0xF 0 0xFFC 9 0 0 0 0 79⟩, 5)] }

def w22_39 : State := on rootS fun h => (((h.updHdr .pxb fun x => { x with enable := true }).wr Reg.PX_STAT 0x1C7).wr Reg.PX_ACC_LIMIT_LO 0xFFFF).updPxb fun x => { x with held := [(⟨78, 3, brHeader 3 7 5 4 0xF 0 0xFFC 9 0 0 0 0 79⟩, 5)] }

def w22_40 : State := on rootS fun h => { h.wr Reg.PX_STAT 0x1C7 with pageq := [⟨none, 8, 77, 0x100, none⟩] }

def w22_41 : State := on rootS fun h => h.wr Reg.PX_STAT 0x1C7

def w22_42 : State := on leafS fun h => later 100000000 <| { (ask .pxb 0x10 [0x00100004, 0, 15] h).wr Reg.PX_STAT 0x1C7 with tags := [(255, .cfg)] }

def w22_43 : State := on rootS fun h => h.wr Reg.PX_MQ_STAT 0x10000FF

/-- The hypotheses of Obligations.BridgeService hold somewhere, clause by clause. -/
theorem wit_bridgeService :
    (w22_25.hub.up .pxb = true)
    ∧ (w22_25.hub.pxb.inbox = ((⟨78, 3, [1, 2]⟩ : ExitFrame)) :: (([] : List ExitFrame)))
    ∧ (w22_25.hub.pxStalled ((⟨78, 3, [1, 2]⟩ : ExitFrame)).flow = false)
    ∧ (brGood ((⟨78, 3, [1, 2]⟩ : ExitFrame)).bytes = false)
    ∧ (w22_25.hub.lookup ((⟨78, 3, [1, 2]⟩ : ExitFrame)).flow = .miss)
    ∧ (w22_26.hub.works .pxb = true)
    ∧ (w22_26.hub.pxb.inbox = ((⟨78, 3, brHeader 1 7 5 4 0xF 0 0xFFC 0 0 0 0 0 79 ++ [1, 2, 3, 4]⟩ : ExitFrame)) :: (([] : List ExitFrame)))
    ∧ (w22_26.hub.pxStalled ((⟨78, 3, brHeader 1 7 5 4 0xF 0 0xFFC 0 0 0 0 0 79 ++ [1, 2, 3, 4]⟩ : ExitFrame)).flow = false)
    ∧ (brGood ((⟨78, 3, brHeader 1 7 5 4 0xF 0 0xFFC 0 0 0 0 0 79 ++ [1, 2, 3, 4]⟩ : ExitFrame)).bytes = true)
    ∧ (brF ((⟨78, 3, brHeader 1 7 5 4 0xF 0 0xFFC 0 0 0 0 0 79 ++ [1, 2, 3, 4]⟩ : ExitFrame)).bytes 0 1 = 1)
    ∧ (w22_26.hub.accOk (brF ((⟨78, 3, brHeader 1 7 5 4 0xF 0 0xFFC 0 0 0 0 0 79 ++ [1, 2, 3, 4]⟩ : ExitFrame)).bytes 8 8) (brLen ((⟨78, 3, brHeader 1 7 5 4 0xF 0 0xFFC 0 0 0 0 0 79 ++ [1, 2, 3, 4]⟩ : ExitFrame)).bytes) = true)
    ∧ (w22_26.hub.pxMaster = true)
    ∧ (1 ≤ brLen ((⟨78, 3, brHeader 1 7 5 4 0xF 0 0xFFC 0 0 0 0 0 79 ++ [1, 2, 3, 4]⟩ : ExitFrame)).bytes)
    ∧ (brLen ((⟨78, 3, brHeader 1 7 5 4 0xF 0 0xFFC 0 0 0 0 0 79 ++ [1, 2, 3, 4]⟩ : ExitFrame)).bytes ≤ w22_26.hub.pxb.mps)
    ∧ (brF ((⟨78, 3, brHeader 1 7 5 4 0xF 0 0xFFC 0 0 0 0 0 79 ++ [1, 2, 3, 4]⟩ : ExitFrame)).bytes 8 8 % 4096 + brLen ((⟨78, 3, brHeader 1 7 5 4 0xF 0 0xFFC 0 0 0 0 0 79 ++ [1, 2, 3, 4]⟩ : ExitFrame)).bytes ≤ 4096)
    ∧ (w22_27.hub.up .pxb = true)
    ∧ (w22_27.hub.pxb.inbox = ((⟨78, 3, brHeader 3 7 5 4 0xF 0 0xFFC 9 0 0 0 0 79⟩ : ExitFrame)) :: (([] : List ExitFrame)))
    ∧ (w22_27.hub.pxStalled ((⟨78, 3, brHeader 3 7 5 4 0xF 0 0xFFC 9 0 0 0 0 79⟩ : ExitFrame)).flow = false)
    ∧ (brGood ((⟨78, 3, brHeader 3 7 5 4 0xF 0 0xFFC 9 0 0 0 0 79⟩ : ExitFrame)).bytes = true)
    ∧ (brF ((⟨78, 3, brHeader 3 7 5 4 0xF 0 0xFFC 9 0 0 0 0 79⟩ : ExitFrame)).bytes 0 1 = 3)
    ∧ (Hub.markMet { w22_27.hub with pxb := { w22_27.hub.pxb with inbox := (([] : List ExitFrame)) } } ((⟨78, 3, brHeader 3 7 5 4 0xF 0 0xFFC 9 0 0 0 0 79⟩ : ExitFrame)).bytes = false)
    ∧ (w22_28.hub.works .pxb = true)
    ∧ (w22_28.hub.pxb.held = [(((⟨78, 3, brHeader 3 7 5 4 0xF 0 0xFFC 9 0 0 0 0 79⟩ : ExitFrame)), (5))])
    ∧ (w22_28.hub.pxb.far = [])
    ∧ (brF ((⟨78, 3, brHeader 3 7 5 4 0xF 0 0xFFC 9 0 0 0 0 79⟩ : ExitFrame)).bytes 0 1 = 3)
    ∧ ((0xFFC) = brF ((⟨78, 3, brHeader 3 7 5 4 0xF 0 0xFFC 9 0 0 0 0 79⟩ : ExitFrame)).bytes 8 8)
    ∧ (w22_28.hub.pxMaster = true)
    ∧ (w22_28.hub.accOk (0xFFC) (brLen ((⟨78, 3, brHeader 3 7 5 4 0xF 0 0xFFC 9 0 0 0 0 79⟩ : ExitFrame)).bytes) = true)
    ∧ (1 ≤ brLen ((⟨78, 3, brHeader 3 7 5 4 0xF 0 0xFFC 9 0 0 0 0 79⟩ : ExitFrame)).bytes)
    ∧ (brLen ((⟨78, 3, brHeader 3 7 5 4 0xF 0 0xFFC 9 0 0 0 0 79⟩ : ExitFrame)).bytes ≤ w22_28.hub.mrrs)
    ∧ ((0xFFC) % 4096 + brLen ((⟨78, 3, brHeader 3 7 5 4 0xF 0 0xFFC 9 0 0 0 0 79⟩ : ExitFrame)).bytes ≤ 4096)
    ∧ (w22_28.hub.freeTag = some (0))
    ∧ ((5) + 1000000 ≤ w22_28.hub.mono)
    ∧ (w22_29.hub.works .pxb = true)
    ∧ (w22_29.hub.pxb.held = [(((⟨78, 3, brHeader 3 7 5 4 0xF 0 0xFFC 9 0 0 0 0 79⟩ : ExitFrame)), (5))])
    ∧ (w22_29.hub.pxb.far = [])
    ∧ (brF ((⟨78, 3, brHeader 3 7 5 4 0xF 0 0xFFC 9 0 0 0 0 79⟩ : ExitFrame)).bytes 0 1 = 3)
    ∧ ((0xFFC) = brF ((⟨78, 3, brHeader 3 7 5 4 0xF 0 0xFFC 9 0 0 0 0 79⟩ : ExitFrame)).bytes 8 8)
    ∧ (w22_29.hub.pxMaster = true)
    ∧ (w22_29.hub.accOk (0xFFC) (brLen ((⟨78, 3, brHeader 3 7 5 4 0xF 0 0xFFC 9 0 0 0 0 79⟩ : ExitFrame)).bytes) = true)
    ∧ (1 ≤ brLen ((⟨78, 3, brHeader 3 7 5 4 0xF 0 0xFFC 9 0 0 0 0 79⟩ : ExitFrame)).bytes)
    ∧ (brLen ((⟨78, 3, brHeader 3 7 5 4 0xF 0 0xFFC 9 0 0 0 0 79⟩ : ExitFrame)).bytes ≤ w22_29.hub.mrrs)
    ∧ ((0xFFC) % 4096 + brLen ((⟨78, 3, brHeader 3 7 5 4 0xF 0 0xFFC 9 0 0 0 0 79⟩ : ExitFrame)).bytes ≤ 4096)
    ∧ (w22_29.hub.freeTag = some (0))
    ∧ (w22_29.hub.markMet ((⟨78, 3, brHeader 3 7 5 4 0xF 0 0xFFC 9 0 0 0 0 79⟩ : ExitFrame)).bytes = true)
    ∧ (w22_30.hub.up .pxb = true)
    ∧ (w22_30.hub.pageq = [((⟨none, 8, 77, 0x100, none⟩ : PageReq))])
    ∧ (((⟨none, 8, 77, 0x100, none⟩ : PageReq)).image = none)
    ∧ (w22_30.hub.hostUp = true)
    ∧ (w22_30.hub.freeTag = some (0))
    ∧ (w22_30.hub.pageTagsUsed < w22_30.hub.pageTags)
    ∧ (w22_30.hub.pxb.far = [])
    ∧ (w22_30.hub.pxb.cfgWait = false)
    ∧ (w22_31.hub.up .pxb = true)
    ∧ (w22_31.hub.pxLink = true)
    ∧ (Tab.find w22_31.hub.tags ((255 : BitVec 8)).toNat = none)
    ∧ (w22_32.hub.up .pxb = true)
    ∧ (w22_32.hub.pxLink = true)
    ∧ (Tab.find w22_32.hub.tags ((255 : BitVec 8)).toNat = some .cfg)
    ∧ (w22_32.hub.opRunning .pxb 0x10 = true)
    ∧ (w22_33.hub.up .pxb = true)
    ∧ (w22_33.hub.tagExpired ((255 : BitVec 8)).toNat = true)
    ∧ (Tab.find w22_33.hub.tags ((255 : BitVec 8)).toNat = some .cfg)
    ∧ (w22_33.hub.opRunning .pxb 0x10 = true)
    ∧ (w22_34.hub.up .pxb = true)
    ∧ (w22_34.hub.pxb.inbox = ((⟨78, 3, brHeader 7 7 5 16 0 0 0 0 0 0 0 0 79 ++ List.replicate 16 7⟩ : ExitFrame)) :: (([] : List ExitFrame)))
    ∧ (w22_34.hub.pxStalled ((⟨78, 3, brHeader 7 7 5 16 0 0 0 0 0 0 0 0 79 ++ List.replicate 16 7⟩ : ExitFrame)).flow = false)
    ∧ (brGood ((⟨78, 3, brHeader 7 7 5 16 0 0 0 0 0 0 0 0 79 ++ List.replicate 16 7⟩ : ExitFrame)).bytes = true)
    ∧ (brF ((⟨78, 3, brHeader 7 7 5 16 0 0 0 0 0 0 0 0 79 ++ List.replicate 16 7⟩ : ExitFrame)).bytes 0 1 = 7)
    ∧ (brLen ((⟨78, 3, brHeader 7 7 5 16 0 0 0 0 0 0 0 0 79 ++ List.replicate 16 7⟩ : ExitFrame)).bytes = 16)
    ∧ (w22_34.hub.rdF Reg.PX_MQ_STAT 24 16 = 0)
    ∧ ((255) = w22_34.hub.rdF Reg.PX_MQ_STAT 7 0)
    ∧ (w22_35.hub.up .pxb = true)
    ∧ (w22_35.hub.pxb.stalled = [])
    ∧ (w22_35.hub.rdF Reg.PX_MQ_STAT 24 16 ≤ 256)
    ∧ (w22_36.hub.pxRow [0, 1, 2, 3, 4, 5] = true)
    ∧ (w22_37.hub.pxRow [7] = true)
    ∧ (w22_38.hub.up .pxb = true)
    ∧ (w22_38.hub.pxb.held = (((⟨78, 3, brHeader 3 7 5 4 0xF 0 0xFFC 9 0 0 0 0 79⟩ : ExitFrame)), (5)) :: (([] : List (ExitFrame × Nat))))
    ∧ ((5) + 1000000 ≤ w22_38.hub.mono)
    ∧ (w22_39.hub.up .pxb = true)
    ∧ (w22_39.hub.heldReady.isSome = true)
    ∧ (w22_40.hub.up .pxb = true)
    ∧ (w22_40.hub.freeTag.isSome = true)
    ∧ ((w22_40.hub.pageq ≠ [] ∨ w22_40.hub.farWaiting.isSome = true ∨ w22_40.hub.pxb.cfgWait = true))
    ∧ (w22_41.hub.up .pxb = true)
    ∧ (w22_41.hub.pxLink = true)
    ∧ (w22_42.hub.up .pxb = true)
    ∧ (w22_42.hub.tagExpired ((255 : BitVec 8)).toNat = true)
    ∧ (w22_43.hub.up .pxb = true) := by
  and_intros <;> decide +kernel

def w23_1 : State := on leafS fun h => ((h.updHdr .usb fun x => { x with enable := true }).wr (Reg.UP_STAT 3) 0x100)

def w23_2 : State := on leafS fun h => (((((h.updHdr .usb fun x => { x with enable := true }).wr (Reg.UP_STAT 3) 0x100).updTun 0 fun x => { x with up := true, nextTx := 4095 }).wr (Reg.TN_FLOW_UP 0) 77).wr (Reg.TN_CFG 0) 1).setCtx 9 { state := .resident, handle := 77, port := 2, tc := 2, inseq := 65535 }

def w23_3 : State := on leafS fun h => (((h.updHdr .usb fun x => { x with enable := true }).wr (Reg.UP_STAT 3) 0x103).wr (Reg.UP_OC 3) 0xFFFFFFFF).updUsb fun u => { u with devs := [(5, { vport := 3, speed := 2 })] }

def w23_4 : State := on leafS fun h => later 100000000000 <| ((h.updHdr .usb fun x => { x with enable := true }).wr (Reg.UP_STAT 3) 0x111)

def w23_5 : State := on leafS fun h => ((h.updHdr .usb fun x => { x with enable := true }).wr (Reg.UP_STAT 3) 0x107)

def w23_6 : State := on leafS fun h => later 100000000000 <| ((h.updHdr .usb fun x => { x with enable := true }).wr (Reg.UP_STAT 3) 0x107).updUport 3 fun x => { x with driving := true }

def w23_7 : State := on rootS fun h => later 100000000000 <| ((h.updHdr .usb fun x => { x with enable := true }).wr Reg.USB_STAT 0x3003)

def w23_8 : State := on leafS fun h => (fun h : Hub => { h with time := { h.time with ns := 125000 } }) <| ((((h.updHdr .usb fun x => { x with enable := true }).wr (Reg.UP_STAT 3) 0x503).wr (Reg.UP_STAT 1) 0x103).updTun 0 fun x => { x with up := true }).updUsb fun u => { u with frame := 0x3FFE }

def w23_9 : State := on leafS fun h => ((h.updHdr .usb fun x => { x with enable := true }).updTun 0 fun x => { x with up := true, arrived := [⟨1, 5, 0, 0, [1, 2, 3, 4, 5, 6, 7, 8]⟩] }).updUsb fun u => { u with devs := [(5, { vport := 3, speed := 2 })], eps := [(160, { kind := 0, max := 64, blocks := 1 }), (161, { kind := 0, max := 64, blocks := 0, stall := true })] }

def w23_10 : State := on leafS fun h => ((h.updHdr .usb fun x => { x with enable := true }).updTun 0 fun x => { x with up := true, arrived := [⟨2, 5, 2, 0, [1, 2]⟩] }).updUsb fun u => { u with devs := [(5, { vport := 3, speed := 2 })], eps := [(164, { kind := 2, max := 64, blocks := 1 })] }

def w23_11 : State := on rootS fun h => ((h.updHdr .usb fun x => { x with enable := true }).updTun 7 fun x => { x with up := true, arrived := [⟨3, 5, 0x12, 0, [1, 2]⟩] }).updUsb fun u => { u with devs := [(5, { vport := 3, speed := 2 })], eps := [(165, { kind := 2, max := 64, blocks := 1 })] }

def w23_12 : State := on rootS fun h => ((h.updHdr .usb fun x => { x with enable := true }).updTun 7 fun x => { x with up := true, arrived := [⟨4, 5, 0x12, 2, []⟩] }).updUsb fun u => { u with devs := [(5, { vport := 3, speed := 2 })], eps := [(165, { kind := 2, max := 64, blocks := 1, buf := some [3] })] }

def w23_13 : State := on leafS fun h => ((h.updHdr .usb fun x => { x with enable := true }).updTun 0 fun x => { x with up := true, arrived := [⟨5, 5, 2, 1, [3]⟩] }).updUsb fun u => { u with devs := [(5, { vport := 3, speed := 1 })] }

def w23_14 : State := on leafS fun h => (((h.updHdr .usb fun x => { x with enable := true }).wr (Reg.UP_STAT 3) 0xFFFF0000).updTun 0 fun x => { x with up := true, arrived := [⟨6, 4, 0, 31, []⟩] })

def w23_15 : State := on rootS fun h => (((h.updHdr .usb fun x => { x with enable := true }).wr (Reg.UP_CFG 0) 0x37).wr Reg.USB_CFG 0).updTun 7 fun x => { x with up := true, arrived := [⟨7, 4, 0, 0, [3, 5, 17, 0]⟩] }

def w23_16 : State := on leafS fun h => ((h.updHdr .usb fun x => { x with enable := true }).updTun 0 fun x => { x with up := true, arrived := [⟨8, 0, 0, 0, []⟩] })

def w23_17 : State := on rootS fun h => (((h.updHdr .usb fun x => { x with enable := true }).wr (Reg.UP_CFG 0) 0x37).wr Reg.USB_STAT 0x5003).updTun 7 fun x => { x with up := true, arrived := [⟨9, 4, 0, 0, []⟩] }

def w23_18 : State := on leafS fun h => (((h.updHdr .usb fun x => { x with enable := true }).wr (Reg.UP_STAT 3) 0x503).updTun 0 fun x => { x with up := true }).updUsb fun u => { u with devs := [(5, { vport := 3, speed := 2 })], eps := [(165, { kind := 2, max := 64, blocks := 1 })] }

def w23_19 : State := on leafS fun h => ((((((h.updHdr .usb fun x => { x with enable := true }).wr (Reg.UP_STAT 3) 0x503).updTun 0 fun x => { x with up := true }).updUsb fun u => { u with devs := [(5, { vport := 3, speed := 2 })], eps := [(164, { kind := 2, max := 64, blocks := 1, buf := some [4] })] }).wr (Reg.TN_FLOW_UP 0) 77).wr (Reg.TN_CFG 0) 1).setCtx 9 { state := .resident, handle := 77, port := 2, tc := 2, inseq := 65535 }

def w23_20 : State := on leafS fun h => ((h.updHdr .usb fun x => { x with enable := true }).wr (Reg.UP_STAT 3) 0x100)

def w23_21 : State := on leafS fun h => (((h.updHdr .usb fun x => { x with enable := true }).wr (Reg.UP_STAT 3) 0x103).wr (Reg.UP_OC 3) 0xFFFFFFFF).updUsb fun u => { u with devs := [(5, { vport := 3, speed := 2 })] }

def w23_22 : State := on leafS fun h => (((h.updHdr .usb fun x => { x with enable := true }).wr (Reg.UP_STAT 3) 0x103).wr (Reg.UP_OC 3) 0xFFFFFFFF).updUsb fun u => { u with devs := [(5, { vport := 3, speed := 2 })] }

def w23_23 : State := on leafS fun h => later 100000000000 <| ((h.updHdr .usb fun x => { x with enable := true }).wr (Reg.UP_STAT 3) 0x111)

def w23_24 : State := on leafS fun h => ((h.updHdr .usb fun x => { x with enable := true }).wr (Reg.UP_STAT 3) 0x107)

def w23_25 : State := on leafS fun h => later 100000000000 <| ((h.updHdr .usb fun x => { x with enable := true }).wr (Reg.UP_STAT 3) 0x107).updUport 3 fun x => { x with driving := true }

def w23_26 : State := on leafS fun h => (fun h : Hub => { h with time := { h.time with ns := 125000 } }) <| ((((h.updHdr .usb fun x => { x with enable := true }).wr (Reg.UP_STAT 3) 0x503).wr (Reg.UP_STAT 1) 0x103).updTun 0 fun x => { x with up := true }).updUsb fun u => { u with frame := 0x3FFE }

def w23_27 : State := on leafS fun h => ((h.updHdr .usb fun x => { x with enable := true }).updTun 0 fun x => { x with up := true, arrived := [⟨1, 5, 0, 0, [1, 2, 3, 4, 5, 6, 7, 8]⟩] }).updUsb fun u => { u with devs := [(5, { vport := 3, speed := 2 })], eps := [(160, { kind := 0, max := 64, blocks := 1 }), (161, { kind := 0, max := 64, blocks := 0, stall := true })] }

def w23_28 : State := on leafS fun h => ((h.updHdr .usb fun x => { x with enable := true }).updTun 0 fun x => { x with up := true, arrived := [⟨2, 5, 2, 0, [1, 2]⟩] }).updUsb fun u => { u with devs := [(5, { vport := 3, speed := 2 })], eps := [(164, { kind := 2, max := 64, blocks := 1 })] }

def w23_29 : State := on rootS fun h => ((h.updHdr .usb fun x => { x with enable := true }).updTun 7 fun x => { x with up := true, arrived := [⟨3, 5, 0x12, 0, [1, 2]⟩] }).updUsb fun u => { u with devs := [(5, { vport := 3, speed := 2 })], eps := [(165, { kind := 2, max := 64, blocks := 1 })] }

def w23_30 : State := on rootS fun h => ((h.updHdr .usb fun x => { x with enable := true }).updTun 7 fun x => { x with up := true, arrived := [⟨4, 5, 0x12, 2, []⟩] }).updUsb fun u => { u with devs := [(5, { vport := 3, speed := 2 })], eps := [(165, { kind := 2, max := 64, blocks := 1, buf := some [3] })] }

def w23_31 : State := on leafS fun h => ((h.updHdr .usb fun x => { x with enable := true }).updTun 0 fun x => { x with up := true, arrived := [⟨5, 5, 2, 1, [3]⟩] }).updUsb fun u => { u with devs := [(5, { vport := 3, speed := 1 })] }

def w23_32 : State := on leafS fun h => (((h.updHdr .usb fun x => { x with enable := true }).wr (Reg.UP_STAT 3) 0xFFFF0000).updTun 0 fun x => { x with up := true, arrived := [⟨6, 4, 0, 31, []⟩] })

def w23_33 : State := on rootS fun h => (((h.updHdr .usb fun x => { x with enable := true }).wr (Reg.UP_CFG 0) 0x37).wr Reg.USB_CFG 0).updTun 7 fun x => { x with up := true, arrived := [⟨7, 4, 0, 0, [3, 5, 17, 0]⟩] }

def w23_34 : State := on leafS fun h => ((h.updHdr .usb fun x => { x with enable := true }).updTun 0 fun x => { x with up := true, arrived := [⟨8, 0, 0, 0, []⟩] })

def w23_35 : State := on rootS fun h => (((h.updHdr .usb fun x => { x with enable := true }).wr (Reg.UP_CFG 0) 0x37).wr Reg.USB_STAT 0x5003).updTun 7 fun x => { x with up := true, arrived := [⟨9, 4, 0, 0, []⟩] }

def w23_36 : State := on leafS fun h => ((((((h.updHdr .usb fun x => { x with enable := true }).wr (Reg.UP_STAT 3) 0x503).updTun 0 fun x => { x with up := true }).updUsb fun u => { u with devs := [(5, { vport := 3, speed := 2 })], eps := [(164, { kind := 2, max := 64, blocks := 1, buf := some [4] })] }).wr (Reg.TN_FLOW_UP 0) 77).wr (Reg.TN_CFG 0) 1).setCtx 9 { state := .resident, handle := 77, port := 2, tc := 2, inseq := 65535 }

/-- The hypotheses of Obligations.UsbPortsAndRecords hold somewhere, clause by clause. -/
theorem wit_usbPortsAndRecords :
    (w23_1.hub.leafUp = true)
    ∧ (w23_1.hub.upBit ((3 : Fin 4)) 8 = true)
    ∧ (w23_1.hub.upBit ((3 : Fin 4)) 0 = false)
    ∧ ((w23_1.hub.tun 0).up = false)
    ∧ (w23_2.hub.leafUp = true)
    ∧ (w23_2.hub.upBit ((3 : Fin 4)) 8 = true)
    ∧ (w23_2.hub.upBit ((3 : Fin 4)) 0 = false)
    ∧ ((w23_2.hub.tun 0).up = true)
    ∧ ((w23_2.hub.tun 0).waiting = [])
    ∧ ((w23_2.hub.tun 0).unacked.length < w23_2.hub.tunWin 0)
    ∧ (w23_2.hub.admits 0x10 (w23_2.hub.tunTx 0) 28 (9) = true)
    ∧ (w23_3.hub.leafUp = true)
    ∧ (w23_3.hub.upBit ((3 : Fin 4)) 0 = true)
    ∧ ((w23_3.hub.tun 0).up = false)
    ∧ (w23_4.hub.leafUp = true)
    ∧ (w23_4.hub.upBit ((3 : Fin 4)) 4 = true)
    ∧ ((w23_4.hub.tun 0).up = false)
    ∧ ((w23_4.hub.uport ((3 : Fin 4))).resetAt + 10000000 ≤ w23_4.hub.mono)
    ∧ (w23_5.hub.leafUp = true)
    ∧ (w23_5.hub.upBit ((3 : Fin 4)) 1 = true)
    ∧ (w23_5.hub.upBit ((3 : Fin 4)) 2 = true)
    ∧ ((w23_5.hub.uport ((3 : Fin 4))).driving = false)
    ∧ ((w23_5.hub.tun 0).up = false)
    ∧ (w23_6.hub.leafUp = true)
    ∧ ((w23_6.hub.uport ((3 : Fin 4))).driving = true)
    ∧ ((w23_6.hub.tun 0).up = false)
    ∧ ((w23_6.hub.uport ((3 : Fin 4))).kAt + 20000000 ≤ w23_6.hub.mono)
    ∧ (w23_7.hub.rootUp = true)
    ∧ (w23_7.hub.rdB Reg.USB_STAT 12 = true)
    ∧ (w23_7.hub.rdB Reg.USB_STAT 13 = true)
    ∧ (w23_7.hub.usb.hostK = false)
    ∧ (w23_7.hub.usb.kAt + w23_7.hub.wakeKTime ≤ w23_7.hub.mono)
    ∧ (w23_8.hub.leafUp = true)
    ∧ ((w23_8.hub.tun 0).up = true)
    ∧ ((w23_8.hub.tun 0).suspended = false)
    ∧ (w23_8.hub.time.reached 125000 = true)
    ∧ ((0x3FFF) = (w23_8.hub.usb.frame + 1) % 16384)
    ∧ ((0x3FFF) % 8 ≠ 0)
    ∧ (w23_9.hub.recIs ((0 : Fin 8)) 1 = true)
    ∧ (w23_9.hub.role = .leaf)
    ∧ ((w23_9.hub.tun ((0 : Fin 8))).arrived = ((⟨1, 5, 0, 0, [1, 2, 3, 4, 5, 6, 7, 8]⟩ : UsbRec)) :: (([] : List UsbRec)))
    ∧ (w23_9.hub.udev ((⟨1, 5, 0, 0, [1, 2, 3, 4, 5, 6, 7, 8]⟩ : UsbRec)).dev = some (({ vport := 3, speed := 2 } : UsbDev)))
    ∧ (w23_9.hub.uep (epKey ((⟨1, 5, 0, 0, [1, 2, 3, 4, 5, 6, 7, 8]⟩ : UsbRec)).dev 0 false) = some (({ kind := 0, max := 64, blocks := 1 } : UsbEp)))
    ∧ (w23_9.hub.uep (epKey ((⟨1, 5, 0, 0, [1, 2, 3, 4, 5, 6, 7, 8]⟩ : UsbRec)).dev 0 true) = some (({ kind := 0, max := 64, blocks := 0, stall := true } : UsbEp)))
    ∧ (w23_10.hub.recIs ((0 : Fin 8)) 2 = true)
    ∧ (w23_10.hub.role = .leaf)
    ∧ ((w23_10.hub.tun ((0 : Fin 8))).arrived = ((⟨2, 5, 2, 0, [1, 2]⟩ : UsbRec)) :: (([] : List UsbRec)))
    ∧ (w23_10.hub.uep (epKey ((⟨2, 5, 2, 0, [1, 2]⟩ : UsbRec)).dev ((⟨2, 5, 2, 0, [1, 2]⟩ : UsbRec)).ep false) = some (({ kind := 2, max := 64, blocks := 1 } : UsbEp)))
    ∧ (w23_11.hub.recIs ((7 : Fin 8)) 3 = true)
    ∧ (w23_11.hub.role = .root)
    ∧ ((w23_11.hub.tun ((7 : Fin 8))).arrived = ((⟨3, 5, 0x12, 0, [1, 2]⟩ : UsbRec)) :: (([] : List UsbRec)))
    ∧ (w23_11.hub.uep (epKey ((⟨3, 5, 0x12, 0, [1, 2]⟩ : UsbRec)).dev ((⟨3, 5, 0x12, 0, [1, 2]⟩ : UsbRec)).ep true) = some (({ kind := 2, max := 64, blocks := 1 } : UsbEp)))
    ∧ (w23_12.hub.recIs ((7 : Fin 8)) 4 = true)
    ∧ (w23_12.hub.role = .root)
    ∧ ((w23_12.hub.tun ((7 : Fin 8))).arrived = ((⟨4, 5, 0x12, 2, []⟩ : UsbRec)) :: (([] : List UsbRec)))
    ∧ (w23_12.hub.udev ((⟨4, 5, 0x12, 2, []⟩ : UsbRec)).dev = some (({ vport := 3, speed := 2 } : UsbDev)))
    ∧ ((({ vport := 3, speed := 2 } : UsbDev)).speed = 2)
    ∧ (((⟨4, 5, 0x12, 2, []⟩ : UsbRec)).status = 2)
    ∧ (w23_12.hub.uep (epKey ((⟨4, 5, 0x12, 2, []⟩ : UsbRec)).dev ((⟨4, 5, 0x12, 2, []⟩ : UsbRec)).ep ((⟨4, 5, 0x12, 2, []⟩ : UsbRec)).isIn) = some (({ kind := 2, max := 64, blocks := 1, buf := some [3] } : UsbEp)))
    ∧ (w23_13.hub.recIs ((0 : Fin 8)) 5 = true)
    ∧ (w23_13.hub.role = .leaf)
    ∧ ((w23_13.hub.tun ((0 : Fin 8))).arrived = ((⟨5, 5, 2, 1, [3]⟩ : UsbRec)) :: (([] : List UsbRec)))
    ∧ (w23_13.hub.udev ((⟨5, 5, 2, 1, [3]⟩ : UsbRec)).dev = some (({ vport := 3, speed := 1 } : UsbDev)))
    ∧ (((⟨5, 5, 2, 1, [3]⟩ : UsbRec)).status = 1)
    ∧ (((⟨5, 5, 2, 1, [3]⟩ : UsbRec)).isIn = false)
    ∧ (w23_14.hub.recIs ((0 : Fin 8)) 6 = true)
    ∧ (w23_14.hub.role = .leaf)
    ∧ ((w23_14.hub.tun ((0 : Fin 8))).arrived = ((⟨6, 4, 0, 31, []⟩ : UsbRec)) :: (([] : List UsbRec)))
    ∧ (1 ≤ ((⟨6, 4, 0, 31, []⟩ : UsbRec)).dev)
    ∧ (((⟨6, 4, 0, 31, []⟩ : UsbRec)).dev ≤ 4)
    ∧ (16 ≤ ((⟨6, 4, 0, 31, []⟩ : UsbRec)).status)
    ∧ (((⟨6, 4, 0, 31, []⟩ : UsbRec)).status < 32)
    ∧ (((⟨6, 4, 0, 31, []⟩ : UsbRec)).isIn = false)
    ∧ (w23_15.hub.recIs ((7 : Fin 8)) 7 = true)
    ∧ (w23_15.hub.role = .root)
    ∧ ((w23_15.hub.tun ((7 : Fin 8))).arrived = ((⟨7, 4, 0, 0, [3, 5, 17, 0]⟩ : UsbRec)) :: (([] : List UsbRec)))
    ∧ (w23_15.hub.vportOf ((7 : Fin 8)) (((⟨7, 4, 0, 0, [3, 5, 17, 0]⟩ : UsbRec)).dev - 1) = some (0))
    ∧ (((0x110503 : Word)) = imgWord ((⟨7, 4, 0, 0, [3, 5, 17, 0]⟩ : UsbRec)).data 0)
    ∧ (((0 : Word)) = w23_15.hub.rd (Reg.UP_STAT (0)))
    ∧ (w23_16.hub.recIs ((0 : Fin 8)) 8 = true)
    ∧ (w23_16.hub.role = .leaf)
    ∧ ((w23_16.hub.tun ((0 : Fin 8))).arrived = ((⟨8, 0, 0, 0, []⟩ : UsbRec)) :: (([] : List UsbRec)))
    ∧ (((⟨8, 0, 0, 0, []⟩ : UsbRec)).status = 0)
    ∧ (w23_17.hub.recIs ((7 : Fin 8)) 9 = true)
    ∧ (w23_17.hub.role = .root)
    ∧ ((w23_17.hub.tun ((7 : Fin 8))).arrived = ((⟨9, 4, 0, 0, []⟩ : UsbRec)) :: (([] : List UsbRec)))
    ∧ (w23_17.hub.vportOf ((7 : Fin 8)) (((⟨9, 4, 0, 0, []⟩ : UsbRec)).dev - 1) = some (0))
    ∧ (w23_18.hub.leafUp = true)
    ∧ ((w23_18.hub.tun 0).up = true)
    ∧ (w23_18.hub.udev ((5 : BitVec 7)).toNat = some (({ vport := 3, speed := 2 } : UsbDev)))
    ∧ (w23_18.hub.uep (epKey ((5 : BitVec 7)).toNat ((2 : BitVec 4)).toNat true) = some (({ kind := 2, max := 64, blocks := 1 } : UsbEp)))
    ∧ ((({ kind := 2, max := 64, blocks := 1 } : UsbEp)).buf = none)
    ∧ ((({ kind := 2, max := 64, blocks := 1 } : UsbEp)).stall = false)
    ∧ (w23_18.hub.upBit (({ vport := 3, speed := 2 } : UsbDev)).vport 1 = true)
    ∧ (w23_18.hub.upBit (({ vport := 3, speed := 2 } : UsbDev)).vport 2 = false)
    ∧ (w23_19.hub.leafUp = true)
    ∧ ((w23_19.hub.tun 0).up = true)
    ∧ (w23_19.hub.udev ((5 : BitVec 7)).toNat = some (({ vport := 3, speed := 2 } : UsbDev)))
    ∧ (w23_19.hub.uep (epKey ((5 : BitVec 7)).toNat ((2 : BitVec 4)).toNat false) = some (({ kind := 2, max := 64, blocks := 1, buf := some [4] } : UsbEp)))
    ∧ ((({ kind := 2, max := 64, blocks := 1, buf := some [4] } : UsbEp)).buf.isSome = true)
    ∧ ((({ kind := 2, max := 64, blocks := 1, buf := some [4] } : UsbEp)).stall = false)
    ∧ ((({ kind := 2, max := 64, blocks := 1, buf := some [4] } : UsbEp)).setup = false)
    ∧ (w23_19.hub.upBit (({ vport := 3, speed := 2 } : UsbDev)).vport 1 = true)
    ∧ (w23_19.hub.upBit (({ vport := 3, speed := 2 } : UsbDev)).vport 2 = false)
    ∧ (((2 : BitVec 4)) ≠ 0)
    ∧ ((w23_19.hub.tun 0).waiting = [])
    ∧ ((w23_19.hub.tun 0).unacked.length < w23_19.hub.tunWin 0)
    ∧ (w23_19.hub.admits 0x10 (w23_19.hub.tunTx 0) 24 (9) = true)
    ∧ (w23_20.hub.leafUp = true)
    ∧ (w23_20.hub.upBit ((3 : Fin 4)) 8 = true)
    ∧ (w23_20.hub.upBit ((3 : Fin 4)) 0 = false)
    ∧ (w23_21.hub.leafUp = true)
    ∧ (w23_21.hub.upBit ((3 : Fin 4)) 0 = true)
    ∧ (w23_22.hub.leafUp = true)
    ∧ (w23_23.hub.leafUp = true)
    ∧ (w23_23.hub.upBit ((3 : Fin 4)) 4 = true)
    ∧ ((w23_23.hub.uport ((3 : Fin 4))).resetAt + 10000000 ≤ w23_23.hub.mono)
    ∧ (w23_24.hub.leafUp = true)
    ∧ (w23_24.hub.upBit ((3 : Fin 4)) 1 = true)
    ∧ ((w23_24.hub.uport ((3 : Fin 4))).driving = false)
    ∧ ((w23_24.hub.upBit ((3 : Fin 4)) 2 = true ∨ (w23_24.hub.tun 0).suspended = true))
    ∧ (w23_25.hub.leafUp = true)
    ∧ ((w23_25.hub.uport ((3 : Fin 4))).driving = true)
    ∧ ((w23_25.hub.uport ((3 : Fin 4))).kAt + 20000000 ≤ w23_25.hub.mono)
    ∧ (w23_26.hub.leafUp = true)
    ∧ ((w23_26.hub.tun 0).up = true)
    ∧ ((w23_26.hub.tun 0).suspended = false)
    ∧ (w23_26.hub.time.reached 125000 = true)
    ∧ (w23_27.hub.recIs ((0 : Fin 8)) 1 = true)
    ∧ (w23_28.hub.recIs ((0 : Fin 8)) 2 = true)
    ∧ (w23_29.hub.recIs ((7 : Fin 8)) 3 = true)
    ∧ (w23_30.hub.recIs ((7 : Fin 8)) 4 = true)
    ∧ (w23_31.hub.recIs ((0 : Fin 8)) 5 = true)
    ∧ (w23_32.hub.recIs ((0 : Fin 8)) 6 = true)
    ∧ (w23_33.hub.recIs ((7 : Fin 8)) 7 = true)
    ∧ (w23_34.hub.recIs ((0 : Fin 8)) 8 = true)
    ∧ (w23_35.hub.recIs ((7 : Fin 8)) 9 = true)
    ∧ (w23_36.hub.leafUp = true)
    ∧ ((w23_36.hub.tun 0).up = true)
    ∧ (w23_36.hub.udev ((5 : BitVec 7)).toNat = some (({ vport := 3, speed := 2 } : UsbDev)))
    ∧ (w23_36.hub.uep (epKey ((5 : BitVec 7)).toNat ((2 : BitVec 4)).toNat (false)) = some (({ kind := 2, max := 64, blocks := 1, buf := some [4] } : UsbEp)))
    ∧ ((({ kind := 2, max := 64, blocks := 1, buf := some [4] } : UsbEp)).buf.isSome = !(false))
    ∧ ((({ kind := 2, max := 64, blocks := 1, buf := some [4] } : UsbEp)).stall = false)
    ∧ (w23_36.hub.upBit (({ vport := 3, speed := 2 } : UsbDev)).vport 1 = true)
    ∧ (w23_36.hub.upBit (({ vport := 3, speed := 2 } : UsbDev)).vport 2 = false) := by
  and_intros <;> decide +kernel

def w23_37 : State := on rootS fun h => ((h.updHdr .usb fun x => { x with enable := true }).wr (Reg.TN_CFG 7) 1).updUsb fun u => { u with inbox := [⟨0, 3, [1, 2, 3]⟩] }

def w23_38 : State := on leafS fun h => (((h.updHdr .usb fun x => { x with enable := true }).wr (Reg.TN_CFG 0) 1).updTun 0 fun x => { x with up := true, epoch := 200, nextRx := 4095 }).updUsb fun u => { u with inbox := [⟨0, 3, burstHeader 200 false false false 4095 5 6 1 7 ++ [2, 5, 2, 0, 2, 0, 0, 0, 1, 2, 0, 0]⟩] }

def w23_39 : State := on leafS fun h => later 100000000000 <| (((h.updHdr .usb fun x => { x with enable := true }).updTun 0 fun x => { x with up := true, unacked := [⟨5, burstHeader 200 false false false 5 5 6 0 7⟩] }).wr (Reg.TN_FLOW_UP 0) 77).setCtx 9 { state := .resident, handle := 77, port := 2, tc := 2, inseq := 65535 }

def w23_40 : State := on leafS fun h => (((h.updHdr .usb fun x => { x with enable := true }).updTun 0 fun x => { x with up := true, ackDue := true, nextRx := 4 }).wr (Reg.TN_FLOW_UP 0) 77).setCtx 9 { state := .resident, handle := 77, port := 2, tc := 2, inseq := 65535 }

def w23_41 : State := on rootS fun h => ((((h.updHdr .usb fun x => { x with enable := true }).updTun 7 fun x => { x with up := true, nextTx := 4095, ackDue := true }).wr (Reg.TN_FLOW_DN 7) 77).wr (Reg.TN_CFG 7) 1).setCtx 9 { state := .resident, handle := 77, port := 2, tc := 2, inseq := 65535 }

def w23_42 : State := on rootS fun h => later 100000000000 <| ((((h.updHdr .usb fun x => { x with enable := true }).updTun 7 fun x => { x with up := true, epoch := 255, unacked := [⟨4, [1]⟩] }).wr (Reg.TN_CFG 7) 1).wr (Reg.UP_CFG 0) 0x37).wr (Reg.UP_STAT 0) 0x503

def w23_43 : State := on rootS fun h => (h.updHdr .usb fun x => { x with enable := true }).wr Reg.USB_CFG 1

def w23_44 : State := on rootS fun h => ((((h.updHdr .usb fun x => { x with enable := true }).wr Reg.USB_CFG 0).wr Reg.USB_STAT 0x5873).wr (Reg.UP_STAT 9) 0x503).updUsb fun u => { u with devs := [(5, { vport := 3, speed := 2 })], eps := [(165, { kind := 2, max := 64, blocks := 1 })] }

def w23_45 : State := on rootS fun h => ((h.updHdr .usb fun x => { x with enable := true }).wr Reg.USB_STAT 0x7F3)

def w23_46 : State := on rootS fun h => ((((h.updHdr .usb fun x => { x with enable := true }).wr Reg.USB_STAT 0x7F3).wr (Reg.UP_STAT 0) 0x503).updTun 0 fun x => { x with up := true }).updUsb fun u => { u with devs := [(5, { vport := 0, speed := 2 })], eps := [(165, { kind := 2, max := 64, blocks := 1, buf := some [9], toggle := true })] }

def w23_47 : State := on rootS fun h => ((((h.updHdr .usb fun x => { x with enable := true }).wr Reg.USB_STAT 0x7F3).wr (Reg.UP_STAT 0) 0x103).updTun 0 fun x => { x with up := true }).updUport 0 fun x => { x with splits := [{ dev := 5, ep := 2, isIn := true, type := 2, result := some (1, []) }] }

def w23_48 : State := on rootS fun h => ((((h.updHdr .usb fun x => { x with enable := true }).wr Reg.USB_STAT 0x7F3).wr (Reg.UP_STAT 0) 0x103).wr (Reg.TN_CFG 0) 0x10001).updTun 0 fun x => { x with up := true, unacked := [⟨4, [1]⟩] }

def w23_49 : State := on rootS fun h => ((h.updHdr .usb fun x => { x with enable := true }).wr Reg.USB_STAT 3)

def w23_50 : State := on rootS fun h => ((h.updHdr .usb fun x => { x with enable := true }).wr Reg.USB_STAT 0x3003).updUsb fun u => { u with hostK := true }

def w23_51 : State := on rootS fun h => ((((ask .usb 0x10 [7] h).wr (Reg.TN_FLOW_DN 7) 77).wr (Reg.TN_CFG 7) 1).updTun 7 fun x => { x with epoch := 255 }).setCtx 9 { state := .resident, handle := 77, port := 2, tc := 2, inseq := 65535 }

def w23_52 : State := on rootS fun h => ((h.updHdr .usb fun x => { x with enable := true }).wr Reg.USB_MQ_STAT 0x2001F).updUsb fun u => { u with mq := [3, 32], mqIn := 2 }

def w23_53 : State := on rootS fun h => ((h.updHdr .usb fun x => { x with enable := true }).wr (Reg.TN_CFG 7) 1).updUsb fun u => { u with inbox := [⟨0, 3, [1, 2, 3]⟩] }

def w23_54 : State := on leafS fun h => later 100000000000 <| (((h.updHdr .usb fun x => { x with enable := true }).updTun 0 fun x => { x with up := true, unacked := [⟨5, burstHeader 200 false false false 5 5 6 0 7⟩] }).wr (Reg.TN_FLOW_UP 0) 77).setCtx 9 { state := .resident, handle := 77, port := 2, tc := 2, inseq := 65535 }

def w23_55 : State := on leafS fun h => (((h.updHdr .usb fun x => { x with enable := true }).updTun 0 fun x => { x with up := true, ackDue := true, nextRx := 4 }).wr (Reg.TN_FLOW_UP 0) 77).setCtx 9 { state := .resident, handle := 77, port := 2, tc := 2, inseq := 65535 }

def w23_56 : State := on rootS fun h => ((((h.updHdr .usb fun x => { x with enable := true }).updTun 7 fun x => { x with up := true, nextTx := 4095, ackDue := true }).wr (Reg.TN_FLOW_DN 7) 77).wr (Reg.TN_CFG 7) 1).setCtx 9 { state := .resident, handle := 77, port := 2, tc := 2, inseq := 65535 }

def w23_57 : State := on rootS fun h => later 100000000000 <| ((((h.updHdr .usb fun x => { x with enable := true }).updTun 7 fun x => { x with up := true, epoch := 255, unacked := [⟨4, [1]⟩] }).wr (Reg.TN_CFG 7) 1).wr (Reg.UP_CFG 0) 0x37).wr (Reg.UP_STAT 0) 0x503

def w23_58 : State := on rootS fun h => ((((h.updHdr .usb fun x => { x with enable := true }).wr Reg.USB_CFG 0).wr Reg.USB_STAT 0x5873).wr (Reg.UP_STAT 9) 0x503).updUsb fun u => { u with devs := [(5, { vport := 3, speed := 2 })], eps := [(165, { kind := 2, max := 64, blocks := 1 })] }

def w23_59 : State := on rootS fun h => ((((h.updHdr .usb fun x => { x with enable := true }).wr Reg.USB_CFG 0).wr Reg.USB_STAT 0x5873).wr (Reg.UP_STAT 9) 0x503).updUsb fun u => { u with devs := [(5, { vport := 3, speed := 2 })], eps := [(165, { kind := 2, max := 64, blocks := 1 })] }

def w23_60 : State := on rootS fun h => ((h.updHdr .usb fun x => { x with enable := true }).wr Reg.USB_STAT 0x7F3)

def w23_61 : State := on rootS fun h => ((((h.updHdr .usb fun x => { x with enable := true }).wr Reg.USB_STAT 0x7F3).wr (Reg.UP_STAT 0) 0x103).updTun 0 fun x => { x with up := true }).updUport 0 fun x => { x with splits := [{ dev := 5, ep := 2, isIn := true, type := 2, result := some (1, []) }] }

def w23_62 : State := on rootS fun h => ((h.updHdr .usb fun x => { x with enable := true }).wr Reg.USB_STAT 3)

def w23_63 : State := on rootS fun h => ((h.updHdr .usb fun x => { x with enable := true }).wr Reg.USB_STAT 0x3003).updUsb fun u => { u with hostK := true }

def w23_64 : State := on rootS fun h => ((((ask .usb 0x10 [7] h).wr (Reg.TN_FLOW_DN 7) 77).wr (Reg.TN_CFG 7) 1).updTun 7 fun x => { x with epoch := 255 }).setCtx 9 { state := .resident, handle := 77, port := 2, tc := 2, inseq := 65535 }

/-- The hypotheses of Obligations.UsbTunnelsAndHost hold somewhere, clause by clause. -/
theorem wit_usbTunnelsAndHost :
    (w23_37.hub.up .usb = true)
    ∧ (w23_37.hub.tunEn ((7 : Fin 8)) = true)
    ∧ (w23_37.hub.burstHead ((7 : Fin 8)) = some ((⟨0, 3, [1, 2, 3]⟩ : ExitFrame)))
    ∧ (((⟨0, 3, [1, 2, 3]⟩ : ExitFrame)).bytes.length < 16)
    ∧ (w23_38.hub.up .usb = true)
    ∧ (w23_38.hub.role = .leaf)
    ∧ (w23_38.hub.tunEn ((0 : Fin 8)) = true)
    ∧ (w23_38.hub.burstHead ((0 : Fin 8)) = some ((⟨0, 3, burstHeader 200 false false false 4095 5 6 1 7 ++ [2, 5, 2, 0, 2, 0, 0, 0, 1, 2, 0, 0]⟩ : ExitFrame)))
    ∧ (16 ≤ ((⟨0, 3, burstHeader 200 false false false 4095 5 6 1 7 ++ [2, 5, 2, 0, 2, 0, 0, 0, 1, 2, 0, 0]⟩ : ExitFrame)).bytes.length)
    ∧ (burstRecs (((⟨0, 3, burstHeader 200 false false false 4095 5 6 1 7 ++ [2, 5, 2, 0, 2, 0, 0, 0, 1, 2, 0, 0]⟩ : ExitFrame)).bytes.getD 8 0).toNat (((⟨0, 3, burstHeader 200 false false false 4095 5 6 1 7 ++ [2, 5, 2, 0, 2, 0, 0, 0, 1, 2, 0, 0]⟩ : ExitFrame)).bytes.drop 16) = some (([⟨2, 5, 2, 0, [1, 2]⟩] : List UsbRec)))
    ∧ ((((⟨0, 3, burstHeader 200 false false false 4095 5 6 1 7 ++ [2, 5, 2, 0, 2, 0, 0, 0, 1, 2, 0, 0]⟩ : ExitFrame)).bytes.getD 0 0).toNat = (w23_38.hub.tun ((0 : Fin 8))).epoch)
    ∧ (((⟨0, 3, burstHeader 200 false false false 4095 5 6 1 7 ++ [2, 5, 2, 0, 2, 0, 0, 0, 1, 2, 0, 0]⟩ : ExitFrame)).bytes.getD 1 0 = 0)
    ∧ ((w23_38.hub.tun ((0 : Fin 8))).up = true)
    ∧ ((w23_38.hub.tun ((0 : Fin 8))).restart = false)
    ∧ ((w23_38.hub.tun ((0 : Fin 8))).waiting = [])
    ∧ (leVal ((((⟨0, 3, burstHeader 200 false false false 4095 5 6 1 7 ++ [2, 5, 2, 0, 2, 0, 0, 0, 1, 2, 0, 0]⟩ : ExitFrame)).bytes.drop 2).take 2) % 4096 = (w23_38.hub.tun ((0 : Fin 8))).nextRx)
    ∧ (w23_39.hub.works .usb = true)
    ∧ ((w23_39.hub.tun ((0 : Fin 8))).unacked = [((⟨5, burstHeader 200 false false false 5 5 6 0 7⟩ : UsbBurst))])
    ∧ (w23_39.hub.tunInfl ((0 : Fin 8)) = 0)
    ∧ ((w23_39.hub.tun ((0 : Fin 8))).ackAt + w23_39.hub.tunTmo ((0 : Fin 8)) ≤ w23_39.hub.mono)
    ∧ (6 ≤ ((⟨5, burstHeader 200 false false false 5 5 6 0 7⟩ : UsbBurst)).bytes.length)
    ∧ (w23_39.hub.admits 0x10 (w23_39.hub.tunTx ((0 : Fin 8))) ((⟨5, burstHeader 200 false false false 5 5 6 0 7⟩ : UsbBurst)).bytes.length (9) = true)
    ∧ (w23_40.hub.works .usb = true)
    ∧ ((w23_40.hub.tun ((0 : Fin 8))).ackDue = true)
    ∧ (w23_40.hub.admits 0x10 (w23_40.hub.tunTx ((0 : Fin 8))) 16 (9) = true)
    ∧ (w23_41.hub.rootUp = true)
    ∧ (w23_41.hub.tunEn ((7 : Fin 8)) = true)
    ∧ ((w23_41.hub.tun ((7 : Fin 8))).suspended = false)
    ∧ ((w23_41.hub.tun ((7 : Fin 8))).up = true)
    ∧ ((w23_41.hub.tun ((7 : Fin 8))).waiting = [])
    ∧ ((w23_41.hub.tun ((7 : Fin 8))).unacked.length < w23_41.hub.tunWin ((7 : Fin 8)))
    ∧ (w23_41.hub.admits 0x10 (w23_41.hub.tunTx ((7 : Fin 8))) 16 (9) = true)
    ∧ (w23_42.hub.rootUp = true)
    ∧ (w23_42.hub.tunEn ((7 : Fin 8)) = true)
    ∧ ((w23_42.hub.tun ((7 : Fin 8))).up = true)
    ∧ ((w23_42.hub.tun ((7 : Fin 8))).suspended = false)
    ∧ ((w23_42.hub.tun ((7 : Fin 8))).heardAt + w23_42.hub.tunDeadTime ((7 : Fin 8)) ≤ w23_42.hub.mono)
    ∧ (w23_43.hub.rootUp = true)
    ∧ (w23_43.hub.rdB Reg.USB_CFG 0 = true)
    ∧ (w23_43.hub.rdB Reg.USB_STAT 1 = false)
    ∧ (w23_43.hub.usb.attachFrom ≤ w23_43.hub.mono)
    ∧ (w23_44.hub.rootUp = true)
    ∧ (w23_44.hub.rdB Reg.USB_STAT 1 = true)
    ∧ ((List.range 8).all (fun x => !w23_44.hub.tunEn x) = true)
    ∧ (w23_45.hub.rootUp = true)
    ∧ (w23_45.hub.rdB Reg.USB_STAT 1 = true)
    ∧ (w23_45.hub.rdB Reg.USB_STAT 12 = false)
    ∧ (((0x7F : BitVec 7)).toNat = w23_45.hub.rdF Reg.USB_STAT 10 4)
    ∧ (((0x7F : BitVec 7)) ≠ 0)
    ∧ (w23_46.hub.rootUp = true)
    ∧ (w23_46.hub.rdB Reg.USB_STAT 1 = true)
    ∧ (w23_46.hub.rdB Reg.USB_STAT 12 = false)
    ∧ (((5 : BitVec 7)).toNat ≠ w23_46.hub.rdF Reg.USB_STAT 10 4)
    ∧ (w23_46.hub.udev ((5 : BitVec 7)).toNat = some (({ vport := 0, speed := 2 } : UsbDev)))
    ∧ ((({ vport := 0, speed := 2 } : UsbDev)).speed = 2)
    ∧ (w23_46.hub.devLive (({ vport := 0, speed := 2 } : UsbDev)) = true)
    ∧ ((({ vport := 0, speed := 2 } : UsbDev)).refused = false)
    ∧ (w23_46.hub.uep (epKey ((5 : BitVec 7)).toNat ((2 : BitVec 4)).toNat true) = some (({ kind := 2, max := 64, blocks := 1, buf := some [9], toggle := true } : UsbEp)))
    ∧ ((({ kind := 2, max := 64, blocks := 1, buf := some [9], toggle := true } : UsbEp)).kind ≠ 1)
    ∧ ((({ kind := 2, max := 64, blocks := 1, buf := some [9], toggle := true } : UsbEp)).stall = false)
    ∧ (w23_46.hub.uep (epKey ((5 : BitVec 7)).toNat ((2 : BitVec 4)).toNat false) = none)
    ∧ (w23_47.hub.rootUp = true)
    ∧ (w23_47.hub.rdB Reg.USB_STAT 1 = true)
    ∧ (w23_47.hub.rdB Reg.USB_STAT 12 = false)
    ∧ (((0 : Fin 16)).val < w23_47.hub.nPorts)
    ∧ (w23_47.hub.upBit ((0 : Fin 16)) 1 = true)
    ∧ (w23_47.hub.upBit ((0 : Fin 16)) 10 = false)
    ∧ ((w23_47.hub.tun (w23_47.hub.tunOf ((0 : Fin 16)))).up = true)
    ∧ ((w23_47.hub.uport ((0 : Fin 16))).splits = [(({ dev := 5, ep := 2, isIn := true, type := 2, result := some (1, []) } : UsbSplit))])
    ∧ ((({ dev := 5, ep := 2, isIn := true, type := 2, result := some (1, []) } : UsbSplit)).isOf ((5 : BitVec 7)).toNat ((2 : BitVec 4)).toNat true = true)
    ∧ ((({ dev := 5, ep := 2, isIn := true, type := 2, result := some (1, []) } : UsbSplit)).late = false)
    ∧ ((({ dev := 5, ep := 2, isIn := true, type := 2, result := some (1, []) } : UsbSplit)).result = some (1, (([] : List Byte))))
    ∧ (w23_48.hub.rootUp = true)
    ∧ (w23_48.hub.rdB Reg.USB_STAT 1 = true)
    ∧ (w23_48.hub.rdB Reg.USB_STAT 12 = false)
    ∧ (((0 : Fin 16)).val < w23_48.hub.nPorts)
    ∧ (w23_48.hub.upBit ((0 : Fin 16)) 1 = true)
    ∧ (w23_48.hub.upBit ((0 : Fin 16)) 10 = false)
    ∧ ((0) = w23_48.hub.tunOf ((0 : Fin 16)))
    ∧ ((w23_48.hub.tun (0)).up = true)
    ∧ ((w23_48.hub.uport ((0 : Fin 16))).splits = [])
    ∧ (((2 : BitVec 4)) ≠ 0)
    ∧ (w23_48.hub.tunWin (0) ≤ (w23_48.hub.tun (0)).unacked.length)
    ∧ (w23_49.hub.rootUp = true)
    ∧ (w23_49.hub.rdB Reg.USB_STAT 1 = true)
    ∧ (w23_49.hub.rdB Reg.USB_STAT 12 = false)
    ∧ ((List.range 8).all (fun x => !(w23_49.hub.tun x).up) = true)
    ∧ (w23_50.hub.rootUp = true)
    ∧ (w23_50.hub.rdB Reg.USB_STAT 12 = true)
    ∧ (w23_50.hub.usb.hostK = true)
    ∧ ((List.range 8).all (fun x => !(w23_50.hub.tun x).up) = true)
    ∧ (w23_51.hub.opRunning .usb 0x10 = true)
    ∧ (w23_51.hub.present .usb = true)
    ∧ (w23_51.hub.role = .root)
    ∧ ((7) = (w23_51.hub.arg .usb 0).toNat)
    ∧ ((7) < 8)
    ∧ (w23_51.hub.tunEn (7) = true)
    ∧ (w23_51.hub.vports (7) = [])
    ∧ (w23_51.hub.admits 0x10 (w23_51.hub.tunTx (7)) 16 (9) = true)
    ∧ (w23_52.hub.up .usb = true)
    ∧ (w23_52.hub.usb.mq.length ≤ 32)
    ∧ (w23_53.hub.up .usb = true)
    ∧ (w23_53.hub.tunEn ((7 : Fin 8)) = true)
    ∧ ((w23_53.hub.burstHead ((7 : Fin 8))).isSome = true)
    ∧ (w23_54.hub.works .usb = true)
    ∧ (w23_54.hub.tunInfl ((0 : Fin 8)) < (w23_54.hub.tun ((0 : Fin 8))).unacked.length)
    ∧ ((w23_54.hub.tun ((0 : Fin 8))).ackAt + w23_54.hub.tunTmo ((0 : Fin 8)) ≤ w23_54.hub.mono)
    ∧ (w23_55.hub.works .usb = true)
    ∧ ((w23_55.hub.tun ((0 : Fin 8))).ackDue = true)
    ∧ (w23_56.hub.rootUp = true)
    ∧ (w23_56.hub.tunEn ((7 : Fin 8)) = true)
    ∧ ((w23_56.hub.tun ((7 : Fin 8))).suspended = false)
    ∧ (w23_57.hub.works .usb = true)
    ∧ ((w23_57.hub.tun ((7 : Fin 8))).up = true)
    ∧ ((w23_57.hub.tun ((7 : Fin 8))).suspended = false)
    ∧ ((w23_57.hub.tun ((7 : Fin 8))).heardAt + w23_57.hub.tunDeadTime ((7 : Fin 8)) ≤ w23_57.hub.mono)
    ∧ (w23_58.hub.rootUp = true)
    ∧ (w23_58.hub.rdB Reg.USB_STAT 1 = true)
    ∧ (((false) = false ∨ w23_58.hub.rdB Reg.USB_CFG 0 = false))
    ∧ (w23_59.hub.rootUp = true)
    ∧ (w23_59.hub.rdB Reg.USB_STAT 1 = true)
    ∧ (w23_60.hub.rootUp = true)
    ∧ (w23_60.hub.rdB Reg.USB_STAT 1 = true)
    ∧ (w23_60.hub.rdB Reg.USB_STAT 12 = false)
    ∧ (w23_61.hub.rootUp = true)
    ∧ (w23_61.hub.rdB Reg.USB_STAT 1 = true)
    ∧ (w23_61.hub.rdB Reg.USB_STAT 12 = false)
    ∧ (((0 : Fin 16)).val < w23_61.hub.nPorts)
    ∧ (w23_61.hub.upBit ((0 : Fin 16)) 1 = true)
    ∧ (w23_61.hub.upBit ((0 : Fin 16)) 10 = false)
    ∧ ((w23_61.hub.tun (w23_61.hub.tunOf ((0 : Fin 16)))).up = true)
    ∧ (w23_62.hub.rootUp = true)
    ∧ (w23_62.hub.rdB Reg.USB_STAT 1 = true)
    ∧ (w23_62.hub.rdB Reg.USB_STAT 12 = false)
    ∧ (w23_63.hub.rootUp = true)
    ∧ (w23_63.hub.rdB Reg.USB_STAT 12 = true)
    ∧ ((w23_63.hub.rdB Reg.USB_STAT 13 = false ∨ w23_63.hub.usb.hostK = true))
    ∧ (w23_64.hub.opRunning .usb 0x10 = true) := by
  and_intros <;> decide +kernel

def w24_1 : State := on leafS fun h => ((((h.updHdr .ppc fun x => { x with enable := true }).wr (Reg.PC_CFG 5) 1).wr (Reg.PC_STAT 5) 0x93).updChan 5 fun x => { x with fast := true, inWin := true }).wr (Reg.PC_STAT 4) 3

def w24_2 : State := on leafS fun h => (h.updHdr .ppc fun x => { x with enable := true }).wr (Reg.PC_STAT 5) 3

def w24_3 : State := on leafS fun h => ripe <| ((h.updHdr .ppc fun x => { x with enable := true }).wr (Reg.PC_STAT 5) 0x5F1B3).updChan 5 fun x => { x with timer := 7, pgCount := 6 }

def w24_4 : State := on leafS fun h => ripe <| ((h.updHdr .ppc fun x => { x with enable := true }).wr (Reg.PC_STAT 5) 0x5F0B3).updChan 5 fun x => { x with timer := 7, pgCount := 6 }

def w24_5 : State := on leafS fun h => ripe <| (h.updHdr .ppc fun x => { x with enable := true }).wr (Reg.PC_STAT 5) 1

def w24_6 : State := on leafS fun h => ripe <| ((h.updHdr .ppc fun x => { x with enable := true }).wr (Reg.PC_STAT 5) 0x112).wr (Reg.PC_CFG 5) 0x10

def w24_7 : State := on leafS fun h => ripe <| ((h.updHdr .ppc fun x => { x with enable := true }).wr (Reg.PC_STAT 5) 0x51104).wr (Reg.PC_TH_LIM 5) 0x00FF6490

def w24_8 : State := on leafS fun h => ripe <| ((h.updHdr .ppc fun x => { x with enable := true }).wr (Reg.PC_STAT 5) 0x51106).wr (Reg.PC_TH_LIM 5) 0x00FF6490

def w24_9 : State := on leafS fun h => ripe <| ((h.updHdr .ppc fun x => { x with enable := true }).wr (Reg.PC_STAT 5) 0x513B3).wr (Reg.PC_CFG 5) 0x3C0

def w24_10 : State := on leafS fun h => (fun h : Hub => (ripe h).updChan 5 fun x => { x with timer := 0 }) <| (((h.updHdr .ppc fun x => { x with enable := true }).wr (Reg.PC_STAT 5) 0x513A3).wr (Reg.PC_PG_WIN 5) 0x00780064).wr (Reg.PC_MEAS_V 5) 0x2EE02EE0

def w24_11 : State := on leafS fun h => ripe <| (h.updHdr .ppc fun x => { x with enable := true }).wr (Reg.PC_STAT 5) 0x513B3

def w24_12 : State := on leafS fun h => ripe <| ((h.updHdr .ppc fun x => { x with enable := true }).wr (Reg.PC_STAT 5) 0x51381).wr (Reg.PC_CFG 5) 4

def w24_13 : State := on leafS fun h => ripe <| (((h.updHdr .ppc fun x => { x with enable := true }).wr (Reg.PC_STAT 5) 0x51381).wr (Reg.PC_CFG 5) 6).updChan 5 fun x => { x with inWin := true }

def w24_14 : State := on leafS fun h => ripe <| ((h.updHdr .ppc fun x => { x with enable := true }).wr (Reg.PC_STAT 5) 0x513C1).wr (Reg.PC_CFG 5) 6

def w24_15 : State := on leafS fun h => (h.updHdr .ppc fun x => { x with enable := true }).wr (Reg.PC_STAT 5) 3

def w24_16 : State := on leafS fun h => (((h.updHdr .ppc fun x => { x with enable := true }).wr (Reg.PC_STAT 5) 0x51381).wr (Reg.PC_CFG 5) 0x101).updChan 5 fun x => { x with ctl := 1, inWin := true }

def w24_17 : State := on leafS fun h => (((h.updHdr .ppc fun x => { x with enable := true }).wr (Reg.PC_STAT 5) 0x53106).wr (Reg.PC_CFG 5) 0x101).updChan 5 fun x => { x with ctl := 2, inWin := true }

def w24_18 : State := on leafS fun h => (((h.updHdr .ppc fun x => { x with enable := true }).wr (Reg.PC_STAT 5) 0x54005).wr (Reg.PC_CFG 5) 0x101).updChan 5 fun x => { x with ctl := 2, inWin := true }

def w24_19 : State := on leafS fun h => (((h.updHdr .ppc fun x => { x with enable := true }).wr (Reg.PC_STAT 5) 0x54005).wr (Reg.PC_CFG 5) 0x101).updChan 5 fun x => { x with ctl := 4, inWin := true }

def w24_20 : State := on leafS fun h => (((h.updHdr .ppc fun x => { x with enable := true }).wr (Reg.PC_STAT 5) 0x54005).wr (Reg.PC_CFG 5) 0x101).updChan 5 fun x => { x with ctl := 4, inWin := true }

def w24_21 : State := on leafS fun h => ripe <| ((h.updHdr .ppc fun x => { x with enable := true }).wr (Reg.PC_STAT 5) 0x5F1B3).updChan 5 fun x => { x with timer := 7, pgCount := 6 }

def w24_22 : State := on leafS fun h => ripe <| ((h.updHdr .ppc fun x => { x with enable := true }).wr (Reg.PC_STAT 5) 0x5F0B3).updChan 5 fun x => { x with timer := 7, pgCount := 6 }

def w24_23 : State := on leafS fun h => ripe <| (h.updHdr .ppc fun x => { x with enable := true }).wr (Reg.PC_STAT 5) 1

def w24_24 : State := on leafS fun h => ripe <| ((h.updHdr .ppc fun x => { x with enable := true }).wr (Reg.PC_STAT 5) 0x51106).wr (Reg.PC_TH_LIM 5) 0x00FF6490

def w24_25 : State := on leafS fun h => ripe <| (h.updHdr .ppc fun x => { x with enable := true }).wr (Reg.PC_STAT 5) 0x513B3

def w24_26 : State := on leafS fun h => ripe <| ((h.updHdr .ppc fun x => { x with enable := true }).wr (Reg.PC_STAT 5) 0x51381).wr (Reg.PC_CFG 5) 4

/-- The hypotheses of Obligations.PowerPorts hold somewhere, clause by clause. -/
theorem wit_powerPorts :
    (w24_1.hub.up .ppc = true)
    ∧ ((([⟨1200, 3000, 5, 500, 10, false⟩, ⟨30000, 70000, 5, 20, 10, false⟩, ⟨12000, 3000, 70000, 500, 10, false⟩, ⟨12000, 3000, 5, 500, 10, false⟩, ⟨12000, 3000, 5, 500, 10, false⟩, ⟨12000, 3000, 5, 500, 10, false⟩] : List PpcSample)).length = 6)
    ∧ ((([⟨1200, 3000, 5, 500, 10, false⟩, ⟨30000, 70000, 5, 20, 10, false⟩, ⟨12000, 3000, 70000, 500, 10, false⟩, ⟨12000, 3000, 5, 500, 10, false⟩, ⟨12000, 3000, 5, 500, 10, false⟩, ⟨12000, 3000, 5, 500, 10, false⟩] : List PpcSample))[((5 : Fin 6)).val]? = some ((⟨12000, 3000, 5, 500, 10, false⟩ : PpcSample)))
    ∧ (w24_1.hub.rdB Reg.PMU_WAKE_EN 1 = false)
    ∧ (w24_1.hub.power.state ≠ .doze)
    ∧ ((w24_1.hub.chan ((5 : Fin 6))).ctl = 0)
    ∧ (w24_2.hub.up .ppc = true)
    ∧ (w24_2.hub.pcDriven ((5 : Fin 6)) = true)
    ∧ (w24_3.hub.up .ppc = true)
    ∧ (w24_3.hub.pcDriven ((5 : Fin 6)) = true)
    ∧ ((1) = w24_3.hub.rdF (Reg.PC_STAT ((5 : Fin 6))) 11 8)
    ∧ ((1) ≠ 0)
    ∧ ((w24_3.hub.chan ((5 : Fin 6))).fast = false)
    ∧ (w24_3.hub.pcFault ((5 : Fin 6)) ≤ (w24_3.hub.chan ((5 : Fin 6))).timer + 1)
    ∧ (w24_4.hub.up .ppc = true)
    ∧ (w24_4.hub.pcState ((5 : Fin 6)) = 3)
    ∧ (w24_4.hub.rdF (Reg.PC_STAT ((5 : Fin 6))) 11 8 = 0)
    ∧ ((w24_4.hub.chan ((5 : Fin 6))).fast = false)
    ∧ (9 ≤ (w24_4.hub.chan ((5 : Fin 6))).underTicks)
    ∧ (w24_5.hub.up .ppc = true)
    ∧ (w24_5.hub.pcDriven ((5 : Fin 6)) = false)
    ∧ (9 ≤ (w24_5.hub.chan ((5 : Fin 6))).tempTicks)
    ∧ (w24_6.hub.up .ppc = true)
    ∧ (w24_6.hub.pcDriven ((5 : Fin 6)) = true)
    ∧ (w24_6.hub.rdF (Reg.PC_CFG ((5 : Fin 6))) 5 4 ≠ 0)
    ∧ ((1) = w24_6.hub.rdF (Reg.PC_STAT ((5 : Fin 6))) 11 8)
    ∧ ((1) ≠ 0)
    ∧ ((w24_6.hub.chan ((5 : Fin 6))).fast = false)
    ∧ (9 ≤ (w24_6.hub.chan ((5 : Fin 6))).tempTicks)
    ∧ (w24_7.hub.up .ppc = true)
    ∧ (w24_7.hub.pcState ((5 : Fin 6)) = 4)
    ∧ (w24_7.hub.pcCool ((5 : Fin 6)) = true)
    ∧ (w24_7.hub.pcDelay ((5 : Fin 6)) ≤ (w24_7.hub.chan ((5 : Fin 6))).waitTicks + 1)
    ∧ (w24_8.hub.up .ppc = true)
    ∧ (w24_8.hub.pcState ((5 : Fin 6)) = 6)
    ∧ (w24_8.hub.pcCool ((5 : Fin 6)) = true)
    ∧ (9999 ≤ (w24_8.hub.chan ((5 : Fin 6))).inTicks)
    ∧ (w24_8.hub.rdB Reg.PMU_WAKE_EN 1 = false)
    ∧ (w24_8.hub.power.state ≠ .doze)
    ∧ (w24_9.hub.up .ppc = true)
    ∧ (w24_9.hub.rdB (Reg.PC_STAT ((5 : Fin 6))) 4 = true)
    ∧ (w24_9.hub.pcHold ((5 : Fin 6)) ≤ (w24_9.hub.chan ((5 : Fin 6))).pgHeld + 1)
    ∧ (w24_10.hub.up .ppc = true)
    ∧ (w24_10.hub.pcState ((5 : Fin 6)) = 3)
    ∧ ((w24_10.hub.chan ((5 : Fin 6))).timer = 0)
    ∧ (w24_10.hub.pcPgDelay ((5 : Fin 6)) ≤ (w24_10.hub.chan ((5 : Fin 6))).pgCount + 1)
    ∧ (w24_10.hub.rdF (Reg.PC_PG_WIN ((5 : Fin 6))) 9 0 * 100 ≤ w24_10.hub.rdF (Reg.PC_MEAS_V ((5 : Fin 6))) 31 16)
    ∧ (w24_10.hub.rdF (Reg.PC_MEAS_V ((5 : Fin 6))) 31 16 ≤ w24_10.hub.rdF (Reg.PC_PG_WIN ((5 : Fin 6))) 25 16 * 100)
    ∧ (w24_11.hub.up .ppc = true)
    ∧ (w24_11.hub.pcDriven ((5 : Fin 6)) = true)
    ∧ ((w24_11.hub.chan ((5 : Fin 6))).fast = false)
    ∧ (4 ≤ (w24_11.hub.chan ((5 : Fin 6))).outTicks)
    ∧ (w24_11.hub.rdB Reg.PMU_WAKE_EN 1 = false)
    ∧ (w24_11.hub.power.state ≠ .doze)
    ∧ (w24_12.hub.up .ppc = true)
    ∧ (w24_12.hub.pcState ((5 : Fin 6)) = 1)
    ∧ (w24_12.hub.rdB (Reg.PC_CFG ((5 : Fin 6))) 2 = true)
    ∧ (w24_12.hub.rdB (Reg.PC_STAT ((5 : Fin 6))) 6 = false)
    ∧ (w24_12.hub.rdB (Reg.PC_CFG ((5 : Fin 6))) 1 = false)
    ∧ (w24_12.hub.pcDetTime ((5 : Fin 6)) ≤ (w24_12.hub.chan ((5 : Fin 6))).detTicks + 1)
    ∧ (w24_12.hub.rdB Reg.PMU_WAKE_EN 1 = false)
    ∧ (w24_12.hub.power.state ≠ .doze)
    ∧ (w24_13.hub.up .ppc = true)
    ∧ (w24_13.hub.pcState ((5 : Fin 6)) = 1)
    ∧ (w24_13.hub.rdB (Reg.PC_CFG ((5 : Fin 6))) 2 = true)
    ∧ (w24_13.hub.rdB (Reg.PC_STAT ((5 : Fin 6))) 6 = false)
    ∧ (w24_13.hub.rdB (Reg.PC_CFG ((5 : Fin 6))) 1 = true)
    ∧ ((w24_13.hub.chan ((5 : Fin 6))).inWin = true)
    ∧ (w24_13.hub.pcDetTime ((5 : Fin 6)) ≤ (w24_13.hub.chan ((5 : Fin 6))).detTicks + 1)
    ∧ (w24_13.hub.rdB Reg.PMU_WAKE_EN 1 = false)
    ∧ (w24_13.hub.power.state ≠ .doze)
    ∧ (w24_14.hub.up .ppc = true)
    ∧ (w24_14.hub.pcState ((5 : Fin 6)) = 1)
    ∧ (w24_14.hub.rdB (Reg.PC_CFG ((5 : Fin 6))) 2 = true)
    ∧ (w24_14.hub.rdB (Reg.PC_STAT ((5 : Fin 6))) 6 = true)
    ∧ (w24_14.hub.pcDetTime ((5 : Fin 6)) ≤ (w24_14.hub.chan ((5 : Fin 6))).detTicks + 1)
    ∧ (w24_14.hub.rdB Reg.PMU_WAKE_EN 1 = false)
    ∧ (w24_14.hub.power.state ≠ .doze)
    ∧ (w24_15.hub.up .ppc = true)
    ∧ (w24_16.hub.up .ppc = true)
    ∧ (((List.replicate 6 ⟨12000, 3000, 5, 500, 10, false⟩ : List PpcSample)).length = 6)
    ∧ (w24_16.hub.rdB Reg.PMU_WAKE_EN 1 = false)
    ∧ (w24_16.hub.power.state ≠ .doze)
    ∧ (w24_16.hub.rdB (Reg.PC_CFG ((5 : Fin 6))) 0 = true)
    ∧ ((w24_16.hub.chan ((5 : Fin 6))).ctl = 1)
    ∧ (w24_16.hub.pcState ((5 : Fin 6)) = 1)
    ∧ (w24_16.hub.rdB (Reg.PC_CFG ((5 : Fin 6))) 2 = false)
    ∧ (w24_17.hub.up .ppc = true)
    ∧ (((List.replicate 6 ⟨12000, 3000, 5, 500, 10, false⟩ : List PpcSample)).length = 6)
    ∧ (w24_17.hub.rdB Reg.PMU_WAKE_EN 1 = false)
    ∧ (w24_17.hub.power.state ≠ .doze)
    ∧ (w24_17.hub.rdB (Reg.PC_CFG ((5 : Fin 6))) 0 = true)
    ∧ ((w24_17.hub.chan ((5 : Fin 6))).ctl = 2)
    ∧ (w24_17.hub.rdB (Reg.PC_CFG ((5 : Fin 6))) 2 = false)
    ∧ ((w24_17.hub.pcState ((5 : Fin 6)) = 2 ∨ w24_17.hub.pcState ((5 : Fin 6)) = 3 ∨ w24_17.hub.pcState ((5 : Fin 6)) = 4 ∨ w24_17.hub.pcState ((5 : Fin 6)) = 6))
    ∧ (w24_18.hub.up .ppc = true)
    ∧ (((List.replicate 6 ⟨12000, 3000, 5, 500, 10, false⟩ : List PpcSample)).length = 6)
    ∧ (w24_18.hub.rdB Reg.PMU_WAKE_EN 1 = false)
    ∧ (w24_18.hub.power.state ≠ .doze)
    ∧ (w24_18.hub.rdB (Reg.PC_CFG ((5 : Fin 6))) 0 = true)
    ∧ ((w24_18.hub.chan ((5 : Fin 6))).ctl = 2)
    ∧ (w24_18.hub.pcState ((5 : Fin 6)) = 5)
    ∧ (w24_19.hub.up .ppc = true)
    ∧ (((List.replicate 6 ⟨12000, 3000, 5, 500, 10, false⟩ : List PpcSample)).length = 6)
    ∧ (w24_19.hub.rdB Reg.PMU_WAKE_EN 1 = false)
    ∧ (w24_19.hub.power.state ≠ .doze)
    ∧ (w24_19.hub.rdB (Reg.PC_CFG ((5 : Fin 6))) 0 = true)
    ∧ ((w24_19.hub.chan ((5 : Fin 6))).ctl = 4)
    ∧ (w24_19.hub.rdB (Reg.PC_CFG ((5 : Fin 6))) 2 = false)
    ∧ (w24_19.hub.pcState ((5 : Fin 6)) = 5)
    ∧ (w24_20.hub.up .ppc = true)
    ∧ (w24_21.hub.up .ppc = true)
    ∧ (w24_21.hub.pcDriven ((5 : Fin 6)) = true)
    ∧ (w24_21.hub.pcFault ((5 : Fin 6)) ≤ (w24_21.hub.chan ((5 : Fin 6))).timer + 1)
    ∧ (w24_22.hub.up .ppc = true)
    ∧ (w24_22.hub.pcState ((5 : Fin 6)) = 3)
    ∧ (9 ≤ (w24_22.hub.chan ((5 : Fin 6))).underTicks)
    ∧ (w24_23.hub.up .ppc = true)
    ∧ (9 ≤ (w24_23.hub.chan ((5 : Fin 6))).tempTicks)
    ∧ (w24_24.hub.up .ppc = true)
    ∧ (w24_24.hub.pcState ((5 : Fin 6)) = 6)
    ∧ (w24_24.hub.pcCool ((5 : Fin 6)) = true)
    ∧ (9999 ≤ (w24_24.hub.chan ((5 : Fin 6))).inTicks)
    ∧ (w24_25.hub.up .ppc = true)
    ∧ (w24_25.hub.pcDriven ((5 : Fin 6)) = true)
    ∧ (4 ≤ (w24_25.hub.chan ((5 : Fin 6))).outTicks)
    ∧ (w24_26.hub.up .ppc = true)
    ∧ (w24_26.hub.pcState ((5 : Fin 6)) = 1)
    ∧ (w24_26.hub.rdB (Reg.PC_CFG ((5 : Fin 6))) 2 = true)
    ∧ (w24_26.hub.pcDetTime ((5 : Fin 6)) ≤ (w24_26.hub.chan ((5 : Fin 6))).detTicks + 1) := by
  and_intros <;> decide +kernel

def w25_1 : State := on rootS fun h => ((ask .ksi 0x10 [9] h).wr Reg.KSI_CR_CTR 0xFFFFFFFE).updKsi fun x => { x with slots := [(9, ({ type := 1, challenge := true, remote := true, len := 4, ctr := 3, key := [1, 2, 3, 4] } : KeySlot))] }

def w25_2 : State := on rootS fun h => (ask .ksi 0x10 [9] h)

def w25_3 : State := on rootS fun h => (ask .ksi 0x10 [9] h).updKsi fun x => { x with lost := true }

def w25_4 : State := on rootS fun h => (((h.wr (Reg.KL_STATE 2) 5).wr (Reg.KL_ROUTE 2) 0x3FFF0000).setCtx 2 { state := .resident, handle := 0xFFC000, port := 2, tc := 6, inseq := 65535 }).updKsi fun x => { x with slots := [(9, ({ type := 1, challenge := true, remote := true, len := 4, ctr := 3, key := [1, 2, 3, 4] } : KeySlot))] }

def w25_5 : State := on rootS fun h => (ask .ksi 0x11 [0] h).updKsi fun x => { x with slots := [(0, ({ type := 2, len := 4, key := [1, 2, 3, 4] } : KeySlot))] }

def w25_6 : State := on rootS fun h => later 2000000000 <| (ask .ksi 0x11 [0] h)

def w25_7 : State := on rootS fun h => (((h.wr (Reg.KL_STATE 2) 5).wr (Reg.KL_ROUTE 2) 0x3FFF0000).setCtx 2 { state := .resident, handle := 0xFFC000, port := 2, tc := 6, inseq := 65535 })

def w25_8 : State := on rootS fun h => (ask .ksi 0x12 [] h)

def w25_9 : State := on rootS fun h => (ask .ksi 0x12 [] h).updKsi fun x => { x with lost := true }

def w25_10 : State := on rootS fun h => (ask .ksi 0x12 [] h).updKsi fun x => { x with slots := [(0, ({ type := 2, len := 4, key := [1, 2, 3, 4] } : KeySlot))] }

def w25_11 : State := on rootS fun h => (ask .ksi 0x13 [1, 4] h).updKsi fun x => { x with caCert := [1, 2, 3, 4, 5, 6] }

def w25_12 : State := on rootS fun h => (ask .ksi 0x14 [] h).updKsi fun x => { x with slots := [(9, ({ type := 1, challenge := true, remote := true, len := 4, ctr := 3, key := [1, 2, 3, 4] } : KeySlot))] }

def w25_13 : State := on rootS fun h => (ask .ksi 0x14 [] h).updMbx .ksi fun m => { m with src := 1 }

def w25_14 : State := on rootS fun h => (ask .ksi 0x11 [] { h with time := { h.time with ns := 2 ^ 64 + 5 } }).updKsi fun x => { x with slots := [(9, ({ type := 1, challenge := true, remote := true, len := 4, ctr := 3, key := [1, 2, 3, 4] } : KeySlot))] }

def w25_15 : State := on rootS fun h => ((h.wr Reg.KSI_TAMP_CFG 1).updPower fun x => { x with state := .dormant, phase := .rails })

def w25_16 : State := on rootS fun h => h.wr Reg.KSI_TAMP_CFG 1

def w25_17 : State := on rootS fun h => h

def w25_18 : State := on rootS fun h => (h.updKsi fun x => { x with vbatLow := true }).setLive .ksi 3 true

def w25_19 : State := on rootS fun h => (ask .ksi 0x15 [] h).updKsi fun x => { x with lost := true }

def w25_20 : State := on rootS fun h => (ask .ksi 0x15 [] h)

def w25_21 : State := on rootS fun h => (ask .ksi 0x16 [3, 2] h).updKsi fun x => { x with lost := true }

def w25_22 : State := on rootS fun h => ask .ksi 0x10 [0, 1] h

def w25_23 : State := on rootS fun h => ask .ksi 0x11 [0, 1] h

def w25_24 : State := on rootS fun h => ask .ksi 0x12 [0, 1] h

def w25_25 : State := on rootS fun h => ask .ksi 0x13 [0, 1] h

def w25_26 : State := on rootS fun h => ask .ksi 0x14 [0, 1] h

def w25_27 : State := on rootS fun h => ask .ksi 0x15 [0, 1] h

def w25_28 : State := on rootS fun h => ask .ksi 0x16 [0, 1] h

def w25_29 : State := on rootS fun h => (((h.wr (Reg.KL_STATE 2) 5).wr (Reg.KL_ROUTE 2) 0x3FFF0000).setCtx 2 { state := .resident, handle := 0xFFC000, port := 2, tc := 6, inseq := 65535 }).updKsi fun x => { x with slots := [(9, ({ type := 1, challenge := true, remote := true, len := 4, ctr := 3, key := [1, 2, 3, 4] } : KeySlot))] }

def w25_30 : State := on rootS fun h => ((h.wr Reg.KSI_TAMP_CFG 1).updPower fun x => { x with state := .dormant, phase := .rails })

/-- The hypotheses of Obligations.KeysAndTamper hold somewhere, clause by clause. -/
theorem wit_keysAndTamper :
    (w25_1.hub.opRunning .ksi 0x10 = true)
    ∧ (w25_1.hub.present .ksi = true)
    ∧ (w25_1.hub.ksi.kat = 0)
    ∧ (w25_1.hub.ksi.lost = false)
    ∧ ((9) = fld (w25_1.hub.arg .ksi 0) 5 0)
    ∧ ((({ type := 1, challenge := true, remote := true, len := 4, ctr := 3, key := [1, 2, 3, 4] } : KeySlot)) = w25_1.hub.keySlot (9))
    ∧ ((({ type := 1, challenge := true, remote := true, len := 4, ctr := 3, key := [1, 2, 3, 4] } : KeySlot)).type = 1)
    ∧ ((({ type := 1, challenge := true, remote := true, len := 4, ctr := 3, key := [1, 2, 3, 4] } : KeySlot)).challenge = true)
    ∧ (((({ type := 1, challenge := true, remote := true, len := 4, ctr := 3, key := [1, 2, 3, 4] } : KeySlot)).remote = true ∨ w25_1.hub.ksiSrc ≠ 1))
    ∧ ((0xFFFFFFFE) = (w25_1.hub.rd Reg.KSI_CR_CTR).toNat)
    ∧ ((0xFFFFFFFE) ≠ 0xFFFFFFFF)
    ∧ (w25_2.hub.opRunning .ksi 0x10 = true)
    ∧ (w25_2.hub.present .ksi = true)
    ∧ (w25_2.hub.ksi.kat = 0)
    ∧ (w25_2.hub.ksi.lost = false)
    ∧ ((w25_2.hub.keySlot (fld (w25_2.hub.arg .ksi 0) 5 0)).type ≠ 1)
    ∧ (w25_3.hub.opRunning .ksi 0x10 = true)
    ∧ (w25_3.hub.present .ksi = true)
    ∧ (w25_3.hub.ksi.kat ≠ 0 ∨ w25_3.hub.ksi.lost = true)
    ∧ (w25_4.hub.mainUp = true)
    ∧ (w25_4.hub.up .ksi = true)
    ∧ (w25_4.hub.ksi.kat = 0)
    ∧ (w25_4.hub.ksi.lost = false)
    ∧ ((({ type := 1, challenge := true, remote := true, len := 4, ctr := 3, key := [1, 2, 3, 4] } : KeySlot)) = w25_4.hub.keySlot ((0x09 : Byte)).toNat)
    ∧ ((({ type := 1, challenge := true, remote := true, len := 4, ctr := 3, key := [1, 2, 3, 4] } : KeySlot)).type = 1)
    ∧ ((({ type := 1, challenge := true, remote := true, len := 4, ctr := 3, key := [1, 2, 3, 4] } : KeySlot)).challenge = true)
    ∧ ((({ type := 1, challenge := true, remote := true, len := 4, ctr := 3, key := [1, 2, 3, 4] } : KeySlot)).remote = true)
    ∧ ((0) = (w25_4.hub.rd Reg.KSI_CR_CTR).toNat)
    ∧ ((0) ≠ 0xFFFFFFFF)
    ∧ (w25_4.hub.route ((5 : BitVec 14)).toNat = some (2))
    ∧ ((w25_4.hub.waits.all fun w => decide (w.slot ≠ some (2))) = true)
    ∧ (w25_4.hub.verdict (2) 0x11 (w25_4.hub.ctx (2)).tc 1 = .accept (4) 0)
    ∧ (w25_5.hub.opRunning .ksi 0x11 = true)
    ∧ (w25_5.hub.present .ksi = true)
    ∧ (w25_5.hub.ksi.kat = 0)
    ∧ (w25_5.hub.ksi.lost = false)
    ∧ ((([] : List Byte)) = w25_5.hub.ksiBuf (min (w25_5.hub.arg .ksi 0).toNat 2048))
    ∧ ((0) = msgF (([] : List Byte)) 6 1)
    ∧ ((0) = msgF (([] : List Byte)) 60 8)
    ∧ ((0) = msgF (([] : List Byte)) 165 1)
    ∧ (w25_6.hub.opRunning .ksi 0x11 = true)
    ∧ ((w25_6.hub.mbx .ksi).postedAt + 2000000000 ≤ w25_6.hub.mono)
    ∧ (w25_7.hub.mainUp = true)
    ∧ (w25_7.hub.up .ksi = true)
    ∧ (w25_7.hub.route ((5 : BitVec 14)).toNat = some (2))
    ∧ ((w25_7.hub.waits.all fun w => decide (w.slot ≠ some (2))) = true)
    ∧ (w25_7.hub.verdict (2) 0x11 (w25_7.hub.ctx (2)).tc 1 = .accept (4) 0)
    ∧ (w25_8.hub.opRunning .ksi 0x12 = true)
    ∧ (w25_8.hub.present .ksi = true)
    ∧ (w25_8.hub.ksi.kat = 0)
    ∧ (w25_8.hub.ksi.lost = false)
    ∧ (w25_8.hub.ksiLocal = true)
    ∧ ((w25_8.hub.keySlot 0).type = 0)
    ∧ (((List.replicate 97 0 : List Byte)) = w25_8.hub.ksiBuf 97)
    ∧ (w25_9.hub.opRunning .ksi 0x12 = true)
    ∧ (w25_9.hub.present .ksi = true)
    ∧ (w25_9.hub.ksi.kat = 0)
    ∧ (w25_9.hub.ksi.lost = true)
    ∧ (w25_10.hub.opRunning .ksi 0x12 = true)
    ∧ (w25_10.hub.present .ksi = true)
    ∧ (w25_10.hub.ksi.kat = 0)
    ∧ (w25_10.hub.ksi.lost = false)
    ∧ (w25_10.hub.ksiLocal = false ∨ (w25_10.hub.keySlot 0).type ≠ 0)
    ∧ (w25_11.hub.opRunning .ksi 0x13 = true)
    ∧ (w25_11.hub.present .ksi = true)
    ∧ (w25_11.hub.arg .ksi 0 ∈ [0, 1])
    ∧ ((([1, 2, 3, 4, 5, 6] : List Byte)) = (if w25_11.hub.arg .ksi 0 = 0 then w25_11.hub.ksi.devCert else w25_11.hub.ksi.caCert))
    ∧ ((4) = (w25_11.hub.arg .ksi 1).toNat)
    ∧ ((4) % 4 = 0)
    ∧ ((4) < (([1, 2, 3, 4, 5, 6] : List Byte)).length)
    ∧ ((([5, 6] ++ List.replicate 20 0 : List Byte)) = ((([1, 2, 3, 4, 5, 6] : List Byte)).drop (4)).take 20 ++ List.replicate 20 0)
    ∧ (w25_12.hub.opRunning .ksi 0x14 = true)
    ∧ (w25_12.hub.present .ksi = true)
    ∧ (w25_12.hub.ksiLocal = true)
    ∧ (w25_13.hub.opRunning .ksi 0x14 = true)
    ∧ (w25_13.hub.present .ksi = true)
    ∧ (w25_13.hub.ksiLocal = false)
    ∧ (w25_14.hub.power.state = .run)
    ∧ (w25_14.hub.mainUp = true)
    ∧ (w25_14.hub.rdF Reg.PMU_STATE 2 0 ≠ 4)
    ∧ ((2 ≤ ((5 : Fin 6)).val ∨ w25_14.hub.rdB Reg.KSI_TAMP_CFG ((5 : Fin 6)) = true))
    ∧ (w25_15.hub.power.state ∈ [.nap, .dormant])
    ∧ (w25_15.hub.power.wakeLatch = none)
    ∧ ((2 ≤ ((0 : Fin 6)).val ∨ w25_15.hub.rdB Reg.KSI_TAMP_CFG ((0 : Fin 6)) = true))
    ∧ (w25_16.hub.up .ksi = true)
    ∧ (w25_17.hub.up .ksi = true)
    ∧ (w25_17.hub.ksi.vbatLow = false)
    ∧ (w25_18.hub.up .ksi = true)
    ∧ (w25_19.hub.opRunning .ksi 0x15 = true)
    ∧ (w25_19.hub.present .ksi = true)
    ∧ (w25_19.hub.ksi.kat = 0)
    ∧ (w25_19.hub.ksi.lost = true)
    ∧ (w25_20.hub.opRunning .ksi 0x15 = true)
    ∧ (w25_20.hub.present .ksi = true)
    ∧ (w25_20.hub.ksi.kat = 0)
    ∧ (w25_20.hub.ksi.lost = false)
    ∧ (w25_21.hub.opRunning .ksi 0x16 = true)
    ∧ (w25_21.hub.present .ksi = true)
    ∧ (w25_21.hub.ksi.kat = 0)
    ∧ (w25_21.hub.ksi.lost = true)
    ∧ ((3) = (w25_21.hub.arg .ksi 0).toNat)
    ∧ ((2) = (w25_21.hub.arg .ksi 1).toNat)
    ∧ ((3) ≤ 1024)
    ∧ ((2) ≤ 1024)
    ∧ ((([0, 0, 0] : List Byte)) = (w25_21.hub.ksiBuf ((3) + (2))).take (3))
    ∧ ((([0, 0] : List Byte)) = (w25_21.hub.ksiBuf ((3) + (2))).drop (3))
    ∧ (w25_22.hub.opRunning .ksi 0x10 = true)
    ∧ (w25_23.hub.opRunning .ksi 0x11 = true)
    ∧ (w25_24.hub.opRunning .ksi 0x12 = true)
    ∧ (w25_25.hub.opRunning .ksi 0x13 = true)
    ∧ (w25_26.hub.opRunning .ksi 0x14 = true)
    ∧ (w25_27.hub.opRunning .ksi 0x15 = true)
    ∧ (w25_28.hub.opRunning .ksi 0x16 = true)
    ∧ (w25_29.hub.mainUp = true)
    ∧ (w25_29.hub.up .ksi = true)
    ∧ ((2 ≤ ((0 : Fin 6)).val ∨ w25_30.hub.rdB Reg.KSI_TAMP_CFG ((0 : Fin 6)) = true)) := by
  and_intros <;> decide +kernel

def w26_1 : State := on leafS fun h => (h.wr (Reg.H_CFG 31) 0x70).updPmc fun x => { x with queue := [(31, [3000000, 2])], bins := [(64 * 31 + 46, 0xFFFFFFFE)] }

def w26_2 : State := on leafS fun h => { h.updPmc fun x => { x with bins := [(64 * 31 + 46, 0xFFFFFFFE), (64 * 30 + 3, 7)], frozen := [(64 * 31, 3)] } with time := { h.time with ns := 2 ^ 64 + 5 } }

def w26_3 : State := on leafS fun h => ((h.wr (Reg.PC_SEL 254) 0x200000).wr (Reg.PC_SEL 255) 0x200000).updPmc fun x => { x with cnt := [(253, 0x123456789ABC), (254, 5), (255, 0x1234567890)] }

def w26_4 : State := on leafS fun h => (h.wr (Reg.PC_SEL 255) 0x200000)

def w26_5 : State := on leafS fun h => h.updPmc fun x => { x with hold := [(255, 0xABCD)], bad := [8 * 0x206FF] }

def w26_6 : State := on leafS fun h => ((h.wr Reg.PMC_CAP_STAT 3807).wr Reg.PMC_CAP_ACK 5).updPmc fun x => { x with capture := [(3, 4, 0), (255, 16, 1)], lastDec := [(255, (⟨5, 7, false, 9, -1, 3, 1, 2, 3, 4⟩ : PmcDec))] }

def w26_7 : State := on leafS fun h => ((h.wr Reg.PMC_CAP_STAT 3807).wr Reg.PMC_CAP_ACK 0).updPmc fun x => { x with capture := [(3, 4, 0), (255, 16, 1)], lastDec := [(255, (⟨5, 7, false, 9, -1, 3, 1, 2, 3, 4⟩ : PmcDec))] }

def w26_8 : State := on leafS fun h => (h.wr (Reg.BW_PEAK 0x10) 7).updPmc fun x => { x with bw := [(0x10, 2 ^ 33)] }

/-- The hypotheses of Obligations.Measurements hold somewhere, clause by clause. -/
theorem wit_measurements :
    (w26_1.hub.mainUp = true)
    ∧ (Tab.get (fun _ => []) w26_1.hub.pmc.queue ((31 : Fin 32)) = (3000000) :: ([2]))
    ∧ ((64 * 31 + binOf 7 3000000) = 64 * ((31 : Fin 32)).val + binOf (w26_1.hub.rdF (Reg.H_CFG ((31 : Fin 32))) 6 4) (3000000))
    ∧ (w26_2.hub.mainUp = true)
    ∧ (w26_3.hub.mainUp = true)
    ∧ (w26_3.hub.chained ((253 : Fin 256)) = false)
    ∧ (w26_4.hub.mainUp = true)
    ∧ (w26_4.hub.chained ((255 : Fin 256)) = true)
    ∧ (w26_5.hub.mainUp = true)
    ∧ (w26_6.hub.mainUp = true)
    ∧ (w26_6.hub.capReady = some (((255, 16, 1) : Nat × Nat × Nat)))
    ∧ (Tab.find w26_6.hub.pmc.lastDec (((255, 16, 1) : Nat × Nat × Nat)).1 = some ((⟨5, 7, false, 9, -1, 3, 1, 2, 3, 4⟩ : PmcDec)))
    ∧ ((3807) = w26_6.hub.rdF Reg.PMC_CAP_STAT 11 0)
    ∧ (w26_6.hub.capUnread ≠ 3807 ∨ w26_6.hub.rdB Reg.PMC_CTL 2 = true)
    ∧ (w26_7.hub.mainUp = true)
    ∧ (w26_7.hub.capReady = some (((255, 16, 1) : Nat × Nat × Nat)))
    ∧ (Tab.find w26_7.hub.pmc.lastDec (((255, 16, 1) : Nat × Nat × Nat)).1 = some ((⟨5, 7, false, 9, -1, 3, 1, 2, 3, 4⟩ : PmcDec)))
    ∧ (w26_7.hub.capUnread = 3807)
    ∧ (w26_7.hub.rdB Reg.PMC_CTL 2 = false)
    ∧ (w26_8.hub.mainUp = true)
    ∧ (w26_8.hub.time.reached (w26_8.hub.bwWin ((0x10 : EgressNo))) = true)
    ∧ ((0xFFFFFFFF) = min (Tab.get (fun _ => 0) w26_8.hub.pmc.bw ((0x10 : EgressNo))) 0xFFFFFFFF) := by
  and_intros <;> decide +kernel

/-! ### Ill-formed terms -/

/-- One ill-formed term for each check of Instr.wellFormed, just outside its range. -/
theorem test_wellFormed_refuses : ([
    .fltStickyClear .pmc 0 (some 2),
    .commitApply .lnx 40 0,
    .authFinRx 1 true [],
    .creditAdvRx 1 (List.replicate 7 0),
    .cellRx 1 (List.replicate 17 0) [] false,
    .cellRx 1 (List.replicate 16 0) (List.replicate 257 0) false,
    .macBlockRx 1 (List.replicate 16 0),
    .creditBlockRx 1 false false 0 (List.replicate 8 0) true,
    .pageWriteRx 1 1 1 0 (List.replicate 255 0),
    .pageDataRx 1 0 (List.replicate 257 0),
    .pageDataRx 1 1 (List.replicate 256 0),
    .egressDecision 1 (some 65536),
    .pairSyncRx (List.replicate 9 0) false 1,
    .lostNoticeRx 1 1 1 (List.replicate 9 0),
    .arbiterDecision .kll 8 [200] none,
    .arbiterDecision .kll 8 [1, 1] none,
    .arbiterDecision .kll 8 [1] (some 2),
    .arbiterDecision .kll 30 [] none,
    .arbWaitMaxClr .kll 30,
    .auxXfer (List.replicate 9 none)] : List Instr).all (fun i => !i.wellFormed) = true := by
  decide +kernel

/-- The rest of the checks. -/
theorem test_wellFormed_refuses' : ([
    .auxXfer [some (16, [])],
    .auxXfer [some (0, List.replicate 17 0)],
    .csiLineRx 1 0 0 (List.replicate 65536 0) .good,
    .pcieRequestRx ⟨0, false, 0, 4, 16, 0, 0, []⟩,
    .pcieRequestRx ⟨0, false, 0, 4, 0, 16, 0, []⟩,
    .pcieRequestRx ⟨0, false, 0, 4, 15, 0, 256, []⟩,
    .pcieRequestRx ⟨0, false, 0, 0, 15, 0, 0, []⟩,
    .pcieRequestRx ⟨0, false, 0xFFC, 5, 15, 1, 0, []⟩,
    .pcieRequestRx ⟨0, true, 0, 4, 15, 0, 0, [1, 2, 3]⟩,
    .usbSplitTransaction 1 1 1 false 2 true false false (List.replicate 1025 0),
    .usbSplitTransaction 1 1 1 false 0 true true false (List.replicate 7 0),
    .ppcTick [],
    .challengeMsgRx 1 1 (List.replicate 31 0),
    .faultEvent .pmc 2 none none,
    .compactWindowEnd .sit 7,
    .sitTestRun 1 40 true 0,
    .checkerLock 1 2 1,
    .pcieLinkUp 1 1 1024 true true] : List Instr).all (fun i => !i.wellFormed) = true := by
  decide +kernel

/-! ### Hypotheses that the witnesses above leave out -/

/-- Obligations.ArbiterChoice: a choice is made, and none is made without a requester. -/
theorem wit_arbiterChoice : rootS.hub.arbChoose .kll 8 [0, 2, 4] = some 2 ∧ rootS.hub.arbChoose .kll 8 [] = none
    ∧ (arbBases .kll 8).isSome = true := by
  and_intros <;> decide +kernel

/-- Obligations.LinkCells, the code that differs from the right one. -/
theorem wit_linkCells_code : 0#8 :: tc6Code [] 0 0xFFC000 0 [] ≠ tc6Code [] 0 0xFFC000 0 [] := List.cons_ne_self _ _

/-- Obligations.StepRunsFront: an idle hub, with its main die up, held, and before POR's release. -/
theorem wit_stepRunsFront : rootS.pending = [] ∧ rootS.hub.mainUp = true
    ∧ (on rootS fun h => h.updPower fun p => { p with phase := .rails }).hub.mainUp = false
    ∧ (on rootS fun h => h.updPower fun p => { p with phase := .rails }).hub.custodyUp = true
    ∧ (on rootS fun h => h.updPower fun p => { p with phase := .por }).hub.mainUp = false
    ∧ (on rootS fun h => h.updPower fun p => { p with phase := .por }).hub.custodyUp = false := by
  and_intros <;> decide +kernel

/-- Obligations.StepsKeepSound: a sound hub. -/
theorem wit_stepsKeepSound : rootS.hub.Sound := by unfold Hub.Sound; decide +kernel

end Sys2Proof.Tests
end

section
/-! SUPPORT. What an access of one register word does (R9, R65, R66, R73): where an address lies, when a register answers, what a read
and a write of page 0 do, and what TSC's watch at the end of a cycle may change. -/

namespace Sys2Proof

/-! ### Addresses -/

theorem Block.mem_all (b : Block) : b ∈ Block.all := by cases b <;> decide

theorem Block.base_mod (b : Block) : b.base % 0x100000 = 0 := by cases b <;> rfl

theorem Block.base_injective {b c : Block} (h : b.base = c.base) : b = c :=
  (by decide : ∀ b ∈ Block.all, ∀ c ∈ Block.all, b.base = c.base → b = c) b b.mem_all c c.mem_all h

/-- The 1 MiB regions of the blocks are apart (Table 1.1). -/
theorem Block.at_eq_some {b : Block} {a : Nat} (hl : b.base ≤ a) (hu : a < b.base + 0x100000) : Block.at a = some b := by
  have hsome : (Block.at a).isSome := List.find?_isSome.mpr ⟨b, b.mem_all, by simp [hl, hu]⟩
  obtain ⟨c, hc⟩ := Option.isSome_iff_exists.mp hsome
  have hca := List.find?_some hc
  simp only [Bool.and_eq_true, decide_eq_true_eq] at hca
  have hbase : c.base = b.base := by
    have := b.base_mod
    have := c.base_mod
    omega
  exact hc.trans (congrArg some (Block.base_injective hbase))

theorem Block.at_base_add (b : Block) {o : Nat} (ho : o < 0x100000) : Block.at (b.base + o) = some b :=
  Block.at_eq_some (Nat.le_add_right _ _) (Nat.add_lt_add_left ho _)

theorem Block.base_add_mod_page (b : Block) (o : Nat) : (b.base + o) % 0x1000 = o % 0x1000 := by
  have := b.base_mod
  omega

end Sys2Proof

namespace Sys2Proof.Machine

theorem pageOf_base_add (b : Block) {o : Nat} (ho : o < 0x100000) : pageOf (b.base + o) = o / 0x1000 := by
  have := b.base_mod
  unfold pageOf
  omega

/-! ### Which registers answer -/

theorem Hub.mainUp_iff {h : Hub} : h.mainUp = true ↔ h.power.phase = .running ∧ (h.power.state = .run ∨ h.power.state = .doze) := by
  simp [Hub.mainUp]

theorem Hub.mainUp_congr {h k : Hub} (hp : k.power = h.power) : k.mainUp = h.mainUp := by unfold Hub.mainUp; rw [hp]

/-- While the main die runs, every block answers by every path (R45). -/
theorem Hub.reaches_of_mainUp {h : Hub} (hm : h.mainUp = true) (b : Block) (p : Path) (w : Bool) : h.reaches b p w = true := by
  obtain ⟨hphase, hstate | hstate⟩ := Hub.mainUp_iff.mp hm <;> simp [Hub.reaches, hm, hphase, hstate]

/-- By SMBus the custody die answers from the release of POR on, after OFF to reads alone (R45, R434). -/
theorem Hub.reaches_smbus {h : Hub} {b : Block} {w : Bool} (hphase : h.power.phase ≠ .por)
    (hstate : h.power.state ≠ .off ∨ w = false) (hb : b.custody = true ∨ h.mainUp = true) : h.reaches b .smbus w = true := by
  rcases hb with hc | hm
  · rcases hstate with hs | rfl <;> simp_all [Hub.reaches]
  · exact Hub.reaches_of_mainUp hm b _ w

theorem Hub.clockFor_of_page0 (h : Hub) (b : Block) {a : Nat} (ha : pageOf a = 0) : h.clockFor b a = h := by
  simp [Hub.clockFor, ha]

theorem Hub.clockFor_of_absent {h : Hub} {b : Block} (hb : h.present b = false) (a : Nat) : h.clockFor b a = h := by
  simp [Hub.clockFor, hb]

theorem sitMain_of_page_ne {b : Block} {a : Nat} (ha : pageOf a ≠ 1) : sitMain b a = false := by simp [sitMain, ha]

/-! ### TSC's watch -/

/-- A command that moves no cell: TSC's watch may lower TSC_KITTY_MIN and raise TSC's attention, and does nothing else (R187). -/
theorem Hub.tscWatch_cases {o n : Hub} (hc : n.cells = o.cells) :
    ∃ m, (m = n ∨ m = n.wrF Reg.TSC_KITTY_MIN 16 0 n.counts.kitty.toNat)
      ∧ (o.tscWatch n = m ∨ o.tscWatch n = m.attn .tsc 8) := by
  refine ⟨if n.counts.kitty.toNat < n.rdF Reg.TSC_KITTY_MIN 16 0 then n.wrF Reg.TSC_KITTY_MIN 16 0 n.counts.kitty.toNat else n,
    ?_, ?_⟩
  · split
    · exact .inr rfl
    · exact .inl rfl
  · unfold Hub.tscWatch
    dsimp only
    split_ifs <;> simp_all

theorem Frame.tscWatch {h k o : Hub} {ps : List Part} {rs : Set Nat} {bs : List Block} (a : Frame h k ps rs bs)
    (hc : k.cells = o.cells) (hr : Reg.TSC_KITTY_MIN ∈ rs) (hb : Block.tsc ∈ bs) : Frame h (o.tscWatch k) ps rs bs := by
  obtain ⟨m, rfl | rfl, e | e⟩ := Hub.tscWatch_cases hc <;> rw [e]
  · exact a
  · exact a.attn hb
  · exact a.wrF hr
  · exact (a.wrF hr).attn hb

/-- What TSC's watch leaves alone: what the command sends out, and of each header ATTN_EN and the mailbox. -/
theorem Hub.tscWatch_keeps {o n : Hub} (hc : n.cells = o.cells) :
    (o.tscWatch n).out = n.out
    ∧ ∀ b, ((o.tscWatch n).hdr b).attnEn = (n.hdr b).attnEn ∧ ((o.tscWatch n).hdr b).mbx = (n.hdr b).mbx := by
  have hattn (m : Hub) (b : Block) :
      ((m.attn .tsc 8).hdr b).attnEn = (m.hdr b).attnEn ∧ ((m.attn .tsc 8).hdr b).mbx = (m.hdr b).mbx := by
    rw [Hub.attn, Hub.hdr_updHdr]
    split
    · rename_i hb; subst hb; exact ⟨rfl, rfl⟩
    · exact ⟨rfl, rfl⟩
  obtain ⟨m, rfl | rfl, e | e⟩ := Hub.tscWatch_cases hc <;> rw [e]
  · exact ⟨rfl, fun _ => ⟨rfl, rfl⟩⟩
  · exact ⟨rfl, hattn _⟩
  · exact ⟨rfl, fun _ => ⟨rfl, rfl⟩⟩
  · exact ⟨rfl, hattn _⟩

/-! ### One access as one steward cycle -/

/-- The end of an access: TSC's watch, and `settle` (R71, R187). -/
def Hub.cycleEnd (o n : Hub) : Hub := settle o (o.tscWatch n)

theorem Frame.cycleEnd {h k o : Hub} {ps : List Part} {rs : Set Nat} {bs : List Block} (a : Frame h k ps rs bs)
    (hc : k.cells = o.cells) (hr : Reg.TSC_KITTY_MIN ∈ rs) (hb : Block.tsc ∈ bs) : Frame h (o.cycleEnd k) ps rs bs :=
  (a.tscWatch hc hr hb).settle o

theorem Hub.cycleEnd_out {o n : Hub} (hc : n.cells = o.cells) : (o.cycleEnd n).out = n.out :=
  (settle_out _ _).trans (Hub.tscWatch_keeps hc).1

theorem Hub.cycleEnd_attnEn {o n : Hub} (hc : n.cells = o.cells) (b : Block) :
    ((o.cycleEnd n).hdr b).attnEn = (n.hdr b).attnEn := by
  obtain ⟨-, -, -, -, -, -, -, hattnEn, -⟩ := settle_hdr_fields o (o.tscWatch n) b
  exact hattnEn.trans ((Hub.tscWatch_keeps hc).2 b).1

theorem Hub.cycleEnd_mbx {o n : Hub} (hc : n.cells = o.cells) (b : Block) : (o.cycleEnd n).mbx b = n.mbx b := by
  obtain ⟨-, -, -, hmbx, -⟩ := settle_hdr_fields o (o.tscWatch n) b
  exact hmbx.trans ((Hub.tscWatch_keeps hc).2 b).2

theorem Hub.srstOf_eq_none {b : Block} {a : Nat} (hb : Block.at a = some b) (ha : a ≠ b.base + 8) (h : Hub) (p : Path) (v : Word) :
    h.srstOf p a v = none := by
  simp [Hub.srstOf, hb, ha]

/-- A write that is no write of BLK_CTRL is the bus write and the end of the cycle. -/
theorem Hub.writeWord_eq {b : Block} {a : Nat} (hb : Block.at a = some b) (ha : a ≠ b.base + 8) (h : Hub) (p : Path) (v : Word) :
    h.writeWord p a v = h.cycleEnd (h.busWrite p a v) := by
  unfold Hub.writeWord
  rw [Hub.srstOf_eq_none hb ha]
  rfl

/-! ### Accesses that a register answers -/

theorem Hub.busWrite_eq {h : Hub} {b : Block} {p : Path} {a : Nat} (hb : Block.at a = some b) (h4 : a % 4 = 0)
    (hr : h.reaches b p true = true) (hs : (sitMain b a && !h.mainUp) = false) (v : Word) :
    h.busWrite p a v = (h.clockFor b a).poke b p a v := by
  unfold Hub.busWrite
  rw [hb]
  exact if_pos ⟨h4, hr, hs⟩

theorem Hub.busRead_eq {h : Hub} {b : Block} {p : Path} {a : Nat} (hb : Block.at a = some b) (h4 : a % 4 = 0)
    (hr : h.reaches b p false = true) (hs : (sitMain b a && !h.mainUp) = false) :
    h.busRead p a = ((h.clockFor b a).readNote b a, (h.clockFor b a).peek b p a) := by
  unfold Hub.busRead
  rw [hb]
  exact if_pos ⟨h4, hr, hs⟩

theorem Hub.poke_page0 (h : Hub) (b : Block) (p : Path) {a : Nat} (v : Word) (ha : pageOf a = 0) :
    h.poke b p a v = h.writeHdr b p (a % 0x1000) v := by
  unfold Hub.poke
  exact if_pos ha

theorem Hub.peek_page0 (h : Hub) (b : Block) (p : Path) {a : Nat} (ha : pageOf a = 0) :
    h.peek b p a = h.hdrWord b p (a % 0x1000) := by
  unfold Hub.peek
  exact if_pos ha

theorem wideHi_page0 (b : Block) {a : Nat} (ha : pageOf a = 0) : wideHi b a = none := by
  have hpos : ∀ b ∈ Block.all, ∀ e ∈ widePairs b, 1 ≤ e.1 := by decide
  simp only [wideHi, Option.map_eq_none_iff, List.find?_eq_none, ha]
  intro e he
  have := hpos b b.mem_all e he
  simp only [Bool.and_eq_true, decide_eq_true_eq]
  omega

/-- A read of page 0 does nothing besides. -/
theorem Hub.readNote_page0 (h : Hub) (b : Block) {a : Nat} (ha : pageOf a = 0) : h.readNote b a = h := by
  have hmh : a ≠ 0x1020 := by rintro rfl; exact absurd ha (by decide)
  have htime : a ≠ 0x3000 := by rintro rfl; exact absurd ha (by decide)
  simp [Hub.readNote, ha, hmh, htime, wideHi_page0 b ha]

/-! ### Page 0 -/

section
variable {h : Hub} {b : Block} {p : Path} {o : Nat} (ho : o < 0x1000) (h4 : o % 4 = 0)

include ho in
theorem pageOf_page0 : pageOf (b.base + o) = 0 := by
  rw [pageOf_base_add b (by omega)]
  omega

include h4 in
theorem Block.aligned_base_add : (b.base + o) % 4 = 0 := by
  have := b.base_mod
  omega

include ho in
theorem sitMain_page0 : (sitMain b (b.base + o) && !h.mainUp) = false := by
  rw [sitMain_of_page_ne (by rw [pageOf_page0 ho]; decide), Bool.false_and]

include ho h4

theorem Hub.busWrite_page0 (v : Word) (hr : h.reaches b p true = true) : h.busWrite p (b.base + o) v = h.writeHdr b p o v := by
  rw [Hub.busWrite_eq (Block.at_base_add b (by omega)) (Block.aligned_base_add h4) hr (sitMain_page0 ho),
    Hub.clockFor_of_page0 _ _ (pageOf_page0 ho), Hub.poke_page0 _ _ _ _ (pageOf_page0 ho), Block.base_add_mod_page,
    Nat.mod_eq_of_lt ho]

/-- A write of page 0 by a path that reaches the block, BLK_CTRL apart (Table 3.2). -/
theorem Hub.writeWord_page0 (v : Word) (hr : h.reaches b p true = true) (h8 : o ≠ 8) :
    h.writeWord p (b.base + o) v = h.cycleEnd (h.writeHdr b p o v) := by
  rw [Hub.writeWord_eq (Block.at_base_add b (by omega)) (by omega), Hub.busWrite_page0 ho h4 v hr]

/-- A read of page 0 by a path that reaches the block (Table 3.2). -/
theorem Hub.readWord_page0 (hr : h.reaches b p false = true) :
    h.readWord p (b.base + o) = (h.cycleEnd h, h.hdrWord b p o) := by
  unfold Hub.readWord
  rw [Hub.busRead_eq (Block.at_base_add b (by omega)) (Block.aligned_base_add h4) hr (sitMain_page0 ho),
    Hub.clockFor_of_page0 _ _ (pageOf_page0 ho), Hub.readNote_page0 _ _ (pageOf_page0 ho), Hub.peek_page0 _ _ _ (pageOf_page0 ho),
    Block.base_add_mod_page, Nat.mod_eq_of_lt ho]
  rfl

end

/-! ### Shadowed fields and absent blocks -/

/-- A shadow is as before where neither the shadows nor the register itself may change. -/
theorem Frame.shadow {h k : Hub} {ps : List Part} {rs : Set Nat} {bs : List Block} (f : Frame h k ps rs bs) (hp : Part.pend ∉ ps)
    {a : Nat} (ha : a ∉ rs) : k.shadow a = h.shadow a := by
  have hpend : k.pend = h.pend := f.part .pend hp
  unfold Hub.shadow
  rw [hpend, f.reg a ha]

theorem Hub.cycleEnd_shadow {o n : Hub} (hc : n.cells = o.cells) {a : Nat} (ha : a ≠ Reg.TSC_KITTY_MIN) :
    (o.cycleEnd n).shadow a = n.shadow a :=
  ((Frame.refl n).cycleEnd (ps := []) (rs := {Reg.TSC_KITTY_MIN}) (bs := [.tsc]) hc rfl List.mem_cons_self).shadow
    List.not_mem_nil ha

/-- A field that lies within a mask, of a word whose masked bits are written (R73). -/
theorem fld_masked_write {m : Word} {hi lo : Nat} (hm : ∀ j, lo ≤ j → j ≤ hi → m.getLsbD j = true) (w v : Word) :
    fld ((w &&& ~~~m) ||| (v &&& m)) hi lo = fld v hi lo := by
  apply Nat.eq_of_testBit_eq
  intro i
  rw [testBit_fld, testBit_fld]
  by_cases hi' : i < hi + 1 - lo
  · simp [hm (lo + i) (by omega) (by omega)]
  · simp [hi']

/-- A write of a register whose writable bits are all shadowed goes to the shadow alone (R73). -/
theorem Hub.writePlain_shadowed {r : RegRow} (hs : w32 r.s ≠ 0) (hic : w32 r.i ||| w32 r.c = 0) (h : Hub) (a : Nat) (v : Word) :
    h.writePlain r a v = h.wrShadow a ((h.shadow a &&& ~~~w32 r.s) ||| (v &&& w32 r.s)) := by
  unfold Hub.writePlain
  dsimp only
  rw [if_pos hic, if_neg hs]

/-- A write of a plain register. -/
theorem Hub.poke_plain {h : Hub} {b : Block} {p : Path} {a : Nat} {v : Word} {r : RegRow} (hlo : pageOf a ≠ 0)
    (hhi : pageOf a < 0xFD) (hd : h.dead b a = false) (hact : h.actWrite b p a v = none)
    (hrow : rowAt b (pageOf a) (a % 0x1000) = some r) : h.poke b p a v = h.writePlain r a v := by
  unfold Hub.poke
  dsimp only
  rw [if_neg hlo, if_neg (by omega), hd, if_neg Bool.false_ne_true, if_neg (by omega), hact, hrow]
  rfl

theorem Hub.poke_dead {h : Hub} {b : Block} {a : Nat} (hlo : pageOf a ≠ 0) (hhi : pageOf a < 0xFE) (hd : h.dead b a = true)
    (p : Path) (v : Word) : h.poke b p a v = h := by
  unfold Hub.poke
  dsimp only
  rw [if_neg hlo, if_neg (by omega), if_pos hd]

/-- A clock request outside DOZE, of another block than PXB, is the block's own affair (R20, R67). -/
theorem Frame.clockFor {h k : Hub} {ps : List Part} {rs : Set Nat} {bs : List Block} {b : Block} {a : Nat} (f : Frame h k ps rs bs)
    (hdoze : k.power.state ≠ .doze) (hpxb : b ≠ .pxb) (hb : b ∈ bs) : Frame h (k.clockFor b a) ps rs bs := by
  have hquiet (j : Hub) (hj : j.power.state ≠ .doze) : (j.pxIdle b false).dozeExit 0 = j := by
    simp [Hub.pxIdle, Hub.dozeExit, hpxb, hj]
  unfold Hub.clockFor
  split
  · rw [hquiet (k.updHdr b _) hdoze]
    exact f.updHdr hb
  · exact f

/-- A block that the role leaves out takes no write on its own pages (R12). -/
theorem Hub.busWrite_absent {h : Hub} {b : Block} {a : Nat} (hb : h.present b = false) (hlo : b.base + 0x1000 ≤ a)
    (hhi : a < b.base + 0xFE000) (p : Path) (v : Word) : h.busWrite p a v = h := by
  have hat : Block.at a = some b := Block.at_eq_some (by omega) (by omega)
  have hpage : 1 ≤ pageOf a ∧ pageOf a < 0xFE := by
    obtain ⟨o, rfl⟩ := Nat.exists_eq_add_of_le (Nat.le_of_add_right_le hlo)
    rw [pageOf_base_add b (by omega)]
    omega
  have hdead : h.dead b a = true := by
    have h0 : pageOf a ≠ 0 := by omega
    simp [Hub.dead, hb, h0, hpage.2]
  unfold Hub.busWrite
  rw [hat]
  dsimp only
  split
  · rw [Hub.clockFor_of_absent hb, Hub.poke_dead (by omega) hpage.2 hdead]
  · rfl

/-- A write of TSS_EPOCH reaches its shadow, with the clock request of TSS (R67, R73). -/
theorem Hub.busWrite_epoch {h : Hub} {p : Path} (hm : h.mainUp = true) (v : Word) :
    h.busWrite p Reg.TSS_EPOCH v =
      (h.clockFor .tss Reg.TSS_EPOCH).wrShadow Reg.TSS_EPOCH
        (((h.clockFor .tss Reg.TSS_EPOCH).shadow Reg.TSS_EPOCH &&& ~~~(0x1FF : Word)) ||| (v &&& 0x1FF)) := by
  rw [Hub.busWrite_eq (b := .tss) rfl rfl (Hub.reaches_of_mainUp hm _ _ _) rfl,
    Hub.poke_plain (r := ⟨0x1, 1, 1, 0x0, 1, 0x4, 0x8, 0, 0x1FF, 0x0, 0x0, 0x0⟩) (by decide) (by decide) rfl rfl rfl,
    Hub.writePlain_shadowed (by decide) (by decide)]
  rfl

/-! ### The bus paths, command by command -/

theorem exec_registerWrite (p : Path) (a : BitVec 26) (v : Word) (s : State) :
    exec (.registerWrite p a v) s = execRegisterWrite p a v s := rfl

theorem exec_spiWriteFrame (a : BitVec 32) (ws : List Word) (cut : Bool) (s : State) :
    exec (.spiWriteFrame a ws cut) s = execSpiWriteFrame a ws cut s := rfl

theorem exec_spiReadFrame (a : BitVec 32) (n : Nat) (s : State) :
    exec (.spiReadFrame a n) s = execSpiReadFrame a n s := rfl

theorem exec_smbusBlockWrite (a v : Word) (pec : Option Byte) (s : State) :
    exec (.smbusBlockWrite a v pec) s = execSmbusBlockWrite a v pec s := rfl

theorem exec_smbusProcessCall (a : Word) (pec : Option Byte) (s : State) :
    exec (.smbusProcessCall a pec) s = execSmbusProcessCall a pec s := rfl

theorem exec_mgmtCommandIgnored (p : Path) (c : Byte) (s : State) :
    exec (.mgmtCommandIgnored p c) s = execMgmtCommandIgnored p c s := rfl

/-- A command whose effect is known ends with what is known of the effect. -/
theorem Runs.ends {c : Instr} {s : State} {h : Hub} {ps : List Part} {rs : Set Nat} {bs : List Block} {Q : State → Prop}
    (hrun : Runs c s h) (hf : Frame s.hub h ps rs bs) (hq : Q { s with hub := h }) : Ends c s ps rs bs Q :=
  ⟨_, hrun, ⟨rfl, hf⟩, hq⟩

theorem runs_registerWrite {s : State} {p : Path} (hp : s.hub.pathOpen p = true) (a : BitVec 26) (v : Word) :
    Runs (.registerWrite p a v) s (s.hub.fresh.writeWord p a.toNat v) := by
  rw [Runs, exec_registerWrite, execRegisterWrite, actReset, if_pos hp]

theorem runs_spiWriteFrame {s : State} (hm : s.hub.mainUp = true) (a : BitVec 32) (ws : List Word) :
    Runs (.spiWriteFrame a ws false) s (s.hub.fresh.writeWords .spi a.toNat ws) := by
  simp [Runs, exec_spiWriteFrame, execSpiWriteFrame, actReset, Hub.spiUp, hm]

theorem runs_spiWriteFrame_cut (s : State) (a : BitVec 32) (ws : List Word) : Runs (.spiWriteFrame a ws true) s s.hub := by
  simp [Runs, exec_spiWriteFrame, execSpiWriteFrame, actReset]

theorem runs_spiReadFrame {s : State} (hm : s.hub.mainUp = true) (a : BitVec 32) (n : Nat) :
    Runs (.spiReadFrame a (4 * n)) s
      ((s.hub.fresh.readWords .spi a.toNat n).1.emit (.words (s.hub.fresh.readWords .spi a.toNat n).2)) := by
  simp [Runs, exec_spiReadFrame, execSpiReadFrame, actReset, Hub.spiUp, hm]

theorem runs_spiReadFrame_partial {s : State} (hm : s.hub.mainUp = true) (a : BitVec 32) {n : Nat} (hn : n % 4 ≠ 0) :
    Runs (.spiReadFrame a n) s (s.hub.fresh.emit (.words (s.hub.fresh.readWords .spi a.toNat (n / 4)).2)) := by
  simp [Runs, exec_spiReadFrame, execSpiReadFrame, actReset, Hub.spiUp, hm, hn]

theorem runs_smbusBlockWrite {s : State} {a v : Word} {pec : Option Byte} (hphase : s.hub.power.phase ≠ .por)
    (hpec : pecGood pec (s.hub.smbWriteBytes a v) = true) (ha : a.toNat ≠ Block.pmu.base + 0x40) :
    Runs (.smbusBlockWrite a v pec) s ((s.hub.fresh.writeWord .smbus a.toNat v).emit (.smbAck true)) := by
  simp [Runs, exec_smbusBlockWrite, execSmbusBlockWrite, actReset, Hub.smbUp, hphase, hpec, ha]

theorem runs_smbusBlockWrite_badPec {s : State} {a v : Word} {pec : Option Byte} (hphase : s.hub.power.phase ≠ .por)
    (hpec : pecGood pec (s.hub.smbWriteBytes a v) = false) :
    Runs (.smbusBlockWrite a v pec) s (s.hub.fresh.emit (.smbAck false)) := by
  simp [Runs, exec_smbusBlockWrite, execSmbusBlockWrite, actReset, Hub.smbUp, hphase, hpec]

theorem runs_smbusProcessCall {s : State} {a : Word} {pec : Option Byte} (hphase : s.hub.power.phase ≠ .por)
    (hpec : pecGood pec (s.hub.smbReadBytes a) = true) :
    Runs (.smbusProcessCall a pec) s (((s.hub.fresh.readWord .smbus a.toNat).1.emit (.smbAck true)).emit
      (.words ((s.hub.fresh.readWord .smbus a.toNat).2
        :: pecWords pec (s.hub.smbReadBytes a ++ s.hub.smbByte true :: 4
          :: leBytes 4 (s.hub.fresh.readWord .smbus a.toNat).2.toNat)))) := by
  simp [Runs, exec_smbusProcessCall, execSmbusProcessCall, actReset, Hub.smbUp, hphase, hpec]

theorem runs_smbusProcessCall_badPec {s : State} {a : Word} {pec : Option Byte} (hphase : s.hub.power.phase ≠ .por)
    (hpec : pecGood pec (s.hub.smbReadBytes a) = false) :
    Runs (.smbusProcessCall a pec) s (s.hub.fresh.emit (.smbAck false)) := by
  simp [Runs, exec_smbusProcessCall, execSmbusProcessCall, actReset, Hub.smbUp, hphase, hpec]

theorem runs_mgmtCommandIgnored_spi (s : State) {c : Byte} (h1 : c ≠ 0x0B) (h2 : c ≠ 0x02) :
    Runs (.mgmtCommandIgnored .spi c) s (settle s.hub s.hub.fresh) := by
  rw [ne_eq, BitVec.ofNat_eq_ofNat] at h1 h2
  simp [Runs, exec_mgmtCommandIgnored, execMgmtCommandIgnored, act, h1, h2]

theorem runs_mgmtCommandIgnored_smbus {s : State} {c : Byte} (h1 : c ≠ 0x10) (h2 : c ≠ 0x11) (hphase : s.hub.power.phase ≠ .por) :
    Runs (.mgmtCommandIgnored .smbus c) s (settle s.hub (s.hub.fresh.emit (.smbAck false))) := by
  have hup : s.hub.fresh.smbUp = true := decide_eq_true hphase
  rw [ne_eq, BitVec.ofNat_eq_ofNat] at h1 h2
  simp [Runs, exec_mgmtCommandIgnored, execMgmtCommandIgnored, act, h1, h2, hup]

/-! ### Registers of page 0 -/

/-- A write of ATTN_EN that reaches the block stores the word. -/
theorem Hub.writeWord_attnEn {h : Hub} {b : Block} {p : Path} (hr : h.reaches b p true = true) (v : Word) :
    Frame h (h.writeWord p (b.base + 0x14) v) [] {Reg.TSC_KITTY_MIN} [b, .tsc]
    ∧ ((h.writeWord p (b.base + 0x14) v).hdr b).attnEn = v := by
  have hw : h.writeWord p (b.base + 0x14) v = h.cycleEnd (h.updHdr b fun x => { x with attnEn := v }) :=
    Hub.writeWord_page0 (by decide) rfl v hr (by decide)
  rw [hw, Hub.cycleEnd_attnEn, Hub.hdr_updHdr_self]
  · exact ⟨((Frame.refl h).updHdr List.mem_cons_self).cycleEnd rfl rfl (by simp), rfl⟩
  · rfl

/-- A write of a mailbox argument that reaches the block stores the word in its place (R79). -/
theorem Hub.writeWord_arg {h : Hub} {b : Block} {p : Path} (hr : h.reaches b p true = true) {i : Nat} (hi : i < 6) (v : Word) :
    Frame h (h.writeWord p (b.base + (0x48 + 4 * i)) v) [] {Reg.TSC_KITTY_MIN} [b, .tsc]
    ∧ ((h.writeWord p (b.base + (0x48 + 4 * i)) v).mbx b).args = putAt (h.mbx b).args i v := by
  have harg : h.writeHdr b p (0x48 + 4 * i) v = h.updMbx b fun m => { m with args := putAt m.args i v } := by
    interval_cases i <;> rfl
  rw [Hub.writeWord_page0 (by omega) (by omega) v hr (by omega), harg, Hub.cycleEnd_mbx]
  · refine ⟨((Frame.refl h).updMbx List.mem_cons_self).cycleEnd rfl rfl (by simp), ?_⟩
    rw [Hub.mbx, Hub.updMbx, Hub.hdr_updHdr_self]
    rfl
  · rfl

theorem Hub.readWord_blkId {h : Hub} {b : Block} {p : Path} (hr : h.reaches b p false = true) :
    h.readWord p b.base = (h.cycleEnd h, blkId b) := by
  have hread := Hub.readWord_page0 (o := 0) (by decide) rfl hr
  rwa [Nat.add_zero] at hread

theorem Hub.readWord_blkCap {h : Hub} {b : Block} {p : Path} (hr : h.reaches b p false = true) :
    h.readWord p (b.base + 4) = (h.cycleEnd h, h.blkCap b) := Hub.readWord_page0 (by decide) rfl hr

/-- A read of page 0 changes nothing but what TSC's watch may. -/
theorem Frame.readEnd (h : Hub) : Frame h (h.cycleEnd h) [] {Reg.TSC_KITTY_MIN} [.tsc] :=
  (Frame.refl h).cycleEnd rfl rfl List.mem_cons_self

theorem Hub.readEnd_out (h : Hub) : (h.cycleEnd h).out = h.out := Hub.cycleEnd_out rfl

/-! ### The clauses of RegisterPaths -/

theorem ends_registerWrite_epoch {s : State} {p : Path} (v : Word) (hm : s.hub.mainUp = true) (hrun : s.hub.power.state = .run)
    (hp : s.hub.pathOpen p = true) :
    Ends (.registerWrite p (BitVec.ofNat 26 Reg.TSS_EPOCH) v) s [.pend] {Reg.TSC_KITTY_MIN} [.tss, .tsc] (fun t =>
      fld (t.hub.shadow Reg.TSS_EPOCH) 8 0 = fld v 8 0 ∧ t.hub.rd Reg.TSS_EPOCH = s.hub.rd Reg.TSS_EPOCH) := by
  have hdoze : s.hub.fresh.power.state ≠ .doze := by simp [Hub.fresh, hrun]
  have hclock : Frame s.hub (s.hub.fresh.clockFor .tss Reg.TSS_EPOCH) [.pend] {Reg.TSC_KITTY_MIN} [.tss, .tsc] :=
    (Frame.fresh s.hub).clockFor hdoze (by decide) List.mem_cons_self
  have hcells : (s.hub.fresh.clockFor .tss Reg.TSS_EPOCH).cells = s.hub.cells := hclock.part .cells (by decide)
  have hword : s.hub.fresh.writeWord p Reg.TSS_EPOCH v = s.hub.fresh.cycleEnd (s.hub.fresh.busWrite p Reg.TSS_EPOCH v) :=
    Hub.writeWord_eq (b := .tss) rfl (by decide) _ _ _
  rw [Hub.busWrite_epoch (h := s.hub.fresh) hm] at hword
  have hframe : Frame s.hub (s.hub.fresh.writeWord p Reg.TSS_EPOCH v) [.pend] {Reg.TSC_KITTY_MIN} [.tss, .tsc] := by
    rw [hword]
    exact (hclock.wrShadow List.mem_cons_self).cycleEnd hcells rfl (by simp)
  refine (runs_registerWrite hp _ v).ends hframe ⟨?_, hframe.reg _ (by decide)⟩
  show fld ((s.hub.fresh.writeWord p Reg.TSS_EPOCH v).shadow Reg.TSS_EPOCH) 8 0 = _
  rw [hword, Hub.cycleEnd_shadow _ (by decide), Hub.shadow_wrShadow, if_pos rfl]
  · exact fld_masked_write (by decide) _ _
  · exact hcells

theorem ends_registerWrite_absent {s : State} {p : Path} {b : Block} {a : BitVec 26} (v : Word) (hp : s.hub.pathOpen p = true)
    (hb : s.hub.present b = false) (hlo : b.base + 0x1000 ≤ a.toNat) (hhi : a.toNat < b.base + 0xFE000) :
    Ends (.registerWrite p a v) s [] {Reg.TSC_KITTY_MIN} [.tsc] (fun t => t.hub.pend = s.hub.pend) := by
  have hword : s.hub.fresh.writeWord p a.toNat v = s.hub.fresh.cycleEnd s.hub.fresh := by
    rw [Hub.writeWord_eq (Block.at_eq_some (b := b) (by omega) (by omega)) (by omega),
      Hub.busWrite_absent (h := s.hub.fresh) hb hlo hhi]
  have hframe : Frame s.hub (s.hub.fresh.writeWord p a.toNat v) [] {Reg.TSC_KITTY_MIN} [.tsc] := by
    rw [hword]
    exact (Frame.fresh s.hub).trans (Frame.readEnd _)
  exact (runs_registerWrite hp a v).ends hframe (hframe.part .pend List.not_mem_nil)

/-- A frame of two words from REQ_ARG0 on writes the first two arguments and leaves the others. -/
theorem ends_spiWriteFrame_args {s : State} {b : Block} {a : BitVec 32} (v w : Word) (hm : s.hub.mainUp = true)
    (ha : a.toNat = b.base + 0x48) (hlen : (s.hub.mbx b).args.length = 6) :
    Ends (.spiWriteFrame a [v, w] false) s [] {Reg.TSC_KITTY_MIN} [b, .tsc] (fun t =>
      (t.hub.mbx b).args.getD 0 0 = v ∧ (t.hub.mbx b).args.getD 1 0 = w
      ∧ (t.hub.mbx b).args.drop 2 = (s.hub.mbx b).args.drop 2) := by
  have hfirst := Hub.writeWord_arg (h := s.hub.fresh) (b := b) (Hub.reaches_of_mainUp (h := s.hub.fresh) hm b .spi true)
    (i := 0) (by decide) v
  generalize hk : s.hub.fresh.writeWord .spi (b.base + 0x48) v = k at hfirst
  obtain ⟨hf1, ha1⟩ := hfirst
  have hm1 : k.mainUp = true := (Hub.mainUp_congr (hf1.part .power List.not_mem_nil)).trans hm
  obtain ⟨hf2, ha2⟩ := Hub.writeWord_arg (Hub.reaches_of_mainUp hm1 b .spi true) (i := 1) (by decide) w
  have hargs : ((k.writeWord .spi (b.base + 0x4C) w).mbx b).args = putAt (putAt (s.hub.mbx b).args 0 v) 1 w := by
    rw [ha2, ha1]
    rfl
  have hwords : s.hub.fresh.writeWords .spi a.toNat [v, w] = k.writeWord .spi (b.base + 0x4C) w := by
    rw [ha, ← hk]
    rfl
  refine (runs_spiWriteFrame hm a [v, w]).ends ?_ ?_
  · rw [hwords]
    exact ((Frame.fresh s.hub).trans hf1).trans hf2
  · dsimp only
    rw [hwords, hargs]
    obtain ⟨x, y, rest, hl⟩ : ∃ x y rest, (s.hub.mbx b).args = x :: y :: rest := by
      match hl : (s.hub.mbx b).args, hlen with
      | x :: y :: rest, _ => exact ⟨x, y, rest, rfl⟩
    rw [hl]
    exact ⟨rfl, rfl, rfl⟩

/-- A frame of two words from a block's base reads BLK_ID and BLK_CAP. -/
theorem ends_spiReadFrame_id {s : State} {b : Block} {a : BitVec 32} (hm : s.hub.mainUp = true) (ha : a.toNat = b.base) :
    Ends (.spiReadFrame a 8) s [] {Reg.TSC_KITTY_MIN} [.tsc] (fun t => t.hub.out = [.words [blkId b, s.hub.blkCap b]]) := by
  have hread1 : s.hub.fresh.readWord .spi b.base = (s.hub.fresh.cycleEnd s.hub.fresh, blkId b) :=
    Hub.readWord_blkId (Hub.reaches_of_mainUp (h := s.hub.fresh) hm b _ _)
  have hf1 : Frame s.hub (s.hub.fresh.cycleEnd s.hub.fresh) [] {Reg.TSC_KITTY_MIN} [.tsc] :=
    (Frame.fresh s.hub).trans (Frame.readEnd _)
  have hout1 : (s.hub.fresh.cycleEnd s.hub.fresh).out = [] := Hub.readEnd_out _
  generalize s.hub.fresh.cycleEnd s.hub.fresh = k at hread1 hf1 hout1
  have hm1 : k.mainUp = true := (Hub.mainUp_congr (hf1.part .power List.not_mem_nil)).trans hm
  have hcap : k.blkCap b = s.hub.blkCap b := by
    have hstraps : k.straps = s.hub.straps := hf1.part .straps List.not_mem_nil
    unfold Hub.blkCap Hub.present Hub.role
    rw [hstraps]
  have hread2 : k.readWord .spi (b.base + 4) = (k.cycleEnd k, s.hub.blkCap b) := by
    rw [Hub.readWord_blkCap (Hub.reaches_of_mainUp hm1 b _ _), hcap]
  have hwords : s.hub.fresh.readWords .spi a.toNat 2 = (k.cycleEnd k, [blkId b, s.hub.blkCap b]) := by
    simp only [Hub.readWords, ha, hread1, hread2]
  have hrun := runs_spiReadFrame hm a 2
  rw [hwords] at hrun
  refine hrun.ends (hf1.trans (Frame.readEnd k)).emit ?_
  show (k.cycleEnd k).out ++ [_] = _
  rw [Hub.readEnd_out, hout1]
  rfl

theorem ends_smbusBlockWrite_attnEn {s : State} {b : Block} {a : Word} (v : Word) (hphase : s.hub.power.phase ≠ .por)
    (hstate : s.hub.power.state ≠ .off) (hb : b.custody = true ∨ s.hub.mainUp = true) (ha : a.toNat = b.base + 0x14) :
    Ends (.smbusBlockWrite a v none) s [] {Reg.TSC_KITTY_MIN} [b, .tsc] (fun t => (t.hub.hdr b).attnEn = v) := by
  have hreq : a.toNat ≠ Block.pmu.base + 0x40 := by
    have := b.base_mod
    have := Block.pmu.base_mod
    omega
  obtain ⟨hframe, hattnEn⟩ := Hub.writeWord_attnEn (Hub.reaches_smbus (h := s.hub.fresh) hphase (.inl hstate) hb) v
  rw [← ha] at hframe hattnEn
  exact (runs_smbusBlockWrite hphase rfl hreq).ends ((Frame.fresh s.hub).trans hframe).emit hattnEn

theorem ends_smbusProcessCall_id {s : State} {b : Block} {a : Word} (hphase : s.hub.power.phase ≠ .por)
    (hb : b.custody = true ∨ s.hub.mainUp = true) (ha : a.toNat = b.base) :
    Ends (.smbusProcessCall a none) s [] {Reg.TSC_KITTY_MIN} [.tsc]
      (fun t => t.hub.out = [.smbAck true, .words [blkId b]]) := by
  have hread : s.hub.fresh.readWord .smbus a.toNat = (s.hub.fresh.cycleEnd s.hub.fresh, blkId b) := by
    rw [ha]
    exact Hub.readWord_blkId (Hub.reaches_smbus (h := s.hub.fresh) hphase (.inr rfl) hb)
  have hrun := runs_smbusProcessCall (a := a) (pec := none) hphase rfl
  rw [hread] at hrun
  refine hrun.ends ((Frame.fresh s.hub).trans (Frame.readEnd _)).emit.emit ?_
  show ((s.hub.fresh.cycleEnd s.hub.fresh).out ++ [_]) ++ [_] = _
  rw [Hub.readEnd_out]
  rfl

/-- Settles O15: each clause is the run of its command with what the access, as one steward cycle, may change. -/
theorem registerPaths : Obligations.RegisterPaths := by
  unfold Obligations.RegisterPaths
  refine ⟨?attnEn, fun s p v hm hrun hp => ends_registerWrite_epoch v hm hrun hp,
    fun s p b a v _ hp hb hlo hhi => ends_registerWrite_absent v hp hb hlo hhi, fun s p a v hp => runs_registerWrite hp a v,
    fun s b a v w hm ha hlen => ends_spiWriteFrame_args v w hm ha hlen,
    fun s a ws hm => ⟨runs_spiWriteFrame hm a ws, runs_spiWriteFrame_cut s a ws⟩, fun s a n hm => runs_spiReadFrame hm a n,
    fun s a n hm hn => (runs_spiReadFrame_partial hm a hn).ends (Frame.fresh s.hub).emit rfl,
    fun s b a hm ha => ends_spiReadFrame_id hm ha,
    fun s b a v hphase hstate hb ha => ends_smbusBlockWrite_attnEn v hphase hstate hb ha,
    fun s b a hphase hb ha => ends_smbusProcessCall_id hphase hb ha,
    fun s a v pec hphase hpec ha => runs_smbusBlockWrite hphase hpec ha,
    fun s a v pec hphase hpec => (runs_smbusBlockWrite_badPec hphase hpec).ends (Frame.fresh s.hub).emit rfl,
    fun s a pec hphase hpec => runs_smbusProcessCall hphase hpec,
    fun s a pec hphase hpec => (runs_smbusProcessCall_badPec hphase hpec).ends (Frame.fresh s.hub).emit rfl,
    fun s c h1 h2 => (runs_mgmtCommandIgnored_spi s h1 h2).ends ((Frame.fresh s.hub).settle s.hub) (settle_out _ _),
    fun s c h1 h2 hphase => (runs_mgmtCommandIgnored_smbus h1 h2 hphase).ends ((Frame.fresh s.hub).emit.settle s.hub)
      (settle_out _ _)⟩
  case attnEn =>
    intro s p b a v hm hp ha
    obtain ⟨hframe, hattnEn⟩ := Hub.writeWord_attnEn (Hub.reaches_of_mainUp (h := s.hub.fresh) hm b p true) v
    rw [← ha] at hframe hattnEn
    exact (runs_registerWrite hp a v).ends ((Frame.fresh s.hub).trans hframe) hattnEn

end Sys2Proof.Machine
end

section
/-! SUPPORT. Soundness of the hub (R12, Table 10.8): the end of a command establishes it, and what acts outside the end of a command
leaves alone what it reads. -/

namespace Sys2Proof.Machine

/-! ### What soundness reads -/

/-- What `Hub.Sound` reads is the same in two hubs: straps, whether the main die runs, STW_OLOG_CFG.EN, the FIFOs of the order log and
every ENABLE. -/
structure Hub.Alike (h k : Hub) : Prop where
  straps : k.straps = h.straps
  mainUp : k.mainUp = h.mainUp
  logOn : k.rdB Reg.STW_OLOG_CFG 0 = h.rdB Reg.STW_OLOG_CFG 0
  fifos : k.olog.fifos = h.olog.fifos
  enable : ∀ b, (k.hdr b).enable = (h.hdr b).enable

theorem Hub.Sound.of_alike {h k : Hub} (hs : h.Sound) (a : h.Alike k) : k.Sound := by
  intro b hb
  obtain ⟨hen, hfifo⟩ := hs b hb
  rw [a.enable, a.mainUp, a.logOn, a.fifos, Hub.present, a.straps]
  exact ⟨hen, hfifo⟩

/-- A hub whose main die does not run is sound where no block that the straps leave out has ENABLE 1. -/
theorem Hub.sound_of_down {h : Hub} (hm : h.mainUp = false) (hen : ∀ b, (h.hdr b).enable = true → h.present b = true) : h.Sound :=
  fun b _ => ⟨hen b, fun hup => by simp [hm] at hup⟩

namespace Hub.Alike

variable {h k : Hub}

theorem refl (h : Hub) : h.Alike h := ⟨rfl, rfl, rfl, rfl, fun _ => rfl⟩

theorem trans {j : Hub} (a : h.Alike j) (b : j.Alike k) : h.Alike k :=
  ⟨b.straps.trans a.straps, b.mainUp.trans a.mainUp, b.logOn.trans a.logOn, b.fifos.trans a.fifos,
    fun c => (b.enable c).trans (a.enable c)⟩

/-- An update that keeps straps, the power state, registers, the order log and headers. -/
theorem upd {k' : Hub} (a : h.Alike k) (hs : k'.straps = k.straps) (hp : k'.power = k.power) (hr : k'.regs = k.regs)
    (ho : k'.olog = k.olog) (hh : k'.hdrs = k.hdrs) : h.Alike k' :=
  a.trans ⟨hs, Hub.mainUp_congr hp, by unfold Hub.rdB; rw [Hub.rd_congr hr hs], by rw [ho], fun b => by unfold Hub.hdr; rw [hh]⟩

theorem wr {x : Nat} {v : Word} (a : h.Alike k) (hx : Reg.STW_OLOG_CFG ≠ x) : h.Alike (k.wr x v) :=
  a.trans ⟨rfl, rfl, by unfold Hub.rdB; rw [Hub.rd_wr_ne _ _ hx], rfl, fun _ => rfl⟩

theorem updHdr {b : Block} {f : Hdr → Hdr} (a : h.Alike k) (hf : ∀ x, (f x).enable = x.enable) : h.Alike (k.updHdr b f) :=
  a.trans ⟨rfl, rfl, rfl, rfl, fun c => by
    rw [Hub.hdr_updHdr]
    split
    · rename_i hc; rw [hc, hf]
    · rfl⟩

theorem inc {x n : Nat} (a : h.Alike k) (hx : Reg.STW_OLOG_CFG ≠ x) : h.Alike (k.inc x n) := a.wr hx

theorem attn {b : Block} {i : Nat} (a : h.Alike k) : h.Alike (k.attn b i) := a.updHdr fun _ => rfl

theorem setLive {b : Block} {i : Nat} {v : Bool} (a : h.Alike k) : h.Alike (k.setLive b i v) := a.updHdr fun _ => rfl

theorem updPower {f : Power → Power} (a : h.Alike k) (hp : (f k.power).phase = k.power.phase) (hs : (f k.power).state = k.power.state) :
    h.Alike (k.updPower f) :=
  a.trans ⟨rfl, by simp only [Hub.mainUp, Hub.updPower, hp, hs], rfl, rfl, fun _ => rfl⟩

theorem foldl {α : Type} {f : Hub → α → Hub} (l : List α) (a : h.Alike k)
    (hf : ∀ x j, x ∈ l → h.Alike j → h.Alike (f j x)) : h.Alike (l.foldl f k) := by
  induction l generalizing k with
  | nil => exact a
  | cons x l ih => exact ih (hf x k List.mem_cons_self a) fun y j hy => hf y j (List.mem_cons_of_mem _ hy)

theorem faultPulse (a : h.Alike k) : h.Alike k.faultPulse := by
  unfold Hub.faultPulse
  refine attn (inc (a.upd rfl rfl rfl rfl rfl) ?_)
  decide

theorem fault {b : Block} {i : Nat} (a : h.Alike k) : h.Alike (k.fault b i) := by
  have hset : ∀ x : Hdr, x.enable = (k.hdr b).enable → h.Alike (k.setHdr b x) := fun x hx =>
    a.trans ⟨rfl, rfl, rfl, rfl, fun c => by
      rw [Hub.hdr_setHdr]
      split
      · rename_i hc; rw [hc, hx]
      · rfl⟩
  unfold Hub.fault
  dsimp only
  split
  · exact Alike.faultPulse (hset _ (by rfl))
  · exact hset _ (by rfl)

theorem opResult {b : Block} {op : Nat} {r : MbxResult} (a : h.Alike k) : h.Alike (k.opResult b op r) := by
  unfold Hub.opResult Hub.updMbx
  split
  · exact a.updHdr fun _ => rfl
  · exact a

theorem draw (a : h.Alike k) : h.Alike k.draw.2 := a.upd rfl rfl rfl rfl rfl

theorem capDue {n p : Nat} (a : h.Alike k) : h.Alike (k.capDue n p) := by
  unfold Hub.capDue
  split
  · exact a.upd rfl rfl rfl rfl rfl
  · exact a

theorem cntAdd {port : Nat} (fuel : Nat) {n m : Nat} (a : h.Alike k) : h.Alike (k.cntAdd port fuel n m) := by
  induction fuel generalizing k n m with
  | zero => exact a
  | succ fuel ih =>
    have hcnt : ∀ x, h.Alike { k with pmc := x } := fun x => a.upd rfl rfl rfl rfl rfl
    unfold Hub.cntAdd Hub.updPmc
    dsimp only
    split
    · exact hcnt _
    · split
      · exact ih (hcnt _).capDue
      · unfold Hub.cntOvf
        refine attn (wr (hcnt _).capDue ?_)
        simp only [Reg.STW_OLOG_CFG, Reg.PMC_OVF]
        omega

theorem pmcEvent {ev port tc n : Nat} (a : h.Alike k) : h.Alike (k.pmcEvent ev port tc n) := by
  unfold Hub.pmcEvent
  refine foldl _ a fun x j _ hj => ?_
  dsimp only
  split
  · exact hj.cntAdd _
  · exact hj

theorem lendCycles {n : Nat} (a : h.Alike k) : h.Alike (k.lendCycles n) := by
  unfold Hub.lendCycles
  split
  · exact a.upd rfl rfl rfl rfl rfl
  · exact a

theorem pmcTick (a : h.Alike k) : h.Alike k.pmcTick := by
  unfold Hub.pmcTick
  dsimp only
  split
  · split
    · exact (a.pmcEvent.pmcEvent.upd (k' := Hub.updPmc _ _) rfl rfl rfl rfl rfl).lendCycles
    · exact a.pmcEvent
  · exact a

theorem pxCpl {tag status : Nat} {poisoned : Bool} {data : List Byte} (a : h.Alike k) :
    h.Alike (k.pxCpl tag status poisoned data) := by
  unfold Hub.pxCpl
  split
  · exact a.upd rfl rfl rfl rfl rfl
  · exact a

end Hub.Alike

/-! ### One steward cycle -/

theorem settleFifo_off {o n : Hub} (b : Block) (h : n.rdB Reg.STW_OLOG_CFG 0 = false) : settleFifo o n b = {} := by
  simp [settleFifo, h]

/-- The end of a command leaves the hub sound, whatever the command did (R71, R12, Table 10.8). -/
theorem Hub.sound_settle (o n : Hub) : (settle o n).Sound := by
  intro b _
  constructor
  · intro hen
    rw [settle_hdr, settleHdr, Bool.and_eq_true] at hen
    rcases keepNote_eq o n with e | e <;> rw [e] at hen <;> simpa [Hub.present] using hen.2
  · intro hup hoff
    rw [settle_rdB] at hoff
    have hup' : (keepNote o n).mainUp = true := hup
    have hoff' : (keepNote o n).rdB Reg.STW_OLOG_CFG 0 = false := by
      rcases keepNote_eq o n with e | e <;> rw [e] <;> exact hoff
    show ((settleOlog o (keepNote o n)).fifos).get b = {}
    simp only [settleOlog, hup', if_true]
    rw [PerBlock.get_of, settleFifo_off b hoff']

/-- The end of a step that loads the masthead anew. -/
theorem Hub.sound_startEnd (o n : Hub) : (o.startEnd n).Sound :=
  (Hub.sound_settle o n).of_alike ((Hub.Alike.refl _).upd rfl rfl rfl rfl rfl)

theorem Hub.sound_resetEnd (o n : Hub) (b : Block) : (o.resetEnd n b).Sound := by
  unfold Hub.resetEnd
  dsimp only
  split
  · exact (Hub.sound_settle _ _).of_alike ((Hub.Alike.refl _).upd rfl rfl rfl rfl rfl)
  · exact Hub.sound_settle _ _

/-- After a WARM reset the order log is empty (Table 3.16). -/
theorem Hub.sound_warmEnd (o n : Hub) : (o.warmEnd n).Sound := by
  unfold Hub.warmEnd
  generalize hr : settle o n = r
  have hs : r.Sound := hr ▸ Hub.sound_settle o n
  intro b hb
  refine ⟨fun hen => (hs b hb).1 ?_, fun _ _ => PerBlock.get_of _ b⟩
  rwa [Hub.hdr, PerBlock.get_of] at hen

theorem Power.keepTick_phase (x : Power) : x.keepTick.phase = x.phase ∧ x.keepTick.state = x.state := by
  rw [Power.keepTick]
  split
  · exact ⟨rfl, rfl⟩
  · rw [Power.count]
    exact ⟨rfl, rfl⟩

/-- The keep clock and the time base are no part of what soundness reads. -/
theorem Hub.Alike.keepTick (h : Hub) (t : TimeBase) : h.Alike { h with time := t, power := h.power.keepTick } := by
  obtain ⟨hphase, hstate⟩ := h.power.keepTick_phase
  exact ⟨rfl, by simp only [Hub.mainUp, hphase, hstate], rfl, rfl, fun _ => rfl⟩

/-- An idle cycle keeps the hub sound. -/
theorem Hub.sound_idle {h : Hub} (hs : h.Sound) : h.idle.Sound := by
  unfold Hub.idle Hub.tick
  split
  · exact hs.of_alike (Hub.Alike.keepTick h _).pmcTick
  · split
    · exact hs.of_alike (Hub.Alike.keepTick h _)
    · exact hs

end Sys2Proof.Machine
end

section
/-! SUPPORT. Every command answers a next state and keeps the hub sound: most end in `settle`; resets and the register paths, which close
their cycles themselves, one by one. -/

namespace Sys2Proof.Machine

/-! ### POR -/

theorem Hub.por_enable (h : Hub) (st : Straps) (b : Block) : ((h.por st).hdr b).enable = st.present b := by
  show ((PerBlock.of (Hdr.reset st)).get b).enable = _
  rw [PerBlock.get_of]
  rfl

/-- Right after POR every ENABLE is as the straps say, and the main die does not run (R12, R45). -/
theorem Hub.sound_por (h : Hub) (st : Straps) {f : Power → Power} {p : Phase} (hf : (f (h.por st).power).phase = p)
    (hp : p ≠ .running) : ((h.por st).updPower f).Sound := by
  refine Hub.sound_of_down (by simp [Hub.mainUp, hf, hp]) fun b hen => ?_
  exact (Hub.por_enable h st b).symm.trans hen

namespace Hub.Alike

variable {h k : Hub}

theorem wrWide {x v : Nat} (a : h.Alike k) : h.Alike (k.wrWide x v) := a.upd rfl rfl rfl rfl rfl

theorem updKsi {f : Ksi → Ksi} (a : h.Alike k) : h.Alike (k.updKsi f) := a.upd rfl rfl rfl rfl rfl

theorem zeroize {cause : Nat} (a : h.Alike k) : h.Alike (k.zeroize cause) := by
  unfold Hub.zeroize
  dsimp only
  refine opResult (setLive (fault (attn (wrWide (inc (wr (wr a.updKsi ?_) ?_) ?_)))))
  · decide
  · decide
  · decide

/-- What KSI finds at POR release. -/
theorem ksiPor (a : h.Alike k) : h.Alike k.ksiPor := by
  unfold Hub.ksiPor
  split
  · exact a.zeroize.updPower rfl rfl
  · split
    · exact a.updHdr fun _ => rfl
    · exact a

end Hub.Alike

theorem Hub.sound_porEnd (h : Hub) (st : Straps) : (h.porEnd st).Sound :=
  (Hub.sound_por h st (p := .rails) rfl nofun).of_alike (Hub.Alike.refl _).ksiPor

/-! ### Register paths -/

theorem Hub.sound_writeWord (h : Hub) (p : Path) (a : Nat) (v : Word) : (h.writeWord p a v).Sound := by
  unfold Hub.writeWord
  dsimp only
  split
  · exact Hub.sound_resetEnd _ _ _
  · exact Hub.sound_settle _ _

theorem Hub.sound_readWord (h : Hub) (p : Path) (a : Nat) : (h.readWord p a).1.Sound := Hub.sound_settle _ _

theorem Hub.sound_writeWords {h : Hub} (hs : h.Sound) (p : Path) (a : Nat) (ws : List Word) : (h.writeWords p a ws).Sound := by
  induction ws generalizing h a with
  | nil => exact hs
  | cons w ws ih => exact ih (h.sound_writeWord p a w) _

theorem Hub.sound_readWords {h : Hub} (hs : h.Sound) (p : Path) (a n : Nat) : (h.readWords p a n).1.Sound := by
  induction n generalizing h a with
  | zero => exact hs
  | succ n ih => exact ih (h.sound_readWord p a) _

theorem Hub.Sound.fresh {h : Hub} (hs : h.Sound) : h.fresh.Sound := hs.of_alike ((Hub.Alike.refl h).upd rfl rfl rfl rfl rfl)

theorem Hub.Sound.emit {h : Hub} (hs : h.Sound) (e : Emit) : (h.emit e).Sound :=
  hs.of_alike ((Hub.Alike.refl h).upd rfl rfl rfl rfl rfl)

theorem Hub.Sound.pxCpl {h : Hub} (hs : h.Sound) (tag status : Nat) (poisoned : Bool) (data : List Byte) :
    (h.pxCpl tag status poisoned data).Sound := hs.of_alike (Hub.Alike.refl h).pxCpl

theorem Hub.Sound.smbWake {h : Hub} (hs : h.Sound) (op : Nat) : (h.smbWake op).Sound := by
  unfold Hub.smbWake
  split
  · exact Hub.sound_settle _ _
  · exact hs

theorem Hub.sound_bar2Read (h : Hub) (tag a : Nat) : (h.bar2Read tag a).Sound := by
  unfold Hub.bar2Read
  split
  · exact (h.sound_readWord _ _).pxCpl _ _ _ _
  · exact Hub.sound_settle _ _

theorem Hub.sound_bar2Write (h : Hub) (a : Nat) (v : Word) : (h.bar2Write a v).Sound := by
  unfold Hub.bar2Write
  split
  · exact h.sound_writeWord _ _ _
  · exact Hub.sound_settle _ _

theorem Hub.Sound.userRead {h : Hub} (hs : h.Sound) (tag off : Nat) : (h.userRead tag off).Sound := by
  unfold Hub.userRead
  dsimp only
  split
  · split
    · exact (h.sound_readWord _ _).pxCpl _ _ _ _
    · exact hs.pxCpl _ _ _ _
  · exact Hub.sound_settle _ _

theorem Hub.Sound.barTake {h : Hub} (hs : h.Sound) (r : PcieReq) {rd : Hub → Nat → Nat → Hub} {wr : Hub → Nat → Word → Hub}
    (hrd : ∀ tag a, (rd h tag a).Sound) (hwr : ∀ a v, (wr h a v).Sound) : (h.barTake r rd wr).Sound := by
  unfold Hub.barTake
  split_ifs
  · exact hs
  · exact hs.pxCpl _ _ _ _
  · exact hs
  · exact hs.pxCpl _ _ _ _
  · exact hwr _ _
  · exact hrd _ _

theorem Hub.Sound.pcieIn {h : Hub} (hs : h.Sound) (r : PcieReq) : (h.pcieIn r).Sound := by
  unfold Hub.pcieIn
  dsimp only
  split_ifs
  · exact hs.fresh.barTake r (fun _ _ => (Hub.sound_readWord _ _ _).pxCpl _ _ _ _) fun _ _ => Hub.sound_writeWord _ _ _ _
  · exact hs.fresh.barTake r (fun _ _ => Hub.sound_bar2Read _ _ _) fun _ _ => Hub.sound_bar2Write _ _ _
  · exact hs.fresh.barTake r (fun _ _ => hs.fresh.userRead _ _) fun _ _ => hs.fresh
  · exact Hub.sound_settle _ _

/-! ### Block transfers (R89) -/

/-- Word k of a block transfer goes to its own registers, apart from STW_OLOG_CFG. -/
theorem Hub.Sound.blockWord {h : Hub} (hs : h.Sound) {k : Nat} (status : Nat) (write : Bool) (v : Word) :
    (h.blockWord k status write v).Sound := by
  refine hs.of_alike ?_
  have hstat : h.Alike (h.blockStatus k status) := by
    refine (Hub.Alike.refl h).wr ?_
    simp only [Reg.STW_OLOG_CFG, Reg.STW_BLK_STATUS]
    omega
  unfold Hub.blockWord
  dsimp only
  split
  · refine Hub.Alike.upd (hstat.wr ?_) rfl rfl rfl rfl rfl
    simp only [Reg.STW_OLOG_CFG, Reg.STW_BLK_DATA]
    omega
  · exact hstat.upd rfl rfl rfl rfl rfl

theorem Hub.Sound.blockLocal {h : Hub} (write : Bool) (a k : Nat) : (h.blockLocal write a k).Sound := by
  unfold Hub.blockLocal
  split
  · exact (h.sound_writeWord _ _ _).blockWord _ _ _
  · exact (h.sound_readWord _ _).blockWord _ _ _

theorem Hub.Sound.blockEnd {h : Hub} (hs : h.Sound) : h.blockEnd.Sound := by
  unfold Hub.blockEnd
  dsimp only
  split_ifs
  · exact hs.of_alike (Hub.Alike.refl h).draw.opResult
  · exact hs.of_alike (Hub.Alike.refl h).opResult
  · exact hs

theorem Hub.Sound.blockStart {h : Hub} (hs : h.Sound) (write : Bool) : (h.blockStart write).Sound := by
  unfold Hub.blockStart
  dsimp only
  split
  · exact Hub.sound_settle _ _
  split
  · refine Hub.Sound.blockEnd (List.foldlRecOn _ _ (hs.of_alike ((Hub.Alike.refl h).upd rfl rfl rfl rfl rfl)) ?_)
    exact fun _ _ k _ => Hub.Sound.blockLocal _ _ k
  · exact Hub.sound_settle _ _

/-! ### Answers -/

/-- The command's answer is a next state, and its hub is sound. -/
def Sounds (a : Answer) : Prop := ∃ t, a = .next t ∧ t.hub.Sound

theorem sounds_act {s : State} (hs : s.hub.Sound) (c : Bool) (f : Hub → Hub) : Sounds (act s c f) := by
  refine ⟨_, rfl, ?_⟩
  dsimp only
  split
  · exact Hub.sound_settle _ _
  · exact hs

theorem sounds_actT {s : State} (hs : s.hub.Sound) (c : Bool) (f : Hub → Hub) : Sounds (actT s c f) := sounds_act hs _ _

theorem sounds_mbxAct {s : State} (hs : s.hub.Sound) (b : Block) (op : Nat) (f : Hub → Hub × Option MbxResult) :
    Sounds (mbxAct s b op f) := sounds_act hs _ _

theorem sounds_actReset {s : State} (hs : s.hub.Sound) (c : Bool) {f : Hub → Hub} (hf : c = true → (f s.hub).Sound) :
    Sounds (actReset s c f) := by
  refine ⟨_, rfl, ?_⟩
  dsimp only
  split
  · rename_i hc; exact hf hc
  · exact hs

theorem sounds_actWarm {s : State} (hs : s.hub.Sound) (c : Bool) (f : Hub → Hub) : Sounds (actWarm s c f) :=
  sounds_actReset hs c fun _ => Hub.sound_warmEnd _ _

/-! ### Commands that close their cycle themselves -/

section
variable {s : State} (hs : s.hub.Sound)
include hs

theorem sounds_porAssert (vbatLost : Bool) : Sounds (execPorAssert vbatLost s) :=
  sounds_actReset hs _ fun _ => Hub.sound_por _ _ (p := .por) rfl nofun

theorem sounds_vddCustRise : Sounds (execVddCustRise s) :=
  sounds_actReset hs _ fun _ => hs.of_alike ⟨rfl, rfl, rfl, rfl, fun _ => rfl⟩

theorem sounds_resetNPulse : Sounds (execResetNPulse s) := by
  unfold execResetNPulse
  dsimp only
  split
  · exact sounds_actWarm hs _ _
  · exact sounds_act hs _ _

theorem sounds_spiReadFrame (a : BitVec 32) (n : Nat) : Sounds (execSpiReadFrame a n s) := by
  refine sounds_actReset hs _ fun _ => ?_
  dsimp only
  split
  · exact (Hub.sound_readWords hs.fresh _ _ _).emit _
  · exact hs.fresh.emit _

theorem sounds_smbusBlockWrite (a v : Word) (pec : Option Byte) : Sounds (execSmbusBlockWrite a v pec s) := by
  refine sounds_actReset hs _ fun _ => ?_
  dsimp only
  split_ifs
  · exact ((Hub.sound_writeWord _ _ _ _).smbWake _).emit _
  · exact (Hub.sound_writeWord _ _ _ _).emit _
  · exact hs.fresh.emit _

theorem sounds_smbusProcessCall (a : Word) (pec : Option Byte) : Sounds (execSmbusProcessCall a pec s) := by
  refine sounds_actReset hs _ fun _ => ?_
  dsimp only
  split
  · exact ((Hub.sound_readWord _ _ _).emit _).emit _
  · exact hs.fresh.emit _

theorem sounds_mailboxReq (b : Block) (p : Path) (opcode : BitVec 16) : Sounds (execMailboxReq b p opcode s) := by
  refine sounds_actReset hs _ fun _ => ?_
  unfold Hub.reqWake
  split
  · exact (Hub.sound_settle _ _).smbWake _
  · exact Hub.sound_settle _ _

theorem sounds_remoteAccessRx (src : BitVec 14) (tag : Fin 32) (a : Word) (value : Option Word) (user ack : Bool) :
    Sounds (execRemoteAccessRx src tag a value user ack s) := by
  refine sounds_actReset hs _ fun _ => ?_
  dsimp only
  split
  · exact Hub.sound_settle _ _
  · split
    · split
      · exact Hub.sound_settle _ _
      · exact Hub.sound_writeWord _ _ _ _
    · exact Hub.sound_settle _ _

theorem sounds_usbResumeEnd (port : Option (Fin 4)) : Sounds (execUsbResumeEnd port s) := by
  cases port with
  | none => exact sounds_actT hs _ _
  | some p => exact sounds_actT hs _ _

end


/-- Every command answers a next state and keeps the hub sound. -/
theorem sounds_exec {s : State} (hs : s.hub.Sound) (c : Instr) : Sounds (exec c s) := by
  unfold exec
  cases c
  case porAssert vbatLost => exact sounds_porAssert hs vbatLost
  case porRelease straps => exact sounds_actReset hs _ fun _ => Hub.sound_porEnd _ _
  case vddCustRise => exact sounds_vddCustRise hs
  case mainDieRelease => exact sounds_actReset hs _ fun _ => Hub.sound_startEnd _ _
  case supplyRestart => exact sounds_actWarm hs _ _
  case resetNPulse => exact sounds_resetNPulse hs
  case thermalTripRelease tj => exact sounds_actWarm hs _ _
  case blockReset b => exact sounds_actReset hs _ fun _ => Hub.sound_resetEnd _ _ _
  case napExit kt voutOk pg => exact sounds_actReset hs _ fun _ => Hub.sound_startEnd _ _
  case dormantExit kt a b spi => exact sounds_actReset hs _ fun _ => Hub.sound_startEnd _ _
  case aoBrownout straps => exact sounds_actReset hs _ fun _ => Hub.sound_porEnd _ _
  case registerWrite p a v => exact sounds_actReset hs _ fun _ => Hub.sound_writeWord _ _ _ _
  case mailboxReq b p opcode => exact sounds_mailboxReq hs b p opcode
  case spiReadFrame a n => exact sounds_spiReadFrame hs a n
  case spiWriteFrame a ws cut => exact sounds_actReset hs _ fun _ => Hub.sound_writeWords hs.fresh _ _ _
  case smbusBlockWrite a v pec => exact sounds_smbusBlockWrite hs a v pec
  case smbusProcessCall a pec => exact sounds_smbusProcessCall hs a pec
  case bar2Read tag a => exact sounds_actReset hs _ fun _ => Hub.sound_bar2Read _ _ _
  case bar2Write a v => exact sounds_actReset hs _ fun _ => Hub.sound_bar2Write _ _ _
  case remoteAccessRx src tag a value user ack => exact sounds_remoteAccessRx hs src tag a value user ack
  case remoteReadBlock => exact sounds_actReset hs _ fun _ => hs.fresh.blockStart _
  case remoteWriteBlock => exact sounds_actReset hs _ fun _ => hs.fresh.blockStart _
  case userAliasRead tag off => exact sounds_actReset hs _ fun _ => hs.fresh.userRead _ _
  case pcieRequestRx r => exact sounds_actReset hs _ fun _ => hs.pcieIn r
  case usbResumeEnd port => exact sounds_usbResumeEnd hs port
  case laneAssign | laneRelease | laneUnmap | peerCertRead | ttExchangeNow | ledgerCheckNow | flowCounts | flowCountsClear |
      reseqState | flowCountsExit | flowPolicy | flowPin | flowUnpin | flowRead | flowSchedRead | gateCheck | pairFlowRead |
      resync | timeSet | timeStep | auxXfer | linkTrain | hpdIrq | mdioXfer | clsLookup | cfgXfer | tunRestart | aoMeasure |
      challenge | keyUpdate | ownerClaim | certRead | zeroize | provisionBegin | provisionCert | testNow | coverRestart =>
    exact sounds_mbxAct hs _ _ _
  case refclkLoss | cosourceWindowEnd | commitApply | remoteAnswerRx | remoteReadTimeout | autoRepairStart | repairReqRx |
      repairReadyRx | laneMove | blockLockLoss | deskewComplete | laneWake | klAligned | klRetrain | klDown | linkEnterAlign
      | helloRx | helloResend | hubIdWrite | authCertRx | authKexRx | authFinRx | authTimeout | creditAdvRx | cellRx |
      macBlockRx | creditBlockRx | replayTimeout | recoverComplete | recoverTimeout | byeRx | idleReqRx | idleAckRx |
      linkWake | timeReqRx | admitRetry | reasmTimeout | reseqTimeout | bankCopyDone | bankTestDone | bankDrainComplete |
      descSweepDone | pageInStart | slotGrant | pageReadRx | pageWriteRx | pageDataRx | pageWriteAckRx | pageInTimeout |
      writebackTimeout | foyerTimeout | pagePathHoldEnd | egressDecision | dealEpochBoundary | pairSyncRx | heartbeatTx |
      partnerLoss | lostNoticeRx | reconcileDataRx | mirrorBatchTx | mirrorBatchRx | handoverGiveRx | handoverDrained |
      handoverDrainedRx | handoverTimeout | dpLineRx | dpCellWrite | csiLineRx | ethFrameRx | ethLinkDown | npReserveGrant |
      tagGrant | bridgeFrameRx | bridgeMarkMet | bridgeMarkTimeout | pcieCompletionRx | bridgeCplRx | completionTimeout |
      tunnelTimeout | lateFrameRx | msiCapture | gpioEdge | msgFrameRx | mqPop | pcieLinkDown | usbAttach | usbOvercurrent |
      usbPortResetDone | u0Attach | u0Detach | usbHostTransaction | usbSplitTransaction | leafDeviceTransaction |
      tunnelBurstRx | setupRecordRx | outRecordRx | inRecordRx | resultRecordRx | splitRecordRx | portCmdRx | portStatRx |
      suspendRecordRx | wakeRecordRx | tunnelResendTimeout | tunnelAckOnly | tunnelKeepalive | leafSof | tunnelDead |
      usbSuspend | usbHostResume | usbRemoteWake | usbBusReset | stateReq | keySealedRx | challengeMsgRx | faultEvent |
      bankStepDue | sitTestRun | firmwareLoad | cdrLockLoss | pcieLinkUp | usbDeviceDetach | takeoverTimeout =>
    exact sounds_actT hs _ _
  all_goals exact sounds_act hs _ _

/-! ### The obligations -/

theorem Hub.sound_reset (st : Straps) : (Hub.reset st).Sound := by
  intro b _
  rw [Hub.hdr, Hub.reset, PerBlock.get_of]
  exact ⟨id, fun _ _ => PerBlock.get_of _ b⟩

/-- Settles O59: at reset every header has ENABLE as the straps say, and every FIFO is empty. -/
theorem soundAtReset : Obligations.SoundAtReset := ⟨Hub.sound_reset _, Hub.sound_reset⟩

/-- Settles O60: a step is a command, each of which answers a sound hub, or an idle cycle. -/
theorem stepsKeepSound : Obligations.StepsKeepSound := by
  intro s hs
  unfold step
  cases s.pending with
  | nil => exact ⟨_, rfl, Hub.sound_idle hs⟩
  | cons c rest => exact sounds_exec (s := { s with pending := rest }) hs c

end Sys2Proof.Machine
end

section
/-! SUPPORT. The rules that the commands of power, clocks and references go by: what an answer through `act` ends in, what a fault event,
a mailbox result and DOZE's end do, and that the keep-awake marks follow registers and contexts. -/

namespace Sys2Proof.Machine

/-! ### Answers -/

section
variable {c : Instr} {s : State} {cond : Bool} {f : Hub → Hub} {ps : List Part} {rs : Set Nat} {bs : List Block} {Q : State → Prop}

theorem runs_act (hexec : exec c s = act s cond f) (hc : cond = true) : Runs c s (settle s.hub (f s.hub.fresh)) := by
  rw [Runs, hexec, act, if_pos hc]

/-- A command whose condition holds ends as its effect, closed by `settle`. -/
theorem ends_act (hexec : exec c s = act s cond f) (hc : cond = true) (hf : Frame s.hub.fresh (f s.hub.fresh) ps rs bs)
    (hq : Q { s with hub := settle s.hub (f s.hub.fresh) }) : Ends c s ps rs bs Q :=
  (runs_act hexec hc).ends (((Frame.fresh s.hub).trans hf).settle s.hub) hq

/-- A command whose condition does not hold leaves the state as it was. -/
theorem ends_act_idle (hexec : exec c s = act s cond f) (hc : cond = false) (hq : Q s) : Ends c s ps rs bs Q := by
  have hrun : Runs c s s.hub := by rw [Runs, hexec, act, hc]; rfl
  exact hrun.ends (Frame.refl _) hq

end

/-! ### Headers at the end of a command -/

@[simp] theorem settle_sticky (o n : Hub) (b : Block) : ((settle o n).hdr b).sticky = (n.hdr b).sticky := by
  obtain ⟨hsticky, -⟩ := settle_hdr_fields o n b
  exact hsticky

@[simp] theorem settle_clkReq (o n : Hub) (b : Block) : ((settle o n).hdr b).clkReq = (n.hdr b).clkReq := by
  obtain ⟨-, -, -, -, -, -, -, -, -, -, -, -, hreq, -⟩ := settle_hdr_fields o n b
  exact hreq

@[simp] theorem settle_clkGranted (o n : Hub) (b : Block) : ((settle o n).hdr b).clkGranted = (n.hdr b).clkGranted := by
  obtain ⟨-, -, -, -, -, -, -, -, -, -, -, -, -, hgranted, -⟩ := settle_hdr_fields o n b
  exact hgranted

/-- The keep-awake marks follow the straps, the registers and the contexts (R23). -/
theorem Hub.keepWord_congr {h k : Hub} (hs : k.straps = h.straps) (hr : k.regs = h.regs) (hc : k.ctxs = h.ctxs) :
    k.keepWord = h.keepWord := by
  have hrd : ∀ a, k.rd a = h.rd a := Hub.rd_congr hr hs
  have htargets : ∀ n, k.targets n = h.targets n := fun n => by
    simp only [Hub.targets, Hub.groupMask, Hub.ctx, Hub.rdF, hrd, hc]
    rfl
  have hmask : k.keepMask = h.keepMask := by
    simp only [Hub.keepMask, Hub.mirEn, Hub.present, Hub.rdB, hrd, htargets, hs, hc]
    rfl
  unfold Hub.keepWord Hub.anyAwake Hub.rdB
  rw [hmask, hrd]

/-- A header none of whose events is in POLL_SEQ is as the command's effect left it, ENABLE apart. -/
theorem settle_hdr_quiet {o n : Hub} {b : Block} (hkeep : n.keepWord = o.keepWord) (hpoll : (n.hdr b).pollKey = (o.hdr b).pollKey)
    (hin : n.msgIn b = o.msgIn b) (hlen : n.msgLen b = o.msgLen b) :
    (settle o n).hdr b = { n.hdr b with enable := ((settle o n).hdr b).enable } := by
  have hnote : keepNote o n = n := if_pos hkeep.symm
  rw [settle_hdr, hnote, settleHdr, if_neg]
  rw [hpoll, hin, hlen]
  simp

theorem bit_or_bitW (w : Word) {i : Nat} (hi : i < 32) : bit (w ||| bitW i) i = true := by
  unfold bit bitW w32
  rw [BitVec.getLsbD_or, BitVec.getLsbD_ofNat, Nat.testBit_two_pow_self]
  simp [hi]

theorem bit_or_left {w : Word} {i : Nat} (h : bit w i = true) (v : Word) : bit (w ||| v) i = true := by
  unfold bit at *
  rw [BitVec.getLsbD_or, h, Bool.true_or]

/-- Attention that is set stays so, and an event sets its own bit (R71). -/
theorem Hub.raw_attn_self (h : Hub) (b : Block) {i : Nat} (hi : i < 32) : (h.attn b i).raw b i = true := by
  rw [Hub.raw, Hub.attn, Hub.hdr_updHdr_self]
  exact bit_or_bitW _ hi

theorem Hub.raw_attn_of_raw {h : Hub} {b : Block} {i : Nat} (hb : h.raw b i = true) (c : Block) (j : Nat) :
    (h.attn c j).raw b i = true := by
  rw [Hub.raw, Hub.attn, Hub.hdr_updHdr]
  split
  · rename_i hbc; subst hbc; exact bit_or_left hb _
  · exact hb

/-! ### Mailbox results (R81) -/

/-- A result touches the mailbox of its own block alone. -/
theorem Hub.opResult_frame (h : Hub) (b : Block) (op : Nat) (r : MbxResult) : Frame h (h.opResult b op r) [] ∅ [b] :=
  (Frame.refl h).opResult List.mem_cons_self

@[simp] theorem Hub.opResult_power (h : Hub) (b : Block) (op : Nat) (r : MbxResult) : (h.opResult b op r).power = h.power :=
  (h.opResult_frame b op r).part .power List.not_mem_nil

@[simp] theorem Hub.opResult_rd (h : Hub) (b : Block) (op : Nat) (r : MbxResult) (a : Nat) : (h.opResult b op r).rd a = h.rd a :=
  (h.opResult_frame b op r).reg a (Set.notMem_empty a)

theorem Hub.opResult_hdr_ne (h : Hub) {b c : Block} (hc : c ≠ b) (op : Nat) (r : MbxResult) : (h.opResult b op r).hdr c = h.hdr c := by
  unfold Hub.opResult Hub.updMbx
  split
  · rw [Hub.hdr_updHdr, if_neg hc]
  · rfl

@[simp] theorem Hub.opResult_raw (h : Hub) (b : Block) (op : Nat) (r : MbxResult) (c : Block) (i : Nat) :
    (h.opResult b op r).raw c i = h.raw c i := by
  unfold Hub.opResult Hub.updMbx Hub.raw
  split
  · rw [Hub.hdr_updHdr]
    split
    · rename_i hc; subst hc; rfl
    · rfl
  · rfl

@[simp] theorem Hub.opResult_sticky (h : Hub) (b : Block) (op : Nat) (r : MbxResult) (c : Block) :
    ((h.opResult b op r).hdr c).sticky = (h.hdr c).sticky := by
  unfold Hub.opResult Hub.updMbx
  split
  · rw [Hub.hdr_updHdr]
    split
    · rename_i hc; subst hc; rfl
    · rfl
  · rfl

/-! ### DOZE's end (R425, R426) -/

/-- The hub back in RUN, before a STATE_REQ that asked for it completes (R425). -/
def Hub.woken (h : Hub) (left wake : Nat) : Hub :=
  (((((h.showState 0).wrF Reg.PMU_STATE 9 7 left).wrF Reg.PMU_STATE 15 10 wake).sitBack left).updPower fun x =>
    { x with state := .run, wakeLatch := none, idleFrom := h.mono }).attn .pmu 0

/-- The way back to RUN is `woken`, and then at most a result for PMU's request. -/
theorem Hub.backToRun_cases (h : Hub) (left wake us : Nat) :
    h.backToRun left wake us = h.woken left wake ∨ ∃ r, h.backToRun left wake us = (h.woken left wake).opResult .pmu 0x10 r := by
  unfold Hub.backToRun
  dsimp only
  split
  · exact .inr ⟨_, rfl⟩
  · exact .inl rfl

theorem Hub.woken_frame (h : Hub) (left wake : Nat) : Frame h (h.woken left wake) [.power, .sit] {Reg.PMU_STATE} [.pmu] := by
  have hshow : Frame h (((h.showState 0).wrF Reg.PMU_STATE 9 7 left).wrF Reg.PMU_STATE 15 10 wake) [.power, .sit] {Reg.PMU_STATE}
      [.pmu] := (((Frame.refl h).wrF (Set.mem_singleton _)).wrF (Set.mem_singleton _)).wrF (Set.mem_singleton _)
  have hsit := hshow.updSit (f := fun x => if left = 1 then { x with start := x.start + (h.mono - h.power.since)
                                                                     dueAt := x.dueAt + (h.mono - h.power.since) }
    else Sit.fresh h.mono) (by decide)
  exact (hsit.updPower (by decide)).attn List.mem_cons_self

theorem Hub.backToRun_frame (h : Hub) (left wake us : Nat) :
    Frame h (h.backToRun left wake us) [.power, .sit] {Reg.PMU_STATE} [.pmu] := by
  rcases h.backToRun_cases left wake us with e | ⟨r, e⟩ <;> rw [e]
  · exact h.woken_frame left wake
  · exact (h.woken_frame left wake).opResult List.mem_cons_self

@[simp] theorem Hub.backToRun_power (h : Hub) (left wake us : Nat) :
    (h.backToRun left wake us).power = { h.power with state := .run, wakeLatch := none, idleFrom := h.mono } := by
  rcases h.backToRun_cases left wake us with e | ⟨r, e⟩ <;> rw [e]
  · rfl
  · rw [Hub.opResult_power]; rfl

/-- PMU_STATE once the hub is back in RUN: the state left and the wake sources (Table 17.10). -/
theorem Hub.backToRun_rd (h : Hub) (left wake us : Nat) :
    (h.backToRun left wake us).rd Reg.PMU_STATE = setFld (setFld (setFld (h.rd Reg.PMU_STATE) 2 0 0) 9 7 left) 15 10 wake := by
  have hwoken : (h.woken left wake).rd Reg.PMU_STATE = setFld (setFld (setFld (h.rd Reg.PMU_STATE) 2 0 0) 9 7 left) 15 10 wake := by
    show (((h.showState 0).wrF Reg.PMU_STATE 9 7 left).wrF Reg.PMU_STATE 15 10 wake).rd Reg.PMU_STATE = _
    simp only [Hub.showState, Hub.rd_wrF, if_true]
  rcases h.backToRun_cases left wake us with e | ⟨r, e⟩ <;> rw [e]
  · exact hwoken
  · rw [Hub.opResult_rd, hwoken]

theorem Hub.backToRun_raw (h : Hub) (left wake us : Nat) : (h.backToRun left wake us).raw .pmu 0 = true := by
  rcases h.backToRun_cases left wake us with e | ⟨r, e⟩ <;> rw [e]
  · exact Hub.raw_attn_self _ _ (by decide)
  · rw [Hub.opResult_raw]
    exact Hub.raw_attn_self _ _ (by decide)

theorem Hub.backToRun_hdr_ne (h : Hub) (left wake us : Nat) {b : Block} (hb : b ≠ .pmu) :
    (h.backToRun left wake us).hdr b = h.hdr b := by
  have hwoken : (h.woken left wake).hdr b = h.hdr b := by
    rw [Hub.woken, Hub.attn, Hub.hdr_updHdr, if_neg hb]
    rfl
  rcases h.backToRun_cases left wake us with e | ⟨r, e⟩ <;> rw [e]
  · exact hwoken
  · rw [Hub.opResult_hdr_ne _ hb, hwoken]

theorem Hub.dozeExit_of_ne {h : Hub} (hs : h.power.state ≠ .doze) (wake : Nat) : h.dozeExit wake = h := by
  rw [Hub.dozeExit, if_neg hs]

theorem Hub.dozeExit_of_doze {h : Hub} (hs : h.power.state = .doze) (wake : Nat) :
    h.dozeExit wake = h.backToRun 1 wake ((h.mono - h.power.since) / 1000) := by
  rw [Hub.dozeExit, if_pos hs]

theorem Hub.dozeExit_frame (h : Hub) (wake : Nat) : Frame h (h.dozeExit wake) [.power, .sit] {Reg.PMU_STATE} [.pmu] := by
  unfold Hub.dozeExit
  split
  · exact h.backToRun_frame _ _ _
  · exact Frame.refl h

/-- PMU_STATE's fields after DOZE's end (Table 17.10). -/
theorem Hub.dozeExit_fields {h : Hub} (hs : h.power.state = .doze) (wake : Nat) :
    (h.dozeExit wake).power.state = .run ∧ (h.dozeExit wake).rdF Reg.PMU_STATE 2 0 = 0
    ∧ (h.dozeExit wake).rdF Reg.PMU_STATE 9 7 = 1 ∧ (h.dozeExit wake).rdF Reg.PMU_STATE 15 10 = wake % 2 ^ 6
    ∧ (h.dozeExit wake).raw .pmu 0 = true := by
  rw [Hub.dozeExit_of_doze hs]
  refine ⟨by rw [Hub.backToRun_power], ?shown, ?left, ?wake, Hub.backToRun_raw _ _ _ _⟩ <;> rw [Hub.rdF, Hub.backToRun_rd]
  case shown =>
    rw [fld_setFld_ne _ _ _ _ _ _ (by decide), fld_setFld_ne _ _ _ _ _ _ (by decide), fld_setFld _ _ _ _ (by decide), Nat.zero_mod]
  case left =>
    rw [fld_setFld_ne _ _ _ _ _ _ (by decide), fld_setFld _ _ _ _ (by decide), Nat.one_mod_two_pow (by decide)]
  case wake => rw [fld_setFld _ _ _ _ (by decide)]

end Sys2Proof.Machine
end

section
/-! SUPPORT. Clock requests, grants and releases (R20, R24, R105, R426). -/

namespace Sys2Proof.Machine

theorem exec_clockRequest (b : Block) (s : State) : exec (.clockRequest b) s = execClockRequest b s := rfl

theorem exec_clockGrant (b : Block) (s : State) : exec (.clockGrant b) s = execClockGrant b s := rfl

theorem exec_idleHoldExpire (b : Block) (s : State) : exec (.idleHoldExpire b) s = execIdleHoldExpire b s := rfl

theorem exec_dozeExit (s : State) : exec .dozeExit s = execDozeExit s := rfl

theorem Hub.pxIdle_of_untrained {h : Hub} {b : Block} (hpx : b = .pxb → h.rdB Reg.PX_STAT 0 = false) (off : Bool) :
    h.pxIdle b off = h := by
  unfold Hub.pxIdle
  rw [if_neg]
  rintro ⟨rfl, hlink⟩
  simp [hpx rfl] at hlink

theorem Hub.pxIdle_of_trained {h : Hub} (hpx : h.rdB Reg.PX_STAT 0 = true) (off : Bool) :
    h.pxIdle .pxb off = h.edgeIdle 0x0D off := by
  simp [Hub.pxIdle, hpx]

/-! ### Electrical idle of a port's lanes (R105) -/

theorem Hub.portLanes_lt (h : Hub) {c l : Nat} (hl : l ∈ h.portLanes c) : l < 40 := by
  simpa using (List.mem_filter.mp hl).2

theorem LN_STAT_mem_laneStats {l : Nat} (hl : l < 40) : Reg.LN_STAT l ∈ laneStats := ⟨l, hl, rfl⟩

theorem Frame.edgeIdle {h k : Hub} {ps : List Part} {rs : Set Nat} {bs : List Block} (a : Frame h k ps rs bs) (hr : laneStats ⊆ rs)
    (c : Nat) (off : Bool) : Frame h (k.edgeIdle c off) ps rs bs :=
  Frame.foldl _ a fun _ _ hl hj => hj.wrB (hr (LN_STAT_mem_laneStats (k.portLanes_lt hl)))

/-- The end of electrical idle is the end on each of the lanes. -/
theorem Hub.edgeIdle_off (h : Hub) (c : Nat) :
    h.edgeIdle c false = (h.portLanes c).foldl (fun h l => h.wrB (Reg.LN_STAT l) 15 false) h := by
  simp only [Hub.edgeIdle, Bool.false_and]

theorem Hub.rdB_foldl_wrB_false (ls : List Nat) (h : Hub) {l : Nat} (hl : l ∈ ls ∨ h.rdB (Reg.LN_STAT l) 15 = false) :
    (ls.foldl (fun h l => h.wrB (Reg.LN_STAT l) 15 false) h).rdB (Reg.LN_STAT l) 15 = false := by
  induction ls generalizing h with
  | nil => exact hl.resolve_left List.not_mem_nil
  | cons x ls ih =>
    refine ih _ ?_
    by_cases hx : Reg.LN_STAT l = Reg.LN_STAT x
    · right
      rw [Hub.rdB, Hub.rd_wrB, if_pos hx, bit_setBit _ _ _ _ (by decide), if_pos rfl]
    · rcases hl with hl | hl
      · rcases List.mem_cons.mp hl with rfl | hl
        · exact absurd rfl hx
        · exact .inl hl
      · right
        rw [Hub.rdB, Hub.rd_wrB, if_neg hx]
        exact hl

/-! ### The clauses of ClockGating -/

/-- The clock of a block is requested (R20). -/
def Hub.requestClock (h : Hub) (b : Block) : Hub := h.updHdr b fun x => { x with clkReq := true }

theorem execClockRequest_eq (b : Block) (s : State) :
    execClockRequest b s = act s (s.hub.up b && fastBlock b) fun h => ((h.requestClock b).pxIdle b false).dozeExit 0 := rfl

theorem ends_clockRequest_run {s : State} {b : Block} (hup : s.hub.up b = true) (hfast : fastBlock b = true)
    (hrun : s.hub.power.state = .run) (hpx : b = .pxb → s.hub.rdB Reg.PX_STAT 0 = false) :
    Ends (.clockRequest b) s [] ∅ [b]
      (fun t => t.hub.hdr b = { s.hub.hdr b with clkReq := true, enable := (t.hub.hdr b).enable }) := by
  have heffect : ((s.hub.fresh.requestClock b).pxIdle b false).dozeExit 0 = s.hub.fresh.requestClock b := by
    rw [Hub.pxIdle_of_untrained (h := s.hub.fresh.requestClock b) hpx]
    exact Hub.dozeExit_of_ne (h := s.hub.fresh.requestClock b) (by simp [Hub.requestClock, hrun]) 0
  have hhdr : (s.hub.fresh.requestClock b).hdr b = { s.hub.hdr b with clkReq := true } := Hub.hdr_updHdr_self _ _ _
  refine ends_act ((exec_clockRequest b s).trans (execClockRequest_eq b s)) (by simp [hup, hfast]) ?_ ?_
  · rw [heffect]
    exact (Frame.refl _).updHdr List.mem_cons_self
  · dsimp only
    rw [heffect, settle_hdr_quiet (b := b) (Hub.keepWord_congr (by rfl) (by rfl) (by rfl)) (by rw [hhdr]; rfl), hhdr]
    · cases b <;> rfl
    · cases b <;> rfl

theorem ends_clockRequest_pxb {s : State} (hup : s.hub.up .pxb = true) (hrun : s.hub.power.state = .run)
    (hpx : s.hub.rdB Reg.PX_STAT 0 = true) :
    Ends (.clockRequest .pxb) s [] laneStats [.pxb] (fun t =>
      (t.hub.hdr .pxb).clkReq = true ∧ ∀ l ∈ s.hub.portLanes 0x0D, t.hub.rdB (Reg.LN_STAT l) 15 = false) := by
  have hidle : Frame s.hub.fresh ((s.hub.fresh.requestClock .pxb).edgeIdle 0x0D false) [] laneStats [.pxb] :=
    ((Frame.refl s.hub.fresh).updHdr List.mem_cons_self).edgeIdle subset_rfl _ _
  have heffect : ((s.hub.fresh.requestClock .pxb).pxIdle .pxb false).dozeExit 0
      = (s.hub.fresh.requestClock .pxb).edgeIdle 0x0D false := by
    rw [Hub.pxIdle_of_trained (h := s.hub.fresh.requestClock .pxb) hpx]
    refine Hub.dozeExit_of_ne ?_ 0
    have hpower : _ = s.hub.power := hidle.part .power List.not_mem_nil
    simp [hpower, hrun]
  refine ends_act ((exec_clockRequest .pxb s).trans (execClockRequest_eq .pxb s)) (by simp [hup]; decide) ?_ ⟨?_, fun l hl => ?_⟩
  · rw [heffect]
    exact hidle
  · dsimp only
    rw [heffect, settle_clkReq, Hub.edgeIdle_off]
    have hhdrs : ∀ (ls : List Nat) (h : Hub), (ls.foldl (fun h l => h.wrB (Reg.LN_STAT l) 15 false) h).hdr .pxb = h.hdr .pxb := by
      intro ls
      induction ls with
      | nil => exact fun _ => rfl
      | cons x ls ih => exact fun h => ih _
    rw [hhdrs, Hub.requestClock, Hub.hdr_updHdr_self]
  · dsimp only
    rw [heffect, settle_rdB, Hub.edgeIdle_off]
    exact Hub.rdB_foldl_wrB_false _ _ (.inl hl)

theorem ends_clockRequest_doze {s : State} {b : Block} (hup : s.hub.up b = true) (hfast : fastBlock b = true)
    (hdoze : s.hub.power.state = .doze) (hpx : b = .pxb → s.hub.rdB Reg.PX_STAT 0 = false) :
    Ends (.clockRequest b) s [.power, .sit] {Reg.PMU_STATE} [b, .pmu] (fun t =>
      (t.hub.hdr b).clkReq = true ∧ t.hub.power.state = .run ∧ t.hub.rdF Reg.PMU_STATE 2 0 = 0 ∧ t.hub.raw .pmu 0 = true) := by
  have hpmu : b ≠ .pmu := by rintro rfl; exact absurd hfast (by decide)
  have hk : (s.hub.fresh.requestClock b).power.state = .doze := hdoze
  have heffect : ((s.hub.fresh.requestClock b).pxIdle b false).dozeExit 0 = (s.hub.fresh.requestClock b).dozeExit 0 := by
    rw [Hub.pxIdle_of_untrained (h := s.hub.fresh.requestClock b) hpx]
  obtain ⟨hstate, hshown, -, -, hraw⟩ := Hub.dozeExit_fields hk 0
  refine ends_act ((exec_clockRequest b s).trans (execClockRequest_eq b s)) (by simp [hup, hfast]) ?_ ?_ <;> rw [heffect]
  · refine Frame.trans (j := s.hub.fresh.requestClock b) ((Frame.refl _).updHdr List.mem_cons_self) ?_
    exact ((s.hub.fresh.requestClock b).dozeExit_frame 0).mono (by simp) subset_rfl (by simp)
  · refine ⟨?_, by rw [settle_power]; exact hstate, by rw [settle_rdF]; exact hshown, ?_⟩
    · rw [settle_clkReq, Hub.dozeExit_of_doze hk, Hub.backToRun_hdr_ne _ _ _ _ hpmu, Hub.requestClock, Hub.hdr_updHdr_self]
    · rw [settle_raw _ _ _ _ (.inr (by decide))]
      exact hraw

theorem ends_clockGrant {s : State} {b : Block} (hup : s.hub.up b = true) (hrun : s.hub.power.state = .run)
    (hreq : (s.hub.hdr b).clkReq = true) :
    Ends (.clockGrant b) s [] ∅ [b] (fun t =>
      (t.hub.hdr b).clkGranted = true ∧ (t.hub.hdr b).clkReq = true ∧ (t.hub.hdr b).sticky = (s.hub.hdr b).sticky) := by
  refine ends_act (exec_clockGrant b s) (by simp [hup, hrun, hreq]) ((Frame.refl _).updHdr List.mem_cons_self) ?_
  simp [hreq]

/-- The clocks of a block are released, at an instant that AUTO_DOZE_ENTRY counts from (R20, R427). -/
def Hub.releaseClock (h : Hub) (b : Block) : Hub :=
  (h.updHdr b fun x => { x with clkReq := false, clkGranted := false }).updPower fun x => { x with idleFrom := h.mono }

theorem execIdleHoldExpire_eq (b : Block) (s : State) :
    execIdleHoldExpire b s = act s (s.hub.up b && (s.hub.hdr b).clkGranted && !s.hub.clockHeld b) fun h =>
      (h.releaseClock b).pxIdle b true := rfl

theorem ends_idleHoldExpire {s : State} {b : Block} (hup : s.hub.up b = true) (hgranted : (s.hub.hdr b).clkGranted = true)
    (hheld : s.hub.clockHeld b = false) (hpx : b = .pxb → s.hub.rdB Reg.PX_STAT 0 = false) :
    Ends (.idleHoldExpire b) s [.power] ∅ [b] (fun t =>
      t.hub.power = { s.hub.power with idleFrom := s.hub.mono }
      ∧ (t.hub.hdr b).clkGranted = false ∧ (t.hub.hdr b).clkReq = false ∧ (t.hub.hdr b).sticky = (s.hub.hdr b).sticky) := by
  refine ends_act ((exec_idleHoldExpire b s).trans (execIdleHoldExpire_eq b s)) (by simp [hup, hgranted, hheld]) ?_ ?_ <;>
    rw [Hub.pxIdle_of_untrained (h := s.hub.fresh.releaseClock b) hpx]
  · exact ((Frame.refl _).updHdr List.mem_cons_self).updPower List.mem_cons_self
  · simp [Hub.releaseClock]
    rfl

theorem Hub.up_pmu (h : Hub) : h.up .pmu = h.custodyUp := Bool.true_and _

theorem ends_dozeExit {s : State} (hup : s.hub.custodyUp = true) (hdoze : s.hub.power.state = .doze) :
    Ends .dozeExit s [.power, .sit] {Reg.PMU_STATE} [.pmu] (fun t =>
      t.hub.power.state = .run ∧ t.hub.rdF Reg.PMU_STATE 2 0 = 0 ∧ t.hub.rdF Reg.PMU_STATE 9 7 = 1
      ∧ t.hub.rdF Reg.PMU_STATE 15 10 = 0 ∧ t.hub.raw .pmu 0 = true) := by
  obtain ⟨hstate, hshown, hleft, hwake, hraw⟩ := Hub.dozeExit_fields (h := s.hub.fresh) hdoze 0
  refine ends_act (exec_dozeExit s) (by simp [Hub.up_pmu, hup, hdoze]) (Hub.dozeExit_frame _ 0) ?_
  simp only [settle_power, settle_rdF, settle_raw _ _ Block.pmu 0 (.inr (by decide))]
  exact ⟨hstate, hshown, hleft, hwake, hraw⟩

/-- Settles O21: each clause is its command's effect, closed by `settle`, on the branch that its conditions choose. -/
theorem clockGating : Obligations.ClockGating :=
  ⟨fun _ _ hup hfast hrun hpx => ends_clockRequest_run hup hfast hrun hpx, fun _ hup hrun hpx => ends_clockRequest_pxb hup hrun hpx,
    fun _ _ hup hfast hdoze hpx => ends_clockRequest_doze hup hfast hdoze hpx, fun _ _ hup hrun hreq => ends_clockGrant hup hrun hreq,
    fun _ _ hup hgranted hheld hpx => ends_idleHoldExpire hup hgranted hheld hpx,
    fun s b hheld => ends_act_idle (exec_idleHoldExpire b s) (by simp [hheld]) rfl,
    fun _ hup hdoze => ends_dozeExit hup hdoze⟩

end Sys2Proof.Machine
end

section
/-! SUPPORT. The two refutations of the family: each is a hub that meets a clause's conditions and that its command takes elsewhere. -/

namespace Sys2Proof.Machine

/-! ### A lowering that its own write holds (R23, R24)

A context's multicast group is any natural number, and the mask of group 4391938 is the register at the address of PMU_DVFS: the write
of TARGET marks port 0 keep-awake, which holds the change that the write asks for. -/

/-- A ROOT with one pinned TC7 flow to that group. -/
def aliasedRoot : State :=
  { hub := { Hub.reset {} with ctxs := [(9, { state := .resident, tc := 7, pin := true, mcast := true, group := 4391938 })] } }

theorem aliasedRoot_ready : aliasedRoot.hub.custodyUp = true ∧ aliasedRoot.hub.mainUp = true ∧ aliasedRoot.hub.power.step = none
    ∧ aliasedRoot.hub.power.linear = true ∧ aliasedRoot.hub.anyAwake = false ∧ aliasedRoot.hub.dvfsPoint < 1 := by
  and_intros <;> decide +kernel

theorem dvfsTargetWrite_aliasedRoot : ∃ t, exec (.dvfsTargetWrite 1) aliasedRoot = .next t ∧ t.hub.dvfsPoint = 0 :=
  ⟨_, rfl, by decide +kernel⟩

/-- Refutes O23: in `aliasedRoot` no port is keep-awake and the point is 0, and a write of TARGET 1 leaves the point at 0. -/
theorem not_voltageSteps : ¬ Obligations.VoltageSteps := by
  rintro ⟨-, hlower, -⟩
  obtain ⟨hcustody, hmain, hstep, hlinear, hawake, hlt⟩ := aliasedRoot_ready
  obtain ⟨t, hrun, -, -, -, hpoint, -⟩ := hlower aliasedRoot 1 hcustody hmain hstep hlinear hawake hlt
  obtain ⟨u, hrun', hpoint'⟩ := dvfsTargetWrite_aliasedRoot
  obtain rfl : t = u := Host.Outcome.next.inj (hrun.symm.trans hrun')
  exact absurd (hpoint'.symm.trans hpoint) (by decide)

/-! ### A supply fault of a main die that runs while it is held (R44, R96) -/

/-- A ROOT whose main die runs with its core supply off and its reset held. -/
def heldRoot : State := { hub := { Hub.reset {} with power := { held := true, coreEn := false } } }

/-- A supply fault takes a main die down only where it is not yet held with its supply off. -/
theorem refclkLoss_heldRoot : ∃ t, exec (.refclkLoss 0) heldRoot = .next t ∧ t.hub.mainUp = true :=
  ⟨_, rfl, by decide +kernel⟩

/-- Refutes O27: in `heldRoot` the main die runs in RUN, and after the loss of REFCLK_A it still does. -/
theorem not_references : ¬ Obligations.References := by
  rintro ⟨-, hloss, -⟩
  obtain ⟨t, hrun, -, -, -, hdown⟩ := hloss heldRoot (by decide +kernel) rfl
  obtain ⟨u, hrun', hup⟩ := refclkLoss_heldRoot
  obtain rfl : t = u := Host.Outcome.next.inj (hrun.symm.trans hrun')
  exact absurd (hup.symm.trans hdown) (by decide)

end Sys2Proof.Machine
end

section
/-! SUPPORT. Supply faults, thermal trips and the resets of the main die (R33, R44, R55, R63, Table 3.16). -/

namespace Sys2Proof.Machine

/-! ### Fault events (R465 to R473) -/

theorem Hub.faultPulse_hdr_sticky_live (h : Hub) (b : Block) :
    (h.faultPulse.hdr b).sticky = (h.hdr b).sticky ∧ (h.faultPulse.hdr b).live = (h.hdr b).live := by
  unfold Hub.faultPulse Hub.attn
  dsimp only
  rw [Hub.hdr_updHdr]
  split
  · rename_i hb; subst hb; exact ⟨rfl, rfl⟩
  · exact ⟨rfl, rfl⟩

/-- A fault event adds its source to the sticky bits of its block, and leaves every live bit. -/
theorem Hub.fault_sticky_live (h : Hub) (b c : Block) (i : Nat) :
    ((h.fault c i).hdr b).sticky = (if b = c then (h.hdr b).sticky ||| bitW i else (h.hdr b).sticky)
    ∧ ((h.fault c i).hdr b).live = (h.hdr b).live := by
  unfold Hub.fault
  dsimp only
  split
  on_goal 1 => rw [(Hub.faultPulse_hdr_sticky_live _ b).1, (Hub.faultPulse_hdr_sticky_live _ b).2]
  all_goals
    rw [Hub.hdr_setHdr]
    split
    · rename_i hb; subst hb; exact ⟨rfl, rfl⟩
    · exact ⟨rfl, rfl⟩

theorem Hub.fault_sticky_self (h : Hub) (b : Block) {i : Nat} (hi : i < 32) : bit ((h.fault b i).hdr b).sticky i = true := by
  rw [(h.fault_sticky_live b b i).1, if_pos rfl]
  exact bit_or_bitW _ hi

theorem Hub.fault_sticky_of {h : Hub} {b : Block} {j : Nat} (hb : bit (h.hdr b).sticky j = true) (c : Block) (i : Nat) :
    bit ((h.fault c i).hdr b).sticky j = true := by
  rw [(h.fault_sticky_live b c i).1]
  split
  · exact bit_or_left hb _
  · exact hb

/-- What a fault event of PMU touches. -/
theorem Hub.pmuFault_frame (h : Hub) (i : Nat) : Frame h (h.fault .pmu i) [.pins] {Reg.SIT_FAULTN_CNT} [.pmu, .sit] :=
  (Frame.refl h).fault (by decide) (by decide) rfl (by decide)

@[simp] theorem Hub.pmuFault_power (h : Hub) (i : Nat) : (h.fault .pmu i).power = h.power :=
  (h.pmuFault_frame i).part .power (by decide)

@[simp] theorem Hub.pmuFault_rd (h : Hub) (i : Nat) {a : Nat} (ha : a ≠ Reg.SIT_FAULTN_CNT) : (h.fault .pmu i).rd a = h.rd a :=
  (h.pmuFault_frame i).reg a ha

/-! ### The end of a DORMANT or NAP entry (R425) -/

theorem Hub.enterEnd_frame (h : Hub) (e : Nat) : Frame h (h.enterEnd e) [] {Reg.PMU_STATE} [.pmu] := by
  unfold Hub.enterEnd
  split
  · exact ((Frame.refl h).wrF (Set.mem_singleton _)).opResult List.mem_cons_self
  · exact Frame.refl h

@[simp] theorem Hub.enterEnd_power (h : Hub) (e : Nat) : (h.enterEnd e).power = h.power :=
  (h.enterEnd_frame e).part .power List.not_mem_nil

theorem Hub.enterEnd_of_ne {h : Hub} (hs : h.rdF Reg.PMU_STATE 2 0 ≠ 4) (e : Nat) : h.enterEnd e = h := if_neg hs

@[simp] theorem Hub.enterEnd_sticky (h : Hub) (e : Nat) (b : Block) : ((h.enterEnd e).hdr b).sticky = (h.hdr b).sticky := by
  unfold Hub.enterEnd
  split
  · exact Hub.opResult_sticky _ _ _ _ b
  · rfl

/-! ### The main die goes down (R44, R63) -/

/-- The power state of a main die that is clamped and held. -/
def Power.down (x : Power) : Power :=
  { x with phase := .rails, state := .run, clamped := true, coreEn := false, step := none, wakeLatch := none, held := true, outOfCond := true }

theorem Hub.mainDown_of_run {h : Hub} (hs : h.power.state = .run) :
    h.mainDown = ((h.enterEnd 0x07).updPower Power.down).fault .pmu 3 := by
  unfold Hub.mainDown
  rw [if_pos (.inl hs)]
  rfl

theorem Hub.mainDown_frame {h : Hub} (hs : h.power.state = .run) :
    Frame h h.mainDown [.power, .pins] {Reg.SIT_FAULTN_CNT, Reg.PMU_STATE} [.pmu, .sit] := by
  rw [Hub.mainDown_of_run hs]
  have hend := (h.enterEnd_frame 0x07).mono (ps' := [.power, .pins]) (rs' := {Reg.SIT_FAULTN_CNT, Reg.PMU_STATE}) (bs' := [.pmu, .sit])
    (by decide) (by simp) (by decide)
  exact (hend.updPower (by decide)).fault (by decide) (by decide) (by simp) (by decide)

theorem Hub.mainDown_power {h : Hub} (hs : h.power.state = .run) : h.mainDown.power = h.power.down := by
  rw [Hub.mainDown_of_run hs, Hub.pmuFault_power]
  show (h.enterEnd 0x07).power.down = _
  rw [Hub.enterEnd_power]

/-- Going down adds PMU's source 3 to its sticky bits. -/
theorem Hub.mainDown_sticky {h : Hub} (hs : h.power.state = .run) :
    bit (h.mainDown.hdr .pmu).sticky 3 = true
    ∧ ∀ i, bit (h.hdr .pmu).sticky i = true → bit (h.mainDown.hdr .pmu).sticky i = true := by
  rw [Hub.mainDown_of_run hs]
  refine ⟨Hub.fault_sticky_self _ _ (by decide), fun i hi => Hub.fault_sticky_of ?_ _ _⟩
  show bit ((h.enterEnd 0x07).hdr .pmu).sticky i = true
  rwa [Hub.enterEnd_sticky]

/-! ### Supply faults and thermal trips -/

theorem exec_supplyFault (r : Rail) (s : State) : exec (.supplyFault r) s = act s (s.hub.railWatched r) fun h => h.supplyFault r := rfl

/-- A rail is recorded and its source's event raised, before the main die goes down. -/
def Hub.railLost (h : Hub) (r : Rail) : Hub := (h.updPower fun x => { x with supplyBad := some r }).fault .pmu 0

theorem Hub.railLost_power (h : Hub) (r : Rail) : (h.railLost r).power = { h.power with supplyBad := some r } := Hub.pmuFault_power _ 0

theorem Hub.supplyFault_of_on {h : Hub} (hon : h.power.coreEn = true) (r : Rail) : h.supplyFault r = (h.railLost r).mainDown := by
  show (if (h.railLost r).power.held && !(h.railLost r).power.coreEn then h.railLost r else (h.railLost r).mainDown) = _
  rw [Hub.railLost_power]
  simp [hon]

theorem ends_supplyFault {s : State} (r : Rail) (hup : s.hub.custodyUp = true) (hon : s.hub.power.coreEn = true)
    (hrun : s.hub.power.state = .run) (hphase : s.hub.power.phase ≠ .core) :
    Ends (.supplyFault r) s [.power, .pins] {Reg.SIT_FAULTN_CNT, Reg.PMU_STATE} [.pmu, .sit] (fun t =>
      t.hub.power.supplyBad = some r ∧ t.hub.power.clamped = true ∧ t.hub.power.coreEn = false ∧ t.hub.mainUp = false
      ∧ t.hub.power.outOfCond = true ∧ bit (t.hub.hdr .pmu).sticky 0 = true ∧ bit (t.hub.hdr .pmu).sticky 3 = true) := by
  have hlost : (s.hub.fresh.railLost r).power.state = .run := by rw [Hub.railLost_power]; exact hrun
  have hpower := Hub.mainDown_power hlost
  obtain ⟨h3, hsticky⟩ := Hub.mainDown_sticky hlost
  have h0 := hsticky 0 (Hub.fault_sticky_self _ _ (by decide))
  refine ends_act (exec_supplyFault r s) (by simp [Hub.railWatched, hup, hon, hrun, hphase]) ?_ ?_ <;>
    rw [Hub.supplyFault_of_on (h := s.hub.fresh) hon]
  · have hrail : Frame s.hub.fresh (s.hub.fresh.railLost r) [.power, .pins] {Reg.SIT_FAULTN_CNT, Reg.PMU_STATE} [.pmu, .sit] :=
      ((Frame.refl _).updPower (by decide)).fault (by decide) (by decide) (by simp) (by decide)
    exact hrail.trans (Hub.mainDown_frame hlost)
  · simp only [settle_power, settle_sticky, Hub.mainUp, hpower, Hub.railLost_power]
    exact ⟨rfl, rfl, rfl, rfl, rfl, h0, h3⟩

theorem exec_thermalTrip (tj : BitVec 16) (s : State) : exec (.thermalTrip tj) s = execThermalTrip tj s := rfl

/-- A sensed temperature is shown, with the greatest one since. -/
theorem Hub.senseTj_frame (h : Hub) (tj : BitVec 16) : Frame h (h.senseTj tj) [] {Reg.PMU_TEMP} [] := by
  unfold Hub.senseTj
  dsimp only
  exact (((Frame.refl h).wrF (Set.mem_singleton _)).wrF (Set.mem_singleton _)).ite ((Frame.refl h).wrF (Set.mem_singleton _))

theorem Hub.senseTj_shown (h : Hub) (tj : BitVec 16) : (h.senseTj tj).rdF Reg.PMU_TEMP 15 0 = tj.toNat := by
  have hshown : (h.wrF Reg.PMU_TEMP 15 0 tj.toNat).rdF Reg.PMU_TEMP 15 0 = tj.toNat := by
    rw [Hub.rdF, Hub.rd_wrF, if_pos rfl, fld_setFld _ _ _ _ (by decide)]
    exact Nat.mod_eq_of_lt tj.isLt
  unfold Hub.senseTj
  dsimp only
  split
  · rw [Hub.rdF, Hub.rd_wrF, if_pos rfl, fld_setFld_ne _ _ _ _ _ _ (by decide)]
    exact hshown
  · exact hshown

/-- The temperature's fault events: the trip, and the one of over-temperature where it was not raised yet (R63). -/
def Hub.tripped (h : Hub) (tj : BitVec 16) : Hub :=
  let h := (h.senseTj tj).fault .pmu 1
  if bit (h.hdr .pmu).live 2 then h else (h.fault .pmu 2).setLive .pmu 2 true

theorem execThermalTrip_eq (tj : BitVec 16) (s : State) :
    execThermalTrip tj s = act s (s.hub.custodyUp && decide (1300 ≤ tj.toInt) && !s.hub.power.thermHold) fun h =>
      ((h.tripped tj).updPower fun x => { x with thermHold := true }).mainDown := rfl

theorem Hub.tripped_frame (h : Hub) (tj : BitVec 16) :
    Frame h (h.tripped tj) [.pins] {Reg.SIT_FAULTN_CNT, Reg.PMU_TEMP} [.pmu, .sit] := by
  have hfirst : Frame h ((h.senseTj tj).fault .pmu 1) [.pins] {Reg.SIT_FAULTN_CNT, Reg.PMU_TEMP} [.pmu, .sit] :=
    ((h.senseTj_frame tj).mono (by simp) (by simp) (by simp)).fault (by decide) (by decide) (by simp) (by decide)
  exact hfirst.ite ((hfirst.fault (by decide) (by decide) (by simp) (by decide)).setLive (by decide))

theorem Hub.tripped_power (h : Hub) (tj : BitVec 16) : (h.tripped tj).power = h.power := (h.tripped_frame tj).part .power (by decide)

@[simp] theorem Hub.setLive_sticky (h : Hub) (b c : Block) (i : Nat) (v : Bool) :
    ((h.setLive b i v).hdr c).sticky = (h.hdr c).sticky := by
  rw [Hub.setLive, Hub.hdr_updHdr]
  split
  · rename_i hc; subst hc; rfl
  · rfl

theorem Hub.tripped_sticky (h : Hub) (tj : BitVec 16) : bit ((h.tripped tj).hdr .pmu).sticky 1 = true := by
  have hfirst : bit (((h.senseTj tj).fault .pmu 1).hdr .pmu).sticky 1 = true := Hub.fault_sticky_self _ _ (by decide)
  unfold Hub.tripped
  dsimp only
  split
  · exact hfirst
  · rw [Hub.setLive_sticky]
    exact Hub.fault_sticky_of hfirst _ _

theorem Hub.tripped_shown (h : Hub) (tj : BitVec 16) : (h.tripped tj).rdF Reg.PMU_TEMP 15 0 = tj.toNat := by
  have hfirst : ((h.senseTj tj).fault .pmu 1).rd Reg.PMU_TEMP = (h.senseTj tj).rd Reg.PMU_TEMP := Hub.pmuFault_rd _ _ (by decide)
  have hrd : (h.tripped tj).rd Reg.PMU_TEMP = (h.senseTj tj).rd Reg.PMU_TEMP := by
    unfold Hub.tripped
    dsimp only
    split
    · exact hfirst
    · exact (((Hub.pmuFault_frame _ 2).setLive List.mem_cons_self).reg Reg.PMU_TEMP (by decide)).trans hfirst
  rw [Hub.rdF, hrd]
  exact h.senseTj_shown tj

/-- The hub that a trip holds, before its main die goes down. -/
def Hub.tripHeld (h : Hub) (tj : BitVec 16) : Hub := (h.tripped tj).updPower fun x => { x with thermHold := true }

theorem Hub.tripHeld_power (h : Hub) (tj : BitVec 16) : (h.tripHeld tj).power = { h.power with thermHold := true } := by
  show { (h.tripped tj).power with thermHold := true } = _
  rw [Hub.tripped_power]

theorem ends_thermalTrip {s : State} {tj : BitVec 16} (hup : s.hub.custodyUp = true) (htj : 1300 ≤ tj.toInt)
    (hhold : s.hub.power.thermHold = false) (hrun : s.hub.power.state = .run) :
    Ends (.thermalTrip tj) s [.power, .pins] {Reg.SIT_FAULTN_CNT, Reg.PMU_TEMP, Reg.PMU_STATE} [.pmu, .sit] (fun t =>
      t.hub.power.thermHold = true ∧ t.hub.power.coreEn = false ∧ t.hub.power.clamped = true ∧ t.hub.mainUp = false
      ∧ bit (t.hub.hdr .pmu).sticky 1 = true ∧ t.hub.rdF Reg.PMU_TEMP 15 0 = tj.toNat) := by
  have hheld : (s.hub.fresh.tripHeld tj).power.state = .run := by rw [Hub.tripHeld_power]; exact hrun
  have hdown := Hub.mainDown_frame hheld
  have hpower := Hub.mainDown_power hheld
  have hsticky := (Hub.mainDown_sticky hheld).2 1 (s.hub.fresh.tripped_sticky tj)
  have hshown : (s.hub.fresh.tripHeld tj).mainDown.rdF Reg.PMU_TEMP 15 0 = tj.toNat := by
    rw [Hub.rdF, hdown.reg Reg.PMU_TEMP (by decide)]
    exact s.hub.fresh.tripped_shown tj
  refine ends_act (f := fun h => (h.tripHeld tj).mainDown) ((exec_thermalTrip tj s).trans (execThermalTrip_eq tj s))
    (by simp [hup, htj, hhold]) ?_ ?_
  · have htrip := (s.hub.fresh.tripped_frame tj).mono (ps' := [.power, .pins])
      (rs' := {Reg.SIT_FAULTN_CNT, Reg.PMU_TEMP, Reg.PMU_STATE}) (by decide) (by simp [Set.insert_subset_iff]) (List.Subset.refl _)
    exact (htrip.updPower (by decide)).trans (hdown.mono (List.Subset.refl _) (by simp [Set.insert_subset_iff]) (List.Subset.refl _))
  · simp only [settle_power, settle_sticky, settle_rdF, Hub.mainUp, hpower, Hub.tripHeld_power]
    exact ⟨rfl, rfl, rfl, rfl, hsticky, hshown⟩

end Sys2Proof.Machine
end

section
/-! SUPPORT. A WARM reset and what acts as one (R33, R44, R55, R63, Table 3.16). -/

namespace Sys2Proof.Machine

/-! ### A reset of the main die -/

theorem Tab.get_filter {α : Type} (d : Nat → α) (p : Nat → Bool) (t : Tab α) (k : Nat) :
    Tab.get d (t.filter fun e => p e.1) k = if p k = true then Tab.get d t k else d k := by
  induction t with
  | nil => simp [Tab.get]
  | cons e t ih =>
    rw [List.filter_cons]
    by_cases hk : k = e.1
    · subst hk
      split
      · simp_all [Tab.get]
      · rename_i hp; rw [ih, if_neg hp]
    · split <;> simp [Tab.get, hk, ih]

/-- A reset of the main die keeps the custody die's registers and no other. -/
theorem Hub.rd_mainReset (h : Hub) (a : Nat) :
    h.mainReset.rd a = if custodyReg a = true then h.rd a else regReset h.straps a := Tab.get_filter _ custodyReg _ a

theorem Hub.mainReset_frame (h : Hub) : Frame h h.mainReset mainParts mainRegs Block.all where
  part p hp := by cases p <;> first | exact absurd (by decide) hp | rfl
  reg a ha := by
    rw [Hub.rd_mainReset, if_pos]
    simpa [mainRegs] using ha
  hdr b hb := absurd b.mem_all hb

/-! ### The custody die before it -/

/-- What a WARM reset ends first: DOZE, an entry into NAP or DORMANT, and the custody requests that need the main die. -/
def Hub.cleared (h : Hub) : Hub := (((h.dozeExit 0).enterEnd 0x08).custodyAbort .ksi).custodyAbort .sit

theorem Frame.custodyAbort {h k : Hub} {ps : List Part} {rs : Set Nat} {bs : List Block} {b : Block} (f : Frame h k ps rs bs) (hb : b ∈ bs) :
    Frame h (k.custodyAbort b) ps rs bs := by
  unfold Hub.custodyAbort
  exact ((f.updMbx hb).attn hb).ite f

theorem Hub.awake_cleared_frame (h : Hub) : Frame ((h.dozeExit 0).enterEnd 0x08) h.cleared [] ∅ [.ksi, .sit] :=
  ((Frame.refl _).custodyAbort (by decide)).custodyAbort (by decide)

theorem Hub.cleared_frame (h : Hub) : Frame h h.cleared [.power, .sit] {Reg.PMU_STATE} [.pmu, .ksi, .sit] :=
  ((h.dozeExit_frame 0).mono (List.Subset.refl _) subset_rfl (by decide)).trans
    (((Hub.enterEnd_frame _ 0x08).mono (by decide) subset_rfl (by decide)).trans
      (h.awake_cleared_frame.mono (by decide) (by simp) (by decide)))

theorem Hub.cleared_power (h : Hub) : h.cleared.power = (h.dozeExit 0).power :=
  (h.awake_cleared_frame.part .power List.not_mem_nil).trans (Hub.enterEnd_power _ _)

@[simp] theorem Hub.cleared_straps (h : Hub) : h.cleared.straps = h.straps := h.cleared_frame.part .straps (by decide)

/-- A hub in RUN with no entry under way has nothing in PMU_STATE to end. -/
theorem Hub.cleared_rd_of_run {h : Hub} (hrun : h.power.state = .run) (hs : h.rdF Reg.PMU_STATE 2 0 ≠ 4) (a : Nat) :
    h.cleared.rd a = h.rd a := by
  rw [h.awake_cleared_frame.reg a (Set.notMem_empty a), Hub.dozeExit_of_ne (by rw [hrun]; decide), Hub.enterEnd_of_ne hs]

theorem Hub.dozeExit_power (h : Hub) (wake : Nat) :
    (h.dozeExit wake).power = h.power ∨ (h.dozeExit wake).power = { h.power with state := .run, wakeLatch := none, idleFrom := h.mono } := by
  unfold Hub.dozeExit
  split
  · exact .inr (Hub.backToRun_power _ _ _ _)
  · exact .inl rfl

/-! ### WARM -/

/-- The registers that a WARM reset may change: the main die's, the cause, the point in force and the state shown. -/
def warmRegs : Set Nat := mainRegs ∪ {Reg.STW_RESET_CAUSE, Reg.PMU_DVFS, Reg.PMU_STATE}

/-- The power state after it: in RUN, with no step under way. -/
def Power.warmed (held : List Nat) (x : Power) : Power :=
  { x with state := .run, step := none, pmbFails := 0, outOfCond := false, heldCounts := held }

section
variable (h : Hub) (cause : Nat) (held : List Nat)

theorem Hub.warm_eq : h.warm cause held =
    ((h.cleared.mainReset.wrB Reg.STW_RESET_CAUSE cause true).wr Reg.PMU_DVFS 0).updPower (Power.warmed held) := rfl

theorem Hub.warm_frame : Frame h (h.warm cause held) mainParts warmRegs Block.all := by
  have hcleared := h.cleared_frame.mono (ps' := mainParts) (rs' := warmRegs) (bs' := Block.all) (by decide)
    (by simp [warmRegs]) fun b _ => b.mem_all
  have hreset := hcleared.trans (h.cleared.mainReset_frame.mono (List.Subset.refl _) Set.subset_union_left (List.Subset.refl _))
  rw [Hub.warm_eq]
  exact ((hreset.wrB (x := Reg.STW_RESET_CAUSE) (by simp [warmRegs])).wr (x := Reg.PMU_DVFS) (by simp [warmRegs])).updPower (by decide)

/-- What a WARM reset makes of the power state: the parts that it sets, and those that it keeps. -/
theorem Hub.warm_power_set :
    (h.warm cause held).power.state = .run ∧ (h.warm cause held).power.fwRunning = false ∧ (h.warm cause held).power.heldCounts = held :=
  ⟨rfl, rfl, rfl⟩

theorem Hub.warm_power_kept :
    (h.warm cause held).power.phase = h.power.phase ∧ (h.warm cause held).power.coreEn = h.power.coreEn
    ∧ (h.warm cause held).power.vcmd = h.power.vcmd ∧ (h.warm cause held).power.supplyBad = h.power.supplyBad
    ∧ (h.warm cause held).power.thermHold = h.power.thermHold := by
  have hpower : (h.warm cause held).power = Power.warmed held { h.cleared.power with fwRunning := false } := rfl
  rw [hpower, Hub.cleared_power]
  rcases h.dozeExit_power 0 with e | e <;> rw [e] <;> exact ⟨rfl, rfl, rfl, rfl, rfl⟩

theorem Hub.warm_rd (a : Nat) : (h.warm cause held).rd a =
    if a = Reg.PMU_DVFS then 0 else if a = Reg.STW_RESET_CAUSE then setBit (h.cleared.rd Reg.STW_RESET_CAUSE) cause true
    else if custodyReg a = true then h.cleared.rd a else regReset h.straps a := by
  show ((h.cleared.mainReset.wrB Reg.STW_RESET_CAUSE cause true).wr Reg.PMU_DVFS 0).rd a = _
  rw [Hub.rd_wr, Hub.rd_wrB, Hub.rd_mainReset, Hub.rd_mainReset, if_pos (show custodyReg Reg.STW_RESET_CAUSE = true by decide),
    Hub.cleared_straps]

theorem Hub.warm_rd_main {a : Nat} (ha : custodyReg a = false) : (h.warm cause held).rd a = regReset h.straps a := by
  have hdvfs : a ≠ Reg.PMU_DVFS := by rintro rfl; exact absurd ha (by decide)
  have hcause : a ≠ Reg.STW_RESET_CAUSE := by rintro rfl; exact absurd ha (by decide)
  rw [Hub.warm_rd, if_neg hdvfs, if_neg hcause, if_neg (by simp [ha])]

theorem Hub.warm_rd_dvfs : (h.warm cause held).rd Reg.PMU_DVFS = 0 := by rw [Hub.warm_rd, if_pos rfl]

theorem Hub.warm_rd_pmu {a : Nat} (ha : Block.at a = some .pmu) (hd : a ≠ Reg.PMU_DVFS) : (h.warm cause held).rd a = h.cleared.rd a := by
  have hcause : a ≠ Reg.STW_RESET_CAUSE := by rintro rfl; exact absurd ha (by decide)
  rw [Hub.warm_rd, if_neg hd, if_neg hcause, if_pos (by simp [custodyReg, ha])]

theorem Hub.warm_cause {c : Nat} (hc : c < 32) : (h.warm c held).rdB Reg.STW_RESET_CAUSE c = true := by
  rw [Hub.rdB, Hub.warm_rd, if_neg (by decide), if_pos rfl, bit_setBit _ _ _ _ hc, if_pos rfl]

end

/-! ### The end of a command that resets the main die -/

/-- `warmEnd` is `settle` with the order log and POLL_SEQ begun anew. -/
theorem Hub.warmEnd_fields (o n : Hub) : (o.warmEnd n).power = n.power ∧ (o.warmEnd n).regs = n.regs ∧ (o.warmEnd n).straps = n.straps
    ∧ (o.warmEnd n).cells = n.cells ∧ (o.warmEnd n).ctxs = n.ctxs ∧ (o.warmEnd n).time = n.time := by
  simp [Hub.warmEnd]

theorem Hub.warmEnd_power (o n : Hub) : (o.warmEnd n).power = n.power := (o.warmEnd_fields n).1

theorem Hub.warmEnd_rd (o n : Hub) (a : Nat) : (o.warmEnd n).rd a = n.rd a := by
  obtain ⟨-, hregs, hstraps, -⟩ := o.warmEnd_fields n
  exact Hub.rd_congr hregs hstraps a

theorem Hub.warmEnd_rdB (o n : Hub) (a i : Nat) : (o.warmEnd n).rdB a i = n.rdB a i := by rw [Hub.rdB, Hub.warmEnd_rd]; rfl

theorem Hub.warmEnd_mainUp (o n : Hub) : (o.warmEnd n).mainUp = n.mainUp := Hub.mainUp_congr (o.warmEnd_power n)

/-- The order log and the headers are among what a reset of the main die may change. -/
theorem Frame.logHdrs {h k : Hub} {rs : Set Nat} (x : Masthead) (l : Olog) (y : PerBlock Hdr) (f : Frame h k mainParts rs Block.all) :
    Frame h { k with olog := l, mh := x, hdrs := y } mainParts rs Block.all :=
  f.trans ⟨fun p hp => by cases p <;> first | exact absurd (by decide) hp | rfl, fun _ _ => rfl, fun b hb => absurd b.mem_all hb⟩

theorem Frame.warmEnd {h k : Hub} {rs : Set Nat} (o : Hub) (f : Frame h k mainParts rs Block.all) :
    Frame h (o.warmEnd k) mainParts rs Block.all := (f.settle o).logHdrs _ _ _

/-- A command that resets the main die ends as its effect, closed by `warmEnd`. -/
theorem ends_actWarm {c : Instr} {s : State} {cond : Bool} {f : Hub → Hub} {rs : Set Nat} {Q : State → Prop}
    (hexec : exec c s = actWarm s cond f) (hc : cond = true) (hf : Frame s.hub.fresh (f s.hub.fresh) mainParts rs Block.all)
    (hq : Q { s with hub := s.hub.warmEnd (f s.hub.fresh) }) : Ends c s mainParts rs Block.all Q := by
  have hrun : Runs c s (s.hub.warmEnd (f s.hub.fresh)) := by rw [Runs, hexec, actWarm, actReset, if_pos hc]
  exact hrun.ends (((Frame.fresh s.hub).trans hf).warmEnd s.hub) hq

/-! ### The core supply comes back -/

theorem Frame.pmbStart {h k : Hub} {ps : List Part} {rs : Set Nat} {bs : List Block} (l : List PmbXact) (f : Frame h k ps rs bs)
    (hp : Part.power ∈ ps) : Frame h (k.pmbStart l) ps rs bs :=
  (Frame.foldl l f fun _ _ _ hj => hj.emit).updPower hp

theorem Hub.coreEnable_rd (h : Hub) (a : Nat) : h.coreEnable.rd a = h.rd a := rfl

theorem Frame.coreEnable {h k : Hub} {ps : List Part} {rs : Set Nat} {bs : List Block} (f : Frame h k ps rs bs) (hp : Part.power ∈ ps) :
    Frame h k.coreEnable ps rs bs :=
  (f.updPower hp).pmbStart _ hp

/-! ### The clauses of SupplyAndWarm -/

theorem exec_supplyRestart (s : State) : exec .supplyRestart s = execSupplyRestart s := rfl

/-- Nothing holds the main die: its core supply is switched on. -/
def Hub.coreUnless (h : Hub) (held : Bool) : Hub := if held then h else h.coreEnable

theorem Hub.coreUnless_power (h : Hub) (held : Bool) :
    (held = false → (h.coreUnless held).power.phase = .core ∧ (h.coreUnless held).power.coreEn = true)
    ∧ (held = true → (h.coreUnless held).power = h.power)
    ∧ (h.coreUnless held).power.supplyBad = h.power.supplyBad ∧ (h.coreUnless held).power.thermHold = h.power.thermHold := by
  cases held
  · exact ⟨fun _ => ⟨rfl, rfl⟩, nofun, rfl, rfl⟩
  · exact ⟨nofun, fun _ => rfl, rfl, rfl⟩

theorem Hub.coreUnless_rd (h : Hub) (held : Bool) (a : Nat) : (h.coreUnless held).rd a = h.rd a := by cases held <;> rfl

theorem Hub.coreUnless_empty (h : Hub) (held : Bool) :
    (h.coreUnless held).cells = h.cells ∧ (h.coreUnless held).ctxs = h.ctxs ∧ (h.coreUnless held).time = h.time := by
  cases held <;> exact ⟨rfl, rfl, rfl⟩

theorem Frame.coreUnless {h k : Hub} {ps : List Part} {rs : Set Nat} {bs : List Block} {held : Bool} (f : Frame h k ps rs bs)
    (hp : Part.power ∈ ps) : Frame h (k.coreUnless held) ps rs bs := by
  cases held
  · exact f.coreEnable hp
  · exact f

/-- The hub after a restart: WARM with its cause, what held the main die no longer does, and its core supply is on unless something
else holds it. -/
def Hub.restarted (h : Hub) (cause : Nat) (f : Power → Power) (held : Bool) : Hub := ((h.warm cause []).updPower f).coreUnless held

section
variable (h : Hub) (cause : Nat) (f : Power → Power) (held : Bool)

theorem Hub.restarted_frame : Frame h (h.restarted cause f held) mainParts warmRegs Block.all :=
  ((h.warm_frame cause []).updPower (by decide)).coreUnless (by decide)

theorem Hub.restarted_rd (a : Nat) : (h.restarted cause f held).rd a = (h.warm cause []).rd a :=
  Hub.coreUnless_rd ((h.warm cause []).updPower f) held a

theorem Hub.restarted_cause {c : Nat} (hc : c < 32) : (h.restarted c f held).rdB Reg.STW_RESET_CAUSE c = true := by
  rw [Hub.rdB, Hub.restarted_rd]
  exact h.warm_cause [] hc

theorem Hub.restarted_empty : (h.restarted cause f held).cells = [] ∧ (h.restarted cause f held).ctxs = []
    ∧ (h.restarted cause f held).time.ns = 0 := by
  obtain ⟨hcells, hctxs, htime⟩ := Hub.coreUnless_empty ((h.warm cause []).updPower f) held
  exact ⟨hcells, hctxs, congrArg TimeBase.ns htime⟩

end

theorem execSupplyRestart_eq (s : State) :
    execSupplyRestart s = actWarm s (s.hub.custodyUp && s.hub.power.supplyBad.isSome) fun h =>
      h.restarted 2 (fun x => { x with supplyBad := none }) (h.warm 2 []).power.thermHold := by
  unfold execSupplyRestart
  congr 1

theorem ends_supplyRestart {s : State} (hup : s.hub.custodyUp = true) (hbad : s.hub.power.supplyBad.isSome = true) :
    Ends .supplyRestart s mainParts (mainRegs ∪ {Reg.STW_RESET_CAUSE, Reg.PMU_DVFS, Reg.PMU_STATE}) Block.all (fun t =>
      t.hub.power.supplyBad = none ∧ t.hub.rdB Reg.STW_RESET_CAUSE 2 = true ∧ t.hub.rd Reg.PMU_DVFS = 0
      ∧ (s.hub.power.thermHold = false → t.hub.power.phase = .core ∧ t.hub.power.coreEn = true)
      ∧ (s.hub.power.thermHold = true → t.hub.power.phase = s.hub.power.phase)
      ∧ t.hub.cells = [] ∧ t.hub.ctxs = [] ∧ t.hub.time.ns = 0
      ∧ ∀ a, custodyReg a = false → t.hub.rd a = regReset s.hub.straps a) := by
  let clear : Power → Power := fun x => { x with supplyBad := none }
  obtain ⟨hphase, -, -, -, htherm⟩ := s.hub.fresh.warm_power_kept 2 []
  obtain ⟨hcells, hctxs, hns⟩ := s.hub.fresh.restarted_empty 2 clear (s.hub.fresh.warm 2 []).power.thermHold
  obtain ⟨hon, hoff, hnone, -⟩ := Hub.coreUnless_power ((s.hub.fresh.warm 2 []).updPower clear) (s.hub.fresh.warm 2 []).power.thermHold
  refine ends_actWarm ((exec_supplyRestart s).trans (execSupplyRestart_eq s)) (by simp [hup, hbad])
    (s.hub.fresh.restarted_frame 2 clear _) ?_
  obtain ⟨hpower, -, -, hcells', hctxs', htime'⟩ :=
    s.hub.warmEnd_fields (s.hub.fresh.restarted 2 clear (s.hub.fresh.warm 2 []).power.thermHold)
  refine ⟨?_, ?_, ?_, fun hfree => ?_, fun hheld => ?_, hcells'.trans hcells, hctxs'.trans hctxs,
    (congrArg TimeBase.ns htime').trans hns, fun a ha => ?_⟩
  · exact (congrArg Power.supplyBad hpower).trans hnone
  · exact (Hub.warmEnd_rdB _ _ _ _).trans (Hub.restarted_cause _ _ _ (by decide))
  · exact (Hub.warmEnd_rd _ _ _).trans ((Hub.restarted_rd _ _ _ _ _).trans (Hub.warm_rd_dvfs _ _ _))
  · obtain ⟨hcore, hen⟩ := hon (htherm.trans hfree)
    exact ⟨(congrArg Power.phase hpower).trans hcore, (congrArg Power.coreEn hpower).trans hen⟩
  · exact (congrArg Power.phase (hpower.trans (hoff (htherm.trans hheld)))).trans hphase
  · exact (Hub.warmEnd_rd _ _ _).trans ((Hub.restarted_rd _ _ _ _ _).trans (Hub.warm_rd_main _ _ _ ha))

theorem exec_thermalTripRelease (tj : BitVec 16) (s : State) : exec (.thermalTripRelease tj) s = execThermalTripRelease tj s := rfl

/-- The temperature is in range again: it is shown, and the live bit of its event is down. -/
def Hub.cooled (h : Hub) (tj : BitVec 16) : Hub := (h.senseTj tj).setLive .pmu 2 false

theorem Hub.cooled_frame (h : Hub) (tj : BitVec 16) : Frame h (h.cooled tj) [] {Reg.PMU_TEMP} [.pmu] :=
  ((h.senseTj_frame tj).mono (by decide) subset_rfl (by decide)).setLive (by decide)

theorem execThermalTripRelease_eq (tj : BitVec 16) (s : State) :
    execThermalTripRelease tj s = actWarm s (s.hub.custodyUp && s.hub.power.thermHold && decide (tj.toInt < 1100)) fun h =>
      (h.cooled tj).restarted 3 (fun x => { x with thermHold := false }) ((h.cooled tj).warm 3 []).power.supplyBad.isSome := by
  unfold execThermalTripRelease
  congr 1

theorem ends_thermalTripRelease {s : State} {tj : BitVec 16} (hup : s.hub.custodyUp = true) (hhold : s.hub.power.thermHold = true)
    (htj : tj.toInt < 1100) :
    Ends (.thermalTripRelease tj) s mainParts
      (mainRegs ∪ {Reg.STW_RESET_CAUSE, Reg.PMU_DVFS, Reg.PMU_STATE, Reg.PMU_TEMP}) Block.all (fun t =>
      t.hub.power.thermHold = false ∧ t.hub.rdB Reg.STW_RESET_CAUSE 3 = true
      ∧ (s.hub.power.supplyBad = none → t.hub.power.phase = .core ∧ t.hub.power.coreEn = true)
      ∧ ∀ a, custodyReg a = false → t.hub.rd a = regReset s.hub.straps a) := by
  let clear : Power → Power := fun x => { x with thermHold := false }
  let cool := s.hub.fresh.cooled tj
  have hcool := s.hub.fresh.cooled_frame tj
  have hbad : cool.power.supplyBad = s.hub.power.supplyBad := congrArg Power.supplyBad (hcool.part .power List.not_mem_nil)
  obtain ⟨-, -, -, hkept, -⟩ := cool.warm_power_kept 3 []
  obtain ⟨hon, -, -, hheld⟩ := Hub.coreUnless_power ((cool.warm 3 []).updPower clear) (cool.warm 3 []).power.supplyBad.isSome
  refine ends_actWarm ((exec_thermalTripRelease tj s).trans (execThermalTripRelease_eq tj s)) (by simp [hup, hhold, htj]) ?_ ?_
  · refine (hcool.mono (by decide) ?_ fun b _ => b.mem_all).trans
      ((cool.restarted_frame 3 clear _).mono (List.Subset.refl _) (Set.union_subset_union_right _ ?_) (List.Subset.refl _))
    · simp
    · simp [Set.insert_subset_iff]
  have hpower := s.hub.warmEnd_power (cool.restarted 3 clear (cool.warm 3 []).power.supplyBad.isSome)
  refine ⟨?_, ?_, fun hnone => ?_, fun a ha => ?_⟩
  · exact (congrArg Power.thermHold hpower).trans hheld
  · exact (Hub.warmEnd_rdB _ _ _ _).trans (Hub.restarted_cause _ _ _ (by decide))
  · obtain ⟨hcore, hen⟩ := hon (by rw [hkept, hbad, hnone]; rfl)
    exact ⟨(congrArg Power.phase hpower).trans hcore, (congrArg Power.coreEn hpower).trans hen⟩
  · rw [Hub.warmEnd_rd]
    refine (Hub.restarted_rd _ _ _ _ _).trans ((Hub.warm_rd_main _ _ _ ha).trans ?_)
    rw [show cool.straps = s.hub.straps from hcool.part .straps List.not_mem_nil]

/-! ### RESET_N (R33) -/

theorem exec_resetNPulse (s : State) : exec .resetNPulse s = execResetNPulse s := rfl

/-- The counts that a reset reports follow the pools, which lie outside power, SIT and PMU_STATE. -/
theorem Hub.heldPools_congr {h k : Hub} (f : Frame h k [.power, .sit] {Reg.PMU_STATE} [.pmu]) : k.heldPools = h.heldPools := by
  have hcounts : k.counts = h.counts := f.part .counts (by decide)
  have hlinks : k.links = h.links := f.part .links (by decide)
  have htags : k.tags = h.tags := f.part .tags (by decide)
  have hctxs : k.ctxs = h.ctxs := f.part .ctxs (by decide)
  have husb : k.usb = h.usb := f.part .usb (by decide)
  have hstat : ∀ c ∈ List.range 6, k.rd (Reg.PC_STAT c) = h.rd (Reg.PC_STAT c) := fun c hc => f.reg _ fun e => by
    have hlt := List.mem_range.mp hc
    have heq : Reg.PC_STAT c = Reg.PMU_STATE := e
    unfold Reg.PC_STAT Reg.PMU_STATE at heq
    omega
  have hfold := List.foldl_ext (fun n c => n + k.rdF (Reg.PC_STAT c) 15 12) (fun n c => n + h.rdF (Reg.PC_STAT c) 15 12) 0
    fun n c hc => by rw [Hub.rdF, hstat c hc]; rfl
  simp only [Hub.heldPools, Hub.link, Hub.slotCount, Hub.tun, hcounts, hlinks, htags, hctxs, husb, hfold]

/-- A voltage at or above the one of F0 is waited for; from a lower one F0's is commanded first. -/
theorem Hub.toF0_power (h : Hub) : h.toF0.power.phase ≠ .running ∧ h.toF0.power.vcmd = max h.power.vcmd (h.vPoint 0)
    ∧ h.toF0.power.fwRunning = h.power.fwRunning ∧ h.toF0.power.heldCounts = h.power.heldCounts := by
  unfold Hub.toF0
  split
  · rename_i hlt
    exact ⟨(by decide : Phase.core ≠ .running), (Nat.max_eq_right (Nat.le_of_lt hlt)).symm, rfl, rfl⟩
  · rename_i hle
    exact ⟨(by decide : Phase.confirmed ≠ .running), (Nat.max_eq_left (Nat.le_of_not_lt hle)).symm, rfl, rfl⟩

theorem Hub.toF0_frame (h : Hub) : Frame h h.toF0 [.power] ∅ [] := by
  unfold Hub.toF0
  split
  · exact (((Frame.refl h).pmbStart _ (by decide)).updPower (by decide)).updPower (by decide)
  · exact (Frame.refl h).updPower (by decide)

theorem Hub.toF0_rd (h : Hub) (a : Nat) : h.toF0.rd a = h.rd a := h.toF0_frame.reg a (Set.notMem_empty a)

/-- F0's voltage is a custody register's. -/
theorem Hub.warm_vPoint0 (h : Hub) (cause : Nat) (held : List Nat) : (h.warm cause held).vPoint 0 = h.vPoint 0 := by
  have hrd : (h.warm cause held).rd Reg.PMU_VPT01 = h.rd Reg.PMU_VPT01 := by
    rw [Hub.warm_rd_pmu _ _ _ (by decide) (by decide), h.cleared_frame.reg _ (by decide)]
  simp only [Hub.vPoint, Hub.rdF, hrd]

theorem execResetNPulse_awake {s : State} (hm : s.hub.mainUp = true) :
    execResetNPulse s = actWarm s true fun h => (h.warm 1 h.heldPools).toF0 := by
  obtain ⟨-, hstate⟩ := Hub.mainUp_iff.mp hm
  have hawake : ¬ (s.hub.power.state = .nap ∨ s.hub.power.state = .dormant) := by rcases hstate with e | e <;> rw [e] <;> decide
  simp [execResetNPulse, hm, hawake]

theorem ends_resetNPulse_awake {s : State} (hm : s.hub.mainUp = true) :
    Ends .resetNPulse s mainParts (mainRegs ∪ {Reg.STW_RESET_CAUSE, Reg.PMU_DVFS, Reg.PMU_STATE}) Block.all (fun t =>
      t.hub.rdB Reg.STW_RESET_CAUSE 1 = true ∧ t.hub.mainUp = false ∧ t.hub.power.heldCounts = s.hub.heldPools
      ∧ t.hub.power.fwRunning = false ∧ t.hub.power.vcmd = max s.hub.power.vcmd (s.hub.vPoint 0)
      ∧ ∀ a, custodyReg a = false → t.hub.rd a = regReset s.hub.straps a) := by
  let warm := s.hub.fresh.warm 1 s.hub.fresh.heldPools
  obtain ⟨-, hfw, hheld⟩ := s.hub.fresh.warm_power_set 1 s.hub.fresh.heldPools
  obtain ⟨-, -, hvcmd, -⟩ := s.hub.fresh.warm_power_kept 1 s.hub.fresh.heldPools
  obtain ⟨hphase, hvcmd', hfw', hheld'⟩ := warm.toF0_power
  refine ends_actWarm ((exec_resetNPulse s).trans (execResetNPulse_awake hm)) rfl
    ((s.hub.fresh.warm_frame 1 _).trans (warm.toF0_frame.mono (by decide) (Set.empty_subset _) (by decide))) ?_
  have hpower := s.hub.warmEnd_power warm.toF0
  refine ⟨?_, ?_, ?_, ?_, ?_, fun a ha => ?_⟩
  · exact (Hub.warmEnd_rdB _ _ _ _).trans ((congrArg (bit · 1) (warm.toF0_rd _)).trans (Hub.warm_cause _ _ (by decide)))
  · rw [Hub.warmEnd_mainUp]
    show (decide (warm.toF0.power.phase = .running) && _) = false
    rw [decide_eq_false hphase, Bool.false_and]
  · exact (congrArg Power.heldCounts hpower).trans (hheld'.trans hheld)
  · exact (congrArg Power.fwRunning hpower).trans (hfw'.trans hfw)
  · refine (congrArg Power.vcmd hpower).trans (hvcmd'.trans ?_)
    rw [hvcmd, Hub.warm_vPoint0]
    rfl
  · exact (Hub.warmEnd_rd _ _ _).trans ((warm.toF0_rd a).trans (Hub.warm_rd_main _ _ _ ha))

theorem execResetNPulse_down {s : State} (hm : s.hub.mainUp = false) (hrun : s.hub.power.state = .run) :
    execResetNPulse s = act s (s.hub.custodyUp && s.hub.power.coreEn) fun h => h.wrB Reg.STW_RESET_CAUSE 1 true := by
  simp [execResetNPulse, hm, hrun]

theorem ends_resetNPulse_down {s : State} (hup : s.hub.custodyUp = true) (hm : s.hub.mainUp = false) (hon : s.hub.power.coreEn = true)
    (hrun : s.hub.power.state = .run) :
    Ends .resetNPulse s [] {Reg.STW_RESET_CAUSE} [] (fun t => t.hub.rdB Reg.STW_RESET_CAUSE 1 = true) := by
  refine ends_act ((exec_resetNPulse s).trans (execResetNPulse_down hm hrun)) (by simp [hup, hon])
    ((Frame.refl _).wrB (Set.mem_singleton _)) ?_
  rw [settle_rdB, Hub.rdB, Hub.rd_wrB, if_pos rfl, bit_setBit _ _ _ _ (by decide), if_pos rfl]

/-- The hub of a RESET_N in NAP: back in RUN, reset with its counts, and its core supply on. -/
def Hub.napReset (h : Hub) : Hub :=
  ((h.warm 1 h.heldPools).wrB Reg.PMU_AO 0 false).coreEnable

theorem execResetNPulse_nap {s : State} (hup : s.hub.custodyUp = true) (hnap : s.hub.power.state = .nap) :
    execResetNPulse s = actWarm s true Hub.warmAsleep := by
  simp [execResetNPulse, hup, hnap]

theorem Hub.warmAsleep_of_nap {h : Hub} (hnap : h.power.state = .nap) :
    h.warmAsleep = (h.backToRun 2 0 ((h.mono - h.power.since) / 1000)).napReset := by
  simp only [Hub.warmAsleep, hnap]
  rfl

/-- In a hub that is back in RUN, a WARM reset leaves the state shown. -/
theorem Hub.warm_shown_of_run {h : Hub} (hrun : h.power.state = .run) (hshown : h.rdF Reg.PMU_STATE 2 0 = 0) (cause : Nat)
    (held : List Nat) : (h.warm cause held).rdF Reg.PMU_STATE 2 0 = 0 := by
  rw [Hub.rdF, Hub.warm_rd_pmu _ _ _ (by decide) (by decide), Hub.cleared_rd_of_run hrun (by rw [hshown]; decide)]
  exact hshown

theorem ends_resetNPulse_nap {s : State} (hup : s.hub.custodyUp = true) (hnap : s.hub.power.state = .nap) :
    Ends .resetNPulse s mainParts (mainRegs ∪ {Reg.STW_RESET_CAUSE, Reg.PMU_DVFS, Reg.PMU_STATE, Reg.PMU_AO}) Block.all (fun t =>
      t.hub.rdB Reg.STW_RESET_CAUSE 1 = true ∧ t.hub.power.state = .run ∧ t.hub.power.phase = .core ∧ t.hub.mainUp = false
      ∧ t.hub.power.heldCounts = s.hub.heldPools ∧ t.hub.rdF Reg.PMU_STATE 2 0 = 0
      ∧ ∀ a, custodyReg a = false → t.hub.rd a = regReset s.hub.straps a) := by
  let back := s.hub.fresh.backToRun 2 0 ((s.hub.fresh.mono - s.hub.fresh.power.since) / 1000)
  have hback : Frame s.hub.fresh back [.power, .sit] {Reg.PMU_STATE} [.pmu] := Hub.backToRun_frame _ _ _ _
  have hrun : back.power.state = .run := congrArg Power.state (Hub.backToRun_power _ _ _ _)
  have hshown : back.rdF Reg.PMU_STATE 2 0 = 0 := by
    rw [Hub.rdF, Hub.backToRun_rd, fld_setFld_ne _ _ _ _ _ _ (by decide), fld_setFld_ne _ _ _ _ _ _ (by decide),
      fld_setFld _ _ _ _ (by decide), Nat.zero_mod]
  have hrd : ∀ a, a ≠ Reg.PMU_AO → (s.hub.warmEnd back.napReset).rd a = (back.warm 1 back.heldPools).rd a := fun a ha => by
    rw [Hub.warmEnd_rd, Hub.napReset, Hub.coreEnable_rd, Hub.rd_wrB, if_neg ha]
  have hpower : (s.hub.warmEnd back.napReset).power = back.napReset.power := Hub.warmEnd_power _ _
  refine ends_actWarm ((exec_resetNPulse s).trans (execResetNPulse_nap hup hnap)) rfl ?_ ?_ <;>
    rw [Hub.warmAsleep_of_nap (h := s.hub.fresh) hnap]
  · have hwarm := hback.mono (ps' := mainParts) (rs' := warmRegs) (bs' := Block.all) (by decide) (by simp [warmRegs]) fun b _ => b.mem_all
    have hreset := (hwarm.trans (back.warm_frame 1 back.heldPools)).mono (List.Subset.refl _)
      (Set.union_subset_union_right mainRegs (show _ ⊆ ({Reg.STW_RESET_CAUSE, Reg.PMU_DVFS, Reg.PMU_STATE, Reg.PMU_AO} : Set Nat) from
        by simp [Set.insert_subset_iff])) (List.Subset.refl _)
    exact (hreset.wrB (by simp)).coreEnable (by decide)
  · refine ⟨?_, ?_, ?_, ?_, ?_, ?_, fun a ha => ?_⟩
    · rw [Hub.rdB, hrd _ (by decide)]
      exact Hub.warm_cause _ _ (by decide)
    · rw [hpower]; rfl
    · rw [hpower]; rfl
    · rw [Hub.warmEnd_mainUp]; rfl
    · rw [hpower]
      exact Hub.heldPools_congr (h := s.hub.fresh) hback
    · rw [Hub.rdF, hrd _ (by decide)]
      exact Hub.warm_shown_of_run hrun hshown _ _
    · rw [hrd a (by rintro rfl; exact absurd ha (by decide)), Hub.warm_rd_main _ _ _ ha]
      rw [show back.straps = s.hub.straps from hback.part .straps (by decide)]

/-- Settles O19: each clause is its command's effect, closed by `settle` or `warmEnd`, on the branch that its conditions choose. -/
theorem supplyAndWarm : Obligations.SupplyAndWarm :=
  ⟨fun _ r hup hon hrun hphase => ends_supplyFault r hup hon hrun hphase, fun _ hup hbad => ends_supplyRestart hup hbad,
    fun _ _ hup htj hhold hrun => ends_thermalTrip hup htj hhold hrun, fun _ _ hup hhold htj => ends_thermalTripRelease hup hhold htj,
    fun _ _ hm _ => ends_resetNPulse_awake hm, fun _ hup hm hon hrun => ends_resetNPulse_down hup hm hon hrun,
    fun _ hup _ hnap => ends_resetNPulse_nap hup hnap⟩

end Sys2Proof.Machine
end

section
/-! SUPPORT. What every effect of a block's release leaves alone (R27, R82, R91): the straps, the key store, the repair map, and of one
block's header the mailbox's report, the commits that wait and the events already raised. -/

namespace Sys2Proof.Machine

/-- What a mailbox tells of its request: BUSY, TICKET, READY, ERR and the error code (R79 to R82). -/
def Mailbox.report (m : Mailbox) : Bool × Nat × Bool × Bool × Nat := (m.busy, m.ticket, m.ready, m.err, m.errCode)

/-- A header keeps its mailbox's report, its waiting commits and the events raised. -/
structure Hdr.Steady (x y : Hdr) : Prop where
  mbx : y.mbx.report = x.mbx.report
  waiting : y.waiting = x.waiting
  raised : ∀ i, bit x.attnRaw i = true → bit y.attnRaw i = true

/-- From `h` to `k` the straps, the key store and the repair map are kept, and the header of `b` is steady. -/
structure Hub.Steady (b : Block) (h k : Hub) : Prop where
  straps : k.straps = h.straps
  ksi : k.ksi = h.ksi
  repairMap : k.repairMap = h.repairMap
  hdr : (h.hdr b).Steady (k.hdr b)

theorem Hdr.Steady.refl (x : Hdr) : x.Steady x := ⟨rfl, rfl, fun _ hi => hi⟩

theorem Hdr.Steady.trans {x y z : Hdr} (a : x.Steady y) (c : y.Steady z) : x.Steady z :=
  ⟨c.mbx.trans a.mbx, c.waiting.trans a.waiting, fun i hi => c.raised i (a.raised i hi)⟩

namespace Hub.Steady

variable {b c : Block} {h k : Hub}

theorem refl (h : Hub) : Steady b h h := ⟨rfl, rfl, rfl, .refl _⟩

theorem trans {j : Hub} (a : Steady b h j) (d : Steady b j k) : Steady b h k :=
  ⟨d.straps.trans a.straps, d.ksi.trans a.ksi, d.repairMap.trans a.repairMap, a.hdr.trans d.hdr⟩

/-- A change outside straps, key store, repair map and headers. -/
theorem upd {k' : Hub} (a : Steady b h k) (hs : k'.straps = k.straps) (hk : k'.ksi = k.ksi) (hr : k'.repairMap = k.repairMap)
    (hh : k'.hdrs = k.hdrs) : Steady b h k' :=
  a.trans ⟨hs, hk, hr, by unfold Hub.hdr; rw [hh]; exact .refl _⟩

theorem when {c : Prop} [Decidable c] {j : Hub} (a : Steady b h k) (f : Steady b h k → Steady b h j) :
    Steady b h (if c then j else k) := by
  split
  · exact f a
  · exact a

theorem whenNot {c : Prop} [Decidable c] {j : Hub} (a : Steady b h k) (f : Steady b h k → Steady b h j) :
    Steady b h (if c then k else j) := by
  split
  · exact a
  · exact f a

theorem ite {c : Prop} [Decidable c] {j : Hub} (a : Steady b h k) (d : Steady b h j) : Steady b h (if c then k else j) := by
  split
  · exact a
  · exact d

theorem foldl {α : Type} {f : Hub → α → Hub} (l : List α) (a : Steady b h k)
    (hf : ∀ x j, Steady b h j → Steady b h (f j x)) : Steady b h (l.foldl f k) := by
  induction l generalizing k with
  | nil => exact a
  | cons x l ih => exact ih (hf x k a)

/-! ### State operations -/

theorem setHdr {x : Hdr} (a : Steady b h k) (hx : (k.hdr c).Steady x) : Steady b h (k.setHdr c x) :=
  a.trans ⟨rfl, rfl, rfl, by
    rw [Hub.hdr_setHdr]
    split
    · rename_i hc; subst hc; exact hx
    · exact .refl _⟩

theorem wr {x : Nat} {v : Word} (a : Steady b h k) : Steady b h (k.wr x v) := a.upd rfl rfl rfl rfl
theorem wrF {x hi lo v : Nat} (a : Steady b h k) : Steady b h (k.wrF x hi lo v) := a.wr
theorem wrB {x i : Nat} {v : Bool} (a : Steady b h k) : Steady b h (k.wrB x i v) := a.wr
theorem inc {x n : Nat} (a : Steady b h k) : Steady b h (k.inc x n) := a.wr
theorem maxR {x v : Nat} (a : Steady b h k) : Steady b h (k.maxR x v) := a.wr
theorem maxF {x hi lo v : Nat} (a : Steady b h k) : Steady b h (k.maxF x hi lo v) := a.wr
theorem emit {e : Emit} (a : Steady b h k) : Steady b h (k.emit e) := a.upd rfl rfl rfl rfl
theorem updPower {f : Power → Power} (a : Steady b h k) : Steady b h (k.updPower f) := a.upd rfl rfl rfl rfl
theorem updPmc {f : Pmc → Pmc} (a : Steady b h k) : Steady b h (k.updPmc f) := a.upd rfl rfl rfl rfl
theorem updMir {f : Mir → Mir} (a : Steady b h k) : Steady b h (k.updMir f) := a.upd rfl rfl rfl rfl
theorem updUsb {f : Usb → Usb} (a : Steady b h k) : Steady b h (k.updUsb f) := a.upd rfl rfl rfl rfl
theorem updTun {t : Nat} {f : UsbTun → UsbTun} (a : Steady b h k) : Steady b h (k.updTun t f) := a.upd rfl rfl rfl rfl
theorem updUport {i : Nat} {f : UsbPort → UsbPort} (a : Steady b h k) : Steady b h (k.updUport i f) := a.upd rfl rfl rfl rfl
theorem updLink {p : Nat} {f : LinkSt → LinkSt} (a : Steady b h k) : Steady b h (k.updLink p f) := a.upd rfl rfl rfl rfl
theorem updTport {t : Nat} {f : TssPort → TssPort} (a : Steady b h k) : Steady b h (k.updTport t f) := a.upd rfl rfl rfl rfl
theorem updPaging {f : Paging → Paging} (a : Steady b h k) : Steady b h (k.updPaging f) := a.upd rfl rfl rfl rfl
theorem updVin {n : Nat} {f : VinRx → VinRx} (a : Steady b h k) : Steady b h (k.updVin n f) := a.upd rfl rfl rfl rfl
theorem updDpOut {o : Nat} {f : DpOut → DpOut} (a : Steady b h k) : Steady b h (k.updDpOut o f) := a.upd rfl rfl rfl rfl
theorem setCtx {s : Nat} {x : Ctx} (a : Steady b h k) : Steady b h (k.setCtx s x) := a.upd rfl rfl rfl rfl
theorem updCtx {s : Nat} {f : Ctx → Ctx} (a : Steady b h k) : Steady b h (k.updCtx s f) := a.setCtx
theorem setFt {s t : Nat} {f : FlowTgt} (a : Steady b h k) : Steady b h (k.setFt s t f) := a.upd rfl rfl rfl rfl
theorem setCell {i : Nat} {x : Option CellSt} (a : Steady b h k) : Steady b h (k.setCell i x) := a.upd rfl rfl rfl rfl
theorem setFoyer {p : Nat} {l : List FoyFrame} (a : Steady b h k) : Steady b h (k.setFoyer p l) := a.upd rfl rfl rfl rfl

/-! Parts that a step replaces whole. -/

theorem withPaging {x : Paging} (a : Steady b h k) : Steady b h { k with paging := x } := a.upd rfl rfl rfl rfl
theorem withFts {x : Tab FlowTgt} (a : Steady b h k) : Steady b h { k with fts := x } := a.upd rfl rfl rfl rfl
theorem withMir {x : Mir} (a : Steady b h k) : Steady b h { k with mir := x } := a.upd rfl rfl rfl rfl
theorem withOpens {x : List OpenFrame} (a : Steady b h k) : Steady b h { k with opens := x } := a.upd rfl rfl rfl rfl
theorem withWaits {x : List WaitFrame} (a : Steady b h k) : Steady b h { k with waits := x } := a.upd rfl rfl rfl rfl
theorem withPageq {x : List PageReq} (a : Steady b h k) : Steady b h { k with pageq := x } := a.upd rfl rfl rfl rfl
theorem withTime {x : TimeBase} (a : Steady b h k) : Steady b h { k with time := x } := a.upd rfl rfl rfl rfl
theorem withRepair {x : Option LaneRepair} (a : Steady b h k) : Steady b h { k with repair := x } := a.upd rfl rfl rfl rfl

/-! ### Headers -/

theorem attn {i : Nat} (a : Steady b h k) : Steady b h (k.attn c i) :=
  a.setHdr ⟨rfl, rfl, fun _ hi => bit_or_left hi _⟩

theorem setLive {i : Nat} {v : Bool} (a : Steady b h k) : Steady b h (k.setLive c i v) := a.setHdr ⟨rfl, rfl, fun _ hi => hi⟩

theorem faultPulse (a : Steady b h k) : Steady b h k.faultPulse := by
  unfold Hub.faultPulse
  dsimp only
  refine attn (inc ?_)
  exact a.upd rfl rfl rfl rfl

theorem fault {i : Nat} (a : Steady b h k) : Steady b h (k.fault c i) := by
  have hraised : ∀ j, bit (k.hdr c).attnRaw j = true →
      bit (if bit (k.hdr c).sticky i then (k.hdr c).attnRaw else (k.hdr c).attnRaw ||| bitW 28) j = true := fun j hj => by
    split
    · exact hj
    · exact bit_or_left hj _
  unfold Hub.fault
  dsimp only
  split
  · exact faultPulse (a.setHdr ⟨rfl, rfl, hraised⟩)
  · exact a.setHdr ⟨rfl, rfl, hraised⟩

/-- The mailbox runner stores a result and does not publish it. -/
theorem opResult {op : Nat} {r : MbxResult} (a : Steady b h k) : Steady b h (k.opResult c op r) :=
  a.when fun a => a.setHdr ⟨rfl, rfl, fun _ hi => hi⟩

/-! ### Lanes, rates and counters -/

theorem parkLane {l : Nat} (a : Steady b h k) : Steady b h (k.parkLane l) := a.wr
theorem freeLane {l : Nat} (a : Steady b h k) : Steady b h (k.freeLane l) := a.parkLane.wrF
theorem showSpares (a : Steady b h k) : Steady b h k.showSpares := a.wr.wr
theorem sitReleaseLane {l : Nat} (a : Steady b h k) : Steady b h (k.sitReleaseLane l) := a.when fun a => (a.when fun a => a.emit).wrB

theorem edgeIdle {p : Nat} {off : Bool} (a : Steady b h k) : Steady b h (k.edgeIdle p off) := a.foldl _ fun _ _ a => a.wrB

theorem placeLanes {p : Nat} {ls : List Nat} (a : Steady b h k) : Steady b h (k.placeLanes p ls) :=
  (a.foldl _ fun _ _ a => a.when fun a => a.wrF).wr.showSpares

theorem setPortLanes {p : Nat} {ls : List Nat} (a : Steady b h k) : Steady b h (k.setPortLanes p ls) :=
  ((a.foldl _ fun _ _ a => a.freeLane).foldl _ fun _ _ a => a.sitReleaseLane.parkLane.wrF).placeLanes

theorem dropLane {l : Nat} (a : Steady b h k) : Steady b h (k.dropLane l) := a.freeLane.when fun a => a.placeLanes

theorem laneGone {l : Nat} (a : Steady b h k) : Steady b h (k.laneGone l) := a.dropLane.wrB.wrB.ite a.dropLane.wrB.wrB

theorem lnxInit (a : Steady b h k) : Steady b h k.lnxInit :=
  a.whenNot fun a => ((a.foldl _ fun _ _ a => a.when fun a => a.setPortLanes).foldl _ fun _ _ a => a.laneGone).showSpares

theorem rateReport {t r : Nat} (a : Steady b h k) : Steady b h (k.rateReport t r) := a.wrF.wrF.ite a.wrF.wrF

theorem cntOvf {n : Nat} (a : Steady b h k) : Steady b h (k.cntOvf n) := a.wrB.attn

theorem capDue {n p : Nat} (a : Steady b h k) : Steady b h (k.capDue n p) := a.when fun a => a.updPmc

theorem cntAdd {p : Nat} (fuel : Nat) {n m : Nat} (a : Steady b h k) : Steady b h (k.cntAdd p fuel n m) := by
  induction fuel generalizing k n m with
  | zero => exact a
  | succ fuel ih => exact a.updPmc.whenNot fun a => (ih a.capDue).ite a.capDue.cntOvf

theorem pmcEvent {ev p tc n : Nat} (a : Steady b h k) : Steady b h (k.pmcEvent ev p tc n) :=
  a.foldl _ fun _ _ a => a.when fun a => a.cntAdd 256

theorem histTake {n t : Nat} {replayed : Bool} (a : Steady b h k) : Steady b h (k.histTake n t replayed) :=
  a.inc.ite ((a.when fun a => a.attn).inc.ite (a.inc.maxR.when fun a => a.inc).updPmc)

theorem histSample {src : Nat} {p tc flow : Option Nat} {t : Int} {replayed : Bool} (a : Steady b h k) :
    Steady b h (k.histSample src p tc flow t replayed) := a.foldl _ fun _ _ a => a.when fun a => a.histTake

/-! ### Cells, contexts and flow targets -/

theorem updCell {i : Nat} {f : CellSt → CellSt} (a : Steady b h k) : Steady b h (k.updCell i f) := by
  unfold Hub.updCell
  split
  · exact a.setCell
  · exact a

theorem storeCell {i : Nat} {x : CellSt} (a : Steady b h k) : Steady b h (k.storeCell i x) := a.setCell.pmcEvent

theorem newCells {cs : List CellSt} (a : Steady b h k) : Steady b h (k.newCells cs).1 := a.foldl _ fun _ _ a => a.storeCell

theorem dropEvent {p tc : Nat} (a : Steady b h k) : Steady b h (k.dropEvent p tc) := a.pmcEvent

theorem creditBack {p x : Nat} (a : Steady b h k) : Steady b h (k.creditBack p x) := a.updLink

theorem freeCell {i : Nat} (a : Steady b h k) : Steady b h (k.freeCell i) := by
  unfold Hub.freeCell
  split
  · exact a
  · exact (a.when fun a => a.updLink.creditBack).setCell

theorem freeCells {l : List Nat} (a : Steady b h k) : Steady b h (k.freeCells l) := a.foldl _ fun _ _ a => a.freeCell

theorem countFlow {p flow : Nat} {d : DropCnt} {n : Nat} (a : Steady b h k) : Steady b h (k.countFlow p flow d n) := by
  unfold Hub.countFlow
  split
  · exact a.when fun a => a.updCtx
  · split
    · exact a.updCtx
    · exact a.updCtx
    · exact a.upd rfl rfl rfl rfl

theorem payOwed {s : Nat} (a : Steady b h k) : Steady b h (k.payOwed s) := by
  unfold Hub.payOwed
  dsimp only
  split
  · exact withPaging a.updCtx
  · exact a

theorem ftGain {s t : Nat} {x : CellSt} (a : Steady b h k) : Steady b h (k.ftGain s t x) := a.setFt
theorem ftPast {s t : Nat} {f : FlowTgt} (a : Steady b h k) : Steady b h (k.ftPast s t f) := a.updTport

theorem ftSweep {s t : Nat} (a : Steady b h k) : Steady b h (k.ftSweep s t) := by
  refine a.whenNot fun a => when (withFts ?_) fun a => a.updTport
  split
  · exact a.ftPast
  · exact a

theorem newHead {s t : Nat} (a : Steady b h k) : Steady b h (k.newHead s t) := by
  unfold Hub.newHead
  split
  · exact a.setFt
  · exact a

theorem reheads {old : Hub} {s mask : Nat} (a : Steady b h k) : Steady b h (old.reheads k s mask) :=
  a.foldl _ fun _ _ a => a.whenNot fun a => a.newHead

theorem enlist {s : Nat} {ix : List Nat} (a : Steady b h k) : Steady b h (k.enlist s ix) := by
  refine a.foldl _ fun i j a => ?_
  split
  · exact a
  · exact a.setCell.updCtx.foldl _ fun _ _ a => a.ftGain

theorem purge {s : Nat} (a : Steady b h k) : Steady b h (k.purge s) := by
  unfold Hub.purge
  dsimp only
  exact a.freeCells.updCtx

theorem unlink {s : Nat} {ix : List Nat} (a : Steady b h k) : Steady b h (k.unlink s ix) := a.updCtx.freeCells

theorem dropUnread {s : Nat} {ix : List Nat} {mask : Nat} (a : Steady b h k) : Steady b h (k.dropUnread s ix mask) :=
  ((a.foldl _ fun _ _ a => a.updCell).unlink.purge.foldl _ fun _ _ a => a.ftSweep).reheads

theorem dropRefs {s : Nat} {ix : List Nat} {mask : Nat} (a : Steady b h k) : Steady b h (k.dropRefs s ix mask) :=
  ((a.foldl _ fun _ _ a => a.updCell).purge.freeCells.foldl _ fun _ _ a => a.ftSweep).reheads

theorem countReset {s n : Nat} (a : Steady b h k) : Steady b h (k.countReset s n) := a.updCtx

theorem foyRemove {p flow fseq : Nat} (a : Steady b h k) : Steady b h (k.foyRemove p flow fseq) := a.upd rfl rfl rfl rfl

/-! ### The resequencer -/

theorem rsqRelease {s : Nat} {f : HeldFrame} (a : Steady b h k) : Steady b h (k.rsqRelease s f) := a.updCtx.enlist

theorem rsqDrain {s : Nat} (fuel : Nat) (a : Steady b h k) : Steady b h (k.rsqDrain s fuel) := by
  induction fuel generalizing k with
  | zero => exact a
  | succ fuel ih =>
    rw [Hub.rsqDrain]
    split
    · exact a
    · exact ih a.rsqRelease.updCtx

theorem rsqSkip {s : Nat} (fuel : Nat) (a : Steady b h k) : Steady b h (k.rsqSkip s fuel) := by
  induction fuel generalizing k with
  | zero => exact a
  | succ fuel ih =>
    rw [Hub.rsqSkip]
    split
    · exact a.updCtx.attn
    · split
      · exact ih a.rsqRelease.updCtx
      · exact ih a.updCtx.attn

theorem rsqHold {s : Nat} {f : HeldFrame} (a : Steady b h k) : Steady b h (k.rsqHold s f) := by
  unfold Hub.rsqHold
  dsimp only
  refine updCtx ?_
  split
  · exact a.updCell
  · exact a

theorem rsqTake {s : Nat} {f : HeldFrame} (a : Steady b h k) : Steady b h (k.rsqTake s f) := a.enlist.updCtx.rsqDrain 64

theorem rsqFrame {s : Nat} {f : HeldFrame} (a : Steady b h k) : Steady b h (k.rsqFrame s f) := by
  have hset := a.whenNot (c := (k.ctx s).rsqSet) (j := k.updCtx s fun c => { c with rsqSet := true, rsqNext := f.fseq }) fun a => a.updCtx
  have hskip := fun n => (hset.rsqSkip (s := s) n).rsqDrain (s := s) 64
  unfold Hub.rsqFrame
  exact hset.rsqTake.ite ((hset.freeCells.updCtx.ite hset.rsqHold).ite (((hskip _).rsqTake.ite (hskip _).rsqHold).ite
    (hset.freeCells.updCtx.ite (hset.freeCells.updCtx.ite hset.freeCells.updCtx))))

end Hub.Steady

end Sys2Proof.Machine
end

section
/-! SUPPORT. Admission, foyers and paging leave a block's straps, store and reports alone. -/

namespace Sys2Proof.Machine.Hub.Steady

variable {b : Block} {h k : Hub}

/-! ### Admission -/

theorem showBanks (a : Steady b h k) : Steady b h k.showBanks := a.wr
theorem crossLate {i c ok : Nat} (a : Steady b h k) : Steady b h (k.crossLate i c ok) := a.when fun a => a.inc
theorem setRecs {r : Tab PairRec} (a : Steady b h k) : Steady b h (k.setRecs r) := a.withMir.wr

theorem recEnsure {flow : Nat} {pin : Bool} (a : Steady b h k) : Steady b h (k.recEnsure flow pin) :=
  a.whenNot fun a => a.withMir.setRecs.ite (a.whenNot fun a => a.withMir.inc.attn)

theorem recDrop {flow : Nat} (a : Steady b h k) : Steady b h (k.recDrop flow) := (a.when fun a => a.withMir).when fun a => a.setRecs

theorem mirQueue {r : MirRec} (a : Steady b h k) : Steady b h (k.mirQueue r) := a.withMir
theorem ctxNote {op s : Nat} (a : Steady b h k) : Steady b h (k.ctxNote op s) := a.when fun a => a.mirQueue
theorem wideCheck {s : Nat} (a : Steady b h k) : Steady b h (k.wideCheck s) := a.when fun a => a.attn
theorem trumpRefused {c mask : Nat} (a : Steady b h k) : Steady b h (k.trumpRefused c mask) := a.when fun a => a.fault.attn
theorem dropAt {mask : Nat} (a : Steady b h k) : Steady b h (k.dropAt mask) := a.foldl _ fun _ _ a => a.inc

theorem countRefused {s i c : Nat} {v : Verdict} (a : Steady b h k) : Steady b h (k.countRefused s i c v) := by
  unfold Hub.countRefused
  dsimp only
  split
  · exact a.updCtx.dropEvent.dropAt.trumpRefused
  · exact a.updCtx.dropEvent.inc

theorem frameIn {s : Nat} {ix : List Nat} {fseq tmask : Nat} (a : Steady b h k) : Steady b h (k.frameIn s ix fseq tmask) :=
  a.rsqFrame.ite a.enlist

theorem admitWhole {s i flow : Nat} {payload : List Byte} {ok refused : Nat} (a : Steady b h k) :
    Steady b h (k.admitWhole s i flow payload ok refused) := a.updCtx.newCells.frameIn.dropAt.trumpRefused

theorem startWait {w : WaitFrame} (a : Steady b h k) : Steady b h (k.startWait w) := a.withWaits.inc

theorem offer {s i flow : Nat} {payload : List Byte} {told : Bool} (a : Steady b h k) :
    Steady b h (k.offer s i flow payload told).1 := by
  have hwide := a.wideCheck (s := s)
  unfold Hub.offer
  dsimp only
  split
  · split
    · exact hwide.admitWhole
    · exact hwide.whenNot fun a => a.trumpRefused
  · split
    · exact hwide.whenNot fun a => a.trumpRefused
    · exact hwide.countRefused
  · split
    · exact hwide
    · exact hwide.countRefused

theorem postFrame {p handle : Nat} {payload : List Byte} (a : Steady b h k) : Steady b h (k.postFrame p handle payload) := by
  have hoffer := a.offer (s := p) (i := 0x11) (flow := handle) (payload := payload) (told := false)
  unfold Hub.postFrame
  dsimp only
  split
  · exact a.startWait
  · split <;> rename_i heq <;> rw [heq] at hoffer
    · exact hoffer.startWait
    · exact hoffer

theorem postNear {p typ : Nat} {body : List Byte} (a : Steady b h k) : Steady b h (k.postNear p typ body) := a.postFrame

theorem routeMiss {i : Nat} (a : Steady b h k) : Steady b h (k.routeMiss i) := a.inc.attn.inc.dropEvent

theorem postHub {n typ : Nat} {body : List Byte} (a : Steady b h k) : Steady b h (k.postHub n typ body) := by
  unfold Hub.postHub
  split
  · exact a.postFrame
  · exact a.routeMiss

theorem msgBad (a : Steady b h k) : Steady b h k.msgBad := a.inc.attn
theorem freeSlotAt {s : Nat} (a : Steady b h k) : Steady b h (k.freeSlotAt s) := a.recDrop.setCtx

theorem rlog {flow reason port : Nat} (a : Steady b h k) : Steady b h (k.rlog flow reason port) := by
  unfold Hub.rlog
  dsimp only
  exact (a.wrF.wr.wr.ite a.wr.wr.wr.wr.wr).attn

theorem refuseFlow {flow reason port tc : Nat} (a : Steady b h k) : Steady b h (k.refuseFlow flow reason port tc) :=
  a.rlog.inc.inc.dropEvent

/-! ### Foyers -/

theorem foyEnter {p : Nat} {f : FoyFrame} (a : Steady b h k) : Steady b h (k.foyEnter p f) := a.setFoyer.pmcEvent.maxF
theorem foyLeave {p : Nat} {f : FoyFrame} (a : Steady b h k) : Steady b h (k.foyLeave p f) := a.setFoyer.histSample.maxF
theorem foyClose {p flow : Nat} (a : Steady b h k) : Steady b h (k.foyClose p flow) := a.withOpens

theorem foyRefuse {p : Nat} {f : FoyFrame} {reason : Nat} (a : Steady b h k) : Steady b h (k.foyRefuse p f reason) :=
  (a.foyLeave.freeCells.whenNot fun a => a.foyClose).refuseFlow

theorem refuseFoyers {flow reason : Nat} (a : Steady b h k) : Steady b h (k.refuseFoyers flow reason) :=
  a.foldl _ fun _ _ a => a.foldl _ fun _ _ a => a.foyRefuse

theorem foyOffer {s p : Nat} {f : FoyFrame} (a : Steady b h k) : Steady b h (k.foyOffer s p f).1 := by
  have hwide := a.wideCheck (s := s)
  unfold Hub.foyOffer
  dsimp only
  split
  · split
    · exact (hwide.foyLeave.updCtx.foldl _ fun _ _ a => a.updCell).frameIn.dropAt.trumpRefused
    · exact hwide
  · split
    · exact (hwide.whenNot fun a => a.trumpRefused).setFoyer.ite (hwide.whenNot fun a => a.trumpRefused).setFoyer.inc
    · exact hwide.foyLeave.freeCells.countRefused

theorem foyOfferLink {s p : Nat} {f : FoyFrame} (a : Steady b h k) : Steady b h (k.foyOfferLink s p f) := by
  have hleft := (a.wideCheck (s := s)).foyLeave (p := p) (f := f)
  unfold Hub.foyOfferLink
  dsimp only
  split
  · refine ite (frameIn ?admitted) (whenNot (withOpens ?admitted) fun a => a.enlist)
    exact (hleft.foldl _ fun _ _ a => a.updCell).dropAt.trumpRefused.crossLate
  · exact (hleft.freeCells.whenNot fun a => a.foyClose).countRefused

theorem foyOfferAll {s p : Nat} (l : List FoyFrame) (a : Steady b h k) : Steady b h (k.foyOfferAll s p l) := by
  induction l generalizing k with
  | nil => exact a
  | cons f l ih =>
    have hoffer := a.foyOffer (s := s) (p := p) (f := f)
    rw [Hub.foyOfferAll]
    split
    · exact ih a.foyOfferLink
    · split <;> rename_i heq <;> rw [heq] at hoffer
      · exact hoffer
      · exact ih hoffer

theorem leaveFoyers {s : Nat} (a : Steady b h k) : Steady b h (k.leaveFoyers s) := a.foldl _ fun _ _ a => a.foyOfferAll _

/-! ### Page transfers -/

theorem takeReq (a : Steady b h k) : Steady b h k.takeReq.1 := a.withPaging

/-- FCM's request ends by a result that is not published yet. -/
theorem fcmOpDone {flow : Nat} {f : Hub → Hub × Option MbxResult} (a : Steady b h k) (hf : ∀ j, Steady b h j → Steady b h (f j).1) :
    Steady b h (k.fcmOpDone flow f) := by
  have hop := hf _ (a.updPaging (f := fun p => { p with op := none }))
  unfold Hub.fcmOpDone
  split
  · exact a
  · split
    · split <;> rename_i heq <;> rw [heq] at hop
      · exact hop.opResult
      · exact hop
    · exact a

theorem fcmEnds {flow : Nat} {r : Option MbxResult} (a : Steady b h k) : Steady b h (k.fcmOpDone flow fun h => (h, r)) := by
  refine a.fcmOpDone fun j a => ?_
  exact a

theorem pageFail {pi : PageIn} {reason : Nat} (a : Steady b h k) : Steady b h (k.pageFail pi reason) := by
  unfold Hub.pageFail
  dsimp only
  exact a.updPaging.freeSlotAt.refuseFoyers.inc.attn.fault.fcmEnds

theorem pathCheck (a : Steady b h k) : Steady b h k.pathCheck := by
  unfold Hub.pathCheck
  dsimp only
  refine ite (setLive (fault ?checked)) (when ?checked fun a => a.setLive)
  refine a.when fun a => updPaging (foldl _ (foldl _ a fun _ _ a => a.pageFail) fun _ _ a => ?_)
  exact a.refuseFoyers.fcmEnds

theorem pathHold (a : Steady b h k) : Steady b h k.pathHold := a.updPaging.pathCheck

theorem pageLatency {flow since : Nat} (a : Steady b h k) : Steady b h (k.pageLatency flow since) :=
  a.pmcEvent.histSample.maxF.when fun a => a.inc.attn

theorem pinSlot {s : Nat} (a : Steady b h k) : Steady b h (k.pinSlot s) := (a.updCtx.when fun a => a.recEnsure).when fun a => a.attn

theorem pageInstall {pi : PageIn} {c : Ctx} (a : Steady b h k) : Steady b h (k.pageInstall pi c) := by
  unfold Hub.pageInstall
  dsimp only
  refine fcmOpDone a.updPaging.setCtx.payOwed.inc.pageLatency.leaveFoyers fun j a => ?_
  split
  · split
    · exact a
    · exact updPaging (f := fun _ => _) a
  · split
    · exact a
    · exact a.pinSlot.ctxNote
  · exact a

theorem pageData {req status : Nat} {image : List Byte} (a : Steady b h k) : Steady b h (k.pageData req status image) := by
  unfold Hub.pageData
  split
  · exact a.msgBad
  · exact a.pathHold.ite (a.pageFail.ite (a.pageFail.ite (a.pageFail.ite
      ((a.when fun a => a.inc.attn).pageFail.ite (a.pageFail.ite a.pageInstall)))))

theorem wbLost (a : Steady b h k) : Steady b h k.wbLost := a.inc.attn.fault

theorem wbEnd {w : WriteBack} {good : Bool} (a : Steady b h k) : Steady b h (k.wbEnd w good) := by
  have hfreed : ∀ {j}, Steady b h j → Steady b h (match j.ctxs.find? fun e => e.2.state = .writeback ∧ e.2.handle = w.flow with
      | some (s, _) => j.freeSlotAt s
      | none => j) := fun a => by
    split
    · exact a.freeSlotAt
    · exact a
  unfold Hub.wbEnd
  dsimp only
  split
  · exact fcmEnds (hfreed (a.updPaging.inc.ite a.updPaging.wbLost))
  · exact fcmEnds (hfreed (a.updPaging.inc.ite a.updPaging.wbLost))
  · exact hfreed (a.updPaging.inc.ite a.updPaging.wbLost)

theorem wbAck {req status : Nat} (a : Steady b h k) : Steady b h (k.wbAck req status) := by
  unfold Hub.wbAck
  split
  · exact a.msgBad
  · exact a.wbEnd.when fun a => a.pathHold

theorem pageAnswer {r : PageReq} {status : Nat} {image : List Byte} (a : Steady b h k) : Steady b h (k.pageAnswer r status image) := by
  unfold Hub.pageAnswer
  split
  · exact a.wbAck.ite a.pageData
  · exact a.postHub.ite a.postHub

theorem holdTag {t : Nat} {u : TagUse} (a : Steady b h k) : Steady b h (k.holdTag t u) := a.upd rfl rfl rfl rfl

theorem pageWrite {x : Nat} {l : List Byte} (a : Steady b h k) : Steady b h (k.pageWrite x l) := a.emit.ite a.emit.emit

theorem pageServe (fuel : Nat) (a : Steady b h k) : Steady b h (k.pageServe fuel) := by
  induction fuel generalizing k with
  | zero => exact a
  | succ fuel ih =>
    rw [Hub.pageServe]
    split
    · exact a
    · split
      · exact ih a.withPageq.pageAnswer
      · split
        · exact ih a.withPageq.pageWrite.pageAnswer
        · split
          · exact (ih a.withPageq.holdTag.emit).ite a
          · exact a

theorem pageSubmit {r : PageReq} (a : Steady b h k) : Steady b h (k.pageSubmit r) := (a.withPageq.pageServe _).ite a.pageAnswer

theorem writeBack {flow gen : Nat} {cause : WbCause} {image : List Byte} (a : Steady b h k) :
    Steady b h (k.writeBack flow gen cause image) := a.takeReq.updPaging.pageSubmit.ite a.takeReq.updPaging.postHub

theorem pageStart {flow since : Nat} (a : Steady b h k) : Steady b h (k.pageStart flow since) := by
  unfold Hub.pageStart
  split
  · exact a
  · refine ite (pageSubmit ?asked) (postHub ?asked)
    exact ((a.when fun a => a.recDrop).setCtx.when fun a => a.writeBack).takeReq.updPaging

theorem wantPage {flow : Nat} (a : Steady b h k) : Steady b h (k.wantPage flow) := a.whenNot fun a => a.pageStart.ite a.updPaging

/-! ### Frames of the edge ports -/

theorem edgeFoyer {i flow : Nat} {payload : List Byte} {again told : Bool} (a : Steady b h k) :
    Steady b h (k.edgeFoyer i flow payload again told).1 := by
  unfold Hub.edgeFoyer
  dsimp only
  split
  · dsimp only
    exact a.newCells.foyEnter.wantPage
  · split
    · exact a
    · dsimp only
      exact a.refuseFlow

theorem edgeOffer {i flow : Nat} {payload : List Byte} {again told : Bool} (a : Steady b h k) :
    Steady b h (k.edgeOffer i flow payload again told).1 := by
  unfold Hub.edgeOffer
  split
  · exact a.offer
  · exact a.edgeFoyer
  · split
    · dsimp only
      exact a.refuseFlow
    · exact a.edgeFoyer

theorem edgeFrame {i flow : Nat} {payload : List Byte} (a : Steady b h k) : Steady b h (k.edgeFrame i flow payload).1 := by
  have hoffer := a.edgeOffer (i := i) (flow := flow) (payload := payload) (again := false) (told := false)
  unfold Hub.edgeFrame
  split
  · exact a
  · split
    · exact a.startWait
    · split <;> rename_i heq
      · rw [heq] at hoffer
        exact hoffer.startWait
      · exact hoffer

end Sys2Proof.Machine.Hub.Steady
end

section
/-! SUPPORT. Links, pairs and edge ports leave a block's straps, store and reports alone. -/

namespace Sys2Proof.Machine.Hub.Steady

variable {b : Block} {h k : Hub}

/-! ### Time, rates and the link ports' reports -/

theorem trigPin {n : Nat} {v : Bool} (a : Steady b h k) : Steady b h (k.trigPin n v) := a.upd rfl rfl rfl rfl

theorem timeShow (a : Steady b h k) : Steady b h k.timeShow := a.wr.wrB

theorem setLocked {v : Bool} (a : Steady b h k) : Steady b h (k.setLocked v) :=
  a.whenNot fun a => a.wrB.attn.wrB.ite (a.wrB.attn.when fun a => a.withTime.wrB.timeShow)

theorem updLanes {p : Nat} {f : Word → Word} (a : Steady b h k) : Steady b h (k.updLanes p f) := a.foldl _ fun _ _ a => a.wr

theorem showLinkRate {p : Nat} (a : Steady b h k) : Steady b h (k.showLinkRate p) := a.wrF.wrF.ite a.wrF.wrF

theorem sendHello {p : Nat} (a : Steady b h k) : Steady b h (k.sendHello p) := a.updLink.postNear

theorem helloAgain (a : Steady b h k) : Steady b h k.helloAgain := a.foldl _ fun _ _ a => a.when fun a => a.sendHello

theorem showDepth (a : Steady b h k) : Steady b h k.showDepth := a.wr.whenNot fun a => a.helloAgain

/-! ### Pairs (R246 to R268) -/

theorem giveGroup {g : Nat} {viaOp : Bool} (a : Steady b h k) : Steady b h (k.giveGroup g viaOp) := a.wrB.withMir.postNear

theorem autoHandover {p : Nat} (a : Steady b h k) : Steady b h (k.autoHandover p) := by
  unfold Hub.autoHandover
  split
  · exact a.when fun a => a.giveGroup
  · exact a

theorem sendPairSync (a : Steady b h k) : Steady b h k.sendPairSync := a.withMir.postNear

theorem pairAlone (a : Steady b h k) : Steady b h k.pairAlone := a.wrF.wrF.withMir.opResult

theorem setPair {st why : Nat} (a : Steady b h k) : Steady b h (k.setPair st why) := by
  have hshown : Steady b h (if st = 2 then (k.wrF Reg.MIR_STAT 2 0 st).wrF Reg.MIR_STAT 11 8 why
      else ((k.wrF Reg.MIR_STAT 2 0 st).wrF Reg.MIR_STAT 11 8 why).pairAlone) := a.wrF.wrF.whenNot fun a => a.pairAlone
  unfold Hub.setPair
  exact (hshown.fault.setLive.attn.ite (hshown.when fun a => a.setLive)).when fun a => a.setLive

theorem pairUp (a : Steady b h k) : Steady b h k.pairUp := a.setPair.wrF.attn.updMir.foldl _ fun _ _ a => a.giveGroup

theorem syncJudge (a : Steady b h k) : Steady b h k.syncJudge := by
  unfold Hub.syncJudge
  split
  · exact a.whenNot fun a => (a.whenNot fun a => a.pairUp).ite a.setPair
  · exact a

theorem mirrorUp (a : Steady b h k) : Steady b h k.mirrorUp := a.when fun a => a.wr.sendPairSync.syncJudge

theorem mirrorDown (a : Steady b h k) : Steady b h k.mirrorDown := a.withMir.when fun a => a.setPair

/-! ### Ports come down -/

theorem showTtSrc (a : Steady b h k) : Steady b h k.showTtSrc := a.foldl _ fun _ _ a => a.wrB

theorem setTtLocked {v : Bool} (a : Steady b h k) : Steady b h (k.setTtLocked v) :=
  a.whenNot fun a => a.wrB.attn.showTtSrc.when fun a => a.setLocked

theorem repairAbort {p err : Nat} (a : Steady b h k) : Steady b h (k.repairAbort p err) := by
  unfold Hub.repairAbort
  split
  · exact a.when fun a => a.withRepair.parkLane.showSpares.opResult
  · exact a

theorem dropTarget {t : Nat} {repl : Bool} (a : Steady b h k) : Steady b h (k.dropTarget t repl) := by
  unfold Hub.dropTarget
  dsimp only
  refine updTport (foldl _ (when (foldl _ (foldl _ a.inc fun _ _ a => a.countReset) fun f j a => ?_) fun a =>
    a.foldl _ fun _ _ a => a.updCell) fun _ _ a => a.dropRefs)
  split
  · exact a.dropEvent
  · exact a

theorem dropOpen {p : Nat} {count : Bool} (a : Steady b h k) : Steady b h (k.dropOpen p count) := by
  refine a.foldl _ fun o j a => ?_
  have hcounted : Steady b h (if count = true then
      (Hub.inc { j with opens := j.opens.filter fun x => ¬ (x.port = o.port ∧ x.flow = o.flow) } (Reg.TP_DROP_RESET p)).dropEvent p o.tc
      else { j with opens := j.opens.filter fun x => ¬ (x.port = o.port ∧ x.flow = o.flow) }) :=
    a.withOpens.when fun a => a.inc.dropEvent
  dsimp only
  split
  · exact hcounted.dropUnread.when fun a => a.countReset
  · exact hcounted.freeCells.when fun a => a.countReset
  · exact hcounted.foyRemove.freeCells.when fun a => a.countFlow
  · exact hcounted.freeCells.when fun a => a.countFlow

theorem dropWaits {sel : WaitFrame → Bool} (a : Steady b h k) : Steady b h (k.dropWaits sel) := by
  refine a.withWaits.foldl _ fun w j a => ?_
  dsimp only
  split
  · exact a.inc.dropEvent.countReset
  · exact a.inc.dropEvent.countFlow

theorem foyerReset {p : Nat} (a : Steady b h k) : Steady b h (k.foyerReset p) :=
  (a.foldl _ fun _ _ a => a.inc.dropEvent.freeCells.countFlow).setFoyer

theorem edgeReturn {p : Nat} (a : Steady b h k) : Steady b h (k.edgeReturn p) :=
  (a.when fun a => a.dropTarget).dropOpen.foyerReset.dropWaits

theorem dropHeldTc6 {p : Nat} (a : Steady b h k) : Steady b h (k.dropHeldTc6 p) := by
  unfold Hub.dropHeldTc6
  split
  · exact a.when fun a => a.inc.dropEvent.countFlow
  · exact a

theorem portReset {p : Nat} {count : Bool} (a : Steady b h k) : Steady b h (k.portReset p count) :=
  (a.repairAbort.dropHeldTc6.dropWaits.dropTarget.dropOpen.foldl _ fun _ _ a => a.updCell).updLink.wr

theorem lastFail {p x : Nat} (a : Steady b h k) : Steady b h (k.lastFail p x) := a.wrF
theorem dropKeys {p : Nat} (a : Steady b h k) : Steady b h (k.dropKeys p) := a.updLink.wrB

theorem klAttn {old new : Nat} (a : Steady b h k) : Steady b h (k.klAttn old new) := by
  have hup : Steady b h (let h := if new = 5 ∧ (old = 4 ∨ old = 8 ∨ old = 7) then k.attn .kll 0 else k
      if new = 5 ∧ old = 7 then h.attn .kll 4 else h) := (a.when fun a => a.attn).when fun a => a.attn
  unfold Hub.klAttn
  exact hup.attn.ite (hup.attn.ite (hup.when fun a => a.attn))

theorem setKl {p new : Nat} (a : Steady b h k) : Steady b h (k.setKl p new) := by
  refine a.whenNot fun a => when (showDepth ?_) fun a => a.pathCheck
  refine ite (mirrorUp ?given) (when ?given fun a => a.mirrorDown)
  refine when (when (wrB (klAttn ?entered)) fun a => a.setTtLocked) fun a => a.autoHandover
  exact a.wrF.updLink.when fun a => a.dropKeys

theorem klDown {p : Nat} {fail : Option Nat} {count : Bool} (a : Steady b h k) : Steady b h (k.klDown p fail count) := by
  refine a.whenNot fun a => showLinkRate (setKl (portReset ?_))
  split
  · exact a.lastFail
  · exact a

/-! ### DisplayPort, Ethernet and power -/

theorem edgeRate {c r : Nat} (a : Steady b h k) : Steady b h (k.edgeRate c r) := (a.foldl _ fun _ _ a => a.sitReleaseLane).updLanes
theorem dpReport {o r : Nat} (a : Steady b h k) : Steady b h (k.dpReport o r) := a.rateReport
theorem dpLive (a : Steady b h k) : Steady b h k.dpLive := a.setLive
theorem dpIdle {o : Nat} (a : Steady b h k) : Steady b h (k.dpIdle o) := a.edgeIdle

theorem dpLinkDown {o : Nat} (a : Steady b h k) : Steady b h (k.dpLinkDown o) :=
  a.when fun a => a.wrB.updDpOut.dpReport.dpIdle.attn.fault.dpLive

theorem dpPortReset {o : Nat} (a : Steady b h k) : Steady b h (k.dpPortReset o) :=
  (a.edgeReturn.foldl _ fun _ _ a => a.whenNot fun a => a.countFlow).dpLinkDown.ite (a.edgeReturn.when fun a => a.emit)

theorem epShow {p : Nat} (a : Steady b h k) : Steady b h (k.epShow p) := a.wrF.wrF.wrF
theorem epReport {p : Nat} (a : Steady b h k) : Steady b h (k.epReport p) := a.epShow.edgeRate.wrF

theorem showLeads (a : Steady b h k) : Steady b h k.showLeads := (a.foldl _ fun _ _ a => a.wrF).foldl _ fun _ _ a => a.wrF

theorem setPoint {point : Nat} (a : Steady b h k) : Steady b h (k.setPoint point) := a.wrF.showLeads
theorem showSteward (a : Steady b h k) : Steady b h k.showSteward := a.rateReport
theorem sitBack {left : Nat} (a : Steady b h k) : Steady b h (k.sitBack left) := a.upd rfl rfl rfl rfl

theorem backToRun {left wake us : Nat} (a : Steady b h k) : Steady b h (k.backToRun left wake us) :=
  (wrF a (x := Reg.PMU_STATE)).wrF.wrF.sitBack.updPower.attn.when fun a => a.opResult

theorem dozeExit {wake : Nat} (a : Steady b h k) : Steady b h (k.dozeExit wake) := a.when fun a => a.backToRun

theorem pmbStart {l : List PmbXact} (a : Steady b h k) : Steady b h (k.pmbStart l) := (a.foldl _ fun _ _ a => a.emit).updPower
theorem vout {mv : Nat} {raise : Bool} (a : Steady b h k) : Steady b h (k.vout mv raise) := a.pmbStart.updPower

theorem dvfsStart (a : Steady b h k) : Steady b h k.dvfsStart :=
  a.whenNot fun a => a.wrB.ite (a.wrB.ite (a.wrB.wrB.wrB.updPower.whenNot fun a => a.setPoint).vout)

theorem lockLost {l : Nat} {source : Bool} (a : Steady b h k) : Steady b h (k.lockLost l source) :=
  a.whenNot fun a => (a.attn.when fun a => a.fault).when fun a => a.updLink.setKl

theorem limitWatch (a : Steady b h k) : Steady b h k.limitWatch := a.fault.setLive.ite (a.when fun a => a.setLive)

/-! ### PCIe, USB and the cameras -/

theorem pxReport {r : Nat} (a : Steady b h k) : Steady b h (k.pxReport r) := a.rateReport
theorem pxFall (a : Steady b h k) : Steady b h k.pxFall := a.wr.attn.fault.setLive.pxReport
theorem exitDrop {p : Nat} {l : List ExitFrame} (a : Steady b h k) : Steady b h (k.exitDrop p l) := a.foldl _ fun _ _ a => a.countFlow

theorem withPxb {x : Pxb} {t : Tab TagUse} (a : Steady b h k) : Steady b h { k with pxb := x, tags := t } := a.upd rfl rfl rfl rfl

theorem pxReset (a : Steady b h k) : Steady b h k.pxReset := by
  unfold Hub.pxReset
  dsimp only
  exact foldl _ (withPxb (when a.edgeReturn.exitDrop fun a => a.pxFall)) fun _ _ a => a.pageAnswer

theorem upSet {p : Nat} {l : List (Nat × Bool)} (a : Steady b h k) : Steady b h (k.upSet p l) := a.wr

theorem usbMsg {kind which : Nat} {data : Word} (a : Steady b h k) : Steady b h (k.usbMsg kind which data) :=
  a.when fun a => a.wr.wr.wr.wr.ite a.wr.wr.wr.wr.wrF.updUsb

theorem usbPost {t kind which : Nat} {data : Word} {fresh : Bool} (a : Steady b h k) : Steady b h (k.usbPost t kind which data fresh) :=
  a.whenNot fun a => a.usbMsg.ite a.updUsb

theorem usbDeliver (a : Steady b h k) : Steady b h k.usbDeliver := a.updUsb.foldl _ fun _ _ a => a.when fun a => a.usbMsg

theorem tunMsg {t : Nat} (a : Steady b h k) : Steady b h (k.tunMsg t) := a.usbPost

theorem hframe (a : Steady b h k) : Steady b h k.hframe.1 := by
  unfold Hub.hframe
  split
  · exact a.upd rfl rfl rfl rfl
  · exact a

theorem tunEmit {t : Nat} {l : List Byte} (a : Steady b h k) : Steady b h (k.tunEmit t l) := a.edgeFrame
theorem burst {t : Nat} (a : Steady b h k) : Steady b h (k.burst t) := a.hframe.updTun.tunEmit
theorem tunWithdraw {t : Nat} (a : Steady b h k) : Steady b h (k.tunWithdraw t) := a.withWaits
theorem dropDev {d : Nat} (a : Steady b h k) : Steady b h (k.dropDev d) := a.updUsb
theorem dropPortDevs {p : Nat} (a : Steady b h k) : Steady b h (k.dropPortDevs p) := (a.foldl _ fun _ _ a => a.dropDev).updUport
theorem portOff {p : Nat} (a : Steady b h k) : Steady b h (k.portOff p) := a.upSet.dropPortDevs.updUport
theorem ocLive (a : Steady b h k) : Steady b h k.ocLive := a.setLive
theorem tunEpoch {t e : Nat} (a : Steady b h k) : Steady b h (k.tunEpoch t e) := a.tunWithdraw.updTun
theorem newEpoch {t : Nat} (a : Steady b h k) : Steady b h (k.newEpoch t) := a.tunEpoch.burst.tunMsg
theorem leafPortsOff (a : Steady b h k) : Steady b h k.leafPortsOff := (a.foldl _ fun _ _ a => a.portOff.wr).updUsb.ocLive
theorem hubClear (a : Steady b h k) : Steady b h k.hubClear := by
  unfold Hub.hubClear
  dsimp only
  exact (a.foldl _ fun _ _ a => a.wr).updUsb

theorem busReset (a : Steady b h k) : Steady b h k.busReset :=
  a.hubClear.usbDeliver.inc.attn.wrF.wrF.foldl _ fun _ _ a => a.when fun a => a.newEpoch

theorem vinClose {n : Nat} (a : Steady b h k) : Steady b h (k.vinClose n) := a.wrF.updVin
theorem vinTrunc {n : Nat} (a : Steady b h k) : Steady b h (k.vinTrunc n) := a.vinClose.inc.attn.fault

end Sys2Proof.Machine.Hub.Steady
end

section
/-! SUPPORT. A block reset (R27, R82, R91): the release, the return of its registers and header, and what it sets up again. -/

namespace Sys2Proof.Machine

namespace Hub.Steady

variable {b c : Block} {h k : Hub}

/-! Parts that a release begins anew. -/

theorem withCtxs {x : Tab Ctx} (a : Steady b h k) : Steady b h { k with ctxs := x } := a.upd rfl rfl rfl rfl
theorem withLog {x : Olog} {y : Remote} (a : Steady b h k) : Steady b h { k with olog := x, remote := y } := a.upd rfl rfl rfl rfl
theorem withXfer {x : TimeXfer} (a : Steady b h k) : Steady b h { k with xfer := x } := a.upd rfl rfl rfl rfl
theorem withDse {x : Dse} (a : Steady b h k) : Steady b h { k with dse := x } := a.upd rfl rfl rfl rfl
theorem withVin {x : Tab VinRx} (a : Steady b h k) : Steady b h { k with vin := x } := a.upd rfl rfl rfl rfl
theorem withEth {x : Tab EthPort} (a : Steady b h k) : Steady b h { k with eth := x } := a.upd rfl rfl rfl rfl
theorem withUsb {x : Usb} (a : Steady b h k) : Steady b h { k with usb := x } := a.upd rfl rfl rfl rfl
theorem withSit {x : Sit} (a : Steady b h k) : Steady b h { k with sit := x } := a.upd rfl rfl rfl rfl

theorem withLanes {x : Tab LaneSt} {y : Option LaneRepair} {z : AutoRepair} (a : Steady b h k) :
    Steady b h { k with lanes := x, repair := y, auto := z } := a.upd rfl rfl rfl rfl

theorem withPages {x : Paging} {y : List PageReq} (a : Steady b h k) : Steady b h { k with paging := x, pageq := y } :=
  a.upd rfl rfl rfl rfl

theorem withBuffers {x : Tab CellSt} {y : List OpenFrame} {z : Tab (List FoyFrame)} {w : List WaitFrame} {f : Tab FlowTgt} {n : Holders}
    {m : Banks} (a : Steady b h k) :
    Steady b h { k with cells := x, opens := y, foyers := z, waits := w, fts := f, counts := n, banks := m } := a.upd rfl rfl rfl rfl

/-! ### The release -/

theorem bufferReset (a : Steady b h k) : Steady b h k.bufferReset := by
  unfold Hub.bufferReset
  dsimp only
  refine withBuffers (foldl _ (foldl _ (foldl _ a fun _ _ a => a.klDown) fun _ _ a => a.edgeReturn) fun e j a => ?_)
  refine updCtx (foldl _ (a.whenNot fun a => a.countReset) fun f j a => ?_)
  split
  · exact a.inc.dropEvent
  · exact a

theorem vinRelease {n : Nat} (a : Steady b h k) :
    Steady b h (((if (k.vinRx n).isOpen then k.vinTrunc n else k).edgeReturn (0x12 + n)).trigPin n
      ((if (k.vinRx n).isOpen then k.vinTrunc n else k).vinRx n).pol) :=
  (a.when fun a => a.vinTrunc).edgeReturn.trigPin

theorem blockRelease (a : Steady b h k) : Steady b h (k.blockRelease c) := by
  unfold Hub.blockRelease
  cases c <;> dsimp only
  case stw => exact a.edgeReturn.withLog.updPower.showSteward
  case pmc | ppc => exact a.upd rfl rfl rfl rfl
  case lnx => exact withLanes (foldl _ a fun _ _ a => a.lockLost)
  case kll => exact withXfer (foldl _ a fun _ _ a => a.klDown)
  case mir => exact a.setPair.withMir
  case tsc => exact a.bufferReset
  case tss => exact a.upd rfl rfl rfl rfl
  case fcm => exact withCtxs (foldl _ a.bufferReset.withPages fun _ _ a => a.recDrop)
  case dse => exact a.dpPortReset.dpPortReset.withDse
  case vin => exact withVin (foldl _ a fun _ _ a => a.vinRelease)
  case eth => exact withEth (foldl _ a fun _ _ a => a.edgeReturn)
  case pxb => exact a.pxReset
  case usb => exact withUsb (a.edgeReturn.busReset.ite a.edgeReturn.leafPortsOff)
  case pmu => exact a.dozeExit.updPower
  case ksi => exact a
  case sit => exact withSit (foldl _ a fun _ _ a => a.when fun a => a.sitReleaseLane)

/-! ### What a block sets up again -/

theorem timeKept {valid : Bool} (a : Steady b h k) : Steady b h (k.timeKept valid) := by
  unfold Hub.timeKept
  refine timeShow (wrB (wrB ?_))
  exact a.upd rfl rfl rfl rfl

theorem pmuKept {point : Nat} (a : Steady b h k) : Steady b h (k.pmuKept point) :=
  (a.wrF.wrB.whenNot fun a => a.vout).ite a.wrF.wrB.dvfsStart

theorem tssShow (a : Steady b h k) : Steady b h k.tssShow :=
  (((a.showLeads.foldl _ fun _ _ a => a.showLinkRate).foldl _ fun _ _ a => a.epShow).foldl _ fun _ _ a =>
    a.dpReport).pxReport.rateReport.showSteward

theorem afterReset {old : Hub} (a : Steady b h k) : Steady b h (k.afterReset old c) := by
  unfold Hub.afterReset
  cases c <;> dsimp only
  case stw => exact a.timeKept
  case lnx => exact a.lnxInit
  case kll => exact a.showDepth
  case dse => exact a.foldl _ fun _ _ a => a.wrB
  case tss => exact a.tssShow
  case eth => exact a.foldl _ fun _ _ a => a.epReport
  case tsc => exact a.wr.showBanks.limitWatch
  case pmu => exact a.pmuKept
  case ksi => exact a.when fun a => a.setLive
  all_goals exact a

/-! ### The end of the command -/

theorem tscWatch {o : Hub} (a : Steady b h k) : Steady b h (o.tscWatch k) :=
  ((a.when fun a => a.wrF).when fun a => a.attn).whenNot fun a => a.foldl _ fun _ _ a => a.maxF

theorem settle {o : Hub} (a : Steady b h k) : Steady b h (settle o k) := by
  obtain ⟨-, -, -, hmbx, -, -, -, -, hwaiting, -⟩ := settle_hdr_fields o k b
  refine a.trans ⟨settle_straps o k, settle_ksi o k, settle_repairMap o k, ⟨by rw [hmbx], hwaiting, fun i hi => ?_⟩⟩
  rw [settle_hdr]
  show (keepNote o k).raw b i = true
  rcases keepNote_eq o k with e | e <;> rw [e]
  · exact hi
  · exact Hub.raw_attn_of_raw hi _ _

theorem resetEnd {o : Hub} (a : Steady b h k) : Steady b h (o.resetEnd k c) :=
  upd (k := Machine.settle o (o.tscWatch k)) a.tscWatch.settle (by unfold Hub.resetEnd; dsimp only; split <;> rfl)
    (by unfold Hub.resetEnd; dsimp only; split <;> rfl) (by unfold Hub.resetEnd; dsimp only; split <;> rfl)
    (by unfold Hub.resetEnd; dsimp only; split <;> rfl)

end Hub.Steady

end Sys2Proof.Machine
end

section
/-! SUPPORT. The clauses of BlockResets (R27, R82, R91, Table 3.16). -/

namespace Sys2Proof.Machine

variable {b : Block} {h : Hub}

/-! ### The return of registers and header -/

theorem Hub.regsReset_hdr (h : Hub) (b c : Block) :
    (h.regsReset b).hdr c = if c = b then (h.hdr b).afterReset h.straps b else h.hdr c := PerBlock.get_set _ _ _ _

theorem Hub.regsReset_rd (h : Hub) (b : Block) (a : Nat) :
    (h.regsReset b).rd a = if ofBlock b a = true ∧ keptAtBlockReset a = false then regReset h.straps a else h.rd a := by
  refine (Tab.get_filter _ (fun a => !ofBlock b a || keptAtBlockReset a) _ a).trans ?_
  cases ofBlock b a <;> cases keptAtBlockReset a <;> rfl

/-- The reset of one block leaves the header of every other. -/
theorem Hub.Steady.regsReset {c : Block} {k : Hub} (a : Hub.Steady b h k) (hc : b ≠ c) : Hub.Steady b h (k.regsReset c) :=
  a.trans ⟨rfl, rfl, rfl, by rw [Hub.regsReset_hdr, if_neg hc]; exact .refl _⟩

/-- A block's release, where the role has the block. -/
def Hub.released (h : Hub) (b : Block) : Hub := if h.present b then h.blockRelease b else h

theorem Hub.released_steady (h : Hub) (b : Block) : Hub.Steady b h (h.released b) := (Hub.Steady.refl h).when fun a => a.blockRelease

/-- A block reset is the release, the return of the block's registers and header, and then steps that leave the header steady. -/
theorem Hub.blockReset_steady (o h : Hub) (b : Block) :
    Hub.Steady b ((h.released b).regsReset b) (o.resetEnd (h.blockReset b) b) := by
  refine Hub.Steady.resetEnd (Hub.Steady.when ?_ fun a => a.wrB)
  have hset := (Hub.Steady.refl (b := b) ((h.released b).regsReset b)).afterReset (c := b) (old := h)
  show Hub.Steady b _ (if b = .fcm then _ else _)
  split
  · exact (hset.regsReset (by subst b; decide)).afterReset
  · exact hset

theorem exec_blockReset (b : Block) (s : State) :
    exec (.blockReset b) s = actReset s (s.hub.answers b) fun h => h.resetEnd (h.fresh.blockReset b) b := rfl

theorem runs_blockReset {s : State} (ha : s.hub.answers b = true) :
    Runs (.blockReset b) s (s.hub.resetEnd (s.hub.fresh.blockReset b) b) := by rw [Runs, exec_blockReset, actReset, if_pos ha]

/-- The straps, the key store and the repair map are what a block reset keeps of the hub. -/
theorem Hub.blockReset_frame (h : Hub) (b : Block) : Frame h (h.resetEnd (h.fresh.blockReset b) b)
    (allParts.filter fun p => p ∉ [.straps, .ksi, .repairMap]) Set.univ Block.all where
  part p hp := by
    have hreleased := h.fresh.released_steady b
    have hend := Hub.blockReset_steady h h.fresh b
    cases p
    case straps => exact hend.straps.trans hreleased.straps
    case ksi => exact hend.ksi.trans hreleased.ksi
    case repairMap => exact hend.repairMap.trans hreleased.repairMap
    all_goals exact absurd (by decide) hp
  reg a ha := absurd (Set.mem_univ a) ha
  hdr c hc := absurd c.mem_all hc

/-- A block reset ends as its frame says, with what holds of the hub after it. -/
theorem ends_blockReset {s : State} {Q : State → Prop} (ha : s.hub.answers b = true)
    (hq : Q { s with hub := s.hub.resetEnd (s.hub.fresh.blockReset b) b }) :
    Ends (.blockReset b) s (allParts.filter fun p => p ∉ [.straps, .ksi, .repairMap]) Set.univ Block.all Q :=
  (runs_blockReset ha).ends (s.hub.blockReset_frame b) hq

/-! ### The header after the reset (R82) -/

theorem Mailbox.report_afterReset (m : Mailbox) :
    m.afterReset.report = if m.busy then (false, m.ticket, true, true, 8) else (false, m.ticket, false, false, 0) := by
  unfold Mailbox.afterReset
  dsimp only
  split <;> rfl

/-- The release leaves BUSY and TICKET, which the reset's report is made of. -/
theorem Hub.blockReset_mbx (h : Hub) (b : Block) : ((h.resetEnd (h.fresh.blockReset b) b).mbx b).report =
    if (h.mbx b).busy then (false, (h.mbx b).ticket, true, true, 8) else (false, (h.mbx b).ticket, false, false, 0) := by
  have hmbx := (h.fresh.released_steady b).hdr.mbx
  have hbusy : ((h.fresh.released b).hdr b).mbx.busy = (h.mbx b).busy := congrArg (·.1) hmbx
  have hticket : ((h.fresh.released b).hdr b).mbx.ticket = (h.mbx b).ticket := congrArg (·.2.1) hmbx
  have hend := (Hub.blockReset_steady h h.fresh b).hdr.mbx
  rw [Hub.regsReset_hdr, if_pos rfl] at hend
  refine hend.trans ((Mailbox.report_afterReset _).trans ?_)
  rw [hbusy, hticket]

/-- A block reset sets RESET_DONE, and MBX_DONE where it aborted a request; no commit waits. -/
theorem Hub.blockReset_hdr (h : Hub) (b : Block) :
    (h.resetEnd (h.fresh.blockReset b) b).raw b 31 = true
    ∧ ((h.mbx b).busy = true → (h.resetEnd (h.fresh.blockReset b) b).raw b 29 = true)
    ∧ ((h.resetEnd (h.fresh.blockReset b) b).hdr b).waiting = [] := by
  have hend := (Hub.blockReset_steady h h.fresh b).hdr
  have hbusy : ((h.fresh.released b).hdr b).mbx.busy = (h.mbx b).busy := congrArg (·.1) (h.fresh.released_steady b).hdr.mbx
  rw [Hub.regsReset_hdr, if_pos rfl] at hend
  refine ⟨hend.raised 31 ?_, fun hb => hend.raised 29 ?_, hend.waiting⟩
  · show bit (if ((h.fresh.released b).hdr b).mbx.busy then 0xA0000000 else 0x80000000) 31 = true
    split <;> decide
  · show bit (if ((h.fresh.released b).hdr b).mbx.busy then 0xA0000000 else 0x80000000) 29 = true
    rw [hbusy, if_pos hb]
    decide

theorem ends_blockReset_idle {s : State} (ha : s.hub.answers b = true) (hbusy : (s.hub.mbx b).busy = false) :
    Ends (.blockReset b) s (allParts.filter fun p => p ∉ [.straps, .ksi, .repairMap]) Set.univ Block.all (fun t =>
      t.hub.raw b 31 = true ∧ (t.hub.hdr b).waiting = [] ∧ (t.hub.mbx b).ticket = (s.hub.mbx b).ticket
      ∧ (t.hub.mbx b).busy = false ∧ (t.hub.mbx b).ready = false) := by
  obtain ⟨hdone, -, hwaiting⟩ := s.hub.blockReset_hdr b
  have hreport := s.hub.blockReset_mbx b
  rw [hbusy] at hreport
  exact ends_blockReset ha ⟨hdone, hwaiting, congrArg (·.2.1) hreport, congrArg (·.1) hreport, congrArg (·.2.2.1) hreport⟩

theorem ends_blockReset_busy {s : State} (ha : s.hub.answers b = true) (hbusy : (s.hub.mbx b).busy = true) :
    Ends (.blockReset b) s (allParts.filter fun p => p ∉ [.straps, .ksi, .repairMap]) Set.univ Block.all (fun t =>
      t.hub.raw b 31 = true ∧ t.hub.raw b 29 = true ∧ (t.hub.mbx b).ticket = (s.hub.mbx b).ticket
      ∧ (t.hub.mbx b).busy = false ∧ (t.hub.mbx b).ready = true ∧ (t.hub.mbx b).err = true ∧ (t.hub.mbx b).errCode = 8) := by
  obtain ⟨hdone, haborted, -⟩ := s.hub.blockReset_hdr b
  have hreport := s.hub.blockReset_mbx b
  rw [hbusy] at hreport
  exact ends_blockReset ha ⟨hdone, haborted hbusy, congrArg (·.2.1) hreport, congrArg (·.1) hreport, congrArg (·.2.2.1) hreport,
    congrArg (·.2.2.2.1) hreport, congrArg (·.2.2.2.2) hreport⟩

/-! ### The registers after the reset -/

theorem mem_blockRegs {a : Nat} : a ∈ blockRegs b ↔ ofBlock b a = true := by simp [blockRegs, ofBlock]

theorem Block.at_of_ofBlock {a : Nat} (ha : ofBlock b a = true) : Block.at a = some b := by
  simp only [ofBlock, Bool.and_eq_true, decide_eq_true_eq] at ha
  exact Block.at_eq_some ha.1 ha.2

/-- TSC's watch writes TSC's own registers. -/
theorem Hub.tscWatch_frame (o n : Hub) : Frame n (o.tscWatch n) [] (blockRegs .tsc) [.tsc] := by
  have hkitty : Frame n (if n.counts.kitty.toNat < n.rdF Reg.TSC_KITTY_MIN 16 0 then n.wrF Reg.TSC_KITTY_MIN 16 0 n.counts.kitty.toNat
      else n) [] (blockRegs .tsc) [.tsc] := ((Frame.refl n).wrF (mem_blockRegs.mpr (by decide))).ite (Frame.refl n)
  unfold Hub.tscWatch
  refine Frame.ite ?watched (Frame.foldl _ ?watched fun t _ ht a => a.maxF ?_)
  · exact (hkitty.attn List.mem_cons_self).ite hkitty
  · have hlt : t < 18 := List.mem_range.mp ht
    rw [mem_blockRegs, ofBlock, show Block.tsc.base = 0x01000000 from rfl, Bool.and_eq_true, decide_eq_true_eq, decide_eq_true_eq]
    unfold Reg.TP_PEND_MAX
    omega

theorem Hub.resetEnd_rd (o n : Hub) (b : Block) {a : Nat} (ha : ofBlock .tsc a = false) : (o.resetEnd n b).rd a = n.rd a := by
  have hrd : (settle o (o.tscWatch n)).rd a = n.rd a :=
    (settle_rd _ _ a).trans ((o.tscWatch_frame n).reg a fun hm => by simp [mem_blockRegs.mp hm] at ha)
  unfold Hub.resetEnd
  dsimp only
  split
  · exact hrd
  · exact hrd

theorem Hub.blockReset_of_ne {b : Block} (h : Hub) (ht : b ≠ .tsc) (hf : b ≠ .fcm) :
    h.blockReset b = ((h.released b).regsReset b).afterReset h b := by
  show (if b = .tsc ∨ b = .fcm then _ else if b = .fcm then _ else _) = _
  rw [if_neg (by simp [ht, hf]), if_neg hf]
  rfl

/-- The registers of ETH that a block reset does not keep are at their reset values. -/
def Hub.EthReset (h : Hub) (st : Straps) : Prop :=
  ∀ a, ofBlock .eth a = true → keptAtBlockReset a = false → h.rd a = regReset st a

theorem ethPort_reset (st : Straps) {p : Nat} (hp : p < 4) : regReset st (Reg.EP_STAT p) = 0 ∧ fld (regReset st (Reg.EP_CFG p)) 2 0 = 0
    ∧ ofBlock .eth (Reg.EP_CFG p) = true ∧ keptAtBlockReset (Reg.EP_CFG p) = false
    ∧ ofBlock .eth (Reg.EP_STAT p) = true ∧ keptAtBlockReset (Reg.EP_STAT p) = false := by
  interval_cases p <;> exact ⟨rfl, rfl, by decide, by decide, by decide, by decide⟩

theorem not_mem_eth_of_lt {a : Nat} (ha : a < 0x01A00000) : a ∈ (blockRegs .eth)ᶜ := by
  rintro ⟨hbase, -⟩
  rw [show Block.eth.base = 0x01A00000 from rfl] at hbase
  omega

/-- Rate, lead and lanes of an Ethernet port are shown outside ETH (R237). -/
theorem Hub.epRate_frame (h : Hub) {p : Nat} (hp : p < 4) (c r : Nat) :
    Frame h ((h.epShow p).edgeRate c r) [] (blockRegs .eth)ᶜ [] := by
  have hstat : ∀ {k : Hub} {l : Nat}, l ∈ k.portLanes c → Reg.LN_STAT l ∈ (blockRegs .eth)ᶜ := fun {k l} hl =>
    not_mem_eth_of_lt (by have := k.portLanes_lt hl; unfold Reg.LN_STAT; omega)
  have hshow : Frame h (h.epShow p) [] (blockRegs .eth)ᶜ [] :=
    (((Frame.refl h).wrF (not_mem_eth_of_lt (by unfold Reg.TS_BYTE_TIME; omega))).wrF
      (not_mem_eth_of_lt (by unfold Reg.TS_CAP; omega))).wrF (not_mem_eth_of_lt (by unfold Reg.TS_LEAD; omega))
  refine Frame.foldl _ (Frame.foldl _ hshow fun l j hl a => ?_) fun _ _ hl a => a.wr (hstat hl)
  exact (Frame.wrB (a.emit.ite a) (hstat hl)).ite a

/-- A port at its reset values reports mode 0, which is the reset value of EP_STAT.MODE. -/
theorem Hub.EthReset.epReport {st : Straps} {p : Nat} (hr : h.EthReset st) (hp : p < 4) : (h.epReport p).EthReset st := by
  obtain ⟨hstat, hmode, hcfg, hcfgKept, hown, hkept⟩ := ethPort_reset st hp
  have hzero : h.epMode p = 0 := by
    unfold Hub.epMode Hub.rdF
    rw [hr _ hcfg hcfgKept, hmode]
    rfl
  intro a ha hka
  have hrd : ∀ {a}, ofBlock .eth a = true → ∀ c r, ((h.epShow p).edgeRate c r).rd a = h.rd a := fun ha c r =>
    (h.epRate_frame hp c r).reg _ fun hm => hm (mem_blockRegs.mpr ha)
  unfold Hub.epReport
  rw [Hub.rd_wrF, hrd hown, hr _ hown hkept, hstat, hzero]
  split
  · rename_i he
    rw [he, hstat]
    decide
  · rw [hrd ha, hr a ha hka]

theorem Hub.EthReset.epReports {st : Straps} (l : List Nat) (hl : ∀ p ∈ l, p < 4) (hr : h.EthReset st) :
    (l.foldl Hub.epReport h).EthReset st := by
  induction l generalizing h with
  | nil => exact hr
  | cons p l ih =>
    exact ih (fun q hq => hl q (List.mem_cons_of_mem _ hq)) (hr.epReport (hl p List.mem_cons_self))

theorem Hub.blockReset_rd (o h : Hub) {b : Block} (hb : b ∈ [Block.eth, .usb, .ppc, .pmc, .sit, .mir]) {a : Nat}
    (ha : ofBlock b a = true) (hk : keptAtBlockReset a = false) : (o.resetEnd (h.blockReset b) b).rd a = regReset h.straps a := by
  have hreset : ∀ {a}, ofBlock b a = true → keptAtBlockReset a = false → ((h.released b).regsReset b).rd a = regReset h.straps a :=
    fun ha hk => by rw [Hub.regsReset_rd, if_pos ⟨ha, hk⟩, (h.released_steady b).straps]
  have htsc : ofBlock .tsc a = false := by
    by_contra ht
    have hat := Block.at_of_ofBlock (by simpa using ht)
    rw [Block.at_of_ofBlock ha] at hat
    cases Option.some.inj hat
    exact absurd hb (by decide)
  rw [Hub.resetEnd_rd _ _ _ htsc, Hub.blockReset_of_ne _ (by rintro rfl; simp at hb) (by rintro rfl; simp at hb)]
  by_cases he : b = .eth
  · subst he
    exact Hub.EthReset.epReports (List.range 4) (fun p hp => List.mem_range.mp hp) (fun _ ha hk => hreset ha hk) a ha hk
  · have hnone : ((h.released b).regsReset b).afterReset h b = (h.released b).regsReset b := by
      revert hb he
      cases b <;> first | exact fun hb => absurd hb (by decide) | exact fun _ he => absurd rfl he | exact fun _ _ => rfl
    rw [hnone]
    exact hreset ha hk

/-! ### KSI (R91) -/

/-- KSI's registers, shadows, arbiters and header at reset, with SEAL_LOST live again where the store is lost. -/
def Hub.ksiReset (h : Hub) : Hub := if h.ksi.lost then (h.regsReset .ksi).setLive .ksi 0 true else h.regsReset .ksi

theorem Hub.blockReset_ksi (h : Hub) : h.blockReset .ksi = h.ksiReset := by
  have hreleased : h.released .ksi = h := by
    unfold Hub.released
    split <;> rfl
  rw [Hub.blockReset_of_ne _ (by decide) (by decide), hreleased]
  rfl

theorem Hub.ksiReset_frame (h : Hub) : Frame h h.ksiReset [.pend, .wide, .arbs] (blockRegs .ksi) [.ksi] := by
  have hregs : Frame h (h.regsReset .ksi) [.pend, .wide, .arbs] (blockRegs .ksi) [.ksi] :=
    ⟨fun p hp => by cases p <;> first | exact absurd (by decide) hp | rfl,
      fun a ha => by rw [Hub.regsReset_rd, if_neg fun hb => ha (mem_blockRegs.mpr hb.1)],
      fun c hc => by rw [Hub.regsReset_hdr, if_neg fun e => hc (by simp [e])]⟩
  exact (hregs.setLive List.mem_cons_self).ite hregs

theorem Hub.ksiReset_hdr (h : Hub) : (h.ksiReset.hdr .ksi).sticky = (h.hdr .ksi).sticky ∧ (h.ksiReset.hdr .ksi).flt = (h.hdr .ksi).flt
    ∧ (h.ksiReset.hdr .ksi).recovery = (h.hdr .ksi).recovery := by
  unfold Hub.ksiReset Hub.setLive
  split
  · rw [Hub.hdr_updHdr_self, Hub.regsReset_hdr, if_pos rfl]
    exact ⟨rfl, rfl, rfl⟩
  · rw [Hub.regsReset_hdr, if_pos rfl]
    exact ⟨rfl, rfl, rfl⟩

theorem Hub.ksiReset_stored (h : Hub) {a : Nat} (ha : storedReg a = true) : h.ksiReset.rd a = h.rd a := by
  have hkept : (h.regsReset .ksi).rd a = h.rd a := by rw [Hub.regsReset_rd, if_neg (by simp [keptAtBlockReset, ha])]
  unfold Hub.ksiReset
  split
  · exact hkept
  · exact hkept

theorem ends_blockReset_ksi {s : State} (hup : s.hub.custodyUp = true) :
    Ends (.blockReset .ksi) s [.pend, .wide, .arbs] (blockRegs .ksi ∪ {Reg.TSC_KITTY_MIN}) [.ksi, .tsc] (fun t =>
      t.hub.ksi = s.hub.ksi ∧ (t.hub.hdr .ksi).sticky = (s.hub.hdr .ksi).sticky ∧ (t.hub.hdr .ksi).flt = (s.hub.hdr .ksi).flt
      ∧ (t.hub.hdr .ksi).recovery = (s.hub.hdr .ksi).recovery
      ∧ ∀ a, storedReg a = true → t.hub.rd a = s.hub.rd a) := by
  let k := s.hub.fresh.ksiReset
  have hk : Frame s.hub k [.pend, .wide, .arbs] (blockRegs .ksi) [.ksi] := (Frame.fresh _).trans s.hub.fresh.ksiReset_frame
  have hcells : k.cells = s.hub.cells := hk.part .cells (by decide)
  have hwatch : Frame k (s.hub.tscWatch k) [] {Reg.TSC_KITTY_MIN} [.tsc] := (Frame.refl k).tscWatch hcells rfl List.mem_cons_self
  have hend : Frame s.hub (s.hub.cycleEnd k) [.pend, .wide, .arbs] (blockRegs .ksi ∪ {Reg.TSC_KITTY_MIN}) [.ksi, .tsc] :=
    (hk.mono (List.Subset.refl _) Set.subset_union_left (by decide)).cycleEnd hcells (by simp) (by decide)
  have hbody := (settle_body s.hub (s.hub.tscWatch k) .ksi).trans (hwatch.hdr .ksi (by decide))
  obtain ⟨hsticky, hflt, hrecovery⟩ := s.hub.fresh.ksiReset_hdr
  have hruns := runs_blockReset (b := .ksi) (s := s) hup
  rw [Hub.blockReset_ksi] at hruns
  refine Runs.ends (h := s.hub.cycleEnd k) hruns hend ⟨hend.part .ksi (by decide), ?_, ?_, ?_, fun a ha => ?_⟩
  · exact (congrArg Hdr.sticky hbody).trans hsticky
  · exact (congrArg Hdr.flt hbody).trans hflt
  · exact (congrArg Hdr.recovery hbody).trans hrecovery
  · have hne : a ≠ Reg.TSC_KITTY_MIN := by rintro rfl; exact absurd ha (by decide)
    exact (settle_rd _ _ a).trans ((hwatch.reg a hne).trans (s.hub.fresh.ksiReset_stored ha))

/-- Settles O20: a block reset leaves the header steady but for the return to its reset values; KSI's release does nothing. -/
theorem blockResets : Obligations.BlockResets :=
  ⟨fun _ _ ha hbusy => ends_blockReset_idle ha hbusy, fun _ _ ha _ hbusy => ends_blockReset_busy ha hbusy,
    fun s _ _ ha hb hab hk => ends_blockReset ha (Hub.blockReset_rd s.hub s.hub.fresh hb hab hk),
    fun _ hup => ends_blockReset_ksi hup⟩

end Sys2Proof.Machine
end

section
/-! SUPPORT. POR and start-up: what POR leaves, what KSI finds at its release, and the steps to the release of the main die (R45 to R47,
R481, Table 2.5). -/

namespace Sys2Proof.Machine

/-- A command that closes no cycle ends as its effect. -/
theorem ends_actReset {c : Instr} {s : State} {cond : Bool} {f : Hub → Hub} {ps : List Part} {rs : Set Nat} {bs : List Block}
    {Q : State → Prop} (hexec : exec c s = actReset s cond f) (hc : cond = true) (hf : Frame s.hub (f s.hub) ps rs bs)
    (hq : Q { s with hub := f s.hub }) : Ends c s ps rs bs Q :=
  Runs.ends (by rw [Runs, hexec, actReset, if_pos hc]) hf hq

@[simp] theorem settle_live (o n : Hub) (b : Block) : ((settle o n).hdr b).live = (n.hdr b).live := by
  obtain ⟨-, hlive, -⟩ := settle_hdr_fields o n b
  exact hlive

/-! ### POR (R45, Table 3.16) -/

/-- A table reads the same under two defaults that agree at the key. -/
theorem Tab.get_congr {α : Type} {d e : Nat → α} {k : Nat} (hk : d k = e k) (t : Tab α) : Tab.get d t k = Tab.get e t k := by
  induction t with
  | nil => exact hk
  | cons x t ih => simp only [Tab.get, ih]

/-- A register in the store reads 0 at reset, whatever the straps. -/
theorem regReset_of_stored {a : Nat} (ha : storedReg a = true) (st : Straps) : regReset st a = 0 := by
  simp only [storedReg, ksiStored, Bool.or_eq_true, List.contains_iff_mem, decide_eq_true_eq, List.any_eq_true, List.mem_range] at ha
  obtain (hksi | rfl) | ⟨n, hn, rfl⟩ := ha
  · fin_cases hksi <;> rfl
  · rfl
  · interval_cases n <;> rfl

theorem Hub.por_rd (h : Hub) (st : Straps) (a : Nat) :
    (h.por st).rd a = if storedReg a = true then h.rd a else regReset st a := by
  refine (Tab.get_filter (regReset st) storedReg h.regs a).trans ?_
  split
  · rename_i ha
    exact Tab.get_congr ((regReset_of_stored ha st).trans (regReset_of_stored ha h.straps).symm) h.regs
  · rfl

/-- POR leaves the store and the repair map alone; what it makes of the straps is the sampling's affair. -/
theorem Hub.por_frame (h : Hub) (st : Straps) :
    Frame h (h.por st) (allParts.filter fun p => p ∉ [.repairMap, .free]) { a | storedReg a = false } Block.all where
  part p hp := by cases p <;> first | exact absurd (by decide) hp | rfl
  reg a ha := by
    rw [Hub.por_rd, if_pos]
    simpa using ha
  hdr b hb := absurd b.mem_all hb

/-- POR by itself samples no straps. -/
theorem Hub.por_self_frame (h : Hub) :
    Frame h (h.por h.straps) (allParts.filter fun p => p ∉ [.straps, .repairMap, .free]) { a | storedReg a = false } Block.all where
  part p hp := by cases p <;> first | exact absurd (by decide) hp | rfl
  reg := (h.por_frame h.straps).reg
  hdr := (h.por_frame h.straps).hdr

theorem exec_porAssert (l : Bool) (s : State) : exec (.porAssert l) s = execPorAssert l s := rfl

theorem ends_porAssert (s : State) (l : Bool) :
    Ends (.porAssert l) s (allParts.filter fun p => p ∉ [.straps, .repairMap, .free]) { a | storedReg a = false } Block.all (fun t =>
      t.hub.power.phase = .por ∧ t.hub.custodyUp = false ∧ t.hub.power.rootLost = (s.hub.power.rootLost || l)
      ∧ t.hub.ksi = { s.hub.ksi with vbatLow := false, kat := 0 } ∧ t.hub.cells = [] ∧ t.hub.ctxs = []
      ∧ ∀ a, storedReg a = false → t.hub.rd a = regReset s.hub.straps a) :=
  ends_actReset (exec_porAssert l s) rfl (s.hub.por_self_frame.updPower (by decide))
    ⟨rfl, rfl, rfl, rfl, rfl, rfl, fun a ha => (s.hub.por_rd s.hub.straps a).trans (if_neg (by simp [ha]))⟩

theorem exec_vddCustRise (s : State) : exec .vddCustRise s = execVddCustRise s := rfl

theorem ends_vddCustRise {s : State} (hphase : s.hub.power.phase = .por) (hrisen : s.hub.power.custRisen = false) :
    Ends .vddCustRise s [.power] ∅ [] (fun t => t.hub.power = { s.hub.power with custRisen := true }) :=
  ends_actReset (exec_vddCustRise s) (by simp [hphase, hrisen]) ((Frame.refl _).updPower List.mem_cons_self) rfl

/-! ### Secrets that are zeroed (R456) -/

@[simp] theorem Hub.opResult_live (h : Hub) (b : Block) (op : Nat) (r : MbxResult) (c : Block) :
    ((h.opResult b op r).hdr c).live = (h.hdr c).live := by
  unfold Hub.opResult Hub.updMbx
  split
  · rw [Hub.hdr_updHdr]
    split
    · rename_i hc; subst hc; rfl
    · rfl
  · rfl

theorem Hub.setLive_live_self (h : Hub) (b : Block) {i : Nat} (hi : i < 32) (v : Bool) :
    bit ((h.setLive b i v).hdr b).live i = v := by
  rw [Hub.setLive, Hub.hdr_updHdr_self]
  exact (bit_setBit _ _ _ _ hi).trans (if_pos rfl)

/-- The secrets are gone and the cause is recorded, before the attention, the event and the end of an update. -/
def Hub.secretsGone (h : Hub) (cause : Nat) : Hub :=
  ((((h.updKsi fun x => { x with lost := true, root := List.replicate 32 0, slots := [] }).wr Reg.KSI_TAMP_CFG 0).wr
    Reg.KSI_TAMP_REC (bitW cause)).inc Reg.KSI_TAMP_COUNT).wrWide Reg.KSI_TAMP_TIME_LO (if h.mainUp then h.now else 0)

theorem Hub.zeroize_eq (h : Hub) (cause : Nat) :
    h.zeroize cause = ((((h.secretsGone cause).attn .ksi 0).fault .ksi 0).setLive .ksi 0 true).opResult .ksi 0x11 (mbxErr 0x87) := rfl

theorem Hub.zeroize_told_frame (h : Hub) (cause : Nat) :
    Frame (h.secretsGone cause) (h.zeroize cause) [.pins] {Reg.SIT_FAULTN_CNT} [.ksi, .sit] := by
  have hattn : Frame (h.secretsGone cause) ((h.secretsGone cause).attn .ksi 0) [.pins] {Reg.SIT_FAULTN_CNT} [.ksi, .sit] :=
    (Frame.refl _).attn (by decide)
  exact ((hattn.fault (by decide) (by decide) rfl (by decide)).setLive (by decide)).opResult (by decide)

theorem Hub.secretsGone_frame (h : Hub) (cause : Nat) :
    Frame h (h.secretsGone cause) [.ksi, .wide] {Reg.KSI_TAMP_CFG, Reg.KSI_TAMP_REC, Reg.KSI_TAMP_COUNT} [] :=
  ((((Frame.refl h).updKsi (by decide)).wr (by simp)).wr (by simp)).inc (by simp) |>.wrWide (by decide)

theorem Hub.zeroize_frame (h : Hub) (cause : Nat) : Frame h (h.zeroize cause) [.ksi, .wide, .pins]
    {Reg.KSI_TAMP_CFG, Reg.KSI_TAMP_REC, Reg.KSI_TAMP_COUNT, Reg.SIT_FAULTN_CNT} [.ksi, .sit] :=
  ((h.secretsGone_frame cause).mono (by decide) (by simp [Set.insert_subset_iff]) (by decide)).trans
    ((h.zeroize_told_frame cause).mono (by decide) (by simp) (List.Subset.refl _))

theorem Hub.zeroize_ksi (h : Hub) (cause : Nat) :
    (h.zeroize cause).ksi = { h.ksi with lost := true, root := List.replicate 32 0, slots := [] } :=
  (h.zeroize_told_frame cause).part .ksi (by decide)

theorem Hub.zeroize_live (h : Hub) (cause : Nat) : bit ((h.zeroize cause).hdr .ksi).live 0 = true := by
  rw [Hub.zeroize_eq, Hub.opResult_live]
  exact Hub.setLive_live_self _ _ (by decide) _

/-- The tamper inputs are off, and the record names the cause alone. -/
theorem Hub.zeroize_tamper (h : Hub) (cause : Nat) :
    (h.zeroize cause).rd Reg.KSI_TAMP_REC = bitW cause ∧ (h.zeroize cause).rd Reg.KSI_TAMP_CFG = 0 := by
  have hgone : ∀ {a}, a ≠ Reg.KSI_TAMP_COUNT → (h.secretsGone cause).rd a =
      if a = Reg.KSI_TAMP_REC then bitW cause else if a = Reg.KSI_TAMP_CFG then 0 else h.rd a := fun {a} ha => by
    show ((((h.updKsi _).wr Reg.KSI_TAMP_CFG 0).wr Reg.KSI_TAMP_REC (bitW cause)).inc Reg.KSI_TAMP_COUNT).rd a = _
    rw [Hub.rd_inc, if_neg ha, Hub.rd_wr, Hub.rd_wr]
    rfl
  constructor
  · rw [(h.zeroize_told_frame cause).reg _ (by decide), hgone (by decide), if_pos rfl]
  · rw [(h.zeroize_told_frame cause).reg _ (by decide), hgone (by decide), if_neg (by decide), if_pos rfl]

/-! ### The release of POR (R40, R45, R47) -/

/-- POR ends with its straps sampled and the custody die running, before KSI looks at its store. -/
def Hub.sampled (h : Hub) (st : Straps) : Hub := (h.por st).updPower fun x => { x with phase := .rails, custRisen := true }

theorem Hub.sampled_frame (h : Hub) (st : Straps) :
    Frame h (h.sampled st) (allParts.filter fun p => p ∉ [.repairMap, .free]) { a | storedReg a = false } Block.all :=
  (h.por_frame st).updPower (by decide)

theorem Hub.sampled_rd (h : Hub) (st : Straps) {a : Nat} (ha : storedReg a = false) : (h.sampled st).rd a = regReset st a :=
  (h.por_rd st a).trans (if_neg (by simp [ha]))

theorem exec_porRelease (st : Straps) (s : State) : exec (.porRelease st) s = actReset s
    (decide (s.hub.power.phase = .por) && s.hub.power.custRisen) fun h => (h.sampled st).ksiPor := rfl

/-- A root secret that was kept: what was lost before shows as SEAL_LOST, and nothing else changes. -/
theorem Hub.ksiPor_of_kept {h : Hub} (hroot : h.power.rootLost = false) :
    h.ksiPor = if h.ksi.lost = true then h.setLive .ksi 0 true else h := by
  unfold Hub.ksiPor
  rw [if_neg (by simp [hroot])]

theorem Hub.ksiPor_kept_frame {h : Hub} (hroot : h.power.rootLost = false) : Frame h h.ksiPor [] ∅ [.ksi] := by
  rw [Hub.ksiPor_of_kept hroot]
  exact ((Frame.refl h).setLive List.mem_cons_self).ite (Frame.refl h)

theorem Hub.ksiPor_kept_live {h : Hub} (hroot : h.power.rootLost = false) (hlive : bit (h.hdr .ksi).live 0 = false) :
    bit (h.ksiPor.hdr .ksi).live 0 = h.ksi.lost := by
  rw [Hub.ksiPor_of_kept hroot]
  split
  · rename_i hlost
    rw [Hub.setLive_live_self _ _ (by decide), hlost]
  · rename_i hlost
    rw [hlive, Bool.eq_false_iff.mpr hlost]

theorem ends_porRelease_kept {s : State} (st : Straps) (hphase : s.hub.power.phase = .por) (hrisen : s.hub.power.custRisen = true)
    (hroot : s.hub.power.rootLost = false) :
    Ends (.porRelease st) s (allParts.filter fun p => p ∉ [.repairMap, .free]) { a | storedReg a = false } Block.all (fun t =>
      t.hub.straps = st ∧ t.hub.power.phase = .rails ∧ t.hub.custodyUp = true ∧ t.hub.mainUp = false
      ∧ bit (t.hub.hdr .ksi).live 0 = s.hub.ksi.lost
      ∧ ∀ a, storedReg a = false → t.hub.rd a = regReset st a) := by
  have hksi : Frame (s.hub.sampled st) (s.hub.sampled st).ksiPor [] ∅ [.ksi] := Hub.ksiPor_kept_frame hroot
  have hpower : (s.hub.sampled st).ksiPor.power = (s.hub.sampled st).power := hksi.part .power List.not_mem_nil
  have hlive : bit ((s.hub.sampled st).hdr .ksi).live 0 = false := (by decide : bit (0 : Word) 0 = false)
  refine ends_actReset (exec_porRelease st s) (by simp [hphase, hrisen])
    ((s.hub.sampled_frame st).trans (hksi.mono (List.nil_subset _) (Set.empty_subset _) fun b _ => b.mem_all)) ?_
  refine ⟨hksi.part .straps List.not_mem_nil, congrArg Power.phase hpower, ?_, ?_, Hub.ksiPor_kept_live hroot hlive, fun a ha => ?_⟩
  · unfold Hub.custodyUp
    rw [hpower]
    rfl
  · exact Hub.mainUp_congr hpower
  · exact (hksi.reg a (Set.notMem_empty a)).trans (s.hub.sampled_rd st ha)

/-- A root secret that was lost without supply: every secret is zeroed, cause VOLT_LOW (R47, R457). -/
theorem Hub.ksiPor_of_lost {h : Hub} (hroot : h.power.rootLost = true) :
    h.ksiPor = (h.zeroize 2).updPower fun x => { x with rootLost := false } := if_pos hroot

theorem ends_porRelease_lost {s : State} (st : Straps) (hphase : s.hub.power.phase = .por) (hrisen : s.hub.power.custRisen = true)
    (hroot : s.hub.power.rootLost = true) :
    Ends (.porRelease st) s (allParts.filter fun p => p ∉ [.repairMap, .free]) Set.univ Block.all (fun t =>
      t.hub.straps = st ∧ t.hub.power.phase = .rails ∧ t.hub.power.rootLost = false
      ∧ t.hub.ksi.lost = true ∧ t.hub.ksi.slots = [] ∧ bit (t.hub.hdr .ksi).live 0 = true
      ∧ t.hub.rd Reg.KSI_TAMP_REC = bitW 2 ∧ t.hub.rd Reg.KSI_TAMP_CFG = 0) := by
  have hzero := (s.hub.sampled st).zeroize_frame 2
  have hksi := (s.hub.sampled st).zeroize_ksi 2
  have hlive := (s.hub.sampled st).zeroize_live 2
  obtain ⟨hrec, hcfg⟩ := (s.hub.sampled st).zeroize_tamper 2
  refine ends_actReset (exec_porRelease st s) (by simp [hphase, hrisen]) ?_ ?_ <;>
    rw [Hub.ksiPor_of_lost (h := s.hub.sampled st) hroot] <;> generalize (s.hub.sampled st).zeroize 2 = k at *
  · exact (((s.hub.sampled_frame st).mono (List.Subset.refl _) (Set.subset_univ _) (List.Subset.refl _)).trans
      (hzero.mono (by decide) (Set.subset_univ _) fun b _ => b.mem_all)).updPower (by decide)
  · have hpower : k.power = (s.hub.sampled st).power := hzero.part .power (by decide)
    exact ⟨hzero.part .straps (by decide), congrArg Power.phase hpower, rfl, congrArg Ksi.lost hksi, congrArg Ksi.slots hksi,
      hlive, hrec, hcfg⟩

/-! ### CORE_EN and its confirmation (R45, R49, R50) -/

theorem exec_coreEnAssert (s : State) : exec .coreEnAssert s = act s
    (decide (s.hub.power.phase = .rails) && s.hub.power.supplyBad.isNone && !s.hub.power.thermHold) fun h => h.coreEnable := rfl

theorem ends_coreEnAssert {s : State} (hphase : s.hub.power.phase = .rails) (hbad : s.hub.power.supplyBad = none)
    (hhold : s.hub.power.thermHold = false) :
    Ends .coreEnAssert s [.power] ∅ [] (fun t =>
      t.hub.power = { s.hub.power with phase := .core, coreEn := true, vcmd := 800, pmb := [pmbOperation true], pmbAt := 0, pmbFails := 0 }
      ∧ t.hub.out = [s.hub.pmbWire (pmbOperation true)]) :=
  ends_act (exec_coreEnAssert s) (by simp [hphase, hbad, hhold]) ((Frame.refl _).coreEnable List.mem_cons_self)
    ⟨settle_power _ _, settle_out _ _⟩

/-- VOUT_MODE and READ_VOUT are asked for, and the answer's mode is noted. -/
def Hub.confirmed (h : Hub) (modeOk : Bool) : Hub :=
  (h.pmbStart [pmbVoutMode, pmbReadVout]).updPower fun x => { x with phase := .confirmed, linear := modeOk }

theorem Frame.confirmed {h k : Hub} {ps : List Part} {rs : Set Nat} {bs : List Block} (f : Frame h k ps rs bs) (hp : Part.power ∈ ps)
    (modeOk : Bool) : Frame h (k.confirmed modeOk) ps rs bs :=
  (f.pmbStart _ hp).updPower hp

theorem exec_coreConfirm (modeOk : Bool) (s : State) : exec (.coreConfirm modeOk) s = act s (decide (s.hub.power.phase = .core))
    fun h => if modeOk then h.confirmed modeOk else (h.confirmed modeOk).fault .pmu 5 := rfl

theorem ends_coreConfirm_good {s : State} (hphase : s.hub.power.phase = .core) :
    Ends (.coreConfirm true) s [.power] ∅ [] (fun t =>
      t.hub.power = { s.hub.power with
        phase := .confirmed, linear := true, pmb := [pmbVoutMode, pmbReadVout], pmbAt := 0, pmbFails := 0 }
      ∧ t.hub.out = [s.hub.pmbWire pmbVoutMode, s.hub.pmbWire pmbReadVout]) :=
  ends_act (exec_coreConfirm true s) (by simp [hphase]) ((Frame.refl _).confirmed List.mem_cons_self true)
    ⟨settle_power _ _, settle_out _ _⟩

theorem ends_coreConfirm_bad {s : State} (hphase : s.hub.power.phase = .core) :
    Ends (.coreConfirm false) s [.power, .pins] {Reg.SIT_FAULTN_CNT} [.pmu, .sit] (fun t =>
      t.hub.power = { s.hub.power with
        phase := .confirmed, linear := false, pmb := [pmbVoutMode, pmbReadVout], pmbAt := 0, pmbFails := 0 }
      ∧ bit (t.hub.hdr .pmu).sticky 5 = true) := by
  refine ends_act (exec_coreConfirm false s) (by simp [hphase])
    (((Frame.refl _).confirmed (by decide) false).fault (by decide) (by decide) rfl (by decide)) ⟨?_, ?_⟩
  · exact (settle_power _ _).trans (Hub.pmuFault_power _ 5)
  · rw [settle_sticky]
    exact Hub.fault_sticky_self _ _ (by decide)

theorem exec_vddCoreEarly (s : State) :
    exec .vddCoreEarly s = act s (s.hub.custodyUp && !s.hub.power.coreEn) fun h => h.fault .pmu 4 := rfl

theorem ends_vddCoreEarly {s : State} (hup : s.hub.custodyUp = true) (hen : s.hub.power.coreEn = false) :
    Ends .vddCoreEarly s [.pins] {Reg.SIT_FAULTN_CNT} [.pmu, .sit] (fun t =>
      bit (t.hub.hdr .pmu).sticky 4 = true ∧ t.hub.power = s.hub.power) := by
  refine ends_act (exec_vddCoreEarly s) (by simp [hup, hen]) (Hub.pmuFault_frame _ 4) ⟨?_, ?_⟩
  · rw [settle_sticky]
    exact Hub.fault_sticky_self _ _ (by decide)
  · exact (settle_power _ _).trans (Hub.pmuFault_power _ 4)

end Sys2Proof.Machine
end

section
/-! SUPPORT. The release of the main die: its maps are built from the repair map (R45, R98, R481). -/

namespace Sys2Proof.Machine

/-! ### TSC's bank map (R481) -/

/-- The physical banks that the repair map leaves in. -/
def banksGood (out : List Nat) : List Nat := (List.range 33).filter fun p => !out.contains p

/-- One bank is shown as mapped out. -/
def Hub.showOut (h : Hub) (p : Nat) : Hub := if p < 32 then h.wrB Reg.TSC_BANK_OUT_LO p true else h.wrB Reg.TSC_BANK_OUT_HI 0 true

/-- TSC's registers of the map, of the spare and of the banks that are out. -/
def Hub.bankRegs (h : Hub) (out : List Nat) : Hub :=
  let good := banksGood out
  let h := (List.range 32).foldl (fun h l => h.setBank l (good.getD l 0x3F)) h
  let usable := 2048 * min 32 good.length
  let h := h.wr Reg.TSC_CAP (w32 (usable + (33 - good.length) * 0x20000 + b2n (decide (33 ≤ good.length)) * 0x800000))
  let h := h.wr Reg.TSC_BANK_SPARE (w32 (good.getD 32 0x3F))
  out.foldl Hub.showOut h

/-- The kitty holds the cells of the banks that are left. -/
def Hub.kittyFull (h : Hub) (cells : Nat) : Hub :=
  { h.wr Reg.TSC_KITTY_MIN (w32 cells) with counts := { h.counts with kitty := cells } }

/-- A spare that is gone is a fault of SIT that stays live. -/
def Hub.spareWatch (h : Hub) (good : List Nat) : Hub :=
  if 33 ≤ good.length ∨ bit (h.hdr .sit).live 6 = true then h else (h.fault .sit 6).setLive .sit 6 true

theorem Hub.bankInit_of_whole {h : Hub} (hout : banksOut h.repairMap = []) : h.bankInit = h := if_pos hout

theorem Hub.bankInit_of_out {h : Hub} {out : List Nat} (hmap : banksOut h.repairMap = out) (hout : out ≠ []) :
    h.bankInit = (((h.bankRegs out).kittyFull (2048 * min 32 (banksGood out).length)).spareWatch (banksGood out)).limitWatch := by
  subst hmap
  exact if_neg hout

section
variable {h k : Hub} {ps : List Part} {rs : Set Nat} {bs : List Block}

theorem Frame.showOut (f : Frame h k ps rs bs) {p : Nat} (hlo : Reg.TSC_BANK_OUT_LO ∈ rs) (hhi : Reg.TSC_BANK_OUT_HI ∈ rs) :
    Frame h (k.showOut p) ps rs bs := (f.wrB hlo).ite (f.wrB hhi)

theorem Frame.bankRegs (f : Frame h k ps rs bs) (hr : blockRegs .tsc ⊆ rs) (out : List Nat) : Frame h (k.bankRegs out) ps rs bs := by
  have hmem : ∀ {a}, ofBlock .tsc a = true → a ∈ rs := fun ha => hr (mem_blockRegs.mpr ha)
  have hmap : ∀ l < 32, ofBlock .tsc (Reg.TSC_BANK_MAP (l / 5)) = true := by decide
  have hset := Frame.foldl (f := fun h l => h.setBank l ((banksGood out).getD l 0x3F)) (List.range 32) f fun l _ hl hj =>
    hj.wrF (hmem (hmap l (List.mem_range.mp hl)))
  exact Frame.foldl out ((hset.wr (hmem (by decide))).wr (hmem (by decide))) fun _ _ _ hj =>
    hj.showOut (hmem (by decide)) (hmem (by decide))

theorem Frame.kittyFull (f : Frame h k ps rs bs) {n : Nat} (hp : Part.counts ∈ ps) (hr : Reg.TSC_KITTY_MIN ∈ rs) :
    Frame h (k.kittyFull n) ps rs bs :=
  (f.wr hr).upd rfl rfl rfl fun p hp' => by cases p <;> first | exact absurd hp hp' | rfl

theorem Frame.spareWatch (f : Frame h k ps rs bs) {good : List Nat} (hp : Part.pins ∈ ps) (hr : Reg.SIT_FAULTN_CNT ∈ rs)
    (hb : Block.sit ∈ bs) : Frame h (k.spareWatch good) ps rs bs :=
  f.ite ((f.fault hb hp hr hb).setLive hb)

theorem Frame.limitWatch (f : Frame h k ps rs bs) (hp : Part.pins ∈ ps) (hr : Reg.SIT_FAULTN_CNT ∈ rs) (ht : Block.tsc ∈ bs)
    (hs : Block.sit ∈ bs) : Frame h k.limitWatch ps rs bs :=
  ((f.fault ht hp hr hs).setLive ht).ite ((f.setLive ht).ite f)

end

/-- What TSC's start tells of the spare and of the limits moves neither the map nor the pool. -/
theorem Hub.bankWatch_frame (h : Hub) (good : List Nat) :
    Frame h (h.spareWatch good).limitWatch [.pins] {Reg.SIT_FAULTN_CNT} [.sit, .tsc] := by
  have hspare : Frame h (h.spareWatch good) [.pins] {Reg.SIT_FAULTN_CNT} [.sit, .tsc] :=
    (Frame.refl h).spareWatch (by decide) rfl (by decide)
  exact hspare.limitWatch (by decide) rfl (by decide) (by decide)

theorem Hub.bankInit_frame (h : Hub) :
    Frame h h.bankInit [.counts, .pins] (blockRegs .tsc ∪ {Reg.SIT_FAULTN_CNT}) [.sit, .tsc] := by
  by_cases hout : banksOut h.repairMap = []
  · rw [Hub.bankInit_of_whole hout]
    exact Frame.refl h
  · have hload : Frame h ((h.bankRegs (banksOut h.repairMap)).kittyFull (2048 * min 32 (banksGood (banksOut h.repairMap)).length))
        [.counts, .pins] (blockRegs .tsc ∪ {Reg.SIT_FAULTN_CNT}) [.sit, .tsc] :=
      ((Frame.refl h).bankRegs Set.subset_union_left _).kittyFull (by decide) (.inl (mem_blockRegs.mpr (by decide)))
    rw [Hub.bankInit_of_out rfl hout]
    exact hload.trans ((Hub.bankWatch_frame _ _).mono (by decide) Set.subset_union_right (List.Subset.refl _))

/-- TSC_CAP shows what is usable, the banks that are out, and the spare. -/
theorem Hub.bankRegs_cap (h : Hub) (out : List Nat) : (h.bankRegs out).rd Reg.TSC_CAP =
    w32 (2048 * min 32 (banksGood out).length + (33 - (banksGood out).length) * 0x20000
      + b2n (decide (33 ≤ (banksGood out).length)) * 0x800000) := by
  have hshow : ∀ k : Hub, (out.foldl Hub.showOut k).rd Reg.TSC_CAP = k.rd Reg.TSC_CAP := fun k =>
    (Frame.foldl (rs := {Reg.TSC_BANK_OUT_LO, Reg.TSC_BANK_OUT_HI}) (ps := []) (bs := []) out (Frame.refl k) fun _ _ _ hj =>
      hj.showOut (by simp) (by simp)).reg _ (by decide)
  exact (hshow _).trans ((Hub.rd_wr_ne _ _ (by decide)).trans (Hub.rd_wr_self _ _ _))

theorem Hub.kittyFull_rd (h : Hub) (n a : Nat) :
    (h.kittyFull n).rd a = if a = Reg.TSC_KITTY_MIN then w32 n else h.rd a :=
  Hub.rd_wr h Reg.TSC_KITTY_MIN a (w32 n)

/-- One bank out of the 33 leaves the 32 of the map, and no spare. -/
theorem banksGood_one : ∀ p < 33, (banksGood [p]).length = 32 := by decide

/-- After TSC's start with one bank out the pool is whole and the spare is gone. -/
theorem Hub.bankInit_one {h : Hub} {p : Nat} (hmap : banksOut h.repairMap = [p]) (hp : p < 33) :
    h.bankInit.counts.kitty = 65536 ∧ h.bankInit.rd Reg.TSC_CAP = 65536 + 0x20000 ∧ h.bankInit.rd Reg.TSC_KITTY_MIN = 65536 := by
  let k := (h.bankRegs [p]).kittyFull 65536
  have hinit : h.bankInit = (k.spareWatch (banksGood [p])).limitWatch := by
    rw [Hub.bankInit_of_out hmap (List.cons_ne_nil _ _), banksGood_one p hp]
    rfl
  have hwatch := k.bankWatch_frame (banksGood [p])
  have hcap := h.bankRegs_cap [p]
  rw [banksGood_one p hp] at hcap
  rw [hinit]
  refine ⟨congrArg Holders.kitty (hwatch.part .counts (by decide)), ?_, ?_⟩
  · rw [hwatch.reg _ (by decide), Hub.kittyFull_rd, if_neg (by decide), hcap]
    decide
  · rw [hwatch.reg _ (by decide), Hub.kittyFull_rd, if_pos rfl]
    decide

/-! ### LNX's start -/

/-- A repair map without lanes changes nothing but what LNX shows of its spares. -/
theorem Hub.lnxInit_of_bank {h : Hub} {x : RepairRec} (hmap : h.repairMap = [x]) (hk : x.kind = 1) : h.lnxInit = h.showSpares := by
  have hout : lanesOut [x] = [] := by simp [lanesOut, hk]
  unfold Hub.lnxInit
  rw [hmap, if_neg (List.cons_ne_nil _ _), hout]
  dsimp only [List.foldl]
  rw [if_neg fun hc => absurd (hk.symm.trans hc.1) (by decide)]

theorem Hub.showSpares_frame (h : Hub) : Frame h h.showSpares [] (blockRegs .lnx) [] :=
  ((Frame.refl h).wr (mem_blockRegs.mpr (by decide))).wr (mem_blockRegs.mpr (by decide))

/-! ### The clauses of PowerOn on the release -/

/-- The main die is released, before its maps are built. -/
def Hub.dieReleased (h : Hub) : Hub :=
  h.updPower fun x => { x with phase := .running, state := .run, clamped := false, coreEn := true, held := false, fwRunning := false }

theorem Hub.mainStart_of_good {h : Hub} (herr : h.straps.err = false) : h.mainStart = h.dieReleased.lnxInit.bankInit := by
  have hfault : h.dieReleased.strapFault = h.dieReleased := if_neg (by simp [Hub.dieReleased, Hub.updPower, herr])
  show h.dieReleased.strapFault.lnxInit.bankInit = _
  rw [hfault]

theorem exec_mainDieRelease (s : State) : exec .mainDieRelease s =
    actReset s (decide (s.hub.power.phase = .confirmed)) fun h => h.startEnd (h.fresh.mainStart) := rfl

/-- The release ends as the start of the main die, closed by `settle`, with the masthead loaded. -/
theorem ends_mainDieRelease {s : State} {ps : List Part} {rs : Set Nat} {bs : List Block} {Q : State → Prop}
    (hphase : s.hub.power.phase = .confirmed) (hf : Frame s.hub.fresh s.hub.fresh.mainStart ps rs bs)
    (hq : Q { s with hub := s.hub.startEnd s.hub.fresh.mainStart }) : Ends .mainDieRelease s ps rs bs Q :=
  ends_actReset (exec_mainDieRelease s) (decide_eq_true hphase)
    ((((Frame.fresh s.hub).trans hf).settle s.hub).upd rfl rfl rfl fun p _ => by cases p <;> rfl) hq

theorem ends_mainDieRelease_whole {s : State} (hphase : s.hub.power.phase = .confirmed) (hmap : s.hub.repairMap = [])
    (herr : s.hub.straps.err = false) :
    Ends .mainDieRelease s [.power] ∅ [] (fun t =>
      t.hub.power = { s.hub.power with
        phase := .running, state := .run, clamped := false, coreEn := true, held := false, fwRunning := false }
      ∧ t.hub.mainUp = true ∧ t.hub.mh = {}) := by
  have hmap0 : s.hub.fresh.dieReleased.repairMap = [] := hmap
  have hstart : s.hub.fresh.mainStart = s.hub.fresh.dieReleased := by
    rw [Hub.mainStart_of_good (h := s.hub.fresh) herr, Hub.lnxInit, if_pos hmap0, Hub.bankInit_of_whole (by rw [hmap0]; rfl)]
  refine ends_mainDieRelease hphase ?_ ?_ <;> rw [hstart]
  · exact (Frame.refl _).updPower List.mem_cons_self
  · have hpower : (s.hub.startEnd s.hub.fresh.dieReleased).power = s.hub.fresh.dieReleased.power := settle_power _ _
    exact ⟨hpower, Hub.mainUp_congr hpower, rfl⟩

theorem ends_mainDieRelease_bankOut {s : State} {x : RepairRec} (hphase : s.hub.power.phase = .confirmed)
    (hmap : s.hub.repairMap = [x]) (hk : x.kind = 1) (hc : x.cleared = false) (hres : x.res < 33) (herr : s.hub.straps.err = false) :
    Ends .mainDieRelease s [.power, .counts, .pins]
      (blockRegs .lnx ∪ blockRegs .tsc ∪ {Reg.SIT_FAULTN_CNT}) [.sit, .tsc, .lnx] (fun t =>
      t.hub.mainUp = true ∧ t.hub.counts.kitty = 65536
      ∧ t.hub.rd Reg.TSC_CAP = 65536 + 0x20000 ∧ t.hub.rd Reg.TSC_KITTY_MIN = 65536 ∧ t.hub.mh = {}) := by
  let k := s.hub.fresh.dieReleased.showSpares
  have hstart : s.hub.fresh.mainStart = k.bankInit := by
    rw [Hub.mainStart_of_good (h := s.hub.fresh) herr, Hub.lnxInit_of_bank (h := s.hub.fresh.dieReleased) hmap hk]
  have hspares := s.hub.fresh.dieReleased.showSpares_frame
  have hout : banksOut k.repairMap = [x.res] := by
    rw [show k.repairMap = [x] from hmap]
    simp [banksOut, hk, hc]
  have hbank := k.bankInit_frame
  obtain ⟨hkitty, hcap, hmin⟩ := Hub.bankInit_one hout hres
  refine ends_mainDieRelease hphase ?_ ?_ <;> rw [hstart]
  · have hpower : Frame s.hub.fresh s.hub.fresh.dieReleased [.power, .counts, .pins]
        (blockRegs .lnx ∪ blockRegs .tsc ∪ {Reg.SIT_FAULTN_CNT}) [.sit, .tsc, .lnx] := (Frame.refl _).updPower List.mem_cons_self
    exact (hpower.trans (hspares.mono (by decide) (fun _ ha => .inl (.inl ha)) (by decide))).trans
      (hbank.mono (by decide) (Set.union_subset_union_left _ Set.subset_union_right) (by decide))
  · have hpower : k.bankInit.power = s.hub.fresh.dieReleased.power :=
      (hbank.part .power (by decide)).trans (hspares.part .power List.not_mem_nil)
    generalize k.bankInit = n at *
    refine ⟨?_, (congrArg Holders.kitty (settle_counts _ _)).trans hkitty, (settle_rd _ _ _).trans hcap,
      (settle_rd _ _ _).trans hmin, rfl⟩
    exact Hub.mainUp_congr ((settle_power _ _).trans hpower)

/-- Settles O18: each clause is its command's effect on the branch that its conditions choose, closed by `settle` where the hub runs on. -/
theorem powerOn : Obligations.PowerOn :=
  ⟨ends_porAssert, fun _ hphase hrisen => ends_vddCustRise hphase hrisen,
    fun _ st hphase hrisen hroot => ends_porRelease_kept st hphase hrisen hroot,
    fun _ st hphase hrisen hroot => ends_porRelease_lost st hphase hrisen hroot,
    fun _ hphase hbad hhold => ends_coreEnAssert hphase hbad hhold,
    fun _ hphase => ⟨ends_coreConfirm_good hphase, ends_coreConfirm_bad hphase⟩,
    fun _ hphase hmap herr => ends_mainDieRelease_whole hphase hmap herr,
    fun _ _ hphase hmap hk hc hres herr => ends_mainDieRelease_bankOut hphase hmap hk hc hres herr,
    fun _ hup hen => ends_vddCoreEarly hup hen⟩

end Sys2Proof.Machine
end

section
/-! SUPPORT. What PMU watches: PMBus, temperature, crystal and always-on load (R49, R59, R63, R444, Table 2.6). -/

namespace Sys2Proof.Machine

/-! ### PMBus retries (R49) -/

theorem exec_pmbusRetry (s : State) :
    exec .pmbusRetry s = act s (s.hub.up .pmu && !s.hub.power.pmb.isEmpty) Hub.pmbFailed := rfl

/-- The transaction of the running procedure that fails: one that the row leaves open. -/
def Hub.pmbPick (h : Hub) : Nat := h.draw.1.toNat % h.power.pmb.length

/-- The failed transaction goes out again. -/
def Hub.pmbResend (h : Hub) : Hub :=
  (h.draw.2.pmbSend (h.power.pmb.getD h.pmbPick pmbStatus)).updPower fun x =>
    { x with pmbAt := h.pmbPick, pmbFails := x.tries h.pmbPick + 1 }

/-- The procedure is given up, and the step with it: the old voltage stays commanded. -/
def Hub.pmbGiveUp (h : Hub) : Hub :=
  (h.draw.2.dvfsEnd.updPower fun x => { x with vcmd := h.power.step.elim h.power.vcmd fun x => x.old, pmb := [] }).fault .pmu 5

theorem Hub.pmbFailed_eq (h : Hub) : h.pmbFailed = if h.power.tries h.pmbPick < 3 then h.pmbResend else h.pmbGiveUp := rfl

theorem Power.tries_lt {x : Power} {n : Nat} (hx : x.pmbFails < n) (k : Nat) : x.tries k < n := by
  unfold Power.tries
  split <;> omega

theorem Hub.pmbPick_lt {h : Hub} (hne : h.power.pmb.isEmpty = false) : h.pmbPick < h.power.pmb.length :=
  Nat.mod_lt _ (List.length_pos_of_ne_nil (by simpa using hne))

/-- A procedure of one transaction leaves no choice of the one that fails. -/
theorem Hub.pmbPick_of_one {h : Hub} (hone : h.power.pmb.length = 1) : h.pmbPick = 0 := by
  unfold Hub.pmbPick
  rw [hone]
  exact Nat.mod_one _

theorem Frame.draw {h k : Hub} {ps : List Part} {rs : Set Nat} {bs : List Block} (f : Frame h k ps rs bs) (hp : Part.free ∈ ps) :
    Frame h k.draw.2 ps rs bs := f.upd rfl rfl rfl fun p hp' => by cases p <;> first | exact absurd hp hp' | rfl

theorem Frame.dvfsEnd {h k : Hub} {ps : List Part} {rs : Set Nat} {bs : List Block} (f : Frame h k ps rs bs) (hp : Part.power ∈ ps)
    (hr : Reg.PMU_DVFS ∈ rs) : Frame h k.dvfsEnd ps rs bs := (f.updPower hp).wrB hr

theorem Hub.pmbResend_frame (h : Hub) : Frame h h.pmbResend [.power, .free] ∅ [] := by
  have hdraw : Frame h h.draw.2 [.power, .free] ∅ [] := (Frame.refl h).draw (by decide)
  exact hdraw.emit.updPower (by decide)

theorem Hub.pmbGiveUp_frame (h : Hub) :
    Frame h h.pmbGiveUp [.power, .pins, .free] {Reg.PMU_DVFS, Reg.SIT_FAULTN_CNT} [.pmu, .sit] := by
  have hdraw : Frame h h.draw.2 [.power, .pins, .free] {Reg.PMU_DVFS, Reg.SIT_FAULTN_CNT} [.pmu, .sit] :=
    (Frame.refl h).draw (by decide)
  exact ((hdraw.dvfsEnd (by decide) (by simp)).updPower (by decide)).fault (by decide) (by decide) (by simp) (by decide)

theorem Hub.dvfsEnd_rd (h : Hub) : h.dvfsEnd.rd Reg.PMU_DVFS = setBit (h.rd Reg.PMU_DVFS) 4 false :=
  (Hub.rd_wrB (h.updPower fun x => { x with step := none, pmbFails := 0 }) Reg.PMU_DVFS 4 false Reg.PMU_DVFS).trans (if_pos rfl)

/-- The point in force is beside the busy bit that the end of a step clears. -/
theorem Hub.pmbGiveUp_point (h : Hub) : h.pmbGiveUp.dvfsPoint = h.dvfsPoint := by
  have hrd : h.pmbGiveUp.rd Reg.PMU_DVFS = setBit (h.rd Reg.PMU_DVFS) 4 false :=
    (Hub.pmuFault_rd _ 5 (by decide)).trans h.draw.2.dvfsEnd_rd
  unfold Hub.dvfsPoint Hub.rdF
  rw [hrd, fld_setBit_ne _ _ _ _ _ (by decide) (by decide)]

theorem ends_pmbusRetry_resend {s : State} (hup : s.hub.custodyUp = true) (hne : s.hub.power.pmb.isEmpty = false)
    (hfails : s.hub.power.pmbFails < 3) :
    Ends .pmbusRetry s [.power, .free] ∅ [] (fun t =>
      t.hub.power = { s.hub.power with pmbAt := t.hub.power.pmbAt, pmbFails := s.hub.power.tries t.hub.power.pmbAt + 1 }
      ∧ t.hub.power.pmbAt < s.hub.power.pmb.length
      ∧ t.hub.out = [s.hub.pmbWire (s.hub.power.pmb.getD t.hub.power.pmbAt pmbStatus)]) := by
  have hsend : s.hub.fresh.pmbFailed = s.hub.fresh.pmbResend := if_pos (Power.tries_lt hfails _)
  refine ends_act (exec_pmbusRetry s) (by simp [Hub.up_pmu, hup, hne]) ?_ ?_ <;> rw [hsend]
  · exact Hub.pmbResend_frame _
  · dsimp only
    rw [settle_power, settle_out]
    exact ⟨rfl, Hub.pmbPick_lt (h := s.hub.fresh) hne, rfl⟩

theorem ends_pmbusRetry_giveUp {s : State} (hup : s.hub.custodyUp = true) (hone : s.hub.power.pmb.length = 1)
    (hat : s.hub.power.pmbAt = 0) (hfails : 3 ≤ s.hub.power.pmbFails) :
    Ends .pmbusRetry s [.power, .pins, .free] {Reg.PMU_DVFS, Reg.SIT_FAULTN_CNT} [.pmu, .sit] (fun t =>
      t.hub.power = { s.hub.power with
        step := none, pmbFails := 0, pmb := [], vcmd := s.hub.power.step.elim s.hub.power.vcmd fun x => x.old }
      ∧ t.hub.dvfsPoint = s.hub.dvfsPoint
      ∧ bit (t.hub.hdr .pmu).sticky 5 = true) := by
  have hne : s.hub.power.pmb.isEmpty = false := by
    rw [List.isEmpty_eq_false_iff_exists_mem]
    exact List.length_pos_iff_exists_mem.mp (hone ▸ Nat.one_pos)
  have htries : s.hub.fresh.power.tries s.hub.fresh.pmbPick = s.hub.power.pmbFails := by
    rw [Hub.pmbPick_of_one (h := s.hub.fresh) hone]
    exact if_pos hat.symm
  have hgive : s.hub.fresh.pmbFailed = s.hub.fresh.pmbGiveUp := by
    rw [Hub.pmbFailed_eq, htries, if_neg (Nat.not_lt.mpr hfails)]
  refine ends_act (exec_pmbusRetry s) (by simp [Hub.up_pmu, hup, hne]) ?_ ?_ <;> rw [hgive]
  · exact Hub.pmbGiveUp_frame _
  · refine ⟨(settle_power _ _).trans (Hub.pmuFault_power _ 5), (settle_rdF _ _ _ _ _).trans (Hub.pmbGiveUp_point _), ?_⟩
    rw [settle_sticky]
    exact Hub.fault_sticky_self _ _ (by decide)

theorem exec_pmbPgLow (s : State) : exec .pmbPgLow s = act s (s.hub.up .pmu) fun h =>
    (h.pmbSend pmbStatus).updPower fun x => { x with pmb := x.pmb ++ [pmbStatus] } := rfl

theorem ends_pmbPgLow {s : State} (hup : s.hub.custodyUp = true) :
    Ends .pmbPgLow s [.power] ∅ [] (fun t =>
      t.hub.power = { s.hub.power with pmb := s.hub.power.pmb ++ [pmbStatus] } ∧ t.hub.out = [s.hub.pmbWire pmbStatus]) :=
  ends_act (exec_pmbPgLow s) (by rw [Hub.up_pmu, hup]) ((Frame.refl _).emit.updPower List.mem_cons_self)
    ⟨settle_power _ _, settle_out _ _⟩

/-! ### Temperature (R63) -/

/-- At 118 °C and above the event is raised and live. -/
def Hub.hot (h : Hub) (tj : BitVec 16) : Hub := ((h.senseTj tj).fault .pmu 2).setLive .pmu 2 true

/-- The hub has left its operating conditions. -/
def Hub.overheated (h : Hub) (tj : BitVec 16) : Hub := ((h.hot tj).fault .pmu 3).updPower fun x => { x with outOfCond := true }

theorem exec_tempHigh (tj : BitVec 16) (s : State) : exec (.tempHigh tj) s = act s (s.hub.up .pmu) fun h =>
    if 1180 ≤ tj.toInt then h.overheated tj else (h.senseTj tj).setLive .pmu 2 false := rfl

/-- What the event does besides showing the temperature. -/
theorem Hub.hot_told_frame (h : Hub) (tj : BitVec 16) : Frame (h.senseTj tj) (h.hot tj) [.pins] {Reg.SIT_FAULTN_CNT} [.pmu, .sit] :=
  ((h.senseTj tj).pmuFault_frame 2).setLive (by decide)

theorem Hub.overheated_told_frame (h : Hub) (tj : BitVec 16) :
    Frame (h.senseTj tj) (h.overheated tj) [.power, .pins] {Reg.SIT_FAULTN_CNT} [.pmu, .sit] :=
  (((h.hot_told_frame tj).trans ((h.hot tj).pmuFault_frame 3)).mono (by decide) subset_rfl (List.Subset.refl _)).updPower (by decide)

theorem Hub.overheated_power (h : Hub) (tj : BitVec 16) : (h.overheated tj).power = { h.power with outOfCond := true } := by
  have hpower : ((h.hot tj).fault .pmu 3).power = h.power :=
    (Hub.pmuFault_power _ 3).trans (((h.hot_told_frame tj).part .power (by decide)).trans
      ((h.senseTj_frame tj).part .power List.not_mem_nil))
  exact congrArg (fun x : Power => { x with outOfCond := true }) hpower

theorem Hub.overheated_hdr (h : Hub) (tj : BitVec 16) :
    bit ((h.overheated tj).hdr .pmu).sticky 2 = true ∧ bit ((h.overheated tj).hdr .pmu).live 2 = true
    ∧ bit ((h.overheated tj).hdr .pmu).sticky 3 = true := by
  have hsticky : bit ((h.hot tj).hdr .pmu).sticky 2 = true := by
    rw [Hub.hot, Hub.setLive_sticky]
    exact Hub.fault_sticky_self _ _ (by decide)
  have hlive : bit ((h.hot tj).hdr .pmu).live 2 = true := Hub.setLive_live_self _ _ (by decide) _
  rw [Hub.overheated, Hub.updPower_hdr, (Hub.fault_sticky_live _ .pmu .pmu 3).2]
  exact ⟨Hub.fault_sticky_of hsticky .pmu 3, hlive, Hub.fault_sticky_self _ _ (by decide)⟩

theorem ends_tempHigh_over {s : State} {tj : BitVec 16} (hup : s.hub.custodyUp = true) (htj : 1180 ≤ tj.toInt) :
    Ends (.tempHigh tj) s [.power, .pins] {Reg.PMU_TEMP, Reg.SIT_FAULTN_CNT} [.pmu, .sit] (fun t =>
      t.hub.rdF Reg.PMU_TEMP 15 0 = tj.toNat ∧ bit (t.hub.hdr .pmu).sticky 2 = true ∧ bit (t.hub.hdr .pmu).live 2 = true
      ∧ bit (t.hub.hdr .pmu).sticky 3 = true ∧ t.hub.power = { s.hub.power with outOfCond := true }) := by
  have htold := s.hub.fresh.overheated_told_frame tj
  have hpower := s.hub.fresh.overheated_power tj
  have hhdr := s.hub.fresh.overheated_hdr tj
  refine ends_act (exec_tempHigh tj s) (by rw [Hub.up_pmu, hup]) ?_ ?_ <;> rw [if_pos htj]
  · exact ((s.hub.fresh.senseTj_frame tj).mono (by simp) (by simp) (by simp)).trans
      (htold.mono (List.Subset.refl _) (by simp) (List.Subset.refl _))
  · dsimp only
    rw [settle_rdF, settle_sticky, settle_live, settle_power, Hub.rdF, htold.reg _ (by decide)]
    obtain ⟨hsticky, hlive, hcond⟩ := hhdr
    exact ⟨s.hub.fresh.senseTj_shown tj, hsticky, hlive, hcond, hpower⟩

theorem ends_tempHigh_inRange {s : State} {tj : BitVec 16} (hup : s.hub.custodyUp = true) (htj : tj.toInt < 1180) :
    Ends (.tempHigh tj) s [] {Reg.PMU_TEMP} [.pmu] (fun t =>
      t.hub.rdF Reg.PMU_TEMP 15 0 = tj.toNat ∧ bit (t.hub.hdr .pmu).live 2 = false
      ∧ (t.hub.hdr .pmu).sticky = (s.hub.hdr .pmu).sticky) := by
  refine ends_act (exec_tempHigh tj s) (by rw [Hub.up_pmu, hup]) ?_ ?_ <;> rw [if_neg (Int.not_le.mpr htj)]
  · exact s.hub.fresh.cooled_frame tj
  · dsimp only
    rw [settle_rdF, settle_live, settle_sticky, Hub.setLive_sticky, Hub.setLive_live_self _ _ (by decide)]
    refine ⟨s.hub.fresh.senseTj_shown tj, rfl, ?_⟩
    unfold Hub.senseTj
    dsimp only
    split <;> rfl

/-! ### Crystal (R45, R59) -/

theorem exec_xtalSwitchover (s : State) : exec .xtalSwitchover s = act s (s.hub.up .pmu && !s.hub.power.xtal) fun h =>
    h.updPower fun x => { x with xtal := true } := rfl

theorem ends_xtalSwitchover {s : State} (hup : s.hub.custodyUp = true) (hx : s.hub.power.xtal = false) :
    Ends .xtalSwitchover s [.power] ∅ [] (fun t => t.hub.power = { s.hub.power with xtal := true } ∧ t.hub.time = s.hub.time) :=
  ends_act (exec_xtalSwitchover s) (by simp [Hub.up_pmu, hup, hx]) ((Frame.refl _).updPower List.mem_cons_self)
    ⟨settle_power _ _, settle_time _ _⟩

theorem exec_xtalStartTimeout (s : State) :
    exec .xtalStartTimeout s = act s (s.hub.up .pmu && !s.hub.power.xtal) fun h => h.fault .pmu 6 := rfl

theorem ends_xtalStartTimeout {s : State} (hup : s.hub.custodyUp = true) (hx : s.hub.power.xtal = false) :
    Ends .xtalStartTimeout s [.pins] {Reg.SIT_FAULTN_CNT} [.pmu, .sit] (fun t =>
      bit (t.hub.hdr .pmu).sticky 6 = true ∧ t.hub.power.xtal = false) := by
  refine ends_act (exec_xtalStartTimeout s) (by simp [Hub.up_pmu, hup, hx]) (Hub.pmuFault_frame _ 6) ?_
  dsimp only
  rw [settle_sticky, settle_power, Hub.pmuFault_power]
  exact ⟨Hub.fault_sticky_self _ _ (by decide), hx⟩

/-! ### Mailbox operations of PMU (R81) -/

theorem settle_mbx (o n : Hub) (b : Block) : (settle o n).mbx b = n.mbx b := by
  obtain ⟨-, -, -, hmbx, -⟩ := settle_hdr_fields o n b
  exact hmbx

theorem Hub.opResult_mbx {h : Hub} {b : Block} {op : Nat} (hrun : h.opRunning b op = true) (r : MbxResult) :
    (h.opResult b op r).mbx b = { h.mbx b with result := some r } := by
  rw [Hub.opResult, if_pos hrun, Hub.mbx, Hub.updMbx, Hub.hdr_updHdr_self]
  rfl

/-- PMU is in every role, so that its operations always run. -/
theorem Hub.runOp_pmu_done {h k : Hub} {f : Hub → Hub × Option MbxResult} {r : MbxResult} (hf : f h = done k r) (op : Nat) :
    h.runOp .pmu op f = k.opResult .pmu op r := by
  unfold Hub.runOp
  rw [if_pos (show h.present .pmu = true from rfl), hf]
  rfl

/-! ### Always-on load (R444) -/

/-- The load follows the tamper inputs, the role, the power channels and the board, none of which PMU_AO shows. -/
theorem Hub.aoLoad_congr {h k : Hub} (f : Frame h k [] {Reg.PMU_AO} [.pmu]) (nap : Bool) : k.aoLoad nap = h.aoLoad nap := by
  have hpower : k.power = h.power := f.part .power List.not_mem_nil
  have hstraps : k.straps = h.straps := f.part .straps List.not_mem_nil
  have hchan : ∀ n, k.pcState n = h.pcState n := fun n => by
    unfold Hub.pcState Hub.rdF
    rw [f.reg]
    intro e
    have heq : Reg.PC_STAT n = Reg.PMU_AO := e
    unfold Reg.PC_STAT Reg.PMU_AO at heq
    omega
  simp only [Hub.aoLoad, Hub.rdB, Hub.role, hpower, hstraps, hchan, f.reg Reg.KSI_TAMP_CFG (by decide)]
  rfl

/-- The board's draw is known. -/
def Hub.boardKnown (h : Hub) (board : Nat) : Hub := h.updPower fun x => { x with aoBoard := board }

theorem Hub.aoSense_eq (h : Hub) (board : Nat) : h.aoSense board =
    if 450 < (h.boardKnown board).aoLoad false ∧ h.power.state = .run
    then ((h.boardKnown board).wrF Reg.PMU_AO 27 16 (min 4095 ((h.boardKnown board).aoLoad false))).attn .pmu 6
    else (h.boardKnown board).wrF Reg.PMU_AO 27 16 (min 4095 ((h.boardKnown board).aoLoad false)) := rfl

theorem Hub.aoShown_frame (h : Hub) (board : Nat) : Frame (h.boardKnown board) (h.aoSense board) [] {Reg.PMU_AO} [.pmu] := by
  have hshown : Frame (h.boardKnown board)
      ((h.boardKnown board).wrF Reg.PMU_AO 27 16 (min 4095 ((h.boardKnown board).aoLoad false))) [] {Reg.PMU_AO} [.pmu] :=
    (Frame.refl _).wrF rfl
  rw [Hub.aoSense_eq]
  exact (hshown.attn List.mem_cons_self).ite hshown

theorem Hub.aoSense_shown (h : Hub) (board : Nat) :
    (h.aoSense board).rdF Reg.PMU_AO 27 16 = min 4095 ((h.boardKnown board).aoLoad false) := by
  have hrd : (h.aoSense board).rd Reg.PMU_AO =
      setFld (h.rd Reg.PMU_AO) 27 16 (min 4095 ((h.boardKnown board).aoLoad false)) := by
    have hshown := (h.boardKnown board).rd_wrF Reg.PMU_AO 27 16 (min 4095 ((h.boardKnown board).aoLoad false)) Reg.PMU_AO
    rw [if_pos rfl] at hshown
    rw [Hub.aoSense_eq]
    split <;> exact hshown
  rw [Hub.rdF, hrd, fld_setFld _ _ _ _ (by decide)]
  exact Nat.mod_eq_of_lt (by omega)

/-- The measurement leaves PMU's request running. -/
theorem Hub.aoSense_opRunning (h : Hub) (board op : Nat) : (h.aoSense board).opRunning .pmu op = h.opRunning .pmu op := by
  rw [Hub.aoSense_eq]
  split <;> rfl

theorem exec_aoMeasure (board : BitVec 12) (s : State) : exec (.aoMeasure board) s = act s (s.hub.opRunning .pmu 0x11) fun h =>
    h.runOp .pmu 0x11 fun h => if (h.arg .pmu 0).toNat ≠ 2 ∧ (h.arg .pmu 0).toNat ≠ 3 then done h (mbxErr 0x02)
      else done (h.aoSense board.toNat) (mbxOk [w32 ((h.aoSense board.toNat).aoLoad (decide ((h.arg .pmu 0).toNat = 2)))]) := rfl

theorem ends_aoMeasure {s : State} (board : BitVec 12) (hrun : s.hub.opRunning .pmu 0x11 = true)
    (harg : (s.hub.arg .pmu 0).toNat = 2 ∨ (s.hub.arg .pmu 0).toNat = 3) :
    Ends (.aoMeasure board) s [.power] {Reg.PMU_AO} [.pmu] (fun t =>
      t.hub.power = { s.hub.power with aoBoard := board.toNat }
      ∧ t.hub.rdF Reg.PMU_AO 27 16 = min 4095 (t.hub.aoLoad false)
      ∧ (t.hub.mbx .pmu).result = some (mbxOk [w32 (t.hub.aoLoad (decide ((s.hub.arg .pmu 0).toNat = 2)))])) := by
  let k := s.hub.fresh.aoSense board.toNat
  let r := mbxOk [w32 (k.aoLoad (decide ((s.hub.arg .pmu 0).toNat = 2)))]
  have hshown : Frame (s.hub.fresh.boardKnown board.toNat) k [] {Reg.PMU_AO} [.pmu] := s.hub.fresh.aoShown_frame _
  have hend : Frame k (settle s.hub (k.opResult .pmu 0x11 r)) [] {Reg.PMU_AO} [.pmu] :=
    ((Frame.refl k).opResult List.mem_cons_self).settle s.hub
  have hpower : k.power = { s.hub.power with aoBoard := board.toNat } := hshown.part .power List.not_mem_nil
  have hload := Hub.aoLoad_congr hend
  have hrunning : k.opRunning .pmu 0x11 = true := (Hub.aoSense_opRunning s.hub.fresh board.toNat 0x11).trans hrun
  refine ends_act (exec_aoMeasure board s) hrun ?_ ?_ <;>
    rw [Hub.runOp_pmu_done (k := k) (r := r) (if_neg fun hne => harg.elim hne.1 hne.2)]
  · have hboard : Frame s.hub.fresh (s.hub.fresh.boardKnown board.toNat) [.power] {Reg.PMU_AO} [.pmu] :=
      (Frame.refl _).updPower List.mem_cons_self
    exact (hboard.trans (hshown.mono (List.nil_subset _) subset_rfl (List.Subset.refl _))).opResult List.mem_cons_self
  · refine ⟨(hend.part .power List.not_mem_nil).trans hpower, ?_, ?_⟩
    · rw [settle_rdF, Hub.rdF, Hub.opResult_rd, hload, Hub.aoLoad_congr hshown]
      exact s.hub.fresh.aoSense_shown _
    · rw [settle_mbx, Hub.opResult_mbx hrunning, hload]

theorem ends_aoMeasure_refused {s : State} (board : BitVec 12) (hrun : s.hub.opRunning .pmu 0x11 = true)
    (h2 : (s.hub.arg .pmu 0).toNat ≠ 2) (h3 : (s.hub.arg .pmu 0).toNat ≠ 3) :
    Ends (.aoMeasure board) s [] ∅ [.pmu] (fun t => (t.hub.mbx .pmu).result = some (mbxErr 2)) := by
  refine ends_act (exec_aoMeasure board s) hrun ?_ ?_ <;>
    rw [Hub.runOp_pmu_done (k := s.hub.fresh) (r := mbxErr 0x02) (if_pos ⟨h2, h3⟩)]
  · exact Hub.opResult_frame _ _ _ _
  · dsimp only
    rw [settle_mbx, Hub.opResult_mbx (h := s.hub.fresh) hrun]

/-- Settles O24: each clause is its command's effect, closed by `settle`, on the branch that its conditions choose. -/
theorem powerMonitoring : Obligations.PowerMonitoring :=
  ⟨fun _ hup hne hfails => ends_pmbusRetry_resend hup hne hfails,
    fun s hup hne => runs_act (exec_pmbusRetry s) (by simp [Hub.up_pmu, hup, hne]),
    fun _ hup hone hat hfails => ends_pmbusRetry_giveUp hup hone hat hfails, fun _ hup => ends_pmbPgLow hup,
    fun _ _ hup htj => ends_tempHigh_over hup htj, fun _ _ hup htj => ends_tempHigh_inRange hup htj,
    fun _ hup hx => ⟨ends_xtalSwitchover hup hx, ends_xtalStartTimeout hup hx⟩,
    fun _ board hrun harg => ends_aoMeasure board hrun harg,
    fun _ board hrun h2 h3 => ends_aoMeasure_refused board hrun h2 h3⟩

end Sys2Proof.Machine
end

section
/-! SUPPORT. Reads of a LO word that latch its HI word (R83). -/

namespace Sys2Proof.Machine

/-! ### Latched reads -/

section
variable {c : Instr} {s : State} {cond : Bool}

/-- A command whose whole effect is a write of one register. -/
theorem ends_write {x : Nat} {v : Hub → Word} (hexec : exec c s = act s cond fun h => h.wr x (v h)) (hc : cond = true) :
    Ends c s [] {x} [] (fun t => t.hub.rd x = v s.hub.fresh) :=
  ends_act hexec hc ((Frame.refl _).wr rfl) ((settle_rd _ _ _).trans (Hub.rd_wr_self _ _ _))

/-- A read of the LO word of a wide register latches its HI word. -/
theorem ends_latchHi {lo hi : Nat} (hexec : exec c s = act s cond fun h => h.latchHi lo hi) (hc : cond = true) :
    Ends c s [] {hi} [] (fun t => t.hub.rd hi = hi32 (s.hub.rdWide lo)) :=
  ends_write (v := fun h => hi32 (h.rdWide lo)) hexec hc

end

/-- Settles O1: each read is the write of its HI word, taken from the masthead, from cell time or from the LO word's wide register. -/
theorem latchedReads : Obligations.LatchedReads := by
  refine ⟨fun s hup => ⟨?masthead, ?cellTime, ends_latchHi rfl hup, ends_latchHi rfl hup, ends_latchHi rfl hup, ends_latchHi rfl hup,
      fun n => ends_latchHi rfl hup⟩,
    fun s hup => ends_latchHi rfl hup, fun s hup o => ends_latchHi rfl hup, fun s hup n => ends_latchHi rfl hup,
    fun s hup => ends_latchHi rfl hup, fun s hup => ⟨ends_latchHi rfl hup, ends_latchHi rfl hup⟩⟩
  case masthead => exact ends_write (v := fun h => hi32 h.mh.time) rfl hup
  case cellTime => exact ends_write (v := fun h => hi32 h.time.ns) rfl hup

end Sys2Proof.Machine
end

section
/-! SUPPORT. The two refutations of the family: each is a hub that meets a clause's conditions and in which its command ends otherwise. -/

namespace Sys2Proof.Machine

/-! ### A completion that frees FCM's mailbox for the next mirrored operation (Table 9.4)

The steward performs the pair's mirrored operations by FCM's own mailbox: as a request there completes, the next one of them takes it
at once. -/

/-- A ROOT whose FCM runs a NOP while a mirrored FLOW_CREATE waits for the mailbox. -/
def mirroringRoot : State :=
  { hub := (({ Hub.reset {} with mir := { ops := [(0, 0, [])] } } : Hub).updMbx .fcm fun m => { m with busy := true }) }

theorem nop_mirroringRoot : ∃ t, exec (.nop .fcm) mirroringRoot = .next t ∧ (t.hub.mbx .fcm).busy = true :=
  ⟨_, rfl, by decide +kernel⟩

/-- Refutes O12: in `mirroringRoot` the NOP completes, and the mailbox is busy again with the operation that waited. -/
theorem not_mailboxCommands : ¬ Obligations.MailboxCommands := by
  rintro ⟨-, -, hnop, -⟩
  obtain ⟨t, hrun, -, -, -, -, hidle, -⟩ := hnop mirroringRoot .fcm (by decide +kernel)
  obtain ⟨u, hrun', hbusy⟩ := nop_mirroringRoot
  obtain rfl : t = u := Host.Outcome.next.inj (hrun.symm.trans hrun')
  exact absurd (hbusy.symm.trans hidle) (by decide)

/-! ### A block transfer of a word that is marked bad (R89, R495, Table 3.15)

The list of PMC's bad words may name any address: a local transfer of a word on it ends with status 3. -/

/-- A ROOT that runs REMOTE_READ_BLOCK of STW's BLK_ID, with that address among the bad words. -/
def badWordRoot : State :=
  { hub := (({ Hub.reset {} with pmc := { bad := [Block.stw.base] } } : Hub).updMbx .stw fun m =>
      { m with busy := true, op := 0x10, latched := [0, w32 Block.stw.base, 1] }) }

theorem remoteReadBlock_badWordRoot :
    ∃ t, exec .remoteReadBlock badWordRoot = .next t ∧ t.hub.rdF (Reg.STW_BLK_STATUS 0) 1 0 = 3 :=
  ⟨_, rfl, by decide +kernel⟩

/-- Refutes O17: in `badWordRoot` the transfer meets every condition of its clause, and the status of its word is 3. -/
theorem not_hostAndBlockAccesses : ¬ Obligations.HostAndBlockAccesses := by
  rintro ⟨-, -, -, -, -, -, -, hread, -⟩
  obtain ⟨t, hrun, -, -, hgood, -⟩ := hread badWordRoot .stw (by decide +kernel) rfl (by decide +kernel) (by decide +kernel)
    (by decide +kernel) (by decide +kernel)
  obtain ⟨u, hrun', hbad⟩ := remoteReadBlock_badWordRoot
  obtain rfl : t = u := Host.Outcome.next.inj (hrun.symm.trans hrun')
  exact absurd (hbad.symm.trans hgood) (by decide)

end Sys2Proof.Machine
end

section
/-! SUPPORT. How faults end and are cleared (R71, R466, R468, R472 to R474). -/

namespace Sys2Proof.Machine

/-! ### A change of one header -/

section
variable {c : Instr} {s : State} {cond : Bool} {b : Block} {f : Hdr → Hdr} {Q : State → Prop}

/-- A command whose whole effect is a change of one header. -/
theorem ends_updHdr (hexec : exec c s = act s cond fun h => h.updHdr b f) (hc : cond = true)
    (hq : Q { s with hub := settle s.hub (s.hub.fresh.updHdr b f) }) : Ends c s [] ∅ [b] Q :=
  ends_act hexec hc ((Frame.refl _).updHdr List.mem_cons_self) hq

end

/-- A change of a header moves no keep-awake mark, so that the end of the command leaves every bit of ATTN_RAW. -/
theorem settle_updHdr_attnRaw (h : Hub) (b : Block) (f : Hdr → Hdr) :
    ((settle h (h.fresh.updHdr b f)).hdr b).attnRaw = (f (h.hdr b)).attnRaw := by
  have hkeep : (h.fresh.updHdr b f).keepWord = h.keepWord := Hub.keepWord_congr rfl rfl rfl
  have hnote : keepNote h (h.fresh.updHdr b f) = h.fresh.updHdr b f := if_pos hkeep.symm
  rw [settle_hdr, hnote]
  show ((h.fresh.updHdr b f).hdr b).attnRaw = _
  rw [Hub.hdr_updHdr_self]
  rfl

theorem settle_flt (o n : Hub) (b : Block) : ((settle o n).hdr b).flt = (n.hdr b).flt := by
  obtain ⟨-, -, hflt, -⟩ := settle_hdr_fields o n b
  exact hflt

theorem settle_inFault (o n : Hub) (b : Block) : ((settle o n).hdr b).inFault = (n.hdr b).inFault := by
  obtain ⟨-, -, -, -, hin, -⟩ := settle_hdr_fields o n b
  exact hin

theorem settle_recovery (o n : Hub) (b : Block) : ((settle o n).hdr b).recovery = (n.hdr b).recovery := by
  obtain ⟨-, -, -, -, -, hrec, -⟩ := settle_hdr_fields o n b
  exact hrec

/-! ### The end of a compact window (R468) -/

theorem atD_modAt {α : Type} {l : List α} {i : Nat} (hi : i < l.length) (f : α → α) (d : α) :
    atD (modAt l i f) i d = f (atD l i d) := by
  induction l generalizing i with
  | nil => exact absurd hi (Nat.not_lt_zero i)
  | cons x l ih =>
    cases i with
    | zero => rfl
    | succ i => exact ih (Nat.lt_of_succ_lt_succ hi)

/-- A source with an open window is one of its block's sources. -/
theorem lt_length_of_win {l : List FltSrc} {i : Nat} (hwin : (atD l i {}).win ≠ 0) : i < l.length := by
  by_contra hle
  refine hwin ?_
  unfold atD
  rw [List.getD_eq_default _ _ (Nat.not_lt.mp hle)]

theorem ends_compactWindowEnd {s : State} {b : Block} {i : Nat} (hup : s.hub.answers b = true)
    (hwin : (atD (s.hub.hdr b).flt i {}).win ≠ 0) (hover : (atD (s.hub.hdr b).flt i {}).winOver (s.hub.fltW b i) s.hub.mono = true) :
    Ends (.compactWindowEnd b i) s [] ∅ [b] (fun t =>
      atD (t.hub.hdr b).flt i {} = { atD (s.hub.hdr b).flt i {} with win := 0 }
      ∧ (t.hub.hdr b).inFault = (s.hub.hdr b).inFault) := by
  refine ends_updHdr (f := fun x => { x with flt := modAt x.flt i fun y => { y with win := 0 } }) rfl
    (by rw [hup, hover, decide_eq_true hwin]; rfl) ?_
  dsimp only
  rw [settle_flt, settle_inFault, Hub.hdr_updHdr_self]
  exact ⟨atD_modAt (lt_length_of_win hwin) _ _, rfl⟩

/-! ### The end of the fault state (R472) -/

theorem fltLevel_of_quiet (l : List FltSrc) : fltLevel (l.map fun y => { y with cls := 0, win := 0 }) = 0 := by
  unfold fltLevel
  rw [List.foldl_map]
  induction l with
  | nil => rfl
  | cons y l ih => exact ih

theorem Hdr.leaveFault_counts (x : Hdr) : x.leaveFault.flt.map (·.count) = x.flt.map (·.count) := by
  unfold Hdr.leaveFault
  rw [List.map_map]
  rfl

/-- A command by which a block leaves its fault state. -/
theorem ends_leaveFault {c : Instr} {s : State} {cond : Bool} {b : Block}
    (hexec : exec c s = act s cond fun h => h.updHdr b Hdr.leaveFault) (hc : cond = true) :
    Ends c s [] ∅ [b] (fun t =>
      (t.hub.hdr b).inFault = false ∧ (t.hub.hdr b).level = 0 ∧ (t.hub.hdr b).recovery = incHold (s.hub.hdr b).recovery
      ∧ (t.hub.hdr b).flt.map (·.count) = (s.hub.hdr b).flt.map (·.count)) := by
  refine ends_updHdr hexec hc ?_
  dsimp only
  rw [Hdr.level, settle_flt, settle_inFault, settle_recovery, Hub.hdr_updHdr_self]
  exact ⟨rfl, fltLevel_of_quiet _, rfl, Hdr.leaveFault_counts _⟩

theorem exec_faultExit {s : State} {b : Block} (hin : (s.hub.hdr b).inFault = true) (hheld : (s.hub.hdr b).heldLive = false) :
    exec (.faultExit b) s = act s (s.hub.answers b) fun h => h.updHdr b Hdr.leaveFault := by
  have hexit : s.hub.fresh.fltExit b = s.hub.fresh.updHdr b Hdr.leaveFault :=
    if_pos (show ((s.hub.hdr b).inFault && !(s.hub.hdr b).heldLive) = true by rw [hin, hheld]; rfl)
  show act s (s.hub.answers b) (fun h => h.fltExit b) = _
  unfold act
  dsimp only
  rw [hexit]

theorem ends_faultCountClear {s : State} {b : Block} (hup : s.hub.answers b = true) :
    Ends (.faultCountClear b) s [] ∅ [b] (fun t => (t.hub.hdr b).flt = (s.hub.hdr b).flt.map fun y => { y with count := 0 }) := by
  refine ends_updHdr (f := fun x => { x with flt := x.flt.map fun y => { y with count := 0 } }) rfl hup ?_
  dsimp only
  rw [settle_flt, Hub.hdr_updHdr_self]
  rfl

/-! ### The pin FAULT_N (R473, R474) -/

theorem ends_faultnPulseEnd {s : State} {u : Nat} (hup : s.hub.custodyUp = true) (hpulse : s.hub.pins.faultPulse = some u)
    (hdue : u ≤ s.hub.mono) :
    Ends .faultnPulseEnd s [.pins] ∅ [] (fun t => t.hub.pins = { s.hub.pins with faultPulse := none }) := by
  refine ends_act (f := fun h => { h with pins := { h.pins with faultPulse := none } }) rfl ?_ ?_ (settle_pins _ _)
  · simp [hup, hpulse, hdue]
  · exact (Frame.refl _).upd rfl rfl rfl fun p hp => by cases p <;> first | exact absurd List.mem_cons_self hp | rfl

theorem ends_faultnLevelWrite {s : State} (v : Bool) (hup : s.hub.custodyUp = true) :
    Ends (.faultnLevelWrite v) s [] {Reg.SIT_FAULTN} [] (fun t =>
      t.hub.rdB Reg.SIT_FAULTN 0 = v ∧ t.hub.rdF Reg.SIT_FAULTN 29 16 = s.hub.rdF Reg.SIT_FAULTN 29 16) := by
  refine ends_act (f := fun h => h.wrB Reg.SIT_FAULTN 0 v) rfl hup ((Frame.refl _).wrB rfl) ?_
  dsimp only
  rw [settle_rdB, settle_rdF, Hub.rdB, Hub.rdF, Hub.rd_wrB, if_pos rfl]
  exact ⟨(bit_setBit _ _ _ _ (by decide)).trans (if_pos rfl), fld_setBit_ne _ _ _ _ _ (by decide) (by decide)⟩

/-! ### Write-one-to-clear (R71) -/

theorem ends_attnRawClear {s : State} {b : Block} (v n : Word) (hup : s.hub.answers b = true) :
    Ends (.attnRawClear b v n) s [] ∅ [b] (fun t => (t.hub.hdr b).attnRaw = ((s.hub.hdr b).attnRaw &&& ~~~v) ||| (n &&& attnMask b)
      ∧ (t.hub.hdr b).sticky = (s.hub.hdr b).sticky) := by
  refine ends_updHdr (f := fun x => { x with attnRaw := (x.attnRaw &&& ~~~v) ||| (n &&& attnMask b) }) rfl hup ?_
  dsimp only
  rw [settle_updHdr_attnRaw, settle_sticky, Hub.hdr_updHdr_self]
  exact ⟨rfl, rfl⟩

/-- The W1C write of FLT_STICKY alone, before what it asks of the regulator. -/
def Hub.stickyCleared (h : Hub) (b : Block) (v : Word) : Hub := h.updHdr b fun x => { x with sticky := x.sticky &&& ~~~v }

theorem Hub.stickyClear_eq (h : Hub) (b : Block) (v : Word) :
    h.stickyClear b v = if b = .pmu ∧ bit ((h.hdr b).sticky &&& v) 5 = true then (h.stickyCleared b v).emit (h.pmbWire ⟨0x03, [], false⟩)
      else h.stickyCleared b v :=
  if_congr (by rw [Bool.and_eq_true, decide_eq_true_eq]) rfl rfl

theorem Hub.stickyClear_hdr (h : Hub) (b : Block) (v : Word) :
    (h.stickyClear b v).hdr b = { h.hdr b with sticky := (h.hdr b).sticky &&& ~~~v } := by
  have hcleared : (h.stickyCleared b v).hdr b = { h.hdr b with sticky := (h.hdr b).sticky &&& ~~~v } := Hub.hdr_updHdr_self _ _ _
  rw [Hub.stickyClear_eq]
  split <;> exact hcleared

theorem Hub.stickyClear_out (h : Hub) (b : Block) (v : Word) :
    (h.stickyClear b v).out =
      h.out ++ if b = .pmu ∧ bit ((h.hdr b).sticky &&& v) 5 = true then [h.pmbWire ⟨0x03, [], false⟩] else [] := by
  rw [Hub.stickyClear_eq]
  split
  · rfl
  · exact (List.append_nil _).symm

theorem Frame.stickyClear {h k : Hub} {ps : List Part} {rs : Set Nat} {bs : List Block} {b : Block} {v : Word}
    (a : Frame h k ps rs bs) (hb : b ∈ bs) : Frame h (k.stickyClear b v) ps rs bs := by
  have hcleared : Frame h (k.stickyCleared b v) ps rs bs := a.updHdr hb
  rw [Hub.stickyClear_eq]
  exact hcleared.emit.ite hcleared

/-- Every block has a fault source. -/
theorem nSources_pos (b : Block) : 0 < nSources b := (by decide : ∀ b ∈ Block.all, 0 < nSources b) b b.mem_all

theorem settle_attnRaw {b : Block} (hb : b ≠ .pmu) (o n : Hub) : ((settle o n).hdr b).attnRaw = (n.hdr b).attnRaw := by
  rw [settle_hdr]
  show ((keepNote o n).hdr b).attnRaw = _
  rcases keepNote_eq o n with e | e <;> rw [e]
  rw [Hub.attn, Hub.hdr_updHdr, if_neg hb]

theorem ends_fltStickyClear {s : State} {b : Block} (v : Word) (hup : s.hub.answers b = true) :
    Ends (.fltStickyClear b v none) s [] ∅ [b] (fun t => (t.hub.hdr b).sticky = (s.hub.hdr b).sticky &&& ~~~v
      ∧ (b ≠ .pmu → (t.hub.hdr b).attnRaw = (s.hub.hdr b).attnRaw)
      ∧ t.hub.out = (if b = .pmu ∧ bit ((s.hub.hdr b).sticky &&& v) 5 = true then [s.hub.pmbWire ⟨0x03, [], false⟩] else [])) := by
  refine ends_act (f := fun h => h.stickyClear b v) rfl ?_ ((Frame.refl _).stickyClear List.mem_cons_self) ⟨?_, fun hb => ?_, ?_⟩
  · simp [hup, nSources_pos]
  · dsimp only
    rw [settle_sticky, Hub.stickyClear_hdr]
    rfl
  · dsimp only
    rw [settle_attnRaw hb, Hub.stickyClear_hdr]
    rfl
  · dsimp only
    rw [settle_out, Hub.stickyClear_out]
    rfl

/-- A bit set before and after a word is cleared is set just once. -/
theorem clear_keeps_set (w v e : Word) : ((w ||| e) &&& ~~~v) ||| e = (w &&& ~~~v) ||| e := by
  ext i hi
  simp only [BitVec.getElem_or, BitVec.getElem_and, BitVec.getElem_not]
  cases e[i] <;> simp

theorem ends_fltStickyClear_event {s : State} {b : Block} (v : Word) {i : Nat} (hup : s.hub.answers b = true) (hi : i < nSources b) :
    Ends (.fltStickyClear b v (some i)) s [.pins] {Reg.SIT_FAULTN_CNT} [b, .sit] (fun t =>
      (t.hub.hdr b).sticky = ((s.hub.hdr b).sticky &&& ~~~v) ||| bitW i) := by
  refine ends_act (f := fun h => ((h.fault b i).stickyClear b v).updHdr b fun x => { x with sticky := x.sticky ||| bitW i }) rfl ?_ ?_ ?_
  · simp [hup, hi]
  · have hfault : Frame s.hub.fresh (s.hub.fresh.fault b i) [.pins] {Reg.SIT_FAULTN_CNT} [b, .sit] :=
      (Frame.refl _).fault List.mem_cons_self List.mem_cons_self rfl (by simp)
    exact (hfault.stickyClear List.mem_cons_self).updHdr List.mem_cons_self
  · dsimp only
    rw [settle_sticky, Hub.hdr_updHdr_self, Hub.stickyClear_hdr, (Hub.fault_sticky_live _ b b i).1, if_pos rfl]
    exact clear_keeps_set _ _ _

/-- Settles O11: each clause is its command's effect, closed by `settle`, which touches neither faults nor the pin. -/
theorem faultClearing : Obligations.FaultClearing :=
  ⟨fun _ _ _ hup hwin hover => ends_compactWindowEnd hup hwin hover,
    fun _ _ hup hin hheld hquiet => ends_leaveFault rfl (by simp [hup, hin, hheld, hquiet]),
    fun _ _ hup hin hheld => ends_leaveFault (exec_faultExit hin hheld) hup, fun _ _ hup => ends_faultCountClear hup,
    fun _ _ hup hpulse hdue => ends_faultnPulseEnd hup hpulse hdue, fun _ v hup => ends_faultnLevelWrite v hup,
    fun _ _ v n hup => ends_attnRawClear v n hup, fun _ _ v hup => ends_fltStickyClear v hup,
    fun _ _ v _ hup hi => ends_fltStickyClear_event v hup hi⟩

end Sys2Proof.Machine
end

section
/-! SUPPORT. Commits (R73 to R76): arming, discarding, and the window in which an armed commit applies. -/

namespace Sys2Proof.Machine

/-! ### Commands that TSC watches -/

theorem settle_fresh (o n : Hub) : settle o.fresh n = settle o n := rfl

theorem runs_actT {c : Instr} {s : State} {cond : Bool} {f : Hub → Hub} (hexec : exec c s = actT s cond f) (hc : cond = true) :
    Runs c s (settle s.hub (s.hub.fresh.tscWatch (f s.hub.fresh))) := runs_act (f := fun h => h.tscWatch (f h)) hexec hc

/-- A command that moves no cell ends as its effect, TSC's watch and `settle`. -/
theorem ends_actT {c : Instr} {s : State} {cond : Bool} {f : Hub → Hub} {k : Hub} {ps : List Part} {rs : Set Nat} {bs : List Block}
    {Q : State → Prop} (hexec : exec c s = actT s cond f) (hc : cond = true) (hk : f s.hub.fresh = k)
    (hcells : k.cells = s.hub.fresh.cells) (hr : Reg.TSC_KITTY_MIN ∈ rs) (ht : Block.tsc ∈ bs) (hf : Frame s.hub.fresh k ps rs bs)
    (hq : Q { s with hub := s.hub.fresh.cycleEnd k }) : Ends c s ps rs bs Q := by
  refine ends_act hexec hc ?_ ?_ <;> rw [hk]
  · exact hf.tscWatch hcells hr ht
  · exact hq

theorem Hub.answers_custody {h : Hub} {b : Block} (hb : b = .pmu ∨ b = .ksi) : h.answers b = h.custodyUp := by
  rcases hb with rfl | rfl <;> rfl

/-! ### Arming and discarding (R74) -/

theorem exec_commitArm (b : Block) (s : State) : exec (.commitArm b) s = act s (s.hub.answers b) fun h => h.commitArm b := rfl

theorem exec_commitDiscard (b : Block) (s : State) : exec (.commitDiscard b) s = act s (s.hub.answers b) fun h => h.commitDiscard b := rfl

theorem settle_waiting (o n : Hub) (b : Block) : ((settle o n).hdr b).waiting = (n.hdr b).waiting := by
  obtain ⟨-, -, -, -, -, -, -, -, hwaiting, -⟩ := settle_hdr_fields o n b
  exact hwaiting

theorem settle_applied (o n : Hub) (b : Block) : ((settle o n).hdr b).applied = (n.hdr b).applied := by
  obtain ⟨-, -, -, -, -, -, -, -, -, happlied, -⟩ := settle_hdr_fields o n b
  exact happlied

theorem settle_missed (o n : Hub) (b : Block) : ((settle o n).hdr b).missed = (n.hdr b).missed := by
  obtain ⟨-, -, -, -, -, -, -, -, -, -, hmissed, -⟩ := settle_hdr_fields o n b
  exact hmissed

theorem settle_late (o n : Hub) (b : Block) : ((settle o n).hdr b).late = (n.hdr b).late := by
  obtain ⟨-, -, -, -, -, -, -, -, -, -, -, hlate, -⟩ := settle_hdr_fields o n b
  exact hlate

/-- When a commit was armed and which windows it has missed are no part of a steward cycle's end. -/
theorem settle_armed (o n : Hub) (b : Block) :
    ((settle o n).hdr b).armedAt = (n.hdr b).armedAt ∧ ((settle o n).hdr b).overdue = (n.hdr b).overdue := by
  have hbody := settle_body o n b
  simp only [Hdr.body, Hdr.mk.injEq] at hbody
  simp only [hbody, and_self]

theorem ends_commitArm {s : State} {b : Block} (hup : s.hub.answers b = true) (hidle : (s.hub.hdr b).waiting = []) :
    Ends (.commitArm b) s [] ∅ [b] (fun t =>
      (t.hub.hdr b).waiting = List.range (windowCount b) ∧ (t.hub.hdr b).armedAt = s.hub.mono ∧ (t.hub.hdr b).overdue = []
      ∧ (t.hub.hdr b).applied = (s.hub.hdr b).applied) := by
  have harm : s.hub.fresh.commitArm b = s.hub.fresh.updHdr b fun x =>
      { x with waiting := List.range (windowCount b), armedAt := s.hub.mono, overdue := [], clkReq := true } :=
    if_pos (List.isEmpty_iff.mpr hidle)
  refine ends_act (exec_commitArm b s) hup ?_ ?_ <;> rw [harm]
  · exact (Frame.refl _).updHdr List.mem_cons_self
  · dsimp only
    rw [settle_waiting, settle_applied, (settle_armed _ _ b).1, (settle_armed _ _ b).2, Hub.hdr_updHdr_self]
    exact ⟨rfl, rfl, rfl, rfl⟩

theorem Frame.withPend {h k : Hub} {ps : List Part} {rs : Set Nat} {bs : List Block} {l : Tab Word} (a : Frame h k ps rs bs)
    (hx : Part.pend ∈ ps) : Frame h { k with pend := l } ps rs bs :=
  a.upd rfl rfl rfl fun p hp => by cases p <;> first | exact absurd hx hp | rfl

theorem Hub.commitDiscard_hdr (h : Hub) (b : Block) : (h.commitDiscard b).hdr b = { h.hdr b with waiting := [], overdue := [] } :=
  h.hdr_updHdr_self b fun x => { x with waiting := [], overdue := [] }

theorem ends_commitDiscard {s : State} {b : Block} (hup : s.hub.answers b = true) :
    Ends (.commitDiscard b) s [.pend] ∅ [b] (fun t =>
      (t.hub.hdr b).waiting = []
      ∧ t.hub.pend = s.hub.pend.filter fun e => !(decide (b.base ≤ e.1) && decide (e.1 < b.base + 0x100000))) := by
  refine ends_act (exec_commitDiscard b s) hup (((Frame.refl _).updHdr List.mem_cons_self).withPend List.mem_cons_self) ?_
  dsimp only
  rw [settle_waiting, settle_pend]
  refine ⟨?_, rfl⟩
  rw [Hub.commitDiscard_hdr]

/-! ### A commit window (R75, R76) -/

theorem exec_commitApply (b : Block) (i n : Nat) (s : State) :
    exec (.commitApply b i n) s = actT s (s.hub.answers b && (s.hub.hdr b).waiting.contains i) fun h =>
      h.commitWindow b i n := rfl

theorem Hub.commitWindow_of_missed {h : Hub} {b : Block} {i n : Nat} (hw : h.window b i n = .missed) :
    h.commitWindow b i n = h.updHdr b fun x => x.miss i := by
  unfold Hub.commitWindow
  rw [hw]

theorem Hub.commitWindow_of_applies {h : Hub} {b : Block} {i n : Nat} {late : Bool} (hw : h.window b i n = .applies late) :
    h.commitWindow b i n = h.commitApply b i (late || (h.hdr b).overdue.contains i) := by
  unfold Hub.commitWindow
  rw [hw]

/-- The blocks whose fields do nothing besides coming into force, in a single window. -/
theorem Hub.windowOf_plain {h : Hub} {b : Block} (hb : b = .pmu ∨ b = .ksi ∨ b = .tss) (a : Nat) : h.windowOf b a = none := by
  rcases hb with rfl | rfl | rfl <;> rfl

/-- What a commit of such a block puts in force: its shadows, all of which its one window takes. -/
def Hub.inForce (h : Hub) (b : Block) : Hub :=
  { h.putInForce (h.due b 0 true) with pend := h.pend.filter fun e => !(h.due b 0 true).any fun x => x.1 = e.1 }

theorem Hub.commitApply_plain {h : Hub} {b : Block} (hb : b = .pmu ∨ b = .ksi ∨ b = .tss) (hwait : (h.hdr b).waiting = [0])
    (late : Bool) : h.commitApply b 0 late = (h.inForce b).updHdr b fun x => x.applied1 0 late := by
  have hfirst : decide ((h.hdr b).waiting.length = windowCount b) = true := by
    rw [hwait]
    rcases hb with rfl | rfl | rfl <;> rfl
  have hshadows : h.applyShadows b 0 true (fun _ => false) = h.inForce b := by
    unfold Hub.applyShadows Hub.inForce
    simp only [Bool.not_false, List.filter_true]
  unfold Hub.commitApply
  dsimp only
  rw [hfirst, show h.heldBack b = none by rcases hb with rfl | rfl | rfl <;> rfl]
  dsimp only
  rw [hshadows]
  rcases hb with rfl | rfl | rfl <;> simp only [Hub.afterCommit, ite_self]

theorem Hub.inForce_of_none {h : Hub} (b : Block) (hpend : h.pend = []) : h.inForce b = h := by
  unfold Hub.inForce Hub.due
  rw [hpend]
  cases h
  simp_all [Hub.putInForce]

/-- A single shadow of the block comes into force. -/
theorem Hub.inForce_of_one {h : Hub} {b : Block} {a : Nat} {v : Word} (hb : b = .pmu ∨ b = .ksi ∨ b = .tss) (hpend : h.pend = [(a, v)])
    (ha : ofBlock b a = true) :
    h.inForce b = { h.wr a ((h.rd a &&& ~~~shadowMask a) ||| (v &&& shadowMask a)) with pend := [] } := by
  have hdue : h.due b 0 true = [(a, v)] := by
    unfold Hub.due
    rw [hpend]
    simp [Hub.windowOf_plain hb, ha]
  unfold Hub.inForce
  rw [hdue, hpend]
  simp [Hub.putInForce]

theorem Frame.inForce_of_one {h : Hub} {b : Block} {a : Nat} {v : Word} {ps : List Part} {rs : Set Nat} {bs : List Block}
    (hb : b = .pmu ∨ b = .ksi ∨ b = .tss) (hpend : h.pend = [(a, v)]) (ha : ofBlock b a = true) (hp : Part.pend ∈ ps) (hr : a ∈ rs) :
    Frame h (h.inForce b) ps rs bs := by
  rw [Hub.inForce_of_one hb hpend ha]
  exact ((Frame.refl h).wr hr).withPend hp

/-- The one window of a commit is over (Table 3.7, R76). -/
theorem Hdr.applied1_single {x : Hdr} (hwait : x.waiting = [0]) (late : Bool) :
    (x.applied1 0 late).waiting = [] ∧ (x.applied1 0 late).applied = (x.applied + 1) % 256 := by
  unfold Hdr.applied1
  rw [hwait]
  exact ⟨rfl, rfl⟩

/-! ### What TSC's watch leaves of a commit -/

theorem Hub.tscWatch_hdr {o n : Hub} (hc : n.cells = o.cells) (b : Block) :
    ∃ w, (o.tscWatch n).hdr b = { n.hdr b with attnRaw := (n.hdr b).attnRaw ||| w } := by
  have hnone (x : Hdr) : x = { x with attnRaw := x.attnRaw ||| 0 } := by rw [show x.attnRaw ||| 0 = x.attnRaw from BitVec.or_zero]
  have hattn (m : Hub) : ∃ w, (m.attn .tsc 8).hdr b = { m.hdr b with attnRaw := (m.hdr b).attnRaw ||| w } := by
    rw [Hub.attn, Hub.hdr_updHdr]
    split
    · rename_i hb
      subst hb
      exact ⟨_, rfl⟩
    · exact ⟨0, hnone _⟩
  obtain ⟨m, rfl | rfl, e | e⟩ := Hub.tscWatch_cases hc <;> rw [e]
  · exact ⟨0, hnone _⟩
  · exact hattn _
  · exact ⟨0, hnone _⟩
  · exact hattn _

/-- The end of a commit window that moves no cell leaves the commit's fields of every header, and attention stays set. -/
theorem Hub.cycleEnd_hdr {o n : Hub} (hc : n.cells = o.cells) (b : Block) :
    ((o.cycleEnd n).hdr b).waiting = (n.hdr b).waiting ∧ ((o.cycleEnd n).hdr b).applied = (n.hdr b).applied
    ∧ ((o.cycleEnd n).hdr b).missed = (n.hdr b).missed ∧ ((o.cycleEnd n).hdr b).late = (n.hdr b).late
    ∧ ((o.cycleEnd n).hdr b).overdue = (n.hdr b).overdue := by
  obtain ⟨w, hw⟩ := Hub.tscWatch_hdr hc b
  rw [Hub.cycleEnd, settle_waiting, settle_applied, settle_missed, settle_late, (settle_armed _ _ b).2, hw]
  exact ⟨rfl, rfl, rfl, rfl, rfl⟩

theorem Hub.cycleEnd_raw {o n : Hub} (hc : n.cells = o.cells) {b : Block} {i : Nat} (hi : b ≠ .pmu ∨ i ≠ 4) (hraw : n.raw b i = true) :
    (o.cycleEnd n).raw b i = true := by
  obtain ⟨w, hw⟩ := Hub.tscWatch_hdr hc b
  rw [Hub.cycleEnd, settle_raw _ _ _ _ hi, Hub.raw, hw]
  exact bit_or_left hraw w

theorem Hub.cycleEnd_rd {o n : Hub} (hc : n.cells = o.cells) {a : Nat} (ha : a ≠ Reg.TSC_KITTY_MIN) : (o.cycleEnd n).rd a = n.rd a :=
  ((Frame.refl n).cycleEnd (ps := []) (rs := {Reg.TSC_KITTY_MIN}) (bs := [.tsc]) hc rfl List.mem_cons_self).reg a ha

theorem Hub.cycleEnd_pend {o n : Hub} (hc : n.cells = o.cells) : (o.cycleEnd n).pend = n.pend :=
  ((Frame.refl n).cycleEnd (ps := []) (rs := {Reg.TSC_KITTY_MIN}) (bs := [.tsc]) hc rfl List.mem_cons_self).part .pend List.not_mem_nil

/-! ### The clauses of Commits -/

theorem Hub.commitWindow_inForce {h : Hub} {b : Block} {n : Nat} (hb : b = .pmu ∨ b = .ksi ∨ b = .tss)
    (hwait : (h.hdr b).waiting = [0]) (hover : (h.hdr b).overdue = []) (hw : h.window b 0 n = .applies false) :
    h.commitWindow b 0 n = (h.inForce b).updHdr b fun x => x.applied1 0 false := by
  rw [Hub.commitWindow_of_applies hw, hover, ← Hub.commitApply_plain hb hwait]
  rfl

/-- A window that the commit meets after it has missed one. -/
theorem Hub.commitWindow_late {h : Hub} {b : Block} {n : Nat} (hb : b = .pmu ∨ b = .ksi ∨ b = .tss)
    (hwait : (h.hdr b).waiting = [0]) (hpend : h.pend = []) (hover : (h.hdr b).overdue = [0]) (hshut : h.window b 0 n ≠ .shut)
    (hmissed : h.window b 0 n ≠ .missed) : h.commitWindow b 0 n = h.updHdr b fun x => x.applied1 0 true := by
  cases hw : h.window b 0 n with
  | shut => exact absurd hw hshut
  | missed => exact absurd hw hmissed
  | applies late =>
    have hlate : (late || [0].contains 0) = true := Bool.or_true late
    rw [Hub.commitWindow_of_applies hw, hover, hlate, Hub.commitApply_plain hb hwait, Hub.inForce_of_none b hpend]

theorem ends_commitApply_inForce {s : State} {b : Block} {a n : Nat} {v : Word} (hup : s.hub.custodyUp = true)
    (hb : b = .pmu ∨ b = .ksi) (hwait : (s.hub.hdr b).waiting = [0]) (hover : (s.hub.hdr b).overdue = [])
    (hw : s.hub.window b 0 n = .applies false) (hpend : s.hub.pend = [(a, v)]) (ha : ofBlock b a = true) :
    Ends (.commitApply b 0 n) s [.pend] {a, Reg.TSC_KITTY_MIN} [b, .tsc] (fun t =>
      t.hub.rd a = (s.hub.rd a &&& ~~~shadowMask a) ||| (v &&& shadowMask a)
      ∧ t.hub.pend = [] ∧ (t.hub.hdr b).waiting = [] ∧ (t.hub.hdr b).applied = ((s.hub.hdr b).applied + 1) % 256
      ∧ (t.hub.hdr b).missed = (s.hub.hdr b).missed) := by
  have hplain : b = .pmu ∨ b = .ksi ∨ b = .tss := hb.imp_right .inl
  have hnot : a ≠ Reg.TSC_KITTY_MIN := by
    rintro rfl
    rcases hb with rfl | rfl <;> exact absurd ha (by decide)
  have hforce := Hub.inForce_of_one (h := s.hub.fresh) hplain hpend ha
  have hcells : ((s.hub.fresh.inForce b).updHdr b fun x => x.applied1 0 false).cells = s.hub.fresh.cells := by
    rw [hforce]
    rfl
  refine ends_actT (exec_commitApply b 0 n s) ?_
    (Hub.commitWindow_inForce (h := s.hub.fresh) hplain hwait hover hw) hcells (by simp) (by simp) ?_ ?_
  · rw [Hub.answers_custody hb, hup, hwait]
    rfl
  · exact (Frame.inForce_of_one (h := s.hub.fresh) hplain hpend ha List.mem_cons_self (Set.mem_insert _ _)).updHdr List.mem_cons_self
  · obtain ⟨hwaiting, happlied, hmissed, -, -⟩ := Hub.cycleEnd_hdr hcells b
    obtain ⟨hdone, hcount⟩ := Hdr.applied1_single hwait false
    dsimp only
    rw [hwaiting, happlied, hmissed, Hub.cycleEnd_rd hcells hnot, Hub.cycleEnd_pend hcells, Hub.hdr_updHdr_self,
      Hub.updHdr_rd, hforce]
    exact ⟨Hub.rd_wr_self s.hub.fresh _ _, rfl, hdone, hcount, rfl⟩

/-- KSI's boundary came less than the setup time after the ARM. -/
theorem Hub.window_ksi_missed {h : Hub} {n : Nat} (hlt : h.mono < (h.hdr .ksi).armedAt + 100 + n)
    (hge : (h.hdr .ksi).armedAt + n ≤ h.mono) : h.window .ksi 0 n = .missed := by
  show h.openWindow .ksi 100 n = .missed
  unfold Hub.openWindow
  dsimp only
  rw [if_neg (by omega), if_pos (by omega)]

theorem ends_commitApply_missed {s : State} {n : Nat} (hup : s.hub.custodyUp = true) (hwait : (s.hub.hdr .ksi).waiting = [0])
    (hlt : s.hub.mono < (s.hub.hdr .ksi).armedAt + 100 + n) (hge : (s.hub.hdr .ksi).armedAt + n ≤ s.hub.mono) :
    Ends (.commitApply .ksi 0 n) s [] {Reg.TSC_KITTY_MIN} [.ksi, .tsc] (fun t =>
      (t.hub.hdr .ksi).waiting = [0] ∧ (t.hub.hdr .ksi).overdue.contains 0 = true
      ∧ (t.hub.hdr .ksi).applied = (s.hub.hdr .ksi).applied) := by
  have hcells : (s.hub.fresh.updHdr .ksi fun x => x.miss 0).cells = s.hub.fresh.cells := rfl
  refine ends_actT (exec_commitApply .ksi 0 n s) ?_ (Hub.commitWindow_of_missed (h := s.hub.fresh) (Hub.window_ksi_missed hlt hge))
    hcells rfl (by simp) ((Frame.refl _).updHdr List.mem_cons_self) ?_
  · rw [Hub.answers_custody (.inr rfl), hup, hwait]
    rfl
  · obtain ⟨hwaiting, happlied, -, -, hoverdue⟩ := Hub.cycleEnd_hdr hcells .ksi
    dsimp only
    rw [hwaiting, happlied, hoverdue, Hub.hdr_updHdr_self]
    exact ⟨hwait, List.contains_cons.trans (by simp), rfl⟩

theorem ends_commitApply_late {s : State} {b : Block} {n : Nat} (hup : s.hub.custodyUp = true) (hb : b = .pmu ∨ b = .ksi)
    (hwait : (s.hub.hdr b).waiting = [0]) (hpend : s.hub.pend = []) (hover : (s.hub.hdr b).overdue = [0])
    (hshut : s.hub.window b 0 n ≠ .shut) (hmissed : s.hub.window b 0 n ≠ .missed) :
    Ends (.commitApply b 0 n) s [] {Reg.TSC_KITTY_MIN} [b, .tsc] (fun t =>
      (t.hub.hdr b).late = true ∧ t.hub.raw b 30 = true ∧ (t.hub.hdr b).missed = min 0xFFFF ((s.hub.hdr b).missed + 1)
      ∧ (t.hub.hdr b).applied = ((s.hub.hdr b).applied + 1) % 256) := by
  have hplain : b = .pmu ∨ b = .ksi ∨ b = .tss := hb.imp_right .inl
  have hcells : (s.hub.fresh.updHdr b fun x => x.applied1 0 true).cells = s.hub.fresh.cells := rfl
  refine ends_actT (exec_commitApply b 0 n s) ?_
    (Hub.commitWindow_late (h := s.hub.fresh) hplain hwait hpend hover hshut hmissed) hcells rfl (by simp) ((Frame.refl _).updHdr List.mem_cons_self) ?_
  · rw [Hub.answers_custody hb, hup, hwait]
    rfl
  · obtain ⟨-, happlied, hmiss, hlate, -⟩ := Hub.cycleEnd_hdr hcells b
    have hraw : (s.hub.fresh.updHdr b fun x => x.applied1 0 true).raw b 30 = true := by
      rw [Hub.raw, Hub.hdr_updHdr_self]
      exact bit_or_bitW _ (by decide)
    dsimp only
    rw [happlied, hmiss, hlate, Hub.cycleEnd_raw hcells (.inr (by decide)) hraw, Hub.hdr_updHdr_self]
    exact ⟨Bool.or_true _, rfl, rfl, (Hdr.applied1_single hwait true).2⟩

/-- Settles O13: each clause is its command's effect, closed by `settle`, in the window that its conditions choose. -/
theorem commits : Obligations.Commits := by
  refine ⟨fun s b hup hidle => ends_commitArm hup hidle, fun s b hup => ends_commitDiscard hup, ?inForce,
    fun s n hup hwait hlt hge => ends_commitApply_missed hup hwait hlt hge,
    fun s b n hup hb hwait hpend hover hshut hmissed => ends_commitApply_late hup hb hwait hpend hover hshut hmissed, ?runs⟩
  case inForce =>
    intro s b a n v hup hb hwait hover hw hpend hlo hhi _
    exact ends_commitApply_inForce hup hb hwait hover hw hpend (by simp [ofBlock, hlo, hhi])
  case runs =>
    intro s b i n hup hwait
    exact runs_actT (f := fun h => h.commitWindow b i n) (exec_commitApply b i n s) (by rw [hup, hwait]; rfl)

end Sys2Proof.Machine
end

section
/-! SUPPORT. What a message of the steward touches (R130, R131, R166): cells, contexts, flow-target state, link credits, frames that
wait, and what counts them. -/

namespace Sys2Proof.Machine

/-- From `h` to `k` nothing changed but what a frame that the hub sends may change. -/
abbrev Hub.Sends (h k : Hub) : Prop := Frame h k sendParts sendRegs sendBlocks

theorem mem_sendRegs_of_tsc {a : Nat} (hlo : 0x01000000 ≤ a) (hhi : a < 0x01100000) : a ∈ sendRegs := .inl (.inl ⟨hlo, hhi⟩)

theorem pmcRegs_subset_sendRegs : pmcRegs ⊆ sendRegs := Set.subset_union_right

namespace Hub.Sends

variable {h k : Hub}

theorem refl (h : Hub) : Sends h h := Frame.refl h

theorem when {c : Prop} [Decidable c] {j : Hub} (a : Sends h k) (f : Sends h k → Sends h j) : Sends h (if c then j else k) :=
  Frame.ite (f a) a

/-! ### Cells and links -/

theorem pmcEvent {ev port tc n : Nat} (a : Sends h k) : Sends h (k.pmcEvent ev port tc n) :=
  Frame.pmcEvent a (by decide) pmcRegs_subset_sendRegs (by decide)

theorem setCell {i : Nat} {c : Option CellSt} (a : Sends h k) : Sends h (k.setCell i c) := Frame.setCell a (by decide) (by decide)

theorem updCtx {s : Nat} {f : Ctx → Ctx} (a : Sends h k) : Sends h (k.updCtx s f) := Frame.updCtx a (by decide)

theorem updLink {p : Nat} {f : LinkSt → LinkSt} (a : Sends h k) : Sends h (k.updLink p f) := Frame.updLink a (by decide)

theorem attn {i : Nat} (a : Sends h k) : Sends h (k.attn .tsc i) := Frame.attn a (by decide)

theorem updCell {i : Nat} {f : CellSt → CellSt} (a : Sends h k) : Sends h (k.updCell i f) := by
  unfold Hub.updCell
  split
  · exact a.setCell
  · exact a

theorem newCells {cs : List CellSt} (a : Sends h k) : Sends h (k.newCells cs).1 := Frame.foldl _ a fun _ _ _ (a : Sends h _) => a.setCell.pmcEvent

theorem freeCell {i : Nat} (a : Sends h k) : Sends h (k.freeCell i) := by
  unfold Hub.freeCell
  split
  · exact a
  · exact setCell (a.when fun a => a.updLink.updLink)

theorem freeCells {l : List Nat} (a : Sends h k) : Sends h (k.freeCells l) := Frame.foldl _ a fun _ _ _ (a : Sends h _) => a.freeCell

theorem enlist {s : Nat} {ix : List Nat} (a : Sends h k) : Sends h (k.enlist s ix) := by
  refine Frame.foldl _ a fun i j _ (a : Sends h j) => ?_
  split
  · exact a
  · exact Frame.foldl _ a.setCell.updCtx fun _ _ _ a => Frame.setFt a (by decide)

/-! ### The resequencer (R176) -/

theorem rsqRelease {s : Nat} {f : HeldFrame} (a : Sends h k) : Sends h (k.rsqRelease s f) := a.updCtx.enlist

theorem rsqDrain {s : Nat} (n : Nat) (a : Sends h k) : Sends h (k.rsqDrain s n) := by
  induction n generalizing k with
  | zero => exact a
  | succ n ih =>
    rw [Hub.rsqDrain]
    split
    · exact a
    · exact ih a.rsqRelease.updCtx

theorem rsqSkip {s : Nat} (n : Nat) (a : Sends h k) : Sends h (k.rsqSkip s n) := by
  induction n generalizing k with
  | zero => exact a
  | succ n ih =>
    rw [Hub.rsqSkip]
    split
    · exact a.updCtx.attn
    · split
      · exact ih a.rsqRelease.updCtx
      · exact ih a.updCtx.attn

theorem rsqHold {s : Nat} {f : HeldFrame} (a : Sends h k) : Sends h (k.rsqHold s f) := by
  unfold Hub.rsqHold
  refine updCtx ?_
  split
  · exact a.updCell
  · exact a

theorem rsqTake {s : Nat} {f : HeldFrame} (a : Sends h k) : Sends h (k.rsqTake s f) := a.enlist.updCtx.rsqDrain 64

theorem rsqFrame {s : Nat} {f : HeldFrame} (a : Sends h k) : Sends h (k.rsqFrame s f) := by
  have hset : Sends h (if (k.ctx s).rsqSet then k else k.updCtx s fun c => { c with rsqSet := true, rsqNext := f.fseq }) :=
    Frame.ite a a.updCtx
  have hskip := fun d => (hset.rsqSkip (s := s) d).rsqDrain (s := s) 64
  have hdrop := hset.freeCells (l := f.cells)
  exact hset.rsqTake.ite ((hdrop.updCtx.ite hset.rsqHold).ite
    (((hskip _).rsqTake.ite (hskip _).rsqHold).ite (hdrop.updCtx.ite (hdrop.updCtx.ite hdrop.updCtx))))

/-! ### Admission (R166 to R169) -/

theorem frameIn {s : Nat} {ix : List Nat} {fseq tmask : Nat} (a : Sends h k) : Sends h (k.frameIn s ix fseq tmask) :=
  a.rsqFrame.ite a.enlist

theorem dropAt {mask : Nat} (a : Sends h k) : Sends h (k.dropAt mask) := by
  refine Frame.foldl _ a fun t j ht a => Frame.inc a ?_
  have hlt : t < 18 := List.mem_range.mp (List.mem_filter.mp ht).1
  exact mem_sendRegs_of_tsc (by unfold Reg.TP_DROP_ADMIT; omega) (by unfold Reg.TP_DROP_ADMIT; omega)

theorem trumpRefused {c mask : Nat} (a : Sends h k) : Sends h (k.trumpRefused c mask) :=
  a.when fun a => attn (Frame.fault a (by decide) (by decide) (.inl (.inr (by simp))) (by decide))

theorem wideCheck {s : Nat} (a : Sends h k) : Sends h (k.wideCheck s) := a.when fun a => a.attn

theorem admitWhole {s i flow : Nat} {payload : List Byte} {ok refused : Nat} (a : Sends h k) :
    Sends h (k.admitWhole s i flow payload ok refused) := a.updCtx.newCells.frameIn.dropAt.trumpRefused

theorem startWait {w : WaitFrame} (hw : w.port < 18) (a : Sends h k) : Sends h (k.startWait w) := by
  refine Frame.inc (a.upd rfl rfl rfl fun p hp => ?_) ?_
  · cases p <;> first | exact absurd (by decide) hp | rfl
  · exact mem_sendRegs_of_tsc (by unfold Reg.TP_WAIT_ADMIT; omega) (by unfold Reg.TP_WAIT_ADMIT; omega)

/-- A frame offered at a holding ingress is admitted, or goes on to wait. -/
theorem offer {s i flow : Nat} {payload : List Byte} {told : Bool} (hi : holdsAt i = true) (a : Sends h k) :
    Sends h (k.offer s i flow payload told).1 := by
  have hwide : Sends h (k.wideCheck s) := a.wideCheck
  unfold Hub.offer
  dsimp only
  split
  · split
    · exact hwide.admitWhole
    · exact hwide.ite hwide.trumpRefused
  · rw [if_pos hi]
    exact hwide.ite hwide.trumpRefused
  · rw [if_pos hi]
    exact hwide

/-! ### The steward's messages (R130, R131) -/

theorem postFrame {p handle : Nat} {payload : List Byte} (a : Sends h k) : Sends h (k.postFrame p handle payload) := by
  have hoffer := a.offer (s := p) (i := 0x11) (flow := handle) (payload := payload) (told := false) rfl
  unfold Hub.postFrame
  dsimp only
  split
  · exact a.startWait (Nat.lt_succ_self 17)
  · split <;> rename_i e <;> rw [e] at hoffer
    · exact hoffer.startWait (Nat.lt_succ_self 17)
    · exact hoffer

theorem routeMiss (a : Sends h k) : Sends h (k.routeMiss 0x11) :=
  pmcEvent (Frame.inc (Frame.attn (Frame.inc a (.inl (.inr (by simp)))) (by decide)) (mem_sendRegs_of_tsc (by decide) (by decide)))

theorem postHub {n typ : Nat} {body : List Byte} (a : Sends h k) : Sends h (k.postHub n typ body) := by
  unfold Hub.postHub
  split
  · exact a.postFrame
  · exact a.routeMiss

end Hub.Sends

end Sys2Proof.Machine
end

section
/-! SUPPORT. Remote accesses (R86 to R88, R90, R494): a command's access goes out or fails at once, an answer or a time-out ends it, and
another hub's access is served on path BAR2. -/

namespace Sys2Proof.Machine

/-! ### The commands -/

theorem runs_actReset {c : Instr} {s : State} {cond : Bool} {f : Hub → Hub} (hexec : exec c s = actReset s cond f) (hc : cond = true) :
    Runs c s (f s.hub) := by rw [Runs, hexec, actReset, if_pos hc]

theorem runs_bar2Read {s : State} (tag : BitVec 8) (a : BitVec 26) (hlink : s.hub.hostLink = true) :
    Runs (.bar2Read tag a) s (s.hub.fresh.bar2Read tag.toNat a.toNat) :=
  runs_actReset (f := fun h => h.fresh.bar2Read tag.toNat a.toNat) rfl hlink

theorem runs_bar2Write {s : State} (a : BitVec 26) (v : Word) (hlink : s.hub.hostLink = true) :
    Runs (.bar2Write a v) s (s.hub.fresh.bar2Write a.toNat v) :=
  runs_actReset (f := fun h => h.fresh.bar2Write a.toNat v) rfl hlink

theorem Hub.hostLink_up {h : Hub} (hlink : h.hostLink = true) : h.pxLink = true ∧ h.mainUp = true := by
  simp only [Hub.hostLink, Bool.and_eq_true] at hlink
  exact ⟨hlink.1.2, hlink.2⟩

/-! ### A completion to the host -/

theorem Frame.pxCpl {h k : Hub} {ps : List Part} {rs : Set Nat} {bs : List Block} {tag status : Nat} {poisoned : Bool}
    {data : List Byte} (a : Frame h k ps rs bs) : Frame h (k.pxCpl tag status poisoned data) ps rs bs := a.emit.ite a

theorem Hub.pxCpl_out {h : Hub} (hl : h.pxLink = true) (tag status : Nat) (poisoned : Bool) (data : List Byte) :
    (h.pxCpl tag status poisoned data).out = h.out ++ [.tlp (.cpl tag status poisoned data)] := by
  rw [Hub.pxCpl, if_pos hl]
  rfl

theorem Hub.pxCpl_rd (h : Hub) (tag status : Nat) (poisoned : Bool) (data : List Byte) (a : Nat) :
    (h.pxCpl tag status poisoned data).rd a = h.rd a :=
  (Frame.pxCpl (Frame.refl (ps := []) (rs := ∅) (bs := []) h)).reg a (Set.notMem_empty a)

theorem Hub.pxCpl_hdr (h : Hub) (tag status : Nat) (poisoned : Bool) (data : List Byte) (b : Block) :
    (h.pxCpl tag status poisoned data).hdr b = h.hdr b := by
  unfold Hub.pxCpl
  split <;> rfl

/-! ### BAR2 as an alias of BAR0 (R86) -/

theorem ends_bar2Read_local {s : State} {tag : BitVec 8} {a : BitVec 26} {b : Block} (hlink : s.hub.hostLink = true)
    (hsel : s.hub.rdF Reg.STW_REMOTE_SEL 13 0 = 0) (ha : a.toNat = b.base) :
    Ends (.bar2Read tag a) s [] {Reg.TSC_KITTY_MIN} [.tsc] (fun t =>
      t.hub.out = [.tlp (.cpl tag.toNat 0 false (leBytes 4 (blkId b).toNat))]) := by
  obtain ⟨hpx, hm⟩ := Hub.hostLink_up hlink
  have hread : s.hub.fresh.readWord .bar0 a.toNat = (s.hub.fresh.cycleEnd s.hub.fresh, blkId b) := by
    rw [ha]
    exact Hub.readWord_blkId (Hub.reaches_of_mainUp (h := s.hub.fresh) hm b _ _)
  have hlocal : s.hub.fresh.bar2Read tag.toNat a.toNat =
      (s.hub.fresh.cycleEnd s.hub.fresh).pxCpl tag.toNat 0 false (leBytes 4 (blkId b).toNat) := by
    unfold Hub.bar2Read
    rw [if_pos (show s.hub.fresh.remoteSel = 0 from hsel), hread]
  have hpx' : (s.hub.fresh.cycleEnd s.hub.fresh).pxLink = true := by
    rw [Hub.pxLink, Hub.rdB, Hub.cycleEnd_rd rfl (by decide)]
    exact hpx
  refine (runs_bar2Read tag a hlink).ends ?_ ?_
  · rw [hlocal]
    exact ((Frame.fresh s.hub).trans (Frame.readEnd _)).pxCpl
  · dsimp only
    rw [hlocal, Hub.pxCpl_out hpx', Hub.readEnd_out]
    rfl

theorem ends_bar2Write_local {s : State} {a : BitVec 26} {b : Block} (v : Word) (hlink : s.hub.hostLink = true)
    (hsel : s.hub.rdF Reg.STW_REMOTE_SEL 13 0 = 0) (ha : a.toNat = b.base + 0x14) :
    Ends (.bar2Write a v) s [] {Reg.TSC_KITTY_MIN} [b, .tsc] (fun t => (t.hub.hdr b).attnEn = v) := by
  obtain ⟨hframe, hattnEn⟩ := Hub.writeWord_attnEn
    (Hub.reaches_of_mainUp (h := s.hub.fresh) (Hub.hostLink_up hlink).2 b .bar0 true) v
  have hlocal : s.hub.fresh.bar2Write a.toNat v = s.hub.fresh.writeWord .bar0 (b.base + 0x14) v := by
    rw [← ha]
    exact if_pos hsel
  refine (runs_bar2Write a v hlink).ends ?_ ?_
  · rw [hlocal]
    exact (Frame.fresh s.hub).trans hframe
  · dsimp only
    rw [hlocal]
    exact hattnEn

/-! ### The queue of accesses, while no block transfer runs (R87) -/

/-- No access waits, no word of a block transfer is left, and STW runs no request. -/
structure Hub.RemoteIdle (h : Hub) : Prop where
  waiting : h.remote.waiting = []
  left : h.remote.left = 0
  busy : (h.mbx .stw).busy = false

theorem Hub.remoteRun_idle {h : Hub} (hi : h.RemoteIdle) (n : Nat) : h.remoteRun n = h := by
  cases n with
  | zero => rfl
  | succ n =>
    have hnext : h.blockNext = none := by
      unfold Hub.blockNext
      simp [hi.left]
    unfold Hub.remoteRun
    rw [hi.waiting]
    dsimp only
    rw [hnext]

theorem Hub.blockEnd_idle {h : Hub} (hi : h.RemoteIdle) : h.blockEnd = h := by
  unfold Hub.blockEnd
  simp [hi.busy]

theorem Hub.remoteGo_idle {h : Hub} (hi : h.RemoteIdle) : h.remoteGo = h := by
  rw [Hub.remoteGo, Hub.remoteRun_idle hi, Hub.blockEnd_idle hi]

/-- An access that can go out at once goes out alone. -/
theorem Hub.remoteAdd_idle {h : Hub} {r : RemoteReq} (hi : h.RemoteIdle) (hfree : h.remoteFree r = true)
    (hsent : (h.remoteSend r).RemoteIdle) : h.remoteAdd r = h.remoteSend r := by
  have hqueued : (h.updRemote fun x => { x with waiting := x.waiting ++ [r] }).remoteFree r = true := hfree
  have htaken : ((h.updRemote fun x => { x with waiting := x.waiting ++ [r] }).updRemote fun x => { x with waiting := [] }) = h := by
    show { h with remote := { h.remote with waiting := [] } } = h
    rw [← hi.waiting]
  have hrun : (h.updRemote fun x => { x with waiting := x.waiting ++ [r] }).remote.waiting = [r] := by
    show h.remote.waiting ++ [r] = [r]
    rw [hi.waiting, List.nil_append]
  unfold Hub.remoteAdd Hub.remoteGo
  rw [hrun, List.length_singleton, show 1 + 2 * _ + 2 = (1 + 2 * _ + 1) + 1 from rfl, Hub.remoteRun, hrun]
  dsimp only
  rw [if_pos hqueued, htaken, Hub.remoteRun_idle hsent, Hub.blockEnd_idle hsent]

end Sys2Proof.Machine
end

section
/-! SUPPORT. A remote access of the host goes out, or fails for want of a path (R87, R88, R130): what it leaves and what it tells. -/

namespace Sys2Proof.Machine

/-! ### An access goes out, or fails for want of a path (R88, R130) -/

theorem Hub.RemoteIdle.of {h k : Hub} (hi : h.RemoteIdle) (hwaiting : k.remote.waiting = h.remote.waiting)
    (hleft : k.remote.left = h.remote.left) (hmbx : k.mbx .stw = h.mbx .stw) : k.RemoteIdle :=
  ⟨hwaiting.trans hi.waiting, hleft.trans hi.left, by rw [hmbx, hi.busy]⟩

theorem Hub.RemoteIdle.fresh {h : Hub} (hi : h.RemoteIdle) : h.fresh.RemoteIdle := hi.of rfl rfl rfl

/-- A block whose header is not listed keeps its mailbox. -/
theorem Frame.mbx {h k : Hub} {ps : List Part} {rs : Set Nat} {bs : List Block} (f : Frame h k ps rs bs) {b : Block} (hb : b ∉ bs) :
    k.mbx b = h.mbx b := by
  have hmbx := congrArg Hdr.mbx (f.hdr b hb)
  exact hmbx

theorem Hub.remoteTag_first {h : Hub} (htags : h.remote.tags = []) : h.remoteTag = some 0 := by
  unfold Hub.remoteTag
  rw [htags]
  rfl

/-- The effect of a tagged access that takes the lowest tag. -/
def Hub.sendTagged (h : Hub) (r : RemoteReq) : Hub := (h.updRemote fun x => { x with tags := [(0, r)] }).remotePost r 0

theorem Hub.remoteSend_tagged {h : Hub} {r : RemoteReq} (hroute : (h.route r.hub).isSome = true) (htags : h.remote.tags = [])
    (hr : r.tagged = true) (hsince : r.since = h.mono) : h.remoteSend r = h.sendTagged r := by
  obtain ⟨p, hp⟩ := Option.isSome_iff_exists.mp hroute
  have hself : { r with since := h.mono } = r := by rw [← hsince]
  have hput : (h.updRemote fun x => { x with tags := Tab.put x.tags 0 r }) = h.updRemote fun x => { x with tags := [(0, r)] } := by
    show { h with remote := { h.remote with tags := Tab.put h.remote.tags 0 r } } = _
    rw [htags]
    rfl
  unfold Hub.remoteSend
  rw [hp]
  dsimp only
  rw [if_pos hr, Hub.remoteTag_first htags]
  dsimp only
  rw [hself, hput]
  rfl

theorem Hub.remotePost_sends (h : Hub) (r : RemoteReq) (tag : Nat) : Hub.Sends h (h.remotePost r tag) := (Hub.Sends.refl h).postHub

theorem Hub.sendTagged_frame (h : Hub) (r : RemoteReq) : Frame h (h.sendTagged r) (.remote :: sendParts) sendRegs sendBlocks :=
  ((Frame.refl h).updRemote List.mem_cons_self).trans
    ((Hub.remotePost_sends _ r 0).mono (List.subset_cons_self _ _) subset_rfl (List.Subset.refl _))

theorem Hub.sendTagged_remote (h : Hub) (r : RemoteReq) : (h.sendTagged r).remote = { h.remote with tags := [(0, r)] } :=
  (Hub.remotePost_sends _ r 0).part .remote (by decide)

theorem Hub.RemoteIdle.sendTagged {h : Hub} (hi : h.RemoteIdle) (r : RemoteReq) : (h.sendTagged r).RemoteIdle := by
  refine hi.of ?_ ?_ ((h.sendTagged_frame r).mbx (by decide)) <;> rw [Hub.sendTagged_remote]

/-- A remote read with a path takes tag 0 and goes out. -/
theorem Hub.bar2Read_remote {h : Hub} {tag a : Nat} (hi : h.RemoteIdle) (hsel : h.remoteSel ≠ 0)
    (hroute : (h.route h.remoteSel).isSome = true) (htags : h.remote.tags = []) :
    h.bar2Read tag a =
      settle h (h.tscWatch (h.sendTagged ⟨h.remoteSel, a, false, 0, h.mono, .read tag false⟩)) := by
  have hsend : h.remoteSend ⟨h.remoteSel, a, false, 0, h.mono, .read tag false⟩
      = h.sendTagged ⟨h.remoteSel, a, false, 0, h.mono, .read tag false⟩ := Hub.remoteSend_tagged hroute htags rfl rfl
  have hfree : h.remoteFree ⟨h.remoteSel, a, false, 0, h.mono, .read tag false⟩ = true := by
    simp [Hub.remoteFree, Hub.remoteTag_first htags]
  unfold Hub.bar2Read
  rw [if_neg hsel, Hub.remoteAdd_idle hi hfree (by rw [hsend]; exact hi.sendTagged _), hsend]

theorem ends_bar2Read_remote {s : State} {tag : BitVec 8} {a : BitVec 26} (hlink : s.hub.hostLink = true)
    (hsel : s.hub.remoteSel ≠ 0) (hroute : (s.hub.route s.hub.remoteSel).isSome = true) (hi : s.hub.RemoteIdle)
    (htags : s.hub.remote.tags = []) :
    Ends (.bar2Read tag a) s (.remote :: sendParts) sendRegs sendBlocks (fun t =>
      t.hub.remote.tags = [(0, ⟨s.hub.remoteSel, a.toNat, false, 0, s.hub.mono, .read tag.toNat false⟩)] ∧ t.hub.remote.waiting = []) := by
  have hsent := Hub.bar2Read_remote (h := s.hub.fresh) (tag := tag.toNat) (a := a.toNat) hi.fresh hsel hroute htags
  have hwatch (k : Hub) : Frame k (s.hub.fresh.tscWatch k) (.remote :: sendParts) sendRegs sendBlocks :=
    (Hub.tscWatch_frame _ _).mono (List.nil_subset _) (fun x hx => .inl (.inl hx)) (by decide)
  have hremote (k : Hub) : (settle s.hub.fresh (s.hub.fresh.tscWatch k)).remote = k.remote := by
    rw [settle_remote]
    exact (Hub.tscWatch_frame _ _).part .remote List.not_mem_nil
  refine (runs_bar2Read tag a hlink).ends ?_ ?_
  · rw [hsent]
    exact (((Frame.fresh s.hub).trans (Hub.sendTagged_frame _ _)).trans (hwatch _)).settle _
  · dsimp only
    rw [hsent, hremote, Hub.sendTagged_remote]
    exact ⟨rfl, hi.waiting⟩

/-! ### A posted write that fails (R88) -/

/-- A failed write is counted, before its address is recorded. -/
def Hub.writeFailCounted (h : Hub) (a : Nat) : Hub :=
  if bit (h.hdr .stw).attnRaw 1 then h.inc Reg.STW_REMOTE_WFAIL
  else (h.inc Reg.STW_REMOTE_WFAIL).wr Reg.STW_REMOTE_WADDR (w32 (a % 2 ^ 26))

theorem Hub.remoteWriteFail_eq (h : Hub) (a : Nat) : h.remoteWriteFail a = (h.writeFailCounted a).attn .stw 1 := rfl

theorem Hub.writeFailCounted_frame (h : Hub) (a : Nat) :
    Frame h (h.writeFailCounted a) [] {Reg.STW_REMOTE_WFAIL, Reg.STW_REMOTE_WADDR} [] := by
  have hinc : Frame h (h.inc Reg.STW_REMOTE_WFAIL) [] {Reg.STW_REMOTE_WFAIL, Reg.STW_REMOTE_WADDR} [] :=
    (Frame.refl h).inc (Set.mem_insert _ _)
  exact hinc.ite (hinc.wr (Set.mem_insert_of_mem _ rfl))

theorem Hub.remoteWriteFail_frame (h : Hub) (a : Nat) :
    Frame h (h.remoteWriteFail a) [] {Reg.STW_REMOTE_WFAIL, Reg.STW_REMOTE_WADDR, Reg.TSC_KITTY_MIN} [.stw, .tsc] :=
  ((h.writeFailCounted_frame a).mono (List.nil_subset _) (Set.insert_subset_insert (by simp)) (List.nil_subset _)).attn
    List.mem_cons_self

theorem Hub.remoteWriteFail_mbx (h : Hub) (a : Nat) : (h.remoteWriteFail a).mbx .stw = h.mbx .stw := by
  rw [Hub.remoteWriteFail_eq, Hub.mbx, Hub.attn, Hub.hdr_updHdr_self]
  exact (h.writeFailCounted_frame a).mbx List.not_mem_nil

theorem Hub.remoteWriteFail_raw (h : Hub) (a : Nat) : (h.remoteWriteFail a).raw .stw 1 = true := Hub.raw_attn_self _ _ (by decide)

theorem Hub.remoteWriteFail_count (h : Hub) (a : Nat) :
    (h.remoteWriteFail a).rd Reg.STW_REMOTE_WFAIL = incHold (h.rd Reg.STW_REMOTE_WFAIL) := by
  have hinc := h.rd_inc Reg.STW_REMOTE_WFAIL 1 Reg.STW_REMOTE_WFAIL
  rw [if_pos rfl] at hinc
  show (h.writeFailCounted a).rd Reg.STW_REMOTE_WFAIL = _
  unfold Hub.writeFailCounted
  split
  · exact hinc
  · rw [Hub.rd_wr_ne _ _ (by decide), hinc]

theorem Hub.remoteWriteFail_addr {h : Hub} (hraw : bit (h.hdr .stw).attnRaw 1 = false) (a : Nat) :
    (h.remoteWriteFail a).rd Reg.STW_REMOTE_WADDR = w32 (a % 2 ^ 26) := by
  show (h.writeFailCounted a).rd Reg.STW_REMOTE_WADDR = _
  unfold Hub.writeFailCounted
  rw [hraw, if_neg Bool.false_ne_true, Hub.rd_wr_self]

theorem Hub.bar2Write_failed {h : Hub} {a : Nat} {v : Word} (hi : h.RemoteIdle) (hsel : h.remoteSel ≠ 0)
    (hroute : h.route h.remoteSel = none) : h.bar2Write a v = h.cycleEnd (h.remoteWriteFail a) := by
  have hsend : h.remoteSend ⟨h.remoteSel, a, true, v, h.mono, .write⟩ = h.remoteWriteFail a := by
    unfold Hub.remoteSend
    dsimp only
    rw [hroute]
    rfl
  have hidle : (h.remoteWriteFail a).RemoteIdle := by
    have hremote : (h.remoteWriteFail a).remote = h.remote := (h.remoteWriteFail_frame a).part .remote List.not_mem_nil
    exact hi.of (by rw [hremote]) (by rw [hremote]) (h.remoteWriteFail_mbx a)
  unfold Hub.bar2Write
  rw [if_neg hsel, Hub.remoteAdd_idle hi rfl (by rw [hsend]; exact hidle), hsend]
  rfl

theorem ends_bar2Write_failed {s : State} {a : BitVec 26} {v : Word} (hlink : s.hub.hostLink = true) (hsel : s.hub.remoteSel ≠ 0)
    (hroute : s.hub.route s.hub.remoteSel = none) (hi : s.hub.RemoteIdle) (hraw : bit (s.hub.hdr .stw).attnRaw 1 = false) :
    Ends (.bar2Write a v) s [.remote] {Reg.STW_REMOTE_WFAIL, Reg.STW_REMOTE_WADDR, Reg.TSC_KITTY_MIN} [.stw, .tsc] (fun t =>
      t.hub.rd Reg.STW_REMOTE_WFAIL = incHold (s.hub.rd Reg.STW_REMOTE_WFAIL)
      ∧ t.hub.rd Reg.STW_REMOTE_WADDR = w32 a.toNat ∧ t.hub.raw .stw 1 = true) := by
  have hfailed := Hub.bar2Write_failed (h := s.hub.fresh) (a := a.toNat) (v := v) hi.fresh hsel hroute
  have hframe := s.hub.fresh.remoteWriteFail_frame a.toNat
  have hcells : (s.hub.fresh.remoteWriteFail a.toNat).cells = s.hub.fresh.cells := hframe.part .cells List.not_mem_nil
  refine (runs_bar2Write a v hlink).ends ?_ ?_
  · rw [hfailed]
    exact ((Frame.fresh s.hub).trans (hframe.mono (List.nil_subset _) subset_rfl (List.Subset.refl _))).cycleEnd hcells (by simp)
      (by simp)
  · dsimp only
    rw [hfailed, Hub.cycleEnd_rd hcells (by decide), Hub.cycleEnd_rd hcells (by decide), Hub.remoteWriteFail_count,
      Hub.remoteWriteFail_addr (h := s.hub.fresh) hraw, Nat.mod_eq_of_lt a.isLt,
      Hub.cycleEnd_raw hcells (.inl (by decide)) (Hub.remoteWriteFail_raw _ _)]
    exact ⟨rfl, rfl, rfl⟩

end Sys2Proof.Machine
end

section
/-! SUPPORT. The end of a remote read by an answer or a time-out, and the accesses of other hubs (R88, R90). -/

namespace Sys2Proof.Machine

/-! ### The end of a remote read (R88) -/

theorem actT_congr {s : State} {cond : Bool} {f g : Hub → Hub} (hfg : f s.hub.fresh = g s.hub.fresh) : actT s cond f = actT s cond g := by
  unfold actT act
  dsimp only
  rw [hfg]

/-- The access under a tag ends with a status, and what waits goes on. -/
def Hub.endTag (h : Hub) (tag : Nat) (r : RemoteReq) (status : Nat) (v : Word) : Hub :=
  ((h.updRemote fun x => { x with tags := Tab.del x.tags tag }).remoteEnd r status v).remoteGo

theorem exec_remoteAnswerRx {s : State} {src : BitVec 14} {tag : Fin 32} {r : RemoteReq} (st : BitVec 2) (v : Word)
    (hfind : Tab.find s.hub.remote.tags tag = some r) (hsrc : r.hub = src.toNat) :
    exec (.remoteAnswerRx src tag none st v) s = actT s s.hub.mainUp fun h => h.endTag tag r st.toNat v := by
  show execRemoteAnswerRx src tag none st v s = _
  refine actT_congr ?_
  dsimp only
  rw [show Tab.find s.hub.fresh.remote.tags tag = some r from hfind]
  exact if_pos hsrc

theorem exec_remoteAnswerRx_posted {src : BitVec 14} {tag : Fin 32} {a : BitVec 26} {st : BitVec 2} {v : Word} (s : State)
    (hst : st ≠ 0) :
    exec (.remoteAnswerRx src tag (some a) st v) s = actT s s.hub.mainUp fun h => h.remoteWriteFail a.toNat := by
  show execRemoteAnswerRx src tag (some a) st v s = _
  exact actT_congr (if_neg hst)

/-- The time of an access under a tag is over. -/
def State.tagOver (s : State) (tag : Fin 32) : Bool :=
  (Tab.find s.hub.remote.tags tag).elim false fun r => decide (r.since + 1000 * s.hub.remoteTmo ≤ s.hub.mono)

theorem exec_remoteReadTimeout {s : State} {tag : Fin 32} {r : RemoteReq} (hfind : Tab.find s.hub.remote.tags tag = some r) :
    exec (.remoteReadTimeout tag) s = actT s (s.hub.mainUp && s.tagOver tag) fun h => h.endTag tag r 1 0 := by
  show execRemoteReadTimeout tag s = _
  refine actT_congr ?_
  rw [show Tab.find s.hub.fresh.remote.tags tag = some r from hfind]
  rfl

theorem State.tagOver_of {s : State} {tag : Fin 32} {r : RemoteReq} (hfind : Tab.find s.hub.remote.tags tag = some r)
    (hdue : r.since + 1000 * s.hub.remoteTmo ≤ s.hub.mono) : s.tagOver tag = true := by
  rw [State.tagOver, hfind]
  exact decide_eq_true hdue

theorem Tab.find_single {α : Type} (k : Nat) (v : α) : Tab.find [(k, v)] k = some v := if_pos rfl

theorem Hub.remoteRead_good (h : Hub) (ht : Nat) (v : Word) :
    h.remoteRead ht 0 v = (h.wrF Reg.STW_REMOTE_STAT 1 0 0).pxCpl ht 0 false (leBytes 4 v.toNat) := by
  unfold Hub.remoteRead
  exact if_pos rfl

theorem Hub.remoteRead_failed (h : Hub) (ht : Nat) {status : Nat} (hs : status ≠ 0) (v : Word) :
    h.remoteRead ht status v = (((h.wrF Reg.STW_REMOTE_STAT 1 0 status).incF Reg.STW_REMOTE_STAT 31 16).attn .stw 0).pxCpl ht 0 false
      (leBytes 4 0xFFFFFFFF) := by
  unfold Hub.remoteRead
  exact if_neg hs

/-- The effect of the end of the only access, a read of the host. -/
def Hub.readEnded (h : Hub) (ht status : Nat) (v : Word) : Hub := (h.updRemote fun x => { x with tags := [] }).remoteRead ht status v

theorem Hub.remoteRead_frame (h : Hub) (ht status : Nat) (v : Word) :
    Frame h (h.remoteRead ht status v) [] {Reg.STW_REMOTE_STAT, Reg.TSC_KITTY_MIN} [.stw, .tsc] := by
  have hshown : Frame h (h.wrF Reg.STW_REMOTE_STAT 1 0 status) [] {Reg.STW_REMOTE_STAT, Reg.TSC_KITTY_MIN} [.stw, .tsc] :=
    (Frame.refl h).wrF (Set.mem_insert _ _)
  exact hshown.pxCpl.ite ((hshown.incF (Set.mem_insert _ _)).attn List.mem_cons_self).pxCpl

theorem Hub.remoteRead_mbx (h : Hub) (ht status : Nat) (v : Word) : (h.remoteRead ht status v).mbx .stw = h.mbx .stw := by
  unfold Hub.remoteRead Hub.mbx
  dsimp only
  split <;> rw [Hub.pxCpl_hdr]
  · rfl
  · rw [Hub.attn, Hub.hdr_updHdr_self]
    rfl

theorem Hub.endTag_read {h : Hub} {tag ht : Nat} {r : RemoteReq} (hi : h.RemoteIdle) (htags : h.remote.tags = [(tag, r)])
    (huse : r.use = .read ht false) (status : Nat) (v : Word) : h.endTag tag r status v = h.readEnded ht status v := by
  have hdel : (h.updRemote fun x => { x with tags := Tab.del x.tags tag }) = h.updRemote fun x => { x with tags := [] } := by
    show { h with remote := { h.remote with tags := Tab.del h.remote.tags tag } } = _
    rw [htags, show Tab.del [(tag, r)] tag = [] from if_pos rfl]
    rfl
  have hend (k : Hub) : k.remoteEnd r status v = k.remoteRead ht status v := by
    unfold Hub.remoteEnd
    rw [huse]
  have hremote : (h.readEnded ht status v).remote = { h.remote with tags := [] } :=
    (Hub.remoteRead_frame _ ht status v).part .remote List.not_mem_nil
  have hidle : (h.readEnded ht status v).RemoteIdle := by
    refine hi.of ?_ ?_ (Hub.remoteRead_mbx _ ht status v) <;> rw [hremote]
  unfold Hub.endTag
  rw [hdel, hend]
  exact Hub.remoteGo_idle hidle

theorem Hub.cycleEnd_remote {o n : Hub} (hc : n.cells = o.cells) : (o.cycleEnd n).remote = n.remote :=
  ((Frame.refl n).cycleEnd (ps := []) (rs := {Reg.TSC_KITTY_MIN}) (bs := [.tsc]) hc rfl List.mem_cons_self).part .remote
    List.not_mem_nil

theorem Hub.cycleEnd_rdF {o n : Hub} (hc : n.cells = o.cells) {a : Nat} (ha : a ≠ Reg.TSC_KITTY_MIN) (hi lo : Nat) :
    (o.cycleEnd n).rdF a hi lo = n.rdF a hi lo := by rw [Hub.rdF, Hub.cycleEnd_rd hc ha, Hub.rdF]

section
variable {h : Hub} (hpx : h.pxLink = true) (ht : Nat)
include hpx

/-- The link is up whatever STW_REMOTE_STAT and STW's attention say. -/
theorem Hub.pxLink_of_rd {k : Hub} (hrd : k.rd Reg.PX_STAT = h.rd Reg.PX_STAT) : k.pxLink = true := by
  rw [Hub.pxLink, Hub.rdB, hrd]
  exact hpx

theorem Hub.readEnded_good (v : Word) :
    (h.readEnded ht 0 v).out = h.out ++ [.tlp (.cpl ht 0 false (leBytes 4 v.toNat))]
    ∧ (h.readEnded ht 0 v).rdF Reg.STW_REMOTE_STAT 1 0 = 0 := by
  let k := (h.updRemote fun x => { x with tags := [] }).wrF Reg.STW_REMOTE_STAT 1 0 0
  have hended : h.readEnded ht 0 v = k.pxCpl ht 0 false (leBytes 4 v.toNat) := Hub.remoteRead_good _ ht v
  have hlink : k.pxLink = true := Hub.pxLink_of_rd hpx (Hub.rd_wr_ne _ _ (by decide))
  rw [hended, Hub.pxCpl_out hlink, Hub.rdF, Hub.pxCpl_rd, Hub.rd_wrF, if_pos rfl, fld_setFld _ _ _ _ (by decide)]
  exact ⟨rfl, rfl⟩

theorem Hub.readEnded_failed {status : Nat} (hs : status ≠ 0) (v : Word) :
    (h.readEnded ht status v).out = h.out ++ [.tlp (.cpl ht 0 false (leBytes 4 0xFFFFFFFF))]
    ∧ (h.readEnded ht status v).rdF Reg.STW_REMOTE_STAT 1 0 = status % 4
    ∧ (h.readEnded ht status v).raw .stw 0 = true
    ∧ (h.readEnded ht status v).rdF Reg.STW_REMOTE_STAT 31 16 = min 0xFFFF (h.rdF Reg.STW_REMOTE_STAT 31 16 + 1) := by
  let j := (h.updRemote fun x => { x with tags := [] }).wrF Reg.STW_REMOTE_STAT 1 0 status
  let k := j.incF Reg.STW_REMOTE_STAT 31 16
  have hended : h.readEnded ht status v = (k.attn .stw 0).pxCpl ht 0 false (leBytes 4 0xFFFFFFFF) := Hub.remoteRead_failed _ ht hs v
  have hlink : (k.attn .stw 0).pxLink = true :=
    Hub.pxLink_of_rd hpx (show k.rd Reg.PX_STAT = h.rd Reg.PX_STAT from
      (Hub.rd_wr_ne j _ (by decide)).trans (Hub.rd_wr_ne (h.updRemote _) _ (by decide)))
  have hj : j.rd Reg.STW_REMOTE_STAT = setFld (h.rd Reg.STW_REMOTE_STAT) 1 0 status := Hub.rd_wr_self _ _ _
  have hk : (k.attn .stw 0).rd Reg.STW_REMOTE_STAT =
      setFld (j.rd Reg.STW_REMOTE_STAT) 31 16 (holdAt (2 ^ 16 - 1) (j.rdF Reg.STW_REMOTE_STAT 31 16 + 1)) := Hub.rd_wr_self j _ _
  have hold : j.rdF Reg.STW_REMOTE_STAT 31 16 = h.rdF Reg.STW_REMOTE_STAT 31 16 := by
    rw [Hub.rdF, hj, fld_setFld_ne _ _ _ _ _ _ (by decide), Hub.rdF]
  have hraw : (k.attn .stw 0).raw .stw 0 = true := Hub.raw_attn_self _ _ (by decide)
  rw [hended, Hub.pxCpl_out hlink, Hub.rdF, Hub.rdF, Hub.pxCpl_rd, hk, Hub.raw, Hub.pxCpl_hdr, hold,
    fld_setFld_ne _ _ _ _ _ _ (by decide), hj, fld_setFld _ _ _ _ (by decide), fld_setFld _ _ _ _ (by decide)]
  exact ⟨rfl, rfl, hraw, Nat.mod_eq_of_lt (by unfold holdAt; omega)⟩

end

theorem Hub.readEnded_frame (h : Hub) (ht status : Nat) (v : Word) :
    Frame h (h.readEnded ht status v) [.remote] {Reg.STW_REMOTE_STAT, Reg.TSC_KITTY_MIN} [.stw, .tsc] :=
  ((Frame.refl h).updRemote List.mem_cons_self).trans
    ((Hub.remoteRead_frame _ ht status v).mono (List.nil_subset _) subset_rfl (List.Subset.refl _))

/-- A read that succeeds raises no attention. -/
theorem Hub.readEnded_good_frame (h : Hub) (ht : Nat) (v : Word) :
    Frame h (h.readEnded ht 0 v) [.remote] {Reg.STW_REMOTE_STAT, Reg.TSC_KITTY_MIN} [.tsc] := by
  rw [Hub.readEnded, Hub.remoteRead_good]
  exact (((Frame.refl h).updRemote List.mem_cons_self).wrF (Set.mem_insert _ _)).pxCpl

theorem Hub.readEnded_remote (h : Hub) (ht status : Nat) (v : Word) : (h.readEnded ht status v).remote.tags = [] :=
  congrArg Remote.tags ((Hub.remoteRead_frame (h.updRemote fun x => { x with tags := [] }) ht status v).part .remote List.not_mem_nil)

theorem ends_remoteAnswerRx_read {s : State} {src : BitVec 14} {tag : Fin 32} {v : Word} {r : RemoteReq} {ht : Nat}
    (hm : s.hub.mainUp = true) (hpx : s.hub.pxLink = true) (htags : s.hub.remote.tags = [(tag.val, r)]) (hsrc : r.hub = src.toNat)
    (huse : r.use = .read ht false) (hi : s.hub.RemoteIdle) :
    Ends (.remoteAnswerRx src tag none 0 v) s [.remote] {Reg.STW_REMOTE_STAT, Reg.TSC_KITTY_MIN} [.tsc] (fun t =>
      t.hub.remote.tags = [] ∧ t.hub.out = [.tlp (.cpl ht 0 false (leBytes 4 v.toNat))]
      ∧ t.hub.rdF Reg.STW_REMOTE_STAT 1 0 = 0) := by
  have hfind : Tab.find s.hub.remote.tags tag = some r := by rw [htags]; exact Tab.find_single _ _
  have hframe := s.hub.fresh.readEnded_good_frame ht v
  have hcells : (s.hub.fresh.readEnded ht 0 v).cells = s.hub.fresh.cells := hframe.part .cells (by decide)
  refine ends_actT (exec_remoteAnswerRx 0 v hfind hsrc) hm (Hub.endTag_read (h := s.hub.fresh) hi.fresh htags huse 0 v) hcells (by simp)
    (by simp) hframe ?_
  obtain ⟨hout, hlast⟩ := Hub.readEnded_good (h := s.hub.fresh) hpx ht v
  dsimp only
  rw [Hub.cycleEnd_remote hcells, Hub.readEnded_remote, Hub.cycleEnd_out hcells, hout, Hub.cycleEnd_rdF hcells (by decide), hlast]
  exact ⟨rfl, rfl, rfl⟩

theorem ends_remoteReadTimeout_read {s : State} {tag : Fin 32} {r : RemoteReq} {ht : Nat}
    (hm : s.hub.mainUp = true) (hpx : s.hub.pxLink = true) (htags : s.hub.remote.tags = [(tag.val, r)])
    (huse : r.use = .read ht false) (hi : s.hub.RemoteIdle) (hdue : r.since + 1000 * s.hub.remoteTmo ≤ s.hub.mono) :
    Ends (.remoteReadTimeout tag) s [.remote] {Reg.STW_REMOTE_STAT, Reg.TSC_KITTY_MIN} [.stw, .tsc] (fun t =>
      t.hub.remote.tags = [] ∧ t.hub.out = [.tlp (.cpl ht 0 false (leBytes 4 0xFFFFFFFF))]
      ∧ t.hub.rdF Reg.STW_REMOTE_STAT 1 0 = 1 ∧ t.hub.raw .stw 0 = true
      ∧ t.hub.rdF Reg.STW_REMOTE_STAT 31 16 = min 0xFFFF (s.hub.rdF Reg.STW_REMOTE_STAT 31 16 + 1)) := by
  have hfind : Tab.find s.hub.remote.tags tag = some r := by rw [htags]; exact Tab.find_single _ _
  have hframe := s.hub.fresh.readEnded_frame ht 1 0
  have hcells : (s.hub.fresh.readEnded ht 1 0).cells = s.hub.fresh.cells := hframe.part .cells (by decide)
  refine ends_actT (exec_remoteReadTimeout hfind) (by rw [hm, State.tagOver_of hfind hdue]; rfl)
    (Hub.endTag_read (h := s.hub.fresh) hi.fresh htags huse 1 0) hcells (by simp) (by simp) hframe ?_
  obtain ⟨hout, hlast, hraw, hfails⟩ := Hub.readEnded_failed (h := s.hub.fresh) hpx ht one_ne_zero 0
  dsimp only
  rw [Hub.cycleEnd_remote hcells, Hub.readEnded_remote, Hub.cycleEnd_out hcells, hout, Hub.cycleEnd_rdF hcells (by decide), hlast,
    Hub.cycleEnd_raw hcells (.inl (by decide)) hraw, Hub.cycleEnd_rdF hcells (by decide), hfails]
  exact ⟨rfl, rfl, rfl, rfl, rfl⟩

theorem ends_remoteAnswerRx_posted {s : State} {src : BitVec 14} {tag : Fin 32} {a : BitVec 26} {st : BitVec 2} {v : Word}
    (hm : s.hub.mainUp = true) (hst : st ≠ 0) :
    Ends (.remoteAnswerRx src tag (some a) st v) s [] {Reg.STW_REMOTE_WFAIL, Reg.STW_REMOTE_WADDR, Reg.TSC_KITTY_MIN} [.stw, .tsc]
      (fun t => t.hub.rd Reg.STW_REMOTE_WFAIL = incHold (s.hub.rd Reg.STW_REMOTE_WFAIL) ∧ t.hub.raw .stw 1 = true) := by
  have hframe := s.hub.fresh.remoteWriteFail_frame a.toNat
  have hcells : (s.hub.fresh.remoteWriteFail a.toNat).cells = s.hub.fresh.cells := hframe.part .cells List.not_mem_nil
  refine ends_actT (exec_remoteAnswerRx_posted s hst) hm rfl hcells (by simp) (by simp) hframe ?_
  dsimp only
  rw [Hub.cycleEnd_rd hcells (by decide), Hub.remoteWriteFail_count,
    Hub.cycleEnd_raw hcells (.inl (by decide)) (Hub.remoteWriteFail_raw _ _)]
  exact ⟨rfl, rfl⟩

/-! ### Another hub's access (R87, R90, R494) -/

theorem Hub.bar2Open {h : Hub} (hm : h.mainUp = true) (herr : h.straps.err = false) : (h.mainUp && h.pathOpen .bar2) = true := by
  simp [Hub.pathOpen, hm, herr]

theorem runs_remoteAccessRx_refused {s : State} {src : BitVec 14} {tag : Fin 32} {a : Word} {v : Option Word} {user ack : Bool}
    (hm : s.hub.mainUp = true) (herr : s.hub.straps.err = false) (href : s.hub.refusesRemote a.toNat v.isSome user = true) :
    Runs (.remoteAccessRx src tag a v user ack) s
      (settle s.hub.fresh (s.hub.fresh.tscWatch (s.hub.fresh.remoteAnswer src.toNat tag 2 0))) := by
  show execRemoteAccessRx src tag a v user ack s = _
  unfold execRemoteAccessRx actReset
  rw [if_pos (Hub.bar2Open hm herr)]
  dsimp only
  rw [if_pos (show s.hub.fresh.refusesRemote a.toNat v.isSome user = true from href)]

theorem runs_remoteAccessRx_write {s : State} {src : BitVec 14} {tag : Fin 32} (a v : Word) (hm : s.hub.mainUp = true)
    (herr : s.hub.straps.err = false) :
    Runs (.remoteAccessRx src tag a (some v) false false) s (s.hub.fresh.writeWord .bar2 a.toNat v) := by
  show execRemoteAccessRx src tag a (some v) false false s = _
  unfold execRemoteAccessRx actReset
  rw [if_pos (Hub.bar2Open hm herr)]
  rfl

theorem runs_remoteAccessRx_read {s : State} {src : BitVec 14} {tag : Fin 32} {a : Word} {user ack : Bool} {h : Hub}
    (hm : s.hub.mainUp = true) (herr : s.hub.straps.err = false) (href : s.hub.refusesRemote a.toNat false user = false)
    (hh : h = (s.hub.fresh.readWord .bar2 a.toNat).1) :
    Runs (.remoteAccessRx src tag a none user ack) s (settle h (h.tscWatch (h.remoteAnswer src.toNat tag
      (if s.hub.wordBad a.toNat then 3 else 0) (s.hub.fresh.readWord .bar2 a.toNat).2))) := by
  subst hh
  show execRemoteAccessRx src tag a none user ack s = _
  unfold execRemoteAccessRx actReset
  rw [if_pos (Hub.bar2Open hm herr)]
  dsimp only
  rw [show s.hub.fresh.refusesRemote a.toNat (none : Option Word).isSome user = false from href, if_neg Bool.false_ne_true]
  rfl

theorem ends_remoteAccessRx_attnEn {s : State} {src : BitVec 14} {tag : Fin 32} {b : Block} {a : Word} (v : Word)
    (hm : s.hub.mainUp = true) (herr : s.hub.straps.err = false) (ha : a.toNat = b.base + 0x14) :
    Ends (.remoteAccessRx src tag a (some v) false false) s [] {Reg.TSC_KITTY_MIN} [b, .tsc] (fun t =>
      (t.hub.hdr b).attnEn = v) := by
  obtain ⟨hframe, hattnEn⟩ := Hub.writeWord_attnEn (Hub.reaches_of_mainUp (h := s.hub.fresh) hm b .bar2 true) v
  rw [← ha] at hframe hattnEn
  exact (runs_remoteAccessRx_write a v hm herr).ends ((Frame.fresh s.hub).trans hframe) hattnEn

/-- Settles O16: each clause is the run of its command; while nothing waits, an access goes out or ends alone. -/
theorem remoteAccesses : Obligations.RemoteAccesses := by
  refine ⟨fun s tag a hlink => runs_bar2Read tag a hlink, fun s a v hlink => runs_bar2Write a v hlink,
    fun s tag a b hlink hsel ha => ends_bar2Read_local hlink hsel ha, fun s a b v hlink hsel ha => ends_bar2Write_local v hlink hsel ha,
    fun s tag a hlink hsel hroute hw hl htags hb => ends_bar2Read_remote hlink hsel hroute ⟨hw, hl, hb⟩ htags,
    fun s a v hlink hsel hroute hw hl hb hraw => ends_bar2Write_failed hlink hsel hroute ⟨hw, hl, hb⟩ hraw,
    fun s src tag v r ht hm hpx htags hsrc huse hw hl hb => ends_remoteAnswerRx_read hm hpx htags hsrc huse ⟨hw, hl, hb⟩,
    fun s tag r ht hm hpx htags huse hw hl hb hdue => ends_remoteReadTimeout_read hm hpx htags huse ⟨hw, hl, hb⟩ hdue, ?answer,
    fun s src tag a st v hm hst => ends_remoteAnswerRx_posted hm hst, ?timeout,
    fun s src tag a v user ack hm herr href => runs_remoteAccessRx_refused hm herr href,
    fun s src tag a v hm herr => runs_remoteAccessRx_write a v hm herr,
    fun s src tag a user ack h hm herr href hh => runs_remoteAccessRx_read hm herr href hh,
    fun s src tag b a v hm herr ha => ends_remoteAccessRx_attnEn v hm herr ha⟩
  case answer =>
    intro s src tag r st v hm hfind hsrc
    exact runs_actT (f := fun h => h.endTag tag r st.toNat v) (exec_remoteAnswerRx st v hfind hsrc) hm
  case timeout =>
    intro s tag r hm hfind hdue
    exact runs_actT (f := fun h => h.endTag tag r 1 0) (exec_remoteReadTimeout hfind) (by rw [hm, State.tagOver_of hfind hdue]; rfl)

end Sys2Proof.Machine
end

section
/-! SUPPORT. The parts of a deal epoch boundary (R77, R183, R242, R243, R247): the ledger's check and the start of the deal, each with what it
touches and what it leaves in force. -/

namespace Sys2Proof.Machine

/-! ### The commit that a header holds -/

/-- From `h` to `k` the windows that the commit of block `b` waits for, and its count, are kept. -/
def Hub.CommitKept (b : Block) (h k : Hub) : Prop :=
  (k.hdr b).waiting = (h.hdr b).waiting ∧ (k.hdr b).applied = (h.hdr b).applied

namespace Hub.CommitKept

variable {b : Block} {h j k : Hub}

theorem refl (b : Block) (h : Hub) : CommitKept b h h := ⟨rfl, rfl⟩

theorem trans (x : CommitKept b h j) (y : CommitKept b j k) : CommitKept b h k := ⟨y.1.trans x.1, y.2.trans x.2⟩

theorem of_frame {ps : List Part} {rs : Set Nat} {bs : List Block} (f : Frame h k ps rs bs) (hb : b ∉ bs) : CommitKept b h k := by
  have hwaiting := congrArg Hdr.waiting (f.hdr b hb)
  have happlied := congrArg Hdr.applied (f.hdr b hb)
  exact ⟨hwaiting, happlied⟩

theorem updHdr {c : Block} {f : Hdr → Hdr} (hf : ∀ x, (f x).waiting = x.waiting ∧ (f x).applied = x.applied) :
    CommitKept b h (h.updHdr c f) := by
  unfold CommitKept
  rw [Hub.hdr_updHdr]
  split
  · rename_i hbc
    subst hbc
    exact hf _
  · exact ⟨rfl, rfl⟩

theorem attn {c : Block} {i : Nat} : CommitKept b h (h.attn c i) := updHdr fun _ => ⟨rfl, rfl⟩

theorem faultPulse : CommitKept b h h.faultPulse := by
  unfold Hub.faultPulse
  exact trans ⟨rfl, rfl⟩ attn

theorem fault {c : Block} {i : Nat} : CommitKept b h (h.fault c i) := by
  have hset {x : Hdr} (hx : x.waiting = (h.hdr c).waiting ∧ x.applied = (h.hdr c).applied) : CommitKept b h (h.setHdr c x) := by
    unfold CommitKept
    rw [Hub.hdr_setHdr]
    split
    · rename_i hbc
      subst hbc
      exact hx
    · exact ⟨rfl, rfl⟩
  unfold Hub.fault
  dsimp only
  split
  · refine trans (hset ?_) faultPulse
    exact ⟨rfl, rfl⟩
  · exact hset ⟨rfl, rfl⟩

theorem foldl {α : Type} {f : Hub → α → Hub} (l : List α) (hf : ∀ x j, CommitKept b j (f j x)) : CommitKept b h (l.foldl f h) := by
  induction l generalizing h with
  | nil => exact refl b h
  | cons x l ih => exact (hf x h).trans ih

end Hub.CommitKept

theorem Frame.rdF {h k : Hub} {ps : List Part} {rs : Set Nat} {bs : List Block} (f : Frame h k ps rs bs) {a : Nat} (ha : a ∉ rs)
    (hi lo : Nat) : k.rdF a hi lo = h.rdF a hi lo := by rw [Hub.rdF, f.reg a ha, Hub.rdF]

/-! ### The ledger's check (R183, R184) -/

/-- The holder counts of a snapshot are shown. -/
def Hub.snapShown (h snap : Hub) : Hub := snap.snapWords.zipIdx.foldl (fun h e => h.wr (Reg.TSC_SNAP e.2) e.1) h

/-- TSC_LEDGER_STAT once a check has found the pools in `bad` unequal. -/
def Hub.ledgerNoted (h : Hub) (bad : List Unequal) : Hub :=
  ((h.wrB Reg.TSC_LEDGER_STAT 0 (!bad.isEmpty)).wrB Reg.TSC_LEDGER_STAT 1 (decide (1 < bad.length))).incFW Reg.TSC_LEDGER_STAT 31 16

/-- The record and the fault of a mismatch. -/
def Hub.ledgerFault (h : Hub) (u : Unequal) (now : Nat) : Hub :=
  ((((h.wr Reg.TSC_LEDGER_REC (w32 (u.pool + 256 * u.inst))).wr Reg.TSC_LEDGER_DIFF (iword u.diff)).wrWide Reg.TSC_LEDGER_TIME_LO
    now).fault .tsc 0).attn .tsc 0

theorem Hub.ledgerCheck_void {h : Hub} (hvoid : h.rdB Reg.TSC_LEDGER_STAT 2 = true) (snap : Hub) : (h.ledgerCheck snap).1 = h := by
  rw [Hub.ledgerCheck, if_pos hvoid]

theorem Hub.ledgerCheck_cases {h : Hub} (hrun : h.rdB Reg.TSC_LEDGER_STAT 2 = false) (snap : Hub) :
    ∃ bad, (h.ledgerCheck snap).1 = (h.snapShown snap).ledgerNoted bad
      ∨ ∃ u, (h.ledgerCheck snap).1 = ((h.snapShown snap).ledgerNoted bad).ledgerFault u snap.now := by
  refine ⟨snap.unequal, ?_⟩
  unfold Hub.ledgerCheck
  rw [hrun, if_neg Bool.false_ne_true]
  dsimp only
  split
  · exact .inl rfl
  · exact .inr ⟨_, rfl⟩

theorem Hub.snapShown_frame (h snap : Hub) : Frame h (h.snapShown snap) [] { a | ∃ j < 11, a = Reg.TSC_SNAP j } [] :=
  Frame.foldl _ (Frame.refl h) fun _ _ he a => a.wr ⟨_, List.snd_lt_of_mem_zipIdx he, rfl⟩

theorem Hub.snapShown_kitty (h snap : Hub) : (h.snapShown snap).rd (Reg.TSC_SNAP 0) = iword snap.counts.kitty := by
  simp [Hub.snapShown, Hub.snapWords, Hub.rd_wr, Reg.TSC_SNAP]

theorem Hub.ledgerNoted_frame (h : Hub) (bad : List Unequal) : Frame h (h.ledgerNoted bad) [] {Reg.TSC_LEDGER_STAT} [] :=
  (((Frame.refl h).wrB (Set.mem_singleton _)).wrB (Set.mem_singleton _)).incFW (Set.mem_singleton _)

theorem Hub.ledgerNoted_checks (h : Hub) (bad : List Unequal) :
    (h.ledgerNoted bad).rdF Reg.TSC_LEDGER_STAT 31 16 = (h.rdF Reg.TSC_LEDGER_STAT 31 16 + 1) % 65536 := by
  unfold Hub.ledgerNoted
  rw [Hub.rdF, Hub.rd_incFW, if_pos rfl, fld_setFld _ _ _ _ (by decide), Hub.rdF, Hub.rd_wrB, if_pos rfl, Hub.rd_wrB, if_pos rfl,
    fld_setBit_ne _ _ _ _ _ (by decide) (by decide), fld_setBit_ne _ _ _ _ _ (by decide) (by decide), Hub.rdF]
  rfl

theorem Hub.ledgerFault_frame (h : Hub) (u : Unequal) (now : Nat) :
    Frame h (h.ledgerFault u now) [.wide, .pins] {Reg.TSC_LEDGER_REC, Reg.TSC_LEDGER_DIFF, Reg.SIT_FAULTN_CNT} [.tsc, .sit] := by
  have hrec : Frame h (((h.wr Reg.TSC_LEDGER_REC (w32 (u.pool + 256 * u.inst))).wr Reg.TSC_LEDGER_DIFF (iword u.diff)).wrWide
      Reg.TSC_LEDGER_TIME_LO now) [.wide, .pins] {Reg.TSC_LEDGER_REC, Reg.TSC_LEDGER_DIFF, Reg.SIT_FAULTN_CNT} [.tsc, .sit] :=
    (((Frame.refl h).wr (by simp)).wr (by simp)).wrWide (by decide)
  exact (hrec.fault (by decide) (by decide) (by simp) (by decide)).attn (by decide)

theorem Hub.ledgerFault_commit (h : Hub) (u : Unequal) (now : Nat) (b : Block) : Hub.CommitKept b h (h.ledgerFault u now) :=
  (Hub.CommitKept.of_frame (((Frame.refl (ps := [.wide]) (rs := {Reg.TSC_LEDGER_REC, Reg.TSC_LEDGER_DIFF}) (bs := []) h).wr
    (by simp)).wr (by simp) |>.wrWide (by decide)) List.not_mem_nil).trans (Hub.CommitKept.fault.trans .attn)

/-- The registers that the ledger's check writes, with the count of pulses on FAULT_N. -/
def ledgerRegs : Set Nat :=
  { a | ∃ j < 11, a = Reg.TSC_SNAP j }
    ∪ {Reg.TSC_LEDGER_STAT, Reg.TSC_LEDGER_REC, Reg.TSC_LEDGER_DIFF, Reg.SIT_FAULTN_CNT}

theorem Hub.ledgerCheck_frame (h snap : Hub) : Frame h (h.ledgerCheck snap).1 [.wide, .pins] ledgerRegs [.tsc, .sit] := by
  have hshown (bad : List Unequal) : Frame h ((h.snapShown snap).ledgerNoted bad) [.wide, .pins] ledgerRegs [.tsc, .sit] :=
    ((h.snapShown_frame snap).mono (List.nil_subset _) Set.subset_union_left (List.nil_subset _)).trans
      ((Hub.ledgerNoted_frame _ bad).mono (List.nil_subset _) (fun _ ha => .inr (.inl ha)) (List.nil_subset _))
  by_cases hvoid : h.rdB Reg.TSC_LEDGER_STAT 2 = true
  · rw [Hub.ledgerCheck_void hvoid]
    exact Frame.refl h
  · obtain ⟨bad, e | ⟨u, e⟩⟩ := Hub.ledgerCheck_cases (Bool.not_eq_true _ ▸ hvoid) snap <;> rw [e]
    · exact hshown bad
    · exact (hshown bad).trans ((Hub.ledgerFault_frame _ u _).mono (List.Subset.refl _)
        (fun a ha => .inr (.inr ha)) (List.Subset.refl _))

theorem Hub.ledgerCheck_commit (h snap : Hub) (b : Block) : Hub.CommitKept b h (h.ledgerCheck snap).1 := by
  have hshown (bad : List Unequal) : Hub.CommitKept b h ((h.snapShown snap).ledgerNoted bad) :=
    (Hub.CommitKept.of_frame (h.snapShown_frame snap) List.not_mem_nil).trans
      (.of_frame (Hub.ledgerNoted_frame _ bad) List.not_mem_nil)
  by_cases hvoid : h.rdB Reg.TSC_LEDGER_STAT 2 = true
  · rw [Hub.ledgerCheck_void hvoid]
    exact .refl b h
  · obtain ⟨bad, e | ⟨u, e⟩⟩ := Hub.ledgerCheck_cases (Bool.not_eq_true _ ▸ hvoid) snap <;> rw [e]
    · exact hshown bad
    · exact (hshown bad).trans (Hub.ledgerFault_commit _ u _ b)

/-- A check shows the kitty of its snapshot, and counts itself. -/
theorem Hub.ledgerCheck_shown {h : Hub} (hrun : h.rdB Reg.TSC_LEDGER_STAT 2 = false) (snap : Hub) :
    (h.ledgerCheck snap).1.rd (Reg.TSC_SNAP 0) = iword snap.counts.kitty
    ∧ (h.ledgerCheck snap).1.rdF Reg.TSC_LEDGER_STAT 31 16 = (h.rdF Reg.TSC_LEDGER_STAT 31 16 + 1) % 65536 := by
  have hstat : Reg.TSC_LEDGER_STAT ∉ { a | ∃ j < 11, a = Reg.TSC_SNAP j } := by
    rintro ⟨j, -, e⟩
    unfold Reg.TSC_LEDGER_STAT Reg.TSC_SNAP at e
    omega
  have hshown (bad : List Unequal) : ((h.snapShown snap).ledgerNoted bad).rd (Reg.TSC_SNAP 0) = iword snap.counts.kitty
      ∧ ((h.snapShown snap).ledgerNoted bad).rdF Reg.TSC_LEDGER_STAT 31 16 = (h.rdF Reg.TSC_LEDGER_STAT 31 16 + 1) % 65536 := by
    rw [(Hub.ledgerNoted_frame _ bad).reg _ (by decide), Hub.snapShown_kitty, Hub.ledgerNoted_checks,
      (h.snapShown_frame snap).rdF hstat]
    exact ⟨rfl, rfl⟩
  obtain ⟨bad, e | ⟨u, e⟩⟩ := Hub.ledgerCheck_cases hrun snap <;> rw [e]
  · exact hshown bad
  · rw [(Hub.ledgerFault_frame _ u _).reg _ (by decide), (Hub.ledgerFault_frame _ u _).rdF (by decide)]
    exact hshown bad

end Sys2Proof.Machine
end

section
/-! SUPPORT. The start of the deal at an epoch boundary (R243, R247): what it touches, what it leaves of a commit, and what it shows. -/

namespace Sys2Proof.Machine

/-! ### The start of the deal (R243, R247) -/

/-- The registers that the end of an epoch writes: the charged rates, the late deals, and what counts their faults and events. -/
def epochRegs : Set Nat :=
  { a | ∃ t < 18, a = Reg.TS_TRUMP_RATE t ∨ a = Reg.TS_DEAL_LATE t } ∪ {Reg.TSS_DEAL_LATE, Reg.SIT_FAULTN_CNT} ∪ pmcRegs

theorem not_mem_epochRegs {a : Nat} (hlo : 0x01000000 ≤ a) (hhi : a < 0x01110000) (hne : a ≠ Reg.TSS_DEAL_LATE) : a ∉ epochRegs := by
  rintro ((⟨t, -, e | e⟩ | e | e) | ⟨i, hi, e⟩)
  · unfold Reg.TS_TRUMP_RATE at e
    omega
  · unfold Reg.TS_DEAL_LATE at e
    omega
  · exact hne e
  · have he : a = Reg.SIT_FAULTN_CNT := e
    unfold Reg.SIT_FAULTN_CNT at he
    omega
  · unfold Reg.PMC_OVF at e
    omega

/-- What the end of an epoch may change besides registers. -/
def epochParts : List Part := [.pins, .tports, .fts, .pmc]

/-- The headers that go with it. -/
def epochBlocks : List Block := [.tss, .sit, .pmc]

/-- From `h` to `k` nothing changed but what the end of an epoch may change. -/
abbrev Hub.EpochEnds (h k : Hub) : Prop := Frame h k epochParts epochRegs epochBlocks

theorem Hub.dealLate_frame (h : Hub) {t : Nat} (ht : t < 18) : Hub.EpochEnds h (h.dealLate t) := by
  have hport : Hub.EpochEnds h (h.updTport t fun p => { p with dealing := none }) := (Frame.refl h).updTport (by decide)
  have hcount := (hport.inc (n := 1) (x := Reg.TS_DEAL_LATE t) (.inl (.inl ⟨t, ht, .inr rfl⟩))).inc (n := 1) (x := Reg.TSS_DEAL_LATE)
    (.inl (.inr (.inl rfl)))
  have htold := (hcount.attn (b := .tss) (i := 5) (by decide)).fault (b := .tss) (i := 1) (by decide) (by decide)
    (.inl (.inr (.inr rfl))) (by decide)
  exact (htold.pmcEvent (by decide) Set.subset_union_right (by decide)).ite (Frame.refl h)

theorem Hub.measure_frame (ep : Nat) (h : Hub) {t : Nat} (ht : t < 18) : Frame h (Hub.measure ep h t) epochParts epochRegs [] := by
  have hrate (x : Nat) : Frame h (h.wrF (Reg.TS_TRUMP_RATE t) 20 0 x) epochParts epochRegs [] :=
    (Frame.refl h).wrF (.inl (.inl ⟨t, ht, .inl rfl⟩))
  unfold Hub.measure
  exact (Frame.foldl _ (hrate _) fun _ _ _ a => a.setFt (by decide)).updTport (by decide)

/-- The late deals are given up and the ending epoch is measured. -/
def Hub.epochMeasured (h : Hub) (ep : Nat) : Hub := (List.range 18).foldl (Hub.measure ep) ((List.range 18).foldl Hub.dealLate h)

theorem Hub.epochMeasured_frame (h : Hub) (ep : Nat) : Hub.EpochEnds h (h.epochMeasured ep) :=
  Frame.foldl _ (Frame.foldl _ (Frame.refl h) fun _ _ ht a => a.trans (Hub.dealLate_frame _ (List.mem_range.mp ht)))
    fun _ _ ht a => a.trans ((Hub.measure_frame ep _ (List.mem_range.mp ht)).mono (List.Subset.refl _) subset_rfl (List.nil_subset _))

/-- The ports whose deal is late at the boundary. -/
def Hub.lateDeals (h : Hub) : List Nat := (List.range 18).filter fun t => (h.tport t).dealing.isSome

/-- The deal of a port begins with its allotments. -/
def Hub.dealTo (h : Hub) (t : Nat) : Hub :=
  let r := h.dealPort t
  let h := if r.2 then h.attn .tss 6 else h
  let h := r.1.foldl (fun h d => h.ftDealt d.slot t) h
  h.updTport t fun p => { p with dealing := some (h.dealQuanta r.1), dealFrom := h.mono }

/-- TSS_DEAL_STAT of a new deal: START, the number of late ports, and the count of deals. -/
def dealWord (st : Word) (late : List Nat) : Word :=
  w32 (late.headD 0 + 0x100 * late.length + 0x10000 * ((fld st 31 16 + 1) % 65536))

/-- The end of the epoch, with the number of late ports shown. -/
def Hub.epochShown (h : Hub) (ep : Nat) : Hub := (h.epochMeasured ep).wrF Reg.TSS_DEAL_STAT 12 8 h.lateDeals.length

theorem Hub.dealStart_off {h : Hub} {ep : Nat} (hoff : (h.epochShown ep).rdB Reg.TSS_DEAL_CFG 0 = false) :
    h.dealStart ep = h.epochShown ep := by
  refine if_neg ?_
  show ¬ (h.epochShown ep).rdB Reg.TSS_DEAL_CFG 0 = true
  rw [hoff]
  exact Bool.false_ne_true

theorem Hub.dealStart_on {h : Hub} {ep : Nat} (hon : (h.epochShown ep).rdB Reg.TSS_DEAL_CFG 0 = true) :
    h.dealStart ep = (List.range 18).foldl Hub.dealTo
      ((h.epochShown ep).wr Reg.TSS_DEAL_STAT (dealWord ((h.epochShown ep).rd Reg.TSS_DEAL_STAT) h.lateDeals)) := if_pos hon

theorem Hub.epochShown_rd (h : Hub) (ep : Nat) {a : Nat} (ha : a ∉ epochRegs) (hne : a ≠ Reg.TSS_DEAL_STAT) :
    (h.epochShown ep).rd a = h.rd a := (Hub.rd_wr_ne _ _ hne).trans ((h.epochMeasured_frame ep).reg a ha)

theorem Hub.epochShown_deals (h : Hub) (ep : Nat) :
    fld ((h.epochShown ep).rd Reg.TSS_DEAL_STAT) 31 16 = h.rdF Reg.TSS_DEAL_STAT 31 16 := by
  have hstat : (h.epochMeasured ep).rd Reg.TSS_DEAL_STAT = h.rd Reg.TSS_DEAL_STAT :=
    (h.epochMeasured_frame ep).reg _ (not_mem_epochRegs (by decide) (by decide) (by decide))
  unfold Hub.epochShown
  rw [Hub.rd_wrF, if_pos rfl, fld_setFld_ne _ _ _ _ _ _ (by decide), hstat, Hub.rdF]

/-- The count of deals in a new deal's word: START and LATE lie below it. -/
theorem fld_dealWord (st : Word) {late : List Nat} (hhead : late.headD 0 < 32) (hlen : late.length < 32) :
    fld (dealWord st late) 31 16 = (fld st 31 16 + 1) % 65536 := by
  have hn : (fld st 31 16 + 1) % 65536 < 65536 := Nat.mod_lt _ (by decide)
  unfold dealWord
  generalize (fld st 31 16 + 1) % 65536 = n at *
  simp only [fld, w32, BitVec.toNat_ofNat, Nat.shiftRight_eq_div_pow]
  omega

theorem Hub.lateDeals_bounds (h : Hub) : h.lateDeals.headD 0 < 32 ∧ h.lateDeals.length < 32 := by
  have hmem : ∀ t ∈ h.lateDeals, t < 32 := fun t ht => by
    have := List.mem_range.mp (List.mem_filter.mp ht).1
    omega
  have hlen : h.lateDeals.length ≤ 18 := (List.length_filter_le _ _).trans (by simp)
  refine ⟨?_, by omega⟩
  cases hl : h.lateDeals with
  | nil => decide
  | cons t l => exact hmem t (hl ▸ List.mem_cons_self)

/-! ### The deal of each port -/

/-- The allotments of a port, before its deal runs. -/
def Hub.dealtAt (h : Hub) (t : Nat) : Hub :=
  (h.dealPort t).1.foldl (fun h d => h.ftDealt d.slot t) (if (h.dealPort t).2 then h.attn .tss 6 else h)

theorem Hub.ftDealt_frame (h : Hub) (s t : Nat) : Frame h (h.ftDealt s t) [.fts] ∅ [] := by
  unfold Hub.ftDealt
  split
  · exact (Frame.refl h).setFt (by decide)
  · exact Frame.refl h

theorem Hub.dealtAt_frame (h : Hub) (t : Nat) : Frame h (h.dealtAt t) [.fts] ∅ [.tss] :=
  Frame.foldl _ (((Frame.refl h).attn (by decide)).ite (Frame.refl h)) fun _ _ _ a =>
    a.trans ((Hub.ftDealt_frame _ _ t).mono (List.Subset.refl _) subset_rfl (List.nil_subset _))

theorem Hub.dealTo_frame (h : Hub) (t : Nat) : Frame h (h.dealTo t) epochParts ∅ [.tss] :=
  ((h.dealtAt_frame t).mono (by decide) subset_rfl (List.Subset.refl _)).updTport (by decide)

theorem Hub.tport_updTport (h : Hub) (t p : Nat) (f : TssPort → TssPort) :
    (h.updTport t f).tport p = if p = t then f (h.tport t) else h.tport p := Tab.get_set _ _ _ _ _

theorem Hub.dealTo_dealing {h : Hub} {t p : Nat} (hp : p = t ∨ (h.tport p).dealing.isSome = true) :
    ((h.dealTo t).tport p).dealing.isSome = true := by
  have hports : (h.dealtAt t).tports = h.tports := (h.dealtAt_frame t).part .tports (by decide)
  show (((h.dealtAt t).updTport t _).tport p).dealing.isSome = true
  rw [Hub.tport_updTport]
  split
  · rfl
  · rename_i hne
    rw [Hub.tport, hports]
    exact hp.resolve_left hne

theorem Hub.dealTo_all (l : List Nat) {h : Hub} {p : Nat} (hp : p ∈ l ∨ (h.tport p).dealing.isSome = true) :
    ((l.foldl Hub.dealTo h).tport p).dealing.isSome = true := by
  induction l generalizing h with
  | nil => exact hp.resolve_left List.not_mem_nil
  | cons t l ih =>
    refine ih (or_iff_not_imp_left.mpr fun hnot => Hub.dealTo_dealing ?_)
    rcases hp with hmem | hsome
    · exact .inl ((List.mem_cons.mp hmem).resolve_right hnot)
    · exact .inr hsome

theorem Hub.dealAll_frame (h : Hub) : Frame h ((List.range 18).foldl Hub.dealTo h) epochParts ∅ [.tss] :=
  Frame.foldl _ (Frame.refl h) fun _ _ _ a => a.trans (Hub.dealTo_frame _ _)

/-! ### What the start of the deal leaves -/

theorem Hub.dealStart_cases (h : Hub) (ep : Nat) :
    h.dealStart ep = h.epochShown ep ∨ ∃ w, h.dealStart ep = (List.range 18).foldl Hub.dealTo ((h.epochShown ep).wr Reg.TSS_DEAL_STAT w) := by
  cases hon : (h.epochShown ep).rdB Reg.TSS_DEAL_CFG 0 with
  | false => exact .inl (Hub.dealStart_off hon)
  | true => exact .inr ⟨_, Hub.dealStart_on hon⟩

theorem Hub.dealStart_frame (h : Hub) (ep : Nat) :
    Frame h (h.dealStart ep) epochParts (insert Reg.TSS_DEAL_STAT epochRegs) epochBlocks := by
  have hshown : Frame h (h.epochShown ep) epochParts (insert Reg.TSS_DEAL_STAT epochRegs) epochBlocks :=
    ((h.epochMeasured_frame ep).mono (List.Subset.refl _) (Set.subset_insert _ _) (List.Subset.refl _)).wrF (Set.mem_insert _ _)
  rcases h.dealStart_cases ep with e | ⟨w, e⟩ <;> rw [e]
  · exact hshown
  · exact (hshown.wr (Set.mem_insert _ _)).trans
      ((Hub.dealAll_frame _).mono (List.Subset.refl _) (Set.empty_subset _) (by decide))

/-- A port's late deal is given up and counted. -/
def Hub.lateCounted (h : Hub) (t : Nat) : Hub :=
  ((h.updTport t fun p => { p with dealing := none }).inc (Reg.TS_DEAL_LATE t)).inc Reg.TSS_DEAL_LATE

theorem Hub.dealLate_eq (h : Hub) (t : Nat) : h.dealLate t =
    if (h.tport t).dealing.isSome then (((h.lateCounted t).attn .tss 5).fault .tss 1).pmcEvent 0x0D t 0 else h := rfl

theorem Hub.lateCounted_commit (h : Hub) (t : Nat) : Hub.CommitKept .tss h (h.lateCounted t) := ⟨rfl, rfl⟩

theorem Hub.dealLate_commit (h : Hub) (t : Nat) : Hub.CommitKept .tss h (h.dealLate t) := by
  have hpmc (k : Hub) : Hub.CommitKept .tss k (k.pmcEvent 0x0D t 0) :=
    .of_frame ((Frame.refl (ps := [.pmc]) (bs := [.pmc]) k).pmcEvent (by decide) subset_rfl (by decide)) (by decide)
  rw [Hub.dealLate_eq]
  split
  · exact (((h.lateCounted_commit t).trans .attn).trans .fault).trans (hpmc _)
  · exact .refl _ h

theorem Hub.CommitKept.wr (b : Block) (h : Hub) (a : Nat) (v : Word) : CommitKept b h (h.wr a v) := ⟨rfl, rfl⟩

theorem Hub.CommitKept.wrF (b : Block) (h : Hub) (a hi lo n : Nat) : CommitKept b h (h.wrF a hi lo n) := ⟨rfl, rfl⟩

theorem Hub.CommitKept.updTport (b : Block) (h : Hub) (t : Nat) (f : TssPort → TssPort) : CommitKept b h (h.updTport t f) := ⟨rfl, rfl⟩

theorem Hub.dealTo_commit (h : Hub) (t : Nat) : Hub.CommitKept .tss h (h.dealTo t) := by
  have hover : Hub.CommitKept .tss h (if (h.dealPort t).2 then h.attn .tss 6 else h) := by
    split
    · exact .attn
    · exact .refl _ h
  have hdealt : Hub.CommitKept .tss h (h.dealtAt t) :=
    hover.trans (.foldl _ fun d j => .of_frame (j.ftDealt_frame d.slot t) List.not_mem_nil)
  exact hdealt.trans (.updTport _ _ t _)

theorem Hub.dealStart_commit (h : Hub) (ep : Nat) : Hub.CommitKept .tss h (h.dealStart ep) := by
  have hlate : Hub.CommitKept .tss h ((List.range 18).foldl Hub.dealLate h) := .foldl _ fun t j => j.dealLate_commit t
  have hmeasure (j : Hub) : Hub.CommitKept .tss j ((List.range 18).foldl (Hub.measure ep) j) := by
    refine .of_frame (ps := epochParts) (rs := epochRegs) (bs := []) (Frame.foldl _ (Frame.refl j) fun t k ht a => ?_) List.not_mem_nil
    exact a.trans (Hub.measure_frame ep k (List.mem_range.mp ht))
  have hshown : Hub.CommitKept .tss h (h.epochShown ep) := (hlate.trans (hmeasure _)).trans (.wrF _ _ _ _ _ _)
  rcases h.dealStart_cases ep with e | ⟨w, e⟩ <;> rw [e]
  · exact hshown
  · exact (hshown.trans (.wr _ _ _ _)).trans (.foldl _ fun t j => j.dealTo_commit t)

/-- A deal that is enabled starts in every port and counts itself. -/
theorem Hub.dealStart_started {h : Hub} {ep : Nat} (hon : h.rdB Reg.TSS_DEAL_CFG 0 = true) :
    (h.dealStart ep).rdF Reg.TSS_DEAL_STAT 31 16 = (h.rdF Reg.TSS_DEAL_STAT 31 16 + 1) % 65536
    ∧ ∀ p ∈ List.range 18, ((h.dealStart ep).tport p).dealing.isSome = true := by
  have hcfg : (h.epochShown ep).rdB Reg.TSS_DEAL_CFG 0 = true := by
    rw [Hub.rdB, Hub.epochShown_rd _ _ (not_mem_epochRegs (by decide) (by decide) (by decide)) (by decide)]
    exact hon
  obtain ⟨hhead, hlen⟩ := h.lateDeals_bounds
  rw [Hub.dealStart_on hcfg]
  refine ⟨?_, fun p hp => Hub.dealTo_all _ (.inl hp)⟩
  rw [(Hub.dealAll_frame _).rdF (Set.notMem_empty _), Hub.rdF, Hub.rd_wr_self, fld_dealWord _ hhead hlen, Hub.epochShown_deals]

end Sys2Proof.Machine
end

section
/-! SUPPORT. The deal epoch boundary as a whole (R77, R183, R242, R243, R247): the ledger's check, the commits, and the start of the deal. -/

namespace Sys2Proof.Machine

/-! ### The boundary's steps -/

/-- MIR is due to sample the shapers, and the deal starts. -/
def Hub.dealBegun (h : Hub) (ep : Nat) : Hub := (h.updMir fun m => { m with shapeDue := true }).dealStart ep

/-- The effect of DEAL_EPOCH_BOUNDARY. -/
def Hub.epochBoundary (h : Hub) : Hub :=
  ((((h.ledgerCheck h).1.epochCommit .tsc).epochCommit .tss).epochCommit .fcm).policyCommit.dealBegun h.epochNs

theorem exec_dealEpochBoundary (s : State) :
    exec .dealEpochBoundary s
      = actT s (s.hub.mainUp && decide (s.hub.power.state = .run) && s.hub.time.reached s.hub.epochNs) Hub.epochBoundary := rfl

theorem Hub.epochCommit_of_idle {h : Hub} {b : Block} (hidle : (h.hdr b).waiting = []) : h.epochCommit b = h :=
  if_pos (List.isEmpty_iff.mpr hidle)

theorem Hub.epochCommit_of_due {h : Hub} {b : Block} (hwait : (h.hdr b).waiting = [0]) (hdue : (h.hdr b).armedAt + 1000 ≤ h.mono) :
    h.epochCommit b = h.commitApply b 0 ((h.hdr b).overdue.contains 0) := by
  have hbusy : ¬ (h.hdr b).waiting.isEmpty = true := by
    rw [hwait]
    exact Bool.false_ne_true
  exact (if_neg hbusy).trans (if_pos hdue)

theorem Hub.policyCommit_none {h : Hub} (hnone : h.paging.policy = []) : h.policyCommit = h := by
  have hself : { h.paging with policy := [] } = h.paging := by rw [← hnone]
  unfold Hub.policyCommit
  rw [hnone]
  show { h with paging := { h.paging with policy := h.paging.policy.filter _ } } = h
  rw [hnone, List.filter_nil, hself]

/-- Where no block but TSS commits and no policy waits, the boundary is TSS's commit between the ledger's check and the deal. -/
theorem Hub.epochBoundary_eq {h m : Hub} (htsc : (h.hdr .tsc).waiting = []) (htss : (h.ledgerCheck h).1.epochCommit .tss = m)
    (hfcm : (m.hdr .fcm).waiting = []) (hpolicy : m.paging.policy = []) : h.epochBoundary = m.dealBegun h.epochNs := by
  have hidle : ((h.ledgerCheck h).1.hdr .tsc).waiting = [] := (h.ledgerCheck_commit h .tsc).1.trans htsc
  unfold Hub.epochBoundary
  rw [Hub.epochCommit_of_idle hidle, htss, Hub.epochCommit_of_idle hfcm, Hub.policyCommit_none hpolicy]

/-! ### What the boundary touches -/

theorem Block.base_tsc : Block.tsc.base = 0x01000000 := rfl

theorem Block.base_tss : Block.tss.base = 0x01100000 := rfl

/-- The registers that a boundary may write: those of TSC and TSS, the count of pulses on FAULT_N, and the overflow flags. -/
def boundaryRegs : Set Nat := blockRegs .tsc ∪ blockRegs .tss ∪ {Reg.SIT_FAULTN_CNT} ∪ pmcRegs

theorem mem_boundaryRegs_tsc {a : Nat} (ha : ofBlock .tsc a = true) : a ∈ boundaryRegs := .inl (.inl (.inl (mem_blockRegs.mpr ha)))

theorem mem_boundaryRegs_tss {a : Nat} (ha : ofBlock .tss a = true) : a ∈ boundaryRegs := .inl (.inl (.inr (mem_blockRegs.mpr ha)))

theorem ledgerRegs_subset_boundaryRegs : ledgerRegs ⊆ boundaryRegs := by
  rintro a (⟨j, hj, rfl⟩ | rfl | rfl | rfl | rfl)
  · refine .inl (.inl (.inl ⟨?_, ?_⟩)) <;> simp only [Block.base_tsc, Reg.TSC_SNAP] <;> omega
  · exact mem_boundaryRegs_tsc (by decide)
  · exact mem_boundaryRegs_tsc (by decide)
  · exact mem_boundaryRegs_tsc (by decide)
  · exact .inl (.inr rfl)

theorem dealRegs_subset_boundaryRegs : insert Reg.TSS_DEAL_STAT epochRegs ⊆ boundaryRegs := by
  rintro a (rfl | (⟨t, ht, rfl | rfl⟩ | rfl | rfl) | ha)
  · exact mem_boundaryRegs_tss (by decide)
  · refine .inl (.inl (.inr ⟨?_, ?_⟩)) <;> simp only [Block.base_tss, Reg.TS_TRUMP_RATE] <;> omega
  · refine .inl (.inl (.inr ⟨?_, ?_⟩)) <;> simp only [Block.base_tss, Reg.TS_DEAL_LATE] <;> omega
  · exact mem_boundaryRegs_tss (by decide)
  · exact .inl (.inr rfl)
  · exact .inr ha

theorem Hub.dealBegun_frame (h : Hub) (ep : Nat) :
    Frame h (h.dealBegun ep) [.pins, .mir, .tports, .fts, .pmc] (insert Reg.TSS_DEAL_STAT epochRegs) epochBlocks :=
  ((Frame.refl h).updMir (by decide)).trans ((Hub.dealStart_frame _ ep).mono (by decide) subset_rfl (List.Subset.refl _))

theorem Hub.dealBegun_rd (h : Hub) (ep : Nat) {a : Nat} (hlo : 0x01000000 ≤ a) (hhi : a < 0x01110000) (hlate : a ≠ Reg.TSS_DEAL_LATE)
    (hstat : a ≠ Reg.TSS_DEAL_STAT) : (h.dealBegun ep).rd a = h.rd a :=
  (h.dealBegun_frame ep).reg a fun hmem => hmem.elim hstat (not_mem_epochRegs hlo hhi hlate)

theorem Hub.dealBegun_mir (h : Hub) (ep : Nat) : (h.dealBegun ep).mir = { h.mir with shapeDue := true } :=
  (Hub.dealStart_frame _ ep).part .mir (by decide)

theorem Hub.dealBegun_commit (h : Hub) (ep : Nat) : Hub.CommitKept .tss h (h.dealBegun ep) :=
  Hub.dealStart_commit (h.updMir fun m => { m with shapeDue := true }) ep

theorem not_mem_ledgerRegs_of_tss {a : Nat} (ha : ofBlock .tss a = true) : a ∉ ledgerRegs := by
  rintro (⟨j, hj, rfl⟩ | rfl | rfl | rfl | rfl)
  · obtain ⟨hlo, -⟩ := (mem_blockRegs (b := .tss)).mpr ha
    simp only [Block.base_tss, Reg.TSC_SNAP] at hlo
    omega
  all_goals exact absurd ha (by decide)

/-- A boundary ends as TSS's commit leaves the ledger's check, MIR's mark and the start of the deal. -/
theorem ends_dealEpochBoundary {s : State} {m : Hub} {ps : List Part} {Q : State → Prop} (hup : s.hub.mainUp = true)
    (hrun : s.hub.power.state = .run) (htime : s.hub.time.reached s.hub.epochNs = true) (htsc : (s.hub.hdr .tsc).waiting = [])
    (hfcm : (s.hub.hdr .fcm).waiting = []) (hpolicy : s.hub.paging.policy = [])
    (htss : (s.hub.fresh.ledgerCheck s.hub.fresh).1.epochCommit .tss = m)
    (hm : Frame (s.hub.fresh.ledgerCheck s.hub.fresh).1 m ps boundaryRegs [.tss])
    (hps : [.wide, .pins, .mir, .tports, .fts, .pmc] ⊆ ps) (hcells : .cells ∉ ps) (hpaging : .paging ∉ ps)
    (hq : Q { s with hub := s.hub.fresh.cycleEnd (m.dealBegun s.hub.epochNs) }) :
    Ends .dealEpochBoundary s ps boundaryRegs [.tsc, .tss, .sit, .pmc] Q := by
  have hledger := (s.hub.fresh.ledgerCheck_frame s.hub.fresh).mono (ps' := ps) (bs' := [.tsc, .tss, .sit, .pmc])
    (List.Subset.trans (by decide) hps) ledgerRegs_subset_boundaryRegs (by decide)
  have hframe : Frame s.hub.fresh m ps boundaryRegs [.tsc, .tss, .sit, .pmc] :=
    hledger.trans (hm.mono (List.Subset.refl _) subset_rfl (by decide))
  have hbegun := hframe.trans ((m.dealBegun_frame s.hub.epochNs).mono (List.Subset.trans (by decide) hps)
    dealRegs_subset_boundaryRegs (by decide))
  have hwaits : (m.hdr .fcm).waiting = [] := (Hub.CommitKept.of_frame hframe (by decide)).1.trans hfcm
  have hpolicy' : m.paging.policy = [] := (congrArg Paging.policy (hframe.part .paging hpaging)).trans hpolicy
  exact ends_actT (exec_dealEpochBoundary s) (by simp only [hup, hrun, htime, decide_true, Bool.and_self])
    (Hub.epochBoundary_eq (h := s.hub.fresh) htsc htss hwaits hpolicy') (hbegun.part .cells hcells)
    (mem_boundaryRegs_tsc (by decide)) (by decide) hbegun hq

/-! ### The clauses of EpochBoundary -/

theorem ends_dealEpochBoundary_idle {s : State} (hup : s.hub.mainUp = true) (hrun : s.hub.power.state = .run)
    (hvoid : s.hub.rdB Reg.TSC_LEDGER_STAT 2 = false) (htsc : (s.hub.hdr .tsc).waiting = []) (htss : (s.hub.hdr .tss).waiting = [])
    (hfcm : (s.hub.hdr .fcm).waiting = []) (hpolicy : s.hub.paging.policy = []) (hon : s.hub.rdB Reg.TSS_DEAL_CFG 0 = true)
    (htime : s.hub.time.reached s.hub.epochNs = true) :
    Ends .dealEpochBoundary s [.wide, .pins, .mir, .tports, .fts, .pmc] boundaryRegs [.tsc, .tss, .sit, .pmc] (fun t =>
      t.hub.mir = { s.hub.mir with shapeDue := true }
      ∧ t.hub.rd (Reg.TSC_SNAP 0) = iword s.hub.counts.kitty
      ∧ t.hub.rdF Reg.TSC_LEDGER_STAT 31 16 = (s.hub.rdF Reg.TSC_LEDGER_STAT 31 16 + 1) % 65536
      ∧ t.hub.rdF Reg.TSS_DEAL_STAT 31 16 = (s.hub.rdF Reg.TSS_DEAL_STAT 31 16 + 1) % 65536
      ∧ ∀ p ∈ List.range 18, (t.hub.tport p).dealing.isSome = true) := by
  have hledger := s.hub.fresh.ledgerCheck_frame s.hub.fresh
  obtain ⟨hsnap, hchecks⟩ := Hub.ledgerCheck_shown (h := s.hub.fresh) hvoid s.hub.fresh
  have hidle : ((s.hub.fresh.ledgerCheck s.hub.fresh).1.hdr .tss).waiting = [] :=
    (s.hub.fresh.ledgerCheck_commit s.hub.fresh .tss).1.trans htss
  refine ends_dealEpochBoundary hup hrun htime htsc hfcm hpolicy (Hub.epochCommit_of_idle hidle) (Frame.refl _) (List.Subset.refl _)
    (by decide) (by decide) ?_
  generalize (s.hub.fresh.ledgerCheck s.hub.fresh).1 = j at *
  have hcells : (j.dealBegun s.hub.epochNs).cells = s.hub.fresh.cells :=
    ((j.dealBegun_frame _).part .cells (by decide)).trans (hledger.part .cells (by decide))
  have hstarted : (j.updMir fun m => { m with shapeDue := true }).rdB Reg.TSS_DEAL_CFG 0 = true :=
    (congrArg (bit · 0) (hledger.reg _ (not_mem_ledgerRegs_of_tss (by decide)))).trans hon
  obtain ⟨hdeals, hports⟩ := Hub.dealStart_started (ep := s.hub.epochNs) hstarted
  have hend := (Frame.refl (j.dealBegun s.hub.epochNs)).cycleEnd (ps := []) (rs := {Reg.TSC_KITTY_MIN}) (bs := [.tsc]) hcells rfl
    List.mem_cons_self
  refine ⟨?mir, ?snap, ?checks, ?deals, fun p hp => ?ports⟩
  case mir =>
    have hmir : j.mir = s.hub.mir := hledger.part .mir (by decide)
    exact (hend.part .mir List.not_mem_nil).trans ((j.dealBegun_mir _).trans (by rw [hmir]))
  case snap =>
    exact ((hend.reg _ (by decide)).trans (j.dealBegun_rd _ (by decide) (by decide) (by decide) (by decide))).trans hsnap
  case checks =>
    dsimp only
    rw [hend.rdF (by decide), Hub.rdF, j.dealBegun_rd _ (by decide) (by decide) (by decide) (by decide)]
    exact hchecks
  case deals =>
    have hbefore : j.rdF Reg.TSS_DEAL_STAT 31 16 = s.hub.rdF Reg.TSS_DEAL_STAT 31 16 :=
      hledger.rdF (not_mem_ledgerRegs_of_tss (by decide)) _ _
    dsimp only
    rw [hend.rdF (by decide), ← hbefore]
    exact hdeals
  case ports =>
    have htports := hend.part .tports List.not_mem_nil
    dsimp only
    rw [Hub.tport, show (s.hub.fresh.cycleEnd _).tports = _ from htports]
    exact hports p hp

/-- The bits of EPOCH are shadowed, so a commit of TSS_EPOCH puts the shadow's EPOCH in force. -/
theorem fld_epoch_inForce (w v : Word) :
    fld ((w &&& ~~~shadowMask Reg.TSS_EPOCH) ||| (v &&& shadowMask Reg.TSS_EPOCH)) 8 0 = v.toNat % 512 := by
  have hmask : shadowMask Reg.TSS_EPOCH = 0x1FF := by decide
  rw [hmask, fld_masked_write (by decide)]
  rfl

/-- A commit of TSS that was armed 1 µs before the boundary, with a shadow of EPOCH alone, is over at it. -/
theorem Hub.epochCommit_tss {h : Hub} {v : Word} (hwait : (h.hdr .tss).waiting = [0]) (hdue : (h.hdr .tss).armedAt + 1000 ≤ h.mono)
    (hpend : h.pend = [(Reg.TSS_EPOCH, v)]) : ∃ m, h.epochCommit .tss = m ∧ Frame h m [.pend] {Reg.TSS_EPOCH} [.tss]
      ∧ m.rdF Reg.TSS_EPOCH 8 0 = v.toNat % 512 ∧ m.pend = []
      ∧ (m.hdr .tss).waiting = [] ∧ (m.hdr .tss).applied = ((h.hdr .tss).applied + 1) % 256 := by
  have hplain : Block.tss = .pmu ∨ Block.tss = .ksi ∨ Block.tss = .tss := .inr (.inr rfl)
  have hforce := Hub.inForce_of_one hplain hpend (by decide)
  have hword : (h.inForce .tss).rd Reg.TSS_EPOCH
      = (h.rd Reg.TSS_EPOCH &&& ~~~shadowMask Reg.TSS_EPOCH) ||| (v &&& shadowMask Reg.TSS_EPOCH) := by
    rw [hforce]
    exact Hub.rd_wr_self h _ _
  refine ⟨_, (Hub.epochCommit_of_due hwait hdue).trans (Hub.commitApply_plain hplain hwait _), ?_, ?_, ?_, ?_⟩
  · exact (Frame.inForce_of_one hplain hpend (by decide) List.mem_cons_self (Set.mem_singleton _)).updHdr List.mem_cons_self
  · rw [Hub.rdF, Hub.updHdr_rd, hword]
    exact fld_epoch_inForce _ v
  · rw [Hub.updHdr_pend, hforce]
  · rw [Hub.hdr_updHdr_self, hforce]
    exact Hdr.applied1_single hwait _

theorem ends_dealEpochBoundary_commit {s : State} {v : Word} (hup : s.hub.mainUp = true) (hrun : s.hub.power.state = .run)
    (htsc : (s.hub.hdr .tsc).waiting = []) (htss : (s.hub.hdr .tss).waiting = [0])
    (hdue : (s.hub.hdr .tss).armedAt + 1000 ≤ s.hub.mono) (hfcm : (s.hub.hdr .fcm).waiting = []) (hpolicy : s.hub.paging.policy = [])
    (hpend : s.hub.pend = [(Reg.TSS_EPOCH, v)]) (htime : s.hub.time.reached s.hub.epochNs = true) :
    Ends .dealEpochBoundary s [.pend, .wide, .pins, .mir, .tports, .fts, .pmc] boundaryRegs [.tsc, .tss, .sit, .pmc] (fun t =>
      t.hub.rdF Reg.TSS_EPOCH 8 0 = v.toNat % 512 ∧ t.hub.pend = [] ∧ (t.hub.hdr .tss).waiting = []
      ∧ (t.hub.hdr .tss).applied = ((s.hub.hdr .tss).applied + 1) % 256) := by
  have hledger := s.hub.fresh.ledgerCheck_frame s.hub.fresh
  obtain ⟨hwaits, hcount⟩ := s.hub.fresh.ledgerCheck_commit s.hub.fresh .tss
  have harmed := congrArg Hdr.armedAt (hledger.hdr .tss (by decide))
  obtain ⟨m, hcommit, hframe, hepoch, hnone, hwaiting, happlied⟩ :=
    Hub.epochCommit_tss (h := (s.hub.fresh.ledgerCheck s.hub.fresh).1) (hwaits.trans htss)
      (by rw [show ((s.hub.fresh.ledgerCheck s.hub.fresh).1.hdr .tss).armedAt = _ from harmed, Hub.mono, hledger.part .time (by decide)]
          exact hdue)
      ((hledger.part .pend (by decide)).trans hpend)
  refine ends_dealEpochBoundary hup hrun htime htsc hfcm hpolicy hcommit
    (hframe.mono (by decide) (Set.singleton_subset_iff.mpr (mem_boundaryRegs_tss (by decide))) (by decide))
    (by decide) (by decide) (by decide) ?_
  obtain ⟨hbegunWaiting, hbegunApplied⟩ := m.dealBegun_commit s.hub.epochNs
  have hcells : (m.dealBegun s.hub.epochNs).cells = s.hub.fresh.cells :=
    ((m.dealBegun_frame _).part .cells (by decide)).trans ((hframe.part .cells (by decide)).trans (hledger.part .cells (by decide)))
  obtain ⟨hendWaiting, hendApplied, -⟩ := Hub.cycleEnd_hdr hcells .tss
  refine ⟨?epoch, ?pend, ?waiting, ?applied⟩
  case epoch =>
    dsimp only
    rw [Hub.rdF, Hub.cycleEnd_rd hcells (by decide), m.dealBegun_rd _ (by decide) (by decide) (by decide) (by decide)]
    exact hepoch
  case pend => exact (Hub.cycleEnd_pend hcells).trans (((m.dealBegun_frame _).part .pend (by decide)).trans hnone)
  case waiting => exact hendWaiting.trans (hbegunWaiting.trans hwaiting)
  case applied =>
    dsimp only
    rw [hendApplied, hbegunApplied, happlied, hcount]
    rfl

/-- Settles O14: the boundary is the ledger's check, TSS's commit where it waits, and the start of the deal, each with its own frame. -/
theorem epochBoundary : Obligations.EpochBoundary :=
  ⟨fun _ hup hrun hvoid htsc htss hfcm hpolicy hon htime =>
      ends_dealEpochBoundary_idle hup hrun hvoid htsc htss hfcm hpolicy hon htime,
    fun _ _ hup hrun htsc htss hdue hfcm hpolicy hpend htime =>
      ends_dealEpochBoundary_commit hup hrun htsc htss hdue hfcm hpolicy hpend htime⟩

end Sys2Proof.Machine
end

section
/-! SUPPORT. The two refutations of the family. Both come from a link port one of whose logical lanes has no physical lane, as mapping a
lane out leaves it (R113, Table 4.10): LNX_PORT_MAP counts that lane and names it 0x3F, and the port's list of lanes leaves it out. -/

namespace Sys2Proof.Machine

/-- A ROOT that has mapped out lane 4, the logical lane 0 of T1. -/
def lackingRoot : Hub := (Hub.reset {}).laneMapOut 4

/-! ### Deskew of a port that lacks a lane (R103, R113)

The lanes that the port has are all locked, but the deskew asks for lock on every logical lane, and so never comes. -/

/-- `lackingRoot` with lock on every lane that T1 has. -/
def lockedLackingRoot : State := { hub := lackingRoot.updLanes 1 fun w => setBit w 16 true }

theorem deskewComplete_lackingRoot :
    ∃ t, exec (.deskewComplete 1 0) lockedLackingRoot = .next t ∧ (t.hub.link 1).deskewed = false :=
  ⟨_, rfl, by decide +kernel⟩

/-- Refutes O30: in `lockedLackingRoot` every lane of T1 has lock, and DESKEW_COMPLETE leaves the port as it was. -/
theorem not_laneLinkEvents : ¬ Obligations.LaneLinkEvents := by
  rintro ⟨-, -, -, -, -, -, -, -, hdeskew, -⟩
  obtain ⟨t, hrun, -, hdone, -⟩ :=
    hdeskew lockedLackingRoot 1 (by decide +kernel) (by decide +kernel) (by decide +kernel) (by decide +kernel)
  obtain ⟨u, hrun', hnot⟩ := deskewComplete_lackingRoot
  obtain rfl : t = u := Host.Outcome.next.inj (hrun.symm.trans hrun')
  exact absurd (hdone.symm.trans hnot) (by decide)

/-! ### Repair of a logical lane that has no physical lane (R112, R113)

The repair gives the port a lane again. No lane leaves the port for it, so that none is mapped out and one record is written, not two. -/

/-- The repair of T1's logical lane 0 by its wired spare, lane 39, that has named its marker. -/
def laneZeroRepair : LaneRepair := { port := 1, logical := 0, spare := 39, starter := true, marker := some 5 }

/-- `lackingRoot` while that repair runs. -/
def refillingRoot : State := { hub := { lackingRoot with repair := some laneZeroRepair } }

theorem laneMove_refillingRoot :
    ∃ t, exec .laneMove refillingRoot = .next t ∧ t.hub.repairMap.length = refillingRoot.hub.repairMap.length + 1 :=
  ⟨_, rfl, by decide +kernel⟩

/-- Refutes O31: in `refillingRoot` the move writes one record. -/
theorem not_laneRepairs : ¬ Obligations.LaneRepairs := by
  rintro ⟨-, -, -, -, -, -, -, -, -, -, hmove, -⟩
  obtain ⟨t, hrun, -, -, -, -, htwo, -⟩ := hmove refillingRoot laneZeroRepair 5 (by decide +kernel) rfl rfl (by decide) (by decide +kernel)
    (by decide +kernel) (by decide +kernel) (by decide)
  obtain ⟨u, hrun', hone⟩ := laneMove_refillingRoot
  obtain rfl : t = u := Host.Outcome.next.inj (hrun.symm.trans hrun')
  omega

end Sys2Proof.Machine
end

section
/-! SUPPORT. Writes and reads that restart a count or a maximum (R108, R187, R223, R271, R282, R371, R373, R422, R443, R493). -/

namespace Sys2Proof.Machine

/-! ### Restarts of one register -/

section
variable {c : Instr} {s : State} {cond : Bool} {ps : List Part} {rs : Set Nat} {bs : List Block} {Q Q' : State → Prop}

/-- What a command leads to may be stated more weakly. -/
theorem Ends.imp (he : Ends c s ps rs bs Q) (hq : ∀ t, Q t → Q' t) : Ends c s ps rs bs Q' := by
  obtain ⟨t, hrun, hkeep, ht⟩ := he
  exact ⟨t, hrun, hkeep, hq t ht⟩

/-- A command whose whole effect is a write of one field of a register. -/
theorem ends_writeField {x hi lo : Nat} {v : Hub → Nat} (hexec : exec c s = act s cond fun h => h.wrF x hi lo (v h)) (hc : cond = true) :
    Ends c s [] {x} [] (fun t => t.hub.rd x = setFld (s.hub.rd x) hi lo (v s.hub.fresh)) :=
  ends_write (v := fun h => setFld (h.rd x) hi lo (v h)) hexec hc

/-- A read that returns a register and clears it. -/
theorem ends_readClear {x : Nat} (hexec : exec c s = act s cond fun h => (h.emit (.words [h.rd x])).wr x 0) (hc : cond = true) :
    Ends c s [] {x} [] (fun t => t.hub.rd x = 0 ∧ t.hub.out = [.words [s.hub.rd x]]) :=
  ends_act hexec hc ((Frame.refl _).emit.wr rfl) ⟨(settle_rd _ _ _).trans (Hub.rd_wr_self _ _ _), settle_out _ _⟩

end

/-! ### The maximum of the junction temperature (R443) -/

/-- A temperature that 15 signed bits hold is shown as it is. -/
theorem tempMax_of_lt {n : Nat} (hn : n < 0x4000) : (BitVec.ofInt 15 (clampI (-16384) 16383 (BitVec.ofNat 16 n).toInt)).toNat = n := by
  have htoNat : (BitVec.ofNat 16 n).toNat = n := by
    rw [BitVec.toNat_ofNat]
    omega
  have hint : (BitVec.ofNat 16 n).toInt = n := by
    rw [BitVec.toInt_eq_toNat_of_lt (by rw [htoNat]; omega), htoNat]
  have hclamp : clampI (-16384) 16383 (n : Int) = n := by
    unfold clampI
    omega
  rw [hint, hclamp, BitVec.ofInt_natCast, BitVec.toNat_ofNat]
  omega

theorem ends_pmuTempClr {s : State} (hup : s.hub.up .pmu = true) :
    Ends .pmuTempClr s [] {Reg.PMU_TEMP} [] (fun t =>
      t.hub.rdF Reg.PMU_TEMP 15 0 = s.hub.rdF Reg.PMU_TEMP 15 0
      ∧ (s.hub.rdF Reg.PMU_TEMP 15 0 < 0x4000 → t.hub.rdF Reg.PMU_TEMP 30 16 = s.hub.rdF Reg.PMU_TEMP 15 0)) := by
  refine (ends_writeField (v := fun h =>
    (BitVec.ofInt 15 (clampI (-16384) 16383 (BitVec.ofNat 16 (h.rdF Reg.PMU_TEMP 15 0)).toInt)).toNat) rfl hup).imp fun t ht => ?_
  unfold Hub.rdF at *
  rw [ht]
  refine ⟨fld_setFld_ne _ _ _ _ _ _ (by decide), fun hlt => ?_⟩
  rw [fld_setFld _ _ _ _ (by decide)]
  exact (congrArg (· % 2 ^ (30 + 1 - 16)) (tempMax_of_lt hlt)).trans (Nat.mod_eq_of_lt (by omega))

/-! ### The wait maximum of an arbiter (R282) -/

theorem ends_arbWaitMaxClr {s : State} {b : Block} {k : Nat} (hup : s.hub.arbUp b k = true) :
    Ends (.arbWaitMaxClr b k) s [.arbs] {arbReg b k 0x30} [] (fun t =>
      t.hub.rd (arbReg b k 0x30) = 0 ∧ (∀ r, (t.hub.arb b k).losses.getD r 0 = 0)
      ∧ (t.hub.arb b k).steps = (s.hub.arb b k).steps ∧ (t.hub.arb b k).owner = (s.hub.arb b k).owner) := by
  refine ends_act (f := fun h => h.arbWaitClr b k) rfl hup (((Frame.refl _).setArb List.mem_cons_self).wr rfl) ?_
  have harb : (settle s.hub (s.hub.fresh.arbWaitClr b k)).arb b k =
      { s.hub.arb b k with losses := (s.hub.arb b k).losses.map fun _ => 0 } := by
    unfold Hub.arb
    rw [settle_arbs]
    exact (Tab.get_set _ _ _ _ _).trans (if_pos rfl)
  dsimp only
  rw [harb, settle_rd]
  refine ⟨Hub.rd_wr_self _ _ _, fun r => ?_, rfl, rfl⟩
  rw [List.getD_eq_getElem?_getD, List.getElem?_map]
  cases (s.hub.arb b k).losses[r]? <;> rfl

/-! ### Counts of several registers -/

theorem ends_patErrClr {s : State} {l : LaneNo} (hup : s.hub.up .lnx = true) :
    Ends (.patErrClr l) s [] {Reg.LN_PAT_ERR l, Reg.LN_PAT_BITS_LO l, Reg.LN_PAT_BITS_HI l} [] (fun t =>
      t.hub.rd (Reg.LN_PAT_ERR l) = 0 ∧ t.hub.rd (Reg.LN_PAT_BITS_LO l) = 0 ∧ t.hub.rd (Reg.LN_PAT_BITS_HI l) = 0) := by
  refine ends_act (f := fun h => h.patErrClr l) rfl hup ((((Frame.refl _).wr (by simp)).wr (by simp)).wr (by simp)) ?_
  simp [Hub.patErrClr, Hub.rd_wr]

theorem ends_pfClr {s : State} (hup : s.hub.up .pxb = true) :
    Ends .pfClr s [.wide, .pxb] {Reg.PX_PF_DISCARD} [] (fun t =>
      t.hub.rd Reg.PX_PF_DISCARD = 0 ∧ t.hub.rdWide Reg.PX_PF_FIRST_LO = 0 ∧ t.hub.pxb = { s.hub.pxb with pfSet := false }
      ∧ ∀ a, a ≠ Reg.PX_PF_FIRST_LO → t.hub.rdWide a = s.hub.rdWide a) := by
  have hcount : Frame s.hub.fresh (s.hub.fresh.wr Reg.PX_PF_DISCARD 0) [.wide, .pxb] {Reg.PX_PF_DISCARD} [] := (Frame.refl _).wr rfl
  refine ends_act (f := Hub.pfClr) rfl hup ((hcount.wrWide (by decide)).updPxb (by decide)) ?_
  have hwide (a : Nat) : s.hub.fresh.pfClr.rdWide a = if a = Reg.PX_PF_FIRST_LO then 0 else s.hub.rdWide a :=
    Hub.rdWide_wrWide (s.hub.fresh.wr Reg.PX_PF_DISCARD 0) Reg.PX_PF_FIRST_LO 0 a
  dsimp only
  rw [settle_rd, settle_rdWide, settle_pxb, hwide, if_pos rfl]
  refine ⟨Hub.rd_wr_self s.hub.fresh Reg.PX_PF_DISCARD 0, rfl, rfl, fun a ha => ?_⟩
  rw [settle_rdWide, hwide, if_neg ha]

/-- Settles O2: each command writes the register, or the field of it, that it restarts; a read that clears returns what it clears. -/
theorem restartedCounts : Obligations.RestartedCounts := by
  refine ⟨fun s hup => ⟨ends_writeField (v := fun h => h.counts.kitty.toNat) rfl hup,
      fun p => ends_writeField (v := fun h => h.pendTotal p) rfl hup, fun p => ends_writeField (v := fun h => h.foyCells p) rfl hup,
      fun p => ends_write (v := fun _ => 0) rfl hup, ends_write (v := fun _ => 0) rfl hup, fun e => ⟨ends_readClear rfl hup, ends_readClear rfl hup⟩⟩,
    fun s hup => ?lag, fun s hup => ends_pmuTempClr hup, fun s hup n => ?tfet, fun s hup l => ends_patErrClr hup,
    fun s hup => ⟨fun w => ?fence, ends_pfClr hup⟩, fun s b k hup => ends_arbWaitMaxClr hup⟩
  case lag =>
    refine (ends_writeField (v := fun _ => 0) rfl hup).imp fun t ht => ?_
    unfold Hub.rdF
    rw [ht]
    exact ⟨fld_setFld _ _ _ _ (by decide), fld_setFld_ne _ _ _ _ _ _ (by decide)⟩
  case tfet =>
    refine (ends_writeField (v := fun h => (BitVec.ofInt 16 ((h.chan n).tfet * 10 / 256)).toNat) rfl hup).imp fun t ht => ?_
    unfold Hub.rdF
    rw [ht, fld_setFld _ _ _ _ (by decide)]
    exact Nat.mod_eq_of_lt (BitVec.isLt _)
  case fence =>
    refine (ends_write (v := fun h => setBit (h.rd (Reg.PW_STAT w)) 0 false) rfl hup).imp fun t ht => ?_
    unfold Hub.rdB
    rw [ht, bit_setBit _ _ _ _ (by decide), if_pos rfl]

end Sys2Proof.Machine
end

section
/-! SUPPORT. Operations on one lane (R92, R101, R105, R108 to R110): what its state, its status register and the fabric see of them. -/

namespace Sys2Proof.Machine

variable {h k : Hub} {ps : List Part} {rs : Set Nat} {bs : List Block} {l : Nat}

/-! ### Answers and faults -/

/-- A command whose condition holds and whose effect is known ends as that effect, closed by `settle`. -/
theorem ends_effect {c : Instr} {s : State} {cond : Bool} {f : Hub → Hub} {Q : State → Prop} (hexec : exec c s = act s cond f)
    (hc : cond = true) (hk : f s.hub.fresh = k) (hf : Frame s.hub.fresh k ps rs bs) (hq : Q { s with hub := settle s.hub k }) :
    Ends c s ps rs bs Q := by
  subst hk
  exact ends_act hexec hc hf hq

/-- What a fault event touches (R465 to R473). -/
theorem Hub.fault_frame (h : Hub) (b : Block) (i : Nat) : Frame h (h.fault b i) [.pins] {Reg.SIT_FAULTN_CNT} [b, .sit] :=
  (Frame.refl h).fault List.mem_cons_self List.mem_cons_self rfl (by simp)

/-! ### Attention and live bits of a header -/

@[simp] theorem Hub.attn_sticky (h : Hub) (b : Block) (i : Nat) (c : Block) : ((h.attn b i).hdr c).sticky = (h.hdr c).sticky := by
  rw [Hub.attn, Hub.hdr_updHdr]
  split
  · rename_i hc; subst hc; rfl
  · rfl

@[simp] theorem Hub.attn_live (h : Hub) (b : Block) (i : Nat) (c : Block) : ((h.attn b i).hdr c).live = (h.hdr c).live := by
  rw [Hub.attn, Hub.hdr_updHdr]
  split
  · rename_i hc; subst hc; rfl
  · rfl

/-- A command's attention is still there at its end. -/
theorem settle_raw_attn (o h : Hub) {b : Block} (hb : b ≠ .pmu) {i : Nat} (hi : i < 32) : (settle o (h.attn b i)).raw b i = true := by
  rw [settle_raw _ _ _ _ (.inl hb)]
  exact Hub.raw_attn_self h b hi

/-! ### The state of a lane -/

/-- The state of lane `l` behind its registers changed. -/
def Hub.withLane (h : Hub) (l : Nat) (f : LaneSt → LaneSt) : Hub := { h with lanes := Tab.upd (fun _ => {}) h.lanes l f }

theorem Hub.lane_withLane (h : Hub) (l k : Nat) (f : LaneSt → LaneSt) :
    (h.withLane l f).lane k = if k = l then f (h.lane l) else h.lane k := Tab.get_set _ _ _ _ _

theorem Frame.withLane (a : Frame h k ps rs bs) (hp : Part.lanes ∈ ps) (l : Nat) (f : LaneSt → LaneSt) :
    Frame h (k.withLane l f) ps rs bs :=
  a.upd rfl rfl rfl fun p hp' => by cases p <;> first | exact absurd hp hp' | rfl

theorem settle_lane (o n : Hub) (l : Nat) : (settle o n).lane l = n.lane l := by
  unfold Hub.lane
  rw [settle_lanes]

/-- The lanes are as before where a frame leaves them out. -/
theorem Frame.lane (a : Frame h k ps rs bs) (hp : Part.lanes ∉ ps) (l : Nat) : k.lane l = h.lane l := by
  have hlanes : k.lanes = h.lanes := a.part .lanes hp
  unfold Hub.lane
  rw [hlanes]

/-! ### SIT's hold, and what a lane sends (R108, R110) -/

/-- A bit set to the value that it has. -/
theorem setBit_self {w : Word} {i : Nat} {v : Bool} (hi : i < 32) (hv : bit w i = v) : setBit w i v = w := by
  refine BitVec.eq_of_getLsbD_eq fun j _ => ?_
  have hbit := bit_setBit w i j v hi
  unfold bit at hbit hv
  rw [hbit]
  split
  · rename_i hj; rw [hj, hv]
  · rfl

theorem Frame.sitReleaseLane (a : Frame h k ps rs bs) (hx : Reg.LN_STAT l ∈ rs) : Frame h (k.sitReleaseLane l) ps rs bs := by
  unfold Hub.sitReleaseLane
  split
  · exact (Frame.ite a.emit a).wrB hx
  · exact a

theorem Hub.sitReleaseLane_rd (h : Hub) (l a : Nat) :
    (h.sitReleaseLane l).rd a = if a = Reg.LN_STAT l then setBit (h.rd (Reg.LN_STAT l)) 18 false else h.rd a := by
  unfold Hub.sitReleaseLane
  split
  · dsimp only
    rw [Hub.rd_wrB]
    split_ifs <;> rfl
  · rename_i hfree
    rw [setBit_self (by decide) (Bool.not_eq_true _ ▸ hfree)]
    split_ifs with ha
    · rw [ha]
    · rfl

theorem Hub.sitReleaseLane_free (h : Hub) (l : Nat) : (h.sitReleaseLane l).rdB (Reg.LN_STAT l) 18 = false := by
  rw [Hub.rdB, Hub.sitReleaseLane_rd, if_pos rfl, bit_setBit _ _ _ _ (by decide), if_pos rfl]

theorem Frame.patternShow (a : Frame h k ps rs bs) (old : Hub) : Frame h (old.patternShow k l) ps rs bs := Frame.ite a a.emit

theorem Frame.injectOne (a : Frame h k ps rs bs) (hp : Part.lanes ∈ ps) : Frame h (k.injectOne l) ps rs bs := (a.withLane hp l _).emit

theorem Hub.lane_injectOne (h : Hub) (l k : Nat) :
    (h.injectOne l).lane k = if k = l then { h.lane l with flips := (h.lane l).flips + 1 } else h.lane k :=
  h.lane_withLane l k fun x => { x with flips := x.flips + 1 }

theorem Frame.patErrClr (a : Frame h k ps rs bs) (he : Reg.LN_PAT_ERR l ∈ rs) (hlo : Reg.LN_PAT_BITS_LO l ∈ rs)
    (hhi : Reg.LN_PAT_BITS_HI l ∈ rs) : Frame h (k.patErrClr l) ps rs bs := ((a.wr he).wr hlo).wr hhi

theorem Hub.patErrClr_rd (h : Hub) (l a : Nat) : (h.patErrClr l).rd a =
    if a = Reg.LN_PAT_BITS_HI l ∨ a = Reg.LN_PAT_BITS_LO l ∨ a = Reg.LN_PAT_ERR l then 0 else h.rd a := by
  simp only [Hub.patErrClr, Hub.rd_wr]
  split_ifs <;> simp_all

end Sys2Proof.Machine
end

section
/-! SUPPORT. Alignment, patterns and loops of one lane (R92, R97, R101, R102, R108 to R110). -/

namespace Sys2Proof.Machine

/-! ### Alignment (R101, R102) -/

section
variable {s : State} {l : LaneNo}

theorem Hub.writeSlip_of_allowed {h : Hub} {l n : Nat} (hal : h.laneAligns l = true) (hn : n ≠ 0) (hok : h.slipAllowed l = true) :
    h.writeSlip l n = (h.withLane l fun x => { x with pos := (x.pos + n) % 130 }).wrB (Reg.LN_SH_ERR l) 16 false := by
  unfold Hub.writeSlip
  rw [if_neg (by simp [hal, hn]), hok]
  rfl

theorem Hub.writeSlip_of_refused {h : Hub} {l n : Nat} (hal : h.laneAligns l = true) (hn : n ≠ 0) (hno : h.slipAllowed l = false) :
    h.writeSlip l n = h.attn .lnx 3 := by
  unfold Hub.writeSlip
  rw [if_neg (by simp [hal, hn]), hno]
  rfl

theorem toNat_ne_zero {w : Nat} {n : BitVec w} (hn : n ≠ 0) : n.toNat ≠ 0 := fun e => hn (BitVec.eq_of_toNat_eq (by simpa using e))

theorem ends_lnSlip {n : BitVec 8} (hup : s.hub.up .lnx = true) (hal : s.hub.laneAligns l = true) (hn : n ≠ 0)
    (hok : s.hub.slipAllowed l = true) :
    Ends (.lnSlip l n) s [.lanes] {Reg.LN_SH_ERR l} [] (fun t =>
      (t.hub.lane l).pos = ((s.hub.lane l).pos + n.toNat) % 130
      ∧ t.hub.rdB (Reg.LN_SH_ERR l) 16 = false
      ∧ ∀ k, k ≠ l.val → t.hub.lane k = s.hub.lane k) := by
  have hslip := Hub.writeSlip_of_allowed (h := s.hub.fresh) hal (toNat_ne_zero hn) hok
  have hlane (k : Nat) : (s.hub.fresh.writeSlip l n.toNat).lane k =
      if k = l.val then { s.hub.lane l with pos := ((s.hub.lane l).pos + n.toNat) % 130 } else s.hub.lane k := by
    rw [hslip]
    exact Hub.lane_withLane s.hub.fresh l k fun x => { x with pos := (x.pos + n.toNat) % 130 }
  refine ends_effect (f := fun h => h.writeSlip l n.toNat) rfl hup rfl ?_ ?_
  · rw [hslip]
    exact ((Frame.refl _).withLane List.mem_cons_self _ _).wrB (Set.mem_singleton _)
  · dsimp only
    rw [settle_lane, settle_rdB, hlane, if_pos rfl, hslip]
    refine ⟨rfl, ?_, fun k hk => ?_⟩
    · rw [Hub.rdB, Hub.rd_wrB, if_pos rfl, bit_setBit _ _ _ _ (by decide), if_pos rfl]
    · rw [settle_lane, ← hslip, hlane, if_neg hk]

theorem ends_lnSlip_refused {n : BitVec 8} (hup : s.hub.up .lnx = true) (hal : s.hub.laneAligns l = true) (hn : n ≠ 0)
    (hno : s.hub.slipAllowed l = false) : Ends (.lnSlip l n) s [] ∅ [.lnx] (fun t => t.hub.raw .lnx 3 = true) := by
  have hslip := Hub.writeSlip_of_refused (h := s.hub.fresh) hal (toNat_ne_zero hn) hno
  exact ends_effect (f := fun h => h.writeSlip l n.toNat) rfl hup hslip ((Frame.refl _).attn List.mem_cons_self)
    (settle_raw_attn _ _ (by decide) (by decide))

theorem ends_lnShWinWrite {v : BitVec 16} (hup : s.hub.up .lnx = true) (hal : s.hub.laneAligns l = true) :
    Ends (.lnShWinWrite l v) s [] {Reg.LN_SH_WIN l, Reg.LN_SH_ERR l} [] (fun t =>
      t.hub.rd (Reg.LN_SH_WIN l) = w32 v.toNat ∧ t.hub.rdB (Reg.LN_SH_ERR l) 16 = false) := by
  have hwrite : s.hub.fresh.writeShWin l v.toNat = (s.hub.fresh.wr (Reg.LN_SH_WIN l) (w32 v.toNat)).wrB (Reg.LN_SH_ERR l) 16 false := by
    unfold Hub.writeShWin
    rw [if_pos (show s.hub.fresh.laneAligns l = true from hal), Nat.mod_eq_of_lt v.isLt]
  refine ends_effect (f := fun h => h.writeShWin l v.toNat) rfl hup hwrite (((Frame.refl _).wr (by simp)).wrB (by simp)) ?_
  · dsimp only
    rw [settle_rd, settle_rdB, Hub.rdB, Hub.rd_wrB, Hub.rd_wrB, if_pos rfl, if_neg (by simp), bit_setBit _ _ _ _ (by decide), if_pos rfl]
    exact ⟨Hub.rd_wr_self _ _ _, rfl⟩

theorem ends_laneRelock (hup : s.hub.up .lnx = true) (hrate : s.hub.rdF (Reg.LN_STAT l) 11 8 ≠ 0) :
    Ends (.laneRelock l) s [] {Reg.LN_STAT l} [] (fun t =>
      t.hub.rd (Reg.LN_STAT l) = setBit (setBit (s.hub.rd (Reg.LN_STAT l)) 12 true) 13 true) := by
  refine ends_effect (f := fun h => (h.wrB (Reg.LN_STAT l) 12 true).wrB (Reg.LN_STAT l) 13 true) rfl (by simp [hup, hrate]) rfl
    (((Frame.refl _).wrB (Set.mem_singleton _)).wrB (Set.mem_singleton _)) ?_
  dsimp only
  rw [settle_rd, Hub.rd_wrB, if_pos rfl, Hub.rd_wrB, if_pos rfl]
  rfl

/-! ### The rate alarm (R97) -/

theorem LN_STAT_ne_FAULTN (l : LaneNo) : Reg.LN_STAT l ≠ Reg.SIT_FAULTN_CNT := by
  unfold Reg.LN_STAT Reg.SIT_FAULTN_CNT
  omega

theorem LN_PPM_ne_FAULTN (l : LaneNo) : Reg.LN_PPM l ≠ Reg.SIT_FAULTN_CNT := by
  unfold Reg.LN_PPM Reg.SIT_FAULTN_CNT
  omega

/-- A lane's rate offset is shown with its alarm. -/
def Hub.ppmShown (h : Hub) (l : Nat) (p : BitVec 16) : Hub :=
  (h.wr (Reg.LN_PPM l) (w32 (BitVec.ofInt 16 (clampI (-32767) 32767 p.toInt)).toNat)).wrB (Reg.LN_STAT l) 19 true

theorem Hub.ppmIn_over {h : Hub} {l : Nat} {p : BitVec 16} (hp : 30000 < p.toInt.natAbs) :
    h.ppmIn l p = (((h.ppmShown l p).fault .lnx 3).setLive .lnx 3 true).attn .lnx 2 := if_pos hp

theorem ends_ppmAlarm {p : BitVec 16} (hup : s.hub.up .lnx = true) (hp : 30000 < p.toInt.natAbs) :
    Ends (.ppmAlarm l p) s [.pins] {Reg.LN_PPM l, Reg.LN_STAT l, Reg.SIT_FAULTN_CNT} [.lnx, .sit] (fun t =>
      t.hub.rd (Reg.LN_PPM l) = w32 (BitVec.ofInt 16 (clampI (-32767) 32767 p.toInt)).toNat
      ∧ t.hub.rdB (Reg.LN_STAT l) 19 = true ∧ bit (t.hub.hdr .lnx).sticky 3 = true ∧ bit (t.hub.hdr .lnx).live 3 = true
      ∧ t.hub.raw .lnx 2 = true) := by
  have hshown : Frame s.hub.fresh (s.hub.fresh.ppmShown l p) [.pins] {Reg.LN_PPM l, Reg.LN_STAT l, Reg.SIT_FAULTN_CNT} [.lnx, .sit] :=
    ((Frame.refl _).wr (by simp)).wrB (by simp)
  have htold : Frame (s.hub.fresh.ppmShown l p) (s.hub.fresh.ppmIn l p) [.pins] {Reg.SIT_FAULTN_CNT} [.lnx, .sit] := by
    rw [Hub.ppmIn_over hp]
    exact (((Hub.fault_frame _ .lnx 3).setLive (by decide)).attn (by decide))
  refine ends_act (f := fun h => h.ppmIn l p) rfl hup (hshown.trans (htold.mono (List.Subset.refl _) (by simp) (List.Subset.refl _))) ?_
  dsimp only
  rw [settle_rd, settle_rdB, settle_sticky, settle_live, Hub.rdB, htold.reg _ (LN_PPM_ne_FAULTN l), htold.reg _ (LN_STAT_ne_FAULTN l),
    Hub.ppmIn_over hp, Hub.attn_sticky, Hub.attn_live, Hub.setLive_sticky, Hub.setLive_live_self _ _ (by decide)]
  refine ⟨?_, ?_, Hub.fault_sticky_self _ _ (by decide), rfl, settle_raw_attn _ _ (by decide) (by decide)⟩
  · rw [Hub.ppmShown, Hub.rd_wrB, if_neg (by simp)]
    exact Hub.rd_wr_self _ _ _
  · rw [Hub.ppmShown, Hub.rd_wrB, if_pos rfl, bit_setBit _ _ _ _ (by decide), if_pos rfl]

/-! ### Patterns (R108, R110) -/

/-- What INJECT_ONE and ERR_CLR of a word written to LN_PAT_CFG do. -/
def Hub.patActs (h : Hub) (l : Nat) (v : Word) : Hub :=
  if bit v 12 then (if bit v 5 then h.injectOne l else h).patErrClr l else if bit v 5 then h.injectOne l else h

/-- The registers of a lane's pattern errors. -/
def patErrRegs (l : Nat) : Set Nat := {Reg.LN_PAT_ERR l, Reg.LN_PAT_BITS_LO l, Reg.LN_PAT_BITS_HI l}

theorem Hub.patActs_frame (h : Hub) (l : Nat) (v : Word) : Frame h (h.patActs l v) [.lanes] (patErrRegs l) [] := by
  have hone : Frame h (if bit v 5 then h.injectOne l else h) [.lanes] (patErrRegs l) [] :=
    Frame.ite ((Frame.refl h).injectOne List.mem_cons_self) (Frame.refl h)
  exact Frame.ite (hone.patErrClr (by simp [patErrRegs]) (by simp [patErrRegs]) (by simp [patErrRegs])) hone

theorem Hub.patActs_of_none {v : Word} (h5 : bit v 5 = false) (h12 : bit v 12 = false) (h : Hub) (l : Nat) : h.patActs l v = h := by
  simp [Hub.patActs, h5, h12]

theorem Hub.patActs_flips (h : Hub) (l : Nat) (v : Word) :
    ((h.patActs l v).lane l).flips = (h.lane l).flips + b2n (bit v 5) := by
  have hone : ((if bit v 5 then h.injectOne l else h).lane l).flips = (h.lane l).flips + b2n (bit v 5) := by
    cases bit v 5
    · rfl
    · exact congrArg LaneSt.flips ((h.lane_injectOne l l).trans (if_pos rfl))
  unfold Hub.patActs
  split
  · exact hone
  · exact hone

theorem Hub.patActs_err (h : Hub) (l : Nat) (v : Word) :
    (h.patActs l v).rd (Reg.LN_PAT_ERR l) = if bit v 12 then 0 else h.rd (Reg.LN_PAT_ERR l) := by
  unfold Hub.patActs
  split
  · rw [Hub.patErrClr_rd, if_pos (.inr (.inr rfl))]
  · split <;> rfl

/-- LN_PAT_CFG takes a word, and the generator's output follows. -/
def Hub.patPut (h : Hub) (l : Nat) (w : Word) : Hub := h.patternShow (h.wr (Reg.LN_PAT_CFG l) w) l

theorem Hub.patPut_frame (h : Hub) (l : Nat) (w : Word) : Frame h (h.patPut l w) [] {Reg.LN_PAT_CFG l} [] :=
  Frame.patternShow ((Frame.refl h).wr (Set.mem_singleton _)) h

theorem Hub.patPut_rd (h : Hub) (l : Nat) (w : Word) : (h.patPut l w).rd (Reg.LN_PAT_CFG l) = w := by
  have hshow : Frame (h.wr (Reg.LN_PAT_CFG l) w) (h.patPut l w) [] ∅ [] := Frame.patternShow (Frame.refl _) h
  exact (hshow.reg _ (Set.notMem_empty _)).trans (Hub.rd_wr_self _ _ _)

/-- What a write leaves in LN_PAT_CFG of a lane whose port is down: CHK_LOCK stays while the checker is on. -/
def Hub.patKept (h : Hub) (l : Nat) (v : Word) : Word :=
  (v &&& 0x7DF#32) ||| (if bit v 1 then h.rd (Reg.LN_PAT_CFG l) &&& 0x800#32 else 0)

theorem Hub.writePatCfg_down {h : Hub} {l : Nat} {v : Word} (hdown : h.portDown (h.lanePort l) = true) :
    h.writePatCfg l v = ((h.patPut l (h.patKept l v)).sitReleaseLane l).patActs l v := by
  have hchk : bit (v &&& 0x7DF#32) 1 = bit v 1 := by simp [bit]
  have hkept : (if bit (v &&& 0x7DF#32) 1 then (v &&& 0x7DF#32) ||| (h.rd (Reg.LN_PAT_CFG l) &&& 0x800#32) else v &&& 0x7DF#32)
      = h.patKept l v := by
    unfold Hub.patKept
    rw [hchk]
    split
    · rfl
    · exact (BitVec.or_zero).symm
  unfold Hub.writePatCfg
  simp only [hdown, Bool.not_true, Bool.false_eq_true, if_false, hkept]
  rfl

theorem Hub.writePatCfg_up {h : Hub} {l : Nat} {v : Word} (hup : h.portDown (h.lanePort l) = false)
    (hchk : h.rdB (Reg.LN_PAT_CFG l) 1 = false) : h.writePatCfg l v =
      ((h.patPut l ((v &&& 0x7DC#32) ||| (h.rd (Reg.LN_PAT_CFG l) &&& 3#32))).attn .lnx 4).patActs l v := by
  have hoff : bit ((v &&& 0x7DC#32) ||| (h.rd (Reg.LN_PAT_CFG l) &&& 3#32)) 1 = false := by
    have hold : (h.rd (Reg.LN_PAT_CFG l)).getLsbD 1 = false := hchk
    rw [bit, BitVec.getLsbD_or, BitVec.getLsbD_and, BitVec.getLsbD_and, hold]
    exact (congrArg (· || false) (Bool.and_false _)).trans rfl
  unfold Hub.writePatCfg
  simp only [hup, Bool.not_false, if_true, hoff, Bool.false_eq_true, if_false]
  rfl

theorem ends_patCfgWrite_down {v : Word} (hup : s.hub.up .lnx = true) (hdown : s.hub.portDown (s.hub.lanePort l) = true) :
    Ends (.patCfgWrite l v) s [.lanes]
      {Reg.LN_PAT_CFG l, Reg.LN_STAT l, Reg.LN_PAT_ERR l, Reg.LN_PAT_BITS_LO l, Reg.LN_PAT_BITS_HI l} [] (fun t =>
      t.hub.rd (Reg.LN_PAT_CFG l) = (v &&& 0x7DF#32) ||| (if bit v 1 then s.hub.rd (Reg.LN_PAT_CFG l) &&& 0x800#32 else 0)
      ∧ (fld v 1 0 ≠ s.hub.rdF (Reg.LN_PAT_CFG l) 1 0 → t.hub.rdB (Reg.LN_STAT l) 18 = false)
      ∧ (t.hub.lane l).flips = (s.hub.lane l).flips + b2n (bit v 5)
      ∧ t.hub.rd (Reg.LN_PAT_ERR l) = (if bit v 12 then 0 else s.hub.rd (Reg.LN_PAT_ERR l))) := by
  have hput := s.hub.fresh.patPut_frame l (s.hub.fresh.patKept l v)
  have hfree : Frame (s.hub.fresh.patPut l (s.hub.fresh.patKept l v))
      ((s.hub.fresh.patPut l (s.hub.fresh.patKept l v)).sitReleaseLane l) [] {Reg.LN_STAT l} [] :=
    (Frame.refl _).sitReleaseLane (Set.mem_singleton _)
  have hacts := ((s.hub.fresh.patPut l (s.hub.fresh.patKept l v)).sitReleaseLane l).patActs_frame l v
  refine ends_effect (f := fun h => h.writePatCfg l v) rfl hup (Hub.writePatCfg_down (h := s.hub.fresh) hdown) ?_ ?_
  · exact ((hput.mono (by simp) (by simp) (by simp)).trans (hfree.mono (by simp) (by simp) (by simp))).trans
      (hacts.mono (by simp) ((Set.subset_insert _ _).trans (Set.subset_insert _ _)) (by simp))
  · dsimp only
    rw [settle_rd, settle_rdB, settle_lane, settle_rd, Hub.patActs_flips, Hub.patActs_err, Hub.rdB,
      hacts.reg (Reg.LN_PAT_CFG l) (by simp [patErrRegs]), hacts.reg (Reg.LN_STAT l) (by simp [patErrRegs]),
      hfree.reg (Reg.LN_PAT_CFG l) (by simp), hfree.reg (Reg.LN_PAT_ERR l) (by simp), hput.reg (Reg.LN_PAT_ERR l) (by simp),
      Hub.patPut_rd, hfree.lane (by simp), hput.lane (by simp)]
    exact ⟨rfl, fun _ => Hub.sitReleaseLane_free _ _, rfl, rfl⟩

theorem ends_patCfgWrite_up {v : Word} (hup : s.hub.up .lnx = true) (hdown : s.hub.portDown (s.hub.lanePort l) = false)
    (h5 : bit v 5 = false) (h12 : bit v 12 = false) (hchk : s.hub.rdB (Reg.LN_PAT_CFG l) 1 = false) :
    Ends (.patCfgWrite l v) s [] {Reg.LN_PAT_CFG l} [.lnx] (fun t =>
      t.hub.rd (Reg.LN_PAT_CFG l) = (v &&& 0x7DC#32) ||| (s.hub.rd (Reg.LN_PAT_CFG l) &&& 3#32) ∧ t.hub.raw .lnx 4 = true) := by
  refine ends_effect (f := fun h => h.writePatCfg l v) rfl hup
    ((Hub.writePatCfg_up (h := s.hub.fresh) hdown hchk).trans (Hub.patActs_of_none h5 h12 _ _)) ?_ ?_
  · exact ((Hub.patPut_frame _ _ _).mono (by simp) subset_rfl (by simp)).attn List.mem_cons_self
  · refine ⟨?_, settle_raw_attn _ _ (by decide) (by decide)⟩
    rw [settle_rd, Hub.attn_rd, Hub.patPut_rd]
    rfl

theorem ends_injectOne (hup : s.hub.up .lnx = true) :
    Ends (.injectOne l) s [.lanes] ∅ [] (fun t =>
      (t.hub.lane l).flips = (s.hub.lane l).flips + 1 ∧ ∀ k, k ≠ l.val → t.hub.lane k = s.hub.lane k) := by
  refine ends_effect (f := fun h => h.injectOne l) rfl hup rfl ((Frame.refl _).injectOne List.mem_cons_self) ?_
  dsimp only
  rw [settle_lane, Hub.lane_injectOne, if_pos rfl]
  refine ⟨rfl, fun k hk => ?_⟩
  rw [settle_lane, Hub.lane_injectOne, if_neg hk]
  rfl

/-- A 64-bit count in two words. -/
theorem join64_split (n : Nat) : join64 (lo32 n) (hi32 n) = n % 2 ^ 64 := by
  simp only [join64, lo32, hi32, w32, BitVec.toNat_ofNat, Nat.shiftRight_eq_div_pow]
  omega

/-- The checker has locked and counts its bits and their errors. -/
def Hub.checked (h : Hub) (l e n : Nat) : Hub :=
  let bits := join64 (h.rd (Reg.LN_PAT_BITS_LO l)) (h.rd (Reg.LN_PAT_BITS_HI l)) + n
  ((((h.wrB (Reg.LN_PAT_CFG l) 11 true).inc (Reg.LN_PAT_ERR l) e).wr (Reg.LN_PAT_BITS_LO l) (lo32 bits)).wr
    (Reg.LN_PAT_BITS_HI l) (hi32 bits))

theorem ends_checkerLock {e n : Nat} (hup : s.hub.up .lnx = true) (hchk : s.hub.rdB (Reg.LN_PAT_CFG l) 1 = true) :
    Ends (.checkerLock l e n) s [] {Reg.LN_PAT_CFG l, Reg.LN_PAT_ERR l, Reg.LN_PAT_BITS_LO l, Reg.LN_PAT_BITS_HI l} [] (fun t =>
      t.hub.rdB (Reg.LN_PAT_CFG l) 11 = true ∧ t.hub.rd (Reg.LN_PAT_ERR l) = incHold (s.hub.rd (Reg.LN_PAT_ERR l)) e
      ∧ join64 (t.hub.rd (Reg.LN_PAT_BITS_LO l)) (t.hub.rd (Reg.LN_PAT_BITS_HI l))
        = (join64 (s.hub.rd (Reg.LN_PAT_BITS_LO l)) (s.hub.rd (Reg.LN_PAT_BITS_HI l)) + n) % 2 ^ 64) := by
  refine ends_effect (f := fun h => h.checked l e n) rfl (by simp [hup, hchk]) rfl
    (((((Frame.refl _).wrB (by simp)).inc (by simp)).wr (by simp)).wr (by simp)) ?_
  simp only [settle_rd, Hub.rdB, Hub.checked, Hub.rd_wr, Hub.rd_inc, Hub.rd_wrB, Nat.add_right_cancel_iff, Nat.reduceEqDiff,
    if_true, if_false]
  refine ⟨?_, rfl, join64_split _⟩
  rw [bit_setBit _ _ _ _ (by decide), if_pos rfl]

/-! ### Loops (R109, R110) -/

theorem ends_lnLoopWrite_down {v : Word} (hup : s.hub.up .lnx = true) (hdown : s.hub.portDown (s.hub.lanePort l) = true) :
    Ends (.lnLoopWrite l v) s [] {Reg.LN_LOOP l, Reg.LN_STAT l} [] (fun t => t.hub.rd (Reg.LN_LOOP l) = v &&& 7#32) := by
  have hwrite : s.hub.fresh.writeLoop l v = (s.hub.fresh.wr (Reg.LN_LOOP l) (v &&& 7#32)).sitReleaseLane l := if_pos hdown
  refine ends_effect (f := fun h => h.writeLoop l v) rfl hup hwrite (((Frame.refl _).wr (by simp)).sitReleaseLane (by simp)) ?_
  · dsimp only
    rw [settle_rd, Hub.sitReleaseLane_rd, if_neg (by simp)]
    exact Hub.rd_wr_self _ _ _

theorem ends_lnLoopWrite_up {v : Word} (hup : s.hub.up .lnx = true) (hdown : s.hub.portDown (s.hub.lanePort l) = false) :
    Ends (.lnLoopWrite l v) s [] {Reg.LN_LOOP l} [.lnx] (fun t =>
      t.hub.rd (Reg.LN_LOOP l) = setBit (s.hub.rd (Reg.LN_LOOP l)) 2 (bit v 2) ∧ t.hub.raw .lnx 4 = true) := by
  have hwrite : s.hub.fresh.writeLoop l v = (s.hub.fresh.wrB (Reg.LN_LOOP l) 2 (bit v 2)).attn .lnx 4 :=
    if_neg (Bool.not_eq_true _ ▸ hdown)
  refine ends_effect (f := fun h => h.writeLoop l v) rfl hup hwrite
    (((Frame.refl _).wrB (Set.mem_singleton _)).attn List.mem_cons_self) ?_
  · refine ⟨?_, settle_raw_attn _ _ (by decide) (by decide)⟩
    rw [settle_rd, Hub.attn_rd, Hub.rd_wrB, if_pos rfl]
    rfl

end

/-- Settles O29: each clause is its command's effect on the lane, closed by `settle`, on the branch that its conditions choose. -/
theorem laneEvents : Obligations.LaneEvents :=
  ⟨fun _ _ _ hup hal hn hok => ends_lnSlip hup hal hn hok, fun _ _ _ hup hal hn hno => ends_lnSlip_refused hup hal hn hno,
    fun _ _ _ hup hal => ends_lnShWinWrite hup hal,
    fun s l n hup hal => ⟨ends_write (v := fun h => w32 (min n (h.shWin l) + 0x10000)) rfl (by simp [hup, hal]),
      ends_write (v := fun h => setBit (h.rd (Reg.LN_STAT l)) 16 true) rfl (by simp [hup, hal])⟩,
    fun _ _ hup hrate => ends_laneRelock hup hrate, fun _ _ _ hup hp => ends_ppmAlarm hup hp,
    fun _ _ _ hup hdown => ends_patCfgWrite_down hup hdown,
    fun _ _ _ hup hdown h5 h12 _ _ hchk => ends_patCfgWrite_up hup hdown h5 h12 hchk,
    fun _ _ _ hup hdown => ends_lnLoopWrite_down hup hdown, fun _ _ _ hup hdown _ => ends_lnLoopWrite_up hup hdown,
    fun _ _ hup => ⟨ends_injectOne hup, ends_patErrClr hup⟩, fun _ _ _ _ hup hchk => ends_checkerLock hup hchk,
    fun s l v n p hup => ⟨runs_act (f := fun h => h.writePatCfg l v) rfl hup, runs_act (f := fun h => h.writeLoop l v) rfl hup,
      runs_act (f := fun h => h.writeSlip l n.toNat) rfl hup, runs_act (f := fun h => h.ppmIn l p) rfl hup⟩⟩

end Sys2Proof.Machine
end

section
/-! SUPPORT. Mailbox operations: what one that gives its result at once ends in (R81). -/

namespace Sys2Proof.Machine

variable {h k : Hub} {ps : List Part} {rs : Set Nat} {bs : List Block} {b : Block}

theorem Hub.present_of_up (hup : h.up b = true) : h.present b = true := (Bool.and_eq_true_iff.mp hup).1

theorem Hub.runOp_done {op : Nat} {f : Hub → Hub × Option MbxResult} {r : MbxResult} (hp : h.present b = true) (hf : f h = done k r) :
    h.runOp b op f = k.opResult b op r := by
  unfold Hub.runOp
  rw [if_pos hp, hf]
  rfl

theorem Hub.opRunning_congr {op : Nat} (hp : k.power = h.power) (hm : k.mbx b = h.mbx b) : k.opRunning b op = h.opRunning b op := by
  unfold Hub.opRunning Hub.answers Hub.custodyUp
  rw [Hub.mainUp_congr hp, hp, hm]

/-- A request goes on running where a frame leaves its block's header and the power state alone. -/
theorem Frame.opRunning (a : Frame h k ps rs bs) (hp : Part.power ∉ ps) (hb : b ∉ bs) (op : Nat) : k.opRunning b op = h.opRunning b op :=
  Hub.opRunning_congr (a.part .power hp) (a.mbx hb)

section
variable {c : Instr} {s : State} {op : Nat} {f : Hub → Hub × Option MbxResult} {r : MbxResult} {Q : State → Prop}

/-- An operation that gives its result at once ends as its effect, with the result stored. -/
theorem ends_mbxDone (hexec : exec c s = mbxAct s b op f) (hrun : s.hub.opRunning b op = true) (hp : s.hub.present b = true)
    (hf : f s.hub.fresh = done k r) (hk : Frame s.hub.fresh k ps rs bs) (hb : b ∈ bs)
    (hq : Q { s with hub := settle s.hub (k.opResult b op r) }) : Ends c s ps rs bs Q :=
  ends_effect (f := fun h => h.runOp b op f) hexec hrun (Hub.runOp_done hp hf) (hk.opResult hb) hq

theorem settle_opResult (o : Hub) (hrun : k.opRunning b op = true) : ((settle o (k.opResult b op r)).mbx b).result = some r := by
  rw [settle_mbx, Hub.opResult_mbx hrun]

theorem runs_mbxAct (hexec : exec c s = mbxAct s b op f) (hrun : s.hub.opRunning b op = true) :
    Runs c s (settle s.hub (s.hub.fresh.runOp b op f)) :=
  runs_act (f := fun h => h.runOp b op f) hexec hrun

/-- An operation that only gives a result. -/
theorem ends_mbxRefused (hexec : exec c s = mbxAct s b op f) (hrun : s.hub.opRunning b op = true) (hp : s.hub.present b = true)
    (hf : f s.hub.fresh = done s.hub.fresh r) : Ends c s [] ∅ [b] (fun t => (t.hub.mbx b).result = some r) :=
  ends_mbxDone hexec hrun hp hf (Frame.refl _) List.mem_cons_self (settle_opResult s.hub (k := s.hub.fresh) hrun)

end

end Sys2Proof.Machine
end

section
/-! SUPPORT. The lane map by mailbox (R100, R113). -/

namespace Sys2Proof.Machine

variable {h k : Hub} {ps : List Part} {rs : Set Nat} {bs : List Block} {l c : Nat}

/-! ### Registers of the lane array -/

theorem Block.base_lnx : Block.lnx.base = 0x00800000 := rfl

theorem LN_STAT_mem_lnx (hl : l < 40) : Reg.LN_STAT l ∈ blockRegs .lnx := by
  refine ⟨?_, ?_⟩ <;> rw [Block.base_lnx] <;> unfold Reg.LN_STAT <;> omega

theorem LNX_PORT_MAP_mem_lnx (hc : c ≤ 15) : Reg.LNX_PORT_MAP c ∈ blockRegs .lnx := by
  refine ⟨?_, ?_⟩ <;> rw [Block.base_lnx] <;> unfold Reg.LNX_PORT_MAP <;> omega

/-- The registers of LNX's first page that a change of the map shows in lie below those of the lanes. -/
theorem LN_STAT_ne_page1 (l : Nat) {a : Nat} (ha : a < 0x00810000) : Reg.LN_STAT l ≠ a := by
  unfold Reg.LN_STAT
  omega

theorem LN_STAT_ne_PORT_MAP (l : Nat) (hc : c ≤ 15) : Reg.LN_STAT l ≠ Reg.LNX_PORT_MAP c :=
  LN_STAT_ne_page1 l (by unfold Reg.LNX_PORT_MAP; omega)

/-! ### Fields within fields -/

/-- The low part of a field, read after the field is set. -/
theorem fld_setFld_low (w : Word) {hi m lo v : Nat} (hm : m ≤ hi) (h : hi < 32) : fld (setFld w hi lo v) m lo = v % 2 ^ (m + 1 - lo) := by
  apply Nat.eq_of_testBit_eq
  intro i
  rw [testBit_fld, getLsbD_setFld, Nat.testBit_mod_two_pow]
  by_cases a : i < m + 1 - lo
  · have hin : lo + i < 32 ∧ lo ≤ lo + i ∧ lo + i < lo + (hi + 1 - lo) := by omega
    simp [a, hin]
  · simp [a]

/-! ### Steps of a change of the map -/

theorem Frame.parkLane (a : Frame h k ps rs bs) (hx : Reg.LN_STAT l ∈ rs) : Frame h (k.parkLane l) ps rs bs := a.wr hx

theorem Frame.freeLane (a : Frame h k ps rs bs) (hx : Reg.LN_STAT l ∈ rs) : Frame h (k.freeLane l) ps rs bs := (a.parkLane hx).wrF hx

theorem Frame.showSpares (a : Frame h k ps rs bs) (hr : blockRegs .lnx ⊆ rs) : Frame h k.showSpares ps rs bs :=
  (a.wr (hr (mem_blockRegs.mpr (by decide)))).wr (hr (mem_blockRegs.mpr (by decide)))

theorem Hub.showSpares_rd (h : Hub) {a : Nat} (hlo : a ≠ Reg.LNX_SPARE_LO) (hhi : a ≠ Reg.LNX_SPARE_HI) : h.showSpares.rd a = h.rd a :=
  (Hub.rd_wr_ne _ _ hhi).trans (Hub.rd_wr_ne _ _ hlo)

/-- The lanes of a list show a port and their logical lanes. -/
def Hub.nameLanes (h : Hub) (c : Nat) (es : List (Nat × Nat)) : Hub :=
  es.foldl (fun h e => if e.1 < 40 then h.wrF (Reg.LN_STAT e.1) 6 0 (c + 32 * e.2) else h) h

theorem Hub.placeLanes_eq (h : Hub) (c : Nat) (ls : List Nat) :
    h.placeLanes c ls = ((h.nameLanes c ls.zipIdx).wr (Reg.LNX_PORT_MAP c) (w32 (portMapWord ls))).showSpares := rfl

theorem Frame.nameLanes (a : Frame h k ps rs bs) (hr : laneStats ⊆ rs) (c : Nat) (es : List (Nat × Nat)) :
    Frame h (k.nameLanes c es) ps rs bs := by
  refine Frame.foldl _ a fun e j _ aj => ?_
  split
  · rename_i hl
    exact aj.wrF (hr (LN_STAT_mem_laneStats hl))
  · exact aj

theorem laneStats_subset_lnx : laneStats ⊆ blockRegs .lnx := by
  rintro _ ⟨l, hl, rfl⟩
  exact LN_STAT_mem_lnx hl

theorem Frame.placeLanes (a : Frame h k ps rs bs) (hr : blockRegs .lnx ⊆ rs) (hc : c ≤ 15) (ls : List Nat) :
    Frame h (k.placeLanes c ls) ps rs bs :=
  ((a.nameLanes (laneStats_subset_lnx.trans hr) _ _).wr (hr (LNX_PORT_MAP_mem_lnx hc))).showSpares hr

theorem Frame.setPortLanes (a : Frame h k ps rs bs) (hr : blockRegs .lnx ⊆ rs) (hc : c ≤ 15) (ls : List Nat) :
    Frame h (k.setPortLanes c ls) ps rs bs := by
  refine Frame.placeLanes (Frame.foldl _ (Frame.foldl _ a fun l j hl aj => ?_) fun l j hl aj => ?_) hr hc ls
  · exact aj.freeLane (hr (LN_STAT_mem_lnx (k.portLanes_lt (List.mem_filter.mp hl).1)))
  · have hlt : l < 40 := by
      have hand := (List.mem_filter.mp hl).2
      simp only [Bool.and_eq_true, decide_eq_true_eq] at hand
      exact hand.1
    have hx := hr (LN_STAT_mem_lnx hlt)
    exact ((aj.sitReleaseLane hx).parkLane hx).wrF hx

theorem Hub.placeLanes_map (h : Hub) (c : Nat) (ls : List Nat) : (h.placeLanes c ls).rd (Reg.LNX_PORT_MAP c) = w32 (portMapWord ls) := by
  rw [Hub.placeLanes_eq, Hub.showSpares_rd _ (by unfold Reg.LNX_PORT_MAP Reg.LNX_SPARE_LO; omega)
    (by unfold Reg.LNX_PORT_MAP Reg.LNX_SPARE_HI; omega)]
  exact Hub.rd_wr_self _ _ _

/-- PORT of a lane names the port once the lane is among those that are named. -/
theorem Hub.nameLanes_port {c : Nat} (hc : c ≤ 15) (hl : l < 40) (es : List (Nat × Nat)) {h : Hub}
    (he : (∃ i, (l, i) ∈ es) ∨ h.lanePort l = c) : (h.nameLanes c es).lanePort l = c := by
  induction es generalizing h with
  | nil => exact he.resolve_left (by simp)
  | cons e es ih =>
    obtain ⟨j, i⟩ := e
    refine ih ?_
    dsimp only
    by_cases hj : j = l
    · subst hj
      right
      rw [if_pos hl, Hub.lanePort, Hub.rdF, Hub.rd_wrF, if_pos rfl, fld_setFld_low _ (by decide) (by decide)]
      omega
    · have hother : (if j < 40 then h.wrF (Reg.LN_STAT j) 6 0 (c + 32 * i) else h).lanePort l = h.lanePort l := by
        split
        · unfold Hub.lanePort Hub.rdF
          rw [Hub.rd_wrF, if_neg (by unfold Reg.LN_STAT; omega)]
        · rfl
      rw [hother]
      exact he.imp_left fun ⟨n, hn⟩ => ⟨n, (List.mem_cons.mp hn).resolve_left fun e => hj (congrArg Prod.fst e).symm⟩

theorem Hub.placeLanes_port (h : Hub) {c : Nat} (hc : c ≤ 15) {ls : List Nat} (hl : l < 40) (hmem : l ∈ ls) :
    (h.placeLanes c ls).lanePort l = c := by
  obtain ⟨i, hi, rfl⟩ := List.getElem_of_mem hmem
  have hnamed : (h.nameLanes c ls.zipIdx).lanePort ls[i] = c :=
    Hub.nameLanes_port hc hl _ (.inl ⟨i, by simp [List.mem_zipIdx_iff_getElem?]⟩)
  unfold Hub.lanePort Hub.rdF at *
  rw [Hub.placeLanes_eq, Hub.showSpares_rd _ (LN_STAT_ne_page1 _ (by decide)) (LN_STAT_ne_page1 _ (by decide)),
    Hub.rd_wr_ne _ _ (LN_STAT_ne_PORT_MAP _ hc)]
  exact hnamed

/-! ### LANE_ASSIGN and LANE_RELEASE (R100) -/

theorem port_le_of_widthOk {w : Nat} (hw : widthOk c w = true) : c ≤ 15 := by
  by_contra hc
  unfold widthOk at hw
  rw [if_neg (by omega), if_neg (by omega), if_neg (by omega)] at hw
  exact Bool.false_ne_true hw

theorem Hub.laneAssign_of_free {ls : List Nat} (hc : c = (h.arg .lnx 0).toNat)
    (hls : ls = (List.range (h.arg .lnx 1).toNat).map (fun i => fld (h.arg .lnx 2) (8 * i + 5) (8 * i)))
    (hw : widthOk c (h.arg .lnx 1).toNat = true) (hnd : ls.Nodup) (hp : portPresent h.straps c = true) (hdown : h.portDown c = true)
    (hfree : ls.all (fun l => decide (l < 40) && h.laneFree l) = true) (hrefs : h.refsOk ls = true) :
    h.laneAssign = done (h.setPortLanes c ls) (mbxOk [w32 (portMapWord ls)]) := by
  simp only [List.all_eq_true, Bool.and_eq_true, decide_eq_true_eq] at hfree
  have hlanes : ls.any (fun l => decide (40 ≤ l)) = false :=
    List.any_eq_false.mpr fun l hl => by simpa using (hfree l hl).1
  have hheld : ls.any (fun l => !h.laneFree l) = false := List.any_eq_false.mpr fun l hl => by simpa using (hfree l hl).2
  unfold Hub.laneAssign
  simp only [← hc, ← hls, hw, hlanes, hnd, hp, hdown, hheld, hrefs, Bool.not_true, decide_true, Bool.or_self, Bool.false_eq_true,
    if_false]

section
variable {s : State}

theorem exec_laneAssign (s : State) : exec .laneAssign s = mbxAct s .lnx 0x10 Hub.laneAssign := rfl

theorem exec_laneRelease (s : State) : exec .laneRelease s = mbxAct s .lnx 0x11 Hub.laneReleaseOp := rfl

theorem exec_laneUnmap (lock : Bool) (e n : Word) (s : State) :
    exec (.laneUnmap lock e n) s = mbxAct s .lnx 0x13 fun h => h.laneUnmapOp lock e n := rfl

theorem ends_laneAssign {ls : List Nat} (hrun : s.hub.opRunning .lnx 0x10 = true) (hup : s.hub.up .lnx = true)
    (hw : widthOk c (s.hub.arg .lnx 1).toNat = true)
    (hassign : s.hub.fresh.laneAssign = done (s.hub.fresh.setPortLanes c ls) (mbxOk [w32 (portMapWord ls)]))
    (hlt : ∀ l ∈ ls, l < 40) :
    Ends .laneAssign s [] (blockRegs .lnx) [.lnx] (fun t =>
      t.hub.rd (Reg.LNX_PORT_MAP c) = w32 (portMapWord ls)
      ∧ (t.hub.mbx .lnx).result = some (mbxOk [w32 (portMapWord ls)]) ∧ ls.all (fun l => decide (t.hub.lanePort l = c)) = true) := by
  have hc := port_le_of_widthOk hw
  have hset : Frame s.hub.fresh (s.hub.fresh.setPortLanes c ls) [] (blockRegs .lnx) [] := (Frame.refl _).setPortLanes subset_rfl hc ls
  refine ends_mbxDone (exec_laneAssign s) hrun (Hub.present_of_up hup) hassign
    (hset.mono (List.Subset.refl _) subset_rfl (List.nil_subset _)) List.mem_cons_self ⟨?_, ?_, ?_⟩
  · rw [settle_rd, Hub.opResult_rd]
    exact Hub.placeLanes_map _ c ls
  · exact settle_opResult s.hub ((hset.opRunning List.not_mem_nil List.not_mem_nil _).trans hrun)
  · refine List.all_eq_true.mpr fun l hl => decide_eq_true ?_
    unfold Hub.lanePort
    rw [settle_rdF, Hub.rdF, Hub.opResult_rd]
    exact Hub.placeLanes_port _ hc (hlt l hl) hl

theorem Hub.laneReleaseOp_of_down (hc : c = (h.arg .lnx 0).toNat) (hle : c ≤ 15) (hp : portPresent h.straps c = true)
    (hdown : h.portDown c = true) :
    h.laneReleaseOp = done (h.setPortLanes c []) (mbxOk [h.rd (Reg.LNX_PORT_MAP c)]) := by
  unfold Hub.laneReleaseOp
  simp only [← hc]
  rw [if_neg (by omega), hp, hdown]
  rfl

theorem Hub.laneReleaseOp_of_up (hc : c = (h.arg .lnx 0).toNat) (hle : c ≤ 15) (hp : portPresent h.straps c = true)
    (hdown : h.portDown c = false) : h.laneReleaseOp = done h (mbxErr 0x81) := by
  unfold Hub.laneReleaseOp
  simp only [← hc]
  rw [if_neg (by omega), hp, hdown]
  rfl

theorem ends_laneRelease (hrun : s.hub.opRunning .lnx 0x11 = true) (hup : s.hub.up .lnx = true) (hc : c = (s.hub.arg .lnx 0).toNat)
    (hle : c ≤ 15) (hp : portPresent s.hub.straps c = true) (hdown : s.hub.portDown c = true) :
    Ends .laneRelease s [] (blockRegs .lnx) [.lnx] (fun t =>
      t.hub.portLanes c = [] ∧ (t.hub.mbx .lnx).result = some (mbxOk [s.hub.rd (Reg.LNX_PORT_MAP c)])) := by
  have hset : Frame s.hub.fresh (s.hub.fresh.setPortLanes c []) [] (blockRegs .lnx) [] := (Frame.refl _).setPortLanes subset_rfl hle []
  refine ends_mbxDone (exec_laneRelease s) hrun (Hub.present_of_up hup) (Hub.laneReleaseOp_of_down (h := s.hub.fresh) hc hle hp hdown)
    (hset.mono (List.Subset.refl _) subset_rfl (List.nil_subset _)) List.mem_cons_self ⟨?_, ?_⟩
  · unfold Hub.portLanes Hub.portMap
    rw [settle_rd, Hub.opResult_rd, show (s.hub.fresh.setPortLanes c []).rd (Reg.LNX_PORT_MAP c) = _ from Hub.placeLanes_map _ c []]
    rfl
  · exact settle_opResult s.hub ((hset.opRunning List.not_mem_nil List.not_mem_nil _).trans hrun)

/-! ### LANE_UNMAP (R113) -/

/-- The repair map with the records of a lane marked CLEARED. -/
def clearedFor (l : Nat) (m : List RepairRec) : List RepairRec :=
  m.map fun r => if r.kind = 2 ∧ r.res = l then { r with cleared := true } else r

/-- A lane is no longer mapped out. -/
def Hub.laneBack (h : Hub) (l : Nat) : Hub :=
  let h := h.wrB (Reg.LN_STAT l) 7 false
  if l < 32 then h.wrB Reg.LNX_REPAIR_MAP_LO l false else h.wrB Reg.LNX_REPAIR_MAP_HI (l - 32) false

/-- A mapped-out lane returns, with its records marked. -/
def Hub.laneReturned (h : Hub) (l : Nat) : Hub :=
  (({ h.laneBack l with repairMap := clearedFor l h.repairMap } : Hub).attn .sit 3).showSpares

theorem Hub.laneBack_frame (h : Hub) (hl : l < 40) : Frame h (h.laneBack l) [] (blockRegs .lnx) [] := by
  have hstat : Frame h (h.wrB (Reg.LN_STAT l) 7 false) [] (blockRegs .lnx) [] := (Frame.refl h).wrB (LN_STAT_mem_lnx hl)
  exact Frame.ite (hstat.wrB (mem_blockRegs.mpr (by decide))) (hstat.wrB (mem_blockRegs.mpr (by decide)))

theorem Hub.laneBack_out (h : Hub) (l : Nat) : (h.laneBack l).rdB (Reg.LN_STAT l) 7 = false := by
  have hrd : (h.laneBack l).rd (Reg.LN_STAT l) = setBit (h.rd (Reg.LN_STAT l)) 7 false := by
    unfold Hub.laneBack
    dsimp only
    split <;> rw [Hub.rd_wrB, if_neg (LN_STAT_ne_page1 l (by decide)), Hub.rd_wrB, if_pos rfl]
  rw [Hub.rdB, hrd, bit_setBit _ _ _ _ (by decide), if_pos rfl]

theorem Hub.laneBack_repairMap (h : Hub) (hl : l < 40) : (h.laneBack l).repairMap = h.repairMap :=
  (h.laneBack_frame hl).part .repairMap List.not_mem_nil

theorem Hub.laneReturned_frame (h : Hub) (hl : l < 40) : Frame h (h.laneReturned l) [.repairMap] (blockRegs .lnx) [.sit] := by
  have hback : Frame h (h.laneBack l) [.repairMap] (blockRegs .lnx) [.sit] :=
    (h.laneBack_frame hl).mono (List.nil_subset _) subset_rfl (List.nil_subset _)
  refine Frame.showSpares (Frame.attn (hback.upd rfl rfl rfl fun p hp => ?_) List.mem_cons_self) subset_rfl
  cases p <;> first | exact absurd List.mem_cons_self hp | rfl

theorem Hub.showSpares_raw (h : Hub) (b : Block) (i : Nat) : h.showSpares.raw b i = h.raw b i := rfl

theorem Hub.laneReturned_raw (h : Hub) (l : Nat) : (h.laneReturned l).raw .sit 3 = true := by
  rw [Hub.laneReturned, Hub.showSpares_raw]
  exact Hub.raw_attn_self _ _ (by decide)

theorem Hub.laneReturned_repairMap (h : Hub) (l : Nat) : (h.laneReturned l).repairMap = clearedFor l h.repairMap := rfl

theorem Hub.laneUnmapOp_of_good {e n : Word} (hl : l = (h.arg .lnx 0).toNat) (hlt : l < 40) (hout : h.laneOut l = true)
    (he : e.toNat ≤ h.rdF Reg.SIT_LANE_CFG 31 16) : h.laneUnmapOp true e n = done (h.laneReturned l) (mbxOk [e, n]) := by
  have hmap := h.laneBack_repairMap hlt
  unfold Hub.laneUnmapOp
  simp only [← hl]
  rw [if_neg (by omega), hout, if_neg (by decide), if_pos (by simpa using he), Hub.laneReturned, ← hmap]
  rfl

theorem Hub.laneUnmapOp_of_bad {e n : Word} (hl : l = (h.arg .lnx 0).toNat) (hlt : l < 40) (hout : h.laneOut l = true) :
    h.laneUnmapOp false e n = done h { err := 0x85, data := [e, n] } := by
  unfold Hub.laneUnmapOp
  simp only [← hl]
  rw [if_neg (by omega), hout, if_neg (by decide), if_neg (by simp)]

theorem ends_laneUnmap {e n : Word} (hrun : s.hub.opRunning .lnx 0x13 = true) (hup : s.hub.up .lnx = true)
    (hl : l = (s.hub.arg .lnx 0).toNat) (hlt : l < 40) (hout : s.hub.laneOut l = true) (he : e.toNat ≤ s.hub.rdF Reg.SIT_LANE_CFG 31 16) :
    Ends (.laneUnmap true e n) s [.repairMap] (blockRegs .lnx) [.lnx, .sit] (fun t =>
      t.hub.laneOut l = false ∧ t.hub.raw .sit 3 = true ∧ (t.hub.mbx .lnx).result = some (mbxOk [e, n])
      ∧ t.hub.repairMap = s.hub.repairMap.map (fun r => if r.kind = 2 ∧ r.res = l then { r with cleared := true } else r)) := by
  have hreturn := s.hub.fresh.laneReturned_frame hlt
  refine ends_mbxDone (exec_laneUnmap true e n s) hrun (Hub.present_of_up hup) (Hub.laneUnmapOp_of_good (h := s.hub.fresh) hl hlt hout he)
    (hreturn.mono (List.Subset.refl _) subset_rfl (by simp)) List.mem_cons_self ⟨?_, ?_, ?_, ?_⟩
  · rw [Hub.laneOut, settle_rdB, Hub.rdB, Hub.opResult_rd, Hub.laneReturned,
      Hub.showSpares_rd _ (LN_STAT_ne_page1 l (by decide)) (LN_STAT_ne_page1 l (by decide))]
    exact s.hub.fresh.laneBack_out l
  · rw [settle_raw _ _ _ _ (.inl (by decide)), Hub.opResult_raw]
    exact s.hub.fresh.laneReturned_raw l
  · exact settle_opResult s.hub ((hreturn.opRunning (by decide) (by decide) _).trans hrun)
  · rw [settle_repairMap]
    exact ((Hub.opResult_frame _ _ _ _).part .repairMap List.not_mem_nil).trans (s.hub.fresh.laneReturned_repairMap l)

end

/-- Settles O28: each clause is the mailbox's runner on the operation's branch that its conditions choose. -/
theorem laneMap : Obligations.LaneMap := by
  refine ⟨?assign, fun s hrun hup hw => ?width, fun s c hrun hup hc hle hp hdown => ends_laneRelease hrun hup hc hle hp hdown,
    fun s c hrun hup hc hle hp hdown => ends_mbxRefused (exec_laneRelease s) hrun (Hub.present_of_up hup)
      (Hub.laneReleaseOp_of_up (h := s.hub.fresh) hc hle hp hdown),
    fun s l e n hrun hup hl hlt hout he => ends_laneUnmap hrun hup hl hlt hout he,
    fun s l e n hrun hup hl hlt hout => ends_mbxRefused (exec_laneUnmap false e n s) hrun (Hub.present_of_up hup)
      (Hub.laneUnmapOp_of_bad (h := s.hub.fresh) hl hlt hout),
    fun s hrun => runs_mbxAct (exec_laneAssign s) hrun, fun s hrun => runs_mbxAct (exec_laneRelease s) hrun,
    fun s lock e n hrun => runs_mbxAct (exec_laneUnmap lock e n s) hrun⟩
  case assign =>
    intro s c ls hrun hup hc hls hw hnd hp hdown hfree hrefs _
    refine ends_laneAssign hrun hup hw (Hub.laneAssign_of_free (h := s.hub.fresh) hc hls hw hnd hp hdown hfree hrefs) fun l hl => ?_
    have hboth := List.all_eq_true.mp hfree l hl
    simp only [Bool.and_eq_true, decide_eq_true_eq] at hboth
    exact hboth.1
  case width =>
    refine ends_mbxRefused (exec_laneAssign s) hrun (Hub.present_of_up hup) (if_pos ?_)
    rw [show widthOk (s.hub.fresh.arg .lnx 0).toNat (s.hub.fresh.arg .lnx 1).toNat = false from hw]
    rfl

end Sys2Proof.Machine
end

section
/-! SUPPORT. Links of the display engine (R105, R305, R317, R319): what a link that comes up or is lost changes. -/

namespace Sys2Proof.Machine

variable {h k : Hub} {ps : List Part} {rs : Set Nat} {bs : List Block} {o : Nat}

/-! ### Mailboxes across events and faults -/

theorem Hub.setHdr_mbx (h : Hub) {b : Block} {x : Hdr} (hx : x.mbx = h.mbx b) (c : Block) : (h.setHdr b x).mbx c = h.mbx c := by
  unfold Hub.mbx
  rw [Hub.hdr_setHdr]
  split
  · rename_i hc; subst hc; exact hx
  · rfl

@[simp] theorem Hub.attn_mbx (h : Hub) (b : Block) (i : Nat) (c : Block) : (h.attn b i).mbx c = h.mbx c :=
  h.setHdr_mbx (by exact rfl) c

@[simp] theorem Hub.setLive_mbx (h : Hub) (b : Block) (i : Nat) (v : Bool) (c : Block) : (h.setLive b i v).mbx c = h.mbx c :=
  h.setHdr_mbx (by exact rfl) c

@[simp] theorem Hub.faultPulse_mbx (h : Hub) (c : Block) : h.faultPulse.mbx c = h.mbx c := by
  unfold Hub.faultPulse
  exact Hub.attn_mbx _ _ _ c

@[simp] theorem Hub.fault_mbx (h : Hub) (b : Block) (i : Nat) (c : Block) : (h.fault b i).mbx c = h.mbx c := by
  unfold Hub.fault
  dsimp only
  split
  · rw [Hub.faultPulse_mbx]
    exact h.setHdr_mbx (by exact rfl) c
  · exact h.setHdr_mbx (by exact rfl) c

theorem Hub.Steady.raw {b : Block} {i : Nat} (a : Hub.Steady b h k) (hraw : h.raw b i = true) : k.raw b i = true := a.hdr.raised i hraw

/-! ### Outputs and inputs -/

theorem Frame.withDse {x : Dse} (a : Frame h k ps rs bs) (hp : Part.dse ∈ ps) : Frame h { k with dse := x } ps rs bs :=
  a.upd rfl rfl rfl fun p hp' => by cases p <;> first | exact absurd hp hp' | rfl

theorem Frame.updDpOut {f : DpOut → DpOut} (a : Frame h k ps rs bs) (hp : Part.dse ∈ ps) (hx : Reg.DO_FIFO o ∈ rs) :
    Frame h (k.updDpOut o f) ps rs bs := (a.withDse hp).wrF hx

theorem Frame.updDpIn {f : DpIn → DpIn} (a : Frame h k ps rs bs) (hp : Part.dse ∈ ps) : Frame h (k.updDpIn o f) ps rs bs := a.withDse hp

theorem Hub.dpOut_updDpOut_self (h : Hub) (o : Nat) (f : DpOut → DpOut) : (h.updDpOut o f).dpOut o = f (h.dpOut o) :=
  (Tab.get_set _ _ _ _ _).trans (if_pos rfl)

theorem Hub.dpIn_updDpIn_self (h : Hub) (o : Nat) (f : DpIn → DpIn) : (h.updDpIn o f).dpIn o = f (h.dpIn o) :=
  (Tab.get_set _ _ _ _ _).trans (if_pos rfl)

theorem Hub.dpOut_congr (hd : k.dse = h.dse) (o : Nat) : k.dpOut o = h.dpOut o := by rw [Hub.dpOut, hd, Hub.dpOut]

theorem Hub.dpIn_congr (hd : k.dse = h.dse) (o : Nat) : k.dpIn o = h.dpIn o := by rw [Hub.dpIn, hd, Hub.dpIn]

/-! ### Rates and lanes -/

theorem Frame.rateReport {t r : Nat} (a : Frame h k ps rs bs) (hb : Reg.TS_BYTE_TIME t ∈ rs) (hc : Reg.TS_CAP t ∈ rs) :
    Frame h (k.rateReport t r) ps rs bs := Frame.ite ((a.wrF hb).wrF hc) ((a.wrF hb).wrF hc)

theorem Hub.rateReport_cap (h : Hub) (t r : Nat) : (h.rateReport t r).rdF (Reg.TS_CAP t) 20 0 = r % 2 ^ 21 := by
  unfold Hub.rateReport
  split
  · rename_i hr
    rw [Hub.rdF, Hub.rd_wrF, if_pos rfl, fld_setFld _ _ _ _ (by decide), hr]
  · rw [Hub.rdF, Hub.rd_wrF, if_pos rfl, fld_setFld _ _ _ _ (by decide)]

theorem Frame.updLanes {c : Nat} {f : Word → Word} (a : Frame h k ps rs bs) (hr : blockRegs .lnx ⊆ rs) :
    Frame h (k.updLanes c f) ps rs bs :=
  Frame.foldl _ a fun _ _ hl aj => aj.wr (hr (LN_STAT_mem_lnx (k.portLanes_lt hl)))

theorem Frame.edgeRate {c r : Nat} (a : Frame h k ps rs bs) (hr : blockRegs .lnx ⊆ rs) : Frame h (k.edgeRate c r) ps rs bs :=
  Frame.updLanes (Frame.foldl _ a fun _ _ hl aj => aj.sitReleaseLane (hr (LN_STAT_mem_lnx (k.portLanes_lt hl)))) hr

theorem Frame.edgeLocked {c : Nat} (a : Frame h k ps rs bs) (hr : blockRegs .lnx ⊆ rs) : Frame h (k.edgeLocked c) ps rs bs :=
  a.updLanes hr

theorem Frame.dpIdle (a : Frame h k ps rs bs) (hr : blockRegs .lnx ⊆ rs) (o : Nat) : Frame h (k.dpIdle o) ps rs bs :=
  a.edgeIdle (laneStats_subset_lnx.trans hr) _ _

/-- The blocks after the lane array hold none of its registers. -/
theorem notMem_lnx {a : Nat} (ha : 0x00900000 ≤ a) : a ∉ blockRegs .lnx := by
  rintro ⟨-, hlt⟩
  rw [Block.base_lnx] at hlt
  omega

/-! ### LINK_LOST (R317, R319) -/

theorem Hub.dpLive_live (h : Hub) (ho : o < 2) (hlost : (h.dpOut o).lost = true ∨ (h.dpIn o).lost = true) :
    bit (h.dpLive.hdr .dse).live 1 = true := by
  rw [Hub.dpLive, Hub.setLive_live_self _ _ (by decide)]
  exact List.any_eq_true.mpr ⟨o, List.mem_range.mpr ho, Bool.or_eq_true_iff.mpr hlost⟩

theorem Frame.dpLive (a : Frame h k ps rs bs) (hb : Block.dse ∈ bs) : Frame h k.dpLive ps rs bs := a.setLive hb

/-- The attention and the fault of a lost link of output or input `o`. -/
def Hub.linkLost (h : Hub) (o : Nat) : Hub := ((h.attn .dse (8 * o + 7)).fault .dse 1).dpLive

theorem Frame.linkLost (a : Frame h k ps rs bs) (hp : Part.pins ∈ ps) (hr : Reg.SIT_FAULTN_CNT ∈ rs) (hd : Block.dse ∈ bs)
    (hs : Block.sit ∈ bs) : Frame h (k.linkLost o) ps rs bs := ((a.attn hd).fault hd hp hr hs).dpLive hd

@[simp] theorem Hub.linkLost_mbx (h : Hub) (o : Nat) (c : Block) : (h.linkLost o).mbx c = h.mbx c := by
  simp only [Hub.linkLost, Hub.dpLive, Hub.setLive_mbx, Hub.fault_mbx, Hub.attn_mbx]

theorem Hub.linkLost_rd (h : Hub) (o : Nat) {a : Nat} (ha : a ≠ Reg.SIT_FAULTN_CNT) : (h.linkLost o).rd a = h.rd a := by
  have hlost : Frame h (h.linkLost o) [.pins] {Reg.SIT_FAULTN_CNT} [.dse, .sit] :=
    (Frame.refl h).linkLost (by decide) rfl (by decide) (by decide)
  exact hlost.reg a ha

theorem Hub.linkLost_raw (h : Hub) (ho : o < 2) : (h.linkLost o).raw .dse (8 * o + 7) = true :=
  ((Hub.Steady.refl _).fault.dpLive (h := h.attn .dse (8 * o + 7))).raw (Hub.raw_attn_self _ _ (by omega))

theorem Hub.linkLost_sticky (h : Hub) (o : Nat) : bit ((h.linkLost o).hdr .dse).sticky 1 = true := by
  rw [Hub.linkLost, Hub.dpLive, Hub.setLive_sticky]
  exact Hub.fault_sticky_self _ _ (by decide)

theorem Hub.linkLost_live (h : Hub) (ho : o < 2) (hlost : (h.dpOut o).lost = true ∨ (h.dpIn o).lost = true) :
    bit ((h.linkLost o).hdr .dse).live 1 = true := by
  have hd : ((h.attn .dse (8 * o + 7)).fault .dse 1).dse = h.dse :=
    ((h.attn .dse (8 * o + 7)).fault_frame .dse 1).part .dse (by decide)
  refine Hub.dpLive_live _ ho ?_
  rwa [Hub.dpOut_congr hd, Hub.dpIn_congr hd]

/-! ### An output's link (R317) -/

/-- The registers and lanes of an output that its link's state shows in, DO_STAT apart. -/
def outLinkRegs (o : Nat) : Set Nat := {Reg.DO_FIFO o, Reg.TS_BYTE_TIME (0x0E + o), Reg.TS_CAP (0x0E + o)} ∪ blockRegs .lnx

theorem lnx_subset_outLink (o : Nat) : blockRegs .lnx ⊆ outLinkRegs o := Set.subset_union_right

theorem DO_FIFO_mem_outLink (o : Nat) : Reg.DO_FIFO o ∈ outLinkRegs o := .inl (by simp)

theorem TS_BYTE_TIME_mem_outLink (o : Nat) : Reg.TS_BYTE_TIME (0x0E + o) ∈ outLinkRegs o := .inl (by simp)

theorem TS_CAP_mem_outLink (o : Nat) : Reg.TS_CAP (0x0E + o) ∈ outLinkRegs o := .inl (by simp)

theorem DO_STAT_notMem_outLink (ho : o < 2) : Reg.DO_STAT o ∉ outLinkRegs o := by
  rintro (hmem | hmem)
  · simp only [Set.mem_insert_iff, Set.mem_singleton_iff] at hmem
    unfold Reg.DO_STAT Reg.DO_FIFO Reg.TS_BYTE_TIME Reg.TS_CAP at hmem
    omega
  · exact notMem_lnx (by unfold Reg.DO_STAT; omega) hmem

theorem DO_STAT_ne_FAULTN (ho : o < 2) : Reg.DO_STAT o ≠ Reg.SIT_FAULTN_CNT := by
  unfold Reg.DO_STAT Reg.SIT_FAULTN_CNT
  omega

theorem TS_CAP_ne_FAULTN (ho : o < 2) : Reg.TS_CAP (0x0E + o) ≠ Reg.SIT_FAULTN_CNT := by
  unfold Reg.TS_CAP Reg.SIT_FAULTN_CNT
  omega

theorem TS_CAP_notMem_lnx (t : Nat) : Reg.TS_CAP t ∉ blockRegs .lnx := notMem_lnx (by unfold Reg.TS_CAP; omega)

/-- An output's link is down and its lanes idle, before LINK_LOST. -/
def Hub.outDown (h : Hub) (o : Nat) : Hub :=
  (((h.wrB (Reg.DO_STAT o) 16 false).updDpOut o fun x => { x with trained := false, lost := true }).dpReport o 0).dpIdle o

theorem Hub.dpLinkDown_of_up (hup : h.rdB (Reg.DO_STAT o) 16 = true) : h.dpLinkDown o = (h.outDown o).linkLost o := if_pos hup

theorem Hub.dpLinkDown_of_down (hdown : h.rdB (Reg.DO_STAT o) 16 = false) : h.dpLinkDown o = h := if_neg (Bool.not_eq_true _ ▸ hdown)

theorem Hub.outDown_after (h : Hub) (o : Nat) :
    Frame (h.wrB (Reg.DO_STAT o) 16 false) (h.outDown o) [.dse] (outLinkRegs o) [] :=
  (((Frame.refl _).updDpOut List.mem_cons_self (DO_FIFO_mem_outLink o)).rateReport (TS_BYTE_TIME_mem_outLink o)
    (TS_CAP_mem_outLink o)).dpIdle (lnx_subset_outLink o) o

theorem Hub.outDown_frame (h : Hub) (o : Nat) : Frame h (h.outDown o) [.dse] ({Reg.DO_STAT o} ∪ outLinkRegs o) [] :=
  ((Frame.refl h).wrB (Set.mem_union_left _ (Set.mem_singleton _))).trans
    ((h.outDown_after o).mono (List.Subset.refl _) Set.subset_union_right (List.Subset.refl _))

theorem Hub.outDown_stat (h : Hub) (ho : o < 2) : (h.outDown o).rd (Reg.DO_STAT o) = setBit (h.rd (Reg.DO_STAT o)) 16 false := by
  rw [(h.outDown_after o).reg (Reg.DO_STAT o) (DO_STAT_notMem_outLink ho), Hub.rd_wrB, if_pos rfl]

theorem Hub.outDown_cap (h : Hub) (o : Nat) : (h.outDown o).rdF (Reg.TS_CAP (0x0E + o)) 20 0 = 0 := by
  refine ((Frame.refl _).dpIdle (rs := blockRegs .lnx) (ps := []) (bs := []) subset_rfl o).rdF (TS_CAP_notMem_lnx _) 20 0 |>.trans ?_
  exact Hub.rateReport_cap _ _ 0

theorem Hub.dpIdle_dse (h : Hub) (o : Nat) : (h.dpIdle o).dse = h.dse :=
  ((Frame.refl h).dpIdle (rs := blockRegs .lnx) (ps := []) (bs := []) subset_rfl o).part .dse List.not_mem_nil

theorem Hub.dpReport_dse (h : Hub) (o r : Nat) : (h.dpReport o r).dse = h.dse := by
  unfold Hub.dpReport Hub.rateReport
  split <;> rfl

theorem Hub.outDown_lost (h : Hub) (o : Nat) : ((h.outDown o).dpOut o).lost = true := by
  rw [Hub.outDown, Hub.dpOut_congr ((Hub.dpIdle_dse _ o).trans (Hub.dpReport_dse _ _ _)), Hub.dpOut_updDpOut_self]

theorem Frame.dpLinkDown (a : Frame h k ps rs bs) (hd : Part.dse ∈ ps) (hp : Part.pins ∈ ps)
    (hr : {Reg.DO_STAT o, Reg.SIT_FAULTN_CNT} ∪ outLinkRegs o ⊆ rs) (hb : Block.dse ∈ bs) (hs : Block.sit ∈ bs) :
    Frame h (k.dpLinkDown o) ps rs bs := by
  have hout : {Reg.DO_STAT o} ∪ outLinkRegs o ⊆ rs :=
    (Set.union_subset_union_left _ (Set.singleton_subset_iff.mpr (Set.mem_insert _ _))).trans hr
  cases hup : k.rdB (Reg.DO_STAT o) 16
  · rwa [Hub.dpLinkDown_of_down hup]
  · rw [Hub.dpLinkDown_of_up hup]
    exact (a.trans ((k.outDown_frame o).mono (by simpa using hd) hout (List.nil_subset _))).linkLost hp (hr (by simp)) hb hs

theorem Hub.dpLinkDown_mbx (h : Hub) (o : Nat) (c : Block) : (h.dpLinkDown o).mbx c = h.mbx c := by
  cases hup : h.rdB (Reg.DO_STAT o) 16
  · rw [Hub.dpLinkDown_of_down hup]
  · rw [Hub.dpLinkDown_of_up hup, Hub.linkLost_mbx, (h.outDown_frame o).mbx List.not_mem_nil]

theorem Hub.dpLinkDown_stat (h : Hub) (ho : o < 2) :
    (h.dpLinkDown o).rd (Reg.DO_STAT o) = setBit (h.rd (Reg.DO_STAT o)) 16 false := by
  cases hup : h.rdB (Reg.DO_STAT o) 16
  · rw [Hub.dpLinkDown_of_down hup, setBit_self (by decide) hup]
  · rw [Hub.dpLinkDown_of_up hup, Hub.linkLost_rd _ _ (DO_STAT_ne_FAULTN ho), h.outDown_stat ho]

theorem Hub.dpLinkDown_cap (ho : o < 2) (hup : h.rdB (Reg.DO_STAT o) 16 = true) :
    (h.dpLinkDown o).rdF (Reg.TS_CAP (0x0E + o)) 20 0 = 0 := by
  rw [Hub.dpLinkDown_of_up hup, Hub.rdF, Hub.linkLost_rd _ _ (TS_CAP_ne_FAULTN ho)]
  exact h.outDown_cap o

/-- The registers of an output that show a trained link. -/
def Hub.trainedStat (h : Hub) (o lanes rate : Nat) (async : Bool) : Hub :=
  (((h.wrB (Reg.DO_STAT o) 16 true).wrB (Reg.DO_STAT o) 18 async).wrF (Reg.DO_STAT o) 21 19 lanes).wrF (Reg.DO_STAT o) 25 22 rate

/-- An output shows its trained link and reports its rate (R305). -/
def Hub.outTrained (h : Hub) (o lanes rate : Nat) (async : Bool) : Hub :=
  ((h.trainedStat o lanes rate async).updDpOut o fun x => { x with trained := true, lost := false }).dpReport o (dpPayload lanes rate)

/-- An output's link is up and its lanes locked, before its attention. -/
def Hub.outUp (h : Hub) (o lanes rate : Nat) (async : Bool) : Hub :=
  (((h.outTrained o lanes rate async).edgeRate (0x0E + o) rate).dpIdle o).edgeLocked (0x0E + o)

theorem Hub.dpLinkUp_eq (h : Hub) (o lanes rate : Nat) (async : Bool) :
    h.dpLinkUp o lanes rate async = ((h.outUp o lanes rate async).attn .dse (8 * o + 7)).dpLive := rfl

section
variable {lanes rate : Nat} {async : Bool}

theorem Hub.trainedStat_frame (h : Hub) : Frame h (h.trainedStat o lanes rate async) [] {Reg.DO_STAT o} [] :=
  ((((Frame.refl h).wrB (Set.mem_singleton _)).wrB (Set.mem_singleton _)).wrF (Set.mem_singleton _)).wrF (Set.mem_singleton _)

theorem Hub.trainedStat_rd (h : Hub) : (h.trainedStat o lanes rate async).rd (Reg.DO_STAT o) =
    setFld (setFld (setBit (setBit (h.rd (Reg.DO_STAT o)) 16 true) 18 async) 21 19 lanes) 25 22 rate := by
  simp only [Hub.trainedStat, Hub.rd_wrF, Hub.rd_wrB, if_true]

theorem Hub.outUp_after (h : Hub) : Frame (h.trainedStat o lanes rate async) (h.outUp o lanes rate async) [.dse] (outLinkRegs o) [] :=
  (((((Frame.refl _).updDpOut List.mem_cons_self (DO_FIFO_mem_outLink o)).rateReport (TS_BYTE_TIME_mem_outLink o)
    (TS_CAP_mem_outLink o)).edgeRate (lnx_subset_outLink o)).dpIdle (lnx_subset_outLink o) o).edgeLocked (lnx_subset_outLink o)

theorem Frame.dpLinkUp (a : Frame h k ps rs bs) (hd : Part.dse ∈ ps) (hr : {Reg.DO_STAT o} ∪ outLinkRegs o ⊆ rs)
    (hb : Block.dse ∈ bs) : Frame h (k.dpLinkUp o lanes rate async) ps rs bs := by
  have hstat := k.trainedStat_frame (o := o) (lanes := lanes) (rate := rate) (async := async)
  have hup := hstat.mono (List.nil_subset _) (Set.subset_union_left.trans hr) (List.nil_subset bs) |>.trans
    (k.outUp_after.mono (by simpa using hd) (Set.subset_union_right.trans hr) (List.nil_subset _))
  rw [Hub.dpLinkUp_eq]
  exact ((a.trans hup).attn hb).dpLive hb

theorem Hub.dpLinkUp_mbx (h : Hub) (c : Block) : (h.dpLinkUp o lanes rate async).mbx c = h.mbx c := by
  rw [Hub.dpLinkUp_eq, Hub.dpLive, Hub.setLive_mbx, Hub.attn_mbx, h.outUp_after.mbx List.not_mem_nil,
    h.trainedStat_frame.mbx List.not_mem_nil]

theorem Hub.dpLinkUp_stat (h : Hub) (ho : o < 2) : (h.dpLinkUp o lanes rate async).rd (Reg.DO_STAT o) =
    setFld (setFld (setBit (setBit (h.rd (Reg.DO_STAT o)) 16 true) 18 async) 21 19 lanes) 25 22 rate := by
  rw [Hub.dpLinkUp_eq, Hub.dpLive, Hub.setLive_rd, Hub.attn_rd, h.outUp_after.reg (Reg.DO_STAT o) (DO_STAT_notMem_outLink ho),
    Hub.trainedStat_rd]

theorem Hub.dpLinkUp_link (h : Hub) (ho : o < 2) : (h.dpLinkUp o lanes rate async).rdB (Reg.DO_STAT o) 16 = true := by
  rw [Hub.rdB, h.dpLinkUp_stat ho, bit_setFld_ne _ _ _ _ _ (by decide), bit_setFld_ne _ _ _ _ _ (by decide),
    bit_setBit _ _ _ _ (by decide), if_neg (by decide), bit_setBit _ _ _ _ (by decide), if_pos rfl]

theorem Hub.dpLinkUp_async (h : Hub) (ho : o < 2) : (h.dpLinkUp o lanes rate async).rdB (Reg.DO_STAT o) 18 = async := by
  rw [Hub.rdB, h.dpLinkUp_stat ho, bit_setFld_ne _ _ _ _ _ (by decide), bit_setFld_ne _ _ _ _ _ (by decide),
    bit_setBit _ _ _ _ (by decide), if_pos rfl]

theorem Hub.dpLinkUp_lanes (h : Hub) (ho : o < 2) : (h.dpLinkUp o lanes rate async).rdF (Reg.DO_STAT o) 21 19 = lanes % 2 ^ (21 + 1 - 19) := by
  rw [Hub.rdF, h.dpLinkUp_stat ho, fld_setFld_ne _ _ _ _ _ _ (by decide), fld_setFld _ _ _ _ (by decide)]

theorem Hub.dpLinkUp_rate (h : Hub) (ho : o < 2) : (h.dpLinkUp o lanes rate async).rdF (Reg.DO_STAT o) 25 22 = rate % 2 ^ (25 + 1 - 22) := by
  rw [Hub.rdF, h.dpLinkUp_stat ho, fld_setFld _ _ _ _ (by decide)]

theorem Hub.dpLinkUp_raw (h : Hub) (ho : o < 2) : (h.dpLinkUp o lanes rate async).raw .dse (8 * o + 7) = true :=
  ((Hub.Steady.refl _).dpLive (h := (h.outUp o lanes rate async).attn .dse (8 * o + 7))).raw (Hub.raw_attn_self _ _ (by omega))

theorem Hub.dpLinkUp_cap (h : Hub) :
    (h.dpLinkUp o lanes rate async).rdF (Reg.TS_CAP (0x0E + o)) 20 0 = dpPayload lanes rate % 2 ^ 21 := by
  have hlanes : Frame (h.outTrained o lanes rate async) (h.outUp o lanes rate async) [] (blockRegs .lnx) [] :=
    (((Frame.refl _).edgeRate subset_rfl).dpIdle subset_rfl o).edgeLocked subset_rfl
  rw [Hub.dpLinkUp_eq, Hub.rdF, Hub.dpLive, Hub.setLive_rd, Hub.attn_rd, hlanes.reg _ (TS_CAP_notMem_lnx _)]
  exact Hub.rateReport_cap _ _ _

end

/-! ### An input's link (R318, R319) -/

theorem DI_STAT_notMem_lnx (i : Nat) : Reg.DI_STAT i ∉ blockRegs .lnx := notMem_lnx (by unfold Reg.DI_STAT; omega)

theorem DI_STAT_ne_DI_FMT (i j : Nat) : Reg.DI_STAT i ≠ Reg.DI_FMT j := by
  unfold Reg.DI_STAT Reg.DI_FMT
  omega

theorem DI_STAT_ne_FAULTN {i : Nat} (hi : i < 2) : Reg.DI_STAT i ≠ Reg.SIT_FAULTN_CNT := by
  unfold Reg.DI_STAT Reg.SIT_FAULTN_CNT
  omega

/-- An input shows that its link is down. -/
def Hub.downStat (h : Hub) (i : Nat) : Hub :=
  ((h.wrB (Reg.DI_STAT i) 7 false).wrB (Reg.DI_STAT i) 8 false).wrF (Reg.DI_FMT i) 7 0 0xFF

/-- An input's link is down and its lanes idle, before LINK_LOST. -/
def Hub.inDown (h : Hub) (i : Nat) : Hub := ((h.downStat i).updDpIn i fun x => { x with lost := true }).dpIdle i

theorem Hub.dpInDown_eq (h : Hub) (i : Nat) : h.dpInDown i = (h.inDown i).linkLost i := rfl

theorem Hub.downStat_frame (h : Hub) (i : Nat) : Frame h (h.downStat i) [] {Reg.DI_STAT i, Reg.DI_FMT i} [] :=
  (((Frame.refl h).wrB (by simp)).wrB (by simp)).wrF (by simp)

theorem Hub.inDown_after (h : Hub) (i : Nat) : Frame (h.downStat i) (h.inDown i) [.dse] (blockRegs .lnx) [] :=
  ((Frame.refl _).updDpIn List.mem_cons_self).dpIdle subset_rfl i

theorem Hub.inDown_stat (h : Hub) (i : Nat) :
    (h.inDown i).rd (Reg.DI_STAT i) = setBit (setBit (h.rd (Reg.DI_STAT i)) 7 false) 8 false := by
  rw [(h.inDown_after i).reg _ (DI_STAT_notMem_lnx i), Hub.downStat, Hub.rd_wrF, if_neg (DI_STAT_ne_DI_FMT i i), Hub.rd_wrB,
    if_pos rfl, Hub.rd_wrB, if_pos rfl]

theorem Hub.inDown_lost (h : Hub) (i : Nat) : ((h.inDown i).dpIn i).lost = true := by
  rw [Hub.inDown, Hub.dpIn_congr (Hub.dpIdle_dse _ i), Hub.dpIn_updDpIn_self]

theorem Frame.dpInDown {i : Nat} (a : Frame h k ps rs bs) (hd : Part.dse ∈ ps) (hp : Part.pins ∈ ps)
    (hr : {Reg.DI_STAT i, Reg.DI_FMT i} ∪ blockRegs .lnx ⊆ rs) (hf : Reg.SIT_FAULTN_CNT ∈ rs) (hb : Block.dse ∈ bs) (hs : Block.sit ∈ bs) :
    Frame h (k.dpInDown i) ps rs bs := by
  have hstat := (k.downStat_frame i).mono (List.nil_subset ps) (Set.subset_union_left.trans hr) (List.nil_subset bs)
  have hin := hstat.trans ((k.inDown_after i).mono (by simpa using hd) (Set.subset_union_right.trans hr) (List.nil_subset _))
  rw [Hub.dpInDown_eq]
  exact (a.trans hin).linkLost hp hf hb hs

/-- An input shows its trained link. -/
def Hub.upStat (h : Hub) (i rate lanes : Nat) : Hub :=
  ((h.wrF (Reg.DI_STAT i) 3 0 rate).wrF (Reg.DI_STAT i) 6 4 lanes).wrB (Reg.DI_STAT i) 7 true

/-- An input's link is up and its lanes locked, before its attention. -/
def Hub.inUp (h : Hub) (i rate lanes : Nat) : Hub :=
  (((((h.upStat i rate lanes).updDpIn i fun x => { x with lost := false }).edgeRate (0x0E + i) rate).dpIdle i).edgeLocked (0x0E + i))

theorem Hub.auxAnswer_trained {i : Fin 2} {rate lanes : Nat} (hrate : (dpRate rate).isSome = true) (hlanes : dpLanesOk lanes = true)
    (hrefs : h.refsReady (0x0E + i) = true) :
    h.auxAnswer i (.trained rate lanes) = ((h.inUp i rate lanes).attn .dse (8 * i + 7)).dpLive := if_pos ⟨hrate, hlanes, hrefs⟩

section
variable {i rate lanes : Nat}

theorem Hub.upStat_frame (h : Hub) : Frame h (h.upStat i rate lanes) [] {Reg.DI_STAT i} [] :=
  (((Frame.refl h).wrF (Set.mem_singleton _)).wrF (Set.mem_singleton _)).wrB (Set.mem_singleton _)

theorem Hub.inUp_after (h : Hub) : Frame (h.upStat i rate lanes) (h.inUp i rate lanes) [.dse] (blockRegs .lnx) [] :=
  ((((Frame.refl _).updDpIn List.mem_cons_self).edgeRate subset_rfl).dpIdle subset_rfl i).edgeLocked subset_rfl

theorem Hub.inUp_frame (h : Hub) : Frame h (h.inUp i rate lanes) [.dse] ({Reg.DI_STAT i} ∪ blockRegs .lnx) [] :=
  (h.upStat_frame.mono (List.nil_subset _) Set.subset_union_left (List.nil_subset _)).trans
    (h.inUp_after.mono (List.Subset.refl _) Set.subset_union_right (List.Subset.refl _))

theorem Hub.inUp_stat (h : Hub) : (h.inUp i rate lanes).rd (Reg.DI_STAT i) =
    setBit (setFld (setFld (h.rd (Reg.DI_STAT i)) 3 0 rate) 6 4 lanes) 7 true := by
  rw [h.inUp_after.reg _ (DI_STAT_notMem_lnx i), Hub.upStat]
  simp only [Hub.rd_wrF, Hub.rd_wrB, if_true]

end

end Sys2Proof.Machine
end

section
/-! SUPPORT. Links, hot plug and AUX of the display engine (R105, R317 to R319, R322). -/

namespace Sys2Proof.Machine

section
variable {s : State} {o i : Fin 2}

theorem dse_ne_pmu : Block.dse ≠ .pmu := by decide

theorem settle_dse_raw (o n : Hub) (i : Nat) : (settle o n).raw .dse i = n.raw .dse i := settle_raw _ _ _ _ (.inl dse_ne_pmu)

/-! ### HPD (R317) -/

theorem hpdLow_cond (hup : s.hub.up .dse = true) (hrole : s.hub.role = .leaf) (hlow : s.hub.rdB (Reg.DO_STAT o) 17 = false) :
    (s.hub.up .dse && decide (s.hub.role = .leaf) && !s.hub.rdB (Reg.DO_STAT o) 17) = true := by
  simp [hup, hrole, hlow]

theorem hpdHigh_cond (hup : s.hub.up .dse = true) (hrole : s.hub.role = .leaf) (hhigh : s.hub.rdB (Reg.DO_STAT o) 17 = true) :
    (s.hub.up .dse && decide (s.hub.role = .leaf) && s.hub.rdB (Reg.DO_STAT o) 17) = true := by
  simp [hup, hrole, hhigh]

/-- HPD of an output changes, with its attention. -/
def Hub.hpdPut (h : Hub) (o : Nat) (v : Bool) : Hub := (h.wrB (Reg.DO_STAT o) 17 v).attn .dse (8 * o + 6)

theorem Frame.hpdPut {h k : Hub} {ps : List Part} {rs : Set Nat} {bs : List Block} {o : Nat} {v : Bool} (a : Frame h k ps rs bs)
    (hr : Reg.DO_STAT o ∈ rs) (hb : Block.dse ∈ bs) : Frame h (k.hpdPut o v) ps rs bs := (a.wrB hr).attn hb

theorem Hub.hpdPut_rd (h : Hub) (o : Nat) (v : Bool) : (h.hpdPut o v).rd (Reg.DO_STAT o) = setBit (h.rd (Reg.DO_STAT o)) 17 v := by
  rw [Hub.hpdPut, Hub.attn_rd, Hub.rd_wrB, if_pos rfl]

theorem Hub.hpdPut_hpd (h : Hub) (o : Nat) (v : Bool) : (h.hpdPut o v).rdB (Reg.DO_STAT o) 17 = v := by
  rw [Hub.rdB, Hub.hpdPut_rd, bit_setBit _ _ _ _ (by decide), if_pos rfl]

theorem Hub.hpdPut_link (h : Hub) (o : Nat) (v : Bool) : (h.hpdPut o v).rdB (Reg.DO_STAT o) 16 = h.rdB (Reg.DO_STAT o) 16 := by
  rw [Hub.rdB, Hub.hpdPut_rd, bit_setBit _ _ _ _ (by decide), if_neg (by decide), Hub.rdB]

theorem Hub.hpdPut_raw (h : Hub) {o : Nat} (ho : o < 2) (v : Bool) : (h.hpdPut o v).raw .dse (8 * o + 6) = true :=
  Hub.raw_attn_self _ _ (by omega)

theorem ends_hpdPlug (hup : s.hub.up .dse = true) (hrole : s.hub.role = .leaf) (hlow : s.hub.rdB (Reg.DO_STAT o) 17 = false) :
    Ends (.hpdPlug o) s [] {Reg.DO_STAT o} [.dse] (fun t =>
      t.hub.rdB (Reg.DO_STAT o) 17 = true ∧ t.hub.raw .dse (8 * o + 6) = true) := by
  refine ends_act (f := fun h => h.hpdPut o true) rfl (hpdLow_cond hup hrole hlow)
    ((Frame.refl _).hpdPut (Set.mem_singleton _) List.mem_cons_self) ⟨?_, ?_⟩
  · rw [settle_rdB]
    exact Hub.hpdPut_hpd _ _ _
  · rw [settle_dse_raw]
    exact Hub.hpdPut_raw _ o.isLt _

theorem exec_hpdUnplug (o : Fin 2) (s : State) : exec (.hpdUnplug o) s =
    act s (s.hub.up .dse && decide (s.hub.role = .leaf) && s.hub.rdB (Reg.DO_STAT o) 17) fun h => (h.hpdPut o false).dpLinkDown o := rfl

theorem ends_hpdUnplug_untrained (hup : s.hub.up .dse = true) (hrole : s.hub.role = .leaf)
    (hhigh : s.hub.rdB (Reg.DO_STAT o) 17 = true) (hdown : s.hub.rdB (Reg.DO_STAT o) 16 = false) :
    Ends (.hpdUnplug o) s [] {Reg.DO_STAT o} [.dse] (fun t =>
      t.hub.rdB (Reg.DO_STAT o) 17 = false ∧ t.hub.raw .dse (8 * o + 6) = true) := by
  refine ends_effect (f := fun h => (h.hpdPut o false).dpLinkDown o) (exec_hpdUnplug o s) (hpdHigh_cond hup hrole hhigh)
    (Hub.dpLinkDown_of_down ((s.hub.fresh.hpdPut_link o false).trans hdown))
    ((Frame.refl _).hpdPut (Set.mem_singleton _) List.mem_cons_self) ⟨?_, ?_⟩
  · rw [settle_rdB]
    exact Hub.hpdPut_hpd _ _ _
  · rw [settle_dse_raw]
    exact Hub.hpdPut_raw _ o.isLt _

theorem ends_hpdIrqRx_untrained (hup : s.hub.up .dse = true) (hrole : s.hub.role = .leaf)
    (hhigh : s.hub.rdB (Reg.DO_STAT o) 17 = true) (hdown : s.hub.rdB (Reg.DO_STAT o) 16 = false) :
    Ends (.hpdIrqRx o true false) s [] ∅ [.dse] (fun t => t.hub.raw .dse (8 * o + 6) = true) := by
  have hin : s.hub.fresh.hpdIrqIn o true false = s.hub.fresh.attn .dse (8 * o + 6) := by
    unfold Hub.hpdIrqIn
    exact if_neg (by simpa [Hub.rdB] using hdown)
  exact ends_effect (f := fun h => h.hpdIrqIn o true false) rfl (hpdHigh_cond hup hrole hhigh) hin
    ((Frame.refl _).attn List.mem_cons_self) (settle_raw_attn _ _ dse_ne_pmu (by omega))

/-- The registers that show the loss of an output's link. -/
def hpdLossRegs (o : Nat) : Set Nat := {Reg.DO_STAT o, Reg.DO_FIFO o, Reg.TS_BYTE_TIME (0x0E + o), Reg.TS_CAP (0x0E + o),
  Reg.SIT_FAULTN_CNT} ∪ blockRegs .lnx

theorem outDown_subset_hpdLoss (o : Nat) : {Reg.DO_STAT o, Reg.SIT_FAULTN_CNT} ∪ outLinkRegs o ⊆ hpdLossRegs o := by
  refine Set.union_subset ?_ (Set.union_subset_union_left _ ?_)
  · exact Set.subset_union_of_subset_left (by simp [Set.insert_subset_iff]) _
  · simp [Set.insert_subset_iff]

theorem ends_hpdUnplug_trained (hup : s.hub.up .dse = true) (hrole : s.hub.role = .leaf)
    (hhigh : s.hub.rdB (Reg.DO_STAT o) 17 = true) (hlink : s.hub.rdB (Reg.DO_STAT o) 16 = true) :
    Ends (.hpdUnplug o) s [.dse, .pins] ({Reg.DO_STAT o, Reg.DO_FIFO o, Reg.TS_BYTE_TIME (0x0E + o), Reg.TS_CAP (0x0E + o),
        Reg.SIT_FAULTN_CNT} ∪ blockRegs .lnx) [.dse, .sit] (fun t =>
      t.hub.rdB (Reg.DO_STAT o) 17 = false ∧ t.hub.rdB (Reg.DO_STAT o) 16 = false ∧ t.hub.raw .dse (8 * o + 6) = true
      ∧ t.hub.raw .dse (8 * o + 7) = true ∧ bit (t.hub.hdr .dse).live 1 = true ∧ bit (t.hub.hdr .dse).sticky 1 = true
      ∧ t.hub.rdF (Reg.TS_CAP (0x0E + o)) 20 0 = 0) := by
  have hlink' : (s.hub.fresh.hpdPut o false).rdB (Reg.DO_STAT o) 16 = true := (s.hub.fresh.hpdPut_link o false).trans hlink
  have hdown := Hub.dpLinkDown_of_up hlink'
  have hraw : ((s.hub.fresh.hpdPut o false).dpLinkDown o).raw .dse (8 * o + 6) = true :=
    (Hub.Steady.refl _).dpLinkDown.raw (Hub.hpdPut_raw _ o.isLt _)
  have hput : Frame s.hub.fresh (s.hub.fresh.hpdPut o false) [.dse, .pins] (hpdLossRegs o) [.dse, .sit] :=
    (Frame.refl _).hpdPut (.inl (by simp)) List.mem_cons_self
  refine ends_act (f := fun h => (h.hpdPut o false).dpLinkDown o) (exec_hpdUnplug o s) (hpdHigh_cond hup hrole hhigh)
    (hput.dpLinkDown (by decide) (by decide) (outDown_subset_hpdLoss o) (by decide) (by decide)) ?_
  dsimp only
  rw [settle_rdB, settle_rdB, settle_dse_raw, hraw, settle_dse_raw, settle_live, settle_sticky, settle_rdF, Hub.dpLinkDown_cap o.isLt hlink',
    Hub.rdB, Hub.rdB, Hub.dpLinkDown_stat _ o.isLt, bit_setBit _ _ _ _ (by decide), bit_setBit _ _ _ _ (by decide), hdown]
  exact ⟨Hub.hpdPut_hpd _ _ _, rfl, rfl, Hub.linkLost_raw _ o.isLt,
    Hub.linkLost_live _ o.isLt (.inl (Hub.outDown_lost _ _)), Hub.linkLost_sticky _ _, rfl⟩

/-! ### Inputs (R318, R319) -/

theorem aux_cond (hup : s.hub.up .dse = true) (hrole : s.hub.role = .root) (hen : s.hub.rdB (Reg.DI_CFG i) 0 = true) :
    (s.hub.up .dse && decide (s.hub.role = .root) && s.hub.rdB (Reg.DI_CFG i) 0) = true := by
  simp [hup, hrole, hen]

theorem exec_auxRequestRx (i : Fin 2) (r : AuxReq) (s : State) : exec (.auxRequestRx i r) s =
    act s (s.hub.up .dse && decide (s.hub.role = .root) && s.hub.rdB (Reg.DI_CFG i) 0) fun h => h.auxAnswer i r := rfl

/-- A packet is all that a read by AUX sends. -/
theorem ends_auxRead {r : AuxReq} {l : List Byte} {n : Nat} (hup : s.hub.up .dse = true) (hrole : s.hub.role = .root)
    (hen : s.hub.rdB (Reg.DI_CFG i) 0 = true) (hread : s.hub.fresh.auxAnswer i r = s.hub.fresh.emit (.packet (0x0E + i) n l)) :
    Ends (.auxRequestRx i r) s [] ∅ [] (fun t => t.hub.out = [.packet (0x0E + i) n l]) :=
  ends_effect (f := fun h => h.auxAnswer i r) (exec_auxRequestRx i r s) (aux_cond hup hrole hen) hread (Frame.refl _).emit (settle_out _ _)

theorem ends_auxTrained (hup : s.hub.up .dse = true) (hrole : s.hub.role = .root) (hen : s.hub.rdB (Reg.DI_CFG i) 0 = true)
    (hrefs : s.hub.refsReady (0x0E + i) = true) :
    Ends (.auxRequestRx i (.trained 0xA 4)) s [.dse] ({Reg.DI_STAT i} ∪ blockRegs .lnx) [.dse] (fun t =>
      t.hub.rdF (Reg.DI_STAT i) 3 0 = 0xA ∧ t.hub.rdF (Reg.DI_STAT i) 6 4 = 4 ∧ t.hub.rdB (Reg.DI_STAT i) 7 = true
      ∧ t.hub.raw .dse (8 * i + 7) = true) := by
  have hin : Frame s.hub.fresh (s.hub.fresh.inUp i 0xA 4) [.dse] ({Reg.DI_STAT i} ∪ blockRegs .lnx) [.dse] :=
    s.hub.fresh.inUp_frame.mono (List.Subset.refl _) subset_rfl (List.nil_subset _)
  have hraw : ((s.hub.fresh.inUp i 0xA 4).attn .dse (8 * i + 7)).dpLive.raw .dse (8 * i + 7) = true :=
    (Hub.Steady.refl _).dpLive.raw (Hub.raw_attn_self _ _ (by omega))
  refine ends_effect (f := fun h => h.auxAnswer i (.trained 0xA 4)) (exec_auxRequestRx i _ s) (aux_cond hup hrole hen)
    (Hub.auxAnswer_trained (h := s.hub.fresh) rfl rfl hrefs) ((hin.attn List.mem_cons_self).dpLive List.mem_cons_self) ?_
  dsimp only
  rw [settle_rdF, settle_rdF, settle_rdB, settle_dse_raw, hraw, Hub.rdF, Hub.rdF, Hub.rdB, Hub.dpLive, Hub.setLive_rd, Hub.attn_rd,
    Hub.inUp_stat, fld_setBit_ne _ _ _ _ _ (by decide) (by decide), fld_setBit_ne _ _ _ _ _ (by decide) (by decide),
    fld_setFld_ne _ _ _ _ _ _ (by decide), fld_setFld _ _ _ _ (by decide), fld_setFld _ _ _ _ (by decide),
    bit_setBit _ _ _ _ (by decide), if_pos rfl]
  exact ⟨rfl, rfl, rfl, rfl⟩

theorem ends_dpInputLinkLoss (hup : s.hub.up .dse = true) (hrole : s.hub.role = .root) (hlink : s.hub.rdB (Reg.DI_STAT i) 7 = true) :
    Ends (.dpInputLinkLoss i) s [.dse, .pins] ({Reg.DI_STAT i, Reg.DI_FMT i, Reg.SIT_FAULTN_CNT} ∪ blockRegs .lnx) [.dse, .sit] (fun t =>
      t.hub.rdB (Reg.DI_STAT i) 7 = false ∧ t.hub.rdB (Reg.DI_STAT i) 8 = false ∧ t.hub.raw .dse (8 * i + 7) = true
      ∧ bit (t.hub.hdr .dse).live 1 = true ∧ bit (t.hub.hdr .dse).sticky 1 = true) := by
  refine ends_act (f := fun h => h.dpInDown i) rfl (by simp [hup, hrole, hlink]) ((Frame.refl _).dpInDown (by decide) (by decide)
    (Set.union_subset_union_left _ (by simp [Set.insert_subset_iff])) (.inl (by simp)) (by decide) (by decide)) ?_
  dsimp only
  rw [settle_rdB, settle_rdB, settle_dse_raw, settle_live, settle_sticky, Hub.dpInDown_eq, Hub.rdB, Hub.rdB,
    Hub.linkLost_rd _ _ (DI_STAT_ne_FAULTN i.isLt), Hub.inDown_stat, bit_setBit _ _ _ _ (by decide), bit_setBit _ _ _ _ (by decide),
    bit_setBit _ _ _ _ (by decide)]
  exact ⟨rfl, rfl, Hub.linkLost_raw _ i.isLt, Hub.linkLost_live _ i.isLt (.inr (Hub.inDown_lost _ _)), Hub.linkLost_sticky _ _⟩

end

/-! ### AUX transfers (R317, R322) -/

section
variable {s : State}

theorem exec_auxXfer (rs : List (Option (Nat × List Byte))) (s : State) :
    exec (.auxXfer rs) s = mbxAct s .dse 0x10 fun h => h.auxOp rs := rfl

theorem exec_linkTrain (cr ce : Bool) (sw : BitVec 16) (v : Bool) (s : State) :
    exec (.linkTrain cr ce sw v) s = mbxAct s .dse 0x11 fun h => h.trainOp cr ce sw v := rfl

theorem exec_hpdIrq (s : State) : exec .hpdIrq s = mbxAct s .dse 0x12 Hub.hpdIrqOp := rfl

/-- The request that AUX_XFER sends (R322). -/
def Hub.auxPacket (h : Hub) : Emit :=
  .packet (0x0E + b2n (bit (h.arg .dse 0) 0)) (fld (h.arg .dse 0) 7 4) (leBytes 3 (fld (h.arg .dse 0) 27 8)
    ++ leBytes 1 (fld (h.arg .dse 1) 4 0)
    ++ ((wordBytes ((List.range 4).map fun k => h.arg .dse (2 + k))).take (fld (h.arg .dse 1) 4 0)))

/-- The request has been sent, once for each reply that asks for it again. -/
def Hub.auxSent (h : Hub) (rs : List (Option (Nat × List Byte))) : Hub := (List.replicate (auxSends 0 0 rs) h.auxPacket).foldl Hub.emit h

theorem Hub.auxSent_frame (h : Hub) (rs : List (Option (Nat × List Byte))) : Frame h (h.auxSent rs) [] ∅ [] :=
  Frame.foldl _ (Frame.refl h) fun _ _ _ aj => aj.emit

/-- The result of a transaction that has come to an end (R317). -/
def auxResult : Option (Nat × List Byte) → MbxResult
  | none => mbxErr 0x81
  | some (c, b) => mbxOk (w32 (c + 0x100 * (b.take 16).length) :: (List.range 4).map fun k => w32 (leVal (((b.take 16).drop (4 * k)).take 4)))

theorem Hub.auxOp_ended {h : Hub} {rs : List (Option (Nat × List Byte))} {r : Option (Nat × List Byte)} (hrole : h.role = .leaf)
    (hmin : 1 ≤ fld (h.arg .dse 1) 4 0) (hmax : fld (h.arg .dse 1) 4 0 ≤ 16)
    (hhigh : h.rdB (Reg.DO_STAT (b2n (bit (h.arg .dse 0) 0))) 17 = true) (hrun : auxRun 0 0 rs = some r) :
    h.auxOp rs = done (h.auxSent rs) (auxResult r) := by
  unfold Hub.auxOp
  dsimp only
  rw [if_neg (by simp [hrole]), if_neg (by omega), if_neg (by simp [hhigh]), hrun]
  cases r <;> rfl

theorem ends_auxXfer {rs : List (Option (Nat × List Byte))} {r : Option (Nat × List Byte)} (hop : s.hub.opRunning .dse 0x10 = true)
    (hp : s.hub.present .dse = true) (hrole : s.hub.role = .leaf) (hmin : 1 ≤ fld (s.hub.arg .dse 1) 4 0)
    (hmax : fld (s.hub.arg .dse 1) 4 0 ≤ 16) (hhigh : s.hub.rdB (Reg.DO_STAT (b2n (bit (s.hub.arg .dse 0) 0))) 17 = true)
    (hrun : auxRun 0 0 rs = some r) :
    Ends (.auxXfer rs) s [] ∅ [.dse] (fun t => (t.hub.mbx .dse).result = some (auxResult r)) := by
  have hsent := s.hub.fresh.auxSent_frame rs
  exact ends_mbxDone (exec_auxXfer rs s) hop hp (Hub.auxOp_ended (h := s.hub.fresh) hrole hmin hmax hhigh hrun)
    (hsent.mono (List.Subset.refl _) subset_rfl (List.nil_subset _)) List.mem_cons_self
    (settle_opResult s.hub ((hsent.opRunning List.not_mem_nil List.not_mem_nil _).trans hop))

/-! ### Training (R317, R322) -/

theorem Hub.trainOp_checked {h : Hub} {cr v : Bool} {sw : BitVec 16} (hrole : h.role = .leaf) (h0 : h.arg .dse 0 = 1)
    (h1 : h.arg .dse 1 = 8) (h2 : h.arg .dse 2 = 4) (hen : h.dpEn 1 = false) (hhigh : h.rdB (Reg.DO_STAT 1) 17 = true)
    (hrefs : h.refsReady 0x0F = true) :
    h.trainOp cr true sw v = if cr then done (h.dpLinkUp 1 4 8 v) (mbxOk [4, 8, sw.setWidth 32])
      else done (h.dpLinkDown 1) (mbxErr 0x82) := by
  unfold Hub.trainOp
  simp only [h0, h1, h2]
  rw [if_neg (by simp [hrole]), if_neg (by decide), if_neg (by rw [show (1 : Word).toNat = 1 from rfl, hen]; simp),
    if_neg (by rw [show (1 : Word).toNat = 1 from rfl, hhigh]; simp), show h.refsReady (0x0E + (1 : Word).toNat) = true from hrefs]
  cases cr <;> rfl

theorem ends_linkTrain_good {sw : BitVec 16} (hop : s.hub.opRunning .dse 0x11 = true) (hp : s.hub.present .dse = true)
    (htrain : s.hub.fresh.trainOp true true sw true = done (s.hub.fresh.dpLinkUp 1 4 8 true) (mbxOk [4, 8, sw.setWidth 32])) :
    Ends (.linkTrain true true sw true) s [.dse]
      ({Reg.DO_STAT 1, Reg.DO_FIFO 1, Reg.TS_BYTE_TIME 0x0F, Reg.TS_CAP 0x0F} ∪ blockRegs .lnx) [.dse] (fun t =>
      (t.hub.mbx .dse).result = some (mbxOk [4, 8, sw.setWidth 32]) ∧ t.hub.rdB (Reg.DO_STAT 1) 16 = true
      ∧ t.hub.rdB (Reg.DO_STAT 1) 18 = true ∧ t.hub.rdF (Reg.DO_STAT 1) 21 19 = 4 ∧ t.hub.rdF (Reg.DO_STAT 1) 25 22 = 8
      ∧ t.hub.raw .dse 15 = true ∧ t.hub.rdF (Reg.TS_CAP 0x0F) 20 0 = 17280) := by
  have hup : Frame s.hub.fresh (s.hub.fresh.dpLinkUp 1 4 8 true) [.dse]
      ({Reg.DO_STAT 1, Reg.DO_FIFO 1, Reg.TS_BYTE_TIME 0x0F, Reg.TS_CAP 0x0F} ∪ blockRegs .lnx) [.dse] :=
    (Frame.refl _).dpLinkUp List.mem_cons_self (Set.union_assoc _ _ _).ge List.mem_cons_self
  have hop' : (s.hub.fresh.dpLinkUp 1 4 8 true).opRunning .dse 0x11 = true :=
    (Hub.opRunning_congr (hup.part .power (by decide)) (Hub.dpLinkUp_mbx _ _)).trans hop
  refine ends_mbxDone (exec_linkTrain _ _ _ _ s) hop hp htrain hup List.mem_cons_self ⟨settle_opResult s.hub hop', ?_⟩
  simp only [settle_dse_raw, Hub.opResult_raw, Hub.rdB, Hub.rdF, settle_rd, Hub.opResult_rd]
  exact ⟨Hub.dpLinkUp_link _ (by decide), Hub.dpLinkUp_async _ (by decide), Hub.dpLinkUp_lanes _ (by decide),
    Hub.dpLinkUp_rate _ (by decide), Hub.dpLinkUp_raw _ (by decide), Hub.dpLinkUp_cap _⟩

theorem ends_linkTrain_bad {sw : BitVec 16} {v : Bool} (hop : s.hub.opRunning .dse 0x11 = true) (hp : s.hub.present .dse = true)
    (htrain : s.hub.fresh.trainOp false true sw v = done (s.hub.fresh.dpLinkDown 1) (mbxErr 0x82)) :
    Ends (.linkTrain false true sw v) s [.dse, .pins] ({Reg.DO_STAT 1, Reg.DO_FIFO 1, Reg.TS_BYTE_TIME 0x0F, Reg.TS_CAP 0x0F,
        Reg.SIT_FAULTN_CNT} ∪ blockRegs .lnx) [.dse, .sit] (fun t =>
      (t.hub.mbx .dse).result = some (mbxErr 0x82) ∧ t.hub.rdB (Reg.DO_STAT 1) 16 = false) := by
  have hdown : Frame s.hub.fresh (s.hub.fresh.dpLinkDown 1) [.dse, .pins] (hpdLossRegs 1) [.dse, .sit] :=
    (Frame.refl _).dpLinkDown (by decide) (by decide) (outDown_subset_hpdLoss 1) (by decide) (by decide)
  have hop' : (s.hub.fresh.dpLinkDown 1).opRunning .dse 0x11 = true :=
    (Hub.opRunning_congr (hdown.part .power (by decide)) (Hub.dpLinkDown_mbx _ _ _)).trans hop
  refine ends_mbxDone (exec_linkTrain _ _ _ _ s) hop hp htrain hdown List.mem_cons_self ⟨settle_opResult s.hub hop', ?_⟩
  rw [settle_rdB, Hub.rdB, Hub.opResult_rd, Hub.dpLinkDown_stat _ (by decide), bit_setBit _ _ _ _ (by decide), if_pos rfl]

/-! ### HPD_IRQ (R318, R322) -/

theorem Hub.hpdIrqOp_on {h : Hub} (hrole : h.role = .root) (h0 : h.arg .dse 0 = 1) (hen : h.rdB (Reg.DI_CFG 1) 0 = true) :
    h.hpdIrqOp = done (h.emit (.packet 0x0F 0x10 [])) (mbxOk []) := by
  unfold Hub.hpdIrqOp
  simp only [h0]
  rw [if_neg (by simp [hrole]), if_neg (by decide), if_neg (by rw [show (1 : Word).toNat = 1 from rfl, hen]; simp)]
  rfl

theorem Hub.opResult_out {h : Hub} {b : Block} {op : Nat} {r : MbxResult} : (h.opResult b op r).out = h.out := by
  unfold Hub.opResult
  split <;> rfl

theorem ends_hpdIrq (hop : s.hub.opRunning .dse 0x12 = true) (hp : s.hub.present .dse = true) (hrole : s.hub.role = .root)
    (h0 : s.hub.arg .dse 0 = 1) (hen : s.hub.rdB (Reg.DI_CFG 1) 0 = true) :
    Ends .hpdIrq s [] ∅ [.dse] (fun t =>
      (t.hub.mbx .dse).result = some (mbxOk []) ∧ t.hub.out = [.packet 0x0F 0x10 []]) := by
  refine ends_mbxDone (exec_hpdIrq s) hop hp (Hub.hpdIrqOp_on (h := s.hub.fresh) hrole h0 hen) (Frame.refl _).emit List.mem_cons_self
    ⟨settle_opResult s.hub (k := s.hub.fresh.emit (.packet 0x0F 0x10 [])) hop, ?_⟩
  rw [settle_out, Hub.opResult_out]
  rfl

end

/-- Settles O47: each clause is the effect of its command, or of the mailbox's runner, on the branch that its conditions choose. -/
theorem displayLinks : Obligations.DisplayLinks := by
  refine ⟨fun s o hup hrole hlow => ends_hpdPlug hup hrole hlow,
    fun s o hup hrole hhigh hdown => ⟨ends_hpdUnplug_untrained hup hrole hhigh hdown, ends_hpdIrqRx_untrained hup hrole hhigh hdown⟩,
    fun s o hup hrole hhigh hlink => ends_hpdUnplug_trained hup hrole hhigh hlink,
    fun s i a n hup hrole hen => ⟨ends_auxRead hup hrole hen rfl, ends_auxRead hup hrole hen rfl⟩,
    fun s i hup hrole hen hrefs => ends_auxTrained hup hrole hen hrefs, fun s i hup hrole hlink => ends_dpInputLinkLoss hup hrole hlink,
    ?xfer, ?train, fun s hop hp hrole h0 hen => ends_hpdIrq hop hp hrole h0 hen,
    fun s o a b hup hrole hhigh => runs_act (f := fun h => h.hpdIrqIn o a b) rfl (hpdHigh_cond hup hrole hhigh),
    fun s i r hup hrole hen => runs_act (f := fun h => h.auxAnswer i r) (exec_auxRequestRx i r s) (aux_cond hup hrole hen),
    fun s rs hop => runs_mbxAct (exec_auxXfer rs s) hop, fun s cr ce v sw hop => runs_mbxAct (exec_linkTrain cr ce sw v s) hop,
    fun s hop => runs_mbxAct (exec_hpdIrq s) hop⟩
  case xfer =>
    intro s c b hop hp hrole hmin hmax hhigh hc hb
    subst hc
    have hreply := ends_auxXfer (rs := [none, some (2, []), some (0, b)]) (r := some (0, b)) hop hp hrole hmin hmax hhigh rfl
    rw [auxResult, List.take_of_length_le hb] at hreply
    exact ⟨hreply, ends_auxXfer (r := none) hop hp hrole hmin hmax hhigh rfl⟩
  case train =>
    intro s hop hp hrole h0 h1 h2 hen hhigh hrefs
    exact ⟨ends_linkTrain_good hop hp (Hub.trainOp_checked (h := s.hub.fresh) hrole h0 h1 h2 hen hhigh hrefs),
      ends_linkTrain_bad hop hp (Hub.trainOp_checked (h := s.hub.fresh) hrole h0 h1 h2 hen hhigh hrefs)⟩

end Sys2Proof.Machine
end

section
/-! SUPPORT. The two refutations of the family. Both come from a lane repair of the port (R112): a PORT reset or a failure of the port
ends it, and with it parks the repair's spare (R105, R115). -/

namespace Sys2Proof.Machine

/-! ### A port that goes down while a repair of one of its lanes runs (R91, R115)

The spare is powered down and LN_STAT shows it, which the frame of KL_DOWN does not list. -/

/-- A ROOT whose T1 is UP and repairs its logical lane 0 with lane 8, which T2 does not hold. -/
def repairingRoot : State :=
  let h := (((Hub.reset {}).setPortLanes 2 []).wr (Reg.KL_STATE 1) 5).wrF (Reg.KL_CFG 1) 3 0 0xE
  { hub := { h.takeSpare 1 0 8 with repair := some { port := 1, logical := 0, spare := 8, starter := true } } }

theorem klDown_repairingRoot :
    ∃ t, exec (.klDown 1) repairingRoot = .next t ∧ t.hub.rd (Reg.LN_STAT 8) ≠ repairingRoot.hub.rd (Reg.LN_STAT 8) :=
  ⟨_, rfl, by decide +kernel⟩

theorem LN_STAT_8_notMem_resetRegs : Reg.LN_STAT 8 ∉ resetRegs 1 ∪ {Reg.TS_BYTE_TIME 1, Reg.TS_CAP 1} := by
  rintro (((((e | e | e) | e) | ⟨hlo, -⟩) | ⟨i, hi, e⟩) | (e | e))
  case inl.inl.inr => exact absurd hlo (by decide)
  case inl.inr => rw [Reg.LN_STAT, Reg.PMC_OVF] at e; omega
  all_goals exact absurd e (by decide)

/-- Refutes O32: in `repairingRoot` KL_DOWN ends the repair and parks its spare, so that LN_STAT of lane 8 changes. -/
theorem not_linkStates : ¬ Obligations.LinkStates := by
  rintro ⟨-, -, -, hdown, -⟩
  obtain ⟨t, hrun, ⟨-, hframe⟩, -⟩ := hdown repairingRoot 1 (by decide +kernel) (by decide +kernel) (by decide +kernel)
  obtain ⟨u, hrun', hmoved⟩ := klDown_repairingRoot
  obtain rfl : t = u := Host.Outcome.next.inj (hrun.symm.trans hrun')
  exact hmoved (hframe.reg _ (LN_STAT_8_notMem_resetRegs))

/-! ### Authentication that fails while a repair names a lane that does not exist

The statement holds of every state, of those too that no run reaches. `LaneRepair.spare` is any number, and the address of LN_STAT
of lane 256 is that of KL_STATE of T0: parking that lane clears T0's SECURED. -/

/-- A ROOT whose T1 is in AUTH for longer than 20 ms, with a repair by lane 256, and whose T0 is UP under a session. -/
def strayRepairRoot : State :=
  let h := ((Hub.reset {}).wr (Reg.KL_STATE 0) 0x105).wr (Reg.KL_STATE 1) 3
  { hub := { h with
      repair := some { port := 1, logical := 0, spare := 256, starter := true }
      time := { h.time with up := 20000000 } } }

theorem authTimeout_strayRepairRoot :
    ∃ t, exec (.authTimeout 1) strayRepairRoot = .next t ∧ t.hub.rd (Reg.KL_STATE 0) ≠ strayRepairRoot.hub.rd (Reg.KL_STATE 0) :=
  ⟨_, rfl, by decide +kernel⟩

/-- Refutes O33: in `strayRepairRoot` the failure of T1 writes KL_STATE of T0. -/
theorem not_linkAuthentication : ¬ Obligations.LinkAuthentication := by
  rintro ⟨-, -, -, -, htimeout, -⟩
  obtain ⟨t, hrun, ⟨-, hframe⟩, -⟩ :=
    htimeout strayRepairRoot 1 (by decide +kernel) (by decide +kernel) (by decide +kernel) (by decide +kernel)
  obtain ⟨u, hrun', hmoved⟩ := authTimeout_strayRepairRoot
  obtain rfl : t = u := Host.Outcome.next.inj (hrun.symm.trans hrun')
  refine hmoved (hframe.reg _ ?_)
  simp [klRegs, blockRegs, Block.base_lnx]
  decide

end Sys2Proof.Machine
end

section
/-! SUPPORT. What a message of the steward sends out by itself: nothing, the frame only waits for its port (R131, R166). -/

namespace Sys2Proof.Machine

variable (h : Hub)

theorem Hub.foldl_out {α : Type} {f : Hub → α → Hub} (hf : ∀ k x, (f k x).out = k.out) (l : List α) : (l.foldl f h).out = h.out := by
  induction l generalizing h with
  | nil => rfl
  | cons x l ih => exact (ih _).trans (hf _ _)

theorem Hub.ite_out {c : Prop} [Decidable c] {j k : Hub} (hj : j.out = h.out) (hk : k.out = h.out) :
    (if c then j else k).out = h.out := by
  split
  · exact hj
  · exact hk

/-! ### Counters and fault events -/

@[simp] theorem Hub.capDue_out (n p : Nat) : (h.capDue n p).out = h.out := h.ite_out rfl rfl

@[simp] theorem Hub.cntAdd_out (port fuel n m : Nat) : (h.cntAdd port fuel n m).out = h.out := by
  induction fuel generalizing h n m with
  | zero => rfl
  | succ fuel ih =>
    rw [Hub.cntAdd]
    refine h.ite_out rfl (h.ite_out ?_ ?_)
    · rw [ih, Hub.capDue_out, Hub.updPmc_out]
    · exact Hub.capDue_out _ _ _

@[simp] theorem Hub.pmcEvent_out (ev port tc n : Nat) : (h.pmcEvent ev port tc n).out = h.out :=
  h.foldl_out (fun k _ => k.ite_out (k.cntAdd_out _ _ _ _) rfl) _

@[simp] theorem Hub.fault_out (b : Block) (i : Nat) : (h.fault b i).out = h.out := h.ite_out rfl rfl

/-! ### Cells -/

@[simp] theorem Hub.updCell_out (i : Nat) (f : CellSt → CellSt) : (h.updCell i f).out = h.out := by
  unfold Hub.updCell
  split <;> rfl

@[simp] theorem Hub.storeCell_out (i : Nat) (c : CellSt) : (h.storeCell i c).out = h.out := Hub.pmcEvent_out _ _ _ _ _

@[simp] theorem Hub.newCells_out (cs : List CellSt) : (h.newCells cs).1.out = h.out := h.foldl_out (fun k _ => k.storeCell_out _ _) _

@[simp] theorem Hub.freeCell_out (i : Nat) : (h.freeCell i).out = h.out := by
  unfold Hub.freeCell
  split
  · rfl
  · exact h.ite_out rfl rfl

@[simp] theorem Hub.freeCells_out (l : List Nat) : (h.freeCells l).out = h.out := h.foldl_out Hub.freeCell_out l

theorem Hub.ftGain_out (s t : Nat) (c : CellSt) : (h.ftGain s t c).out = h.out := rfl

@[simp] theorem Hub.enlist_out (s : Nat) (ix : List Nat) : (h.enlist s ix).out = h.out := by
  refine h.foldl_out (fun k i => ?_) ix
  split
  · rfl
  · exact Hub.foldl_out _ (fun j t => j.ftGain_out s t _) _

/-! ### The resequencer (R176) -/

@[simp] theorem Hub.rsqRelease_out (s : Nat) (f : HeldFrame) : (h.rsqRelease s f).out = h.out := Hub.enlist_out _ _ _

@[simp] theorem Hub.rsqDrain_out (s n : Nat) : (h.rsqDrain s n).out = h.out := by
  induction n generalizing h with
  | zero => rfl
  | succ n ih =>
    rw [Hub.rsqDrain]
    split
    · rfl
    · rw [ih, Hub.updCtx_out, Hub.rsqRelease_out]

@[simp] theorem Hub.rsqSkip_out (s n : Nat) : (h.rsqSkip s n).out = h.out := by
  induction n generalizing h with
  | zero => rfl
  | succ n ih =>
    rw [Hub.rsqSkip]
    split
    · rfl
    · split
      · rw [ih, Hub.updCtx_out, Hub.rsqRelease_out]
      · rw [ih, Hub.attn_out, Hub.updCtx_out]

@[simp] theorem Hub.rsqHold_out (s : Nat) (f : HeldFrame) : (h.rsqHold s f).out = h.out := by
  unfold Hub.rsqHold
  split
  · rw [Hub.updCtx_out, Hub.updCell_out]
  · rfl

@[simp] theorem Hub.rsqTake_out (s : Nat) (f : HeldFrame) : (h.rsqTake s f).out = h.out := by
  rw [Hub.rsqTake, Hub.rsqDrain_out, Hub.updCtx_out, Hub.enlist_out]

@[simp] theorem Hub.rsqFrame_out (s : Nat) (f : HeldFrame) : (h.rsqFrame s f).out = h.out := by
  unfold Hub.rsqFrame
  dsimp only
  generalize hk : (if (h.ctx s).rsqSet then h else _) = k
  have hset : k.out = h.out := by rw [← hk]; exact h.ite_out rfl rfl
  rw [← hset]
  split_ifs <;> simp

/-! ### Admission (R166 to R169) -/

@[simp] theorem Hub.frameIn_out (s : Nat) (ix : List Nat) (fseq tmask : Nat) : (h.frameIn s ix fseq tmask).out = h.out :=
  h.ite_out (h.rsqFrame_out _ _) (h.enlist_out _ _)

@[simp] theorem Hub.dropAt_out (mask : Nat) : (h.dropAt mask).out = h.out := h.foldl_out (fun k t => k.inc_out (Reg.TP_DROP_ADMIT t) 1) _

@[simp] theorem Hub.trumpRefused_out (c mask : Nat) : (h.trumpRefused c mask).out = h.out := h.ite_out (h.fault_out _ _) rfl

@[simp] theorem Hub.wideCheck_out (s : Nat) : (h.wideCheck s).out = h.out := h.ite_out rfl rfl

@[simp] theorem Hub.admitWhole_out (s i flow : Nat) (payload : List Byte) (ok refused : Nat) :
    (h.admitWhole s i flow payload ok refused).out = h.out := by simp [Hub.admitWhole]

@[simp] theorem Hub.startWait_out (w : WaitFrame) : (h.startWait w).out = h.out := rfl

/-- What the ledger offers at a holding ingress is admitted or waits. -/
theorem Hub.offer_out {s i flow : Nat} {payload : List Byte} {told : Bool} (hi : holdsAt i = true) :
    (h.offer s i flow payload told).1.out = h.out := by
  have hwide := h.wideCheck_out s
  have hrefuse (c r : Nat) : (if told then h.wideCheck s else (h.wideCheck s).trumpRefused c r).out = h.out :=
    h.ite_out hwide ((Hub.trumpRefused_out _ _ _).trans hwide)
  unfold Hub.offer
  dsimp only
  split
  · split
    · exact (Hub.admitWhole_out _ _ _ _ _ _ _).trans hwide
    · exact hrefuse (h.ctx s).tc _
  · rw [if_pos hi]
    exact hrefuse (h.ctx s).tc _
  · rw [if_pos hi]
    exact hwide

@[simp] theorem Hub.postFrame_out (p handle : Nat) (payload : List Byte) : (h.postFrame p handle payload).out = h.out := by
  have hoffer := h.offer_out (s := p) (i := 0x11) (flow := handle) (payload := payload) (told := false) rfl
  unfold Hub.postFrame
  dsimp only
  split
  · exact Hub.startWait_out _ _
  · split <;> rename_i e <;> rw [e] at hoffer
    · exact (Hub.startWait_out _ _).trans hoffer
    · exact hoffer

@[simp] theorem Hub.postNear_out (p typ : Nat) (body : List Byte) : (h.postNear p typ body).out = h.out := Hub.postFrame_out _ _ _ _

@[simp] theorem Hub.tscWatch_out (o n : Hub) : (o.tscWatch n).out = n.out := by
  unfold Hub.tscWatch
  dsimp only
  generalize hk : (if n.counts.kitty.toNat < n.rdF Reg.TSC_KITTY_MIN 16 0 then _ else n) = k
  have hlow : k.out = n.out := by rw [← hk]; exact n.ite_out (Hub.wrF_out _ _ _ _ _) rfl
  have hfall : (if k.counts.kitty ≤ k.reserve ∧ (o.reserve : Int) < o.counts.kitty then k.attn .tsc 8 else k).out = n.out :=
    (k.ite_out (Hub.attn_out _ _ _) rfl).trans hlow
  refine n.ite_out hfall ((Hub.foldl_out _ (fun j t => ?_) _).trans hfall)
  exact Hub.maxF_out _ _ _ _ _

end Sys2Proof.Machine
end

section
/-! SUPPORT. Time transfer over a link (R149 to R151). -/

namespace Sys2Proof.Machine

variable {h k : Hub} {ps : List Part} {rs : Set Nat} {bs : List Block} {s : State}

theorem Frame.withXfer {x : TimeXfer} (a : Frame h k ps rs bs) (hp : Part.xfer ∈ ps) : Frame h { k with xfer := x } ps rs bs :=
  a.upd rfl rfl rfl fun p hp' => by cases p <;> first | exact absurd hp hp' | rfl

theorem exec_timeExchangeStart (s : State) : exec .timeExchangeStart s = execTimeExchangeStart s := rfl

theorem exec_timeReqRx (p : LinkNo) (k : BitVec 16) (d : Nat) (s : State) : exec (.timeReqRx p k d) s = execTimeReqRx p k d s := rfl

theorem exec_timeMarkRx (p : LinkNo) (k : BitVec 16) (s : State) : exec (.timeMarkRx p k) s = execTimeMarkRx p k s := rfl

theorem exec_timeRespRx (p : LinkNo) (k : BitVec 16) (t2 t3 : BitVec 64) (f2 f3 : BitVec 4) (s : State) :
    exec (.timeRespRx p k t2 f2 t3 f3) s = execTimeRespRx p k t2 f2 t3 f3 s := rfl

theorem exec_timeExchangeMiss (s : State) : exec .timeExchangeMiss s = execTimeExchangeMiss s := rfl

theorem exec_ttExchangeNow (s : State) : exec .ttExchangeNow s = execTtExchangeNow s := rfl

/-! ### A request goes out (R149, R155) -/

theorem Frame.startExchange {p : Nat} {viaOp : Bool} (a : Frame h k ps rs bs) (hp : Part.xfer ∈ ps) :
    Frame h (k.startExchange p viaOp) ps rs bs := by
  unfold Hub.startExchange
  exact (a.withXfer hp).emit

theorem Hub.startExchange_xfer (h : Hub) (p : Nat) (viaOp : Bool) : (h.startExchange p viaOp).xfer = { h.xfer with
    seq := (h.xfer.seq + 1) % 65536, busy := true, t1 := h.stamp16, t4 := none, reqAt := h.mono, viaOp := viaOp || h.xfer.viaOp } := rfl

theorem Hub.startExchange_out (h : Hub) (p : Nat) (viaOp : Bool) :
    (h.startExchange p viaOp).out = h.out ++ h.sends p [.block p (timeBlock 0 ((h.xfer.seq + 1) % 65536))] := rfl

theorem ends_timeExchangeStart {p : Nat} (hup : s.hub.up .kll = true) (hsrc : s.hub.ttUp = some p) (hidle : s.hub.xfer.busy = false)
    (hdue : s.hub.xfer.lastTick.all (fun a => decide (a + 1000000 ≤ s.hub.mono)) = true) :
    Ends .timeExchangeStart s [.xfer] ∅ [] (fun t =>
      t.hub.xfer.busy = true ∧ t.hub.xfer.seq = (s.hub.xfer.seq + 1) % 65536 ∧ t.hub.xfer.t1 = s.hub.stamp16
      ∧ t.hub.xfer.t4 = none ∧ t.hub.xfer.reqAt = s.hub.mono
      ∧ t.hub.out = s.hub.sends p [.block p (timeBlock 0 ((s.hub.xfer.seq + 1) % 65536))]) := by
  let k : Hub := { s.hub.fresh with xfer := { s.hub.xfer with lastTick := some s.hub.mono } }
  have hk : Frame s.hub.fresh k [.xfer] ∅ [] := (Frame.refl _).withXfer List.mem_cons_self
  refine ends_effect (k := k.startExchange p false) (exec_timeExchangeStart s) ?cond ?effect (hk.startExchange List.mem_cons_self) ?result
  case cond => simp [hup, hsrc, hidle, hdue]
  case effect => rw [show s.hub.fresh.ttUp = some p from hsrc]; rfl
  case result =>
    rw [settle_xfer, settle_out, Hub.startExchange_xfer, Hub.startExchange_out]
    exact ⟨rfl, rfl, rfl, rfl, rfl, rfl⟩

theorem Hub.exchangeNowOp_source {p : Nat} (hsrc : h.ttUp = some p) (hop : h.xfer.viaOp = false) :
    h.exchangeNowOp = (h.startExchange p true, none) := by
  rw [Hub.exchangeNowOp, hsrc]
  exact if_neg (by simp [hop])

theorem Hub.opRunning_result {b : Block} {op : Nat} (hrun : h.opRunning b op = true) : (h.mbx b).result = none :=
  Option.isNone_iff_eq_none.mp (Bool.and_eq_true_iff.mp hrun).2

theorem ends_ttExchangeNow {p : Nat} (hrun : s.hub.opRunning .kll 0x11 = true) (hup : s.hub.up .kll = true) (hsrc : s.hub.ttUp = some p)
    (hop : s.hub.xfer.viaOp = false) :
    Ends .ttExchangeNow s [.xfer] ∅ [] (fun t =>
      t.hub.xfer.busy = true ∧ t.hub.xfer.viaOp = true ∧ t.hub.xfer.seq = (s.hub.xfer.seq + 1) % 65536
      ∧ (t.hub.mbx .kll).result = none) := by
  have hframe : Frame s.hub.fresh (s.hub.fresh.startExchange p true) [.xfer] ∅ [] := (Frame.refl _).startExchange List.mem_cons_self
  refine ends_effect (f := fun h => h.runOp .kll 0x11 Hub.exchangeNowOp) (exec_ttExchangeNow s) hrun ?effect hframe ?result
  case effect =>
    rw [Hub.runOp, if_pos (show s.hub.fresh.present .kll = true from Hub.present_of_up hup),
      Hub.exchangeNowOp_source (h := s.hub.fresh) hsrc hop]
  case result =>
    rw [settle_xfer, Hub.startExchange_xfer, settle_mbx, hframe.mbx List.not_mem_nil]
    exact ⟨rfl, rfl, rfl, Hub.opRunning_result hrun⟩

/-! ### The parent's answer (R149) -/

/-- A port whose last block was no TC6 header misses no MAC block (R143). -/
theorem Hub.macMissing_of_none {p : Nat} (hmac : (h.link p).macCell = none) : h.macMissing p = h := by
  rw [Hub.macMissing, hmac]
  rfl

theorem Hub.emit_link_out (h : Hub) (p : Nat) (b : List Byte) : (h.emit (.block p b)).out = h.out ++ h.sends p [.block p b] := rfl

theorem ends_timeReqRx {p : LinkNo} {k : BitVec 16} {d : Nat} (hears : s.hub.hears p = true) (hup : s.hub.klState p = 5) (hd : d ≤ 160000)
    (hmac : (s.hub.link p).macCell = none) :
    Ends (.timeReqRx p k d) s sendParts sendRegs sendBlocks (fun t =>
      (s.hub.muted p = false → .block p (timeBlock 1 k.toNat) ∈ t.hub.out) ∧ t.hub.xfer = s.hub.xfer) := by
  have hasked : s.hub.fresh.timeAsked p k d = (s.hub.fresh.emit (.block p (timeBlock 1 k.toNat))).postNear p 0x0020
      (beBytes 2 k.toNat ++ beBytes 8 (s.hub.stamp16 / 16) ++ beBytes 1 (s.hub.stamp16 % 16) ++ beBytes 8 ((s.hub.stamp16 + d) / 16)
        ++ beBytes 1 ((s.hub.stamp16 + d) % 16)) := by
    rw [Hub.timeAsked, Hub.macMissing_of_none (h := s.hub.fresh) hmac]
    rfl
  have hsent : Hub.Sends s.hub.fresh (s.hub.fresh.timeAsked p k d) := by
    rw [hasked]
    exact Hub.Sends.postFrame (Frame.emit (Frame.refl _))
  have hframe : Hub.Sends s.hub.fresh (s.hub.fresh.tscWatch (s.hub.fresh.timeAsked p k d)) :=
    hsent.trans ((Hub.tscWatch_frame _ _).mono (by simp) (fun a ha => .inl (.inl ha)) (by decide))
  refine ends_act (f := fun h => h.tscWatch (h.timeAsked p k d)) (exec_timeReqRx p k d s) (by simp [hears, hup, hd]) hframe ⟨fun hloud => ?_, ?_⟩
  · rw [settle_out, Hub.tscWatch_out, hasked, Hub.postNear_out, Hub.emit_link_out, Hub.sends,
      if_neg (by rw [show s.hub.fresh.muted p = false from hloud]; simp)]
    exact List.mem_append_right _ List.mem_cons_self
  · rw [settle_xfer]
    exact hframe.part .xfer (by decide)

/-! ### The mark and the answer at the child (R149, R150) -/

theorem ends_timeMarkRx {p : LinkNo} {k : BitVec 16} (hears : s.hub.hears p = true) (hsrc : s.hub.ttSource = some p.val)
    (hbusy : s.hub.xfer.busy = true) (hseq : k.toNat = s.hub.xfer.seq) (hmac : (s.hub.link p).macCell = none) :
    Ends (.timeMarkRx p k) s [.xfer] ∅ [] (fun t => t.hub.xfer = { s.hub.xfer with t4 := some s.hub.stamp16 }) := by
  refine ends_effect (k := { s.hub.fresh with xfer := { s.hub.xfer with t4 := some s.hub.stamp16 } }) (exec_timeMarkRx p k s)
    (by simp [hears, hsrc, hbusy, hseq]) ?_ ((Frame.refl _).withXfer List.mem_cons_self) (settle_xfer _ _)
  rw [Hub.macMissing_of_none (h := s.hub.fresh) hmac]
  rfl

/-- What the registers show of a complete exchange (R150, Table 5.10). -/
def Hub.ttShown (h : Hub) (th : Int) : Hub :=
  ((h.incFW Reg.KLL_TT_STAT 15 8).wrF Reg.KLL_TT_STAT 23 16 0).wr Reg.KLL_TT_OFS (swordHold th)

/-- A complete exchange, in the runs that decide LOCKED (R151). -/
def TimeXfer.counted (x : TimeXfer) (th : Int) : TimeXfer :=
  { x with
    busy := false
    viaOp := false
    good := if th.natAbs ≤ 32 then x.good + 1 else 0
    bad := if 320 < th.natAbs then x.bad + 1 else 0 }

theorem Frame.ttShown {th : Int} (a : Frame h k ps rs bs) (hs : Reg.KLL_TT_STAT ∈ rs) (ho : Reg.KLL_TT_OFS ∈ rs) :
    Frame h (k.ttShown th) ps rs bs := ((a.incFW hs).wrF hs).wr ho

theorem Hub.ttRuns_short {th : Int} (hgood : h.xfer.good < 7) (hbad : h.xfer.bad = 0) : h.ttRuns th = { h with xfer := { h.xfer with
    good := if th.natAbs ≤ 32 then h.xfer.good + 1 else 0, bad := if 320 < th.natAbs then h.xfer.bad + 1 else 0 } } := by
  unfold Hub.ttRuns
  rw [if_neg (by split <;> omega), if_neg (by split <;> omega)]

theorem Hub.ttDone_short {p : Nat} {t2 t3 t4 th : Int} (hop : h.xfer.viaOp = false) (hsrc : h.timeSrc ≠ 1) (hgood : h.xfer.good < 7)
    (hbad : h.xfer.bad = 0)
    (hth : th = ((t4 - t3) - (t2 - (h.xfer.t1 : Int)) + (BitVec.ofNat 16 (h.rdF (Reg.KL_TT_ASYM p) 15 0)).toInt) / 2) :
    h.ttDone p t2 t3 t4 = { h.ttShown th with xfer := h.xfer.counted th } := by
  have hframe : Frame h { h.ttShown th with xfer := h.xfer.counted th } [.xfer] {Reg.KLL_TT_STAT, Reg.KLL_TT_OFS} [] :=
    ((Frame.refl h).ttShown (by simp) (by simp)).withXfer List.mem_cons_self
  have hstay : ({ h.ttShown th with xfer := h.xfer.counted th } : Hub).timeSrc = h.timeSrc :=
    hframe.rdF (by rintro (e | e) <;> exact absurd e (by decide)) 1 0
  unfold Hub.ttDone
  dsimp only
  rw [← hth, Hub.ttRuns_short (by exact hgood) (by exact hbad), if_neg (by rw [hop]; simp), if_neg (by exact hstay ▸ hsrc)]
  rfl

theorem Hub.ttShown_ofs (h : Hub) (th : Int) : (h.ttShown th).rd Reg.KLL_TT_OFS = swordHold th := Hub.rd_wr_self _ _ _

theorem Hub.ttShown_stat (h : Hub) (th : Int) : (h.ttShown th).rd Reg.KLL_TT_STAT =
    setFld (setFld (h.rd Reg.KLL_TT_STAT) 15 8 (h.rdF Reg.KLL_TT_STAT 15 8 + 1)) 23 16 0 := by
  rw [Hub.ttShown, Hub.rd_wr_ne _ _ (by decide), Hub.rd_wrF, if_pos rfl, Hub.rd_incFW, if_pos rfl]

theorem ends_timeRespRx {p : LinkNo} {k : BitVec 16} {t2 t3 : BitVec 64} {f2 f3 : BitVec 4} {t4 : Nat} {th : Int}
    (hears : s.hub.hears p = true) (hsrc : s.hub.ttSource = some p.val) (hbusy : s.hub.xfer.busy = true) (hseq : k.toNat = s.hub.xfer.seq)
    (ht4 : s.hub.xfer.t4 = some t4)
    (hdone : s.hub.fresh.ttDone p (t2.toNat * 16 + f2.toNat : Nat) (t3.toNat * 16 + f3.toNat : Nat) (t4 : Nat)
      = { s.hub.fresh.ttShown th with xfer := s.hub.xfer.counted th }) (hbad : s.hub.xfer.bad = 0) :
    Ends (.timeRespRx p k t2 f2 t3 f3) s [.xfer] {Reg.KLL_TT_STAT, Reg.KLL_TT_OFS} [] (fun t =>
      t.hub.rd Reg.KLL_TT_OFS = swordHold th ∧ t.hub.xfer.busy = false
      ∧ t.hub.rdF Reg.KLL_TT_STAT 15 8 = (s.hub.rdF Reg.KLL_TT_STAT 15 8 + 1) % 256 ∧ t.hub.rdF Reg.KLL_TT_STAT 23 16 = 0
      ∧ t.hub.xfer.good = (if th.natAbs ≤ 32 then s.hub.xfer.good + 1 else 0)
      ∧ t.hub.xfer.bad = (if 320 < th.natAbs then 1 else 0)) := by
  refine ends_effect (k := { s.hub.fresh.ttShown th with xfer := s.hub.xfer.counted th }) (exec_timeRespRx p k t2 t3 f2 f3 s)
    (by simp [hears, hsrc, hbusy, hseq, ht4]) ?effect (((Frame.refl _).ttShown (by simp) (by simp)).withXfer List.mem_cons_self) ?result
  case effect =>
    rw [show s.hub.fresh.xfer.t4 = some t4 from ht4]
    exact hdone
  case result =>
    have hstat := s.hub.fresh.ttShown_stat th
    rw [settle_rd, settle_xfer, settle_rdF, settle_rdF]
    refine ⟨s.hub.fresh.ttShown_ofs th, rfl, ?_, ?_, rfl, by rw [TimeXfer.counted, hbad]⟩
    · exact (congrArg (fld · 15 8) hstat).trans
        ((fld_setFld_ne _ _ _ _ _ _ (by decide)).trans (fld_setFld _ _ _ _ (by decide)))
    · exact (congrArg (fld · 23 16) hstat).trans (fld_setFld _ _ _ _ (by decide))

/-! ### A missed exchange (R149, R151) -/

/-- A miss of an exchange that no operation waits for, before LOCKED is judged. -/
def Hub.missCounted (h : Hub) : Hub :=
  { h with xfer := { h.xfer with busy := false, viaOp := false, good := 0 } }.incF Reg.KLL_TT_STAT 23 16

theorem Hub.exchangeMissed_plain (hop : h.xfer.viaOp = false) : h.exchangeMissed =
    if 4 ≤ h.missCounted.rdF Reg.KLL_TT_STAT 23 16 then h.missCounted.setTtLocked false else h.missCounted := by
  unfold Hub.exchangeMissed
  dsimp only
  rw [if_neg (by rw [hop]; simp)]
  rfl

theorem Frame.missCounted (a : Frame h k ps rs bs) (hp : Part.xfer ∈ ps) (hr : Reg.KLL_TT_STAT ∈ rs) :
    Frame h k.missCounted ps rs bs := (a.withXfer hp).incF hr

theorem Hub.missCounted_stat (h : Hub) : h.missCounted.rd Reg.KLL_TT_STAT =
    setFld (h.rd Reg.KLL_TT_STAT) 23 16 (holdAt (2 ^ (23 + 1 - 16) - 1) (h.rdF Reg.KLL_TT_STAT 23 16 + 1)) :=
  (Hub.rd_incF _ _ _ _ _ _).trans (if_pos rfl)

theorem Hub.missCounted_misses (hfew : h.rdF Reg.KLL_TT_STAT 23 16 ≤ 3) :
    h.missCounted.rdF Reg.KLL_TT_STAT 23 16 = h.rdF Reg.KLL_TT_STAT 23 16 + 1 := by
  rw [Hub.rdF, Hub.missCounted_stat, fld_setFld _ _ _ _ (by decide), holdAt]
  omega

theorem ends_timeExchangeMiss (hup : s.hub.up .kll = true) (hbusy : s.hub.xfer.busy = true) (hlate : s.hub.xfer.reqAt + 500000 ≤ s.hub.mono)
    (hop : s.hub.xfer.viaOp = false) (hfew : s.hub.rdF Reg.KLL_TT_STAT 23 16 < 3) :
    Ends .timeExchangeMiss s [.xfer] {Reg.KLL_TT_STAT} [] (fun t =>
      t.hub.xfer.busy = false ∧ t.hub.xfer.good = 0
      ∧ t.hub.rdF Reg.KLL_TT_STAT 23 16 = s.hub.rdF Reg.KLL_TT_STAT 23 16 + 1) := by
  have hcount := Hub.missCounted_misses (h := s.hub.fresh) (Nat.le_of_lt hfew)
  refine ends_effect (k := s.hub.fresh.missCounted) (exec_timeExchangeMiss s) (by simp [hup, hbusy, hlate]) ?effect
    ((Frame.refl _).missCounted List.mem_cons_self rfl) ?result
  case effect =>
    rw [Hub.exchangeMissed_plain (h := s.hub.fresh) hop, if_neg (by rw [hcount, Hub.rdF_fresh]; omega)]
  case result =>
    rw [settle_xfer, settle_rdF, hcount]
    exact ⟨rfl, rfl, rfl⟩

/-! ### LOCKED is lost (R151) -/

theorem Frame.showTtSrc (a : Frame h k ps rs bs) (hr : blockRegs .kll ⊆ rs) : Frame h k.showTtSrc ps rs bs := by
  refine Frame.foldl _ a fun p j hp b => b.wrB (hr ?_)
  have hlt : p < 9 := List.mem_range.mp hp
  exact ⟨by rw [Reg.KL_STATE, show Block.kll.base = 0x00900000 from rfl]; omega,
    by rw [Reg.KL_STATE, show Block.kll.base = 0x00900000 from rfl]; omega⟩

/-- TT_SRC of every port shows in KL_STATE alone. -/
theorem Hub.showTtSrc_rd (h : Hub) {a : Nat} (ha : ∀ p < 9, a ≠ Reg.KL_STATE p) : h.showTtSrc.rd a = h.rd a := by
  have hframe : Frame h h.showTtSrc [] { a | ∃ p < 9, a = Reg.KL_STATE p } [] := by
    unfold Hub.showTtSrc
    exact Frame.foldl _ (Frame.refl h) fun p _ hp b => b.wrB ⟨p, List.mem_range.mp hp, rfl⟩
  exact hframe.reg a fun ⟨p, hp, e⟩ => ha p hp e

theorem KLL_TT_STAT_ne_KL_STATE (p : Nat) (hp : p < 9) : Reg.KLL_TT_STAT ≠ Reg.KL_STATE p := by
  intro e
  rw [Reg.KLL_TT_STAT, Reg.KL_STATE] at e
  omega

/-- LOCKED cleared, TT_LOCK raised and TT_SRC cleared at every port. -/
def Hub.ttUnlocked (h : Hub) : Hub := ((h.wrB Reg.KLL_TT_STAT 0 false).attn .kll 5).showTtSrc

theorem Frame.ttUnlocked (a : Frame h k ps rs bs) (hr : blockRegs .kll ⊆ rs) (hb : Block.kll ∈ bs) : Frame h k.ttUnlocked ps rs bs :=
  ((a.wrB (hr ⟨by decide, by decide⟩)).attn hb).showTtSrc hr

theorem Hub.ttUnlocked_stat (h : Hub) : h.ttUnlocked.rd Reg.KLL_TT_STAT = setBit (h.rd Reg.KLL_TT_STAT) 0 false := by
  rw [Hub.ttUnlocked, Hub.showTtSrc_rd _ KLL_TT_STAT_ne_KL_STATE, Hub.attn_rd, Hub.rd_wrB, if_pos rfl]

theorem Hub.ttUnlocked_timeSrc (h : Hub) : h.ttUnlocked.timeSrc = h.timeSrc := by
  have hne (p : Nat) (hp : p < 9) : Reg.STW_TIME_CFG ≠ Reg.KL_STATE p := by
    intro e
    rw [Reg.STW_TIME_CFG, Reg.KL_STATE] at e
    omega
  rw [Hub.timeSrc, Hub.rdF, Hub.ttUnlocked, Hub.showTtSrc_rd _ hne, Hub.attn_rd, Hub.rd_wrB, if_neg (by decide)]
  rfl

theorem Hub.setTtLocked_false (hlock : h.rdB Reg.KLL_TT_STAT 0 = true) (hsrc : h.timeSrc ≠ 1) : h.setTtLocked false = h.ttUnlocked := by
  rw [Hub.setTtLocked, if_neg (by rw [hlock]; decide)]
  exact if_neg ((Hub.ttUnlocked_timeSrc h).trans_ne hsrc)

theorem Hub.missCounted_locked (h : Hub) : h.missCounted.rdB Reg.KLL_TT_STAT 0 = h.rdB Reg.KLL_TT_STAT 0 := by
  rw [Hub.rdB, Hub.missCounted_stat, bit_setFld_ne _ _ _ _ _ (by decide)]
  rfl

theorem Hub.missCounted_timeSrc (h : Hub) : h.missCounted.timeSrc = h.timeSrc := by
  have hframe : Frame h h.missCounted [.xfer] {Reg.KLL_TT_STAT} [] := (Frame.refl h).missCounted List.mem_cons_self rfl
  exact hframe.rdF (fun e => absurd e (by decide)) 1 0

theorem Hub.ttUnlocked_raw (h : Hub) : h.ttUnlocked.raw .kll 5 = true :=
  (Hub.Steady.refl _).showTtSrc.raw (Hub.raw_attn_self _ _ (by decide))

theorem ends_timeExchangeMiss_unlocks (hup : s.hub.up .kll = true) (hbusy : s.hub.xfer.busy = true)
    (hlate : s.hub.xfer.reqAt + 500000 ≤ s.hub.mono) (hop : s.hub.xfer.viaOp = false) (hthree : s.hub.rdF Reg.KLL_TT_STAT 23 16 = 3)
    (hlock : s.hub.rdB Reg.KLL_TT_STAT 0 = true) (hsrc : s.hub.timeSrc ≠ 1) :
    Ends .timeExchangeMiss s [.xfer] (blockRegs .kll) [.kll] (fun t =>
      t.hub.rdB Reg.KLL_TT_STAT 0 = false ∧ t.hub.raw .kll 5 = true ∧ t.hub.rdF Reg.KLL_TT_STAT 23 16 = 4) := by
  have hcount : s.hub.fresh.missCounted.rdF Reg.KLL_TT_STAT 23 16 = 4 := by
    rw [Hub.missCounted_misses (h := s.hub.fresh) (by rw [Hub.rdF_fresh, hthree]), Hub.rdF_fresh, hthree]
  have hmissed : Frame s.hub.fresh s.hub.fresh.missCounted [.xfer] (blockRegs .kll) [.kll] :=
    (Frame.refl _).missCounted List.mem_cons_self ⟨by decide, by decide⟩
  refine ends_effect (k := s.hub.fresh.missCounted.ttUnlocked) (exec_timeExchangeMiss s) (by simp [hup, hbusy, hlate]) ?effect
    (hmissed.ttUnlocked subset_rfl List.mem_cons_self) ?result
  case effect =>
    rw [Hub.exchangeMissed_plain (h := s.hub.fresh) hop, if_pos (by rw [hcount])]
    exact Hub.setTtLocked_false ((Hub.missCounted_locked _).trans hlock) ((Hub.missCounted_timeSrc _).trans_ne hsrc)
  case result =>
    rw [settle_rdB, settle_raw _ _ _ _ (.inl (by decide)), settle_rdF, Hub.rdB, Hub.rdF, Hub.ttUnlocked_stat]
    exact ⟨(bit_setBit _ _ _ _ (by decide)).trans (if_pos rfl), Hub.ttUnlocked_raw _,
      (fld_setBit_ne _ _ _ _ _ (by decide) (by decide)).trans hcount⟩

/-! ### The clauses -/

/-- Settles O36: each clause is its command's effect on the branch that its conditions choose. -/
theorem timeTransfer : Obligations.TimeTransfer := by
  refine ⟨fun s p hup hsrc hidle hdue => ends_timeExchangeStart hup hsrc hidle hdue,
    fun s p k d hears hup hd hmac => ends_timeReqRx hears hup hd hmac,
    fun s p k hears hsrc hbusy hseq hmac => ends_timeMarkRx hears hsrc hbusy hseq hmac, ?response,
    fun s hup hbusy hlate hop hfew => ends_timeExchangeMiss hup hbusy hlate hop hfew,
    fun s hup hbusy hlate hop hthree hlock hsrc => ends_timeExchangeMiss_unlocks hup hbusy hlate hop hthree hlock hsrc,
    fun s p hrun hup hsrc hop => ends_ttExchangeNow hrun hup hsrc hop, ?nowRefused, ?runsReq, ?runsResp, ?runsMiss,
    fun s hrun => runs_mbxAct (exec_ttExchangeNow s) hrun⟩
  case response =>
    intro s p k t2 t3 f2 f3 t4 th hears hsrc hbusy hseq ht4 hop htime hgood hbad hth
    exact ends_timeRespRx hears hsrc hbusy hseq ht4 (Hub.ttDone_short (h := s.hub.fresh) hop htime hgood hbad hth) hbad
  case nowRefused =>
    intro s hrun hup hsrc
    refine ends_mbxRefused (exec_ttExchangeNow s) hrun (Hub.present_of_up hup) ?_
    rw [Hub.exchangeNowOp, show s.hub.fresh.ttUp = none from hsrc]
  case runsReq =>
    intro s p k d hears hup hd
    exact runs_actT (f := fun h => h.timeAsked p k d) (exec_timeReqRx p k d s) (by simp [hears, hup, hd])
  case runsResp =>
    intro s p k t2 t3 f2 f3 t4 hears hsrc hbusy hseq ht4
    have hrun := runs_act (exec_timeRespRx p k t2 t3 f2 f3 s) (by simp [hears, hsrc, hbusy, hseq, ht4])
    rw [show s.hub.fresh.xfer.t4 = some t4 from ht4] at hrun
    exact hrun
  case runsMiss =>
    intro s hup hbusy hlate
    exact runs_act (exec_timeExchangeMiss s) (by simp [hup, hbusy, hlate])

end Sys2Proof.Machine
end

section
/-! SUPPORT. The record of a link port, its receive errors, and a change of its state that is its own affair (R122, R135, R143). -/

namespace Sys2Proof.Machine

variable {h k o n : Hub} {ps : List Part} {rs : Set Nat} {bs : List Block} {p : Nat}

/-! ### The record of a port -/

theorem Hub.link_updLink (h : Hub) (p q : Nat) (f : LinkSt → LinkSt) : (h.updLink p f).link q = if q = p then f (h.link p) else h.link q :=
  Tab.get_set _ _ _ _ _

@[simp] theorem Hub.link_updLink_self (h : Hub) (p : Nat) (f : LinkSt → LinkSt) : (h.updLink p f).link p = f (h.link p) :=
  (h.link_updLink p p f).trans (if_pos rfl)

theorem Hub.link_updLink_ne {q : Nat} (hq : q ≠ p) (h : Hub) (f : LinkSt → LinkSt) : (h.updLink p f).link q = h.link q :=
  (h.link_updLink p q f).trans (if_neg hq)

/-- Changes of one port's record, one after the other, are the same changes of the record. -/
theorem Hub.link_foldl_updLink {α : Type} (f : α → LinkSt → LinkSt) (l : List α) (h : Hub) (p : Nat) :
    (l.foldl (fun h x => h.updLink p (f x)) h).link p = l.foldl (fun r x => f x r) (h.link p) := by
  induction l generalizing h with
  | nil => rfl
  | cons x l ih => rw [List.foldl_cons, List.foldl_cons, ih, Hub.link_updLink_self]

theorem Hub.link_congr (hl : k.links = h.links) (p : Nat) : k.link p = h.link p := by
  unfold Hub.link
  rw [hl]

theorem Frame.link (a : Frame h k ps rs bs) (hp : Part.links ∉ ps) (p : Nat) : k.link p = h.link p :=
  Hub.link_congr (a.part .links hp) p

theorem settle_link (o n : Hub) (p : Nat) : (settle o n).link p = n.link p := Hub.link_congr (settle_links o n) p

/-! ### The end of a command that moves no cell -/

theorem Hub.cycleEnd_link (hc : n.cells = o.cells) (p : Nat) : (o.cycleEnd n).link p = n.link p :=
  ((Frame.refl n).cycleEnd (ps := []) (rs := {Reg.TSC_KITTY_MIN}) (bs := [.tsc]) hc rfl List.mem_cons_self).link List.not_mem_nil p

theorem Hub.cycleEnd_sticky (hc : n.cells = o.cells) (b : Block) : ((o.cycleEnd n).hdr b).sticky = (n.hdr b).sticky := by
  obtain ⟨w, hw⟩ := Hub.tscWatch_hdr hc b
  rw [Hub.cycleEnd, settle_sticky, hw]

theorem Hub.cycleEnd_rdB (hc : n.cells = o.cells) {a : Nat} (ha : a ≠ Reg.TSC_KITTY_MIN) (i : Nat) :
    (o.cycleEnd n).rdB a i = n.rdB a i := by
  rw [Hub.rdB, Hub.cycleEnd_rd hc ha, Hub.rdB]

theorem Hub.cycleEnd_klState (hc : n.cells = o.cells) (hp : p ≤ 8) : (o.cycleEnd n).klState p = n.klState p :=
  Hub.cycleEnd_rdF hc (by unfold Reg.KL_STATE Reg.TSC_KITTY_MIN; omega) 3 0

/-! ### Receive errors (R122, R127, R143) -/

@[simp] theorem Hub.fault_cells (h : Hub) (b : Block) (i : Nat) : (h.fault b i).cells = h.cells :=
  (h.fault_frame b i).part .cells (by decide)

theorem Hub.fault_link (h : Hub) (b : Block) (i p : Nat) : (h.fault b i).link p = h.link p := (h.fault_frame b i).link (by decide) p

theorem Hub.fault_rd (h : Hub) (b : Block) (i : Nat) {a : Nat} (ha : a ≠ Reg.SIT_FAULTN_CNT) : (h.fault b i).rd a = h.rd a :=
  (h.fault_frame b i).reg a ha

theorem Frame.hdrErr (a : Frame h k ps rs bs) (hp : Part.pins ∈ ps) (hc : Reg.KL_CNT_HDR p ∈ rs) (hf : Reg.SIT_FAULTN_CNT ∈ rs)
    (hk : Block.kll ∈ bs) (hs : Block.sit ∈ bs) : Frame h (k.hdrErr p) ps rs bs := (a.inc hc).fault hk hp hf hs

theorem Hub.hdrErr_cells (h : Hub) (p : Nat) : (h.hdrErr p).cells = h.cells := Hub.fault_cells _ _ _

theorem Hub.hdrErr_out (h : Hub) (p : Nat) : (h.hdrErr p).out = h.out := Hub.fault_out _ _ _

theorem Hub.hdrErr_link (h : Hub) (p q : Nat) : (h.hdrErr p).link q = h.link q := Hub.fault_link _ _ _ _

theorem Hub.hdrErr_sticky (h : Hub) (p : Nat) : bit ((h.hdrErr p).hdr .kll).sticky 0 = true := Hub.fault_sticky_self _ _ (by decide)

theorem KL_CNT_HDR_ne_FAULTN (hp : p ≤ 8) : Reg.KL_CNT_HDR p ≠ Reg.SIT_FAULTN_CNT := by
  unfold Reg.KL_CNT_HDR Reg.SIT_FAULTN_CNT
  omega

theorem KL_CNT_HDR_ne_KITTY_MIN (hp : p ≤ 8) : Reg.KL_CNT_HDR p ≠ Reg.TSC_KITTY_MIN := by
  unfold Reg.KL_CNT_HDR Reg.TSC_KITTY_MIN
  omega

theorem Hub.hdrErr_count (h : Hub) (hp : p ≤ 8) : (h.hdrErr p).rd (Reg.KL_CNT_HDR p) = incHold (h.rd (Reg.KL_CNT_HDR p)) := by
  rw [Hub.hdrErr, Hub.fault_rd _ _ _ (KL_CNT_HDR_ne_FAULTN hp), Hub.rd_inc, if_pos rfl]

/-! ### A calm port changes its state (R135) -/

theorem Hub.depthNow_congr (hs : k.straps = h.straps) (hst : k.rd (Reg.KL_STATE 0) = h.rd (Reg.KL_STATE 0)) (hl : k.link 0 = h.link 0) :
    k.depthNow = h.depthNow := by
  unfold Hub.depthNow Hub.klState Hub.rdF Hub.role
  rw [hs, hst, hl]

theorem Hub.ttSource_congr (hc : k.rd Reg.KLL_TT_CFG = h.rd Reg.KLL_TT_CFG) : k.ttSource = h.ttSource := by
  unfold Hub.ttSource Hub.rdF
  rw [hc]

theorem Hub.paired_congr (hm : k.rd Reg.MIR_STAT = h.rd Reg.MIR_STAT) : k.paired = h.paired := by
  unfold Hub.paired Hub.pairState Hub.rdF
  rw [hm]

/-- What makes a port calm is kept by what leaves four registers, the straps and the first port's record alone. -/
theorem Frame.calm (a : Frame h k ps rs bs) (hs : Part.straps ∉ ps) (hst : Reg.KL_STATE 0 ∉ rs) (hd : Reg.KLL_DEPTH ∉ rs)
    (hc : Reg.KLL_TT_CFG ∉ rs) (hm : Reg.MIR_STAT ∉ rs) (hl : k.link 0 = h.link 0) (p : Nat) : k.calm p = h.calm p := by
  unfold Hub.calm
  rw [Hub.ttSource_congr (a.reg _ hc), Hub.paired_congr (a.reg _ hm), Hub.depthNow_congr (a.part .straps hs) (a.reg _ hst) hl, a.rdF hd]

theorem Hub.calm_pos (hcalm : h.calm p = true) : 1 ≤ p := by
  simp only [Hub.calm, Bool.and_eq_true, decide_eq_true_eq] at hcalm
  omega

/-- The record of a port that enters a state. -/
def LinkSt.entered (x : LinkSt) (at_ : Nat) : LinkSt := { x with since := at_, creditRx := false }

/-- A port in another state: KL_STATE, KLL_PORT_UP and the port's record follow, and the depth is shown again. -/
def Hub.klMoved (h : Hub) (p new : Nat) (depth : Word) : Hub :=
  (((h.wrF (Reg.KL_STATE p) 3 0 new).updLink p fun l => l.entered h.mono).wrB Reg.KLL_PORT_UP p (decide (new = 5 ∨ new = 6))).wr Reg.KLL_DEPTH depth

theorem Frame.klMoved {new : Nat} {w : Word} (a : Frame h k ps rs bs) (hp : Part.links ∈ ps) (hr : klRegs p ⊆ rs) :
    Frame h (k.klMoved p new w) ps rs bs :=
  (((a.wrF (hr (by simp [klRegs]))).updLink hp).wrB (hr (by simp [klRegs]))).wr (hr (by simp [klRegs]))

theorem Hub.klMoved_rd (h : Hub) {new : Nat} {w : Word} {a : Nat} (ha : a ∉ klRegs p) : (h.klMoved p new w).rd a = h.rd a :=
  ((Frame.refl h).klMoved (ps := [.links]) (bs := []) List.mem_cons_self subset_rfl).reg a ha

theorem Hub.klMoved_klState (h : Hub) {new : Nat} {w : Word} (hnew : new < 16) : (h.klMoved p new w).klState p = new := by
  have hrd : (h.klMoved p new w).rd (Reg.KL_STATE p) = setFld (h.rd (Reg.KL_STATE p)) 3 0 new := by
    rw [Hub.klMoved, Hub.rd_wr_ne _ _ (by unfold Reg.KL_STATE Reg.KLL_DEPTH; omega), Hub.rd_wrB,
      if_neg (by unfold Reg.KL_STATE Reg.KLL_PORT_UP; omega), Hub.updLink_rd, Hub.rd_wrF, if_pos rfl]
  rw [Hub.klState, Hub.rdF, hrd, fld_setFld _ _ _ _ (by decide)]
  exact Nat.mod_eq_of_lt hnew

theorem Hub.klMoved_link (h : Hub) {new : Nat} {w : Word} : (h.klMoved p new w).link p = (h.link p).entered h.mono :=
  (h.wrF (Reg.KL_STATE p) 3 0 new).link_updLink_self p fun l => l.entered h.mono

theorem Hub.klMoved_portUp (h : Hub) {new : Nat} {w : Word} (hp : p < 32) (hnew : new = 5 ∨ new = 6) :
    (h.klMoved p new w).rdB Reg.KLL_PORT_UP p = true := by
  rw [Hub.rdB, Hub.klMoved, Hub.rd_wr_ne _ _ (by decide), Hub.rd_wrB, if_pos rfl, bit_setBit _ _ _ _ hp, if_pos rfl]
  exact decide_eq_true hnew

theorem Hub.showDepth_same (hd : h.depthNow = h.rdF Reg.KLL_DEPTH 5 0) : ∃ w, h.showDepth = h.wr Reg.KLL_DEPTH w := by
  have hnow (w : Word) : (h.wr Reg.KLL_DEPTH w).depthNow = h.depthNow := Hub.depthNow_congr rfl (Hub.rd_wr_ne _ _ (by decide)) rfl
  refine ⟨_, (if_pos ?_ : h.showDepth = _)⟩
  rw [hnow, hd]

theorem Hub.klAttn_quiet {old new : Nat} (hmove : old = 5 ∧ new = 6 ∨ old = 5 ∧ new = 7 ∨ old = 6 ∧ new = 5) : h.klAttn old new = h := by
  rcases hmove with ⟨rfl, rfl⟩ | ⟨rfl, rfl⟩ | ⟨rfl, rfl⟩ <;> rfl

theorem Hub.autoHandover_unpaired (hpair : h.paired = false) (p : Nat) : h.autoHandover p = h := by
  unfold Hub.autoHandover
  rw [hpair]
  split
  · exact if_neg (by simp)
  · rfl

/-- Between UP, IDLE and RECOVER nothing follows from a calm port's change of state but what `klMoved` says. -/
theorem Hub.setKl_calm {old new : Nat} (hcalm : h.calm p = true) (hold : h.klState p = old)
    (hmove : old = 5 ∧ new = 6 ∨ old = 5 ∧ new = 7 ∨ old = 6 ∧ new = 5) : ∃ w, h.setKl p new = h.klMoved p new w := by
  obtain ⟨⟨⟨⟨hlo, hhi⟩, htt⟩, hpair⟩, hdepth⟩ := by
    simpa only [Hub.calm, Bool.and_eq_true, decide_eq_true_eq, Bool.not_eq_true'] using hcalm
  generalize hm : ((h.wrF (Reg.KL_STATE p) 3 0 new).updLink p fun l => l.entered h.mono).wrB Reg.KLL_PORT_UP p
    (decide (new = 5 ∨ new = 6)) = m
  have hframe : Frame h m [.links] {Reg.KL_STATE p, Reg.KLL_PORT_UP} [] := by
    rw [← hm]
    exact (((Frame.refl h).wrF (by simp)).updLink List.mem_cons_self).wrB (by simp)
  have hkept {a : Nat} (hst : a ≠ Reg.KL_STATE p) (hup : a ≠ Reg.KLL_PORT_UP) : m.rd a = h.rd a := hframe.reg a (by simp [hst, hup])
  have hlink : m.link 0 = h.link 0 := by
    rw [← hm]
    exact Hub.link_updLink_ne (by omega) (h.wrF (Reg.KL_STATE p) 3 0 new) fun l => l.entered h.mono
  have htt' : ¬ (old = 5 ∧ m.ttSource = some p) := by
    rw [Hub.ttSource_congr (hkept (by unfold Reg.KLL_TT_CFG Reg.KL_STATE; omega) (by decide))]
    exact fun e => htt e.2
  have hpair' : m.paired = false := (Hub.paired_congr (hkept (by unfold Reg.MIR_STAT Reg.KL_STATE; omega) (by decide))).trans hpair
  have hdepth' : m.depthNow = m.rdF Reg.KLL_DEPTH 5 0 := by
    rw [Hub.depthNow_congr (hframe.part .straps (by decide)) (hkept (by unfold Reg.KL_STATE; omega) (by decide)) hlink, hdepth, Hub.rdF,
      Hub.rdF, hkept (by unfold Reg.KLL_DEPTH Reg.KL_STATE; omega) (by decide)]
  obtain ⟨w, hw⟩ := Hub.showDepth_same hdepth'
  refine ⟨w, ?_⟩
  rw [Hub.klMoved, hm, ← hw]
  unfold Hub.setKl
  dsimp only
  rw [hold, if_neg (show ¬ old = new by omega), if_neg (show ¬ (new = 0 ∨ new = 1 ∨ new = 9) by omega), Hub.klAttn_quiet hmove,
    show (((h.wrF (Reg.KL_STATE p) 3 0 new).updLink p fun l => { l with since := h.mono, creditRx := false }).wrB Reg.KLL_PORT_UP p
      (decide (new = 5 ∨ new = 6))) = m from hm, if_neg htt', Hub.autoHandover_unpaired hpair', ite_self,
    if_neg (show ¬ (p = 8 ∧ new = 5 ∧ old ≠ 6 ∧ old ≠ 7) by omega), if_neg (show ¬ (p = 8 ∧ old = 5 ∧ new ≠ 6 ∧ new ≠ 7) by omega),
    if_neg (show ¬ p = 0 by omega)]

end Sys2Proof.Machine
end

section
/-! SUPPORT. Credit, replay and idle of a link (R122, R140, R141, R144, R146 to R148). -/

namespace Sys2Proof.Machine

variable {h k : Hub} {ps : List Part} {rs : Set Nat} {bs : List Block} {s : State} {p : LinkNo}

theorem exec_creditBlockRx (p : LinkNo) (hi nak : Bool) (k : BitVec 12) (v : List (BitVec 16)) (g : Bool) (s : State) :
    exec (.creditBlockRx p hi nak k v g) s = execCreditBlockRx p hi nak k v g s := rfl

theorem exec_creditBlockSend (p : LinkNo) (s : State) : exec (.creditBlockSend p) s = execCreditBlockSend p s := rfl

theorem exec_replayTimeout (p : LinkNo) (s : State) : exec (.replayTimeout p) s = execReplayTimeout p s := rfl

theorem exec_idleRequest (p : LinkNo) (s : State) : exec (.idleRequest p) s = execIdleRequest p s := rfl

theorem exec_idleReqRx (p : LinkNo) (s : State) : exec (.idleReqRx p) s = execIdleReqRx p s := rfl

theorem exec_idleAckRx (p : LinkNo) (s : State) : exec (.idleAckRx p) s = execIdleAckRx p s := rfl

theorem exec_idleNakRx (p : LinkNo) (s : State) : exec (.idleNakRx p) s = execIdleNakRx p s := rfl

theorem exec_linkWake (p : LinkNo) (s : State) : exec (.linkWake p) s = execLinkWake p s := rfl

/-! ### Credit blocks received (R122, R141) -/

theorem ends_creditBlockRx {hi nak g : Bool} {k : BitVec 12} {v : List (BitVec 16)} {j : Hub} {Q : State → Prop}
    (hears : s.hub.hears p = true) (hlo : 2 ≤ s.hub.klState p) (hhi : s.hub.klState p ≤ 8) (hk : s.hub.fresh.creditIn p hi nak k v g = j)
    (hcells : j.cells = s.hub.fresh.cells) (hr : Reg.TSC_KITTY_MIN ∈ rs) (ht : Block.tsc ∈ bs) (hf : Frame s.hub.fresh j ps rs bs)
    (hq : Q { s with hub := s.hub.fresh.cycleEnd j }) : Ends (.creditBlockRx p hi nak k v g) s ps rs bs Q :=
  ends_actT (f := fun h => h.creditIn p hi nak k v g) (exec_creditBlockRx p hi nak k v g s) (by simp [hears, hlo, hhi]) hk hcells hr ht hf hq

theorem Hub.creditIn_bad (hmac : (h.link p).macCell = none) (hi nak : Bool) (k : BitVec 12) (v : List (BitVec 16)) :
    h.creditIn p hi nak k v false = h.hdrErr p := by
  rw [Hub.creditIn, Hub.macMissing_of_none hmac]
  rfl

theorem ends_creditBlockRx_bad {hi nak : Bool} {k : BitVec 12} {v : List (BitVec 16)} (hears : s.hub.hears p = true)
    (hlo : 2 ≤ s.hub.klState p) (hhi : s.hub.klState p ≤ 8) (hmac : (s.hub.link p).macCell = none) :
    Ends (.creditBlockRx p hi nak k v false) s [.pins] {Reg.KL_CNT_HDR p, Reg.SIT_FAULTN_CNT, Reg.TSC_KITTY_MIN} [.kll, .sit, .tsc]
      (fun t => t.hub.rd (Reg.KL_CNT_HDR p) = incHold (s.hub.rd (Reg.KL_CNT_HDR p)) ∧ bit (t.hub.hdr .kll).sticky 0 = true) := by
  have hcells := s.hub.fresh.hdrErr_cells p
  have hp : p.val ≤ 8 := Nat.le_of_lt_succ p.isLt
  refine ends_creditBlockRx hears hlo hhi (Hub.creditIn_bad (h := s.hub.fresh) hmac hi nak k v) hcells (by simp) (by simp)
    ((Frame.refl _).hdrErr (by simp) (by simp) (by simp) (by simp) (by simp)) ⟨?_, ?_⟩
  · rw [Hub.cycleEnd_rd hcells (KL_CNT_HDR_ne_KITTY_MIN hp), Hub.hdrErr_count _ hp]
    rfl
  · rw [Hub.cycleEnd_sticky hcells]
    exact Hub.hdrErr_sticky _ _

/-- The return count of class `c` in a credit block of the given half. -/
theorem getD_map_toNat (v : List (BitVec 16)) (c : Nat) : (v.map fun x => x.toNat).getD c 0 = (v.getD c 0).toNat := by
  rw [List.getD_eq_getElem?_getD, List.getD_eq_getElem?_getD, List.getElem?_map]
  cases v[c]? <;> rfl

/-- A count of the block that would make OUT of its class exceed 32,767. -/
def LinkSt.overCredit (l : LinkSt) (hi : Bool) (v : List (BitVec 16)) : Bool :=
  (List.range 4).any fun c => decide (32767 < outAfter (l.sentCum.getD ((if hi then 4 else 0) + c) 0) (v.getD c 0).toNat)

theorem Hub.creditIn_over {hi : Bool} {v : List (BitVec 16)} (hmac : (h.link p).macCell = none)
    (hover : (h.link p).overCredit hi v = true) (nak : Bool) (k : BitVec 12) : h.creditIn p hi nak k v true = h.fault .kll 3 := by
  rw [Hub.creditIn, Hub.macMissing_of_none hmac, if_pos rfl]
  refine if_pos ?_
  simp only [getD_map_toNat]
  exact hover

theorem ends_creditBlockRx_over {hi nak : Bool} {k : BitVec 12} {v : List (BitVec 16)} (hears : s.hub.hears p = true)
    (hlo : 2 ≤ s.hub.klState p) (hhi : s.hub.klState p ≤ 8) (hmac : (s.hub.link p).macCell = none)
    (hover : (s.hub.link p).overCredit hi v = true) :
    Ends (.creditBlockRx p hi nak k v true) s [.pins] {Reg.SIT_FAULTN_CNT, Reg.TSC_KITTY_MIN} [.kll, .sit, .tsc] (fun t =>
      bit (t.hub.hdr .kll).sticky 3 = true) := by
  have hcells : (s.hub.fresh.fault .kll 3).cells = s.hub.fresh.cells := Hub.fault_cells _ _ _
  refine ends_creditBlockRx hears hlo hhi (Hub.creditIn_over (h := s.hub.fresh) hmac hover nak k) hcells (by simp) (by simp)
    ((Frame.refl _).fault (by simp) (by simp) (by simp) (by simp)) ?_
  rw [Hub.cycleEnd_sticky hcells]
  exact Hub.fault_sticky_self _ _ (by decide)

/-- What a good credit block makes of one class: the returns received, and the credit in hand (R141). -/
def LinkSt.credited (base : Nat) (ret : List Nat) (c : Nat) (l : LinkSt) : LinkSt :=
  { l with
    retRx := putAt l.retRx (base + c) (ret.getD c 0 % 65536)
    hand := modAt l.hand (base + c) fun n =>
      n + (((ret.getD c 0 % 65536 + 65536 - l.retRx.getD (base + c) 0) % 65536 : Nat) : Int) }

/-- The record of a port after a good credit block. -/
def LinkSt.creditedAll (l : LinkSt) (base : Nat) (ret : List Nat) : LinkSt :=
  (List.range 4).foldl (fun l c => l.credited base ret c) l

theorem LinkSt.creditedAll_unacked (l : LinkSt) (base : Nat) (ret : List Nat) : (l.creditedAll base ret).unacked = l.unacked := rfl

theorem LinkSt.creditedAll_retRx {l : LinkSt} {base c : Nat} {ret : List Nat} (hlen : base + 4 ≤ l.retRx.length) (hc : c < 4) :
    (l.creditedAll base ret).retRx.getD (base + c) 0 = ret.getD c 0 % 65536 := by
  have hall : (l.creditedAll base ret).retRx = (((l.retRx.set (base + 0) (ret.getD 0 0 % 65536)).set (base + 1)
      (ret.getD 1 0 % 65536)).set (base + 2) (ret.getD 2 0 % 65536)).set (base + 3) (ret.getD 3 0 % 65536) := rfl
  rw [hall, List.getD_eq_getElem?_getD]
  have hcase : c = 0 ∨ c = 1 ∨ c = 2 ∨ c = 3 := by omega
  have h0 : base < l.retRx.length := by omega
  have h1 : base + 1 < l.retRx.length := by omega
  have h2 : base + 2 < l.retRx.length := by omega
  have h3 : base + 3 < l.retRx.length := by omega
  rcases hcase with rfl | rfl | rfl | rfl <;> simp [h0, h1, h2, h3]

/-- The credit of a good block's four classes. -/
def Hub.creditFold (h : Hub) (p base : Nat) (ret : List Nat) : Hub :=
  (List.range 4).foldl (fun h c => h.updLink p (LinkSt.credited base ret c)) h

theorem Hub.creditFold_link (h : Hub) (p base : Nat) (ret : List Nat) :
    (h.creditFold p base ret).link p = (h.link p).creditedAll base ret := Hub.link_foldl_updLink _ _ _ _

/-- A good credit block whose ACK_SEQ is that of no cell in flight: credit and KL_REPLAY_STAT.ACK. -/
def Hub.creditTaken (h : Hub) (p base ack : Nat) (ret : List Nat) : Hub :=
  ((h.creditFold p base ret).updLink p fun l => { l with creditRx := true }).wrF (Reg.KL_REPLAY_STAT p) 23 12 ack

theorem Hub.creditTaken_link (h : Hub) (p base ack : Nat) (ret : List Nat) :
    (h.creditTaken p base ack ret).link p = { (h.link p).creditedAll base ret with creditRx := true } := by
  rw [← Hub.creditFold_link]
  exact Hub.link_updLink_self _ p fun l => { l with creditRx := true }

theorem Hub.creditTaken_unacked (h : Hub) (p base ack : Nat) (ret : List Nat) :
    ((h.creditTaken p base ack ret).link p).unacked = (h.link p).unacked := by
  rw [Hub.creditTaken_link]
  dsimp only
  rw [LinkSt.creditedAll_unacked]

theorem Hub.creditTaken_retRx {base c : Nat} {h : Hub} {p : Nat} (hlen : base + 4 ≤ (h.link p).retRx.length) (hc : c < 4) (ack : Nat)
    (ret : List Nat) : ((h.creditTaken p base ack ret).link p).retRx.getD (base + c) 0 = ret.getD c 0 % 65536 := by
  rw [Hub.creditTaken_link]
  dsimp only
  rw [LinkSt.creditedAll_retRx hlen hc]

theorem Frame.creditTaken {p base ack : Nat} {ret : List Nat} (a : Frame h k ps rs bs) (hp : Part.links ∈ ps)
    (hr : Reg.KL_REPLAY_STAT p ∈ rs) : Frame h (k.creditTaken p base ack ret) ps rs bs :=
  (Frame.updLink (Frame.foldl _ a fun _ _ _ b => b.updLink hp) hp).wrF hr

theorem Hub.creditTaken_cells (h : Hub) (p base ack : Nat) (ret : List Nat) : (h.creditTaken p base ack ret).cells = h.cells :=
  ((Frame.refl h).creditTaken (ps := [.links]) (rs := {Reg.KL_REPLAY_STAT p}) (bs := []) List.mem_cons_self rfl).part .cells (by decide)

theorem Hub.ackTo_unknown {ack p : Nat} (hno : (h.link p).unacked.any (fun e => decide (e.1 = ack)) = false) :
    h.ackTo p ack = h.wrF (Reg.KL_REPLAY_STAT p) 23 12 ack := by
  unfold Hub.ackTo
  refine if_neg ?_
  rw [Bool.not_eq_true]
  exact hno

theorem Hub.creditIn_taken {hi : Bool} {k : BitVec 12} {v : List (BitVec 16)} (hmac : (h.link p).macCell = none)
    (hover : (h.link p).overCredit hi v = false) (hno : (h.link p).unacked.any (fun e => decide (e.1 = k.toNat)) = false) :
    h.creditIn p hi false k v true = h.creditTaken p (if hi then 4 else 0) k.toNat (v.map fun x => x.toNat) := by
  have hover' : ¬ (List.range 4).any (fun c => decide (32767 < outAfter ((h.link p).sentCum.getD ((if hi then 4 else 0) + c) 0)
      ((v.map fun x => x.toNat).getD c 0))) = true := by
    simp only [getD_map_toNat]
    rw [Bool.not_eq_true]
    exact hover
  have hcredit : h.creditRx p hi false k.toNat (v.map fun x => x.toNat) =
      ((h.creditFold p (if hi then 4 else 0) (v.map fun x => x.toNat)).updLink p fun l => { l with creditRx := true }).ackTo p k.toNat :=
    (if_neg hover').trans (if_neg (by simp))
  have hflight : (((h.creditFold p (if hi then 4 else 0) (v.map fun x => x.toNat)).updLink p fun l =>
      { l with creditRx := true }).link p).unacked = (h.link p).unacked := by
    rw [Hub.link_updLink_self, Hub.creditFold_link]
    dsimp only
    rw [LinkSt.creditedAll_unacked]
  rw [Hub.creditIn, Hub.macMissing_of_none hmac, if_pos rfl, hcredit, Hub.ackTo_unknown (by rw [hflight]; exact hno)]
  rfl

theorem ends_creditBlockRx_taken {hi : Bool} {k : BitVec 12} {v : List (BitVec 16)} (hears : s.hub.hears p = true)
    (hlo : 2 ≤ s.hub.klState p) (hhi : s.hub.klState p ≤ 8) (hmac : (s.hub.link p).macCell = none)
    (hover : (s.hub.link p).overCredit hi v = false) (hlen : (s.hub.link p).retRx.length = 8)
    (hno : (s.hub.link p).unacked.any (fun e => decide (e.1 = k.toNat)) = false) :
    Ends (.creditBlockRx p hi false k v true) s [.links] {Reg.KL_REPLAY_STAT p, Reg.TSC_KITTY_MIN} [.tsc] (fun t =>
      t.hub.rdF (Reg.KL_REPLAY_STAT p) 23 12 = k.toNat
      ∧ (List.range 4).all (fun c => decide ((t.hub.link p).retRx.getD ((if hi then 4 else 0) + c) 0 = (v.getD c 0).toNat)) = true
      ∧ (t.hub.link p).unacked = (s.hub.link p).unacked) := by
  have hcells := s.hub.fresh.creditTaken_cells p (if hi then 4 else 0) k.toNat (v.map fun x => x.toNat)
  have hp : Reg.KL_REPLAY_STAT p ≠ Reg.TSC_KITTY_MIN := by
    unfold Reg.KL_REPLAY_STAT Reg.TSC_KITTY_MIN
    omega
  refine ends_creditBlockRx hears hlo hhi (Hub.creditIn_taken (h := s.hub.fresh) hmac hover hno) hcells (by simp) (by simp)
    ((Frame.refl _).creditTaken (by simp) (by simp)) ⟨?_, ?_, ?_⟩
  · rw [Hub.cycleEnd_rdF hcells hp, Hub.rdF, Hub.creditTaken, Hub.rd_wrF, if_pos rfl, fld_setFld _ _ _ _ (by decide)]
    exact Nat.mod_eq_of_lt k.isLt
  · have hroom : (if hi then 4 else 0) + 4 ≤ (s.hub.fresh.link p).retRx.length := by
      rw [show (s.hub.fresh.link p).retRx.length = 8 from hlen]
      split <;> omega
    refine List.all_eq_true.mpr fun c hc => decide_eq_true ?_
    rw [Hub.cycleEnd_link hcells, Hub.creditTaken_retRx hroom (List.mem_range.mp hc), getD_map_toNat]
    exact Nat.mod_eq_of_lt (v.getD c 0).isLt
  · rw [Hub.cycleEnd_link hcells, Hub.creditTaken_unacked]
    rfl

/-! ### Credit blocks sent (R140) -/

theorem Hub.sends_append (h : Hub) (p : Nat) (l m : List Emit) : h.sends p l ++ h.sends p m = h.sends p (l ++ m) := by
  unfold Hub.sends
  split <;> rfl

theorem Hub.creditBlock_out (h : Hub) (p : Nat) (hi nak : Bool) :
    (h.creditBlock p hi nak).out = h.out ++ h.sends p [.block p (h.creditBytes p hi nak)] := rfl

/-- The record of a port whose returns have all been sent. -/
def LinkSt.creditSent (l : LinkSt) (lim : Nat → Nat) : LinkSt :=
  { l with
    retSent := l.retCum
    ackDue := false
    limEff := l.limEff.zipIdx.map fun e => if l.held.getD e.2 0 ≤ lim e.2 then 0 else e.1 }

theorem ends_creditBlockSend (hup : s.hub.linkUp p = true) (hlo : 2 ≤ s.hub.klState p) (hhi : s.hub.klState p ≤ 8)
    (hidle : s.hub.klState p ≠ 6) :
    Ends (.creditBlockSend p) s [.links] ∅ [] (fun t =>
      (t.hub.link p).retSent = (s.hub.link p).retCum ∧ (t.hub.link p).ackDue = false
      ∧ t.hub.out = s.hub.sends p [.block p (s.hub.creditBytes p false false), .block p (s.hub.creditBytes p true false)]) := by
  let m := (s.hub.fresh.creditBlock p false false).creditBlock p true false
  refine ends_effect (k := m.updLink p fun l => l.creditSent (s.hub.rxLimit p)) (exec_creditBlockSend p s)
    (by simp [hup, hlo, hhi, hidle]) rfl (((Frame.refl _).emit.emit).updLink List.mem_cons_self) ?_
  rw [settle_link, settle_out, Hub.link_updLink_self, Hub.updLink_out]
  refine ⟨rfl, rfl, ?_⟩
  exact (s.hub.sends_append p [.block p (s.hub.creditBytes p false false)] [.block p (s.hub.creditBytes p true false)])

/-! ### Replay (R144, R146) -/

theorem ends_replayTimeout {j : Hub} {Q : State → Prop} (hup : s.hub.linkUp p = true) (hlo : 2 ≤ s.hub.klState p) (hhi : s.hub.klState p ≤ 8)
    (hst : s.hub.klState p ≠ 7) (hlate : (s.hub.link p).ackAt + s.hub.replayTmo p ≤ s.hub.mono) (hk : s.hub.fresh.replayLate p = j)
    (hcells : j.cells = s.hub.fresh.cells) (hr : Reg.TSC_KITTY_MIN ∈ rs) (ht : Block.tsc ∈ bs) (hf : Frame s.hub.fresh j ps rs bs)
    (hq : Q { s with hub := s.hub.fresh.cycleEnd j }) : Ends (.replayTimeout p) s ps rs bs Q :=
  ends_actT (f := fun h => h.replayLate p) (exec_replayTimeout p s) (by simp [hup, hlo, hhi, hst, hlate]) hk hcells hr ht hf hq

/-- The record of a port whose replay begins at RSEQ `r`, for the `run`-th time in a row. -/
def LinkSt.replayRun (l : LinkSt) (run r now : Nat) : LinkSt :=
  { l with replayAt := some now, run := run, runSeq := r, ackAt := now }

/-- A timeout starts a replay, before the limit is judged. -/
def Hub.replayRunning (h : Hub) (p run r : Nat) : Hub :=
  (h.updLink p fun l => { l with replayAt := some h.mono }).updLink p fun l => { l with run := run, runSeq := r, ackAt := h.mono }

theorem Hub.replayRunning_link (h : Hub) (p run r : Nat) : (h.replayRunning p run r).link p = (h.link p).replayRun run r h.mono := by
  rw [Hub.replayRunning, Hub.link_updLink_self, Hub.link_updLink_self]
  rfl

theorem Frame.replayRunning {p run r : Nat} (a : Frame h k ps rs bs) (hp : Part.links ∈ ps) : Frame h (k.replayRunning p run r) ps rs bs :=
  (a.updLink hp).updLink hp

/-- The replays in a row at RSEQ `r`, with one that starts now (R144). -/
def LinkSt.runAt (l : LinkSt) (r : Nat) : Nat := if l.run ≠ 0 ∧ l.runSeq = r then l.run + 1 else 1

theorem Hub.replayLate_eq {r i p : Nat} {l : List (Nat × Nat)} (hsent : (h.link p).unacked = (r, i) :: l) : h.replayLate p =
    if h.replayMax p ≤ (h.link p).runAt r ∧ h.klState p = 5 then
      ((((h.replayRunning p ((h.link p).runAt r) r).updLink p fun l => { l with recoverLoss := false, replay := none }).fault .kll 4).setKl p 7)
    else (h.replayRunning p ((h.link p).runAt r) r).updLink p fun l => { l with replay := some r } := by
  unfold Hub.replayLate
  rw [hsent]
  unfold Hub.startReplay
  dsimp only
  rw [Hub.link_updLink_self]
  rfl

theorem ends_replayTimeout_first {r i : Nat} {l : List (Nat × Nat)} (hup : s.hub.linkUp p = true) (hlo : 2 ≤ s.hub.klState p)
    (hhi : s.hub.klState p ≤ 6) (hsent : (s.hub.link p).unacked = (r, i) :: l) (hrun : (s.hub.link p).run = 0)
    (hmax : 1 < s.hub.rdF (Reg.KL_REPLAY_CFG p) 15 12) (hlate : (s.hub.link p).ackAt + s.hub.replayTmo p ≤ s.hub.mono) :
    Ends (.replayTimeout p) s [.links] {Reg.TSC_KITTY_MIN} [.tsc] (fun t =>
      t.hub.link p = { s.hub.link p with
        run := 1, runSeq := r, replay := some r, ackAt := s.hub.mono, replayAt := some s.hub.mono }) := by
  have hone : (s.hub.fresh.link p).runAt r = 1 := if_neg fun e => e.1 hrun
  have hcells : ((s.hub.fresh.replayRunning p 1 r).updLink p fun l => { l with replay := some r }).cells = s.hub.fresh.cells := rfl
  have hfew : ¬ (s.hub.fresh.replayMax p ≤ 1 ∧ s.hub.fresh.klState p = 5) := by
    rintro ⟨hmany, -⟩
    rw [Hub.replayMax, Hub.rdF_fresh] at hmany
    omega
  refine ends_replayTimeout hup hlo (by omega) (by omega) hlate ?_ hcells (by simp) (by simp)
    (((Frame.refl _).replayRunning List.mem_cons_self).updLink List.mem_cons_self) ?_
  · rw [Hub.replayLate_eq (h := s.hub.fresh) hsent, hone, if_neg hfew]
  · rw [Hub.cycleEnd_link hcells, Hub.link_updLink_self, Hub.replayRunning_link]
    rfl

theorem KL_STATE_ne_FAULTN (p : LinkNo) : Reg.KL_STATE p ≠ Reg.SIT_FAULTN_CNT := by
  unfold Reg.KL_STATE Reg.SIT_FAULTN_CNT
  omega

theorem ends_replayTimeout_limit {r i : Nat} {l : List (Nat × Nat)} (hup : s.hub.linkUp p = true) (hcalm : s.hub.calm p = true)
    (hst : s.hub.klState p = 5) (hsent : (s.hub.link p).unacked = (r, i) :: l) (hrun : (s.hub.link p).run ≠ 0)
    (hseq : (s.hub.link p).runSeq = r) (hmax : max 1 (s.hub.rdF (Reg.KL_REPLAY_CFG p) 15 12) ≤ (s.hub.link p).run + 1)
    (hlate : (s.hub.link p).ackAt + s.hub.replayTmo p ≤ s.hub.mono) :
    Ends (.replayTimeout p) s [.links, .pins] (klRegs p ∪ {Reg.SIT_FAULTN_CNT, Reg.TSC_KITTY_MIN}) [.kll, .sit, .tsc] (fun t =>
      t.hub.klState p = 7 ∧ (t.hub.link p).recoverLoss = false ∧ bit (t.hub.hdr .kll).sticky 4 = true) := by
  have hruns : (s.hub.fresh.link p).runAt r = (s.hub.link p).run + 1 := if_pos ⟨hrun, hseq⟩
  generalize hm : (((s.hub.fresh.replayRunning p ((s.hub.link p).run + 1) r).updLink p fun l =>
    { l with recoverLoss := false, replay := none }).fault .kll 4) = m
  have hframe : Frame s.hub.fresh m [.links, .pins] {Reg.SIT_FAULTN_CNT} [.kll, .sit] := by
    rw [← hm]
    exact (((Frame.refl _).replayRunning (by simp)).updLink (by simp)).fault (by simp) (by simp) rfl (by simp)
  have hne : 0 ≠ p.val := Nat.ne_of_lt (Hub.calm_pos hcalm)
  have hzero : m.link 0 = s.hub.fresh.link 0 := by
    rw [← hm, Hub.fault_link, Hub.replayRunning, Hub.link_updLink_ne hne, Hub.link_updLink_ne hne, Hub.link_updLink_ne hne]
  have hlink : (m.link p).recoverLoss = false := by
    rw [← hm, Hub.fault_link, Hub.link_updLink_self]
  have hcalm' : m.calm p = true :=
    (hframe.calm (by decide) (by decide) (by decide) (by decide) (by decide) hzero p).trans hcalm
  have hst' : m.klState p = 5 := (hframe.rdF (KL_STATE_ne_FAULTN p) 3 0).trans hst
  obtain ⟨w, hw⟩ := Hub.setKl_calm hcalm' hst' (.inr (.inl ⟨rfl, rfl⟩))
  have hcells : (m.klMoved p 7 w).cells = s.hub.fresh.cells := hframe.part .cells (by decide)
  refine ends_replayTimeout (j := m.klMoved p 7 w) hup (by omega) (by omega) (by omega) hlate ?effect hcells (by simp) (by simp) ?frame
    ⟨?_, ?_, ?_⟩
  case effect =>
    rw [Hub.replayLate_eq (h := s.hub.fresh) hsent, hruns, if_pos ⟨hmax, hst⟩]
    exact hm ▸ hw
  case frame => exact (hframe.mono (List.Subset.refl _) (fun a ha => .inr (.inl ha)) (by decide)).klMoved (by simp) Set.subset_union_left
  · rw [Hub.cycleEnd_klState hcells (Nat.le_of_lt_succ p.isLt), Hub.klMoved_klState _ (by decide)]
  · rw [Hub.cycleEnd_link hcells, Hub.klMoved_link]
    exact hlink
  · rw [Hub.cycleEnd_sticky hcells]
    show bit (m.hdr .kll).sticky 4 = true
    rw [← hm]
    exact Hub.fault_sticky_self _ _ (by decide)

/-! ### Electrical idle of a port's lanes (R105, R147, R148) -/

/-- Electrical idle is ordered on one lane, where IDLE_EN allows it. -/
def Hub.idleLane (h : Hub) (l : Nat) : Hub :=
  if h.rdB (Reg.LN_CFG l) 2 then (h.wrB (Reg.LN_STAT l) 15 true).wrB (Reg.LN_STAT l) 14 false else h

theorem Hub.idleLanes_eq (h : Hub) (p : Nat) : h.idleLanes p = (h.portLanes p).foldl Hub.idleLane h := rfl

theorem Frame.idleLane {l : Nat} (a : Frame h k ps rs bs) (hr : Reg.LN_STAT l ∈ rs) : Frame h (k.idleLane l) ps rs bs :=
  ((a.wrB hr).wrB hr).ite a

theorem Frame.idleLanes {p : Nat} (a : Frame h k ps rs bs) (hr : blockRegs .lnx ⊆ rs) : Frame h (k.idleLanes p) ps rs bs := by
  rw [Hub.idleLanes_eq]
  exact Frame.foldl _ a fun l j hl b => b.idleLane (hr (LN_STAT_mem_lnx (k.portLanes_lt hl)))

theorem Hub.idleLane_out (h : Hub) (l : Nat) : (h.idleLane l).out = h.out := h.ite_out rfl rfl

theorem Hub.idleLane_cfg (h : Hub) (x l : Nat) : (h.idleLane x).rd (Reg.LN_CFG l) = h.rd (Reg.LN_CFG l) :=
  ((Frame.refl h).idleLane (ps := []) (rs := {Reg.LN_STAT x}) (bs := []) rfl).reg _ (by
    rw [Set.mem_singleton_iff, Reg.LN_CFG, Reg.LN_STAT]
    omega)

theorem Hub.idleLane_stat {x l : Nat} (hl : x = l ∧ h.rdB (Reg.LN_CFG l) 2 = true ∨ h.rdB (Reg.LN_STAT l) 15 = true) :
    (h.idleLane x).rdB (Reg.LN_STAT l) 15 = true := by
  by_cases hx : Reg.LN_STAT l = Reg.LN_STAT x
  · obtain rfl : l = x := by
      rw [Reg.LN_STAT, Reg.LN_STAT] at hx
      omega
    unfold Hub.idleLane
    split
    · rw [Hub.rdB, Hub.rd_wrB, if_pos rfl, bit_setBit _ _ _ _ (by decide), if_neg (by decide), Hub.rd_wrB, if_pos rfl,
        bit_setBit _ _ _ _ (by decide), if_pos rfl]
    · rename_i hcfg
      exact hl.resolve_left fun e => hcfg e.2
  · have hset : h.rdB (Reg.LN_STAT l) 15 = true := hl.resolve_left fun e => hx (e.1 ▸ rfl)
    have hrd : (h.idleLane x).rd (Reg.LN_STAT l) = h.rd (Reg.LN_STAT l) :=
      ((Frame.refl h).idleLane (ps := []) (rs := {Reg.LN_STAT x}) (bs := []) rfl).reg _ hx
    rw [Hub.rdB, hrd]
    exact hset

/-- A lane of the list that IDLE_EN allows it is in electrical idle afterwards. -/
theorem Hub.foldl_idleLane_stat {l : Nat} (ls : List Nat) (h : Hub)
    (hl : l ∈ ls ∧ h.rdB (Reg.LN_CFG l) 2 = true ∨ h.rdB (Reg.LN_STAT l) 15 = true) :
    (ls.foldl Hub.idleLane h).rdB (Reg.LN_STAT l) 15 = true := by
  induction ls generalizing h with
  | nil => exact hl.resolve_left fun e => List.not_mem_nil e.1
  | cons x ls ih =>
    refine ih _ ?_
    rw [Hub.rdB, Hub.idleLane_cfg]
    rcases hl with ⟨hmem, hcfg⟩ | hset
    · rcases List.mem_cons.mp hmem with rfl | hmem
      · exact .inr (Hub.idleLane_stat (.inl ⟨rfl, hcfg⟩))
      · exact .inl ⟨hmem, hcfg⟩
    · exact .inr (Hub.idleLane_stat (.inr hset))

/-! ### A port enters IDLE (R147, R148) -/

/-- The port's own request is over and its lanes are idle, before its state changes. -/
def Hub.idled (h : Hub) (p : Nat) : Hub := (h.updLink p fun l => { l with idleReq := false }).idleLanes p

theorem Frame.idled {p : Nat} (a : Frame h k ps rs bs) (hp : Part.links ∈ ps) (hr : blockRegs .lnx ⊆ rs) :
    Frame h (k.idled p) ps rs bs := (a.updLink hp).idleLanes hr

theorem Hub.idled_frame (h : Hub) (p : Nat) : Frame h (h.idled p) [.links] (blockRegs .lnx) [] :=
  (Frame.refl h).idled List.mem_cons_self subset_rfl

theorem Hub.idled_link (h : Hub) (p q : Nat) : (h.idled p).link q = (h.updLink p fun l => { l with idleReq := false }).link q :=
  ((Frame.refl _).idleLanes (ps := []) (rs := blockRegs .lnx) (bs := []) subset_rfl).link List.not_mem_nil q

theorem Hub.idled_out (h : Hub) (p : Nat) : (h.idled p).out = h.out := by
  rw [Hub.idled, Hub.idleLanes_eq, Hub.foldl_out _ Hub.idleLane_out, Hub.updLink_out]

theorem Hub.idled_stat {l : Nat} (hl : l ∈ h.portLanes p) (hcfg : h.rdB (Reg.LN_CFG l) 2 = true) :
    (h.idled p).rdB (Reg.LN_STAT l) 15 = true := Hub.foldl_idleLane_stat (h.portLanes p) _ (.inl ⟨hl, hcfg⟩)

theorem Hub.enterIdle_calm {p : Nat} (hcalm : h.calm p = true) (hst : h.klState p = 5) (hkeep : h.keepAwake p = false) :
    ∃ w, h.enterIdle p = (h.idled p).klMoved p 6 w := by
  have hzero : (h.idled p).link 0 = h.link 0 :=
    (h.idled_link p 0).trans (Hub.link_updLink_ne (Nat.ne_of_lt (Hub.calm_pos hcalm)) _ _)
  have hout {a : Nat} (ha : 0x00900000 ≤ a) : a ∉ blockRegs .lnx := notMem_lnx ha
  have hcalm' : (h.idled p).calm p = true :=
    ((h.idled_frame p).calm (by decide) (hout (by decide)) (hout (by decide)) (hout (by decide)) (hout (by decide)) hzero p).trans hcalm
  have hst' : (h.idled p).klState p = 5 := ((h.idled_frame p).rdF (hout (by unfold Reg.KL_STATE; omega)) 3 0).trans hst
  obtain ⟨w, hw⟩ := Hub.setKl_calm hcalm' hst' (.inl ⟨rfl, rfl⟩)
  refine ⟨w, Eq.trans ?_ hw⟩
  refine if_neg ?_
  rw [show (h.updLink p fun l => { l with idleReq := false }).keepAwake p = h.keepAwake p from rfl, hkeep]
  simp

theorem LN_STAT_notMem_klRegs {l : Nat} (hl : l < 40) (p : Nat) : Reg.LN_STAT l ∉ klRegs p := by
  simp only [klRegs, Reg.LN_STAT, Reg.KL_STATE, Reg.KLL_PORT_UP, Reg.KLL_DEPTH, Set.mem_insert_iff, Set.mem_singleton_iff]
  omega

theorem LN_STAT_ne_KITTY_MIN {l : Nat} (hl : l < 40) : Reg.LN_STAT l ≠ Reg.TSC_KITTY_MIN := by
  unfold Reg.LN_STAT Reg.TSC_KITTY_MIN
  omega

/-- What an end in IDLE shows, whichever form took it there. -/
theorem Hub.idled_shown {o h : Hub} (hp : p.val ≤ 8) (hcells : h.cells = o.cells) (w : Word) :
    ((h.idled p).klMoved p 6 w).cells = o.cells
    ∧ (o.cycleEnd ((h.idled p).klMoved p 6 w)).klState p = 6
    ∧ (o.cycleEnd ((h.idled p).klMoved p 6 w)).out = h.out
    ∧ (o.cycleEnd ((h.idled p).klMoved p 6 w)).rdB Reg.KLL_PORT_UP p = true
    ∧ ((o.cycleEnd ((h.idled p).klMoved p 6 w)).link p).idleReq = false
    ∧ ∀ l < 40, (o.cycleEnd ((h.idled p).klMoved p 6 w)).rd (Reg.LN_STAT l) = (h.idled p).rd (Reg.LN_STAT l) := by
  have hc : ((h.idled p).klMoved p 6 w).cells = o.cells := ((h.idled_frame p).part .cells (by decide)).trans hcells
  refine ⟨hc, ?_, ?_, ?_, ?_, fun l hl => ?_⟩
  · rw [Hub.cycleEnd_klState hc hp, Hub.klMoved_klState _ (by decide)]
  · rw [Hub.cycleEnd_out hc]
    exact h.idled_out p
  · rw [Hub.cycleEnd_rdB hc (by decide), Hub.klMoved_portUp _ (by omega) (.inr rfl)]
  · rw [Hub.cycleEnd_link hc, Hub.klMoved_link, Hub.idled_link, Hub.link_updLink_self]
    rfl
  · rw [Hub.cycleEnd_rd hc (LN_STAT_ne_KITTY_MIN hl), Hub.klMoved_rd _ (LN_STAT_notMem_klRegs hl p)]

theorem Frame.idledMoved {w : Word} {p : Nat} (a : Frame h k [.links] ∅ []) :
    Frame h ((k.idled p).klMoved p 6 w) [.links] (klRegs p ∪ blockRegs .lnx ∪ {Reg.TSC_KITTY_MIN}) [.tsc] :=
  Frame.klMoved (Frame.idled (a.mono (List.Subset.refl _) (Set.empty_subset _) (List.nil_subset _)) List.mem_cons_self
    fun _ ha => .inl (.inr ha)) List.mem_cons_self fun _ ha => .inl (.inl ha)

/-! ### The forms of idle -/

theorem ends_idleRequest (hup : s.hub.linkUp p = true) (hready : s.hub.idleReady p = true) (hhold : s.hub.rdF Reg.KLL_IDLE_HOLD 15 0 ≠ 0) :
    Ends (.idleRequest p) s [.links] ∅ [] (fun t =>
      t.hub.link p = { s.hub.link p with idleReq := true } ∧ t.hub.out = s.hub.sends p [.block p (idleBlock 0)]) := by
  refine ends_effect (k := (s.hub.fresh.emit (.block p (idleBlock 0))).updLink p fun l => { l with idleReq := true })
    (exec_idleRequest p s) (by simp [hup, hready, hhold]) rfl ((Frame.refl _).emit.updLink List.mem_cons_self) ⟨?_, ?_⟩
  · rw [settle_link, Hub.link_updLink_self]
    rfl
  · rw [settle_out]
    rfl

theorem ends_idleReqRx {j : Hub} {Q : State → Prop} (hears : s.hub.hears p = true) (hst : s.hub.klState p = 5)
    (hk : s.hub.fresh.idleAsked p = j) (hcells : j.cells = s.hub.fresh.cells) (hr : Reg.TSC_KITTY_MIN ∈ rs) (ht : Block.tsc ∈ bs)
    (hf : Frame s.hub.fresh j ps rs bs) (hq : Q { s with hub := s.hub.fresh.cycleEnd j }) : Ends (.idleReqRx p) s ps rs bs Q :=
  ends_actT (f := fun h => h.idleAsked p) (exec_idleReqRx p s) (by simp [hears, hst]) hk hcells hr ht hf hq

/-- A request that does not cross the port's own is answered by what the idle conditions say (R147). -/
theorem Hub.idleAsked_eq {p : Nat} (hmac : (h.link p).macCell = none) (hreq : (h.link p).idleReq = false) : h.idleAsked p =
    if h.idleReady p then (h.emit (.block p (idleBlock 1))).enterIdle p else h.emit (.block p (idleBlock 2)) := by
  rw [Hub.idleAsked, Hub.macMissing_of_none hmac]
  exact if_neg (by simp [hreq])

theorem ends_idleReqRx_refused (hears : s.hub.hears p = true) (hst : s.hub.klState p = 5) (hready : s.hub.idleReady p = false)
    (hreq : (s.hub.link p).idleReq = false) (hmac : (s.hub.link p).macCell = none) :
    Ends (.idleReqRx p) s [] {Reg.TSC_KITTY_MIN} [.tsc] (fun t =>
      t.hub.out = s.hub.sends p [.block p (idleBlock 2)] ∧ t.hub.klState p = 5) := by
  have hcells : (s.hub.fresh.emit (.block p (idleBlock 2))).cells = s.hub.fresh.cells := rfl
  refine ends_idleReqRx hears hst ?_ hcells rfl List.mem_cons_self (Frame.refl _).emit ⟨?_, ?_⟩
  · rw [Hub.idleAsked_eq (h := s.hub.fresh) hmac hreq, if_neg (by rw [show s.hub.fresh.idleReady p = false from hready]; simp)]
  · rw [Hub.cycleEnd_out hcells]
    rfl
  · rw [Hub.cycleEnd_klState hcells (Nat.le_of_lt_succ p.isLt)]
    exact hst

theorem Hub.idleReady_keepAwake {p : Nat} (hready : h.idleReady p = true) : h.keepAwake p = false := by
  simp only [Hub.idleReady, Bool.and_eq_true, Bool.not_eq_true'] at hready
  exact hready.1.1.1.1.1.2

theorem ends_idleReqRx_granted (hears : s.hub.hears p = true) (hcalm : s.hub.calm p = true) (hst : s.hub.klState p = 5)
    (hready : s.hub.idleReady p = true) (hreq : (s.hub.link p).idleReq = false) (hmac : (s.hub.link p).macCell = none) :
    Ends (.idleReqRx p) s [.links] (klRegs p ∪ blockRegs .lnx ∪ {Reg.TSC_KITTY_MIN}) [.tsc] (fun t =>
      t.hub.klState p = 6 ∧ t.hub.out = s.hub.sends p [.block p (idleBlock 1)] ∧ t.hub.rdB Reg.KLL_PORT_UP p = true) := by
  obtain ⟨w, hw⟩ := Hub.enterIdle_calm (h := s.hub.fresh.emit (.block p (idleBlock 1))) hcalm hst
    (Hub.idleReady_keepAwake hready)
  obtain ⟨hcells, hsix, hout, hportUp, -⟩ := Hub.idled_shown (o := s.hub.fresh) (h := s.hub.fresh.emit (.block p (idleBlock 1)))
    (Nat.le_of_lt_succ p.isLt) rfl w
  refine ends_idleReqRx hears hst ?_ hcells (by simp) List.mem_cons_self (Frame.refl _).emit.idledMoved ⟨hsix, hout, hportUp⟩
  rw [Hub.idleAsked_eq (h := s.hub.fresh) hmac hreq, if_pos (show s.hub.fresh.idleReady p = true from hready), hw]

theorem ends_idleAckRx {j : Hub} {Q : State → Prop} (hears : s.hub.hears p = true) (hst : s.hub.klState p = 5)
    (hreq : (s.hub.link p).idleReq = true) (hmac : (s.hub.link p).macCell = none) (hk : s.hub.fresh.enterIdle p = j)
    (hcells : j.cells = s.hub.fresh.cells) (hr : Reg.TSC_KITTY_MIN ∈ rs) (ht : Block.tsc ∈ bs) (hf : Frame s.hub.fresh j ps rs bs)
    (hq : Q { s with hub := s.hub.fresh.cycleEnd j }) : Ends (.idleAckRx p) s ps rs bs Q := by
  refine ends_actT (f := fun h => (h.macMissing p).enterIdle p) (exec_idleAckRx p s) (by simp [hears, hst, hreq]) ?_ hcells hr ht hf hq
  rw [Hub.macMissing_of_none (h := s.hub.fresh) hmac, hk]

theorem ends_idleAckRx_idles (hears : s.hub.hears p = true) (hcalm : s.hub.calm p = true) (hst : s.hub.klState p = 5)
    (hreq : (s.hub.link p).idleReq = true) (hmac : (s.hub.link p).macCell = none) (hkeep : s.hub.keepAwake p = false) :
    Ends (.idleAckRx p) s [.links] (klRegs p ∪ blockRegs .lnx ∪ {Reg.TSC_KITTY_MIN}) [.tsc] (fun t =>
      t.hub.klState p = 6 ∧ (t.hub.link p).idleReq = false
      ∧ (s.hub.portLanes p).all (fun l => !s.hub.rdB (Reg.LN_CFG l) 2 || t.hub.rdB (Reg.LN_STAT l) 15) = true) := by
  obtain ⟨w, hw⟩ := Hub.enterIdle_calm (h := s.hub.fresh) hcalm hst hkeep
  obtain ⟨hcells, hsix, -, -, hdone, hlanes⟩ := Hub.idled_shown (o := s.hub.fresh) (h := s.hub.fresh) (Nat.le_of_lt_succ p.isLt) rfl w
  refine ends_idleAckRx hears hst hreq hmac hw hcells (by simp) List.mem_cons_self
    (Frame.refl _).idledMoved ⟨hsix, hdone, List.all_eq_true.mpr fun l hl => ?_⟩
  cases hcfg : s.hub.rdB (Reg.LN_CFG l) 2
  · rfl
  · have hidle : (s.hub.fresh.idled p).rdB (Reg.LN_STAT l) 15 = true := Hub.idled_stat (h := s.hub.fresh) hl hcfg
    rw [Hub.rdB, hlanes l (s.hub.portLanes_lt hl)]
    exact hidle

theorem ends_idleAckRx_awake (hears : s.hub.hears p = true) (hst : s.hub.klState p = 5) (hreq : (s.hub.link p).idleReq = true)
    (hmac : (s.hub.link p).macCell = none) (hkeep : s.hub.keepAwake p = true) :
    Ends (.idleAckRx p) s [.links] {Reg.TSC_KITTY_MIN} [.tsc] (fun t =>
      t.hub.klState p = 5 ∧ t.hub.link p = { s.hub.link p with idleReq := false } ∧ t.hub.out = s.hub.sends p [.wake p]) := by
  let m := s.hub.fresh.updLink p fun l => { l with idleReq := false }
  have hcells : (m.emit (.wake p)).cells = s.hub.fresh.cells := rfl
  refine ends_idleAckRx hears hst hreq hmac (j := m.emit (.wake p)) (if_pos hkeep) hcells rfl List.mem_cons_self
    ((Frame.refl _).updLink List.mem_cons_self).emit ⟨?_, ?_, ?_⟩
  · rw [Hub.cycleEnd_klState hcells (Nat.le_of_lt_succ p.isLt)]
    exact hst
  · rw [Hub.cycleEnd_link hcells]
    show (s.hub.fresh.updLink p fun l => { l with idleReq := false }).link p = _
    rw [Hub.link_updLink_self]
    rfl
  · rw [Hub.cycleEnd_out hcells]
    rfl

theorem ends_idleNakRx (hears : s.hub.hears p = true) (hreq : (s.hub.link p).idleReq = true) (hmac : (s.hub.link p).macCell = none) :
    Ends (.idleNakRx p) s [.links] ∅ [] (fun t =>
      t.hub.link p = { s.hub.link p with idleReq := false } ∧ t.hub.klState p = s.hub.klState p) := by
  refine ends_effect (k := s.hub.fresh.updLink p fun l => { l with idleReq := false }) (exec_idleNakRx p s) (by simp [hears, hreq]) ?_
    ((Frame.refl _).updLink List.mem_cons_self) ⟨?_, ?_⟩
  · rw [Hub.macMissing_of_none (h := s.hub.fresh) hmac]
  · rw [settle_link]
    exact Hub.link_updLink_self _ _ _
  · exact settle_rdF _ _ _ _ _

/-! ### An idle port wakes (R148) -/

/-- What waking makes of LN_STAT: data again, and a signal. -/
def wokenStat (w : Word) : Word := setBit (setBit w 15 false) 14 true

theorem bit_wokenStat_idle (w : Word) : bit (wokenStat w) 15 = false := by
  rw [wokenStat, bit_setBit _ _ _ _ (by decide), if_neg (by decide), bit_setBit _ _ _ _ (by decide), if_pos rfl]

theorem bit_wokenStat_lock (w : Word) : bit (wokenStat w) 16 = bit w 16 := by
  rw [wokenStat, bit_setBit _ _ _ _ (by decide), if_neg (by decide), bit_setBit _ _ _ _ (by decide), if_neg (by decide)]

/-- One lane's LN_STAT is rewritten. -/
def Hub.mapStat (f : Word → Word) (h : Hub) (l : Nat) : Hub := h.wr (Reg.LN_STAT l) (f (h.rd (Reg.LN_STAT l)))

theorem Hub.updLanes_eq (h : Hub) (p : Nat) (f : Word → Word) : h.updLanes p f = (h.portLanes p).foldl (Hub.mapStat f) h := rfl

theorem Hub.mapStat_rd (f : Word → Word) (h : Hub) (x l : Nat) :
    (h.mapStat f x).rd (Reg.LN_STAT l) = if l = x then f (h.rd (Reg.LN_STAT l)) else h.rd (Reg.LN_STAT l) := by
  rw [Hub.mapStat, Hub.rd_wr]
  by_cases hx : l = x
  · subst hx
    rw [if_pos rfl, if_pos rfl]
  · rw [if_neg hx, if_neg (by rw [Reg.LN_STAT, Reg.LN_STAT]; omega)]

/-- A bit that the rewriting leaves alone. -/
theorem Hub.foldl_mapStat_kept {f : Word → Word} {i : Nat} (hf : ∀ w, bit (f w) i = bit w i) (ls : List Nat) (h : Hub) (l : Nat) :
    (ls.foldl (Hub.mapStat f) h).rdB (Reg.LN_STAT l) i = h.rdB (Reg.LN_STAT l) i := by
  induction ls generalizing h with
  | nil => rfl
  | cons x ls ih =>
    refine (ih _).trans ?_
    rw [Hub.rdB, Hub.mapStat_rd]
    split
    · exact hf _
    · rfl

/-- A bit that the rewriting clears, on the lanes of the list. -/
theorem Hub.foldl_mapStat_cleared {f : Word → Word} {i : Nat} (hf : ∀ w, bit (f w) i = false) (ls : List Nat) (h : Hub) {l : Nat}
    (hl : l ∈ ls ∨ h.rdB (Reg.LN_STAT l) i = false) : (ls.foldl (Hub.mapStat f) h).rdB (Reg.LN_STAT l) i = false := by
  induction ls generalizing h with
  | nil => exact hl.resolve_left List.not_mem_nil
  | cons x ls ih =>
    refine ih _ ?_
    rw [Hub.rdB, Hub.mapStat_rd]
    by_cases hx : l = x
    · exact .inr (by rw [if_pos hx, hf])
    · rw [if_neg hx]
      exact hl.imp_left fun hmem => (List.mem_cons.mp hmem).resolve_left hx

theorem Hub.portLanes_congr {c : Nat} (hm : k.rd (Reg.LNX_PORT_MAP c) = h.rd (Reg.LNX_PORT_MAP c)) : k.portLanes c = h.portLanes c := by
  unfold Hub.portLanes Hub.portMap
  rw [hm]

theorem Hub.updLanes_frame (h : Hub) (p : Nat) (f : Word → Word) : Frame h (h.updLanes p f) [] laneStats [] := by
  rw [Hub.updLanes_eq]
  exact Frame.foldl _ (Frame.refl h) fun l j hl a => a.wr (LN_STAT_mem_laneStats (h.portLanes_lt hl))

theorem PORT_MAP_notMem_laneStats {c : Nat} (hc : c ≤ 15) : Reg.LNX_PORT_MAP c ∉ laneStats := fun ⟨l, _, e⟩ => LN_STAT_ne_PORT_MAP l hc e.symm

theorem notMem_laneStats {a : Nat} (ha : 0x00900000 ≤ a) : a ∉ laneStats := by
  rintro ⟨l, hl, e⟩
  rw [Reg.LN_STAT] at e
  omega

/-- The lanes of a port carry data again. -/
def Hub.lanesWoken (h : Hub) (p : Nat) : Hub := h.updLanes p wokenStat

theorem Hub.lanesWoken_idle {h : Hub} {p l : Nat} (hl : l ∈ h.portLanes p) : (h.lanesWoken p).rdB (Reg.LN_STAT l) 15 = false :=
  Hub.foldl_mapStat_cleared bit_wokenStat_idle _ _ (.inl hl)

theorem Hub.lanesWoken_out (h : Hub) (p : Nat) : (h.lanesWoken p).out = h.out := by
  rw [Hub.lanesWoken, Hub.updLanes_eq]
  exact h.foldl_out (fun k l => k.wr_out (Reg.LN_STAT l) _) _

theorem Hub.lanesWoken_allLanes (h : Hub) {p : Nat} (hp : p ≤ 15) : (h.lanesWoken p).allLanes p 16 = h.allLanes p 16 := by
  have hlanes : (h.lanesWoken p).portLanes p = h.portLanes p :=
    Hub.portLanes_congr ((h.updLanes_frame p wokenStat).reg _ (PORT_MAP_notMem_laneStats hp))
  have hlock (l : Nat) : (h.lanesWoken p).rdB (Reg.LN_STAT l) 16 = h.rdB (Reg.LN_STAT l) 16 :=
    Hub.foldl_mapStat_kept bit_wokenStat_lock _ _ l
  unfold Hub.allLanes
  simp only [hlanes, hlock]

theorem Hub.wakeLink_calm {p : Nat} (hp : p ≤ 8) (hcalm : h.calm p = true) (hst : h.klState p = 6) (hlock : h.allLanes p 16 = true)
    (hhold : h.holdCause p = none) : ∃ w, h.wakeLink p = (h.lanesWoken p).klMoved p 5 w := by
  have hframe : Frame h (h.lanesWoken p) [] laneStats [] := h.updLanes_frame p wokenStat
  have hout {a : Nat} (ha : 0x00900000 ≤ a) : a ∉ laneStats := notMem_laneStats ha
  have hlink (q : Nat) : (h.lanesWoken p).link q = h.link q := hframe.link List.not_mem_nil q
  have hcalm' : (h.lanesWoken p).calm p = true :=
    (hframe.calm (by decide) (hout (by decide)) (hout (by decide)) (hout (by decide)) (hout (by decide)) (hlink 0) p).trans hcalm
  have hst' : (h.lanesWoken p).klState p = 6 := (hframe.rdF (hout (by unfold Reg.KL_STATE; omega)) 3 0).trans hst
  have hhold' : (h.lanesWoken p).holdCause p = none := by
    unfold Hub.holdCause Hub.role
    rw [hframe.part .straps List.not_mem_nil, hlink]
    exact hhold
  obtain ⟨w, hw⟩ := Hub.setKl_calm hcalm' hst' (.inr (.inr ⟨rfl, rfl⟩))
  refine ⟨w, Eq.trans ?_ hw⟩
  unfold Hub.wakeLink
  refine (if_pos ((h.lanesWoken_allLanes (by omega)).trans hlock)).trans ?_
  unfold Hub.backUp
  rw [show ((h.updLanes p fun w => setBit (setBit w 15 false) 14 true).holdCause p) = none from hhold']
  rfl

theorem ends_linkWake (hup : s.hub.linkUp p = true) (hcalm : s.hub.calm p = true) (hst : s.hub.klState p = 6)
    (hwhy : s.hub.pendTotal p ≠ 0 ∨ s.hub.keepAwake p = true) (hlock : s.hub.allLanes p 16 = true) (hhold : s.hub.holdCause p = none) :
    Ends (.linkWake p) s [.links] (klRegs p ∪ blockRegs .lnx ∪ {Reg.TSC_KITTY_MIN}) [.kll, .tsc] (fun t =>
      t.hub.klState p = 5 ∧ t.hub.out = s.hub.sends p [.wake p]
      ∧ (s.hub.portLanes p).all (fun l => !t.hub.rdB (Reg.LN_STAT l) 15) = true) := by
  have hp : p.val ≤ 8 := Nat.le_of_lt_succ p.isLt
  generalize hm : s.hub.fresh.emit (.wake p) = m
  have hwoken : Frame m (m.lanesWoken p) [] laneStats [] := m.updLanes_frame p wokenStat
  obtain ⟨w, hw⟩ := Hub.wakeLink_calm (h := m) hp (by subst hm; exact hcalm) (by subst hm; exact hst) (by subst hm; exact hlock)
    (by subst hm; exact hhold)
  have hcells : ((m.lanesWoken p).klMoved p 5 w).cells = s.hub.fresh.cells := by
    subst hm
    exact hwoken.part .cells (by decide)
  have hframe : Frame s.hub.fresh (m.lanesWoken p) [.links] (klRegs p ∪ blockRegs .lnx ∪ {Reg.TSC_KITTY_MIN}) [.kll, .tsc] := by
    subst hm
    exact (Frame.refl s.hub.fresh).emit.updLanes fun _ ha => .inl (.inr ha)
  refine ends_actT (f := fun h => (h.emit (.wake p)).wakeLink p) (exec_linkWake p s) ?cond (k := (m.lanesWoken p).klMoved p 5 w) ?effect
    hcells (by simp) (by simp) (hframe.klMoved List.mem_cons_self fun _ ha => .inl (.inl ha)) ⟨?_, ?_, List.all_eq_true.mpr fun l hl => ?_⟩
  case cond => simpa [hup, hst] using hwhy
  case effect => rw [hm, hw]
  · rw [Hub.cycleEnd_klState hcells hp, Hub.klMoved_klState _ (by decide)]
  · rw [Hub.cycleEnd_out hcells]
    subst hm
    exact Hub.lanesWoken_out _ _
  · have hlt := s.hub.portLanes_lt hl
    have hoff : (m.lanesWoken p).rdB (Reg.LN_STAT l) 15 = false := Hub.lanesWoken_idle (by subst hm; exact hl)
    rw [Hub.rdB, Hub.cycleEnd_rd hcells (LN_STAT_ne_KITTY_MIN hlt), Hub.klMoved_rd _ (LN_STAT_notMem_klRegs hlt p)]
    exact (congrArg not hoff).trans rfl

/-! ### The clauses -/

/-- Settles O35: each clause is its command's effect on the branch that its conditions choose. -/
theorem linkCredit : Obligations.LinkCredit := by
  refine ⟨fun s p hi nak k v hears hlo hhi hmac => ends_creditBlockRx_bad hears hlo hhi hmac,
    fun s p hi nak k v hears hlo hhi hmac hover _ => ends_creditBlockRx_over hears hlo hhi hmac hover, ?taken,
    fun s p hup hlo hhi hidle => ends_creditBlockSend hup hlo hhi hidle,
    fun s p r i l hup hlo hhi hsent hrun hmax hlate => ends_replayTimeout_first hup hlo hhi hsent hrun hmax hlate,
    fun s p r i l hup hcalm hst hsent hrun hseq hmax hlate => ends_replayTimeout_limit hup hcalm hst hsent hrun hseq hmax hlate,
    fun s p hup hready hhold => ends_idleRequest hup hready hhold,
    fun s p hears hst hready hreq hmac => ends_idleReqRx_refused hears hst hready hreq hmac,
    fun s p hears hcalm hst hready hreq hmac => ends_idleReqRx_granted hears hcalm hst hready hreq hmac,
    fun s p hears hcalm hst hreq hmac hkeep => ends_idleAckRx_idles hears hcalm hst hreq hmac hkeep,
    fun s p hears hreq hmac => ends_idleNakRx hears hreq hmac,
    fun s p hup hcalm hst hwhy hlock hhold => ends_linkWake hup hcalm hst hwhy hlock hhold,
    fun s p hears hst hreq hmac hkeep => ends_idleAckRx_awake hears hst hreq hmac hkeep,
    ?runsCredit, ?runsReplay, ?runsAsked, ?runsAck, ?runsWake⟩
  case taken =>
    intro s p hi k v hears hlo hhi hmac hover _ hlen hno
    refine ends_creditBlockRx_taken hears hlo hhi hmac ?_ hlen ?_
    · simpa [LinkSt.overCredit, Nat.not_lt] using hover
    · simpa using hno
  case runsCredit =>
    intro s p hi nak g k v hears hlo hhi
    exact runs_actT (f := fun h => h.creditIn p hi nak k v g) (exec_creditBlockRx p hi nak k v g s) (by simp [hears, hlo, hhi])
  case runsReplay =>
    intro s p hup hlo hhi hst hlate
    exact runs_actT (f := fun h => h.replayLate p) (exec_replayTimeout p s) (by simp [hup, hlo, hhi, hst, hlate])
  case runsAsked =>
    intro s p hears hst
    exact runs_actT (f := fun h => h.idleAsked p) (exec_idleReqRx p s) (by simp [hears, hst])
  case runsAck =>
    intro s p hears hst hreq
    exact runs_actT (f := fun h => (h.macMissing p).enterIdle p) (exec_idleAckRx p s) (by simp [hears, hst, hreq])
  case runsWake =>
    intro s p hup hst hwhy
    exact runs_actT (f := fun h => (h.emit (.wake p)).wakeLink p) (exec_linkWake p s) (by simpa [hup, hst] using hwhy)

end Sys2Proof.Machine
end

section
/-! SUPPORT. A cell that arrives on a link, and the MAC block after it: what is judged before TSC sees it (R127, R128, R143, R145). -/

namespace Sys2Proof.Machine

variable {h k : Hub} {ps : List Part} {rs : Set Nat} {bs : List Block} {s : State} {p : LinkNo}

theorem exec_cellRx (p : LinkNo) (hd data : List Byte) (cut : Bool) (s : State) : exec (.cellRx p hd data cut) s = execCellRx p hd data cut s := rfl

theorem exec_macBlockRx (p : LinkNo) (code : List Byte) (s : State) : exec (.macBlockRx p code) s = execMacBlockRx p code s := rfl

/-! ### From the blocks to the cell -/

/-- The end at which a cell with RSEQ E may be told of a receive error anew (R145). -/
def Hub.expected (h : Hub) (p : Nat) : Hub := h.updLink p fun l => { l with nakSent := false }

/-- What follows from a received header and its data blocks, once the blocks before it are dealt with. -/
def Hub.cellJudged (h : Hub) (p : Nat) (r : RawCell) (data : List Byte) (cut : Bool) : Hub :=
  let e := (h.link p).rxNext
  let h := if r.check ∧ r.rseq = e then h.expected p else h
  if r.malformed data cut then (h.hdrErr p).rxError p
  else if r.rseq = e then
    if r.void then
      (((h.linkVoid p r.flow r.fseq r.tc).inc (Reg.KL_CNT_VOID p)).rxAccept p).updLink p fun l => { l with macTried := false }
    else if (r.cellIn data).pennant = pennantOf (r.cellIn data).payload (r.cellIn data).flow (r.cellIn data).fseq then
      h.inSequence p (r.cellIn data)
    else h.pennantRx p (r.cellIn data)
  else if (e + 4096 - r.rseq) % 4096 ≤ 2048 then h.updLink p fun l => { l with ackDue := true }
  else h.rxError p

/-- In UP, with no MAC block awaited, no idle request under way and no data block beyond the cell, only the cell counts. -/
theorem Hub.cellOrBlock_cell {p : Nat} {hd data : List Byte} (hst : h.klState p = 5) (hmac : (h.link p).macCell = none)
    (hhd : hd.getD 0 0 = 0xC5) (hreq : (h.link p).idleReq = false) (hdata : (data.length + 15) / 16 ≤ (rawCell hd).blocks) (cut : Bool) :
    h.cellOrBlock p hd data cut = h.cellJudged p (rawCell hd) data cut := by
  have hcross : h.idleCrossed p = h := if_neg (by simp [hreq])
  unfold Hub.cellOrBlock
  rw [if_pos (show hd.getD 0 0 = 0xC5#8 from hhd), if_neg (show ¬ h.klState p = 6 by rw [hst]; decide),
    Hub.cellRx, Hub.macMissing_of_none hmac, hcross, Nat.sub_eq_zero_of_le hdata]
  rfl

theorem ends_cellRx {hd data : List Byte} {cut : Bool} {Q : State → Prop} (hears : s.hub.hears p = true) (hst : s.hub.klState p = 5)
    (hmac : (s.hub.link p).macCell = none) (hhd : hd.getD 0 0 = 0xC5) (hreq : (s.hub.link p).idleReq = false)
    (hdata : (data.length + 15) / 16 ≤ (rawCell hd).blocks) (hk : s.hub.fresh.cellJudged p (rawCell hd) data cut = k)
    (hcells : k.cells = s.hub.fresh.cells) (hr : Reg.TSC_KITTY_MIN ∈ rs) (ht : Block.tsc ∈ bs) (hf : Frame s.hub.fresh k ps rs bs)
    (hq : Q { s with hub := s.hub.fresh.cycleEnd k }) : Ends (.cellRx p hd data cut) s ps rs bs Q :=
  ends_actT (f := fun h => h.cellOrBlock p hd data cut) (exec_cellRx p hd data cut s) (by simp [hears, hst])
    ((Hub.cellOrBlock_cell (h := s.hub.fresh) hst hmac hhd hreq hdata cut).trans hk) hcells hr ht hf hq

theorem Hub.cellJudged_malformed {p : Nat} {r : RawCell} {data : List Byte} {cut : Bool} (hbad : r.malformed data cut = true)
    (hcheck : r.check = false) : h.cellJudged p r data cut = (h.hdrErr p).rxError p := by
  unfold Hub.cellJudged
  dsimp only
  rw [if_neg (show ¬ (r.check = true ∧ r.rseq = (h.link p).rxNext) by simp [hcheck]), if_pos hbad]

theorem Hub.cellJudged_ahead {p : Nat} {r : RawCell} {data : List Byte} {cut : Bool} (hgood : r.malformed data cut = false)
    (hseq : r.rseq ≠ (h.link p).rxNext) (hfar : 2048 < ((h.link p).rxNext + 4096 - r.rseq) % 4096) :
    h.cellJudged p r data cut = h.rxError p := by
  unfold Hub.cellJudged
  dsimp only
  rw [if_neg (show ¬ (r.check = true ∧ r.rseq = (h.link p).rxNext) from fun e => hseq e.2), if_neg (Bool.eq_false_iff.mp hgood),
    if_neg hseq, if_neg (Nat.not_le.mpr hfar)]

theorem Hub.cellJudged_again {p : Nat} {r : RawCell} {data : List Byte} {cut : Bool} (hgood : r.malformed data cut = false)
    (hseq : r.rseq ≠ (h.link p).rxNext) (hnear : ((h.link p).rxNext + 4096 - r.rseq) % 4096 ≤ 2048) :
    h.cellJudged p r data cut = h.updLink p fun l => { l with ackDue := true } := by
  unfold Hub.cellJudged
  dsimp only
  rw [if_neg (show ¬ (r.check = true ∧ r.rseq = (h.link p).rxNext) from fun e => hseq e.2), if_neg (Bool.eq_false_iff.mp hgood),
    if_neg hseq, if_pos hnear]

section
variable {p : Nat} {r : RawCell} {data : List Byte} {cut : Bool} (hcheck : r.check = true) (hseq : r.rseq = (h.link p).rxNext)
  (hgood : r.malformed data cut = false)
include hcheck hseq hgood

theorem Hub.cellJudged_void (hvoid : r.void = true) : h.cellJudged p r data cut =
    ((((h.expected p).linkVoid p r.flow r.fseq r.tc).inc (Reg.KL_CNT_VOID p)).rxAccept p).updLink p fun l =>
      { l with macTried := false } := by
  unfold Hub.cellJudged
  dsimp only
  rw [if_pos (show r.check = true ∧ r.rseq = (h.link p).rxNext from ⟨hcheck, hseq⟩),
    if_neg (Bool.eq_false_iff.mp hgood), if_pos hseq, if_pos hvoid]

theorem Hub.cellJudged_pennant (hvoid : r.void = false) (hpen : r.pennant ≠ pennantOf (data.take (r.len + 1)) r.flow r.fseq) :
    h.cellJudged p r data cut = (h.expected p).pennantRx p (r.cellIn data) := by
  unfold Hub.cellJudged
  dsimp only
  rw [if_pos (show r.check = true ∧ r.rseq = (h.link p).rxNext from ⟨hcheck, hseq⟩),
    if_neg (Bool.eq_false_iff.mp hgood), if_pos hseq, if_neg (Bool.eq_false_iff.mp hvoid)]
  exact if_neg hpen

theorem Hub.cellJudged_inSequence (hvoid : r.void = false) (hpen : r.pennant = pennantOf (data.take (r.len + 1)) r.flow r.fseq) :
    h.cellJudged p r data cut = (h.expected p).inSequence p (r.cellIn data) := by
  unfold Hub.cellJudged
  dsimp only
  rw [if_pos (show r.check = true ∧ r.rseq = (h.link p).rxNext from ⟨hcheck, hseq⟩),
    if_neg (Bool.eq_false_iff.mp hgood), if_pos hseq, if_neg (Bool.eq_false_iff.mp hvoid)]
  exact if_pos hpen

end

/-! ### Receive errors -/

theorem Hub.rxError_told {p : Nat} (hnak : (h.link p).nakSent = true) : h.rxError p = h := if_pos hnak

theorem Hub.rxError_new {p : Nat} (hnak : (h.link p).nakSent = false) :
    h.rxError p = (h.updLink p fun l => { l with nakSent := true }).creditBlock p false true := if_neg (by simp [hnak])

theorem Frame.rxError {p : Nat} (a : Frame h k ps rs bs) (hp : Part.links ∈ ps) : Frame h (k.rxError p) ps rs bs :=
  a.ite (a.updLink hp).emit

theorem Hub.rxError_link (h : Hub) (p : Nat) : (h.rxError p).link p = { h.link p with nakSent := true } := by
  cases hnak : (h.link p).nakSent
  · rw [Hub.rxError_new hnak]
    exact h.link_updLink_self p fun l => { l with nakSent := true }
  · rw [Hub.rxError_told hnak, ← hnak]

theorem Hub.rxError_rd (h : Hub) (p a : Nat) : (h.rxError p).rd a = h.rd a :=
  ((Frame.refl h).rxError (ps := [.links]) (rs := ∅) (bs := []) List.mem_cons_self).reg a (Set.notMem_empty a)

theorem Hub.rxError_hdr (h : Hub) (p : Nat) (b : Block) : (h.rxError p).hdr b = h.hdr b := by
  unfold Hub.rxError
  split <;> rfl

theorem Hub.rxError_cells (h : Hub) (p : Nat) : (h.rxError p).cells = h.cells :=
  ((Frame.refl h).rxError (ps := [.links]) (rs := ∅) (bs := []) List.mem_cons_self).part .cells (by decide)

/-- What a port sends goes by what its lanes are set to. -/
theorem Frame.sends (a : Frame h k ps rs bs) (hr : ∀ x ∈ blockRegs .lnx, x ∉ rs) {p : Nat} (hp : p ≤ 15) (l : List Emit) :
    k.sends p l = h.sends p l := by
  have hlanes : k.portLanes p = h.portLanes p := Hub.portLanes_congr (a.reg _ (hr _ (LNX_PORT_MAP_mem_lnx hp)))
  have hloop {l : Nat} (hl : l < 40) : Reg.LN_LOOP l ∈ blockRegs .lnx := by
    refine ⟨?_, ?_⟩ <;> rw [Block.base_lnx] <;> unfold Reg.LN_LOOP <;> omega
  have hpat {l : Nat} (hl : l < 40) : Reg.LN_PAT_CFG l ∈ blockRegs .lnx := by
    refine ⟨?_, ?_⟩ <;> rw [Block.base_lnx] <;> unfold Reg.LN_PAT_CFG <;> omega
  have hmute (l : Nat) (hl : l ∈ h.portLanes p) : k.laneMute l = h.laneMute l := by
    have hlt := h.portLanes_lt hl
    unfold Hub.laneMute Hub.rdF Hub.rdB
    rw [a.reg _ (hr _ (hloop hlt)), a.reg _ (hr _ (hpat hlt))]
  have hmuted : k.muted p = h.muted p := by
    unfold Hub.muted
    rw [hlanes]
    exact Bool.eq_iff_iff.mpr (by simp only [List.any_eq_true]; exact exists_congr fun l => and_congr_right fun hl => by rw [hmute l hl])
  unfold Hub.sends
  rw [hmuted]

/-- A credit block tells the last RSEQ accepted and the returns. -/
theorem Hub.creditBytes_congr {p : Nat} (hnext : (k.link p).rxNext = (h.link p).rxNext) (hret : (k.link p).retCum = (h.link p).retCum)
    (hi nak : Bool) : k.creditBytes p hi nak = h.creditBytes p hi nak := by
  unfold Hub.creditBytes
  dsimp only
  rw [hnext, hret]

/-! ### A malformed cell, one ahead of its turn and one that has come before -/

theorem ends_cellRx_malformed {hd data : List Byte} {cut : Bool} (hears : s.hub.hears p = true) (hst : s.hub.klState p = 5)
    (hmac : (s.hub.link p).macCell = none) (hhd : hd.getD 0 0 = 0xC5) (hbad : (rawCell hd).malformed data cut = true)
    (hcheck : (rawCell hd).check = false) (hnak : (s.hub.link p).nakSent = false) (hreq : (s.hub.link p).idleReq = false)
    (hdata : (data.length + 15) / 16 ≤ (rawCell hd).blocks) :
    Ends (.cellRx p hd data cut) s [.links, .pins] {Reg.KL_CNT_HDR p, Reg.SIT_FAULTN_CNT, Reg.TSC_KITTY_MIN} [.kll, .sit, .tsc]
      (fun t => t.hub.rd (Reg.KL_CNT_HDR p) = incHold (s.hub.rd (Reg.KL_CNT_HDR p)) ∧ bit (t.hub.hdr .kll).sticky 0 = true
      ∧ t.hub.link p = { s.hub.link p with nakSent := true }
      ∧ t.hub.out = s.hub.sends p [.block p (s.hub.creditBytes p false true)]) := by
  have hp : p.val ≤ 8 := Nat.le_of_lt_succ p.isLt
  generalize hm : s.hub.fresh.hdrErr p = m
  have hcounted : Frame s.hub.fresh m [.pins] {Reg.KL_CNT_HDR p, Reg.SIT_FAULTN_CNT} [.kll, .sit] := by
    rw [← hm]
    exact (Frame.refl _).hdrErr (by simp) (by simp) (by simp) (by simp) (by simp)
  have hlink : m.link p = s.hub.link p := by
    rw [← hm]
    exact Hub.hdrErr_link _ _ _
  have hcells : (m.rxError p).cells = s.hub.fresh.cells := (m.rxError_cells p).trans (hcounted.part .cells (by decide))
  refine ends_cellRx hears hst hmac hhd hreq hdata ((Hub.cellJudged_malformed hbad hcheck).trans (by rw [hm])) hcells (by simp) (by simp)
    (Frame.rxError (hcounted.mono (by simp) (by simp [Set.insert_subset_iff]) (by decide)) (by simp)) ⟨?_, ?_, ?_, ?_⟩
  · rw [Hub.cycleEnd_rd hcells (KL_CNT_HDR_ne_KITTY_MIN hp), Hub.rxError_rd, ← hm, Hub.hdrErr_count _ hp]
    rfl
  · rw [Hub.cycleEnd_sticky hcells, Hub.rxError_hdr, ← hm]
    exact Hub.hdrErr_sticky _ _
  · rw [Hub.cycleEnd_link hcells, Hub.rxError_link, hlink]
  · have hlane (x : Nat) (hx : x ∈ blockRegs .lnx) : x ∉ ({Reg.KL_CNT_HDR p, Reg.SIT_FAULTN_CNT} : Set Nat) := by
      rintro (rfl | rfl)
      · exact notMem_lnx (by unfold Reg.KL_CNT_HDR; omega) hx
      · exact notMem_lnx (by decide) hx
    rw [Hub.cycleEnd_out hcells, Hub.rxError_new (by rw [hlink]; exact hnak), Hub.creditBlock_out, Hub.updLink_out, ← hm, Hub.hdrErr_out, hm,
      Hub.creditBytes_congr (h := s.hub) (by rw [Hub.link_updLink_self, hlink]) (by rw [Hub.link_updLink_self, hlink])]
    exact hcounted.sends hlane (by omega) _

theorem ends_cellRx_ahead {hd data : List Byte} (hears : s.hub.hears p = true) (hst : s.hub.klState p = 5)
    (hmac : (s.hub.link p).macCell = none) (hhd : hd.getD 0 0 = 0xC5) (hgood : (rawCell hd).malformed data false = false)
    (hseq : (rawCell hd).rseq ≠ (s.hub.link p).rxNext) (hfar : 2048 < ((s.hub.link p).rxNext + 4096 - (rawCell hd).rseq) % 4096)
    (hnak : (s.hub.link p).nakSent = true) (hreq : (s.hub.link p).idleReq = false)
    (hdata : (data.length + 15) / 16 ≤ (rawCell hd).blocks) :
    Ends (.cellRx p hd data false) s [] {Reg.TSC_KITTY_MIN} [.tsc] (fun t => t.hub.out = []) := by
  have hcells : s.hub.fresh.cells = s.hub.fresh.cells := rfl
  refine ends_cellRx hears hst hmac hhd hreq hdata
    ((Hub.cellJudged_ahead (h := s.hub.fresh) hgood hseq hfar).trans (Hub.rxError_told (h := s.hub.fresh) hnak)) hcells rfl
    List.mem_cons_self (Frame.refl _) ?_
  rw [Hub.cycleEnd_out hcells]
  rfl

theorem ends_cellRx_again {hd data : List Byte} (hears : s.hub.hears p = true) (hst : s.hub.klState p = 5)
    (hmac : (s.hub.link p).macCell = none) (hhd : hd.getD 0 0 = 0xC5) (hgood : (rawCell hd).malformed data false = false)
    (hseq : (rawCell hd).rseq ≠ (s.hub.link p).rxNext) (hnear : ((s.hub.link p).rxNext + 4096 - (rawCell hd).rseq) % 4096 ≤ 2048)
    (hreq : (s.hub.link p).idleReq = false) (hdata : (data.length + 15) / 16 ≤ (rawCell hd).blocks) :
    Ends (.cellRx p hd data false) s [.links] {Reg.TSC_KITTY_MIN} [.tsc] (fun t =>
      t.hub.link p = { s.hub.link p with ackDue := true }) := by
  have hcells : (s.hub.fresh.updLink p fun l => { l with ackDue := true }).cells = s.hub.fresh.cells := rfl
  refine ends_cellRx hears hst hmac hhd hreq hdata (Hub.cellJudged_again (h := s.hub.fresh) hgood hseq hnear) hcells rfl List.mem_cons_self
    ((Frame.refl _).updLink List.mem_cons_self) ?_
  rw [Hub.cycleEnd_link hcells, Hub.link_updLink_self]
  rfl

end Sys2Proof.Machine
end

section
/-! SUPPORT. Cells that store nothing and MAC blocks that end a frame without its delivery (R128, R133, R145). -/

namespace Sys2Proof.Machine

variable {h k : Hub} {ps : List Part} {rs : Set Nat} {bs : List Block} {s : State} {p : LinkNo}

/-! ### What the steps of a refusal touch -/

theorem Frame.creditBack {p c : Nat} (a : Frame h k ps rs bs) (hp : Part.links ∈ ps) : Frame h (k.creditBack p c) ps rs bs := a.updLink hp

theorem Frame.rxAccept {p : Nat} (a : Frame h k ps rs bs) (hp : Part.links ∈ ps) : Frame h (k.rxAccept p) ps rs bs := a.updLink hp

theorem Frame.countFlow {p flow n : Nat} {d : DropCnt} (a : Frame h k ps rs bs) (hp : Part.paging ∈ ps) (hc : Part.ctxs ∈ ps) :
    Frame h (k.countFlow p flow d n) ps rs bs := by
  unfold Hub.countFlow
  split
  · exact (a.updCtx hc).ite a
  · split
    · exact a.updCtx hc
    · exact a.updCtx hc
    · exact a.upd rfl rfl rfl fun q hq => by cases q <;> first | exact absurd hp hq | rfl

theorem Frame.dropEvent {port tc : Nat} (a : Frame h k ps rs bs) (hp : Part.pmc ∈ ps) (hr : pmcRegs ⊆ rs) (hb : Block.pmc ∈ bs) :
    Frame h (k.dropEvent port tc) ps rs bs := a.pmcEvent hp hr hb

theorem Frame.sticky (a : Frame h k ps rs bs) {b : Block} (hb : b ∉ bs) : (k.hdr b).sticky = (h.hdr b).sticky := by
  have hbody := congrArg Hdr.sticky (a.hdr b hb)
  exact hbody

theorem Hub.openOf_congr (ho : k.opens = h.opens) (p flow : Nat) : k.openOf p flow = h.openOf p flow := by
  unfold Hub.openOf
  rw [ho]

/-- A frame of a flow is counted as dropped, in its context and by PMC. -/
theorem Hub.dropCounted_frame (h : Hub) (p flow tc : Nat) (d : DropCnt) :
    Frame h ((h.countFlow p flow d).dropEvent p tc) [.paging, .ctxs, .pmc] pmcRegs [.pmc] :=
  ((Frame.refl h).countFlow (by simp) (by simp)).dropEvent (by simp) subset_rfl (by simp)

theorem Hub.eventCounted_frame (h : Hub) (p flow tc : Nat) (d : DropCnt) :
    Frame h ((h.dropEvent p tc).countFlow p flow d) [.paging, .ctxs, .pmc] pmcRegs [.pmc] :=
  ((Frame.refl h).dropEvent (by simp) subset_rfl (by simp)).countFlow (by simp) (by simp)

/-- The error counters of a port lie apart from PMC's flags, SIT's count and TSC's. -/
theorem KL_CNT_PENNANT_notMem {p : Nat} (hp : p ≤ 8) : Reg.KL_CNT_PENNANT p ∉ pmcRegs ∧ Reg.KL_CNT_PENNANT p ≠ Reg.SIT_FAULTN_CNT
    ∧ Reg.KL_CNT_PENNANT p ≠ Reg.TSC_KITTY_MIN := by
  refine ⟨fun ⟨i, hi, e⟩ => ?_, ?_, ?_⟩
  · rw [Reg.KL_CNT_PENNANT, Reg.PMC_OVF] at e
    omega
  · unfold Reg.KL_CNT_PENNANT Reg.SIT_FAULTN_CNT
    omega
  · unfold Reg.KL_CNT_PENNANT Reg.TSC_KITTY_MIN
    omega

theorem KL_CNT_MAC_notMem {p : Nat} (hp : p ≤ 8) : Reg.KL_CNT_MAC p ≠ Reg.SIT_FAULTN_CNT ∧ Reg.KL_CNT_MAC p ≠ Reg.TSC_KITTY_MIN
    ∧ Reg.KL_CNT_MAC p ∉ pmcRegs := by
  refine ⟨?_, ?_, fun ⟨i, hi, e⟩ => ?_⟩
  · unfold Reg.KL_CNT_MAC Reg.SIT_FAULTN_CNT
    omega
  · unfold Reg.KL_CNT_MAC Reg.TSC_KITTY_MIN
    omega
  · rw [Reg.KL_CNT_MAC, Reg.PMC_OVF] at e
    omega

/-! ### A VOID cell (R145) -/

theorem Hub.linkVoid_none {p flow : Nat} (hopen : h.openOf p flow = none) (fseq tc : Nat) : h.linkVoid p flow fseq tc = h.creditBack p tc := by
  unfold Hub.linkVoid
  dsimp only
  rw [show (h.creditBack p tc).openOf p flow = none from hopen]

/-- The record of a port that takes a VOID cell. -/
def LinkSt.voided (l : LinkSt) (tc : Nat) : LinkSt :=
  { l with
    nakSent := false
    retCum := modAt l.retCum tc fun n => (n + 1) % 65536
    rxNext := (l.rxNext + 1) % 4096
    ackDue := true
    macTried := false }

/-- A VOID cell accepted: its credit, its count and E. -/
def Hub.voidAccepted (h : Hub) (p tc : Nat) : Hub :=
  ((((h.expected p).creditBack p tc).inc (Reg.KL_CNT_VOID p)).rxAccept p).updLink p fun l => { l with macTried := false }

theorem Hub.voidAccepted_frame (h : Hub) (p tc : Nat) : Frame h (h.voidAccepted p tc) [.links] {Reg.KL_CNT_VOID p} [] := by
  have hcredit : Frame h ((h.expected p).creditBack p tc) [.links] {Reg.KL_CNT_VOID p} [] :=
    ((Frame.refl h).updLink List.mem_cons_self).creditBack List.mem_cons_self
  unfold Hub.voidAccepted
  exact ((hcredit.inc rfl).rxAccept List.mem_cons_self).updLink List.mem_cons_self

theorem Hub.voidAccepted_link (h : Hub) (p tc : Nat) : (h.voidAccepted p tc).link p = (h.link p).voided tc := by
  have hinc (m : Hub) : (m.inc (Reg.KL_CNT_VOID p)).link p = m.link p := rfl
  rw [Hub.voidAccepted, Hub.link_updLink_self, Hub.rxAccept, Hub.link_updLink_self, hinc, Hub.creditBack, Hub.link_updLink_self,
    Hub.expected, Hub.link_updLink_self]
  rfl

theorem Hub.voidAccepted_count (h : Hub) (p tc : Nat) :
    (h.voidAccepted p tc).rd (Reg.KL_CNT_VOID p) = incHold (h.rd (Reg.KL_CNT_VOID p)) := by
  rw [Hub.voidAccepted, Hub.updLink_rd, Hub.rxAccept, Hub.updLink_rd, Hub.rd_inc, if_pos rfl, Hub.creditBack, Hub.updLink_rd, Hub.expected,
    Hub.updLink_rd]

theorem ends_cellRx_void {hd data : List Byte} (hears : s.hub.hears p = true) (hst : s.hub.klState p = 5)
    (hmac : (s.hub.link p).macCell = none) (hhd : hd.getD 0 0 = 0xC5) (hcheck : (rawCell hd).check = true)
    (hseq : (rawCell hd).rseq = (s.hub.link p).rxNext) (hvoid : (rawCell hd).void = true) (hgood : (rawCell hd).malformed data false = false)
    (hopen : s.hub.openOf p (rawCell hd).flow = none) (hreq : (s.hub.link p).idleReq = false)
    (hdata : (data.length + 15) / 16 ≤ (rawCell hd).blocks) :
    Ends (.cellRx p hd data false) s [.links] {Reg.KL_CNT_VOID p, Reg.TSC_KITTY_MIN} [.tsc] (fun t =>
      (t.hub.link p).rxNext = ((s.hub.link p).rxNext + 1) % 4096
      ∧ t.hub.rd (Reg.KL_CNT_VOID p) = incHold (s.hub.rd (Reg.KL_CNT_VOID p))
      ∧ (t.hub.link p).retCum = modAt (s.hub.link p).retCum (rawCell hd).tc (fun n => (n + 1) % 65536)) := by
  have hframe := s.hub.fresh.voidAccepted_frame p (rawCell hd).tc
  have hcells := hframe.part .cells (by decide)
  refine ends_cellRx (k := s.hub.fresh.voidAccepted p (rawCell hd).tc) hears hst hmac hhd hreq hdata ?effect hcells (by simp)
    List.mem_cons_self (hframe.mono (List.Subset.refl _) (fun _ ha => .inl ha) (List.nil_subset _)) ⟨?_, ?_, ?_⟩
  case effect =>
    rw [Hub.cellJudged_void (h := s.hub.fresh) hcheck hseq hgood hvoid, Hub.linkVoid_none (h := s.hub.fresh.expected p) hopen]
    rfl
  · rw [Hub.cycleEnd_link hcells, Hub.voidAccepted_link]
    rfl
  · rw [Hub.cycleEnd_rd hcells (by unfold Reg.KL_CNT_VOID Reg.TSC_KITTY_MIN; omega), Hub.voidAccepted_count]
    rfl
  · rw [Hub.cycleEnd_link hcells, Hub.voidAccepted_link]
    rfl

/-! ### A pennant that fails (R128) -/

theorem ends_cellRx_pennant {hd data : List Byte} (hears : s.hub.hears p = true) (hst : s.hub.klState p = 5)
    (hmac : (s.hub.link p).macCell = none) (hhd : hd.getD 0 0 = 0xC5) (hcheck : (rawCell hd).check = true)
    (hseq : (rawCell hd).rseq = (s.hub.link p).rxNext) (hvoid : (rawCell hd).void = false)
    (hgood : (rawCell hd).malformed data false = false)
    (hpen : (rawCell hd).pennant ≠ pennantOf (data.take ((rawCell hd).len + 1)) (rawCell hd).flow (rawCell hd).fseq)
    (hreq : (s.hub.link p).idleReq = false) (hdata : (data.length + 15) / 16 ≤ (rawCell hd).blocks) :
    Ends (.cellRx p hd data false) s [.links, .pins, .paging, .ctxs, .pmc]
      ({Reg.KL_CNT_PENNANT p, Reg.SIT_FAULTN_CNT, Reg.TSC_KITTY_MIN} ∪ pmcRegs) [.kll, .sit, .tsc, .pmc] (fun t =>
      t.hub.rd (Reg.KL_CNT_PENNANT p) = incHold (s.hub.rd (Reg.KL_CNT_PENNANT p))
      ∧ bit (t.hub.hdr .kll).sticky 1 = true ∧ t.hub.link p = { s.hub.link p with nakSent := true }) := by
  obtain ⟨hpmc, hfaultn, hkitty⟩ := KL_CNT_PENNANT_notMem (Nat.le_of_lt_succ p.isLt)
  generalize hm : ((s.hub.fresh.expected p).inc (Reg.KL_CNT_PENNANT p)).fault .kll 1 = m
  have hfailed : Frame s.hub.fresh m [.links, .pins] {Reg.KL_CNT_PENNANT p, Reg.SIT_FAULTN_CNT} [.kll, .sit] := by
    rw [← hm]
    exact Frame.fault (Frame.inc (Frame.updLink (Frame.refl _) (by simp)) (by simp)) (by simp) (by simp) (by simp) (by simp)
  have hdropped := m.dropCounted_frame p (rawCell hd).flow (rawCell hd).tc .pennant
  generalize hj : (m.countFlow p (rawCell hd).flow .pennant).dropEvent p (rawCell hd).tc = j at hdropped
  have hlink : j.link p = { s.hub.link p with nakSent := false } := by
    rw [hdropped.link (by decide), ← hm, Hub.fault_link]
    exact s.hub.link_updLink_self p fun l => { l with nakSent := false }
  have hcells : (j.rxError p).cells = s.hub.fresh.cells :=
    (j.rxError_cells p).trans ((hdropped.part .cells (by decide)).trans (hfailed.part .cells (by decide)))
  refine ends_cellRx (k := j.rxError p) hears hst hmac hhd hreq hdata ?effect hcells (by simp) (by simp) ?frame ⟨?_, ?_, ?_⟩
  case effect =>
    rw [Hub.cellJudged_pennant (h := s.hub.fresh) hcheck hseq hgood hvoid hpen, Hub.pennantRx, hm, ← hj]
    rfl
  case frame =>
    have hfirst : Frame s.hub.fresh m [.links, .pins, .paging, .ctxs, .pmc]
        ({Reg.KL_CNT_PENNANT p, Reg.SIT_FAULTN_CNT, Reg.TSC_KITTY_MIN} ∪ pmcRegs) [.kll, .sit, .tsc, .pmc] :=
      hfailed.mono (by decide) (fun a ha => .inl (ha.imp_right .inl)) (by decide)
    exact Frame.rxError (hfirst.trans (hdropped.mono (by decide) Set.subset_union_right (by decide))) (by simp)
  · rw [Hub.cycleEnd_rd hcells hkitty, Hub.rxError_rd, hdropped.reg _ hpmc, ← hm, Hub.fault_rd _ _ _ hfaultn, Hub.rd_inc, if_pos rfl]
    rfl
  · rw [Hub.cycleEnd_sticky hcells, Hub.rxError_hdr, hdropped.sticky (by decide), ← hm]
    exact Hub.fault_sticky_self _ _ (by decide)
  · rw [Hub.cycleEnd_link hcells, Hub.rxError_link, hlink]

/-! ### The MAC block of a frame that is gone (R133) -/

theorem ends_macBlockRx {code : List Byte} {c : CellIn} {Q : State → Prop} (hears : s.hub.hears p = true)
    (hmac : (s.hub.link p).macCell = some c) (hk : s.hub.fresh.macRx p c code = k) (hcells : k.cells = s.hub.fresh.cells)
    (hr : Reg.TSC_KITTY_MIN ∈ rs) (ht : Block.tsc ∈ bs) (hf : Frame s.hub.fresh k ps rs bs)
    (hq : Q { s with hub := s.hub.fresh.cycleEnd k }) : Ends (.macBlockRx p code) s ps rs bs Q := by
  refine ends_actT (exec_macBlockRx p code s) (by simp [hears, hmac]) ?_ hcells hr ht hf hq
  rw [show (s.hub.fresh.link p).macCell = some c from hmac]
  exact hk

theorem Hub.takeCell_orphan {p : Nat} {c : CellIn} (hst : h.klState p = 5) (htc : c.tc = 6) (hflow : 0xFFC000 ≤ c.flow)
    (hfirst : c.first = false) (hopen : h.openOf p c.flow = none) : h.takeCell p c = some (h.creditBack p 6) := by
  have hlet : h.shutOut p c = false := by simp [Hub.shutOut, hst]
  have hlink : h.linkCell p c = some (h.creditBack p 6) := by
    unfold Hub.linkCell
    rw [if_neg (Bool.eq_false_iff.mp hfirst), hopen, htc]
    rfl
  unfold Hub.takeCell
  rw [if_neg (Bool.eq_false_iff.mp hlet), if_neg (by simp [htc, hflow]), hlink]
  simp [htc]

/-- The record of a port whose awaited MAC block lets it move on. -/
def LinkSt.movedOn (l : LinkSt) : LinkSt :=
  { l with
    macCell := none
    retCum := modAt l.retCum 6 fun n => (n + 1) % 65536
    rxNext := (l.rxNext + 1) % 4096
    ackDue := true
    ctrRx := l.ctrRx + 1
    macTried := false }

/-- The MAC block of an abandoned frame is taken: the cell's credit returns, and E and the counter advance. -/
def Hub.orphanTaken (h : Hub) (p : Nat) : Hub :=
  (((h.updLink p fun l => { l with macCell := none }).creditBack p 6).rxAccept p).updLink p fun l =>
    { l with ctrRx := l.ctrRx + 1, macTried := false }

theorem Hub.orphanTaken_frame (h : Hub) (p : Nat) : Frame h (h.orphanTaken p) [.links] ∅ [] := by
  have hcredit : Frame h ((h.updLink p fun l => { l with macCell := none }).creditBack p 6) [.links] ∅ [] :=
    ((Frame.refl h).updLink List.mem_cons_self).creditBack List.mem_cons_self
  unfold Hub.orphanTaken
  exact (hcredit.rxAccept List.mem_cons_self).updLink List.mem_cons_self

theorem Hub.orphanTaken_link (h : Hub) (p : Nat) : (h.orphanTaken p).link p = (h.link p).movedOn := by
  rw [Hub.orphanTaken, Hub.link_updLink_self, Hub.rxAccept, Hub.link_updLink_self, Hub.creditBack, Hub.link_updLink_self,
    Hub.link_updLink_self]
  rfl

theorem Hub.macRx_orphan {p : Nat} {c : CellIn} (hst : h.klState p = 5) (htc : c.tc = 6) (hflow : 0xFFC000 ≤ c.flow)
    (hfirst : c.first = false) (hopen : h.openOf p c.flow = none) (code : List Byte) : h.macRx p c code = h.orphanTaken p := by
  have hgone (f : LinkSt → LinkSt) : (h.updLink p f).openOf p c.flow = none := hopen
  have htake (f : LinkSt → LinkSt) : (h.updLink p f).takeCell p c = some ((h.updLink p f).creditBack p 6) :=
    Hub.takeCell_orphan hst htc hflow hfirst (hgone f)
  have hend : (h.orphanTaken p).tc6End p c.flow = h.orphanTaken p := by
    unfold Hub.tc6End
    rw [Hub.openOf_congr ((h.orphanTaken_frame p).part .opens (by decide)), hopen]
  unfold Hub.macRx
  dsimp only
  rw [hgone, hfirst, htake]
  refine (if_pos ?_).trans hend
  rfl

theorem ends_macBlockRx_orphan {code : List Byte} {c : CellIn} (hears : s.hub.hears p = true) (hst : s.hub.klState p = 5)
    (hmac : (s.hub.link p).macCell = some c) (htc : c.tc = 6) (hfirst : c.first = false) (hflow : 0xFFC000 ≤ c.flow)
    (hopen : s.hub.openOf p c.flow = none) :
    Ends (.macBlockRx p code) s [.links] {Reg.TSC_KITTY_MIN} [.tsc] (fun t =>
      (t.hub.link p).macCell = none ∧ (t.hub.link p).rxNext = ((s.hub.link p).rxNext + 1) % 4096
      ∧ (t.hub.link p).ctrRx = (s.hub.link p).ctrRx + 1 ∧ (t.hub.link p).macTried = false) := by
  have hframe := s.hub.fresh.orphanTaken_frame p
  have hcells := hframe.part .cells (by decide)
  refine ends_macBlockRx hears hmac (Hub.macRx_orphan (h := s.hub.fresh) hst htc hflow hfirst hopen code) hcells rfl List.mem_cons_self
    (hframe.mono (List.Subset.refl _) (Set.empty_subset _) (List.nil_subset _)) ?_
  dsimp only
  rw [Hub.cycleEnd_link hcells, Hub.orphanTaken_link]
  exact ⟨rfl, rfl, rfl, rfl⟩

/-! ### A MAC block that fails twice (R133) -/

/-- The frame of a MAC block that fails twice is dropped, before the port moves on. -/
def Hub.macDropped (h : Hub) (p flow : Nat) : Hub :=
  ((h.updLink p fun l => { l with macCell := none }).dropEvent p 6).countFlow p flow .pennant

theorem Hub.macDropped_frame (h : Hub) (p flow : Nat) : Frame h (h.macDropped p flow) [.links, .paging, .ctxs, .pmc] pmcRegs [.pmc] :=
  Frame.countFlow (Frame.dropEvent (Frame.updLink (Frame.refl h) (by simp)) (by simp) subset_rfl (by simp)) (by simp) (by simp)

theorem Hub.macDropped_link (h : Hub) (p flow : Nat) : (h.macDropped p flow).link p = { h.link p with macCell := none } := by
  have hcounted := (h.updLink p fun l => { l with macCell := none }).eventCounted_frame p flow 6 .pennant
  exact (hcounted.link (by decide) p).trans (h.link_updLink_self p _)

theorem Hub.macRx_second {p : Nat} {c : CellIn} {code : List Byte} (hfirst : c.first = true) (htried : (h.link p).macTried = true)
    (hcode : code ≠ tc6Code (h.link p).keyRx (h.link p).ctrRx c.flow c.fseq c.payload) : h.macRx p c code =
    (((((h.macDropped p c.flow).creditBack p 6).inc (Reg.KL_CNT_MAC p)).fault .kll 2).rxAccept p).updLink p fun l =>
      { l with ctrRx := l.ctrRx + 1, macTried := false } := by
  have hbytes (m : Hub) : m.tc6Bytes p c = c.payload := if_pos hfirst
  unfold Hub.macRx
  dsimp only
  rw [hbytes, if_neg (by simp [hfirst, hcode]), if_neg (by simp [htried]), if_pos hfirst]
  rfl

theorem ends_macBlockRx_second {code : List Byte} {c : CellIn} (hears : s.hub.hears p = true) (hmac : (s.hub.link p).macCell = some c)
    (hfirst : c.first = true) (htried : (s.hub.link p).macTried = true)
    (hcode : code ≠ tc6Code (s.hub.link p).keyRx (s.hub.link p).ctrRx c.flow c.fseq c.payload) :
    Ends (.macBlockRx p code) s [.links, .pins, .paging, .ctxs, .pmc]
      ({Reg.KL_CNT_MAC p, Reg.SIT_FAULTN_CNT, Reg.TSC_KITTY_MIN} ∪ pmcRegs) [.kll, .sit, .tsc, .pmc]
      (fun t => (t.hub.link p).macCell = none ∧ (t.hub.link p).ctrRx = (s.hub.link p).ctrRx + 1 ∧ (t.hub.link p).macTried = false
      ∧ (t.hub.link p).rxNext = ((s.hub.link p).rxNext + 1) % 4096 ∧ bit (t.hub.hdr .kll).sticky 2 = true
      ∧ t.hub.rd (Reg.KL_CNT_MAC p) = incHold (s.hub.rd (Reg.KL_CNT_MAC p))) := by
  obtain ⟨hfaultn, hkitty, hpmc⟩ := KL_CNT_MAC_notMem (Nat.le_of_lt_succ p.isLt)
  have hdropped := s.hub.fresh.macDropped_frame p c.flow
  have hlinkDropped := s.hub.fresh.macDropped_link p c.flow
  generalize hj : s.hub.fresh.macDropped p c.flow = j at hdropped hlinkDropped
  generalize hm : ((j.creditBack p 6).inc (Reg.KL_CNT_MAC p)).fault .kll 2 = m
  have hfailed : Frame j m [.links, .pins] {Reg.KL_CNT_MAC p, Reg.SIT_FAULTN_CNT} [.kll, .sit] := by
    rw [← hm]
    exact Frame.fault (Frame.inc (Frame.creditBack (Frame.refl _) (by simp)) (by simp)) (by simp) (by simp) (by simp) (by simp)
  have hlink : m.link p = { s.hub.link p with macCell := none, retCum := modAt (s.hub.link p).retCum 6 fun n => (n + 1) % 65536 } := by
    rw [← hm, Hub.fault_link, show ((j.creditBack p 6).inc (Reg.KL_CNT_MAC p)).link p = (j.creditBack p 6).link p from rfl, Hub.creditBack,
      Hub.link_updLink_self, hlinkDropped]
    rfl
  let k := (m.rxAccept p).updLink p fun l => { l with ctrRx := l.ctrRx + 1, macTried := false }
  have hlinkEnd : k.link p = (s.hub.link p).movedOn := by
    rw [Hub.link_updLink_self, Hub.rxAccept, Hub.link_updLink_self, hlink]
    rfl
  have hcells : k.cells = s.hub.fresh.cells := (hfailed.part .cells (by decide)).trans (hdropped.part .cells (by decide))
  refine ends_macBlockRx (k := k) hears hmac ?effect hcells (by simp) (by simp) ?frame ?_
  case effect =>
    rw [Hub.macRx_second (h := s.hub.fresh) hfirst htried hcode, hj, hm]
  case frame =>
    have hfirst : Frame s.hub.fresh j [.links, .pins, .paging, .ctxs, .pmc]
        ({Reg.KL_CNT_MAC p, Reg.SIT_FAULTN_CNT, Reg.TSC_KITTY_MIN} ∪ pmcRegs) [.kll, .sit, .tsc, .pmc] :=
      hdropped.mono (by decide) Set.subset_union_right (by decide)
    have hboth := hfirst.trans (hfailed.mono (by decide) (fun a ha => .inl (ha.imp_right .inl)) (by decide))
    exact (hboth.rxAccept (by simp)).updLink (by simp)
  dsimp only
  rw [Hub.cycleEnd_link hcells, hlinkEnd, Hub.cycleEnd_sticky hcells, Hub.cycleEnd_rd hcells hkitty]
  refine ⟨rfl, rfl, rfl, rfl, ?_, ?_⟩
  · show bit (m.hdr .kll).sticky 2 = true
    rw [← hm]
    exact Hub.fault_sticky_self _ _ (by decide)
  · show m.rd (Reg.KL_CNT_MAC p) = _
    rw [← hm, Hub.fault_rd _ _ _ hfaultn, Hub.rd_inc, if_pos rfl, Hub.creditBack, Hub.updLink_rd, hdropped.reg _ hpmc]
    rfl

end Sys2Proof.Machine
end

section
/-! SUPPORT. A cell that TSC stores (R143, R160 to R162, R166): its place, its credit and its flow's list. -/

namespace Sys2Proof.Machine

variable {h k j : Hub} {ps : List Part} {rs : Set Nat} {bs : List Block}

/-! ### The cell's place in the pool -/

theorem Hub.cell_congr (hc : k.cells = h.cells) (i : Nat) : k.cell i = h.cell i := by
  unfold Hub.cell
  rw [hc]

theorem Hub.ctx_congr (hc : k.ctxs = h.ctxs) (f : Nat) : k.ctx f = h.ctx f := by
  unfold Hub.ctx
  rw [hc]

theorem Hub.cell_setCell_self (h : Hub) (i : Nat) (c : CellSt) : (h.setCell i (some c)).cell i = some c :=
  (Tab.find_put _ _ _ _).trans (if_pos rfl)

theorem Hub.ctx_updCtx_self (h : Hub) (f : Nat) (g : Ctx → Ctx) : (h.updCtx f g).ctx f = g (h.ctx f) :=
  (Tab.get_set _ _ _ _ _).trans (if_pos rfl)

theorem Hub.storeCell_frame (h : Hub) (i : Nat) (c : CellSt) : Frame h (h.storeCell i c) [.cells, .counts, .pmc] pmcRegs [.pmc] :=
  ((Frame.refl h).setCell (by simp) (by simp)).pmcEvent (by simp) subset_rfl (by simp)

theorem Hub.storeCell_cell (h : Hub) (i : Nat) (c : CellSt) : (h.storeCell i c).cell i = some { c with arr := h.mono } := by
  have hcounted : Frame (h.setCell i (some { c with arr := h.mono })) (h.storeCell i c) [.pmc] pmcRegs [.pmc] :=
    (Frame.refl _).pmcEvent List.mem_cons_self subset_rfl List.mem_cons_self
  rw [Hub.cell_congr (hcounted.part .cells (by decide)), Hub.cell_setCell_self]

/-! ### The flow's list -/

/-- A cell on the list of slot `f`: its targets have still to read it. -/
def CellSt.listedAt (c : CellSt) (f : Nat) : CellSt := { c with slot := f, pend := c.tmask, place := .listed }

/-- A cell and its flow's context when the cell joins the list. -/
def Hub.enlisted (h : Hub) (f i : Nat) (c : CellSt) : Hub :=
  (h.setCell i (some (c.listedAt f))).updCtx f fun x => { x with list := x.list ++ [i] }

theorem Hub.enlist_frame {f i : Nat} {c : CellSt} (hc : h.cell i = some c) : Frame (h.enlisted f i c) (h.enlist f [i]) [.fts] ∅ [] := by
  have hone : h.enlist f [i] = (onesOf c.tmask 18).foldl (fun h t => h.ftGain f t (c.listedAt f)) (h.enlisted f i c) := by
    unfold Hub.enlist
    rw [List.foldl_cons, List.foldl_nil, hc]
    rfl
  rw [hone]
  exact Frame.foldl _ (Frame.refl _) fun t j _ a => a.setFt List.mem_cons_self

theorem Hub.enlisted_frame (h : Hub) (f i : Nat) (c : CellSt) : Frame h (h.enlisted f i c) [.cells, .counts, .ctxs] ∅ [] :=
  ((Frame.refl h).setCell (by simp) (by simp)).updCtx (by simp)

theorem Hub.enlisted_cell (h : Hub) (f i : Nat) (c : CellSt) : (h.enlisted f i c).cell i = some (c.listedAt f) :=
  h.cell_setCell_self i _

theorem Hub.enlisted_list (h : Hub) (f i : Nat) (c : CellSt) : ((h.enlisted f i c).ctx f).list = (h.ctx f).list ++ [i] := by
  rw [Hub.enlisted, Hub.ctx_updCtx_self]
  rfl

/-! ### An accepted cell -/

/-- The record of a port that accepts a cell. -/
def LinkSt.accepted (l : LinkSt) : LinkSt := { l with rxNext := (l.rxNext + 1) % 4096, ackDue := true }

theorem Hub.rxAccept_link (h : Hub) (p : Nat) : (h.rxAccept p).link p = (h.link p).accepted := h.link_updLink_self p _

section
variable {qs : List Part} {f i : Nat} {c : CellSt} (hc : j.cell i = some c)
  (hk : Frame (j.enlist f [i]) k qs (blockRegs .mir) [.mir])
include hc hk

theorem Frame.accepted (p : Nat) (hq : qs ⊆ ps) (hcells : Part.cells ∈ ps) (hcounts : Part.counts ∈ ps) (hctxs : Part.ctxs ∈ ps)
    (hfts : Part.fts ∈ ps) (hlinks : Part.links ∈ ps) (hr : blockRegs .mir ⊆ rs) (hb : Block.mir ∈ bs) :
    Frame j (k.rxAccept p) ps rs bs := by
  have hlist : Frame j (j.enlisted f i c) ps rs bs := (j.enlisted_frame f i c).mono (by simp [hcells, hcounts, hctxs]) (Set.empty_subset _)
    (List.nil_subset _)
  have hgain : Frame (j.enlisted f i c) (j.enlist f [i]) ps rs bs := (Hub.enlist_frame hc).mono (by simp [hfts]) (Set.empty_subset _)
    (List.nil_subset _)
  exact ((hlist.trans hgain).trans (hk.mono hq hr (by simp [hb]))).rxAccept hlinks

/-- What is left of an accepted cell at the end of the command: TSC's watch and `settle` leave the pool's parts alone. -/
theorem Hub.accepted_shown (o : Hub) (p : Nat) (hcells : Part.cells ∉ qs) (hctxs : Part.ctxs ∉ qs) (hlinks : Part.links ∉ qs) :
    (settle o (o.tscWatch (k.rxAccept p))).cell i = some (c.listedAt f)
    ∧ ((settle o (o.tscWatch (k.rxAccept p))).ctx f).list = (j.ctx f).list ++ [i]
    ∧ (settle o (o.tscWatch (k.rxAccept p))).link p = (j.link p).accepted := by
  have hend : Frame k (settle o (o.tscWatch (k.rxAccept p))) [.links] (blockRegs .tsc) [.tsc] :=
    (((Frame.refl k).rxAccept List.mem_cons_self).trans ((o.tscWatch_frame _).mono (List.nil_subset _) subset_rfl (List.Subset.refl _))).settle o
  have hgain := Hub.enlist_frame (f := f) hc
  refine ⟨?_, ?_, ?_⟩
  · rw [Hub.cell_congr (hend.part .cells (by decide)), Hub.cell_congr (hk.part .cells hcells),
      Hub.cell_congr (hgain.part .cells (by decide)), Hub.enlisted_cell]
  · rw [Hub.ctx_congr (hend.part .ctxs (by decide)), Hub.ctx_congr (hk.part .ctxs hctxs),
      Hub.ctx_congr (hgain.part .ctxs (by decide)), Hub.enlisted_list]
  · rw [settle_link, (o.tscWatch_frame _).link List.not_mem_nil, Hub.rxAccept_link, hk.link hlinks, hgain.link (by decide),
      (j.enlisted_frame f i c).link (by decide)]

end

end Sys2Proof.Machine
end

section
/-! SUPPORT. Cells that a link accepts in sequence (R143, R145, R162, R166, R175). -/

namespace Sys2Proof.Machine

variable {h k j : Hub} {ps : List Part} {rs : Set Nat} {bs : List Block} {s : State} {p : LinkNo}

theorem ends_cellRx_moves {hd data : List Byte} {cut : Bool} {Q : State → Prop} (hears : s.hub.hears p = true) (hst : s.hub.klState p = 5)
    (hmac : (s.hub.link p).macCell = none) (hhd : hd.getD 0 0 = 0xC5) (hreq : (s.hub.link p).idleReq = false)
    (hdata : (data.length + 15) / 16 ≤ (rawCell hd).blocks) (hk : s.hub.fresh.cellJudged p (rawCell hd) data cut = k)
    (hf : Frame s.hub.fresh k ps rs bs) (hr : blockRegs .tsc ⊆ rs) (ht : Block.tsc ∈ bs)
    (hq : Q { s with hub := settle s.hub (s.hub.fresh.tscWatch k) }) : Ends (.cellRx p hd data cut) s ps rs bs Q := by
  have hcell : s.hub.fresh.cellOrBlock p hd data cut = k := (Hub.cellOrBlock_cell (h := s.hub.fresh) hst hmac hhd hreq hdata cut).trans hk
  refine ends_effect (f := fun h => h.tscWatch (h.cellOrBlock p hd data cut)) (exec_cellRx p hd data cut s) (by simp [hears, hst])
    (by rw [hcell]) ?_ hq
  exact hf.trans ((Hub.tscWatch_frame _ _).mono (List.nil_subset _) hr (by simp [ht]))

/-! ### A link cell is stored -/

/-- A cell of a link is stored at index `i`, and counts against its class. -/
def Hub.linkStored (h : Hub) (i : Nat) (c : CellSt) : Hub :=
  (h.storeCell i c).updLink c.inp fun l => { l with held := modAt l.held c.tc fun n => n + 1 }

theorem Hub.storeLink_one {i : Nat} (hfree : h.freeIdx 1 = [i]) (c : CellSt) : h.storeLink c = some (h.linkStored i c, i) := by
  unfold Hub.storeLink
  rw [hfree]
  rfl

theorem Hub.linkStored_frame (h : Hub) (i : Nat) (c : CellSt) : Frame h (h.linkStored i c) [.cells, .counts, .links, .pmc] pmcRegs [.pmc] :=
  ((h.storeCell_frame i c).mono (by decide) subset_rfl (List.Subset.refl _)).updLink (by simp)

theorem Hub.linkStored_cell (h : Hub) (i : Nat) (c : CellSt) : (h.linkStored i c).cell i = some { c with arr := h.mono } := h.storeCell_cell i c

theorem Hub.linkStored_link (h : Hub) (i : Nat) (c : CellSt) :
    (h.linkStored i c).link c.inp = { h.link c.inp with held := modAt (h.link c.inp).held c.tc fun n => n + 1 } := by
  rw [Hub.linkStored, Hub.link_updLink_self, (h.storeCell_frame i c).link (by decide)]

/-! ### The pair's record of a flow (R259) -/

theorem mir_mem {a : Nat} (hlo : 0x00A00000 ≤ a) (hhi : a < 0x00B00000) : a ∈ blockRegs .mir := ⟨hlo, hhi⟩

theorem Frame.withMir {x : Mir} (a : Frame h k ps rs bs) (hp : Part.mir ∈ ps) : Frame h { k with mir := x } ps rs bs :=
  a.upd rfl rfl rfl fun q hq => by cases q <;> first | exact absurd hp hq | rfl

theorem Frame.withOpens {x : List OpenFrame} (a : Frame h k ps rs bs) (hp : Part.opens ∈ ps) : Frame h { k with opens := x } ps rs bs :=
  a.upd rfl rfl rfl fun q hq => by cases q <;> first | exact absurd hp hq | rfl

theorem Frame.recIn {p flow fseq : Nat} (a : Frame h k ps rs bs) (hp : Part.mir ∈ ps) (hr : blockRegs .mir ⊆ rs) (hb : Block.mir ∈ bs) :
    Frame h (k.recIn p flow fseq) ps rs bs := by
  have hensure : Frame h (k.recEnsure flow false) ps rs bs := by
    unfold Hub.recEnsure
    refine a.ite (Frame.ite ?_ (a.ite ?_))
    · exact Frame.wr (Frame.withMir (a.withMir hp) hp) (hr (mir_mem (by decide) (by decide)))
    · exact Frame.attn (Frame.inc (a.withMir hp) (hr (mir_mem (by decide) (by decide)))) hb
  unfold Hub.recIn
  refine Frame.ite ?_ a
  unfold Hub.updRec
  split
  · exact hensure.withMir hp
  · exact hensure

/-! ### What TSC makes of a data cell of a port in UP -/

section
variable {c : CellIn} {p : Nat}

theorem Hub.takeCell_data (hst : h.klState p = 5) (htc : c.tc ≠ 6) (hflow : c.flow < 0xFFC000) (hlink : h.linkCell p c = some j) :
    h.takeCell p c = some (if c.last then j.recIn p c.flow c.fseq else j) := by
  have hlet : h.shutOut p c = false := by simp [Hub.shutOut, hst]
  have hflow' : ¬ 0xFFC000 ≤ c.flow := by omega
  unfold Hub.takeCell
  rw [if_neg (Bool.eq_false_iff.mp hlet), if_neg (by simp [htc, hflow']), hlink, Option.map_some]
  simp [htc]

theorem Hub.inSequence_data (htc : c.tc ≠ 6) (htake : h.takeCell p c = some j) : h.inSequence p c = j.rxAccept p := by
  unfold Hub.inSequence
  rw [if_neg fun e => htc e.1, htake]
  exact if_neg fun e => htc e.1

/-- A later cell of an admitted frame is stored and listed; the frame stays open or ends. -/
theorem Hub.nextCell_admitted {o : OpenFrame} {f m i : Nat} (hfate : o.fate = .admitted f m) (hseq : o.fseq = c.fseq) (htc : c.tc ≠ 6)
    (hcount : o.count < 64) (hfree : h.freeIdx 1 = [i]) :
    ∃ adm opens, h.nextCell p c o =
      some { (h.linkStored i { c.toCell p f .listed m with adm := adm }).enlist f [i] with opens := opens } := by
  have hroom : ¬ (o.fseq ≠ c.fseq ∨ maxCells c.tc ≤ o.count) := by
    rw [maxCells, if_neg htc]
    omega
  refine ⟨(o.cells.head?.bind h.cell).elim 0 fun (x : CellSt) => x.adm, ?_⟩
  unfold Hub.nextCell
  rw [if_neg hroom, if_neg (by simp [hfate])]
  simp only [hfate, Hub.storeLink_one hfree, Hub.placeCell, Hub.closeFrame]
  split
  · exact ⟨_, rfl⟩
  · exact ⟨_, rfl⟩

/-- The first cell of a frame of a resident flow, admitted at every target and the frame's last, is stored and listed. -/
theorem Hub.firstResident_admitted {f m i : Nat} (hopens : h.opens.filter (fun o => o.flow = c.flow) = []) (hreseq : (h.ctx f).reseq = false)
    (hverdict : h.verdict f p c.tc 1 = .accept m 0) (hfree : h.freeIdx 1 = [i]) (hlast : c.last = true) :
    h.firstResident p f c = some ((((h.wideCheck f).linkStored i { c.toCell p f .listed m with adm := h.mono }).crossLate p c.tc m).enlist
      f [i]) := by
  have hthird : h.thirdPort c.flow = h := by
    unfold Hub.thirdPort
    rw [hopens]
  have hwide : h.wideCheck f = h ∨ h.wideCheck f = h.attn .tsc 5 := by
    unfold Hub.wideCheck
    split
    · exact .inr rfl
    · exact .inl rfl
  have hkept : ((h.wideCheck f).ctx f).reseq = false ∧ (h.wideCheck f).verdict f p c.tc 1 = .accept m 0
      ∧ (h.wideCheck f).freeIdx 1 = [i] ∧ (h.wideCheck f).mono = h.mono := by
    rcases hwide with e | e <;> rw [e]
    · exact ⟨hreseq, hverdict, hfree, rfl⟩
    · exact ⟨hreseq, hverdict, hfree, rfl⟩
  obtain ⟨hreseq', hverdict', hfree', hmono⟩ := hkept
  have hnone (k : Hub) (tc : Nat) : (k.dropAt 0).trumpRefused tc 0 = k := if_neg (by simp)
  unfold Hub.firstResident
  dsimp only
  rw [hthird, hverdict', hreseq', hmono]
  simp only [Hub.storeLink_one hfree', hnone, hlast, Hub.placeCell, if_true, Bool.false_eq_true, if_false]

end

/-! ### The two clauses -/

/-- What an accepted cell shows at the end of its command. -/
theorem ends_cellRx_stored {hd data : List Byte} {f i : Nat} {c : CellSt} {qs : List Part} {Q : State → Prop}
    (hears : s.hub.hears p = true) (hst : s.hub.klState p = 5) (hmac : (s.hub.link p).macCell = none) (hhd : hd.getD 0 0 = 0xC5)
    (hreq : (s.hub.link p).idleReq = false) (hdata : (data.length + 15) / 16 ≤ (rawCell hd).blocks)
    (heffect : s.hub.fresh.cellJudged p (rawCell hd) data false = k.rxAccept p) (hstored : Frame s.hub.fresh j ps rs bs)
    (hc : j.cell i = some c) (hk : Frame (j.enlist f [i]) k qs (blockRegs .mir) [.mir])
    (hq : qs ⊆ ps) (hparts : [Part.cells, .counts, .ctxs, .fts, .links] ⊆ ps) (hcells : Part.cells ∉ qs) (hctxs : Part.ctxs ∉ qs)
    (hlinks : Part.links ∉ qs) (hmir : blockRegs .mir ⊆ rs) (htsc : blockRegs .tsc ⊆ rs) (hb : [Block.mir, .tsc] ⊆ bs)
    (hQ : ∀ t : State, t.hub.cell i = some (c.listedAt f) → (t.hub.ctx f).list = (j.ctx f).list ++ [i] →
      t.hub.link p = (j.link p).accepted → Q t) : Ends (.cellRx p hd data false) s ps rs bs Q := by
  obtain ⟨hcell, hlist, hlink⟩ := Hub.accepted_shown hc hk s.hub.fresh p hcells hctxs hlinks
  have haccepted : Frame j (k.rxAccept p) ps rs bs := Frame.accepted hc hk p hq (hparts (by simp)) (hparts (by simp)) (hparts (by simp))
    (hparts (by simp)) (hparts (by simp)) hmir (hb (by simp))
  refine ends_cellRx_moves hears hst hmac hhd hreq hdata heffect (hstored.trans haccepted) htsc (hb (by simp)) (hQ _ ?_ ?_ ?_)
  · exact hcell
  · exact hlist
  · exact hlink

theorem Hub.expected_frame (h : Hub) (p : Nat) : Frame h (h.expected p) [.links] ∅ [] := (Frame.refl h).updLink List.mem_cons_self

theorem Hub.expected_link (h : Hub) (p : Nat) : (h.expected p).link p = { h.link p with nakSent := false } := h.link_updLink_self p _

theorem Hub.linkCell_next {c : CellIn} {o : OpenFrame} {p : Nat} (hfirst : c.first = false) (hopen : h.openOf p c.flow = some o) :
    h.linkCell p c = h.nextCell p c o := by
  unfold Hub.linkCell
  rw [if_neg (Bool.eq_false_iff.mp hfirst), hopen]

theorem Hub.linkCell_first {c : CellIn} {f p : Nat} (hfirst : c.first = true) (htc : c.tc ≠ 6)
    (hopens : h.opens.filter (fun o => o.flow = c.flow) = []) (hlookup : h.lookup c.flow = .resident f) :
    h.linkCell p c = h.firstResident p f c := by
  have hopen : h.openOf p c.flow = none := by
    refine List.find?_eq_none.mpr fun o ho e => ?_
    have hmem : o ∈ h.opens.filter fun o => o.flow = c.flow := List.mem_filter.mpr ⟨ho, by simpa using (of_decide_eq_true e).2⟩
    rw [hopens] at hmem
    exact List.not_mem_nil hmem
  unfold Hub.linkCell
  rw [if_pos hfirst, hopen, if_neg htc]
  unfold Hub.firstCell
  rw [hlookup]

theorem ends_cellRx_next {hd data : List Byte} {r : RawCell} {o : OpenFrame} {f m i : Nat} (hears : s.hub.hears p = true)
    (hst : s.hub.klState p = 5) (hmac : (s.hub.link p).macCell = none) (hhd : hd.getD 0 0 = 0xC5) (hr : r = rawCell hd)
    (hcheck : r.check = true) (hseq : r.rseq = (s.hub.link p).rxNext) (hvoid : r.void = false) (hgood : r.malformed data false = false)
    (hpen : r.pennant = pennantOf (data.take (r.len + 1)) r.flow r.fseq) (htc : r.tc ≠ 6) (hflow : r.flow < 0xFFC000)
    (hfirst : r.first = false) (hopen : s.hub.openOf p r.flow = some o) (hfate : o.fate = .admitted f m) (hfseq : o.fseq = r.fseq)
    (hcount : o.count < 64) (hfree : s.hub.freeIdx 1 = [i]) (hreq : (s.hub.link p).idleReq = false)
    (hdata : (data.length + 15) / 16 ≤ r.blocks) :
    Ends (.cellRx p hd data false) s [.cells, .counts, .ctxs, .fts, .links, .opens, .pmc, .mir]
      (blockRegs .tsc ∪ blockRegs .mir ∪ pmcRegs) [.tsc, .pmc, .mir] (fun t =>
      (t.hub.link p).rxNext = ((s.hub.link p).rxNext + 1) % 4096 ∧ (t.hub.link p).ackDue = true
      ∧ (t.hub.cell i).map (·.payload) = some (data.take (r.len + 1)) ∧ (t.hub.cell i).map (·.pend) = some m
      ∧ (t.hub.ctx f).list = (s.hub.ctx f).list ++ [i]
      ∧ (t.hub.link p).held = modAt (s.hub.link p).held r.tc (fun n => n + 1)) := by
  subst hr
  have hjudged := Hub.cellJudged_inSequence (h := s.hub.fresh) hcheck hseq hgood hvoid hpen
  have hbase := s.hub.fresh.expected_frame p
  have hblink := s.hub.fresh.expected_link p
  have hfreeb : (s.hub.fresh.expected p).freeIdx 1 = [i] := hfree
  have hopenb : (s.hub.fresh.expected p).openOf p (rawCell hd).flow = some o := hopen
  generalize s.hub.fresh.expected p = b at hjudged hbase hblink hfreeb hopenb
  obtain ⟨adm, opens, hnext⟩ := Hub.nextCell_admitted (c := (rawCell hd).cellIn data) (p := p) hfate hfseq htc hcount hfreeb
  generalize hx : ({ ((rawCell hd).cellIn data).toCell p f .listed m with adm := adm } : CellSt) = x at hnext
  have hopened : Frame ((b.linkStored i x).enlist f [i]) { (b.linkStored i x).enlist f [i] with opens := opens } [.opens, .mir]
      (blockRegs .mir) [.mir] := (Frame.refl _).withOpens (by simp)
  have hk := (hopened.recIn (p := p) (flow := (rawCell hd).flow) (fseq := (rawCell hd).fseq) (by simp) subset_rfl (by simp)).ite
    (c := (rawCell hd).last = true) hopened
  have htake := Hub.takeCell_data (c := (rawCell hd).cellIn data) ((hbase.rdF (Set.notMem_empty _) 3 0).trans hst) htc hflow
    ((Hub.linkCell_next hfirst hopenb).trans hnext)
  have hj : Frame s.hub.fresh (b.linkStored i x) [.cells, .counts, .ctxs, .fts, .links, .opens, .pmc, .mir]
      (blockRegs .tsc ∪ blockRegs .mir ∪ pmcRegs) [.tsc, .pmc, .mir] :=
    (hbase.mono (by decide) (Set.empty_subset _) (List.nil_subset _)).trans
      ((b.linkStored_frame i x).mono (by decide) Set.subset_union_right (by decide))
  refine ends_cellRx_stored hears hst hmac hhd hreq hdata (hjudged.trans (Hub.inSequence_data htc htake)) hj (b.linkStored_cell i x) hk
    (by decide) (by decide) (by decide) (by decide) (by decide) (fun _ ha => .inl (.inr ha)) (fun _ ha => .inl (.inl ha)) (by decide)
    fun t hcell hlist hlink => ?_
  have hheld : (b.linkStored i x).link p = { b.link p with held := modAt (b.link p).held (rawCell hd).tc fun n => n + 1 } := by
    subst hx
    exact b.linkStored_link i _
  have hctx : (b.linkStored i x).ctx f = s.hub.ctx f :=
    Hub.ctx_congr (((b.linkStored_frame i x).part .ctxs (by decide)).trans (hbase.part .ctxs (by decide))) f
  rw [hlink, hheld, hblink, hcell, hlist, hctx, ← hx]
  exact ⟨rfl, rfl, rfl, rfl, rfl, rfl⟩

theorem Hub.wideCheck_frame (h : Hub) (f : Nat) : Frame h (h.wideCheck f) [] ∅ [.tsc] :=
  ((Frame.refl h).attn List.mem_cons_self).ite (Frame.refl h)

theorem Hub.crossLate_frame (h : Hub) (i c ok : Nat) : Frame h (h.crossLate i c ok) [] (blockRegs .mir) [] :=
  ((Frame.refl h).inc (mir_mem (by decide) (by decide))).ite (Frame.refl h)

/-- A frame of one cell that every target takes, up to the list: its cell is stored, and nothing else moves but counts. -/
theorem Hub.takeCell_single {c : CellIn} {f m i p : Nat} (hst : h.klState p = 5) (htc : c.tc ≠ 6) (hflow : c.flow < 0xFFC000)
    (hfirst : c.first = true) (hlast : c.last = true) (hopens : h.opens.filter (fun o => o.flow = c.flow) = [])
    (hlookup : h.lookup c.flow = .resident f) (hreseq : (h.ctx f).reseq = false) (hverdict : h.verdict f p c.tc 1 = .accept m 0)
    (hfree : h.freeIdx 1 = [i]) : ∃ j, h.takeCell p c = some ((j.enlist f [i]).recIn p c.flow c.fseq)
      ∧ Frame h j [.cells, .counts, .links, .pmc] (blockRegs .mir ∪ pmcRegs) [.tsc, .pmc]
      ∧ j.cell i = some { c.toCell p f .listed m with adm := h.mono, arr := h.mono }
      ∧ j.link p = { h.link p with held := modAt (h.link p).held c.tc fun n => n + 1 } := by
  have htaken := (Hub.linkCell_first hfirst htc hopens hlookup).trans (Hub.firstResident_admitted hopens hreseq hverdict hfree hlast)
  have htake := Hub.takeCell_data hst htc hflow htaken
  rw [if_pos hlast] at htake
  have hwide := h.wideCheck_frame f
  generalize h.wideCheck f = w at hwide htake
  generalize hx : ({ c.toCell p f .listed m with adm := h.mono } : CellSt) = x at htake
  have hstored := w.linkStored_frame i x
  have hcross := (w.linkStored i x).crossLate_frame p c.tc m
  have hheld : (w.linkStored i x).link p = { w.link p with held := modAt (w.link p).held c.tc fun n => n + 1 } := by
    subst hx
    exact w.linkStored_link i _
  have hmono : w.mono = h.mono := congrArg TimeBase.up (hwide.part .time List.not_mem_nil)
  refine ⟨_, htake, ?_, ?_, ?_⟩
  · have hw : Frame h w [.cells, .counts, .links, .pmc] (blockRegs .mir ∪ pmcRegs) [.tsc, .pmc] :=
      hwide.mono (List.nil_subset _) (Set.empty_subset _) (by decide)
    exact (hw.trans (hstored.mono (List.Subset.refl _) Set.subset_union_right (by decide))).trans
      (hcross.mono (List.nil_subset _) Set.subset_union_left (List.nil_subset _))
  · rw [Hub.cell_congr (hcross.part .cells List.not_mem_nil), Hub.linkStored_cell, hmono, ← hx]
  · rw [hcross.link List.not_mem_nil, hheld, hwide.link List.not_mem_nil]

theorem Hub.expected_held (h : Hub) (p q : Nat) : ((h.expected p).link q).held = (h.link q).held := by
  rw [Hub.expected, Hub.link_updLink]
  split
  · rename_i hq
    subst hq
    rfl
  · rfl

theorem Hub.expected_reserve (h : Hub) (p : Nat) : (h.expected p).reserve = h.reserve := by
  unfold Hub.reserve
  simp only [Hub.expected_held]
  rfl

/-- Whether a receive error may be told plays no part in admission. -/
theorem Hub.expected_verdict (h : Hub) (p f i c n : Nat) : (h.expected p).verdict f i c n = h.verdict f i c n := by
  unfold Hub.verdict Hub.roomFor
  rw [Hub.expected_reserve]
  rfl

theorem Hub.expected_freeIdx (h : Hub) (p n : Nat) : (h.expected p).freeIdx n = h.freeIdx n := rfl

theorem ends_cellRx_single {hd data : List Byte} {r : RawCell} {f m i : Nat} (hears : s.hub.hears p = true)
    (hst : s.hub.klState p = 5) (hmac : (s.hub.link p).macCell = none) (hhd : hd.getD 0 0 = 0xC5) (hr : r = rawCell hd)
    (hcheck : r.check = true) (hseq : r.rseq = (s.hub.link p).rxNext) (hvoid : r.void = false) (hgood : r.malformed data false = false)
    (hpen : r.pennant = pennantOf (data.take (r.len + 1)) r.flow r.fseq) (htc : r.tc ≠ 6) (hflow : r.flow < 0xFFC000)
    (hfirst : r.first = true) (hlast : r.last = true) (hopens : s.hub.opens.filter (fun o => o.flow = r.flow) = [])
    (hlookup : s.hub.lookup r.flow = .resident f) (hreseq : (s.hub.ctx f).reseq = false)
    (hverdict : s.hub.verdict f p r.tc 1 = .accept m 0) (hfree : s.hub.freeIdx 1 = [i]) (hreq : (s.hub.link p).idleReq = false)
    (hdata : (data.length + 15) / 16 ≤ r.blocks) :
    Ends (.cellRx p hd data false) s [.cells, .counts, .ctxs, .fts, .links, .pmc, .mir]
      (blockRegs .tsc ∪ blockRegs .mir ∪ pmcRegs) [.tsc, .pmc, .mir] (fun t =>
      (t.hub.link p).rxNext = ((s.hub.link p).rxNext + 1) % 4096 ∧ (t.hub.link p).ackDue = true
      ∧ (t.hub.cell i).map (·.payload) = some (data.take (r.len + 1)) ∧ (t.hub.cell i).map (·.pend) = some m
      ∧ (t.hub.cell i).map (·.arr) = some s.hub.mono ∧ (t.hub.ctx f).list = (s.hub.ctx f).list ++ [i]) := by
  subst hr
  have hjudged := Hub.cellJudged_inSequence (h := s.hub.fresh) hcheck hseq hgood hvoid hpen
  have hbase := s.hub.fresh.expected_frame p
  have hblink := s.hub.fresh.expected_link p
  obtain ⟨j, htake, hstored, hcell, hheld⟩ := Hub.takeCell_single (h := s.hub.fresh.expected p) (c := (rawCell hd).cellIn data) (p := p)
    (i := i) (m := m) hst htc hflow hfirst hlast hopens hlookup hreseq ((Hub.expected_verdict _ _ _ _ _ _).trans hverdict)
    ((Hub.expected_freeIdx _ _ _).trans hfree)
  rw [Hub.inSequence_data htc htake] at hjudged
  have hk : Frame (j.enlist f [i]) ((j.enlist f [i]).recIn p ((rawCell hd).cellIn data).flow ((rawCell hd).cellIn data).fseq) [.mir]
      (blockRegs .mir) [.mir] := (Frame.refl _).recIn (by simp) subset_rfl (by simp)
  have hj : Frame s.hub.fresh j [.cells, .counts, .ctxs, .fts, .links, .pmc, .mir] (blockRegs .tsc ∪ blockRegs .mir ∪ pmcRegs)
      [.tsc, .pmc, .mir] :=
    (hbase.mono (by decide) (Set.empty_subset _) (by decide)).trans
      (hstored.mono (by decide) (Set.union_subset_union_left _ Set.subset_union_right) (by decide))
  refine ends_cellRx_stored hears hst hmac hhd hreq hdata hjudged hj hcell hk
    (by decide) (by decide) (by decide) (by decide) (by decide) (fun _ ha => .inl (.inr ha)) (fun _ ha => .inl (.inl ha)) (by decide)
    fun t hput hlist hlink => ?_
  have hctx : j.ctx f = s.hub.ctx f := Hub.ctx_congr ((hstored.part .ctxs (by decide)).trans (hbase.part .ctxs (by decide))) f
  have hmono : (s.hub.fresh.expected p).mono = s.hub.mono := rfl
  rw [hlink, hheld, hblink, hput, hlist, hctx, hmono]
  exact ⟨rfl, rfl, rfl, rfl, rfl, rfl⟩

/-- Settles O34: each clause is its command's effect on the branch that its conditions choose. -/
theorem linkCells : Obligations.LinkCells := by
  refine ⟨?next, ?single, ?void, ?malformed, ?ahead, ?again, ?pennant, ?orphan, ?second, ?runsCell, ?runsMac⟩
  case next =>
    intro s p hd data r o f m i hears hst hmac hhd hr hcheck hseq hvoid hgood hpen htc hflow hfirst hopen hfate hfseq hcount hfree hreq hdata
    exact ends_cellRx_next hears hst hmac hhd hr hcheck hseq hvoid hgood hpen htc hflow hfirst hopen hfate hfseq hcount hfree hreq hdata
  case single =>
    intro s p hd data r f m i hears hst hmac hhd hr hcheck hseq hvoid hgood hpen htc hflow hfirst hlast hopens hlookup hreseq hverdict hfree
      hreq hdata
    exact ends_cellRx_single hears hst hmac hhd hr hcheck hseq hvoid hgood hpen htc hflow hfirst hlast hopens hlookup hreseq hverdict hfree
      hreq hdata
  case void =>
    rintro s p hd data _ hears hst hmac hhd rfl hcheck hseq hvoid hgood hopen hreq hdata
    exact ends_cellRx_void hears hst hmac hhd hcheck hseq hvoid hgood hopen hreq hdata
  case malformed =>
    intro s p hd data cut hears hst hmac hhd hbad hcheck hnak hreq hdata
    exact ends_cellRx_malformed hears hst hmac hhd hbad hcheck hnak hreq hdata
  case ahead =>
    rintro s p hd data _ hears hst hmac hhd rfl hgood hseq hfar hnak hreq hdata
    exact ends_cellRx_ahead hears hst hmac hhd hgood hseq hfar hnak hreq hdata
  case again =>
    rintro s p hd data _ hears hst hmac hhd rfl hgood hseq hnear hreq hdata
    exact ends_cellRx_again hears hst hmac hhd hgood hseq hnear hreq hdata
  case pennant =>
    rintro s p hd data _ hears hst hmac hhd rfl hcheck hseq hvoid hgood hpen hreq hdata
    exact ends_cellRx_pennant hears hst hmac hhd hcheck hseq hvoid hgood hpen hreq hdata
  case orphan =>
    intro s p code c hears hst hmac htc _ hfirst hflow hopen
    exact ends_macBlockRx_orphan hears hst hmac htc hfirst hflow hopen
  case second =>
    rintro s p code c _ hears rfl hmac hfirst htried hcode
    exact ends_macBlockRx_second hears hmac hfirst htried hcode
  case runsCell =>
    intro s p hd data cut hears hlo hhi
    exact runs_actT (f := fun h => h.cellOrBlock p hd data cut) (exec_cellRx p hd data cut s) (by simp [hears, hlo, hhi])
  case runsMac =>
    intro s p code c hears hmac
    have hrun := runs_actT (exec_macBlockRx p code s) (by simp [hears, hmac])
    rw [show (s.hub.fresh.link p).macCell = some c from hmac] at hrun
    exact hrun

end Sys2Proof.Machine
end

section
/-! SUPPORT. The two refutations of the family: each is a hub that meets a clause's conditions and whose command moves what the clause's
frame leaves out. -/

namespace Sys2Proof.Machine

/-! ### A gate entry that fails while it is in force (R238, R241)

The entry counts as failed at once, and TS_GSTAT, which shows the gates in force, closes with it. -/

/-- A ROOT with a list of one open entry in force on T1, as TS_GSTAT shows. -/
def gatedRoot : State :=
  { hub := (((Hub.reset {}).wrB (Reg.TS_GCTL 1) 5 true).wr (Reg.TS_GATE_A 1 0) 0xFF).showGate 1 }

theorem gatedRoot_open : gatedRoot.hub.rd (Reg.TS_GSTAT 1) = 0xFF00 := by decide +kernel

theorem faultEvent_gatedRoot :
    ∃ t, exec (.faultEvent .tss 2 none (some (.gate 1 false 0))) gatedRoot = .next t ∧ t.hub.rd (Reg.TS_GSTAT 1) = 0 :=
  ⟨_, rfl, by decide +kernel⟩

/-- Refutes O10: in `gatedRoot` the error of the entry in force changes TS_GSTAT of T1. -/
theorem not_memoryErrors : ¬ Obligations.MemoryErrors := by
  rintro ⟨hgate, -⟩
  obtain ⟨t, hrun, ⟨-, hframe⟩, -⟩ := hgate gatedRoot 1 false 0 (by decide +kernel)
  obtain ⟨u, hrun', hshut⟩ := faultEvent_gatedRoot
  obtain rfl : t = u := Host.Outcome.next.inj (hrun.symm.trans hrun')
  have hkept := hframe.reg (Reg.TS_GSTAT 1) (by decide)
  rw [gatedRoot_open, show t.hub.rd _ = _ from hshut] at hkept
  exact absurd hkept (by decide)

/-! ### A trump frame that goes on waiting (R167, R169, R473)

A target's refusal of a TC7 frame is a fault event of TSC. Where one such event makes the source severe, it pulls FAULT_N. -/

/-- A TC7 frame of the flow in slot 9 that waits at P, its refusal not yet reported. -/
def trumpFrame : WaitFrame := { port := 0x0D, flow := 77, slot := some 9, payload := [1] }

/-- A ROOT in which `trumpFrame` waits for T1, which takes no cell of TC7, and TSC's source 6 has threshold 1. -/
def trumpRoot : State :=
  let h := ((Hub.reset {}).wr (Reg.TP_EG_LIMIT 1 7) 0).wr (fsCfg .tsc 6) 0
  { hub := { h.setCtx 9 { state := .resident, handle := 77, tc := 7, port := 1 } with waits := [trumpFrame] } }

theorem admitRetry_trumpRoot : ∃ t, exec (.admitRetry 0x0D) trumpRoot = .next t ∧ t.hub.pins.faultPulse.isSome = true :=
  ⟨_, rfl, by decide +kernel⟩

/-- Refutes O37: in `trumpRoot` the frame goes on waiting, and FAULT_N is pulled. -/
theorem not_switchCore : ¬ Obligations.SwitchCore := by
  rintro ⟨-, hwait, -⟩
  obtain ⟨t, hrun, ⟨-, hframe⟩, -⟩ :=
    hwait trumpRoot 0x0D trumpFrame 9 (by decide +kernel) (by decide) rfl rfl rfl (by decide +kernel) (by decide +kernel)
  obtain ⟨u, hrun', hpulse⟩ := admitRetry_trumpRoot
  obtain rfl : t = u := Host.Outcome.next.inj (hrun.symm.trans hrun')
  have hpins : t.hub.pins = {} := hframe.part .pins (by decide)
  rw [hpins] at hpulse
  exact absurd hpulse (by decide)

end Sys2Proof.Machine
end

section
/-! SUPPORT. The per-flow operations of TSC (R188, Table 6.10): what they make of the slot that ARG0 names. -/

namespace Sys2Proof.Machine

theorem exec_flowCounts (s : State) : exec .flowCounts s = execFlowCounts s := rfl

theorem exec_flowCountsClear (s : State) : exec .flowCountsClear s = execFlowCountsClear s := rfl

theorem exec_reseqState (s : State) : exec .reseqState s = execReseqState s := rfl

theorem exec_flowCountsExit (s : State) : exec .flowCountsExit s = execFlowCountsExit s := rfl

/-! ### The slot that ARG0 names -/

section
variable {h : Hub} (f : Nat → Hub × Option MbxResult)

theorem onSlot_resident {k : Nat} (hk : k = (h.arg .tsc 0).toNat) (hlt : k < 8192) (hres : (h.ctx k).state = .resident) :
    onSlot h f = f k := by
  unfold onSlot
  dsimp only
  rw [← hk, if_neg (by omega), if_neg (not_not_intro hres)]

theorem onSlot_outOfRange (hge : 8192 ≤ (h.arg .tsc 0).toNat) : onSlot h f = done h (mbxErr 2) := if_pos hge

theorem onSlot_notResident (hlt : (h.arg .tsc 0).toNat < 8192) (hres : (h.ctx (h.arg .tsc 0).toNat).state ≠ .resident) :
    onSlot h f = done h (mbxErr 0x80) := by
  unfold onSlot
  dsimp only
  rw [if_neg (by omega), if_pos hres]

end

section
variable {s : State} {k : Nat}

/-- An operation that answers from the context of a resident slot, and does nothing besides. -/
theorem ends_slotRead {c : Instr} {op : Nat} {r : Ctx → MbxResult}
    (hexec : exec c s = mbxAct s .tsc op fun h => onSlot h fun sl => done h (r (h.ctx sl))) (hop : s.hub.opRunning .tsc op = true)
    (hk : k = (s.hub.arg .tsc 0).toNat) (hlt : k < 8192) (hres : (s.hub.ctx k).state = .resident) :
    Ends c s [] ∅ [.tsc] (fun t => (t.hub.mbx .tsc).result = some (r (s.hub.ctx k))) :=
  ends_mbxRefused hexec hop rfl (onSlot_resident (h := s.hub.fresh) _ hk hlt hres)

/-- What FLOW_COUNTS answers of a context. -/
def Ctx.countsAnswer (c : Ctx) : MbxResult :=
  mbxOk [w32 c.cntPennant, w32 c.cntAdmit, w32 c.cntReset, w32 c.cntGap, w32 c.cntDup, w32 c.cntLate]

/-- What RESEQ_STATE answers of a context. -/
def Ctx.reseqAnswer (c : Ctx) : MbxResult :=
  mbxOk [w32 (c.rsqNext + b2n c.rsqSet * 2 ^ 16 + c.held.length * 2 ^ 17), w32 ((c.held.head?.map (·.fseq)).getD 0),
    w32 (c.held.foldl (fun n f => n + f.cells.length) 0)]

/-- What FLOW_COUNTS_EXIT answers of a context. -/
def Ctx.exitAnswer (c : Ctx) : MbxResult := mbxOk [w32 c.cntExit, w32 c.cntFoyer]

/-! ### FLOW_COUNTS_CLEAR -/

/-- A context with its per-flow counts at 0. -/
def Ctx.countsCleared (c : Ctx) : Ctx :=
  { c with cntPennant := 0, cntAdmit := 0, cntReset := 0, cntGap := 0, cntDup := 0, cntLate := 0, cntFoyer := 0, cntExit := 0 }

theorem execFlowCountsClear_eq (s : State) : execFlowCountsClear s = mbxAct s .tsc 0x11 fun h => onSlot h fun sl =>
    done (h.updCtx sl Ctx.countsCleared) (mbxOk []) := rfl

theorem Hub.ctx_updCtx_ne (h : Hub) {i j : Nat} (hne : j ≠ i) (f : Ctx → Ctx) : (h.updCtx i f).ctx j = h.ctx j :=
  (Tab.get_set _ _ _ _ _).trans (if_neg hne)

theorem settle_ctx (o n : Hub) (j : Nat) : (settle o n).ctx j = n.ctx j := Hub.ctx_congr (settle_ctxs o n) j

theorem Hub.opResult_ctx (h : Hub) (b : Block) (op : Nat) (r : MbxResult) (j : Nat) : (h.opResult b op r).ctx j = h.ctx j :=
  Hub.ctx_congr ((h.opResult_frame b op r).part .ctxs List.not_mem_nil) j

theorem ends_flowCountsClear (hop : s.hub.opRunning .tsc 0x11 = true) (hk : k = (s.hub.arg .tsc 0).toNat) (hlt : k < 8192)
    (hres : (s.hub.ctx k).state = .resident) :
    Ends .flowCountsClear s [.ctxs] ∅ [.tsc] (fun t => (t.hub.mbx .tsc).result = some (mbxOk [])
      ∧ t.hub.ctx k = (s.hub.ctx k).countsCleared ∧ ∀ j, j ≠ k → t.hub.ctx j = s.hub.ctx j) := by
  have hclear : Frame s.hub.fresh (s.hub.fresh.updCtx k Ctx.countsCleared) [.ctxs] ∅ [] := (Frame.refl _).updCtx (by decide)
  refine ends_mbxDone ((exec_flowCountsClear s).trans (execFlowCountsClear_eq s)) hop rfl (onSlot_resident (h := s.hub.fresh) _ hk hlt hres)
    (hclear.mono (List.Subset.refl _) subset_rfl (List.nil_subset _)) List.mem_cons_self ⟨?_, ?_, fun j hj => ?_⟩
  · exact settle_opResult s.hub ((hclear.opRunning (by decide) List.not_mem_nil _).trans hop)
  · rw [settle_ctx, Hub.opResult_ctx]
    exact Hub.ctx_updCtx_self _ _ _
  · rw [settle_ctx, Hub.opResult_ctx]
    exact Hub.ctx_updCtx_ne _ hj _

theorem ends_flowCountsClear_refused {e : Nat} (hop : s.hub.opRunning .tsc 0x11 = true)
    (hslot : ∀ f, onSlot s.hub.fresh f = done s.hub.fresh (mbxErr e)) :
    Ends .flowCountsClear s [] ∅ [.tsc] (fun t => (t.hub.mbx .tsc).result = some (mbxErr e)) :=
  ends_mbxRefused (exec_flowCountsClear s) hop rfl (hslot _)

end

/-- Settles O38: the operation acts on the slot, or the slot refuses it. -/
theorem flowCounts : Obligations.FlowCounts := by
  refine ⟨?counts, ?clear, ?reseq, ?exit, fun s hop hge => ends_flowCountsClear_refused hop fun _ => onSlot_outOfRange _ hge,
    fun s hop hlt hres => ends_flowCountsClear_refused hop fun _ => onSlot_notResident _ hlt hres⟩
  case counts =>
    rintro s k _ hop hk hlt rfl hres
    exact ends_slotRead (r := Ctx.countsAnswer) (exec_flowCounts s) hop hk hlt hres
  case clear =>
    rintro s k _ hop hk hlt rfl hres
    exact ends_flowCountsClear hop hk hlt hres
  case reseq =>
    rintro s k _ hop hk hlt rfl hres
    exact ends_slotRead (r := Ctx.reseqAnswer) (exec_reseqState s) hop hk hlt hres
  case exit =>
    rintro s k _ hop hk hlt rfl hres
    exact ends_slotRead (r := Ctx.exitAnswer) (exec_flowCountsExit s) hop hk hlt hres

end Sys2Proof.Machine
end

section
/-! SUPPORT. LEDGER_CHECK_NOW (R183 to R185, R188): the ledger's check as a mailbox operation. -/

namespace Sys2Proof.Machine

variable {s : State} {h snap : Hub}

/-! ### What a check does -/

theorem Hub.ledgerCheck_equal (hrun : h.rdB Reg.TSC_LEDGER_STAT 2 = false) (heq : snap.unequal = []) :
    (h.ledgerCheck snap).1 = (h.snapShown snap).ledgerNoted [] := by
  unfold Hub.ledgerCheck
  rw [hrun, if_neg Bool.false_ne_true, heq]
  rfl

theorem Hub.ledgerCheck_unequal (hrun : h.rdB Reg.TSC_LEDGER_STAT 2 = false) {u : Unequal} {l : List Unequal} (hne : snap.unequal = u :: l) :
    (h.ledgerCheck snap).1 = ((h.snapShown snap).ledgerNoted (u :: l)).ledgerFault u snap.now := by
  unfold Hub.ledgerCheck
  rw [hrun, if_neg Bool.false_ne_true, hne]
  rfl

theorem ledgerRegs_subset : ledgerRegs ⊆ blockRegs .tsc ∪ {Reg.SIT_FAULTN_CNT} := by
  rintro a (⟨j, hj, rfl⟩ | rfl | rfl | rfl | rfl)
  · refine .inl (mem_blockRegs.mpr ?_)
    simp only [ofBlock, Bool.and_eq_true, decide_eq_true_eq, Reg.TSC_SNAP, show Block.tsc.base = 0x01000000 from rfl]
    omega
  · exact .inl (mem_blockRegs.mpr (by decide))
  · exact .inl (mem_blockRegs.mpr (by decide))
  · exact .inl (mem_blockRegs.mpr (by decide))
  · exact .inr rfl

theorem Hub.snapShown_refs (h snap : Hub) : (h.snapShown snap).rd (Reg.TSC_SNAP 7) = iword snap.counts.refs := by
  simp [Hub.snapShown, Hub.snapWords, Hub.rd_wr, Reg.TSC_SNAP]

/-- A check that finds the pools equal shows its snapshot, touches TSC's registers alone and counts itself. -/
theorem Hub.equalNoted_frame (h snap : Hub) : Frame h ((h.snapShown snap).ledgerNoted []) [] (blockRegs .tsc) [] := by
  have hsnap : { a | ∃ j < 11, a = Reg.TSC_SNAP j } ⊆ blockRegs .tsc := fun a ha =>
    (ledgerRegs_subset (.inl ha)).resolve_right fun e => by
      obtain ⟨j, hj, rfl⟩ := ha
      rw [Set.mem_singleton_iff, Reg.TSC_SNAP, Reg.SIT_FAULTN_CNT] at e
      omega
  exact ((h.snapShown_frame snap).mono (List.Subset.refl _) hsnap (List.Subset.refl _)).trans
    ((Hub.ledgerNoted_frame _ []).mono (List.Subset.refl _) (Set.singleton_subset_iff.mpr (mem_blockRegs.mpr (by decide))) (List.Subset.refl _))

theorem Hub.ledgerNoted_stat (h : Hub) (bad : List Unequal) :
    (h.ledgerNoted bad).rdB Reg.TSC_LEDGER_STAT 0 = !bad.isEmpty
    ∧ (h.ledgerNoted bad).rdB Reg.TSC_LEDGER_STAT 1 = decide (1 < bad.length) := by
  unfold Hub.ledgerNoted Hub.rdB
  rw [Hub.rd_incFW, if_pos rfl, bit_setFld_ne _ _ _ _ _ (by decide), bit_setFld_ne _ _ _ _ _ (by decide), Hub.rd_wrB, if_pos rfl,
    Hub.rd_wrB, if_pos rfl, bit_setBit _ _ _ _ (by decide), bit_setBit _ _ _ _ (by decide), bit_setBit _ _ _ _ (by decide)]
  exact ⟨rfl, rfl⟩

theorem Hub.fault_rdWide (h : Hub) (b : Block) (i a : Nat) : (h.fault b i).rdWide a = h.rdWide a := by
  have hwide : (h.fault b i).wide = h.wide := (h.fault_frame b i).part .wide (by decide)
  rw [Hub.rdWide, hwide, Hub.rdWide]

/-- The record of a mismatch (R184). -/
theorem Hub.ledgerFault_record (h : Hub) (u : Unequal) (now : Nat) :
    (h.ledgerFault u now).rd Reg.TSC_LEDGER_REC = w32 (u.pool + 256 * u.inst)
    ∧ (h.ledgerFault u now).rd Reg.TSC_LEDGER_DIFF = iword u.diff
    ∧ (h.ledgerFault u now).rdWide Reg.TSC_LEDGER_TIME_LO = now % 2 ^ 64
    ∧ bit ((h.ledgerFault u now).hdr .tsc).sticky 0 = true ∧ (h.ledgerFault u now).raw .tsc 0 = true := by
  unfold Hub.ledgerFault
  refine ⟨?_, ?_, ?_, ?_, Hub.raw_attn_self _ _ (by decide)⟩
  · rw [Hub.attn_rd, Hub.fault_rd _ _ _ (by decide), Hub.wrWide_rd]
    exact (Hub.rd_wr_ne _ _ (by decide)).trans (Hub.rd_wr_self _ _ _)
  · rw [Hub.attn_rd, Hub.fault_rd _ _ _ (by decide), Hub.wrWide_rd]
    exact Hub.rd_wr_self _ _ _
  · rw [Hub.attn_rdWide, Hub.fault_rdWide]
    exact (Hub.rdWide_wrWide _ _ _ _).trans (if_pos rfl)
  · rw [Hub.attn_sticky]
    exact Hub.fault_sticky_self _ _ (by decide)

/-! ### The operation -/

theorem exec_ledgerCheckNow (s : State) : exec .ledgerCheckNow s = mbxAct s .tsc 0x13 fun h =>
    done (h.ledgerCheck h).1 (mbxOk [(h.ledgerCheck h).1.rd Reg.TSC_LEDGER_STAT]) := rfl

theorem ends_ledgerCheckNow_equal (hop : s.hub.opRunning .tsc 0x13 = true) (hrun : s.hub.rdB Reg.TSC_LEDGER_STAT 2 = false)
    (heq : s.hub.unequal = []) :
    Ends .ledgerCheckNow s [] (blockRegs .tsc) [.tsc] (fun t =>
      t.hub.rd (Reg.TSC_SNAP 0) = iword s.hub.counts.kitty ∧ t.hub.rd (Reg.TSC_SNAP 7) = iword s.hub.counts.refs
      ∧ t.hub.rdB Reg.TSC_LEDGER_STAT 0 = false
      ∧ t.hub.rdF Reg.TSC_LEDGER_STAT 31 16 = (s.hub.rdF Reg.TSC_LEDGER_STAT 31 16 + 1) % 65536
      ∧ (t.hub.mbx .tsc).result = some (mbxOk [t.hub.rd Reg.TSC_LEDGER_STAT])) := by
  have hcheck := Hub.ledgerCheck_equal (h := s.hub.fresh) (snap := s.hub.fresh) hrun heq
  have hframe := s.hub.fresh.equalNoted_frame s.hub.fresh
  obtain ⟨hkitty, hchecks⟩ := Hub.ledgerCheck_shown (h := s.hub.fresh) hrun s.hub.fresh
  have hrefs : (s.hub.fresh.ledgerCheck s.hub.fresh).1.rd (Reg.TSC_SNAP 7) = iword s.hub.counts.refs := by
    rw [hcheck, (Hub.ledgerNoted_frame _ []).reg _ (by decide)]
    exact Hub.snapShown_refs _ _
  have hstat : (s.hub.fresh.ledgerCheck s.hub.fresh).1.rdB Reg.TSC_LEDGER_STAT 0 = false := by
    rw [hcheck]
    exact (Hub.ledgerNoted_stat _ []).1
  rw [← hcheck] at hframe
  refine ends_mbxDone (exec_ledgerCheckNow s) hop rfl rfl (hframe.mono (List.Subset.refl _) subset_rfl (List.nil_subset _))
    List.mem_cons_self ⟨?_, ?_, ?_, ?_, ?_⟩
  · rw [settle_rd, Hub.opResult_rd]
    exact hkitty
  · rw [settle_rd, Hub.opResult_rd]
    exact hrefs
  · rw [settle_rdB, Hub.rdB, Hub.opResult_rd]
    exact hstat
  · rw [settle_rdF, Hub.rdF, Hub.opResult_rd]
    exact hchecks
  · rw [settle_rd, Hub.opResult_rd]
    exact settle_opResult s.hub ((hframe.opRunning List.not_mem_nil List.not_mem_nil _).trans hop)

theorem ends_ledgerCheckNow_unequal {u : Unequal} {l : List Unequal} (hop : s.hub.opRunning .tsc 0x13 = true)
    (hrun : s.hub.rdB Reg.TSC_LEDGER_STAT 2 = false) (hne : s.hub.unequal = u :: l) :
    Ends .ledgerCheckNow s [.wide, .pins] (blockRegs .tsc ∪ {Reg.SIT_FAULTN_CNT}) [.tsc, .sit] (fun t =>
      t.hub.rdB Reg.TSC_LEDGER_STAT 0 = true ∧ t.hub.rdB Reg.TSC_LEDGER_STAT 1 = !l.isEmpty
      ∧ t.hub.rd Reg.TSC_LEDGER_REC = w32 (u.pool + 256 * u.inst) ∧ t.hub.rd Reg.TSC_LEDGER_DIFF = iword u.diff
      ∧ t.hub.rdWide Reg.TSC_LEDGER_TIME_LO = s.hub.time.ns % 2 ^ 64 ∧ bit (t.hub.hdr .tsc).sticky 0 = true ∧ t.hub.raw .tsc 0 = true) := by
  have hcheck := Hub.ledgerCheck_unequal (h := s.hub.fresh) (snap := s.hub.fresh) hrun hne
  obtain ⟨hrec, hdiff, htime, hsticky, hraw⟩ :=
    Hub.ledgerFault_record ((s.hub.fresh.snapShown s.hub.fresh).ledgerNoted (u :: l)) u s.hub.fresh.now
  obtain ⟨hbad, hmore⟩ := Hub.ledgerNoted_stat (s.hub.fresh.snapShown s.hub.fresh) (u :: l)
  have hnoted (i : Nat) : (s.hub.fresh.ledgerCheck s.hub.fresh).1.rdB Reg.TSC_LEDGER_STAT i
      = ((s.hub.fresh.snapShown s.hub.fresh).ledgerNoted (u :: l)).rdB Reg.TSC_LEDGER_STAT i := by
    rw [hcheck, Hub.rdB, (Hub.ledgerFault_frame _ u _).reg _ (by decide), Hub.rdB]
  rw [← hcheck] at hrec hdiff htime hsticky hraw
  refine ends_mbxDone (exec_ledgerCheckNow s) hop rfl rfl
    ((Hub.ledgerCheck_frame _ _).mono (List.Subset.refl _) ledgerRegs_subset (List.Subset.refl _)) List.mem_cons_self
    ⟨?_, ?_, ?_, ?_, ?_, ?_, ?_⟩
  · rw [settle_rdB, Hub.rdB, Hub.opResult_rd]
    exact (hnoted 0).trans hbad
  · rw [settle_rdB, Hub.rdB, Hub.opResult_rd]
    refine (hnoted 1).trans (hmore.trans ?_)
    cases l <;> simp
  · rw [settle_rd, Hub.opResult_rd]
    exact hrec
  · rw [settle_rd, Hub.opResult_rd]
    exact hdiff
  · rw [settle_rdWide, Hub.rdWide, ((Hub.opResult_frame _ _ _ _).part .wide List.not_mem_nil : (Hub.opResult _ _ _ _).wide = _)]
    exact htime
  · rw [settle_sticky, Hub.opResult_sticky]
    exact hsticky
  · rw [settle_raw _ _ _ _ (.inl (by decide)), Hub.opResult_raw]
    exact hraw

theorem ends_ledgerCheckNow_void (hop : s.hub.opRunning .tsc 0x13 = true) (hvoid : s.hub.rdB Reg.TSC_LEDGER_STAT 2 = true) :
    Ends .ledgerCheckNow s [] ∅ [.tsc] (fun t => (t.hub.mbx .tsc).result = some (mbxOk [s.hub.rd Reg.TSC_LEDGER_STAT])) := by
  refine ends_mbxRefused (exec_ledgerCheckNow s) hop rfl ?_
  rw [Hub.ledgerCheck_void (h := s.hub.fresh) hvoid]
  rfl

end Sys2Proof.Machine
end

section
/-! SUPPORT. The tests of SIT at an opportunity, and on request (R476, R479, R484, Table 19.5). -/

namespace Sys2Proof.Machine

variable {s : State} {h k o : Hub} {ps : List Part} {rs : Set Nat} {bs : List Block} {t n e l : Nat} {i : Fin 6} {lock : Bool}

/-! ### The end of a command that moves no cell -/

/-- A part is as the effect of a command that moves no cell left it. -/
theorem Hub.cycleEnd_same (hc : k.cells = o.cells) (p : Part) : p.same k (o.cycleEnd k) :=
  ((Frame.refl k).cycleEnd (ps := []) (rs := {Reg.TSC_KITTY_MIN}) (bs := [.tsc]) hc rfl List.mem_cons_self).part p List.not_mem_nil

theorem Hub.cycleEnd_live (hc : k.cells = o.cells) (b : Block) : ((o.cycleEnd k).hdr b).live = (k.hdr b).live := by
  obtain ⟨w, hw⟩ := Hub.tscWatch_hdr hc b
  rw [Hub.cycleEnd, settle_live, hw]

theorem Hub.cycleEnd_lane (hc : k.cells = o.cells) (l : Nat) : (o.cycleEnd k).lane l = k.lane l :=
  ((Frame.refl k).cycleEnd (ps := []) (rs := {Reg.TSC_KITTY_MIN}) (bs := [.tsc]) hc rfl List.mem_cons_self).lane List.not_mem_nil l

theorem mbxAct_congr {b : Block} {op : Nat} {f g : Hub → Hub × Option MbxResult} (hfg : f s.hub.fresh = g s.hub.fresh) :
    mbxAct s b op f = mbxAct s b op g := by
  unfold mbxAct act Hub.runOp
  dsimp only
  rw [hfg]

/-! ### What a test does -/

/-- A test is counted, and what it tested is noted for the coverage cycle. -/
def Hub.sitTested (h : Hub) (t n : Nat) : Hub :=
  (h.inc (Reg.SIT_RUN t)).updSit fun x => { x with tested := (x.tested.erase (t, n)) ++ [(t, n)] }

theorem Hub.sitTested_frame (h : Hub) (t n : Nat) : Frame h (h.sitTested t n) [.sit] {Reg.SIT_RUN t} [] :=
  ((Frame.refl h).inc (Set.mem_singleton _)).updSit List.mem_cons_self

theorem Hub.sitTested_run (h : Hub) (t n : Nat) : (h.sitTested t n).rd (Reg.SIT_RUN t) = incHold (h.rd (Reg.SIT_RUN t)) := by
  rw [Hub.sitTested, Hub.updSit_rd, Hub.rd_inc, if_pos rfl]

theorem Hub.mem_sitTested (h : Hub) (t n : Nat) : (t, n) ∈ (h.sitTested t n).sit.tested :=
  List.mem_append_right _ List.mem_cons_self

theorem Hub.sitTest_passed (ht : t ≠ 3) (hres : h.sitResult t n lock e = 0) : h.sitTest t n lock e = h.sitTested t n := by
  unfold Hub.sitTest
  rw [hres]
  exact if_neg ht

/-- A test has failed, before what the failure does. -/
def Hub.testFailed (h : Hub) (t n : Nat) : Hub := (h.sitTested t n).sitFailed t

theorem Hub.sitTest_failed (hres : h.sitResult t n lock e = 1) : h.sitTest t n lock e = (h.testFailed t n).sitAct t n := by
  unfold Hub.sitTest
  rw [hres]
  rfl

theorem Hub.sitResult_pass (ht : t ≠ 1) : h.sitResult t n lock 0 = 0 := if_neg ht

theorem Hub.sitResult_fail (ht : t ≠ 1) (he : e ≠ 0) : h.sitResult t n lock e = 1 := (if_neg ht).trans (if_neg he)

/-- A lane whose checker locked fails on more errors than SIT_LANE_CFG admits. -/
theorem Hub.sitResult_lane (he : h.rdF Reg.SIT_LANE_CFG 31 16 < e) : h.sitResult 1 n true e = 1 := if_neg (Nat.not_le.mpr he)

theorem Hub.testFailed_frame (h : Hub) (t n : Nat) :
    Frame h (h.testFailed t n) [.sit] {Reg.SIT_RUN t, Reg.SIT_FAIL t} [.sit] :=
  (((h.sitTested_frame t n).mono (List.Subset.refl _) (by simp) (List.nil_subset _)).inc (by simp)).attn (by decide)

theorem Hub.testFailed_fail (h : Hub) (t n : Nat) : (h.testFailed t n).rd (Reg.SIT_FAIL t) = incHold (h.rd (Reg.SIT_FAIL t)) := by
  have hne : Reg.SIT_FAIL t ≠ Reg.SIT_RUN t := by unfold Reg.SIT_FAIL Reg.SIT_RUN; omega
  rw [Hub.testFailed, Hub.sitFailed, Hub.attn_rd, Hub.rd_inc, if_pos rfl, (h.sitTested_frame t n).reg _ hne]

theorem Hub.testFailed_raw (h : Hub) (t n : Nat) : (h.testFailed t n).raw .sit 2 = true := Hub.raw_attn_self _ _ (by decide)

/-! ### A test at an opportunity -/

/-- The effect of SIT_TEST_RUN: a lane is taken first, and its test ends with a later event. -/
def Hub.testRun (h : Hub) (i : Fin 6) (n : Nat) (lock : Bool) (e : Nat) : Hub :=
  if i = 1 then
    if !h.sitHolds n then h.sitTakeLane n
    else if h.laneTested n lock then (h.sitReleaseLane n).sitTest 1 n lock e
    else h
  else h.sitTest i n lock e

theorem exec_sitTestRun (i : Fin 6) (n : Nat) (lock : Bool) (e : Nat) (s : State) : exec (.sitTestRun i n lock e) s =
    actT s (s.hub.sitRuns && decide (i ≠ 0) && s.hub.sitOn i && sitExists i n && s.hub.sitChance i n) fun h => h.testRun i n lock e := rfl

theorem Hub.testRun_other (hi : i ≠ 1) : h.testRun i n lock e = h.sitTest i n lock e := if_neg hi

theorem Hub.testRun_take (hfree : h.sitHolds n = false) : h.testRun 1 n lock e = h.sitTakeLane n := by
  unfold Hub.testRun
  rw [hfree]
  rfl

theorem Hub.testRun_lane (hheld : h.sitHolds n = true) (htested : h.laneTested n lock = true) :
    h.testRun 1 n lock e = (h.sitReleaseLane n).sitTest 1 n lock e := by
  unfold Hub.testRun
  rw [hheld, htested]
  rfl

theorem sitTestRun_cond (hruns : s.hub.sitRuns = true) (hi : i ≠ 0) (hon : s.hub.sitOn i = true) (hex : sitExists i n = true)
    (hch : s.hub.sitChance i n = true) :
    (s.hub.sitRuns && decide (i ≠ 0) && s.hub.sitOn i && sitExists i n && s.hub.sitChance i n) = true := by
  simp [hruns, hi, hon, hex, hch]

theorem runs_sitTestRun (hruns : s.hub.sitRuns = true) (hi0 : i ≠ 0) (hi1 : i ≠ 1) (hon : s.hub.sitOn i = true)
    (hex : sitExists i n = true) (hch : s.hub.sitChance i n = true) :
    Runs (.sitTestRun i n lock e) s (settle s.hub (s.hub.fresh.tscWatch (s.hub.fresh.sitTest i n lock e))) :=
  runs_actT (f := fun h => h.sitTest i n lock e)
    ((exec_sitTestRun i n lock e s).trans (actT_congr (Hub.testRun_other hi1))) (sitTestRun_cond hruns hi0 hon hex hch)

theorem SIT_RUN_ne_KITTY_MIN (t : Nat) : Reg.SIT_RUN t ≠ Reg.TSC_KITTY_MIN := by
  unfold Reg.SIT_RUN Reg.TSC_KITTY_MIN
  omega

theorem ends_sitTestRun_pass (hruns : s.hub.sitRuns = true) (hi : i = 2 ∨ i = 4 ∨ i = 5) (hon : s.hub.sitOn i = true)
    (hex : sitExists i n = true) (hch : s.hub.sitChance i n = true) :
    Ends (.sitTestRun i n true 0) s [.sit] {Reg.SIT_RUN i, Reg.TSC_KITTY_MIN} [.tsc] (fun t =>
      t.hub.rd (Reg.SIT_RUN i) = incHold (s.hub.rd (Reg.SIT_RUN i)) ∧ (i.val, n) ∈ t.hub.sit.tested) := by
  have hi0 : i ≠ 0 := by omega
  have hi1 : i ≠ 1 := by omega
  have hpass : s.hub.fresh.testRun i n true 0 = s.hub.fresh.sitTested i n :=
    (Hub.testRun_other hi1).trans (Hub.sitTest_passed (by omega) (Hub.sitResult_pass (by omega)))
  have hframe := s.hub.fresh.sitTested_frame i n
  have hcells : (s.hub.fresh.sitTested i n).cells = s.hub.fresh.cells := hframe.part .cells (by decide)
  have hsit : (s.hub.fresh.cycleEnd (s.hub.fresh.sitTested i n)).sit = (s.hub.fresh.sitTested i n).sit := Hub.cycleEnd_same hcells .sit
  refine ends_actT (exec_sitTestRun i n true 0 s) (sitTestRun_cond hruns hi0 hon hex hch) hpass hcells (by simp) (by decide)
    (hframe.mono (List.Subset.refl _) (by simp) (List.nil_subset _)) ⟨?_, ?_⟩
  · rw [Hub.cycleEnd_rd hcells (SIT_RUN_ne_KITTY_MIN _)]
    exact Hub.sitTested_run _ _ _
  · rw [hsit]
    exact Hub.mem_sitTested _ _ _

/-! ### A lane is mapped out (R113) -/

theorem Frame.dropLane (a : Frame h k ps rs bs) (hr : blockRegs .lnx ⊆ rs) (hl : l < 40) : Frame h (k.dropLane l) ps rs bs := by
  have hfree := a.freeLane (hr (LN_STAT_mem_lnx hl))
  unfold Hub.dropLane
  dsimp only
  split
  · exact hfree.placeLanes hr (by omega) _
  · exact hfree

theorem Frame.laneGone (a : Frame h k ps rs bs) (hr : blockRegs .lnx ⊆ rs) (hl : l < 40) : Frame h (k.laneGone l) ps rs bs := by
  have hout := (a.dropLane hr hl).wrB (i := 7) (v := true) (hr (LN_STAT_mem_lnx hl))
  exact Frame.ite (hout.wrB (hr (mem_blockRegs.mpr (by decide)))) (hout.wrB (hr (mem_blockRegs.mpr (by decide))))

theorem Hub.laneGone_out (h : Hub) (l : Nat) : (h.laneGone l).laneOut l = true := by
  have hout : ((h.dropLane l).wrB (Reg.LN_STAT l) 7 true).laneOut l = true := by
    rw [Hub.laneOut, Hub.rdB, Hub.rd_wrB, if_pos rfl, bit_setBit _ _ _ _ (by decide), if_pos rfl]
  unfold Hub.laneGone
  dsimp only
  split <;> rw [Hub.laneOut, Hub.rdB, Hub.rd_wrB, if_neg (LN_STAT_ne_page1 l (by decide))] <;> exact hout

/-- A record stands in the repair map. -/
def Hub.repairNoted (h : Hub) (r : RepairRec) : Hub := { h with repairMap := h.repairMap ++ [{ r with time := h.now / 2 ^ 30 % 2 ^ 32 }] }

theorem Frame.repairNoted {r : RepairRec} (a : Frame h k ps rs bs) (hp : Part.repairMap ∈ ps) : Frame h (k.repairNoted r) ps rs bs :=
  a.upd rfl rfl rfl fun p hp' => by cases p <;> first | exact absurd hp hp' | rfl

/-- The record that a mapped-out lane leaves. -/
def outRecord (l : Nat) : RepairRec := { kind := 2, res := l }

theorem Hub.laneGone_map (h : Hub) (l : Nat) : ((h.sitReleaseLane l).laneGone l).repairMap = h.repairMap :=
  (Hub.Steady.refl (b := .sit) h).sitReleaseLane.laneGone.repairMap

theorem Hub.laneMapOut_room (hroom : h.repairMap.length < 256) :
    h.laneMapOut l = ((((h.sitReleaseLane l).laneGone l).repairNoted (outRecord l)).attn .sit 3).showSpares := by
  have hwrite : ((h.sitReleaseLane l).laneGone l).repairWrite (outRecord l)
      = (((h.sitReleaseLane l).laneGone l).repairNoted (outRecord l)).attn .sit 3 := if_pos (by rw [Hub.laneGone_map]; exact hroom)
  rw [← hwrite]
  rfl

theorem Hub.laneMapOut_frame (hl : l < 40) (hroom : h.repairMap.length < 256) :
    Frame h (h.laneMapOut l) [.repairMap] (blockRegs .lnx) [.sit] := by
  rw [Hub.laneMapOut_room hroom]
  exact (((((Frame.refl h).sitReleaseLane (LN_STAT_mem_lnx hl)).laneGone subset_rfl hl).repairNoted List.mem_cons_self).attn
    List.mem_cons_self).showSpares subset_rfl

theorem Hub.laneMapOut_out (hroom : h.repairMap.length < 256) : (h.laneMapOut l).laneOut l = true := by
  rw [Hub.laneMapOut_room hroom, Hub.laneOut, Hub.rdB,
    Hub.showSpares_rd _ (LN_STAT_ne_page1 l (by decide)) (LN_STAT_ne_page1 l (by decide))]
  exact Hub.laneGone_out _ l

theorem Hub.laneMapOut_map (hroom : h.repairMap.length < 256) : (h.laneMapOut l).repairMap.length = h.repairMap.length + 1 := by
  rw [← Hub.laneGone_map h l, Hub.laneMapOut_room hroom]
  exact List.length_append

theorem Hub.laneMapOut_raw {j : Nat} (hroom : h.repairMap.length < 256) (hraw : h.raw .sit j = true) :
    (h.laneMapOut l).raw .sit j = true := by
  have hkept : ((h.sitReleaseLane l).laneGone l).raw .sit j = true := (Hub.Steady.refl h).sitReleaseLane.laneGone.raw hraw
  rw [Hub.laneMapOut_room hroom, Hub.showSpares_raw]
  exact Hub.raw_attn_of_raw (h := ((h.sitReleaseLane l).laneGone l).repairNoted (outRecord l)) hkept _ _

/-! ### A lane fails its test (R479) -/

/-- A lane that SIT tested has failed, before it is mapped out. -/
def Hub.laneFailed (h : Hub) (l : Nat) : Hub := (h.sitReleaseLane l).testFailed 1 l

theorem Hub.laneFailed_frame (hl : l < 40) :
    Frame h (h.laneFailed l) [.sit] (blockRegs .lnx ∪ {Reg.SIT_RUN 1, Reg.SIT_FAIL 1}) [.sit] :=
  ((Frame.refl h).sitReleaseLane (.inl (LN_STAT_mem_lnx hl))).trans
    ((Hub.testFailed_frame _ 1 l).mono (List.Subset.refl _) Set.subset_union_right (List.Subset.refl _))

theorem Hub.laneFailed_map (hl : l < 40) : (h.laneFailed l).repairMap = h.repairMap :=
  (Hub.laneFailed_frame hl).part .repairMap (by decide)

theorem Hub.laneFailed_room (hl : l < 40) (hroom : h.repairMap.length < 256) : (h.laneFailed l).repairMap.length < 256 := by
  rw [Hub.laneFailed_map hl]
  exact hroom

/-- A lane that SIT tested is mapped out with its fault event. -/
def Hub.laneCondemned (h : Hub) (l : Nat) : Hub := ((h.laneFailed l).laneMapOut l).fault .sit 1

theorem Hub.laneCondemned_frame (hl : l < 40) (hroom : h.repairMap.length < 256) :
    Frame h (h.laneCondemned l) [.sit, .repairMap, .pins]
      (blockRegs .lnx ∪ {Reg.SIT_RUN 1, Reg.SIT_FAIL 1, Reg.SIT_FAULTN_CNT, Reg.TSC_KITTY_MIN}) [.sit, .tsc] := by
  have hfailed : Frame h (h.laneFailed l) [.sit, .repairMap, .pins]
      (blockRegs .lnx ∪ {Reg.SIT_RUN 1, Reg.SIT_FAIL 1, Reg.SIT_FAULTN_CNT, Reg.TSC_KITTY_MIN}) [.sit, .tsc] :=
    (Hub.laneFailed_frame hl).mono (by decide) (Set.union_subset_union_right _ (by
      rintro a (rfl | rfl) <;> simp)) (by decide)
  have hout : Frame (h.laneFailed l) ((h.laneFailed l).laneMapOut l) [.sit, .repairMap, .pins]
      (blockRegs .lnx ∪ {Reg.SIT_RUN 1, Reg.SIT_FAIL 1, Reg.SIT_FAULTN_CNT, Reg.TSC_KITTY_MIN}) [.sit, .tsc] :=
    (Hub.laneMapOut_frame hl (Hub.laneFailed_room hl hroom)).mono (by decide) Set.subset_union_left (by decide)
  exact (hfailed.trans hout).fault (by decide) (by decide) (.inr (by simp)) (by decide)

theorem Hub.laneCondemned_out (hl : l < 40) (hroom : h.repairMap.length < 256) : (h.laneCondemned l).laneOut l = true := by
  have hother : Reg.LN_STAT l ≠ Reg.SIT_FAULTN_CNT := by unfold Reg.LN_STAT Reg.SIT_FAULTN_CNT; omega
  rw [Hub.laneCondemned, Hub.laneOut, Hub.rdB, Hub.fault_rd _ _ _ hother]
  exact Hub.laneMapOut_out (Hub.laneFailed_room hl hroom)

theorem Hub.laneCondemned_fail (hl : l < 40) (hroom : h.repairMap.length < 256) :
    (h.laneCondemned l).rd (Reg.SIT_FAIL 1) = incHold (h.rd (Reg.SIT_FAIL 1)) := by
  have hstat : Reg.SIT_FAIL 1 ≠ Reg.LN_STAT l := by unfold Reg.SIT_FAIL Reg.LN_STAT; omega
  have hother : Reg.SIT_FAIL 1 ∉ blockRegs .lnx := fun hm => absurd (mem_blockRegs.mp hm) (by decide)
  rw [Hub.laneCondemned, Hub.fault_rd _ _ _ (by decide), (Hub.laneMapOut_frame hl (Hub.laneFailed_room hl hroom)).reg _ hother, Hub.laneFailed,
    Hub.testFailed_fail, Hub.sitReleaseLane_rd, if_neg hstat]

theorem Hub.laneCondemned_raw (hl : l < 40) (hroom : h.repairMap.length < 256) : (h.laneCondemned l).raw .sit 2 = true := by
  exact (Hub.Steady.refl _).fault.raw (Hub.laneMapOut_raw (Hub.laneFailed_room hl hroom) (Hub.testFailed_raw _ 1 l))

theorem Hub.laneCondemned_map (hl : l < 40) (hroom : h.repairMap.length < 256) :
    (h.laneCondemned l).repairMap.length = h.repairMap.length + 1 := by
  have hfault : (h.laneCondemned l).repairMap = ((h.laneFailed l).laneMapOut l).repairMap :=
    (Hub.fault_frame _ _ _).part .repairMap (by decide)
  rw [hfault, Hub.laneMapOut_map (Hub.laneFailed_room hl hroom), Hub.laneFailed_map hl]

theorem Hub.testRun_laneFail (hn : n < 40) (hheld : h.sitHolds n = true) (htested : h.laneTested n true = true)
    (he : h.rdF Reg.SIT_LANE_CFG 31 16 < e) : h.testRun 1 n true e = h.laneCondemned n := by
  have hother : Reg.SIT_LANE_CFG ≠ Reg.LN_STAT n := by unfold Reg.SIT_LANE_CFG Reg.LN_STAT; omega
  have hlimit : (h.sitReleaseLane n).rdF Reg.SIT_LANE_CFG 31 16 < e := by
    rw [Hub.rdF, Hub.sitReleaseLane_rd, if_neg hother]
    exact he
  exact (Hub.testRun_lane hheld htested).trans (Hub.sitTest_failed (Hub.sitResult_lane hlimit))

theorem ends_sitTestRun_laneFail (hruns : s.hub.sitRuns = true) (hon : s.hub.sitOn 1 = true) (hn : n < 40)
    (hch : s.hub.sitChance 1 n = true) (hheld : s.hub.sitHolds n = true) (htested : s.hub.laneTested n true = true)
    (he : s.hub.rdF Reg.SIT_LANE_CFG 31 16 < e) (hroom : s.hub.repairMap.length < 256) :
    Ends (.sitTestRun 1 n true e) s [.sit, .repairMap, .pins]
      (blockRegs .lnx ∪ {Reg.SIT_RUN 1, Reg.SIT_FAIL 1, Reg.SIT_FAULTN_CNT, Reg.TSC_KITTY_MIN}) [.sit, .tsc] (fun t =>
      t.hub.laneOut n = true ∧ t.hub.rd (Reg.SIT_FAIL 1) = incHold (s.hub.rd (Reg.SIT_FAIL 1)) ∧ t.hub.raw .sit 2 = true
      ∧ bit (t.hub.hdr .sit).sticky 1 = true ∧ t.hub.repairMap.length = s.hub.repairMap.length + 1) := by
  have heffect : s.hub.fresh.testRun 1 n true e = s.hub.fresh.laneCondemned n := Hub.testRun_laneFail hn hheld htested he
  have hframe := Hub.laneCondemned_frame (h := s.hub.fresh) hn hroom
  have hcells : (s.hub.fresh.laneCondemned n).cells = s.hub.fresh.cells := hframe.part .cells (by decide)
  have hmap : (s.hub.fresh.cycleEnd (s.hub.fresh.laneCondemned n)).repairMap = (s.hub.fresh.laneCondemned n).repairMap :=
    Hub.cycleEnd_same hcells .repairMap
  refine ends_actT (exec_sitTestRun 1 n true e s) (sitTestRun_cond hruns (by decide) hon (decide_eq_true hn) hch) heffect hcells
    (.inr (by simp)) (by decide) hframe ⟨?_, ?_, ?_, ?_, ?_⟩
  · rw [Hub.laneOut, Hub.cycleEnd_rdB hcells (LN_STAT_ne_KITTY_MIN hn)]
    exact Hub.laneCondemned_out hn hroom
  · rw [Hub.cycleEnd_rd hcells (by decide)]
    exact Hub.laneCondemned_fail hn hroom
  · exact Hub.cycleEnd_raw hcells (.inl (by decide)) (Hub.laneCondemned_raw hn hroom)
  · rw [Hub.cycleEnd_sticky hcells]
    exact Hub.fault_sticky_self _ _ (by decide)
  · rw [hmap]
    exact Hub.laneCondemned_map hn hroom

/-! ### SIT takes a lane -/

theorem Hub.sitTakeLane_frame (h : Hub) (l : Nat) : Frame h (h.sitTakeLane l) [.lanes] {Reg.LN_STAT l} [] := by
  have htimed : Frame h (h.withLane l fun x => { x with testFrom := h.mono }) [.lanes] {Reg.LN_STAT l} [] :=
    (Frame.refl h).withLane (by decide) _ _
  exact (Frame.ite htimed.emit htimed).wrB rfl

theorem Hub.sitTakeLane_lane (h : Hub) (l : Nat) : ((h.sitTakeLane l).lane l).testFrom = h.mono := by
  have hlanes : (h.sitTakeLane l).lane l = (h.withLane l fun x => { x with testFrom := h.mono }).lane l := by
    unfold Hub.sitTakeLane
    dsimp only
    split <;> rfl
  rw [hlanes, Hub.lane_withLane, if_pos rfl]

theorem Hub.sitTakeLane_holds (h : Hub) (l : Nat) : (h.sitTakeLane l).sitHolds l = true := by
  unfold Hub.sitTakeLane
  rw [Hub.sitHolds, Hub.rdB, Hub.rd_wrB, if_pos rfl, bit_setBit _ _ _ _ (by decide), if_pos rfl]

theorem ends_sitTestRun_take (hruns : s.hub.sitRuns = true) (hon : s.hub.sitOn 1 = true) (hn : n < 40)
    (hch : s.hub.sitChance 1 n = true) (hfree : s.hub.sitHolds n = false) :
    Ends (.sitTestRun 1 n lock e) s [.lanes] {Reg.LN_STAT n, Reg.TSC_KITTY_MIN} [.tsc] (fun t =>
      t.hub.sitHolds n = true ∧ (t.hub.lane n).testFrom = s.hub.mono) := by
  have hframe := (s.hub.fresh.sitTakeLane_frame n)
  have hcells : (s.hub.fresh.sitTakeLane n).cells = s.hub.fresh.cells := hframe.part .cells (by decide)
  refine ends_actT (exec_sitTestRun 1 n lock e s) (sitTestRun_cond hruns (by decide) hon (decide_eq_true hn) hch)
    (Hub.testRun_take hfree) hcells (by simp) (by decide) (hframe.mono (List.Subset.refl _) (by simp) (List.nil_subset _)) ⟨?_, ?_⟩
  · rw [Hub.sitHolds, Hub.cycleEnd_rdB hcells (LN_STAT_ne_KITTY_MIN hn)]
    exact Hub.sitTakeLane_holds _ n
  · rw [Hub.cycleEnd_lane hcells]
    exact Hub.sitTakeLane_lane _ n

/-! ### A known-answer test fails (R459, R479) -/

/-- KSI as a failed known-answer test leaves it. -/
def Ksi.katFailed (x : Ksi) (n : Nat) : Ksi := { x with kat := x.kat ||| 2 ^ n }

/-- The known-answer test of an engine has failed. -/
def Hub.katFailed (h : Hub) (n : Nat) : Hub :=
  ((((h.testFailed 3 n).updKsi fun x => x.katFailed n).attn .ksi 5).fault .ksi 2).setLive .ksi 2 true

theorem Hub.katFailed_frame (h : Hub) (n : Nat) :
    Frame h (h.katFailed n) [.sit, .ksi, .pins] {Reg.SIT_RUN 3, Reg.SIT_FAIL 3, Reg.SIT_FAULTN_CNT, Reg.TSC_KITTY_MIN}
      [.sit, .ksi, .tsc] :=
  (((((h.testFailed_frame 3 n).mono (by decide) (by rintro a (rfl | rfl) <;> simp) (by decide)).updKsi (by decide)).attn
    (by decide)).fault (by decide) (by decide) (by simp) (by decide)).setLive (by decide)

theorem Hub.katFailed_ksi (h : Hub) (n : Nat) : (h.katFailed n).ksi = h.ksi.katFailed n := by
  have hafter : (h.katFailed n).ksi = ((h.testFailed 3 n).updKsi fun x => x.katFailed n).ksi :=
    (((Frame.refl _).attn (b := .ksi) (i := 5) (ps := [.pins]) (rs := {Reg.SIT_FAULTN_CNT}) (bs := [.ksi, .sit]) (by decide)).fault
      (i := 2) (by decide) (by decide) rfl (by decide) |>.setLive (by decide)).part .ksi (by decide)
  have hbefore : (h.testFailed 3 n).ksi = h.ksi := (h.testFailed_frame 3 n).part .ksi (by decide)
  rw [hafter, Hub.updKsi_ksi, hbefore]

theorem Hub.katFailed_sticky (h : Hub) (n : Nat) : bit ((h.katFailed n).hdr .ksi).sticky 2 = true := by
  rw [Hub.katFailed, Hub.setLive_sticky]
  exact Hub.fault_sticky_self _ _ (by decide)

theorem Hub.katFailed_raw (h : Hub) (n : Nat) : (h.katFailed n).raw .sit 2 = true :=
  (Hub.Steady.refl ((h.testFailed 3 n).updKsi fun x => x.katFailed n)).attn.fault.setLive.raw (h.testFailed_raw 3 n)

theorem ends_sitTestRun_kat (hruns : s.hub.sitRuns = true) (hon : s.hub.sitOn 3 = true) (hn : n < 5) (he : e ≠ 0) :
    Ends (.sitTestRun 3 n true e) s [.sit, .ksi, .pins] {Reg.SIT_RUN 3, Reg.SIT_FAIL 3, Reg.SIT_FAULTN_CNT, Reg.TSC_KITTY_MIN}
      [.sit, .ksi, .tsc] (fun t =>
      t.hub.ksi = { s.hub.ksi with kat := s.hub.ksi.kat ||| 2 ^ n } ∧ bit (t.hub.hdr .ksi).sticky 2 = true
      ∧ bit (t.hub.hdr .ksi).live 2 = true ∧ t.hub.raw .sit 2 = true) := by
  have heffect : s.hub.fresh.testRun 3 n true e = s.hub.fresh.katFailed n :=
    (Hub.testRun_other (by decide)).trans (Hub.sitTest_failed (Hub.sitResult_fail (by decide) he))
  have hframe := s.hub.fresh.katFailed_frame n
  have hcells : (s.hub.fresh.katFailed n).cells = s.hub.fresh.cells := hframe.part .cells (by decide)
  have hksi : (s.hub.fresh.cycleEnd (s.hub.fresh.katFailed n)).ksi = (s.hub.fresh.katFailed n).ksi := Hub.cycleEnd_same hcells .ksi
  refine ends_actT (exec_sitTestRun 3 n true e s) (sitTestRun_cond hruns (by decide) hon (decide_eq_true hn) rfl) heffect hcells
    (by simp) (by decide) hframe ⟨?_, ?_, ?_, ?_⟩
  · exact hksi.trans (s.hub.fresh.katFailed_ksi n)
  · rw [Hub.cycleEnd_sticky hcells]
    exact s.hub.fresh.katFailed_sticky n
  · rw [Hub.cycleEnd_live hcells]
    exact Hub.setLive_live_self _ _ (by decide) _
  · exact Hub.cycleEnd_raw hcells (.inl (by decide)) (s.hub.fresh.katFailed_raw n)

/-! ### TEST_NOW (R484) -/

/-- TEST_NOW names what this hub has, of a target that is on, and there is an opportunity to test it. -/
structure Hub.TestAsked (h : Hub) (i : Fin 6) (n : Nat) : Prop where
  target : (h.arg .sit 0).toNat = i.val
  inst : (h.arg .sit 1).toNat = n
  here : h.sitHere i n = true
  on : h.sitOn i = true
  runs : h.sitRuns = true
  offers : h.sitOffers i n = true

/-- A target other than BANK and LANE is tested at once. -/
theorem exec_testNow_found (hi0 : i ≠ 0) (hi1 : i ≠ 1) (hasked : s.hub.fresh.TestAsked i n) (hch : s.hub.fresh.sitChance i n = true) :
    exec (.testNow (some (lock, e))) s = mbxAct s .sit 0x10 fun h =>
      done (h.sitTest i n lock e) (mbxOk [w32 (h.sitResult i n lock e), w32 e]) := by
  obtain ⟨htarget, hinst, hhere, hon, hruns, hoffers⟩ := hasked
  have hlt : ¬ 6 ≤ i.val := by omega
  have hbank : i.val ≠ 0 := by omega
  have hlane : i.val ≠ 1 := by omega
  refine mbxAct_congr ?_
  simp only [htarget, hinst, hhere, hon, hruns, hoffers, hch, hlt, hbank, hlane, false_and, or_self, Bool.not_true, Bool.or_self,
    Bool.false_eq_true, if_false]

/-- TEST_NOW of such a target ends without a test once its bound has passed. -/
theorem exec_testNow_late (hi0 : i ≠ 0) (hi1 : i ≠ 1) (hasked : s.hub.fresh.TestAsked i n)
    (hlate : (s.hub.mbx .sit).postedAt + 2000000000 ≤ s.hub.mono) :
    exec (.testNow none) s = mbxAct s .sit 0x10 fun h => done (h.updSit fun x => { x with waits := false }) (mbxErr 7) := by
  obtain ⟨htarget, hinst, hhere, hon, hruns, hoffers⟩ := hasked
  have hlt : ¬ 6 ≤ i.val := by omega
  have hbank : i.val ≠ 0 := by omega
  have hlane : i.val ≠ 1 := by omega
  have hbound : s.hub.fresh.testBound i = 2000000000 := by simp only [Hub.testBound, hlane, if_false]
  have hover : ¬ s.hub.fresh.mono < (s.hub.fresh.mbx .sit).postedAt + 2000000000 := Nat.not_lt.mpr hlate
  refine mbxAct_congr ?_
  simp only [htarget, hinst, hhere, hon, hruns, hoffers, hbound, hover, hlt, hbank, hlane, false_and, or_self, Bool.not_true, Bool.or_self,
    Bool.false_eq_true, if_false]

theorem runs_testNow (hop : s.hub.opRunning .sit 0x10 = true) (hi0 : i ≠ 0) (hi1 : i ≠ 1) (hasked : s.hub.fresh.TestAsked i n)
    (hch : s.hub.fresh.sitChance i n = true) :
    Runs (.testNow (some (lock, e))) s (settle s.hub (s.hub.fresh.runOp .sit 0x10 fun h =>
      done (h.sitTest i n lock e) (mbxOk [w32 (h.sitResult i n lock e), w32 e]))) :=
  runs_mbxAct (exec_testNow_found hi0 hi1 hasked hch) hop

theorem ends_testNow_pass (hop : s.hub.opRunning .sit 0x10 = true) (hi : i = 2 ∨ i = 4 ∨ i = 5) (hasked : s.hub.fresh.TestAsked i n)
    (hch : s.hub.fresh.sitChance i n = true) :
    Ends (.testNow (some (true, 0))) s [.sit] {Reg.SIT_RUN i} [.sit] (fun t =>
      t.hub.rd (Reg.SIT_RUN i) = incHold (s.hub.rd (Reg.SIT_RUN i)) ∧ (t.hub.mbx .sit).result = some (mbxOk [0, 0])) := by
  have hres : s.hub.fresh.sitResult i n true 0 = 0 := Hub.sitResult_pass (by omega)
  have hf : done (s.hub.fresh.sitTest i n true 0) (mbxOk [w32 (s.hub.fresh.sitResult i n true 0), w32 0])
      = done (s.hub.fresh.sitTested i n) (mbxOk [0, 0]) := by
    rw [Hub.sitTest_passed (by omega) hres, hres]
    rfl
  have hframe := s.hub.fresh.sitTested_frame i n
  refine ends_mbxDone (exec_testNow_found (by omega) (by omega) hasked hch) hop rfl hf
    (hframe.mono (List.Subset.refl _) subset_rfl (List.nil_subset _)) List.mem_cons_self ⟨?_, ?_⟩
  · rw [settle_rd, Hub.opResult_rd]
    exact Hub.sitTested_run _ _ _
  · exact settle_opResult s.hub ((hframe.opRunning (by decide) List.not_mem_nil _).trans hop)

/-- What a failure of a power channel, of an arbiter or of an egress port does beside its count. -/
theorem Hub.sitAct_frame (ht : t = 2 ∨ t = 4 ∨ t = 5) :
    Frame h (h.sitAct t n) [.pins] {Reg.TP_DROP_PENNANT n, Reg.SIT_FAULTN_CNT} [.sit, .ppc, .tsc] := by
  rcases ht with rfl | rfl | rfl
  · exact (Frame.refl h).fault (by decide) (by decide) (by simp) (by decide)
  · exact (Frame.refl h).fault (by decide) (by decide) (by simp) (by decide)
  · exact (((Frame.refl h).fault (by decide) (by decide) (by simp) (by decide)).inc (by simp)).fault (by decide) (by decide) (by simp)
      (by decide)

theorem Hub.sitAct_mbx (ht : t = 2 ∨ t = 4 ∨ t = 5) (b : Block) : (h.sitAct t n).mbx b = h.mbx b := by
  rcases ht with rfl | rfl | rfl
  · exact Hub.fault_mbx _ _ _ _
  · exact Hub.fault_mbx _ _ _ _
  · exact (Hub.fault_mbx _ _ _ _).trans (Hub.fault_mbx _ _ _ _)

/-- A power channel, an arbiter or an egress port has failed its test. -/
def Hub.instFailed (h : Hub) (t n : Nat) : Hub := (h.testFailed t n).sitAct t n

theorem SIT_RUN_mem_sit (ht : t < 6) : Reg.SIT_RUN t ∈ blockRegs .sit := by
  refine ⟨?_, ?_⟩ <;> rw [show Block.sit.base = 0x02300000 from rfl] <;> unfold Reg.SIT_RUN <;> omega

theorem SIT_FAIL_mem_sit (ht : t < 6) : Reg.SIT_FAIL t ∈ blockRegs .sit := by
  refine ⟨?_, ?_⟩ <;> rw [show Block.sit.base = 0x02300000 from rfl] <;> unfold Reg.SIT_FAIL <;> omega

theorem Hub.instFailed_frame (ht : t = 2 ∨ t = 4 ∨ t = 5) :
    Frame h (h.instFailed t n) [.sit, .pins] (blockRegs .sit ∪ {Reg.TP_DROP_PENNANT n, Reg.TSC_KITTY_MIN}) [.sit, .ppc, .tsc] := by
  have hcounted : {Reg.SIT_RUN t, Reg.SIT_FAIL t} ⊆ blockRegs .sit ∪ {Reg.TP_DROP_PENNANT n, Reg.TSC_KITTY_MIN} := by
    rintro a (rfl | rfl)
    · exact .inl (SIT_RUN_mem_sit (by omega))
    · exact .inl (SIT_FAIL_mem_sit (by omega))
  have hacted : {Reg.TP_DROP_PENNANT n, Reg.SIT_FAULTN_CNT} ⊆ blockRegs .sit ∪ {Reg.TP_DROP_PENNANT n, Reg.TSC_KITTY_MIN} := by
    rintro a (rfl | rfl)
    · exact .inr (.inl rfl)
    · exact .inl (mem_blockRegs.mpr (by decide))
  exact ((h.testFailed_frame t n).mono (by decide) hcounted (by decide)).trans
    ((Hub.sitAct_frame ht).mono (by decide) hacted (List.Subset.refl _))

theorem Hub.instFailed_fail (ht : t = 2 ∨ t = 4 ∨ t = 5) :
    (h.instFailed t n).rd (Reg.SIT_FAIL t) = incHold (h.rd (Reg.SIT_FAIL t)) := by
  have hother : Reg.SIT_FAIL t ∉ ({Reg.TP_DROP_PENNANT n, Reg.SIT_FAULTN_CNT} : Set Nat) := by
    rw [Set.mem_insert_iff, Set.mem_singleton_iff]
    unfold Reg.SIT_FAIL Reg.TP_DROP_PENNANT Reg.SIT_FAULTN_CNT
    omega
  rw [Hub.instFailed, (Hub.sitAct_frame ht).reg _ hother]
  exact Hub.testFailed_fail _ _ _

theorem Hub.instFailed_mbx (ht : t = 2 ∨ t = 4 ∨ t = 5) (b : Block) : (h.instFailed t n).mbx b = h.mbx b :=
  (Hub.sitAct_mbx ht b).trans (Hub.attn_mbx _ _ _ _)

theorem ends_testNow_fail (hop : s.hub.opRunning .sit 0x10 = true) (hi : i = 2 ∨ i = 4 ∨ i = 5) (hasked : s.hub.fresh.TestAsked i n)
    (hch : s.hub.fresh.sitChance i n = true) :
    Ends (.testNow (some (true, 1))) s [.sit, .pins] (blockRegs .sit ∪ {Reg.TP_DROP_PENNANT n, Reg.TSC_KITTY_MIN}) [.sit, .ppc, .tsc]
      (fun t => t.hub.rd (Reg.SIT_FAIL i) = incHold (s.hub.rd (Reg.SIT_FAIL i)) ∧ (t.hub.mbx .sit).result = some (mbxOk [1, 1])) := by
  have ht : i.val = 2 ∨ i.val = 4 ∨ i.val = 5 := by omega
  have hres : s.hub.fresh.sitResult i n true 1 = 1 := Hub.sitResult_fail (by omega) (by decide)
  have hf : done (s.hub.fresh.sitTest i n true 1) (mbxOk [w32 (s.hub.fresh.sitResult i n true 1), w32 1])
      = done (s.hub.fresh.instFailed i n) (mbxOk [1, 1]) := by
    rw [Hub.sitTest_failed hres, hres]
    rfl
  have hframe := Hub.instFailed_frame (h := s.hub.fresh) (n := n) ht
  refine ends_mbxDone (exec_testNow_found (by omega) (by omega) hasked hch) hop rfl hf hframe (by decide) ⟨?_, ?_⟩
  · rw [settle_rd, Hub.opResult_rd]
    exact Hub.instFailed_fail ht
  · exact settle_opResult s.hub ((Hub.opRunning_congr (hframe.part .power (by decide)) (Hub.instFailed_mbx ht _)).trans hop)

theorem ends_testNow_late (hop : s.hub.opRunning .sit 0x10 = true) (hi0 : i ≠ 0) (hi1 : i ≠ 1) (hasked : s.hub.fresh.TestAsked i n)
    (hlate : (s.hub.mbx .sit).postedAt + 2000000000 ≤ s.hub.mono) :
    Ends (.testNow none) s [.sit] ∅ [.sit] (fun t => (t.hub.mbx .sit).result = some (mbxErr 7)) := by
  have hframe : Frame s.hub.fresh (s.hub.fresh.updSit fun x => { x with waits := false }) [.sit] ∅ [] := (Frame.refl _).updSit (by decide)
  exact ends_mbxDone (exec_testNow_late hi0 hi1 hasked hlate) hop rfl rfl (hframe.mono (List.Subset.refl _) subset_rfl (List.nil_subset _))
    List.mem_cons_self (settle_opResult s.hub ((hframe.opRunning (by decide) List.not_mem_nil _).trans hop))

end Sys2Proof.Machine
end

section
/-! SUPPORT. Bank steps and the coverage cycle of the in-service test (R180, R476 to R478, R484). -/

namespace Sys2Proof.Machine

variable {s : State} {h k o n : Hub} {ps : List Part} {rs : Set Nat} {bs : List Block}

theorem Frame.withBanks {x : Banks} (a : Frame h k ps rs bs) (hp : Part.banks ∈ ps) : Frame h { k with banks := x } ps rs bs :=
  a.upd rfl rfl rfl fun p hp' => by cases p <;> first | exact absurd hp hp' | rfl

theorem Frame.showBanks (a : Frame h k ps rs bs) (hx : Reg.TSC_BANK_SPARE ∈ rs) : Frame h k.showBanks ps rs bs := a.wr hx

/-! ### Bank steps (R477) -/

/-- SIT as a step that begins leaves it. -/
def Sit.begun (x : Sit) : Sit := { x with due := false, running := true, next := (x.next + 1) % 32 }

/-- TSC copies the next bank for SIT. -/
def Hub.copyBegun (h : Hub) : Hub :=
  ({ h.updSit Sit.begun with banks := { h.banks with copying := some h.sit.next } } : Hub).showBanks

theorem Hub.copyBegun_frame (h : Hub) : Frame h h.copyBegun [.sit, .banks] {Reg.TSC_BANK_SPARE} [] :=
  (((Frame.refl h).updSit (f := Sit.begun) (by decide)).withBanks (by decide)).showBanks rfl

theorem Hub.copyBegun_banks (h : Hub) : h.copyBegun.banks = { h.banks with copying := some h.sit.next } := rfl

theorem Hub.copyBegun_sit (h : Hub) : h.copyBegun.sit = h.sit.begun := rfl

/-- A step that nothing holds up begins at once. -/
theorem Hub.stepBegin_free (hrun : h.sit.running = false) (hcond : h.banks.condemn = false) (hdrain : h.banks.draining = none)
    (hcopy : h.banks.copying = none) (hon : h.sitOn 0 = true) (hspare : h.sparePresent = true) : h.stepBegin = h.copyBegun := by
  unfold Hub.stepBegin
  rw [hrun, hcond, hdrain, hcopy, hon, hspare]
  rfl

/-- A step that cannot begin yet waits. -/
def Hub.stepWaits (h : Hub) : Hub := h.updSit fun x => { x with due := true }

/-- A step that falls due while another one runs waits. -/
theorem Hub.stepBegin_running (hrun : h.sit.running = true) : h.stepBegin = h.stepWaits := by
  unfold Hub.stepBegin
  rw [hrun]
  rfl

/-- The next step is a period away. -/
def Hub.stepDue (h : Hub) : Hub := h.updSit fun x => { x with dueAt := x.dueAt + h.bankPeriod }

theorem Hub.stepDue_frame (h : Hub) : Frame h h.stepDue [.sit] ∅ [] := (Frame.refl h).updSit List.mem_cons_self

theorem exec_bankStepDue (s : State) : exec .bankStepDue s =
    actT s (s.hub.sitRuns && decide (s.hub.sit.dueAt + s.hub.bankPeriod ≤ s.hub.mono)) fun h => h.stepDue.stepBegin := rfl

theorem bankStepDue_cond (hruns : s.hub.sitRuns = true) (hdue : s.hub.sit.dueAt + s.hub.bankPeriod ≤ s.hub.mono) :
    (s.hub.sitRuns && decide (s.hub.sit.dueAt + s.hub.bankPeriod ≤ s.hub.mono)) = true := by simp [hruns, hdue]

theorem ends_bankStepDue_free (hruns : s.hub.sitRuns = true) (hrun : s.hub.sit.running = false) (hcond : s.hub.banks.condemn = false)
    (hdrain : s.hub.banks.draining = none) (hcopy : s.hub.banks.copying = none) (hon : s.hub.sitOn 0 = true)
    (hspare : s.hub.sparePresent = true) (hdue : s.hub.sit.dueAt + s.hub.bankPeriod ≤ s.hub.mono) :
    Ends .bankStepDue s [.sit, .banks] {Reg.TSC_BANK_SPARE, Reg.TSC_KITTY_MIN} [.tsc] (fun t =>
      t.hub.banks = { s.hub.banks with copying := some s.hub.sit.next }
      ∧ t.hub.sit = { s.hub.sit with
        due := false, running := true, next := (s.hub.sit.next + 1) % 32, dueAt := s.hub.sit.dueAt + s.hub.bankPeriod }) := by
  have hbegin : s.hub.fresh.stepDue.stepBegin = s.hub.fresh.stepDue.copyBegun :=
    Hub.stepBegin_free hrun hcond hdrain hcopy hon hspare
  have hframe : Frame s.hub.fresh s.hub.fresh.stepDue.copyBegun [.sit, .banks] {Reg.TSC_BANK_SPARE, Reg.TSC_KITTY_MIN} [.tsc] :=
    (s.hub.fresh.stepDue_frame.mono (by decide) (Set.empty_subset _) (List.nil_subset _)).trans
      ((Hub.copyBegun_frame _).mono (List.Subset.refl _) (by simp) (List.nil_subset _))
  have hcells : s.hub.fresh.stepDue.copyBegun.cells = s.hub.fresh.cells := hframe.part .cells (by decide)
  have hbanks : (s.hub.fresh.cycleEnd s.hub.fresh.stepDue.copyBegun).banks = s.hub.fresh.stepDue.copyBegun.banks :=
    Hub.cycleEnd_same hcells .banks
  have hsit : (s.hub.fresh.cycleEnd s.hub.fresh.stepDue.copyBegun).sit = s.hub.fresh.stepDue.copyBegun.sit :=
    Hub.cycleEnd_same hcells .sit
  refine ends_actT (exec_bankStepDue s) (bankStepDue_cond hruns hdue) hbegin hcells (by simp) (by decide) hframe ⟨?_, ?_⟩
  · rw [hbanks, Hub.copyBegun_banks]
    rfl
  · rw [hsit, Hub.copyBegun_sit]
    rfl

theorem ends_bankStepDue_running (hruns : s.hub.sitRuns = true) (hrun : s.hub.sit.running = true)
    (hdue : s.hub.sit.dueAt + s.hub.bankPeriod ≤ s.hub.mono) :
    Ends .bankStepDue s [.sit] {Reg.TSC_KITTY_MIN} [.tsc] (fun t =>
      t.hub.sit = { s.hub.sit with due := true, dueAt := s.hub.sit.dueAt + s.hub.bankPeriod }) := by
  have hwait : s.hub.fresh.stepDue.stepBegin = s.hub.fresh.stepDue.stepWaits := Hub.stepBegin_running hrun
  have hframe : Frame s.hub.fresh s.hub.fresh.stepDue.stepWaits [.sit] {Reg.TSC_KITTY_MIN} [.tsc] :=
    (s.hub.fresh.stepDue_frame.mono (List.Subset.refl _) (Set.empty_subset _) (List.nil_subset _)).updSit List.mem_cons_self
  have hcells : s.hub.fresh.stepDue.stepWaits.cells = s.hub.fresh.cells := hframe.part .cells (by decide)
  have hsit : (s.hub.fresh.cycleEnd s.hub.fresh.stepDue.stepWaits).sit = s.hub.fresh.stepDue.stepWaits.sit :=
    Hub.cycleEnd_same hcells .sit
  refine ends_actT (exec_bankStepDue s) (bankStepDue_cond hruns hdue) hwait hcells rfl (by decide) hframe ?_
  rw [hsit]
  rfl

/-! ### The coverage cycle (R478, R484) -/

theorem exec_coverageLate (s : State) : exec .coverageLate s =
    act s (s.hub.sitRuns && !s.hub.sit.late && decide (s.hub.sit.start + s.hub.coverLimit ≤ s.hub.mono)) fun h =>
      ((h.updSit fun x => { x with late := true }).fault .sit 4).attn .sit 1 := rfl

theorem ends_coverageLate (hruns : s.hub.sitRuns = true) (hlate : s.hub.sit.late = false)
    (hlimit : s.hub.sit.start + s.hub.coverLimit ≤ s.hub.mono) :
    Ends .coverageLate s [.sit, .pins] {Reg.SIT_FAULTN_CNT} [.sit] (fun t =>
      t.hub.sit = { s.hub.sit with late := true } ∧ bit (t.hub.hdr .sit).sticky 4 = true ∧ t.hub.raw .sit 1 = true) := by
  have hmarked : Frame s.hub.fresh (s.hub.fresh.updSit fun x => { x with late := true }) [.sit, .pins] {Reg.SIT_FAULTN_CNT} [.sit] :=
    (Frame.refl _).updSit (by decide)
  refine ends_act (exec_coverageLate s) (by simp [hruns, hlate, hlimit])
    ((hmarked.fault (by decide) (by decide) rfl (by decide)).attn (by decide))
    ⟨?_, ?_, settle_raw_attn _ _ (by decide) (by decide)⟩
  · rw [settle_sit]
    exact (Hub.fault_frame _ _ _).part .sit (by decide)
  · rw [settle_sticky, Hub.attn_sticky]
    exact Hub.fault_sticky_self _ _ (by decide)

/-- The coverage cycle starts over. -/
def Hub.coverRestarted (h : Hub) : Hub :=
  (h.wrF Reg.SIT_COVER_STAT 13 8 0).updSit fun x => { x with start := h.mono, late := false, tested := [] }

theorem Hub.coverRestarted_frame (h : Hub) : Frame h h.coverRestarted [.sit] {Reg.SIT_COVER_STAT} [] :=
  ((Frame.refl h).wrF (Set.mem_singleton _)).updSit List.mem_cons_self

theorem Hub.coverRestarted_step (h : Hub) : h.coverRestarted.sitStep = 0 := by
  rw [Hub.coverRestarted, Hub.sitStep, Hub.rdF, Hub.updSit_rd, Hub.wrF, Hub.rd_wr_self]
  exact fld_setFld _ _ _ _ (by decide)

theorem exec_coverRestart (s : State) : exec .coverRestart s = mbxAct s .sit 0x11 fun h =>
    done h.coverRestarted (mbxOk [w32 h.sitStep]) := rfl

theorem ends_coverRestart (hop : s.hub.opRunning .sit 0x11 = true) :
    Ends .coverRestart s [.sit] {Reg.SIT_COVER_STAT} [.sit] (fun t =>
      t.hub.sitStep = 0 ∧ t.hub.sit = { s.hub.sit with start := s.hub.mono, late := false, tested := [] }
      ∧ (t.hub.mbx .sit).result = some (mbxOk [w32 s.hub.sitStep])) := by
  have hframe := s.hub.fresh.coverRestarted_frame
  have hsit : (s.hub.fresh.coverRestarted.opResult .sit 0x11 (mbxOk [w32 s.hub.sitStep])).sit = s.hub.fresh.coverRestarted.sit :=
    (Hub.opResult_frame _ _ _ _).part .sit List.not_mem_nil
  refine ends_mbxDone (k := s.hub.fresh.coverRestarted) (r := mbxOk [w32 s.hub.sitStep]) (exec_coverRestart s) hop rfl rfl
    (hframe.mono (List.Subset.refl _) subset_rfl (List.nil_subset _)) List.mem_cons_self ⟨?_, ?_, ?_⟩
  · rw [Hub.sitStep, settle_rdF, Hub.rdF, Hub.opResult_rd]
    exact s.hub.fresh.coverRestarted_step
  · rw [settle_sit, hsit]
    rfl
  · exact settle_opResult s.hub ((hframe.opRunning (by decide) List.not_mem_nil _).trans hop)

end Sys2Proof.Machine
end


section
/-! SUPPORT. The ledger and the in-service test together. -/

namespace Sys2Proof.Machine

/-- Settles O39: each form's effect, framed and run to the end of the cycle. -/
theorem ledgerAndServiceTest : Obligations.LedgerAndServiceTest := by
  refine ⟨fun _ => ends_ledgerCheckNow_equal, fun _ _ _ => ends_ledgerCheckNow_unequal, fun _ => ends_ledgerCheckNow_void,
    fun _ => ends_bankStepDue_free, fun _ => ends_bankStepDue_running, fun _ => ends_coverageLate, fun _ _ _ => ends_sitTestRun_pass,
    fun _ _ _ => ends_sitTestRun_laneFail, fun _ _ _ _ => ends_sitTestRun_take, fun _ _ _ => ends_sitTestRun_kat, ?testNow, ?testNowRuns,
    fun _ _ _ _ _ => runs_sitTestRun, ?testNowLate, fun _ => ends_coverRestart⟩
  case testNow =>
    intro s i n hop hruns hi htarget hinst hhere hon hoffers hch
    have hasked : s.hub.fresh.TestAsked i n := ⟨htarget, hinst, hhere, hon, hruns, hoffers⟩
    exact ⟨ends_testNow_pass hop hi hasked hch, ends_testNow_fail hop hi hasked hch⟩
  case testNowRuns =>
    intro s i n e k hop hruns hi0 hi1 htarget hinst hhere hon hoffers hch
    exact runs_testNow hop hi0 hi1 ⟨htarget, hinst, hhere, hon, hruns, hoffers⟩ hch
  case testNowLate =>
    intro s i n hop hruns hi0 hi1 htarget hinst hhere hon hoffers hlate
    exact ends_testNow_late hop hi0 hi1 ⟨htarget, hinst, hhere, hon, hruns, hoffers⟩ hlate

end Sys2Proof.Machine
end

section
/-! SUPPORT. PXB's paging queue, and a victim's write-back that the ROOT issues (R206, R211, R212, R374). -/

namespace Sys2Proof.Machine

variable {h k : Hub} {ps : List Part} {rs : Set Nat} {bs : List Block} {s : Nat}

/-! ### PXB's paging queue (R211, R374) -/

/-- The hub with another paging queue. -/
def Hub.withPageq (h : Hub) (l : List PageReq) : Hub := { h with pageq := l }

/-- A read at the head of the queue is issued under the lowest free tag. -/
theorem Hub.pageServe_read {r : PageReq} {l : List PageReq} {t : Nat} (hq : h.pageq = r :: l) (hup : h.hostUp = true)
    (hread : r.image = none) (htag : h.freeTag = some t) (hroom : h.pageTagsUsed < h.pageTags) (n : Nat) :
    h.pageServe (n + 1) = (((h.withPageq l).holdTag t (.page r)).emit (.tlp (.memRd t r.addr 256 15 15))).pageServe n := by
  rw [Hub.pageServe, hq]
  simp [Hub.withPageq, hup, hread, htag, hroom]

/-- A write at the head of the queue is posted and answered. -/
theorem Hub.pageServe_write {r : PageReq} {l : List PageReq} {b : List Byte} (hq : h.pageq = r :: l) (hup : h.hostUp = true)
    (hwrite : r.image = some b) (n : Nat) :
    h.pageServe (n + 1) = (((h.withPageq l).pageWrite r.addr b).pageAnswer r 0 []).pageServe n := by
  rw [Hub.pageServe, hq]
  simp [Hub.withPageq, hup, hwrite]

theorem Frame.withPageq {l : List PageReq} (a : Frame h k ps rs bs) (hp : Part.pageq ∈ ps) : Frame h (k.withPageq l) ps rs bs :=
  a.upd rfl rfl rfl fun p hp' => by cases p <;> first | exact absurd hp hp' | rfl

theorem Frame.pageWrite {x : Nat} {l : List Byte} (a : Frame h k ps rs bs) : Frame h (k.pageWrite x l) ps rs bs := a.emit.ite a.emit.emit

/-! ### The end of a write-back (R212) -/

theorem Frame.recDrop {flow : Nat} (a : Frame h k ps rs bs) (hp : Part.mir ∈ ps) (hr : Reg.MIR_REC_USED ∈ rs) :
    Frame h (k.recDrop flow) ps rs bs := by
  have hnamed : Frame h (if k.mir.noRec.contains flow then
      { k with mir := { k.mir with noRec := k.mir.noRec.filter fun x => x ≠ flow } } else k) ps rs bs := (a.withMir hp).ite a
  exact ((hnamed.withMir hp).wr hr).ite hnamed

theorem Hub.recDrop_of_unknown {flow : Nat} (hrec : h.mir.recs = []) (hno : h.mir.noRec = []) : h.recDrop flow = h := by
  simp [Hub.recDrop, hrec, hno, Tab.find]

theorem Frame.freeSlotAt (a : Frame h k ps rs bs) (hc : Part.ctxs ∈ ps) (hp : Part.mir ∈ ps) (hr : Reg.MIR_REC_USED ∈ rs) :
    Frame h (k.freeSlotAt s) ps rs bs := (a.recDrop hp hr).setCtx hc

/-- A victim's write-back that is acknowledged. -/
theorem Frame.wbEnd_victim {w : WriteBack} (a : Frame h k ps rs bs) (hw : w.cause = .victim) (hg : Part.paging ∈ ps) (hc : Part.ctxs ∈ ps)
    (hp : Part.mir ∈ ps) (ho : Reg.FCM_PAGE_OUT ∈ rs) (hr : Reg.MIR_REC_USED ∈ rs) : Frame h (k.wbEnd w true) ps rs bs := by
  have hout := (a.updPaging (f := fun p => { p with wbs := p.wbs.filter fun (x : WriteBack) => x.req ≠ w.req }) hg).inc (n := 1) ho
  unfold Hub.wbEnd
  rw [hw]
  dsimp only
  rw [if_pos rfl]
  split
  · exact hout.freeSlotAt hc hp hr
  · exact hout

/-! ### A write-back behind a read that waits for a tag -/

/-- In a ROOT whose host is up, a page read waits in PXB's queue though tag `t` is free. -/
structure Hub.ReadWaits (h : Hub) (r : PageReq) (t : Nat) : Prop where
  root : h.role = .root
  host : h.hostUp = true
  queue : h.pageq = [r]
  read : r.image = none
  tag : h.freeTag = some t
  room : h.pageTagsUsed < h.pageTags

/-- What decides whether PXB serves its queue. -/
theorem Frame.serves (a : Frame h k ps ∅ bs) (ht : Part.tags ∉ ps) : k.hostUp = h.hostUp ∧ k.freeTag = h.freeTag
    ∧ k.pageTagsUsed = h.pageTagsUsed ∧ k.pageTags = h.pageTags ∧ ∀ x, k.inAperture x = h.inAperture x := by
  have htags : k.tags = h.tags := a.part .tags ht
  have hreg (x : Nat) : k.rd x = h.rd x := a.reg x id
  simp only [Hub.hostUp, Hub.freeTag, Hub.pageTagsUsed, Hub.pageTags, Hub.inAperture, Hub.rdB, Hub.rdF, htags, hreg, implies_true, and_self]

theorem Frame.readWaits {r : PageReq} {t : Nat} (a : Frame h k ps ∅ bs) (hs : Part.straps ∉ ps) (hq : Part.pageq ∉ ps) (ht : Part.tags ∉ ps)
    (hw : h.ReadWaits r t) : k.ReadWaits r t := by
  obtain ⟨hhost, htag, hused, htags, -⟩ := a.serves ht
  have hstraps : k.straps = h.straps := a.part .straps hs
  exact ⟨(congrArg Straps.role hstraps).trans hw.root, hhost.trans hw.host, Eq.trans (a.part .pageq hq) hw.queue, hw.read,
    htag.trans hw.tag, by rw [hused, htags]; exact hw.room⟩

theorem Frame.holdTag {t : Nat} {u : TagUse} (a : Frame h k ps rs bs) (ht : Part.tags ∈ ps) (hx : Part.pxb ∈ ps) :
    Frame h (k.holdTag t u) ps rs bs :=
  a.upd rfl rfl rfl fun p hp => by cases p <;> first | exact absurd ht hp | exact absurd hx hp | rfl

/-- The write-back of a victim that takes the next REQ_ID. -/
def Hub.nextWb (h : Hub) (flow gen : Nat) : WriteBack := ⟨h.paging.nextReq, flow, gen, .victim, h.mono⟩

/-- The hub as it submits that write-back to PXB. -/
def Hub.wbSubmitted (h : Hub) (flow gen : Nat) : Hub :=
  h.takeReq.1.updPaging fun p => { p with wbs := p.wbs ++ [h.nextWb flow gen] }

theorem Hub.wbSubmitted_frame (flow gen : Nat) : Frame h (h.wbSubmitted flow gen) [.paging] ∅ [] :=
  ((Frame.refl h).updPaging (f := fun p => { p with nextReq := (p.nextReq + 1) % 65536 }) (by decide)).updPaging (by decide)

/-- The hub once PXB has issued the read under its tag; the write-back is alone in the queue. -/
def Hub.readIssued (h : Hub) (r : PageReq) (t : Nat) (w : PageReq) : Hub :=
  ((h.withPageq [w]).holdTag t (.page r)).emit (.tlp (.memRd t r.addr 256 15 15))

theorem Hub.readIssued_frame (r : PageReq) (t : Nat) (w : PageReq) : Frame h (h.readIssued r t w) [.pageq, .tags, .pxb] ∅ [] :=
  (((Frame.refl h).withPageq (by decide)).holdTag (by decide) (by decide)).emit

theorem Hub.readIssued_tagAt (r : PageReq) (t : Nat) (w : PageReq) :
    (h.readIssued r t w).pxb.tagAt = Tab.put h.pxb.tagAt t h.mono := rfl

/-- PXB serves its queue in order: the read goes first, and takes its tag. -/
theorem Hub.pageSubmit_behind_read {r w : PageReq} {t : Nat} {im : List Byte} (hw : h.ReadWaits r t) (hin : h.inAperture w.addr = true)
    (hwrite : w.image = some im) :
    h.pageSubmit w = (((h.readIssued r t w).withPageq []).pageWrite w.addr im).pageAnswer w 0 [] := by
  obtain ⟨-, hhost, hqueue, hread, htag, hroom⟩ := hw
  have hqueued : Frame h (h.withPageq [r, w]) [.pageq] ∅ [] := (Frame.refl h).withPageq (by decide)
  have hissued := h.readIssued_frame r t w
  obtain ⟨hhost', htag', hused', htags', -⟩ := hqueued.serves (by decide)
  have hup : (h.readIssued r t w).hostUp = true := by
    unfold Hub.hostUp Hub.rdB at hhost ⊢
    rw [hissued.reg _ id, hhost]
  have hsub : h.pageSubmit w = (h.withPageq [r, w]).pageServe (1 + 1) := by
    rw [Hub.pageSubmit, if_pos hin, hqueue]
    rfl
  rw [hsub, Hub.pageServe_read (h := h.withPageq [r, w]) rfl (hhost'.trans hhost) hread (htag'.trans htag)
    (by rw [hused', htags']; exact hroom) 1]
  exact Hub.pageServe_write (h := h.readIssued r t w) (r := w) rfl hup hwrite 0

/-- A write-back that the ROOT itself has issued is acknowledged at once. -/
theorem Hub.pageAnswer_own {w : PageReq} {b : WriteBack} (hown : w.hub = none) (hwrite : w.image.isSome = true)
    (hfind : h.paging.wbs = [b]) (hreq : b.req = w.req) : h.pageAnswer w 0 [] = h.wbEnd b true := by
  unfold Hub.pageAnswer Hub.wbAck
  rw [hown, hfind]
  simp [hwrite, hreq]

/-- A victim's write-back behind such a read: the read's tag counts its time from now, and no frame leaves a foyer. -/
theorem Hub.writeBack_behind_read {r : PageReq} {t flow gen : Nat} {im : List Byte} (hw : h.ReadWaits r t)
    (hin : h.inAperture (h.entryAddr flow) = true) (hnone : h.paging.wbs = []) :
    (h.writeBack flow gen .victim im).pxb.tagAt = Tab.put h.pxb.tagAt t h.mono ∧ (h.writeBack flow gen .victim im).foyers = h.foyers := by
  have hasked := h.wbSubmitted_frame flow gen
  obtain ⟨-, -, -, -, haper⟩ := hasked.serves (by decide)
  generalize hw' : ({ hub := none, req := h.paging.nextReq, flow := flow, addr := h.entryAddr flow, image := some im } : PageReq) = w
  have hsub : h.writeBack flow gen .victim im = (h.wbSubmitted flow gen).pageSubmit w := by
    rw [← hw']
    exact if_pos hw.root
  have hwbs : (h.wbSubmitted flow gen).paging.wbs = [h.nextWb flow gen] := by
    simp [Hub.wbSubmitted, Hub.takeReq, hnone]
  rw [hsub, Hub.pageSubmit_behind_read (hasked.readWaits (by decide) (by decide) (by decide) hw) ((haper _).trans (by rw [← hw']; exact hin))
    (im := im) (by rw [← hw'])]
  generalize h.wbSubmitted flow gen = j at hasked hwbs
  have hissued := j.readIssued_frame r t w
  have hposted : Frame (j.readIssued r t w) (((j.readIssued r t w).withPageq []).pageWrite w.addr im) [.pageq] ∅ [] :=
    Frame.pageWrite ((Frame.refl _).withPageq (by decide))
  have hpaging : (((j.readIssued r t w).withPageq []).pageWrite w.addr im).paging = j.paging :=
    (hposted.part .paging (by decide)).trans (hissued.part .paging (by decide))
  rw [Hub.pageAnswer_own (b := h.nextWb flow gen) (by rw [← hw']) (by rw [← hw']; rfl) (by rw [hpaging, hwbs]) (by rw [← hw']; rfl)]
  have hended := Frame.wbEnd_victim (ps := [.pageq, .paging, .ctxs, .mir]) (rs := {Reg.FCM_PAGE_OUT, Reg.MIR_REC_USED}) (bs := [])
    (hposted.mono (by decide) (Set.empty_subset _) (List.Subset.refl _)) (w := h.nextWb flow gen) rfl (by decide) (by decide) (by decide)
    (.inl rfl) (.inr rfl)
  have hpxb := hended.part .pxb (by decide)
  have htime : j.time = h.time := hasked.part .time (by decide)
  have hold : j.pxb = h.pxb := hasked.part .pxb (by decide)
  constructor
  · rw [show Hub.pxb _ = _ from hpxb, Hub.readIssued_tagAt, hold, Hub.mono, htime, Hub.mono]
  · exact (hended.part .foyers (by decide)).trans ((hissued.part .foyers (by decide)).trans (hasked.part .foyers (by decide)))

end Sys2Proof.Machine
end

section
/-! SUPPORT. FLOW_CREATE on a victim's slot (R196, R206), and the hub whose slots are all taken. -/

namespace Sys2Proof.Machine

variable {h k : Hub} {ps : List Part} {rs : Set Nat} {bs : List Block} {s : Nat}

/-! ### FLOW_CREATE on a victim's slot (R196, R206) -/

theorem Hub.noFoyer_congr (hf : k.foyers = h.foyers) (flow : Nat) : k.noFoyer flow = h.noFoyer flow := by
  unfold Hub.noFoyer Hub.foyer
  rw [hf]

/-- Where no frame of the flow waits in a foyer, none leaves one. -/
theorem Hub.leaveFoyers_of_noFoyer (hn : h.noFoyer (h.ctx s).handle = true) : h.leaveFoyers s = h := by
  refine List.foldlRecOn (motive := (· = h)) _ _ rfl fun k hk p hp => ?_
  subst hk
  have hnone := List.all_eq_true.mp hn p hp
  rw [List.all_eq_true] at hnone
  rw [List.filter_eq_nil_iff.mpr fun f hf => by simpa using hnone f hf]
  rfl

theorem Frame.payOwed (a : Frame h k ps rs bs) (hc : Part.ctxs ∈ ps) (hg : Part.paging ∈ ps) : Frame h (k.payOwed s) ps rs bs := by
  unfold Hub.payOwed
  dsimp only
  split
  · exact (a.updCtx hc).updPaging (f := fun p => { p with owed := _ }) hg
  · exact a

theorem Frame.ctxNote {op : Nat} (a : Frame h k ps rs bs) (hp : Part.mir ∈ ps) : Frame h (k.ctxNote op s) ps rs bs := (a.withMir hp).ite a

/-- A victim's slot takes a new context, and the victim's own is written back. -/
def Hub.swapVictim (h : Hub) (s : Nat) (c : Ctx) : Hub :=
  let v := h.ctx s
  ((h.recDrop v.handle).setCtx s { c with state := .resident, lrs := h.mono, shapeOn := c.shaped }).writeBack v.handle
    ((v.gen + 1) % 2 ^ 32) .victim (v.image ((v.gen + 1) % 2 ^ 32))

/-- What follows for a flow whose context has just been created in a slot: the counts that it was owed, the ends of its page-in, its
foyer frames and the pair's record. -/
def Hub.flowBegun (h : Hub) (flow s : Nat) : Hub :=
  (((h.payOwed s).updPaging fun p => { p with
    lost := p.lost.filter fun x => x ≠ flow
    waits := p.waits.filter fun x => x.1 ≠ flow }).leaveFoyers s).ctxNote 0 s

theorem Hub.flowCreateOn_victim {flow : Nat} {w : List Word} {c : Ctx} (hc : c = ({ handle := flow } : Ctx).withPolicy w)
    (hflow : flow < 0xFFC000) (hmiss : h.lookup flow = .miss) (hpin : (bit (w.getD 0 0) 29 || decide (c.tc = 7)) = false)
    (hslot : (if h.storeOn && !h.pathDown then h.slotFor else h.freeSlot) = some s) (hres : (h.ctx s).state = .resident) :
    h.flowCreateOn flow w = done ((h.swapVictim s c).flowBegun flow s) (mbxOk [w32 s]) := by
  subst hc
  unfold Hub.flowCreateOn
  dsimp only
  rw [if_neg (by omega), if_neg (by simp [hmiss]), hpin, if_neg (by simp), hslot]
  simp only [hres]
  rfl

/-- A request by handle. -/
theorem Hub.flowCreate_handle {flow : Nat} (hflow : flow = (h.arg .fcm 0).toNat) (hname : bit (h.arg .fcm 1) 31 = false) :
    h.flowCreate = h.flowCreateOn flow h.template := by
  rw [Hub.flowCreate, hname, hflow]
  rfl

theorem Hub.flowBegun_frame (flow : Nat) (hn : ∀ x, h.noFoyer x = true) : Frame h (h.flowBegun flow s) [.ctxs, .paging, .mir] ∅ [] := by
  have hpaid := (((Frame.refl h).payOwed (ps := [.ctxs, .paging, .mir]) (rs := ∅) (bs := []) (s := s) (by decide) (by decide)).updPaging
    (f := fun p => { p with lost := p.lost.filter fun x => x ≠ flow, waits := p.waits.filter fun x => x.1 ≠ flow }) (by decide))
  unfold Hub.flowBegun
  rw [Hub.leaveFoyers_of_noFoyer ((Hub.noFoyer_congr (hpaid.part .foyers (by decide)) _).trans (hn _))]
  exact hpaid.ctxNote (by decide)

/-! ### A hub whose slots are all taken -/

theorem gaps_full (n next m : Nat) : gaps (next + n) (List.range' next n) next m = [] := by
  induction n generalizing next m with
  | zero => simp [gaps]
  | succ n ih =>
    rw [List.range'_succ, gaps]
    simpa [Nat.add_assoc, Nat.add_comm 1] using ih (next + 1) m

/-- The context of flow 69 + s in slot s. -/
def slotCtx (s : Nat) : Ctx := { state := .resident, handle := 69 + s }

/-- All slots that flows can have, each with its flow. -/
def fullSlots : Tab Ctx := (List.range' 9 8183).map fun s => (s, slotCtx s)

theorem fullSlots_eq : fullSlots = (9, slotCtx 9) :: (List.range' 10 8182).map fun s => (s, slotCtx s) := by
  rw [fullSlots, List.range'_succ, List.map_cons]

section
variable (hfull : h.ctxs = fullSlots)
include hfull

theorem Hub.freeSlot_full : h.freeSlot = none := by
  have htaken : (h.ctxs.filter fun e => 9 ≤ e.1 ∧ e.2.state ≠ .free).map (·.1) = List.range' 9 8183 := by
    rw [hfull, fullSlots, List.filter_eq_self.mpr]
    · rw [List.map_map]
      exact List.map_id _
    · rw [List.forall_mem_map]
      intro s hs
      simpa [slotCtx] using (List.mem_range'_1.mp hs).1
  rw [Hub.freeSlot, htaken, gaps_full 8183 9 1]
  rfl

theorem Hub.lookup_full {flow : Nat} (hflow : flow < 78) : h.lookup flow = .miss := by
  rw [Hub.lookup, hfull, List.find?_eq_none.mpr]
  rw [fullSlots, List.forall_mem_map]
  intro s hs
  have := List.mem_range'_1.mp hs
  simp [slotCtx]
  omega

theorem Hub.ctx_full : h.ctx 9 = slotCtx 9 := by
  rw [Hub.ctx, hfull]
  rfl

/-- All flows are candidates that have been idle as long: the lowest slot is the victim. -/
theorem Hub.victim_full (hcand : h.candidate 9 = true) (hop : h.fcmOpOn 9 = false) : h.victim = some 9 := by
  rw [Hub.victim, hfull, fullSlots_eq, List.foldl_cons]
  simp only [hcand, hop]
  rw [List.foldlRecOn (motive := (· = some (0, 9)))]
  · rfl
  · rfl
  · intro b hb e he
    subst hb
    obtain ⟨s, -, rfl⟩ := List.mem_map.mp he
    simp [slotCtx]

end

end Sys2Proof.Machine
end

section
/-! SUPPORT. The two refutations of the family: each is a hub that meets a clause's conditions and that its command takes elsewhere. -/

namespace Sys2Proof.Machine

/-! ### A page read that waits in PXB while FLOW_CREATE takes a victim's slot (R196, R206, R211, R362)

A write that raises FCM_PAGE_TAGS makes room for a waiting read, which PXB issues when the next request joins its queue. FLOW_CREATE in a
ROOT whose slots are all taken submits its victim's write-back, and so the read is issued: PXB notes when its tag was taken, and the
frame of FLOW_CREATE does not list PXB. -/

/-- A read of hub 1 that waits for a tag. -/
def waitingRead : PageReq := { hub := some 1, req := 0, flow := 5, addr := 0, image := none }

/-- A ROOT with its store and its host that runs FLOW_CREATE of flow 77 while all slots are taken and `waitingRead` waits in PXB. -/
def crowdedRoot : State :=
  let h := (((Hub.reset {}).wr Reg.PX_STAT 0x81).wr Reg.FCM_BS_CFG 1).wr Reg.FCM_APER_LIMIT_LO 0xFFFFFF
  let h := h.updMbx .fcm fun m => { m with busy := true, op := 0x10, latched := [77] }
  { hub := { h with ctxs := fullSlots, pageq := [waitingRead] } }

theorem crowdedRoot_readWaits : crowdedRoot.hub.fresh.ReadWaits waitingRead 0 := by
  constructor <;> decide +kernel

theorem crowdedRoot_slot : (if crowdedRoot.hub.fresh.storeOn && !crowdedRoot.hub.fresh.pathDown then crowdedRoot.hub.fresh.slotFor
    else crowdedRoot.hub.fresh.freeSlot) = some 9 := by
  have hon : (crowdedRoot.hub.fresh.storeOn && !crowdedRoot.hub.fresh.pathDown) = true := by decide +kernel
  have hstore : crowdedRoot.hub.fresh.storeOn = true := by decide +kernel
  have hvictim : crowdedRoot.hub.fresh.victim = some 9 := Hub.victim_full rfl (by decide +kernel) (by decide +kernel)
  rw [if_pos hon, Hub.slotFor, Hub.freeSlot_full rfl, hstore, hvictim]
  rfl

/-- The context of flow 77, of a template of zeros. -/
def newCtx : Ctx := ({ handle := 77 } : Ctx).withPolicy crowdedRoot.hub.fresh.template

theorem swapVictim_crowdedRoot : (crowdedRoot.hub.fresh.swapVictim 9 newCtx).pxb.tagAt = [(0, 0)]
    ∧ (crowdedRoot.hub.fresh.swapVictim 9 newCtx).foyers = [] := by
  have hctx : crowdedRoot.hub.fresh.ctx 9 = slotCtx 9 := Hub.ctx_full rfl
  rw [Hub.swapVictim, hctx, Hub.recDrop_of_unknown rfl rfl]
  generalize hc : ({ newCtx with state := .resident, lrs := crowdedRoot.hub.fresh.mono, shapeOn := newCtx.shaped } : Ctx) = c
  have hset : Frame crowdedRoot.hub.fresh (crowdedRoot.hub.fresh.setCtx 9 c) [.ctxs] ∅ [] := (Frame.refl _).setCtx (by decide)
  have hin : crowdedRoot.hub.fresh.inAperture (crowdedRoot.hub.fresh.entryAddr (slotCtx 9).handle) = true := by decide +kernel
  exact Hub.writeBack_behind_read (hset.readWaits (by decide) (by decide) (by decide) crowdedRoot_readWaits) hin rfl

theorem flowCreate_crowdedRoot : ∃ t, exec .flowCreate crowdedRoot = .next t ∧ t.hub.pxb.tagAt = [(0, 0)] := by
  obtain ⟨htag, hfoyers⟩ := swapVictim_crowdedRoot
  have hcreate := Hub.flowCreateOn_victim (h := crowdedRoot.hub.fresh) (s := 9) (flow := 77) (c := newCtx) rfl (by decide)
    (Hub.lookup_full rfl (by decide)) (by decide +kernel) crowdedRoot_slot (by rw [Hub.ctx_full rfl]; rfl)
  have hbegun := (crowdedRoot.hub.fresh.swapVictim 9 newCtx).flowBegun_frame (s := 9) 77
    fun x => by simp [Hub.noFoyer, Hub.foyer, hfoyers, Tab.get]
  have hrun : crowdedRoot.hub.fresh.runOp .fcm 0x10 Hub.flowCreate =
      ((crowdedRoot.hub.fresh.swapVictim 9 newCtx).flowBegun 77 9).opResult .fcm 0x10 (mbxOk [w32 9]) :=
    Hub.runOp_done rfl ((Hub.flowCreate_handle (by decide +kernel) (by decide +kernel)).trans hcreate)
  have hpxb : (crowdedRoot.hub.fresh.runOp .fcm 0x10 Hub.flowCreate).pxb = (crowdedRoot.hub.fresh.swapVictim 9 newCtx).pxb := by
    rw [hrun]
    exact Eq.trans ((Hub.opResult_frame _ _ _ _).part .pxb List.not_mem_nil) (hbegun.part .pxb (by decide))
  refine ⟨_, runs_actT (c := .flowCreate) (f := fun h => h.runOp .fcm 0x10 Hub.flowCreate) rfl (by decide +kernel), ?_⟩
  rw [settle_pxb, show Hub.pxb _ = _ from (Hub.tscWatch_frame _ _).part .pxb List.not_mem_nil, hpxb]
  exact htag

/-- Refutes O40: in `crowdedRoot` FLOW_CREATE gives tag 0 to the read that waits, and PXB's record of it is new. -/
theorem not_flowOperations : ¬ Obligations.FlowOperations := by
  rintro ⟨-, -, hcreate, -⟩
  obtain ⟨t, hrun, ⟨-, hframe⟩, -⟩ := hcreate crowdedRoot 77 (by decide +kernel) rfl (by decide +kernel)
  obtain ⟨u, hrun', htag⟩ := flowCreate_crowdedRoot
  obtain rfl : t = u := Host.Outcome.next.inj (hrun.symm.trans hrun')
  have hkept : t.hub.pxb = crowdedRoot.hub.pxb := hframe.part .pxb (by decide)
  rw [hkept] at htag
  exact absurd htag (by decide)

/-! ### A foyer frame whose flow is a management handle (R129, R204)

The flow register of an edge port takes any handle. For one of R129 a page-in starts as for any other, but its drops count in the
context of a link port, if they happen at one, and never in the dummy. -/

/-- A ROOT whose display input 0 has sent a frame of flow 0xFFC000, 10 ms later. -/
def strayFlowRoot : State :=
  let h := ((Hub.reset {}).wr Reg.PX_STAT 0x81).wr Reg.FCM_BS_CFG 1
  let h := (h.edgeFrame 0x0E 0xFFC000 [0]).1
  { hub := { h with time := { h.time with up := 10000000 } } }

/-- The frame, which waits in the foyer of its port for its page-in to slot 9. -/
def strayFrame : FoyFrame := { flow := 0xFFC000, fseq := 0, cells := [0], complete := true, since := 0 }

theorem foyerTimeout_strayFlowRoot :
    ∃ t, exec (.foyerTimeout 0x0E) strayFlowRoot = .next t ∧ (t.hub.ctx 9).cntFoyer = 0 :=
  ⟨_, rfl, by decide +kernel⟩

/-- Refutes O41: in `strayFlowRoot` the frame is dropped, and the dummy in slot 9 does not count it. -/
theorem not_pagingEvents : ¬ Obligations.PagingEvents := by
  rintro ⟨-, -, -, -, -, -, -, -, -, hfoyer, -⟩
  obtain ⟨t, hrun, -, -, -, hcount, -⟩ :=
    hfoyer strayFlowRoot 0x0E strayFrame 9 (by decide +kernel) (by decide +kernel) (by decide +kernel)
  obtain ⟨u, hrun', hzero⟩ := foyerTimeout_strayFlowRoot
  obtain rfl : t = u := Host.Outcome.next.inj (hrun.symm.trans hrun')
  rw [show (t.hub.ctx 9).cntFoyer = 0 from hzero] at hcount
  exact absurd hcount (by decide +kernel)

end Sys2Proof.Machine
end

section
/-! SUPPORT. What a port's gate list is read from, and the bits of TS_GCTL (R238 to R241). -/

namespace Sys2Proof.Machine

variable {h k : Hub} {ps : List Part} {rs : Set Nat} {bs : List Block} {t : Nat}

/-! ### What a list is read from (R238) -/

theorem Hub.gLen_le (h : Hub) (t : Nat) (b : Bool) : h.gLen t b ≤ 256 := by
  unfold Hub.gLen clampN
  omega

section
variable {b : Bool} (hreg : ∀ r, k.rd (gateRegAddr t b r) = h.rd (gateRegAddr t b r))
include hreg

theorem Hub.gBase_congr : k.gBase t b = h.gBase t b := congrArg₂ join64 (hreg .baseLo) (hreg .baseHi)

theorem Hub.gCycle_congr : k.gCycle t b = h.gCycle t b := congrArg (fun w => 8 * clampN 125 125000000 (fld w 26 0)) (hreg .cycle)

theorem Hub.gLen_congr : k.gLen t b = h.gLen t b := congrArg (fun w => clampN 1 256 (fld w 8 0)) (hreg .len)

theorem Hub.gEntry_congr {e : Nat} (he : e < 256) : k.gEntry t b e = h.gEntry t b e := hreg (.entry ⟨e, he⟩)

theorem Hub.gPhase_congr (now : Nat) : k.gPhase t b now = h.gPhase t b now := by
  unfold Hub.gPhase
  rw [Hub.gBase_congr hreg, Hub.gCycle_congr hreg]

variable (hbad : (k.tport t).badEntry = (h.tport t).badEntry)
include hbad

theorem Hub.gSegs_congr : k.gSegs t b = h.gSegs t b := by
  unfold Hub.gSegs
  rw [Hub.gCycle_congr hreg, Hub.gLen_congr hreg, hbad]
  congr 1
  refine List.map_congr_left fun e he => ?_
  rw [Hub.gEntry_congr hreg ((List.mem_range.mp he).trans_le (h.gLen_le t b))]

theorem Hub.gSegAt_congr (now : Nat) : k.gSegAt t b now = h.gSegAt t b now := by
  unfold Hub.gSegAt
  rw [Hub.gSegs_congr hreg hbad, Hub.gPhase_congr hreg, Hub.gCycle_congr hreg]

theorem Hub.gEntryEnd_congr (now : Nat) : k.gEntryEnd t b now = h.gEntryEnd t b now := by
  unfold Hub.gEntryEnd
  rw [Hub.gSegAt_congr hreg hbad, Hub.gPhase_congr hreg]

end

theorem Hub.switchT_congr {b : Bool} (hreg : ∀ r, k.rd (gateRegAddr t b r) = h.rd (gateRegAddr t b r)) (hnow : k.now = h.now)
    (hlo : k.rd (Reg.TS_GSW_LO t) = h.rd (Reg.TS_GSW_LO t)) (hhi : k.rd (Reg.TS_GSW_HI t) = h.rd (Reg.TS_GSW_HI t)) :
    k.switchT t b = h.switchT t b := by
  unfold Hub.switchT
  rw [Hub.gBase_congr hreg, Hub.gCycle_congr hreg, hnow, hlo, hhi]

/-- The registers of a bank lie at the end of its port's page, or in a gate page (Table 8.4). -/
theorem gateRegAddr_bounds (p : EgressNo) (b : Bool) (r : GateReg) :
    gateRegAddr p b r < 0x01122000 ∧ 0x011100B0 ≤ gateRegAddr p b r ∧ 0xB0 ≤ gateRegAddr p b r % 0x1000 ∨ 0x01140000 ≤ gateRegAddr p b r := by
  have hp : p.val < 18 := p.isLt
  have hb : bankNo b ≤ 1 := by cases b <;> decide
  cases r with
  | entry e => exact .inr (by dsimp only [gateRegAddr, Reg.TS_GATE_A, Reg.TS_GATE_B]; split <;> omega)
  | baseLo => exact .inl (by dsimp only [gateRegAddr, Reg.TS_GBASE_LO]; omega)
  | baseHi => exact .inl (by dsimp only [gateRegAddr, Reg.TS_GBASE_HI]; omega)
  | cycle => exact .inl (by dsimp only [gateRegAddr, Reg.TS_GCYCLE]; omega)
  | len => exact .inl (by dsimp only [gateRegAddr, Reg.TS_GLEN]; omega)

/-- They lie apart from those that command a list and those that show it. -/
theorem gateRegAddr_apart (p : EgressNo) (b : Bool) (r : GateReg) (q : EgressNo) :
    gateRegAddr p b r ≠ Reg.TS_GCTL q ∧ gateRegAddr p b r ≠ Reg.TS_GSTAT q ∧ gateRegAddr p b r ≠ Reg.TSS_LENT_GAP := by
  have hq : q.val < 18 := q.isLt
  have hbounds := gateRegAddr_bounds p b r
  unfold Reg.TS_GCTL Reg.TS_GSTAT Reg.TSS_LENT_GAP
  omega

/-! ### The bits of TS_GCTL -/

theorem Hub.gctl_wrB (h : Hub) (t : Nat) {i : Nat} (hi : i < 32) (v : Bool) (j : Nat) :
    (h.wrB (Reg.TS_GCTL t) i v).gctl t j = if j = i then v else h.gctl t j := by
  rw [Hub.gctl, Hub.rdB, Hub.rd_wrB, if_pos rfl, bit_setBit _ _ _ _ hi]
  rfl

theorem Frame.gctl (a : Frame h k ps rs bs) (hr : Reg.TS_GCTL t ∉ rs) (j : Nat) : k.gctl t j = h.gctl t j := by
  rw [Hub.gctl, Hub.rdB, a.reg _ hr]
  rfl

theorem settle_gctl (o n : Hub) (t j : Nat) : (settle o n).gctl t j = n.gctl t j := settle_rdB o n _ j

theorem settle_tport (o n : Hub) (t : Nat) : (settle o n).tport t = n.tport t := by
  unfold Hub.tport
  rw [settle_tports]

theorem Frame.tport (a : Frame h k ps rs bs) (hp : Part.tports ∉ ps) (t : Nat) : k.tport t = h.tport t := by
  have htports : k.tports = h.tports := a.part .tports hp
  unfold Hub.tport
  rw [htports]

@[simp] theorem Hub.tport_updTport_self (h : Hub) (t : Nat) (f : TssPort → TssPort) : (h.updTport t f).tport t = f (h.tport t) :=
  (h.tport_updTport t t f).trans (if_pos rfl)

/-- What a port's list is read from stands apart from TS_GCTL. -/
theorem Frame.gateRegs {p : EgressNo} (a : Frame h k ps {Reg.TS_GCTL p} bs) (b : Bool) (r : GateReg) :
    k.rd (gateRegAddr p b r) = h.rd (gateRegAddr p b r) := a.reg _ (gateRegAddr_apart p b r p).1

/-! ### The pending switch (R239) -/

theorem Frame.setSwitch {w : Option GateSwitch} (a : Frame h k ps rs bs) (hp : Part.tports ∈ ps) (hr : Reg.TS_GCTL t ∈ rs) :
    Frame h (k.setSwitch t w) ps rs bs := (a.updTport hp).wrB hr

theorem Hub.setSwitch_tport (h : Hub) (t : Nat) (w : Option GateSwitch) : (h.setSwitch t w).tport t = { h.tport t with switch := w } :=
  h.tport_updTport_self t fun p => { p with switch := w }

theorem Hub.setSwitch_gctl (h : Hub) (t : Nat) (w : Option GateSwitch) (j : Nat) :
    (h.setSwitch t w).gctl t j = if j = 6 then w.isSome else h.gctl t j :=
  Hub.gctl_wrB (h.updTport t fun p => { p with switch := w }) t (by decide) w.isSome j

theorem Hub.setSwitch_raw (h : Hub) (t : Nat) (w : Option GateSwitch) (b : Block) (i : Nat) : (h.setSwitch t w).raw b i = h.raw b i := rfl

theorem Frame.switchLate (a : Frame h k ps rs bs) (hb : Block.tss ∈ bs) : Frame h (k.switchLate t) ps rs bs := (a.attn hb).ite a

theorem Hub.switchLate_gctl (h : Hub) (t j : Nat) : (h.switchLate t).gctl t j = h.gctl t j :=
  ((Frame.refl h).switchLate (ps := []) (rs := ∅) (bs := [.tss]) List.mem_cons_self).gctl (Set.notMem_empty _) j

/-- A switch time that has passed is told. -/
theorem Hub.switchLate_raw {h : Hub} (hlate : join64 (h.rd (Reg.TS_GSW_LO t)) (h.rd (Reg.TS_GSW_HI t)) < h.now) :
    (h.switchLate t).raw .tss 2 = true := by
  rw [Hub.switchLate, if_pos hlate]
  exact Hub.raw_attn_self _ _ (by decide)

/-! ### Commands that only TSS hears (Table 9.4) -/

theorem Hub.gateNote_of_unpaired (hpair : h.paired = false) (t off : Nat) (v : Word) : h.gateNote t off v = h := by
  unfold Hub.gateNote
  split
  · rfl
  · rw [hpair]
    rfl

/-- Outside a pair a write of a gate register is TSS's own affair. -/
theorem Frame.gateNote (a : Frame h k ps rs bs) (hpair : h.paired = false) (hr : Reg.MIR_STAT ∉ rs) (t off : Nat) (v : Word) :
    k.gateNote t off v = k := Hub.gateNote_of_unpaired ((Hub.paired_congr (a.reg _ hr)).trans hpair) t off v

end Sys2Proof.Machine
end

section
/-! SUPPORT. The commands of the time gates (R238 to R241), and the clauses of TimeGates. -/

namespace Sys2Proof.Machine

variable {h k : Hub} {ps : List Part} {rs : Set Nat} {bs : List Block} {t : Nat} {s : State} {p : EgressNo}

/-! ### A write of TS_GCTL (R239, R241) -/

/-- GATE_EN and NEXT_BANK of a write of TS_GCTL are stored. -/
def Hub.gctlStored (h : Hub) (t : Nat) (v : Word) : Hub := (h.wrB (Reg.TS_GCTL t) 0 (bit v 0)).wrB (Reg.TS_GCTL t) 3 (bit v 3)

theorem Frame.gctlStored {v : Word} (a : Frame h k ps rs bs) (hr : Reg.TS_GCTL t ∈ rs) : Frame h (k.gctlStored t v) ps rs bs :=
  (a.wrB hr).wrB hr

theorem Hub.gctlStored_frame (h : Hub) (t : Nat) (v : Word) : Frame h (h.gctlStored t v) [] {Reg.TS_GCTL t} [] :=
  (Frame.refl h).gctlStored rfl

theorem Hub.gctlStored_gctl (h : Hub) (t : Nat) (v : Word) (j : Nat) :
    (h.gctlStored t v).gctl t j = if j = 3 then bit v 3 else if j = 0 then bit v 0 else h.gctl t j := by
  rw [Hub.gctlStored, Hub.gctl_wrB _ _ (by decide), Hub.gctl_wrB _ _ (by decide)]

theorem Hub.gctlStored_listOn (h : Hub) (t : Nat) (v : Word) : (h.gctlStored t v).listOn t = h.listOn t := h.gctlStored_gctl t v 5

theorem Hub.gctlStored_gActive (h : Hub) (t : Nat) (v : Word) : (h.gctlStored t v).gActive t = h.gActive t := h.gctlStored_gctl t v 4

/-- GATE_EN, once stored: a list in force without it runs to its entry's end, and a pending switch without a list is cleared. -/
def Hub.gateEnActs (h : Hub) (t : Nat) (en : Bool) : Hub :=
  if en then h
  else if h.listOn t then h.setSwitch t (some (.toNone (h.gEntryEnd t (h.gActive t) h.now)))
  else h.setSwitch t none

theorem Hub.gateEnActs_off (h : Hub) (t : Nat) : h.gateEnActs t false =
    h.setSwitch t (if h.listOn t = true then some (.toNone (h.gEntryEnd t (h.gActive t) h.now)) else none) :=
  (apply_ite (h.setSwitch t) _ _ _).symm

theorem Hub.writeGctl_eq (h : Hub) (t : Nat) (v : Word) : h.writeGctl t v =
    let j := (h.gctlStored t v).gateEnActs t (bit v 0)
    if bit v 2 then (if bit v 0 then j.setSwitch t none else j)
    else if bit v 1 then
      if !bit v 0 || (j.listOn t && j.gActive t == bit v 3) then j.attn .tss 3
      else (j.switchLate t).setSwitch t (some (.toBank (bit v 3) (j.switchT t (bit v 3))))
    else j := rfl

theorem Hub.writeGctl_refused {v : Word} (hen : bit v 0 = true) (harm : bit v 1 = true) (hcan : bit v 2 = false)
    (hon : h.listOn t = true ∧ h.gActive t = bit v 3) : h.writeGctl t v = (h.gctlStored t v).attn .tss 3 := by
  simp [Hub.writeGctl_eq, Hub.gateEnActs, hen, harm, hcan, Hub.gctlStored_listOn, Hub.gctlStored_gActive, hon]

theorem Hub.writeGctl_armed {v : Word} (hen : bit v 0 = true) (harm : bit v 1 = true) (hcan : bit v 2 = false)
    (hoff : ¬(h.listOn t = true ∧ h.gActive t = bit v 3)) :
    h.writeGctl t v = ((h.gctlStored t v).switchLate t).setSwitch t (some (.toBank (bit v 3) ((h.gctlStored t v).switchT t (bit v 3)))) := by
  simp [Hub.writeGctl_eq, Hub.gateEnActs, hen, harm, hcan, Hub.gctlStored_listOn, Hub.gctlStored_gActive, hoff]

theorem Hub.writeGctl_cancel {v : Word} (hen : bit v 0 = true) (hcan : bit v 2 = true) :
    h.writeGctl t v = (h.gctlStored t v).setSwitch t none := by
  simp [Hub.writeGctl_eq, Hub.gateEnActs, hen, hcan]

theorem Hub.writeGctl_plain {v : Word} (harm : bit v 1 = false) (hcan : bit v 2 = false) :
    h.writeGctl t v = (h.gctlStored t v).gateEnActs t (bit v 0) := by
  simp [Hub.writeGctl_eq, harm, hcan]

/-! ### The words that the commands write -/

theorem bit_or (v w : Word) (i : Nat) : bit (v ||| w) i = (bit v i || bit w i) := BitVec.getLsbD_or

/-- TS_GCTL as it stands keeps GATE_EN and NEXT_BANK. -/
theorem Hub.bit_gctlHeld (h : Hub) (t i : Nat) : bit (h.gctlHeld t) i = (h.gctl t i && bit 9#32 i) := BitVec.getLsbD_and

/-- The word that GATE_ARM writes. -/
def Hub.armWord (h : Hub) (t : Nat) (b : Bool) : Word := setBit (h.gctlHeld t ||| 2#32) 3 b

/-- The word that GATE_CANCEL writes. -/
def Hub.cancelWord (h : Hub) (t : Nat) : Word := h.gctlHeld t ||| 4#32

/-- The word that GATE_EN_WRITE writes. -/
def Hub.enWord (h : Hub) (t : Nat) (on : Bool) : Word := setBit (h.gctlHeld t) 0 on

/-- The bits of TS_GCTL that the commands keep and set. -/
theorem gctl_bits : (bit 9#32 0 = true ∧ bit 9#32 1 = false ∧ bit 9#32 2 = false)
    ∧ (bit 2#32 0 = false ∧ bit 2#32 1 = true ∧ bit 2#32 2 = false) ∧ (bit 4#32 0 = false ∧ bit 4#32 2 = true) := by decide

theorem Hub.bit_armWord (h : Hub) (t : Nat) (b : Bool) :
    bit (h.armWord t b) 0 = h.gctl t 0 ∧ bit (h.armWord t b) 1 = true ∧ bit (h.armWord t b) 2 = false ∧ bit (h.armWord t b) 3 = b := by
  simp [Hub.armWord, bit_setBit, bit_or, Hub.bit_gctlHeld, gctl_bits]

theorem Hub.bit_cancelWord (h : Hub) (t : Nat) : bit (h.cancelWord t) 0 = h.gctl t 0 ∧ bit (h.cancelWord t) 2 = true := by
  simp [Hub.cancelWord, bit_or, Hub.bit_gctlHeld, gctl_bits]

theorem Hub.bit_enWord (h : Hub) (t : Nat) (on : Bool) :
    bit (h.enWord t on) 0 = on ∧ bit (h.enWord t on) 1 = false ∧ bit (h.enWord t on) 2 = false := by
  simp [Hub.enWord, bit_setBit, Hub.bit_gctlHeld, gctl_bits]

/-! ### GATE_ARM, GATE_CANCEL and GATE_EN_WRITE outside a pair -/

theorem exec_gateArm (p : EgressNo) (b : Bool) (s : State) : exec (.gateArm p b) s =
    act s (s.hub.mainUp && portPresent s.hub.straps p) fun h => h.storeGctl p (h.armWord p b) := rfl

theorem exec_gateCancel (p : EgressNo) (s : State) : exec (.gateCancel p) s =
    act s (s.hub.mainUp && portPresent s.hub.straps p) fun h => h.storeGctl p (h.cancelWord p) := rfl

theorem exec_gateEnWrite (p : EgressNo) (on : Bool) (s : State) : exec (.gateEnWrite p on) s =
    act s (s.hub.mainUp && portPresent s.hub.straps p) fun h => h.storeGctl p (h.enWord p on) := rfl

theorem MIR_STAT_ne_GCTL (t : Nat) : Reg.MIR_STAT ≠ Reg.TS_GCTL t := by
  unfold Reg.MIR_STAT Reg.TS_GCTL
  omega

/-- Outside a pair a command that writes TS_GCTL ends as the write. -/
theorem ends_storeGctl {c : Instr} {word : Hub → Word} {Q : State → Prop}
    (hexec : exec c s = act s (s.hub.mainUp && portPresent s.hub.straps p) fun h => h.storeGctl p (word h)) (hm : s.hub.mainUp = true)
    (hp : portPresent s.hub.straps p = true) (hpair : s.hub.paired = false) (hk : s.hub.fresh.writeGctl p (word s.hub.fresh) = k)
    (hf : Frame s.hub.fresh k ps {Reg.TS_GCTL p} bs) (hq : Q { s with hub := settle s.hub k }) :
    Ends c s ps {Reg.TS_GCTL p} bs Q := by
  refine ends_effect hexec (by simp [hm, hp]) ?_ hf hq
  rw [Hub.storeGctl, hk]
  exact hf.gateNote hpair (MIR_STAT_ne_GCTL p) _ _ _

theorem ends_gateArm {b : Bool} (hm : s.hub.mainUp = true) (hp : portPresent s.hub.straps p = true) (hpair : s.hub.paired = false)
    (hen : s.hub.gctl p 0 = true) :
    Ends (.gateArm p b) s [.tports] {Reg.TS_GCTL p} [.tss] (fun t =>
      t.hub.gctl p 3 = b
      ∧ ((s.hub.listOn p = true ∧ s.hub.gActive p = b) → t.hub.raw .tss 3 = true ∧ t.hub.tports = s.hub.tports)
      ∧ (¬(s.hub.listOn p = true ∧ s.hub.gActive p = b) →
        (t.hub.tport p).switch = some (.toBank b (s.hub.switchT p b)) ∧ t.hub.gctl p 6 = true
        ∧ (join64 (s.hub.rd (Reg.TS_GSW_LO p)) (s.hub.rd (Reg.TS_GSW_HI p)) < s.hub.now → t.hub.raw .tss 2 = true))) := by
  obtain ⟨h0, h1, h2, h3⟩ := s.hub.fresh.bit_armWord p b
  have hstored := s.hub.fresh.gctlStored_frame p (s.hub.fresh.armWord p b)
  have hbank := s.hub.fresh.gctlStored_gctl p (s.hub.fresh.armWord p b) 3
  rw [if_pos rfl, h3] at hbank
  by_cases hon : s.hub.listOn p = true ∧ s.hub.gActive p = b
  · have hk := Hub.writeGctl_refused (h := s.hub.fresh) (t := p) (h0.trans hen) h1 h2 (h3.symm ▸ hon)
    have hf := (hstored.mono (List.Subset.refl []) subset_rfl (List.nil_subset [Block.tss])).attn (i := 3) List.mem_cons_self
    refine ends_storeGctl (exec_gateArm p b s) hm hp hpair hk (hf.mono (List.nil_subset _) subset_rfl (List.Subset.refl _))
      ⟨?_, fun _ => ⟨?_, ?_⟩, fun hoff => absurd hon hoff⟩
    · rw [settle_gctl]
      exact hbank
    · exact settle_raw_attn _ _ (by decide) (by decide)
    · rw [settle_tports]
      exact hf.part .tports List.not_mem_nil
  · have hk := Hub.writeGctl_armed (h := s.hub.fresh) (t := p) (h0.trans hen) h1 h2 (h3.symm ▸ hon)
    rw [h3] at hk
    generalize s.hub.fresh.gctlStored p (s.hub.fresh.armWord p b) = j at *
    have hnow : j.now = s.hub.now := congrArg TimeBase.ns (hstored.part .time List.not_mem_nil)
    have hlo : j.rd (Reg.TS_GSW_LO p) = s.hub.rd (Reg.TS_GSW_LO p) := hstored.reg _ (by simp)
    have hhi : j.rd (Reg.TS_GSW_HI p) = s.hub.rd (Reg.TS_GSW_HI p) := hstored.reg _ (by simp)
    refine ends_storeGctl (exec_gateArm p b s) hm hp hpair hk
      (((hstored.mono (List.nil_subset _) subset_rfl (List.nil_subset _)).switchLate List.mem_cons_self).setSwitch List.mem_cons_self rfl)
      ⟨?_, fun hrun => absurd hrun hon, fun _ => ⟨?_, ?_, fun hlate => ?_⟩⟩
    · rw [settle_gctl, Hub.setSwitch_gctl, if_neg (by decide), Hub.switchLate_gctl, hbank]
    · rw [settle_tport, Hub.setSwitch_tport, Hub.switchT_congr (fun r => hstored.gateRegs b r) hnow hlo hhi]
      rfl
    · rw [settle_gctl, Hub.setSwitch_gctl, if_pos rfl]
      rfl
    · rw [settle_raw _ _ _ _ (.inl (by decide)), Hub.setSwitch_raw, Hub.switchLate_raw]
      rwa [hlo, hhi, hnow]

theorem ends_gateCancel (hm : s.hub.mainUp = true) (hp : portPresent s.hub.straps p = true) (hpair : s.hub.paired = false)
    (hen : s.hub.gctl p 0 = true) :
    Ends (.gateCancel p) s [.tports] {Reg.TS_GCTL p} [] (fun t =>
      (t.hub.tport p).switch = none ∧ t.hub.gctl p 6 = false ∧ t.hub.gctl p 5 = s.hub.gctl p 5 ∧ t.hub.gctl p 4 = s.hub.gctl p 4) := by
  obtain ⟨h0, h2⟩ := s.hub.fresh.bit_cancelWord p
  have hstored := s.hub.fresh.gctlStored_frame p (s.hub.fresh.cancelWord p)
  refine ends_storeGctl (exec_gateCancel p s) hm hp hpair (Hub.writeGctl_cancel (h0.trans hen) h2)
    ((hstored.mono (List.nil_subset _) subset_rfl (List.Subset.refl _)).setSwitch List.mem_cons_self rfl) ⟨?_, ?_, ?_, ?_⟩
  · rw [settle_tport, Hub.setSwitch_tport]
  all_goals rw [settle_gctl, Hub.setSwitch_gctl]
  · rfl
  · exact Hub.gctlStored_listOn _ _ _
  · exact Hub.gctlStored_gActive _ _ _

theorem ends_gateEnWrite {on : Bool} (hm : s.hub.mainUp = true) (hp : portPresent s.hub.straps p = true) (hpair : s.hub.paired = false) :
    Ends (.gateEnWrite p on) s [.tports] {Reg.TS_GCTL p} [] (fun t =>
      t.hub.gctl p 0 = on ∧ t.hub.gctl p 5 = s.hub.gctl p 5
      ∧ (on = true → t.hub.tports = s.hub.tports ∧ t.hub.gctl p 6 = s.hub.gctl p 6)
      ∧ (on = false → s.hub.listOn p = true →
        (t.hub.tport p).switch = some (.toNone (s.hub.gEntryEnd p (s.hub.gActive p) s.hub.now)) ∧ t.hub.gctl p 6 = true)
      ∧ (on = false → s.hub.listOn p = false → (t.hub.tport p).switch = none ∧ t.hub.gctl p 6 = false)) := by
  obtain ⟨h0, h1, h2⟩ := s.hub.fresh.bit_enWord p on
  have hk := Hub.writeGctl_plain (h := s.hub.fresh) (t := p) h1 h2
  have hstored := s.hub.fresh.gctlStored_frame p (s.hub.fresh.enWord p on)
  have hbit := s.hub.fresh.gctlStored_gctl p (s.hub.fresh.enWord p on)
  have hlist := s.hub.fresh.gctlStored_listOn p (s.hub.fresh.enWord p on)
  have hact := s.hub.fresh.gctlStored_gActive p (s.hub.fresh.enWord p on)
  rw [h0] at hk hbit
  generalize s.hub.fresh.gctlStored p (s.hub.fresh.enWord p on) = j at *
  have hf {w : Option GateSwitch} : Frame s.hub.fresh (j.setSwitch p w) [.tports] {Reg.TS_GCTL p} [] :=
    (hstored.mono (List.nil_subset _) subset_rfl (List.Subset.refl _)).setSwitch List.mem_cons_self rfl
  have hcmd {k : Hub} {Q : State → Prop} := ends_storeGctl (k := k) (ps := [.tports]) (bs := []) (Q := Q) (exec_gateEnWrite p on s) hm hp hpair
  cases on with
  | true =>
    refine hcmd hk (hstored.mono (List.nil_subset _) subset_rfl (List.Subset.refl _)) ⟨?_, ?_, fun _ => ⟨?_, ?_⟩, nofun, nofun⟩
    · exact (settle_gctl _ _ _ _).trans (hbit 0)
    · exact (settle_gctl _ _ _ _).trans hlist
    · exact (settle_tports _ _).trans (hstored.part .tports List.not_mem_nil)
    · exact (settle_gctl _ _ _ _).trans (hbit 6)
  | false =>
    refine hcmd (hk.trans (Hub.gateEnActs_off j p)) hf ⟨?_, ?_, nofun, fun _ hon => ?_, fun _ hoff => ?_⟩
    · rw [settle_gctl, Hub.setSwitch_gctl]
      exact hbit 0
    · rw [settle_gctl, Hub.setSwitch_gctl]
      exact hlist
    · have hnow : j.now = s.hub.now := congrArg TimeBase.ns (hstored.part .time List.not_mem_nil)
      have hend := Hub.gEntryEnd_congr (t := p) (b := s.hub.gActive p) (fun r => hstored.gateRegs _ r)
        (congrArg TssPort.badEntry (hstored.tport List.not_mem_nil p)) s.hub.now
      rw [settle_tport, settle_gctl, Hub.setSwitch_tport, Hub.setSwitch_gctl, if_pos (hlist.trans hon), hact, hnow]
      exact ⟨congrArg (fun e => some (GateSwitch.toNone e)) hend, rfl⟩
    · have hoff' : j.listOn p = false := hlist.trans hoff
      rw [settle_tport, settle_gctl, Hub.setSwitch_tport, Hub.setSwitch_gctl, hoff']
      exact ⟨rfl, rfl⟩

end Sys2Proof.Machine
end

section
/-! SUPPORT. Entries, switches and banks of a gate list (R238 to R241), and the clauses of TimeGates. -/

namespace Sys2Proof.Machine

variable {h k : Hub} {ps : List Part} {rs : Set Nat} {bs : List Block} {t : Nat} {s : State} {p : EgressNo}

/-! ### What TS_GSTAT shows, and the gaps that are lent (R238, R248) -/

/-- TS_GSTAT of an entry: its number and its gates. -/
def GateSeg.shown (g : GateSeg) : Word := w32 (g.entry % 256 + 256 * g.gates)

theorem Hub.showGate_on (hon : h.listOn t = true) : h.showGate t = h.wr (Reg.TS_GSTAT t) (h.gSegAt t (h.gActive t) h.now).shown := if_pos hon

theorem Hub.showGate_off (hoff : h.listOn t = false) : h.showGate t = h.wr (Reg.TS_GSTAT t) 0xFF00 := by
  unfold Hub.showGate
  rw [hoff]
  rfl

theorem Frame.showGate (a : Frame h k ps rs bs) (hr : Reg.TS_GSTAT t ∈ rs) : Frame h (k.showGate t) ps rs bs := (a.wr hr).ite (a.wr hr)

theorem Frame.lendGap (a : Frame h k ps rs bs) (hr : Reg.TSS_LENT_GAP ∈ rs) : Frame h (k.lendGap t) ps rs bs := (a.inc hr).ite a

/-! ### GATE_ENTRY_END (R238) -/

/-- The registers that show a list. -/
def showRegs (t : Nat) : Set Nat := {Reg.TS_GSTAT t, Reg.TSS_LENT_GAP}

theorem gateRegAddr_notMem_showRegs (p : EgressNo) (b : Bool) (r : GateReg) : gateRegAddr p b r ∉ showRegs p := by
  obtain ⟨-, hstat, hgap⟩ := gateRegAddr_apart p b r p
  rintro (e | e)
  · exact hstat e
  · exact hgap e

theorem GCTL_notMem_showRegs (t : Nat) : Reg.TS_GCTL t ∉ showRegs t := by
  unfold showRegs Reg.TS_GSTAT Reg.TS_GCTL Reg.TSS_LENT_GAP
  simp only [Set.mem_insert_iff, Set.mem_singleton_iff]
  omega

/-- The next entry is shown, and a gap that it opens is lent. -/
def Hub.entryShown (h : Hub) (t : Nat) : Hub :=
  if h.rdF (Reg.TS_GSTAT t) 15 8 = 0 then h.showGate t else (h.showGate t).lendGap t

theorem Hub.entryShown_frame (h : Hub) (t : Nat) : Frame h (h.entryShown t) [] (showRegs t) [] := by
  have hshow : Frame h (h.showGate t) [] (showRegs t) [] := (Frame.refl h).showGate (.inl rfl)
  exact hshow.ite (hshow.lendGap (.inr rfl))

theorem GSTAT_apart (t : Nat) : Reg.TS_GSTAT t ≠ Reg.TSS_LENT_GAP ∧ Reg.TS_GSTAT t ≠ Reg.TS_GCYCLES t ∧ Reg.TS_GCYCLES t ∉ showRegs t := by
  refine ⟨?_, ?_, ?_⟩
  · unfold Reg.TS_GSTAT Reg.TSS_LENT_GAP
    omega
  · unfold Reg.TS_GSTAT Reg.TS_GCYCLES
    omega
  · unfold showRegs Reg.TS_GSTAT Reg.TS_GCYCLES Reg.TSS_LENT_GAP
    simp only [Set.mem_insert_iff, Set.mem_singleton_iff]
    omega

/-- A lent gap changes no register but its count. -/
theorem Hub.lendGap_rd (h : Hub) (t : Nat) {a : Nat} (ha : a ≠ Reg.TSS_LENT_GAP) : (h.lendGap t).rd a = h.rd a :=
  ((Frame.refl h).lendGap (ps := []) (rs := {Reg.TSS_LENT_GAP}) (bs := []) rfl).reg a ha

theorem Hub.entryShown_stat (hon : h.listOn t = true) :
    (h.entryShown t).rd (Reg.TS_GSTAT t) = (h.gSegAt t (h.gActive t) h.now).shown := by
  have hshow : (h.showGate t).rd (Reg.TS_GSTAT t) = (h.gSegAt t (h.gActive t) h.now).shown := by
    rw [Hub.showGate_on hon, Hub.rd_wr_self]
  unfold Hub.entryShown
  split
  · exact hshow
  · rw [Hub.lendGap_rd _ _ (GSTAT_apart t).1, hshow]

theorem Hub.entryShown_seg (h : Hub) (p : EgressNo) :
    (h.entryShown p).gSegAt p ((h.entryShown p).gActive p) (h.entryShown p).now = h.gSegAt p (h.gActive p) h.now := by
  have hf := h.entryShown_frame p
  have hact : (h.entryShown p).gActive p = h.gActive p := hf.gctl (GCTL_notMem_showRegs p) 4
  have hnow : (h.entryShown p).now = h.now := congrArg TimeBase.ns (hf.part .time List.not_mem_nil)
  rw [hact, hnow]
  exact Hub.gSegAt_congr (fun r => hf.reg _ (gateRegAddr_notMem_showRegs p _ r))
    (congrArg TssPort.badEntry (hf.tport List.not_mem_nil p)) _

theorem exec_gateEntryEnd (p : EgressNo) (s : State) : exec (.gateEntryEnd p) s = act s (s.hub.mainUp && s.hub.listOn p) fun h =>
    if ((h.entryShown p).gSegAt p ((h.entryShown p).gActive p) (h.entryShown p).now).start = 0 then (h.entryShown p).inc (Reg.TS_GCYCLES p)
    else h.entryShown p := rfl

theorem ends_gateEntryEnd {g : GateSeg} (hm : s.hub.mainUp = true) (hon : s.hub.listOn p = true)
    (hg : g = s.hub.gSegAt p (s.hub.gActive p) s.hub.now) :
    Ends (.gateEntryEnd p) s [] {Reg.TS_GSTAT p, Reg.TS_GCYCLES p, Reg.TSS_LENT_GAP} [] (fun t =>
      t.hub.rd (Reg.TS_GSTAT p) = w32 (g.entry % 256 + 256 * g.gates)
      ∧ t.hub.rd (Reg.TS_GCYCLES p) = (if g.start = 0 then incHold (s.hub.rd (Reg.TS_GCYCLES p))
          else s.hub.rd (Reg.TS_GCYCLES p))) := by
  obtain ⟨-, hcyc, hcount⟩ := GSTAT_apart p
  have hf := s.hub.fresh.entryShown_frame p
  have hseg : (s.hub.fresh.entryShown p).gSegAt p ((s.hub.fresh.entryShown p).gActive p) (s.hub.fresh.entryShown p).now = g :=
    (s.hub.fresh.entryShown_seg p).trans hg.symm
  have hstat : (s.hub.fresh.entryShown p).rd (Reg.TS_GSTAT p) = g.shown := (Hub.entryShown_stat (h := s.hub.fresh) hon).trans (hg ▸ rfl)
  have hcycles : (s.hub.fresh.entryShown p).rd (Reg.TS_GCYCLES p) = s.hub.rd (Reg.TS_GCYCLES p) := hf.reg _ hcount
  refine ends_effect (exec_gateEntryEnd p s) (by simp [hm, hon]) (by rw [hseg]) ?_ ?_
  · have hf' := hf.mono (List.Subset.refl []) (Set.insert_subset_insert (Set.subset_insert (Reg.TS_GCYCLES p) _)) (List.Subset.refl [])
    exact (hf'.inc (by simp)).ite hf'
  · dsimp only
    split
    · rw [settle_rd, settle_rd, Hub.rd_inc, Hub.rd_inc, if_neg hcyc, if_pos rfl, hcycles]
      exact ⟨hstat, rfl⟩
    · rw [settle_rd, settle_rd, hcycles]
      exact ⟨hstat, rfl⟩

/-! ### GATE_SWITCH (R239, R241) -/

/-- A list gives way to none. -/
def Hub.switchedOff (h : Hub) (t : Nat) : Hub := ((h.setSwitch t none).wrB (Reg.TS_GCTL t) 5 false).showGate t

/-- TS_GCTL as a bank takes over. -/
def Hub.bankPut (h : Hub) (t : Nat) (b : Bool) : Hub := ((h.setSwitch t none).wrB (Reg.TS_GCTL t) 5 true).wrB (Reg.TS_GCTL t) 4 b

/-- A bank takes over, before it is told and shown. -/
def Hub.switchedTo (h : Hub) (t : Nat) (b : Bool) : Hub :=
  ((h.bankPut t b).updTport t fun p => { p with listFrom := h.mono }).wr (Reg.TS_GCYCLES t) 0

/-- A pending switch takes effect. -/
def Hub.switched (h : Hub) (t : Nat) : Hub :=
  match (h.tport t).switch with
  | none => h
  | some (.toNone _) => h.switchedOff t
  | some (.toBank b _) => (((h.switchedTo t b).attn .tss 0).showGate t).lendGap t

theorem exec_gateSwitch (p : EgressNo) (s : State) :
    exec (.gateSwitch p) s = act s (s.hub.mainUp && (s.hub.tport p).switch.isSome) fun h => h.switched p := rfl

theorem Hub.switched_toNone {e : Nat} (hsw : (h.tport t).switch = some (.toNone e)) : h.switched t = h.switchedOff t := by
  unfold Hub.switched
  rw [hsw]

theorem Hub.switched_toBank {b : Bool} {e : Nat} (hsw : (h.tport t).switch = some (.toBank b e)) :
    h.switched t = (((h.switchedTo t b).attn .tss 0).showGate t).lendGap t := by
  unfold Hub.switched
  rw [hsw]

theorem ends_gateSwitch_toNone {e : Nat} (hm : s.hub.mainUp = true) (hsw : (s.hub.tport p).switch = some (.toNone e)) :
    Ends (.gateSwitch p) s [.tports] {Reg.TS_GCTL p, Reg.TS_GSTAT p} [] (fun t =>
      t.hub.listOn p = false ∧ t.hub.gctl p 6 = false ∧ (t.hub.tport p).switch = none ∧ t.hub.rd (Reg.TS_GSTAT p) = 0xFF00) := by
  have hctl (j : Nat) := (s.hub.fresh.setSwitch p none).gctl_wrB p (i := 5) (by decide) false j
  have hf : Frame s.hub.fresh ((s.hub.fresh.setSwitch p none).wrB (Reg.TS_GCTL p) 5 false) [.tports] {Reg.TS_GCTL p, Reg.TS_GSTAT p} [] :=
    ((Frame.refl _).setSwitch List.mem_cons_self (.inl rfl)).wrB (.inl rfl)
  have hport : ((s.hub.fresh.setSwitch p none).wrB (Reg.TS_GCTL p) 5 false).tport p = { s.hub.tport p with switch := none } :=
    s.hub.fresh.setSwitch_tport p none
  generalize hj : (s.hub.fresh.setSwitch p none).wrB (Reg.TS_GCTL p) 5 false = j at *
  have hshow : Frame j (j.showGate p) [] (showRegs p) [] := (Frame.refl j).showGate (.inl rfl)
  have heff : s.hub.fresh.switched p = j.showGate p := by rw [Hub.switched_toNone (h := s.hub.fresh) hsw, Hub.switchedOff, hj]
  refine ends_effect (exec_gateSwitch p s) (by simp [hm, hsw]) heff (hf.showGate (.inr rfl)) ⟨?_, ?_, ?_, ?_⟩
  · exact (settle_gctl _ _ _ _).trans ((hshow.gctl (GCTL_notMem_showRegs p) 5).trans (hctl 5))
  · rw [settle_gctl, hshow.gctl (GCTL_notMem_showRegs p), hctl, if_neg (by decide), Hub.setSwitch_gctl]
    rfl
  · rw [settle_tport, hshow.tport List.not_mem_nil, hport]
  · rw [settle_rd, Hub.showGate_off (hctl 5), Hub.rd_wr_self]

theorem Frame.switchedTo {b : Bool} (a : Frame h k ps rs bs) (hp : Part.tports ∈ ps) (hctl : Reg.TS_GCTL t ∈ rs)
    (hcyc : Reg.TS_GCYCLES t ∈ rs) : Frame h (k.switchedTo t b) ps rs bs :=
  ((((a.setSwitch hp hctl).wrB hctl).wrB hctl).updTport hp).wr hcyc

theorem Hub.switchedTo_gctl (h : Hub) (t : Nat) (b : Bool) (j : Nat) : (h.switchedTo t b).gctl t j =
    if j = 4 then b else if j = 5 then true else if j = 6 then false else h.gctl t j := by
  have hrd : (h.switchedTo t b).rd (Reg.TS_GCTL t) = (h.bankPut t b).rd (Reg.TS_GCTL t) :=
    Hub.rd_wr_ne _ _ (by unfold Reg.TS_GCTL Reg.TS_GCYCLES; omega)
  have hput : (h.bankPut t b).gctl t j = if j = 4 then b else if j = 5 then true else if j = 6 then false else h.gctl t j := by
    rw [Hub.bankPut, Hub.gctl_wrB _ _ (by decide), Hub.gctl_wrB _ _ (by decide), Hub.setSwitch_gctl]
    rfl
  rw [← hput, Hub.gctl, Hub.rdB, hrd]
  rfl

theorem Hub.switchedTo_switch (h : Hub) (t : Nat) (b : Bool) : ((h.switchedTo t b).tport t).switch = none := by
  have hport := (h.bankPut t b).tport_updTport_self t fun p => { p with listFrom := h.mono }
  exact (congrArg TssPort.switch hport).trans (congrArg TssPort.switch (h.setSwitch_tport t none))

theorem ends_gateSwitch_toBank {b : Bool} {e : Nat} (hm : s.hub.mainUp = true) (hsw : (s.hub.tport p).switch = some (.toBank b e)) :
    Ends (.gateSwitch p) s [.tports] {Reg.TS_GCTL p, Reg.TS_GSTAT p, Reg.TS_GCYCLES p, Reg.TSS_LENT_GAP} [.tss] (fun t =>
      t.hub.listOn p = true ∧ t.hub.gActive p = b ∧ t.hub.gctl p 6 = false ∧ (t.hub.tport p).switch = none
      ∧ t.hub.rd (Reg.TS_GCYCLES p) = 0 ∧ t.hub.raw .tss 0 = true) := by
  have hctl := s.hub.fresh.switchedTo_gctl p b
  have hpend := s.hub.fresh.switchedTo_switch p b
  have hcyc : (s.hub.fresh.switchedTo p b).rd (Reg.TS_GCYCLES p) = 0 := Hub.rd_wr_self _ _ _
  have hf : Frame s.hub.fresh (s.hub.fresh.switchedTo p b) [.tports]
      {Reg.TS_GCTL p, Reg.TS_GSTAT p, Reg.TS_GCYCLES p, Reg.TSS_LENT_GAP} [.tss] :=
    (Frame.refl _).switchedTo List.mem_cons_self (by simp) (by simp)
  have heff := Hub.switched_toBank (h := s.hub.fresh) hsw
  generalize s.hub.fresh.switchedTo p b = j at *
  have htold : Frame j (j.attn .tss 0) [] ∅ [.tss] := (Frame.refl j).attn List.mem_cons_self
  have hshow : Frame (j.attn .tss 0) (((j.attn .tss 0).showGate p).lendGap p) [] (showRegs p) [] :=
    ((Frame.refl _).showGate (.inl rfl)).lendGap (.inr rfl)
  have hshown (i : Nat) : (((j.attn .tss 0).showGate p).lendGap p).gctl p i = j.gctl p i := hshow.gctl (GCTL_notMem_showRegs p) i
  refine ends_effect (exec_gateSwitch p s) (by simp [hm, hsw]) heff
    (((hf.attn List.mem_cons_self).showGate (by simp)).lendGap (by simp)) ⟨?_, ?_, ?_, ?_, ?_, ?_⟩
  · exact (settle_gctl _ _ _ _).trans ((hshown 5).trans (hctl 5))
  · exact (settle_gctl _ _ _ _).trans ((hshown 4).trans (hctl 4))
  · exact (settle_gctl _ _ _ _).trans ((hshown 6).trans (hctl 6))
  · rw [settle_tport, hshow.tport List.not_mem_nil, htold.tport List.not_mem_nil, hpend]
  · rw [settle_rd, hshow.reg _ (GSTAT_apart p).2.2, htold.reg _ (Set.notMem_empty _), hcyc]
  · have hraw := congrArg Hdr.attnRaw (hshow.hdr .tss List.not_mem_nil)
    rw [settle_raw _ _ _ _ (.inl (by decide)), ← Hub.raw_attn_self j .tss (i := 0) (by decide)]
    exact congrArg (bit · 0) hraw

/-! ### GATE_BANK_WRITE (R240) -/

theorem exec_gateBankWrite (p : EgressNo) (b : Bool) (r : GateReg) (v : Word) (s : State) : exec (.gateBankWrite p b r v) s =
    act s (s.hub.mainUp && portPresent s.hub.straps p) fun h =>
      h.storeGate p b (gateRegAddr p b r) (v &&& gateRegMask r) (gateRegTiming r) := rfl

/-- A register of a bank is written, and the mark of a failed entry there is taken back (R241). -/
def Hub.gateStored (h : Hub) (t a : Nat) (v : Word) : Hub :=
  (h.wr a v).updTport t fun p => { p with badEntry := p.badEntry.filter fun e => gateEntryAddr t e ≠ a }

theorem Hub.writeGate_inForce {b : Bool} (hon : h.listOn t = true) (hact : h.gActive t = b) (a : Nat) (v : Word) (timing : Bool) :
    h.writeGate t b a v timing = h.attn .tss 1 := by
  simp [Hub.writeGate, hon, hact]

/-- A write outside the bank in force stores the value; where it moves the pending bank's cycle, the switch is due anew. -/
theorem Hub.writeGate_cases {b : Bool} (hoff : ¬(h.listOn t = true ∧ h.gActive t = b)) (a : Nat) (v : Word) (timing : Bool) :
    h.writeGate t b a v timing = h.gateStored t a v
    ∨ h.writeGate t b a v timing = ((h.gateStored t a v).switchLate t).setSwitch t (some (.toBank b ((h.gateStored t a v).switchT t b))) := by
  have hidle : ¬(h.listOn t && h.gActive t == b) = true := by simpa using hoff
  unfold Hub.writeGate
  rw [if_neg hidle]
  dsimp only
  split
  · exact (ite_eq_or_eq _ _ _).symm
  · exact .inl rfl

/-- Outside a pair a write of a bank is TSS's own. -/
theorem Hub.storeGate_eq {b timing : Bool} {a : Nat} {v : Word} (hpair : h.paired = false) (hk : h.writeGate t b a v timing = k)
    (hf : Frame h k ps rs bs) (hr : Reg.MIR_STAT ∉ rs) : h.storeGate t b a v timing = k := by
  rw [Hub.storeGate, hk]
  exact hf.gateNote hpair hr _ _ _

theorem MIR_STAT_notMem_gate (p : EgressNo) (b : Bool) (r : GateReg) : Reg.MIR_STAT ∉ ({gateRegAddr p b r, Reg.TS_GCTL p} : Set Nat) := by
  have hbounds := gateRegAddr_bounds p b r
  have hctl := MIR_STAT_ne_GCTL p
  rintro (e | e)
  · unfold Reg.MIR_STAT at e
    omega
  · exact hctl e

theorem ends_gateBankWrite {b : Bool} {r : GateReg} {v : Word} (hm : s.hub.mainUp = true) (hp : portPresent s.hub.straps p = true)
    (hpair : s.hub.paired = false) (hoff : ¬(s.hub.listOn p = true ∧ s.hub.gActive p = b)) :
    Ends (.gateBankWrite p b r v) s [.tports] {gateRegAddr p b r, Reg.TS_GCTL p} [.tss] (fun t =>
      t.hub.rd (gateRegAddr p b r) = v &&& gateRegMask r) := by
  have hstored : Frame s.hub.fresh (s.hub.fresh.gateStored p (gateRegAddr p b r) (v &&& gateRegMask r)) [.tports]
      {gateRegAddr p b r, Reg.TS_GCTL p} [.tss] := ((Frame.refl _).wr (.inl rfl)).updTport List.mem_cons_self
  have hrd : (s.hub.fresh.gateStored p (gateRegAddr p b r) (v &&& gateRegMask r)).rd (gateRegAddr p b r) = v &&& gateRegMask r :=
    s.hub.fresh.rd_wr_self (gateRegAddr p b r) (v &&& gateRegMask r)
  have hcases := Hub.writeGate_cases (h := s.hub.fresh) (t := p) hoff (gateRegAddr p b r) (v &&& gateRegMask r) (gateRegTiming r)
  generalize s.hub.fresh.gateStored p (gateRegAddr p b r) (v &&& gateRegMask r) = j at *
  have hend {k : Hub} (hk : s.hub.fresh.writeGate p b (gateRegAddr p b r) (v &&& gateRegMask r) (gateRegTiming r) = k)
      (hj : Frame j k [.tports] {Reg.TS_GCTL p} [.tss]) :
      Ends (.gateBankWrite p b r v) s [.tports] {gateRegAddr p b r, Reg.TS_GCTL p} [.tss] (fun t =>
        t.hub.rd (gateRegAddr p b r) = v &&& gateRegMask r) := by
    have hf := hstored.trans (hj.mono (List.Subset.refl _) (by simp) (List.Subset.refl _))
    refine ends_effect (exec_gateBankWrite p b r v s) (by simp [hm, hp]) (Hub.storeGate_eq hpair hk hf (MIR_STAT_notMem_gate p b r)) hf ?_
    exact (settle_rd _ _ _).trans ((hj.gateRegs b r).trans hrd)
  rcases hcases with hk | hk
  · exact hend hk (Frame.refl j)
  · exact hend hk (((Frame.refl j).switchLate List.mem_cons_self).setSwitch List.mem_cons_self rfl)

theorem ends_gateBankWrite_inForce {b : Bool} {r : GateReg} {v : Word} (hm : s.hub.mainUp = true)
    (hp : portPresent s.hub.straps p = true) (hpair : s.hub.paired = false) (hon : s.hub.listOn p = true) (hact : s.hub.gActive p = b) :
    Ends (.gateBankWrite p b r v) s [] ∅ [.tss] (fun t => t.hub.raw .tss 1 = true) := by
  have hf : Frame s.hub.fresh (s.hub.fresh.attn .tss 1) [] ∅ [.tss] := (Frame.refl _).attn List.mem_cons_self
  exact ends_effect (exec_gateBankWrite p b r v s) (by simp [hm, hp])
    (Hub.storeGate_eq hpair (Hub.writeGate_inForce (h := s.hub.fresh) hon hact _ _ _) hf (Set.notMem_empty _)) hf (settle_raw_attn _ _ (by decide) (by decide))

/-- Settles O43: each clause is its command's effect on TS_GCTL, the banks and what shows them, closed by `settle`. -/
theorem timeGates : Obligations.TimeGates :=
  ⟨fun _ _ _ hm hon hg => ends_gateEntryEnd hm hon hg, fun _ _ _ hm hp hpair hen => ends_gateArm hm hp hpair hen,
    fun _ _ hm hp hpair hen => ends_gateCancel hm hp hpair hen, fun _ _ _ hm hp hpair => ends_gateEnWrite hm hp hpair,
    fun _ _ _ hm hsw => ends_gateSwitch_toNone hm hsw, fun _ _ _ _ hm hsw => ends_gateSwitch_toBank hm hsw,
    fun _ _ _ _ _ hm hp hpair hoff => ends_gateBankWrite hm hp hpair hoff,
    fun _ _ _ _ _ hm hp hpair hon hact => ends_gateBankWrite_inForce hm hp hpair hon hact⟩

end Sys2Proof.Machine
end

section
/-! SUPPORT. Buckets gain their share (R233, R234), a port's deal applies (R247), and what TSS's operations answer (R251). -/

namespace Sys2Proof.Machine

variable {h k : Hub} {ps : List Part} {rs : Set Nat} {bs : List Block} {s : State}

/-! ### A fold that visits each place once -/

section
variable {σ α β γ : Type} {f : σ → α → σ} {q : σ → β} {r : σ → γ} {x : α} {v : γ} {a : σ} {l : List α}

theorem foldl_kept (hkeep : ∀ b, ∀ y ∈ l, r (f b y) = r b) : r (l.foldl f a) = r a := by
  induction l generalizing a with
  | nil => rfl
  | cons y l ih => exact (ih fun b z hz => hkeep b z (List.mem_cons_of_mem _ hz)).trans (hkeep a y List.mem_cons_self)

/-- What the visit of `x` reads (`q`) and what it makes (`r`) are its own: after the fold they are as its one visit leaves them. -/
theorem foldl_visited (hnd : l.Nodup) (hx : x ∈ l) (hq : ∀ b, ∀ y, y ≠ x → q (f b y) = q b) (hr : ∀ b, ∀ y, y ≠ x → r (f b y) = r b)
    (hit : ∀ b, q b = q a → r (f b x) = v) : r (l.foldl f a) = v := by
  induction l generalizing a with
  | nil => exact absurd hx List.not_mem_nil
  | cons y l ih =>
    obtain ⟨hy, hnd⟩ := List.nodup_cons.mp hnd
    rcases List.mem_cons.mp hx with rfl | hx
    · exact (foldl_kept fun b z hz => hr b z fun e => hy (e ▸ hz)).trans (hit a rfl)
    · exact ih hnd hx fun b hb => hit b (hb.trans (hq a y fun e => hy (e ▸ hx)))

end

/-! ### The buckets of contexts (R232, R233) -/

/-- A context after a refill. -/
def Ctx.refilled (c : Ctx) (us : Nat) : Ctx :=
  if c.state = .resident ∧ c.shaped then
    let r := refill c.shapeRate us c.depth c.tokens c.frac
    { c with tokens := r.1, frac := r.2, shapeOn := true }
  else { c with shapeOn := false }

/-- An unused slot has no bucket. -/
theorem ctxReset_refilled (n us : Nat) : (ctxReset n).refilled us = ctxReset n := by
  unfold ctxReset
  split <;> rfl

theorem Tab.get_of_notMem {α : Type} {d : Nat → α} {l : Tab α} {n : Nat} (hn : n ∉ Tab.keys l) : Tab.get d l n = d n := by
  induction l with
  | nil => rfl
  | cons e l ih =>
    obtain ⟨hne, hl⟩ : n ≠ e.1 ∧ n ∉ Tab.keys l := by simpa [Tab.keys] using hn
    exact (if_neg hne).trans (ih hl)

/-- Every context is refilled. -/
def Hub.ctxsRefilled (h : Hub) (us : Nat) : Hub := (Tab.keys h.ctxs).foldl (fun h sl => h.updCtx sl fun c => c.refilled us) h

theorem Hub.ctxsRefilled_ctx (hnd : (Tab.keys h.ctxs).Nodup) (us n : Nat) : (h.ctxsRefilled us).ctx n = (h.ctx n).refilled us := by
  have hother (b : Hub) (y : Nat) (hy : y ≠ n) : (b.updCtx y fun c => c.refilled us).ctx n = b.ctx n := Hub.ctx_updCtx_ne _ hy.symm _
  by_cases hn : n ∈ Tab.keys h.ctxs
  · refine foldl_visited (q := fun b : Hub => b.ctx n) (r := fun b => b.ctx n) hnd hn hother hother fun b hb => ?_
    rw [Hub.ctx_updCtx_self]
    exact congrArg (Ctx.refilled · us) hb
  · have hreset : h.ctx n = ctxReset n := Tab.get_of_notMem hn
    rw [hreset, ctxReset_refilled, ← hreset]
    exact foldl_kept (r := fun b : Hub => b.ctx n) fun b y hy => hother b y fun e => hn (e ▸ hy)

theorem Hub.ctxsRefilled_frame (h : Hub) (us : Nat) : Frame h (h.ctxsRefilled us) [.ctxs] ∅ [] :=
  Frame.foldl _ (Frame.refl h) fun _ _ _ a => a.updCtx List.mem_cons_self

/-! ### The buckets of classes (R233, R234) -/

/-- The depth of the class shaper of a port, in bytes. -/
def Hub.classDepth (h : Hub) (t c : Nat) : Nat := 256 * max 1 (h.rdF (Reg.TS_CSH t c) 31 20)

/-- The bucket of class c at a port after a refill. -/
def TssPort.refilled (x : TssPort) (rate us depth c : Nat) : TssPort :=
  let r := refill rate us depth (x.tokens.getD c 0) (x.frac.getD c 0)
  { x with tokens := putAt x.tokens c r.1, frac := putAt x.frac c r.2, shOn := putAt x.shOn c true }

/-- The class bucket named by a port and a class is refilled; without a rate its shaper is off. -/
def Hub.classRefilled (us : Nat) (h : Hub) (e : Nat × Nat) : Hub :=
  if h.classRate e.1 e.2 = 0 then
    (if (h.tport e.1).shOn.getD e.2 false then h.updTport e.1 fun p => { p with shOn := putAt p.shOn e.2 false } else h)
  else h.updTport e.1 fun p => p.refilled (h.classRate e.1 e.2) us (h.classDepth e.1 e.2) e.2

/-- The class buckets of the hub, port by port. -/
def classBuckets : List (Nat × Nat) := List.range 18 ×ˢ List.range 8

theorem classBuckets_nodup : classBuckets.Nodup := List.nodup_range.product List.nodup_range

theorem Hub.classRefilled_frame (us : Nat) (h : Hub) (e : Nat × Nat) : Frame h (Hub.classRefilled us h e) [.tports] ∅ [] :=
  (((Frame.refl h).updTport List.mem_cons_self).ite (Frame.refl h)).ite ((Frame.refl h).updTport List.mem_cons_self)

/-- What a refill of a class bucket reads: its shaper's rate and depth, whether it is there, and what it holds. -/
def Hub.bucketOf (h : Hub) (t c : Nat) : Nat × Nat × Nat × Int × Nat :=
  (h.classRate t c, h.classDepth t c, (h.tport t).tokens.length, (h.tport t).tokens.getD c 0, (h.tport t).frac.getD c 0)

theorem getD_putAt_ne {α : Type} (l : List α) {c d : Nat} (hne : c ≠ d) (v w : α) : (putAt l c v).getD d w = l.getD d w := by
  simp [putAt, List.getD_eq_getElem?_getD, List.getElem?_set_ne hne]

theorem Hub.bucketOf_classRefilled_ne {us t c : Nat} (h : Hub) {e : Nat × Nat} (hne : e ≠ (t, c)) :
    (Hub.classRefilled us h e).bucketOf t c = h.bucketOf t c := by
  have hrd (a : Nat) : (Hub.classRefilled us h e).rd a = h.rd a := (Hub.classRefilled_frame us h e).reg a (Set.notMem_empty a)
  have hport : ((Hub.classRefilled us h e).tport t).tokens.length = (h.tport t).tokens.length
      ∧ ((Hub.classRefilled us h e).tport t).tokens.getD c 0 = (h.tport t).tokens.getD c 0
      ∧ ((Hub.classRefilled us h e).tport t).frac.getD c 0 = (h.tport t).frac.getD c 0 := by
    unfold Hub.classRefilled
    split_ifs
    · rw [Hub.tport_updTport]
      split
      · rename_i ht
        rw [ht]
        exact ⟨rfl, rfl, rfl⟩
      · exact ⟨rfl, rfl, rfl⟩
    · exact ⟨rfl, rfl, rfl⟩
    · rw [Hub.tport_updTport]
      split
      · rename_i ht
        have hc : e.2 ≠ c := fun hc => hne (Prod.ext ht.symm hc)
        rw [ht]
        exact ⟨List.length_set, getD_putAt_ne _ hc _ _, getD_putAt_ne _ hc _ _⟩
      · exact ⟨rfl, rfl, rfl⟩
  obtain ⟨hlen, htok, hfrac⟩ := hport
  unfold Hub.bucketOf Hub.classRate Hub.classDepth Hub.rdF
  rw [hrd, hlen, htok, hfrac]

/-- Every class bucket is refilled. -/
def Hub.classesRefilled (h : Hub) (us : Nat) : Hub := classBuckets.foldl (Hub.classRefilled us) h

theorem Hub.classesRefilled_frame (h : Hub) (us : Nat) : Frame h (h.classesRefilled us) [.tports] ∅ [] :=
  Frame.foldl _ (Frame.refl h) fun e j _ a => a.trans (Hub.classRefilled_frame us j e)

theorem Hub.classesRefilled_tokens {us t c : Nat} (ht : t ∈ List.range 18) (hc : c ∈ List.range 8) (hlen : c < (h.tport t).tokens.length)
    (hrate : h.classRate t c ≠ 0) : ((h.classesRefilled us).tport t).tokens.getD c 0 =
      (refill (h.classRate t c) us (h.classDepth t c) ((h.tport t).tokens.getD c 0) ((h.tport t).frac.getD c 0)).1 := by
  have hother (b : Hub) (e : Nat × Nat) (he : e ≠ (t, c)) := Hub.bucketOf_classRefilled_ne (us := us) b he
  refine foldl_visited (q := fun b => b.bucketOf t c) (r := fun b => (b.tport t).tokens.getD c 0) classBuckets_nodup
    (List.pair_mem_product.mpr ⟨ht, hc⟩) hother (fun b e he => congrArg (·.2.2.2.1) (hother b e he)) fun b hb => ?_
  obtain ⟨hrate', hdepth', hlen', htok', hfrac'⟩ : _ ∧ _ ∧ _ ∧ _ ∧ _ := by simpa only [Hub.bucketOf, Prod.mk.injEq] using hb
  unfold Hub.classRefilled
  rw [if_neg (by rw [hrate']; exact hrate), Hub.tport_updTport_self, hrate', hdepth', ← htok', ← hfrac']
  exact (List.getD_eq_getElem _ _ (by rwa [TssPort.refilled, putAt, List.length_set, hlen'])).trans (List.getElem_set_self _)

/-! ### SHAPER_REFILL (R233) -/

theorem Hub.classesRefilled_eq (h : Hub) (us : Nat) :
    h.classesRefilled us = (List.range 18).foldl (fun h t => (List.range 8).foldl (fun h c => Hub.classRefilled us h (t, c)) h) h := by
  unfold Hub.classesRefilled classBuckets
  exact (List.foldl_flatMap ..).trans (by simp only [List.foldl_map])

theorem exec_shaperRefill (s : State) : exec .shaperRefill s =
    act s (s.hub.mainUp && s.hub.time.reached (1000 * s.hub.refillUs)) fun h => (h.ctxsRefilled h.refillUs).classesRefilled h.refillUs := by
  simp only [Hub.classesRefilled_eq]
  rfl

theorem ends_shaperRefill (hm : s.hub.mainUp = true) (hdue : s.hub.time.reached (1000 * s.hub.refillUs) = true)
    (hnd : (Tab.keys s.hub.ctxs).Nodup) :
    Ends .shaperRefill s [.ctxs, .tports] ∅ [] (fun t =>
      (∀ n, t.hub.ctx n = (s.hub.ctx n).refilled s.hub.refillUs)
      ∧ (∀ p ∈ List.range 18, ∀ c ∈ List.range 8, c < (s.hub.tport p).tokens.length → s.hub.classRate p c ≠ 0 →
        (t.hub.tport p).tokens.getD c 0 = (refill (s.hub.classRate p c) s.hub.refillUs (s.hub.classDepth p c)
          ((s.hub.tport p).tokens.getD c 0) ((s.hub.tport p).frac.getD c 0)).1)) := by
  have hctxs := s.hub.fresh.ctxsRefilled_frame s.hub.refillUs
  have hctx (n : Nat) := Hub.ctxsRefilled_ctx (h := s.hub.fresh) hnd s.hub.refillUs n
  generalize hj : s.hub.fresh.ctxsRefilled s.hub.refillUs = j at hctxs hctx
  have hports := j.classesRefilled_frame s.hub.refillUs
  have hkept (p : Nat) : j.tport p = s.hub.tport p := hctxs.tport (by decide) p
  have hrd (a : Nat) : j.rd a = s.hub.rd a := hctxs.reg a (Set.notMem_empty a)
  have hrate (p c : Nat) : j.classRate p c = s.hub.classRate p c := congrArg (fld · 19 0) (hrd _)
  have hdepth (p c : Nat) : j.classDepth p c = s.hub.classDepth p c := congrArg (fun w => 256 * max 1 (fld w 31 20)) (hrd _)
  refine ends_effect (k := j.classesRefilled s.hub.refillUs) (exec_shaperRefill s) (by simp [hm, hdue]) (hj ▸ rfl)
    ((hctxs.mono (by simp) subset_rfl (List.Subset.refl _)).trans (hports.mono (by simp) subset_rfl (List.Subset.refl _)))
    ⟨fun n => ?_, fun p hp c hc hlen hne => ?_⟩
  · rw [settle_ctx, Hub.ctx_congr (hports.part .ctxs (by decide))]
    exact hctx n
  · rw [settle_tport, Hub.classesRefilled_tokens hp hc (by rwa [hkept]) (by rwa [hrate]), hkept, hrate, hdepth]

/-! ### DEAL_PORT_DONE (R247, R249) -/

/-- A flow-target takes its quantum and allotment, unless it has gained state since the deal began. -/
def Hub.quantumPut (t : Nat) (h : Hub) (r : Nat × Nat × Nat) : Hub :=
  match h.ft r.1 t with
  | some f => if f.isNew then h else h.setFt r.1 t { f with quant := r.2.1, allot := r.2.2 }
  | none => h

/-- The time of the deal is shown once no port has one. -/
def Hub.dealTimed (h : Hub) (t : Nat) : Hub :=
  if (List.range 18).all fun t => (h.tport t).dealing.isNone then
    h.wr Reg.TSS_DEAL_TIME (w32 (holdAt 0xFFFF ((h.mono - (h.tport t).dealFrom) / 100)))
  else h

/-- The deal of a port applies. -/
def Hub.dealDone (h : Hub) (t : Nat) : Hub :=
  match (h.tport t).dealing with
  | none => h
  | some l => (l.foldl (Hub.quantumPut t) (h.updTport t fun p => { p with dealing := none })).dealTimed t

theorem exec_dealPortDone (p : EgressNo) (s : State) :
    exec (.dealPortDone p) s = act s (s.hub.mainUp && decide (s.hub.dealNext = some p.val)) fun h => h.dealDone p := rfl

theorem Hub.ft_setFt_self (h : Hub) (n t : Nat) (f : FlowTgt) : (h.setFt n t f).ft n t = some f := (Tab.find_put _ _ _ _).trans (if_pos rfl)

theorem Hub.ft_congr (hf : k.fts = h.fts) (n t : Nat) : k.ft n t = h.ft n t := by
  unfold Hub.ft
  rw [hf]

theorem Hub.quantumPut_frame (h : Hub) (t : Nat) (r : Nat × Nat × Nat) : Frame h (Hub.quantumPut t h r) [.fts] ∅ [] := by
  unfold Hub.quantumPut
  split
  · exact (Frame.refl h).ite ((Frame.refl h).setFt List.mem_cons_self)
  · exact Frame.refl h

theorem Hub.quantumPut_ft {t n q a : Nat} {f : FlowTgt} (hf : h.ft n t = some f) :
    (Hub.quantumPut t h (n, q, a)).ft n t = some (if f.isNew then f else { f with quant := q, allot := a }) := by
  unfold Hub.quantumPut
  rw [hf]
  dsimp only
  split
  · exact hf
  · exact Hub.ft_setFt_self _ _ _ _

theorem Hub.dealTimed_frame (h : Hub) (t : Nat) : Frame h (h.dealTimed t) [] {Reg.TSS_DEAL_TIME} [] :=
  ((Frame.refl h).wr (Set.mem_singleton _)).ite (Frame.refl h)

theorem Hub.dealDone_one {t n q a : Nat} (hdeal : (h.tport t).dealing = some [(n, q, a)]) :
    h.dealDone t = (Hub.quantumPut t (h.updTport t fun p => { p with dealing := none }) (n, q, a)).dealTimed t := by
  unfold Hub.dealDone
  rw [hdeal]
  rfl

theorem ends_dealPortDone {p : EgressNo} {n q a : Nat} {f : FlowTgt} (hm : s.hub.mainUp = true)
    (hdeal : (s.hub.tport p).dealing = some [(n, q, a)]) (hnext : s.hub.dealNext = some p.val) (hft : s.hub.ft n p = some f) :
    Ends (.dealPortDone p) s [.fts, .tports] {Reg.TSS_DEAL_TIME} [] (fun t =>
      t.hub.ft n p = some (if f.isNew then f else { f with quant := q, allot := a }) ∧ (t.hub.tport p).dealing = none
      ∧ ((∀ j ∈ List.range 18, j = p.val ∨ (s.hub.tport j).dealing = none) →
        t.hub.rd Reg.TSS_DEAL_TIME = w32 (holdAt 0xFFFF ((s.hub.mono - (s.hub.tport p).dealFrom) / 100)))) := by
  have hport (i : Nat) := s.hub.fresh.tport_updTport p i fun x => { x with dealing := none }
  have hopen : Frame s.hub.fresh (s.hub.fresh.updTport p fun x => { x with dealing := none }) [.fts, .tports] {Reg.TSS_DEAL_TIME} [] :=
    (Frame.refl _).updTport (by simp)
  have hput := Hub.quantumPut_frame (s.hub.fresh.updTport p fun x => { x with dealing := none }) p (n, q, a)
  have hquant := Hub.quantumPut_ft (q := q) (a := a) (h := s.hub.fresh.updTport p fun x => { x with dealing := none }) (t := p) hft
  have heff := Hub.dealDone_one (h := s.hub.fresh) hdeal
  generalize Hub.quantumPut p (s.hub.fresh.updTport p fun x => { x with dealing := none }) (n, q, a) = j at *
  have htimed := j.dealTimed_frame p
  have hkept (i : Nat) : j.tport i = if i = p.val then { s.hub.tport p with dealing := none } else s.hub.tport i :=
    (hput.tport (by decide) i).trans (hport i)
  refine ends_effect (exec_dealPortDone p s) (by simp [hm, hnext]) heff
    ((hopen.trans (hput.mono (by simp) (Set.empty_subset _) (List.Subset.refl _))).trans
      (htimed.mono (List.nil_subset _) subset_rfl (List.Subset.refl _))) ⟨?_, ?_, fun hlast => ?_⟩
  · rw [Hub.ft_congr (settle_fts _ _), Hub.ft_congr (htimed.part .fts List.not_mem_nil), hquant]
  · rw [settle_tport, htimed.tport List.not_mem_nil, hkept, if_pos rfl]
  · have hall : ((List.range 18).all fun i => (j.tport i).dealing.isNone) = true := by
      refine List.all_eq_true.mpr fun i hi => ?_
      rw [hkept]
      split
      · rfl
      · rename_i hne
        rw [(hlast i hi).resolve_left hne]
        rfl
    have hmono : j.mono = s.hub.mono := congrArg TimeBase.up (hput.part .time (by decide))
    rw [settle_rd, Hub.dealTimed, if_pos hall, Hub.rd_wr_self, hkept, if_pos rfl, hmono]

/-! ### FLOW_SCHED_READ and GATE_CHECK (R251) -/

/-- What FLOW_SCHED_READ answers of slot `n` at port `t`. -/
def Hub.schedAnswer (h : Hub) (n t : Nat) : MbxResult :=
  if 0x11 < t ∨ 8192 ≤ n then mbxErr 0x02
  else if (h.ctx n).state ≠ .resident then mbxErr 0x80
  else match h.ft n t with
    | none => mbxOk [0, 0, 0, 0, iword (h.ctx n).tokens, iword ((h.tport t).tokens.getD (h.ctx n).tc 0)]
    | some f => mbxOk [w32 (f.q + 2 ^ 16), iword f.deficit, w32 f.allot, w32 f.demand, iword (h.ctx n).tokens,
        iword ((h.tport t).tokens.getD (h.ctx n).tc 0)]

/-- FLOW_SCHED_READ as an effect on the hub: none, and its result. -/
def Hub.schedRead (h : Hub) : Hub × Option MbxResult := done h (h.schedAnswer (h.arg .tss 0).toNat (h.arg .tss 1).toNat)

theorem exec_flowSchedRead (s : State) : exec .flowSchedRead s = mbxAct s .tss 0x10 Hub.schedRead := by
  refine congrArg (mbxAct s .tss 0x10) (funext fun h => ?_)
  unfold Hub.schedRead Hub.schedAnswer
  dsimp only
  split_ifs
  · rfl
  · rfl
  · cases h.ft (h.arg .tss 0).toNat (h.arg .tss 1).toNat <;> rfl

theorem ends_flowSchedRead {n t : Nat} (hop : s.hub.opRunning .tss 0x10 = true) (hn : n = (s.hub.arg .tss 0).toNat)
    (ht : t = (s.hub.arg .tss 1).toNat) :
    Ends .flowSchedRead s [] ∅ [.tss] (fun u => (u.hub.mbx .tss).result = some (s.hub.schedAnswer n t)) := by
  subst hn ht
  exact ends_mbxRefused (exec_flowSchedRead s) hop rfl rfl

theorem Hub.schedAnswer_resident {n t : Nat} (ht : t ≤ 0x11) (hn : n < 8192) (hres : (h.ctx n).state = .resident) :
    h.schedAnswer n t = match h.ft n t with
      | none => mbxOk [0, 0, 0, 0, iword (h.ctx n).tokens, iword ((h.tport t).tokens.getD (h.ctx n).tc 0)]
      | some f => mbxOk [w32 (f.q + 2 ^ 16), iword f.deficit, w32 f.allot, w32 f.demand, iword (h.ctx n).tokens,
          iword ((h.tport t).tokens.getD (h.ctx n).tc 0)] := by
  unfold Hub.schedAnswer
  rw [if_neg (by omega), if_neg (not_not_intro hres)]

theorem Hub.schedAnswer_outOfRange {n t : Nat} (hout : 0x11 < t ∨ 8192 ≤ n) : h.schedAnswer n t = mbxErr 2 := if_pos hout

theorem Hub.schedAnswer_notResident {n t : Nat} (ht : t ≤ 0x11) (hn : n < 8192) (hres : (h.ctx n).state ≠ .resident) :
    h.schedAnswer n t = mbxErr 0x80 := by
  unfold Hub.schedAnswer
  rw [if_neg (by omega), if_pos hres]

/-- What GATE_CHECK answers of a bank of port `t` and class `c`. -/
def Hub.checkAnswer (h : Hub) (t : Nat) (b : Bool) (c : Nat) : MbxResult :=
  if 0x11 < t then mbxErr 0x02
  else mbxOk [(longestWindow c (h.gSegs t b)).elim 0xFFFFFFFF w32,
    w32 (((h.gSegs t b).filter fun x => x.gates.testBit c).map fun x => x.stop - x.start).sum,
    w32 ((List.range (h.gLen t b)).map fun e => entryNs (h.gEntry t b e)).sum, w32 (h.gCycle t b)]

/-- GATE_CHECK as an effect on the hub: none, and its result. -/
def Hub.gateChecked (h : Hub) : Hub × Option MbxResult :=
  done h (h.checkAnswer (h.arg .tss 0).toNat (bit (h.arg .tss 1) 0) (fld (h.arg .tss 2) 2 0))

theorem foldl_add_eq_sum {α : Type} (f : α → Nat) (l : List α) : l.foldl (fun n x => n + f x) 0 = (l.map f).sum := by
  rw [List.sum_eq_foldl_nat, List.foldl_map]

theorem foldl_add_if_eq_sum {α : Type} (p : α → Bool) (f : α → Nat) (l : List α) :
    l.foldl (fun n x => if p x then n + f x else n) 0 = ((l.filter p).map f).sum := by
  rw [← foldl_add_eq_sum, List.foldl_filter]

theorem exec_gateCheck (s : State) : exec .gateCheck s = mbxAct s .tss 0x11 Hub.gateChecked := by
  refine congrArg (mbxAct s .tss 0x11) (funext fun h => ?_)
  unfold Hub.gateChecked Hub.checkAnswer
  dsimp only
  split
  · rfl
  · rw [foldl_add_eq_sum, foldl_add_if_eq_sum]

theorem ends_gateCheck {t c : Nat} {b : Bool} (hop : s.hub.opRunning .tss 0x11 = true) (ht : t = (s.hub.arg .tss 0).toNat)
    (hb : b = bit (s.hub.arg .tss 1) 0) (hc : c = fld (s.hub.arg .tss 2) 2 0) :
    Ends .gateCheck s [] ∅ [.tss] (fun u => (u.hub.mbx .tss).result = some (s.hub.checkAnswer t b c)) := by
  subst ht hb hc
  exact ends_mbxRefused (exec_gateCheck s) hop rfl rfl

end Sys2Proof.Machine
end

section
/-! SUPPORT. The decision of a port (R229 to R231, R235): what it touches, and that it takes no heed of what the command sends out. -/

namespace Sys2Proof.Machine

variable {h k : Hub}

/-! ### The turns of flows and classes (R231) -/

/-- The state of a flow as its turn in class c comes: it takes its quantum once. -/
def Hub.turnState (h : Hub) (t c s : Nat) : FlowTgt :=
  let f := (h.ft s t).getD {}
  if f.fresh ∧ (h.tport t).ptr.getD c 0 = s then f else { f with deficit := min f.deficit 0 + 64 * f.q, fresh := true }

/-- A flow has its turn. -/
def Hub.flowTurn (h : Hub) (t c s : Nat) : Hub := (h.setFt s t (h.turnState t c s)).updTport t fun p => { p with ptr := putAt p.ptr c s }

/-- The turn passes to flow `nx`. -/
def Hub.flowPassed (h : Hub) (t c nx : Nat) : Hub :=
  let h := h.updTport t fun p => { p with ptr := putAt p.ptr c nx }
  match h.ft nx t with
  | some g => h.setFt nx t { g with fresh := false }
  | none => h

theorem Hub.drrFlow_succ (h : Hub) (t c n : Nat) : h.drrFlow t c (n + 1) =
    (atOrAfter (h.flowsAt t c) ((h.tport t).ptr.getD c 0)).elim (h, none) fun s =>
      if 0 < (h.turnState t c s).deficit && (h.flowTurn t c s).eligible s t c then (h.flowTurn t c s, some s)
      else Hub.drrFlow ((h.flowTurn t c s).flowPassed t c ((atOrAfter (h.flowsAt t c) (s + 1)).getD s)) t c n := by
  rw [Hub.drrFlow]
  cases atOrAfter (h.flowsAt t c) ((h.tport t).ptr.getD c 0) with
  | none => rfl
  | some s => rfl

/-- The state of a port as the turn of class c comes: the class takes its quantum once. -/
def Hub.turnPort (h : Hub) (t c : Nat) : TssPort :=
  let p := h.tport t
  if p.cfresh && decide (p.cls = c) then p
  else { p with cls := c, cfresh := true, cdef := putAt p.cdef c (min (p.cdef.getD c 0) 0 + 64 * h.classQ t c) }

/-- A class has its turn. -/
def Hub.classTurn (h : Hub) (t c : Nat) : Hub := h.updTport t fun _ => h.turnPort t c

/-- The flow of the class that has its turn with deficit `d`, if the class may send. -/
def Hub.classPick (h : Hub) (t c : Nat) (d : Int) : Hub × Option Nat :=
  if 0 < d ∧ h.gateOpen t c ∧ h.classTokens t c then h.drrFlow t c (h.flowsAt t c).length else (h, none)

/-- The turn passes to class `nx`. -/
def Hub.classPassed (h : Hub) (t nx : Nat) : Hub := h.updTport t fun p => { p with cls := nx, cfresh := false }

theorem Hub.drrClass_succ (h : Hub) (t n : Nat) : h.drrClass t (n + 1) =
    (atOrAfter (h.classesAt t) (h.tport t).cls).elim (h, none) fun c =>
      let r := (h.classTurn t c).classPick t c ((h.turnPort t c).cdef.getD c 0)
      r.2.elim (Hub.drrClass (r.1.classPassed t ((atOrAfter (h.classesAt t) (c + 1)).getD c)) t n) fun s => (r.1, some s) := by
  rw [Hub.drrClass]
  cases atOrAfter (h.classesAt t) (h.tport t).cls with
  | none => rfl
  | some c =>
    have taken (r : Hub × Option Nat) :
        (match r with
          | (h, some s) => (h, some s)
          | (j, none) => Hub.drrClass (j.classPassed t ((atOrAfter (h.classesAt t) (c + 1)).getD c)) t n)
        = r.2.elim (Hub.drrClass (r.1.classPassed t ((atOrAfter (h.classesAt t) (c + 1)).getD c)) t n) fun s => (r.1, some s) := by
      obtain ⟨j, _ | s⟩ := r <;> rfl
    exact taken ((h.classTurn t c).classPick t c ((h.turnPort t c).cdef.getD c 0))

/-- The turns of the classes, or none while TSS takes no new work (R69). -/
def Hub.pick (h : Hub) (t : Nat) : Hub × Option Nat :=
  if !(h.hdr .tss).enable then (h, none)
  else (h.trumpPick t).elim (h.drrClass t (h.classesAt t).length) fun s => (h, some s)

theorem Hub.decision_eq (h : Hub) (t : Nat) : h.decision t = ((h.gateWaits t).trumpStamp t).pick t := by
  unfold Hub.decision Hub.pick
  dsimp only
  split
  · rfl
  · cases ((h.gateWaits t).trumpStamp t).trumpPick t <;> rfl

/-! ### What a decision touches -/

/-- The registers that a decision writes: the count of units that wait for a gate, and PMC's flags. -/
def decisionRegs (t : Nat) : Set Nat := {Reg.TS_GATE_WAIT t} ∪ pmcRegs

/-- From `h` to `k` nothing changed but what a decision of port `t` may change: flow-target state, the port's turns, and PMC. -/
abbrev Hub.Decides (t : Nat) (h k : Hub) : Prop := Frame h k [.fts, .tports, .pmc] (decisionRegs t) [.pmc]

section
variable {t : Nat}

theorem Hub.gateWaits_frame (h : Hub) (t : Nat) : h.Decides t (h.gateWaits t) := by
  refine Frame.foldl _ (Frame.refl h) fun e j _ a => ?_
  dsimp only
  split
  · exact a
  · exact (((a.setFt (by simp)).inc (.inl rfl)).pmcEvent (by simp) Set.subset_union_right (by simp)).ite a

theorem Hub.trumpStamp_frame (h : Hub) (t : Nat) : h.Decides t (h.trumpStamp t) := by
  refine Frame.foldl _ (Frame.refl h) fun s j _ a => a.ite ?_
  split
  · exact a.setFt (by simp)
  · exact a

theorem Hub.Decides.flowTurn {c s : Nat} (a : h.Decides t k) : h.Decides t (k.flowTurn t c s) :=
  Frame.updTport (Frame.setFt a (by simp)) (by simp)

theorem Hub.Decides.flowPassed {c nx : Nat} (a : h.Decides t k) : h.Decides t (k.flowPassed t c nx) := by
  unfold Hub.flowPassed
  dsimp only
  split
  · exact Frame.setFt (Frame.updTport a (by simp)) (by simp)
  · exact Frame.updTport a (by simp)

theorem Hub.Decides.drrFlow {c : Nat} (n : Nat) (a : h.Decides t k) : h.Decides t (k.drrFlow t c n).1 := by
  induction n generalizing k with
  | zero => exact a
  | succ n ih =>
    rw [Hub.drrFlow_succ]
    cases atOrAfter (k.flowsAt t c) ((k.tport t).ptr.getD c 0) with
    | none => exact a
    | some s =>
      dsimp only [Option.elim]
      split
      · exact a.flowTurn
      · exact ih a.flowTurn.flowPassed

theorem Hub.Decides.classPick {c : Nat} {d : Int} (a : h.Decides t k) : h.Decides t (k.classPick t c d).1 := by
  unfold Hub.classPick
  split
  · exact a.drrFlow _
  · exact a

theorem Hub.Decides.drrClass (n : Nat) (a : h.Decides t k) : h.Decides t (k.drrClass t n).1 := by
  induction n generalizing k with
  | zero => exact a
  | succ n ih =>
    rw [Hub.drrClass_succ]
    cases atOrAfter (k.classesAt t) (k.tport t).cls with
    | none => exact a
    | some c =>
      have hturn : h.Decides t (k.classTurn t c) := Frame.updTport a (by simp)
      have hpick := hturn.classPick (c := c) (d := (k.turnPort t c).cdef.getD c 0)
      dsimp only [Option.elim]
      cases ((k.classTurn t c).classPick t c ((k.turnPort t c).cdef.getD c 0)).2 with
      | some s => exact hpick
      | none => exact ih (Frame.updTport hpick (by simp))

theorem Hub.decision_frame (h : Hub) (t : Nat) : h.Decides t (h.decision t).1 := by
  have hready : h.Decides t ((h.gateWaits t).trumpStamp t) := (h.gateWaits_frame t).trans (Hub.trumpStamp_frame _ t)
  rw [Hub.decision_eq]
  unfold Hub.pick
  split
  · exact hready
  · cases ((h.gateWaits t).trumpStamp t).trumpPick t with
    | none => exact hready.drrClass _
    | some s => exact hready

/-- A port without flows has nothing to send. -/
theorem Hub.decision_idle (hnone : h.fts.all (fun e => decide (e.1 % 32 ≠ t)) = true) : h.decision t = (h, none) := by
  have hne : ∀ e ∈ h.fts, e.1 % 32 ≠ t := fun e he => of_decide_eq_true (List.all_eq_true.mp hnone e he)
  have hflows (c : Nat) : h.flowsAt t c = [] := by
    unfold Hub.flowsAt
    rw [List.filter_eq_nil_iff.mpr fun e he => by simp [hne e he]]
    rfl
  have hwaits : h.gateWaits t = h := by
    unfold Hub.gateWaits
    rw [List.filter_eq_nil_iff.mpr fun e he => by simp [hne e he]]
    rfl
  have hstamp : h.trumpStamp t = h := by rw [Hub.trumpStamp, hflows, List.foldl_nil]
  have htrump : h.trumpPick t = none := by rw [Hub.trumpPick, hflows, List.foldl_nil, Option.map_none]
  have hclasses : h.classesAt t = [] := List.filter_eq_nil_iff.mpr fun c _ => by simp [hflows]
  rw [Hub.decision_eq, hwaits, hstamp, Hub.pick, htrump, hclasses]
  exact ite_self _

end

/-! ### A flow's head unit lies in its context and its cells (R226) -/

section
variable {h k : Hub}

theorem Hub.uptoLast_congr (hcells : k.cells = h.cells) (u : List Nat) : k.uptoLast u = h.uptoLast u := by
  induction u with
  | nil => rfl
  | cons i u ih => rw [Hub.uptoLast, Hub.uptoLast, ih, Hub.cell_congr hcells]

theorem Hub.headUnit_congr (hctxs : k.ctxs = h.ctxs) (hcells : k.cells = h.cells) (s t : Nat) : k.headUnit s t = h.headUnit s t := by
  unfold Hub.headUnit Hub.pendingOf
  simp only [Hub.uptoLast_congr hcells, Hub.ctx_congr hctxs, Hub.cell_congr hcells]

end

/-! ### What a command has sent out is nothing to a decision -/

/-- A hub with something else sent out. -/
def Hub.withOut (h : Hub) (l : List Emit) : Hub := { h with out := l }

section
variable (l : List Emit)

theorem Hub.foldl_withOut {α : Type} {f : Hub → α → Hub} (hf : ∀ k x, f (k.withOut l) x = (f k x).withOut l) (xs : List α) (h : Hub) :
    xs.foldl f (h.withOut l) = (xs.foldl f h).withOut l := List.foldl_hom (Hub.withOut · l) hf

theorem Hub.eligible_withOut (h : Hub) (s t c : Nat) : (h.withOut l).eligible s t c = h.eligible s t c := by
  unfold Hub.eligible
  rw [Hub.headUnit_congr (k := h.withOut l) (h := h) rfl rfl]
  rfl

theorem Hub.trumpPick_withOut (h : Hub) (t : Nat) : (h.withOut l).trumpPick t = h.trumpPick t := by
  unfold Hub.trumpPick
  simp only [Hub.eligible_withOut]
  rfl

theorem Hub.cntAdd_withOut (port fuel n m : Nat) (h : Hub) :
    (h.withOut l).cntAdd port fuel n m = (h.cntAdd port fuel n m).withOut l := by
  induction fuel generalizing h n m with
  | zero => rfl
  | succ fuel ih =>
    have hdue (j : Hub) : (j.withOut l).capDue n port = (j.capDue n port).withOut l := by
      unfold Hub.capDue
      split
      · rw [if_pos ‹_›]
        rfl
      · rw [if_neg ‹_›]
    have hcount : ((h.withOut l).updPmc fun x => { x with cnt := Tab.set (fun _ => 0) x.cnt n ((h.counter n + m) % 2 ^ 48) })
        = (h.updPmc fun x => { x with cnt := Tab.set (fun _ => 0) x.cnt n ((h.counter n + m) % 2 ^ 48) }).withOut l := rfl
    rw [Hub.cntAdd, Hub.cntAdd]
    dsimp only
    rw [show (h.withOut l).counter n = h.counter n from rfl, hcount, hdue, ih, apply_ite (Hub.withOut · l), apply_ite (Hub.withOut · l)]
    rfl

theorem Hub.pmcEvent_withOut (ev port tc n : Nat) (h : Hub) : (h.withOut l).pmcEvent ev port tc n = (h.pmcEvent ev port tc n).withOut l := by
  refine Hub.foldl_withOut l (fun k e => ?_) _ h
  dsimp only
  rw [Hub.cntAdd_withOut]
  exact (apply_ite (Hub.withOut · l) _ _ _).symm

theorem Hub.gateWaits_withOut (h : Hub) (t : Nat) : (h.withOut l).gateWaits t = (h.gateWaits t).withOut l := by
  refine Hub.foldl_withOut l (fun k e => ?_) _ h
  dsimp only
  rw [show (k.withOut l).ft (e.1 / 32) t = k.ft (e.1 / 32) t from rfl]
  cases k.ft (e.1 / 32) t with
  | none => rfl
  | some f =>
    rw [apply_ite (Hub.withOut · l), ← Hub.pmcEvent_withOut, Hub.headUnit_congr (k := k.withOut l) (h := k) rfl rfl]
    rfl

theorem Hub.trumpStamp_withOut (h : Hub) (t : Nat) : (h.withOut l).trumpStamp t = (h.trumpStamp t).withOut l := by
  refine Hub.foldl_withOut l (fun k s => ?_) _ h
  rw [show (k.withOut l).ft s t = k.ft s t from rfl, apply_ite (Hub.withOut · l), Hub.eligible_withOut]
  cases k.ft s t <;> rfl

theorem Hub.flowPassed_withOut (h : Hub) (t c nx : Nat) : (h.withOut l).flowPassed t c nx = (h.flowPassed t c nx).withOut l := by
  unfold Hub.flowPassed
  dsimp only
  rw [show ((h.withOut l).updTport t _).ft nx t = h.ft nx t from rfl, show (h.updTport t _).ft nx t = h.ft nx t from rfl]
  cases h.ft nx t <;> rfl

/-- The result of a decision, its hub with something else sent out. -/
def pickWithOut (r : Hub × Option Nat) : Hub × Option Nat := (r.1.withOut l, r.2)

theorem Hub.drrFlow_withOut (t c n : Nat) (h : Hub) : (h.withOut l).drrFlow t c n = pickWithOut l (h.drrFlow t c n) := by
  induction n generalizing h with
  | zero => rfl
  | succ n ih =>
    rw [Hub.drrFlow_succ, Hub.drrFlow_succ, show (h.withOut l).flowsAt t c = h.flowsAt t c from rfl,
      show (h.withOut l).tport t = h.tport t from rfl]
    cases atOrAfter (h.flowsAt t c) ((h.tport t).ptr.getD c 0) with
    | none => rfl
    | some s =>
      have hturn : (h.withOut l).flowTurn t c s = (h.flowTurn t c s).withOut l := rfl
      dsimp only [Option.elim]
      rw [hturn, Hub.eligible_withOut, Hub.flowPassed_withOut, ih, apply_ite (pickWithOut l)]
      rfl

theorem Hub.classPick_withOut (t c : Nat) (d : Int) (h : Hub) : (h.withOut l).classPick t c d = pickWithOut l (h.classPick t c d) := by
  unfold Hub.classPick
  rw [Hub.drrFlow_withOut, apply_ite (pickWithOut l)]
  rfl

theorem Hub.drrClass_withOut (t n : Nat) (h : Hub) : (h.withOut l).drrClass t n = pickWithOut l (h.drrClass t n) := by
  induction n generalizing h with
  | zero => rfl
  | succ n ih =>
    rw [Hub.drrClass_succ, Hub.drrClass_succ, show (h.withOut l).classesAt t = h.classesAt t from rfl,
      show (h.withOut l).tport t = h.tport t from rfl]
    cases atOrAfter (h.classesAt t) (h.tport t).cls with
    | none => rfl
    | some c =>
      have hturn : (h.withOut l).classTurn t c = (h.classTurn t c).withOut l := rfl
      have hport : (h.withOut l).turnPort t c = h.turnPort t c := rfl
      dsimp only [Option.elim]
      rw [hturn, hport, Hub.classPick_withOut]
      obtain ⟨j, _ | s⟩ := (h.classTurn t c).classPick t c ((h.turnPort t c).cdef.getD c 0)
      · exact ih (j.classPassed t _)
      · rfl

theorem Hub.decision_withOut (h : Hub) (t : Nat) : (h.withOut l).decision t = pickWithOut l (h.decision t) := by
  rw [Hub.decision_eq, Hub.decision_eq, Hub.gateWaits_withOut, Hub.trumpStamp_withOut]
  generalize (h.gateWaits t).trumpStamp t = j
  unfold Hub.pick
  rw [Hub.drrClass_withOut, Hub.trumpPick_withOut, apply_ite (pickWithOut l)]
  cases j.trumpPick t <;> rfl

end

end Sys2Proof.Machine
end

section
/-! SUPPORT. A target reads a cell (R128, R172, R205): what the read touches, and what becomes of the cell. -/

namespace Sys2Proof.Machine

variable {h k : Hub} {ps : List Part} {rs : Set Nat} {bs : List Block}

/-! ### What PMC notes of a read -/

theorem pmcRegs_subset_pmc : pmcRegs ⊆ blockRegs .pmc := by
  rintro a ⟨i, hi, rfl⟩
  rw [mem_blockRegs, ofBlock, show Block.pmc.base = 0x00100000 from rfl, Bool.and_eq_true, decide_eq_true_eq, decide_eq_true_eq]
  unfold Reg.PMC_OVF
  omega

theorem Frame.histTake {n v : Nat} {replayed : Bool} (a : Frame h k ps rs bs) (hn : n < 32) (hp : Part.pmc ∈ ps)
    (hr : blockRegs .pmc ⊆ rs) (hb : Block.pmc ∈ bs) : Frame h (k.histTake n v replayed) ps rs bs := by
  have hmem {o : Nat} (ho : o < 0x40) : 0x00102000 + o + n * 0x40 ∈ rs := by
    refine hr (mem_blockRegs.mpr ?_)
    rw [ofBlock, show Block.pmc.base = 0x00100000 from rfl, Bool.and_eq_true, decide_eq_true_eq, decide_eq_true_eq]
    omega
  have hcount : Reg.H_COUNT n ∈ rs := hmem (o := 0x10) (by decide)
  have hover : Reg.H_OVER n ∈ rs := hmem (o := 0x14) (by decide)
  have hreplay : Reg.H_REPLAY n ∈ rs := hmem (o := 0x18) (by decide)
  have hlost : Reg.H_LOST n ∈ rs := hmem (o := 0x1C) (by decide)
  have hmax : Reg.H_MAX n ∈ rs := hmem (o := 0x20) (by decide)
  refine (a.inc hreplay).ite (Frame.ite ?_ ?_)
  · exact ((a.attn hb).ite a).inc hlost
  · exact ((((a.inc hcount).maxR hmax).inc hover).ite ((a.inc hcount).maxR hmax)).updPmc hp

theorem Frame.histSample {src : Nat} {port tc flow : Option Nat} {v : Int} {replayed : Bool} (a : Frame h k ps rs bs)
    (hp : Part.pmc ∈ ps) (hr : blockRegs .pmc ⊆ rs) (hb : Block.pmc ∈ bs) :
    Frame h (k.histSample src port tc flow v replayed) ps rs bs := by
  refine Frame.foldl _ a fun e j he b => (b.histTake ?_ hp hr hb).ite b
  obtain ⟨hlo, hhi, -⟩ := of_decide_eq_true (List.mem_filter.mp he).2
  unfold Reg.H_CFG at *
  omega

theorem Frame.bwAdd {t n : Nat} (a : Frame h k ps rs bs) (ht : t < 18) (hp : Part.pmc ∈ ps) (hr : blockRegs .pmc ⊆ rs) :
    Frame h (k.bwAdd t n) ps rs bs := by
  refine (a.inc (hr (mem_blockRegs.mpr ?_))).updPmc hp
  rw [ofBlock, show Block.pmc.base = 0x00100000 from rfl, Bool.and_eq_true, decide_eq_true_eq, decide_eq_true_eq]
  unfold Reg.BW_TOTAL
  omega

@[simp] theorem Hub.histTake_out (h : Hub) (n v : Nat) (replayed : Bool) : (h.histTake n v replayed).out = h.out := by
  have hlost : (if h.rd (Reg.H_LOST n) = 0 then h.attn .pmc 3 else h).out = h.out := h.ite_out rfl rfl
  have hcount : ((h.inc (Reg.H_COUNT n)).maxR (Reg.H_MAX n) (min v 0xFFFFFFFF)).out = h.out := rfl
  exact h.ite_out rfl (h.ite_out hlost (h.ite_out hcount hcount))

@[simp] theorem Hub.histSample_out (h : Hub) (src : Nat) (port tc flow : Option Nat) (v : Int) (replayed : Bool) :
    (h.histSample src port tc flow v replayed).out = h.out :=
  h.foldl_out (fun k _ => k.ite_out (k.histTake_out _ _ _) rfl) _

/-! ### Cells that no target needs any more (R159, R172) -/

theorem Hub.freeCell_frame (h : Hub) (i : Nat) : Frame h (h.freeCell i) [.cells, .counts, .links] ∅ [] := by
  have hr := Frame.refl (ps := [.cells, .counts, .links]) (rs := ∅) (bs := []) h
  unfold Hub.freeCell
  split
  · exact hr
  · exact (((hr.updLink (by simp)).creditBack (by simp)).ite hr).setCell (by simp) (by simp)

theorem Hub.freeCells_frame (h : Hub) (l : List Nat) : Frame h (h.freeCells l) [.cells, .counts, .links] ∅ [] :=
  Frame.foldl _ (Frame.refl h) fun i j _ a => a.trans (j.freeCell_frame i)

theorem Hub.purge_frame (h : Hub) (n : Nat) : Frame h (h.purge n) [.cells, .counts, .links, .ctxs] ∅ [] := by
  have hfreed := (h.freeCells_frame ((h.ctx n).list.takeWhile h.refless)).mono (ps' := [.cells, .counts, .links, .ctxs])
    (by decide) subset_rfl (List.Subset.refl _)
  unfold Hub.purge
  exact hfreed.updCtx (by decide)

@[simp] theorem Hub.purge_out (h : Hub) (n : Nat) : (h.purge n).out = h.out := h.freeCells_out _

theorem Hub.cell_setCell (h : Hub) (i j : Nat) (c : Option CellSt) : (h.setCell i c).cell j = if j = i then c else h.cell j := by
  cases c with
  | none => exact Tab.find_del _ _ _
  | some c => exact Tab.find_put _ _ _ _

theorem Hub.freeCell_cell (h : Hub) (i j : Nat) : (h.freeCell i).cell j = if j = i then none else h.cell j := by
  unfold Hub.freeCell
  split
  next hi =>
    split
    next e => rw [e, hi]
    next => rfl
  next c hi =>
    rw [Hub.cell_setCell]
    congr 1
    split <;> rfl

/-- Released cells are gone; every other is as before. -/
theorem Hub.freeCells_cell (h : Hub) (l : List Nat) (j : Nat) : (h.freeCells l).cell j = if j ∈ l then none else h.cell j := by
  induction l generalizing h with
  | nil => rfl
  | cons i l ih =>
    rw [Hub.freeCells, List.foldl_cons, ← Hub.freeCells, ih, Hub.freeCell_cell]
    by_cases hj : j ∈ l <;> simp [hj]

/-- A cell that holds a reference stays. -/
theorem Hub.purge_cell_of_referred (n : Nat) {i : Nat} (hi : h.refless i = false) : (h.purge n).cell i = h.cell i := by
  refine (h.freeCells_cell _ i).trans (if_neg fun hm => ?_)
  exact absurd (List.mem_takeWhile_imp hm) (by simp [hi])

theorem Hub.purge_cell (h : Hub) (n i : Nat) : (h.purge n).cell i = none ∨ (h.purge n).cell i = h.cell i := by
  rw [show (h.purge n).cell i = _ from h.freeCells_cell _ i]
  split
  · exact .inl rfl
  · exact .inr rfl

/-- A release returns credits, and leaves what waits for an acknowledgement. -/
theorem Hub.freeCell_unacked (h : Hub) (i p : Nat) : ((h.freeCell i).link p).unacked = (h.link p).unacked := by
  have hback (q n : Nat) : (((h.updLink q fun l => { l with held := modAt l.held n fun n => n - 1 }).creditBack q n).link p).unacked
      = (h.link p).unacked := by
    unfold Hub.creditBack
    rw [Hub.link_updLink, Hub.link_updLink_self, Hub.link_updLink]
    split
    · subst_vars
      rfl
    · rfl
  unfold Hub.freeCell
  split
  · rfl
  next c _ =>
    cases c.credit with
    | true => exact hback c.inp c.tc
    | false => rfl

theorem Hub.purge_unacked (h : Hub) (n p : Nat) : ((h.purge n).link p).unacked = (h.link p).unacked :=
  foldl_kept (r := fun k : Hub => (k.link p).unacked) fun k i _ => k.freeCell_unacked i p

/-! ### The scheduler's state of a flow that has read (R229, R231) -/

theorem Frame.withFts {x : Tab FlowTgt} (a : Frame h k ps rs bs) (hp : Part.fts ∈ ps) : Frame h { k with fts := x } ps rs bs :=
  a.upd rfl rfl rfl fun p hn => by cases p <;> first | rfl | exact absurd hp hn

theorem Hub.ftSweep_frame (h : Hub) (n t : Nat) : Frame h (h.ftSweep n t) [.fts, .tports] ∅ [] := by
  have hpast : Frame h (match h.ft n t with | some f => h.ftPast n t f | none => h) [.fts, .tports] ∅ [] := by
    cases h.ft n t with
    | none => exact Frame.refl h
    | some f => exact (Frame.refl h).updTport (by simp)
  exact (Frame.refl h).ite (((hpast.withFts (by simp)).updTport (by simp)).ite (hpast.withFts (by simp)))

theorem Hub.newHead_frame (h : Hub) (n t : Nat) : Frame h (h.newHead n t) [.fts] ∅ [] := by
  unfold Hub.newHead
  split
  · exact (Frame.refl h).setFt (by simp)
  · exact Frame.refl h

@[simp] theorem Hub.ftSweep_out (h : Hub) (n t : Nat) : (h.ftSweep n t).out = h.out := by
  have hpast : (match h.ft n t with | some f => h.ftPast n t f | none => h).out = h.out := by cases h.ft n t <;> rfl
  exact h.ite_out rfl (h.ite_out hpast hpast)

@[simp] theorem Hub.newHead_out (h : Hub) (n t : Nat) : (h.newHead n t).out = h.out := by
  unfold Hub.newHead
  split <;> rfl

end Sys2Proof.Machine
end

section
/-! SUPPORT. A target's read of a cell as a whole (R128, R172, R205). -/

namespace Sys2Proof.Machine

variable {h k : Hub} {t i j : Nat} {c : CellSt}

/-- A cell as target `t` has read it: a link port may have to send it again. -/
def CellSt.readAt (c : CellSt) (t : Nat) : CellSt :=
  { c with
    pend := c.pend - (c.pend &&& 2 ^ t)
    repl := if isLinkPort t then c.repl ||| (c.pend &&& 2 ^ t) else c.repl }

/-- A read is counted and timed. -/
def Hub.readCounted (h : Hub) (t : Nat) (c : CellSt) : Hub :=
  let h := (h.pmcEvent 0x02 t c.tc).bwAdd t c.payload.length
  let h := h.histSample 2 (some t) (some c.tc) (some c.flow) (h.mono - c.adm : Nat)
  if isLinkPort t then h else h.histSample 1 (some t) (some c.tc) (some c.flow) ((h.mono : Int) + h.txLead t + 96 - c.arr)

/-- A cell is marked as read, and its flow as served. -/
def Hub.readMarked (h : Hub) (t i : Nat) (c : CellSt) : Hub :=
  (h.setCell i (some (c.readAt t))).updCtx c.slot fun x => { x with lrs := h.mono }

theorem Hub.readCell_eq (hi : h.cell i = some c) :
    h.readCell t i = (((h.readCounted t c).readMarked t i c).purge c.slot).ftSweep c.slot t := by
  unfold Hub.readCell
  rw [hi]
  rfl

/-! ### What a read touches -/

/-- The parts that the read of a cell may change. -/
def readParts : List Part := [.cells, .counts, .ctxs, .fts, .tports, .links, .pmc]

theorem Hub.readCounted_frame (ht : t < 18) (h : Hub) (c : CellSt) :
    Frame h (h.readCounted t c) [.pmc] (blockRegs .pmc) [.pmc] := by
  have hread : Frame h ((h.pmcEvent 0x02 t c.tc).bwAdd t c.payload.length) [.pmc] (blockRegs .pmc) [.pmc] :=
    ((Frame.refl h).pmcEvent (by simp) pmcRegs_subset_pmc (by simp)).bwAdd ht (by simp) subset_rfl
  have hwait {v : Int} := hread.histSample (src := 2) (port := some t) (tc := some c.tc) (flow := some c.flow) (v := v) (replayed := false)
    (by simp) subset_rfl (by simp)
  exact hwait.ite (hwait.histSample (by simp) subset_rfl (by simp))

theorem Hub.readMarked_frame (h : Hub) (t i : Nat) (c : CellSt) : Frame h (h.readMarked t i c) [.cells, .counts, .ctxs] ∅ [] :=
  ((Frame.refl h).setCell (by simp) (by simp)).updCtx (by simp)

theorem Hub.readCell_frame (ht : t < 18) (h : Hub) (i : Nat) : Frame h (h.readCell t i) readParts (blockRegs .pmc) [.pmc] := by
  cases hi : h.cell i with
  | none =>
    unfold Hub.readCell
    rw [hi]
    exact Frame.refl h
  | some c =>
    rw [Hub.readCell_eq hi]
    exact (((h.readCounted_frame ht c).mono (by decide) subset_rfl (List.Subset.refl _)).trans
      ((Hub.readMarked_frame _ t i c).mono (by decide) (Set.empty_subset _) (by decide))).trans
        (((Hub.purge_frame _ c.slot).mono (by decide) (Set.empty_subset _) (by decide)).trans
          ((Hub.ftSweep_frame _ c.slot t).mono (by decide) (Set.empty_subset _) (by decide)))

theorem Hub.readCounted_out (h : Hub) (t : Nat) (c : CellSt) : (h.readCounted t c).out = h.out := by
  have hread : ((h.pmcEvent 0x02 t c.tc).bwAdd t c.payload.length).out = h.out := h.pmcEvent_out _ _ _ _
  exact h.ite_out (((Hub.histSample_out _ _ _ _ _ _ _)).trans hread)
    ((Hub.histSample_out _ _ _ _ _ _ _).trans ((Hub.histSample_out _ _ _ _ _ _ _).trans hread))

@[simp] theorem Hub.readCell_out (h : Hub) (t i : Nat) : (h.readCell t i).out = h.out := by
  cases hi : h.cell i with
  | none =>
    unfold Hub.readCell
    rw [hi]
  | some c =>
    rw [Hub.readCell_eq hi, Hub.ftSweep_out, Hub.purge_out]
    exact h.readCounted_out t c

/-- A read leaves what a link port waits to have acknowledged. -/
theorem Hub.readCell_unacked (ht : t < 18) (h : Hub) (i p : Nat) : ((h.readCell t i).link p).unacked = (h.link p).unacked := by
  cases hi : h.cell i with
  | none =>
    unfold Hub.readCell
    rw [hi]
  | some c =>
    rw [Hub.readCell_eq hi, (Hub.ftSweep_frame _ c.slot t).link (by decide), Hub.purge_unacked, (Hub.readMarked_frame _ t i c).link (by decide),
      (h.readCounted_frame ht c).link (by decide)]

/-! ### What becomes of the cell -/

theorem testBit_sub_and_two_pow (n t : Nat) : (n - (n &&& 2 ^ t)).testBit t = false := by
  rw [Nat.and_two_pow]
  cases hn : n.testBit t with
  | false => simp [hn]
  | true =>
    have hsplit := Nat.testBit_two_pow_add_eq (n - 2 ^ t) t
    rw [Nat.add_sub_cancel' (Nat.ge_two_pow_of_testBit hn), hn] at hsplit
    simpa using hsplit

theorem and_two_pow_ne_zero {n t : Nat} (hn : n.testBit t = true) : n &&& 2 ^ t ≠ 0 := by
  simp [Nat.and_two_pow, hn]

theorem Hub.readMarked_cell (h : Hub) (t i : Nat) (c : CellSt) : (h.readMarked t i c).cell i = some (c.readAt t) :=
  h.cell_setCell_self i _

/-- A link port that has read a cell holds it for replay (R172). -/
theorem Hub.readCell_cell_of_link (hl : isLinkPort t = true) (hi : h.cell i = some c) (hpend : c.pend.testBit t = true) :
    (h.readCell t i).cell i = some { c with pend := c.pend - (c.pend &&& 2 ^ t), repl := c.repl ||| (c.pend &&& 2 ^ t) } := by
  have hread : c.readAt t = { c with pend := c.pend - (c.pend &&& 2 ^ t), repl := c.repl ||| (c.pend &&& 2 ^ t) } := by
    rw [CellSt.readAt, if_pos hl]
  have hheld : c.repl ||| (c.pend &&& 2 ^ t) ≠ 0 := fun e => and_two_pow_ne_zero hpend (Nat.or_eq_zero_iff.mp e).2
  have hmarked := (h.readCounted t c).readMarked_cell t i c
  have hrefs : ((h.readCounted t c).readMarked t i c).refless i = false := by
    unfold Hub.refless
    rw [hmarked, hread]
    simp [hheld]
  rw [Hub.readCell_eq hi, Hub.cell_congr ((Hub.ftSweep_frame _ c.slot t).part .cells (by decide)), Hub.purge_cell_of_referred _ hrefs,
    hmarked, hread]

/-- Target `t` has no reference to read cell `i`. -/
def Hub.unreferred (h : Hub) (t i : Nat) : Bool := (h.cell i).all fun c => !c.pend.testBit t

theorem Hub.unreferred_congr (hc : k.cells = h.cells) (t i : Nat) : k.unreferred t i = h.unreferred t i := by
  unfold Hub.unreferred
  rw [Hub.cell_congr hc]

/-- After a read the cell that was read is unreferred, and what was unreferred still is. -/
theorem Hub.readCell_unreferred (ht : t < 18) (hj : j = i ∨ h.unreferred t j = true) : (h.readCell t i).unreferred t j = true := by
  cases hi : h.cell i with
  | none =>
    have hsame : h.readCell t i = h := by
      unfold Hub.readCell
      rw [hi]
    rw [hsame]
    rcases hj with rfl | hj
    · rw [Hub.unreferred, hi]
      rfl
    · exact hj
  | some c =>
    have hmarked : ((h.readCounted t c).readMarked t i c).unreferred t j = true := by
      by_cases e : j = i
      · subst e
        rw [Hub.unreferred, Hub.readMarked_cell]
        simp [CellSt.readAt, testBit_sub_and_two_pow]
      · have hcell : ((h.readCounted t c).readMarked t i c).cell j = h.cell j :=
          ((h.readCounted t c).cell_setCell i j (some (c.readAt t))).trans
            ((if_neg e).trans (Hub.cell_congr ((h.readCounted_frame ht c).part .cells (by decide)) j))
        rw [Hub.unreferred, hcell]
        exact hj.resolve_left e
    rw [Hub.readCell_eq hi, Hub.unreferred_congr ((Hub.ftSweep_frame _ c.slot t).part .cells (by decide))]
    rcases Hub.purge_cell ((h.readCounted t c).readMarked t i c) c.slot j with hgone | hkept
    · rw [Hub.unreferred, hgone]
      rfl
    · rw [Hub.unreferred, hkept]
      exact hmarked

/-- A target that has read cells has no reference to them any more. -/
theorem Hub.readCells_unreferred (ht : t < 18) (u : List Nat) (h : Hub) (hj : j ∈ u ∨ h.unreferred t j = true) :
    (u.foldl (fun h i => h.readCell t i) h).unreferred t j = true := by
  induction u generalizing h with
  | nil => exact hj.resolve_left List.not_mem_nil
  | cons i u ih =>
    rw [List.foldl_cons]
    rcases hj with hj | hj
    · rcases List.mem_cons.mp hj with rfl | hj
      · exact ih _ (.inr (Hub.readCell_unreferred ht (.inl rfl)))
      · exact ih _ (.inl hj)
    · exact ih _ (.inr (Hub.readCell_unreferred ht (.inr hj)))

end Sys2Proof.Machine
end

section
/-! SUPPORT. A unit is charged and leaves: by a link port (R128, R141, R142), or by the steward (R174). -/

namespace Sys2Proof.Machine

variable {h k : Hub} {p t i r : Nat} {c : CellSt}

/-! ### The charge (R231, R233, R236) -/

/-- The registers that a charge may write: PMC's flags, and the count of overruns with the fault pin's count. -/
def chargeRegs (t : Nat) : Set Nat := pmcRegs ∪ {Reg.TS_OVERRUN t, Reg.SIT_FAULTN_CNT}

/-- A flow's deficit pays for what the flow sends. -/
def Hub.flowPays (h : Hub) (n t l : Nat) : Hub :=
  match h.ft n t with
  | some f => h.setFt n t { f with deficit := f.deficit - l }
  | none => h

theorem Hub.flowPays_frame (h : Hub) (n t l : Nat) : Frame h (h.flowPays n t l) [.fts] ∅ [] := by
  unfold Hub.flowPays
  split
  · exact (Frame.refl h).setFt (by simp)
  · exact Frame.refl h

@[simp] theorem Hub.flowPays_out (h : Hub) (n t l : Nat) : (h.flowPays n t l).out = h.out := by
  unfold Hub.flowPays
  split <;> rfl

theorem Hub.charge_frame (h : Hub) (n t c l : Nat) :
    Frame h (h.charge n t c l) [.pmc, .fts, .ctxs, .tports, .pins] (chargeRegs t) [.pmc, .tss, .sit] := by
  have hevent : Frame h (h.pmcEvent 0x03 t c l) [.pmc, .fts, .ctxs, .tports, .pins] (chargeRegs t) [.pmc, .tss, .sit] :=
    (Frame.refl h).pmcEvent (by decide) Set.subset_union_left (by decide)
  have hflow := hevent.trans ((Hub.flowPays_frame _ n t l).mono (by decide) (Set.empty_subset _) (by decide))
  have hover : Reg.TS_OVERRUN t ∈ chargeRegs t := .inr (.inl rfl)
  have hpin : Reg.SIT_FAULTN_CNT ∈ chargeRegs t := .inr (.inr rfl)
  refine Frame.ite (Frame.fault (Frame.attn (Frame.inc ?port hover) (by decide)) (by decide) (by decide) hpin (by decide)) ?port
  exact Frame.updTport (Frame.ite (Frame.updCtx hflow (by decide)) hflow) (by decide)

@[simp] theorem Hub.charge_out (h : Hub) (n t c l : Nat) : (h.charge n t c l).out = h.out := by
  have hflow : ((h.pmcEvent 0x03 t c l).flowPays n t l).out = h.out := (Hub.flowPays_out _ _ _ _).trans (h.pmcEvent_out _ _ _ _)
  refine h.ite_out ((Hub.fault_out _ _ _).trans ?port) ?port
  exact h.ite_out hflow hflow

/-! ### A cell goes out on a link for the first time (R141, R142) -/

theorem Hub.putCell_of_no_code (hcodes : (h.link p).codes.all (fun e => decide (e.1 ≠ r)) = true) :
    h.putCell p r c = h.emit (.cell p (c.header r) (dataBlocks c.payload)) := by
  have hnone : (h.link p).codes.find? (fun e => e.1 = r) = none :=
    List.find?_eq_none.mpr fun e he => by simpa using of_decide_eq_true (List.all_eq_true.mp hcodes e he)
  unfold Hub.putCell
  dsimp only
  rw [show ((h.emit (.cell p (c.header r) (dataBlocks c.payload))).link p).codes = (h.link p).codes from rfl, hnone]

/-- A cell below TC6 takes the next RSEQ and a place in the replay list, leaves without a code, and is read. -/
theorem Hub.sendCell_eq (hi : h.cell i = some c) (htc : c.tc ≠ 6)
    (hcodes : (h.link p).codes.all (fun e => decide (e.1 ≠ h.nextRseq p)) = true) :
    ∃ f : LinkSt → LinkSt, (f (h.link p)).unacked = (h.link p).unacked ++ [(h.nextRseq p, i)] ∧
      h.sendCell p i = (((h.wrF (Reg.KL_REPLAY_STAT p) 11 0 ((h.nextRseq p + 1) % 4096)).updLink p f).emit
        (.cell p (c.header (h.nextRseq p)) (dataBlocks c.payload))).readCell p i := by
  have hput (f : LinkSt → LinkSt) (hf : (f (h.link p)).codes = (h.link p).codes) :
      (((h.wrF (Reg.KL_REPLAY_STAT p) 11 0 ((h.nextRseq p + 1) % 4096)).updLink p f).putCell p (h.nextRseq p) c).readCell p i
        = (((h.wrF (Reg.KL_REPLAY_STAT p) 11 0 ((h.nextRseq p + 1) % 4096)).updLink p f).emit
          (.cell p (c.header (h.nextRseq p)) (dataBlocks c.payload))).readCell p i := by
    rw [Hub.putCell_of_no_code]
    rw [Hub.link_updLink_self]
    exact hf ▸ hcodes
  unfold Hub.sendCell
  rw [hi]
  refine ⟨_, ?unacked, hput _ ?codes⟩
  case unacked => rfl
  case codes => simp [htc]

/-- A register of KLL's ports is none of LNX. -/
theorem kl_notMem_lnx {a : Nat} (ha : 0x00900000 ≤ a) : a ∉ blockRegs .lnx := fun ⟨_, hhi⟩ => by
  rw [Block.base_lnx] at hhi
  omega

/-- What a cell's first sending below TC6 does: where the port, its credit, its count of replay and the cell stand after it. -/
theorem Hub.sendCell_below_tc6 (hl : isLinkPort p = true) (hi : h.cell i = some c) (hpend : c.pend.testBit p = true) (htc : c.tc ≠ 6)
    (hcodes : (h.link p).codes.all (fun e => decide (e.1 ≠ h.nextRseq p)) = true) :
    Frame h (h.sendCell p i) readParts (blockRegs .pmc ∪ {Reg.KL_REPLAY_STAT p}) [.pmc]
    ∧ (h.sendCell p i).out = h.out ++ h.sends p [.cell p (c.header (h.nextRseq p)) (dataBlocks c.payload)]
    ∧ ((h.sendCell p i).link p).unacked = (h.link p).unacked ++ [(h.nextRseq p, i)]
    ∧ (h.sendCell p i).nextRseq p = (h.nextRseq p + 1) % 4096
    ∧ (h.sendCell p i).cell i = some { c with pend := c.pend - (c.pend &&& 2 ^ p), repl := c.repl ||| (c.pend &&& 2 ^ p) } := by
  have hle : p ≤ 8 := of_decide_eq_true hl
  have hp : p < 18 := by omega
  have hstat : Reg.KL_REPLAY_STAT p ∉ blockRegs .pmc := fun hm => by
    obtain ⟨-, hhi⟩ := hm
    rw [show Block.pmc.base = 0x00100000 from rfl] at hhi
    unfold Reg.KL_REPLAY_STAT at hhi
    omega
  obtain ⟨f, hf, hsend⟩ := Hub.sendCell_eq (p := p) hi htc hcodes
  rw [hsend]
  generalize hj : (h.wrF (Reg.KL_REPLAY_STAT p) 11 0 ((h.nextRseq p + 1) % 4096)).updLink p f = j
  have hnumbered : Frame h j [.links] {Reg.KL_REPLAY_STAT p} [] := by
    rw [← hj]
    exact ((Frame.refl h).wrF (Set.mem_singleton _)).updLink List.mem_cons_self
  have hread := Hub.readCell_frame hp (j.emit (.cell p (c.header (h.nextRseq p)) (dataBlocks c.payload))) i
  have hcell : j.cell i = some c := (Hub.cell_congr (hnumbered.part .cells (by decide)) i).trans hi
  have hmuted : j.sends p = h.sends p :=
    funext fun l => hnumbered.sends (fun x hx e => kl_notMem_lnx (Nat.le_trans (by decide) (Nat.le_add_right _ _)) (e ▸ hx)) (by omega) l
  refine ⟨?frame, ?out, ?unacked, ?rseq, Hub.readCell_cell_of_link hl hcell hpend⟩
  case frame =>
    exact ((hnumbered.mono (by decide) Set.subset_union_right (by decide)).emit).trans
      (hread.mono (List.Subset.refl _) Set.subset_union_left (List.Subset.refl _))
  case out =>
    rw [Hub.readCell_out, ← hmuted, ← show j.out = h.out from hj ▸ rfl]
    rfl
  case unacked =>
    rw [Hub.readCell_unacked hp, ← hf, ← hj]
    exact congrArg LinkSt.unacked (Hub.link_updLink_self _ p f)
  case rseq =>
    have hset : j.nextRseq p = (h.nextRseq p + 1) % 4096 := by
      rw [← hj]
      show fld ((h.wrF (Reg.KL_REPLAY_STAT p) 11 0 ((h.nextRseq p + 1) % 4096)).rd (Reg.KL_REPLAY_STAT p)) 11 0 = _
      rw [Hub.rd_wrF, if_pos rfl, fld_setFld _ _ _ _ (by decide)]
      exact Nat.mod_mod _ 4096
    exact (hread.rdF hstat 11 0).trans hset

/-! ### A frame leaves by the steward (R174) -/

theorem Hub.deliver_frame (h : Hub) (n t fseq tmask : Nat) : Frame h (h.deliver n t fseq tmask) [.ctxs] ∅ [] := by
  have hr := Frame.refl (ps := [.ctxs]) (rs := ∅) (bs := []) h
  exact hr.ite ((hr.updCtx (by simp)).ite ((hr.updCtx (by simp)).ite (hr.updCtx (by simp))))

/-- A frame whose cells are all good is read whole and delivered. -/
theorem Hub.exitFrame_of_good {u : List Nat} (hgood : u.all (fun i => h.cellGood i false) = true) (n t : Nat) :
    ∃ fseq tmask, h.exitFrame n t u none = (u.foldl (fun h i => h.readCell t i) h).deliver n t fseq tmask := by
  have hnone : u.zipIdx.find? (fun e => !h.cellGood e.1 (decide (none = some e.2))) = none :=
    List.find?_eq_none.mpr fun e he => by simpa using List.all_eq_true.mp hgood e.1 (List.fst_mem_of_mem_zipIdx he)
  unfold Hub.exitFrame
  rw [hnone]
  exact ⟨_, _, rfl⟩

/-- After the read of its cells the steward's exit delivers the frame, and the firmware may discard it. -/
theorem Hub.stewardExit_frame {u : List Nat} (hgood : u.all (fun i => h.cellGood i false) = true) (n : Nat) :
    Frame (u.foldl (fun h i => h.readCell 0x11 i) h) (h.stewardExit n u none) [.ctxs, .free, .pmc] pmcRegs [.pmc] := by
  obtain ⟨fseq, tmask, hexit⟩ := Hub.exitFrame_of_good hgood n 0x11
  have hdelivered : Frame (u.foldl (fun h i => h.readCell 0x11 i) h) (h.exitFrame n 0x11 u none) [.ctxs, .free, .pmc] pmcRegs [.pmc] :=
    hexit ▸ (Hub.deliver_frame _ n 0x11 fseq tmask).mono (by decide) (Set.empty_subset _) (by decide)
  have htold {b : List Byte} {fl : Nat} := (hdelivered.draw (by decide)).emit (e := .steward fl b)
  refine Frame.ite ?_ hdelivered
  exact htold.ite ((htold.updCtx (by decide)).dropEvent (by decide) subset_rfl (by decide))

end Sys2Proof.Machine
end

section
/-! SUPPORT. The egress decision of a port as a command (R226, R229, R144). -/

namespace Sys2Proof.Machine

variable {h k : Hub} {s : State} {p : EgressNo} {e : Option Nat} {n t i r : Nat} {c : CellSt}

/-- What a port does as it can accept a unit: a replay goes on, or TSS chooses. -/
def Hub.egress (t : EgressNo) (ecc : Option Nat) (h : Hub) : Hub :=
  if isLinkPort t && (h.link t).replay.isSome && (decide (h.klState t ≤ 5 ∧ 2 ≤ h.klState t) || decide (h.klState t = 8)) then
    h.resend t ecc.isSome
  else
    match (h.skipFailed t).decision t with
    | (h, none) => (h.pmcEvent 0x05 t 0).pmcDecision t (h.decRecord t none)
    | (h, some n) => (h.leave n t ecc).pmcDecision t ((h.leave n t ecc).decRecord t (some n))

theorem exec_egressDecision (p : EgressNo) (e : Option Nat) (s : State) :
    exec (.egressDecision p e) s = actT s (s.hub.mainUp && portPresent s.hub.straps p) (Hub.egress p e) := rfl

theorem Hub.egress_of_replay (hl : isLinkPort p = true) (hrep : (h.link p).replay.isSome = true)
    (hst : 2 ≤ h.klState p ∧ h.klState p ≤ 5 ∨ h.klState p = 8) : h.egress p e = h.resend p e.isSome := by
  unfold Hub.egress
  rw [if_pos]
  simpa [hl, hrep, and_comm] using hst

/-- No replay runs on the port. -/
def Hub.chooses (h : Hub) (p : Nat) : Prop := isLinkPort p = false ∨ (h.link p).replay = none

theorem Hub.egress_of_chooses (hno : h.chooses p) : h.egress p e =
    match (h.skipFailed p).decision p with
    | (h, none) => (h.pmcEvent 0x05 p 0).pmcDecision p (h.decRecord p none)
    | (h, some n) => (h.leave n p e).pmcDecision p ((h.leave n p e).decRecord p (some n)) := by
  unfold Hub.egress
  rw [if_neg]
  rcases hno with hl | hrep
  · simp [hl]
  · simp [hrep]

section
variable (hup : s.hub.mainUp = true) (hport : portPresent s.hub.straps p = true)
include hup hport

theorem runs_egress_replay (hl : isLinkPort p = true) (hrep : (s.hub.link p).replay.isSome = true)
    (hst : 2 ≤ s.hub.klState p ∧ s.hub.klState p ≤ 5 ∨ s.hub.klState p = 8) :
    Runs (.egressDecision p e) s (settle s.hub (s.hub.fresh.tscWatch (s.hub.fresh.resend p e.isSome))) := by
  rw [← Hub.egress_of_replay (h := s.hub.fresh) hl hrep hst]
  exact runs_actT (exec_egressDecision p e s) (by rw [hup, hport]; rfl)

theorem runs_egress_idle (hno : s.hub.chooses p) (hdec : (s.hub.fresh.skipFailed p).decision p = (h, none)) :
    Runs (.egressDecision p e) s
      (settle s.hub (s.hub.fresh.tscWatch ((h.pmcEvent 0x05 p 0).pmcDecision p (h.decRecord p none)))) := by
  have hegress : s.hub.fresh.egress p e = (h.pmcEvent 0x05 p 0).pmcDecision p (h.decRecord p none) := by
    rw [Hub.egress_of_chooses (h := s.hub.fresh) hno, hdec]
  rw [← hegress]
  exact runs_actT (exec_egressDecision p e s) (by rw [hup, hport]; rfl)

theorem runs_egress_leave (hno : s.hub.chooses p) (hdec : (s.hub.fresh.skipFailed p).decision p = (h, some n)) :
    Runs (.egressDecision p e) s
      (settle s.hub (s.hub.fresh.tscWatch ((h.leave n p e).pmcDecision p ((h.leave n p e).decRecord p (some n))))) := by
  have hegress : s.hub.fresh.egress p e = (h.leave n p e).pmcDecision p ((h.leave n p e).decRecord p (some n)) := by
    rw [Hub.egress_of_chooses (h := s.hub.fresh) hno, hdec]
  rw [← hegress]
  exact runs_actT (exec_egressDecision p e s) (by rw [hup, hport]; rfl)

end

theorem Hub.skipFailed_of_none (hf : (h.tport t).failed = []) : h.skipFailed t = h := by
  unfold Hub.skipFailed
  rw [hf]
  rfl

theorem Frame.pmcDecision {ps : List Part} {rs : Set Nat} {bs : List Block} {d : PmcDec} (a : Frame h k ps rs bs) (hp : Part.pmc ∈ ps) :
    Frame h (k.pmcDecision t d) ps rs bs := by
  unfold Hub.pmcDecision
  exact a.updPmc hp

/-! ### An idle slot (R229) -/

/-- A port with nothing pending takes an idle slot. -/
theorem ends_egress_idle (hup : s.hub.mainUp = true) (hport : portPresent s.hub.straps p = true) (hno : s.hub.chooses p)
    (hf : (s.hub.tport p).failed = []) (hnone : s.hub.fts.all (fun e => decide (e.1 % 32 ≠ p.val)) = true) :
    Ends (.egressDecision p e) s [.pmc] (blockRegs .pmc ∪ {Reg.TSC_KITTY_MIN}) [.pmc, .tsc] (fun t => t.hub.out = []) := by
  have hdec : (s.hub.fresh.skipFailed p).decision p = (s.hub.fresh, none) := by
    rw [Hub.skipFailed_of_none (h := s.hub.fresh) hf]
    exact Hub.decision_idle hnone
  have hidle : Frame s.hub.fresh ((s.hub.fresh.pmcEvent 0x05 p 0).pmcDecision p (s.hub.fresh.decRecord p none))
      [.pmc] (blockRegs .pmc ∪ {Reg.TSC_KITTY_MIN}) [.pmc, .tsc] :=
    Frame.pmcDecision (Frame.pmcEvent (Frame.refl _) (by decide) (pmcRegs_subset_pmc.trans Set.subset_union_left) (by decide)) (by decide)
  refine (runs_egress_idle hup hport hno hdec).ends ?_ ?_
  · exact ((Frame.fresh s.hub).trans (hidle.tscWatch (hidle.part .cells (by decide)) (.inr rfl) (by decide))).settle s.hub
  · exact (settle_out _ _).trans ((Hub.tscWatch_out _ _).trans (Hub.pmcEvent_out _ _ _ _ _))

/-! ### A replay sends its last cell again (R144) -/

/-- The state of a link port whose replay has sent cell `r` and ends. -/
def LinkSt.resent (l : LinkSt) (r now : Nat) : LinkSt :=
  { l with
    times := l.times.map fun x => if x.rseq = r then { x with last := now, again := true } else x
    replay := none }

/-- A place that no pennant failure has voided goes out as its cell. -/
theorem LinkSt.resent_not_void {l : LinkSt} (hvoid : l.times.all (fun x => decide (x.void = none)) = true) (r now : Nat) :
    (l.resent r now).times.findSome? (fun x => if x.rseq = r then x.void else none) = none := by
  refine List.findSome?_eq_none_iff.mpr fun y hy => ?_
  obtain ⟨x, hx, rfl⟩ := List.mem_map.mp hy
  have hnone : x.void = none := of_decide_eq_true (List.all_eq_true.mp hvoid x hx)
  by_cases hr : x.rseq = r <;> simp [hr, hnone]

/-- The last cell of a replay is counted as it is sent again. -/
def Hub.resentLast (h : Hub) (t r : Nat) (c : CellSt) : Hub :=
  ((h.updLink t fun l => l.resent r h.mono).inc (Reg.KL_CNT_REPLAY t)).pmcEvent 0x07 t c.tc

/-- The registers that the last cell of a replay moves. -/
def resendRegs (t : Nat) : Set Nat := {Reg.KL_CNT_REPLAY t} ∪ pmcRegs

theorem Hub.resentLast_counted (h : Hub) (t r : Nat) (c : CellSt) :
    Frame ((h.updLink t fun l => l.resent r h.mono).inc (Reg.KL_CNT_REPLAY t)) (h.resentLast t r c) [.pmc] pmcRegs [.pmc] :=
  (Frame.refl _).pmcEvent (by decide) subset_rfl (by decide)

theorem Hub.resentLast_frame (h : Hub) (t r : Nat) (c : CellSt) : Frame h (h.resentLast t r c) [.links, .pmc] (resendRegs t) [.pmc] :=
  Frame.trans (Frame.inc (Frame.updLink (Frame.refl h) (by decide)) (.inl rfl))
    ((h.resentLast_counted t r c).mono (by decide) Set.subset_union_right (by decide))

theorem Hub.resentLast_out (h : Hub) (t r : Nat) (c : CellSt) : (h.resentLast t r c).out = h.out := Hub.pmcEvent_out _ _ _ _ _

theorem Hub.resentLast_link (h : Hub) (t r : Nat) (c : CellSt) : (h.resentLast t r c).link t = (h.link t).resent r h.mono :=
  ((h.resentLast_counted t r c).link (by decide) t).trans (Hub.link_updLink_self h t fun l => l.resent r h.mono)

theorem Hub.resentLast_count (h : Hub) (t r : Nat) (c : CellSt) :
    (h.resentLast t r c).rd (Reg.KL_CNT_REPLAY t) = incHold (h.rd (Reg.KL_CNT_REPLAY t)) := by
  have hflags : Reg.KL_CNT_REPLAY t ∉ pmcRegs := by
    rintro ⟨i, hi, e⟩
    unfold Reg.KL_CNT_REPLAY Reg.PMC_OVF at e
    omega
  rw [(h.resentLast_counted t r c).reg _ hflags, Hub.rd_inc, if_pos rfl]
  rfl

/-- A port sends by the same lanes after it has counted the last cell of a replay. -/
theorem Hub.resentLast_sends (ht : t ≤ 8) (h : Hub) (r : Nat) (c : CellSt) : (h.resentLast t r c).sends t = h.sends t := by
  refine funext fun l => (h.resentLast_frame t r c).sends (fun x hx hm => ?_) (by omega) l
  rcases hm with rfl | hm
  · exact kl_notMem_lnx (Nat.le_trans (by decide) (Nat.le_add_right _ _)) hx
  · obtain ⟨hlo, -⟩ := hx
    obtain ⟨i, hi, rfl⟩ := hm
    rw [Block.base_lnx] at hlo
    unfold Reg.PMC_OVF at hlo
    omega

/-- The last cell of a replay, good and without a code, goes out again. -/
theorem Hub.resend_last (hrep : (h.link t).replay = some r) (hun : (h.link t).unacked = [(r, i)]) (hi : h.cell i = some c)
    (hgood : h.cellGood i false = true) (hcodes : (h.link t).codes = [])
    (hvoid : (h.link t).times.all (fun x => decide (x.void = none)) = true) :
    h.resend t false = (h.resentLast t r c).emit (.cell t (c.header r) (dataBlocks c.payload)) := by
  have hfirst : (h.link t).unacked.dropWhile (fun e => decide (e.1 ≠ r)) = [(r, i)] := by
    rw [hun]
    simp
  have hwhole : ¬((h.cell i).isSome && !h.cellGood i false) = true := by simp [hgood]
  unfold Hub.resend
  rw [hrep]
  dsimp only
  rw [hfirst]
  dsimp only
  rw [if_neg hwhole]
  split
  next v hv =>
    have hnot := LinkSt.resent_not_void hvoid r h.mono
    rw [← Hub.link_updLink_self h t fun l => l.resent r h.mono] at hnot
    exact absurd (hnot.symm.trans hv) (by simp)
  next =>
    split
    next c' hc' =>
      obtain rfl : c = c' := Option.some.inj (hi.symm.trans hc')
      refine Hub.putCell_of_no_code (h := h.resentLast t r c) ?_
      rw [Hub.resentLast_link, show ((h.link t).resent r h.mono).codes = (h.link t).codes from rfl, hcodes]
      rfl
    next hc' => exact absurd (hi.symm.trans hc') (by simp)

/-- What is sent again at the end of a replay, and what the port shows of it. -/
theorem ends_egress_resend (hup : s.hub.mainUp = true) (hport : portPresent s.hub.straps p = true) (hl : isLinkPort p = true)
    (hst : 2 ≤ s.hub.klState p ∧ s.hub.klState p ≤ 5 ∨ s.hub.klState p = 8) (hrep : (s.hub.link p).replay = some r)
    (hun : (s.hub.link p).unacked = [(r, i)]) (hi : s.hub.cell i = some c) (hgood : s.hub.cellGood i false = true)
    (hcodes : (s.hub.link p).codes = []) (hvoid : (s.hub.link p).times.all (fun x => decide (x.void = none)) = true) :
    Ends (.egressDecision p none) s [.links, .pmc] ({Reg.KL_CNT_REPLAY p, Reg.TSC_KITTY_MIN} ∪ pmcRegs) [.pmc, .tsc] (fun t =>
      t.hub.out = s.hub.sends p [.cell p (c.header r) (dataBlocks c.payload)]
      ∧ (t.hub.link p).replay = none ∧ t.hub.rd (Reg.KL_CNT_REPLAY p) = incHold (s.hub.rd (Reg.KL_CNT_REPLAY p))) := by
  have hle : p.val ≤ 8 := of_decide_eq_true hl
  have hegress : s.hub.fresh.egress p none = (s.hub.fresh.resentLast p r c).emit (.cell p (c.header r) (dataBlocks c.payload)) :=
    (Hub.egress_of_replay (h := s.hub.fresh) hl (by rw [show (s.hub.fresh.link p).replay = some r from hrep]; rfl) hst).trans
      (Hub.resend_last (h := s.hub.fresh) hrep hun hi hgood hcodes hvoid)
  have hframe := ((s.hub.fresh.resentLast_frame p r c).mono (List.Subset.refl _)
    (rs' := {Reg.KL_CNT_REPLAY p, Reg.TSC_KITTY_MIN} ∪ pmcRegs) (Set.union_subset_union_left _ (by simp)) (bs' := [.pmc, .tsc]) (by decide)).emit
      (e := .cell p (c.header r) (dataBlocks c.payload))
  have hcells := hframe.part .cells (by decide)
  have hkitty : Reg.KL_CNT_REPLAY p ≠ Reg.TSC_KITTY_MIN := by
    unfold Reg.KL_CNT_REPLAY Reg.TSC_KITTY_MIN
    omega
  refine ends_actT (exec_egressDecision p none s) (by rw [hup, hport]; rfl) hegress hcells (.inl (.inr rfl)) (by decide) hframe
    ⟨?out, ?replay, ?count⟩
  case out =>
    refine (Hub.cycleEnd_out hcells).trans ?_
    rw [← show s.hub.fresh.sends p = s.hub.sends p from rfl, ← Hub.resentLast_sends hle s.hub.fresh r c, Hub.emit, Hub.resentLast_out]
    rfl
  case replay => exact congrArg LinkSt.replay ((Hub.cycleEnd_link hcells p).trans (s.hub.fresh.resentLast_link p r c))
  case count => exact (Hub.cycleEnd_rd hcells hkitty).trans (s.hub.fresh.resentLast_count p r c)

end Sys2Proof.Machine
end

section
/-! SUPPORT. The unit that TSS chose leaves (R226, R229): from the decision to the end of the command. -/

namespace Sys2Proof.Machine

variable {h k : Hub} {s : State} {p : EgressNo} {n t i r : Nat} {c : CellSt}

/-- The decision is taken, and the chosen unit is charged as it starts (R231). -/
def Hub.started (h : Hub) (n t : Nat) : Hub :=
  let d := (h.decision t).1
  d.charge n t (d.ctx n).tc (d.unitCharge t (d.headUnit n t))

/-! ### What happens before the unit leaves -/

theorem mem_exitRegs_tss {a : Nat} (ha : a ∈ blockRegs .tss) : a ∈ exitRegs := .inl (.inl (.inr ha))

theorem pmc_subset_exitRegs : blockRegs .pmc ⊆ exitRegs := fun _ hx => .inl (.inr hx)

theorem tsc_subset_exitRegs : blockRegs .tsc ⊆ exitRegs := fun _ hx => .inl (.inl (.inl hx))

/-- The registers of LNX and of KLL's ports are none of those that a unit on its way out moves. -/
theorem notMem_exitRegs {a : Nat} (hlo : 0x00800000 ≤ a) (hhi : a < 0x01000000) : a ∉ exitRegs := by
  rintro (((⟨hge, -⟩ | ⟨hge, -⟩) | ⟨-, hlt⟩) | rfl)
  · rw [Block.base_tsc] at hge
    omega
  · rw [Block.base_tss] at hge
    omega
  · rw [show Block.pmc.base = 0x00100000 from rfl] at hlt
    omega
  · exact absurd hhi (by decide)

theorem decisionRegs_subset (ht : t < 18) : decisionRegs t ⊆ exitRegs := by
  refine Set.union_subset (Set.singleton_subset_iff.mpr (mem_exitRegs_tss ⟨?_, ?_⟩)) (pmcRegs_subset_pmc.trans pmc_subset_exitRegs) <;>
    rw [Block.base_tss] <;> unfold Reg.TS_GATE_WAIT <;> omega

theorem chargeRegs_subset (ht : t < 18) : chargeRegs t ⊆ exitRegs := by
  refine Set.union_subset (pmcRegs_subset_pmc.trans pmc_subset_exitRegs)
    (Set.pair_subset (mem_exitRegs_tss ⟨?_, ?_⟩) (.inr rfl)) <;>
    rw [Block.base_tss] <;> unfold Reg.TS_OVERRUN <;> omega

/-- The parts that a decision and the charge may change. -/
def startParts : List Part := [.pmc, .fts, .ctxs, .tports, .pins]

theorem Hub.started_frame (ht : t < 18) (h : Hub) (n : Nat) : Frame h (h.started n t) startParts exitRegs [.tss, .pmc, .sit] :=
  ((h.decision_frame t).mono (by decide) (decisionRegs_subset ht) (by decide)).trans
    ((Hub.charge_frame _ n t _ _).mono (by decide) (chargeRegs_subset ht) (by decide))

theorem Hub.decision_fresh (h : Hub) (t : Nat) : h.fresh.decision t = pickWithOut [] (h.decision t) := h.decision_withOut [] t

theorem Hub.started_out (h : Hub) (n t : Nat) : (h.fresh.started n t).out = [] := by
  rw [Hub.started, Hub.charge_out, Hub.decision_fresh]
  rfl

/-- The unit that leaves is the one that the decision saw at the flow's head. -/
theorem Hub.decision_headUnit (h : Hub) (n t : Nat) : (h.decision t).1.headUnit n t = h.headUnit n t :=
  Hub.headUnit_congr ((h.decision_frame t).part .ctxs (by decide)) ((h.decision_frame t).part .cells (by decide)) n t

/-! ### What happens after it -/

/-- After a unit has left: its flow's next head starts anew, a capture may keep the decision, and the command ends. -/
theorem departed_frame (s x : Hub) (n t : Nat) (d : PmcDec) :
    Frame x (settle s (s.fresh.tscWatch ((x.newHead n t).pmcDecision t d))) [.fts, .pmc] (blockRegs .tsc) [.tsc] :=
  ((Frame.pmcDecision ((x.newHead_frame n t).mono (by decide) (Set.empty_subset _) (by decide)) (by decide)).trans
    ((Hub.tscWatch_frame _ _).mono (by decide) subset_rfl (List.Subset.refl _))).settle s

theorem departed_out (s x : Hub) (n t : Nat) (d : PmcDec) :
    (settle s (s.fresh.tscWatch ((x.newHead n t).pmcDecision t d))).out = x.out :=
  (settle_out _ _).trans ((Hub.tscWatch_out _ _).trans (x.newHead_out n t))

/-- With no frame that failed, the chosen flow's head unit is charged, leaves by its port, and the command ends. -/
theorem runs_egress_chosen (hup : s.hub.mainUp = true) (hport : portPresent s.hub.straps p = true) (hno : s.hub.chooses p)
    (hf : (s.hub.tport p).failed = []) (hdec : (s.hub.decision p).2 = some n) :
    ∃ d, Runs (.egressDecision p none) s (settle s.hub (s.hub.fresh.tscWatch
      ((((s.hub.fresh.started n p).unitExit n p (s.hub.headUnit n p) none).newHead n p).pmcDecision p d))) := by
  have hpick : (s.hub.fresh.skipFailed p).decision p = ((s.hub.fresh.decision p).1, some n) := by
    rw [Hub.skipFailed_of_none (h := s.hub.fresh) hf, ← hdec, Hub.decision_fresh]
    rfl
  have hunit : (s.hub.fresh.decision p).1.headUnit n p = s.hub.headUnit n p :=
    (s.hub.fresh.decision_headUnit n p).trans (Hub.headUnit_congr (h := s.hub) (k := s.hub.fresh) rfl rfl n p)
  rw [← hunit]
  exact ⟨_, runs_egress_leave hup hport hno hpick⟩

/-! ### By a link port (R128, R141, R142) -/

theorem Hub.cellGood_congr (hcells : k.cells = h.cells) (i : Nat) (ecc : Bool) : k.cellGood i ecc = h.cellGood i ecc := by
  unfold Hub.cellGood
  rw [Hub.cell_congr hcells]

/-- A head unit on a link port is a cell that waits for the port. -/
theorem Hub.pend_of_headUnit (hu : h.headUnit n t = [i]) (hl : isLinkPort t = true) (hi : h.cell i = some c) : c.pend.testBit t = true := by
  have hwaits : i ∈ h.pendingOf n t := by
    unfold Hub.headUnit at hu
    split at hu
    next => exact absurd hu (by simp)
    next j l hj =>
      rw [if_pos hl] at hu
      rw [hj, List.singleton_inj.mp hu]
      exact List.mem_cons_self
  simpa [hi] using (List.mem_filter.mp hwaits).2

theorem ends_egress_link (hup : s.hub.mainUp = true) (hport : portPresent s.hub.straps p = true) (hl : isLinkPort p = true)
    (hrep : (s.hub.link p).replay = none) (hf : (s.hub.tport p).failed = []) (hdec : (s.hub.decision p).2 = some n)
    (hu : s.hub.headUnit n p = [i]) (hi : s.hub.cell i = some c) (hgood : s.hub.cellGood i false = true) (htc : c.tc ≠ 6)
    (hcodes : (s.hub.link p).codes.all (fun e => decide (e.1 ≠ s.hub.nextRseq p)) = true) :
    Ends (.egressDecision p none) s exitParts (exitRegs ∪ {Reg.KL_REPLAY_STAT p}) exitBlocks (fun t =>
      t.hub.out = s.hub.sends p [.cell p (c.header (s.hub.nextRseq p)) (dataBlocks c.payload)]
      ∧ (t.hub.link p).unacked = (s.hub.link p).unacked ++ [(s.hub.nextRseq p, i)]
      ∧ t.hub.nextRseq p = (s.hub.nextRseq p + 1) % 4096
      ∧ t.hub.cell i = some { c with pend := c.pend - (c.pend &&& 2 ^ p.val), repl := c.repl ||| (c.pend &&& 2 ^ p.val) }) := by
  have hle : p.val ≤ 8 := of_decide_eq_true hl
  obtain ⟨d, hrun⟩ := runs_egress_chosen hup hport (.inr hrep) hf hdec
  have hstart := s.hub.fresh.started_frame p.isLt n
  have hout := s.hub.started_out n p
  generalize s.hub.fresh.started n p = a at hrun hstart hout
  have hcells : a.cells = s.hub.cells := hstart.part .cells (by decide)
  have hlink : a.link p = s.hub.link p := hstart.link (by decide) p
  have hrseq : a.nextRseq p = s.hub.nextRseq p :=
    hstart.rdF (notMem_exitRegs (Nat.le_trans (by decide) (Nat.le_add_right _ _)) (by omega)) 11 0
  have hsends : a.sends p = s.hub.sends p := funext fun l => hstart.sends (fun x hx => by
    obtain ⟨hlo, hhi⟩ := hx
    rw [Block.base_lnx] at hlo hhi
    exact notMem_exitRegs hlo (by omega)) (by omega) l
  have hexit : a.unitExit n p (s.hub.headUnit n p) none = a.sendCell p i := by
    rw [Hub.unitExit, if_pos hl, hu]
    exact if_pos ((Hub.cellGood_congr hcells i false).trans hgood)
  rw [hexit] at hrun
  obtain ⟨hsent, hsentOut, hunacked, hnext, hcell⟩ := Hub.sendCell_below_tc6 hl ((Hub.cell_congr hcells i).trans hi)
    (Hub.pend_of_headUnit hu hl hi) htc (by rw [hlink, hrseq]; exact hcodes)
  have hend := departed_frame s.hub (a.sendCell p i) n p d
  have hkl : Reg.KL_REPLAY_STAT p ∉ blockRegs .tsc := fun hm =>
    notMem_exitRegs (Nat.le_trans (by decide) (Nat.le_add_right _ _)) (by omega) (tsc_subset_exitRegs hm)
  refine hrun.ends ?frame ⟨?out, ?unacked, ?rseq, ?cell⟩
  case frame =>
    exact ((Frame.fresh s.hub).trans (hstart.mono (by decide) Set.subset_union_left (by decide))).trans
      ((hsent.mono (by decide) (Set.union_subset_union_left _ pmc_subset_exitRegs) (by decide)).trans
        (hend.mono (by decide) (tsc_subset_exitRegs.trans Set.subset_union_left) (by decide)))
  case out => exact (departed_out _ _ _ _ _).trans (by rw [hsentOut, hout, hsends, hrseq]; rfl)
  case unacked => exact (congrArg LinkSt.unacked (hend.link (by decide) p)).trans (by rw [hunacked, hlink, hrseq])
  case rseq => exact (hend.rdF hkl 11 0).trans (hnext.trans (by rw [hrseq]))
  case cell => exact (Hub.cell_congr (hend.part .cells (by decide)) i).trans hcell

/-! ### By the steward (R174) -/

theorem Hub.readCells_frame (ht : t < 18) (u : List Nat) (h : Hub) :
    Frame h (u.foldl (fun h i => h.readCell t i) h) readParts (blockRegs .pmc) [.pmc] :=
  Frame.foldl _ (Frame.refl h) fun i j _ a => a.trans (j.readCell_frame ht i)

theorem ends_egress_steward {u : List Nat} (hup : s.hub.mainUp = true) (hf : (s.hub.tport 0x11).failed = [])
    (hdec : (s.hub.decision 0x11).2 = some n) (hu : u = s.hub.headUnit n 0x11) (hgood : u.all (fun i => s.hub.cellGood i false) = true) :
    Ends (.egressDecision (0x11 : EgressNo) none) s (.free :: exitParts) exitRegs exitBlocks (fun t =>
      ∀ i ∈ u, (t.hub.cell i).all (fun c => !c.pend.testBit 0x11) = true) := by
  obtain ⟨d, hrun⟩ : ∃ d, Runs (.egressDecision (0x11 : EgressNo) none) s (settle s.hub (s.hub.fresh.tscWatch
      ((((s.hub.fresh.started n 0x11).stewardExit n (s.hub.headUnit n 0x11) none).newHead n 0x11).pmcDecision 0x11 d))) :=
    runs_egress_chosen (p := 0x11) hup rfl (.inl rfl) hf hdec
  have hstart := s.hub.fresh.started_frame (t := 0x11) (by decide) n
  rw [← hu] at hrun
  generalize s.hub.fresh.started n 0x11 = a at hrun hstart
  have hcells : a.cells = s.hub.cells := hstart.part .cells (by decide)
  have hwhole : u.all (fun i => a.cellGood i false) = true := by
    simp only [Hub.cellGood_congr hcells]
    exact hgood
  have hread := Hub.readCells_frame (t := 0x11) (by decide) u a
  have hleft := Hub.stewardExit_frame hwhole n
  have hend := departed_frame s.hub (a.stewardExit n u none) n 0x11 d
  refine hrun.ends ?frame fun i hi => ?unreferred
  case frame =>
    exact ((Frame.fresh s.hub).trans (hstart.mono (by decide) subset_rfl (by decide))).trans
      ((hread.mono (by decide) pmc_subset_exitRegs (by decide)).trans
        ((hleft.mono (by decide) (pmcRegs_subset_pmc.trans pmc_subset_exitRegs) (by decide)).trans
          (hend.mono (by decide) tsc_subset_exitRegs (by decide))))
  case unreferred =>
    exact (Hub.unreferred_congr ((hend.part .cells (by decide)).trans (hleft.part .cells (by decide))) 0x11 i).trans
      (Hub.readCells_unreferred (by decide) u a (.inl hi))

end Sys2Proof.Machine
end

section
/-! SUPPORT. The scheduler as a whole (R229, R233, R247, R251): O42 from the lemmas on its operations. -/

namespace Sys2Proof.Machine

theorem Ctx.refilled_of_shaped {c : Ctx} (hc : c.state = .resident ∧ c.shaped = true) (us : Nat) : c.refilled us = { c with
    tokens := (refill c.shapeRate us c.depth c.tokens c.frac).1
    frac := (refill c.shapeRate us c.depth c.tokens c.frac).2
    shapeOn := true } := if_pos hc

theorem Ctx.refilled_of_not_shaped {c : Ctx} (hc : ¬(c.state = .resident ∧ c.shaped = true)) (us : Nat) :
    c.refilled us = { c with shapeOn := false } := if_neg hc

theorem Hub.checkAnswer_outOfRange {h : Hub} {t c : Nat} {b : Bool} (ht : 0x11 < t) : h.checkAnswer t b c = mbxErr 2 := if_pos ht

theorem Hub.checkAnswer_inRange {h : Hub} {t c : Nat} {b : Bool} (ht : t ≤ 0x11) : h.checkAnswer t b c =
    mbxOk [(longestWindow c (h.gSegs t b)).elim 0xFFFFFFFF w32,
      w32 (((h.gSegs t b).filter fun x => x.gates.testBit c).map fun x => x.stop - x.start).sum,
      w32 ((List.range (h.gLen t b)).map fun e => entryNs (h.gEntry t b e)).sum, w32 (h.gCycle t b)] := if_neg (by omega)

/-- Settles O42: each clause is the lemma on its operation. A decision reads and writes the hub less what the command sends out, so its
choice is the one that the clause names; a cell and a frame leave by the reads of their cells. -/
theorem scheduling : Obligations.Scheduling := by
  unfold Obligations.Scheduling
  refine ⟨?idle, ?link, ?steward, ?replay, ?refill, ?deal, ?read, ?refused, ?check, ?runsReplay, ?runsIdle, ?runsLeave⟩
  case idle =>
    intro s p hup hport hrep hf hnone
    exact ends_egress_idle hup hport (.inr hrep) hf hnone
  case link =>
    intro s p n i r c hup hport hl hrep hf hdec hu hi hgood htc hr hcodes
    subst hr
    exact ends_egress_link hup hport hl hrep hf hdec hu hi hgood htc hcodes
  case steward =>
    intro s n u hup hf hdec hu hgood
    exact ends_egress_steward hup hf hdec hu hgood
  case replay =>
    intro s p i r c hup hport hl hst hrep hun hi hgood hcodes hvoid
    exact ends_egress_resend hup hport hl hst hrep hun hi hgood hcodes hvoid
  case refill =>
    intro s hup hdue hnd
    refine (ends_shaperRefill hup hdue hnd).imp fun t ⟨hctx, hclass⟩ => ⟨fun n hres hsh => ?_, fun n hno => ?_, hclass⟩
    · exact (hctx n).trans (Ctx.refilled_of_shaped ⟨hres, hsh⟩ _)
    · exact (hctx n).trans (Ctx.refilled_of_not_shaped hno _)
  case deal =>
    intro s p n q a f hup hdeal hnext hft
    exact ends_dealPortDone hup hdeal hnext hft
  case read =>
    intro s n t hop hn ht hport hslot hres
    refine (ends_flowSchedRead hop hn ht).imp fun u hu => ?_
    refine hu.trans (congrArg some ((Hub.schedAnswer_resident hport hslot hres).trans ?_))
    cases s.hub.ft n t <;> rfl
  case refused =>
    intro s n t hop hn ht
    refine (ends_flowSchedRead hop hn ht).imp fun u hu => ⟨fun hout => ?_, fun hport hslot hres => ?_⟩
    · rw [hu, Hub.schedAnswer_outOfRange hout]
    · rw [hu, Hub.schedAnswer_notResident hport hslot hres]
  case check =>
    intro s t c b hop ht hb hc
    refine (ends_gateCheck hop ht hb hc).imp fun u hu => ⟨fun hout => ?_, fun hin => ?_⟩
    · rw [hu, Hub.checkAnswer_outOfRange hout]
    · rw [hu, Hub.checkAnswer_inRange hin]
  case runsReplay =>
    intro s p e hup hport hl hrep hst
    exact runs_egress_replay hup hport hl hrep hst
  case runsIdle =>
    intro s p e h hup hport hno hdec
    exact runs_egress_idle hup hport hno hdec
  case runsLeave =>
    intro s p e h n hup hport hno hdec
    exact runs_egress_leave hup hport hno hdec

end Sys2Proof.Machine
end
